-- ==== Sys2Proof/Word.lean ====
section
/-! DEFINITION. The word types of the N8 and the carrier of its sparse tables.
Bit ranges follow R10 (bit 0 least significant) and byte strings follow R9 (little-endian). -/
namespace Sys2Proof

abbrev Byte := BitVec 8
abbrev W16 := BitVec 16
abbrev W32 := BitVec 32
abbrev W64 := BitVec 64

/-- A vector register or vector queue entry (R106). -/
abbrev VReg := BitVec 2048

/-- A mask register (R107). -/
abbrev Mask := BitVec 512

/-- A 64-byte descriptor, packet or line. -/
abbrev Line := BitVec 512

/-- A sparse table: key and value pairs with strictly rising keys; what an unlisted key reads as is said
where the table is read (Machine/Tab.lean). -/
abbrev Tab (α : Type) := List (Nat × α)

end Sys2Proof
end

