-- ==== Sys2Proof/Syntax.lean ====
section
/-! DEFINITION. The commands of the N8, one constructor per row of opcode_table.json, and their operands.
Log entry 1, DESIGN CHOICE says how a row's operands were chosen: what arrives from outside (pin levels, packet contents, sensor
readings, results of kernels) is an operand; everything the N8 holds itself is read from the state. -/
namespace Sys2Proof

/-- A hardware thread of a virtual core (R70). -/
structure Tid where
  vcore : Nat
  thread : Nat
deriving DecidableEq, Repr

/-- One bundle as it lies in the code (R78, R79): the header byte and the words of its slots; a slot the header
does not mark present carries no meaning. -/
structure Bundle where
  header : Byte
  ctl : W32
  adr : W64
  mtx : BitVec 48
  vec : BitVec 48
deriving DecidableEq, Repr

/-- Who performs a register access (R437): an inbound register-image access is an accessor of its own; the sideband reaches the registers of R432 by their
one-byte offsets. -/
inductive Accessor
  | host
  | headframe
  | image (node : Nat)
  | sideband
deriving DecidableEq, Repr

/-- What a BOOT phase finds out (R427, R428): a stack that failed training, a stack that failed the clear, the cores
(68 × cluster + core) that failed self-test, and the short assay's V/F table in mV, from 2,400 MHz upward. -/
structure BootReport where
  trainFailed : Option Nat
  clearFailed : Option Nat
  coreFails : List Nat
  vf : List Nat
deriving DecidableEq, Repr

/-- A model package as MODEL_LOAD reads it (R228, R229): the spec gives the record and the group table, not the
package's layout. `views` holds, per region, its first row set and its view bytes; `status` is the error met reading it. -/
structure Package where
  record : BitVec 1024
  groups : List Line
  views : List (Nat × List Byte)
  digest : BitVec 512
  status : W16
deriving DecidableEq, Repr

/-- The faces of the host port that HOST_ACCESS names (R264): device memory through BAR2, the doorbells of BAR4, and CXL.io's configuration space. -/
inductive HostFace
  | bar2
  | bar4
  | config
deriving DecidableEq, Repr

/-- A host access through BAR2, BAR4, CXL.io or CXL.mem (R264): a write of `bytes` or a read of `n` bytes. -/
structure HostAcc where
  write : Bool
  addr : Nat
  n : Nat
  bytes : List Byte
deriving DecidableEq, Repr

/-- A host access at one of the faces that HOST_ACCESS names (R264). -/
structure HostFaceAcc where
  face : HostFace
  acc : HostAcc
deriving DecidableEq, Repr

/-- The triggers of an urgent retrain (R179). -/
inductive RetrainCause
  | errorRate
  | eyeMargin
  | assay
deriving DecidableEq, Repr

/-- What the kernels of one slot produced in a step (R250, R251). `test` holds u, q and p of each proposal in units of 2^−32. -/
structure SlotResult where
  session : Nat
  proposed : List W32
  argmax : List W32
  test : List (Nat × Nat × Nat)
  final : W32
deriving DecidableEq, Repr

/-- The results of a step's slots (R238, R250). -/
structure StepResult where
  slots : List SlotResult
deriving DecidableEq, Repr

/-- How the copy of a tier move ended (R245, R247). -/
inductive TierOutcome
  | copied
  | writeError
  | readError
deriving DecidableEq, Repr

/-- The operation header of a DATA packet (R320). -/
structure OpHeader where
  kind : Byte
  part : Nat
  subtag : W16
  tag : W32
  addr : W64
  reqPsn : Nat
  atype : Nat
  akind : Nat
  sem : Nat
  status : W16
  len : Nat
  operand : W64
  reserved : Bool
deriving DecidableEq, Repr

/-- The ACK body (R322). -/
structure AckBody where
  rcvPsn : Nat
  held : Bool
  donePsn : Nat
  sack : BitVec 64
  highPsn : Nat
  ece : Nat
  rcvd : Nat
deriving DecidableEq, Repr

/-- A received Level frame whose checks of R318 and R319 passed: the port and sub-port it arrived on, its transport
header, and its operation header with payload or its ACK body. -/
structure Frame where
  port : Nat
  sub : Nat
  cls : Nat
  retx : Bool
  ackNow : Bool
  syn : Bool
  src : Nat
  dst : Nat
  srcEpoch : W16
  dstEpoch : W16
  psn : Nat
  path : Nat
  incarn : W16
  ce : Bool
  op : OpHeader
  payload : List Byte
  ack : AckBody
deriving DecidableEq, Repr

/-- A neighbour message (R312): Neighbour Discovery, ARP or echo, with the sub-port it came on. -/
structure Neighbour where
  port : Nat
  sub : Nat
  v6 : Bool
  request : Bool
  target : BitVec 128
  senderAddr : BitVec 128
  senderMac : BitVec 48
deriving DecidableEq, Repr

/-- A received PTP message (R350): its port and sub-port and the fields the N8 uses; `correction` is the correctionField, in 2^−16 ns. -/
structure PtpMsg where
  port : Nat
  sub : Nat
  seq : W16
  originNs : Nat
  correction : Int
  twoStep : Bool
  domain : Nat
  priority1 : Nat
  priority2 : Nat
  clockClass : Nat
  accuracy : Nat
  traceable : Bool
  clockId : W64
deriving DecidableEq, Repr

/-- Where a weight repair took its bytes (R372). -/
inductive RepairSource
  | twin
  | host
  | failed
deriving DecidableEq, Repr

/-- A weight repair (R372): the model, the source, the digest of the package as it was read again, and the units' view bytes by view address. -/
structure RepairInput where
  model : Nat
  source : RepairSource
  digest : BitVec 512
  units : List (Nat × List Byte)
deriving DecidableEq, Repr

/-- A model as twins name it to each other (R375, R376): id, package digest, and the view bases of its regions. -/
structure TwinModel where
  id : Nat
  digest : BitVec 512
  bases : List Nat
deriving DecidableEq, Repr

/-- A mirror item from the twin (R375); a session's record comes with whether it has a request, ACTIVE or
waiting; a model with digest 0 is one that was unloaded. -/
inductive MirrorItem
  | session (record : BitVec 1024) (request : Bool)
  | tokens (handle : W32) (toks : List W32)
  | outRecord (part : Nat) (step : W64) (lines : List Line)
  | model (m : TwinModel)
deriving DecidableEq, Repr

/-- The arbiter's measurements of a control period (R383), mW, and per stack the reads performed and allowed. -/
structure PowerMeas where
  pIn : Nat
  pDie : Nat
  pStk : List Nat
  reads : List Nat
  allowed : List Nat
  vinMv : Nat
  iinMa : Nat
  droopMv : Nat
deriving DecidableEq, Repr

/-- Sensor readings in 1/16 °C (R387): the 64 clusters, four per stack in stack order. -/
structure Temps where
  clusters : List Int
  stackTemps : List Int
deriving DecidableEq, Repr

/-- The conditions of a calibration record (R396): the temperatures of its kind's own sensors in 1/16 °C, load in W, droop in mV. -/
structure CalCond where
  temps : List Int
  watts : Nat
  droop : Nat
deriving DecidableEq, Repr

/-- The findings of a full assay (R393, R394). -/
structure Findings where
  vf : List Nat
  noSlack : List Nat
  retention : List (Nat × Nat)
  weakRows : List (Nat × Nat)
  weakLanes : List Nat
  slack : List Nat
  ring : List Int
  eyePort : List Nat
  eyeStk : List Nat
  kStk : List Nat
  rateNb : Nat
  rateD : Nat
  partRates : List (Nat × Nat × Nat)
  cond : CalCond
deriving DecidableEq, Repr

/-- The commands: one constructor per row of opcode_table.json, in the table's order. -/
inductive Instr
  | powerUp (vinMv : Nat) -- POWER_UP (R426)
  | pwrEnFall -- PWR_EN_FALL (R422)
  | brownout -- BROWNOUT (R421)
  | overvoltage -- OVERVOLTAGE (R421)
  | resetN -- RESET_N (R430)
  | resetNRelease -- RESET_N_RELEASE (R426)
  | perstNRelease -- PERST_N_RELEASE (R426)
  | bootPhase (r : BootReport) -- BOOT_PHASE (R427)
  | sbBoardCap (w : W32) -- SB_BOARD_CAP (R382)
  | rcvStart (w : W32) -- RCV_START (R433)
  | sbRcvData (w : W32) -- SB_RCV_DATA (R432)
  | commit (w : W32) -- COMMIT (R433)
  | registerWrite (a : Accessor) (off : Nat) (be : BitVec 4) (w : W32) -- REGISTER_WRITE (R436)
  | lowWordRead (a : Accessor) (off : Nat) -- LOW_WORD_READ (R437)
  | timeNowFrac (a : Accessor) -- TIME_NOW_FRAC (R357)
  | traceSemSel (a : Accessor) (w : W32) -- TRACE_SEM_SEL (R150)
  | pwrHistSel (a : Accessor) (w : W32) -- PWR_HIST_SEL (R400)
  | aqEnable (w : W32) -- AQ_ENABLE (R266)
  | aqDisable (w : W32) -- AQ_DISABLE (R266)
  | aqDisableDone -- AQ_DISABLE_DONE (R266)
  | sqTail (q : Nat) (w : W32) -- SQ_TAIL (R267)
  | cqHead (q : Nat) (w : W32) -- CQ_HEAD (R267)
  | commandFetch (q : Nat) -- COMMAND_FETCH (R268)
  | nop (id : Nat) -- NOP (R278)
  | identify (id : Nat) -- IDENTIFY (R279)
  | queueCreate (id : Nat) -- QUEUE_CREATE (R278)
  | queueDelete (id : Nat) -- QUEUE_DELETE (R278)
  | queueStatus (id : Nat) -- QUEUE_STATUS (R278)
  | partitionDefine (id : Nat) -- PARTITION_DEFINE (R295)
  | partitionDelete (id : Nat) -- PARTITION_DELETE (R296)
  | memmapConfig (id : Nat) -- MEMMAP_CONFIG (R278)
  | deviceReset (id : Nat) -- DEVICE_RESET (R430)
  | memAlloc (id : Nat) -- MEM_ALLOC (R281)
  | memFree (id : Nat) -- MEM_FREE (R281)
  | memMove (id : Nat) -- MEM_MOVE (R281)
  | semSignal (id : Nat) -- SEM_SIGNAL (R282)
  | semWait (id : Nat) -- SEM_WAIT (R282)
  | semWrite (id : Nat) -- SEM_WRITE (R282)
  | semRead (id : Nat) -- SEM_READ (R280)
  | nbRun (id : Nat) -- NB_RUN (R282)
  | nbAbort (id : Nat) -- NB_ABORT (R282)
  | modelLoad (id : Nat) (p : Package) -- MODEL_LOAD (R230)
  | modelUnload (id : Nat) -- MODEL_UNLOAD (R231)
  | modelQuery (id : Nat) -- MODEL_QUERY (R283)
  | sessionOpen (id : Nat) -- SESSION_OPEN (R284)
  | sessionPause (id : Nat) -- SESSION_PAUSE (R233)
  | sessionResume (id : Nat) -- SESSION_RESUME (R233)
  | sessionCancel (id : Nat) -- SESSION_CANCEL (R234)
  | sessionQuery (id : Nat) -- SESSION_QUERY (R284)
  | sessionSet (id : Nat) -- SESSION_SET (R284)
  | sessionRead (id : Nat) -- SESSION_READ (R284)
  | requestSubmit (id : Nat) -- REQUEST_SUBMIT (R235)
  | kvPoolConfig (id : Nat) -- KV_POOL_CONFIG (R241)
  | outputRingConfig (id : Nat) -- OUTPUT_RING_CONFIG (R259)
  | jobLaunch (id : Nat) -- JOB_LAUNCH (R72)
  | jobCancel (id : Nat) -- JOB_CANCEL (R287)
  | jobQuery (id : Nat) -- JOB_QUERY (R287)
  | portConfig (id : Nat) -- PORT_CONFIG (R310)
  | portStatus (id : Nat) -- PORT_STATUS (R341)
  | nodeConfig (id : Nat) -- NODE_CONFIG (R316)
  | peerSet (id : Nat) -- PEER_SET (R317)
  | peerClear (id : Nat) -- PEER_CLEAR (R317)
  | twinPair (id : Nat) -- TWIN_PAIR (R376)
  | twinDetach (id : Nat) -- TWIN_DETACH (R377)
  | twinStatus (id : Nat) -- TWIN_STATUS (R380)
  | timeRead (id : Nat) -- TIME_READ (R289)
  | timeSet (id : Nat) -- TIME_SET (R346)
  | ptpConfig (id : Nat) -- PTP_CONFIG (R350)
  | ppsConfig (id : Nat) -- PPS_CONFIG (R353)
  | timeStatus (id : Nat) -- TIME_STATUS (R357)
  | attest (id : Nat) -- ATTEST (R411)
  | certRead (id : Nat) -- CERT_READ (R410)
  | fwUpdate (id : Nat) -- FW_UPDATE (R406)
  | ownerKeySet (id : Nat) -- OWNER_KEY_SET (R408)
  | debugPassword (id : Nat) -- DEBUG_PASSWORD (R415)
  | debugChallenge (id : Nat) -- DEBUG_CHALLENGE (R416)
  | debugToken (id : Nat) -- DEBUG_TOKEN (R417)
  | debugLock (id : Nat) -- DEBUG_LOCK (R414)
  | tallyRead (id : Nat) -- TALLY_READ (R304)
  | errlogRead (id : Nat) -- ERRLOG_READ (R360)
  | traceConfig (id : Nat) -- TRACE_CONFIG (R445)
  | sensorRead (id : Nat) -- SENSOR_READ (R399)
  | stop (a : Accessor) -- STOP (R448)
  | arm (a : Accessor) (w : W32) -- ARM (R449)
  | injectionFire -- INJECTION_FIRE (R449)
  | run (a : Accessor) (w : W32) -- RUN (R393)
  | start (control : Line) -- START (R208)
  | hostAccess (h : HostFaceAcc) -- HOST_ACCESS (R264)
  | cxlMemAccess (range : Nat) (h : HostAcc) -- CXL_MEM_ACCESS (R264)
  | homeSliceAccess (op : Nat) (granule : Nat) -- HOME_SLICE_ACCESS (R139)
  | memoryOperationComplete (pc : Nat) -- MEMORY_OPERATION_COMPLETE (R160)
  | writeBufferDrain (pc : Nat) -- WRITE_BUFFER_DRAIN (R164)
  | urgencyRise (pc : Nat) (dop : Nat) -- URGENCY_RISE (R163)
  | refresh (bank : Nat) (forced : Bool) -- REFRESH (R166)
  | powerDown (sid : Nat) -- POWER_DOWN (R167)
  | selfRefresh (stack : Nat) -- SELF_REFRESH (R168)
  | patrolScrub (stack : Nat) -- PATROL_SCRUB (R174)
  | rowRepair (bank : Nat) (row : Nat) -- ROW_REPAIR (R176)
  | periodicRetrain (stack channel : Nat) -- PERIODIC_RETRAIN (R222)
  | urgentRetrain (pc : Nat) (cause : RetrainCause) (whole : Bool) -- URGENT_RETRAIN (R180)
  | retrainEnd (pc : Nat) (ok : Bool) -- RETRAIN_END (R180)
  | nbProg (stack : Nat) (entry : Nat) (descs : List Line) -- NB_PROG (R189)
  | nbStart (stack : Nat) (entry : Nat) (part : Nat) (tag : W32) -- NB_START (R195)
  | nbBcast (stack : Nat) (off : Nat) (bytes : List Byte) -- NB_BCAST (R189)
  | nbDrain (stack : Nat) (off : Nat) (n : Nat) -- NB_DRAIN (R189)
  | nbGroupAbort (stack : Nat) (pid : Nat) -- NB_GROUP_ABORT (R200)
  | nbStatus (stack : Nat) -- NB_STATUS (R189)
  | gemv (stack : Nat) (pid : Nat) -- GEMV (R192)
  | qk (stack : Nat) (pid : Nat) -- QK (R192)
  | pv (stack : Nat) (pid : Nat) -- PV (R192)
  | rclear (stack : Nat) (pid : Nat) -- RCLEAR (R454)
  | pzero (stack : Nat) (pid : Nat) -- PZERO (R205)
  | load (stack : Nat) (pid : Nat) -- LOAD (R197)
  | drain (stack : Nat) (pid : Nat) -- DRAIN (R196)
  | blastEnd (stack : Nat) (pid : Nat) -- BLAST_END (R196)
  | entryComplete (stack : Nat) (pid : Nat) -- ENTRY_COMPLETE (R194)
  | microStep (stack : Nat) (pid : Nat) (bank : Nat) -- MICRO_STEP (R187)
  | grantWindow (stack : Nat) -- GRANT_WINDOW (R24)
  | yieldSlot (bank : Nat) -- YIELD_SLOT (R202)
  | lds (t : Tid) (b : Bundle) -- LDS (R85)
  | sts (t : Tid) (b : Bundle) -- STS (R85)
  | ldv (t : Tid) (b : Bundle) -- LDV (R85)
  | stv (t : Tid) (b : Bundle) -- STV (R85)
  | amo (t : Tid) (b : Bundle) -- AMO (R86)
  | semsig (t : Tid) (b : Bundle) -- SEMSIG (R85)
  | semwait (t : Tid) (b : Bundle) -- SEMWAIT (R85)
  | semtry (t : Tid) (b : Bundle) -- SEMTRY (R85)
  | fenceL (t : Tid) (b : Bundle) -- FENCE_L (R136)
  | fenceD (t : Tid) (b : Bundle) -- FENCE_D (R136)
  | fenceH (t : Tid) (b : Bundle) -- FENCE_H (R136)
  | fenceComplete (t : Tid) -- FENCE_COMPLETE (R136)
  | l1inv (t : Tid) (b : Bundle) -- L1INV (R135)
  | hoist (t : Tid) (b : Bundle) -- HOIST (R85)
  | loopcfg (t : Tid) (b : Bundle) -- LOOPCFG (R92)
  | looprd (t : Tid) (b : Bundle) -- LOOPRD (R85)
  | memoryResponse (op : Nat) -- MEMORY_RESPONSE (R88)
  | semaphoreOperation (op : Nat) -- SEMAPHORE_OPERATION (R144)
  | clockGate (vcore : Nat) -- CLOCK_GATE (R147)
  | poll (id : Nat) -- POLL (R148)
  | yieldRetest (q : Nat) -- YIELD_RETEST (R149)
  | add (t : Tid) (b : Bundle) -- ADD (R82)
  | sub (t : Tid) (b : Bundle) -- SUB (R82)
  | and (t : Tid) (b : Bundle) -- AND (R82)
  | or (t : Tid) (b : Bundle) -- OR (R82)
  | xor (t : Tid) (b : Bundle) -- XOR (R82)
  | shl (t : Tid) (b : Bundle) -- SHL (R82)
  | shr (t : Tid) (b : Bundle) -- SHR (R82)
  | sra (t : Tid) (b : Bundle) -- SRA (R82)
  | mul (t : Tid) (b : Bundle) -- MUL (R82)
  | mulhu (t : Tid) (b : Bundle) -- MULHU (R82)
  | slt (t : Tid) (b : Bundle) -- SLT (R82)
  | sltu (t : Tid) (b : Bundle) -- SLTU (R82)
  | min (t : Tid) (b : Bundle) -- MIN (R82)
  | max (t : Tid) (b : Bundle) -- MAX (R82)
  | addi (t : Tid) (b : Bundle) -- ADDI (R82)
  | andi (t : Tid) (b : Bundle) -- ANDI (R82)
  | ori (t : Tid) (b : Bundle) -- ORI (R82)
  | xori (t : Tid) (b : Bundle) -- XORI (R82)
  | shli (t : Tid) (b : Bundle) -- SHLI (R82)
  | shri (t : Tid) (b : Bundle) -- SHRI (R82)
  | srai (t : Tid) (b : Bundle) -- SRAI (R82)
  | slti (t : Tid) (b : Bundle) -- SLTI (R82)
  | li (t : Tid) (b : Bundle) -- LI (R82)
  | lih (t : Tid) (b : Bundle) -- LIH (R82)
  | beqz (t : Tid) (b : Bundle) -- BEQZ (R82)
  | bnez (t : Tid) (b : Bundle) -- BNEZ (R82)
  | bltz (t : Tid) (b : Bundle) -- BLTZ (R82)
  | bgez (t : Tid) (b : Bundle) -- BGEZ (R82)
  | jmp (t : Tid) (b : Bundle) -- JMP (R82)
  | call (t : Tid) (b : Bundle) -- CALL (R82)
  | jr (t : Tid) (b : Bundle) -- JR (R82)
  | rpt (t : Tid) (b : Bundle) -- RPT (R94)
  | rpti (t : Tid) (b : Bundle) -- RPTI (R94)
  | winext (t : Tid) (b : Bundle) -- WINEXT (R73)
  | endThread (t : Tid) (b : Bundle) -- END (R73)
  | subtag (t : Tid) (b : Bundle) -- SUBTAG (R82)
  | stat (t : Tid) (b : Bundle) -- STAT (R83)
  | bundleNop (t : Tid) (b : Bundle) -- BUNDLE_NOP (R78)
  | reservedHeader (t : Tid) (b : Bundle) -- RESERVED_HEADER (R97)
  | truncatedBundle (t : Tid) (b : Bundle) -- TRUNCATED_BUNDLE (R95)
  | deadlock (vcore : Nat) -- DEADLOCK (R103)
  | mma (t : Tid) (b : Bundle) -- MMA (R111)
  | mmaz (t : Tid) (b : Bundle) -- MMAZ (R114)
  | mzero (t : Tid) (b : Bundle) -- MZERO (R114)
  | mwr (t : Tid) (b : Bundle) -- MWR (R114)
  | mrd (t : Tid) (b : Bundle) -- MRD (R114)
  | mrdz (t : Tid) (b : Bundle) -- MRDZ (R114)
  | fadd (t : Tid) (b : Bundle) -- FADD (R118)
  | fsub (t : Tid) (b : Bundle) -- FSUB (R118)
  | fmul (t : Tid) (b : Bundle) -- FMUL (R118)
  | fma (t : Tid) (b : Bundle) -- FMA (R118)
  | fms (t : Tid) (b : Bundle) -- FMS (R118)
  | fnma (t : Tid) (b : Bundle) -- FNMA (R118)
  | fmin (t : Tid) (b : Bundle) -- FMIN (R118)
  | fmax (t : Tid) (b : Bundle) -- FMAX (R118)
  | fabs (t : Tid) (b : Bundle) -- FABS (R118)
  | fneg (t : Tid) (b : Bundle) -- FNEG (R118)
  | fdiv (t : Tid) (b : Bundle) -- FDIV (R118)
  | fscalb (t : Tid) (b : Bundle) -- FSCALB (R118)
  | iadd (t : Tid) (b : Bundle) -- IADD (R118)
  | isub (t : Tid) (b : Bundle) -- ISUB (R118)
  | imul (t : Tid) (b : Bundle) -- IMUL (R118)
  | imin (t : Tid) (b : Bundle) -- IMIN (R118)
  | imax (t : Tid) (b : Bundle) -- IMAX (R118)
  | vecAnd (t : Tid) (b : Bundle) -- VEC_AND (R118)
  | vecOr (t : Tid) (b : Bundle) -- VEC_OR (R118)
  | vecXor (t : Tid) (b : Bundle) -- VEC_XOR (R118)
  | vecShl (t : Tid) (b : Bundle) -- VEC_SHL (R118)
  | vecShr (t : Tid) (b : Bundle) -- VEC_SHR (R118)
  | vecSra (t : Tid) (b : Bundle) -- VEC_SRA (R118)
  | iabs (t : Tid) (b : Bundle) -- IABS (R118)
  | iadds (t : Tid) (b : Bundle) -- IADDS (R118)
  | cmpeq (t : Tid) (b : Bundle) -- CMPEQ (R118)
  | cmpne (t : Tid) (b : Bundle) -- CMPNE (R118)
  | cmplt (t : Tid) (b : Bundle) -- CMPLT (R118)
  | cmple (t : Tid) (b : Bundle) -- CMPLE (R118)
  | isnan (t : Tid) (b : Bundle) -- ISNAN (R118)
  | mand (t : Tid) (b : Bundle) -- MAND (R118)
  | mor (t : Tid) (b : Bundle) -- MOR (R118)
  | mxor (t : Tid) (b : Bundle) -- MXOR (R118)
  | mnot (t : Tid) (b : Bundle) -- MNOT (R118)
  | mlen (t : Tid) (b : Bundle) -- MLEN (R118)
  | sel (t : Tid) (b : Bundle) -- SEL (R118)
  | rsum (t : Tid) (b : Bundle) -- RSUM (R119)
  | rmax (t : Tid) (b : Bundle) -- RMAX (R118)
  | rmin (t : Tid) (b : Bundle) -- RMIN (R118)
  | rargmax (t : Tid) (b : Bundle) -- RARGMAX (R118)
  | psum (t : Tid) (b : Bundle) -- PSUM (R119)
  | bcast (t : Tid) (b : Bundle) -- BCAST (R118)
  | perm (t : Tid) (b : Bundle) -- PERM (R118)
  | iota (t : Tid) (b : Bundle) -- IOTA (R118)
  | mpopc (t : Tid) (b : Bundle) -- MPOPC (R118)
  | mfirst (t : Tid) (b : Bundle) -- MFIRST (R118)
  | rcp (t : Tid) (b : Bundle) -- RCP (R118)
  | rsqrt (t : Tid) (b : Bundle) -- RSQRT (R118)
  | sqrt (t : Tid) (b : Bundle) -- SQRT (R118)
  | exp2 (t : Tid) (b : Bundle) -- EXP2 (R118)
  | exp (t : Tid) (b : Bundle) -- EXP (R118)
  | log2 (t : Tid) (b : Bundle) -- LOG2 (R118)
  | tanh (t : Tid) (b : Bundle) -- TANH (R118)
  | sigmoid (t : Tid) (b : Bundle) -- SIGMOID (R118)
  | erf (t : Tid) (b : Bundle) -- ERF (R118)
  | sin (t : Tid) (b : Bundle) -- SIN (R118)
  | cos (t : Tid) (b : Bundle) -- COS (R118)
  | cvt (t : Tid) (b : Bundle) -- CVT (R121)
  | cvtsc (t : Tid) (b : Bundle) -- CVTSC (R122)
  | bscale (t : Tid) (b : Bundle) -- BSCALE (R122)
  | nbx (t : Tid) (b : Bundle) -- NBX (R123)
  | nbq (t : Tid) (b : Bundle) -- NBQ (R123)
  | rand (t : Tid) (b : Bundle) -- RAND (R124)
  | rdflags (t : Tid) (b : Bundle) -- RDFLAGS (R118)
  | clrflags (t : Tid) (b : Bundle) -- CLRFLAGS (R118)
  | move (hoist : Nat) -- MOVE (R63)
  | fill (hoist : Nat) -- FILL (R63)
  | moveRetire (mv : Nat) -- MOVE_RETIRE (R64)
  | jobStart (job : Nat) -- JOB_START (R71)
  | jobEnd (job : Nat) -- JOB_END (R101)
  | bucketWaitEnd (op : Nat) -- BUCKET_WAIT_END (R299)
  | preempt (part : Nat) -- PREEMPT (R305)
  | resume (part : Nat) -- RESUME (R308)
  | stepStart (part : Nat) -- STEP_START (R238)
  | groupPlan (part : Nat) -- GROUP_PLAN (R216)
  | rescue (part : Nat) -- RESCUE (R220)
  | stepCommit (part : Nat) (res : StepResult) -- STEP_COMMIT (R238)
  | idleBoundary (part : Nat) -- IDLE_BOUNDARY (R240)
  | ttlExpiry (session : Nat) -- TTL_EXPIRY (R244)
  | tierMoveDone (session : Nat) (ok : TierOutcome) -- TIER_MOVE_DONE (R247)
  | put (f : Frame) -- PUT (R321)
  | levelAdd (f : Frame) -- LEVEL_ADD (R321)
  | signal (f : Frame) -- SIGNAL (R321)
  | putSignal (f : Frame) -- PUT_SIGNAL (R321)
  | get (f : Frame) -- GET (R321)
  | atomic (f : Frame) -- ATOMIC (R337)
  | command (f : Frame) -- COMMAND (R277)
  | getResp (f : Frame) -- GET_RESP (R321)
  | atomicResp (f : Frame) -- ATOMIC_RESP (R321)
  | commandReply (f : Frame) -- COMMAND_REPLY (R321)
  | errorResp (f : Frame) -- ERROR_RESP (R331)
  | ack (f : Frame) -- ACK (R326)
  | reset (f : Frame) -- RESET (R324)
  | ackSend (flow : Nat) -- ACK_SEND (R326)
  | retransmit (flow : Nat) -- RETRANSMIT (R327)
  | rtoExpiry (flow : Nat) -- RTO_EXPIRY (R327)
  | rateIncrease (flow : Nat) -- RATE_INCREASE (R329)
  | quarantineEnd (flow : Nat) (path : Nat) -- QUARANTINE_END (R328)
  | opTimeout (flow : Nat) (psn : Nat) -- OP_TIMEOUT (R331)
  | linkUp (port : Nat) (sub : Nat) -- LINK_UP (R311)
  | linkDown (port : Nat) (sub : Nat) -- LINK_DOWN (R311)
  | neighbourDiscovery (n : Neighbour) -- NEIGHBOUR_DISCOVERY (R312)
  | arp (n : Neighbour) -- ARP (R312)
  | icmpEcho (n : Neighbour) -- ICMP_ECHO (R312)
  | otherFrame (port : Nat) -- OTHER_FRAME (R312)
  | sync (p : PtpMsg) -- SYNC (R350)
  | followUp (p : PtpMsg) -- FOLLOW_UP (R350)
  | delayReq (p : PtpMsg) -- DELAY_REQ (R350)
  | delayResp (p : PtpMsg) -- DELAY_RESP (R349)
  | announce (p : PtpMsg) -- ANNOUNCE (R347)
  | syncSend (port : Nat) -- SYNC_SEND (R350)
  | announceSend (port : Nat) -- ANNOUNCE_SEND (R351)
  | delayReqSend (port : Nat) -- DELAY_REQ_SEND (R349)
  | sourceSelect (best : Option Nat) -- SOURCE_SELECT (R347)
  | ppsInEdge -- PPS_IN_EDGE (R353)
  | ppsOutPulse -- PPS_OUT_PULSE (R353)
  | tcxoCompensation (temp : W16) -- TCXO_COMPENSATION (R345)
  | holdoverLimit -- HOLDOVER_LIMIT (R348)
  | coreWatchdog (cluster : Nat) (core : Nat) (semThread : Option Nat) -- CORE_WATCHDOG (R366)
  | coreSramError (cluster : Nat) (core : Nat) (unit : Nat) (uncorrectable : Bool) -- CORE_SRAM_ERROR (R363)
  | clusterFault (cluster : Nat) (hoistFault : Bool) (failed : List Nat) -- CLUSTER_FAULT (R363)
  | stackFault (stack : Nat) (trainingFailed : Bool) -- STACK_FAULT (R363)
  | portFault (port : Nat) -- PORT_FAULT (R363)
  | deviceFault (code : W32) -- DEVICE_FAULT (R363)
  | recoveryEnd (kind : Nat) -- RECOVERY_END (R364)
  | recoveryTimeout (kind : Nat) -- RECOVERY_TIMEOUT (R363)
  | weightRepair (k : RepairInput) -- WEIGHT_REPAIR (R372)
  | weightRepairRetry (k : RepairInput) -- WEIGHT_REPAIR_RETRY (R372)
  | flashLogCopy -- FLASH_LOG_COPY (R360)
  | heartbeatSend -- HEARTBEAT_SEND (R375)
  | heartbeat (fabric : Bool) -- HEARTBEAT (R378)
  | mirrorItem (m : MirrorItem) -- MIRROR_ITEM (R375)
  | pairingRequest (node : W16) (models : List TwinModel) -- PAIRING_REQUEST (R376)
  | copyDone -- COPY_DONE (R376)
  | pairingTimeout -- PAIRING_TIMEOUT (R374)
  | detachNotice -- DETACH_NOTICE (R377)
  | handoffNotice -- HANDOFF_NOTICE (R378)
  | partnerLost -- PARTNER_LOST (R379)
  | controlPeriod (m : PowerMeas) -- CONTROL_PERIOD (R383)
  | voltageReached -- VOLTAGE_REACHED (R384)
  | powerSample (watts : Nat) -- POWER_SAMPLE (R385)
  | thermalSample (x : Temps) -- THERMAL_SAMPLE (R388)
  | fullAssay -- FULL_ASSAY (R393)
  | assayComplete (f : Findings) -- ASSAY_COMPLETE (R394)
  | assayTimeout -- ASSAY_TIMEOUT (R394)
  | recalibration (kind : Nat) (c : CalCond) (v : List Nat) -- RECALIBRATION (R397)
  | debugExpiry -- DEBUG_EXPIRY (R417)
  | nonceExpiry -- NONCE_EXPIRY (R416)
  | semWaitTimeout (id : Nat) -- SEM_WAIT_TIMEOUT (R282)
  | highWordRead (a : Accessor) (off : Nat) -- HIGH_WORD_READ (R437)
  | pwrEnHoldOffEnd -- PWR_EN_HOLD_OFF_END (R422)
  | shutdownCompare (x : Temps) -- SHUTDOWN_COMPARE (R426)
  | ppsInLoss -- PPS_IN_LOSS (R347)
  | rxBadPacket (port : Nat) (unknown : Bool) -- RX_BAD_PACKET (R319)
  | reservedKindPacket (f : Frame) -- RESERVED_KIND_PACKET (R321)
deriving DecidableEq, Repr

end Sys2Proof
end

