-- ==== Sys2Proof/Decode.lean ====
section
/-! DEFINITION. The opcode table gives no row any bits: its rows are operations and events of the part, not words. So no
word spells a command (log entry 13, DESIGN CHOICE). The bundles and packets that the part reads as bits are taken apart in Machine/. -/
namespace Sys2Proof

/-- The command that a word of the opcode table spells: none, since no row has bits. -/
def decodeTableWord (_nbits _w : Nat) : Option Instr := none

end Sys2Proof
end

