-- ==== Sys2Proof/Config.lean ====
section
/-! DEFINITION. What an implementation fixes, and the free values: constants without a body, about which
nothing can be proved, so that every theorem holds whatever their values are. -/
namespace Sys2Proof.Config

/-- A value the spec leaves open, of width `w`; `n` numbers the draw (State.fresh). Log entry 3, DESIGN CHOICE. -/
opaque free : (w : Nat) → (n : Nat) → BitVec w

/-- Which of the FP32 codes within R118's error bound a transcendental operation returns: operation number and FP32 operand. Log entry 6, DESIGN CHOICE. -/
opaque transcendental : (op : Nat) → W32 → W32

/-- The conditions of RSQRT of −0, to which R118 gives no result. Log entry 6, DESIGN CHOICE. -/
opaque transcendentalFlags : (op : Nat) → W32 → BitVec 6

/-- The r of stochastic rounding in 65,536ths that a generator state gives: R37 does not say which bits. Log entry 17, DESIGN CHOICE. -/
opaque stochastic : W32 → BitVec 16

/-- The element that RMAX, RMIN (no active element) and MPOPC (a count that does not fit) write where R118 and R120 state none: operation,
format, operand and mask, since R48 makes it a function of them. Log entry 111, DESIGN CHOICE. -/
opaque unstated : (op f : Nat) → BitVec 2048 → BitVec 512 → W32

/-- Which of the neighbours within 1 ulp an approximate operation returns (R118): operation and operand codes. Log entry 6, DESIGN CHOICE. -/
opaque ulpPick : (op : Nat) → (a b : Nat) → Nat

/-- Whether `a` precedes `b` where two `n`-bit sequence values lie exactly half the range apart (R354). Log entry 107, DESIGN CHOICE. -/
opaque tie : (n a b : Nat) → Bool

/-- The E2M1 code as which the view shows a stored 5-bit code that R41 gives no value (R57). Log entry 65, DEDUCED. -/
opaque fp4Outside : (code : Nat) → BitVec 4

/-- The size in bytes of a packed image (R244 promises no ratio): session index and valid lengths. Log entry 7, DESIGN CHOICE. -/
opaque packedBytes : (main draft : Nat) → Nat

/-- The frequency error of the TCXO that its calibration record's cubic gives at a temperature, in units of 2^−40 (R345); how the record holds the cubic
is not the spec's. Log entry 154, DESIGN CHOICE. -/
opaque tcxoError : (cubic : List Nat) → (temp : Int) → Int

/-- The servo's gains (R349): its correction for an offset and the integral of the offsets, in units of 2^−40. Log entry 154, DESIGN CHOICE. -/
opaque servo : (offset integral : Int) → Int

/-- The ageing offset that the servo has learned after a measurement while LOCKED (R345). Log entry 154, DESIGN CHOICE. -/
opaque ageing : (before offset integral : Int) → Int

/-- A byte of CXL.io's configuration space as R264 leaves it open: place, and how many writes of the host came before. Log entry 130, DESIGN CHOICE. -/
opaque configByte : (i n : Nat) → BitVec 8

/-! What manufacture puts into the fuses and the flash of a module (R402, R403, R410, R428). Log entry 8, DESIGN CHOICE. -/

/-- The root hash in the fuses (R402). -/
opaque rootHash : BitVec 512

/-- The device secret in the fuses (R402). -/
opaque deviceSecret : BitVec 512

/-- The firmware image of a kind that the module was made with (R403). -/
opaque factoryImage : (kind : Nat) → List Byte

/-- The manufacturing public key (R410). -/
opaque mfgKey : BitVec 512

/-- When the certificate of a kind was issued (R410), in completion-time form. -/
opaque issued : (kind : Nat) → BitVec 64

/-- The signature of the certificate of a kind (R410), by a key that no module holds: 29,792 bytes as one number. -/
opaque certSignature : (kind : Nat) → Nat

/-- The module's serial number (R279). -/
opaque serial : BitVec 128

/-- The values of the calibration record of a kind and its conditions: temperature in 1/16 °C, load in W, droop in mV (R396). -/
opaque factoryCal : (kind : Nat) → List Nat × Nat × Nat × Nat

end Sys2Proof.Config
end

