-- ==== Sys2Proof/Machine/Tab.lean ====
section
/-! DEFINITION. Sparse tables: key and value pairs with strictly rising keys, no pair holding what an unlisted key reads as.
A write of that value removes the pair, so equal contents are equal data. -/
namespace Sys2Proof.Machine

/-- The listed value of a key: the first pair with it. -/
def tfind {α : Type} (t : Tab α) (k : Nat) : Option α :=
  match t with
  | [] => none
  | (j, v) :: r => if k = j then some v else tfind r k

/-- What a key reads as, `d` being what an unlisted key reads as. -/
def tget {α : Type} (t : Tab α) (k : Nat) (d : α) : α := (tfind t k).getD d

/-- A key's pair is put in, or put in place of the one there. -/
def tput {α : Type} (t : Tab α) (k : Nat) (v : α) : Tab α :=
  match t with
  | [] => [(k, v)]
  | (j, w) :: r => if k = j then (k, v) :: r else if k < j then (k, v) :: (j, w) :: r else (j, w) :: tput r k v

/-- A key's pair is taken out. -/
def tdel {α : Type} (t : Tab α) (k : Nat) : Tab α := t.filter (fun e => decide (e.1 ≠ k))

/-- A write of `v` where an unlisted key reads as `d`. -/
def tset {α : Type} [DecidableEq α] (t : Tab α) (k : Nat) (v d : α) : Tab α :=
  if v = d then tdel t k else tput t k v

/-- The keys rise strictly from above `b`. -/
def risesFrom {α : Type} (b : Option Nat) (t : Tab α) : Bool :=
  match t with
  | [] => true
  | (j, _) :: r => (match b with | none => true | some i => decide (i < j)) && risesFrom (some j) r

/-- The canonical form: strictly rising keys, no pair equal to what its key reads as unlisted. -/
def twf {α : Type} [DecidableEq α] (d : Nat → α) (t : Tab α) : Bool :=
  risesFrom none t && t.all (fun p => decide (p.2 ≠ d p.1))

/-- `f` applied for `0 … n − 1` in order. -/
def iterate {σ : Type} (n : Nat) (f : Nat → σ → σ) (s : σ) : σ := (List.range n).foldl (fun a i => f i a) s

end Sys2Proof.Machine
end

