-- ==== Sys2Proof/Machine/Bits.lean ====
section
/-! DEFINITION. Bit fields (R10), little-endian byte strings (R9), signed readings and small list helpers. -/
namespace Sys2Proof.Machine

/-- A field of a bit vector: `len` bits from bit `lo`, as a number. -/
def fld {w : Nat} (x : BitVec w) (lo len : Nat) : Nat := (x.extractLsb' lo len).toNat

/-- A one-bit field. -/
def bit {w : Nat} (x : BitVec w) (i : Nat) : Bool := x.getLsbD i

/-- A bit vector with the `len` bits from bit `lo` replaced by the low bits of `v`. -/
def setFld {w : Nat} (x : BitVec w) (lo len v : Nat) : BitVec w :=
  let m : BitVec w := BitVec.ofNat w (2 ^ len - 1) <<< lo
  (x &&& ~~~m) ||| ((BitVec.ofNat w (v % 2 ^ len)) <<< lo)

/-- A field list packed into a word: (low bit, length, value), the rest zero. -/
def pack (w : Nat) (fs : List (Nat × Nat × Nat)) : BitVec w :=
  fs.foldl (fun x f => x ||| ((BitVec.ofNat w (f.2.2 % 2 ^ f.2.1)) <<< f.1)) 0

/-- The two's-complement reading of the low `n` bits of a number. -/
def sxt (n v : Nat) : Int := let u := v % 2 ^ n; if 2 * u < 2 ^ n then (u : Int) else (u : Int) - 2 ^ n

/-- The `n`-bit two's-complement code of an integer. -/
def toCode (n : Nat) (i : Int) : Nat := (i % (2 ^ n : Int)).toNat

/-- The `n` bytes of a number, least significant first. -/
def leBytes (n v : Nat) : List Byte := (List.range n).map (fun i => BitVec.ofNat 8 (v / 256 ^ i))

/-- The number that bytes spell, least significant first. -/
def leNat (bs : List Byte) : Nat := bs.foldr (fun b a => b.toNat + 256 * a) 0

/-- A 64-byte block from its bytes. -/
def lineOf (bs : List Byte) : Line := BitVec.ofNat 512 (leNat bs)

/-- The bytes of a bit vector. -/
def bytesOf {w : Nat} (x : BitVec w) : List Byte := leBytes (w / 8) x.toNat

/-- `a` divided by `b`, rounded up. -/
def cdiv (a b : Nat) : Nat := (a + b - 1) / b

/-- Bit `i` of a number. -/
def nbit (v i : Nat) : Bool := v / 2 ^ i % 2 == 1

/-- The parity of the set bits of a number below 2^n. -/
def parity (n v : Nat) : Nat := ((List.range n).filter (nbit v)).length % 2

/-- The number of set bits below bit `n`. -/
def popcount (n v : Nat) : Nat := ((List.range n).filter (nbit v)).length

/-- A Bool as 0 or 1. -/
def b2n (b : Bool) : Nat := if b then 1 else 0

/-- The lowest bit position below `n` at which a number has a set bit. -/
def lowestBit (n v : Nat) : Nat := ((List.range n).find? (nbit v)).getD n

/-- An element inserted into a list in front of the first element that `lt` puts after it. -/
def insertBy {α : Type} (lt : α → α → Bool) (x : α) : List α → List α
  | [] => [x]
  | y :: ys => if lt x y then x :: y :: ys else y :: insertBy lt x ys

/-- A list sorted by `lt`, keeping the order of elements neither of which precedes the other. -/
def sortBy {α : Type} (lt : α → α → Bool) (xs : List α) : List α := xs.foldl (fun acc x => insertBy lt x acc) []

/-- Each element that satisfies `p` is replaced by its image. -/
def mapIf {α : Type} (p : α → Bool) (f : α → α) (xs : List α) : List α := xs.map (fun x => if p x then f x else x)

/-- `a` precedes `b` as `n`-bit sequence values (R354); a difference of half the range leaves it open (log entry 107, DESIGN CHOICE). -/
def precedes (n a b : Nat) : Bool :=
  let d := (b + 2 ^ n - a % 2 ^ n) % 2 ^ n
  if d = 2 ^ (n - 1) then Config.tie n a b else decide (0 < d) && decide (d < 2 ^ (n - 1))

/-- An integer rounded into a range. -/
def clampI (lo hi x : Int) : Int := if x < lo then lo else if hi < x then hi else x

/-- The node field and the local offset of a Level address (R314). -/
def nodeOf (a : W64) : Nat := fld a 48 16
def offOf (a : W64) : Nat := fld a 0 48

def sumNat (xs : List Nat) : Nat := xs.foldl (· + ·) 0

end Sys2Proof.Machine
end

