-- ==== Sys2Proof/Machine/Crypto.lean ====
section
/-! DEFINITION. The security block's SHAKE256 and SLH-DSA (R401, R409, R410). The spec names FIPS 202 and FIPS 205 and does not restate them: what stands
here is taken from those standards (log entry 5, PRESUMED). -/
namespace Sys2Proof.Machine

/-! ## SHAKE256 (FIPS 202) -/

/-- The lane (x, y) of a Keccak state of 25 lanes. -/
def lane (a : List W64) (x y : Nat) : W64 := a.getD (x % 5 + 5 * (y % 5)) 0

/-- The rotations of step rho, lane by lane. -/
def keccakRotations : List Nat :=
  [0, 1, 62, 28, 27, 36, 44, 6, 55, 20, 3, 10, 43, 25, 39, 41, 45, 15, 21, 8, 18, 2, 61, 56, 14]

/-- The constants of step iota, round by round. -/
def keccakConstants : List W64 :=
  [0x1, 0x8082, 0x800000000000808A, 0x8000000080008000, 0x808B, 0x80000001, 0x8000000080008081, 0x8000000000008009,
   0x8A, 0x88, 0x80008009, 0x8000000A, 0x8000808B, 0x800000000000008B, 0x8000000000008089, 0x8000000000008003,
   0x8000000000008002, 0x8000000000000080, 0x800A, 0x800000008000000A, 0x8000000080008081, 0x8000000000008080, 0x80000001, 0x8000000080008008]

/-- One round: theta, rho and pi, chi, iota. -/
def keccakRound (a : List W64) (rc : W64) : List W64 :=
  let columns := (List.range 5).map (fun x => (List.range 5).foldl (fun v y => v ^^^ lane a x y) 0)
  let spread (x : Nat) : W64 := columns.getD ((x + 4) % 5) 0 ^^^ (columns.getD ((x + 1) % 5) 0).rotateLeft 1
  let turned := (List.range 25).map (fun i =>
    let x := (i + 3 * (i / 5)) % 5
    let y := i % 5
    (lane a x y ^^^ spread x).rotateLeft (keccakRotations.getD (x + 5 * y) 0))
  (List.range 25).map (fun i =>
    let y := i / 5
    lane turned i y ^^^ (~~~(lane turned (i + 1) y) &&& lane turned (i + 2) y) ^^^ (if i = 0 then rc else 0))

/-- The permutation of 24 rounds. -/
def keccak (a : List W64) : List W64 := keccakConstants.foldl keccakRound a

/-- `n` blocks of 136 bytes are absorbed. -/
def absorb (a : List W64) (n : Nat) (bs : List Byte) : List W64 :=
  match n with
  | 0 => a
  | n + 1 =>
    let at_ (i : Nat) : W64 := if i < 17 then BitVec.ofNat 64 (leNat ((bs.drop (8 * i)).take 8)) else 0
    absorb (keccak ((List.range 25).map (fun i => a.getD i 0 ^^^ at_ i))) n (bs.drop 136)

/-- `n` blocks of 136 bytes are squeezed out. -/
def squeeze (a : List W64) (n : Nat) : List Byte :=
  match n with
  | 0 => []
  | n + 1 => ((a.take 17).map bytesOf).flatten ++ squeeze (keccak a) n

/-- What SHAKE256 puts behind a message of a length: the bits 1111, 1, zeros and a last 1. -/
def shakePad (len : Nat) : List Byte := leBytes (136 - len % 136) (0x1F ||| 2 ^ (8 * (136 - len % 136) - 1))

/-- The first `n` bytes of SHAKE256 over bytes. -/
@[irreducible] def shake256 (bs : List Byte) (n : Nat) : List Byte :=
  (squeeze (absorb (List.replicate 25 0) (bs.length / 136 + 1) (bs ++ shakePad bs.length)) (cdiv n 136)).take n

/-- A digest (R401). -/
def digest (bs : List Byte) : BitVec 512 := BitVec.ofNat 512 (leNat (shake256 bs 64))

/-! ## SLH-DSA with 32-byte hashes (FIPS 205) -/

/-- A parameter set: the hypertree's height and layers, and the height and number of the FORS trees. -/
structure SlhParams where
  h : Nat
  d : Nat
  a : Nat
  k : Nat
  deriving DecidableEq, Repr

/-- SLH-DSA-SHAKE-256s: vendor and owner keys (R401). -/
def slh256s : SlhParams := { h := 64, d := 8, a := 14, k := 22 }

/-- SLH-DSA-SHAKE-256f: the device key (R401). -/
def slh256f : SlhParams := { h := 68, d := 17, a := 9, k := 35 }

/-- A number's `n` bytes, most significant first. -/
def beBytes (n v : Nat) : List Byte := (leBytes n v).reverse

/-- The number that bytes spell, most significant first. -/
def beNat (bs : List Byte) : Nat := leNat bs.reverse

/-- The first `n` digits of `b` bits of a byte string, most significant first. -/
def beDigits (bs : List Byte) (b n : Nat) : List Nat := (List.range n).map (fun i => beNat bs / 2 ^ (8 * bs.length - b * (i + 1)) % 2 ^ b)

/-- A hash address: layer, tree, type, key pair, chain or height, hash or index. -/
structure Adrs where
  layer : Nat
  tree : Nat
  kind : Nat
  pair : Nat
  mid : Nat
  low : Nat
  deriving DecidableEq, Repr

def Adrs.bytes (a : Adrs) : List Byte :=
  beBytes 4 a.layer ++ beBytes 12 a.tree ++ beBytes 4 a.kind ++ beBytes 4 a.pair ++ beBytes 4 a.mid ++ beBytes 4 a.low

/-- The tweakable hashes and the keyed function: 32 bytes over the public seed, an address and a message. -/
def slhHash (seed : List Byte) (a : Adrs) (m : List Byte) : List Byte := shake256 (seed ++ a.bytes ++ m) 32

/-- The root of the subtree of height `z` at place `i` over leaves. -/
def treeNode (leaf : Nat → List Byte) (join : Nat → Nat → List Byte → List Byte) (z i : Nat) : List Byte :=
  match z with
  | 0 => leaf i
  | z + 1 => join (z + 1) i (treeNode leaf join z (2 * i) ++ treeNode leaf join z (2 * i + 1))

/-- The siblings on the way from a leaf up `z` levels. -/
def authPath (leaf : Nat → List Byte) (join : Nat → Nat → List Byte → List Byte) (z idx : Nat) : List (List Byte) :=
  (List.range z).map (fun j => treeNode leaf join j ((idx / 2 ^ j) ^^^ 1))

/-- The root that a leaf and its siblings give. -/
def climb (join : Nat → Nat → List Byte → List Byte) (idx : Nat) (node : List Byte) (auth : List (List Byte)) : List Byte :=
  (auth.zipIdx).foldl (fun x y =>
    join (y.2 + 1) (idx / 2 ^ (y.2 + 1)) (if idx / 2 ^ y.2 % 2 = 0 then x ++ y.1 else y.1 ++ x)) node

/-- The 32-byte parts of a byte string. -/
def parts32 (bs : List Byte) (n : Nat) : List (List Byte) := (List.range n).map (fun i => (bs.drop (32 * i)).take 32)

/-- `n` steps of a WOTS+ chain from step `i`. -/
def chain (seed : List Byte) (a : Adrs) (x : List Byte) (i n : Nat) : List Byte :=
  match n with
  | 0 => x
  | n + 1 => chain seed a (slhHash seed { a with low := i } x) (i + 1) n

/-- The 64 digits of a message and the 3 of its checksum. -/
def wotsDigits (m : List Byte) : List Nat :=
  let ds := beDigits m 4 64
  ds ++ beDigits (beBytes 2 (16 * (ds.map (15 - ·)).sum)) 4 3

/-- The start of chain `i` of a WOTS+ key. -/
def wotsStart (sk seed : List Byte) (a : Adrs) (i : Nat) : List Byte := slhHash seed { a with kind := 5, mid := i, low := 0 } sk

/-- A WOTS+ public key from the ends of its chains. -/
def wotsRoot (seed : List Byte) (a : Adrs) (ends : List (List Byte)) : List Byte := slhHash seed { a with kind := 1, mid := 0, low := 0 } ends.flatten

def wotsPublic (sk seed : List Byte) (a : Adrs) : List Byte :=
  wotsRoot seed a ((List.range 67).map (fun i => chain seed { a with mid := i } (wotsStart sk seed a i) 0 15))

def wotsSign (sk seed : List Byte) (a : Adrs) (m : List Byte) : List (List Byte) :=
  (wotsDigits m).zipIdx.map (fun x => chain seed { a with mid := x.2 } (wotsStart sk seed a x.2) 0 x.1)

def wotsRecover (seed : List Byte) (a : Adrs) (sig : List (List Byte)) (m : List Byte) : List Byte :=
  wotsRoot seed a ((wotsDigits m).zipIdx.map (fun x => chain seed { a with mid := x.2 } (sig.getD x.2 []) x.1 (15 - x.1)))

/-- The WOTS+ address of leaf `i` of a tree of the hypertree. -/
def leafAdrs (layer tree i : Nat) : Adrs := { layer := layer, tree := tree, kind := 0, pair := i, mid := 0, low := 0 }

/-- Inner nodes of a tree of the hypertree. -/
def xmssJoin (seed : List Byte) (layer tree : Nat) (z i : Nat) (m : List Byte) : List Byte :=
  slhHash seed { layer := layer, tree := tree, kind := 2, pair := 0, mid := z, low := i } m

def xmssLeaf (sk seed : List Byte) (layer tree i : Nat) : List Byte := wotsPublic sk seed (leafAdrs layer tree i)

/-- The root of a tree of height `z` of the hypertree. -/
def xmssRoot (sk seed : List Byte) (layer tree z : Nat) : List Byte := treeNode (xmssLeaf sk seed layer tree) (xmssJoin seed layer tree) z 0

/-- A signature of one layer: the chains, then the siblings. -/
def xmssSign (sk seed : List Byte) (layer tree z idx : Nat) (m : List Byte) : List (List Byte) :=
  wotsSign sk seed (leafAdrs layer tree idx) m ++ authPath (xmssLeaf sk seed layer tree) (xmssJoin seed layer tree) z idx

def xmssRecover (seed : List Byte) (layer tree idx : Nat) (sig : List (List Byte)) (m : List Byte) : List Byte :=
  climb (xmssJoin seed layer tree) idx (wotsRecover seed (leafAdrs layer tree idx) (sig.take 67) m) (sig.drop 67)

/-- The signatures of `n` layers from `layer` up: each signs the root below it. -/
def hyperSign (sk seed : List Byte) (z : Nat) (n layer tree idx : Nat) (m : List Byte) : List (List Byte) :=
  match n with
  | 0 => []
  | n + 1 =>
    xmssSign sk seed layer tree z idx m ++ hyperSign sk seed z n (layer + 1) (tree / 2 ^ z) (tree % 2 ^ z) (xmssRoot sk seed layer tree z)

/-- The root that `n` layers of signatures give. -/
def hyperRecover (seed : List Byte) (z : Nat) (n layer tree idx : Nat) (sig : List (List Byte)) (m : List Byte) : List Byte :=
  match n with
  | 0 => m
  | n + 1 =>
    hyperRecover seed z n (layer + 1) (tree / 2 ^ z) (tree % 2 ^ z) (sig.drop (67 + z)) (xmssRecover seed layer tree idx (sig.take (67 + z)) m)

/-- Nodes of the FORS trees: leaves are hashes of the secret of their place. -/
def forsJoin (seed : List Byte) (tree pair : Nat) (z i : Nat) (m : List Byte) : List Byte :=
  slhHash seed { layer := 0, tree := tree, kind := 3, pair := pair, mid := z, low := i } m

def forsSecret (sk seed : List Byte) (tree pair i : Nat) : List Byte :=
  slhHash seed { layer := 0, tree := tree, kind := 6, pair := pair, mid := 0, low := i } sk

def forsLeaf (sk seed : List Byte) (tree pair i : Nat) : List Byte := forsJoin seed tree pair 0 i (forsSecret sk seed tree pair i)

/-- The leaf of each FORS tree that a message picks, counted over all trees. -/
def forsPicks (p : SlhParams) (md : List Byte) : List Nat := (beDigits md p.a p.k).zipIdx.map (fun x => x.2 * 2 ^ p.a + x.1)

def forsSign (p : SlhParams) (sk seed : List Byte) (tree pair : Nat) (md : List Byte) : List (List Byte) :=
  ((forsPicks p md).map (fun i =>
    forsSecret sk seed tree pair i :: authPath (forsLeaf sk seed tree pair) (forsJoin seed tree pair) p.a i)).flatten

/-- The FORS public key that a signature gives. -/
def forsRecover (p : SlhParams) (seed : List Byte) (tree pair : Nat) (sig : List (List Byte)) (md : List Byte) : List Byte :=
  let roots := (forsPicks p md).zipIdx.map (fun x =>
    let part := (sig.drop (x.2 * (p.a + 1))).take (p.a + 1)
    climb (forsJoin seed tree pair) x.1 (forsJoin seed tree pair 0 x.1 (part.headD [])) part.tail)
  slhHash seed { layer := 0, tree := tree, kind := 4, pair := pair, mid := 0, low := 0 } roots.flatten

/-- The message digest's parts: what FORS signs, the tree and the leaf of the hypertree. -/
def slhParts (p : SlhParams) (r key m : List Byte) : List Byte × Nat × Nat :=
  let z := p.h / p.d
  let md := cdiv (p.k * p.a) 8
  let tr := cdiv (p.h - z) 8
  let lf := cdiv z 8
  let dg := shake256 (r ++ key ++ m) (md + tr + lf)
  (dg.take md, beNat ((dg.drop md).take tr) % 2 ^ (p.h - z), beNat (dg.drop (md + tr)) % 2 ^ z)

/-- The public key of a pair: the public seed, then the hypertree's root. -/
def slhPublic (p : SlhParams) (sk seed : List Byte) : List Byte := seed ++ xmssRoot sk seed (p.d - 1) 0 (p.h / p.d)

/-- The pure form with an empty context string (R401). -/
def slhMessage (m : List Byte) : List Byte := 0 :: 0 :: m

/-- A signature: the randomiser, FORS, then the layers. `sk`, `prf` and `seed` are SK.seed, SK.prf and PK.seed; `rand` is FIPS 205's added randomness. -/
@[irreducible] def slhSign (p : SlhParams) (sk prf seed rand m : List Byte) : List Byte :=
  let m := slhMessage m
  let r := shake256 (prf ++ rand ++ m) 32
  let (md, tree, leaf) := slhParts p r (slhPublic p sk seed) m
  let fors := forsSign p sk seed tree leaf md
  let key := forsRecover p seed tree leaf fors md
  r ++ fors.flatten ++ (hyperSign sk seed (p.h / p.d) p.d 0 tree leaf key).flatten

/-- The bytes of a signature. -/
def slhBytes (p : SlhParams) : Nat := 32 * (1 + p.k * (1 + p.a) + p.h + p.d * 67)

/-- A signature verifies under a public key. -/
@[irreducible] def slhVerify (p : SlhParams) (key m sig : List Byte) : Bool :=
  let seed := key.take 32
  let m := slhMessage m
  let (md, tree, leaf) := slhParts p (sig.take 32) key m
  let xs := parts32 (sig.drop 32) (p.k * (1 + p.a) + p.h + p.d * 67)
  let pk := forsRecover p seed tree leaf (xs.take (p.k * (1 + p.a))) md
  sig.length == slhBytes p && hyperRecover seed (p.h / p.d) p.d 0 tree leaf (xs.drop (p.k * (1 + p.a))) pk == key.drop 32

/-! ## The device key (R409) and the certificates (R410) -/

/-- SK.seed, SK.prf and PK.seed of the device key, 96 bytes (R409). -/
def deviceSeeds (secret : BitVec 512) : List Byte := shake256 (bytesOf secret ++ [0x4E, 0x47, 0x49, 0x44]) 96

/-- The device public key (R409). -/
@[irreducible] def deviceKey (secret : BitVec 512) : BitVec 512 :=
  BitVec.ofNat 512 (leNat (slhPublic slh256f ((deviceSeeds secret).take 32) ((deviceSeeds secret).drop 64)))

/-- A signature with the device key over bytes, with the randomness that FIPS 205 adds. -/
def deviceSign (secret : BitVec 512) (rand body : List Byte) : List Byte :=
  slhSign slh256f ((deviceSeeds secret).take 32) (((deviceSeeds secret).drop 32).take 32) ((deviceSeeds secret).drop 64) rand body

/-- A public key field verifies a signature over the first 192 bytes (R403, R407, R417). -/
def signedBy (bs : List Byte) (key : BitVec 512) : Bool := slhVerify slh256s (bytesOf key) (bs.take 192) ((bs.drop 192).take 29792)

/-- A certificate of a kind (R410). -/
def certificate (kind : Nat) (serial : BitVec 128) (cap0 cap1 : Nat) (subject issuer : BitVec 512) : List Byte :=
  bytesOf (pack 1536 [(0, 32, 0x4344474E), (32, 8, kind), (64, 128, serial.toNat), (192, 32, cap0), (224, 32, cap1),
    (256, 64, (Config.issued kind).toNat), (512, 512, subject.toNat), (1024, 512, issuer.toNat)]) ++
  leBytes 29792 (Config.certSignature kind)

/-- The device certificate, then the manufacturing certificate (R410), of a module with these fused capabilities. -/
def certificates (cap0 cap1 : Nat) : List Byte :=
  certificate 0 Config.serial cap0 cap1 (deviceKey Config.deviceSecret) (digest (bytesOf Config.mfgKey)) ++
  certificate 1 0 0 0 Config.mfgKey Config.rootHash

end Sys2Proof.Machine
end

