-- ==== Sys2Proof/Machine/State.lean ====
section
/-! DEFINITION. The state of the N8 as plain data, the reasons a step can stop, and the state after reset.
Every register of BAR0 lives in `Bar`, keyed by its BAR0 offset (R450 indexes them); the fields below hold what the
spec gives the machine besides its registers. INVENTORY.md lists every piece with its rule. -/
namespace Sys2Proof.Machine

/-- The part number fused at manufacture (R1): N8-768-A, N8-768-B or N8-576-C. -/
inductive Grade
  | a
  | b
  | c
deriving DecidableEq, Repr

/-- Reasons the machine stops. Every condition the spec describes ends in a next state, so the one constructor is
raised by no meaning: it keeps the type of stops inhabited, which is safe. -/
inductive Fault
  /-- Raised by no command. Safe. -/
  | none
deriving DecidableEq, Repr

/-- Reasons a command has no meaning. -/
inductive Refusal
  /-- Raised by exec's arm of a command that has no meaning yet. Safe: no next state is claimed. -/
  | notModelled (mnemonic : String)
deriving DecidableEq, Repr

/-! ## Registers -/

/-- BAR0's registers (R435 to R438). `regs` holds the 32-bit registers and `regs64` the 64-bit ones, both by BAR0 offset (the
low word's); an unlisted register holds its Reset value. `latch` holds the high word an accessor's low-word read latched,
`pendLow` the low word a 64-bit write holds pending, and `rdata` the word the last register read returned. -/
structure Bar where
  regs : Tab W32
  regs64 : Tab W64
  latch : List (Accessor × Nat × W32)
  pendLow : Tab W32
  rdata : W32
deriving DecidableEq, Repr

/-! ## Time -/

/-- The measured state of one PTP port (R349, R350): the last Sync's times, the last Delay_Req's send time, the best
announcer heard, and whether a Delay_Req is outstanding. -/
structure PtpPort where
  syncOrigin : Nat
  syncRx : Nat
  syncCorr : Int
  awaitFollowUp : Bool
  reqSent : Option Nat
  reqSeq : W16
  announced : Bool
  clockClass : Nat
  accuracy : Nat
  traceable : Bool
  priority1 : Nat
  priority2 : Nat
  clockId : W64
  seq : W16
deriving DecidableEq, Repr

/-- The TIME block beyond its registers: the counter and the part of an increment below 2^−16 ns (R342, R344), the TIME cycles
elapsed since the counter last started, the two parts of ρ, the measurements of the servo and the 1PPS input (R347 to R349), the
holdover's offset at the loss and bound in 2^−4 × 10^−9 ns up to `boundAt` (R348), when ρ last changed, whether the seconds are known, the seconds
whose pulse PPS_OUT gave and when it last rose (R353); the integral of the servo (R349), the ageing offset it has learned (R345), and the receive and
transmit latencies that each sub-port measured at its link-up, in half nanoseconds (R352). -/
structure TimeSt where
  sec : BitVec 48
  ns : Nat
  frac : W16
  acc : Nat
  cycles : Nat
  comp : Int
  servo : Int
  tracedOnce : Bool
  below : Nat
  delays : List Int
  ports : Tab PtpPort
  ppsEdges : List Nat
  ppsConfig : BitVec 3
  lossTemp : Int
  lossOffset : Nat
  bound : Nat
  boundAt : Nat
  rhoAt : Option Nat
  secKnown : Bool
  ppsOutSecs : List (BitVec 48)
  ppsRose : Nat
  integral : Int
  ageing : Int
  latency : Tab (Nat × Nat)
deriving DecidableEq, Repr

/-! ## Device memory -/

/-- The errors of one stored sector (R170 to R172): the bytes whose stored copy is corrupted with the inverted bits,
whether the sector holds the poison pattern, and whether its next read is answered from another location. -/
structure SecErr where
  flips : List (Nat × Byte)
  poison : Bool
  moved : Bool := false
deriving DecidableEq, Repr

/-- A home-slice line (R154): two sectors of 32 bytes with a valid, a dirty and a poison bit each. -/
structure CacheLine where
  data : BitVec 512
  valid : BitVec 2
  dirty : BitVec 2
  poison : BitVec 2
deriving DecidableEq, Repr

/-- An operation of a pseudo-channel engine (R160, R163): a fill for granule `gran` of thread operation `op`, or the write-back of the
line at `addr` with its data, dirty and poison bits; `released` once it has waited for a hold that has ended (R180), `slotted` once a yield slot of its bank has left it behind (R202). -/
structure DOp where
  id : Nat
  write : Bool
  bank : Nat
  row : Nat
  addr : Nat
  op : Nat
  gran : Nat
  port : Nat
  urgency : Nat
  critical : Bool
  arrived : Nat
  data : BitVec 512
  dirty : BitVec 2
  poison : BitVec 2
  released : Bool := false
  slotted : Bool := false
deriving DecidableEq, Repr

/-- A pseudo-channel engine (R160, R164, R166): operations in flight, the home slice's own queue behind it, its write
buffer, the open row of each bank, and the postponed refreshes of each bank. -/
structure Engine where
  inflight : List DOp
  sliceQ : List DOp
  wbuf : List DOp
  openRow : Tab Nat
  postponed : Tab Nat
deriving DecidableEq, Repr

/-- A reservation of row sets (R157, R281) with the attributes of R55; `rows` counts output rows, or pages. -/
structure Region where
  first : Nat
  count : Nat
  planar : Bool
  kind : Nat
  fmt : Nat
  scaled : Bool
  rowLen : Nat
  rows : Nat
deriving DecidableEq, Repr

/-- Device memory. `dram` is keyed by physical byte (bank, row, byte; R153), `ecc` by physical sector, `lines` by line of a local
offset, `lru` by slice and set, most recent first. `remaps` lists a bank's repaired rows, `ceRow` the times of a row's correctable errors in the
last 24 hours, `repairDue` the rows R175 wants repaired, `poisonRefused` the accesses refused since a sector's last entry, `held` the pseudo-channels held and why (R180, R363), `heldAt` since when, `trainedAt` when a channel's last periodic retrain started, `stkphyDue` since when a channel's
calibration is due, `wholeDue` the pseudo-channels whose urgent retrain takes the whole channel.
`discarded` gives each row set whose contents R281 discarded the number of the first free value that they read as; `touched` lists the bits
(byte and place) of column words that writes changed while programs ran (R203). -/
structure Mem where
  dram : Tab Byte
  discarded : Tab Nat
  touched : List (Nat × Nat)
  ecc : Tab SecErr
  lines : Tab CacheLine
  lru : Tab (List Nat)
  engines : Tab Engine
  regions : List Region
  noAlloc : List Nat
  remaps : Tab (List Nat)
  ceRow : Tab (List Nat)
  repairDue : List Nat
  ceLogged : Tab Nat
  poisonLogged : Tab Nat
  poisonRefused : Tab Nat
  held : List (Nat × Nat)
  heldAt : Tab Nat
  trainedAt : Tab Nat
  powerDown : List Nat
  scrubPos : Tab Nat
  stkphyDue : Tab Nat
  wholeDue : List Nat
deriving DecidableEq, Repr

/-! ## Cores -/

/-- One entry of a queue (R76): its data, and the operation that has reserved it and not yet delivered. -/
structure QEntry where
  data : VReg
  pending : Option Nat
deriving DecidableEq, Repr

/-- An exact sum of products (R108, R111): `num` × 2^−300 together with the specials the group has met. -/
structure Partial where
  num : Int
  nan : Bool
  posInf : Bool
  negInf : Bool
deriving DecidableEq, Repr

/-- An accumulator tile (R108): type, entries by 16 × row + column, the reduction count GK and the open group's partial sums. -/
structure Tile where
  isInt : Bool
  entries : Tab W32
  gk : Nat
  part : Tab Partial
deriving DecidableEq, Repr

/-- An affine loop unit (R92, R93): loaded or not, its descriptor, its indices and DONE. -/
structure LoopUnit where
  configured : Bool
  base : W64
  levels : Nat
  counts : Tab Nat
  strides : Tab Int
  idx : Tab Nat
  done : Bool
deriving DecidableEq, Repr

/-- An active repeat (R94): the offsets of its body's first bundle and of the byte after its last, and the passes left. -/
structure Repeat where
  bodyStart : Nat
  bodyEnd : Nat
  passes : Nat
deriving DecidableEq, Repr

/-- Where a thread stands: idle for the whole job (R71), issuing, waiting in SEMWAIT for an amount (R144), executing END (R73), ended. -/
inductive Run
  | idle
  | running
  | semWait (sem : Nat) (amount : W64)
  | ending
  | ended
deriving DecidableEq, Repr

/-- The three fences (R136). -/
inductive Fence
  | l
  | d
  | h
deriving DecidableEq, Repr

/-- A slot of a thread's next bundle that waits on a queue (R102): to pop or peek it, or to push it. The bundle takes `taken` entries of the queue,
beyond those it pushes itself, before this slot comes to it (R77). -/
structure QWait where
  slot : Nat
  q : Nat
  push : Bool
  taken : Nat := 0
deriving DecidableEq, Repr

/-- The per-thread state of R70, the flags (R126), the generator (R37), and what the thread is in the middle of: the slots of its
next bundle that wait on queues (R102), the slots of that bundle skipped by DEADLOCK (R103), a fence in progress, its work-items (R73, R369), and how long its
present SEMWAIT has counted toward SEM_EN's watchdog, in ns (R366). -/
structure Thread where
  s : Tab W64
  v : Tab VReg
  m : Tab Mask
  acc : Tab Tile
  q : Tab (List QEntry)
  loops : Tab LoopUnit
  rpt : List Repeat
  pc : W32
  subtag : W16
  memerr : W16
  memerrAt : Nat
  skips : W32
  flags : BitVec 6
  rng : W32
  run : Run
  fence : Option Fence
  waitQ : List QWait
  dropped : BitVec 4
  winext : Nat
  item : Option Nat
  replay : Option Nat
  semFor : Nat := 0
deriving DecidableEq, Repr

/-- A line of an L1 (R134): 64 bytes, a valid bit per sector. -/
structure L1Line where
  data : BitVec 512
  valid : BitVec 2
deriving DecidableEq, Repr

/-- Where a memory operation's result goes (R85). -/
inductive Dest
  | none
  | sreg (n : Nat)
  | vreg (n : Nat)
  | queue (n : Nat)
deriving DecidableEq, Repr

/-- What an outstanding operation does at its home (R85, R86). -/
inductive OpKind
  | load (bytes : Nat) (signed : Bool) (vec : Bool) (nc : Bool)
  | store (bytes : Nat)
  | amo (kind type : Nat)
  | semSig
  | semWait
  | semTry
deriving DecidableEq, Repr

/-- An operation a thread has issued (R89): its thread (none once its core is fenced, R367), the thread that issued it, address, data, byte mask, destination, its partition, the granules not yet performed, what has
been read so far, its status, whether it is complete, and whether it is parked (R307). `node` is 0 for a local address. -/
structure MemOp where
  id : Nat
  t : Tid
  origin : Tid
  part : Nat
  kind : OpKind
  node : Nat
  addr : W64
  data : VReg
  cmp : W64
  mask : BitVec 256
  dest : Dest
  todo : List Nat
  res : VReg
  status : W16
  done : Bool
  parked : Bool
  short : Bool
  tag : W32
  subtag : W16
deriving DecidableEq, Repr

/-- The three job states of JOB_QUERY (R287). -/
inductive JobState
  | waiting
  | running
  | ending
deriving DecidableEq, Repr

/-- Why a job was ended early (R101). -/
inductive JobStop
  | cancelled
  | fenced
  | missed
deriving DecidableEq, Repr

/-- A job (R71 to R74): the launch's parameters, the header's fields, the queue map, and its running counts. `clean` holds what
CHECK_CLEAN recorded (R152): per semaphore its value before, and the regulator words at the start. -/
structure Job where
  id : Nat
  cmd : Nat
  tag : W32
  client : Nat
  part : Nat
  image : W64
  vfirst : Nat
  vcount : Nat
  wiCount : Nat
  arg : W64
  threads : Nat
  idempotent : Bool
  dynamic : Bool
  codeBytes : Nat
  entry : Nat
  scratch : Nat
  qmap : Tab W32
  state : JobState
  stop : Option JobStop
  nextItem : Nat
  replay : List Nat
  started : Nat
  skips : Nat
  clean : Option (Tab W64 × List W32 × Nat)
  vcores : List Nat
deriving DecidableEq, Repr

/-- The cores. Threads by 8 × virtual core + thread, scratchpad bytes by 131,072 × virtual core + offset, L1 lines by virtual core and
line, shared queues by 16 × virtual core + queue. `vmap` gives the physical core serving a virtual core plus one, 0 when unplaced; `watch` the time that has
counted toward a virtual core's watchdog since it last issued, in eighths of a ns (R366, R386). -/
structure Cores where
  threads : Tab Thread
  scratch : Tab Byte
  l1 : Tab L1Line
  shq : Tab (List QEntry)
  ops : List MemOp
  jobs : List Job
  nextId : Nat
  vmap : Tab Nat
  fenced : List Nat
  ce : Tab (List Nat)
  gated : List Nat
  preempted : List Nat
  parkOrder : List Nat
  watch : Tab Nat
deriving DecidableEq, Repr

/-! ## Semaphores, hoists -/

/-- A semaphore at its home slice (R144, R145, R150): value, waiter list from the head, mark, and the last signaller. -/
structure Sem where
  value : W64
  waiters : List (Tid × W64)
  saturated : Bool
  source : Nat
  agent : Nat
  sthread : Nat
  tag : W32
  subtag : W16
  time : W64
deriving DecidableEq, Repr

/-- A queued hoist move (R62, R85): the descriptor as the hoist read it, its address, who issued it. -/
structure MoveReq where
  hoist : Nat
  desc : Line
  addr : W64
  owner : Option Tid
  cmd : Option Nat
  part : Nat
  unreadable : W16
deriving DecidableEq, Repr

/-- What a started move waits for (R64, R333, R334): nothing, the GETs of its source, those of what it must keep of its destination, the PUTs of its
destination, its PUT_SIGNAL. -/
inductive MovePhase
  | done
  | gets
  | dest
  | puts
  | signal
deriving DecidableEq, Repr

/-- A started move (R63, R64), with its tensor descriptors and resolved index arrays, what its GETs have returned (by Level address) and
which failed, and the result it will report. -/
structure Move where
  id : Nat
  req : MoveReq
  src : BitVec 1024
  dst : BitVec 1024
  srcIdx : List (Option Nat)
  dstIdx : List (Option Nat)
  got : Tab Byte
  phase : MovePhase
  status : W16
  detail : W32
  position : W32
  flags : BitVec 6
  timedOut : Bool
deriving DecidableEq, Repr

/-- The hoists: descriptor queues by hoist number of R150 (64 entries per cluster), started moves, generators. -/
structure Hoists where
  queue : List MoveReq
  moves : List Move
  rng : Tab W32
deriving DecidableEq, Repr

/-! ## Near-bank units -/

/-- A near-bank unit (R183), by 512 × vector + lane: accumulators, block registers, saturation and poison bits; by lane the weight
exponents and the lanes whose header was bad (R198); the lane enables of its last column read (R193); and the program whose segment it is in
(R194). -/
structure NbUnit where
  acc : Tab Int
  blk : Tab Int
  sat : Tab Bool
  poison : Tab Bool
  ew : Tab Int
  hdrBad : Tab Bool
  enable : BitVec 512
  seg : Option Nat
deriving DecidableEq, Repr

/-- Who started a program (R301). -/
inductive ProgOwner
  | sequencer (part : Nat)
  | cmd (id : Nat)
  | aperture
  | group
deriving DecidableEq, Repr

/-- A running program (R194 to R197, R200): its present entry, whether that has begun, the severities since the last
DRAIN and since the start, BAD_PARAM's detail, the result areas since the last DRAIN (offset and entries), the tainted areas, and per
bank the column reads done and left in the present entry; `mark` is the length of `touched` when the present entry began, `unflushed` the view lines whose
write-back its first column read still awaits (R201). -/
structure Program where
  id : Nat
  stack : Nat
  start : Nat
  cur : Nat
  part : Nat
  tag : W32
  owner : ProgOwner
  begun : Bool
  sev : W16
  sevAll : W16
  detail : W32
  results : List (Nat × Nat)
  tainted : List (Nat × Nat)
  pos : Tab Nat
  left : Tab Nat
  mark : Nat
  unflushed : List Nat
deriving DecidableEq, Repr

/-- The near-bank side: program memory by 64 × stack + entry, broadcast buffers by 2,097,152 × stack + offset (their undefined contents are
free values from `bufSeed`, by stack, on), programs, units by bank, the grant in force of each stack's IDs and the arbiter's for the next window (R24, R383), the module rate that assay
measured and the sum of the stacks' grants at that time (R219), since when a stack's grant in force is 0 and since when some retrain runs, retrains not counted
in the first (R220, R221), the reads done in the present window by stack
ID, by (program, stack ID) and by bank, what the last NB_START answered and what the last NB_DRAIN and NB_STATUS read (R189), and the aperture (R206 to
R208). -/
structure NearBank where
  progMem : Tab Line
  bbuf : Tab Byte
  bufSeed : Tab Nat
  programs : List Program
  units : Tab NbUnit
  grant : Tab Nat
  grantSet : Tab Nat
  measured : Option (Nat × Nat)
  dryFrom : Tab Nat
  retrainFrom : Option Nat
  used : Tab Nat
  usedBy : List (Nat × Nat × Nat)
  usedBank : Tab Nat
  nextId : Nat
  startOut : W16
  drained : List Byte
  statusOut : List Program
  aptSlots : Tab Line
  aptStatus : Line
  aptEnds : List (Nat × W16 × W32)
  cmdEnds : List (Nat × Nat × W16 × W32)
deriving DecidableEq, Repr

/-! ## Host port and commands -/

/-- A queue pair (R265 to R268, R278). -/
structure QueuePair where
  defined : Bool
  sqBase : W64
  cqBase : W64
  log2 : Nat
  yields : Bool
  admin : Bool
  msix : Nat
  part : Nat
  client : Nat
  sqTail : Nat
  sqHead : Nat
  cqHead : Nat
  cqTail : Nat
  reserved : Nat
  phase : Bool
  error : Bool
  waitSem : Option Nat
  deleting : Option Nat
deriving DecidableEq, Repr

/-- A command accepted and not yet completed (R268, R276, R277): its queue (256 and above for a remote source), packet, source
node and request PSN when it came over the Level, whether its own row has begun it, when, and what it waits for. -/
structure Cmd where
  id : Nat
  queue : Nat
  pkt : Line
  ext : List Byte
  extStatus : W16
  src : Option (Nat × Nat × Nat)
  begun : Bool
  at_ : Nat
  count : Nat
  status : W16
  detail : W32
deriving DecidableEq, Repr

/-- A command packet that came over the Level and waits to be fetched (R277): source node, class and request PSN for its reply, and the packet. -/
structure RemoteCmd where
  src : Nat
  cls : Nat
  psn : Nat
  pkt : Line
deriving DecidableEq, Repr

/-- The host side: host memory by bus address, queue pairs, commands in progress, commands that came over the Level and wait to be fetched, in the order
of arrival, CXL.io's configuration space as the host wrote it, MSI-X messages sent, the data and outcome the
last host access returned (bytes, Unsupported Request, poisoned), and the suppressed ENGINE_ABSENT entries by queue (R275). -/
structure HostPort where
  mem : Tab Byte
  qps : Tab QueuePair
  cmds : List Cmd
  nextCmd : Nat
  remote : List RemoteCmd
  config : Tab Byte
  msix : List Nat
  rbytes : List Byte
  rUr : Bool
  rPoison : Bool
  absent : Tab (Nat × Nat)
  linkUp : Bool
  fetchStopped : Bool
deriving DecidableEq, Repr

/-! ## Partitions -/

/-- A partition's reference rates as assay measured them (R219): R_NB and R_D' in G weights/s, with the sum of the stacks' grants and the partition's
shares at that time: its NB_WEIGHT, the sum of all, and the sum of its regulators' rates. -/
structure Meas where
  nb : Nat
  d : Nat
  grants : Nat
  near : Nat
  sum : Nat
  band : Nat
deriving DecidableEq, Repr

/-- What a partition's step boundary put in force (R219): its shares, and the measurement they scale; for a partition that assay has not measured the module's
rates: R_NB as assay measured it with the grants at that time, and R_D'. -/
structure InForce where
  near : Nat
  sum : Nat
  band : Nat
  meas : Option Meas
  moduleNb : Option (Nat × Nat)
  moduleD : Nat
deriving DecidableEq, Repr

/-- A partition's state that no register of R302 holds (R292, R294, R299): save area, remote command sources, token buckets by stack and
by 8 + port, its pending redefinition, applied at the next step boundary (R296), when its last step started (R298), the
engine's registers as they were at its last step boundary (R223, R263), assay's last measurement, and the rates in force since that boundary (R219). -/
structure Part where
  saveBase : W64
  remoteCmd : Nat
  nodes : List W16
  tokens : Tab Nat
  redefine : Option (BitVec 1024)
  lastStep : Nat
  cfg : List W32
  measured : Option Meas
  rates : Option InForce
deriving DecidableEq, Repr

/-! ## Serving engine -/

/-- A resident model (R228 to R231, R372): record, group table, package digest and place, the partitions whose boundary its unload awaits, and
whether its weights await repair. -/
structure Model where
  record : BitVec 1024
  groups : List Line
  digest : BitVec 512
  pkgAddr : W64
  pkgBytes : W32
  unloadCmd : Option Nat
  unloadParts : List Nat
  repairing : Option Nat
deriving DecidableEq, Repr

/-- What waits for a session's next boundary, by R234's precedence. -/
inductive SessEvent
  | cancel
  | gone
  | pause
  | starve
  | resume
deriving DecidableEq, Repr

/-- A session (R232) with what the engine keeps beside the record: the projected state (R274), a waiting request, a slot, its transcript, pending
events, pending changes of SESSION_SET, steps sat out, the models whose repair a withheld slot awaits (R371), withheld and rebuild marks, the prefill positions still to do, taken-over handle; a tier move's
target, whether its copy is whole and where it lies, a move that waits for room (0 to T0, t + 1 down from tier t), the number under
which its packets go, what the packed image holds; the
unit of 512 bytes of its chunk table and its chunks (R241). -/
structure Session where
  record : BitVec 1024
  proj : Nat
  projSusp : Bool
  waiting : Bool
  slot : Bool
  order : Nat
  toks : List W32
  events : List SessEvent
  setPending : Option (W32)
  satOut : Nat
  withheld : List Nat
  withheldSaid : Bool
  rebuilt : Bool
  takenOver : Bool
  first : Bool
  missedAny : Bool
  prefillFrom : Nat
  prefillAt : Nat
  tierTo : Option Nat
  tierDone : Bool
  tierAddr : Nat
  tierWait : Option Nat
  tierId : Option Nat
  plain : List Byte
  dueTtft : Option Nat
  transBad : Bool
  root : Option Nat
  ringSatOut : Bool
  table : Option Nat
  chunks : List Nat
  sinceProbe : Nat
  started : Bool
deriving DecidableEq, Repr

/-- A span of a T0 session (R242): draft or main, span index, span-block unit, K slots. -/
structure Span where
  session : Nat
  draft : Bool
  idx : Nat
  block : Nat
  slots : List Nat
deriving DecidableEq, Repr

/-- How a group of the present step runs (R212). -/
inductive Mode
  | near
  | dense
  | split (n : Nat)
deriving DecidableEq, Repr

/-- What a slot does in a step (R236, R250, R258): its model, whether moved to a fallback and whether that is its own draft, draft tokens, a probe,
prefill positions and the one they reach, whether it emits, catch-up positions of the model and of the draft. -/
structure Work where
  session : Nat
  model : Nat
  moved : Bool
  draftFb : Bool
  d : Nat
  probe : Bool
  prefill : Nat
  upTo : Nat
  emits : Bool
  catchUp : Nat
  draftCatch : Nat
deriving DecidableEq, Repr

/-- A group that a step plans (R210, R211): the kind of its batch (0 prefill, 1 catch-up, 2 draft, 3 decode, 4 once per step), its model, the vectors it
receives, its index in the model's group table and its entry. -/
structure PlanItem where
  kind : Nat
  model : Nat
  batch : Nat
  index : Nat
  entry : Line
deriving DecidableEq, Repr

/-- A near-bank program the sequencer starts on a stack (R194, R210, R217): bytes it writes into the broadcast buffer before, and its entries but END, with
offsets relative to the place of `bytes` bytes that the program gets there. -/
structure NearProg where
  stack : Nat
  lists : List (Nat × List Byte)
  body : List Line
  bytes : Nat
deriving DecidableEq, Repr

/-- A read that the dense half still has to make (R57, R212, R217): `n` bytes of a view, or of the scale slab, from local offset `addr`; the bytes of results that
go to the step scratchpads then; and the session whose pages they are, none for weights. -/
structure DenseRead where
  addr : Nat
  n : Nat
  out : Nat
  session : Option Nat
deriving DecidableEq, Repr

/-- A step in progress (R238, R256, R257): its slots' works in admission order, the start in time and in TIME's cycles, the prediction, the
groups still to plan, the group in stages 2 to 5 with its mode and when its stage 2 began; the layer's semaphore, the signals of near-bank programs that stage 6
awaits, the rounds of programs yet to start (the first one begun), whether a round has ended; the reads the dense half still has to make, and the signals of it that
stage 6 awaits; whether the layer's attention has begun, whether the group was
rescued, held by a retrain, or ran through a grant change (R218, R220); the time groups were held (R221); the sessions whose attention runs near-bank
(R217); and the batches (kind, model) and the sessions whose results carried poison (R371). -/
structure StepRun where
  works : List Work
  start : W64
  startMono : Nat
  predicted : Nat
  planNs : Nat
  todo : List PlanItem
  group : Option (PlanItem × Mode)
  groupAt : Nat
  sem : Nat
  signals : Nat
  rounds : List (List NearProg)
  drained : Bool
  dense : List DenseRead
  denseSig : Nat
  attended : Bool
  rescued : Bool
  held : Bool
  regrant : Bool
  everHeld : Bool
  holdNs : Nat
  attn : List Nat
  badBatches : List (Nat × Nat)
  badSessions : List Nat
deriving DecidableEq, Repr

/-- An output ring (R259). -/
structure Ring where
  base : W64
  log2 : Nat
  tail : W64
  msix : Nat
deriving DecidableEq, Repr

/-- The serving engine (R224 to R262). `gen` holds each index's present generation, `status` the status entries a partition's next record
will carry, `durations` the last eight differences of R256, `cached` the sessions whose record the cache holds (R227), `stepNums` each partition's step
number (R239), `boundaryAt` when the last step boundary of any partition was (R222), `commitLog` every record written: partition, step number, header and entries (R262). -/
structure Serving where
  models : Tab Model
  sessions : Tab Session
  gen : Tab Nat
  pool : Option (BitVec 1024)
  spans : List Span
  steps : Tab StepRun
  rings : Tab Ring
  status : Tab (List Line)
  durations : Tab (List Int)
  order : Nat
  rateNb : Tab (List Nat)
  rateD : Tab (List Nat)
  cached : List Nat
  stepNums : Tab Nat
  boundaryAt : Option Nat
  commitLog : List (Nat × W64 × List Line)
deriving DecidableEq, Repr

/-! ## The Level fabric -/

/-- Whose operation a packet carries. -/
inductive PktOwner
  | none
  | op (id : Nat)
  | move (id : Nat)
  | tier (id : Nat)
  | twin (id : Nat)
deriving DecidableEq, Repr

/-- A message to the twin (R375 to R378): a notice (1 handoff, 2 detach, 3 pairing request, 4 COPY_DONE) with time and device state, a
heartbeat, or a mirror item. How one is laid out in a packet is not the spec's (log entry 80). -/
inductive TwinMsg
  | notice (kind : Nat) (time : W64) (state : Nat)
  | heartbeat (time : W64) (state : Nat) (steps : List W64)
  | mirror (item : MirrorItem)
deriving DecidableEq, Repr

/-- A packet waiting for its flow, or sent and not yet done (R323, R325 to R327): its PSN (counted without wrapping), header, payload,
times and path of its sendings, whether it is reported received or answered, its error, when an ACK last reported it held, what it completes, and the
partition it is charged to (R300). -/
structure Sent where
  psn : Nat
  op : OpHeader
  payload : List Byte
  ackNow : Bool
  path : Nat
  sentAt : Nat
  firstAt : Nat
  resent : Bool
  received : Bool
  answered : Bool
  failed : Option (W16 × W32)
  heldAt : Option Nat
  owner : PktOwner
  charge : Option Nat
  msg : Option TwinMsg
deriving DecidableEq, Repr

/-- A received request that waits for a memory hold or a recovery (R180, R322), with the port whose buffer it stands in (R330). -/
structure HeldReq where
  psn : Nat
  op : OpHeader
  payload : List Byte
  ackNow : Bool
  port : Nat
deriving DecidableEq, Repr

/-- A flow with one peer in one class: the sender's half (R323, R326 to R329) and the receiver's half (R324, R325). PSNs are counted without
wrapping and sent modulo 2^24; `rate` is in bits per second, `alpha` in units of 2^−32; `latest` is the latest sending of a packet reported received
(R327), `noPath` the moment since which the peer has had no usable sub-port (R331). -/
structure Flow where
  peer : Nat
  cls : Nat
  incarn : W16
  next : Nat
  rcv : Nat
  doneP : Nat
  sent : List Sent
  waitq : List Sent
  peerEpoch : W16
  srtt : Nat
  rttvar : Nat
  rto : Nat
  lastAdvance : Nat
  rate : Option Nat
  alpha : Nat
  lastCut : Nat
  ai : Nat
  quiet : Nat
  eceSeen : Bool
  nextPath : Nat
  quarantine : List (Nat × Nat)
  rxPair : Option (W16 × W16)
  rxRcv : Nat
  rxDone : Nat
  rxHave : List Nat
  rxPerf : List Nat
  rxHeld : List HeldReq
  rxHigh : Nat
  rxEce : Nat
  rxCount : Nat
  ackDue : Bool
  waitResp : List (Nat × Nat)
  latest : Nat
  noPath : Option Nat
deriving DecidableEq, Repr

/-- The fields of a sent packet's transport header (R319); VERSION, TYPE and LENGTH follow from the frame. -/
structure TxHeader where
  src : Nat
  dst : Nat
  cls : Nat
  retx : Bool
  ackNow : Bool
  syn : Bool
  srcEpoch : W16
  dstEpoch : W16
  psn : Nat
  path : Nat
  incarn : W16
deriving DecidableEq, Repr

/-- Where a Level packet leaves: sub-port as 8k + j, the next hop's address, and its MAC once that is resolved (R312, R328). A frame without a MAC
waits in its sub-port for the answer. The twin port has no next hop. -/
structure Wire where
  sub : Nat
  hop : Option (BitVec 128)
  mac : Option (BitVec 48)
deriving DecidableEq, Repr

/-- What a port has sent: everything the N8 puts on the wire that the model tracks by content. A PTP message (R350) carries whether it goes over IPv4, its
domain, its time in nanoseconds and its correctionField in 2^−16 ns; an Announce the grandmaster's identity, none for the N8's own. -/
inductive TxFrame
  | data (w : Wire) (h : TxHeader) (op : OpHeader) (payload : List Byte) (msg : Option TwinMsg)
  | ack (w : Wire) (h : TxHeader) (body : AckBody)
  | reset (w : Wire) (h : TxHeader)
  | neighbour (port sub : Nat) (target : BitVec 128) (mac : BitVec 48)
  | solicit (port sub : Nat) (target : BitVec 128) (mac : BitVec 48)
  | echo (port sub : Nat) (target : BitVec 128)
  | ptp (port : Nat) (v4 : Bool) (domain kind : Nat) (seq : W16) (ns : Nat) (correction : Int)
  | announce (port : Nat) (v4 : Bool) (domain : Nat) (seq : W16) (clockClass accuracy : Nat) (traceable : Bool) (priority1 priority2 : Nat)
      (grandmaster : Option W64)
deriving DecidableEq, Repr

/-- What the packets of a tier move have met, and the bytes its GETs brought by address (R245, R247). -/
structure TierGot where
  status : W16
  bytes : Tab Byte
deriving DecidableEq, Repr

/-- The fabric: tier moves on their way by number, node block, peer blocks by node, port blocks by port, flows, frames sent (newest first), next-hop addresses,
and the bytes that each port's transmit queue held when they were last counted (R300). -/
structure Fabric where
  node : BitVec 1024
  peers : Tab Line
  ports : Tab Line
  flows : List Flow
  tx : List TxFrame
  neigh : List (BitVec 128 × BitVec 48)
  dropNext : Tab Nat
  tiers : Tab TierGot
  txq : Tab (Nat × Nat)
deriving DecidableEq, Repr

/-! ## Faults, twin -/

/-- A weight repair whose units are written and that waits for a step boundary (R372): model, source, LOC of its entry, units rewritten. -/
structure Repair where
  model : Nat
  source : RepairSource
  loc : Nat
  units : Nat
deriving DecidableEq, Repr

/-- The error log's ring by index, the illegal-instruction ring by index, recoveries running by kind (domain plus one), the
times they started, those queued by kind with the causes they were queued for (kind, domain, class), the cores that fail the self-test of a running cluster recovery, the state before RECOVERING, ports out of service, entries waiting for the flash copy, weight repairs waiting for a boundary and the models
whose last repair had no source, with the time it was tried; whether a device fault for the row sets of R225 is still to be resolved (R363), and when the entries of the last second
were copied to the flash log (R360). -/
structure Faults where
  ring : Tab Line
  illRing : Tab (BitVec 256)
  running : Tab Nat
  since : Tab Nat
  queued : Tab (List Nat)
  causes : List (Nat × Nat × Nat)
  selfTest : List Nat
  before : Nat
  portsOut : List Nat
  unflashed : List Nat
  repairs : List Repair
  missed : Tab Nat
  tableError : Bool
  copiedAt : List Nat
deriving DecidableEq, Repr

/-- A session of the partner as its twin holds it (R375): handle, record, transcript, and whether it has a request, ACTIVE or waiting. -/
structure Mirrored where
  handle : Nat
  record : BitVec 1024
  toks : List W32
  request : Bool
deriving DecidableEq, Repr

/-- What waits until the twin has acknowledged the items it depends on (R375 to R377): an output record with its ring, WR before it and units of
filler; the status of a command, with the index of the session it opened; COPY_DONE; the end of TWIN_DETACH. -/
inductive GateAct
  | record (part : Nat) (r : Ring) (wr0 pad : Nat) (ls : List Line)
  | status (cmd : Nat) (st : W16) (result : Nat) (opened : Option Nat)
  | copyDone
  | detached (cmd : Nat)
deriving DecidableEq, Repr

/-- An act and the number of the items it waits for. -/
structure Gate where
  id : Nat
  act : GateAct
deriving DecidableEq, Repr

/-- The twin (R374 to R379): the partner's sessions held, its models and its output records, this module's records as
last sent by index, what pairing has exchanged and with whom, the command of TWIN_PAIR or TWIN_DETACH, when the last heartbeat came; the number that the
items sent now go under, what waits for items, and the numbers under which the twin has refused one. -/
structure Twin where
  mirror : List Mirrored
  models : List TwinModel
  records : List (Nat × W64 × List Line)
  sent : Tab (BitVec 1024 × Bool)
  sentReq : Bool
  gotReq : Bool
  peer : W16
  sentDone : Bool
  gotDone : Bool
  cmd : Option Nat
  since : Nat
  lastHb : Nat
  gate : Nat
  gates : List Gate
  refused : List Nat
deriving DecidableEq, Repr

/-! ## Power, trust, flash, pins, trace -/

/-- A calibration record (R396): the conditions and the kind's values. -/
structure CalRec where
  cond : CalCond
  vals : List Nat
deriving DecidableEq, Repr

/-- The arbiter, thermal loop and assay (R383 to R397): last readings, the measured k of each stack in mW, thermal states, the time above the
cap, the frequency waiting for its voltage, records in force by kind (the V/F table is kind 0's) and when each was last measured, those with the highest
load since the last full assay, when a kind was last logged as guarded, the start of the last full assay. -/
structure Power where
  temps : Temps
  meas : PowerMeas
  kStk : List Nat
  warnDie : Bool
  warnStk : List Nat
  throttleDie : Bool
  throttleStk : List Nat
  overUs : Nat
  target : Option Nat
  cals : Tab CalRec
  calAt : Tab Nat
  calMax : Tab CalRec
  guardLogged : Tab Nat
  assayAt : W64
  assayStart : Option Nat
  tcxo : Int
  capW : Nat
  moved : Bool
  guardOut : Tab (List Nat)
  guardAt : Tab Nat
  firstAssay : Bool
deriving DecidableEq, Repr

/-- The security block (R402, R409, R414 to R417): fuses, the device public key, the debug grant's end in TIME cycles, the valid
nonce, and the owner generation the last BOOT found. -/
structure Security where
  rootHash : BitVec 512
  secret : BitVec 512
  owners : List (BitVec 512 × Bool)
  floors : List Nat
  pubKey : BitVec 512
  expiryCycles : Option Nat
  notAfter : W64
  nonce : Option (BitVec 256 × Nat)
  firstReady : Bool
  bootGen : Nat
deriving DecidableEq, Repr

/-- One firmware slot (R403, R405, R433): the image's bytes and, once committed, its place in the order of commits. -/
structure Image where
  bytes : List Byte
  committed : Option Nat
deriving DecidableEq, Repr

/-- A record on its way into flash, its commit word not written yet (R26): a remap (bank, row), a core of the fence list, calibration records with a
history record, or lines of the error log. -/
inductive FlashRec where
  | remap (bank row : Nat)
  | fence (core : Nat)
  | assay (cals : Tab CalRec) (history : BitVec 2048)
  | log (lines : List Line)
deriving DecidableEq, Repr

/-- Module flash: what survives a power loss (R25, R26). `writing` holds the records whose commit word is still to be written, oldest first; every other
field is what is committed. Images by 2 × kind + slot; `ownerKey` is the public key
whose digest was burnt last (R408), `missing` names the record kinds of R428 whose
committed record is gone. -/
structure Flash where
  images : Tab Image
  commits : Nat
  masks : List W32
  remaps : List (Nat × Nat)
  fence : List Nat
  cals : Tab CalRec
  history : List (BitVec 2048)
  log : List Line
  password : Option (BitVec 128 × BitVec 512 × BitVec 4)
  certs : List Byte
  serial : BitVec 128
  ownerKey : BitVec 512
  missing : List Nat
  writing : List FlashRec
deriving DecidableEq, Repr

/-- The sideband pins and supply (R420 to R424, R430, R432): inputs, outputs, the recovery download and SB_RCV registers,
and when phase 0x01 began. -/
structure Pins where
  vinMv : Nat
  pwrEn : Bool
  pwrGood : Bool
  rails : Bool
  resetLow : Bool
  perstLow : Bool
  thermtrip : Bool
  alert : Bool
  twinPresent : Bool
  ppsOut : Bool
  clk10m : Bool
  holdOff : Bool
  roseInHold : Bool
  hfHalted : Bool
  rcvKind : Nat
  rcvStarted : Bool
  rcvStatus : W32
  bootStart : Nat
deriving DecidableEq, Repr

/-- The trace unit's snapshot of a semaphore's waiters (R150), the armed injection (R449), the kind that fired last until its first entry is
logged, and the scratchpad words (16,384 × virtual core + word) that hold an injected error, uncorrectable or not. -/
structure Trace where
  waiters : List (Tid × W64)
  armKind : Nat
  armTarget : W64
  firedKind : Nat
  sram : List (Nat × Bool)
deriving DecidableEq, Repr

/-- The state of the module. `fresh` is the model's own field: it numbers the free values drawn (log entry 3, DESIGN CHOICE);
the first 16,777,216 are the broadcast buffers' contents after power-up. `pending` is the
queue of commands that wait, first in, first out. -/
structure State where
  grade : Grade
  fresh : Nat
  time : TimeSt
  bar : Bar
  mem : Mem
  cores : Cores
  sems : Tab Sem
  hoists : Hoists
  nb : NearBank
  host : HostPort
  parts : Tab Part
  se : Serving
  fab : Fabric
  faults : Faults
  twin : Twin
  pwr : Power
  sec : Security
  flash : Flash
  pins : Pins
  trace : Trace
  pending : List Instr
deriving DecidableEq, Repr

/-! ## Reset -/

/-- No temperature read yet: every reading 0. -/
def Temps.zero : Temps := { clusters := List.replicate 64 0, stackTemps := List.replicate 32 0 }

def PowerMeas.zero : PowerMeas :=
  { pIn := 0, pDie := 0, pStk := [], reads := [], allowed := [], vinMv := 0, iinMa := 0, droopMv := 0 }

def TimeSt.reset : TimeSt :=
  { sec := 0, ns := 0, frac := 0, acc := 0, cycles := 0, comp := 0, servo := 0, tracedOnce := false, below := 0,
    delays := [], ports := [], ppsEdges := [], ppsConfig := 0, lossTemp := 0, lossOffset := 0, bound := 0, boundAt := 0, rhoAt := none,
    secKnown := false, ppsOutSecs := [], ppsRose := 0, integral := 0, ageing := 0, latency := [] }

def Bar.reset : Bar := { regs := [], regs64 := [], latch := [], pendLow := [], rdata := 0 }

def Mem.reset : Mem :=
  { dram := [], discarded := [], touched := [], ecc := [], lines := [], lru := [], engines := [], regions := [], noAlloc := [], remaps := [], ceRow := [], repairDue := [],
    ceLogged := [], poisonLogged := [], poisonRefused := [], held := [], heldAt := [], trainedAt := [], powerDown := [], scrubPos := [], stkphyDue := [], wholeDue := [] }

def Cores.reset : Cores :=
  { threads := [], scratch := [], l1 := [], shq := [], ops := [], jobs := [], nextId := 0, vmap := [], fenced := [], ce := [],
    gated := [], preempted := [], parkOrder := [], watch := [] }

def Hoists.reset : Hoists := { queue := [], moves := [], rng := [] }

def NearBank.reset : NearBank :=
  { progMem := [], bbuf := [], bufSeed := [], programs := [], units := [], grant := [], grantSet := [], measured := none, dryFrom := [], retrainFrom := none, used := [], usedBy := [], usedBank := [], nextId := 0, startOut := 0, drained := [],
    statusOut := [], aptSlots := [], aptStatus := 0, aptEnds := [], cmdEnds := [] }

def HostPort.reset : HostPort :=
  { mem := [], qps := [], cmds := [], nextCmd := 0, remote := [], config := [], msix := [], rbytes := [], rUr := false, rPoison := false, absent := [],
    linkUp := false, fetchStopped := false }

def Serving.reset : Serving :=
  { models := [], sessions := [], gen := [], pool := none, spans := [], steps := [], rings := [], status := [], durations := [],
    order := 0, rateNb := [], rateD := [], cached := [], stepNums := [], boundaryAt := none, commitLog := [] }

def Fabric.reset : Fabric :=
  { node := 0, peers := [], ports := [], flows := [], tx := [], neigh := [], dropNext := [], tiers := [], txq := [] }

def Faults.reset : Faults :=
  { ring := [], illRing := [], running := [], since := [], queued := [], causes := [], selfTest := [], before := 2, portsOut := [], unflashed := [], repairs := [], missed := [], tableError := false, copiedAt := [] }

def Twin.reset : Twin :=
  { mirror := [], models := [], records := [], sent := [], sentReq := false, gotReq := false, peer := 0xFFFF, sentDone := false, gotDone := false,
    cmd := none, since := 0, lastHb := 0, gate := 1, gates := [], refused := [] }

def Power.reset : Power :=
  { temps := Temps.zero, meas := PowerMeas.zero, kStk := List.replicate 8 10000, warnDie := false, warnStk := [],
    throttleDie := false, throttleStk := [], overUs := 0, target := none, cals := [], calAt := [],
    calMax := [], guardLogged := [], assayAt := 0, assayStart := none, tcxo := 0,
    capW := 2600, moved := false, guardOut := [], guardAt := [], firstAssay := false }

/-- The fuses of a module as manufactured; their values are the manufacturer's (log entry 8, DESIGN CHOICE). -/
def Security.reset : Security :=
  { rootHash := Config.rootHash, secret := Config.deviceSecret, owners := [], floors := [0, 0, 0], pubKey := 0, expiryCycles := none, notAfter := 0, nonce := none,
    firstReady := false, bootGen := 0 }

/-- The default masks of R182 in the order of MEMMAP_CONFIG (R278). -/
def Flash.defaultMasks : List W32 :=
  (List.range 9).map (fun j => (1 : W32) <<< (8 + j)) ++ (List.range 3).map (fun j => (1 : W32) <<< (17 + j)) ++
  (List.range 2).map (fun j => (1 : W32) <<< (20 + j)) ++ (List.range 9).map (fun j => (1 : W32) <<< (5 + j)) ++
  (List.range 3).map (fun j => (1 : W32) <<< (14 + j)) ++ (List.range 2).map (fun j => (1 : W32) <<< (17 + j))

/-- The sensors whose temperatures a kind of calibration record carries (R396): one, or every sensor, or one per stack. -/
def calSensors (kind : Nat) : Nat := match kind with | 2 => 97 | 3 => 8 | 4 => 8 | _ => 1

/-- A calibration record as manufactured. -/
def Flash.factoryCal (k : Nat) : CalRec :=
  { cond := { temps := List.replicate (calSensors k) (((Config.factoryCal k).2.1 : Int) - 32768), watts := (Config.factoryCal k).2.2.1, droop := (Config.factoryCal k).2.2.2 },
    vals := (Config.factoryCal k).1 }

/-- The two certificates of a module of grade N8-768-A, GLOBAL_CAP0 and GLOBAL_CAP1 as R4 gives them (R410). -/
def Flash.factoryCerts : List Byte := certificates (0x1 + 0xFF00 + 0xF0000 + 0x100000 + 16 * 0x200000) (4096 + 0x10000)

/-- Flash as manufactured: a committed image of each kind in slot 0, one committed record of each kind (R428). -/
def Flash.reset : Flash :=
  { images := [0, 1, 2].map (fun k => (2 * k, { bytes := Config.factoryImage k, committed := some (k + 1) })), commits := 3, masks := Flash.defaultMasks, remaps := [], fence := [],
    cals := [0, 1, 2, 3, 4, 5].map (fun k => (k, Flash.factoryCal k)),
    history := [], log := [], password := none, certs := Flash.factoryCerts, serial := Config.serial, ownerKey := 0, missing := [],
    writing := [] }

/-- The pins of a module that has just been released from reset with its rails up (R426). -/
def Pins.reset : Pins :=
  { vinMv := 36000, pwrEn := true, pwrGood := true, rails := true, resetLow := false, perstLow := true, thermtrip := false,
    alert := false, twinPresent := false, ppsOut := false, clk10m := false, holdOff := false, roseInHold := false, hfHalted := false,
    rcvKind := 0, rcvStarted := false, rcvStatus := 0, bootStart := 0 }

/-- The state right after reset: BOOT phase 0x01 begins (R426, R430, R434), every register at its Reset value. Log entries 2, 4, 8. -/
def State.reset : State :=
  { grade := .a, fresh := 16777216, time := TimeSt.reset, bar := Bar.reset, mem := Mem.reset, cores := Cores.reset, sems := [],
    hoists := Hoists.reset, nb := NearBank.reset, host := HostPort.reset, parts := [], se := Serving.reset, fab := Fabric.reset,
    faults := Faults.reset, twin := Twin.reset, pwr := Power.reset, sec := Security.reset, flash := Flash.reset, pins := Pins.reset,
    trace := { waiters := [], armKind := 0, armTarget := 0, firedKind := 0, sram := [] }, pending := [] }

end Sys2Proof.Machine
end

