-- ==== Sys2Proof/Machine/RegMap.lean ====
section
/-! DEFINITION. The register map: every register of BAR0 (R450) with its offset, its access codes (R12) and its Reset value, and the
storage of registers. Registers whose value is a function of other state are computed in Machine/RegAccess.lean. -/
namespace Sys2Proof.Machine

/-! ## Offsets -/

abbrev GLOBAL_CAP0 : Nat := 0x0000010
abbrev GLOBAL_CAP1 : Nat := 0x0000014
abbrev ERRLOG_ILL_WPTR : Nat := 0x0B00100
abbrev ERRLOG_ILL_STATUS : Nat := 0x0B00104
abbrev ERRLOG_ILL_COUNT : Nat := 0x0B00108
abbrev TRACE_SEM_SEL : Nat := 0x0C02000
abbrev TRACE_SEM_STATUS : Nat := 0x0C02004
abbrev TRACE_SEM_VALUE : Nat := 0x0C02008
abbrev TRACE_SEM_LAST_SRC : Nat := 0x0C02010
abbrev TRACE_SEM_LAST_TAG : Nat := 0x0C02014
abbrev TRACE_SEM_LAST_SUBTAG : Nat := 0x0C02018
abbrev TRACE_SEM_LAST_TIME : Nat := 0x0C02020
abbrev TRACE_SEM_WIDX : Nat := 0x0C02028
abbrev TRACE_SEM_WAITER : Nat := 0x0C0202C
abbrev TRACE_SEM_WAMOUNT : Nat := 0x0C02030
abbrev STK_STATUS (n : Nat) : Nat := 0x0700000 + 0x20000 * n
abbrev STK_POWER (n : Nat) : Nat := 0x0700004 + 0x20000 * n
abbrev STK_SR_TIMER (n : Nat) : Nat := 0x0700008 + 0x20000 * n
abbrev STK_RETRAIN_CFG (n : Nat) : Nat := 0x070000C + 0x20000 * n
abbrev STK_MAP_SEL (n i : Nat) : Nat := 0x0700100 + 0x20000 * n + 4 * i
abbrev STK_MAP_BANK (n i : Nat) : Nat := 0x0700130 + 0x20000 * n + 4 * i
abbrev STK_MAP_SID (n i : Nat) : Nat := 0x0700140 + 0x20000 * n + 4 * i
abbrev STK_PMAP_SEL (n i : Nat) : Nat := 0x0700200 + 0x20000 * n + 4 * i
abbrev STK_PMAP_BANK (n i : Nat) : Nat := 0x0700230 + 0x20000 * n + 4 * i
abbrev STK_PMAP_SID (n i : Nat) : Nat := 0x0700240 + 0x20000 * n + 4 * i
abbrev STK_MAP_LOCK (n : Nat) : Nat := 0x07002FC + 0x20000 * n
abbrev STK_QOS_TGT (n i : Nat) : Nat := 0x0700400 + 0x20000 * n + 4 * i
abbrev STK_CE_THRESH (n : Nat) : Nat := 0x0700500 + 0x20000 * n
abbrev STK_CE_COUNT (n : Nat) : Nat := 0x0700600 + 0x20000 * n
abbrev STK_UE_COUNT (n : Nat) : Nat := 0x0700608 + 0x20000 * n
abbrev STK_REMAP_COUNT (n : Nat) : Nat := 0x0700610 + 0x20000 * n
abbrev STK_RETRAIN_COUNT (n : Nat) : Nat := 0x0700618 + 0x20000 * n
abbrev STK_TALLY_STATUS (n : Nat) : Nat := 0x0700620 + 0x20000 * n
abbrev STK_SPARES_MIN (n : Nat) : Nat := 0x0700624 + 0x20000 * n
abbrev STK_INFLIGHT (n : Nat) : Nat := 0x0700628 + 0x20000 * n
abbrev STK_NB_YIELD (n : Nat) : Nat := 0x0700800 + 0x20000 * n
abbrev STK_NB_STATUS (n : Nat) : Nat := 0x0700804 + 0x20000 * n
abbrev STK_NB_GRANT (n : Nat) : Nat := 0x0700808 + 0x20000 * n
abbrev STK_NB_PASS_COUNT (n : Nat) : Nat := 0x0700810 + 0x20000 * n
abbrev STK_NB_READS (n : Nat) : Nat := 0x0700818 + 0x20000 * n
abbrev STK_NB_SAT_COUNT (n : Nat) : Nat := 0x0700820 + 0x20000 * n
abbrev STK_NB_YIELD_COUNT (n : Nat) : Nat := 0x0700828 + 0x20000 * n
abbrev STK_NB_TALLY_STATUS (n : Nat) : Nat := 0x0700830 + 0x20000 * n
abbrev STK_APT_CTRL (n : Nat) : Nat := 0x0700900 + 0x20000 * n
abbrev HF_LSPLIT_CFG : Nat := 0x0102000
abbrev HF_LSPLIT_XOVER (i : Nat) : Nat := 0x0102040 + 4 * i
abbrev HF_LSPLIT_RATE_NB : Nat := 0x0102080
abbrev HF_LSPLIT_RATE_D : Nat := 0x0102084
abbrev HF_LSPLIT_NEAR_COUNT : Nat := 0x0102090
abbrev HF_LSPLIT_SPLIT_COUNT : Nat := 0x0102098
abbrev HF_LSPLIT_DENSE_COUNT : Nat := 0x01020A0
abbrev HF_LSPLIT_RESCUE_COUNT : Nat := 0x01020A8
abbrev HF_LSPLIT_TALLY_STATUS : Nat := 0x01020B0
abbrev HF_SE_CFG : Nat := 0x0103000
abbrev HF_SE_GUARD : Nat := 0x0103004
abbrev HF_SE_SPEC_CFG : Nat := 0x0103008
abbrev HF_SE_TTL_T (i : Nat) : Nat := 0x0103010 + 4 * i
abbrev HF_SE_DLC_TTFT (i : Nat) : Nat := 0x0103040 + 8 * i
abbrev HF_SE_DLC_ITL (i : Nat) : Nat := 0x0103044 + 8 * i
abbrev HF_SE_STATUS : Nat := 0x0103080
abbrev HF_SE_SESSIONS : Nat := 0x0103084
abbrev HF_SE_KV_FREE : Nat := 0x0103088
abbrev HF_SE_ORING_RD (i : Nat) : Nat := 0x0103100 + 8 * i
abbrev HF_SE_ORING_WR (i : Nat) : Nat := 0x0103104 + 8 * i
abbrev HF_SE_STEP (i : Nat) : Nat := 0x0103200 + 8 * i
abbrev HF_SE_FALLBACK_COUNT : Nat := 0x0103300
abbrev HF_SE_MISSED_COUNT : Nat := 0x0103308
abbrev HF_SE_EXPIRED_COUNT : Nat := 0x0103310
abbrev HF_SE_REBUILT_COUNT : Nat := 0x0103318
abbrev HF_SE_PROPOSED_COUNT : Nat := 0x0103320
abbrev HF_SE_ACCEPTED_COUNT : Nat := 0x0103328
abbrev HF_SE_TALLY_STATUS : Nat := 0x0103330
abbrev GLOBAL_AQ_SQ_BASE : Nat := 0x0000100
abbrev GLOBAL_AQ_CQ_BASE : Nat := 0x0000108
abbrev GLOBAL_AQ_CFG : Nat := 0x0000110
abbrev PART_STATUS (n : Nat) : Nat := 0x0900000 + 0x400 * n
abbrev PART_VCORE (n : Nat) : Nat := 0x0900004 + 0x400 * n
abbrev PART_CLUSTERS (n : Nat) : Nat := 0x0900008 + 0x400 * n
abbrev PART_STEP (n : Nat) : Nat := 0x0900010 + 0x400 * n
abbrev PART_SLOTS (n : Nat) : Nat := 0x0900014 + 0x400 * n
abbrev PART_STK_REG (n i : Nat) : Nat := 0x0900020 + 0x400 * n + 4 * i
abbrev PART_PORT_REG (n i : Nat) : Nat := 0x0900040 + 0x400 * n + 4 * i
abbrev PART_NB (n : Nat) : Nat := 0x0900050 + 0x400 * n
abbrev PART_STEP_IDLE (n : Nat) : Nat := 0x0900054 + 0x400 * n
abbrev PART_IDX_SKIPPED (n : Nat) : Nat := 0x0900060 + 0x400 * n
abbrev PART_ILL_SKIPPED (n : Nat) : Nat := 0x0900068 + 0x400 * n
abbrev PART_CVT_FLAGGED (n : Nat) : Nat := 0x0900070 + 0x400 * n
abbrev PART_PREEMPT_COUNT (n : Nat) : Nat := 0x0900078 + 0x400 * n
abbrev PART_TALLY_STATUS (n : Nat) : Nat := 0x0900080 + 0x400 * n
abbrev CLI_TALLY (c i : Nat) : Nat := 0x0908000 + 0x40 * c + 8 * i
abbrev CLI_TALLY_STATUS (c : Nat) : Nat := 0x0908028 + 0x40 * c
abbrev FAB_PORT_LINK (k : Nat) : Nat := (if k = 4 then 0x0600000 else 0x0500000 + 0x1000 * k) + 0x000
abbrev FAB_PORT_LANE (k : Nat) : Nat := (if k = 4 then 0x0600000 else 0x0500000 + 0x1000 * k) + 0x004
abbrev FAB_PORT_FEC_CORR (k : Nat) : Nat := (if k = 4 then 0x0600000 else 0x0500000 + 0x1000 * k) + 0x010
abbrev FAB_PORT_FEC_UNCORR (k : Nat) : Nat := (if k = 4 then 0x0600000 else 0x0500000 + 0x1000 * k) + 0x018
abbrev FAB_PORT_TX_PKTS (k : Nat) : Nat := (if k = 4 then 0x0600000 else 0x0500000 + 0x1000 * k) + 0x020
abbrev FAB_PORT_RX_PKTS (k : Nat) : Nat := (if k = 4 then 0x0600000 else 0x0500000 + 0x1000 * k) + 0x028
abbrev FAB_PORT_RETX (k : Nat) : Nat := (if k = 4 then 0x0600000 else 0x0500000 + 0x1000 * k) + 0x030
abbrev FAB_PORT_RX_DROP (k : Nat) : Nat := (if k = 4 then 0x0600000 else 0x0500000 + 0x1000 * k) + 0x038
abbrev FAB_PORT_RX_BAD (k : Nat) : Nat := (if k = 4 then 0x0600000 else 0x0500000 + 0x1000 * k) + 0x040
abbrev FAB_PORT_RX_OTHER (k : Nat) : Nat := (if k = 4 then 0x0600000 else 0x0500000 + 0x1000 * k) + 0x048
abbrev FAB_PORT_DROP_UNKNOWN (k : Nat) : Nat := (if k = 4 then 0x0600000 else 0x0500000 + 0x1000 * k) + 0x050
abbrev FAB_PORT_CE_RCVD (k : Nat) : Nat := (if k = 4 then 0x0600000 else 0x0500000 + 0x1000 * k) + 0x058
abbrev FAB_PORT_TALLY_STATUS (k : Nat) : Nat := (if k = 4 then 0x0600000 else 0x0500000 + 0x1000 * k) + 0x060
abbrev FAB_NODE : Nat := 0x0508000
abbrev FAB_PEERS : Nat := 0x0508004
abbrev FAB_TIMEOUTS : Nat := 0x0508008
abbrev FAB_RESETS : Nat := 0x0508010
abbrev FAB_TALLY_STATUS : Nat := 0x0508018
abbrev TIME_NOW_FRAC : Nat := 0x0300000
abbrev TIME_NOW_NS : Nat := 0x0300004
abbrev TIME_NOW_SEC : Nat := 0x0300008
abbrev TIME_NOW_CT : Nat := 0x0300010
abbrev TIME_STATUS : Nat := 0x0300020
abbrev TIME_OFFSET : Nat := 0x0300024
abbrev TIME_ERR_BOUND : Nat := 0x0300028
abbrev TIME_ADJ : Nat := 0x030002C
abbrev TIME_CFG : Nat := 0x0300030
abbrev TIME_TCXO : Nat := 0x0300034
abbrev TIME_PTP_CFG (i : Nat) : Nat := 0x0300040 + 4 * i
abbrev TIME_STEPS : Nat := 0x0300060
abbrev TIME_TALLY_STATUS : Nat := 0x0300068
abbrev ERRLOG_WPTR : Nat := 0x0B00000
abbrev ERRLOG_STATUS : Nat := 0x0B00004
abbrev ERRLOG_COUNT : Nat := 0x0B00008
abbrev ERRLOG_RECOV : Nat := 0x0B00010
abbrev ERRLOG_RECOV_COUNT : Nat := 0x0B00018
abbrev ERRLOG_ESCAL_COUNT : Nat := 0x0B00020
abbrev CF_CFG : Nat := 0x0A00000
abbrev CF_STATUS : Nat := 0x0A00004
abbrev CF_VMAP_SEL : Nat := 0x0A00008
abbrev CF_VMAP : Nat := 0x0A0000C
abbrev CF_FENCE_COUNT : Nat := 0x0A00010
abbrev CF_REPLAY_COUNT : Nat := 0x0A00018
abbrev CF_TALLY_STATUS : Nat := 0x0A00020
abbrev CF_CLUSTER (i : Nat) : Nat := 0x0A00100 + 4 * i
abbrev TWIN_STATE : Nat := 0x0601000
abbrev TWIN_CFG : Nat := 0x0601004
abbrev TWIN_MIRRORED : Nat := 0x0601008
abbrev TWIN_MIRROR_BYTES : Nat := 0x0601010
abbrev TWIN_LAST_HB : Nat := 0x0601018
abbrev TWIN_TAKEOVER_COUNT : Nat := 0x0601020
abbrev TWIN_ADOPTED_COUNT : Nat := 0x0601028
abbrev TWIN_REFETCH_COUNT : Nat := 0x0601030
abbrev TWIN_TALLY_STATUS : Nat := 0x0601038
abbrev PWR_BUDGET_CAP : Nat := 0x0200000
abbrev PWR_BOARD_CAP : Nat := 0x0200004
abbrev PWR_NB_CFG : Nat := 0x0200008
abbrev PWR_STATUS : Nat := 0x020000C
abbrev PWR_IN : Nat := 0x0200010
abbrev PWR_DIE : Nat := 0x0200014
abbrev PWR_CORE : Nat := 0x0200018
abbrev PWR_FMAX : Nat := 0x020001C
abbrev PWR_STK (i : Nat) : Nat := 0x0200020 + 4 * i
abbrev PWR_TEMP_DIE : Nat := 0x0200040
abbrev PWR_CUT : Nat := 0x0200044
abbrev PWR_ASSAY_CFG : Nat := 0x0200048
abbrev PWR_ASSAY_LAST : Nat := 0x0200050
abbrev PWR_CAL_CFG : Nat := 0x0200058
abbrev PWR_CAL_STATUS : Nat := 0x020005C
abbrev PWR_HIST_SEL : Nat := 0x0200060
abbrev PWR_FASTCUT_COUNT : Nat := 0x0200080
abbrev PWR_THROTTLE_COUNT : Nat := 0x0200088
abbrev PWR_RECAL_COUNT : Nat := 0x0200090
abbrev PWR_TALLY_STATUS : Nat := 0x0200098
abbrev PWR_STK_TEMP (i : Nat) : Nat := 0x02000A0 + 4 * i
abbrev PWR_HIST (i : Nat) : Nat := 0x0200100 + 4 * i
abbrev SEC_BOOT_STATUS : Nat := 0x0400000
abbrev SEC_ROLLBACK : Nat := 0x0400004
abbrev SEC_DEBUG_STATUS : Nat := 0x0400008
abbrev SEC_DEBUG_EXPIRY : Nat := 0x0400010
abbrev SEC_ROOT_HASH (i : Nat) : Nat := 0x0400100 + 4 * i
abbrev SEC_OWNER_HASH (i : Nat) : Nat := 0x0400140 + 4 * i
abbrev SEC_DEVICE_KEY (i : Nat) : Nat := 0x0400180 + 4 * i
abbrev GLOBAL_STATE : Nat := 0x0000020
abbrev GLOBAL_RESET : Nat := 0x0000024
abbrev GLOBAL_BOOT_US : Nat := 0x0000028
abbrev GLOBAL_ID : Nat := 0x0000000
abbrev GLOBAL_VERSION : Nat := 0x0000004
abbrev GLOBAL_ACCESS : Nat := 0x0000030
abbrev GLOBAL_ACCESS_ADDR : Nat := 0x0000034
abbrev HF_FW : Nat := 0x0100000
abbrev HF_WIN_SEL : Nat := 0x0100010
abbrev HF_WIN (i : Nat) : Nat := 0x0101000 + 4 * i
abbrev TRACE_CTRL : Nat := 0x0C00000
abbrev TRACE_BUF_BASE : Nat := 0x0C00008
abbrev TRACE_BUF_SIZE : Nat := 0x0C00010
abbrev TRACE_EVENTS : Nat := 0x0C00014
abbrev TRACE_TAG : Nat := 0x0C00018
abbrev TRACE_TAG_MASK : Nat := 0x0C0001C
abbrev TRACE_RECORDS : Nat := 0x0C00028
abbrev TRACE_DROPPED : Nat := 0x0C00030
abbrev TRACE_TALLY_STATUS : Nat := 0x0C00038
abbrev TRACE_INJ_CTRL : Nat := 0x0C03000
abbrev TRACE_INJ_TARGET : Nat := 0x0C03008
abbrev TRACE_INJ_SEQ : Nat := 0x0C03010

/-- A register, or an array of registers: `n` of them `stride` apart, in each of `bn` blocks `bstride` apart; the bits of its RW, W1C
and RWL fields; its Reset value by grade, block and index; and what a write leaves in its RW fields, given the old and the new value. -/
structure RegRow where
  name : String
  base : Nat
  stride : Nat := 0
  n : Nat := 1
  bstride : Nat := 0
  bn : Nat := 1
  wide : Bool := false
  rw : Nat := 0
  w1c : Nat := 0
  rwl : Nat := 0
  reset : Grade → Nat → Nat → Nat := fun _ _ _ => 0
  fix : Nat → Nat → Nat := fun _ v => v

/-- Capabilities (R4). -/
def regRows00 : List RegRow := [
  { name := "GLOBAL_CAP0", base := 0x0000010,
    reset := fun g _ _ => match g with
      | .a => 0x1 + 0xFF00 + 0xF0000 + 0x100000 + 16 * 0x200000
      | .b => 0x2 + 0xFF00 + 0x30000 + 0x100000 + 16 * 0x200000
      | .c => 0x3 + 0x3F00 + 0x30000 + 0x100000 + 8 * 0x200000 },
  { name := "GLOBAL_CAP1", base := 0x0000014, reset := fun g _ _ => (match g with | .a => 4096 | _ => 3584) + 0x10000 }]

/-- Illegal-instruction log (R100). -/
def regRows04 : List RegRow := [
  { name := "ERRLOG_ILL_WPTR", base := 0x0B00100 },
  { name := "ERRLOG_ILL_STATUS", base := 0x0B00104,
    w1c := 0x1 },
  { name := "ERRLOG_ILL_COUNT", base := 0x0B00108, wide := true }]

/-- Semaphore view (R150). -/
def regRows06 : List RegRow := [
  { name := "TRACE_SEM_SEL", base := 0x0C02000,
    rw := 0xFFFF },
  { name := "TRACE_SEM_STATUS", base := 0x0C02004 },
  { name := "TRACE_SEM_VALUE", base := 0x0C02008, wide := true },
  { name := "TRACE_SEM_LAST_SRC", base := 0x0C02010 },
  { name := "TRACE_SEM_LAST_TAG", base := 0x0C02014 },
  { name := "TRACE_SEM_LAST_SUBTAG", base := 0x0C02018 },
  { name := "TRACE_SEM_LAST_TIME", base := 0x0C02020, wide := true },
  { name := "TRACE_SEM_WIDX", base := 0x0C02028,
    rw := 0xFFFF },
  { name := "TRACE_SEM_WAITER", base := 0x0C0202C },
  { name := "TRACE_SEM_WAMOUNT", base := 0x0C02030, wide := true }]

/-- Stack controllers (R182). -/
def regRows07 : List RegRow := [
  { name := "STK_STATUS", base := 0x0700000, bstride := 0x20000, bn := 8,
    reset := fun g b _ => (if g = Grade.c ∧ 6 ≤ b then 0 else 1) },
  { name := "STK_POWER", base := 0x0700004, bstride := 0x20000, bn := 8,
    rw := 0x3FFFF, reset := fun _ _ _ => 2000 + 65536 + 131072 },
  { name := "STK_SR_TIMER", base := 0x0700008, bstride := 0x20000, bn := 8,
    rw := 0xFFFFFF, reset := fun _ _ _ => 1000 },
  { name := "STK_RETRAIN_CFG", base := 0x070000C, bstride := 0x20000, bn := 8,
    rw := 0xFFFF, reset := fun _ _ _ => 16 },
  { name := "STK_MAP_SEL", base := 0x0700100, stride := 4, n := 9, bstride := 0x20000, bn := 8,
    rwl := 0x7FFFE0, reset := fun _ _ i => 2 ^ (8 + i) },
  { name := "STK_MAP_BANK", base := 0x0700130, stride := 4, n := 3, bstride := 0x20000, bn := 8,
    rwl := 0x7FFFE0, reset := fun _ _ i => 2 ^ (17 + i) },
  { name := "STK_MAP_SID", base := 0x0700140, stride := 4, n := 2, bstride := 0x20000, bn := 8,
    rwl := 0x7FFFE0, reset := fun _ _ i => 2 ^ (20 + i) },
  { name := "STK_PMAP_SEL", base := 0x0700200, stride := 4, n := 9, bstride := 0x20000, bn := 8,
    rwl := 0x7FFFE0, reset := fun _ _ i => 2 ^ (5 + i) },
  { name := "STK_PMAP_BANK", base := 0x0700230, stride := 4, n := 3, bstride := 0x20000, bn := 8,
    rwl := 0x7FFFE0, reset := fun _ _ i => 2 ^ (14 + i) },
  { name := "STK_PMAP_SID", base := 0x0700240, stride := 4, n := 2, bstride := 0x20000, bn := 8,
    rwl := 0x7FFFE0, reset := fun _ _ i => 2 ^ (17 + i) },
  { name := "STK_MAP_LOCK", base := 0x07002FC, bstride := 0x20000, bn := 8,
    rwl := 0x1 },
  { name := "STK_QOS_TGT", base := 0x0700400, stride := 4, n := 6, bstride := 0x20000, bn := 8,
    rw := 0xFFFF, reset := fun _ _ i => ([400, 2000, 300, 1000, 1500, 500].getD i 0),
    fix := fun old v => if v % 65536 = 0 then old else v },
  { name := "STK_CE_THRESH", base := 0x0700500, bstride := 0x20000, bn := 8,
    rw := 0xFF, reset := fun _ _ _ => 4 },
  { name := "STK_CE_COUNT", base := 0x0700600, bstride := 0x20000, bn := 8, wide := true },
  { name := "STK_UE_COUNT", base := 0x0700608, bstride := 0x20000, bn := 8, wide := true },
  { name := "STK_REMAP_COUNT", base := 0x0700610, bstride := 0x20000, bn := 8, wide := true },
  { name := "STK_RETRAIN_COUNT", base := 0x0700618, bstride := 0x20000, bn := 8, wide := true },
  { name := "STK_TALLY_STATUS", base := 0x0700620, bstride := 0x20000, bn := 8,
    w1c := 0xF },
  { name := "STK_SPARES_MIN", base := 0x0700624, bstride := 0x20000, bn := 8,
    reset := fun _ _ _ => 32 },
  { name := "STK_INFLIGHT", base := 0x0700628, bstride := 0x20000, bn := 8 }]

/-- Near-bank (R209). -/
def regRows08 : List RegRow := [
  { name := "STK_NB_YIELD", base := 0x0700800, bstride := 0x20000, bn := 8,
    rw := 0xFFFF, reset := fun _ _ _ => 400,
    fix := fun _ v => max 300 (min 4000 v) },
  { name := "STK_NB_STATUS", base := 0x0700804, bstride := 0x20000, bn := 8,
    w1c := 0x8 },
  { name := "STK_NB_GRANT", base := 0x0700808, bstride := 0x20000, bn := 8 },
  { name := "STK_NB_PASS_COUNT", base := 0x0700810, bstride := 0x20000, bn := 8, wide := true },
  { name := "STK_NB_READS", base := 0x0700818, bstride := 0x20000, bn := 8, wide := true },
  { name := "STK_NB_SAT_COUNT", base := 0x0700820, bstride := 0x20000, bn := 8, wide := true },
  { name := "STK_NB_YIELD_COUNT", base := 0x0700828, bstride := 0x20000, bn := 8, wide := true },
  { name := "STK_NB_TALLY_STATUS", base := 0x0700830, bstride := 0x20000, bn := 8,
    w1c := 0xF },
  { name := "STK_APT_CTRL", base := 0x0700900, bstride := 0x20000, bn := 8,
    rw := 0x1F }]

/-- Layer split (R223). -/
def regRows09 : List RegRow := [
  { name := "HF_LSPLIT_CFG", base := 0x0102000,
    rw := 0xFF03FF, reset := fun _ _ _ => 16 + 64 + 1310720,
    fix := fun old v => (if v % 4 = 3 then old % 4 else v % 4) + max 1 (v / 4 % 16) * 4 + max 1 (v / 64 % 16) * 64 + max 5 (v / 65536 % 256) * 65536 },
  { name := "HF_LSPLIT_XOVER", base := 0x0102040, stride := 4, n := 16 },
  { name := "HF_LSPLIT_RATE_NB", base := 0x0102080,
    reset := fun g _ _ => (match g with | .c => 98304 | _ => 131072) },
  { name := "HF_LSPLIT_RATE_D", base := 0x0102084,
    reset := fun g _ _ => (match g with | .c => 30720 | _ => 40960) },
  { name := "HF_LSPLIT_NEAR_COUNT", base := 0x0102090, wide := true },
  { name := "HF_LSPLIT_SPLIT_COUNT", base := 0x0102098, wide := true },
  { name := "HF_LSPLIT_DENSE_COUNT", base := 0x01020A0, wide := true },
  { name := "HF_LSPLIT_RESCUE_COUNT", base := 0x01020A8, wide := true },
  { name := "HF_LSPLIT_TALLY_STATUS", base := 0x01020B0,
    w1c := 0xF }]

/-- Serving engine (R263). -/
def regRows10 : List RegRow := [
  { name := "HF_SE_CFG", base := 0x0103000,
    rw := 0xFFFFFF, reset := fun _ _ _ => 4096 + 4194304,
    fix := fun _ v => max 512 (v % 65536) + max 1 (v / 65536 % 256) * 65536 },
  { name := "HF_SE_GUARD", base := 0x0103004,
    rw := 0xFFFF, reset := fun _ _ _ => 100 },
  { name := "HF_SE_SPEC_CFG", base := 0x0103008,
    rw := 0xFFFFFFF, reset := fun _ _ _ => 192 + 24576 + 16777216,
    fix := fun _ v => v % 256 + min (v % 256) (v / 256 % 256) * 256 + v / 65536 * 65536 },
  { name := "HF_SE_TTL_T", base := 0x0103010, stride := 4, n := 4,
    rw := 0xFFFFFFFF, reset := fun _ _ i => ([30, 300, 3600, 86400].getD i 0) },
  { name := "HF_SE_DLC_TTFT", base := 0x0103040, stride := 8, n := 8,
    rw := 0xFFFFFFFF, reset := fun _ _ i => (if i < 7 then 50000 * 2 ^ i else 0) },
  { name := "HF_SE_DLC_ITL", base := 0x0103044, stride := 8, n := 8,
    rw := 0xFFFFFFFF, reset := fun _ _ i => (if i < 7 then 10000 * 2 ^ i else 0) },
  { name := "HF_SE_STATUS", base := 0x0103080 },
  { name := "HF_SE_SESSIONS", base := 0x0103084 },
  { name := "HF_SE_KV_FREE", base := 0x0103088 },
  { name := "HF_SE_ORING_RD", base := 0x0103100, stride := 8, n := 16,
    rw := 0xFFFFFFFF },
  { name := "HF_SE_ORING_WR", base := 0x0103104, stride := 8, n := 16 },
  { name := "HF_SE_STEP", base := 0x0103200, stride := 8, n := 16, wide := true },
  { name := "HF_SE_FALLBACK_COUNT", base := 0x0103300, wide := true },
  { name := "HF_SE_MISSED_COUNT", base := 0x0103308, wide := true },
  { name := "HF_SE_EXPIRED_COUNT", base := 0x0103310, wide := true },
  { name := "HF_SE_REBUILT_COUNT", base := 0x0103318, wide := true },
  { name := "HF_SE_PROPOSED_COUNT", base := 0x0103320, wide := true },
  { name := "HF_SE_ACCEPTED_COUNT", base := 0x0103328, wide := true },
  { name := "HF_SE_TALLY_STATUS", base := 0x0103330,
    w1c := 0x3F }]

/-- Admin queue (R266). -/
def regRows11 : List RegRow := [
  { name := "GLOBAL_AQ_SQ_BASE", base := 0x0000100, wide := true,
    rw := 0xFFFFFFFFFFFFFFFF },
  { name := "GLOBAL_AQ_CQ_BASE", base := 0x0000108, wide := true,
    rw := 0xFFFFFFFFFFFFFFFF },
  { name := "GLOBAL_AQ_CFG", base := 0x0000110,
    rw := 0x1FF013F, reset := fun _ _ _ => 4 }]

/-- Partitions (R302). -/
def regRows12 : List RegRow := [
  { name := "PART_STATUS", base := 0x0900000, bstride := 0x400, bn := 16,
    reset := fun _ b _ => (if b = 0 then 1 else 0) },
  { name := "PART_VCORE", base := 0x0900004, bstride := 0x400, bn := 16 },
  { name := "PART_CLUSTERS", base := 0x0900008, bstride := 0x400, bn := 16, wide := true },
  { name := "PART_STEP", base := 0x0900010, bstride := 0x400, bn := 16 },
  { name := "PART_SLOTS", base := 0x0900014, bstride := 0x400, bn := 16 },
  { name := "PART_STK_REG", base := 0x0900020, stride := 4, n := 8, bstride := 0x400, bn := 16,
    rw := 0x3FF03FF,
    fix := fun _ v => v % 65536 + max 4 (v / 65536) * 65536 },
  { name := "PART_PORT_REG", base := 0x0900040, stride := 4, n := 4, bstride := 0x400, bn := 16,
    rw := 0x3FF03FF,
    fix := fun _ v => v % 65536 + max 4 (v / 65536) * 65536 },
  { name := "PART_NB", base := 0x0900050, bstride := 0x400, bn := 16,
    rw := 0xFF },
  { name := "PART_STEP_IDLE", base := 0x0900054, bstride := 0x400, bn := 16,
    rw := 0xFFFF,
    fix := fun _ v => max 100 v },
  { name := "PART_IDX_SKIPPED", base := 0x0900060, bstride := 0x400, bn := 16, wide := true },
  { name := "PART_ILL_SKIPPED", base := 0x0900068, bstride := 0x400, bn := 16, wide := true },
  { name := "PART_CVT_FLAGGED", base := 0x0900070, bstride := 0x400, bn := 16, wide := true },
  { name := "PART_PREEMPT_COUNT", base := 0x0900078, bstride := 0x400, bn := 16, wide := true },
  { name := "PART_TALLY_STATUS", base := 0x0900080, bstride := 0x400, bn := 16,
    w1c := 0xF },
  { name := "CLI_TALLY", base := 0x0908000, stride := 8, n := 5, bstride := 0x40, bn := 256, wide := true },
  { name := "CLI_TALLY_STATUS", base := 0x0908028, bstride := 0x40, bn := 256,
    w1c := 0x1F }]

/-- Ports and node (R341). -/
def regRows13 : List RegRow := [
  { name := "FAB_PORT_LINK", base := 0x0500000, bstride := 0x1000, bn := 4 },
  { name := "FAB_PORT_LINK", base := 0x0600000 },
  { name := "FAB_PORT_LANE", base := 0x0500004, bstride := 0x1000, bn := 4 },
  { name := "FAB_PORT_LANE", base := 0x0600004 },
  { name := "FAB_PORT_FEC_CORR", base := 0x0500010, bstride := 0x1000, bn := 4, wide := true },
  { name := "FAB_PORT_FEC_CORR", base := 0x0600010, wide := true },
  { name := "FAB_PORT_FEC_UNCORR", base := 0x0500018, bstride := 0x1000, bn := 4, wide := true },
  { name := "FAB_PORT_FEC_UNCORR", base := 0x0600018, wide := true },
  { name := "FAB_PORT_TX_PKTS", base := 0x0500020, bstride := 0x1000, bn := 4, wide := true },
  { name := "FAB_PORT_TX_PKTS", base := 0x0600020, wide := true },
  { name := "FAB_PORT_RX_PKTS", base := 0x0500028, bstride := 0x1000, bn := 4, wide := true },
  { name := "FAB_PORT_RX_PKTS", base := 0x0600028, wide := true },
  { name := "FAB_PORT_RETX", base := 0x0500030, bstride := 0x1000, bn := 4, wide := true },
  { name := "FAB_PORT_RETX", base := 0x0600030, wide := true },
  { name := "FAB_PORT_RX_DROP", base := 0x0500038, bstride := 0x1000, bn := 4, wide := true },
  { name := "FAB_PORT_RX_DROP", base := 0x0600038, wide := true },
  { name := "FAB_PORT_RX_BAD", base := 0x0500040, bstride := 0x1000, bn := 4, wide := true },
  { name := "FAB_PORT_RX_BAD", base := 0x0600040, wide := true },
  { name := "FAB_PORT_RX_OTHER", base := 0x0500048, bstride := 0x1000, bn := 4, wide := true },
  { name := "FAB_PORT_RX_OTHER", base := 0x0600048, wide := true },
  { name := "FAB_PORT_DROP_UNKNOWN", base := 0x0500050, bstride := 0x1000, bn := 4, wide := true },
  { name := "FAB_PORT_DROP_UNKNOWN", base := 0x0600050, wide := true },
  { name := "FAB_PORT_CE_RCVD", base := 0x0500058, bstride := 0x1000, bn := 4, wide := true },
  { name := "FAB_PORT_CE_RCVD", base := 0x0600058, wide := true },
  { name := "FAB_PORT_TALLY_STATUS", base := 0x0500060, bstride := 0x1000, bn := 4,
    w1c := 0x3FF },
  { name := "FAB_PORT_TALLY_STATUS", base := 0x0600060,
    w1c := 0x3FF },
  { name := "FAB_NODE", base := 0x0508000,
    reset := fun _ _ _ => 65535 },
  { name := "FAB_PEERS", base := 0x0508004 },
  { name := "FAB_TIMEOUTS", base := 0x0508008, wide := true },
  { name := "FAB_RESETS", base := 0x0508010, wide := true },
  { name := "FAB_TALLY_STATUS", base := 0x0508018,
    w1c := 0x3 }]

/-- Time (R357). -/
def regRows14 : List RegRow := [
  { name := "TIME_NOW_FRAC", base := 0x0300000 },
  { name := "TIME_NOW_NS", base := 0x0300004 },
  { name := "TIME_NOW_SEC", base := 0x0300008, wide := true },
  { name := "TIME_NOW_CT", base := 0x0300010, wide := true },
  { name := "TIME_STATUS", base := 0x0300020 },
  { name := "TIME_OFFSET", base := 0x0300024 },
  { name := "TIME_ERR_BOUND", base := 0x0300028,
    reset := fun _ _ _ => 4294967295 },
  { name := "TIME_ADJ", base := 0x030002C },
  { name := "TIME_CFG", base := 0x0300030,
    rw := 0xFFFFFFFF, reset := fun _ _ _ => 10 + 8388608 + 2147483648,
    fix := fun _ v => max 1 (v % 65536) + v / 65536 * 65536 },
  { name := "TIME_TCXO", base := 0x0300034 },
  { name := "TIME_PTP_CFG", base := 0x0300040, stride := 4, n := 5,
    rw := 0x1FFF, reset := fun _ _ _ => 12 + 3072,
    fix := fun _ v => toCode 4 (clampI (-7) 1 (sxt 4 v)) + toCode 4 (clampI (-3) 4 (sxt 4 (v / 16))) * 16 + toCode 4 (clampI (-7) 5 (sxt 4 (v / 256))) * 256 + v / 4096 * 4096 },
  { name := "TIME_STEPS", base := 0x0300060, wide := true },
  { name := "TIME_TALLY_STATUS", base := 0x0300068,
    w1c := 0x1 }]

/-- Error log, fencing and twin (R361, R370, R380). -/
def regRows15 : List RegRow := [
  { name := "ERRLOG_WPTR", base := 0x0B00000 },
  { name := "ERRLOG_STATUS", base := 0x0B00004,
    w1c := 0x7 },
  { name := "ERRLOG_COUNT", base := 0x0B00008, wide := true },
  { name := "ERRLOG_RECOV", base := 0x0B00010 },
  { name := "ERRLOG_RECOV_COUNT", base := 0x0B00018, wide := true },
  { name := "ERRLOG_ESCAL_COUNT", base := 0x0B00020, wide := true },
  { name := "CF_CFG", base := 0x0A00000,
    rw := 0x1FFFFFF, reset := fun _ _ _ => 16 + 25600,
    fix := fun _ v => v % 256 + max 10 (v / 256 % 65536) * 256 + v / 16777216 * 16777216 },
  { name := "CF_STATUS", base := 0x0A00004 },
  { name := "CF_VMAP_SEL", base := 0x0A00008,
    rw := 0x1FFF },
  { name := "CF_VMAP", base := 0x0A0000C },
  { name := "CF_FENCE_COUNT", base := 0x0A00010, wide := true },
  { name := "CF_REPLAY_COUNT", base := 0x0A00018, wide := true },
  { name := "CF_TALLY_STATUS", base := 0x0A00020,
    w1c := 0x3 },
  { name := "CF_CLUSTER", base := 0x0A00100, stride := 4, n := 64 },
  { name := "TWIN_STATE", base := 0x0601000,
    reset := fun _ _ _ => 4294901760 },
  { name := "TWIN_CFG", base := 0x0601004,
    rw := 0xFF, reset := fun _ _ _ => 10,
    fix := fun _ v => max 3 v },
  { name := "TWIN_MIRRORED", base := 0x0601008 },
  { name := "TWIN_MIRROR_BYTES", base := 0x0601010, wide := true },
  { name := "TWIN_LAST_HB", base := 0x0601018, wide := true },
  { name := "TWIN_TAKEOVER_COUNT", base := 0x0601020, wide := true },
  { name := "TWIN_ADOPTED_COUNT", base := 0x0601028, wide := true },
  { name := "TWIN_REFETCH_COUNT", base := 0x0601030, wide := true },
  { name := "TWIN_TALLY_STATUS", base := 0x0601038,
    w1c := 0x7 }]

/-- Power (R400). -/
def regRows16 : List RegRow := [
  { name := "PWR_BUDGET_CAP", base := 0x0200000,
    rw := 0xFFF, reset := fun _ _ _ => 2600,
    fix := fun _ v => max 1200 (min 2600 v) },
  { name := "PWR_BOARD_CAP", base := 0x0200004,
    reset := fun _ _ _ => 2600 },
  { name := "PWR_NB_CFG", base := 0x0200008,
    rw := 0x1FF, reset := fun _ _ _ => 4 + 128 + 256,
    fix := fun _ v => min 8 (v % 16) + v / 16 * 16 },
  { name := "PWR_STATUS", base := 0x020000C,
    w1c := 0x8 },
  { name := "PWR_IN", base := 0x0200010 },
  { name := "PWR_DIE", base := 0x0200014 },
  { name := "PWR_CORE", base := 0x0200018,
    reset := fun _ _ _ => 2400 },
  { name := "PWR_FMAX", base := 0x020001C,
    reset := fun _ _ _ => 4000 },
  { name := "PWR_STK", base := 0x0200020, stride := 4, n := 8 },
  { name := "PWR_TEMP_DIE", base := 0x0200040 },
  { name := "PWR_CUT", base := 0x0200044 },
  { name := "PWR_ASSAY_CFG", base := 0x0200048,
    rw := 0xFF, reset := fun _ _ _ => 24,
    fix := fun _ v => max 1 v },
  { name := "PWR_ASSAY_LAST", base := 0x0200050, wide := true },
  { name := "PWR_CAL_CFG", base := 0x0200058,
    rw := 0xFFFFFFF, reset := fun _ _ _ => 10 + 51200 + 10485760,
    fix := fun _ v => max 2 (min 40 (v % 256)) + max 50 (min 1000 (v / 256 % 4096)) * 256 + max 5 (min 50 (v / 1048576 % 256)) * 1048576 },
  { name := "PWR_CAL_STATUS", base := 0x020005C },
  { name := "PWR_HIST_SEL", base := 0x0200060,
    rw := 0xFFF },
  { name := "PWR_FASTCUT_COUNT", base := 0x0200080, wide := true },
  { name := "PWR_THROTTLE_COUNT", base := 0x0200088, wide := true },
  { name := "PWR_RECAL_COUNT", base := 0x0200090, wide := true },
  { name := "PWR_TALLY_STATUS", base := 0x0200098,
    w1c := 0x7 },
  { name := "PWR_STK_TEMP", base := 0x02000A0, stride := 4, n := 8 },
  { name := "PWR_HIST", base := 0x0200100, stride := 4, n := 64 }]

/-- Trust (R419). -/
def regRows17 : List RegRow := [
  { name := "SEC_BOOT_STATUS", base := 0x0400000,
    reset := fun _ _ _ => 4096 },
  { name := "SEC_ROLLBACK", base := 0x0400004 },
  { name := "SEC_DEBUG_STATUS", base := 0x0400008,
    reset := fun _ _ _ => 320 },
  { name := "SEC_DEBUG_EXPIRY", base := 0x0400010, wide := true },
  { name := "SEC_ROOT_HASH", base := 0x0400100, stride := 4, n := 16 },
  { name := "SEC_OWNER_HASH", base := 0x0400140, stride := 4, n := 16 },
  { name := "SEC_DEVICE_KEY", base := 0x0400180, stride := 4, n := 16 }]

/-- Device state (R434). -/
def regRows18 : List RegRow := [
  { name := "GLOBAL_STATE", base := 0x0000020,
    reset := fun _ _ _ => 1 + 256 },
  { name := "GLOBAL_RESET", base := 0x0000024 },
  { name := "GLOBAL_BOOT_US", base := 0x0000028 }]

/-- GLOBAL, window, trace, injection (R443, R444, R448, R449). -/
def regRows19 : List RegRow := [
  { name := "GLOBAL_ID", base := 0x0000000,
    reset := fun _ _ _ => 1280722766 },
  { name := "GLOBAL_VERSION", base := 0x0000004,
    reset := fun _ _ _ => 1 + 256 },
  { name := "GLOBAL_ACCESS", base := 0x0000030,
    w1c := 0x7 },
  { name := "GLOBAL_ACCESS_ADDR", base := 0x0000034 },
  { name := "HF_FW", base := 0x0100000 },
  { name := "HF_WIN_SEL", base := 0x0100010,
    rw := 0x7FF },
  { name := "HF_WIN", base := 0x0101000, stride := 4, n := 2 },
  { name := "TRACE_CTRL", base := 0x0C00000 },
  { name := "TRACE_BUF_BASE", base := 0x0C00008, wide := true },
  { name := "TRACE_BUF_SIZE", base := 0x0C00010 },
  { name := "TRACE_EVENTS", base := 0x0C00014 },
  { name := "TRACE_TAG", base := 0x0C00018 },
  { name := "TRACE_TAG_MASK", base := 0x0C0001C },
  { name := "TRACE_RECORDS", base := 0x0C00028, wide := true },
  { name := "TRACE_DROPPED", base := 0x0C00030, wide := true },
  { name := "TRACE_TALLY_STATUS", base := 0x0C00038,
    w1c := 0x3 },
  { name := "TRACE_INJ_CTRL", base := 0x0C03000,
    rw := 0xFF0F, w1c := 0x40, reset := fun _ _ _ => 256,
    fix := fun _ v => v % 256 + max 1 (v / 256 % 256) * 256 },
  { name := "TRACE_INJ_TARGET", base := 0x0C03008, wide := true,
    rw := 0xFFFFFFFFFFFFFFFF },
  { name := "TRACE_INJ_SEQ", base := 0x0C03010 }]

/-- The registers of BAR0 (R450), but for the client tallies, the error ring and the illegal-instruction ring, which are arrays of storage. -/
def regRows : List RegRow :=
  regRows00 ++ regRows04 ++ regRows06 ++ regRows07 ++ regRows08 ++ regRows09 ++ regRows10 ++ regRows11 ++ regRows12 ++ regRows13 ++ regRows14 ++ regRows15 ++ regRows16 ++ regRows17 ++ regRows18 ++ regRows19

/-- Block and index of an offset within a register row, if the row covers it (the low word of a 64-bit register). -/
def RegRow.at? (r : RegRow) (off : Nat) : Option (Nat × Nat) :=
  if off < r.base then none
  else
    let d := off - r.base
    let b := if r.bstride = 0 then 0 else d / r.bstride
    let e := if r.bstride = 0 then d else d % r.bstride
    let i := if r.stride = 0 then 0 else e / r.stride
    let z := if r.stride = 0 then e else e % r.stride
    if b < r.bn ∧ i < r.n ∧ z = 0 then some (b, i) else none

/-- The row, block and index that lie at an offset. -/
def regFind (rows : List RegRow) (off : Nat) : Option (RegRow × Nat × Nat) :=
  match rows with
  | [] => none
  | r :: rest => match r.at? off with
    | some (b, i) => some (r, b, i)
    | none => regFind rest off

/-- The Reset value of the register at an offset, 0 where none lies. -/
def regReset (g : Grade) (off : Nat) : Nat :=
  match regFind regRows off with
  | some (r, b, i) => r.reset g b i
  | none => 0

/-! ## Storage -/

/-- The stored value of a 32-bit register. -/
def rd (s : State) (off : Nat) : W32 := tget s.bar.regs off (BitVec.ofNat 32 (regReset s.grade off))

/-- The stored value of a 64-bit register, named by its low word's offset. -/
def rd64 (s : State) (off : Nat) : W64 := tget s.bar.regs64 off (BitVec.ofNat 64 (regReset s.grade off))

/-- A 32-bit register takes a value. -/
def wr (s : State) (off : Nat) (v : W32) : State :=
  { s with bar := { s.bar with regs := tset s.bar.regs off v (BitVec.ofNat 32 (regReset s.grade off)) } }

/-- A 64-bit register takes a value. -/
def wr64 (s : State) (off : Nat) (v : W64) : State :=
  { s with bar := { s.bar with regs64 := tset s.bar.regs64 off v (BitVec.ofNat 64 (regReset s.grade off)) } }

/-- A field of a 32-bit register: `len` bits from bit `lo` (R10). -/
def rf (s : State) (off lo len : Nat) : Nat := (rd s off).toNat / 2 ^ lo % 2 ^ len

/-- A number with the `len` bits from bit `lo` replaced. -/
def putBits (w lo len v : Nat) : Nat := w - w / 2 ^ lo % 2 ^ len * 2 ^ lo + v % 2 ^ len * 2 ^ lo

/-- A field of a 32-bit register takes a value. -/
def wf (s : State) (off lo len v : Nat) : State := wr s off (BitVec.ofNat 32 (putBits (rd s off).toNat lo len v))

/-- A tally counts `n` more; passing 2^64 it wraps and sets its WRAPPED bit (R356). -/
def bump (s : State) (off status bit n : Nat) : State :=
  let v := (rd64 s off).toNat + n
  let s := wr64 s off (BitVec.ofNat 64 v)
  if 2 ^ 64 ≤ v then wf s status bit 1 1 else s

end Sys2Proof.Machine
end

