-- ==== Sys2Proof/Machine/Ops.lean ====
section
/-! DEFINITION. Operations shared by all families: the present time, free values, the error log, the illegal-instruction log, the
device state, and the semaphores. -/
namespace Sys2Proof.Machine

/-- The result of a meaning. -/
abbrev Res := Host.Outcome State Fault Refusal

/-! ## Time and free values -/

/-- The present time in completion-time form (R343): whole nanoseconds. -/
def now (s : State) : Nat := s.time.sec.toNat * 1000000000 + s.time.ns

/-- Nanoseconds by TIME's own cycles, which no step of the counter disturbs: the measure of every interval (R342). -/
def mono (s : State) : Nat := 10 * s.time.cycles

/-- A value the spec leaves open, and the state that has used it (log entry 3, DESIGN CHOICE). -/
def draw (s : State) (w : Nat) : BitVec w × State := (Config.free w s.fresh, { s with fresh := s.fresh + 1 })

/-- A free choice below `n`. -/
def drawBelow (s : State) (n : Nat) : Nat × State := ((Config.free 64 s.fresh).toNat % max n 1, { s with fresh := s.fresh + 1 })

/-! ## Grade and device state -/

/-- Number of stacks, fabric ports, partitions, and virtual cores of the grade (R1, R4). -/
def stackCount (s : State) : Nat := match s.grade with | .c => 6 | _ => 8
def ports (s : State) : Nat := match s.grade with | .a => 4 | _ => 2
def partitions (s : State) : Nat := match s.grade with | .c => 8 | _ => 16
def coresPerCluster (s : State) : Nat := match s.grade with | .a => 64 | _ => 56
def gradeCores (s : State) : Nat := 64 * coresPerCluster s

/-- The module's device memory in bytes (R1, R3). -/
def memBytes (s : State) : Nat := stackCount s * 0x1800000000

/-- Device states of R274: 0 OFF, 1 BOOT, 2 READY, 3 RUNNING, 4 DEGRADED, 5 RECOVERING, 6 THERMAL_SHUTDOWN, 7 FAILED. -/
def storedState (s : State) : Nat := rf s GLOBAL_STATE 0 3

/-- Some partition holds a slot, or some job, move or program waits or runs (R362). -/
def working (s : State) : Bool :=
  s.se.sessions.any (fun x => x.2.slot) || decide (s.cores.jobs ≠ []) || decide (s.hoists.queue ≠ []) || decide (s.hoists.moves ≠ []) ||
    decide (s.nb.programs ≠ [])

/-- The device state: READY and RUNNING follow the work (R362). -/
def devState (s : State) : Nat := let v := storedState s; if v = 2 ∨ v = 3 then (if working s then 3 else 2) else v

def setDevState (s : State) (v : Nat) : State := wf s GLOBAL_STATE 0 3 v

/-- The N8 runs its clocks: READY, RUNNING, DEGRADED or RECOVERING (R274, R434). -/
def serving (s : State) : Bool := decide (2 ≤ devState s) && decide (devState s ≤ 5)

/-! ## Partitions' cores (R292, R302, R306) -/

def partBase (s : State) (p : Nat) : Nat := rf s (PART_VCORE p) 0 13
def partCount (s : State) (p : Nat) : Nat := rf s (PART_VCORE p) 16 13
def partStepCores (s : State) (p : Nat) : Nat := rf s (PART_STEP p) 0 13
def partScratchKib (s : State) (p : Nat) : Nat := rf s (PART_STEP p) 16 8

/-- The save area of a partition (R306), 0 when it has none. -/
def saveArea (s : State) (p : Nat) : W64 := match tfind s.parts p with | some x => x.saveBase | none => 0

/-- Bytes of a step core's save area (R306). -/
abbrev saveBytes : Nat := 348160

/-! ## Error log (R358 to R361) -/

/-- What an error-log entry carries besides its SEQ and TIME (R358). -/
structure ErrEnt where
  cls : Nat
  port : Nat := 7
  subtag : Nat := 0
  tag : Nat := 0
  status : Nat := 0
  addr : Nat := 0
  loc : Nat := 0
  detail : Nat := 0
  ex0 : Nat := 0
  ex1 : Nat := 0
deriving DecidableEq, Repr

/-- The entry's 64 bytes (R358). -/
def ErrEnt.line (e : ErrEnt) (seq time : Nat) : Line :=
  pack 512 [(0, 8, e.cls), (8, 3, e.port), (16, 16, e.subtag), (32, 32, e.tag), (64, 32, seq), (96, 16, e.status), (128, 64, time),
    (192, 64, e.addr), (256, 64, e.loc), (320, 32, e.detail), (352, 32, e.ex0), (384, 32, e.ex1)]

/-- A record's commit word is written (R26): from now on it is the record of its kind. The history keeps the newest 4,096 records and the log the newest
16,384 entries (R360, R395). -/
def FlashRec.commit (f : Flash) : FlashRec → Flash
  | .remap bank row => { f with remaps := f.remaps ++ [(bank, row)] }
  | .fence core => { f with fence := if core ∈ f.fence then f.fence else f.fence ++ [core] }
  | .assay cals hist =>
    let h := f.history ++ [hist]
    { f with cals := cals.foldl (fun t r => tput t r.1 r.2) f.cals, history := h.drop (h.length - 4096) }
  | .log lines =>
    let l := f.log ++ lines
    { f with log := l.drop (l.length - 16384) }

/-- The oldest record that is being written is committed (log entry 129, DESIGN CHOICE). -/
def Flash.commitNext (f : Flash) : Flash :=
  match f.writing with
  | [] => f
  | r :: rest => r.commit { f with writing := rest }

/-- Every record that is being written is committed. -/
def Flash.commitAll (f : Flash) : Flash := f.writing.foldl FlashRec.commit { f with writing := [] }

/-- The N8 begins to write a record to flash (R26). -/
def flashWrite (s : State) (r : FlashRec) : State := { s with flash := { s.flash with writing := s.flash.writing ++ [r] } }

/-- Which entries are copied to the flash log (R359, R398, R418). -/
def flashed (cls detail : Nat) : Bool :=
  match cls with
  | 0x02 | 0x04 | 0x05 | 0x11 | 0x12 | 0x13 | 0x14 | 0x32 | 0x40 | 0x41 | 0x42 | 0x48 | 0x52 => true
  | 0x21 => detail == 2
  | 0x50 => detail == 2 || detail == 4
  | 0x51 => detail == 1
  | 0x60 => detail == 0 || detail == 2 || detail == 5 || detail == 7
  | _ => false

/-- An entry is written: the count rises, SEQ takes its low 32 bits, the ring and ERRLOG_WPTR move on (R358, R361). The first entry
of the injected fault's class after an injection fired is TRACE_INJ_SEQ's (R449; log entry 14, DEDUCED). -/
def logErr (s : State) (e : ErrEnt) : State :=
  let i := rf s ERRLOG_WPTR 0 13
  let s := bump s ERRLOG_COUNT ERRLOG_STATUS 0 1
  let seq := (rd64 s ERRLOG_COUNT).toNat % 2 ^ 32
  let s := { s with faults := { s.faults with
    ring := tset s.faults.ring i (e.line seq (now s)) 0,
    unflashed := if flashed e.cls e.detail then s.faults.unflashed ++ [i] else s.faults.unflashed } }
  let s := if s.trace.firedKind ≠ 0 ∧ [0, 1, 2, 0x10, 0x11, 5, 0x20].getD s.trace.firedKind 0 = e.cls then
      let s := { s with trace := { s.trace with firedKind := 0 } }
      wr s TRACE_INJ_SEQ (BitVec.ofNat 32 seq)
    else s
  wf s ERRLOG_WPTR 0 13 ((i + 1) % 8192)

/-- LOC form C (R358); a core that serves no virtual core has VCORE 0x1FFF. -/
def locC (cluster core : Nat) (vcore : Option Nat) (thread : Nat) : Nat :=
  cluster % 64 + core % 128 * 64 + (vcore.getD 0x1FFF) % 8192 * 8192 + thread % 8 * 67108864

/-- LOC form F (R358). -/
def locF (port node subs : Nat) : Nat := port % 8 + node % 65536 * 8 + subs % 256 * 524288

/-! ## Illegal-instruction log (R99, R100) -/

/-- An entry of the illegal-instruction log is written (R99). -/
def logIll (s : State) (tag subtag reason slot pc : Nat) (t : Tid) (detail : Nat) : State :=
  let i := rf s ERRLOG_ILL_WPTR 0 12
  let s := bump s ERRLOG_ILL_COUNT ERRLOG_ILL_STATUS 0 1
  let e : BitVec 256 := pack 256 [(0, 32, tag), (32, 16, subtag), (48, 8, reason), (56, 4, slot), (64, 32, pc), (96, 16, t.vcore),
    (112, 3, t.thread), (128, 32, detail), (160, 32, (rd64 s ERRLOG_ILL_COUNT).toNat), (192, 64, now s)]
  let s := { s with faults := { s.faults with illRing := tset s.faults.illRing i e 0 } }
  wf s ERRLOG_ILL_WPTR 0 12 ((i + 1) % 4096)

/-! ## Semaphores (R143 to R152) -/

/-- Who signals (R145, R150): SOURCE, AGENT and THREAD of the debugger's view, tag, sub-tag, and the port of R162. -/
structure SemSrc where
  source : Nat
  agent : Nat := 0
  thread : Nat := 0
  tag : W32 := 0
  subtag : W16 := 0
  port : Nat
deriving DecidableEq, Repr

/-- A semaphore that nothing has touched: zero at the end of BOOT (R143), with SOURCE 0 (R150). -/
def Sem.zero : Sem :=
  { value := 0, waiters := [], saturated := false, source := 0, agent := 0, sthread := 0, tag := 0, subtag := 0, time := 0 }

def getSem (s : State) (n : Nat) : Sem := tget s.sems n Sem.zero
def setSem (s : State) (n : Nat) (x : Sem) : State := { s with sems := tset s.sems n x Sem.zero }

/-- A thread key of Cores.threads. -/
def tidKey (t : Tid) : Nat := 8 * t.vcore + t.thread

/-- A thread no job has touched. -/
def Thread.zero : Thread :=
  { s := [], v := [], m := [], acc := [], q := [], loops := [], rpt := [], pc := 0, subtag := 0, memerr := 0, memerrAt := 0, skips := 0,
    flags := 0, rng := 1, run := .idle, fence := none, waitQ := [], dropped := 0, winext := 0, item := none, replay := none }

def getThread (s : State) (t : Tid) : Thread := tget s.cores.threads (tidKey t) Thread.zero
def setThread (s : State) (t : Tid) (x : Thread) : State :=
  { s with cores := { s.cores with threads := tset s.cores.threads (tidKey t) x Thread.zero } }

/-- CHECK_CLEAN (R152): the value of a semaphore before the first operation that carries the tag of a checked job while it runs. -/
def cleanTouch (s : State) (tag : W32) (n : Nat) : State :=
  let v := (getSem s n).value
  { s with cores := { s.cores with jobs := s.cores.jobs.map (fun j =>
    match j.clean with
    | some (vals, regs, c) =>
      if j.tag = tag ∧ j.state ≠ .waiting ∧ (tfind vals n).isNone then { j with clean := some (tput vals n v, regs, c) } else j
    | none => j) } }

/-- A waiter wakes: its SEMWAIT is complete and it issues again (R144, R147). A thread whose bundle held END as well issues no more and ends
once its other operations are acknowledged (R73). -/
def wake (s : State) (t : Tid) : State :=
  let th := getThread s t
  let ops := s.cores.ops.filter (fun o => !(decide (o.t = t) && decide (o.kind = .semWait)))
  match th.run with
  | .semWait _ _ => let s := setThread s t { th with run := .running }; { s with cores := { s.cores with ops := ops } }
  | .ending =>
    let s := if ops.any (fun o => decide (o.t = t)) then s else setThread s t { th with run := .ended }
    { s with cores := { s.cores with ops := ops } }
  | _ => s

/-- Waiters are satisfied from the head while the head's amount is covered (R144): the value left, the list left, those woken. -/
def satisfy (v : Nat) (ws : List (Tid × W64)) : Nat × List (Tid × W64) × List Tid :=
  match ws with
  | [] => (v, [], [])
  | (t, a) :: r =>
    if a.toNat ≤ v then
      let (v', r', woken) := satisfy (v - a.toNat) r
      (v', r', t :: woken)
    else (v, (t, a) :: r, [])

/-- A home slice satisfies the waiters of a semaphore (R144). -/
def semSatisfy (s : State) (n : Nat) : State :=
  let x := getSem s n
  let (v, ws, woken) := satisfy x.value.toNat x.waiters
  woken.foldl wake (setSem s n { x with value := BitVec.ofNat 64 v, waiters := ws })

/-- SEMSIG (R144, R145): the value rises, saturating with a mark and an entry, then waiters are satisfied. -/
def semSignal (s : State) (n : Nat) (a : W64) (src : SemSrc) : State :=
  let s := cleanTouch s src.tag n
  let x := getSem s n
  let sum := x.value.toNat + a.toNat
  let past := decide (2 ^ 64 ≤ sum)
  let x := { x with
    value := if past then BitVec.allOnes 64 else BitVec.ofNat 64 sum
    saturated := x.saturated || past
    source := src.source, agent := src.agent, sthread := src.thread, tag := src.tag, subtag := src.subtag
    time := BitVec.ofNat 64 (now s) }
  let s := setSem s n x
  let s := if past then logErr s { cls := 0x34, port := src.port, tag := src.tag.toNat, subtag := src.subtag.toNat, loc := n } else s
  semSatisfy s n

/-- The test of SEMTRY (R144): the amount is taken if nobody waits and the value covers it. -/
def semTake (s : State) (n : Nat) (a : W64) : Bool × State :=
  let x := getSem s n
  if x.waiters = [] ∧ a.toNat ≤ x.value.toNat then (true, setSem s n { x with value := x.value - a }) else (false, s)

/-- SEMWAIT of a thread (R144): taken at once, or the thread is appended to the list. An amount of 0 changes nothing. -/
def semWaitOp (s : State) (n : Nat) (a : W64) (t : Tid) (tag : W32) : State :=
  let s := cleanTouch s tag n
  if a = 0 then wake s t
  else
    let (ok, s) := semTake s n a
    if ok then wake s t
    else let x := getSem s n; setSem s n { x with waiters := x.waiters ++ [(t, a)] }

/-- A thread leaves every list without being satisfied; the waiters behind it are satisfied where the value covers them (R144). -/
def semLeave (s : State) (t : Tid) : State :=
  let ns := (s.sems.filter (fun p => p.2.waiters.any (fun w => decide (w.1 = t)))).map (fun p => p.1)
  ns.foldl (fun s n =>
    let x := getSem s n
    semSatisfy (setSem s n { x with waiters := x.waiters.filter (fun w => !decide (w.1 = t)) }) n) s

/-- The sum over the stacks of the grants in force (R215). -/
def grantSum (s : State) : Nat := sumNat ((List.range (stackCount s)).map (fun k => tget s.nb.grant k 0))

/-- The module's R_NB at the grants in force, in G weights/s, from a measurement with the sum of the grants at its time, or the nominal value (R215, R219). -/
def moduleRate (s : State) (m : Option (Nat × Nat)) : Nat :=
  match m with
  | some (r, t) => r * grantSum s / max t 1
  | none => (match s.grade with | .c => 24576 | _ => 32768) * grantSum s / stackCount s

/-! ## A step's halves (R21, R212) -/

/-- The programs the sequencer runs for a partition. -/
def seqProgs (s : State) (part : Nat) : List Program := s.nb.programs.filter (fun p => decide (p.owner = .sequencer part))

/-- Every program of the near-bank half has ended. -/
def nearOver (s : State) (part : Nat) (run : StepRun) : Bool := (run.rounds == [] || run.rounds == [[]]) && decide (seqProgs s part = [])

/-- A group is in stages 2 to 5: one of its halves, or its layer's attention, still runs. -/
def inStages (s : State) (part : Nat) (run : StepRun) : Bool := run.group.isSome && !(nearOver s part run && decide (run.dense = []))

/-- The group's own halves still run, not the attention of its layer. -/
def inHalves (s : State) (part : Nat) (run : StepRun) : Bool := inStages s part run && !run.attended

/-- Results that used what a read returned carried poison (R371, R373). -/
def markBad (run : StepRun) (session : Option Nat) : StepRun :=
  match session, run.group with
  | some i, _ => { run with badSessions := (i :: run.badSessions).eraseDups }
  | none, some (x, _) => { run with badBatches := ((x.kind, x.model) :: run.badBatches).eraseDups }
  | none, none => run

end Sys2Proof.Machine
end

