-- ==== Sys2Proof/Machine/Memory.lean ====
section
/-! DEFINITION. Device memory below its home slices: the address maps (R155 to R158), sectors with their error code (R170 to R173),
and the row-major views of PLANAR regions (R55 to R60). -/
namespace Sys2Proof.Machine

/-! ## Requesters -/

/-- Who asks (R162, R173): port, tag and sub-tag. -/
structure Rq where
  port : Nat
  tag : W32 := 0
  subtag : W16 := 0
deriving DecidableEq, Repr

/-- The Headframe's own work (R162, port 5, tag 0). -/
def hfRq : Rq := { port := 5 }

/-- Status codes of R272 that memory gives. -/
abbrev stOk : W16 := 0x0000
abbrev stBadParam : W16 := 0x0101
abbrev stMemUnc : W16 := 0x0200
abbrev stPoisoned : W16 := 0x0201

/-! ## Maps -/

/-- A place in DRAM (R153): the global bank number β, the row, the byte within the row. -/
structure Loc where
  bank : Nat
  row : Nat
  byte : Nat
deriving DecidableEq, Repr

def Loc.pc (l : Loc) : Nat := l.bank / 32
def Loc.stack (l : Loc) : Nat := l.bank / 2048

/-- The key of a physical byte, and of a physical sector, row. -/
def Loc.key (l : Loc) : Nat := (l.bank * 24576 + l.row) * 2048 + l.byte
def Loc.sector (l : Loc) : Nat := l.key / 32
def Loc.rowKey (l : Loc) : Nat := l.bank * 24576 + l.row

/-- R155 and R156: the pseudo-channel and the bank of granule number `u` and H, under the LINEAR or the PLANAR masks. The mask registers
are one module-wide set, kept at stack 0's offsets (R182). -/
def mapUnit (s : State) (planar : Bool) (u : Nat) : Nat × Nat :=
  let c := decide (s.grade = Grade.c)
  let l := if c then u % 128 else u % 512
  let t := if c then u / 128 % 3 else 0
  let h := if c then u / 384 else u / 512
  let mask (off : Nat) := (rd s off).toNat / 32 * 32
  let sel (j : Nat) := b2n (nbit l j) ^^^ parity 23 (h &&& mask (if planar then STK_PMAP_SEL 0 j else STK_MAP_SEL 0 j))
  let bnk (j : Nat) := b2n (nbit h j) ^^^ parity 23 (h &&& mask (if planar then STK_PMAP_BANK 0 j else STK_MAP_BANK 0 j))
  let sid (j : Nat) := b2n (nbit h (3 + j)) ^^^ parity 23 (h &&& mask (if planar then STK_PMAP_SID 0 j else STK_MAP_SID 0 j))
  let q := sel 0
  let ch := sel 1 + 2 * sel 2 + 4 * sel 3 + 8 * sel 4 + 16 * sel 5
  let st := if c then 2 * t + sel 6 else sel 6 + 2 * sel 7 + 4 * sel 8
  let k := bnk 0 + 2 * bnk 1 + 4 * bnk 2
  let i := sid 0 + 2 * sid 1
  let p := 64 * st + 2 * ch + q
  (p, 32 * p + 8 * i + k)

/-- The high field H of a granule or unit number (R155). -/
def mapHigh (s : State) (u : Nat) : Nat := if s.grade = Grade.c then u / 384 else u / 512

/-- The location of a local offset of a LINEAR row set (R155, R156). -/
def mapLin (s : State) (a : Nat) : Loc :=
  let h := mapHigh s (a / 256)
  { bank := (mapUnit s false (a / 256)).2, row := h / 256, byte := 256 * (h / 32 % 8) + a % 256 }

/-- The home slice of a local offset, LINEAR or view (R154, R159). -/
def homeSlice (s : State) (a : Nat) : Nat := (mapUnit s false (a / 256)).1

/-- The set of a line within its slice (R154). -/
def homeSet (s : State) (a : Nat) : Nat := (4 * mapHigh s (a / 256) + a % 256 / 64) % 256

/-- Bytes of a row set (R157). -/
def rowSetBytes (s : State) : Nat := if s.grade = Grade.c then 0x1800000 else 0x2000000

/-- Banks of the module: B of R158. -/
def banksB (s : State) : Nat := if s.grade = Grade.c then 12288 else 16384

/-- Banks of the module counted from zero: 2,048 in each present stack (R153). -/
def bankCount (s : State) : Nat := 2048 * stackCount s

/-- The reservation that holds a row set (R157, R281). -/
def regionAt (s : State) (rowset : Nat) : Option Region :=
  s.mem.regions.find? (fun r => decide (r.first ≤ rowset) && decide (rowset < r.first + r.count))

/-- The PLANAR region a local offset lies in, and the view offset (R57, R159). -/
def viewOf (s : State) (a : Nat) : Option (Region × Nat) :=
  match regionAt s (a / rowSetBytes s) with
  | some r => if r.planar then some (r, a - r.first * rowSetBytes s) else none
  | none => none

/-! ## Regions' layout (R56 to R60) -/

/-- Kinds of PLANAR region: 0 WEIGHT, 1 K_PAGE, 2 V_PAGE (R50). Weight formats: 9 INT4, 8 INT8, 7 FP4 E2M1 (R28). -/
def Region.iPad (r : Region) : Nat := 32 * cdiv r.rowLen 32
def Region.fp4 (r : Region) : Bool := r.kind == 0 && r.fmt == 0x7
/-- Bits of a weight code in memory (R55) and in the view (R57). -/
def Region.planes (r : Region) : Nat := if r.fmt = 0x9 then 4 else if r.fmt = 0x7 then 5 else 8
def Region.viewBits (r : Region) : Nat := if r.fmt = 0x8 then 8 else 4
/-- The placement unit U in bytes (R56, R158). -/
def Region.unitBytes (r : Region) : Nat :=
  if r.kind ≠ 0 then 65536 else if r.scaled then 512 + 32 * 64 * r.planes else 64 * r.planes
/-- View row pitch, view bytes of the element array, start of the scale array, and bytes of the whole view (R57). -/
def Region.pitch (r : Region) : Nat := if r.kind ≠ 0 then 128 else r.iPad * r.viewBits / 8
def Region.elemBytes (r : Region) : Nat := if r.kind ≠ 0 then r.rows * 65536 else r.rows * r.pitch
def Region.scaleBase (r : Region) : Nat := cdiv r.elemBytes 256 * 256
def Region.viewBytes (r : Region) : Nat := if r.kind = 0 && r.scaled then r.scaleBase + r.rows * (r.iPad / 32) else r.elemBytes
/-- Placement units of the region (R56). -/
def Region.units (r : Region) : Nat :=
  if r.kind ≠ 0 then r.rows else cdiv r.rows 512 * (if r.scaled then r.iPad / 32 else r.iPad)

/-- The place of byte `off` of placement unit `u` (R158). -/
def unitLoc (s : State) (r : Region) (u off : Nat) : Loc :=
  let strip := mapHigh s u / 32 * r.unitBytes + off
  { bank := (mapUnit s true u).2, row := r.first + strip / 2048, byte := strip % 2048 }

/-- One bit of a column word: the place of its byte and the bit within it. -/
def unitBit (s : State) (r : Region) (u word lane : Nat) : Nat × Nat := ((unitLoc s r u (64 * word + lane / 8)).key, lane % 8)

/-- What a view byte stands for: nothing (padding), the codes of elements, each as the places of its bits from the lowest plane up, or
a block scale's byte. -/
inductive ViewByte
  | pad
  | elems (codes : List (List (Nat × Nat)))
  | scale (key : Nat)
deriving DecidableEq, Repr

/-- The places of the bits of the weight of output row `o`, input `i` (R56). -/
def weightBits (s : State) (r : Region) (o i : Nat) : List (Nat × Nat) :=
  let g := o / 512
  (List.range r.planes).map (fun j =>
    if r.scaled then unitBit s r (g * (r.iPad / 32) + i / 32) (8 + i % 32 * r.planes + j) (o % 512)
    else unitBit s r (g * r.iPad + i) j (o % 512))

/-- What the byte at a view offset stands for (R56, R57, R59, R60). -/
def viewByte (s : State) (r : Region) (v : Nat) : ViewByte :=
  if r.kind = 1 then
    if r.rows * 65536 ≤ v then .pad
    else
      let l := v % 65536 / 128
      let d := v % 128
      .elems [(List.range 8).map (fun j => unitBit s r (v / 65536) (8 * d + j) l)]
  else if r.kind ≠ 0 then
    if r.rows * 65536 ≤ v then .pad
    else
      let p := v % 65536 / 128
      .elems [(List.range 8).map (fun j => unitBit s r (v / 65536) (8 * (p / 4) + j) (128 * (p % 4) + v % 128))]
  else if v < r.elemBytes then
    let o := v / r.pitch
    let c := v % r.pitch
    if r.viewBits = 8 then (if c < r.rowLen then .elems [weightBits s r o c] else .pad)
    else
      let lo := if 2 * c < r.rowLen then [weightBits s r o (2 * c)] else []
      let hi := if 2 * c + 1 < r.rowLen then [weightBits s r o (2 * c + 1)] else []
      if lo = [] then .pad else .elems (lo ++ hi)
  else if r.scaled ∧ r.scaleBase ≤ v ∧ v < r.viewBytes then
    let w := v - r.scaleBase
    let o := w / (r.iPad / 32)
    .scale (unitLoc s r (o / 512 * (r.iPad / 32) + w % (r.iPad / 32)) (o % 512)).key
  else .pad

/-- The physical sectors a view byte's bits lie in. -/
def ViewByte.sectors (v : ViewByte) : List Nat :=
  match v with
  | .pad => []
  | .elems cs => cs.flatten.map (fun p => p.1 / 32)
  | .scale k => [k / 32]

/-- The physical sectors that the sector at a local offset is made of: one in a LINEAR row set, those of its column words in a view (R57). -/
def sourceSectors (s : State) (a : Nat) : List Nat :=
  match viewOf s a with
  | none => [(mapLin s a).sector]
  | some (r, v) => (((List.range 32).map (fun i => (viewByte s r (v / 32 * 32 + i)).sectors)).flatten).eraseDups

/-- The 5-bit code of an E2M1 code (R41): twice its value, both zeros 0. -/
def fp4ToCode (e : Nat) : Nat :=
  let m := [0, 1, 2, 3, 4, 6, 8, 12].getD (e % 8) 0
  if nbit e 3 then (32 - m) % 32 else m

/-- The E2M1 code whose value is half a stored 5-bit code (R57). For a code outside the set of R41 no code has that value: a free one
(log entry 65, DEDUCED). -/
def codeToFp4 (c : Nat) : Nat :=
  ((List.range 16).find? (fun e => decide (fp4ToCode e = c % 32))).getD (Config.fp4Outside (c % 32)).toNat

/-! ## Engines and lines -/

/-- An engine with nothing in flight. -/
def Engine.zero : Engine := { inflight := [], sliceQ := [], wbuf := [], openRow := [], postponed := [] }

def getEngine (s : State) (pc : Nat) : Engine := tget s.mem.engines pc Engine.zero
def setEngine (s : State) (pc : Nat) (e : Engine) : State :=
  { s with mem := { s.mem with engines := tset s.mem.engines pc e Engine.zero } }

/-- A line a slice does not hold. -/
def CacheLine.zero : CacheLine := { data := 0, valid := 0, dirty := 0, poison := 0 }

def getLine (s : State) (ln : Nat) : CacheLine := tget s.mem.lines ln CacheLine.zero
def setLine (s : State) (ln : Nat) (c : CacheLine) : State :=
  { s with mem := { s.mem with lines := tset s.mem.lines ln c CacheLine.zero } }

/-- A pseudo-channel is held (R180, R363). -/
def pcHeld (s : State) (pc : Nat) : Bool := s.mem.held.any (fun h => h.1 == pc)

/-- A blast has begun and not finished in a bank (R202). -/
def bankBusy (s : State) (bank : Nat) : Bool := s.nb.programs.any (fun p => decide (0 < tget p.left bank 0))

/-! ## Sectors in DRAM -/

/-- The error state of a sector in DRAM that holds none. -/
def SecErr.none : SecErr := { flips := [], poison := false }

def secErr (s : State) (sec : Nat) : SecErr := tget s.mem.ecc sec SecErr.none
def setSecErr (s : State) (sec : Nat) (e : SecErr) : State := { s with mem := { s.mem with ecc := tset s.mem.ecc sec e SecErr.none } }

/-- The row set of a physical byte. -/
def keyRow (key : Nat) : Nat := key / 2048 % 24576

/-- A byte of DRAM. What nothing has written reads as zero (log entry 15, DESIGN CHOICE); in a row set whose contents were discarded (R281) it is a free value
(log entry 42, DESIGN CHOICE). -/
def dramByte (s : State) (key : Nat) : Byte :=
  match tfind s.mem.dram key with
  | some b => b
  | none => match tfind s.mem.discarded (keyRow key) with
    | some n => Config.free 8 (n + key / 50331648 * 2048 + key % 2048)
    | none => 0
def setDramByte (s : State) (key : Nat) (b : Byte) : State :=
  { s with mem := { s.mem with
      dram := if (tfind s.mem.discarded (keyRow key)).isSome then tput s.mem.dram key b else tset s.mem.dram key b 0 } }

/-- LOC form M of a sector (R358), with the corrected byte where there is one. -/
def locM (sec : Nat) (corrected : Option Nat) : Nat :=
  let row := sec / 64 % 24576
  let bank := sec / 64 / 24576
  bank / 2048 + bank / 32 * 8 + bank % 32 * 4096 + row * 131072 + sec % 64 * 4294967296 +
    (match corrected with | some b => b * 2 ^ 38 + 2 ^ 43 | none => 0)

/-- An access to a bank wakes its stack ID and ends its stack's self-refresh (R167, R168). -/
def wakeBank (s : State) (bank : Nat) : State :=
  let s := if bank / 8 ∈ s.mem.powerDown then { s with mem := { s.mem with powerDown := s.mem.powerDown.filter (· ≠ bank / 8) } } else s
  if rf s (STK_STATUS (bank / 2048)) 2 1 = 1 then wf s (STK_STATUS (bank / 2048)) 2 1 0 else s

/-- A DRAM access to a sector: its bank is awake and its row stands open afterwards (R164, R167). -/
def activate (s : State) (sec : Nat) : State :=
  let bank := sec / 64 / 24576
  let s := wakeBank s bank
  let e := getEngine s (bank / 32)
  setEngine s (bank / 32) { e with openRow := tset e.openRow bank (sec / 64 % 24576 + 1) 0 }

/-- The granule or unit of a bank whose high field H has `o` above its lowest five bits: the map of R155 and R156 inverted. -/
def unmapUnit (s : State) (planar : Bool) (bank o : Nat) : Nat :=
  let c := decide (s.grade = Grade.c)
  let p := bank / 32
  let hi := 32 * o
  let mask (off : Nat) := (rd s off).toNat / 32 * 32
  let k := bank % 8
  let i := bank / 8 % 4
  let h := hi +
    ((List.range 3).foldl (fun a j => a + (b2n (nbit k j) ^^^ parity 23 (hi &&& mask (if planar then STK_PMAP_BANK 0 j else STK_MAP_BANK 0 j))) * 2 ^ j) 0) +
    8 * ((List.range 2).foldl (fun a j => a + (b2n (nbit i j) ^^^ parity 23 (hi &&& mask (if planar then STK_PMAP_SID 0 j else STK_MAP_SID 0 j))) * 2 ^ j) 0)
  let sels : List Nat := [p % 2] ++ (List.range 5).map (fun j => p / 2 / 2 ^ j % 2) ++
    (if c then [p / 64 % 2] else (List.range 3).map (fun j => p / 64 / 2 ^ j % 2))
  let lo := (sels.zip (List.range sels.length)).foldl
    (fun a x => a + (x.1 ^^^ parity 23 (hi &&& mask (if planar then STK_PMAP_SEL 0 x.2 else STK_MAP_SEL 0 x.2))) * 2 ^ x.2) 0
  if c then 384 * h + 128 * (p / 128) + lo else 512 * h + lo

/-- The LINEAR local offset of a place in DRAM: the map of R155 and R156 inverted. -/
def linAddr (s : State) (l : Loc) : Nat := 256 * unmapUnit s false l.bank (8 * l.row + l.byte / 256) + l.byte % 256

/-- The placement unit and the byte of it that stand at a place of a region's strips (R158). -/
def unitAt (s : State) (r : Region) (l : Loc) : Nat × Nat :=
  let strip := (l.row - r.first) * 2048 + l.byte
  (unmapUnit s true l.bank (strip / r.unitBytes), strip % r.unitBytes)

/-- The view byte that bit `b` of byte `off` of a placement unit belongs to (R56 to R60), none in padding. -/
def unitView (r : Region) (u off b : Nat) : Option Nat :=
  let w := off / 64
  let lane := off % 64 * 8 + b
  let nb := r.iPad / 32
  if r.units ≤ u then none
  else if r.kind = 1 then some (u * 65536 + lane * 128 + w / 8)
  else if r.kind ≠ 0 then some (u * 65536 + (4 * (w / 8) + lane / 128) * 128 + lane % 128)
  else if r.scaled && decide (off < 512) then
    let row := u / nb * 512 + off
    if row < r.rows then some (r.scaleBase + row * nb + u % nb) else none
  else
    let (g, i) := if r.scaled then (u / nb, 32 * (u % nb) + (w - 8) / r.planes) else (u / r.iPad, u % r.iPad)
    let row := 512 * g + lane
    if row < r.rows ∧ i < r.rowLen then some (row * r.pitch + i * r.viewBits / 8) else none

/-- The place of a physical sector. -/
def secLoc (sec : Nat) : Loc := { bank := sec / 64 / 24576, row := sec / 64 % 24576, byte := sec % 64 * 32 }

/-- The Level address of a physical sector met without a request: its LINEAR offset, or in a PLANAR row set that of the view byte its first bit
belongs to, 0 in padding (R173; log entry 115, DEDUCED). -/
def secAddr (s : State) (sec : Nat) : Nat :=
  let l := secLoc sec
  match regionAt s l.row with
  | some r => if r.planar then
      let u := unitAt s r l
      match unitView r u.1 u.2 0 with | some v => r.first * rowSetBytes s + v | none => 0
    else linAddr s l
  | none => linAddr s l

/-- The times of the last 24 hours. -/
def within24h (s : State) (ts : List Nat) : List Nat := ts.filter (fun t => decide (mono s < t + 86400000000000))

/-- A row is due for repair (R175). -/
def repairWanted (s : State) (rowKey : Nat) : State :=
  if rowKey ∈ s.mem.repairDue then s else { s with mem := { s.mem with repairDue := s.mem.repairDue ++ [rowKey] } }

/-- A correctable error (R171, R173): the corrected sector is written back, the error is counted against its row, one entry per row per
hour is made, and a row that reaches the threshold is repaired. -/
def correctable (s : State) (sec byte : Nat) (rq : Rq) (addr : Nat) : State :=
  let s := setSecErr s sec SecErr.none
  let st := sec / 64 / 24576 / 2048
  let rowKey := sec / 64
  let s := bump s (STK_CE_COUNT st) (STK_TALLY_STATUS st) 0 1
  let times := within24h s (tget s.mem.ceRow rowKey []) ++ [mono s]
  let s := { s with mem := { s.mem with ceRow := tset s.mem.ceRow rowKey times [] } }
  let last := tget s.mem.ceLogged rowKey 0
  let s := if last = 0 ∨ last + 3600000000000 ≤ mono s + 1 then
      let s := { s with mem := { s.mem with ceLogged := tset s.mem.ceLogged rowKey (mono s + 1) 0 } }
      logErr s { cls := 0x01, port := rq.port, tag := rq.tag.toNat, subtag := rq.subtag.toNat, addr := addr, loc := locM sec (some byte),
                 detail := times.length }
    else s
  let th := rf s (STK_CE_THRESH st) 0 8
  if th ≠ 0 ∧ th ≤ times.length then repairWanted s rowKey else s

/-- Every line sector that a home slice holds of a physical sector takes the poison bit, and what it held unwritten is lost with it (R172). -/
def poisonLines (s : State) (sec : Nat) : State :=
  let hit (ln i : Nat) (c : CacheLine) : Bool := bit c.valid i && decide (sec ∈ sourceSectors s (64 * ln + 32 * i))
  let mark (ln : Nat) (c : CacheLine) (i : Nat) : CacheLine :=
    if hit ln i c then { c with poison := c.poison ||| (1#2 <<< i), dirty := c.dirty &&& ~~~(1#2 <<< i) } else c
  { s with mem := { s.mem with lines := s.mem.lines.map (fun p => (p.1, [0, 1].foldl (mark p.1) p.2)) } }

/-- An error in the row sets of the session and model tables (R225) is a device fault unless the module is PAIRED (R363, R373; log entry 144, DESIGN
CHOICE): it is resolved by the next DEVICE_FAULT or cycle of TIME. -/
def tableFault (s : State) (sec : Nat) : State :=
  if sec / 64 % 24576 < 24568 ∨ rf s TWIN_STATE 0 2 = 2 then s else { s with faults := { s.faults with tableError := true } }

/-- A first detection of an uncorrectable error (R172, R173, R175): the poison pattern is written, the home slices' poison bits are set, the
tally and an entry follow, and the row is to be repaired. -/
def uncorrectable (s : State) (sec : Nat) (rq : Rq) (addr : Nat) : State :=
  let s := poisonLines (setSecErr s sec { flips := [], poison := true }) sec
  let st := sec / 64 / 24576 / 2048
  let s := bump s (STK_UE_COUNT st) (STK_TALLY_STATUS st) 1 1
  let s := logErr s { cls := 0x02, port := rq.port, tag := rq.tag.toNat, subtag := rq.subtag.toNat, status := 0x0200, addr := addr,
                      loc := locM sec none, detail := 0 }
  repairWanted (tableFault s sec) (sec / 64)

/-- The MEM_POISON entry of a sector, of which at most one is made per minute (R173); `n` accesses have been refused since the last. -/
def poisonEntry (s : State) (sec n : Nat) (e : ErrEnt) : State :=
  let last := tget s.mem.poisonLogged sec 0
  if last = 0 ∨ last + 60000000000 ≤ mono s + 1 then
    let s := { s with mem := { s.mem with poisonLogged := tset s.mem.poisonLogged sec (mono s + 1) 0,
                                          poisonRefused := tset s.mem.poisonRefused sec 0 0 } }
    logErr s { e with status := 0x0201, loc := locM sec none, detail := n }
  else { s with mem := { s.mem with poisonRefused := tset s.mem.poisonRefused sec n 0 } }

/-- An access refused with POISONED (R173): counted toward the sector's entries. -/
def poisonRefusal (s : State) (sec : Nat) (rq : Rq) (addr : Nat) : State :=
  poisonEntry s sec (tget s.mem.poisonRefused sec 0 + 1) { cls := 0x03, port := rq.port, tag := rq.tag.toNat, subtag := rq.subtag.toNat, addr := addr }

/-- The controller checks a sector as it reads it (R170 to R172): OK (an error of one byte is corrected), MEM_UNCORRECTABLE on first
detection, POISONED afterwards. A sector returned from another location is detected. An error of more than two bytes may pass undetected: a free choice (log entry 3, DESIGN CHOICE). `count` says
whether the read is a requester's, whose refusals count (R173). -/
def checkSector (s : State) (sec : Nat) (rq : Rq) (addr : Nat) (count : Bool) : W16 × State :=
  let s := activate s sec
  let e := secErr s sec
  if e.poison then (stPoisoned, if count then poisonRefusal s sec rq addr else s)
  else if e.moved then (stMemUnc, uncorrectable s sec rq addr)
  else match e.flips with
    | [] => (stOk, s)
    | [(b, _)] => (stOk, correctable s sec b rq addr)
    | [_, _] => (stMemUnc, uncorrectable s sec rq addr)
    | _ =>
      let (seen, s) := drawBelow s 2
      if seen = 0 then (stMemUnc, uncorrectable s sec rq addr)
      else
        let s := e.flips.foldl (fun s f => setDramByte s (sec * 32 + f.1) (dramByte s (sec * 32 + f.1) ^^^ f.2)) s
        (stOk, setSecErr s sec SecErr.none)

/-- The canonical form of device memory's cells and of its sectors' errors: keys rise strictly and nothing stands listed that reads as an unlisted
key does. -/
def Mem.wf (m : Mem) : Bool :=
  risesFrom none m.dram && m.dram.all (fun p => decide (p.2 ≠ 0) || (tfind m.discarded (keyRow p.1)).isSome) &&
  risesFrom none m.discarded && twf (fun _ => SecErr.none) m.ecc

/-- Sectors checked in order; the first status other than OK is the result. -/
def checkSectors (s : State) (secs : List Nat) (rq : Rq) (addr : Nat) (count : Bool) : W16 × State :=
  secs.foldl (fun (st, s) sec =>
    let (st', s) := checkSector s sec rq addr count
    (if st = stOk then st' else st, s)) (stOk, s)

/-- The 32 bytes of a sector in DRAM. -/
def sectorBytes (s : State) (sec : Nat) : List Byte := (List.range 32).map (fun i => dramByte s (sec * 32 + i))

/-- A whole sector written to DRAM: new check bytes, no error left. -/
def writeSector (s : State) (sec : Nat) (bs : List Byte) : State :=
  let s := (List.range 32).foldl (fun s i => setDramByte s (sec * 32 + i) (bs.getD i 0)) (activate s sec)
  setSecErr s sec SecErr.none

/-- A sector's poison pattern written (R172). -/
def writePoison (s : State) (sec : Nat) : State := setSecErr s sec { flips := [], poison := true }

/-! ## Views -/

/-- The value of a view byte (R57). -/
def viewByteValue (s : State) (r : Region) (v : ViewByte) : Byte :=
  match v with
  | .pad => 0
  | .scale k => dramByte s k
  | .elems cs =>
    let code (bs : List (Nat × Nat)) : Nat :=
      bs.foldr (fun p a => b2n ((dramByte s p.1).getLsbD p.2) + 2 * a) 0
    let val (bs : List (Nat × Nat)) : Nat := if r.fp4 then codeToFp4 (code bs) else code bs
    if r.viewBits = 8 ∨ r.kind ≠ 0 then BitVec.ofNat 8 (val (cs.getD 0 []))
    else BitVec.ofNat 8 (val (cs.getD 0 []) + 16 * (if cs.length = 2 then val (cs.getD 1 []) else 0))

/-- What a view byte holds after a write (R57): padding stays zero, an FP4 −0 becomes +0. -/
def viewNormal (r : Region) (v : ViewByte) (b : Byte) : Byte :=
  match v with
  | .pad => 0
  | .scale _ => b
  | .elems cs =>
    if r.viewBits = 8 ∨ r.kind ≠ 0 then b
    else
      let nz (n : Nat) : Nat := if r.fp4 ∧ n = 8 then 0 else n
      BitVec.ofNat 8 (nz (b.toNat % 16) + (if cs.length = 2 then 16 * nz (b.toNat / 16) else 0))

/-- The bits a view byte's value puts in column words: place, bit, value; a scale's byte as its eight bits. -/
def viewPut (r : Region) (v : ViewByte) (b : Byte) : List (Nat × Nat × Bool) :=
  match v with
  | .pad => []
  | .scale k => (List.range 8).map (fun i => (k, i, b.getLsbD i))
  | .elems cs =>
    let one (bs : List (Nat × Nat)) (n : Nat) : List (Nat × Nat × Bool) :=
      let c := if r.fp4 then fp4ToCode n else n
      (bs.zip (List.range bs.length)).map (fun p => (p.1.1, p.1.2, nbit c p.2))
    if r.viewBits = 8 ∨ r.kind ≠ 0 then one (cs.getD 0 []) b.toNat
    else one (cs.getD 0 []) (b.toNat % 16) ++ (if cs.length = 2 then one (cs.getD 1 []) (b.toNat / 16) else [])

/-- A bit of a byte set. -/
def setBit (b : Byte) (i : Nat) (v : Bool) : Byte := if v then b ||| ((1 : Byte) <<< i) else b &&& ~~~((1 : Byte) <<< i)

/-- Bits of column words that a write changes while a program runs are noted: its result entries of those lanes are unspecified (R203). -/
def touch (s : State) (bits : List (Nat × Nat)) : State :=
  if s.nb.programs.any (·.begun) then { s with mem := { s.mem with touched := s.mem.touched ++ bits } } else s

/-- A write covers a whole column word: every bit of it that is no padding is among the bits put (R58). -/
def wordWhole (s : State) (r : Region) (puts : List (Nat × Nat × Bool)) (w : Nat) : Bool :=
  let sec := 2 * w
  let u := unitAt s r { bank := sec / 64 / 24576, row := sec / 64 % 24576, byte := sec % 64 * 32 }
  (List.range 64).all (fun i => (List.range 8).all (fun b =>
    puts.any (fun p => p.1 == 64 * w + i && p.2.1 == b) || (unitView r u.1 (u.2 + i) b).isNone))

/-- A column word written whole (R58, R205): zero, before its bits are put, with no error left. -/
def clearWord (s : State) (w : Nat) : State := [2 * w, 2 * w + 1].foldl (fun s sec => writeSector s sec (List.replicate 32 0)) s

/-- The bits of a view write are put in place: whole words are cleared first, and the bits that change count as touched. -/
def putBitsAt (s : State) (whole : List Nat) (bits : List (Nat × Nat × Bool)) (changed : List (Nat × Nat)) : State :=
  touch (bits.foldl (fun s p => setDramByte s p.1 (setBit (dramByte s p.1) p.2.1 p.2.2)) (whole.foldl clearWord s)) changed

/-- A view write that met an error: every sector of the words concerned is poisoned, with one entry for the first that was merged (R58). -/
def poisonWords (s : State) (words merged : List Nat) (addr : Nat) : State :=
  let s := (words.map (fun w => [2 * w, 2 * w + 1])).flatten.foldl writePoison s
  match merged with
  | [] => s
  | w :: _ => poisonEntry s (2 * w) (tget s.mem.poisonRefused (2 * w) 0) { cls := 0x03, port := 7, addr := addr }

/-- A view write by the re-planer (R58): every column word it changes is written whole. Words that it does not cover are read and merged first;
when a read meets an error, no word is written, every sector of every word concerned is poisoned, and one MEM_POISON entry with tag 0
is made. The status says whether the merge was made. `v0` is the view offset from which the bytes' places count. A covered word whose bits stay
as they are is not changed (log entry 141, DESIGN CHOICE). -/
def viewWriteBack (s : State) (r : Region) (v0 addr : Nat) (bytes : List (Nat × Byte)) : W16 × State :=
  let puts := (bytes.map (fun p => viewPut r (viewByte s r (v0 + p.1)) p.2)).flatten
  let changed := puts.filter (fun p => (dramByte s p.1).getLsbD p.2.1 != p.2.2 || (secErr s (p.1 / 32)).poison)
  let words := (changed.map (fun p => p.1 / 64)).eraseDups
  let whole := words.filter (wordWhole s r puts)
  let merged := words.filter (fun w => decide (w ∉ whole))
  let (st, s) := checkSectors s ((merged.map (fun w => [2 * w, 2 * w + 1])).flatten) hfRq addr false
  if st = stOk then
    let written := changed.filter (fun p => decide (p.1 / 64 ∈ merged)) ++ puts.filter (fun p => decide (p.1 / 64 ∈ whole))
    (st, putBitsAt s whole written (changed.map (fun p => (p.1, p.2.1))))
  else (st, poisonWords s words merged addr)

end Sys2Proof.Machine
end

