-- ==== Sys2Proof/Machine/HomeSlice.lean ====
section
/-! DEFINITION. The home slices (R15, R139, R154): lines with valid, dirty and poison bits, fills, write-backs, and the reads and writes
of sectors that every requester's access to device memory is made of. -/
namespace Sys2Proof.Machine

/-! ## Lines -/

/-- The place of a line in its slice: 256 × slice + set (R154). -/
def lineSet (s : State) (ln : Nat) : Nat := 256 * homeSlice s (64 * ln) + homeSet s (64 * ln)

/-- The lines of a set, most recently served first. -/
def setLru (s : State) (k : Nat) (xs : List Nat) : State := { s with mem := { s.mem with lru := tset s.mem.lru k xs [] } }

/-- A line becomes its set's most recently served. -/
def touchLine (s : State) (ln : Nat) : State :=
  let k := lineSet s ln
  setLru s k (ln :: (tget s.mem.lru k []).filter (· ≠ ln))

/-- A line leaves its slice without a write-back. -/
def dropLine (s : State) (ln : Nat) : State :=
  let k := lineSet s ln
  setLru (setLine s ln CacheLine.zero) k ((tget s.mem.lru k []).filter (· ≠ ln))

/-- The 32 bytes of sector `i` of a line's data. -/
def lineSector (d : BitVec 512) (i : Nat) : List Byte := leBytes 32 (fld d (256 * i) 256)

/-! ## Write-backs -/

/-- An operation of another requester than a thread reaches a bank in which a blast is at work: it counts as held (R202), and is served in its own
step (log entry 124, DESIGN CHOICE). A thread's fill is counted as it joins its engine. -/
def countHeld (s : State) (secs : List Nat) : State :=
  match secs.map (· / 64 / 24576) |>.find? (bankBusy s) with
  | some bank => bump s (STK_NB_YIELD_COUNT (bank / 2048)) (STK_NB_TALLY_STATUS (bank / 2048)) 3 1
  | none => s

/-- The dirty sectors of a line are written to DRAM (R154), through the re-planer where the line is a view's (R58, R159); view bytes at
or beyond the view's end are ignored. A view write whose merge fails leaves the slice's sectors only as poisoned. -/
def writeLine (s : State) (ln : Nat) (data : BitVec 512) (dirty : BitVec 2) : State :=
  let a := 64 * ln
  match viewOf s a with
  | none =>
    [0, 1].foldl (fun s i =>
      if bit dirty i then writeSector s ((mapLin s (a + 32 * i)).sector) (lineSector data i) else s) s
  | some (r, v) =>
    let bytes := ([0, 1].map (fun i => if bit dirty i then
      ((List.range 32).zip (lineSector data i)).map (fun p => (32 * i + p.1, p.2)) else [])).flatten
    let (st, s) := viewWriteBack s r v a bytes
    if st = stOk then s
    else
      let c := getLine s ln
      if c = CacheLine.zero then s
      else setLine s ln { c with poison := c.poison ||| dirty, dirty := c.dirty &&& ~~~dirty }

/-- Some DRAM sector that the sector at `a` is made of lies on a held pseudo-channel (R180). -/
def sourceHeld (s : State) (a : Nat) : Bool := (sourceSectors s a).any (fun sec => pcHeld s (sec / 64 / 24576 / 32))

/-- The physical sectors that the dirty sectors of a line are made of. -/
def dirtySources (s : State) (ln : Nat) (dirty : BitVec 2) : List Nat :=
  ([0, 1].map (fun i => if bit dirty i then sourceSectors s (64 * ln + 32 * i) else [])).flatten

/-- A line's dirty sectors lie, in part, on a held pseudo-channel: their write-back waits (R180). -/
def lineHeld (s : State) (ln : Nat) (dirty : BitVec 2) : Bool := (dirtySources s ln dirty).any (fun sec => pcHeld s (sec / 64 / 24576 / 32))

/-- Operations an engine holds in flight (R160): those it has chosen among, and the write-backs in its buffer. -/
def Engine.load (e : Engine) : Nat := e.inflight.length + e.wbuf.length

/-- The write-backs an engine and its slice's queue hold, oldest first. -/
def Engine.writes (e : Engine) : List DOp := e.wbuf ++ e.sliceQ.filter (·.write)

/-- An engine accepts what its slice's queue holds, as far as it has room for it (R160). -/
def refill (e : Engine) : Engine :=
  let n := 128 - e.load
  let now := e.sliceQ.take n
  { e with inflight := e.inflight ++ now.filter (fun d => !d.write), wbuf := e.wbuf ++ now.filter (·.write), sliceQ := e.sliceQ.drop n }

/-- The write-back waiting for its DRAM that holds the sector at `a`, the youngest of them. -/
def bufferedWrite (s : State) (a : Nat) : Option DOp :=
  (getEngine s (homeSlice s a)).writes.reverse.find? (fun o => decide (o.addr / 64 = a / 64) && bit o.dirty (a / 32 % 2))

/-- An engine writes back what waits to be written, in a batch (R164); write-backs to held pseudo-channels stay (R180). -/
def drainWrites (s : State) (pc : Nat) : State :=
  let e := getEngine s pc
  let waits (o : DOp) : Bool := lineHeld s (o.addr / 64) o.dirty
  let s := setEngine s pc (refill { e with wbuf := e.wbuf.filter waits, sliceQ := e.sliceQ.filter (fun o => !o.write || waits o) })
  (e.writes.filter (fun o => !waits o)).foldl (fun s o =>
    writeLine (countHeld s (dirtySources s (o.addr / 64) o.dirty)) (o.addr / 64) o.data o.dirty) s

/-- A write-back of the engine could not be accepted: the engine holds 128 operations, its slice's queue 64, and every write-back waits for a hold
(R160, R180). -/
def engineFull (s : State) (pc : Nat) : Bool :=
  let e := getEngine s pc
  decide (128 ≤ e.load) && decide (64 ≤ e.sliceQ.length) && e.writes.all (fun o => lineHeld s (o.addr / 64) o.dirty)

/-- A line that the sector at `a` needs in its slice has no room: it is not there, its set is full, and every line that could leave is dirty and finds its
engine full. The request waits at its requester (R160). -/
def allocBlocked (s : State) (a : Nat) : Bool :=
  let xs := tget s.mem.lru (lineSet s (a / 64)) []
  decide (a / 64 ∉ xs) && decide (16 ≤ xs.length) && xs.tail.all (fun ln => decide ((getLine s ln).dirty ≠ 0)) && engineFull s (homeSlice s a)

/-- A dirty line's write-back enters its engine's write buffer of 64 entries (R164); a full buffer is drained first. While a hold keeps write-backs waiting,
up to 128 operations stand in the engine, and further ones in the slice's queue (R160, R180). -/
def queueWriteBack (s : State) (ln : Nat) (c : CacheLine) : State :=
  let pc := homeSlice s (64 * ln)
  let s := if 64 ≤ (getEngine s pc).wbuf.length then drainWrites s pc else s
  let e := getEngine s pc
  let l := mapLin s (64 * ln)
  let o : DOp :=
    { id := s.cores.nextId, write := true, bank := l.bank, row := l.row, addr := 64 * ln, op := 0, gran := 0, port := 5, urgency := 0,
      critical := false, arrived := mono s, data := c.data, dirty := c.dirty, poison := c.poison }
  setEngine s pc (if e.load < 128 then { e with wbuf := e.wbuf ++ [o] } else { e with sliceQ := e.sliceQ ++ [o] })

/-- A line leaves its slice; dirty sectors are written back (R154). -/
def evictLine (s : State) (ln : Nat) : State :=
  let c := getLine s ln
  let s := dropLine s ln
  if c.dirty = 0 then s else queueWriteBack s ln c

/-- Room for a line in its set: when 16 lines stand there, a victim leaves. The policy is open, but the line most recently served is
never the victim (R154): the victim is a free choice among the others (log entry 16, DESIGN CHOICE), the clean ones while no write-back is accepted. -/
def allocLine (s : State) (ln : Nat) : State :=
  let xs := (tget s.mem.lru (lineSet s ln) []).filter (· ≠ ln)
  let s := if 16 ≤ xs.length then
      let free := xs.tail.filter (fun l => !engineFull s (homeSlice s (64 * ln)) || decide ((getLine s l).dirty = 0))
      let ys := if free = [] then xs.tail else free
      let (i, s) := drawBelow s ys.length
      evictLine s (ys.getD i 0)
    else s
  touchLine s ln

/-- A line is written back and stays valid (R201); a hold keeps it dirty (R180). -/
def flushLine (s : State) (ln : Nat) : State :=
  let c := getLine s ln
  let pc := homeSlice s (64 * ln)
  let s := drainWrites s pc
  if c.dirty = 0 ∨ lineHeld s ln c.dirty then s
  else writeLine (setLine s ln { c with dirty := 0 }) ln c.data c.dirty

/-! ## Fills -/

/-- The bytes of a view sector as the re-planer delivers them, with the status of the column-word sectors they come from (R57, R159).
Bytes at or beyond the view's end read as zero. -/
def viewSectorFetch (s : State) (r : Region) (v a : Nat) (rq : Rq) : W16 × List Byte × State :=
  let vbs := (List.range 32).map (fun i => viewByte s r (v + i))
  let (st, s) := checkSectors s ((vbs.map ViewByte.sectors).flatten.eraseDups) rq a true
  (st, vbs.map (viewByteValue s r), s)

/-- A sector fetched from DRAM: its status and bytes. A sector that waits in the write buffer is served from it (R164). -/
def fetchSector (s : State) (a : Nat) (rq : Rq) : W16 × List Byte × State :=
  match bufferedWrite s a with
  | some o => (stOk, lineSector o.data (a / 32 % 2), s)
  | none =>
    let s := if rq.port = 0 then s else countHeld s (sourceSectors s a)
    match viewOf s a with
    | some (r, v) => viewSectorFetch s r v (a / 32 * 32) rq
    | none =>
      let sec := (mapLin s a).sector
      let (st, s) := checkSector s sec rq a true
      (st, sectorBytes s sec, s)

/-- Sector `i` of a line takes 32 bytes. -/
def putSector (c : CacheLine) (i : Nat) (bs : List Byte) : CacheLine :=
  { c with data := setFld c.data (256 * i) 256 (leNat bs), valid := c.valid ||| (1#2 <<< i) }

/-- Operations of a stack's engines in flight (R160, STKn_INFLIGHT). -/
def stackInflight (s : State) (stack : Nat) : Nat :=
  ((s.mem.engines.filter (fun e => e.1 / 64 == stack)).map (fun e => e.2.load)).foldl (· + ·) 0

/-- The physical sector that a POISONED sector of a slice is counted under (R173): the first of its sectors that is poisoned in DRAM. -/
def badSector (s : State) (a : Nat) : Nat :=
  let xs := sourceSectors s a
  (xs.find? (fun x => (secErr s x).poison)).getD (xs.headD (mapLin s a).sector)

/-- The sector at `a` is present in its home slice afterwards, or has given the status returned (R154, R172): MEM_UNCORRECTABLE and
POISONED set the sector's poison bit. -/
def fillSector (s : State) (a : Nat) (rq : Rq) : W16 × State :=
  let ln := a / 64
  let i := a / 32 % 2
  let c := getLine s ln
  if bit c.valid i then
    let s := touchLine s ln
    if bit c.poison i then (stPoisoned, poisonRefusal s (badSector s a) rq a) else (stOk, s)
  else
    let s := allocLine s ln
    let (st, bs, s) := fetchSector s a rq
    let c := putSector (getLine s ln) i bs
    let c := if st = stOk then c else { c with poison := c.poison ||| (1#2 <<< i) }
    (st, setLine s ln c)

/-- A read of the sector would miss and wait for a hold (R180, R181), or for room in its slice. A sector in the slice or in a write buffer is served. -/
def readHeld (s : State) (a : Nat) : Bool :=
  !bit (getLine s (a / 64)).valid (a / 32 % 2) && ((bufferedWrite s a).isNone && sourceHeld s a || allocBlocked s a)

/-! ## Reads and writes of one sector, in the slice's order (R139) -/

/-- A read of the sector at `a`: zeroed data unless the status is OK. -/
def sliceRead (s : State) (a : Nat) (rq : Rq) : W16 × List Byte × State :=
  let (st, s) := fillSector s a rq
  if st = stOk then (st, lineSector (getLine s (a / 64)).data (a / 32 % 2), s) else (st, List.replicate 32 0, s)

/-- Bytes written into a sector: `i`-th byte replaced where the mask has a bit. -/
def mergeBytes (old new : List Byte) (mask : BitVec 32) : List Byte :=
  (List.range 32).map (fun i => if bit mask i then new.getD i 0 else old.getD i 0)

/-- The status that a refusal by R225 or R451 gives its requester (R358): a host access gets none. -/
def refusedStatus (rq : Rq) : Nat := if rq.port = 3 then 0 else stBadParam.toNat

/-- R451: the write would store 0xFF in a block scale of an FP4 view. -/
def scaleRefused (s : State) (a : Nat) (new : List Byte) (mask : BitVec 32) : Bool :=
  match viewOf s (a / 32 * 32) with
  | some (r, v) => r.fp4 && (List.range 32).any (fun i =>
      bit mask i && decide (new.getD i 0 = 0xFF) && (match viewByte s r (v + i) with | .scale _ => true | _ => false))
  | none => false

/-- A write of the masked bytes of the sector at `a` (R139, R154, R172, R451): a whole sector needs no read and clears poison; part of a
sector that is not present fetches it first, and is not performed where the sector is bad. -/
def sliceWrite (s : State) (a : Nat) (new : List Byte) (mask : BitVec 32) (rq : Rq) : W16 × State :=
  let ln := a / 64
  let i := a / 32 % 2
  if mask = 0 then (stOk, s)
  else if scaleRefused s a new mask then
    (stBadParam, logErr s { cls := 0x35, port := rq.port, tag := rq.tag.toNat, subtag := rq.subtag.toNat, status := refusedStatus rq, addr := a / 32 * 32,
                            detail := rq.port, ex0 := 1 })
  else
    let whole := decide (mask = BitVec.allOnes 32)
    let (st, s) := if whole then (stOk, allocLine s ln) else fillSector s a rq
    if st ≠ stOk then (st, s)
    else
      let c := getLine s ln
      let bs := if whole then new else mergeBytes (lineSector c.data i) new mask
      let bs := match viewOf s (a / 32 * 32) with
        | some (r, v) => ((List.range 32).zip bs).map (fun p => viewNormal r (viewByte s r (v + p.1)) p.2)
        | none => bs
      let c := putSector c i bs
      (stOk, setLine s ln { c with dirty := c.dirty ||| (1 <<< i), poison := c.poison &&& ~~~(1#2 <<< i) })

/-! ## Runs of bytes -/

/-- The sectors that `n` bytes from `a` touch, by their first address. -/
def sectorsOf (a n : Nat) : List Nat :=
  if n = 0 then [] else (List.range ((a + n - 1) / 32 - a / 32 + 1)).map (fun k => 32 * (a / 32 + k))

/-- `n` bytes read from `a`, sector by sector; the first status other than OK is kept. -/
def devRead (s : State) (a n : Nat) (rq : Rq) : W16 × List Byte × State :=
  let (st, bs, s) := (sectorsOf a n).foldl (fun (st, bs, s) x =>
    let (st', b, s) := sliceRead s x rq
    (if st = stOk then st' else st, bs ++ b, s)) (stOk, [], s)
  (st, (bs.drop (a % 32)).take n, s)

/-- Bytes written from `a`, sector by sector; the first status other than OK is kept. -/
def devWrite (s : State) (a : Nat) (bs : List Byte) (rq : Rq) : W16 × State :=
  (sectorsOf a bs.length).foldl (fun (st, s) x =>
    let new := (List.range 32).map (fun i => if a ≤ x + i then bs.getD (x + i - a) 0 else 0)
    let mask : BitVec 32 := (List.range 32).foldl (fun (m : BitVec 32) i =>
      if a ≤ x + i ∧ x + i < a + bs.length then m ||| (1#32 <<< i) else m) 0
    let (st', s) := sliceWrite s x new mask rq
    (if st = stOk then st' else st, s)) (stOk, s)

/-- A read of `n` bytes from `a` would wait for a hold (R180). -/
def devHeld (s : State) (a n : Nat) : Bool := (sectorsOf a n).any (readHeld s)

/-- A write of `n` bytes from `a` would wait for a hold: whole sectors are absorbed by their lines, the others are fetched first (R180). -/
def devWriteHeld (s : State) (a n : Nat) : Bool :=
  (sectorsOf a n).any (fun x => (decide (x < a) || decide (a + n < x + 32)) && readHeld s x || allocBlocked s x)

/-- A little-endian number read or written. -/
def devReadNat (s : State) (a n : Nat) (rq : Rq) : W16 × Nat × State :=
  let (st, bs, s) := devRead s a n rq
  (st, leNat bs, s)

/-- The reserve of the session and model tables: the top 8 row sets (R225). -/
def inReserve (s : State) (a : Nat) : Bool := decide (memBytes s ≤ a + 8 * rowSetBytes s) && decide (a < memBytes s)

/-- An access refused by R225 makes one ADDRESS entry (R359). -/
def addressRefused (s : State) (rq : Rq) (a : Nat) : State :=
  logErr s { cls := 0x35, port := rq.port, tag := rq.tag.toNat, subtag := rq.subtag.toNat, status := refusedStatus rq, addr := a, detail := rq.port, ex0 := 0 }

end Sys2Proof.Machine
end

