-- ==== Sys2Proof/Machine/TraceOps.lean ====
section
/-! DEFINITION. The trace unit's records (R446, R447). -/
namespace Sys2Proof.Machine

/-- An event is selected by its number, its partition and its tag (R445). -/
def traceSelected (s : State) (ev part : Nat) (tag : W32) : Bool :=
  let m := rd s TRACE_TAG_MASK
  nbit (rf s TRACE_CTRL 0 1) 0 && nbit (rf s TRACE_EVENTS 0 16) ev && nbit (rf s TRACE_EVENTS 16 16) part
    && decide (tag &&& m = rd s TRACE_TAG &&& m)

/-- A selected event writes its 32-byte record into the ring as a Headframe request, then counts it; in STOP mode a record that would
overwrite another is not written, EN is cleared and STOPPED set (R446). -/
def traceEvent (s : State) (ev : Nat) (tag : W32) (subtag part source aux arg0 arg1 : Nat) : State :=
  if traceSelected s ev part tag then
    let n := (rd64 s TRACE_RECORDS).toNat
    let size := 2 ^ rf s TRACE_BUF_SIZE 0 6
    if rf s TRACE_CTRL 1 1 = 1 ∧ size / 32 ≤ n then wf (wf s TRACE_CTRL 0 1 0) TRACE_CTRL 2 1 1
    else
      let rec32 : BitVec 256 := pack 256 [(0, 64, now s), (64, 32, tag.toNat), (96, 16, subtag), (112, 8, ev), (120, 4, part),
        (128, 16, source), (144, 8, aux), (160, 32, arg0), (192, 64, arg1)]
      let (_, s) := devWrite s ((rd64 s TRACE_BUF_BASE).toNat + 32 * n % size) (bytesOf rec32) hfRq
      bump s TRACE_RECORDS TRACE_TALLY_STATUS 0 1
  else s

end Sys2Proof.Machine
end

