-- ==== Sys2Proof/Machine/FabricOps.lean ====
section
/-! DEFINITION. The Level transport's sending side (R314 to R317, R323 to R331): node and peers, usable sub-ports, flows, the transmission of
packets, and the completion of what they carry. -/
namespace Sys2Proof.Machine

/-! ## Node, peers, ports -/

/-- The N8's node number (R314); 0xFFFF names no node. -/
def nodeNum (s : State) : Nat := rf s FAB_NODE 0 16
def epoch (s : State) : W16 := BitVec.ofNat 16 (rf s FAB_NODE 16 16)

/-- A node field names the N8 itself (R314). -/
def isLocalNode (s : State) (n : Nat) : Bool := n == 0 || (n == nodeNum s && n != 0xFFFF)

/-- A node-block field, a zero taking its default (R316). -/
def nodeFld (s : State) (lo len dflt : Nat) : Nat := let v := fld s.fab.node lo len; if v = 0 then dflt else v
def pathsOf (s : State) : Nat := fld s.fab.node 384 8 + 1
def mtuOf (s : State) : Nat := nodeFld s 400 16 9000
def opTimeoutNs (s : State) : Nat := nodeFld s 480 16 20 * 1000000
def rtoMinNs (s : State) : Nat := nodeFld s 496 16 30 * 1000
def reorderNs (s : State) : Nat := nodeFld s 512 16 4000

/-- The block of a peer named by PEER_SET (R317). -/
def peerOf (s : State) (n : Nat) : Option Line := tfind s.fab.peers n

/-- The partner's node number (R380), 0xFFFF when none. -/
def twinNode (s : State) : Nat := rf s TWIN_STATE 16 16

/-- The twin state (R380): 0 SOLO, 1 PAIRING, 2 PAIRED, 3 DETACHING. -/
def twinState (s : State) : Nat := rf s TWIN_STATE 0 2

/-- A node has no peer entry and is not the twin; 0xFFFF names no node (R314, R331, R339). -/
def noPeer (s : State) (n : Nat) : Bool := (peerOf s n).isNone && (n != twinNode s || n == 0xFFFF)

/-- The largest payload of a DATA packet to a peer (R318). -/
def largestPayload (s : State) (peer : Nat) : Nat :=
  let v4 := match peerOf s peer with | some b => bit b 192 | none => false
  min 4096 ((mtuOf s - 72 - (if v4 then 20 else 40)) / 64 * 64)

/-- Sub-port j of port k is up (R341). -/
def subUp (s : State) (k j : Nat) : Bool := nbit (rf s (FAB_PORT_LINK k) 2 8) j

/-- A port's rate per sub-port, bits per second (R310). -/
def subRate (s : State) (k : Nat) : Nat :=
  match rf s (FAB_PORT_LINK k) 0 2 with | 1 => 1600000000000 | 2 => 800000000000 | 3 => 200000000000 | _ => 0

/-- Sub-ports of a mode (R310). -/
def modeSubs (m : Nat) : Nat := match m with | 1 => 1 | 2 => 2 | 3 => 8 | _ => 0

/-- A port's rate in each direction, bits per second. -/
def portRate (s : State) (k : Nat) : Nat := modeSubs (rf s (FAB_PORT_LINK k) 0 2) * subRate s k

/-- The usable sub-ports of a peer in a class, as 8k + j in ascending order (R328). Traffic to the twin goes on the twin port while it is up; class TWIN uses
no other, the other classes the twin's fabric sub-ports otherwise (R339; log entry 149, DEDUCED). -/
def usable (s : State) (peer cls : Nat) : List Nat :=
  if peer = twinNode s ∧ peer ≠ 0xFFFF ∧ subUp s 4 0 then [32]
  else if cls = 2 then []
  else match peerOf s peer with
    | none => []
    | some b => (List.range 32).filter (fun n => decide (n / 8 < ports s) && bit b (160 + n) && subUp s (n / 8) (n % 8))

/-- The sub-port a path sends on (R328). -/
def pathSub (s : State) (peer cls path : Nat) : Option Nat :=
  let u := usable s peer cls
  if u = [] then none else u[path % u.length]?

/-! ## Flows -/

/-- A flow at power-up (R323, R324). -/
def Flow.fresh (peer cls : Nat) : Flow :=
  { peer := peer, cls := cls, incarn := 0, next := 0, rcv := 0, doneP := 0, sent := [], waitq := [], peerEpoch := 0, srtt := 0,
    rttvar := 0, rto := 0, lastAdvance := 0, rate := none, alpha := 0, lastCut := 0, ai := 10000000000, quiet := 0,
    eceSeen := false, nextPath := 0, quarantine := [], rxPair := none, rxRcv := 0, rxDone := 0, rxHave := [], rxPerf := [], rxHeld := [],
    rxHigh := 0, rxEce := 0, rxCount := 0, ackDue := false, waitResp := [], latest := 0, noPath := none }

def isFlow (peer cls : Nat) (f : Flow) : Bool := f.peer == peer && f.cls == cls

def getFlow (s : State) (peer cls : Nat) : Flow := (s.fab.flows.find? (isFlow peer cls)).getD (Flow.fresh peer cls)

/-- A flow is replaced, or added behind the others. -/
def setFlow (s : State) (f : Flow) : State :=
  let fs := s.fab.flows
  let fs' := if fs.any (isFlow f.peer f.cls) then mapIf (isFlow f.peer f.cls) (fun _ => f) fs else fs ++ [f]
  { s with fab := { s.fab with flows := fs' } }

/-- The full packet number whose low 24 bits are `v`, as R354 sets them beside the count `base` (R322); none for one that precedes the incarnation's first. -/
def psnNear (base v : Nat) : Option Nat :=
  let d := (v + 2 ^ 24 - base % 2 ^ 24) % 2 ^ 24
  if precedes 24 v base then (if 2 ^ 24 ≤ base + d then some (base + d - 2 ^ 24) else none) else some (base + d)

/-- Every flow notes since when its peer has had no usable sub-port (R331). -/
def notePaths (s : State) : State :=
  let fs := s.fab.flows.map (fun f => { f with noPath := if usable s f.peer f.cls = [] then some (f.noPath.getD (mono s)) else none })
  { s with fab := { s.fab with flows := fs } }

/-- A frame goes onto the wire. -/
def txPush (s : State) (f : TxFrame) : State := { s with fab := { s.fab with tx := f :: s.fab.tx } }

/-! ## Outgoing frames (R312, R313, R318) -/

/-- The MAC of sub-port j of a port (R313). -/
def portMac (s : State) (k j : Nat) : BitVec 48 := BitVec.ofNat 48 (fld (tget s.fab.ports k 0) 0 48 + j)

/-- Addresses of `w` bits agree in their first `n`. -/
def samePrefix (w n a b : Nat) : Bool := a / 2 ^ (w - n) == b / 2 ^ (w - n)

/-- The address that a destination is reached through: itself on its link, else the gateway; without one, itself (R316; log entry 150, DESIGN CHOICE). -/
def throughGw (w n own gw a : Nat) : Nat := if samePrefix w n a own || gw == 0 then a else gw

/-- The next hop's address to a peer on a sub-port (R316, R317); the twin port has none (R339). -/
def nextHop (s : State) (peer sub : Nat) : Option (BitVec 128) :=
  if sub = 32 then none
  else (peerOf s peer).map (fun b =>
    let x := s.fab.node
    BitVec.ofNat 128 (if bit b 192 then throughGw 32 (fld x 328 8) (fld x 256 32) (fld x 288 32) (fld b 128 32)
      else throughGw 128 (fld x 320 8) (fld x 0 128) (fld x 128 128) (fld b 0 128)))

/-- Where a packet to a peer leaves on a sub-port, its next hop's MAC as it is resolved (R312). -/
def wireOf (s : State) (peer sub : Nat) : Wire :=
  let hop := nextHop s peer sub
  { sub := sub, hop := hop, mac := hop.bind (fun a => (s.fab.neigh.find? (fun x => x.1 == a)).map (·.2)) }

/-- Where a frame of the Level transport leaves. -/
def TxFrame.wire (f : TxFrame) : Option Wire := match f with | .data w .. => some w | .ack w .. => some w | .reset w .. => some w | _ => none

/-- A frame waits for the MAC of a next hop. -/
def awaitsHop (a : BitVec 128) (f : TxFrame) : Bool := match f.wire with | some w => w.hop == some a && w.mac.isNone | none => false

/-- The bytes in a port's transmit queue: what was handed to it, less what its rate has carried since (R300). -/
def txQueued (s : State) (k : Nat) : Nat :=
  let (n, t) := tget s.fab.txq k (0, 0)
  n - portRate s k * (mono s - t) / 8000000000

/-- Bytes join a port's transmit queue. -/
def txQueue (s : State) (k n : Nat) : State := { s with fab := { s.fab with txq := tset s.fab.txq k (txQueued s k + n, mono s) (0, 0) } }

/-- A frame of `n` bytes leaves on its sub-port; the first that finds its next hop unresolved has it asked for (R312). -/
def sendOut (s : State) (w : Wire) (f : TxFrame) (n : Nat) : State :=
  let k := w.sub / 8
  let ask : Option (BitVec 128) := match w.mac with | some _ => none | none => w.hop
  let s := match ask with
    | some a => if s.fab.tx.any (awaitsHop a) then s else txPush s (.solicit k (w.sub % 8) a (portMac s k (w.sub % 8)))
    | none => s
  txQueue (txPush s f) k n

/-- A header with every field zero. -/
def OpHeader.zero : OpHeader :=
  { kind := 0, part := 0, subtag := 0, tag := 0, addr := 0, reqPsn := 0, atype := 0, akind := 0, sem := 0, status := 0, len := 0,
    operand := 0, reserved := false }

/-! ## Token buckets (R299, R300) -/

/-- A regulator word (R302). `b` is the stack, or 8 + port. -/
def regWord (s : State) (part b : Nat) : W32 := rd s (if b < 8 then PART_STK_REG part b else PART_PORT_REG part (b - 8))

/-- The part of a bucket already spent, in 1/16 bytes: a full bucket has spent none. -/
def bucketSpent (s : State) (part b : Nat) : Nat := match tfind s.parts part with | some p => tget p.tokens b 0 | none => 0

/-- `n` bytes may leave now: the bucket covers them, or is full; or it may borrow. RATE = 0 without BORROW stops every access. -/
def bucketOpen (s : State) (part b n : Nat) (borrow : Bool) : Bool :=
  let w := regWord s part b
  let spent := bucketSpent s part b
  ((decide (0 < fld w 0 9) || bit w 9) && decide (spent + 16 * n ≤ 16384 * fld w 16 10)) || (spent == 0 && decide (0 < fld w 0 9)) || (bit w 9 && borrow)

/-- `n` bytes are charged; the bucket never falls below empty (log entry 18, DEDUCED). -/
def bucketCharge (s : State) (part b n : Nat) : State :=
  match tfind s.parts part with
  | none => s
  | some p =>
    let spent := min (16384 * fld (regWord s part b) 16 10) (tget p.tokens b 0 + 16 * n)
    { s with parts := tput s.parts part { p with tokens := tset p.tokens b spent 0 } }

/-- The bytes among local offsets whose home slice is on a stack. -/
def stackBytes (s : State) (as : List Nat) (k : Nat) : Nat := (as.filter (fun a => decide (a < memBytes s) && homeSlice s a / 64 == k)).length

/-- The bytes among `n` from local offset `a` whose home slice is on a stack. -/
def homeBytes (s : State) (a n k : Nat) : Nat :=
  sumNat ((sectorsOf a n).map (fun x => if x < memBytes s ∧ homeSlice s x / 64 = k then min (a + n) (x + 32) - max a x else 0))

/-- The buckets of the stacks that hold the home slices of `n` bytes from local offset `a` let them go (R299). -/
def rangeOpen (s : State) (part a n : Nat) : Bool :=
  (List.range (stackCount s)).all (fun k =>
    let m := homeBytes s a n k
    m == 0 || bucketOpen s part k m (decide (stackInflight s k < 2048)))

/-- `n` bytes from local offset `a` are charged to the buckets of the stacks that hold their home slices (R299). -/
def chargeRange (s : State) (part a n : Nat) : State :=
  iterate (stackCount s) (fun k s => let m := homeBytes s a n k; if m = 0 then s else bucketCharge s part k m) s

/-- The buckets of the stacks that hold bytes' home slices let them go (R299). -/
def bytesOpen (s : State) (part : Nat) (as : List Nat) : Bool :=
  (List.range (stackCount s)).all (fun k =>
    let n := stackBytes s as k
    n == 0 || bucketOpen s part k n (decide (stackInflight s k < 2048)))

/-- Bytes are charged to the buckets of the stacks that hold their home slices (R299). -/
def chargeBytes (s : State) (part : Nat) (as : List Nat) : State :=
  iterate (stackCount s) (fun k s => let n := stackBytes s as k; if n = 0 then s else bucketCharge s part k n) s

/-! ## Transmission -/

/-- Bytes of a Level packet with `n` bytes after its transport header, its outer headers included (R318, R340). -/
def levelBytes (s : State) (peer n : Nat) : Nat :=
  let v4 := match peerOf s peer with | some b => bit b 192 | none => false
  14 + (if fld s.fab.node 416 12 = 0 then 0 else 4) + (if v4 then 20 else 40) + 8 + 24 + n + 4

/-- Bytes of a DATA packet (R318). -/
def packetBytes (s : State) (peer : Nat) (x : Sent) : Nat := levelBytes s peer (40 + x.payload.length)

/-- The path a flow's next packet takes: the next unquarantined one in turn (R328). -/
def choosePath (s : State) (f : Flow) (from_ : Nat) : Nat :=
  let n := pathsOf s
  let ok (p : Nat) : Bool := !f.quarantine.any (fun q => q.1 == p && decide (mono s < q.2))
  (((List.range n).map (fun i => (from_ + i) % n)).find? ok).getD (from_ % n)

/-- The header of a flow's packets, of incarnation `incarn` (R319). -/
def txHeader (s : State) (f : Flow) (incarn : W16) : TxHeader :=
  { src := nodeNum s, dst := f.peer, cls := f.cls, retx := false, ackNow := false, syn := false, srcEpoch := epoch s, dstEpoch := f.peerEpoch, psn := 0, path := 0
    incarn := incarn }

/-- The header of a DATA packet as it is sent (R319, R324, R326). -/
def dataHeader (s : State) (f : Flow) (x : Sent) (path : Nat) (retx : Bool) : TxHeader :=
  { txHeader s f f.incarn with
    retx := retx, ackNow := x.ackNow || f.cls != 0 || x.psn + 1 == f.doneP + 2048, syn := x.psn == 0, psn := x.psn % 2 ^ 24, path := path }

/-- A DATA packet goes out on a path's sub-port (R318 to R320); a peer with none holds it (R328). -/
def sendData (s : State) (f : Flow) (x : Sent) (path : Nat) (retx : Bool) : State :=
  match pathSub s f.peer f.cls path with
  | some n =>
    let k := n / 8
    let w := wireOf s f.peer n
    let s := sendOut s w (.data w (dataHeader s f x path retx) x.op x.payload x.msg) (packetBytes s f.peer x)
    let s := bump s (FAB_PORT_TX_PKTS k) (FAB_PORT_TALLY_STATUS k) 2 1
    if retx then bump s (FAB_PORT_RETX k) (FAB_PORT_TALLY_STATUS k) 4 1 else s
  | none => s

/-- The head of a flow's waiting packets may go (R300, R323, R324, R328): a usable sub-port, room in the window, the flow's SYN
acknowledged, and tokens on the port. -/
def mayGo (s : State) (f : Flow) (x : Sent) : Bool :=
  match pathSub s f.peer f.cls (choosePath s f f.nextPath) with
  | none => false
  | some n =>
    decide (f.next < f.doneP + 2048) && (f.next == 0 || decide (0 < f.rcv)) &&
      (match x.charge with | some p => decide (4 ≤ n / 8) || bucketOpen s p (8 + n / 8) (packetBytes s f.peer x) (decide (txQueued s (n / 8) < 65536)) | none => true)

/-- A flow sends its waiting packets in order, at most `fuel` of them. -/
def pumpFlow (s : State) (peer cls fuel : Nat) : State :=
  match fuel with
  | 0 => s
  | n + 1 =>
    let f := getFlow s peer cls
    match f.waitq with
    | [] => s
    | x :: rest =>
      if mayGo s f x then
        let path := choosePath s f f.nextPath
        let x := { x with psn := f.next, path := path, sentAt := mono s, firstAt := mono s }
        let s := match x.charge, pathSub s peer cls path with
          | some p, some sub => if sub / 8 < 4 then bucketCharge s p (8 + sub / 8) (packetBytes s peer x) else s
          | _, _ => s
        let f' := { f with next := f.next + 1, waitq := rest, sent := f.sent ++ [x], nextPath := (path + 1) % pathsOf s }
        let f' := if f.sent.all (·.received) then { f' with lastAdvance := mono s } else f'
        pumpFlow (sendData (setFlow s f') f' x path false) peer cls n
      else s

def pump (s : State) (peer cls : Nat) : State := pumpFlow s peer cls (getFlow s peer cls).waitq.length

/-- A packet waits behind a flow's others. -/
def enqueue (s : State) (peer cls : Nat) (op : OpHeader) (payload : List Byte) (owner : PktOwner) (charge : Option Nat) (ackNow : Bool)
    (msg : Option TwinMsg) : State :=
  let f := getFlow s peer cls
  let x : Sent := { psn := 0, op := op, payload := payload, ackNow := ackNow, path := 0, sentAt := 0, firstAt := mono s, resent := false,
                    received := false, answered := false, failed := none, heldAt := none, owner := owner, charge := charge, msg := msg }
  setFlow s { f with waitq := f.waitq ++ [x], noPath := if usable s peer cls = [] then some (f.noPath.getD (mono s)) else none }

/-- A packet enters a flow. -/
def levelSend (s : State) (peer cls : Nat) (op : OpHeader) (payload : List Byte) (owner : PktOwner) (charge : Option Nat)
    (ackNow : Bool) : State :=
  pump (enqueue s peer cls op payload owner charge ackNow none) peer cls

/-- The class of what goes to the twin: TWIN while the twin port has link, else MGMT over the fabric (R375). -/
def twinCls (s : State) : Nat := if subUp s 4 0 then 2 else 3

/-- A message joins what goes to the twin under a number (R375). -/
def twinEnqueue (s : State) (m : TwinMsg) (owner : PktOwner) : State := enqueue s (twinNode s) (twinCls s) OpHeader.zero [] owner none true (some m)

/-- A message goes to the twin. -/
def twinPost (s : State) (m : TwinMsg) (owner : PktOwner) : State := pump (twinEnqueue s m owner) (twinNode s) (twinCls s)

/-- Runs of consecutive addresses, none longer than `lim` or across a 4 KiB boundary. -/
def addrRuns (xs : List Nat) (lim : Nat) : List (Nat × Nat) :=
  (xs.foldl (fun (acc : List (Nat × Nat)) a =>
    match acc with
    | (b, n) :: r => if b + n = a ∧ n < lim ∧ a % 4096 ≠ 0 then (b, n + 1) :: r else (a, 1) :: (b, n) :: r
    | [] => [(a, 1)]) []).reverse

/-! ## Completion -/

/-- The severity of a status, most severe first (R196): its place in the order of the rule; where a status stands that the rule does not
list is log entry 19 (DESIGN CHOICE). -/
def severity (st : W16) : Nat :=
  match st.toNat with
  | 0x0300 => 9 | 0x0205 => 8 | 0x0101 => 7 | 0x0103 => 6 | 0x0200 => 5 | 0x0203 => 4 | 0x0202 => 3 | 0x0201 => 2 | 0x0001 => 1 | _ => 0

/-- The more severe of two statuses. -/
def worse (a b : W16) : W16 := if severity a < severity b then b else a

/-- A request that another node answers: GET, ATOMIC, COMMAND (R321). -/
def answeredKind (k : Byte) : Bool := k == 5 || k == 6 || k == 7

/-- The FABRIC entry of a failed operation at its sender (R331, R359). -/
def logFabric (s : State) (port : Nat) (peer cls : Nat) (op : OpHeader) (st : W16) (detail : W32) : State :=
  let u := usable s peer cls
  let k := match u with | n :: _ => n / 8 | [] => 0
  let subs := u.foldl (fun a n => if n / 8 = k then a + 2 ^ (n % 8) else a) 0
  logErr s { cls := 0x20, port := port, subtag := op.subtag.toNat, tag := op.tag.toNat, status := st.toNat, addr := op.addr.toNat,
             loc := locF k peer subs, detail := detail.toNat }

/-- Bytes put into a vector value from byte `off`. -/
def putBytesV (v : VReg) (off : Nat) (bs : List Byte) : VReg :=
  (List.range bs.length).foldl (fun v i => if off + i < 256 then setFld v (8 * (off + i)) 8 (bs.getD i 0).toNat else v) v

/-- Some packet of an operation still waits or is on its way. -/
def pktOpen (s : State) (o : PktOwner) : Bool :=
  s.fab.flows.any (fun f => f.waitq.any (fun x => decide (x.owner = o)) || f.sent.any (fun x => decide (x.owner = o) && !x.answered))

def modOp (s : State) (id : Nat) (f : MemOp → MemOp) : State :=
  let os := mapIf (fun o => decide (o.id = id)) f s.cores.ops
  { s with cores := { s.cores with ops := os } }

def modMove (s : State) (id : Nat) (f : Move → Move) : State :=
  let ms := mapIf (fun m => decide (m.id = id)) f s.hoists.moves
  { s with hoists := { s.hoists with moves := ms } }

def modTier (s : State) (id : Nat) (f : TierGot → TierGot) : State :=
  match tfind s.fab.tiers id with
  | some g => { s with fab := { s.fab with tiers := tput s.fab.tiers id (f g) } }
  | none => s

/-- The twin itself has refused an item: no time-out, and no reset of its flow or its peer entry (R331, R375). -/
def twinRefuses (st : W16) (detail : W32) : Bool := decide (st ≠ 0x0202) && decide (fld detail 16 8 ≠ 0x05) && decide (fld detail 16 8 ≠ 0x06)

/-- A packet's operation has completed, with a status and the data of its response (R88, R331, R332, R334). An item for the twin that was lost with its flow is
sent again, while the two modules are paired or pairing (log entry 151, DESIGN CHOICE). -/
def pktComplete (s : State) (x : Sent) (peer cls : Nat) (st : W16) (detail : W32) (data : List Byte) (operand : W64) : State :=
  let s := if st = 0x0203 ∨ st = 0x0202 then
      logFabric s (match x.owner with | .op _ => 0 | .move _ | .tier _ => 1 | _ => 5) peer cls x.op st detail
    else s
  let s := if st = 0x0202 then bump s FAB_TIMEOUTS FAB_TALLY_STATUS 0 1 else s
  match x.owner with
  | .op id => modOp s id (fun o =>
      let res := if x.op.kind = 6 then putBytesV o.res 0 (leBytes 8 operand.toNat)
        else putBytesV o.res (offOf x.op.addr - offOf o.addr) data
      { o with res := res, status := if o.status = 0 then st else o.status })
  | .move id => modMove s id (fun m =>
      { m with status := worse m.status st, timedOut := m.timedOut || decide (st = 0x0202),
               got := if st = 0 ∧ x.op.kind = 5 then
                   (List.range data.length).foldl (fun t i => tput t (x.op.addr.toNat + i) (data.getD i 0)) m.got
                 else m.got })
  | .tier id => modTier s id (fun g =>
      { g with status := worse g.status st
               bytes := if st = 0 ∧ x.op.kind = 5 then
                   (List.range data.length).foldl (fun t i => tput t (x.op.addr.toNat + i) (data.getD i 0)) g.bytes
                 else g.bytes })
  | .twin id =>
    if st = 0 then s
    else if twinRefuses st detail then { s with twin := { s.twin with refused := id :: s.twin.refused } }
    else match decide (twinState s = 1) || decide (twinState s = 2), x.msg with
      | true, some m => twinEnqueue s m (.twin id)
      | _, _ => s
  | .none => s

/-- Operations all of whose packets are complete become done. -/
def settleOps (s : State) : State :=
  let ops := s.cores.ops.map (fun o => if o.node ≠ 0 ∧ o.todo = [] ∧ !o.done ∧ !pktOpen s (.op o.id) then { o with done := true } else o)
  { s with cores := { s.cores with ops := ops } }

/-- A flow is reset on the sender's side (R324): every outstanding operation completes with a status, the incarnation rises, and the
flow starts anew. Responses are no operations. -/
def flowResetBy (s : State) (peer cls : Nat) (st : W16) (detail : Sent → W32) : State :=
  let f := getFlow s peer cls
  let xs := (f.sent ++ f.waitq).filter (fun x => !x.answered && decide (x.op.kind.toNat < 0x80))
  let s := setFlow s { f with incarn := f.incarn + 1, next := 0, rcv := 0, doneP := 0, sent := [], waitq := [], rto := 0, srtt := 0, rttvar := 0,
                              waitResp := [], latest := 0 }
  let s := bump s FAB_RESETS FAB_TALLY_STATUS 1 1
  settleOps (xs.foldl (fun s x => pktComplete s x peer cls st (detail x) [] 0) s)

/-- A reset for which every operation has the same detail. -/
def flowReset (s : State) (peer cls : Nat) (st : W16) (detail : W32) : State := flowResetBy s peer cls st (fun _ => detail)

end Sys2Proof.Machine
end

