-- ==== Sys2Proof/Machine/HostMem.lean ====
section
/-! DEFINITION. Host memory behind the host window (R315), and the local ranges of a Level address (R87, R314, R315). -/
namespace Sys2Proof.Machine

/-- The status of a local access that the host port returned an error for (R331, R455). -/
abbrev stRemote : W16 := 0x0203
abbrev stTimeout : W16 := 0x0202

def hostByte (s : State) (a : Nat) : Byte := tget s.host.mem a 0
def setHostByte (s : State) (a : Nat) (b : Byte) : State := { s with host := { s.host with mem := tset s.host.mem a b 0 } }

/-- `n` bytes read from host memory; with the host link down the host port returns an error and zeros. -/
def hostRead (s : State) (a n : Nat) : W16 × List Byte :=
  if s.host.linkUp then (stOk, (List.range n).map (fun i => hostByte s (a + i))) else (stRemote, List.replicate n 0)

/-- Bytes written to host memory. -/
def hostWrite (s : State) (a : Nat) (bs : List Byte) : W16 × State :=
  if s.host.linkUp then (stOk, iterate bs.length (fun i s => setHostByte s (a + i) (bs.getD i 0)) s) else (stRemote, s)

/-- The ranges of the local offset space (R315). -/
inductive Range
  | device
  | scratch
  | sems
  | image
  | window
  | none
deriving DecidableEq, Repr

/-- The range that holds `n` bytes from an offset, `mem` bytes being device memory and `cores` the virtual cores (R315). -/
def rangeOf (mem cores off n : Nat) : Range :=
  if off + n ≤ mem then .device
  else if 0x20000000000 ≤ off ∧ off + n ≤ 0x20000000000 + cores * 0x20000 then .scratch
  else if 0x30000000000 ≤ off ∧ off + n ≤ 0x30000080000 then .sems
  else if 0x40000000000 ≤ off ∧ off + n ≤ 0x40004000000 then .image
  else if 0x80000000000 ≤ off ∧ off + n ≤ 0x100000000000 then .window
  else .none

/-- The range of a local offset of this N8. -/
def localRange (s : State) (off n : Nat) : Range := rangeOf (memBytes s) (gradeCores s) off n

/-- The range an offset has at another node: a sender knows no grade and judges by the largest (R315). -/
def remoteRange (off n : Nat) : Range := rangeOf 0xC000000000 4096 off n

/-- Some byte of `n` bytes from an offset lies in the row sets of R225. -/
def touchesReserve (s : State) (off n : Nat) : Bool := decide (0 < n) && (inReserve s off || inReserve s (off + n - 1))

/-- Scratchpad bytes of a virtual core. -/
def scratchByte (s : State) (v i : Nat) : Byte := tget s.cores.scratch (131072 * v + i) 0
def setScratchByte (s : State) (v i : Nat) (b : Byte) : State :=
  { s with cores := { s.cores with scratch := tset s.cores.scratch (131072 * v + i) b 0 } }
def scratchRead (s : State) (v off n : Nat) : List Byte := (List.range n).map (fun i => scratchByte s v (off + i))
def scratchWrite (s : State) (v off : Nat) (bs : List Byte) : State :=
  iterate bs.length (fun i s => setScratchByte s v (off + i) (bs.getD i 0)) s

/-- Bytes read at a local Level offset by the Headframe or a hoist: device memory or the host window. -/
def localRead (s : State) (off n : Nat) (rq : Rq) : W16 × List Byte × State :=
  match localRange s off n with
  | .device => devRead s off n rq
  | .window => let (st, bs) := hostRead s (off - 0x80000000000) n; (st, bs, s)
  | .scratch => (stOk, scratchRead s ((off - 0x20000000000) / 131072) (off % 131072) n, s)
  | _ => (stBadParam, List.replicate n 0, s)

/-- Bytes written at a local Level offset. -/
def localWrite (s : State) (off : Nat) (bs : List Byte) (rq : Rq) : W16 × State :=
  match localRange s off bs.length with
  | .device => devWrite s off bs rq
  | .window => hostWrite s (off - 0x80000000000) bs
  | .scratch => (stOk, scratchWrite s ((off - 0x20000000000) / 131072) (off % 131072) bs)
  | _ => (stBadParam, s)

end Sys2Proof.Machine
end

