-- ==== Sys2Proof/Machine/Flags.lean ====
section
/-! DEFINITION. The exception flags of a thread (R126) and the conditions that raise them. -/
namespace Sys2Proof.Machine

/-- The flags register: NX, UF, OF, DZ, IV, SA from bit 0 (R126). -/
abbrev Flg := BitVec 6

def fNone : Flg := 0
def fNX : Flg := 1
def fUF : Flg := 2
def fOF : Flg := 4
def fDZ : Flg := 8
def fIV : Flg := 16
def fSA : Flg := 32

/-- A flag raised when a condition holds. -/
def fIf (c : Bool) (f : Flg) : Flg := if c then f else fNone

/-- The conditions of a rounded floating-point result (R38, R126): underflow is a subnormal or zero result that is inexact; inexact is
raised where rounding changed the value, on overflow too. -/
def roundFlags (past tiny inexact : Bool) : Flg :=
  fIf past fOF ||| fIf (!past && tiny && inexact) fUF ||| fIf inexact fNX

/-- The flags of several results, by OR (R127). -/
def orFlags (fs : List Flg) : Flg := fs.foldl (fun a b => a ||| b) fNone

end Sys2Proof.Machine
end

