-- ==== Sys2Proof/Machine/Numbers.lean ====
section
/-! DEFINITION. Number formats and arithmetic (R28 to R46): exact values, decoding, rounding, conversion, block scales and near-bank codes. -/
namespace Sys2Proof.Machine

/-! ## Formats -/

/-- Width in bits of a format code (R28); 0 for a reserved code. -/
def fmtBits (f : Nat) : Nat := [32, 16, 16, 8, 8, 6, 6, 4, 8, 4, 32].getD f 0

/-- Elements of a vector register (R106). -/
def fmtN (f : Nat) : Nat := [64, 128, 128, 256, 256, 256, 256, 512, 256, 512, 64].getD f 0

def fmtInt (f : Nat) : Bool := f == 8 || f == 9 || f == 10

/-- Formats that may carry a block scale (R28). -/
def fmtScalable (f : Nat) : Bool := decide (3 ≤ f) && decide (f ≤ 8)

/-- Exponent and mantissa widths, bias, code of the largest finite value, and whether there are infinities and NaNs (R29). -/
structure FFmt where
  e : Nat
  m : Nat
  bias : Int
  maxCode : Nat
  hasInf : Bool
  nan : Option Nat
deriving DecidableEq, Repr

def ffmt (f : Nat) : FFmt :=
  match f with
  | 0 => { e := 8, m := 23, bias := 127, maxCode := 0x7F7FFFFF, hasInf := true, nan := some 0x7FC00000 }
  | 1 => { e := 5, m := 10, bias := 15, maxCode := 0x7BFF, hasInf := true, nan := some 0x7E00 }
  | 2 => { e := 8, m := 7, bias := 127, maxCode := 0x7F7F, hasInf := true, nan := some 0x7FC0 }
  | 3 => { e := 4, m := 3, bias := 7, maxCode := 0x7E, hasInf := false, nan := some 0x7F }
  | 4 => { e := 5, m := 2, bias := 15, maxCode := 0x7B, hasInf := true, nan := some 0x7E }
  | 5 => { e := 3, m := 2, bias := 3, maxCode := 0x1F, hasInf := false, nan := none }
  | 6 => { e := 2, m := 3, bias := 1, maxCode := 0x1F, hasInf := false, nan := none }
  | _ => { e := 2, m := 1, bias := 1, maxCode := 0x7, hasInf := false, nan := none }

/-! ## Exact values -/

/-- A value: NaN, an infinity, or (−1)^neg × mag × 2^exp, which keeps the sign of a zero. -/
inductive FVal
  | nan
  | inf (neg : Bool)
  | fin (neg : Bool) (mag : Nat) (exp : Int)
deriving DecidableEq, Repr

def FVal.zero : FVal := .fin false 0 0

/-- An integer's value. -/
def FVal.ofInt (i : Int) : FVal := .fin (decide (i < 0)) i.natAbs 0

/-- 2^k as a factor on a value. -/
def FVal.scale (v : FVal) (k : Int) : FVal :=
  match v with
  | .fin n m e => .fin n m (e + k)
  | w => w

def FVal.neg (v : FVal) : FVal :=
  match v with
  | .nan => .nan
  | .inf n => .inf (!n)
  | .fin n m e => .fin (!n) m e

def FVal.isNan (v : FVal) : Bool := match v with | .nan => true | _ => false

/-- The value of an element's code (R29 to R32). -/
def decodeF (f code : Nat) : FVal :=
  if fmtInt f then .ofInt (sxt (fmtBits f) code)
  else
    let p := ffmt f
    let neg := nbit code (p.e + p.m)
    let ex := code / 2 ^ p.m % 2 ^ p.e
    let m := code % 2 ^ p.m
    let a := code % 2 ^ (p.e + p.m)
    if p.hasInf ∧ ex = 2 ^ p.e - 1 then (if m = 0 then .inf neg else .nan)
    else if p.nan = some a then .nan
    else if ex = 0 then .fin neg m (1 - p.bias - p.m)
    else .fin neg (2 ^ p.m + m) ((ex : Int) - p.bias - p.m)

/-- floor(log2) of a nonzero number. -/
def ilog2 (n : Nat) : Nat := Nat.log2 n

/-- A finite value as a signed multiple of 2^−300 or a smaller power (the exact sums of R111 need no more): mag × 2^(exp + k). -/
def shl2 (m : Nat) (k : Int) : Nat := if 0 ≤ k then m * 2 ^ k.toNat else m / 2 ^ (-k).toNat

/-- The order of two values that are no NaN: −1, 0 or 1; zeros are equal (R30). -/
def FVal.cmp (a b : FVal) : Int :=
  let key (v : FVal) (e0 : Int) : Int :=
    match v with
    | .fin n m e => if n then -(shl2 m (e - e0) : Int) else (shl2 m (e - e0) : Int)
    | _ => 0
  match a, b with
  | .inf true, .inf true => 0
  | .inf false, .inf false => 0
  | .inf true, _ => -1
  | _, .inf true => 1
  | .inf false, _ => 1
  | _, .inf false => -1
  | .fin n m e, .fin n' m' e' =>
    let e0 := min e e'
    let x := key (.fin n m e) e0
    let y := key (.fin n' m' e') e0
    if x < y then -1 else if x = y then 0 else 1
  | _, _ => 0

/-- A exact sum, with IEEE's rules for specials and the sign of an exact zero under round to nearest; the Bool is the invalid operation. -/
def FVal.add (a b : FVal) : FVal × Bool :=
  match a, b with
  | .nan, _ => (.nan, false)
  | _, .nan => (.nan, false)
  | .inf n, .inf n' => if n = n' then (.inf n, false) else (.nan, true)
  | .inf n, _ => (.inf n, false)
  | _, .inf n => (.inf n, false)
  | .fin n m e, .fin n' m' e' =>
    let e0 := min e e'
    let x : Int := if n then -(shl2 m (e - e0) : Int) else (shl2 m (e - e0) : Int)
    let y : Int := if n' then -(shl2 m' (e' - e0) : Int) else (shl2 m' (e' - e0) : Int)
    let z := x + y
    if z = 0 then (.fin (n && n') 0 0, false) else (.fin (decide (z < 0)) z.natAbs e0, false)

/-- The exact product; the Bool is the invalid operation. -/
def FVal.mul (a b : FVal) : FVal × Bool :=
  match a, b with
  | .nan, _ => (.nan, false)
  | _, .nan => (.nan, false)
  | .inf n, .inf n' => (.inf (n != n'), false)
  | .inf n, .fin n' m _ => if m = 0 then (.nan, true) else (.inf (n != n'), false)
  | .fin n m _, .inf n' => if m = 0 then (.nan, true) else (.inf (n != n'), false)
  | .fin n m e, .fin n' m' e' => (.fin (n != n') (m * m') (e + e'), false)

/-! ## Rounding -/

/-- A magnitude in units of 2^u: mag × 2^exp, a little more where `sticky`. Round to nearest even, or with the draw `r` of 65,536ths
(R36, R37). The Bool says that rounding changed the value. -/
def roundUnits (mag : Nat) (exp u : Int) (sticky : Bool) (rnd : Option Nat) : Nat × Bool :=
  if u ≤ exp then (mag * 2 ^ (exp - u).toNat, sticky)
  else
    let d := (u - exp).toNat
    let n := mag / 2 ^ d
    let rem := mag % 2 ^ d
    let inexact := rem != 0 || sticky
    match rnd with
    | none =>
      let half := 2 ^ (d - 1)
      let up := decide (half < rem) || (decide (rem = half) && (sticky || n % 2 == 1))
      (if up then n + 1 else n, inexact)
    | some r => ((mag * 65536 + r * 2 ^ d) / (65536 * 2 ^ d), inexact)

/-- The exponent of one unit in the last place of a format at a nonzero magnitude (R29, R37). -/
def ulpExp (p : FFmt) (mag : Nat) (exp : Int) : Int := max ((ilog2 mag : Int) + exp) (1 - p.bias) - p.m

/-- The code of `n` units of 2^u, without its sign; codes beyond `maxCode` mean overflow. -/
def unitsCode (p : FFmt) (n : Nat) (u : Int) : Nat :=
  let (n, u) := if 2 ^ (p.m + 1) ≤ n then (n / 2, u + 1) else (n, u)
  if n < 2 ^ p.m then n else (u + p.m + p.bias).toNat * 2 ^ p.m + (n - 2 ^ p.m)

/-- A nonzero finite magnitude rounded to a format: its code, and whether it overflowed, is subnormal or zero, and is inexact. Rounding
happens before the range check (R38). -/
def roundMag (p : FFmt) (mag : Nat) (exp : Int) (sticky : Bool) (rnd : Option Nat) : Nat × Bool × Bool × Bool :=
  let u := ulpExp p mag exp
  let (n, inexact) := roundUnits mag exp u sticky rnd
  let c := unitsCode p n u
  (c, decide (p.maxCode < c), decide (n < 2 ^ p.m), inexact)

/-- A value converted to a floating-point format (R38): code and conditions. -/
def toFloat (f : Nat) (v : FVal) (sticky : Bool) (sat : Bool) (rnd : Option Nat) : Nat × Flg :=
  let p := ffmt f
  let s (neg : Bool) : Nat := if neg then 2 ^ (p.e + p.m) else 0
  let infCode := (2 ^ p.e - 1) * 2 ^ p.m
  match v with
  | .nan => match p.nan with
    | some c => (c, fNone)
    | none => (0, fIV)
  | .inf neg =>
    if p.hasInf then (s neg + (if sat then p.maxCode else infCode), fNone) else (s neg + p.maxCode, fIV)
  | .fin neg mag exp =>
    if mag = 0 then (s neg, fNone)
    else
      let (c, past, tiny, inexact) := roundMag p mag exp sticky rnd
      if past then (s neg + (if p.hasInf && !sat then infCode else p.maxCode), roundFlags true false inexact)
      else (s neg + c, roundFlags false tiny inexact)

/-- A value converted to an integer format (R38): code and conditions. A fraction that it rounds away raises inexact (log entry 110, DEDUCED). -/
def toInt (f : Nat) (v : FVal) (rnd : Option Nat) : Nat × Flg :=
  let w := fmtBits f
  let lo : Int := -(2 ^ (w - 1) : Int)
  let hi : Int := 2 ^ (w - 1) - 1
  match v with
  | .nan => (0, fIV)
  | .inf neg => (toCode w (if neg then lo else hi), fIV)
  | .fin neg mag exp =>
    let (n, inexact) := roundUnits mag exp 0 false rnd
    let i : Int := if neg then -(n : Int) else n
    let nx := fIf inexact fNX
    if i < lo then (toCode w lo, nx ||| fIV) else if hi < i then (toCode w hi, nx ||| fIV) else (toCode w i, nx)

/-- A value converted to any format (R38). -/
def convert (f : Nat) (v : FVal) (sat : Bool) (rnd : Option Nat) : Nat × Flg :=
  if fmtInt f then toInt f v rnd else toFloat f v false sat rnd

/-- An arithmetic result: rounded once, to nearest even, without saturation (R36). -/
def arith (f : Nat) (v : FVal) : Nat × Flg := toFloat f v false false none

/-! ## Square roots and quotients -/

/-- The integer square root, bit by bit from bit `k`. -/
def isqrtFrom (k n : Nat) (r : Nat) : Nat :=
  match k with
  | 0 => r
  | k + 1 => let t := r + 2 ^ k; isqrtFrom k n (if t * t ≤ n then t else r)

def isqrt (n : Nat) : Nat := isqrtFrom (Nat.log2 n / 2 + 1) n 0

/-- The square root of mag × 2^exp with `bits` or more significant bits: root, exponent, and whether it is not exact. -/
def sqrtMag (mag : Nat) (exp : Int) (bits : Nat) : Nat × Int × Bool :=
  let k := 2 * bits + b2n (decide (exp % 2 ≠ 0))
  let m := mag * 2 ^ k
  let r := isqrt m
  (r, (exp - k) / 2, r * r != m)

/-- A quotient with 64 or more significant bits: quotient, exponent, and whether it is not exact. -/
def divMag (a : Nat) (ea : Int) (b : Nat) (eb : Int) : Nat × Int × Bool :=
  let k := 64 + Nat.log2 b + 1
  let n := a * 2 ^ k
  (n / b, ea - eb - k, n % b != 0)

/-! ## Generator (R37, R124) -/

/-- One draw: three xorshift steps of the 32-bit state (R124). -/
def xorshift (s : W32) : W32 :=
  let s := s ^^^ (s <<< 13)
  let s := s ^^^ (s >>> 17)
  s ^^^ (s <<< 5)

/-- The draw r of stochastic rounding in 65,536ths: a free function of the generator's state (log entry 17, DESIGN CHOICE). -/
def drawR (s : W32) : Nat := (Config.stochastic s).toNat

/-! ## Block scales (R33 to R35) -/

/-- floor(log2) of a nonzero finite magnitude. -/
def flog2 (mag : Nat) (exp : Int) : Int := (ilog2 mag : Int) + exp

/-- An element's value under a block scale code (R33). -/
def scaledValue (f : Nat) (v : FVal) (c : Nat) : FVal :=
  if c = 0xFF then .nan else v.scale ((c : Int) - 127 - (if f = 8 then 6 else 0))

/-- emax of R35. -/
def emax (f : Nat) : Int := [0, 0, 0, 8, 15, 4, 2, 2, 0].getD f 0

/-- The largest magnitude among finite values; none where every one is zero. -/
def amax (vs : List FVal) : Option (Nat × Int) :=
  vs.foldl (fun acc v =>
    match v with
    | .fin _ m e =>
      if m = 0 then acc
      else match acc with
        | none => some (m, e)
        | some (m', e') => if FVal.cmp (.fin false m' e') (.fin false m e) < 0 then some (m, e) else acc
    | _ => acc) none

/-- The scale code of a block of source values for a destination format (R35). -/
def blockScale (f : Nat) (vs : List FVal) : Nat :=
  if vs.any FVal.isNan then 0xFF
  else match amax vs with
    | none => 0
    | some (m, e) => (clampI (-127) 127 (flog2 m e - emax f) + 127).toNat

/-- A value divided by a block scale and converted (R35): an infinity saturates, whatever SAT and whatever the scale, and is invalid; any
other element under the scale 0xFF is a NaN; the range saturates. -/
def toScaled (f : Nat) (v : FVal) (c : Nat) (rnd : Option Nat) : Nat × Flg :=
  match v with
  | .inf _ => ((convert f v true rnd).1, fIV)
  | _ =>
    if c = 0xFF then convert f .nan true rnd
    else convert f (v.scale (127 - (c : Int) + (if f = 8 then 6 else 0))) true rnd

/-! ## Near-bank codes (R42) -/

/-- The shared exponent byte of a block and its conditions, for INT16 (`wide`) or INT8 codes. -/
def nbExp (wide : Bool) (vs : List FVal) : Nat × Flg :=
  match amax vs with
  | none => (0, fNone)
  | some (m, e) =>
    let x := flog2 m e - (if wide then 14 else 6) + 127
    if 254 < x then (254, fOF) else if x < 0 then (0, fUF) else (x.toNat, fNone)

/-- The activation code of a value under a shared exponent byte, and its conditions. -/
def nbCode (wide : Bool) (v : FVal) (x : Nat) (rnd : Option Nat) : Nat × Flg :=
  let w := if wide then 16 else 8
  let bound : Nat := if wide then 32767 else 127
  let sign (neg : Bool) (n : Nat) : Nat := toCode w (if neg then -(n : Int) else n)
  match v with
  | .nan => (0, fIV)
  | .inf neg => (sign neg bound, fIV)
  | .fin neg m e =>
    let (n, inexact) := roundUnits m (e + 127 - x) 0 false rnd
    if n ≤ bound then (sign neg n, fIf inexact fNX)
    else
      let beyond := decide (FVal.cmp (.fin false (bound + 1) 0) (.fin false m (e + 127 - x)) ≤ 0)
      (sign neg bound, fNX ||| fIf beyond fOF)

/-! ## Near-bank accumulation (R40, R44, R46) -/

/-- The contribution of a block sum under k (R44): shifted left, shifted right toward minus infinity, or zero. -/
def nbFold (sum k : Int) : Int :=
  if 0 ≤ k then sum * 2 ^ k.toNat
  else if -31 ≤ k then sum / (2 ^ (-k).toNat : Int)
  else 0

/-- A saturating 32-bit accumulation with a sticky bit (R46). -/
def nbAdd (acc : Int) (sat : Bool) (x : Int) : Int × Bool :=
  if sat then (acc, true)
  else
    let y := acc + x
    if y < -2147483648 then (-2147483648, true) else if 2147483647 < y then (2147483647, true) else (y, false)

end Sys2Proof.Machine
end

