-- ==== Sys2Proof/Machine/Operands.lean ====
section
/-! DEFINITION. The parts of a bundle and its operands: header and slot fields (R78 to R91), operand codes, registers and queues (R75 to
R77), skips (R97 to R99), and the state of a bundle in the middle of its issue (R80). -/
namespace Sys2Proof.Machine

/-! ## Bundle fields -/

/-- The slot is present (R78): 0 control, 1 address, 2 matrix, 3 vector. -/
def Bundle.has (b : Bundle) (slot : Nat) : Bool := bit b.header slot
def Bundle.serial (b : Bundle) : Bool := bit b.header 4
/-- The header's reserved bits (R78). -/
def Bundle.reserved (b : Bundle) : Nat := fld b.header 5 3
/-- Length in bytes (R79). -/
def Bundle.len (b : Bundle) : Nat :=
  1 + 4 * b2n (Bundle.has b 0) + 8 * b2n (Bundle.has b 1) + 6 * b2n (Bundle.has b 2) + 6 * b2n (Bundle.has b 3)
/-- The opcode of a slot. -/
def Bundle.op (b : Bundle) (slot : Nat) : Nat :=
  match slot with
  | 0 => fld b.ctl 0 8
  | 1 => fld b.adr 0 8
  | 2 => fld b.mtx 0 8
  | _ => fld b.vec 0 8

/-! ## Jobs and queues -/

/-- The job whose range holds a virtual core and which runs there (R71). -/
def jobAt (s : State) (vcore : Nat) : Option Job :=
  s.cores.jobs.find? (fun j => decide (j.state ≠ .waiting) && decide (j.vfirst ≤ vcore) && decide (vcore < j.vfirst + j.vcount))

/-- A job's record is replaced by its image. -/
def modJob (s : State) (id : Nat) (f : Job → Job) : State :=
  let js := mapIf (fun x => decide (x.id = id)) f s.cores.jobs
  { s with cores := { s.cores with jobs := js } }

/-- Fields of a queue map entry (R74). -/
def qDepth (j : Job) (q : Nat) : Nat := fld (tget j.qmap q 0) 0 12
def qWide (j : Job) (q : Nat) : Bool := bit (tget j.qmap q 0) 12
def qShared (j : Job) (q : Nat) : Bool := bit (tget j.qmap q 0) 13

/-- The entries of queue `q` as thread `t` sees it: its own, or its core's where SHARED (R74). -/
def getQ (s : State) (j : Job) (t : Tid) (q : Nat) : List QEntry :=
  if qShared j q then tget s.cores.shq (16 * t.vcore + q) [] else tget (getThread s t).q q []

def setQ (s : State) (j : Job) (t : Tid) (q : Nat) (xs : List QEntry) : State :=
  if qShared j q then { s with cores := { s.cores with shq := tset s.cores.shq (16 * t.vcore + q) xs [] } }
  else let th := getThread s t; setThread s t { th with q := tset th.q q xs [] }

/-! ## A bundle in issue -/

/-- What a slot comes to: an effect, a skip with reason and detail (R97, R98), or a wait, on a queue where one is named,
to take from it or to push it (R76, R80). -/
inductive SlotRes (α : Type) where
  | ok (a : α)
  | skip (reason detail : Nat)
  | wait (w : Option QWait)

/-- A slot's continuation. -/
def SlotRes.bind {α β : Type} (x : SlotRes α) (f : α → SlotRes β) : SlotRes β :=
  match x with
  | .ok a => f a
  | .skip r d => .skip r d
  | .wait w => .wait w

/-- The state of a bundle in the middle of its issue: `th0` holds the thread's registers as they were before any slot wrote (R80), `id0` the
number of the first operation that the bundle itself issues, `wrote` the registers and queues written so far, `pops` the queues popped so far, `branch`
the target of a taken branch, `rpt` the repeat that starts. -/
structure Ev where
  s : State
  th0 : Thread
  t : Tid
  job : Job
  pc : Nat
  len : Nat
  id0 : Nat
  wrote : List Nat
  pops : List Nat
  flags : Flg
  branch : Option Nat
  rpt : Option (Nat × Nat)

/-- Keys of what a bundle writes: scalar, vector and mask registers, queues. -/
def kS (n : Nat) : Nat := n
def kV (n : Nat) : Nat := 32 + n
def kM (n : Nat) : Nat := 64 + n
def kQ (q : Nat) : Nat := 80 + q

/-- A register whose load, issued by an earlier bundle, has not yet returned (R80). -/
def pendingDest (e : Ev) (d : Dest) : Bool :=
  e.s.cores.ops.any (fun o => decide (o.t = e.t) && decide (o.id < e.id0) && decide (o.dest = d) && decide (d ≠ .none))

/-- The wait of a slot on a queue, with what the bundle has taken of it (R77, R102). An entry that the bundle itself pushes counts once its data is there. -/
def queueWait (e : Ev) (q : Nat) (push : Bool) : QWait :=
  let own := decide (kQ q ∈ e.wrote) && !(getQ e.s e.job e.t q).any (fun x => (x.pending.map (fun id => decide (e.id0 ≤ id))).getD false)
  { slot := 0, q := q, push := push, taken := (e.pops.filter (· == q)).length - b2n own }

/-- The queue an operand code names must exist and have the slot's width (R75): otherwise ABSENT_QUEUE. -/
def queueOk (e : Ev) (wide : Bool) (q : Nat) : Bool := decide (0 < qDepth e.job q) && (qWide e.job q == wide)

/-- A source operand code names something that exists (R75). -/
def srcCheck (e : Ev) (wide : Bool) (code : Nat) : SlotRes Unit :=
  if code < 32 then .ok () else if queueOk e wide (code % 16) then .ok () else .skip 0x06 (code % 16)

/-- A destination operand code may be written: no peek code, an existing queue, nothing that an earlier slot of the bundle writes
(R75, R80). S0 ignores writes and conflicts with nothing (R70). -/
def dstCheck (e : Ev) (wide : Bool) (code : Nat) : SlotRes Unit :=
  if code < 32 then
    if wide then (if kV code ∈ e.wrote then .skip 0x08 code else .ok ())
    else if code ≠ 0 ∧ kS code ∈ e.wrote then .skip 0x08 code else .ok ()
  else if 48 ≤ code then .skip 0x07 (code % 16)
  else if !queueOk e wide (code % 16) then .skip 0x06 (code % 16)
  else if kQ (code % 16) ∈ e.wrote then .skip 0x08 code
  else .ok ()

/-- A source read from a queue: pop or peek; it waits while the queue is empty or its head's data has not arrived (R76). -/
def readQ (e : Ev) (code : Nat) : SlotRes (VReg × Ev) :=
  let q := code % 16
  match getQ e.s e.job e.t q with
  | [] => .wait (some (queueWait e q false))
  | x :: r =>
    if x.pending.isSome then .wait (some (queueWait e q false))
    else if 48 ≤ code then .ok (x.data, e)
    else .ok (x.data, { e with s := setQ e.s e.job e.t q r, pops := q :: e.pops })

/-- A scalar source (R75): register values are those before the bundle; S0 reads as zero. -/
def readS (e : Ev) (code : Nat) : SlotRes (W64 × Ev) :=
  if code < 32 then
    if code = 0 then .ok (0, e)
    else if pendingDest e (.sreg code) then .wait none
    else .ok (tget e.th0.s code 0, e)
  else (readQ e code).bind (fun (v, e) => .ok (v.setWidth 64, e))

/-- A vector source (R75). -/
def readV (e : Ev) (code : Nat) : SlotRes (VReg × Ev) :=
  if code < 32 then
    if pendingDest e (.vreg code) then .wait none else .ok (tget e.th0.v code 0, e)
  else readQ e code

/-- An entry pushed; it waits while the queue is full (R76). -/
def pushQ (e : Ev) (code : Nat) (x : QEntry) : SlotRes Ev :=
  let q := code % 16
  let xs := getQ e.s e.job e.t q
  if qDepth e.job q ≤ xs.length then .wait (some (queueWait e q true))
  else .ok { e with s := setQ e.s e.job e.t q (xs ++ [x]), wrote := kQ q :: e.wrote }

/-- A scalar register takes a value; S0 ignores it (R70). -/
def putS (s : State) (t : Tid) (n : Nat) (v : W64) : State :=
  if n = 0 then s else let th := getThread s t; setThread s t { th with s := tset th.s n v 0 }

def putV (s : State) (t : Tid) (n : Nat) (v : VReg) : State :=
  let th := getThread s t; setThread s t { th with v := tset th.v n v 0 }

def putM (s : State) (t : Tid) (n : Nat) (v : Mask) : State :=
  let th := getThread s t; setThread s t { th with m := tset th.m n v 0 }

/-- A scalar destination takes a value (R75). -/
def writeS (e : Ev) (code : Nat) (v : W64) : SlotRes Ev :=
  if code < 32 then
    if pendingDest e (.sreg code) ∧ code ≠ 0 then .wait none
    else .ok { e with s := putS e.s e.t code v, wrote := kS code :: e.wrote }
  else pushQ e code { data := v.setWidth 2048, pending := none }

/-- A vector destination takes a value (R75). -/
def writeV (e : Ev) (code : Nat) (v : VReg) : SlotRes Ev :=
  if code < 32 then
    if pendingDest e (.vreg code) then .wait none
    else .ok { e with s := putV e.s e.t code v, wrote := kV code :: e.wrote }
  else pushQ e code { data := v, pending := none }

/-- A mask register takes a value; two slots never write one. -/
def writeM (e : Ev) (n : Nat) (v : Mask) : SlotRes Ev := .ok { e with s := putM e.s e.t n v, wrote := kM n :: e.wrote }

/-- What a destination held before the bundle: a register's value, zero for a queue entry (R117, R121). -/
def oldV (e : Ev) (code : Nat) : VReg := if code < 32 then tget e.th0.v code 0 else 0

/-! ## Skips (R97 to R99) -/

/-- A saturating 32-bit count. -/
def satInc (n m : Nat) : Nat := min (n + m) (2 ^ 32 - 1)

/-- A skip is counted in SKIPS, in the job, and in its partition, and logged with the thread's sub-tag at the bundle's issue (R97, R99);
the trace unit may record it (R447). -/
def skipSlot (s : State) (j : Job) (t : Tid) (subtag : W16) (pc slot reason detail : Nat) : State :=
  let th := getThread s t
  let s := setThread s t { th with skips := BitVec.ofNat 32 (satInc th.skips.toNat 1) }
  let s := modJob s j.id (fun x => { x with skips := satInc x.skips 1 })
  let s := bump s (PART_ILL_SKIPPED j.part) (PART_TALLY_STATUS j.part) 1 1
  let s := logIll s j.tag.toNat subtag.toNat reason slot pc t detail
  traceEvent s 13 j.tag subtag.toNat j.part t.vcore t.thread reason pc

/-- The lowest nonzero reserved bit of a slot word among the bit positions listed; used for RESERVED_FIELD's detail (R98). -/
def reservedBit {w : Nat} (x : BitVec w) (ranges : List (Nat × Nat)) : Option Nat :=
  (sortBy (fun a b => decide (a < b)) ((ranges.map (fun r => (List.range r.2).map (· + r.1))).flatten)).find? (fun i => bit x i)

/-- Fields that must be zero are, and no other field holds a reserved value (R81, R84): otherwise RESERVED_FIELD at the lowest offending bit;
`held` gives the lowest bit of each field that holds a reserved value (R98). -/
def fieldCheck {w : Nat} (x : BitVec w) (ranges : List (Nat × Nat)) (held : List Nat) : SlotRes Unit :=
  match sortBy (fun a b => decide (a < b)) ((reservedBit x ranges).toList ++ held) with
  | i :: _ => .skip 0x03 i
  | [] => .ok ()

/-- Fields that must be zero are (R81, R84). -/
def zeroCheck {w : Nat} (x : BitVec w) (ranges : List (Nat × Nat)) : SlotRes Unit := fieldCheck x ranges []

/-! ## Code in memory -/

/-- The bytes of device memory as they stand, without an access: a slice's valid sector, or else DRAM. -/
def peekByte (s : State) (a : Nat) : Byte :=
  let c := getLine s (a / 64)
  let i := a / 32 % 2
  if bit c.valid i then BitVec.ofNat 8 (fld c.data (256 * i + 8 * (a % 32)) 8)
  else match bufferedWrite s a with
    | some o => BitVec.ofNat 8 (fld o.data (256 * i + 8 * (a % 32)) 8)
    | none => match viewOf s a with
      | some (r, v) => viewByteValue s r (viewByte s r v)
      | none => dramByte s (mapLin s a).key

/-- The header byte of the bundle at a code offset; the code follows the image header at byte 128 (R72). -/
def codeHeader (s : State) (j : Job) (off : Nat) : Byte := peekByte s (offOf j.image + 128 + off)

/-- The offset after `n` bundles from an offset; bytes at or beyond CODE_BYTES are never read as code (R95). -/
def codeSkip (s : State) (j : Job) (n off : Nat) : Nat :=
  match n with
  | 0 => off
  | n + 1 =>
    if j.codeBytes ≤ off then off
    else codeSkip s j n (off + Bundle.len { header := codeHeader s j off, ctl := 0, adr := 0, mtx := 0, vec := 0 })

end Sys2Proof.Machine
end

