-- ==== Sys2Proof/Machine/Address.lean ====
section
/-! DEFINITION. The address slot (R84 to R89): address and operand checks, scratchpad and host-window accesses, the operations a thread
sends to home slices and to other nodes, fences, the L1 (R134, R135) and the loop units (R92, R93). -/
namespace Sys2Proof.Machine

/-! ## Fields (R84) -/

def adrData (w : W64) : Nat := fld w 8 6
def adrAux (w : W64) : Nat := fld w 14 6
def adrLoop (w : W64) : Bool := bit w 20
def adrScratch (w : W64) : Bool := bit w 27
def adrA (w : W64) : Nat := fld w 32 8
def adrImm (w : W64) : Int := sxt 24 (fld w 40 24)

/-- The fields that must be zero for each operation (R84, R85). STV's mask register counts as used without MASK_EN too (log entry 114,
DESIGN CHOICE). -/
def adrZero (w : W64) (op : Nat) : List (Nat × Nat) :=
  let loop := if adrLoop w then [(24, 3)] else []
  let noAddr := [(14, 6), (20, 8), (28, 4), (40, 24)]
  match op with
  | 0x01 => [(14, 6), (28, 4), (36, 4)] ++ loop
  | 0x02 => [(14, 6), (28, 4), (34, 6)] ++ loop
  | 0x03 => [(14, 6), (28, 4), (32, 3), (36, 4)] ++ loop
  | 0x04 => [(14, 6), (28, 4), (35, 1), (37, 3)] ++ loop
  | 0x08 => [(28, 4)] ++ loop
  | 0x10 | 0x11 | 0x19 => [(14, 6), (28, 4), (32, 8)] ++ loop
  | 0x12 => [(28, 4), (32, 8)] ++ loop
  | 0x18 => [(8, 6)] ++ noAddr
  | 0x20 | 0x28 => [(8, 6), (14, 6), (28, 4), (34, 6)] ++ loop
  | 0x29 => noAddr ++ [(35, 5)]
  | _ => []

/-! ## Loop units (R92, R93) -/

/-- A unit's current address. -/
def LoopUnit.addr (l : LoopUnit) : W64 :=
  BitVec.ofInt 64 ((List.range l.levels).foldl (fun a k => a + ((tget l.idx k 0 : Nat) : Int) * tget l.strides k 0) (l.base.toNat : Int))

/-- The advance from level `k` on, `fuel` levels being left. -/
def LoopUnit.carry (l : LoopUnit) (k fuel : Nat) : LoopUnit :=
  match fuel with
  | 0 => l
  | n + 1 =>
    let i := tget l.idx k 0 + 1
    if i = tget l.counts k 0 then
      let l := { l with idx := tset l.idx k 0 0 }
      if k + 1 = l.levels then { l with done := true } else LoopUnit.carry l (k + 1) n
    else { l with idx := tset l.idx k i 0 }

/-- The unit advances by one (R93). -/
def LoopUnit.advance (l : LoopUnit) : LoopUnit := LoopUnit.carry l 0 l.levels

/-- The unit a loop descriptor loads (R92): all indices zero, DONE clear. -/
def LoopUnit.ofDesc (d : Line) : LoopUnit :=
  let lv := fld d 64 3
  { configured := true, base := BitVec.ofNat 64 (fld d 0 64), levels := lv,
    counts := (List.range lv).map (fun k => (k, fld d (128 + 64 * k) 32)),
    strides := ((List.range lv).map (fun k => (k, sxt 32 (fld d (160 + 64 * k) 32)))).filter (fun p => decide (p.2 ≠ 0)), idx := [], done := false }

/-- A unit that a LOOPCFG has loaded since the job started. -/
def loopOf (e : Ev) (u : Nat) : SlotRes LoopUnit :=
  match tfind e.th0.loops u with
  | some l => if l.configured then .ok l else .skip 0x09 u
  | none => .skip 0x09 u

def setLoop (e : Ev) (u : Nat) (l : LoopUnit) : Ev :=
  let th := getThread e.s e.t
  { e with s := setThread e.s e.t { th with loops := tput th.loops u l } }

/-- The access's address (R84), and the unit advanced after use where ADV is set. -/
def adrAddress (e : Ev) (w : W64) : SlotRes (W64 × Ev) :=
  if adrLoop w then
    (loopOf e (fld w 21 2)).bind fun l =>
    .ok (l.addr + w64 (adrImm w), if bit w 23 then setLoop e (fld w 21 2) l.advance else e)
  else (readS e (fld w 21 6)).bind fun (b, e) => .ok (b + w64 (adrImm w), e)
where w64 (i : Int) : W64 := BitVec.ofInt 64 i

/-- The address's source operand is one the slot may read. -/
def adrBaseCheck (e : Ev) (w : W64) : SlotRes Unit :=
  if adrLoop w then (loopOf e (fld w 21 2)).bind fun _ => .ok () else srcCheck e false (fld w 21 6)

/-! ## Where an access may go (R87) -/

/-- What an operation asks of its address. -/
inductive Use
  | loadStore
  | amo
  | semSig
  | semLocal
  | inval
  | desc
deriving DecidableEq, Repr

/-- Alignment, range and space (R87): MISALIGNED first, then SCRATCH_RANGE or ADDRESS_SPACE. -/
def adrCheck (e : Ev) (w : W64) (use : Use) (a : W64) (n align : Nat) : SlotRes Unit :=
  if a.toNat % align ≠ 0 then .skip 0x0B (a.toNat % 2 ^ 32)
  else if adrScratch w then
    if use = .loadStore ∨ use = .desc then
      (if a.toNat + n ≤ e.job.scratch then .ok () else .skip 0x0A (a.toNat % 2 ^ 32))
    else .skip 0x0C (a.toNat / 2 ^ 32)
  else
    let own := isLocalNode e.s (nodeOf a)
    let r := if own then localRange e.s (offOf a) n else remoteRange (offOf a) n
    let ok := match use with
      | .loadStore => r == .device || r == .window
      | .amo => r == .device
      | .semSig => r == .sems
      | .semLocal => own && r == .sems
      | .inval => own && (r == .device || r == .window)
      | .desc => own && r == .device
    if ok && !(own && r == .device && touchesReserve e.s (offOf a) n) then .ok () else .skip 0x0C (a.toNat / 2 ^ 32)

/-! ## The L1 (R134, R135) -/

/-- The key of a line of a core's L1. -/
def l1Key (v ln : Nat) : Nat := v * 2 ^ 42 + ln
def L1Line.zero : L1Line := { data := 0, valid := 0 }
def getL1 (s : State) (v ln : Nat) : L1Line := tget s.cores.l1 (l1Key v ln) L1Line.zero
def setL1 (s : State) (v ln : Nat) (x : L1Line) : State :=
  { s with cores := { s.cores with l1 := tset s.cores.l1 (l1Key v ln) x L1Line.zero } }

/-- The lines a core's L1 holds. -/
def l1Lines (s : State) (v : Nat) : List Nat := ((s.cores.l1.filter (fun p => p.1 / 2 ^ 42 == v)).map (fun p => p.1 % 2 ^ 42))

/-- A sector fills a line; a full L1 of 512 lines loses one, freely chosen (R70; log entry 21, DESIGN CHOICE). -/
def fillL1 (s : State) (v off : Nat) (bs : List Byte) : State :=
  let ln := off / 64
  let held := l1Lines s v
  let s := if ln ∉ held ∧ 512 ≤ held.length then
      let (i, s) := drawBelow s held.length
      setL1 s v (held.getD i 0) L1Line.zero
    else s
  let x := getL1 s v ln
  setL1 s v ln { data := setFld x.data (off / 32 % 2 * 256) 256 (leNat bs), valid := x.valid ||| (1#2 <<< (off / 32 % 2)) }

/-- The copy of the sector at an offset, if the L1 has one. -/
def l1Sector (s : State) (v off : Nat) : Option (List Byte) :=
  let x := getL1 s v (off / 64)
  if bit x.valid (off / 32 % 2) then some (leBytes 32 (fld x.data (off / 32 % 2 * 256) 256)) else none

/-- A store updates the copies there are. -/
def l1Store (s : State) (v off : Nat) (bs : List Byte) (mask : BitVec 256) : State :=
  iterate bs.length (fun i s =>
    let a := off + i
    match l1Sector s v a with
    | some _ => if bit mask i then
        let x := getL1 s v (a / 64)
        setL1 s v (a / 64) { x with data := setFld x.data (8 * (a % 64)) 8 (bs.getD i 0).toNat }
      else s
    | none => s) s

/-- The copy of a sector is invalidated. -/
def l1Drop (s : State) (v off : Nat) : State :=
  let x := getL1 s v (off / 64)
  let valid := x.valid &&& ~~~(1#2 <<< (off / 32 % 2))
  setL1 s v (off / 64) (if valid = 0 then L1Line.zero else { x with valid := valid })

/-- The whole L1 of a core is invalidated. -/
def l1Clear (s : State) (v : Nat) : State :=
  { s with cores := { s.cores with l1 := s.cores.l1.filter (fun p => p.1 / 2 ^ 42 != v) } }

/-! ## Operations in flight -/

/-- The operations that count toward the 64 of R89: a store or SEMSIG only until its home slice has performed it, or its DONE has passed. -/
def counted (o : MemOp) : Bool :=
  match o.kind with
  | .semWait => false
  | .store _ | .semSig => !o.done
  | _ => true

def opsOf (s : State) (t : Tid) : List MemOp := s.cores.ops.filter (fun o => decide (o.t = t))

/-- A new operation of the bundle's thread. -/
def newOp (e : Ev) (kind : OpKind) (a : W64) (data : VReg) (cmp : W64) (mask : BitVec 256) (dest : Dest) (todo : List Nat) (res : VReg) :
    Ev × MemOp :=
  let own := isLocalNode e.s (nodeOf a)
  let o : MemOp := {
    id := e.s.cores.nextId, t := e.t, origin := e.t, part := e.job.part, kind := kind, node := if own then 0 else nodeOf a, addr := a, data := data,
    cmp := cmp, mask := mask, dest := dest, todo := todo, res := res, status := 0, done := false, parked := false, short := false,
    tag := e.job.tag, subtag := e.th0.subtag }
  ({ e with s := { e.s with cores := { e.s.cores with ops := e.s.cores.ops ++ [o], nextId := e.s.cores.nextId + 1 } } }, o)

/-- Bytes an operation touches from its address. -/
def MemOp.span (o : MemOp) : Nat :=
  match o.kind with
  | .load n _ _ _ => n
  | .store n => n
  | .amo _ t => if t = 1 then 8 else if t = 0 ∨ t = 2 then 4 else 2
  | _ => 8

/-- The sectors an operation touches, as offsets divided by 32. -/
def MemOp.sectors (o : MemOp) : List Nat := (sectorsOf (offOf o.addr) o.span).map (· / 32)

/-- An operation's granule: the address of the sector, counted from the start of the operation's first line. -/
def MemOp.sector (o : MemOp) (g : Nat) : Nat := offOf o.addr / 64 * 64 + 32 * g

/-- The granules of the lines that `n` bytes from an offset touch. -/
def granulesOf (off n : Nat) : List Nat := List.range (2 * ((off + n - 1) / 64 + 1 - off / 64))

/-- A store or AMO of a core that its home slice has still to perform on one of the sectors listed. -/
def storePending (s : State) (v : Nat) (secs : List Nat) : Bool :=
  s.cores.ops.any (fun o => o.t.vcore == v && o.node == 0 && (match o.kind with | .store _ => true | .amo _ _ => true | _ => false) &&
    o.todo.any (fun g => decide (o.sector g ∈ secs)))

/-- Two operations touch a sector in common at one node. -/
def MemOp.overlaps (o p : MemOp) : Bool := o.node == p.node && o.sectors.any (fun x => decide (x ∈ p.sectors))

/-- The destination of a load or result: register S0 discards (R70). A queue's tail entry is reserved (R76). -/
def reserveDest (e : Ev) (wide : Bool) (code : Nat) : SlotRes (Ev × Dest) :=
  if code < 32 then
    let d : Dest := if wide then .vreg code else if code = 0 then .none else .sreg code
    if pendingDest e d then .wait none
    else .ok ({ e with wrote := (if wide then kV code else kS code) :: e.wrote }, d)
  else (pushQ e code { data := 0, pending := some e.s.cores.nextId }).bind fun e => .ok (e, .queue (code % 16))

/-- A load's value from its raw bytes (R85). -/
def loadValue (n : Nat) (signed : Bool) (res : VReg) : W64 :=
  let v := fld res 0 (8 * n)
  if signed then BitVec.ofInt 64 (sxt (8 * n) v) else BitVec.ofNat 64 v

/-- A value goes to a destination: a register, or the queue entry an operation has reserved (R76). -/
def deliver (s : State) (j : Job) (t : Tid) (d : Dest) (id : Nat) (v : VReg) : State :=
  match d with
  | .none => s
  | .sreg n => putS s t n (v.setWidth 64)
  | .vreg n => putV s t n v
  | .queue q =>
    setQ s j t q ((getQ s j t q).map (fun x => if x.pending = some id then { data := v, pending := none } else x))

/-- A thread's first memory error status is kept (R70, R88). -/
def memErr (s : State) (t : Tid) (st : W16) : State :=
  let th := getThread s t
  if st ≠ 0 ∧ th.memerr = 0 then setThread s t { th with memerr := st, memerrAt := mono s } else s

/-- A thread that has executed END has ended once nothing of it is outstanding (R73). -/
def settleEnd (s : State) (t : Tid) : State :=
  let th := getThread s t
  if th.run = .ending ∧ opsOf s t = [] then setThread s t { th with run := .ended } else s

/-! ## Operations to other nodes (R332) -/

/-- Contiguous runs of set bits among the first `n`: start and length. -/
def runsOf (mask : BitVec 256) (n : Nat) : List (Nat × Nat) :=
  ((List.range n).foldl (fun (acc : List (Nat × Nat)) i =>
    if bit mask i then
      match acc with
      | (a, l) :: r => if a + l = i then (a, l + 1) :: r else (i, 1) :: (a, l) :: r
      | [] => [(i, 1)]
    else acc) []).reverse

/-- A run cut at 4 KiB boundaries of its address (R321). -/
def cut4k (a n : Nat) : List (Nat × Nat) :=
  if n = 0 then [] else if a / 4096 = (a + n - 1) / 4096 then [(a, n)]
  else let k := 4096 - a % 4096; [(a, k), (a + k, n - k)]

/-- The packets of an operation: header and payload (R320, R321, R332). -/
def opPackets (o : MemOp) (part : Nat) : List (OpHeader × List Byte) :=
  let h : OpHeader := { OpHeader.zero with part := part, subtag := o.subtag, tag := o.tag, addr := o.addr }
  let at_ (x : Nat) : W64 := BitVec.ofNat 64 (o.node * 2 ^ 48 + x)
  match o.kind with
  | .load n _ _ _ => (cut4k (offOf o.addr) n).map (fun p => ({ h with kind := 5, addr := at_ p.1, len := p.2 }, []))
  | .store n =>
    ((runsOf o.mask n).map (fun r => (cut4k (offOf o.addr + r.1) r.2).map (fun p =>
      ({ h with kind := 1, addr := at_ p.1 }, leBytes p.2 (fld o.data (8 * (p.1 - offOf o.addr)) (8 * p.2)))))).flatten
  | .amo kind type =>
    [({ h with kind := 6, atype := type, akind := kind, operand := o.data.setWidth 64 }, if kind = 2 then bytesOf o.cmp else [])]
  | .semSig => [({ h with kind := 3, addr := 0, sem := (offOf o.addr - 0x30000000000) / 8, operand := o.data.setWidth 64 }, [])]
  | _ => []

/-- An operation that names another node is sent, unless an earlier one of its thread on the same sector is not complete (R332). With
no peer entry it completes with REMOTE_ERROR, reason NO_PEER (R331). -/
def sendOp (s : State) (id : Nat) : State :=
  match s.cores.ops.find? (fun o => decide (o.id = id)) with
  | none => s
  | some o =>
    if o.node = 0 ∨ o.todo = [] ∨ s.cores.ops.any (fun p => decide (p.t = o.t) && decide (p.id < o.id) && !p.done && MemOp.overlaps p o) then s
    else
      let part := o.part
      let s := modOp s id (fun o => { o with todo := [] })
      let ps := opPackets o part
      if noPeer s o.node then
        let h := (ps.map (·.1)).headD OpHeader.zero
        let s := logFabric s 0 o.node 1 h stRemote 0x00010101
        modOp s id (fun o => { o with done := true, status := stRemote })
      else settleOps (ps.foldl (fun s p => levelSend s o.node 1 p.1 p.2 (.op id) (some part) true) s)

/-- The operations of a thread that waited for an earlier one are tried again. -/
def retryOps (s : State) (t : Tid) : State :=
  (s.cores.ops.filter (fun o => decide (o.t = t) && decide (o.node ≠ 0) && decide (o.todo ≠ []))).foldl (fun s o => sendOp s o.id) s

/-! ## Loads and stores -/

/-- LDS and LDV after their checks: scratchpad and host window at once; L1 hits at once; the rest to the home slices or to another node. -/
def doLoad (e : Ev) (w : W64) (a : W64) (n : Nat) (signed wide nc : Bool) (code : Nat) : SlotRes Ev :=
  (reserveDest e wide code).bind fun (e, d) =>
  let id := e.s.cores.nextId
  let finish (e : Ev) (raw : VReg) : SlotRes Ev :=
    let v : VReg := if wide then raw else (loadValue n signed raw).setWidth 2048
    .ok { e with s := deliver { e.s with cores := { e.s.cores with nextId := id + 1 } } e.job e.t d id v }
  let v := e.t.vcore
  if adrScratch w then finish e (BitVec.ofNat 2048 (leNat (scratchRead e.s v a.toNat n)))
  else if !isLocalNode e.s (nodeOf a) then
    let (e, _) := newOp e (.load n signed wide nc) a 0 0 0 d [0] 0
    .ok { e with s := sendOp e.s id }
  else
    let off := offOf a
    let secs := sectorsOf off n
    let hit (x : Nat) : Option (List Byte) := if nc then none else l1Sector e.s v x
    let place (raw : VReg) (x : Nat) (bs : List Byte) : VReg :=
      (List.range 32).foldl (fun r i => if off ≤ x + i ∧ x + i < off + n then setFld r (8 * (x + i - off)) 8 (bs.getD i 0).toNat else r) raw
    let raw := secs.foldl (fun r x => match hit x with | some bs => place r x bs | none => r) (0 : VReg)
    -- the granules to fetch: the missing sectors, and where the L1 allocates the missing sectors of their lines (R134)
    let miss := secs.filter (fun x => (hit x).isNone)
    let base := off / 64 * 64
    let todo := (granulesOf off n).filter (fun g => (hit (base + 32 * g)).isNone &&
      (if nc then decide (base + 32 * g ∈ miss) else miss.any (fun x => x / 64 == (base + 32 * g) / 64)))
    if todo = [] then finish e raw
    else if localRange e.s off n = .window then
      let (st, bs) := hostRead e.s (base - 0x80000000000) (32 * (granulesOf off n).length)
      let bytes (g : Nat) : List Byte := (bs.drop (32 * g)).take 32
      let raw := todo.foldl (fun r g => place r (base + 32 * g) (bytes g)) raw
      let s := if nc ∨ st ≠ 0 then e.s else todo.foldl (fun s g => fillL1 s v (base + 32 * g) (bytes g)) e.s
      finish { e with s := memErr s e.t st } (if st = 0 then raw else 0)
    else
      let (e, _) := newOp e (.load n signed wide nc) a 0 0 0 d todo raw
      .ok e

/-- STS and STV after their checks. -/
def doStore (e : Ev) (w : W64) (a : W64) (n : Nat) (data : VReg) (mask : BitVec 256) : SlotRes Ev :=
  let v := e.t.vcore
  let bs := leBytes n (fld data 0 (8 * n))
  if adrScratch w then
    .ok { e with s := iterate n (fun i s => if bit mask i then setScratchByte s v (a.toNat + i) (bs.getD i 0) else s) e.s }
  else if !isLocalNode e.s (nodeOf a) then
    let (e, o) := newOp e (.store n) a data 0 mask .none [0] 0
    .ok { e with s := sendOp e.s o.id }
  else
    let off := offOf a
    let e := { e with s := l1Store e.s v off bs mask }
    if localRange e.s off n = .window then
      let s := iterate n (fun i s => if bit mask i then (hostWrite s (off + i - 0x80000000000) [bs.getD i 0]).2 else s) e.s
      .ok { e with s := memErr s e.t (if s.host.linkUp then 0 else stRemote) }
    else
      let todo := (granulesOf off n).filter (fun g =>
        (List.range n).any (fun k => bit mask k && decide ((off + k) / 32 * 32 = off / 64 * 64 + 32 * g)))
      -- with no byte enabled there is nothing to perform: it is complete at once
      if todo = [] then .ok e
      else let (e, _) := newOp e (.store n) a data 0 mask .none todo 0; .ok e

/-! ## The slot -/

/-- The 64 bytes a HOIST or LOOPCFG names cannot be read yet: a hold keeps them (R180), or the partition's bucket is short (R299). -/
def descWaits (e : Ev) (w : W64) (a : W64) : Bool :=
  !adrScratch w && (devHeld e.s (offOf a) 64 || !rangeOpen e.s e.job.part (offOf a) 64)

/-- The 64 bytes a HOIST or LOOPCFG names, read at its issue (R49, R85, R92) and charged (R299), and the status. -/
def readDesc (e : Ev) (w : W64) (a : W64) (port : Nat) : W16 × Line × Ev :=
  if adrScratch w then (stOk, lineOf (scratchRead e.s e.t.vcore a.toNat 64), e)
  else
    let (st, bs, s) := devRead (chargeRange e.s e.job.part (offOf a) 64) (offOf a) 64 { port := port, tag := e.job.tag, subtag := e.th0.subtag }
    (st, if st = 0 then lineOf bs else 0, { e with s := s })

/-- The hoist of a core's cluster (R150). -/
def clusterHoist (s : State) (v k : Nat) : Nat :=
  let phys := tget s.cores.vmap v 0
  4 * ((phys - 1) / 68) + k

/-- The address slot by opcode (R85). Later address-slot operations wait for a fence, for a SEMTRY or SEMWAIT in progress (R146), and at
64 outstanding operations (R89). What L1INV of the whole L1 checks, and what a LOOPCFG leaves whose descriptor read fails, are log entries 138 and 139
(DESIGN CHOICE). -/
def adrSlot (e : Ev) (w : W64) : SlotRes Ev :=
  let op := fld w 0 8
  let aux := adrA w
  if op ∉ [0x01, 0x02, 0x03, 0x04, 0x08, 0x10, 0x11, 0x12, 0x18, 0x19, 0x20, 0x28, 0x29] then .skip 0x02 op
  else if e.th0.fence.isSome || (opsOf e.s e.t).any (fun o => decide (o.kind = .semTry)) then .wait none
  else if 64 ≤ ((opsOf e.s e.t).filter counted).length ∧ op ∉ [0x11, 0x18, 0x19, 0x20, 0x28, 0x29] then .wait none
  else
  (fieldCheck w (adrZero w op) (if op = 0x18 ∧ 2 < aux then [32] else [])).bind fun _ =>
  match op with
  | 0x01 =>
    (dstCheck e false (adrData w)).bind fun _ => (adrBaseCheck e w).bind fun _ => (adrAddress e w).bind fun (a, e) =>
    (adrCheck e w .loadStore a (2 ^ (aux % 4)) (2 ^ (aux % 4))).bind fun _ =>
    doLoad e w a (2 ^ (aux % 4)) (nbit aux 2) false (nbit aux 3) (adrData w)
  | 0x02 =>
    (srcCheck e false (adrData w)).bind fun _ => (adrBaseCheck e w).bind fun _ => (readS e (adrData w)).bind fun (x, e) =>
    (adrAddress e w).bind fun (a, e) => (adrCheck e w .loadStore a (2 ^ (aux % 4)) (2 ^ (aux % 4))).bind fun _ =>
    doStore e w a (2 ^ (aux % 4)) (x.setWidth 2048) (BitVec.allOnes 256)
  | 0x03 =>
    (dstCheck e true (adrData w)).bind fun _ => (adrBaseCheck e w).bind fun _ => (adrAddress e w).bind fun (a, e) =>
    (adrCheck e w .loadStore a 256 32).bind fun _ => doLoad e w a 256 false true (nbit aux 3) (adrData w)
  | 0x04 =>
    (srcCheck e true (adrData w)).bind fun _ => (adrBaseCheck e w).bind fun _ => (readV e (adrData w)).bind fun (x, e) =>
    (adrAddress e w).bind fun (a, e) => (adrCheck e w .loadStore a 256 32).bind fun _ =>
    doStore e w a 256 x (if nbit aux 4 then (tget e.th0.m (aux % 8) 0).setWidth 256 else BitVec.allOnes 256)
  | 0x08 =>
    let kind := aux % 16
    let type := aux / 16
    let n := if type = 1 then 8 else if type = 0 ∨ type = 2 then 4 else 2
    if !(decide (type ≤ 1) && decide (kind ≤ 7) || decide (type ≤ 4) && kind == 0) then .skip 0x05 (kind + 256 * type)
    else if kind = 2 ∧ 32 ≤ adrAux w then .skip 0x07 (adrAux w % 16)
    else
      (srcCheck e false (adrData w)).bind fun _ => (dstCheck e false (adrAux w)).bind fun _ => (adrBaseCheck e w).bind fun _ =>
      (readS e (adrData w)).bind fun (x, e) =>
      (if kind = 2 then readS e (adrAux w) else .ok (0, e)).bind fun (c, e) =>
      (adrAddress e w).bind fun (a, e) => (adrCheck e w .amo a n n).bind fun _ =>
      (reserveDest e false (adrAux w)).bind fun (e, d) =>
      let e := if isLocalNode e.s (nodeOf a) then { e with s := l1Drop e.s e.t.vcore (offOf a) } else e
      let (e, o) := newOp e (.amo kind type) a (x.setWidth 2048) c 0 d [offOf a / 32 % 2] 0
      .ok { e with s := sendOp e.s o.id }
  | 0x10 =>
    (srcCheck e false (adrData w)).bind fun _ => (adrBaseCheck e w).bind fun _ => (readS e (adrData w)).bind fun (x, e) =>
    (adrAddress e w).bind fun (a, e) => (adrCheck e w .semSig a 8 8).bind fun _ =>
    let (e, o) := newOp e .semSig a (x.setWidth 2048) 0 0 .none [0] 0
    .ok { e with s := sendOp e.s o.id }
  | 0x11 =>
    (srcCheck e false (adrData w)).bind fun _ => (adrBaseCheck e w).bind fun _ => (readS e (adrData w)).bind fun (x, e) =>
    (adrAddress e w).bind fun (a, e) => (adrCheck e w .semLocal a 8 8).bind fun _ =>
    let (e, _) := newOp e .semWait a (x.setWidth 2048) 0 0 .none [0] 0
    let th := getThread e.s e.t
    -- END in the same bundle stands: the thread ends once the wait is over (R73)
    .ok (if th.run = .ending then e else { e with s := setThread e.s e.t { th with run := .semWait ((offOf a - 0x30000000000) / 8) x, semFor := 0 } })
  | 0x12 =>
    (srcCheck e false (adrData w)).bind fun _ => (dstCheck e false (adrAux w)).bind fun _ => (adrBaseCheck e w).bind fun _ =>
    (readS e (adrData w)).bind fun (x, e) => (adrAddress e w).bind fun (a, e) => (adrCheck e w .semLocal a 8 8).bind fun _ =>
    (reserveDest e false (adrAux w)).bind fun (e, d) =>
    let (e, _) := newOp e .semTry a (x.setWidth 2048) 0 0 d [0] 0
    .ok e
  | 0x18 =>
    let th := getThread e.s e.t
    .ok { e with s := setThread e.s e.t { th with fence := some (if aux = 0 then .l else if aux = 1 then .d else .h) } }
  | 0x19 =>
    (srcCheck e false (adrData w)).bind fun _ => (adrBaseCheck e w).bind fun _ => (readS e (adrData w)).bind fun (x, e) =>
    (adrAddress e w).bind fun (a, e) => (adrCheck e w .inval a 1 1).bind fun _ =>
    if x = 0 then .ok { e with s := l1Clear e.s e.t.vcore }
    else
      let lines := l1Lines e.s e.t.vcore
      let covered (ln : Nat) : Bool := decide (64 * ln < offOf a + x.toNat) && decide (offOf a < 64 * ln + 64)
      .ok { e with s := (lines.filter covered).foldl (fun s ln => setL1 s e.t.vcore ln L1Line.zero) e.s }
  | 0x20 =>
    (adrBaseCheck e w).bind fun _ => (adrAddress e w).bind fun (a, e) => (adrCheck e w .desc a 64 64).bind fun _ =>
    let h := clusterHoist e.s e.t.vcore (aux % 4)
    if 64 ≤ (e.s.hoists.queue.filter (fun m => m.hoist / 4 == h / 4 && decide (h < 256))).length then .wait none
    else
      if descWaits e w a then .wait none else
      let (st, d, e) := readDesc e w a 1
      if st ≠ 0 then .ok { e with s := memErr e.s e.t st }
      else
        let m : MoveReq := { hoist := h, desc := d, addr := a, owner := some e.t, cmd := none, part := e.job.part, unreadable := 0 }
        .ok { e with s := { e.s with hoists := { e.s.hoists with queue := e.s.hoists.queue ++ [m] } } }
  | 0x28 =>
    (adrBaseCheck e w).bind fun _ => (adrAddress e w).bind fun (a, e) => (adrCheck e w .desc a 64 64).bind fun _ =>
    -- a loop descriptor lies in the scratchpad or in LINEAR memory (R92; log entry 22, DEDUCED), and its read keeps its place behind the
    -- core's earlier stores to it (R133, R137)
    if !adrScratch w && (viewOf e.s (offOf a)).isSome then .skip 0x0C (a.toNat / 2 ^ 32)
    else if !adrScratch w && (storePending e.s e.t.vcore (sectorsOf (offOf a) 64) || descWaits e w a) then .wait none else
    let (st, d, e) := readDesc e w a 0
    let lv := fld d 64 3
    -- a failed read sets MEMERR and leaves the unit as it was (log entry 139, DESIGN CHOICE)
    if st ≠ 0 then .ok { e with s := memErr e.s e.t st } else
    match reservedBit d [(67, 61)] with
    | some i => .skip 0x03 i
    | none =>
      if lv < 1 ∨ 6 < lv ∨ (List.range lv).any (fun k => fld d (128 + 64 * k) 32 == 0) then .skip 0x09 (aux % 4)
      else .ok (setLoop e (aux % 4) (LoopUnit.ofDesc d))
  | _ =>
    (dstCheck e false (adrData w)).bind fun _ => (loopOf e (aux % 4)).bind fun l =>
    let e := if nbit aux 2 then setLoop e (aux % 4) l.advance else e
    writeS e (adrData w) l.addr

/-! ## Performing granules at the home slices (R139) -/

/-- The new value of an AMO (R86): kind, type, old value, operand, compare value. -/
def amoNew (kind type old x c : Nat) : Nat :=
  let n := if type = 1 then 64 else if type = 0 ∨ type = 2 then 32 else 16
  let x := x % 2 ^ n
  match kind with
  | 0 => if type ≤ 1 then (old + x) % 2 ^ n
    else
      let f := if type = 2 then 0 else if type = 3 then 1 else 2
      (arith f ((decodeF f old).add (decodeF f x)).1).1
  | 1 => x
  | 2 => if old = c % 2 ^ n then x else old
  | 3 => if sxt n x < sxt n old then x else old
  | 4 => if sxt n old < sxt n x then x else old
  | 5 => (BitVec.ofNat 64 old &&& BitVec.ofNat 64 x).toNat
  | 6 => (BitVec.ofNat 64 old ||| BitVec.ofNat 64 x).toNat
  | _ => (BitVec.ofNat 64 old ^^^ BitVec.ofNat 64 x).toNat

/-- The AMO at a local offset, as one access of its home slice: the status and the old value (R86, R139). -/
def amoAt (s : State) (off kind type x c : Nat) (rq : Rq) : W16 × Nat × State :=
  let n := if type = 1 then 8 else if type = 0 ∨ type = 2 then 4 else 2
  let (st, bs, s) := sliceRead s (off / 32 * 32) rq
  if st ≠ 0 then (st, 0, s)
  else
    let old := leNat ((bs.drop (off % 32)).take n)
    let new := amoNew kind type old x c
    if kind = 2 ∧ old ≠ c % 2 ^ (8 * n) then (stOk, old, s)
    else
      let (st, s) := devWrite s off (leBytes n new) rq
      (st, old, s)

/-- The bytes of the sector at `a` with a store's bytes in place. -/
def MemOp.over (o : MemOp) (a : Nat) (bs : List Byte) : List Byte :=
  match o.kind with
  | .store n => (List.range 32).map (fun i =>
    let k := a + i - offOf o.addr
    if offOf o.addr ≤ a + i ∧ k < n ∧ bit o.mask k then BitVec.ofNat 8 (fld o.data (8 * k) 8) else bs.getD i 0)
  | _ => bs

/-- The granule's access is performed at its home slice: a load's bytes are taken and may fill the L1, a store's are written, an AMO
is made. The first status other than OK is the operation's. A fill holds the bytes of the core's later stores, which updated no copy as they
issued, and fills nothing that a later AMO invalidates, so that program order holds (R133, R134; log entry 55, DEDUCED). -/
def performGranule (s : State) (o : MemOp) (g : Nat) : State :=
  let rq : Rq := { port := 0, tag := o.tag, subtag := o.subtag }
  let a := o.sector g
  let off := offOf o.addr
  let fin (s : State) (st : W16) (f : MemOp → MemOp) : State :=
    modOp s o.id (fun o =>
      let left := o.todo.filter (· ≠ g)
      f { o with todo := left, done := decide (left = []), status := if o.status = 0 then st else o.status })
  match o.kind with
  | .load n _ _ nc =>
    let (st, bs, s) := sliceRead s a rq
    let later := s.cores.ops.filter (fun p => p.t.vcore == o.t.vcore && decide (o.id < p.id) && decide (p.node = 0) && decide (a / 32 ∈ p.sectors))
    let dropped := later.any (fun p => match p.kind with | .amo _ _ => true | _ => false)
    let s := if nc ∨ st ≠ 0 ∨ dropped then s else fillL1 s o.t.vcore a (later.foldl (fun bs p => p.over a bs) bs)
    fin s (if a + 32 ≤ off ∨ off + n ≤ a then 0 else st) (fun o => { o with res := (List.range 32).foldl (fun r i =>
      if off ≤ a + i ∧ a + i < off + n then setFld r (8 * (a + i - off)) 8 (bs.getD i 0).toNat else r) o.res })
  | .store n =>
    let new := (List.range 32).map (fun i => if off ≤ a + i then BitVec.ofNat 8 (fld o.data (8 * (a + i - off)) 8) else 0)
    let mask : BitVec 32 := (List.range 32).foldl (fun (m : BitVec 32) i =>
      if off ≤ a + i ∧ a + i < off + n ∧ bit o.mask (a + i - off) then m ||| (1#32 <<< i) else m) 0
    let (st, s) := sliceWrite s a new mask rq
    fin s st id
  | .amo kind type =>
    let (st, old, s) := amoAt s off kind type (o.data.setWidth 64 : W64).toNat o.cmp.toNat rq
    fin s st (fun o => { o with res := BitVec.ofNat 2048 old })
  | _ => s

end Sys2Proof.Machine
end

