-- ==== Sys2Proof/Machine/Control.lean ====
section
/-! DEFINITION. The control slot (R81 to R83): scalar arithmetic, branches, repeats, work-items and thread status. -/
namespace Sys2Proof.Machine

/-! ## Fields (R81) -/

def ctlD (w : W32) : Nat := fld w 8 6
def ctlA (w : W32) : Nat := fld w 14 6
def ctlB (w : W32) : Nat := fld w 20 6
def ctlImm12 (w : W32) : Int := sxt 12 (fld w 20 12)
def ctlImm18 (w : W32) : Nat := fld w 14 18
def ctlOff18 (w : W32) : Int := sxt 18 (fld w 14 18)
def ctlOff24 (w : W32) : Int := sxt 24 (fld w 8 24)

/-- A 64-bit word from an integer, modulo 2^64. -/
def w64 (i : Int) : W64 := BitVec.ofInt 64 i

/-- The two-operand arithmetic of R82 by opcode. -/
def aluCR (op : Nat) (a b : W64) : Option W64 :=
  let n := b.toNat % 64
  match op with
  | 0x01 => some (a + b)
  | 0x02 => some (a - b)
  | 0x03 => some (a &&& b)
  | 0x04 => some (a ||| b)
  | 0x05 => some (a ^^^ b)
  | 0x06 => some (a <<< n)
  | 0x07 => some (a >>> n)
  | 0x08 => some (a.sshiftRight n)
  | 0x09 => some (a * b)
  | 0x0A => some (BitVec.ofNat 64 (a.toNat * b.toNat / 2 ^ 64))
  | 0x0B => some (if a.toInt < b.toInt then 1 else 0)
  | 0x0C => some (if a.toNat < b.toNat then 1 else 0)
  | 0x0D => some (if a.toInt < b.toInt then a else b)
  | 0x0E => some (if a.toInt < b.toInt then b else a)
  | _ => none

/-- The immediate arithmetic of R82 by opcode. -/
def aluCI (op : Nat) (a : W64) (imm : Int) : Option W64 :=
  match op with
  | 0x11 => aluCR 0x01 a (w64 imm)
  | 0x13 => aluCR 0x03 a (w64 imm)
  | 0x14 => aluCR 0x04 a (w64 imm)
  | 0x15 => aluCR 0x05 a (w64 imm)
  | 0x16 => aluCR 0x06 a (w64 imm)
  | 0x17 => aluCR 0x07 a (w64 imm)
  | 0x18 => aluCR 0x08 a (w64 imm)
  | 0x1B => aluCR 0x0B a (w64 imm)
  | _ => none

/-- The branch conditions of R82 by opcode. -/
def branchTaken (op : Nat) (a : W64) : Option Bool :=
  match op with
  | 0x30 => some (decide (a = 0))
  | 0x31 => some (decide (a ≠ 0))
  | 0x32 => some (decide (a.toInt < 0))
  | 0x33 => some (decide (0 ≤ a.toInt))
  | _ => none

/-- A taken branch: its target must lie within the code (R95), otherwise BRANCH_RANGE. -/
def branchTo (e : Ev) (target : Int) : SlotRes Ev :=
  if 0 ≤ target ∧ target < e.job.codeBytes then .ok { e with branch := some target.toNat }
  else .skip 0x0E (toCode 32 target)

/-! ## Slot forms -/

/-- CR and CI arithmetic: sources, result, destination. -/
def ctlAlu (e : Ev) (w : W32) (op : Nat) : SlotRes Ev :=
  if op ≤ 0x0E then
    (zeroCheck w [(26, 6)]).bind fun _ => (srcCheck e false (ctlA w)).bind fun _ => (srcCheck e false (ctlB w)).bind fun _ =>
    (dstCheck e false (ctlD w)).bind fun _ => (readS e (ctlA w)).bind fun (a, e) => (readS e (ctlB w)).bind fun (b, e) =>
    match aluCR op a b with
    | some r => writeS e (ctlD w) r
    | none => .skip 0x02 op
  else
    (srcCheck e false (ctlA w)).bind fun _ => (dstCheck e false (ctlD w)).bind fun _ => (readS e (ctlA w)).bind fun (a, e) =>
    match aluCI op a (ctlImm12 w) with
    | some r => writeS e (ctlD w) r
    | none => .skip 0x02 op

/-- LI and LIH. -/
def ctlLoadImm (e : Ev) (w : W32) (high : Bool) : SlotRes Ev :=
  if high then
    (srcCheck e false (ctlD w)).bind fun _ => (dstCheck e false (ctlD w)).bind fun _ => (readS e (ctlD w)).bind fun (d, e) =>
    writeS e (ctlD w) ((d <<< 18) ||| BitVec.ofNat 64 (ctlImm18 w))
  else (dstCheck e false (ctlD w)).bind fun _ => writeS e (ctlD w) (w64 (sxt 18 (ctlImm18 w)))

/-- BEQZ, BNEZ, BLTZ, BGEZ; a target outside the code makes the slot illegal, taken or not (R95). -/
def ctlBranch (e : Ev) (w : W32) (op : Nat) : SlotRes Ev :=
  (srcCheck e false (fld w 8 6)).bind fun _ => (branchTo e (e.pc + ctlOff18 w)).bind fun _ => (readS e (fld w 8 6)).bind fun (a, e) =>
  match branchTaken op a with
  | some true => branchTo e (e.pc + ctlOff18 w)
  | some false => .ok e
  | none => .skip 0x02 op

/-- JMP and CALL. -/
def ctlJump (e : Ev) (w : W32) (link : Bool) : SlotRes Ev :=
  (branchTo e (e.pc + ctlOff24 w)).bind fun e => if link then writeS e 31 (BitVec.ofNat 64 (e.pc + e.len)) else .ok e

/-- JR. -/
def ctlJr (e : Ev) (w : W32) : SlotRes Ev :=
  (zeroCheck w [(8, 6), (20, 12)]).bind fun _ => (srcCheck e false (ctlA w)).bind fun _ => (readS e (ctlA w)).bind fun (a, e) =>
  branchTo e a.toNat

/-- A repeat (R94): NB must not be zero, a count other than zero needs one of the four entries. -/
def ctlRepeat (e : Ev) (nb count nbBit : Nat) : SlotRes Ev :=
  if nb = 0 then .skip 0x03 nbBit
  else if count ≠ 0 ∧ 4 ≤ e.th0.rpt.length then .skip 0x0D nb
  else .ok { e with rpt := some (nb, count) }

/-- The next work-item of a thread (R73): one returned again first (R369), then STATIC's or DYNAMIC's next index. The state that has
taken it. -/
def nextItem (e : Ev) : Option Nat × Ev :=
  let j := (jobAt e.s e.t.vcore).getD e.job
  let again (s : State) : State := bump s CF_REPLAY_COUNT CF_TALLY_STATUS 1 1
  let th := getThread e.s e.t
  match th.replay, j.replay with
  | some i, _ => (some i, { e with s := again (setThread e.s e.t { th with replay := none }) })
  | none, i :: r => (some i, { e with s := again (modJob e.s j.id (fun x => { x with replay := r })) })
  | none, [] =>
    if j.dynamic then
      if j.nextItem < j.wiCount then (some j.nextItem, { e with s := modJob e.s j.id (fun x => { x with nextItem := x.nextItem + 1 }) })
      else (none, e)
    else
      let th := getThread e.s e.t
      let i := (e.t.vcore - j.vfirst) * j.threads + e.t.thread + th.winext * (j.vcount * j.threads)
      let e := { e with s := setThread e.s e.t { th with winext := th.winext + 1 } }
      (if i < j.wiCount then some i else none, e)

/-- WINEXT (R73): the thread's previous item is complete, the next one is started. -/
def ctlWinext (e : Ev) (w : W32) : SlotRes Ev :=
  (zeroCheck w [(14, 18)]).bind fun _ => (dstCheck e false (ctlD w)).bind fun _ =>
  let fresh := (getThread e.s e.t).replay.isNone && decide (((jobAt e.s e.t.vcore).getD e.job).replay = [])
  let (i, e) := nextItem e
  let th := getThread e.s e.t
  let s := setThread e.s e.t { th with item := i }
  let s := if i.isSome && fresh then modJob s e.job.id (fun x => { x with started := x.started + 1 }) else s
  writeS { e with s := s } (ctlD w) (match i with | some n => BitVec.ofNat 64 n | none => BitVec.allOnes 64)

/-- END (R73): the thread executes nothing more; it ends when its outstanding operations are acknowledged. -/
def ctlEnd (e : Ev) (w : W32) : SlotRes Ev :=
  (zeroCheck w [(8, 24)]).bind fun _ =>
  let th := getThread e.s e.t
  .ok { e with s := setThread e.s e.t { th with run := .ending, item := none } }

/-- SUBTAG. -/
def ctlSubtag (e : Ev) (w : W32) : SlotRes Ev :=
  (zeroCheck w [(8, 8)]).bind fun _ =>
  let th := getThread e.s e.t
  .ok { e with s := setThread e.s e.t { th with subtag := BitVec.ofNat 16 (fld w 16 16) } }

/-- The DONE flags of the loop units (R83). -/
def doneFlags (th : Thread) : Nat :=
  (List.range 4).foldl (fun a k => a + (match tfind th.loops k with | some l => b2n l.done * 2 ^ k | none => 0)) 0

/-- STAT (R83): an item that is not listed is illegal with BAD_ITEM. -/
def ctlStat (e : Ev) (w : W32) : SlotRes Ev :=
  (zeroCheck w [(14, 6)]).bind fun _ =>
  let item := fld w 20 12
  let v : Option Nat := match item with
    | 0 => some e.th0.memerr.toNat
    | 1 => some e.th0.skips.toNat
    | 2 => some (doneFlags e.th0)
    | 3 => some e.th0.subtag.toNat
    | 4 => some e.job.tag.toNat
    | _ => none
  match v with
  | none => .skip 0x10 item
  | some n => (dstCheck e false (ctlD w)).bind fun _ => writeS e (ctlD w) (BitVec.ofNat 64 n)

/-- The control slot by opcode (R82). -/
def ctlSlot (e : Ev) (w : W32) : SlotRes Ev :=
  let op := fld w 0 8
  if (1 ≤ op ∧ op ≤ 0x0E) ∨ op = 0x11 ∨ (0x13 ≤ op ∧ op ≤ 0x18) ∨ op = 0x1B then ctlAlu e w op
  else if op = 0x20 then ctlLoadImm e w false
  else if op = 0x21 then ctlLoadImm e w true
  else if 0x30 ≤ op ∧ op ≤ 0x33 then ctlBranch e w op
  else if op = 0x34 then ctlJump e w false
  else if op = 0x35 then ctlJump e w true
  else if op = 0x36 then ctlJr e w
  else if op = 0x38 then
    (fieldCheck w [(22, 10)] (if fld w 14 8 = 0 then [14] else [])).bind fun _ => (srcCheck e false (fld w 8 6)).bind fun _ =>
    (readS e (fld w 8 6)).bind fun (a, e) => ctlRepeat e (fld w 14 8) (a.toNat % 2 ^ 32) 14
  else if op = 0x39 then ctlRepeat e (fld w 8 8) (fld w 16 16) 8
  else if op = 0x40 then ctlWinext e w
  else if op = 0x41 then ctlEnd e w
  else if op = 0x42 then ctlSubtag e w
  else if op = 0x43 then ctlStat e w
  else .skip 0x02 op

end Sys2Proof.Machine
end

