-- ==== Sys2Proof/Machine/Approx.lean ====
section
/-! DEFINITION. The exact values that the approximate operations of R118 approximate, in fixed point with 256 fraction bits, and the codes
within a number of units in the last place from them. -/
namespace Sys2Proof.Machine

/-! ## Codes around a value -/

/-- The unit in the last place of a format at a magnitude, zero included. -/
def ulpAt (p : FFmt) (mag : Nat) (exp : Int) : Int := if mag = 0 then 1 - p.bias - p.m else ulpExp p mag exp

/-- The greatest code, without sign, whose value is not above a magnitude; the code after the largest finite one stands for infinity. -/
def floorCode (p : FFmt) (mag : Nat) (exp : Int) : Nat :=
  let u := ulpAt p mag exp
  min (unitsCode p (shl2 mag (exp - u)) u) (p.maxCode + 1)

/-- The least code, without sign, whose value is not below a magnitude. -/
def ceilCode (p : FFmt) (mag : Nat) (exp : Int) : Nat :=
  let c := floorCode p mag exp
  let u := ulpAt p mag exp
  if u ≤ exp ∨ shl2 mag (exp - u) * 2 ^ (u - exp).toNat = mag then c else min (c + 1) (p.maxCode + 1)

/-- A result within `k` 65,536ths of a unit in the last place of an exact magnitude, a little above mag × 2^exp where `sticky` (R118): one
of the codes that lie so near, chosen by `pick`, and infinity for a magnitude past the largest finite code's next; code without sign, and conditions (R126). Log entry 6, DESIGN CHOICE. -/
def withinUlps (f k : Nat) (mag : Nat) (exp : Int) (sticky : Bool) (pick : Nat) : Nat × Flg :=
  let p := ffmt f
  let u := ulpAt p mag exp - 16
  let e0 := min exp u
  let m := mag * 2 ^ (exp - e0).toNat
  let d := k * 2 ^ (u - e0).toNat
  let lo := if p.maxCode < floorCode p m e0 then p.maxCode + 1 else ceilCode p (m + b2n sticky - d) e0
  let hi := floorCode p (m + d) e0
  let c := lo + pick % (hi + 1 - lo)
  let inexact := sticky || decide (FVal.cmp (decodeF f c) (.fin false m e0) ≠ 0)
  (c, roundFlags (decide (p.maxCode < c)) (decide (c < 2 ^ p.m)) inexact)

/-- A result within 1 unit in the last place (R118). -/
def within1 (f : Nat) (mag : Nat) (exp : Int) (sticky : Bool) (pick : Nat) : Nat × Flg := withinUlps f 65536 mag exp sticky pick

/-! ## Fixed point -/

/-- 1 with 256 fraction bits. -/
def fxOne : Nat := 2 ^ 256

/-- ln 2, π and 2/√π with 256 fraction bits. -/
def fxLn2 : Nat := 0xb17217f7d1cf79abc9e3b39803f2f6af40f343267298b62d8a0d175b8baafa2b
def fxPi : Nat := 0x3243f6a8885a308d313198a2e03707344a4093822299f31d0082efa98ec4e6c89
def fxErf : Nat := 0x120dd750429b6d11ae3a914fed7fd8688281341d7587cea2e7342b06199cc4161

/-- mag × 2^exp with 256 fraction bits, at most `cap`. -/
def fxOf (cap : Nat) (mag : Nat) (exp : Int) : Nat :=
  if 64 < flog2 mag exp then cap * fxOne else min (shl2 mag (exp + 256)) (cap * fxOne)

/-- `term` and the `n` terms after it of the exponential series of `r`. -/
def expSeries (r n k term : Nat) : Nat :=
  match n with
  | 0 => term
  | n + 1 => term + expSeries r n (k + 1) (term * r / fxOne / k)

/-- e^x of a fixed-point number: mantissa with 256 fraction bits, and power of two. -/
def expParts (x : Int) : Nat × Int := (expSeries (x % fxLn2).toNat 64 1 fxOne, x / fxLn2)

/-- e^−x of a fixed-point magnitude, with 256 fraction bits. -/
def expNeg (x : Nat) : Nat := let (y, k) := expParts (-x); shl2 y k

/-- The odd powers of `z` over their exponents: atanh z. -/
def atanhSeries (z n k pow : Nat) : Nat :=
  match n with
  | 0 => 0
  | n + 1 => pow / k + atanhSeries z n (k + 2) (pow * z / fxOne * z / fxOne)

/-- ln of a fixed-point number from 1 to 2. -/
def fxLn (x : Nat) : Nat := let z := (x - fxOne) * fxOne / (x + fxOne); 2 * atanhSeries z 96 1 z

/-- Terms of erf's series with positive terms: each is the one before times 2x² over the next odd number. -/
def erfSeries (x n k term : Nat) : Nat :=
  match n with
  | 0 => term
  | n + 1 => term + erfSeries x n (k + 2) (2 * (term * x / fxOne) * x / fxOne / k)

/-- erf of a fixed-point magnitude up to 8. -/
def fxErfOf (x : Nat) : Nat := erfSeries x 480 3 x * expNeg (x * x / fxOne) / fxOne * fxErf / fxOne

/-- `term` and the `n` terms after it of the sine series of `r`. -/
def sinSeries (r : Int) (n : Nat) (k : Int) (term : Int) : Int :=
  match n with
  | 0 => term
  | n + 1 => term + sinSeries r n (k + 2) (-(term * r / fxOne * r / fxOne / (k * (k + 1))))

/-- sin of a fixed-point magnitude. -/
def fxSin (x : Nat) : Int := let r : Int := x % (2 * fxPi); sinSeries r 64 2 r

/-! ## Functions -/

/-- A function of R118 on a finite operand: sign, magnitude and exponent of its value to more than 80 significant bits, and whether the
value is no rational number, so that every result is inexact. -/
def exactT (op : Nat) (neg : Bool) (m : Nat) (e : Int) : Bool × Nat × Int × Bool :=
  let x := fxOf 1024 m e
  let sx : Int := if neg then -(x : Int) else x
  match op with
  | 0x53 =>
    let r := (sx % fxOne).toNat
    (false, expSeries (r * fxLn2 / fxOne) 64 1 fxOne, sx / fxOne - 256, r != 0)
  | 0x54 => let (y, k) := expParts sx; (false, y, k - 256, m != 0)
  | 0x55 =>
    let l := ilog2 m
    let v : Int := (l + e) * fxOne + ((fxLn (m * fxOne / 2 ^ l) * fxOne / fxLn2 : Nat) : Int)
    (decide (v < 0), v.natAbs, -256, m != 2 ^ l)
  | 0x56 => let y := expNeg (2 * x); (neg, (fxOne - y) * fxOne / (fxOne + y), -256, m != 0)
  | 0x57 => let y := expNeg x; (false, (if neg then y else fxOne) * fxOne / (fxOne + y), -256, m != 0)
  | _ => (neg, fxErfOf (min x (8 * fxOne)), -256, m != 0)

/-- A result within 2 units in the last place (R118), the evaluation's own error counted as one 65,536th. -/
def within2 (op : Nat) (neg : Bool) (m : Nat) (e : Int) (pick : Nat) : Nat × Flg :=
  let (n, mag, exp, irr) := exactT op neg m e
  let (c, fl) := withinUlps 0 131073 mag exp false pick
  (c + (if n then 2 ^ 31 else 0), if irr then fl ||| fNX ||| fIf (decide (c < 2 ^ 23)) fUF else fl)

/-- A signed fixed-point bound as an FP32 code: the least value not below it, or the greatest not above. -/
def boundCode (up : Bool) (x : Int) : Nat :=
  let p := ffmt 0
  if x < 0 then 2 ^ 31 + (if up then floorCode p x.natAbs (-256) else ceilCode p x.natAbs (-256))
  else if up then ceilCode p x.natAbs (-256) else floorCode p x.natAbs (-256)

/-- SIN and COS of R118: absolute error 2^−22 up to 65,536, a value in [−1, 1] beyond; `free` is the free code that the bounds confine. -/
def sinCos (op : Nat) (neg : Bool) (m : Nat) (e : Int) (free : Nat) : Nat × Flg :=
  let near := decide (FVal.cmp (.fin false m e) (.fin false 65536 0) ≤ 0)
  let x := fxOf 65536 m e
  let c := if op = 0x5A then fxSin (x + fxPi / 2) else if neg then -(fxSin x) else fxSin x
  let d : Int := 2 ^ 234 + 2 ^ 100
  let lo : Int := if near then c - d else -(fxOne : Int)
  let hi : Int := if near then c + d else fxOne
  let v := decodeF 0 free
  let r := if v.isNan || decide (v.cmp (.fin (decide (lo < 0)) lo.natAbs (-256)) < 0) then boundCode true lo
    else if 0 < v.cmp (.fin (decide (hi < 0)) hi.natAbs (-256)) then boundCode false hi else free
  let inexact := m != 0 || decide (r % 2 ^ 31 ≠ if op = 0x5A then 0x3F800000 else 0)
  (r, roundFlags false (decide (r % 2 ^ 31 < 2 ^ 23)) inexact)

end Sys2Proof.Machine
end

