-- ==== Sys2Proof/Machine/Matrix.lean ====
section
/-! DEFINITION. The matrix slot (R90) and the matrix unit (R106 to R116): tiles, exact open groups, products, readouts. -/
namespace Sys2Proof.Machine

/-- Element `i` of a vector in a format (R106). -/
def vElem (f : Nat) (v : VReg) (i : Nat) : Nat := fld v (fmtBits f * i) (fmtBits f)

/-- Codes packed from bit 0 upward (R106). -/
def packV (f : Nat) (codes : List Nat) : VReg :=
  BitVec.ofNat 2048 (codes.foldr (fun c a => c % 2 ^ fmtBits f + 2 ^ fmtBits f * a) 0)

/-! ## Formats (R110) -/

/-- K and whether the tile is INT, for an accepted format pair. -/
def pairKind (a b : Nat) : Option (Nat × Bool) :=
  let fp8 (f : Nat) : Bool := f == 3 || f == 4
  let fp6 (f : Nat) : Bool := f == 5 || f == 6
  let nar (f : Nat) : Bool := decide (3 ≤ f) && decide (f ≤ 7)
  if (a = 1 ∧ b = 1) ∨ (a = 2 ∧ b = 2) then some (8, false)
  else if (fp8 a && nar b) || (fp8 b && nar a) then some (16, false)
  else if (fp6 a && nar b) || (fp6 b && nar a) then some (16, false)
  else if a = 7 ∧ b = 7 then some (32, false)
  else if (a = 8 ∧ (b = 8 ∨ b = 9)) ∨ (a = 9 ∧ b = 8) then some (16, true)
  else if a = 9 ∧ b = 9 then some (32, true)
  else none

/-! ## Tiles (R108, R111) -/

def Partial.zero : Partial := { num := 0, nan := false, posInf := false, negInf := false }

/-- A zero FLOAT tile with no open group (R108). -/
def Tile.zero : Tile := { isInt := false, entries := [], gk := 0, part := [] }

/-- A product added exactly to a partial sum, in units of 2^−300, or of 1 on an INT tile. -/
def Partial.addProduct (p : Partial) (isInt : Bool) (x : FVal) : Partial :=
  match x with
  | .nan => { p with nan := true }
  | .inf n => if n then { p with negInf := true } else { p with posInf := true }
  | .fin n m e =>
    let v : Int := if isInt then (shl2 m e : Int) else (shl2 m (e + 300) : Int)
    { p with num := p.num + (if n then -v else v) }

/-- What a partial sum of a FLOAT tile is worth, and the invalid condition (R113). -/
def Partial.value (p : Partial) : FVal × Bool :=
  if p.nan || (p.posInf && p.negInf) then (.nan, true)
  else if p.posInf then (.inf false, false)
  else if p.negInf then (.inf true, false)
  else (.fin (decide (p.num < 0)) p.num.natAbs (-300), false)

/-- The effect of closing a group on one entry (R111, R113): two roundings on a FLOAT tile, saturation on an INT tile. -/
def closeEntry (isInt : Bool) (entry : W32) (p : Partial) : W32 × Flg :=
  if isInt then
    let x := entry.toInt + p.num
    if x < -2147483648 then (BitVec.ofInt 32 (-2147483648), fSA)
    else if 2147483647 < x then (BitVec.ofInt 32 2147483647, fSA)
    else (BitVec.ofInt 32 x, fNone)
  else
    let (v, inv) := p.value
    let (c, fl) := arith 0 v
    let (sum, inv') := (decodeF 0 entry.toNat).add (decodeF 0 c)
    let (r, fl') := arith 0 sum
    (BitVec.ofNat 32 r, fl ||| fl' ||| fIf (inv || inv') fIV)

/-- The open group closes (R111); with GK = 0 nothing happens. -/
def closeGroup (t : Tile) : Tile × Flg :=
  if t.gk = 0 then (t, fNone)
  else
    let (es, fl) := (List.range 256).foldl (fun (acc : Tab W32 × Flg) i =>
      let (x, f) := closeEntry t.isInt (tget t.entries i 0) (tget t.part i Partial.zero)
      (tset acc.1 i x 0, acc.2 ||| f)) (t.entries, fNone)
    ({ t with entries := es, gk := 0, part := [] }, fl)

/-- Row and column scales of an MMA (R112): element `r` of A's, `c` of B's; 127 where unscaled. -/
def mmaScale (on : Bool) (scale : VReg) (byte : Nat) : Nat := if on then fld scale (8 * byte) 8 else 127

/-- The product of two elements with their scales (R111, R112). -/
def mmaProduct (fa fb a b ca cb : Nat) : FVal :=
  let v := ((decodeF fa a).mul (decodeF fb b)).1
  if ca = 0xFF ∨ cb = 0xFF then .nan else v.scale ((ca : Int) + cb - 254)

/-- An MMA on a tile (R109, R111). -/
def mmaTile (t : Tile) (k : Nat) (fa fb : Nat) (a b scale : VReg) (sa sb : Bool) : Tile × Flg :=
  let (t, fl) := if 32 < t.gk + k then closeGroup t else (t, fNone)
  let part := (List.range 256).foldl (fun (p : Tab Partial) i =>
    let r := i / 16
    let c := i % 16
    let sumd := (List.range k).foldl (fun (x : Partial) j =>
      x.addProduct t.isInt (mmaProduct fa fb (vElem fa a (r * k + j)) (vElem fb b (c * k + j))
        (mmaScale sa scale r) (mmaScale sb scale (16 + c)))) (tget p i Partial.zero)
    tset p i sumd Partial.zero) t.part
  let t := { t with part := part, gk := t.gk + k }
  if t.gk = 32 then
    let (t, fl') := closeGroup t
    (t, fl ||| fl')
  else (t, fl)

/-! ## The slot (R90, R114) -/

def mtxFmtA (w : BitVec 48) : Nat := fld w 8 4
def mtxFmtB (w : BitVec 48) : Nat := fld w 12 4
def mtxA (w : BitVec 48) : Nat := fld w 16 6
def mtxB (w : BitVec 48) : Nat := fld w 22 6
def mtxAcc (w : BitVec 48) : Nat := fld w 28 2
def mtxSA (w : BitVec 48) : Bool := bit w 30
def mtxSB (w : BitVec 48) : Bool := bit w 31
def mtxScale (w : BitVec 48) : Nat := fld w 32 6
def mtxC (w : BitVec 48) : Nat := fld w 38 6
def mtxFmtC (w : BitVec 48) : Nat := fld w 44 4

/-- A format code must not be reserved (R28): otherwise RESERVED_FORMAT. -/
def fmtCheck (f : Nat) : SlotRes Unit := if 0xB ≤ f then .skip 0x04 f else .ok ()

def getTile (e : Ev) (n : Nat) : Tile := tget e.th0.acc n Tile.zero

/-- A tile takes its new value and the bundle the flags raised. -/
def putTile (e : Ev) (n : Nat) (t : Tile) (fl : Flg) : Ev :=
  let th := getThread e.s e.t
  { e with s := setThread e.s e.t { th with acc := tset th.acc n t Tile.zero }, flags := e.flags ||| fl }

/-- MMA and MMAZ (R110 to R114). -/
def mtxMma (e : Ev) (w : BitVec 48) (zeroFirst : Bool) : SlotRes Ev :=
  let fa := mtxFmtA w
  let fb := mtxFmtB w
  let sa := mtxSA w
  let sb := mtxSB w
  let scaled := sa || sb
  (zeroCheck w ((38, 10) :: (if scaled then [] else [(32, 6)]))).bind fun _ => (fmtCheck fa).bind fun _ => (fmtCheck fb).bind fun _ =>
  match pairKind fa fb with
  | none => .skip 0x05 (fa + 256 * fb)
  | some (k, isInt) =>
    let t := getTile e (mtxAcc w)
    if (sa && (fa < 3 || 7 < fa)) || (sb && (fb < 3 || 7 < fb)) then .skip 0x05 (fa + 256 * fb)
    else if !zeroFirst && t.isInt != isInt then .skip 0x05 (fa + 256 * fb)
    else
      (srcCheck e true (mtxA w)).bind fun _ => (srcCheck e true (mtxB w)).bind fun _ =>
      (if scaled then srcCheck e true (mtxScale w) else .ok ()).bind fun _ =>
      (readV e (mtxA w)).bind fun (a, e) => (readV e (mtxB w)).bind fun (b, e) =>
      (if scaled then readV e (mtxScale w) else .ok (0, e)).bind fun (sc, e) =>
      let t := if zeroFirst then { Tile.zero with isInt := isInt } else t
      let (t, fl) := mmaTile t k fa fb a b sc sa sb
      .ok (putTile e (mtxAcc w) t fl)

/-- MZERO (R114). -/
def mtxMzero (e : Ev) (w : BitVec 48) : SlotRes Ev :=
  (zeroCheck w [(8, 20), (30, 14)]).bind fun _ => (fmtCheck (mtxFmtC w)).bind fun _ =>
  if mtxFmtC w = 10 then .ok (putTile e (mtxAcc w) { Tile.zero with isInt := true } fNone)
  else if mtxFmtC w = 0 then .ok (putTile e (mtxAcc w) Tile.zero fNone)
  else .skip 0x05 (mtxFmtC w)

/-- MWR q (R114). -/
def mtxMwr (e : Ev) (w : BitVec 48) (q : Nat) : SlotRes Ev :=
  let fa := mtxFmtA w
  (zeroCheck w [(12, 4), (22, 6), (30, 18)]).bind fun _ => (fmtCheck fa).bind fun _ =>
  if fa ≠ 0 ∧ fa ≠ 10 then .skip 0x05 fa
  else (srcCheck e true (mtxA w)).bind fun _ => (readV e (mtxA w)).bind fun (a, e) =>
    let (t, fl) := closeGroup (getTile e (mtxAcc w))
    let isInt := decide (fa = 10)
    let es := if t.isInt = isInt then t.entries else []
    let es := (List.range 64).foldl (fun (es : Tab W32) i => tset es (64 * q + i) (BitVec.ofNat 32 (vElem 0 a i)) 0) es
    .ok (putTile e (mtxAcc w) { t with isInt := isInt, entries := es } fl)

/-- MRD q and MRDZ q (R114, R115). -/
def mtxMrd (e : Ev) (w : BitVec 48) (q : Nat) (zeroAfter : Bool) : SlotRes Ev :=
  let fc := mtxFmtC w
  (zeroCheck w [(8, 20), (30, 8)]).bind fun _ => (fmtCheck fc).bind fun _ =>
  let t0 := getTile e (mtxAcc w)
  if !(if t0.isInt then fc == 10 || fc == 0 else fc == 0 || fc == 1 || fc == 2) then .skip 0x05 fc
  else (dstCheck e true (mtxC w)).bind fun _ =>
    let (t, fl) := closeGroup t0
    let rs := (List.range 64).map (fun i =>
      let x := tget t.entries (64 * q + i) 0
      convert fc (if t.isInt then .ofInt x.toInt else decodeF 0 x.toNat) false none)
    let es := if zeroAfter then (List.range 64).foldl (fun (es : Tab W32) i => tset es (64 * q + i) 0 0) t.entries else t.entries
    writeV (putTile e (mtxAcc w) { t with entries := es } (fl ||| orFlags (rs.map (·.2)))) (mtxC w) (packV fc (rs.map (·.1)))

/-- The matrix slot by opcode (R114). -/
def mtxSlot (e : Ev) (w : BitVec 48) : SlotRes Ev :=
  let op := fld w 0 8
  if op = 0x01 then mtxMma e w false
  else if op = 0x02 then mtxMma e w true
  else if op = 0x03 then mtxMzero e w
  else if 0x08 ≤ op ∧ op ≤ 0x0B then mtxMwr e w (op % 4)
  else if 0x10 ≤ op ∧ op ≤ 0x13 then mtxMrd e w (op % 4) false
  else if 0x14 ≤ op ∧ op ≤ 0x17 then mtxMrd e w (op % 4) true
  else .skip 0x02 op

end Sys2Proof.Machine
end

