-- ==== Sys2Proof/Machine/Vector.lean ====
section
/-! DEFINITION. The vector slot (R91) and the vector unit (R117 to R126). -/
namespace Sys2Proof.Machine

/-! ## Fields (R91) -/

def vecFmt (w : BitVec 48) : Nat := fld w 8 4
def vecFmtD (w : BitVec 48) : Nat := fld w 12 4
def vecD (w : BitVec 48) : Nat := fld w 16 6
def vecA (w : BitVec 48) : Nat := fld w 22 6
def vecB (w : BitVec 48) : Nat := fld w 28 6
def vecC (w : BitVec 48) : Nat := fld w 34 6
def vecMask (w : BitVec 48) : Nat := fld w 40 3
def vecMaskEn (w : BitVec 48) : Bool := bit w 43
def vecSat (w : BitVec 48) : Bool := bit w 44
def vecRnd (w : BitVec 48) : Nat := fld w 45 2

/-- Formats of R118: float, integer. -/
def isFl (f : Nat) : Bool := decide (f ≤ 2)
def isIn (f : Nat) : Bool := f == 10 || f == 8

/-! ## Element operations -/

/-- Float arithmetic of R118 on element codes. -/
def ewFloat (op f a b c : Nat) : Nat × Flg :=
  let va := decodeF f a
  let vb := decodeF f b
  let vc := decodeF f c
  let sumOf (x y : FVal) : Nat × Flg :=
    let (v, inv) := x.add y
    let (r, fl) := arith f v
    (r, fl ||| fIf inv fIV)
  let fused (neg : Bool) (x : FVal) : Nat × Flg :=
    let (p, inv) := va.mul vb
    let (v, inv') := (if neg then p.neg else p).add x
    let (r, fl) := arith f v
    (r, fl ||| fIf (inv || inv') fIV)
  let signBit := 2 ^ (fmtBits f - 1)
  let nanCode := ((ffmt f).nan).getD 0
  let minmax (less : Bool) : Nat × Flg :=
    if va.isNan || vb.isNan then (nanCode, fNone)
    else
      let cmp := va.cmp vb
      let aLess := decide (cmp < 0) || (decide (cmp = 0) && nbit a (fmtBits f - 1))
      (if aLess = less then a else b, fNone)
  match op with
  | 0x01 => sumOf va vb
  | 0x02 => sumOf va vb.neg
  | 0x03 =>
    let (p, inv) := va.mul vb
    let (r, fl) := arith f p
    (r, fl ||| fIf inv fIV)
  | 0x04 => fused false vc
  | 0x05 => fused false vc.neg
  | 0x06 => fused true vc
  | 0x07 => minmax true
  | 0x08 => minmax false
  | 0x09 => (a % signBit, fNone)
  | 0x0A => (if nbit a (fmtBits f - 1) then a - signBit else a + signBit, fNone)
  | 0x0B =>
    match va, vb with
    | .nan, _ => (nanCode, fNone)
    | _, .nan => (nanCode, fNone)
    | .inf _, .inf _ => (nanCode, fIV)
    | .inf n, .fin n' _ _ => arith f (.inf (n != n'))
    | .fin n _ _, .inf n' => arith f (.fin (n != n') 0 0)
    | .fin n m e, .fin n' m' e' =>
      if m' = 0 then (if m = 0 then (nanCode, fIV) else ((arith f (.inf (n != n'))).1, fDZ))
      else if m = 0 then arith f (.fin (n != n') 0 0)
      else
        let (q, eq, st) := divMag m e m' e'
        let (r, fl) := within1 f q eq st (Config.ulpPick (0x0B + 256 * f) a b)
        (r + (if n != n' then signBit else 0), fl)
  | _ => -- FSCALB: powers beyond ±4,096 act as ±4,096, which already leaves every format's range
    arith f (va.scale (clampI (-4096) 4096 (sxt (fmtBits f) b)))

/-- Integer arithmetic of R118 on element codes. -/
def ewInt (op f a b : Nat) : Nat × Flg :=
  let w := fmtBits f
  let x := sxt w a
  let y := sxt w b
  let n := b % w
  match op with
  | 0x20 => ((a + b) % 2 ^ w, fNone)
  | 0x21 => (toCode w (x - y), fNone)
  | 0x22 => (a * b % 2 ^ w, fNone)
  | 0x23 => (if x < y then a else b, fNone)
  | 0x24 => (if x < y then b else a, fNone)
  | 0x25 => (a &&& b, fNone)
  | 0x26 => (a ||| b, fNone)
  | 0x27 => (a ^^^ b, fNone)
  | 0x28 => (a * 2 ^ n % 2 ^ w, fNone)
  | 0x29 => (a / 2 ^ n, fNone)
  | 0x2A => (toCode w (x / (2 ^ n : Int)), fNone)
  | 0x2B => (if x < 0 then toCode w (-x) else a, fNone)
  | _ =>
    let z := x + y
    let lo : Int := -(2 ^ (w - 1) : Int)
    let hi : Int := 2 ^ (w - 1) - 1
    if z < lo then (toCode w lo, fSA) else if hi < z then (toCode w hi, fSA) else (toCode w z, fNone)

/-- The order of two element codes; none where either is NaN. -/
def elemCmp (f a b : Nat) : Option Int :=
  if fmtInt f then some (if sxt (fmtBits f) a < sxt (fmtBits f) b then -1 else if sxt (fmtBits f) a = sxt (fmtBits f) b then 0 else 1)
  else
    let x := decodeF f a
    let y := decodeF f b
    if x.isNan || y.isNan then none else some (x.cmp y)

/-- Compares of R118. -/
def ewCmp (op f a b : Nat) : Bool :=
  match op with
  | 0x30 => elemCmp f a b = some 0
  | 0x31 => !(elemCmp f a b = some 0)
  | 0x32 => elemCmp f a b = some (-1)
  | 0x33 => elemCmp f a b = some (-1) || elemCmp f a b = some 0
  | _ => (decodeF f a).isNan

/-! ## Transcendental operations -/

/-- FP32's canonical NaN in place of any NaN (R30). -/
def canonNan (c : Nat) : Nat := if (decodeF 0 c).isNan then 0x7FC00000 else c

/-- A transcendental operation on a finite operand without a special case in R118, held to R118's error bound. RSQRT of −0 has neither: its
result and conditions are free (log entry 6, DESIGN CHOICE). -/
def approx (op : Nat) (neg : Bool) (m : Nat) (e : Int) (code : W32) : Nat × Flg :=
  let free := (Config.transcendental op code).toNat
  if op = 0x51 then (canonNan free, Config.transcendentalFlags op code)
  else if op = 0x59 ∨ op = 0x5A then sinCos op neg m e free
  else within2 op neg m e free

/-- The FP32 result of a transcendental operation on a value (R118). -/
def transFP32 (op : Nat) (v : FVal) : Nat × Flg :=
  let code := (toFloat 0 v false false none).1
  let nanC := 0x7FC00000
  let infC := 0x7F800000
  let sgn := 2 ^ 31
  let one := 0x3F800000
  match v with
  | .nan => (nanC, fNone)
  | .inf neg =>
    match op with
    | 0x50 => (if neg then sgn else 0, fNone)
    | 0x51 => if neg then (nanC, fIV) else (0, fNone)
    | 0x52 => if neg then (nanC, fIV) else (infC, fNone)
    | 0x53 => (if neg then 0 else infC, fNone)
    | 0x54 => (if neg then 0 else infC, fNone)
    | 0x55 => if neg then (nanC, fIV) else (infC, fNone)
    | 0x56 => (if neg then one + sgn else one, fNone)
    | 0x57 => (if neg then 0 else one, fNone)
    | 0x58 => (if neg then one + sgn else one, fNone)
    | _ => (nanC, fIV)
  | .fin neg m e =>
    if m = 0 then
      match op with
      | 0x50 => (if neg then infC + sgn else infC, fDZ)
      | 0x51 => if neg then approx op neg m e (BitVec.ofNat 32 code) else (infC, fDZ)
      | 0x52 => (code, fNone)
      | 0x55 => (infC + sgn, fDZ)
      | _ => approx op neg m e (BitVec.ofNat 32 code)
    else
      match op with
      | 0x50 =>
        let (q, eq, st) := divMag 1 0 m e
        let (r, fl) := within1 0 q eq st (Config.ulpPick 0x50 code 0)
        (r + (if neg then sgn else 0), fl)
      | 0x51 =>
        if neg then (nanC, fIV)
        else
          let (q, eq, st) := divMag 1 0 m e
          let (r, er, st') := sqrtMag q eq 40
          within1 0 r er (st || st') (Config.ulpPick 0x51 code 0)
      | 0x52 =>
        if neg then (nanC, fIV)
        else
          let (r, er, st) := sqrtMag m e 40
          toFloat 0 (.fin false r er) st false none
      | 0x55 => if neg then (nanC, fIV) else approx op neg m e (BitVec.ofNat 32 code)
      | _ => approx op neg m e (BitVec.ofNat 32 code)

/-- A transcendental operation on an element: FP32, then one rounding to the format (R118). -/
def ewTrans (op f a : Nat) : Nat × Flg :=
  let (r, fl) := transFP32 op (decodeF f a)
  if f = 0 then (r, fl)
  else
    let (x, fl') := arith f (decodeF 0 r)
    (x, fl ||| fl')

/-! ## Reductions and scans (R119) -/

/-- One addition in the format a reduction adds in (FP32 for FP16 and BF16): code and conditions. -/
def redAdd (f a b : Nat) : Nat × Flg :=
  if fmtInt f then ((a + b) % 2 ^ fmtBits f, fNone)
  else
    let (v, inv) := (decodeF 0 a).add (decodeF 0 b)
    let (r, fl) := arith 0 v
    (r, fl ||| fIf inv fIV)

/-- An element's code in the format a reduction adds in. -/
def redIn (f a : Nat) : Nat := if fmtInt f then a else (arith 0 (decodeF f a)).1

/-- A reduction's result rounded once to the format. -/
def redOut (f a : Nat) : Nat × Flg := if fmtInt f ∨ f = 0 then (a, fNone) else arith f (decodeF 0 a)

/-- One level of the pairwise tree: positions 2j and 2j + 1 added. -/
def redLevel (f : Nat) (xs : List Nat) (fl : Flg) : List Nat × Flg :=
  match xs with
  | a :: b :: r =>
    let (x, fl') := redAdd f a b
    let (ys, fl'') := redLevel f r (fl ||| fl')
    (x :: ys, fl'')
  | ys => (ys, fl)

/-- The pairwise tree, `n` levels. -/
def redTree (f n : Nat) (xs : List Nat) (fl : Flg) : List Nat × Flg :=
  match n with
  | 0 => (xs, fl)
  | n + 1 => let (ys, fl) := redLevel f xs fl; redTree f n ys fl

/-- RSUM over elements, inactive ones entering as +0. -/
def rsum (f : Nat) (xs : List Nat) : Nat × Flg :=
  let (ys, fl) := redTree f (Nat.log2 xs.length) (xs.map (redIn f)) fNone
  let (r, fl') := redOut f (ys.getD 0 0)
  (r, fl ||| fl')

/-- PSUM: running sums of active elements in ascending order; `none` stands for an inactive element. -/
def psum (f : Nat) (xs : List (Option Nat)) : List (Option Nat) × Flg :=
  let (_, out, fl) := xs.foldl (fun (acc : Option Nat × List (Option Nat) × Flg) x =>
    let (run, out, fl) := acc
    match x with
    | none => (run, out ++ [none], fl)
    | some a =>
      let (s, fl') := match run with
        | none => (redIn f a, fNone)
        | some r => redAdd f r (redIn f a)
      let (o, fl'') := redOut f s
      (some s, out ++ [some o], fl ||| fl' ||| fl'')) (none, [], fNone)
  (out, fl)

/-- Whether `b` takes the place of the best element `a` so far: RMAX, RMIN and RARGMAX; −0 below +0 for RMAX and RMIN (as FMAX and FMIN),
equal for RARGMAX. -/
def redBetter (op f a b : Nat) : Bool :=
  if !fmtInt f && (decodeF f a).isNan then false
  else if !fmtInt f && (decodeF f b).isNan then true
  else
    match elemCmp f a b with
    | some c =>
      if op = 0x42 then decide (c = 1) || (decide (c = 0) && !fmtInt f && !nbit a (fmtBits f - 1) && nbit b (fmtBits f - 1))
      else decide (c = -1) ||
        (op == 0x41 && decide (c = 0) && !fmtInt f && nbit a (fmtBits f - 1) && !nbit b (fmtBits f - 1))
    | none => false

/-- The best active element with its index. -/
def redBest (op f : Nat) (xs : List (Nat × Nat)) : Option (Nat × Nat) :=
  xs.foldl (fun acc x => match acc with
    | none => some x
    | some y => if redBetter op f y.2 x.2 then some x else some y) none

/-! ## The slot -/

/-- Elements active under a mask (R117). -/
def activeAt (e : Ev) (w : BitVec 48) (i : Nat) : Bool :=
  if vecMaskEn w then bit (tget e.th0.m (vecMask w) 0) i else true

/-- What an operation takes: D (0 none, 1 vector, 2 mask), A and B (0 none, 1 vector, 2 mask), C, whether MASK is its operand, and what
MASK_EN must be. -/
structure VecSig where
  d : Nat
  a : Nat
  b : Nat
  c : Bool
  usesMask : Bool
  en : Option Bool

/-- The operands of each operation (R118); none for a reserved opcode. -/
def vecSig (op : Nat) : Option VecSig :=
  let v (a b : Nat) (c : Bool) : VecSig := { d := 1, a := a, b := b, c := c, usesMask := false, en := none }
  if op = 0x04 ∨ op = 0x05 ∨ op = 0x06 then some (v 1 1 true)
  else if op = 0x09 ∨ op = 0x0A then some (v 1 0 false)
  else if 0x01 ≤ op ∧ op ≤ 0x0C then some (v 1 1 false)
  else if op = 0x2B then some (v 1 0 false)
  else if 0x20 ≤ op ∧ op ≤ 0x2C then some (v 1 1 false)
  else if 0x30 ≤ op ∧ op ≤ 0x33 then some { v 1 1 false with d := 2 }
  else if op = 0x34 then some { v 1 0 false with d := 2 }
  else if 0x38 ≤ op ∧ op ≤ 0x3A then some { d := 2, a := 2, b := 2, c := false, usesMask := false, en := some false }
  else if op = 0x3B then some { d := 2, a := 2, b := 0, c := false, usesMask := false, en := some false }
  else if op = 0x3C then some { d := 2, a := 1, b := 0, c := false, usesMask := false, en := some false }
  else if op = 0x3D then some { v 1 1 false with usesMask := true, en := some true }
  else if 0x40 ≤ op ∧ op ≤ 0x44 then some (v 1 0 false)
  else if op = 0x45 ∨ op = 0x46 then some (v 1 1 false)
  else if op = 0x47 then some (v 0 0 false)
  else if op = 0x48 ∨ op = 0x49 then some { v 0 0 false with usesMask := true }
  else if 0x50 ≤ op ∧ op ≤ 0x5A then some (v 1 0 false)
  else if 0x60 ≤ op ∧ op ≤ 0x67 then some (v 1 0 false)
  else if 0x68 ≤ op ∧ op ≤ 0x6F then some (v 1 0 true)
  else if 0x70 ≤ op ∧ op ≤ 0x7F then some (v 1 0 false)
  else if 0x80 ≤ op ∧ op ≤ 0x87 then some (v 1 0 true)
  else if op = 0x90 ∨ op = 0x91 then some (v 0 0 false)
  else if op = 0x92 then some { v 0 0 false with d := 0 }
  else none

/-- A conversion: the operations at 0x60 to 0x87 (R118). -/
def isConv (op : Nat) : Bool := decide (0x60 ≤ op) && decide (op ≤ 0x87)

/-- The formats each operation accepts (R118, R121 to R123); every conversion's part number lies below the ratio of its Ns (R121). A
conversion to its own format is accepted (log entry 137, DESIGN CHOICE). -/
def fmtAccepted (op f fd : Nat) : Bool :=
  let part := decide (op % 8 < max (fmtN f) (fmtN fd) / min (fmtN f) (fmtN fd))
  if op ≤ 0x0C then isFl f
  else if op = 0x22 then f == 10
  else if op ≤ 0x2C then isIn f
  else if op = 0x34 then isFl f
  else if 0x38 ≤ op ∧ op ≤ 0x3A then true
  else if op ≤ 0x49 then isFl f || isIn f
  else if op ≤ 0x5A then isFl f
  else if op ≤ 0x6F then part && (op < 0x68 || fmtScalable f || fmtScalable fd)
  else if op ≤ 0x77 then fmtScalable fd && part
  else if op ≤ 0x87 then isFl f && (fd == 1 || fd == 8) && part
  else if op = 0x90 then f == 0
  else if op = 0x91 then f == 10
  else true

/-- The static legality of a vector slot: assigned opcode, zero fields, formats (R91, R107, R118). SAT and RND may be nonzero for every conversion (log
entry 134, DESIGN CHOICE). -/
def vecCheck (w : BitVec 48) (sg : VecSig) : SlotRes Unit :=
  let op := fld w 0 8
  let f := vecFmt w
  let fd := vecFmtD w
  let zs := [(47, 1)] ++ (if isConv op then [] else [(44, 1)]) ++
    (if sg.d = 0 then [(16, 6)] else if sg.d = 2 then [(19, 3)] else []) ++
    (if sg.a = 0 then [(22, 6)] else if sg.a = 2 then [(25, 3)] else []) ++
    (if sg.b = 0 then [(28, 6)] else if sg.b = 2 then [(31, 3)] else []) ++
    (if sg.c then [] else [(34, 6)]) ++
    (if vecMaskEn w || sg.usesMask then [] else [(40, 3)]) ++
    (if op = 0x92 then [(8, 8), (40, 4)] else [])
  let fmtIgnored := decide (0x38 ≤ op) && decide (op ≤ 0x3A)
  (fieldCheck w zs ((if 2 ≤ vecRnd w then [45] else []) ++ (if sg.en = some (!vecMaskEn w) then [43] else []))).bind fun _ =>
  (if fmtIgnored then .ok () else fmtCheck f).bind fun _ => (if fmtIgnored then .ok () else fmtCheck fd).bind fun _ =>
  if !isConv op && (fd != f || vecRnd w != 0) then .skip 0x05 (f + 256 * fd)
  else if !fmtAccepted op f fd then .skip 0x05 (f + 256 * fd)
  else .ok ()

/-- The result of an element-wise operation: active elements take their results, inactive ones the destination's old value. -/
def ewResult (e : Ev) (w : BitVec 48) (g : Nat → Nat × Flg) : VReg × Flg :=
  let f := vecFmtD w
  let old := oldV e (vecD w)
  let rs := (List.range (fmtN f)).map (fun i => if activeAt e w i then g i else (vElem f old i, fNone))
  (packV f (rs.map (·.1)), orFlags (rs.map (·.2)))

/-- A result whose element 0 (and 1) are given and whose other elements are zero. -/
def headResult (f : Nat) (xs : List Nat) : VReg := packV f xs

/-- The mask whose bits satisfy `p`; the bits from N on are zero (log entry 133, DESIGN CHOICE). -/
def maskOf (n : Nat) (p : Nat → Bool) : Mask :=
  BitVec.ofNat 512 ((List.range n).foldr (fun i a => b2n (p i) + 2 * a) 0)

/-- Draws for the elements that satisfy `act`, in ascending order (R117, R124): each element's generator state, and the last. For RAND the
order is R124's; a stochastic conversion draws in the same order, and for an exact, NaN or infinite element too (log entry 112, DESIGN CHOICE). -/
def drawsFor (n : Nat) (act : Nat → Bool) (s : W32) : List W32 × W32 :=
  (List.range n).foldl (fun (acc : List W32 × W32) i =>
    if act i then let s' := xorshift acc.2; (acc.1 ++ [s'], s') else (acc.1 ++ [acc.2], acc.2)) ([], s)

/-- The thread's generator takes its state. -/
def putRng (e : Ev) (s : W32) : Ev := let th := getThread e.s e.t; { e with s := setThread e.s e.t { th with rng := s } }

/-- Conversions CVT, CVTSC and NBQ (R121 to R123): the elements of the destination, with conditions and the generator afterwards. `conv`
converts one value of A at the position of the side with more elements. -/
def convResult (e : Ev) (w : BitVec 48) (p : Nat) (a : VReg) (conv : Nat → Nat → Option Nat → Nat × Flg) : VReg × Flg × W32 :=
  let f := vecFmt w
  let fd := vecFmtD w
  let n := min (fmtN f) (fmtN fd)
  let narrow := decide (fmtN f < fmtN fd)
  let old := oldV e (vecD w)
  let inPart (i : Nat) : Bool := !narrow || (decide (p * n ≤ i) && decide (i < p * n + n))
  let act (i : Nat) : Bool := inPart i && activeAt e w i
  let stoch := decide (vecRnd w = 1)
  let (rs, last) := drawsFor (fmtN fd) (fun i => stoch && act i) e.th0.rng
  let xs := ((List.range (fmtN fd)).zip rs).map (fun (i, g) =>
    if act i then
      let src := if narrow then i - p * n else p * n + i
      let pos := if narrow then i else p * n + i
      conv (vElem f a src) pos (if stoch then some (drawR g) else none)
    else (vElem fd old i, fNone))
  let xs := if vecD w < 32 then xs else ((List.range (fmtN fd)).zip xs).map (fun (i, x) => if act i then x else (0, fNone))
  (packV fd (xs.map (·.1)), orFlags (xs.map (·.2)), last)

/-- Bytes written into a destination from byte `at_`, the others keeping their values (R122). -/
def bytesResult (e : Ev) (w : BitVec 48) (at_ : Nat) (bs : List Nat) : VReg :=
  let old := oldV e (vecD w)
  packV 8 ((List.range 256).map (fun i => if at_ ≤ i ∧ i < at_ + bs.length then bs.getD (i - at_) 0 else vElem 8 old i))

/-- The values of the active elements of block `k` of A. -/
def blockValues (e : Ev) (w : BitVec 48) (a : VReg) (k : Nat) : List FVal :=
  ((List.range 32).filter (fun i => activeAt e w (32 * k + i))).map (fun i => decodeF (vecFmt w) (vElem (vecFmt w) a (32 * k + i)))

/-- The element to which the spec gives no value: RMAX and RMIN without an active element, MPOPC of a count that does not fit (log entry 111,
DESIGN CHOICE); a NaN is the canonical one (R30). -/
def unstatedElem (op f : Nat) (a : VReg) (mk : Mask) : Nat :=
  let x := (Config.unstated op f a mk).toNat % 2 ^ fmtBits f
  if op < 0x48 && !fmtInt f && (decodeF f x).isNan then ((ffmt f).nan).getD 0 else x

/-- What a vector operation computes from its operands: a vector or a mask, the conditions, and the state it leaves. A reduction writes all
of D, whatever MASK_EN, and RARGMAX zeros behind its first two elements (log entries 135 and 136, DESIGN CHOICE). -/
def vecCompute (e : Ev) (w : BitVec 48) (a b c : VReg) : Ev × VReg × Mask × Flg :=
  let op := fld w 0 8
  let f := vecFmt w
  let n := fmtN f
  let mk := tget e.th0.m (vecMask w) 0
  let el (x : VReg) (i : Nat) : Nat := vElem f x i
  let vec (r : VReg × Flg) : Ev × VReg × Mask × Flg := (e, r.1, 0, r.2)
  let mask (m : Mask) : Ev × VReg × Mask × Flg := (e, 0, m, fNone)
  let acts := ((List.range n).filter (activeAt e w)).map (fun i => (i, el a i))
  let ones := 2 ^ fmtBits f - 1
  if op ≤ 0x0C then vec (ewResult e w (fun i => ewFloat op f (el a i) (el b i) (el c i)))
  else if op ≤ 0x2C then vec (ewResult e w (fun i => ewInt op f (el a i) (el b i)))
  else if op ≤ 0x34 then mask (maskOf n (fun i => activeAt e w i && ewCmp op f (el a i) (el b i)))
  else if op = 0x38 then mask (tget e.th0.m (vecA w) 0 &&& tget e.th0.m (vecB w) 0)
  else if op = 0x39 then mask (tget e.th0.m (vecA w) 0 ||| tget e.th0.m (vecB w) 0)
  else if op = 0x3A then mask (tget e.th0.m (vecA w) 0 ^^^ tget e.th0.m (vecB w) 0)
  else if op = 0x3B then mask (~~~ tget e.th0.m (vecA w) 0)
  else if op = 0x3C then mask (maskOf (min (el a 0) 512) (fun _ => true))
  else if op = 0x3D then vec (packV f ((List.range n).map (fun i => if bit mk i then el a i else el b i)), fNone)
  else if op = 0x40 then
    let (r, fl) := rsum f ((List.range n).map (fun i => if activeAt e w i then el a i else 0))
    vec (headResult f [r], fl)
  else if op = 0x41 ∨ op = 0x42 then
    match redBest op f acts with
    | some (_, x) => vec (headResult f [if !fmtInt f && (decodeF f x).isNan then ((ffmt f).nan).getD 0 else x], fNone)
    | none => vec (headResult f [unstatedElem op f a mk], fNone)
  else if op = 0x43 then
    match redBest op f acts with
    | some (i, x) => vec (headResult f [if !fmtInt f && (decodeF f x).isNan then ((ffmt f).nan).getD 0 else x, i], fNone)
    | none => vec (headResult f [0, ones], fNone)
  else if op = 0x44 then
    let (xs, fl) := psum f ((List.range n).map (fun i => if activeAt e w i then some (el a i) else none))
    let old := oldV e (vecD w)
    vec (packV f (((List.range n).zip xs).map (fun (i, x) => x.getD (el old i))), fl)
  else if op = 0x45 then vec (ewResult e w (fun _ => (el a (el b 0 % n), fNone)))
  else if op = 0x46 then vec (ewResult e w (fun i => (el a (fld b (8 * i) 8 % n), fNone)))
  else if op = 0x47 then
    vec (ewResult e w (fun i => (if fmtInt f then i % 2 ^ fmtBits f else (arith f (.fin false i 0)).1, fNone)))
  else if op = 0x48 then
    let k := ((List.range n).filter (fun i => bit mk i)).length
    vec (headResult f [if k ≤ ones then k else unstatedElem op f 0 mk], fNone)
  else if op = 0x49 then vec (headResult f [((List.range n).find? (fun i => bit mk i)).getD ones], fNone)
  else if op ≤ 0x5A then vec (ewResult e w (fun i => ewTrans op f (el a i)))
  else if op ≤ 0x67 then
    let (r, fl, g) := convResult e w (op % 8) a (fun x _ rnd => convert (vecFmtD w) (decodeF f x) (vecSat w) rnd)
    (putRng e g, r, 0, fl)
  else if op ≤ 0x6F then
    let (r, fl, g) := convResult e w (op % 8) a (fun x pos rnd =>
      let sc := fld c (8 * (pos / 32)) 8
      if fmtScalable (vecFmtD w) then toScaled (vecFmtD w) (decodeF f x) sc rnd
      else convert (vecFmtD w) (scaledValue f (decodeF f x) sc) (vecSat w) rnd)
    (putRng e g, r, 0, fl)
  else if op ≤ 0x77 then
    let bs := (List.range (n / 32)).map (fun k => blockScale (vecFmtD w) (blockValues e w a k))
    vec (bytesResult e w (op % 8 * (n / 32)) bs, fNone)
  else if op ≤ 0x7F then
    let bs := (List.range (n / 32)).map (fun k => nbExp (vecFmtD w == 1) (blockValues e w a k))
    vec (bytesResult e w (op % 8 * (n / 32)) (bs.map (·.1)), orFlags (bs.map (·.2)))
  else if op ≤ 0x87 then
    let (r, fl, g) := convResult e w (op % 8) a (fun x pos rnd =>
      nbCode (vecFmtD w == 1) (decodeF f x) (fld c (8 * (pos / 32)) 8) rnd)
    (putRng e g, r, 0, fl)
  else if op = 0x90 then
    let (gs, last) := drawsFor n (activeAt e w) e.th0.rng
    let (r, _) := ewResult e w (fun i => arith 0 (.fin false ((gs.getD i 0).toNat / 256) (-24)))
    (putRng e last, r, 0, fNone)
  else if op = 0x91 then vec (headResult f [e.th0.flags.toNat], fNone)
  else -- CLRFLAGS
    let th := getThread e.s e.t
    ({ e with s := setThread e.s e.t { th with flags := 0 } }, 0, 0, fNone)

/-- The vector slot (R91, R117, R118). -/
def vecSlot (e : Ev) (w : BitVec 48) : SlotRes Ev :=
  match vecSig (fld w 0 8) with
  | none => .skip 0x02 (fld w 0 8)
  | some sg =>
    (vecCheck w sg).bind fun _ =>
    (if sg.a = 1 then srcCheck e true (vecA w) else .ok ()).bind fun _ =>
    (if sg.b = 1 then srcCheck e true (vecB w) else .ok ()).bind fun _ =>
    (if sg.c then srcCheck e true (vecC w) else .ok ()).bind fun _ =>
    (if sg.d = 1 then dstCheck e true (vecD w) else .ok ()).bind fun _ =>
    (if sg.a = 1 then readV e (vecA w) else .ok (0, e)).bind fun (a, e) =>
    (if sg.b = 1 then readV e (vecB w) else .ok (0, e)).bind fun (b, e) =>
    (if sg.c then readV e (vecC w) else .ok (0, e)).bind fun (c, e) =>
    let (e, v, m, fl) := vecCompute e w a b c
    let e := { e with flags := e.flags ||| fl }
    if sg.d = 1 then writeV e (vecD w) v
    else if sg.d = 2 then writeM e (vecD w) m
    else .ok e

end Sys2Proof.Machine
end

