-- ==== Sys2Proof/Machine/Issue.lean ====
section
/-! DEFINITION. The issue of a bundle (R77, R80): its slots in order on one state, skips (R97), the next PC with repeats (R94) and branches
(R95), and the waits that a bundle meets. -/
namespace Sys2Proof.Machine

/-- One slot's operation. -/
def evalSlot (e : Ev) (b : Bundle) (slot : Nat) : SlotRes Ev :=
  match slot with
  | 0 => ctlSlot e b.ctl
  | 1 => adrSlot e b.adr
  | 2 => mtxSlot e b.mtx
  | _ => vecSlot e b.vec

/-- What the slots of a bundle come to: all done, or a wait, with the slots that wait on queues. -/
inductive Issued where
  | ok (e : Ev)
  | wait (ws : List QWait)

/-- A slot's wait on a queue, where it waits on one. -/
def slotWait (slot : Nat) (w : Option QWait) : List QWait := (w.map (fun w => { w with slot := slot })).toList

/-- The waits on queues of the slots after one that waits: each is tested on its own (R103). -/
def laterWaits (e : Ev) (b : Bundle) (slots : List Nat) : List QWait :=
  match slots with
  | [] => []
  | k :: r =>
    if !Bundle.has b k || bit e.th0.dropped k then laterWaits e b r
    else match evalSlot e b k with
      | .ok e => laterWaits e b r
      | .skip _ _ => laterWaits e b r
      | .wait w => slotWait k w ++ laterWaits e b r

/-- The slots listed, in order, each on the queues as the slots before it left them: a pop may take what an earlier slot of the bundle pushed
and a push the space that an earlier pop freed (log entry 113, DESIGN CHOICE); a skipped slot leaves the rest of the bundle as it was (R97), a waiting one holds the bundle (R80). -/
def runSlots (e : Ev) (b : Bundle) (slots : List Nat) : Issued :=
  match slots with
  | [] => .ok e
  | k :: r =>
    if !Bundle.has b k || bit e.th0.dropped k then runSlots e b r
    else match evalSlot e b k with
      | .ok e => runSlots e b r
      | .skip reason detail => runSlots { e with s := skipSlot e.s e.job e.t e.th0.subtag e.pc k reason detail } b r
      | .wait w => .wait (slotWait k w ++ laterWaits e b r)

/-- The repeats left active after a taken branch (R94). -/
def branchRepeats (rs : List Repeat) (target : Nat) : List Repeat :=
  match rs with
  | [] => []
  | r :: rest => if r.bodyStart ≤ target ∧ target < r.bodyEnd then r :: rest else branchRepeats rest target

/-- The next offset and the repeats after running on to an offset (R94). -/
def seqNext (rs : List Repeat) (pc : Nat) : List Repeat × Nat :=
  match rs with
  | [] => ([], pc)
  | r :: rest =>
    if r.bodyEnd ≤ pc then
      if 1 < r.passes then ({ r with passes := r.passes - 1 } :: rest, r.bodyStart) else seqNext rest pc
    else (r :: rest, pc)

/-- The repeats and the next PC of a bundle whose slots have run. -/
def nextPc (e : Ev) : List Repeat × Nat :=
  let seq := e.pc + e.len
  match e.branch with
  | some target => (branchRepeats e.th0.rpt target, target)
  | none =>
    match e.rpt with
    | some (nb, count) =>
      let stop := codeSkip e.s e.job nb seq
      if count = 0 then seqNext e.th0.rpt stop
      else ({ bodyStart := seq, bodyEnd := stop, passes := count } :: e.th0.rpt, seq)
    | none => seqNext e.th0.rpt seq

/-- The value of a semaphore that CHECK_CLEAN recorded before the job's first operation on it, or its present one (R152). -/
def recorded (s : State) (id n : Nat) : Nat :=
  match (s.cores.jobs.find? (fun j => j.id == id)).bind (·.clean) with
  | some (vals, _, _) => (tget vals n (getSem s n).value).toNat
  | none => (getSem s n).value.toNat

/-- A breach of R151 by a checked job: it is counted, and of the first 64 an entry is made (R152). -/
def breach (s : State) (id kind object before after : Nat) : State :=
  match s.cores.jobs.find? (fun j => j.id == id) with
  | none => s
  | some j => match j.clean with
    | none => s
    | some (vals, regs, n) =>
      let s := modJob s id (fun j => { j with clean := some (vals, regs, n + 1) })
      if n < 64 then
        logErr s { cls := 0x33, port := 7, tag := j.tag.toNat, loc := object, detail := kind, ex0 := before % 2 ^ 32, ex1 := after % 2 ^ 32 }
      else s

/-- CHECK_CLEAN counts queues that are not empty at the END of the last thread that uses them (R152, kind 0x03). -/
def cleanEnd (s : State) (j : Job) (t : Tid) : State :=
  if j.clean.isNone then s
  else
    let qs := (List.range 16).filter (fun q => decide (0 < qDepth j q) && decide (getQ s j t q ≠ []) &&
      (!qShared j q || (List.range j.threads).all (fun k => k == t.thread ||
        (match (getThread s { vcore := t.vcore, thread := k }).run with | .ending | .ended => true | _ => false))))
    qs.foldl (fun s q => breach s j.id 0x03 (16 * t.vcore + q) 0 (getQ s j t q).length) s

/-- The thread's state after its bundle: flags, repeats and PC. -/
def finishIssue (e : Ev) : State :=
  let th := getThread e.s e.t
  let (rpt, pc) := nextPc e
  let s := setThread e.s e.t { th with flags := th.flags ||| e.flags, rpt := rpt, pc := BitVec.ofNat 32 pc, waitQ := [], dropped := 0 }
  let s := { s with cores := { s.cores with gated := s.cores.gated.filter (· ≠ e.t.vcore), watch := tdel s.cores.watch e.t.vcore } }
  let s := match th.run with | .ending => cleanEnd s e.job e.t | _ => s
  settleEnd s e.t

/-- A virtual core is unplaced, or its core is stopped by a recovery of its cluster or of the device (R363). -/
def coreHeld (s : State) (vcore : Nat) : Bool :=
  let phys := tget s.cores.vmap vcore 0
  phys == 0 || tget s.faults.running 1 0 == (phys - 1) / 68 + 1 || tget s.faults.running 5 0 != 0

/-- The job and state of a thread that may issue: its job runs on a core that is placed and not pre-empted, and the thread neither
waits nor has ended. -/
def issuer (s : State) (t : Tid) : Option (Job × Thread) :=
  match jobAt s t.vcore with
  | none => none
  | some j =>
    let th := getThread s t
    if serving s && decide (t.thread < j.threads) && decide (th.run = .running) && decide (t.vcore ∉ s.cores.preempted) &&
      !coreHeld s t.vcore then some (j, th) else none

/-- The status met fetching a bundle's bytes (R455). Clean sectors are read without a trace, as the instruction cache serves them; a sector
with an error is read as the thread's request. -/
def fetchStatus (s : State) (j : Job) (th : Thread) (n : Nat) : W16 × State :=
  let a := offOf j.image + 128 + th.pc.toNat
  let bad (x : Nat) : Bool := (bit (getLine s (x / 64)).valid (x / 32 % 2) && bit (getLine s (x / 64)).poison (x / 32 % 2)) ||
    (!bit (getLine s (x / 64)).valid (x / 32 % 2) && decide (secErr s (mapLin s x).sector ≠ SecErr.none))
  if (sectorsOf a n).any bad then
    let (st, _, s) := devRead s a n { port := 0, tag := j.tag, subtag := th.subtag }
    (st, s)
  else (stOk, s)

/-- A thread ends as by END at its present PC (R73, R95, R455). -/
def endThread (s : State) (j : Job) (t : Tid) : State :=
  let th := getThread s t
  let s := setThread s t { th with run := .ending, item := none, waitQ := [], dropped := 0 }
  settleEnd (cleanEnd s j t) t

/-- A bundle at the thread's PC issues, or waits and leaves the state with the queue it waits on. -/
def issue (s : State) (t : Tid) (b : Bundle) : State :=
  match issuer s t with
  | none => s
  | some (j, th) =>
    if th.pc.toNat + Bundle.len b > j.codeBytes || Bundle.reserved b ≠ 0 then s
    else if Bundle.serial b && (decide (opsOf s t ≠ []) || th.fence.isSome) then s
    else
      let (st, s) := fetchStatus s j th (Bundle.len b)
      if st ≠ stOk then endThread (memErr s t st) j t else
      let e : Ev := { s := s, th0 := th, t := t, job := j, pc := th.pc.toNat, len := Bundle.len b, id0 := s.cores.nextId,
                      wrote := [], pops := [], flags := 0, branch := none, rpt := none }
      match runSlots e b [0, 1, 2, 3] with
      | .ok e => finishIssue e
      | .wait ws => setThread s t { th with waitQ := ws }

/-- A row's bundle: its slot is present and carries an opcode of the row. Another bundle is not this command's and changes nothing. -/
def issueRow (s : State) (t : Tid) (b : Bundle) (slot lo hi : Nat) : State :=
  if Bundle.has b slot && decide (lo ≤ Bundle.op b slot) && decide (Bundle.op b slot ≤ hi) then issue s t b else s

end Sys2Proof.Machine
end

