-- ==== Sys2Proof/Machine/CmdOps.lean ====
section
/-! DEFINITION. Command packets and status entries (R269 to R277, R455): fields, the opcode table's attributes, the order of checks, status
entries with their MSI-X messages, replies over the Level, and reply buffers. -/
namespace Sys2Proof.Machine

/-! ## Packets (R269) -/

/-- `n` bytes of a packet from byte `b`, as a number. -/
def pk (p : Line) (b n : Nat) : Nat := fld p (8 * b) (8 * n)

def pkOp (p : Line) : Nat := fld p 0 16
def pkOrdered (p : Line) : Bool := bit p 16
def pkExtended (p : Line) : Bool := bit p 17
def pkClean (p : Line) : Bool := bit p 18
def pkPart (p : Line) : Nat := fld p 24 8
def pkTag (p : Line) : W32 := BitVec.ofNat 32 (fld p 32 32)
def pkClient (p : Line) : Nat := fld p 64 32
def pkExtLen (p : Line) : Nat := fld p 96 32

/-- The opcodes assigned (R278 to R291), those executed in FAILED too, those executed in RECOVERING besides, and those that need an
ADMIN queue. -/
def opAssigned (op : Nat) : Bool :=
  decide (op % 256 ≤ ([8, 8, 2, 6, 2, 2, 7, 4, 7, 3].getD (op / 256) 0)) && decide (op / 256 ≤ 9)
def opF (op : Nat) : Bool :=
  op ∈ [0x0000, 0x0001, 0x0004, 0x0008, 0x0106, 0x0202, 0x0304, 0x0306, 0x0502, 0x0601, 0x0607, 0x0700, 0x0704, 0x0800, 0x0801, 0x0802, 0x0804,
    0x0805, 0x0806, 0x0807, 0x0900, 0x0901, 0x0902, 0x0903]
def opR (op : Nat) : Bool := op ∈ [0x0002, 0x0003, 0x0103, 0x0104, 0x0105, 0x0108, 0x0201, 0x0303, 0x0501, 0x0606]
def opAdmin (op : Nat) : Bool :=
  op ∈ [0x0002, 0x0003, 0x0005, 0x0006, 0x0007, 0x0008, 0x0200, 0x0201, 0x0401, 0x0600, 0x0602, 0x0603, 0x0604, 0x0605, 0x0606, 0x0701, 0x0702,
    0x0703, 0x0802, 0x0803]

/-- Bytes of the extended block an opcode takes, 0 when it takes none (R270, R278, R286). -/
def opBlock (op : Nat) : Nat := match op with | 0x0005 => 128 | 0x0007 => 112 | 0x0401 => 128 | _ => 0

/-- An opcode is executed in a device state (R278). -/
def opRuns (op st : Nat) : Bool :=
  st == 2 || st == 3 || st == 4 || (st == 5 && (opR op || opF op)) || (st == 7 && opF op)

/-! ## Queue pairs -/

def QueuePair.zero : QueuePair :=
  { defined := false, sqBase := 0, cqBase := 0, log2 := 4, yields := false, admin := false, msix := 0, part := 0, client := 0, sqTail := 0,
    sqHead := 0, cqHead := 0, cqTail := 0, reserved := 0, phase := true, error := false, waitSem := none, deleting := none }

def getQp (s : State) (q : Nat) : QueuePair := tget s.host.qps q QueuePair.zero
def setQp (s : State) (q : Nat) (x : QueuePair) : State := { s with host := { s.host with qps := tset s.host.qps q x QueuePair.zero } }
def modQp (s : State) (q : Nat) (f : QueuePair → QueuePair) : State := setQp s q (f (getQp s q))

/-- The key that stands for the queue of a remote source and partition (R277). -/
def remoteQueue (node part : Nat) : Nat := 256 + 16 * node + part

def getCmd (s : State) (id : Nat) : Option Cmd := s.host.cmds.find? (fun c => c.id == id)

def modCmd (s : State) (id : Nat) (f : Cmd → Cmd) : State :=
  let cs := mapIf (fun c => c.id == id) f s.host.cmds
  { s with host := { s.host with cmds := cs } }

/-- The attributes a command is checked by (R273): ADMIN, bound client, own partition. A remote source has no ADMIN and no bound client
(log entry 30, DEDUCED). -/
def cmdAdmin (s : State) (c : Cmd) : Bool := decide (c.queue < 256) && (getQp s c.queue).admin
def cmdForeign (s : State) (c : Cmd) : Bool :=
  decide (c.queue < 256) && !(getQp s c.queue).admin &&
    (decide (pkClient c.pkt ≠ (getQp s c.queue).client) || decide (pkPart c.pkt ≠ (getQp s c.queue).part))

/-! ## Level replies -/

/-- A response goes to the requester of packet `p` of a flow, in the reverse flow (R321, R325). -/
def sendResponse (s : State) (peer cls p : Nat) (op : OpHeader) (payload : List Byte) : State :=
  let f := getFlow s peer cls
  let s := setFlow s { f with waitResp := f.waitResp ++ [(p, 0)] }
  levelSend s peer cls { op with reqPsn := p % 2 ^ 24 } payload .none none false

/-! ## Status entries (R271) -/

/-- The 32 bytes of a status entry. -/
def statusEntry (p : Line) (st : W16) (detail time result sqHead queue phase : Nat) : BitVec 256 :=
  pack 256 [(0, 32, (pkTag p).toNat), (32, 16, pkOp p), (48, 16, st.toNat), (64, 32, detail), (96, 64, time), (160, 64, result), (224, 16, sqHead),
    (240, 8, queue), (248, 1, phase)]

/-- The tag of the entries a command causes (R276). -/
def cmdTag (c : Cmd) : Nat := (pkTag c.pkt).toNat

/-- A command leaves the list of those in progress. -/
def dropCmd (s : State) (id : Nat) : State :=
  let cs := s.host.cmds.filter (fun c => c.id != id)
  { s with host := { s.host with cmds := cs } }

/-- A status entry is written and its message sent (R268, R271), or returned in a COMMAND_REPLY (R277). -/
def writeStatus (s : State) (c : Cmd) (st : W16) (detail result : Nat) : State :=
  let s := if st = 0x03FF then logErr s { cls := 0x32, tag := (pkTag c.pkt).toNat, status := 0x03FF } else s
  match c.src with
  | some (node, cls, p) =>
    let e := statusEntry c.pkt st detail (now s) result 0 0 0
    sendResponse s node cls p { OpHeader.zero with kind := 0x83, part := pkPart c.pkt % 16, tag := pkTag c.pkt } (bytesOf e)
  | none =>
    let q := getQp s c.queue
    let e := statusEntry c.pkt st detail (now s) result (q.sqHead % 2 ^ q.log2) c.queue (b2n q.phase)
    let slot := q.cqTail % 2 ^ q.log2
    let s := (hostWrite s (q.cqBase.toNat + 32 * slot) (bytesOf e)).2
    let s := setQp s c.queue { q with cqTail := q.cqTail + 1, phase := if slot + 1 = 2 ^ q.log2 then !q.phase else q.phase,
                                      reserved := q.reserved - 1 }
    { s with host := { s.host with msix := q.msix :: s.host.msix } }

/-- A command's SOURCE in trace records (R447). -/
def cmdSource (c : Cmd) : Nat := match c.src with | some _ => 0xFFFF | none => c.queue

/-- A command leaves those in progress and its status is posted, with its trace record (R447). -/
def postStatus (s : State) (c : Cmd) (st : W16) (detail result : Nat) : State :=
  let s := traceEvent s 1 (pkTag c.pkt) 0 (pkPart c.pkt % 16) (cmdSource c) 0 (pkOp c.pkt + 65536 * st.toNat) detail
  writeStatus (dropCmd s c.id) c st detail result

/-- The queue pair that a QUEUE_CREATE defines (R278). -/
def newQueue (p : Line) : QueuePair :=
  { QueuePair.zero with
    defined := true, sqBase := BitVec.ofNat 64 (pk p 24 8), cqBase := BitVec.ofNat 64 (pk p 32 8), log2 := pk p 17 1, admin := bit p 144
    yields := bit p 145, msix := pk p 20 2, part := pkPart p, client := pk p 40 4 }

/-- An accepted QUEUE_CREATE that waits for the deletion of the pair it names (R274). -/
def createWaiting (s : State) (q : Nat) : Option Cmd := s.host.cmds.find? (fun c => c.begun && pkOp c.pkt == 0x0002 && pk c.pkt 16 1 == q)

/-- A queue pair that is being deleted goes once its started commands have posted their statuses (R278); what waits to define it anew does so. -/
def settleDelete (s : State) (q : Nat) : State :=
  match (getQp s q).deleting with
  | none => s
  | some d =>
    if s.host.cmds.any (fun c => c.queue == q) then s
    else
      let s := setQp s q QueuePair.zero
      let s := match getCmd s d with
        | some c => postStatus s c stOk 0 0
        | none => s
      match createWaiting s q with
      | some c => postStatus (setQp s q (newQueue c.pkt)) c stOk 0 0
      | none => s

/-- A command completes with a status, DETAIL and RESULT. -/
def complete (s : State) (c : Cmd) (st : W16) (detail result : Nat) : State :=
  let s := postStatus s c st detail result
  let s := if (getQp s c.queue).waitSem = some c.id then modQp s c.queue (fun q => { q with waitSem := none }) else s
  iterate s.host.qps.length (fun _ s => s.host.qps.foldl (fun s q => settleDelete s q.1) s) s

/-- An ENGINE_ABSENT command is logged once per queue, or source node and partition, in each 60-second window (R275). -/
def logAbsent (s : State) (c : Cmd) : State :=
  let w := mono s / 60000000000
  let key := c.queue
  let (win, n) := tget s.host.absent key (0, 0)
  let put (s : State) (x : Nat × Nat) : State := { s with host := { s.host with absent := tset s.host.absent key x (0, 0) } }
  if win = w + 1 then put s (w + 1, n + 1)
  else
    let s := put s (w + 1, 0)
    logErr s { cls := 0x31, tag := (pkTag c.pkt).toNat, status := 0x0103,
               loc := match c.src with | some (node, _, _) => node | none => c.queue, detail := pkOp c.pkt, ex0 := if win = w then n else 0 }

/-- A command is rejected. -/
def reject (s : State) (c : Cmd) (st : W16) (detail : Nat) : State :=
  let s := if st = 0x0103 then logAbsent s c else s
  complete s c st detail 0

/-! ## Checks (R273) -/

/-- The first check that applies: status and DETAIL. -/
def firstBad (xs : List (Bool × W16 × Nat)) : Option (W16 × Nat) := (xs.find? (·.1)).map (·.2)

def ckPerm (b : Bool) : Bool × W16 × Nat := (b, 0x0105, 0)
def ckParam (b : Bool) (d : Nat) : Bool × W16 × Nat := (b, 0x0101, d)
/-- STATE_CONFLICT with an object kind and its projected state (R274). -/
def ckState (b : Bool) (kind st : Nat) : Bool × W16 × Nat := (b, 0x0102, kind + 256 * st)
def ckRoom (b : Bool) : Bool × W16 × Nat := (b, 0x0104, 0)

/-- BAD_OPCODE by the packet (R269, R273): the opcode is unassigned, or a reserved flag is set. -/
def badOpcode (p : Line) : Bool := !opAssigned (pkOp p) || decide (fld p 19 5 ≠ 0) || (pkClean p && pkOp p != 0x0500)

/-- BAD_OPCODE and PERMISSION by the packet and its queue. -/
def headChecks (s : State) (c : Cmd) : List (Bool × W16 × Nat) :=
  [(badOpcode c.pkt, 0x0100, 0), ckPerm (opAdmin (pkOp c.pkt) && !cmdAdmin s c), ckPerm (cmdForeign s c)]

/-- BAD_PARAM with detail 0x01 and 0x02; a block lies in the memory R270 names, and an opcode with an extended block needs one of its length (log entry 31,
DEDUCED). -/
def fieldChecks (s : State) (c : Cmd) : List (Bool × W16 × Nat) :=
  let p := c.pkt
  let n := pkExtLen p
  let lenOk := if pkExtended p then decide (64 ≤ n) && decide (n ≤ 1048576) else n == 0
  [ckParam (!lenOk || pkTag p == 0 || decide (255 < pkClient p) || decide (c.extStatus = stBadParam) ||
      (decide (0 < opBlock (pkOp p)) && (!pkExtended p || decide (n < opBlock (pkOp p))))) 0x01,
   ckParam (decide (partitions s ≤ pkPart p)) 0x02]

/-- STATE_CONFLICT, kind 0x01: the device state does not execute the opcode (R278). -/
def deviceCheck (s : State) (c : Cmd) : Bool × W16 × Nat := ckState (!opRuns (pkOp c.pkt) (devState s)) 0x01 (devState s)

/-- The checks of a command in R273's order: `perm` and `locked` for steps 2 and 3, `param` for step 4, `absent` for 5, `conflict` for 6 and
`room` for 7. -/
def checks (s : State) (c : Cmd) (perm : List Bool) (locked : Bool) (param : List (Bool × Nat)) (absent : List (Bool × Nat))
    (conflict : List (Bool × W16 × Nat)) (room : Bool) : Option (W16 × Nat) :=
  firstBad (headChecks s c ++ perm.map ckPerm ++ [(locked, 0x0106, 0)] ++ fieldChecks s c ++ param.map (fun x => ckParam x.1 x.2) ++
    absent.map (fun x => (x.1, 0x0103, x.2)) ++ [deviceCheck s c] ++ conflict ++ [ckRoom room])

/-- A structure that a command reads decides its status (R455): read without error, it is checked further; otherwise, once the checks that
the packet alone decides have passed, the command completes with the read's status. -/
def withStruct (s : State) (c : Cmd) (st : W16) (rest : Option (W16 × Nat)) (k : State → State) : State :=
  match rest with
  | some (b, d) => reject s c b d
  | none => if st ≠ 0 then reject s c st (if st = stBadParam then 0x01 else 0) else k s

/-- A command that passes its checks takes effect. -/
def checked (s : State) (c : Cmd) (ck : Option (W16 × Nat)) (k : State → State) : State :=
  match ck with
  | some (st, d) => reject s c st d
  | none => k s

/-- A command is accepted once: it is the oldest of its queue that has not begun (R268), and its row is its opcode's. An ORDERED command that came
over the Level waits here for the earlier ones of its source; a device recovery stops all (R365). -/
def runCmd (s : State) (id op : Nat) (f : State → Cmd → State) : State :=
  match getCmd s id with
  | none => s
  | some c =>
    let older := s.host.cmds.any (fun d => d.queue == c.queue && decide (d.id < id) && (!d.begun || (c.src.isSome && pkOrdered c.pkt)))
    if pkOp c.pkt ≠ op ∨ c.begun ∨ older ∨ s.host.fetchStopped then s
    else
      let s := modCmd s id (fun c => { c with begun := true, at_ := mono s })
      f s { c with begun := true, at_ := mono s }

/-- A command whose effect an earlier accepted one holds back until a boundary, though its checks passed against the projected state (R274), stays begun; its
row takes the effect `k` from then on. Until it is accepted its row is `first`. -/
def laterCmd (s : State) (id op : Nat) (k : State → Cmd → State) (first : State) : State :=
  match getCmd s id with
  | some c => if c.begun && pkOp c.pkt == op then k s c else first
  | none => first

/-! ## Buffers and structures -/

/-- The request a command's own accesses are made as (R162, R276). -/
def cmdRq (c : Cmd) : Rq := { port := 5, tag := pkTag c.pkt }

/-- `n` bytes from a Level address lie in local device memory outside R225 or in the host window (R270). -/
def bufOk (s : State) (a : W64) (n : Nat) : Bool :=
  isLocalNode s (nodeOf a) && (match localRange s (offOf a) n with | .device => !touchesReserve s (offOf a) n | .window => true | _ => false)

/-- Bytes of a structure that a command names. -/
def structRead (s : State) (c : Cmd) (a : W64) (n : Nat) : W16 × List Byte × State := localRead s (offOf a) n (cmdRq c)

/-- A command whose block of `n` bytes at `a` decides part of BAD_PARAM (R273, R455): what ranks up to BAD_PARAM is checked by the packet, the block is read,
and `ck` with the block's rules decides, or without them and by the read's status where it cannot be read. -/
def withBlock (s : State) (c : Cmd) (a : W64) (n : Nat) (ck : List (Bool × Nat) → Option (W16 × Nat)) (bad : List Byte → List (Bool × Nat))
    (k : State → List Byte → State) : State :=
  let read : State :=
    let (st, bs, s) := structRead s c a n
    withStruct s c st (ck (if st = stOk then bad bs else [])) fun s => k s bs
  match ck [] with
  | some (st, d) => if st = 0x0102 ∨ st = 0x0103 ∨ st = 0x0104 then read else reject s c st d
  | none => read

/-- A reply buffer is written and the command completes, with the write's status where it meets one (R455). -/
def replyBuffer (s : State) (c : Cmd) (a : W64) (bs : List Byte) (result : Nat) : State :=
  let (st, s) := localWrite s (offOf a) bs (cmdRq c)
  if st = stOk then complete s c stOk 0 result else complete s c st 0 0

/-- A buffer outside the memory R270 names: BAD_PARAM, detail 0x01 (log entry 32, DEDUCED). -/
def bufBad (s : State) (a : W64) (n : Nat) : Bool × Nat := (!bufOk s a n, 0x01)

/-- An event of a client's tally (R303): 0 SUBMITTED, 1 STARTED, 2 COMPLETED, 3 FAILED, 4 PREEMPTED. -/
def tally (s : State) (client i : Nat) : State := bump s (CLI_TALLY client i) (CLI_TALLY_STATUS client) i 1

end Sys2Proof.Machine
end

