-- ==== Sys2Proof/Machine/NearOps.lean ====
section
/-! DEFINITION. Near-bank units and programs (R183 to R201): blast descriptors and their checks, the broadcast buffer, column reads, folds,
spills, and the records of DRAIN and END. -/
namespace Sys2Proof.Machine

/-! ## Blast descriptors (R190) -/

def bOp (d : Line) : Nat := fld d 0 8
def bAccum (d : Line) : Bool := bit d 8
def bFold (d : Line) : Bool := bit d 9
def bScaled (d : Line) : Bool := bit d 10
def bWfmt (d : Line) : Nat := fld d 16 4
def bWide (d : Line) : Bool := fld d 20 4 == 1
def bNvec (d : Line) : Nat := fld d 24 2 + 1
def bTag (d : Line) : W32 := BitVec.ofNat 32 (fld d 32 32)
def bP (d : Line) : Int := sxt 10 (fld d 64 10)
def bFirst (d : Line) : Nat := fld d 80 15
def bRowsets (d : Line) : Nat := fld d 96 15
def bIPad (d : Line) : Nat := fld d 128 32
def bLg (d : Line) : Nat := fld d 160 16
def bLgCount (d : Line) : Nat := fld d 176 16
def bPages (d : Line) : Nat := fld d 128 16
def bValid (d : Line) : Nat := fld d 144 16
def bPlist (d : Line) : Nat := fld d 160 21
def bUnit (d : Line) : Nat := fld d 128 32
def bUnitCount (d : Line) : Nat := fld d 160 32
def bUnitWords (d : Line) : Nat := fld d 192 12
def bStride (d : Line) : Nat := fld d 128 48
def bAct (d : Line) : Nat := fld d 256 21
def bRes (d : Line) : Nat := fld d 288 21
def bAddr (d : Line) (stack : Nat) : W64 := BitVec.ofNat 64 (fld d 320 64 + stack * bStride d)
def bBytes (d : Line) : Nat := fld d 384 22
def bSem (d : Line) : Nat := fld d 416 16
def bSemInc (d : Line) : Nat := fld d 432 16
def bRecord (d : Line) : W64 := BitVec.ofNat 64 (fld d 448 64)

/-- A compute entry (R192). -/
def bCompute (d : Line) : Bool := bOp d == 1 || bOp d == 2 || bOp d == 3

/-- The fields an operation uses; every other bit must be zero (R190, R195 code 0x20). -/
def bUsed (d : Line) : List (Nat × Nat) :=
  let compute := [(0, 9), (16, 10), (32, 42), (80, 15), (96, 15), (256, 21), (288, 21)]
  match bOp d with
  | 0x00 => [(0, 8), (32, 32), (416, 96)]
  | 0x01 => [(10, 1), (128, 64)] ++ compute
  | 0x02 => [(10, 1), (128, 53)] ++ compute
  | 0x03 => [(9, 2), (128, 53)] ++ compute
  | 0x04 => [(0, 8), (32, 32), (288, 21), (384, 22)]
  | 0x05 => [(0, 8), (32, 32), (80, 15), (96, 15), (128, 76)]
  | 0x10 => [(0, 8), (32, 32), (128, 48), (256, 21), (320, 86)]
  | 0x11 => [(0, 8), (32, 32), (128, 48), (288, 21), (320, 86), (416, 96)]
  | _ => []

/-- Entries per vector and bytes per vector of the activation area (R191). -/
def bEntries (d : Line) : Nat :=
  match bOp d with
  | 1 => 512 * bLgCount d
  | 2 => 512 * bPages d
  | _ => if bFold d then 128 else 512
def bActBytes (d : Line) : Nat :=
  let w := if bWide d then 2 else 1
  bNvec d * (match bOp d with
    | 1 => bIPad d * w + bIPad d / 32
    | 2 => 128 * w + 4
    | _ => bPages d * (512 * w + 16))

/-- Bytes of one bitmap (R191), and of the result area with both. -/
def bBitmap (d : Line) : Nat := 32 * cdiv (bNvec d * bEntries d) 256
def bResBytes (d : Line) : Nat := 4 * (bNvec d * bEntries d) + 2 * bBitmap d

/-! ## Program memory and the broadcast buffer (R188) -/

def progEntry (s : State) (stack e : Nat) : Line := tget s.nb.progMem (64 * stack + e) 0

/-- Descriptors into consecutive program entries. -/
def putProgram (s : State) (stack e : Nat) (ds : List Line) : State :=
  iterate ds.length (fun i s => { s with nb := { s.nb with progMem := tset s.nb.progMem (64 * stack + e + i) (ds.getD i 0) 0 } }) s

/-- A byte of a broadcast buffer; what nothing has written since BOOT is a free value (R188). -/
def bufByte (s : State) (stack i : Nat) : Byte :=
  (tfind s.nb.bbuf (2097152 * stack + i)).getD (Config.free 8 (tget s.nb.bufSeed stack 0 + 2097152 * stack + i))
def setBufByte (s : State) (stack i : Nat) (b : Byte) : State :=
  { s with nb := { s.nb with bbuf := tput s.nb.bbuf (2097152 * stack + i) b } }
def bufRead (s : State) (stack off n : Nat) : List Byte := (List.range n).map (fun i => bufByte s stack (off + i))
def bufWrite (s : State) (stack off : Nat) (bs : List Byte) : State :=
  iterate bs.length (fun i s => setBufByte s stack (off + i) (bs.getD i 0)) s
def bufBit (s : State) (stack off e : Nat) : Bool := bit (bufByte s stack (off + e / 8)) (e % 8)
def setBufBit (s : State) (stack off e : Nat) : State :=
  setBufByte s stack (off + e / 8) (bufByte s stack (off + e / 8) ||| ((1 : Byte) <<< (e % 8)))

/-- The aperture is enabled (R206, R209): one module-wide register, kept at stack 0's offset. -/
def aptOn (s : State) : Bool := rf s (STK_APT_CTRL 0) 0 1 == 1

/-! ## Checks (R195) -/

/-- The region an entry's row sets name, if they are exactly one PLANAR region. -/
def bRegion (s : State) (d : Line) : Option Region :=
  match regionAt s (bFirst d) with
  | some r => if r.planar && r.first == bFirst d && r.count == bRowsets d then some r else none
  | none => none

/-- An area lies inside the bytes a program may use (R188, R195 code 0x23). -/
def areaOk (s : State) (apt : Bool) (off n : Nat) : Bool :=
  if apt then decide (1835008 ≤ off) && decide (off + n ≤ 2097152)
  else decide (off + n ≤ (if aptOn s then 1835008 else 2097152))

/-- Two areas overlap. -/
def areaMeet (a n b m : Nat) : Bool := decide (a < b + m) && decide (b < a + n)

/-- The lowest code of R195 that an entry breaks at NB_START, 0 when none. -/
def entryCode (s : State) (stack : Nat) (apt : Bool) (d : Line) : Nat :=
  let mask : Line := (bUsed d).foldl (fun (m : Line) r => setFld m r.1 r.2 (2 ^ r.2 - 1)) 0
  let op := bOp d
  let okFmt := match op with
    | 1 => if bScaled d then bWfmt d == 8 || bWfmt d == 7 else bWfmt d == 9 || bWfmt d == 8
    | 2 | 3 => bWfmt d == 8 && !bScaled d
    | _ => true
  let okRegion := match op with
    | 1 | 2 | 3 => match bRegion s d with
      | some r => r.kind == op - 1 && r.fmt == bWfmt d && (op != 1 || (r.scaled == bScaled d && r.iPad == bIPad d))
      | none => false
    | 5 => (bRegion s d).isSome
    | _ => true
  let okArea := match op with
    | 1 | 2 | 3 =>
      let act := areaOk s apt (bAct d) (bActBytes d) && areaOk s apt (bRes d) (bResBytes d) && !areaMeet (bAct d) (bActBytes d) (bRes d) (bResBytes d)
      let pl := op == 1 || (areaOk s apt (bPlist d) (4 * bPages d) && bPlist d % 4 == 0 && !areaMeet (bPlist d) (4 * bPages d) (bRes d) (bResBytes d))
      act && pl
    | 4 | 0x11 => areaOk s apt (bRes d) (bBytes d) && decide (1 ≤ bBytes d)
    | 0x10 => areaOk s apt (bAct d) (bBytes d) && decide (1 ≤ bBytes d)
    | _ => true
  let okUnits := match op, bRegion s d with
    | 1, some r => decide (1 ≤ bLgCount d) && decide (bLg d + bLgCount d ≤ cdiv r.rows 512)
    | 2, _ | 3, _ => decide (1 ≤ bPages d) && decide (bPages d ≤ 2048) && decide (1 ≤ bValid d) && decide (bValid d ≤ 512)
    | 5, some r => decide (bUnit d + bUnitCount d ≤ r.units) && decide (1 ≤ bUnitWords d) && decide (bUnitWords d ≤ r.unitBytes / 64)
    | _, _ => true
  let a := bAddr d stack
  let okAddr := match op with
    | 0x10 => isLocalNode s (nodeOf a) && (match localRange s (offOf a) (bBytes d) with | .device => true | .scratch => true | _ => false) &&
        !touchesReserve s (offOf a) (bBytes d)
    | 0x11 => isLocalNode s (nodeOf a) && (match localRange s (offOf a) (bBytes d) with
        | .device => (viewOf s (offOf a)).isNone && (viewOf s (offOf a + bBytes d - 1)).isNone | .scratch => true | _ => false) &&
        !touchesReserve s (offOf a) (bBytes d)
    | _ => true
  if op ∉ [0, 1, 2, 3, 4, 5, 0x10, 0x11] ∨ d &&& ~~~mask ≠ 0 ∨ 0xB ≤ bWfmt d ∨ 0xB ≤ fld d 20 4 then 0x20
  else if !okFmt || ((op == 1 || op == 2 || op == 3) && fld d 20 4 != 1 && fld d 20 4 != 8) then 0x21
  else if !okRegion then 0x22
  else if !okArea then 0x23
  else if !okUnits then 0x24
  else if !okAddr then 0x25
  else 0

/-- The last entry of the part of program memory that an entry lies in (R195 code 0x26). -/
def lastEntry (s : State) (e : Nat) : Nat := if aptOn s ∧ e < 32 then 31 else 63

/-- The entry of a program's END, if there is one. -/
def endEntry (s : State) (stack start : Nat) : Option Nat :=
  ((List.range (lastEntry s start + 1 - start)).map (start + ·)).find? (fun e => bOp (progEntry s stack e) == 0)

/-- The first broken rule of a program: its code and entry; the code of a missing END last (R195). -/
def programCode (s : State) (stack start : Nat) : Option (Nat × Nat) :=
  let stop := (endEntry s stack start).getD (lastEntry s start)
  let codes := ((List.range (stop + 1 - start)).map (fun i =>
    (entryCode s stack (aptOn s && decide (32 ≤ start)) (progEntry s stack (start + i)), start + i))).filter (fun c => decide (c.1 ≠ 0))
  match codes with
  | c :: _ => some c
  | [] => if (endEntry s stack start).isNone then some (0x26, lastEntry s start) else none

/-! ## Programs -/

def getProg (s : State) (stack pid : Nat) : Option Program := s.nb.programs.find? (fun p => p.id == pid && p.stack == stack)

def modProg (s : State) (pid : Nat) (f : Program → Program) : State :=
  let ps := mapIf (fun p => p.id == pid) f s.nb.programs
  { s with nb := { s.nb with programs := ps } }

/-- The program's present descriptor. -/
def progDesc (s : State) (p : Program) : Line := progEntry s p.stack p.cur

/-- Programs running on a stack, and those of one partition. -/
def progsOn (s : State) (stack : Nat) : List Program := s.nb.programs.filter (fun p => p.stack == stack)

/-- A start there would be refused with NO_RESOURCE (R189, R301). -/
def startRefused (s : State) (stack part : Nat) : Bool :=
  decide (4 ≤ (progsOn s stack).length) ||
    decide (rf s (PART_NB part) 8 3 ≤ ((progsOn s stack).filter (fun p => p.part == part)).length)

/-- A LOAD or DRAIN that a program's check refuses for the row sets of R225 makes one ADDRESS entry (R195, R225). -/
def reserveRefused (s : State) (stack : Nat) (bad : Option (Nat × Nat)) : State :=
  match bad with
  | some (c, e) =>
    let d := progEntry s stack e
    let off := offOf (bAddr d stack)
    if c = 0x25 ∧ isLocalNode s (nodeOf (bAddr d stack)) ∧ touchesReserve s off (bBytes d) then addressRefused s { port := 1, tag := bTag d } off else s
  | none => s

/-- NB_START (R194, R195): the program's id and the state. A program that breaks a rule runs only its END, with BAD_PARAM. -/
def startProgram (s : State) (stack entry part : Nat) (tag : W32) (owner : ProgOwner) : Nat × State :=
  let id := s.nb.nextId
  let bad := programCode s stack entry
  let p : Program := {
    id := id, stack := stack, start := entry, cur := entry, part := part, tag := tag, owner := owner, begun := false,
    sev := 0, sevAll := 0, detail := 0, results := [], tainted := [], pos := [], left := [], mark := 0, unflushed := [] }
  let p := match bad with
    | some (c, e) => { p with cur := (endEntry s stack entry).getD (lastEntry s entry), sev := stBadParam, sevAll := stBadParam,
                              detail := BitVec.ofNat 32 (c + 256 * e) }
    | none => p
  let s := { s with nb := { s.nb with nextId := id + 1, programs := s.nb.programs ++ [p] } }
  let s := if bad.isSome then wf (reserveRefused s stack bad) (STK_NB_STATUS stack) 3 1 1 else s
  (id, traceEvent s 6 tag 0 part stack entry 0 0)

/-! ## What a compute entry reads (R192) -/

/-- The page list of an entry. -/
def pageList (s : State) (stack : Nat) (d : Line) : List Nat :=
  (List.range (bPages d)).map (fun i => leNat (bufRead s stack (bPlist d + 4 * i) 4))

/-- The placement units an entry reads, each with its segment's number, in processing order: lane groups in order, or pages in list order. -/
def entryUnits (s : State) (stack : Nat) (d : Line) : List (Nat × Nat) :=
  match bOp d with
  | 1 =>
    let per := if bScaled d then bIPad d / 32 else bIPad d
    ((List.range (bLgCount d)).map (fun g => (List.range per).map (fun i => ((bLg d + g) * per + i, g)))).flatten
  | 2 => (pageList s stack d).zip (List.range (bPages d))
  | _ => (pageList s stack d).map (fun p => (p, 0))

/-- The entry's units with their order numbers that lie in a bank. -/
def bankUnits (s : State) (stack : Nat) (d : Line) (bank : Nat) : List (Nat × Nat × Nat) :=
  let us := entryUnits s stack d
  (us.zip (List.range us.length)).filterMap (fun u =>
    if (mapUnit s true u.1.1).2 = bank then some (u.1.1, u.1.2, u.2) else none)

/-- Column words read per unit; `idx` is the unit's order number (R192). -/
def unitReads (d : Line) (idx : Nat) : Nat :=
  let n := if bWfmt d = 9 then 4 else if bWfmt d = 7 then 5 else 8
  match bOp d with
  | 1 => if bScaled d then 8 + 32 * n else n
  | 2 => 1024
  | _ => if idx + 1 = bPages d then 8 * cdiv (bValid d) 4 else 1024

/-- Column reads per bank of the stack at an entry's start. -/
def bankLoads (s : State) (stack : Nat) (d : Line) : Tab Nat :=
  let us := entryUnits s stack d
  (us.zip (List.range us.length)).foldl (fun t u =>
    let bank := (mapUnit s true u.1.1).2
    if bank / 2048 = stack then tset t bank (tget t bank 0 + unitReads d u.2) 0 else t) []

/-! ## Activation codes (R191, R192) -/

/-- The code and the exponent byte of input `i` of vector `v`. -/
def actCode (s : State) (stack : Nat) (d : Line) (v i : Nat) : Int × Int :=
  let w := if bWide d then 2 else 1
  let n := match bOp d with | 1 => bIPad d | 2 => 128 | _ => 512 * bPages d
  let base := bAct d + v * (n * w + n / 32)
  (sxt (8 * w) (leNat (bufRead s stack (base + i * w) w)), ((bufByte s stack (base + n * w + i / 32)).toNat : Int) - 127)

/-! ## One column read (R184, R185, R193, R198) -/

def NbUnit.zero : NbUnit := { acc := [], blk := [], sat := [], poison := [], ew := [], hdrBad := [], enable := 0, seg := none }
def getUnit (s : State) (bank : Nat) : NbUnit := tget s.nb.units bank NbUnit.zero
def setUnit (s : State) (bank : Nat) (u : NbUnit) : State := { s with nb := { s.nb with units := tset s.nb.units bank u NbUnit.zero } }

/-- Every lane folds its block registers (R185); `x` gives the exponent of the activation block for vector and lane. -/
def NbUnit.fold (u : NbUnit) (d : Line) (x : Nat → Nat → Int) : NbUnit :=
  (List.range (512 * bNvec d)).foldl (fun u e =>
    let blk := tget u.blk e 0
    if blk = 0 then u
    else
      let (a, sat) := nbAdd (tget u.acc e 0) (tget u.sat e false) (nbFold blk (tget u.ew (e % 512) 0 + x (e / 512) (e % 512) - bP d))
      { u with acc := tset u.acc e a 0, sat := tset u.sat e sat false, blk := tset u.blk e 0 0 }) u

/-- One read of column word `word` of a unit; `idx` is its order number, `bits` the word after correction, `bad` the lanes whose bit
lies in a bad sector. A header byte of 0xFF, which the spec gives no meaning in an INT8 granule, counts as exponent 255 − 133 like any other
(log entry 116, DESIGN CHOICE). -/
def readWord (s : State) (stack : Nat) (d : Line) (n : NbUnit) (unit idx word : Nat) (bits : BitVec 512) (bad : Nat → Bool) : NbUnit :=
  let planes := if bWfmt d = 9 then 4 else if bWfmt d = 7 then 5 else 8
  let op := bOp d
  if op = 1 ∧ bScaled d ∧ word < 8 then
    -- a granule's header: 64 lanes' scale codes
    (List.range 64).foldl (fun n b =>
      let l := 64 * word + b
      let c : Int := fld bits (8 * b) 8
      { n with ew := tset n.ew l (c - (if bWfmt d = 7 then 128 else 133)) 0, hdrBad := tset n.hdrBad l (bad (8 * b)) false }) n
  else
    let w := if op = 1 ∧ bScaled d then word - 8 else word
    let j := if op = 1 ∧ !bScaled d then word else w % planes
    let input (l : Nat) : Nat := match op with
      | 1 => if bScaled d then 32 * (unit % (bIPad d / 32)) + w / planes else unit % bIPad d
      | 2 => w / 8
      | _ => 512 * idx + 4 * (w / 8) + l / 128
    let on (l : Nat) : Bool := match op with
      | 2 => idx + 1 != bPages d || decide (l < bValid d)
      | 3 => idx + 1 != bPages d || decide (4 * (w / 8) + l / 128 < bValid d)
      | _ => true
    let n := { n with enable := (List.range 512).foldl (fun (m : BitVec 512) l => if on l then m ||| (1#512 <<< l) else m) 0 }
    let n := (List.range (512 * bNvec d)).foldl (fun n e =>
      let l := e % 512
      if !bit n.enable l then n
      else
        let n := if bad l || tget n.hdrBad l false then { n with poison := tset n.poison e true false } else n
        if bit bits l then
          let a := (actCode s stack d (e / 512) (input l)).1 * 2 ^ j
          { n with blk := tset n.blk e (if j + 1 = planes then tget n.blk e 0 - a else tget n.blk e 0 + a) 0 }
        else n) n
    -- the end of a segment block
    let done := match op with
      | 1 => if bScaled d then w + 1 == 32 * planes else word + 1 == planes
      | 2 => w % 256 == 255
      | _ => w % 64 == 63 || w + 1 == unitReads d idx
    if done then
      let n := n.fold d (fun v l => (actCode s stack d v (input l)).2)
      if op = 1 then { n with hdrBad := [], ew := [] } else n
    else n

/-- The column word of a unit at a word number: its two sectors. -/
def wordSectors (s : State) (r : Region) (unit word : Nat) : Nat := (unitLoc s r unit (64 * word)).sector

/-! ## Spills (R186, R191, R193) -/

/-- The result entry of a lane in segment `seg`. -/
def entryOf (d : Line) (v seg l : Nat) : Nat :=
  v * bEntries d + (match bOp d with | 1 => 512 * seg + l | 2 => 512 * seg + l | _ => if bFold d then l % 128 else l)

/-- A signed 32-bit sum with saturation. -/
def satAdd32 (a b : Int) : Int := clampI (-2147483648) 2147483647 (a + b)

/-- An area that a LOAD has tainted is read by the entry: its activations, or its page list (R197). -/
def entryTainted (p : Program) (d : Line) : Bool := p.tainted.any (fun t =>
  areaMeet t.1 t.2 (bAct d) (bActBytes d) || ((bOp d == 2 || bOp d == 3) && areaMeet t.1 t.2 (bPlist d) (4 * bPages d)))

/-- The unit's accumulators and bits go into the result entries, and are cleared. -/
def spill (s : State) (p : Program) (d : Line) (bank seg : Nat) : State :=
  let n := getUnit s bank
  let st := p.stack
  let bm := bRes d + 4 * (bNvec d * bEntries d)
  let s := (List.range (512 * bNvec d)).foldl (fun s e =>
    let x := entryOf d (e / 512) seg (e % 512)
    let old := sxt 32 (leNat (bufRead s st (bRes d + 4 * x) 4))
    let sum := old + tget n.acc e 0
    let s := bufWrite s st (bRes d + 4 * x) (leBytes 4 (toCode 32 (satAdd32 old (tget n.acc e 0))))
    let s := if tget n.sat e false || decide (sum ≠ satAdd32 old (tget n.acc e 0)) then setBufBit s st bm x else s
    if tget n.poison e false || entryTainted p d then setBufBit s st (bm + bBitmap d) x else s) s
  setUnit s bank NbUnit.zero

/-- The numbers of poisoned and of saturated entries in a result area. -/
def badEntries (s : State) (stack : Nat) (res : Nat × Nat) : Nat × Nat :=
  let bm := res.1 + 4 * res.2
  let b := 32 * cdiv res.2 256
  (((List.range res.2).filter (fun e => bufBit s stack (bm + b) e)).length, ((List.range res.2).filter (fun e => bufBit s stack bm e)).length)

/-- The lane of a unit that a byte of it belongs to: in a column word the lane of the bit, in a scaled unit's header the lane of the scale. -/
def touchedLane (r : Region) (off bit : Nat) : Nat :=
  if r.kind = 0 ∧ r.scaled ∧ off < 512 then off else off % 64 * 8 + bit

/-- The result entries of a compute entry whose lanes the writes to its units touched: unspecified (R203). -/
def loose (s : State) (p : Program) (d : Line) (r : Region) : List Nat :=
  ((s.mem.touched.drop p.mark).map (fun x =>
    let bank := x.1 / 50331648
    let pos := (keyRow x.1 - r.first) * 2048 + x.1 % 2048
    let us := (bankUnits s p.stack d bank).filter (fun u =>
      decide (r.first ≤ keyRow x.1) && pos / r.unitBytes == mapHigh s u.1 / 32)
    (us.map (fun u => (List.range (bNvec d)).map (fun v =>
      entryOf d v u.2.1 (touchedLane r (pos % r.unitBytes) x.2)))).flatten)).flatten

/-- Every unspecified result entry takes a free value (log entry 106, DESIGN CHOICE). -/
def loosen (s : State) (p : Program) (d : Line) : State :=
  match bRegion s d with
  | none => s
  | some r => ((loose s p d r).filter (fun e => decide (e < bNvec d * bEntries d))).foldl (fun s e =>
      let (x, s) := draw s 32
      bufWrite s p.stack (bRes d + 4 * e) (bytesOf x)) s

/-! ## Records and signals (R64, R196) -/

/-- The 16 bytes of a completion record (R64). -/
def recordBytes (st : W16) (subtag : Nat) (tag detail position : W32) : List Byte :=
  leBytes 2 st.toNat ++ leBytes 2 subtag ++ leBytes 4 tag.toNat ++ leBytes 4 detail.toNat ++ leBytes 4 position.toNat

/-- The stack hoist that carries a blast's LOAD, DRAIN and signals, by its number of R150: of the two of a stack, which the spec numbers 256 to 271
together, the model takes the first, 256 + 2 × stack (R3, R14; log entry 117, DESIGN CHOICE). -/
def stackHoist (stack : Nat) : Nat := 256 + 2 * stack

/-- An entry's record is written, unless it would lie in the row sets of R225, then its semaphore signalled (R196). -/
def blastRecord (s : State) (stack idx : Nat) (d : Line) (st : W16) (detail : W32) : State :=
  let s := if bRecord d = 0 then s
    else if touchesReserve s (offOf (bRecord d)) 16 then addressRefused s { port := 1, tag := bTag d } (offOf (bRecord d))
    else (localWrite s (offOf (bRecord d)) (recordBytes st idx (bTag d) detail 0) { port := 1, tag := bTag d }).2
  if bSemInc d = 0 then s
  else semSignal s (bSem d) (BitVec.ofNat 64 (bSemInc d)) { source := 2, agent := stackHoist stack, tag := bTag d, port := 1 }

end Sys2Proof.Machine
end

