-- ==== Sys2Proof/Machine/NearBank.lean ====
section
/-! DEFINITION. The near-bank commands (R187 to R208): the command group, the entries of programs, micro-steps, grants, yield slots and the
host aperture. -/
namespace Sys2Proof.Machine

/-! ## The end of a program -/

/-- The most severe of two statuses with their details (R196). -/
def worseEnd (a b : W16 × W32) : W16 × W32 := if severity a.1 < severity b.1 then b else a

/-- The aperture's STATUS line when every program of it has ended (R207, R208). -/
def aptSettle (s : State) : State :=
  if bit s.nb.aptStatus 0 ∧ !s.nb.programs.any (fun p => decide (p.owner = .aperture)) then
    let (st, de) := s.nb.aptEnds.foldl (fun a e => worseEnd a (e.2.1, e.2.2)) (0, 0)
    let line : Line := pack 512 [(1, 1, 1), (2, 1, b2n (bit s.nb.aptStatus 2)), (16, 16, st.toNat), (32, 32, de.toNat), (64, 64, now s)]
    { s with nb := { s.nb with aptStatus := line } }
  else s

/-- An NB_RUN completes when every stack's program has ended: the most severe status, and that END's DETAIL (R282). -/
def settleRun (s : State) (id : Nat) : State :=
  if s.nb.programs.any (fun p => decide (p.owner = .cmd id)) then s
  else
    let ends := s.nb.cmdEnds.filter (fun e => e.1 == id)
    let (st, de) := ends.foldl (fun a e => worseEnd a (e.2.2.1, e.2.2.2)) (0, 0)
    let rest := s.nb.cmdEnds.filter (fun e => e.1 != id)
    let s := { s with nb := { s.nb with cmdEnds := rest } }
    match getCmd s id with
    | some c => complete s c st de.toNat de.toNat
    | none => s

/-- A program ends with its END's status and detail: its owner learns of it, and it leaves the stack (R194, R207, R282). -/
def endProgram (s : State) (p : Program) (st : W16) (detail : W32) : State :=
  let ps := s.nb.programs.filter (fun x => x.id != p.id)
  let us := s.nb.units.map (fun u => if u.2.seg = some p.id then (u.1, NbUnit.zero) else u)
  let us := us.filter (fun u => decide (u.2 ≠ NbUnit.zero))
  let s := { s with nb := { s.nb with programs := ps, units := us }, mem := { s.mem with touched := if ps = [] then [] else s.mem.touched } }
  let s := traceEvent s 7 p.tag 0 p.part p.stack 0 st.toNat detail.toNat
  match p.owner with
  | .aperture => aptSettle { s with nb := { s.nb with aptEnds := s.nb.aptEnds ++ [(p.stack, st, detail)] } }
  | .cmd id => settleRun { s with nb := { s.nb with cmdEnds := s.nb.cmdEnds ++ [(id, p.stack, st, detail)] } } id
  | _ => s

/-- A program is stopped (R200): its END record carries CANCELLED and its END semaphore is signalled. Its result areas are unspecified. -/
def abortProgram (s : State) (p : Program) : State :=
  let s := p.results.foldl (fun s r =>
    let (x, s) := draw s (8 * (4 * r.2))
    bufWrite s p.stack r.1 (bytesOf x)) s
  match endEntry s p.stack p.start with
  | some e =>
    let d := progEntry s p.stack e
    endProgram (blastRecord s p.stack e d 0x0205 0) p 0x0205 0
  | none => endProgram s p 0x0205 0

/-! ## The command group (R189) -/

/-- NB_PROG (R189): 1 to 64 descriptors into consecutive program entries. -/
def execNbProg (stack entry : Nat) (descs : List Line) (s : State) : Res :=
  if stack < stackCount s ∧ entry + descs.length ≤ 64 then
    .next (putProgram s stack entry descs)
  else .next s

/-- NB_START (R189, R195, R301): refused with NO_RESOURCE when no program place is left. While the aperture is enabled, entries 32 to 63 belong to its
programs, and a start of the command group there has no effect (R188; log entry 118, DESIGN CHOICE). -/
def execNbStart (stack entry part : Nat) (tag : W32) (s : State) : Res :=
  let answer (s : State) (st : W16) : State := { s with nb := { s.nb with startOut := st } }
  if stackCount s ≤ stack ∨ (aptOn s ∧ 32 ≤ entry) then .next s
  else if startRefused s stack part then .next (answer s 0x0104)
  else .next (answer (startProgram s stack entry part tag .group).2 0)

/-- NB_BCAST (R189): bytes into the broadcast buffer. -/
def execNbBcast (stack off : Nat) (bytes : List Byte) (s : State) : Res :=
  if stack < stackCount s ∧ off + bytes.length ≤ 2097152 then .next (bufWrite s stack off bytes) else .next s

/-- NB_DRAIN (R189): bytes of the broadcast buffer are read. -/
def execNbDrain (stack off n : Nat) (s : State) : Res :=
  if stack < stackCount s ∧ off + n ≤ 2097152 then .next { s with nb := { s.nb with drained := bufRead s stack off n } } else .next s

/-- NB_GROUP_ABORT: the NB_ABORT of the command group (R189, R200). -/
def execNbGroupAbort (stack pid : Nat) (s : State) : Res :=
  match getProg s stack pid with
  | some p => .next (abortProgram s p)
  | none => .next s

/-- NB_STATUS (R189): the state of every running program. -/
def execNbStatus (stack : Nat) (s : State) : Res :=
  .next { s with nb := { s.nb with statusOut := progsOn s stack } }

/-! ## Entries (R192, R194) -/

/-- The view lines over a region whose dirty sectors are not in DRAM yet: dirty in their slice, or waiting to be written back. -/
def unwritten (s : State) (r : Region) : List Nat :=
  let mine (ln : Nat) : Bool := match viewOf s (64 * ln) with | some (q, _) => q.first == r.first | none => false
  let dirty : List Nat := (s.mem.lines.filter (fun l : Nat × CacheLine => decide (l.2.dirty ≠ 0))).map Prod.fst
  let queued : List Nat := (s.mem.engines.map (fun e : Nat × Engine => e.2.writes.map (fun o : DOp => o.addr / 64))).flatten
  ((dirty ++ queued).filter mine).eraseDups

/-- A line's write-back waits for a hold (R180). -/
def lineWaits (s : State) (ln : Nat) : Bool :=
  lineHeld s ln (getLine s ln).dirty || (getEngine s (homeSlice s (64 * ln))).writes.any (fun o => decide (o.addr / 64 = ln) && lineHeld s ln o.dirty)

/-- Dirty view lines over a region are written back (R201), those that no hold keeps. -/
def flushRegion (s : State) (r : Region) : State := (unwritten s r).foldl flushLine s

/-- A compute entry's page list breaks R195. -/
def pagesBad (s : State) (stack : Nat) (d : Line) : Bool :=
  match bRegion s d with
  | some r => (pageList s stack d).any (fun p => decide (r.rows ≤ p))
  | none => true

/-- Start of a GEMV, QK or PV entry: its page list is checked, dirty view lines written back (those that a hold keeps before the first column read, R201),
the result entries cleared unless ACCUM. -/
def startCompute (s : State) (p : Program) : State :=
  let d := progDesc s p
  if (bOp d = 2 ∨ bOp d = 3) ∧ pagesBad s p.stack d then
    let s := wf s (STK_NB_STATUS p.stack) 3 1 1
    modProg s p.id (fun p => { p with sev := stBadParam, sevAll := stBadParam, detail := BitVec.ofNat 32 (0x24 + 256 * p.cur),
                                      cur := (endEntry s p.stack p.start).getD p.cur })
  else
    let (s, wait) := match bRegion s d with | some r => (let s := flushRegion s r; (s, unwritten s r)) | none => (s, [])
    let s := if bAccum d then s else bufWrite s p.stack (bRes d) (List.replicate (bResBytes d) 0)
    let loads := bankLoads s p.stack d
    let n := s.mem.touched.length
    modProg s p.id (fun p => { p with begun := true, left := loads, pos := [], mark := n, unflushed := wait,
                                      results := p.results ++ [(bRes d, bNvec d * bEntries d)] })

/-- A program's entry of an operation starts if it is the present one and has not begun; a program that broke a rule runs only END (R195). -/
def startEntry (s : State) (stack pid op : Nat) (f : State → Program → Line → State) : State :=
  match getProg s stack pid with
  | some p => if bOp (progDesc s p) = op ∧ !p.begun ∧ p.sevAll ≠ stBadParam then f s p (progDesc s p) else s
  | none => s

/-- GEMV (R192). -/
def execGemv (stack pid : Nat) (s : State) : Res := .next (startEntry s stack pid 1 (fun s p _ => startCompute s p))

/-- QK (R192, R193). -/
def execQk (stack pid : Nat) (s : State) : Res := .next (startEntry s stack pid 2 (fun s p _ => startCompute s p))

/-- PV (R192, R193). -/
def execPv (stack pid : Nat) (s : State) : Res := .next (startEntry s stack pid 3 (fun s p _ => startCompute s p))

/-- The work of the present entry is done. -/
def entryDone (s : State) (pid : Nat) : State := modProg s pid (fun p => { p with begun := true, left := [], pos := [] })

/-- RCLEAR (R192, R454): zeros into BYTES bytes from RES_OFF. -/
def execRclear (stack pid : Nat) (s : State) : Res :=
  .next (startEntry s stack pid 4 (fun s p d => entryDone (bufWrite s stack (bRes d) (List.replicate (bBytes d) 0)) p.id))

/-- View lines leave their slices and write buffers without a write-back (R201). -/
def discardLines (s : State) (past : Nat → Bool) : State :=
  let s := ((s.mem.lines.map (·.1)).filter past).foldl dropLine s
  let keep (o : DOp) : Bool := !(o.write && past (o.addr / 64))
  s.mem.engines.foldl (fun s e => setEngine s e.1 { e.2 with wbuf := e.2.wbuf.filter keep, sliceQ := e.2.sliceQ.filter keep }) s

/-- PZERO (R192, R201, R205): every view line over the units is discarded, then UNIT_WORDS zero words are written in each unit. -/
def execPzero (stack pid : Nat) (s : State) : Res :=
  .next (startEntry s stack pid 5 (fun s p d =>
    match bRegion s d with
    | none => entryDone s p.id
    | some r =>
      let units := ((List.range (bUnitCount d)).map (bUnit d + ·)).filter (fun u => (mapUnit s true u).2 / 2048 == stack)
      let secs := (units.map (fun u => ((List.range (bUnitWords d)).map (fun w =>
        [wordSectors s r u w, wordSectors s r u w + 1])).flatten)).flatten
      let past (ln : Nat) : Bool := match viewOf s (64 * ln) with
        | some (q, v) => q.first == r.first && (List.range 64).any (fun i => (viewByte s r (v + i)).sectors.any (fun x => decide ((unitAt s r (secLoc x)).1 ∈ units)))
        | none => false
      entryDone (secs.foldl (fun s x => writeSector s x []) (discardLines s past)) p.id))

/-- A LOAD or DRAIN of `n` bytes at a local offset may go: it does not wait for a hold (R180), and its partition's buckets of the stacks that hold the home
slices are open for its bytes (R16, R299). A scratchpad has none: the program's stack is charged (log entry 146, DESIGN CHOICE). -/
def transferOpen (s : State) (p : Program) (held : Bool) (off n : Nat) : Bool :=
  !held && (match localRange s off n with
    | .device => rangeOpen s p.part off n
    | _ => bucketOpen s p.part p.stack n (decide (stackInflight s p.stack < 2048)))

/-- A LOAD or DRAIN is charged (R299). -/
def chargeTransfer (s : State) (p : Program) (off n : Nat) : State :=
  match localRange s off n with
  | .device => chargeRange s p.part off n
  | _ => bucketCharge s p.part p.stack n

/-- A LOAD's source waits for a hold, and a DRAIN's destination (R180); a scratchpad never does. -/
def loadHeld (s : State) (stack : Nat) (d : Line) : Bool :=
  match localRange s (offOf (bAddr d stack)) (bBytes d) with
  | .device => devHeld s (offOf (bAddr d stack)) (bBytes d)
  | _ => false
def drainHeld (s : State) (stack : Nat) (d : Line) : Bool :=
  match localRange s (offOf (bAddr d stack)) (bBytes d) with
  | .device => devWriteHeld s (offOf (bAddr d stack)) (bBytes d)
  | _ => false

/-- LOAD (R192, R197, R299): a stack hoist copies BYTES bytes to ACT_OFF; bad sectors are written as zeros and taint the area. -/
def execLoad (stack pid : Nat) (s : State) : Res :=
  .next (startEntry s stack pid 0x10 (fun s p d =>
    let off := offOf (bAddr d stack)
    if !transferOpen s p (loadHeld s stack d) off (bBytes d) then s else
    let s := chargeTransfer s p off (bBytes d)
    let rq : Rq := { port := 1, tag := bTag d }
    let (st, bs, s) := match localRange s off (bBytes d) with
      | .device =>
        (sectorsOf off (bBytes d)).foldl (fun (st, bs, s) x =>
          let (st', b, s) := sliceRead s x rq
          (worse st st', bs ++ b, s)) ((0 : W16), ([] : List Byte), s)
      | _ => (0, List.replicate (off % 32) 0 ++ scratchRead s ((off - 0x20000000000) / 131072) (off % 131072) (bBytes d), s)
    let s := bufWrite s stack (bAct d) ((bs.drop (off % 32)).take (bBytes d))
    let s := modProg s p.id (fun p => { p with sev := worse p.sev st, sevAll := worse p.sevAll st,
                                               tainted := if st = 0 then p.tainted else p.tainted ++ [(bAct d, bBytes d)] })
    entryDone s p.id))

/-- The compute entries whose results a program's present DRAIN follows: those just before it and the DRAINs it belongs to. -/
def drainedEntries (s : State) (p : Program) : List Line :=
  (((((List.range (p.cur - p.start)).map (fun i => progEntry s p.stack (p.start + i))).reverse).dropWhile (fun d => bOp d == 0x11)).takeWhile bCompute)

/-- The view bytes from which result entry `e` of a compute entry is computed again (R57, R199): its row with the row's scales, or its pages. -/
def redoReads (s : State) (stack : Nat) (d : Line) (e : Nat) : List (Nat × Nat) :=
  match bRegion s d with
  | none => []
  | some r =>
    let base := r.first * rowSetBytes s
    let i := e % bEntries d
    match bOp d with
    | 1 =>
      let row := 512 * bLg d + i
      (base + r.pitch * row, r.pitch) :: (if bScaled d then [(base + r.scaleBase + r.iPad / 32 * row, r.iPad / 32)] else [])
    | 2 => [(base + 65536 * (pageList s stack d).getD (i / 512) 0 + 128 * (i % 512), 128)]
    | _ => (pageList s stack d).map (fun k => (base + 65536 * k, 65536))

/-- The saturated entries that a DRAIN of the step sequencer's own program has copied are computed again on the dense cores, from the view, and their values take
the place of what was drained; each is counted (R199). The values are free: neither the activations' scales nor the dense cores' rounding is stated (log entry
128, DESIGN CHOICE). -/
def redoSaturated (s : State) (stack : Nat) (p : Program) (d : Line) : State :=
  (drainedEntries s p).foldl (fun s c =>
    let n := bNvec c * bEntries c
    ((List.range n).filter (fun e => bufBit s stack (bRes c + 4 * n) e)).foldl (fun s e =>
      let off := bRes c + 4 * e
      if off < bRes d ∨ bRes d + bBytes d < off + 4 then s
      else
        let s := (redoReads s stack c e).foldl (fun s x => (devRead (chargeRange s p.part x.1 x.2) x.1 x.2 { port := 1 }).2.2) s
        let (x, s) := draw s 32
        bump (localWrite s (offOf (bAddr d stack) + (off - bRes d)) (bytesOf x) { port := 0 }).2 (STK_NB_SAT_COUNT stack) (STK_NB_TALLY_STATUS stack) 2 1) s) s

/-- DRAIN (R192, R196, R199, R299): result bytes are copied out by stack hoist, then the record is written and the semaphore signalled. The step
sequencer computes the saturated entries of its own programs again. -/
def execDrain (stack pid : Nat) (s : State) : Res :=
  .next (startEntry s stack pid 0x11 (fun s p d =>
    let dest := offOf (bAddr d stack)
    if !transferOpen s p (drainHeld s stack d) dest (bBytes d) then s else
    let s := chargeTransfer s p dest (bBytes d)
    let bad := (p.results.eraseDups.map (badEntries s stack)).foldl (fun a b => (a.1 + b.1, a.2 + b.2)) (0, 0)
    let (wst, s) := localWrite s dest (bufRead s stack (bRes d) (bBytes d)) { port := 1, tag := bTag d }
    let st := worse p.sev (if wst = stMemUnc ∨ wst = stPoisoned then wst else 0)
    let n := if st = stMemUnc ∨ st = stPoisoned then bad.1 else if st = 1 then bad.2 else 0
    let detail := if st = stBadParam then p.detail else BitVec.ofNat 32 (min n 0xFFFFFFFF)
    let s := blastRecord s stack p.cur d st detail
    let s := match p.owner with
      | .sequencer _ => redoSaturated s stack p d
      | _ => s
    entryDone (modProg s p.id (fun p => { p with sev := 0, sevAll := worse p.sevAll st, results := [] })) p.id))

/-- BLAST_END: the program's END (R194, R196). -/
def execBlastEnd (stack pid : Nat) (s : State) : Res :=
  .next (match getProg s stack pid with
    | none => s
    | some p =>
      let d := progDesc s p
      if p.begun then s
      else if bOp d = 0 then
        let detail := if p.sevAll = stBadParam then p.detail else 0
        endProgram (blastRecord s stack p.cur d p.sevAll detail) p p.sevAll detail
      else if p.sevAll = stBadParam ∧ (endEntry s stack p.start).isNone then endProgram s p stBadParam p.detail
      else s)

/-- A compute entry of the step sequencer's ended with its poison bit set (R198, R371): its weights, or the sessions of the pages it read, gave poison. -/
def notePoison (s : State) (p : Program) (d : Line) : State :=
  match p.owner with
  | .sequencer part =>
    match tfind s.se.steps part with
    | some run =>
      let mine := (s.se.spans.filter (fun q => q.slots.any (fun k => decide (k ∈ pageList s p.stack d)))).map (·.session)
      let run := if bOp d = 1 then markBad run none else mine.foldl (fun r i => markBad r (some i)) run
      { s with se := { s.se with steps := tput s.se.steps part run } }
    | none => s
  | _ => s

/-- ENTRY_COMPLETE (R194): the present entry, all its reads done and spilled, completes and the next one comes up. -/
def execEntryComplete (stack pid : Nat) (s : State) : Res :=
  match getProg s stack pid with
  | none => .next s
  | some p =>
    let d := progDesc s p
    if !p.begun ∨ p.left ≠ [] then .next s
    else
      let s := if bCompute d then loosen s p d else s
      let compute := bCompute d || bOp d == 5
      let s := if compute then bump s (STK_NB_PASS_COUNT stack) (STK_NB_TALLY_STATUS stack) 0 1 else s
      let bad := if bCompute d then badEntries s stack (bRes d, bNvec d * bEntries d) else (0, 0)
      let s := if bad.1 ≠ 0 then notePoison s p d else s
      let st : W16 := if bad.2 ≠ 0 then 1 else 0
      .next (modProg s pid (fun p => { p with begun := false, cur := p.cur + 1, sev := worse p.sev st,
                                              sevAll := worse p.sevAll st, pos := [], left := [] }))

/-! ## Grants and micro-steps (R187, R301) -/

/-- The grant in force of a stack ID (R23): that of its stack (R383). -/
def grantOf (s : State) (sid : Nat) : Nat := tget s.nb.grant (sid / 256) 0

/-- HF_LSPLIT_RATE_NB (R219, R223): the module's rate at the grants in force, from the last assay's measurement or the nominal value. -/
def refreshRateNb (s : State) : State := wr s HF_LSPLIT_RATE_NB (BitVec.ofNat 32 (moduleRate s s.nb.measured))

/-- The share of a stack ID's reads that a program has in the present window (R301). -/
def shareOf (s : State) (sid : Nat) (p : Program) : Nat :=
  let here := s.nb.programs.filter (fun q => q.left.any (fun b => b.1 / 8 == sid))
  let parts := (here.map (·.part)).eraseDups
  let sum := (parts.map (fun k => rf s (PART_NB k) 0 8)).foldl (· + ·) 0
  let mine := (here.filter (fun q => q.part == p.part)).length
  16 * grantOf s sid * rf s (PART_NB p.part) 0 8 / max sum 1 / max mine 1

/-- Reads of a program on a stack ID in the present window. -/
def usedBy (s : State) (pid sid : Nat) : Nat :=
  match s.nb.usedBy.find? (fun u => u.1 == pid && u.2.1 == sid) with | some u => u.2.2 | none => 0

/-- A program may read a bank now: it has reads left there, no write-back that the entry awaits is kept by a hold (R201), the pseudo-channel is not held
(R204), the bank serves no other program's segment (R194),
and it has made fewer than 64 reads in the window, one per NB cycle (R187). -/
def canRead (s : State) (p : Program) (bank : Nat) : Bool :=
  p.begun && decide (0 < tget p.left bank 0) && !p.unflushed.any (lineWaits s) && !pcHeld s (bank / 32) &&
    (match (getUnit s bank).seg with | some q => q == p.id | none => true) && decide (tget s.nb.usedBank bank 0 < 64)

/-- Reads of a program beyond its share of a stack ID in the present window (R301). -/
def readsExtra (s : State) (sid : Nat) (p : Program) : Nat := usedBy s p.id sid - shareOf s sid p

/-- Reads a program may make now on a stack ID: the rest of its own share; beyond it, what rounding and those that cannot read leave, in turn with the other
programs that have used up theirs (R187, R301). -/
def readsOpen (s : State) (sid : Nat) (p : Program) : Nat :=
  let others := s.nb.programs.filter (fun q => q.id != p.id && q.left.any (fun b => b.1 / 8 == sid && canRead s q b.1))
  let kept := (others.map (fun q => shareOf s sid q - usedBy s q.id sid)).foldl (· + ·) 0
  let left := 16 * grantOf s sid - tget s.nb.used sid 0 - kept
  let rivals := others.filter (fun q => decide (shareOf s sid q ≤ usedBy s q.id sid))
  if rivals = [] then left
  else if usedBy s p.id sid < shareOf s sid p then min (shareOf s sid p - usedBy s p.id sid) left
  else if rivals.all (fun q => decide (readsExtra s sid p ≤ readsExtra s sid q)) then min 1 left
  else 0

/-- GRANT_WINDOW (R24, R218, R301): a new 128 ns window begins with no read made; the arbiter's grant of each stack ID is in force from here on. -/
def execGrantWindow (stack : Nat) (s : State) : Res :=
  let here (sid : Nat) : Bool := sid / 256 == stack
  let new := tget s.nb.grantSet stack 0
  let changed := decide (new ≠ tget s.nb.grant stack 0)
  let s := { s with nb := { s.nb with
    grant := tset s.nb.grant stack new 0
    dryFrom := if new ≠ 0 then tdel s.nb.dryFrom stack else if changed then tput s.nb.dryFrom stack (mono s) else s.nb.dryFrom
    used := s.nb.used.filter (fun u => !here u.1), usedBy := s.nb.usedBy.filter (fun u => !here u.2.1),
    usedBank := s.nb.usedBank.filter (fun u => !here (u.1 / 8)) } }
  let uses (r : StepRun) : Bool := match r.group with | some (_, m) => decide (m ≠ .dense) | none => false
  let mark (part : Nat) (r : StepRun) : StepRun := if uses r && inHalves s part r then { r with regrant := true } else r
  .next (if changed then refreshRateNb { s with se := { s.se with steps := s.se.steps.map (fun r => (r.1, mark r.1 r.2)) } } else s)

/-- A column word as the unit sees it after ECC correction, its bad sectors, the severity met, and the state (R198). Padding lanes and inputs hold
zero codes (R34, R56). -/
def readColumn (s : State) (r : Region) (d : Line) (unit word : Nat) : BitVec 512 × (Nat → Bool) × W16 × State :=
  let x := wordSectors s r unit word
  let rq : Rq := { port := 2, tag := bTag d }
  let (s0, s) := checkSector s x rq (secAddr s x) true
  let (s1, s) := checkSector s (x + 1) rq (secAddr s (x + 1)) true
  let stored : BitVec 512 := BitVec.ofNat 512 (leNat (sectorBytes s x ++ sectorBytes s (x + 1)))
  let bits := (List.range 512).foldl (fun (b : BitVec 512) l =>
    if (unitView r unit (64 * word + l / 8) (l % 8)).isSome then b else b &&& ~~~(1#512 <<< l)) stored
  (bits, fun l => if l < 256 then s0 != 0 else s1 != 0, worse s0 s1, s)

/-- The read at a position of the bank's order: the unit, its order number, the word, the segment, and whether it is the segment's last. -/
def readAt (d : Line) (us : List (Nat × Nat × Nat)) (pos : Nat) : Option (Nat × Nat × Nat × Nat × Bool) :=
  match us with
  | [] => none
  | (u, seg, idx) :: rest =>
    let n := unitReads d idx
    if pos < n then
      some (u, idx, pos, seg, pos + 1 == n && (match rest with | (_, seg', _) :: _ => seg' != seg | [] => true))
    else readAt d rest (pos - n)

/-- One column read of a program in a bank, with its fold, its spill and its counts. -/
def microRead (s : State) (stack pid bank : Nat) : State :=
  match getProg s stack pid with
  | none => s
  | some p =>
    let d := progDesc s p
    match bRegion s d, readAt d (bankUnits s stack d bank) (tget p.pos bank 0) with
    | some r, some (u, idx, word, seg, last) =>
      let (bits, bad, st, s) := readColumn s r d u word
      let n := readWord s stack d (getUnit s bank) u idx word bits bad
      let s := setUnit s bank { n with seg := some pid }
      let s := if last then spill s p d bank seg else s
      let s := modProg s pid (fun p => { p with pos := tset p.pos bank (tget p.pos bank 0 + 1) 0,
                                                left := tset p.left bank (tget p.left bank 0 - 1) 0,
                                                sev := worse p.sev st, sevAll := worse p.sevAll st })
      let sid := bank / 8
      let used := usedBy s pid sid + 1
      let others := s.nb.usedBy.filter (fun u => !(u.1 == pid && u.2.1 == sid))
      let s := { s with nb := { s.nb with used := tset s.nb.used sid (tget s.nb.used sid 0 + 1) 0, usedBy := (pid, sid, used) :: others,
                                          usedBank := tset s.nb.usedBank bank (tget s.nb.usedBank bank 0 + 1) 0 } }
      bump s (STK_NB_READS stack) (STK_NB_TALLY_STATUS stack) 1 1
    | _, _ => s

/-- MICRO_STEP (R187): at most 16 consecutive column reads of one bank within the window's allowance; a bank serves one program's segment
at a time (R194), and a held pseudo-channel pauses (R204). The view lines that a hold kept are written back before the entry's first read (R201). -/
def execMicroStep (stack pid bank : Nat) (s : State) : Res :=
  match getProg s stack pid with
  | none => .next s
  | some p =>
    if !canRead s p bank || decide (bank / 2048 ≠ stack) then .next s
    else
      let k := min 16 (min (tget p.left bank 0) (min (64 - tget s.nb.usedBank bank 0) (readsOpen s (bank / 8) p)))
      let s := if p.unflushed = [] then s else modProg (p.unflushed.foldl flushLine s) pid (fun p => { p with unflushed := [] })
      .next (iterate k (fun _ s => microRead s stack pid bank) s)

/-! ## The host aperture (R206 to R208) -/

/-- A write of the aperture's CONTROL line (R207, R208). -/
def aptControl (s : State) (control : Line) : State :=
  let mask := fld control 0 8
  let len := fld control 8 6
  let sel := (List.range 8).filter (nbit mask)
  let part := rf s (STK_APT_CTRL 0) 1 4
  let finish (s : State) (st : W16) (detail : Nat) : State :=
    let line : Line := pack 512 [(1, 1, 1), (2, 1, b2n (bit s.nb.aptStatus 2)), (16, 16, st.toNat), (32, 32, detail), (64, 64, now s)]
    { s with nb := { s.nb with aptStatus := line } }
  if !aptOn s || !bit control 14 then s
  else if bit s.nb.aptStatus 0 then { s with nb := { s.nb with aptStatus := s.nb.aptStatus ||| 4 } }
  else if mask = 0 ∨ len < 1 ∨ 32 < len ∨ fld control 15 17 ≠ 0 ∨ fld control 64 448 ≠ 0 then (finish s stBadParam 0x27)
  else if sel.any (fun k => decide (stackCount s ≤ k)) then (finish s 0x0103 0)
  else match sel.find? (fun k => startRefused s k part) with
    | some k => (finish s 0x0104 k)
    | none =>
      let s := sel.foldl (fun s k =>
        iterate len (fun i s => { s with nb := { s.nb with progMem := tset s.nb.progMem (64 * k + 32 + i) (tget s.nb.aptSlots i 0) 0 } }) s) s
      let s := { s with nb := { s.nb with aptStatus := 1, aptEnds := [] } }
      (sel.foldl (fun s k => (startProgram s k 32 part (BitVec.ofNat 32 (fld control 32 32)) .aperture).2) s)

/-- START (R208): a write of CONTROL with START set. -/
def execStart (control : Line) (s : State) : Res := .next (aptControl s control)

end Sys2Proof.Machine
end

