-- ==== Sys2Proof/Machine/MemRows.lean ====
section
/-! DEFINITION. The home slices and the pseudo-channel engines at work (R139, R160 to R164, R202), the responses and semaphore operations of
threads (R88, R144), and the waits of the regulators (R299). -/
namespace Sys2Proof.Machine

/-! ## Home-slice accesses -/

def getOp (s : State) (id : Nat) : Option MemOp := s.cores.ops.find? (fun o => o.id == id)

/-- An operation waits behind an earlier one of its core on the same sector: the mesh port keeps issue order (R137). -/
def behind (s : State) (o : MemOp) (a : Nat) : Bool :=
  s.cores.ops.any (fun p => p.t.vcore == o.t.vcore && decide (p.id < o.id) && p.node == 0 && p.todo.any (fun g => p.sector g / 32 == a / 32) &&
    (match p.kind with | .load _ _ _ _ => true | .store _ => true | .amo _ _ => true | _ => false))

/-- Bytes of an operation's granule, at its requester (R299). -/
def granuleBytes (o : MemOp) (g : Nat) : Nat :=
  let off := offOf o.addr
  ((List.range o.span).filter (fun i => (off + i) / 32 == o.sector g / 32)).length

/-- The granule needs no DRAM operation: its sector is present or in the write buffer, or it overwrites a whole sector (R139, R154, R164). -/
def servedAtSlice (s : State) (o : MemOp) (g : Nat) : Bool :=
  let a := o.sector g
  let off := offOf o.addr
  bit (getLine s (a / 64)).valid (a / 32 % 2) || (bufferedWrite s a).isSome ||
    (match o.kind with
    | .store n => (List.range 32).all (fun i => decide (off ≤ a + i) && decide (a + i < off + n) && bit o.mask (a + i - off))
    | _ => false)

/-- The bank and row that a fill of the sector at `a` reads. -/
def fillPlace (s : State) (a : Nat) : Nat × Nat :=
  match viewOf s a with
  | some (r, v) =>
    match (((List.range 32).map (fun i => (viewByte s r (v + i)).sectors)).flatten) with
    | x :: _ => (x / 64 / 24576, x / 64 % 24576)
    | [] => ((mapLin s a).bank, (mapLin s a).row)
  | none => ((mapLin s a).bank, (mapLin s a).row)

/-- HOME_SLICE_ACCESS (R139, R154, R160, R299): a granule of a thread's operation arrives at its home slice. It is performed there, or a DRAM
operation is queued for it in its engine, or it waits at its requester; what overwrites a sector keeps its place behind the fills of that sector (R180). -/
def execHomeSliceAccess (op granule : Nat) (s : State) : Res :=
  match getOp s op with
  | none => .next s
  | some o =>
    let a := o.sector granule
    let mem := match o.kind with | .load _ _ _ _ => true | .store _ => true | .amo _ _ => true | _ => false
    if !mem || o.node ≠ 0 || o.done || o.short || decide (granule ∉ o.todo) || behind s o a then .next s
    else
      let pc := homeSlice s a
      let (bank, row) := fillPlace s a
      let e := getEngine s (bank / 32)
      let queued := (e.inflight ++ e.sliceQ).any (fun d => d.op == op && d.gran == granule && !d.write)
      let full := decide (128 ≤ e.load) && decide (64 ≤ e.sliceQ.length)
      let later := servedAtSlice s o granule && (e.inflight ++ e.sliceQ).any (fun d => d.addr / 32 == a / 32 && !d.write)
      if queued || later || allocBlocked s a || (!servedAtSlice s o granule && full) then .next s
      else
        let part := o.part
        let n := granuleBytes o granule
        if !bucketOpen s part (pc / 64) n (decide (stackInflight s (pc / 64) < 2048)) then .next (modOp s op (fun o => { o with short := true }))
        else
          let s := bucketCharge s part (pc / 64) n
          if servedAtSlice s o granule then .next (settleEnd (performGranule s o granule) o.t)
          else
            let critical := match o.kind with | .load _ _ _ _ => true | .amo _ _ => true | _ => false
            let d : DOp := { id := s.cores.nextId, write := false, bank := bank, row := row, addr := a, op := op, gran := granule, port := 0,
                             urgency := 0, critical := critical, arrived := mono s, data := 0, dirty := 0, poison := 0 }
            let s := { s with cores := { s.cores with nextId := s.cores.nextId + 1 } }
            let s := setEngine s (bank / 32) (if e.load < 128 then { e with inflight := e.inflight ++ [d] } else { e with sliceQ := e.sliceQ ++ [d] })
            .next (if bankBusy s bank then bump s (STK_NB_YIELD_COUNT (bank / 2048)) (STK_NB_TALLY_STATUS (bank / 2048)) 3 1 else s)

/-- The stack whose home slice a thread's semaphore operation names (R143), as its bucket (R299). -/
def semStack (s : State) (n : Nat) : Nat := n % (64 * stackCount s) / 64

/-- BUCKET_WAIT_END (R299, R300): a request that found its bucket short, or a packet that waits for its port's bucket, may go. -/
def execBucketWaitEnd (op : Nat) (s : State) : Res :=
  let s := match getOp s op with
    | some o =>
      let part := o.part
      let sem := match o.kind with | .load _ _ _ _ => false | .store _ => false | .amo _ _ => false | _ => true
      let open_ := if sem then (let st := semStack s ((offOf o.addr - 0x30000000000) / 8); bucketOpen s part st 8 (decide (stackInflight s st < 2048)))
        else o.todo.any (fun g =>
          let st := homeSlice s (o.sector g) / 64
          bucketOpen s part st (granuleBytes o g) (decide (stackInflight s st < 2048)))
      if o.short && open_ then modOp s op (fun o => { o with short := false }) else s
    | none => s
  .next ((s.fab.flows.filter (fun f => f.waitq.any (fun x => decide (x.owner = .op op) || decide (x.owner = .move op) || decide (x.owner = .tier op)))).foldl
    (fun s f => pump s f.peer f.cls) s)

/-! ## The engines (R160 to R164) -/

/-- A DRAM operation has been done: its row is open, the engine takes the next requests of its slice, and the granule it was for is
performed. -/
def completeDop (s : State) (pc : Nat) (d : DOp) : State :=
  let e := getEngine s pc
  let s := setEngine s pc (refill { e with inflight := e.inflight.filter (fun x => x.id != d.id), openRow := tset e.openRow d.bank (d.row + 1) 0 })
  match getOp s d.op with
  | some o => if d.gran ∈ o.todo then performGranule s o d.gran else s
  | none => s

/-- A DRAM operation may be served now: no pseudo-channel it reads is held, no bank it reads holds a blast, and no refresh of its bank is at its limit. -/
def dopReady (s : State) (pc : Nat) (d : DOp) : Bool :=
  !pcHeld s pc && !sourceHeld s d.addr && !bankBusy s d.bank && !(sourceSectors s d.addr).any (fun x => bankBusy s (x / 64 / 24576)) && decide (tget (getEngine s pc).postponed d.bank 0 ≤ 8)

/-- The order of R164: urgency, latency-critical reads, an open row, arrival. What a hold has kept waiting goes first, in arrival order (R180). -/
def dopBefore (e : Engine) (a b : DOp) : Bool :=
  let crit (d : DOp) : Bool := d.critical || d.urgency == 3
  let hit (d : DOp) : Bool := tget e.openRow d.bank 0 == d.row + 1
  let first := decide (a.arrived < b.arrived) || (a.arrived == b.arrived && decide (a.id < b.id))
  if a.released || b.released then (if a.released && b.released then first else a.released)
  else if a.urgency ≠ b.urgency then decide (b.urgency < a.urgency)
  else if crit a ≠ crit b then crit a
  else if hit a ≠ hit b then hit a
  else first

/-- The operation an engine does next (R164). -/
def chooseDop (s : State) (pc : Nat) : Option DOp :=
  let e := getEngine s pc
  (e.inflight.filter (dopReady s pc)).foldl (fun best d => match best with
    | none => some d
    | some b => if dopBefore e d b then some d else some b) none

/-- MEMORY_OPERATION_COMPLETE (R160, R164): the engine's chosen operation completes. -/
def execMemoryOperationComplete (pc : Nat) (s : State) : Res :=
  match chooseDop s pc with
  | none => .next s
  | some d =>
    let t := (getOp s d.op).map (·.t)
    let s := completeDop s pc d
    .next (match t with | some t => settleEnd s t | none => s)

/-- WRITE_BUFFER_DRAIN (R164): a batch when the buffer is three-quarters full, or when no read can be served; held pseudo-channels wait. -/
def execWriteBufferDrain (pc : Nat) (s : State) : Res :=
  let e := getEngine s pc
  if e.wbuf = [] ∨ pcHeld s pc then .next s
  else if 48 ≤ e.wbuf.length ∨ chooseDop s pc = none then .next (drainWrites s pc)
  else .next s

/-- URGENCY_RISE (R162, R163): an operation's urgency follows the share of its port's target that has passed. -/
def execUrgencyRise (pc dop : Nat) (s : State) : Res :=
  let e := getEngine s pc
  let up (d : DOp) : DOp :=
    let target := rf s (STK_QOS_TGT (pc / 64) d.port) 0 16
    let age := mono s - d.arrived
    let u := if target ≤ age then 3 else if 3 * target ≤ 4 * age then 2 else if target ≤ 2 * age then 1 else 0
    { d with urgency := max d.urgency u }
  .next (setEngine s pc { e with inflight := mapIf (fun d => d.id == dop) up e.inflight, sliceQ := mapIf (fun d => d.id == dop) up e.sliceQ })

/-- YIELD_SLOT (R202): at a micro-step boundary, once the oldest held operation of the bank has waited the window less 250 ns, its engine
performs at most 4 held operations in arrival order. Those it leaves are served at the boundaries that follow. -/
def execYieldSlot (bank : Nat) (s : State) : Res :=
  let pc := bank / 32
  let held := (getEngine s pc).inflight.filter (fun d => d.bank == bank)
  match held with
  | [] => .next s
  | d :: _ =>
    let window := rf s (STK_NB_YIELD (bank / 2048)) 0 16
    if !bankBusy s bank || pcHeld s pc || (!d.slotted && decide (mono s < d.arrived + (window - 250))) then .next s
    else
      let s := (held.take 4).foldl (fun s d => completeDop s pc d) s
      let e := getEngine s pc
      .next (setEngine s pc { e with inflight := mapIf (fun d => d.bank == bank) (fun d => { d with slotted := true }) e.inflight })

/-! ## Responses and semaphore operations -/

/-- An operation leaves the thread. -/
def removeOp (s : State) (id : Nat) : State :=
  { s with cores := { s.cores with ops := s.cores.ops.filter (fun o => o.id != id) } }

/-- A completed operation's result reaches the live thread (R88): an error status zeroes the destination and sets MEMERR.
The old value of a 32- or 16-bit AMO is zero-extended (log entry 122, DESIGN CHOICE). -/
def landOp (s : State) (o : MemOp) : State :=
  match jobAt s o.t.vcore with
  | none => removeOp s o.id
  | some j =>
    let v : VReg := if o.status ≠ 0 then 0 else match o.kind with
      | .load n signed vec _ => if vec then o.res else (loadValue n signed o.res).setWidth 2048
      | .amo _ t => (loadValue (if t = 1 then 8 else if t = 0 ∨ t = 2 then 4 else 2) false o.res).setWidth 2048
      | _ => o.res
    let s := memErr s o.t o.status
    let s := deliver s j o.t o.dest o.id v
    settleEnd (retryOps (removeOp s o.id) o.t) o.t

/-- The completion of a parked operation takes the next entry of its thread's park area (R306, R307): 32 bytes whose format the spec leaves open, free values
(log entry 45, DESIGN CHOICE), and a vector load's 256 bytes on the entry's data line. -/
def writePark (s : State) (o : MemOp) : State :=
  let k := (s.cores.parkOrder.filter (fun id => s.cores.ops.any (fun p => p.id == id && decide (p.t = o.t)))).length
  let area := offOf (saveArea s o.part) + saveBytes * (o.t.vcore - partBase s o.part) + 200704 + 18432 * o.t.thread
  let (x, s) := draw s 256
  let s := (devWrite s (area + 32 * k) (bytesOf x) { port := 0 }).2
  match o.kind with
  | .load _ _ true _ => (devWrite s (area + 2048 + 256 * k) (bytesOf o.res) { port := 0 }).2
  | _ => s

/-- A parked operation's completion is recorded (R307). -/
def park (s : State) (o : MemOp) : State :=
  let s := writePark s o
  { s with cores := { s.cores with parkOrder := s.cores.parkOrder ++ [o.id] } }

/-- MEMORY_RESPONSE (R76, R88, R307): a completed operation reaches its thread, or the park area of a thread whose core is saved. -/
def execMemoryResponse (op : Nat) (s : State) : Res :=
  match getOp s op with
  | none => .next s
  | some o =>
    if !o.done then .next s
    else if o.parked then
      .next (if op ∈ s.cores.parkOrder then s else park s o)
    else .next (landOp s o)

/-- SEMAPHORE_OPERATION (R144 to R146, R299): a thread's semaphore operation is performed at its home slice, 8 bytes of its partition's bucket there. A parked
SEMSIG's acknowledgement goes to the park area (R307). -/
def execSemaphoreOperation (op : Nat) (s : State) : Res :=
  match getOp s op with
  | none => .next s
  | some o =>
    let n := (offOf o.addr - 0x30000000000) / 8
    let a : W64 := o.data.setWidth 64
    let isSem (k : OpKind) : Bool := match k with | .semSig => true | .semWait => true | .semTry => true | _ => false
    let earlier := s.cores.ops.any (fun p => p.t.vcore == o.t.vcore && decide (p.id < o.id) && isSem p.kind && p.node == 0 &&
      decide (p.addr = o.addr) && decide (p.todo ≠ []))
    let saved := decide (o.kind = .semWait) && decide (o.t.vcore ∈ s.cores.preempted)
    let st := semStack s n
    if o.node ≠ 0 ∨ o.todo = [] ∨ !isSem o.kind ∨ earlier ∨ saved ∨ o.short then .next s
    else if !bucketOpen s o.part st 8 (decide (stackInflight s st < 2048)) then .next (modOp s op (fun o => { o with short := true }))
    else let s := bucketCharge s o.part st 8; match o.kind with
      | .semSig =>
        let part := o.part
        let s := semSignal s n a { source := 1, agent := o.origin.vcore, thread := o.origin.thread, tag := o.tag, subtag := o.subtag, port := 0 }
        let s := traceEvent s 12 o.tag o.subtag.toNat part o.origin.vcore o.origin.thread n a.toNat
        .next (if o.parked then modOp s op (fun o => { o with todo := [], done := true }) else settleEnd (removeOp s op) o.t)
      | .semWait =>
        let s := modOp s op (fun o => { o with todo := [] })
        .next (semWaitOp s n a o.t o.tag)
      | _ =>
        let s := cleanTouch s o.tag n
        let (ok, s) := semTake s n a
        .next (modOp s op (fun o => { o with todo := [], done := true, res := if ok then 1 else 0 }))

/-- CLOCK_GATE (R147): a core whose threads all wait on semaphores has its clock gated. -/
def execClockGate (vcore : Nat) (s : State) : Res :=
  match jobAt s vcore with
  | none => .next s
  | some j =>
    let run (k : Nat) : Run := (getThread s { vcore := vcore, thread := k }).run
    let waits (k : Nat) : Bool := match run k with | .semWait _ _ => true | _ => false
    let idle (k : Nat) : Bool := waits k || run k == .ended
    let ks := List.range j.threads
    if ks.all idle && ks.any waits && decide (vcore ∉ s.cores.gated) then .next { s with cores := { s.cores with gated := s.cores.gated ++ [vcore] } }
    else .next s

end Sys2Proof.Machine
end

