-- ==== Sys2Proof/Machine/QueueCmds.lean ====
section
/-! DEFINITION. Queue pairs at work (R149, R265 to R268, R278): the admin queue's registers, doorbells, the fetch of commands, and the queue,
semaphore, tally and error-log commands. -/
namespace Sys2Proof.Machine

/-- A queue pair enters ERROR, with one entry (R267). -/
def queueError (s : State) (q idx : Nat) : State :=
  logErr (modQp s q (fun x => { x with error := true })) { cls := 0x30, port := 3, loc := q, detail := idx }

/-- An index is written to SQ_TAIL (R267). Indices are kept without wrapping. One written to queue pair 0 before its registers enable it, or to any
pair during BOOT, is kept for the queue that is created there (R278, R429; log entry 131, DEDUCED). -/
def doorbell (s : State) (q idx : Nat) : State :=
  let x := getQp s q
  let n := 2 ^ x.log2
  let added := (idx + n - x.sqTail % n) % n
  if !x.defined then (if q = 0 ∨ devState s = 1 then modQp s q (fun x => { x with sqTail := idx }) else s)
  else if x.error then s
  else if n ≤ idx ∨ n < x.sqTail - x.sqHead + added then queueError s q idx
  else modQp s q (fun x => { x with sqTail := x.sqTail + added })

/-- An index is written to CQ_HEAD (R267): completion entries before it are free. The present index on a full ring frees all of it (log entry 33,
DEDUCED). -/
def freeCompletions (s : State) (q idx : Nat) : State :=
  let x := getQp s q
  let n := 2 ^ x.log2
  let used := x.cqTail - x.cqHead
  let freed := let a := (idx + n - x.cqHead % n) % n; if a = 0 ∧ used = n then n else min a used
  if !x.defined then (if devState s = 1 then modQp s q (fun x => { x with cqHead := idx }) else s)
  else if x.error then s
  else if n ≤ idx then queueError s q idx
  else modQp s q (fun x => { x with cqHead := x.cqHead + freed })

/-- The doorbells kept for a queue before it was there take effect (R278, R429). -/
def keptDoorbells (s : State) (q : Nat) (old : QueuePair) : State :=
  if old.defined then s
  else
    let s := if old.sqTail = 0 then s else doorbell s q old.sqTail
    if old.cqHead = 0 then s else freeCompletions s q old.cqHead

/-! ## The admin queue (R266) -/

/-- A write of GLOBAL_AQ_CFG. With EN clear, the other fields take their values and a 1 in EN starts the queue at entry 0 in the states that
allow it; with EN set, only a 0 in EN has an effect. -/
def aqWrite (s : State) (w : W32) : State :=
  if rf s GLOBAL_AQ_CFG 8 1 = 1 then (if bit w 8 then s else wf s GLOBAL_AQ_CFG 8 1 0)
  else
    let lg := max 4 (min 16 (fld w 0 5))
    let s := wr s GLOBAL_AQ_CFG (pack 32 [(0, 5, lg), (5, 1, fld w 5 1), (16, 9, fld w 16 9)])
    if bit w 8 ∧ (devState s = 2 ∨ devState s = 3 ∨ devState s = 4 ∨ devState s = 5 ∨ devState s = 7) then
      let base (off : Nat) : W64 := BitVec.ofNat 64 ((rd64 s off).toNat / 4096 * 4096)
      let n := (s.host.cmds.filter (fun c => c.queue == 0)).length
      let q := { QueuePair.zero with
        defined := true, sqBase := base GLOBAL_AQ_SQ_BASE, cqBase := base GLOBAL_AQ_CQ_BASE, log2 := lg, yields := bit w 5, admin := true
        msix := fld w 16 9, reserved := n }
      keptDoorbells (setQp (wf s GLOBAL_AQ_CFG 8 1 1) 0 q) 0 (getQp s 0)
    else s

/-- AQ_ENABLE (R266): a write of GLOBAL_AQ_CFG with EN. -/
def execAqEnable (w : W32) (s : State) : Res := .next (if bit w 8 then aqWrite s w else s)

/-- AQ_DISABLE (R266): a write of GLOBAL_AQ_CFG that clears EN. -/
def execAqDisable (w : W32) (s : State) : Res := .next (if !bit w 8 && rf s GLOBAL_AQ_CFG 8 1 == 1 then aqWrite s w else s)

/-- AQ_DISABLE_DONE (R266): the commands fetched before EN was cleared have completed; indices, phase and ERROR return to their start. -/
def execAqDisableDone (s : State) : Res :=
  if rf s GLOBAL_AQ_CFG 8 1 = 0 ∧ (getQp s 0).defined ∧ !s.host.cmds.any (fun c => c.queue == 0) then .next (setQp s 0 QueuePair.zero)
  else .next s

/-! ## Doorbells (R267) -/

/-- SQ_TAIL (R267): commands up to an index become visible. -/
def execSqTail (q : Nat) (w : W32) (s : State) : Res := .next (doorbell s q (fld w 0 16))

/-- CQ_HEAD (R267). -/
def execCqHead (q : Nat) (w : W32) (s : State) : Res := .next (freeCompletions s q (fld w 0 16))

/-! ## Fetching (R149, R268) -/

/-- The device state lets commands be fetched (R278, R365). -/
def fetching (s : State) : Bool := (serving s || devState s == 7) && !s.host.fetchStopped

/-- The partition whose fetch engine serves a queue (R149, R277). -/
def qpPart (s : State) (q : Nat) : Nat := if 256 ≤ q then q % 16 else (getQp s q).part

/-- Another queue of the partition stalls its fetch engine (R149). -/
def stalled (s : State) (q : Nat) : Bool :=
  s.host.qps.any (fun x => decide (x.1 ≠ q) && x.2.part == qpPart s q && x.2.waitSem.isSome && !x.2.yields)

/-- A fetched command joins those in progress (R268 to R270, R277): its extended block is read, a trace record made, an unassigned opcode
answered at once. -/
def acceptCmd (s : State) (c : Cmd) : State :=
  let p := c.pkt
  let a : W64 := BitVec.ofNat 64 (pk p 16 8)
  let (c, s) := if pkExtended p ∧ 64 ≤ pkExtLen p ∧ pkExtLen p ≤ 1048576 then
      if bufOk s a (pkExtLen p) then
        let (st, bs, s) := structRead s c a (pkExtLen p)
        ({ c with ext := bs, extStatus := st }, s)
      else ({ c with extStatus := stBadParam }, s)
    else (c, s)
  let s := { s with host := { s.host with cmds := s.host.cmds ++ [c], nextCmd := s.host.nextCmd + 1 } }
  let s := traceEvent s 0 (pkTag p) 0 (pkPart p % 16) (cmdSource c) 0 (pkOp p) (match c.src with | some (node, _, _) => node | none => 0)
  if opAssigned (pkOp p) then s else reject s c 0x0100 0

/-- The queue a command that came over the Level counts as (R277). -/
def RemoteCmd.queue (r : RemoteCmd) : Nat := remoteQueue r.src (pkPart r.pkt % 16)

/-- A waiting command from the Level may be fetched: it is its source's oldest, and neither the partition's engine nor its own source's head holds it
(R149, R268, R277). -/
def remoteReady (s : State) (r : RemoteCmd) : Bool :=
  let mine := s.host.cmds.filter (fun c => c.queue == r.queue)
  (s.host.remote.find? (fun x => x.queue == r.queue) == some r) && (getQp s r.queue).waitSem.isNone && !stalled s r.queue &&
    mine.all (fun c => c.begun) && (!pkOrdered r.pkt || decide (mine = []))

/-- The partition admits remote commands from the node (R277, R294). -/
def remoteAdmitted (s : State) (part node : Nat) : Bool :=
  match tfind s.parts part with
  | some p => (rf s (PART_STATUS part) 0 1 == 1) && (p.remoteCmd == 2 || (p.remoteCmd == 1 && p.nodes.any (fun n => n.toNat == node)))
  | none => false

/-- A command that came over the Level is accepted (R277): a reserved flag is BAD_OPCODE, a node that its partition does not admit PERMISSION (R273). -/
def acceptRemote (s : State) (r : RemoteCmd) : State :=
  let c : Cmd := { id := s.host.nextCmd, queue := r.queue, pkt := r.pkt, ext := [], extStatus := 0, src := some (r.src, r.cls, r.psn), begun := false,
                   at_ := mono s, count := 0, status := 0, detail := 0 }
  let s := acceptCmd s c
  match getCmd s c.id with
  | some c => if remoteAdmitted s (pkPart r.pkt) r.src then s else reject s c (if badOpcode c.pkt then 0x0100 else 0x0105) 0
  | none => s

/-- A partition's fetch engine takes the first command from the Level that it may fetch, in the order of arrival (R277). -/
def fetchRemote (s : State) (q : Nat) : State :=
  match s.host.remote.find? (fun r => r.queue % 16 == q % 16 && remoteReady s r) with
  | some r =>
    if r.queue = q ∧ fetching s then acceptRemote { s with host := { s.host with remote := s.host.remote.erase r } } r else s
  | none => s

/-- COMMAND_FETCH (R268 to R270, R277): the next command of a queue is read from the ring, its completion entry reserved, its extended block read;
an unassigned opcode is answered at once. A queue number from 256 on stands for a source node and partition. -/
def execCommandFetch (q : Nat) (s : State) : Res :=
  if 256 ≤ q then .next (fetchRemote s q) else
  let x := getQp s q
  let n := 2 ^ x.log2
  let open_ := x.defined && !x.error && x.deleting.isNone && x.waitSem.isNone && decide (x.sqHead < x.sqTail) &&
    decide (x.cqTail - x.cqHead + x.reserved < n) && (q != 0 || rf s GLOBAL_AQ_CFG 8 1 == 1) && !stalled s q && fetching s
  let (st, bs) := hostRead s (x.sqBase.toNat + 64 * (x.sqHead % n)) 64
  let p := lineOf bs
  let mine := s.host.cmds.filter (fun c => c.queue == q)
  if !open_ || st != stOk || mine.any (fun c => !c.begun) || (pkOrdered p && decide (mine ≠ [])) then .next s
  else
    let c : Cmd := { id := s.host.nextCmd, queue := q, pkt := p, ext := [], extStatus := 0, src := none, begun := false, at_ := mono s, count := 0,
                     status := 0, detail := 0 }
    let s := modQp s q (fun x => { x with sqHead := x.sqHead + 1, reserved := x.reserved + 1 })
    .next (acceptCmd s c)

/-! ## Queue commands (R278) -/

/-- NOP (R278). -/
def execNop (id : Nat) (s : State) : Res :=
  .next (runCmd s id 0x0000 fun s c => checked s c (checks s c [] false [] [] [] false) fun s => complete s c stOk 0 0)

/-- A partition is defined (R302). -/
def partDefined (s : State) (p : Nat) : Bool := rf s (PART_STATUS p) 0 1 == 1

/-- QUEUE_CREATE (R278, R456). A pair that an accepted QUEUE_DELETE removes counts as absent (R274), and is defined anew once it has gone. -/
def execQueueCreate (id : Nat) (s : State) : Res :=
  .next (runCmd s id 0x0002 fun s c =>
    let p := c.pkt
    let q := pk p 16 1
    let part := pkPart p
    checked s c (checks s c [] false
      [(decide (fld p 146 6 ≠ 0), 0x01),
       (q == 0 || decide (pk p 17 1 < 4) || decide (16 < pk p 17 1) || decide (511 < pk p 20 2) || decide (255 < pk p 40 4), 0xB0),
       (decide (pk p 24 8 % 4096 ≠ 0) || decide (pk p 32 8 % 4096 ≠ 0), 0xB1)] []
      [ckState (((getQp s q).defined && ((getQp s q).deleting.isNone || q == c.queue)) || s.host.cmds.any (fun d => d.id != id && createWaiting s q == some d)) 0x05 1,
       ckState (!partDefined s part) 0x06 0] false) fun s =>
    if (getQp s q).deleting.isSome then s
    else complete (keptDoorbells (setQp s q (newQueue p)) q (getQp s q)) c stOk 0 0)

/-- QUEUE_DELETE (R278, R456): completes once the queue's started commands have posted their statuses. A pair that is being deleted counts as absent (R274). -/
def execQueueDelete (id : Nat) (s : State) : Res :=
  .next (runCmd s id 0x0003 fun s c =>
    let q := pk c.pkt 16 1
    let x := getQp s q
    checked s c (checks s c [] false [(q == 0 || q == c.queue, 0xB2)] []
      [ckState (!x.defined || x.deleting.isSome) 0x05 0] false) fun s =>
    settleDelete (modQp s q (fun x => { x with deleting := some c.id, sqHead := x.sqTail })) q)

/-- The semaphore that a waiting command tests (R282). -/
def cmdSem (c : Cmd) : Nat := pk c.pkt 16 2

/-- QUEUE_STATUS (R278). -/
def execQueueStatus (id : Nat) (s : State) : Res :=
  .next (runCmd s id 0x0004 fun s c =>
    let x := getQp s (pk c.pkt 16 1)
    let st := if !x.defined then 0 else if x.error then 5 else if x.waitSem.isSome then (if x.yields then 4 else 3)
      else if x.sqHead < x.sqTail then 2 else 1
    let sem := match x.waitSem.bind (getCmd s) with | some w => cmdSem w | none => 0
    checked s c (checks s c [] false [] [] [] false) fun s =>
    complete s c stOk 0 (x.sqHead % 2 ^ x.log2 + 65536 * st + 2 ^ 32 * sem))

/-! ## Semaphore commands (R282) -/

/-- SEM_SIGNAL (R144, R282). -/
def execSemSignal (id : Nat) (s : State) : Res :=
  .next (runCmd s id 0x0103 fun s c =>
    checked s c (checks s c [] false [] [] [] false) fun s =>
    complete (semSignal s (cmdSem c) (BitVec.ofNat 64 (pk c.pkt 24 8)) { source := 3, tag := pkTag c.pkt, port := 5 }) c stOk 0 0)

/-- A waiting command tests its semaphore by the test of SEMTRY (R148, R282). -/
def semRetest (s : State) (c : Cmd) : State :=
  let s := cleanTouch s (pkTag c.pkt) (cmdSem c)
  let (ok, s) := semTake s (cmdSem c) (BitVec.ofNat 64 (pk c.pkt 24 8))
  if ok then complete s c stOk 0 0 else s

/-- SEM_WAIT (R149, R282): taken at once, or the queue's head waits under its WAITMODE; a remote source's
queue waits as YIELD (log entry 30, DEDUCED). -/
def execSemWait (id : Nat) (s : State) : Res :=
  .next (runCmd s id 0x0104 fun s c =>
    checked s c (checks s c [] false [] [] [] false) fun s =>
    semRetest (modQp s c.queue (fun x => { x with waitSem := some c.id, yields := x.yields || decide (256 ≤ c.queue) })) c)

/-- A begun SEM_WAIT. -/
def waitingCmd (s : State) (id : Nat) : Option Cmd :=
  match getCmd s id with
  | some c => if c.begun && pkOp c.pkt == 0x0104 then some c else none
  | none => none

/-- POLL (R148): the fetch engine re-reads the semaphore of a HEAD_STALL wait. -/
def execPoll (id : Nat) (s : State) : Res :=
  match waitingCmd s id with
  | some c => .next (if (getQp s c.queue).yields then s else semRetest s c)
  | none => .next s

/-- YIELD_RETEST (R149): a parked queue's semaphore is tested again. -/
def execYieldRetest (q : Nat) (s : State) : Res :=
  match (getQp s q).waitSem.bind (waitingCmd s) with
  | some c => .next (if (getQp s q).yields then semRetest s c else s)
  | none => .next s

/-- SEM_WAIT_TIMEOUT (R282): the wait's timeout ends first. -/
def execSemWaitTimeout (id : Nat) (s : State) : Res :=
  match waitingCmd s id with
  | none => .next s
  | some c =>
    let us := if pk c.pkt 20 4 = 0 then 1000000 else pk c.pkt 20 4
    if mono s < c.at_ + 1000 * us then .next s
    else .next (complete s c 0x0204 ((getSem s (cmdSem c)).value.toNat % 2 ^ 32) 0)

/-- SEM_WRITE (R282): sets the value and clears the mark of R145, with no waiter in the list. -/
def execSemWrite (id : Nat) (s : State) : Res :=
  .next (runCmd s id 0x0105 fun s c =>
    let n := cmdSem c
    checked s c (checks s c [] false [] [] [ckState (decide ((getSem s n).waiters ≠ [])) 0x07 1] false) fun s =>
    let s := cleanTouch s (pkTag c.pkt) n
    complete (setSem s n { getSem s n with value := BitVec.ofNat 64 (pk c.pkt 24 8), saturated := false }) c stOk 0 0)

/-- SEM_READ (R280). -/
def execSemRead (id : Nat) (s : State) : Res :=
  .next (runCmd s id 0x0106 fun s c =>
    checked s c (checks s c [] false [] [] [] false) fun s => complete s c stOk 0 (getSem s (cmdSem c)).value.toNat)

/-! ## Tallies and the error log -/

/-- The 64 bytes of a client's tallies (R304); `time` is zero through BAR0. -/
def tallyLine (s : State) (client time : Nat) : Line :=
  pack 512 ((List.range 5).map (fun i => (64 * i, 64, (rd64 s (CLI_TALLY client i)).toNat)) ++
    [(320, 5, rf s (CLI_TALLY_STATUS client) 0 5), (384, 64, time)])

/-- TALLY_READ (R304). -/
def execTallyRead (id : Nat) (s : State) : Res :=
  .next (runCmd s id 0x0900 fun s c =>
    let a : W64 := BitVec.ofNat 64 (pk c.pkt 24 8)
    let client := pk c.pkt 16 1
    let own := if c.queue < 256 then (getQp s c.queue).client else pkClient c.pkt
    checked s c (checks s c [!cmdAdmin s c && client != own] false [bufBad s a 64] [] [] false) fun s =>
    replyBuffer s c a (bytesOf (tallyLine s client (now s))) 0)

/-- ERRLOG_READ (R360). -/
def execErrlogRead (id : Nat) (s : State) : Res :=
  .next (runCmd s id 0x0901 fun s c =>
    let p := c.pkt
    let a : W64 := BitVec.ofNat 64 (pk p 24 8)
    let first := pk p 16 4
    let n := pk p 20 2
    let flash := bit p 191
    let total := (rd64 s ERRLOG_COUNT).toNat
    let held := min total 8192
    let newest := total % 2 ^ 32
    let none_ := if flash then decide (s.flash.log.length ≤ first) else total == 0 || precedes 32 newest first
    let back := (newest + 2 ^ 32 - first) % 2 ^ 32
    let start := if back < held then total - back else total - held + 1
    let count := if flash then min n (s.flash.log.length - first) else min n (total + 1 - start)
    let entry (i : Nat) : Line :=
      if flash then s.flash.log.getD (first + i) 0
      else tget s.faults.ring ((rf s ERRLOG_WPTR 0 13 + 8192 - (total + 1 - start) + i) % 8192) 0
    checked s c (checks s c [] false
      [(decide (fld p 176 15 ≠ 0), 0x01), (n == 0 || decide (8192 < n), 0xB7), (!none_ && !bufOk s a (64 * count), 0x01)] [] [] false) fun s =>
    if none_ then complete s c stOk 0 (2 ^ 32 * (if flash then s.flash.log.length else (total + 1) % 2 ^ 32))
    else replyBuffer s c a ((List.range count).map (fun i => bytesOf (entry i))).flatten
      (count + 2 ^ 32 * (if flash then first else start % 2 ^ 32)))

end Sys2Proof.Machine
end

