-- ==== Sys2Proof/Machine/JobOps.lean ====
section
/-! DEFINITION. Jobs (R71 to R73, R101, R152, R287, R297, R305 to R309, R369): launch, start, stop and end, CHECK_CLEAN, and the pre-emption of
step cores. -/
namespace Sys2Proof.Machine

/-- A virtual core is a step core of a partition. -/
def isStepCore (s : State) (p v : Nat) : Bool := decide (partBase s p ≤ v) && decide (v < partBase s p + partStepCores s p)

/-- The virtual cores a job names. -/
def Job.range (j : Job) : List Nat := (List.range j.vcount).map (j.vfirst + ·)

/-- A job names a step core of its partition. -/
def jobOnSteps (s : State) (j : Job) : Bool := j.range.any (isStepCore s j.part)

def getJob (s : State) (id : Nat) : Option Job := s.cores.jobs.find? (fun j => j.id == id)

/-- A virtual core has no physical core (R368, R370). -/
def unplaced (s : State) (v : Nat) : Bool := tget s.cores.vmap v 0 == 0

/-- A partition holds a request slot (R235). -/
def holdsSlot (s : State) (part : Nat) : Bool := s.se.sessions.any (fun x => x.2.slot && fld x.2.record 40 4 == part)

/-! ## Launch (R72, R74, R297) -/

/-- A header's queue map entry. -/
def headerQmap (h : BitVec 1024) (q : Nat) : W32 := h.extractLsb' (192 + 32 * q) 32

/-- The queue-map rules in ascending n (R74): 0x17 before 0x16. -/
def qmapCode (h : BitVec 1024) (threads n used fuel : Nat) : Option Nat :=
  match fuel with
  | 0 => none
  | k + 1 =>
    let w := headerQmap h n
    let bytes := fld w 0 12 * (if bit w 12 then 256 else 8) * (if bit w 13 then 1 else threads)
    if fld w 14 18 ≠ 0 then some 0x17
    else if 65536 < used + bytes then some 0x16
    else qmapCode h threads (n + 1) (used + bytes) k

/-- The header's first broken rule (R72), then the queue maps', then the step-core scratchpad rule (R297). -/
def headerCode (s : State) (h : BitVec 1024) (part first count : Nat) : Option Nat :=
  let steps := (List.range count).any (fun i => isStepCore s part (first + i))
  if fld h 0 32 ≠ 0x314B474E then some 0x10
  else if fld h 32 8 = 0 ∨ rf s GLOBAL_CAP1 16 8 < fld h 32 8 then some 0x11
  else if fld h 40 4 = 0 ∨ 8 < fld h 40 4 then some 0x12
  else if fld h 64 32 = 0 ∨ 16777216 < fld h 64 32 then some 0x19
  else if fld h 64 32 ≤ fld h 96 32 then some 0x13
  else if 131072 < fld h 128 32 then some 0x14
  else if fld h 46 18 ≠ 0 ∨ fld h 160 32 ≠ 0 ∨ fld h 704 320 ≠ 0 then some 0x1B
  else match qmapCode h (fld h 40 4) 0 0 16 with
    | some c => some c
    | none => if steps && decide (131072 - 1024 * partScratchKib s part < fld h 128 32) then some 0x14 else none

/-- JOB_LAUNCH (R72, R287, R297): the job waits for its cores. -/
def execJobLaunch (id : Nat) (s : State) : Res :=
  .next (runCmd s id 0x0500 fun s c =>
    let p := c.pkt
    let part := pkPart p
    let a : W64 := BitVec.ofNat 64 (pk p 16 8)
    let first := pk p 24 4
    let count := pk p 28 4
    let early := [(count == 0 || decide (gradeCores s < first + count), 0x15), (pk p 32 4 == 0, 0x1A),
      (decide (first < partBase s part) || decide (partBase s part + partCount s part < first + count) || !partDefined s part, 0x18)]
    let image := isLocalNode s (nodeOf a) && (match localRange s (offOf a) 128 with | .device => !touchesReserve s (offOf a) 128 | _ => false)
    let clean := (s.cores.jobs.filter (fun j => j.clean.isSome)).length
    let late (s : State) (code : Option Nat) := checks s c [] false (early ++ [(!image, 0x01), (code.isSome, code.getD 0)]) []
      ((match ((List.range count).map (first + ·)).find? (unplaced s) with | some v => [(true, (0x0104 : W16), v)] | none => []) ++
        [(pkClean p && decide (4 ≤ clean), 0x0104, 0)]) false
    match checks s c [] false (early ++ [(!image, 0x01)]) [] [] false with
    | some (0x0102, _) | none =>
      let (st, bs, s) := structRead s c a 128
      let h : BitVec 1024 := BitVec.ofNat 1024 (leNat bs)
      withStruct s c st (late s (if st = 0 then headerCode s h part first count else none)) fun s =>
        let j : Job := {
          id := s.cores.nextId, cmd := c.id, tag := pkTag p, client := pkClient p, part := part, image := a, vfirst := first, vcount := count
          wiCount := pk p 32 4, arg := BitVec.ofNat 64 (pk p 40 8), threads := fld h 40 4, idempotent := bit h 44
          dynamic := bit h 45, codeBytes := fld h 64 32, entry := fld h 96 32, scratch := fld h 128 32
          qmap := (List.range 16).foldl (fun t q => tset t q (headerQmap h q) 0) [], state := .waiting, stop := none, nextItem := 0, replay := []
          started := 0, skips := 0, clean := if pkClean p then some ([], [], 0) else none, vcores := [] }
        tally { s with cores := { s.cores with jobs := s.cores.jobs ++ [j], nextId := s.cores.nextId + 1 } } (pkClient p) 0
    | some (st, d) => reject s c st d)

/-! ## Stopping and ending (R101, R287, R309) -/

/-- A thread is stopped: it leaves every waiter list, executes nothing more and ends once its operations are acknowledged. -/
def stopThread (s : State) (id : Nat) (t : Tid) : State :=
  let th := getThread s t
  if th.run = .ended then s
  else
    let lists := (s.sems.filter (fun p => p.2.waiters.any (fun w => decide (w.1 = t)))).map (·.1)
    let s := lists.foldl (fun s n => breach s id 0x02 n (recorded s id n) (getSem s n).value.toNat) s
    let s := semLeave s t
    let ops := (s.cores.ops.filter (fun o => !(decide (o.t = t) && decide (o.kind = .semWait)))).map
      (fun o => if o.t = t then { o with parked := false } else o)
    let s := { s with cores := { s.cores with ops := ops } }
    settleEnd (setThread s t { th with run := .ending, fence := none, waitQ := [], dropped := 0, item := none }) t

/-- A reason to end a job early takes the place of one that R101 ranks below it. -/
def worseStop (a : Option JobStop) (b : JobStop) : JobStop :=
  match a, b with
  | none, b => b
  | some .cancelled, _ => .cancelled
  | some .fenced, .cancelled => .cancelled
  | some .fenced, _ => .fenced
  | some .missed, b => b

/-- A job is ended early (R101, R287): its threads stop, saved contexts are discarded and their cores stay clear of it (R309). -/
def stopJob (s : State) (id : Nat) (why : JobStop) : State :=
  match getJob s id with
  | none => s
  | some j =>
    let s := modJob s id (fun j => { j with stop := some (worseStop j.stop why), state := if j.state = .waiting then .waiting else .ending })
    if j.state = .waiting then s
    else
      let ts : List Tid := (j.vcores.map (fun v => (List.range j.threads).map (fun k => ({ vcore := v, thread := k } : Tid)))).flatten
      let s := ts.foldl (fun s t => stopThread s id t) s
      let mine (o : Nat) : Bool := s.cores.ops.any (fun x => x.id == o && decide (x.t.vcore ∈ j.vcores))
      { s with cores := { s.cores with parkOrder := s.cores.parkOrder.filter (fun o => !mine o) } }

/-- JOB_CANCEL (R287, R309): every job of the partition that carries the tag is stopped. -/
def execJobCancel (id : Nat) (s : State) : Res :=
  .next (runCmd s id 0x0501 fun s c =>
    let js := s.cores.jobs.filter (fun j => j.part == pkPart c.pkt && j.tag.toNat == pk c.pkt 16 4)
    checked s c (checks s c [] false [] [] [ckState (decide (js = [])) 0x0B 0] false) fun s =>
    complete (js.foldl (fun s j => stopJob s j.id .cancelled) s) c stOk 0 0)

/-- A hoist move of the job's threads has not retired (R73). -/
def jobMoves (s : State) (j : Job) : Bool :=
  let mine (t : Option Tid) : Bool := match t with | some t => decide (t.vcore ∈ j.vcores) | none => false
  s.hoists.queue.any (fun m => mine m.owner) || s.hoists.moves.any (fun m => mine m.req.owner)

/-- Every thread of the job has ended. -/
def jobThreadsEnded (s : State) (j : Job) : Bool :=
  j.vcores.all (fun v => (List.range j.threads).all (fun k =>
    (getThread s { vcore := v, thread := k }).run == .ended && opsOf s { vcore := v, thread := k } == []))

/-- Every thread of the job has executed END: it is ending (R287). -/
def jobEnding (s : State) (j : Job) : Bool :=
  j.state != .waiting && j.vcores.all (fun v => (List.range j.threads).all (fun k =>
    match (getThread s { vcore := v, thread := k }).run with | .ending | .ended => true | _ => false))

/-- JOB_QUERY (R287): a pre-empted job is running (R298); an unknown tag is a conflict (log entry 35, DEDUCED). -/
def execJobQuery (id : Nat) (s : State) : Res :=
  .next (runCmd s id 0x0502 fun s c =>
    let j := s.cores.jobs.find? (fun j => j.part == pkPart c.pkt && j.tag.toNat == pk c.pkt 16 4)
    checked s c (checks s c [] false [] [] [ckState j.isNone 0x0B 0] false) fun s =>
    match j with
    | none => s
    | some j => complete s c stOk 0 (j.started % 2 ^ 32 + 2 ^ 32 * (if j.state = .waiting then 0 else if j.state = .ending || jobEnding s j then 2 else 1)))

/-- The status of a job (R101), with its detail. -/
def jobStatus (s : State) (j : Job) : W16 × Nat :=
  match j.stop with
  | some .cancelled => (0x0205, 0)
  | some .fenced => (0x0300, 0)
  | some .missed => (0x0204, 0)
  | none =>
    let ths := (j.vcores.map (fun v => (List.range j.threads).map (fun k => getThread s { vcore := v, thread := k }))).flatten
    let first := (ths.filter (fun t => decide (t.memerr ≠ 0))).foldl (fun (b : Option Thread) t => match b with
      | some x => if t.memerrAt < x.memerrAt then some t else some x
      | none => some t) none
    match first with
    | some t => (t.memerr, 0)
    | none => if j.skips ≠ 0 then (0x0001, min j.skips 0xFFFFFFFF) else (0, 0)

/-- The regulator words of a partition with their offsets (R152, R302). -/
def regulators (s : State) (p : Nat) : List (Nat × W32) :=
  ((List.range 8).map (PART_STK_REG p) ++ (List.range 4).map (PART_PORT_REG p) ++ [PART_NB p]).map (fun o => (o, rd s o))

/-- CHECK_CLEAN at the end of a job (R152): semaphores and regulators that differ. -/
def cleanCheck (s : State) (j : Job) : State :=
  match j.clean with
  | none => s
  | some (vals, regs, _) =>
    let s := vals.foldl (fun s v => let x := (getSem s v.1).value; if x = v.2 then s else breach s j.id 0x01 v.1 v.2.toNat x.toNat) s
    ((regulators s j.part).zip regs).foldl (fun s r => if r.1.2 = r.2 then s else breach s j.id 0x04 r.1.1 r.2.toNat r.1.2.toNat) s

/-- A job ends: its command completes, its cores are free. -/
def finishJob (s : State) (j : Job) : State :=
  let s := cleanCheck s j
  let (st, detail) := jobStatus s j
  let n := match (getJob s j.id).bind (·.clean) with | some (_, _, n) => min n 0xFFFFFFFF | none => 0
  let s := traceEvent s 3 j.tag 0 j.part j.vfirst 0 st.toNat j.started
  let s := tally s j.client (if st = 0 ∨ st = 1 then 2 else 3)
  let js := s.cores.jobs.filter (fun x => x.id != j.id)
  let ths := s.cores.threads.filter (fun t => !decide (t.1 / 8 ∈ j.vcores))
  let s := { s with cores := { s.cores with
    jobs := js, threads := ths, gated := s.cores.gated.filter (fun v => decide (v ∉ j.vcores))
    preempted := s.cores.preempted.filter (fun v => decide (v ∉ j.vcores)) } }
  match getCmd s j.cmd with
  | some c => complete s c st detail n
  | none => s

/-- JOB_END (R73, R101): every thread has ended and every move they issued has retired. -/
def execJobEnd (job : Nat) (s : State) : Res :=
  match getJob s job with
  | none => .next s
  | some j =>
    if j.state = .waiting then (if j.stop.isSome then .next (finishJob s j) else .next s)
    else if !jobThreadsEnded s j || jobMoves s j then .next s
    else if j.replay ≠ [] ∧ j.stop.isNone then .next (finishJob s { j with stop := some .fenced })
    else .next (finishJob s j)

/-! ## Starting (R71, R297) -/

/-- A thread at the start of a job; its generator is seeded from the entropy source (R37). -/
def freshThread (s : State) (j : Job) (t : Tid) : State :=
  let (seed, s) := draw s 32
  let regs : Tab W64 := [(1, BitVec.ofNat 64 t.vcore), (2, BitVec.ofNat 64 t.thread), (3, j.arg), (4, BitVec.ofNat 64 j.tag.toNat)]
  setThread s t { Thread.zero with
    s := regs.foldl (fun r x => tset r x.1 x.2 0) [], pc := BitVec.ofNat 32 j.entry, rng := seed, run := .running }

/-- R71 on one virtual core: scratchpad, queues and L1, then every thread. -/
def startCore (s : State) (j : Job) (v : Nat) : State :=
  let s := { s with cores := { s.cores with
    scratch := s.cores.scratch.filter (fun b => !(b.1 / 131072 == v && decide (b.1 % 131072 < j.scratch))),
    shq := s.cores.shq.filter (fun q => q.1 / 16 != v) } }
  let s := l1Clear s v
  (List.range j.threads).foldl (fun s k => freshThread s j { vcore := v, thread := k }) s

/-- JOB_START (R71, R297, R298, R369): no earlier job holds its cores, and no step of the partition runs on them, nor, without a save area, holds a slot. -/
def execJobStart (job : Nat) (s : State) : Res :=
  match getJob s job with
  | none => .next s
  | some j =>
    let earlier := s.cores.jobs.any (fun k => decide (k.id < job) && k.part == j.part && k.range.any (fun v => decide (v ∈ j.range)))
    let held := jobOnSteps s j && ((tfind s.se.steps j.part).isSome || (saveArea s j.part == 0 && holdsSlot s j.part))
    let placed := j.range.filter (fun v => !unplaced s v)
    if j.state ≠ .waiting ∨ j.stop.isSome ∨ earlier ∨ held ∨ !serving s then .next s
    else if placed ≠ j.range ∧ !(j.idempotent && j.dynamic && decide (placed ≠ [])) then
      .next (finishJob s { j with stop := some .fenced })
    else
      let clean := j.clean.map (fun c => ([], (regulators s j.part).map (·.2), c.2.2))
      let s := modJob s job (fun j => { j with state := .running, vcores := placed, clean := clean })
      let s := traceEvent s 2 j.tag 0 j.part j.vfirst 0 j.vcount j.image.toNat
      let s := tally s j.client 1
      .next (placed.foldl (fun s v => startCore s j v) s)

/-! ## Pre-emption (R305 to R308) -/

/-- A virtual core's context is saved: its threads leave their lists (R148), their outstanding operations are parked (R307). -/
def saveCore (s : State) (j : Job) (v : Nat) : State :=
  let ts : List Tid := (List.range j.threads).map (fun k => { vcore := v, thread := k })
  let s := ts.foldl semLeave s
  let ops := s.cores.ops.map (fun o => if o.t.vcore == v && !o.done && (match o.kind with | .semWait => false | _ => true) then { o with parked := true } else o)
  let s := { s with cores := { s.cores with ops := ops, preempted := s.cores.preempted ++ [v], gated := s.cores.gated.filter (· ≠ v) } }
  traceEvent s 10 j.tag 0 j.part v 0 0 0

/-- Jobs of a partition with cores on its step cores that are not saved. -/
def displaced (s : State) (part : Nat) : List (Job × List Nat) :=
  (s.cores.jobs.filter (fun j => j.part == part && j.state != .waiting)).filterMap (fun j =>
    let vs := j.vcores.filter (fun v => isStepCore s part v && decide (v ∉ s.cores.preempted))
    if vs = [] then none else some (j, vs))

/-- A virtual core's context stands in the save area: it is pre-empted, and its job has not been stopped (R302, R309). -/
def savedCore (s : State) (v : Nat) : Bool :=
  decide (v ∈ s.cores.preempted) && (match jobAt s v with | some j => j.stop.isNone | none => false)

/-- The step cores of a partition are cleared of jobs (R298, R305). -/
def preemptPart (s : State) (part : Nat) : State :=
  let ds := displaced s part
  if ds = [] then s
  else
    let s := ds.foldl (fun s d => tally (d.2.foldl (fun s v => saveCore s d.1 v) s) d.1.client 4) s
    bump s (PART_PREEMPT_COUNT part) (PART_TALLY_STATUS part) 3 1

/-- A thread's context is restored: a SEMWAIT that was not satisfied joins its list again at the tail (R148, R308). -/
def restoreThread (s : State) (t : Tid) : State :=
  let th := getThread s t
  let s := setThread s t { th with waitQ := [] }
  match s.cores.ops.find? (fun o => decide (o.t = t) && decide (o.kind = .semWait) && decide (o.todo = [])) with
  | some o => semWaitOp s ((offOf o.addr - 0x30000000000) / 8) (o.data.setWidth 64) t o.tag
  | none => s

end Sys2Proof.Machine
end

