-- ==== Sys2Proof/Machine/RecoveryOps.lean ====
section
/-! DEFINITION. Placement of virtual cores (R457, R368), core fencing (R367, R369), and recovery domains (R362 to R365): how a fault is resolved,
and what starts when a recovery starts. -/
namespace Sys2Proof.Machine

/-! ## Placement -/

/-- Physical cores of a cluster in service, lowest first (R2, R367). Core numbers are 68 × cluster + core. -/
def inService (s : State) (c : Nat) : List Nat := ((List.range 68).map (68 * c + ·)).filter (fun p => decide (p ∉ s.cores.fenced))

/-- Clusters of a mask, ascending. -/
def clustersOf (m : W64) : List Nat := (List.range 64).filter (fun c => bit m c)

/-- The virtual cores of a partition are placed (R457); those a cluster cannot serve take spares of the others (R368), or stay unplaced. -/
def placePart (s : State) (part : Nat) : State :=
  let base := partBase s part
  let count := partCount s part
  let e := coresPerCluster s
  let serv := (clustersOf (rd64 s (PART_CLUSTERS part))).map (inService s)
  let own := (serv.map (fun cs => (List.range e).map (fun i => cs[i]?))).flatten.take count
  let spares := (serv.map (fun cs => cs.drop e)).flatten
  let (phys, _) := own.foldl (fun (acc : List (Option Nat) × List Nat) o => match o, acc.2 with
    | some p, r => (acc.1 ++ [some p], r)
    | none, x :: r => (acc.1 ++ [some x], r)
    | none, [] => (acc.1 ++ [none], [])) ([], spares)
  let new : Tab Nat := (phys.zip (List.range count)).filterMap (fun p => p.1.map (fun x => (base + p.2, x + 1)))
  let low := s.cores.vmap.filter (fun v => decide (v.1 < base))
  let high := s.cores.vmap.filter (fun v => decide (base + count ≤ v.1))
  { s with cores := { s.cores with vmap := low ++ new ++ high } }

/-- READY or RUNNING becomes DEGRADED, until the next reset (R362). -/
def degrade (s : State) : State :=
  if storedState s = 2 ∨ storedState s = 3 then setDevState s 4
  else if storedState s = 5 then { s with faults := { s.faults with before := 4 } }
  else s

/-- Some virtual core of a defined partition is unplaced. -/
def anyUnplaced (s : State) : Bool :=
  (List.range 16).any (fun p => partDefined s p && (List.range (partCount s p)).any (fun i => unplaced s (partBase s p + i)))

/-- The virtual core a physical core serves. -/
def servedBy (s : State) (phys : Nat) : Option Nat := (s.cores.vmap.find? (fun v => v.2 == phys + 1)).map (·.1)

/-- The partition that holds a virtual core. -/
def partOfCore (s : State) (v : Nat) : Option Nat :=
  (List.range 16).find? (fun p => partDefined s p && decide (partBase s p ≤ v) && decide (v < partBase s p + partCount s p))

/-- The spare a virtual core moves to (R368): of the cluster of `phys`, or of the partition's other clusters, lowest first. -/
def spareFor (s : State) (v phys : Nat) : Option Nat :=
  let free (c : Nat) : List Nat := (inService s c).filter (fun p => decide (p ≠ phys) && (servedBy s p).isNone)
  let cs := match partOfCore s v with | some p => clustersOf (rd64 s (PART_CLUSTERS p)) | none => []
  (free (phys / 68) ++ ((cs.filter (· ≠ phys / 68)).map free).flatten).head?

/-! ## Fencing (R367, R369) -/

/-- Everything a core's threads held is lost; completions addressed to it find no thread (R367). -/
def loseCore (s : State) (j : Job) (v : Nat) : State :=
  let ts : List Tid := (List.range j.threads).map (fun k => { vcore := v, thread := k })
  let s := ts.foldl (fun s t =>
    let lists := (s.sems.filter (fun p => p.2.waiters.any (fun w => decide (w.1 = t)))).map (·.1)
    semLeave (lists.foldl (fun s n => breach s j.id 0x02 n (recorded s j.id n) (getSem s n).value.toNat) s) t) s
  let ops := (s.cores.ops.filter (fun o => !(o.t.vcore == v && decide (o.kind = .semWait)))).map
    (fun o => if o.t.vcore = v then { o with t := { vcore := 0x1FFF, thread := 0 }, dest := .none } else o)
  let shq := s.cores.shq.filter (fun q => q.1 / 16 != v)
  l1Clear { s with cores := { s.cores with ops := ops, shq := shq, gated := s.cores.gated.filter (· ≠ v) } } v

/-- The job of a fenced core is resolved (R369): the state, the work-items that will be returned again, and the status with which the fence ends the job. -/
def resolveJob (s : State) (j : Job) (v : Nat) : State × Nat × Nat :=
  let ts : List Tid := (List.range j.threads).map (fun k => { vcore := v, thread := k })
  let old := ts.map (getThread s)
  let items := (ts.map (fun t => let th := getThread s t; match th.item with | some i => some i | none => th.replay)).filterMap id
  let s := loseCore s j v
  if j.stop.isSome then
    let s := ts.foldl (fun s t => setThread s t { Thread.zero with run := .ended }) s
    (s, 0, 0)
  else if j.idempotent ∧ !unplaced s v then
    let s := startCore s j v
    let s := (ts.zip old).foldl (fun s p =>
      let th := getThread s p.1
      setThread s p.1 { th with winext := p.2.winext, replay := match p.2.item with | some i => some i | none => p.2.replay }) s
    (s, items.length, 0)
  else if j.idempotent ∧ j.dynamic ∧ j.vcores.any (· ≠ v) then
    let s := ts.foldl (fun s t => setThread s t Thread.zero) s
    (modJob s j.id (fun j => { j with vcores := j.vcores.filter (· ≠ v), replay := j.replay ++ items }), items.length, 0)
  else
    let s := ts.foldl (fun s t => setThread s t { Thread.zero with run := .ended, memerr := (getThread s t).memerr }) s
    (stopJob s j.id .fenced, 0, 0x0300)

/-- A core is fenced (R367): cause is the class code of what led to it. -/
def fenceCore (s : State) (phys cause : Nat) : State :=
  if phys ∈ s.cores.fenced then s
  else
    let v := servedBy s phys
    let spare := v.bind (fun v => spareFor s v phys)
    let s := flashWrite { s with cores := { s.cores with fenced := s.cores.fenced ++ [phys] } } (.fence phys)
    let s := bump s CF_FENCE_COUNT CF_TALLY_STATUS 0 1
    let (s, items, st) : State × Nat × Nat := match v with
      | none => (s, 0, 0)
      | some v =>
        let vm := match spare with | some p => tput s.cores.vmap v (p + 1) | none => tdel s.cores.vmap v
        let s := { s with cores := { s.cores with vmap := vm } }
        let s := if spare.isNone then degrade s else s
        match jobAt s v with
        | some j =>
          if (v ∈ s.cores.preempted ∧ spare.isSome) ∨ v ∉ j.vcores then (s, 0, 0)
          else resolveJob { s with cores := { s.cores with preempted := s.cores.preempted.filter (· ≠ v) } } j v
        | none => (s, 0, 0)
    logErr s { cls := 0x13, status := st, loc := locC (phys / 68) (phys % 68) v 0, detail := cause, ex0 := items,
               ex1 := match spare with | some p => p / 68 + p % 68 * 64 | none => 0xFFFFFFFF }

/-! ## Recovery domains (R363, R364) -/

/-- A domain: kind 0 core, 1 cluster, 2 pseudo-channel, 3 stack, 4 fabric port, 5 device, and its number. -/
abbrev Dom := Nat × Nat

/-- The parent of a domain; the device has none. -/
def parent (d : Dom) : Option Dom :=
  match d.1 with
  | 0 => some (1, d.2 / 68)
  | 2 => some (3, d.2 / 64)
  | 5 => none
  | _ => some (5, 0)

/-- `a` is a descendant of `b`. -/
def descends (a b : Dom) : Bool :=
  match parent a with
  | none => false
  | some p => p == b || (match parent p with | some q => q == b | none => false)

/-- The recoveries running. -/
def runningDoms (s : State) : List Dom := s.faults.running.map (fun r => (r.1, r.2 - 1))

/-- The bound of a recovery in nanoseconds (R363). -/
def recoveryBound (kind : Nat) : Nat := [100000, 2000000, 5000000, 50000000, 600000000, 50000000].getD kind 0

/-- A RECOVERY entry and trace record (R359, R447). Events: 0 started, 1 ended, 2 queued, 3 absorbed, 4 escalated, 5 failed, 6 merged. -/
def logRecovery (s : State) (d : Dom) (event : Nat) : State :=
  let s := logErr s { cls := 0x40, loc := d.1 + 8 * d.2, detail := event }
  traceEvent s 11 0 0 0 d.2 d.1 event 0

/-- A notice to the twin: 1 handoff, 2 detach, 3 pairing request, 4 COPY_DONE. -/
def twinSend (s : State) (kind : Nat) (owner : PktOwner := .twin 0) : State :=
  twinPost s (.notice kind (BitVec.ofNat 64 (now s)) (devState s)) owner

/-- A retrain begins or ends (R220, R221): the time it holds counts as held for every group that runs, and not as time at grant 0. -/
def noteHolds (s : State) : State :=
  let on := s.mem.held.any (fun h => h.2 == 1 || h.2 == 2)
  let running (f : StepRun → StepRun) : Tab StepRun := s.se.steps.map (fun r => (r.1, if inStages s r.1 r.2 then f r.2 else r.2))
  match on, s.nb.retrainFrom with
  | true, none =>
    { s with
      nb := { s.nb with retrainFrom := some (mono s) }
      se := { s.se with steps := (s.se.steps.map (fun r =>
        (r.1, if inStages s r.1 r.2 then { r.2 with held := r.2.held || inHalves s r.1 r.2, everHeld := true } else r.2))) } }
  | false, some t =>
    { s with
      nb := { s.nb with retrainFrom := none, dryFrom := s.nb.dryFrom.map (fun d => (d.1, d.2 + (mono s - max t d.2))) }
      se := { s.se with steps := running (fun r => { r with holdNs := r.holdNs + (mono s - max t r.groupAt) }) } }
  | _, _ => s

/-- Pseudo-channels are held, for 1 a periodic retrain, 2 an urgent one, 3 a stack recovery (R180, R363): they enter self-refresh, in which no
row is open; STKn_STATUS follows. -/
def holdPcs (s : State) (pcs : List Nat) (why : Nat) : State :=
  let s := pcs.foldl (fun s p => setEngine s p { getEngine s p with openRow := [] }) s
  let kept := s.mem.held.filter (fun h => decide (h.1 ∉ pcs))
  noteHolds { s with mem := { s.mem with held := kept ++ pcs.map (fun p => (p, why)), heldAt := pcs.foldl (fun t p => tput t p (mono s)) s.mem.heldAt } }

/-- RETRAINING and URGENT of a stack follow its holds (R180, R182). -/
def retrainFlags (s : State) (stack : Nat) : State :=
  let here := s.mem.held.filter (fun h => h.1 / 64 == stack)
  wf (wf s (STK_STATUS stack) 3 1 (b2n (decide (here ≠ [])))) (STK_STATUS stack) 4 1 (b2n (here.any (fun h => decide (h.2 ≠ 1))))

/-- Every command in progress completes with a status (R365). -/
def completeAll (s : State) (st : Cmd → W16) : State :=
  s.host.cmds.foldl (fun s c => match getCmd s c.id with | some c => complete s c (st c) 0 0 | none => s) s

/-- Every job ends at once with its status; its command completes by another rule. -/
def dropJobs (s : State) : State :=
  s.cores.jobs.foldl (fun s j => let s := stopJob s j.id .cancelled; match getJob s j.id with | some j => finishJob s j | none => s) s

/-- The device fails (R362, R365): commands in progress complete with INTERNAL, recoveries stop, and the opcodes marked F are fetched again. -/
def enterFailed (s : State) : State :=
  let s := completeAll s (fun _ => 0x03FF)
  setDevState { s with faults := { s.faults with running := [], queued := [], causes := [], since := [], tableError := false },
                       host := { s.host with fetchStopped := false } } 7

/-- What a recovery does as it starts (R363, R365). -/
def recoveryAction (s : State) (d : Dom) (cause : Nat) : State :=
  match d.1 with
  | 0 => fenceCore s d.2 cause
  | 1 => s
  | 2 =>
    let chan := if d.2 ∈ s.mem.wholeDue then [d.2 / 2 * 2, d.2 / 2 * 2 + 1] else [d.2]
    retrainFlags (holdPcs s chan 2) (d.2 / 64)
  | 3 =>
    let s := (progsOn s d.2).foldl abortProgram s
    let s := holdPcs s ((List.range 64).map (64 * d.2 + ·)) 3
    let s := if devState s = 5 then s else { s with faults := { s.faults with before := storedState s } }
    setDevState (retrainFlags s d.2) 5
  | 4 => notePaths (wf s (FAB_PORT_LINK d.2) 2 8 0)
  | _ =>
    let paired := twinState s == 2
    let s := if paired then logErr (twinSend s 1 .none) { cls := 0x41, loc := twinNode s, detail := 6 } else s
    let session (c : Cmd) : Bool := pkOp c.pkt / 256 == 3 || pkOp c.pkt == 0x0400
    let s := completeAll (dropJobs s) (fun c => if paired && session c then 0x0301 else 0x0205)
    let s := { s with host := { s.host with fetchStopped := true } }
    let s := if devState s = 5 then s else { s with faults := { s.faults with before := storedState s } }
    setDevState s 5

/-- A recovery starts: queued recoveries of its descendants are absorbed (R364). -/
def startRecovery (s : State) (d : Dom) (cause : Nat) : State :=
  let gone := (s.faults.queued.map (fun q => (q.2.map (fun n => (q.1, n))))).flatten.filter (fun x => descends x d)
  let queued := (s.faults.queued.map (fun q => (q.1, q.2.filter (fun n => !descends (q.1, n) d)))).filter (fun q => decide (q.2 ≠ []))
  let s := { s with faults := { s.faults with queued := queued, running := tput s.faults.running d.1 (d.2 + 1), since := tput s.faults.since d.1 (mono s) } }
  let s := logRecovery s d 0
  let s := gone.foldl (fun s x => logRecovery s x 3) s
  recoveryAction s d cause

/-- A running recovery stops, escalated (R364). -/
def stopRecovery (s : State) (d : Dom) : State :=
  let s := { s with faults := { s.faults with running := tdel s.faults.running d.1, since := tdel s.faults.since d.1 } }
  bump (logRecovery s d 4) ERRLOG_ESCAL_COUNT ERRLOG_STATUS 2 1

/-- A domain joins its kind's queue at the head or at the tail, with the class of its cause (R364). -/
def queueDom (s : State) (d : Dom) (cause : Nat) (head : Bool) : State :=
  let q := (tget s.faults.queued d.1 []).filter (· ≠ d.2)
  let cs := (d.1, d.2, cause) :: s.faults.causes.filter (fun c => !(c.1 == d.1 && c.2.1 == d.2))
  logRecovery { s with faults := { s.faults with queued := tput s.faults.queued d.1 (if head then d.2 :: q else q ++ [d.2]), causes := cs } } d 2

/-- A recovery that escalation calls for: at once, or at the head of its kind's queue (R364). -/
def startAhead (s : State) (d : Dom) (cause : Nat) : State :=
  if (tfind s.faults.running d.1).isSome then queueDom s d cause true
  else
    let s := if d.1 = 1 then logErr s { cls := 0x14, loc := d.2, detail := 3 } else s
    startRecovery s d cause

/-- A kind whose recovery has ended starts the first of its queue (R364). -/
def nextQueued (s : State) (kind : Nat) : State :=
  if (tfind s.faults.running kind).isSome ∨ devState s = 7 then s
  else match tget s.faults.queued kind [] with
    | [] => s
    | n :: rest =>
      let cause := match s.faults.causes.find? (fun c => c.1 == kind && c.2.1 == n) with | some c => c.2.2 | none => 0
      let cs := s.faults.causes.filter (fun c => !(c.1 == kind && c.2.1 == n))
      startRecovery { s with faults := { s.faults with queued := tset s.faults.queued kind rest [], causes := cs } } (kind, n) cause

/-- A fault in a domain is resolved by the first row of R364's table that applies; `fuel` bounds the passing to parents. -/
def faultAt (s : State) (d : Dom) (cause fuel : Nat) : State :=
  match fuel with
  | 0 => s
  | n + 1 =>
    if devState s = 7 ∨ !serving s then s
    else
      let run := runningDoms s
      if d.1 = 5 ∧ (tfind s.faults.running 5).isSome then enterFailed (logRecovery s d 5)
      else
        let hit := run.filter (fun r => r == d || descends r d)
        match hit with
        | _ :: _ =>
          let target := if d ∈ hit then (parent d).getD d else d
          hit.foldl (fun s r => nextQueued s r.1) (startAhead (hit.foldl stopRecovery s) target cause)
        | [] =>
          if run.any (fun r => descends d r) then logRecovery s d 3
          else if d.2 ∈ tget s.faults.queued d.1 [] then logRecovery s d 6
          else if (tfind s.faults.running d.1).isSome then
            if 64 ≤ (tget s.faults.queued d.1 []).length then (match parent d with | some p => faultAt s p cause n | none => s)
            else queueDom s d cause false
          else startRecovery s d cause

def fault (s : State) (d : Dom) (cause : Nat) : State := faultAt s d cause 3

end Sys2Proof.Machine
end

