-- ==== Sys2Proof/Machine/SessOps.lean ====
section
/-! DEFINITION. Model and session records (R226 to R232): their fields, the tables, and the projected state of R274. -/
namespace Sys2Proof.Machine

/-! ## Session records (R232) -/

abbrev SRec := BitVec 1024

def srHandle (r : SRec) : Nat := fld r 0 32
def srState (r : SRec) : Nat := fld r 32 3
def srTier (r : SRec) : Nat := fld r 35 2
def srSusp (r : SRec) : Bool := bit r 37
def srFbOk (r : SRec) : Bool := bit r 38
def srPinned (r : SRec) : Bool := bit r 39
def srPart (r : SRec) : Nat := fld r 40 4
def srClass (r : SRec) : Nat := fld r 44 3
def srGone (r : SRec) : Bool := bit r 47
def srClient (r : SRec) : Nat := fld r 48 8
def srDraft (r : SRec) : Nat := fld r 56 4
def srModel (r : SRec) : Nat := fld r 64 12
def srAcc (r : SRec) : Nat := fld r 80 8
def srProbe (r : SRec) : Nat := fld r 88 8
def srLen (r : SRec) : Nat := fld r 96 32
def srKv (r : SRec) : Nat := fld r 128 32
def srDkv (r : SRec) : Nat := fld r 160 32
def srKvAddr (r : SRec) : Nat := fld r 192 64
def srTranscript (r : SRec) : Nat := fld r 256 64
def srUntil (r : SRec) : Nat := fld r 320 64
def srLast (r : SRec) : Nat := fld r 384 64
def srArrival (r : SRec) : Nat := fld r 448 64
def srReqTag (r : SRec) : Nat := fld r 512 32
def srRemaining (r : SRec) : Nat := fld r 544 32
def srStop (r : SRec) (i : Nat) : Nat := fld r (576 + 32 * i) 32
def srTemp (r : SRec) : Nat := fld r 704 16
def srDraftMax (r : SRec) : Nat := fld r 752 4
def srPacked (r : SRec) : Nat := fld r 768 32
def srFbTokens (r : SRec) : Nat := fld r 800 32
def srMissed (r : SRec) : Nat := fld r 832 32

/-- The states of a session. -/
abbrev stOpen : Nat := 0
abbrev stActive : Nat := 1
abbrev stPaused : Nat := 2
abbrev stExpired : Nat := 3
abbrev stClosed : Nat := 4

/-- A record with some fields replaced: (low bit, length, value). -/
def srPut (r : SRec) (fs : List (Nat × Nat × Nat)) : SRec := fs.foldl (fun r f => setFld r f.1 f.2.1 f.2.2) r

/-- A table entry that names no session. -/
def Session.zero : Session :=
  { record := 0, proj := 4, projSusp := false, waiting := false, slot := false, order := 0, toks := [], events := [], setPending := none,
    satOut := 0, withheld := [], withheldSaid := false, rebuilt := false, takenOver := false, first := false, missedAny := false, prefillFrom := 0,
    prefillAt := 0, tierTo := none, tierDone := false, tierAddr := 0, tierWait := none, tierId := none, plain := [], dueTtft := none, transBad := false, root := none, ringSatOut := false, table := none, chunks := [],
    sinceProbe := 0, started := false }

/-- A session that is not CLOSED, by table index. -/
def getSess (s : State) (i : Nat) : Option Session := tfind s.se.sessions i
def putSess (s : State) (i : Nat) (x : Session) : State := { s with se := { s.se with sessions := tput s.se.sessions i x } }
def modSess (s : State) (i : Nat) (f : Session → Session) : State :=
  match getSess s i with
  | some x => putSess s i (f x)
  | none => s
def modRec (s : State) (i : Nat) (fs : List (Nat × Nat × Nat)) : State := modSess s i (fun x => { x with record := srPut x.record fs })

/-- Index and generation of a handle (R226). -/
def hIndex (h : Nat) : Nat := h % 2 ^ 20
def hGen (h : Nat) : Nat := h / 2 ^ 20

/-- The session a handle names now. -/
def sessOf (s : State) (h : Nat) : Option Session :=
  match getSess s (hIndex h) with
  | some x => if srHandle x.record = h then some x else none
  | none => none

/-- The projected state of a session as R274 reports it. -/
def projCode (x : Session) : Nat := x.proj + 128 * b2n x.projSusp

/-- A session carries MODEL_GONE, or will once an accepted MODEL_UNLOAD has taken effect (R231, R274). -/
def projGone (x : Session) : Bool := srGone x.record || x.events.any (· == .gone)

/-- Sessions of a partition with their indices. -/
def sessIn (s : State) (part : Nat) : List (Nat × Session) := s.se.sessions.filter (fun x => srPart x.2.record == part)

/-- A partition has a session that is ACTIVE once what was accepted has taken effect (R274, R296). -/
def partActive (s : State) (part : Nat) : Bool := (sessIn s part).any (fun x => x.2.proj == stActive)

/-! ## Model records (R228) -/

def mrState (r : SRec) : Nat := fld r 12 2
def mrKind (r : SRec) : Nat := fld r 14 2
def mrShared (r : SRec) : Bool := bit r 16
def mrKvCompat (r : SRec) : Bool := bit r 17
def mrLayers (r : SRec) : Nat := fld r 32 8
def mrKvHeads (r : SRec) : Nat := fld r 40 8
def mrQHeads (r : SRec) : Nat := fld r 48 8
def mrGroups (r : SRec) : Nat := fld r 56 8
def mrVocab (r : SRec) : Nat := fld r 64 32
def mrDraft (r : SRec) : Option Nat := if bit r 140 then some (fld r 128 12) else none
def mrFallback (r : SRec) : Option Nat := if bit r 153 then some (fld r 141 12) else none

def getModel (s : State) (m : Nat) : Option Model := tfind s.se.models m
def putModel (s : State) (m : Nat) (x : Model) : State := { s with se := { s.se with models := tput s.se.models m x } }

/-- A model's STATE, 0 FREE where the table has none. -/
def modelState (s : State) (m : Nat) : Nat := match getModel s m with | some x => mrState x.record | none => 0

/-- An accepted MODEL_LOAD, other than command `id`, that waits for the unload of its model (R274). -/
def loadWaiting (s : State) (m id : Nat) : Bool :=
  s.host.cmds.any (fun c => c.id != id && c.begun && pkOp c.pkt == 0x0200 && pk c.pkt 16 2 == m)

/-- A model's projected STATE for command `id` (R274): an unload that was accepted leaves it FREE, a load READY. -/
def projModel (s : State) (m id : Nat) : Nat :=
  if loadWaiting s m id then 2 else if modelState s m = 3 then 0 else modelState s m

/-- A resident model's record that is READY. -/
def readyModel (s : State) (m : Nat) : Option SRec := match getModel s m with | some x => if mrState x.record = 2 then some x.record else none | none => none

/-! ## Group table entries (R229) -/

def gLayer (g : Line) : Nat := fld g 0 8
def gRegions (g : Line) : Nat := fld g 8 2 + 1
def gIPad (g : Line) : Nat := fld g 16 32
def gFirst (g : Line) (k : Nat) : Nat := fld g (64 + 96 * k) 15
def gRowsets (g : Line) (k : Nat) : Nat := fld g (79 + 96 * k) 15
def gWfmt (g : Line) (k : Nat) : Nat := fld g (94 + 96 * k) 4
def gScaled (g : Line) (k : Nat) : Bool := bit g (98 + 96 * k)
def gRows (g : Line) (k : Nat) : Nat := fld g (128 + 96 * k) 32

/-! ## The KV pool (R241, R286) -/

def pKRow (p : SRec) : Nat := fld p 0 32
def pVRow (p : SRec) : Nat := fld p 32 32
def pN (p : SRec) : Nat := fld p 64 32
def pScale (p : SRec) : Nat := fld p 128 64
/-- Base and bytes of an area: 0 directory, 1 span blocks, 2 transcripts, 3 packed (T1), 4 Level (T2), 5 host (T3). -/
def pBase (p : SRec) (i : Nat) : Nat := fld p (192 + 128 * i) 64
def pBytes (p : SRec) (i : Nat) : Nat := fld p (256 + 128 * i) 64

end Sys2Proof.Machine
end

