-- ==== Sys2Proof/Machine/PartCmds.lean ====
section
/-! DEFINITION. Partitions (R292 to R298, R305 to R309): definition, redefinition, deletion, pre-emption and resume. -/
namespace Sys2Proof.Machine

/-- A partition definition block (R294). -/
abbrev PBlk := BitVec 1024

def pbClusters (b : PBlk) : W64 := BitVec.ofNat 64 (fld b 0 64)
def pbBase (b : PBlk) : Nat := fld b 64 13
def pbStep (b : PBlk) : Nat := fld b 80 13
def pbScratch (b : PBlk) : Nat := fld b 96 8
def pbSlots (b : PBlk) : Nat := fld b 112 15
def pbSave (b : PBlk) : Nat := fld b 128 64
def pbStk (b : PBlk) (i : Nat) : W32 := BitVec.ofNat 32 (fld b (192 + 32 * i) 32)
def pbPort (b : PBlk) (k : Nat) : W32 := BitVec.ofNat 32 (fld b (448 + 32 * k) 32)
def pbWeight (b : PBlk) : Nat := fld b 576 8
def pbProgs (b : PBlk) : Nat := fld b 584 3
def pbIdle (b : PBlk) : Nat := fld b 592 16
def pbRemote (b : PBlk) : Nat := fld b 608 2
def pbNode (b : PBlk) (i : Nat) : Nat := fld b (640 + 16 * i) 16

/-- VCOUNT of a cluster mask (R292). -/
def vcountOf (s : State) (m : W64) : Nat := popcount 64 m.toNat * coresPerCluster s

def pbCount (s : State) (b : PBlk) : Nat := vcountOf s (pbClusters b)

/-- The definition of a partition in force, as a block. -/
def partBlock (s : State) (p : Nat) : PBlk :=
  let x := tfind s.parts p
  pack 1024 ([(0, 64, (rd64 s (PART_CLUSTERS p)).toNat), (64, 13, partBase s p), (80, 13, partStepCores s p), (96, 8, partScratchKib s p),
    (112, 15, rf s (PART_SLOTS p) 0 15), (128, 64, (saveArea s p).toNat), (576, 8, rf s (PART_NB p) 0 8), (584, 3, rf s (PART_NB p) 8 3),
    (592, 16, rf s (PART_STEP_IDLE p) 0 16), (608, 2, match x with | some x => x.remoteCmd | none => 0)] ++
    (List.range 8).map (fun i => (192 + 32 * i, 32, (rd s (PART_STK_REG p i)).toNat)) ++
    (List.range 4).map (fun k => (448 + 32 * k, 32, (rd s (PART_PORT_REG p k)).toNat)) ++
    (List.range 8).map (fun i => (640 + 16 * i, 16, match x with | some x => (x.nodes.getD i 0xFFFF).toNat | none => 0xFFFF)))

/-- The definition a partition will have once what was accepted has taken effect (R274). -/
def projBlock (s : State) (p : Nat) : PBlk :=
  match (tfind s.parts p).bind (·.redefine) with
  | some b => b
  | none => partBlock s p

/-- A regulator word in its range. -/
def regWordOk (w : W32) : Bool := decide (fld w 0 9 ≤ 256) && fld w 10 6 == 0 && decide (4 ≤ fld w 16 10) && fld w 26 6 == 0

/-- Every field in its range (R294, 0x70). -/
def blockBad (s : State) (b : PBlk) : Bool :=
  decide (fld b 77 3 ≠ 0 ∨ fld b 93 3 ≠ 0 ∨ fld b 104 8 ≠ 0 ∨ fld b 127 1 ≠ 0 ∨ fld b 587 5 ≠ 0 ∨ fld b 610 30 ≠ 0 ∨ fld b 768 256 ≠ 0) ||
  decide (128 < pbScratch b) || decide (16384 < pbSlots b) || decide (4 < pbProgs b) || decide (pbIdle b < 100) || pbRemote b == 3 ||
  (List.range (stackCount s)).any (fun i => !regWordOk (pbStk b i)) || (List.range (ports s)).any (fun k => !regWordOk (pbPort b k))

/-- The bytes from a local offset lie wholly in reserved LINEAR row sets (R281). -/
def inReservedLinear (s : State) (off n : Nat) : Bool :=
  let z := rowSetBytes s
  decide (off + n ≤ memBytes s) && (List.range (if n = 0 then 0 else (off + n - 1) / z - off / z + 1)).all (fun i =>
    match regionAt s (off / z + i) with | some r => !r.planar | none => false)

/-- SAVE_BASE (0x72). -/
def saveBad (s : State) (b : PBlk) : Bool :=
  let a := pbSave b
  decide (a ≠ 0) && (decide (a % 4096 ≠ 0) || !isLocalNode s (a / 2 ^ 48) || !inReservedLinear s (a % 2 ^ 48) (saveBytes * pbStep b))

/-- The other defined partitions. -/
def otherParts (s : State) (p : Nat) : List Nat := (List.range 16).filter (fun q => decide (q ≠ p) && partDefined s q)

/-- Two blocks hold a cluster or a virtual core in common. -/
def blocksMeet (s : State) (a b : PBlk) : Bool :=
  pbClusters a &&& pbClusters b != 0 || (decide (pbBase a < pbBase b + pbCount s b) && decide (pbBase b < pbBase a + pbCount s a))

/-- A job of a partition waits or runs: it has neither been stopped nor has every thread of it executed END (R287, R296). -/
def jobsOpen (s : State) (p : Nat) : Bool := s.cores.jobs.any (fun j => j.part == p && j.stop.isNone && !jobEnding s j)

/-- A redefinition that R296 forbids now. -/
def redefineRefused (s : State) (p : Nat) (b : PBlk) : Bool :=
  let o := projBlock s p
  partDefined s p && (jobsOpen s p || partActive s p) &&
    (pbClusters b != pbClusters o || pbBase b != pbBase o || pbStep b != pbStep o || pbScratch b != pbScratch o || pbSave b != pbSave o)

/-- The most a defined partition holds of a resource, by the definition in force and by the one that waits (R292, R296). -/
def holdsMost (s : State) (f : PBlk → Nat) (p : Nat) : Nat := max (f (partBlock s p)) (f (projBlock s p))

/-- Some sum of R292 would pass its total. -/
def sumsOver (s : State) (p : Nat) (b : PBlk) : Bool :=
  let sum (f : PBlk → Nat) : Nat := (otherParts s p).foldl (fun a q => a + holdsMost s f q) (f b)
  decide (16384 < sum pbSlots) || decide (4 < sum pbProgs) || (List.range (stackCount s)).any (fun i => decide (256 < sum (fun o => fld (pbStk o i) 0 9))) ||
    (List.range (ports s)).any (fun k => decide (256 < sum (fun o => fld (pbPort o k) 0 9)))

/-- The virtual cores of a range are served by no core. -/
def unplace (s : State) (base count : Nat) : State :=
  let vm := s.cores.vmap.filter (fun v => decide (v.1 < base) || decide (base + count ≤ v.1))
  { s with cores := { s.cores with vmap := vm } }

/-- A partition that nothing has defined. -/
def Part.zero : Part :=
  { saveBase := 0, remoteCmd := 0, nodes := [], tokens := [], redefine := none, lastStep := 0, cfg := [], measured := none, rates := none }

/-- A definition takes effect (R293, R296, R302, R457): a partition that was undefined starts with full buckets and zero tallies. A virtual core left
unplaced makes the device DEGRADED (R368). -/
def applyBlock (s : State) (p : Nat) (b : PBlk) : State :=
  let fresh := !partDefined s p
  let s := if fresh then
      [PART_IDX_SKIPPED p, PART_ILL_SKIPPED p, PART_CVT_FLAGGED p, PART_PREEMPT_COUNT p].foldl (fun s o => wr64 s o 0) (wr s (PART_TALLY_STATUS p) 0)
    else unplace s (partBase s p) (partCount s p)
  let old := (tfind s.parts p).getD Part.zero
  let s := if fresh then wr s (PART_STATUS p) 1 else s
  let s := wr s (PART_VCORE p) (pack 32 [(0, 13, pbBase b), (16, 13, pbCount s b)])
  let s := wr64 s (PART_CLUSTERS p) (pbClusters b)
  let s := wr s (PART_STEP p) (pack 32 [(0, 13, pbStep b), (16, 8, pbScratch b)])
  let s := wr s (PART_SLOTS p) (BitVec.ofNat 32 (pbSlots b))
  let s := iterate 8 (fun i s => wr s (PART_STK_REG p i) (if i < stackCount s then pbStk b i else 0)) s
  let s := iterate 4 (fun k s => wr s (PART_PORT_REG p k) (if k < ports s then pbPort b k else 0)) s
  let s := wr s (PART_NB p) (pack 32 [(0, 8, pbWeight b), (8, 3, pbProgs b)])
  let s := wr s (PART_STEP_IDLE p) (BitVec.ofNat 32 (pbIdle b))
  let x : Part := { old with
    saveBase := BitVec.ofNat 64 (pbSave b), remoteCmd := pbRemote b, nodes := (List.range 8).map (fun i => BitVec.ofNat 16 (pbNode b i)),
    redefine := none, tokens := if fresh then [] else old.tokens }
  let s := placePart { s with parts := tput s.parts p x } p
  if anyUnplaced s then degrade s else s

/-- A redefinition that waits takes effect at a step boundary (R296). -/
def applyPending (s : State) (p : Nat) : State :=
  match (tfind s.parts p).bind (·.redefine) with
  | some b => applyBlock s p b
  | none => s

/-- PARTITION_DEFINE (R294 to R296). -/
def execPartitionDefine (id : Nat) (s : State) : Res :=
  .next (runCmd s id 0x0005 fun s c =>
    let p := pkPart c.pkt
    let b : PBlk := BitVec.ofNat 1024 (leNat (c.ext.take 128))
    let late := if c.extStatus ≠ 0 then checks s c [] false [] [] [] false else
      checks s c [] false
        [(blockBad s b, 0x70),
         (pbClusters b == 0 || decide (gradeCores s < pbBase b + pbCount s b) || decide (pbCount s b < pbStep b) ||
            (decide (0 < pbSlots b) && pbStep b == 0), 0x71),
         (saveBad s b, 0x72),
         (pbRemote b == 1 && (List.range 8).all (fun i => pbNode b i == 0xFFFF), 0x73)] []
        [ckState ((otherParts s p).any (fun q => blocksMeet s b (projBlock s q))) 0x06 1, ckState (redefineRefused s p b) 0x06 2]
        (sumsOver s p b)
    withStruct s c c.extStatus late fun s =>
    let s := if partDefined s p ∧ holdsSlot s p then
        match tfind s.parts p with
        | some x => { s with parts := tput s.parts p { x with redefine := some b } }
        | none => applyBlock s p b
      else applyBlock s p b
    complete s c stOk 0 0)

/-- A partition has queue pairs, sessions, jobs or programs (R278). -/
def partBusy (s : State) (p : Nat) (q : Nat) : Bool :=
  s.host.qps.any (fun x => decide (x.1 ≠ q ∨ x.2.part = p) && x.2.defined && x.2.part == p) || decide (sessIn s p ≠ []) ||
    s.cores.jobs.any (fun j => j.part == p) || s.nb.programs.any (fun x => x.part == p)

/-- PARTITION_DELETE (R278, R296). -/
def execPartitionDelete (id : Nat) (s : State) : Res :=
  .next (runCmd s id 0x0006 fun s c =>
    let p := pkPart c.pkt
    checked s c (checks s c [] false [(p == 0, 0x74)] []
      [ckState (!partDefined s p) 0x06 0, ckState (partBusy s p c.queue) 0x06 2] false) fun s =>
    let s := unplace s (partBase s p) (partCount s p)
    let s := ((List.range 0x21).map (fun i => PART_STATUS p + 4 * i)).foldl (fun s o => wr s o 0) s
    let s := [PART_CLUSTERS p, PART_IDX_SKIPPED p, PART_ILL_SKIPPED p, PART_CVT_FLAGGED p, PART_PREEMPT_COUNT p].foldl (fun s o => wr64 s o 0) s
    let s := { s with parts := tdel s.parts p, se := { s.se with rings := tdel s.se.rings p, status := tdel s.se.status p } }
    complete s c stOk 0 0)

/-! ## Pre-emption and resume (R298, R305 to R308) -/

/-- The instances of a job's queues on a core, in the order of R74: queue, thread (0 for a shared one), DEPTH, entry bytes. -/
def queueInsts (j : Job) : List (Nat × Nat × Nat × Nat) :=
  ((List.range 16).map (fun q =>
    if qDepth j q = 0 then [] else
      (List.range (if qShared j q then 1 else j.threads)).map (fun k => (q, k, qDepth j q, if qWide j q then 256 else 8)))).flatten

/-- A core's queue storage (R306): each instance holds its entries from its head on, as a ring. The instances lie one behind another in R74's order; where a
ring's head stands and the bytes that hold no entry are free values (log entry 24, DESIGN CHOICE). -/
def queueImage (s : State) (j : Job) (v : Nat) : List Byte × State :=
  let (x, s) := draw s (8 * 65536)
  let (_, bs, s) := (queueInsts j).foldl (fun (acc : Nat × List Byte × State) i =>
    let (base, bs, s) := acc
    let (head, s) := drawBelow s i.2.2.1
    let es := getQ s j { vcore := v, thread := i.2.1 } i.1
    let ring (k : Nat) : List Byte :=
      match es[(k + i.2.2.1 - head) % i.2.2.1]? with
      | some e => leBytes i.2.2.2 (fld e.data 0 (8 * i.2.2.2))
      | none => (bs.drop (base + i.2.2.2 * k)).take i.2.2.2
    let n := i.2.2.1 * i.2.2.2
    (base + n, bs.take base ++ ((List.range i.2.2.1).map ring).flatten ++ bs.drop (base + n), s)) (0, bytesOf x, s)
  (bs, s)

/-- The contexts of cores about to be saved are written to the save area (R306): queue storage, then queue control and the threads' state, whose formats
the spec leaves open (log entry 24, DESIGN CHOICE). The park areas take the completions as they come (R307). -/
def writeSaves (s : State) (part : Nat) (vs : List Nat) : State :=
  vs.foldl (fun s v =>
    match jobAt s v with
    | none => s
    | some j =>
      let (bs, s) := queueImage s j v
      let (x, s) := draw s (8 * (200704 - 65536))
      (devWrite s (offOf (saveArea s part) + saveBytes * (v - partBase s part)) (bs ++ bytesOf x) { port := 0 }).2) s

/-- A partition has a slot to run, so a step is to start. -/
def stepWanted (s : State) (part : Nat) : Bool := holdsSlot s part

/-- PREEMPT (R298, R305): a step is to start and a job holds step cores. -/
def execPreempt (part : Nat) (s : State) : Res :=
  if stepWanted s part ∧ saveArea s part ≠ 0 ∧ serving s then
    .next (writeSaves (preemptPart s part) part ((displaced s part).map (·.2)).flatten)
  else .next s

/-- The completions a saved core's park areas hold, in the order they were written. -/
def parkedOf (s : State) (v : Nat) : List Nat :=
  s.cores.parkOrder.filter (fun id => s.cores.ops.any (fun o => o.id == id && o.t.vcore == v))

/-- A core's contexts are restored (R308): park entries are delivered, later completions go to the live threads, waiters join their lists. -/
def resumeCore (s : State) (part v : Nat) : State :=
  let entries := parkedOf s v
  let s := { s with cores := { s.cores with
    preempted := s.cores.preempted.filter (· ≠ v), parkOrder := s.cores.parkOrder.filter (fun id => decide (id ∉ entries))
    ops := mapIf (fun o => o.t.vcore == v) (fun o => { o with parked := false }) s.cores.ops } }
  let s := entries.foldl (fun s id =>
    match s.cores.ops.find? (fun o => o.id == id) with
    | some o => landOp s o
    | none => s) s
  let s := iterate 8 (fun k s => let t : Tid := { vcore := v, thread := k }; if (getThread s t).run = .idle then s else restoreThread s t) s
  traceEvent s 10 (match jobAt s v with | some j => j.tag | none => 0) 0 part v 1 entries.length 0

/-- RESUME (R298, R308): the partition has started no step for STEP_IDLE_US; its step cores go back to the jobs. -/
def execResume (part : Nat) (s : State) : Res :=
  let idle := match tfind s.parts part with
    | some x => decide (x.lastStep + 1000 * rf s (PART_STEP_IDLE part) 0 16 ≤ mono s)
    | none => true
  if !idle || (tfind s.se.steps part).isSome then .next s
  else
    let vs := s.cores.preempted.filter (fun v => isStepCore s part v && !unplaced s v && savedCore s v)
    .next (wf (vs.foldl (fun s v => resumeCore s part v) s) (PART_STATUS part) 1 1 0)

end Sys2Proof.Machine
end

