-- ==== Sys2Proof/Machine/StackRows.lean ====
section
/-! DEFINITION. The stack controllers' own events (R166 to R180, R222): refresh, power-down, self-refresh, the patrol scrubber, row repair, and
the start of retrains. -/
namespace Sys2Proof.Machine

/-- A bank's open row is closed. -/
def closeRow (e : Engine) (bank : Nat) : Engine := { e with openRow := tset e.openRow bank 0 0 }

/-- A refresh of a bank is issued: its stack ID is woken for it (R166, R167) and its row is closed. -/
def refreshBank (s : State) (bank postponed : Nat) : State :=
  let s := wakeBank s bank
  let e := getEngine s (bank / 32)
  setEngine s (bank / 32) (closeRow { e with postponed := tset e.postponed bank postponed 0 } bank)

/-- REFRESH (R166): a refresh of a bank falls due and is postponed, up to 8 of them; a ninth, or a `forced` one of those postponed, is issued. A
stack in self-refresh and a held pseudo-channel refresh themselves (R168, R180). -/
def execRefresh (bank : Nat) (forced : Bool) (s : State) : Res :=
  let e := getEngine s (bank / 32)
  let n := tget e.postponed bank 0
  if bankCount s ≤ bank ∨ rf s (STK_STATUS (bank / 2048)) 2 1 = 1 ∨ pcHeld s (bank / 32) then .next s
  else if forced then
    if n = 0 then .next s else .next (refreshBank s bank (n - 1))
  else if n < 8 then .next (setEngine s (bank / 32) { e with postponed := tset e.postponed bank (n + 1) 0 })
  else .next (refreshBank s bank n)

/-- A stack ID is idle (R167): no operation and no blast on its eight banks. -/
def sidIdle (s : State) (sid : Nat) : Bool :=
  let e := getEngine s (sid / 4)
  !(e.inflight ++ e.sliceQ ++ e.wbuf).any (fun d => d.bank / 8 == sid) &&
    !s.nb.programs.any (fun p => p.left.any (fun b => b.1 / 8 == sid))

/-- POWER_DOWN (R167): a stack ID that has stayed idle enters power-down. -/
def execPowerDown (sid : Nat) (s : State) : Res :=
  if sid < 256 * stackCount s ∧ sidIdle s sid ∧ rf s (STK_POWER (sid / 256)) 16 1 = 1 ∧ sid ∉ s.mem.powerDown then
    .next { s with mem := { s.mem with powerDown := s.mem.powerDown ++ [sid] } }
  else .next s

/-- SELF_REFRESH (R168): a stack all of whose stack IDs have stayed idle enters self-refresh. -/
def execSelfRefresh (stack : Nat) (s : State) : Res :=
  let idle := (List.range 256).all (fun i => sidIdle s (256 * stack + i))
  if stack < stackCount s ∧ rf s (STK_POWER stack) 17 1 = 1 ∧ idle ∧ !s.mem.held.any (fun h => h.1 / 64 == stack) then
    .next (wf s (STK_STATUS stack) 2 1 1)
  else .next s

/-- PATROL_SCRUB (R174): the scrubber of a controller reads its next sector, once it is not held (R180). -/
def execPatrolScrub (stack : Nat) (s : State) : Res :=
  if stackCount s ≤ stack ∨ !serving s then .next s
  else
    let n := 2048 * 24576 * 64
    let pos := tget s.mem.scrubPos stack 0
    let sec := stack * n + pos
    if pcHeld s (sec / 64 / 24576 / 32) then .next s else
    let s := (checkSector (countHeld s [sec]) sec hfRq (secAddr s sec) false).2
    .next { s with mem := { s.mem with scrubPos := tset s.mem.scrubPos stack ((pos + 1) % n) 0 } }

/-- A row is copied to a spare row (R176): every sector is read, corrected and checked as a scrub checks it, and the remap is entered. -/
def repairRow (s : State) (bank row : Nat) : State :=
  let key := bank * 24576 + row
  let st := bank / 2048
  let used := tget s.mem.remaps bank []
  let due (s : State) : State := { s with mem := { s.mem with repairDue := s.mem.repairDue.filter (· ≠ key) } }
  if 32 ≤ used.length then
    let s := wf s (STK_STATUS st) 6 1 1
    let s := logErr s { cls := 0x02, port := 7, loc := locM (key * 64) none, addr := secAddr s (key * 64), detail := 1 }
    let rows := if row ∈ s.mem.noAlloc then s.mem.noAlloc else s.mem.noAlloc ++ [row]
    due { s with mem := { s.mem with noAlloc := rows } }
  else
    let s := iterate 64 (fun i s => (checkSector s (key * 64 + i) hfRq (secAddr s (key * 64 + i)) false).2) s
    let left := 31 - used.length
    let s := { s with mem := { s.mem with remaps := tset s.mem.remaps bank (used ++ [row]) [], ceRow := tset s.mem.ceRow key [] [] } }
    let s := flashWrite s (.remap bank row)
    let s := bump s (STK_REMAP_COUNT st) (STK_TALLY_STATUS st) 2 1
    let s := wf s (STK_SPARES_MIN st) 0 6 (min (rf s (STK_SPARES_MIN st) 0 6) left)
    let s := logErr s { cls := 0x04, port := 7, loc := locM (key * 64) none, addr := secAddr s (key * 64), detail := left }
    let s := if left = 0 then degrade (wf s (STK_STATUS st) 6 1 1) else s
    due s

/-- ROW_REPAIR (R175 to R178): a row that is due is repaired, once its pseudo-channel is not held (R180). -/
def execRowRepair (bank row : Nat) (s : State) : Res :=
  if bank * 24576 + row ∈ s.mem.repairDue ∧ row < 24576 ∧ pcHeld s (bank / 32) = false then .next (repairRow s bank row) else .next s

/-- A partition's next step is predicted to start within 150 µs (R222, R256): the one that runs is to end by then, or none runs and a slot waits for the
next. -/
def startSoon (s : State) (part : Nat) : Bool :=
  match tfind s.se.steps part with
  | some run => decide (run.startMono + run.predicted ≤ mono s + 150000)
  | none => holdsSlot s part && (tfind s.se.rings part).isSome

/-- The time a channel's periodic retrain is due: PERIOD_S after the last, or, where its STKPHY record became guarded, at once (R179, R396). -/
def retrainDue (s : State) (channel : Nat) : Nat :=
  let t := tget s.mem.trainedAt channel 0 + rf s (STK_RETRAIN_CFG (channel / 32)) 0 16 * 1000000000
  match tfind s.mem.stkphyDue channel with
  | some u => min t u
  | none => t

/-- PERIODIC_RETRAIN (R179, R180, R222): the retrain of a channel of a stack that is due starts in slack, when no partition has a group in
stages 2 to 5 and none is to start a step within 150 µs; from 2 s past its due time, at a step boundary of any partition. -/
def execPeriodicRetrain (stack channel : Nat) (s : State) : Res :=
  let ch := 32 * stack + channel
  let pcs := [2 * ch, 2 * ch + 1]
  let slack := !s.se.steps.any (fun r => inStages s r.1 r.2) && !(List.range 16).any (fun p => partDefined s p && startSoon s p)
  let late := decide (retrainDue s ch + 2000000000 ≤ mono s) && decide (s.se.boundaryAt = some (mono s))
  if stackCount s ≤ stack ∨ 32 ≤ channel ∨ !serving s ∨ rf s (STK_RETRAIN_CFG stack) 0 16 = 0 ∨ mono s < retrainDue s ch ∨ !(slack || late) ∨
      pcs.any (pcHeld s) then .next s
  else
    let s := { s with mem := { s.mem with trainedAt := tset s.mem.trainedAt ch (mono s) 0 } }
    .next (retrainFlags (holdPcs s pcs 1) stack)

/-- A trigger of an urgent retrain (R179, R363): a fault of its pseudo-channel, whose recovery is the retrain. Codes 1 error rate, 2 eye margin,
3 assay request. -/
def urgentTrigger (s : State) (pc code : Nat) (whole : Bool) : State :=
  let s := logErr s { cls := 0x05, loc := pc / 64 + 8 * pc, detail := code }
  let w := s.mem.wholeDue.filter (· ≠ pc)
  fault { s with mem := { s.mem with wholeDue := if whole then w ++ [pc] else w } } (2, pc) 0x05

/-- URGENT_RETRAIN (R179, R180). -/
def execUrgentRetrain (pc : Nat) (cause : RetrainCause) (whole : Bool) (s : State) : Res :=
  if 64 * stackCount s ≤ pc then .next s
  else .next (urgentTrigger s pc (match cause with | .errorRate => 1 | .eyeMargin => 2 | .assay => 3) whole)

end Sys2Proof.Machine
end

