-- ==== Sys2Proof/Machine/Serve.lean ====
section
/-! DEFINITION. The serving engine's shared operations (R233 to R249, R259 to R262): registers in force, pages, transcripts, tiers, status
entries, admission, and what happens at a step boundary. -/
namespace Sys2Proof.Machine

/-! ## The session cache (R224, R225, R227) -/

/-- The local offset of a session's record in the session table, and of a model's in the model table (R225). -/
def recOff (s : State) (i : Nat) : Nat := memBytes s - 8 * rowSetBytes s + 128 * i
def modelOff (s : State) (m : Nat) : Nat := recOff s (2 ^ 20 + m)

/-- A session's record stays in the cache: it holds a slot or a pending request. -/
def recPinned (s : State) (i : Nat) : Bool := match getSess s i with | some x => x.slot || x.waiting | none => false

/-- The cache has room: one of its 32,768 records that may leave, any one, is written back (log entry 125, DESIGN CHOICE). -/
def cacheRoom (s : State) : State :=
  if s.se.cached.length < 32768 then s
  else
    let out := s.se.cached.filter (fun i => !recPinned s i)
    let (k, s) := drawBelow s out.length
    match out[k]? with
    | none => s
    | some i =>
      let s := match getSess s i with | some x => (devWrite s (recOff s i) (bytesOf x.record) hfRq).2 | none => s
      { s with se := { s.se with cached := s.se.cached.filter (· != i) } }

/-- A session's record is in the cache; one that is not is fetched from the session table. Where the fetch fails, the table is repaired from the twin's mirror
(R373), or the record is a free value (log entry 125, DESIGN CHOICE). -/
def cacheIn (s : State) (i : Nat) : State :=
  if i ∈ s.se.cached ∨ (getSess s i).isNone then s
  else
    let s := cacheRoom s
    let (st, v, s) := devReadNat s (recOff s i) 128 hfRq
    let (x, s) := draw s 1024
    let kept : Option (BitVec 1024) := if twinState s = 2 then (tfind s.twin.sent i).map (·.1) else none
    let s := match decide (st = 0), kept with
      | true, _ => modSess s i (fun y => { y with record := BitVec.ofNat 1024 v })
      | _, some r => (devWrite (modSess s i (fun y => { y with record := r })) (recOff s i) (bytesOf r) hfRq).2
      | _, none => modSess s i (fun y => { y with record := x })
    { s with se := { s.se with cached := i :: s.se.cached } }

/-- A new session's record is made in the cache. -/
def cacheNew (s : State) (i : Nat) : State := let s := cacheRoom s; { s with se := { s.se with cached := i :: s.se.cached } }

/-- A model's record is written to the model table as well. -/
def writeModel (s : State) (m : Nat) : State :=
  (devWrite s (modelOff s m) (bytesOf (match getModel s m with | some x => x.record | none => 0)) hfRq).2

/-! ## Registers in force (R223, R263) -/

/-- The registers whose changes take effect at a partition's next step boundary. -/
def engineRegs : List Nat :=
  [HF_LSPLIT_CFG, HF_SE_CFG, HF_SE_GUARD, HF_SE_SPEC_CFG] ++ (List.range 4).map HF_SE_TTL_T ++ (List.range 8).map HF_SE_DLC_TTFT ++
    (List.range 8).map HF_SE_DLC_ITL

/-- A register as a partition's engine uses it. -/
def inForce (s : State) (part off : Nat) : W32 :=
  match tfind s.parts part, engineRegs.findIdx? (· == off) with
  | some p, some i => p.cfg.getD i (rd s off)
  | _, _ => rd s off

def forceFld (s : State) (part off lo len : Nat) : Nat := fld (inForce s part off) lo len

/-- The reference rates and shares that hold for a partition now (R215, R219, R301). -/
def liveRates (s : State) (p : Nat) : InForce :=
  { near := rf s (PART_NB p) 0 8, sum := (((List.range 16).filter (partDefined s)).map (fun q => rf s (PART_NB q) 0 8)).foldl (· + ·) 0
    band := ((List.range (stackCount s)).map (fun k => rf s (PART_STK_REG p k) 0 9)).foldl (· + ·) 0
    meas := (tfind s.parts p).bind (·.measured), moduleNb := s.nb.measured, moduleD := (rd s HF_LSPLIT_RATE_D).toNat }

/-- The changes of registers, and of shares and rates, take effect (R219, R223, R263). -/
def snapCfg (s : State) (part : Nat) : State :=
  match tfind s.parts part with
  | some p => { s with parts := tput s.parts part { p with cfg := engineRegs.map (rd s), rates := some (liveRates s part) } }
  | none => s

/-! ## Status entries (R261, R262) -/

/-- An output entry (R261). `flags` holds FIRST, FINAL, FALLBACK, MISSED, REBUILT, WITHHELD, SUSPENDED and TAKEN_OVER from bit 0. -/
structure OutEntry where
  handle : Nat
  tag : Nat := 0
  status : W16
  client : Nat
  reason : Nat := 0
  flags : Nat := 0
  draft : Nat := 0
  pos : Nat
  toks : List W32 := []
deriving DecidableEq, Repr

/-- The 64 bytes of an entry. -/
def OutEntry.line (e : OutEntry) : Line :=
  pack 512 ([(0, 32, e.handle), (32, 32, e.tag), (64, 16, e.status.toNat), (80, 8, e.client), (88, 4, e.toks.length), (92, 4, e.reason), (96, 8, e.flags),
    (112, 4, e.draft), (128, 32, e.pos)] ++ (List.range 9).map (fun i => (160 + 32 * i, 32, (e.toks.getD i 0).toNat)))

/-- A status entry waits for the partition's next record. -/
def pushStatus (s : State) (part : Nat) (e : OutEntry) : State :=
  { s with se := { s.se with status := tset s.se.status part (tget s.se.status part [] ++ [e.line]) [] } }

/-- An entry of a session without tokens. -/
def plainEntry (r : SRec) (tag : Nat) (status : W16) (reason flags : Nat) : OutEntry :=
  { handle := srHandle r, tag := tag, status := status, client := srClient r, reason := reason, flags := flags, pos := srLen r }

/-! ## The pool's pages (R241 to R243) -/

/-- A field of the pool's block, 0 with no pool. -/
def poolFld (s : State) (f : SRec → Nat) : Nat := match s.se.pool with | some p => f p | none => 0

/-- The `k` lowest numbers below `limit` and at least `i` that are not in `used`. -/
def lowestFree (used : List Nat) (limit fuel i k : Nat) : List Nat :=
  match fuel with
  | 0 => []
  | n + 1 =>
    if k = 0 ∨ limit ≤ i then []
    else if i ∈ used then lowestFree used limit n (i + 1) k
    else i :: lowestFree used limit n (i + 1) (k - 1)

/-- The K slots in use. -/
def slotsUsed (s : State) : List Nat := (s.se.spans.map (·.slots)).flatten

/-- The `k` lowest free K slots. -/
def freeSlots (s : State) (k : Nat) : List Nat := let u := slotsUsed s; lowestFree u (poolFld s pN) (u.length + k + 1) 0 k

/-- K slots a session holds at T0. -/
def heldSlots (s : State) (i : Nat) : Nat := ((s.se.spans.filter (fun p => p.session == i)).map (fun p => p.slots.length)).foldl (· + ·) 0

/-- Units of 256 bytes of a span block with `n` entries. -/
def blockUnits (n : Nat) : Nat := cdiv (4 * n) 256

/-- The lowest free run of units for a span block with `n` entries. -/
def freeBlock (s : State) (n : Nat) : Option Nat :=
  let total := poolFld s (pBytes · 1) / 256
  let taken := s.se.spans.map (fun p => (p.block, blockUnits p.slots.length))
  let fits (b : Nat) : Bool := decide (b + blockUnits n ≤ total) && taken.all (fun t => decide (b + blockUnits n ≤ t.1) || decide (t.1 + t.2 ≤ b))
  ((0 :: taken.map (fun t => t.1 + t.2)).filter fits).foldl (fun m b => match m with | none => some b | some a => some (min a b)) none

/-- The local offset of an area of the pool. -/
def areaOff (s : State) (i : Nat) : Nat := poolFld s (pBase · i) % 2 ^ 48

/-- The engine writes a 32-bit entry of a directory root or span block. -/
def dirPut (s : State) (off v : Nat) : State := (devWrite s off (leBytes 4 v) hfRq).2

/-- Entry of a span in its root (R242). -/
def rootEntry (draft : Bool) (idx : Nat) : Nat := if draft then 2048 + idx else idx

/-- The Level address of a directory root. -/
def rootAddr (s : State) (r : Nat) : Nat := poolFld s (pBase · 0) + 16384 * r

/-- A session's directory root exists: the lowest free one, cleared (log entry 46, DESIGN CHOICE). -/
def ensureRoot (s : State) (i : Nat) : Option (Nat × State) :=
  match getSess s i with
  | none => none
  | some x =>
    match x.root with
    | some r => some (r, s)
    | none =>
      let used := s.se.sessions.filterMap (fun y => y.2.root)
      match lowestFree used (poolFld s (pBytes · 0) / 16384) (used.length + 1) 0 1 with
      | r :: _ =>
        let s := (devWrite s (areaOff s 0 + 16384 * r) (List.replicate 16384 0) hfRq).2
        some (r, putSess s i { x with
          root := some r, record := if srTier x.record = 0 then srPut x.record [(192, 64, rootAddr s r)] else x.record })
      | [] => none

/-- A span of a session gets its block and `n` K slots (R243), or nothing changes. -/
def allocSpan (s : State) (i : Nat) (draft : Bool) (n idx : Nat) : Option State :=
  if s.se.spans.any (fun p => p.session == i && p.draft == draft && p.idx == idx) then some s
  else
    let ks := freeSlots s n
    match ensureRoot s i, freeBlock s n with
    | some (r, s), some b =>
      if ks.length < n then none
      else
        let base := areaOff s 1 + 256 * b
        let s := iterate n (fun j s => dirPut s (base + 4 * j) (2 ^ 31 + ks.getD j 0)) s
        let s := dirPut s (areaOff s 0 + 16384 * r + 4 * rootEntry draft idx) (2 ^ 31 + b)
        some { s with se := { s.se with spans := s.se.spans ++ [{ session := i, draft := draft, idx := idx, block := b, slots := ks }] } }
    | _, _ => none

/-- The spans of positions `lo` to `hi − 1` exist. -/
def ensureSpans (s : State) (i : Nat) (draft : Bool) (n lo hi : Nat) : Option State :=
  if hi ≤ lo then some s
  else (List.range ((hi - 1) / 512 + 1 - lo / 512)).foldl (fun s k => s.bind (fun s => allocSpan s i draft n (lo / 512 + k))) (some s)

/-- The spans that satisfy `p` are freed, their root entries cleared (R243). -/
def freeSpans (s : State) (p : Span → Bool) : State :=
  let s := (s.se.spans.filter p).foldl (fun s q =>
    match (getSess s q.session).bind (·.root) with
    | some r => dirPut s (areaOff s 0 + 16384 * r + 4 * rootEntry q.draft q.idx) 0
    | none => s) s
  { s with se := { s.se with spans := s.se.spans.filter (fun q => !p q) } }

/-- A session's pages and root are freed. -/
def dropKv (s : State) (i : Nat) : State := modSess (freeSpans s (fun p => p.session == i)) i (fun x => { x with root := none })

/-- The spans wholly at or beyond the valid lengths are freed (R243). -/
def trimSpans (s : State) (i : Nat) : State :=
  match getSess s i with
  | none => s
  | some x => freeSpans s (fun p => p.session == i && decide ((if p.draft then srDkv x.record else srKv x.record) ≤ 512 * p.idx))

/-- Entries of a span block for a model: LAYERS × KV_HEADS (R242). -/
def spanSize (s : State) (model : Nat) : Nat := match getModel s model with | some m => mrLayers m.record * mrKvHeads m.record | none => 0

/-- The draft model of a model. -/
def draftOf (s : State) (model : Nat) : Option Nat := match getModel s model with | some m => mrDraft m.record | none => none
def fallbackOf (s : State) (model : Nat) : Option Nat := match getModel s model with | some m => mrFallback m.record | none => none

/-- Where K slot `k` keeps positions `pos` to `pos + n − 1` of its span (R59 to R61): K codes, V codes, and their scales, by place and bytes. -/
def kvPlaces (s : State) (k pos n : Nat) : List (Nat × Nat) :=
  match s.se.pool with
  | none => []
  | some p =>
    let page (row : Nat) : Nat := row * rowSetBytes s + k * 65536 + pos * 128
    let scale (slot : Nat) : Nat := pScale p % 2 ^ 48 + 1024 * slot + 2 * pos
    [(page (pKRow p), 128 * n), (page (pVRow p), 128 * n), (scale k, 2 * n), (scale (pN p + k), 2 * n)]

/-- A free scale: an FP16 value that is positive and finite (R43). -/
def freeScale (s : State) : List Byte × State := let (v, s) := drawBelow s 0x7BFF; (leBytes 2 (v + 1), s)

/-- The kernels of a step write the KV entries of a position (R43, R59 to R61, R250): values the model leaves free (log entry 47, DESIGN CHOICE). -/
def writeKv (s : State) (i : Nat) (draft : Bool) (pos : Nat) : State :=
  match s.se.spans.find? (fun p => p.session == i && p.draft == draft && p.idx == pos / 512) with
  | some sp =>
    sp.slots.foldl (fun s k =>
      (kvPlaces s k (pos % 512) 1).foldl (fun s p =>
        let (b, s) := if p.2 = 2 then freeScale s else let (x, s) := draw s 1024; (bytesOf x, s)
        (devWrite s p.1 b { port := 0 }).2) s) s
  | none => s

/-- The KV entries of positions `lo` to `hi − 1`. -/
def writeKvs (s : State) (i : Nat) (draft : Bool) (lo hi : Nat) : State := iterate (hi - lo) (fun j s => writeKv s i draft (lo + j)) s

/-! ## Transcripts (R241) -/

/-! ## The twin's mirror (R375, R376) -/

/-- Items go to the twin: PAIRED, or PAIRING with the copy under way. -/
def mirrorOn (s : State) : Bool := twinState s == 2 || (twinState s == 1 && s.twin.sentReq && s.twin.gotReq)

/-- A mirror item is sent, under the number that the next act to wait for the twin will have (R375). -/
def mirrorSend (s : State) (i : MirrorItem) : State := if mirrorOn s then twinPost s (.mirror i) (.twin s.twin.gate) else s

/-- The regions that a model's group table names. -/
def modelRegions (s : State) (m : Model) : List Region :=
  ((m.groups.map (fun g => (List.range (gRegions g)).filterMap (fun k => regionAt s (gFirst g k)))).flatten).eraseDups

/-- A model as it is named to the twin (R375, R376). -/
def twinModel (s : State) (id : Nat) (m : Model) : TwinModel :=
  { id := id, digest := m.digest, bases := (modelRegions s m).map (fun r => r.first * rowSetBytes s) }

/-- The session has a request, ACTIVE or waiting. -/
def hasRequest (x : Session) : Bool := x.slot || x.waiting || x.proj == stActive

/-- The session records that changed since they were last sent go to the twin; one of a session that is gone goes as CLOSED. -/
def mirrorChange (s : State) : State :=
  if !mirrorOn s then s
  else
    let gone := s.twin.sent.filter (fun r => (getSess s r.1).isNone)
    let s := gone.foldl (fun s r =>
      { mirrorSend s (.session (srPut r.2.1 [(32, 3, stClosed)]) false) with twin := { s.twin with sent := tdel s.twin.sent r.1 } }) s
    s.se.sessions.foldl (fun s y =>
      let now := (y.2.record, hasRequest y.2)
      if tfind s.twin.sent y.1 = some now then s
      else { mirrorSend s (.session now.1 now.2) with twin := { s.twin with sent := tput s.twin.sent y.1 now } }) s

/-- Bytes of the transcript area that hold the partner's mirror (R375, R380; log entry 48, DESIGN CHOICE). -/
def mirrorBytes (s : State) : Nat := (s.twin.mirror.map (fun m => 128 + 4 * m.toks.length)).foldl (· + ·) 0

/-- Chunks of the transcript area that sessions may hold. -/
def chunkCount (s : State) : Nat := (poolFld s (pBytes · 2) - mirrorBytes s) / 65536

/-- The local offset of a transcript position. -/
def tokenOff (s : State) (x : Session) (pos : Nat) : Option Nat :=
  match x.chunks[pos / 16384]? with
  | some c => some (areaOff s 2 + 65536 * c + 4 * (pos % 16384))
  | none => none

/-- Places of 64 KiB in the transcript area that hold a chunk or chunk tables. -/
def chunksUsed (s : State) : List Nat := (s.se.sessions.map (fun y => y.2.table.toList.map (· / 128) ++ y.2.chunks)).flatten

/-- A free place of 512 bytes for a chunk table: beside another table, or in the lowest free 64 KiB (log entry 46, DESIGN CHOICE). -/
def tablePlace (s : State) : Option Nat :=
  let ts := s.se.sessions.filterMap (fun y => y.2.table)
  match ts.find? (fun t => (t + 1) / 128 == t / 128 && !ts.any (· == t + 1)) with
  | some t => some (t + 1)
  | none => let u := chunksUsed s; (lowestFree u (chunkCount s) (u.length + 1) 0 1).head?.map (128 * ·)

/-- A session has its chunk table, cleared, with TRANSCRIPT naming it (R232, R241). -/
def ensureTable (s : State) (i : Nat) : Option State :=
  match getSess s i with
  | none => none
  | some x =>
    if x.table.isSome then some s
    else (tablePlace s).map (fun u =>
      let s := (devWrite s (areaOff s 2 + 512 * u) (List.replicate 512 0) hfRq).2
      putSess s i { x with table := some u, record := srPut x.record [(256, 64, poolFld s (pBase · 2) + 512 * u)] })

/-- The table and the chunks for `len` tokens: the lowest free chunks are added, each with its address in the table (R241; log entry 46, DESIGN
CHOICE). -/
def ensureChunks (s : State) (i len : Nat) : Option State :=
  if len = 0 then some s
  else (ensureTable s i).bind (fun s =>
    match getSess s i with
    | none => none
    | some x =>
      let had := x.chunks.length
      let need := cdiv len 16384 - had
      let used := chunksUsed s
      let cs := lowestFree used (chunkCount s) (used.length + need + 1) 0 need
      let entry (j : Nat) : Nat := areaOff s 2 + 512 * x.table.getD 0 + 8 * (had + j)
      if cs.length < need then none
      else
        let s := iterate cs.length (fun j s => (devWrite s (entry j) (leBytes 8 (poolFld s (pBase · 2) + 65536 * cs.getD j 0)) hfRq).2) s
        some (putSess s i { x with chunks := x.chunks ++ cs }))

/-- Tokens are written at the end of a transcript. -/
def appendToks (s : State) (i : Nat) (ts : List W32) : State :=
  match getSess s i with
  | none => s
  | some x =>
    let len := srLen x.record
    let s := (ensureChunks s i (len + ts.length)).getD s
    let x := (getSess s i).getD x
    let s := iterate ts.length (fun j s =>
      match tokenOff s x (len + j) with
      | some a => (devWrite s a (leBytes 4 (ts.getD j 0).toNat) hfRq).2
      | none => s) s
    let s := if ts = [] then s else mirrorSend s (.tokens (BitVec.ofNat 32 (srHandle x.record)) ts)
    putSess s i { x with toks := x.toks ++ ts, record := srPut x.record [(96, 32, len + ts.length)] }

/-- The status of reading transcript positions `lo` to `hi − 1`, and the tokens. -/
def readToks (s : State) (x : Session) (lo hi : Nat) : W16 × List W32 × State :=
  (List.range (hi - lo)).foldl (fun (acc : W16 × List W32 × State) j =>
    match tokenOff acc.2.2 x (lo + j) with
    | some a => let (st, v, s) := devReadNat acc.2.2 a 4 hfRq; (worse acc.1 st, acc.2.1 ++ [BitVec.ofNat 32 v], s)
    | none => (acc.1, acc.2.1 ++ [x.toks.getD (lo + j) 0], acc.2.2)) (0, [], s)

/-! ## Closing, expiring, suspending -/

/-- What the packets of a session's tier move have brought. -/
def tierGot (s : State) (x : Session) : TierGot := (x.tierId.bind (tfind s.fab.tiers)).getD { status := 0, bytes := [] }

/-- A tier move has no packets any more. -/
def endTier (s : State) (i : Nat) : State :=
  match (getSess s i).bind (·.tierId) with
  | some id => modSess { s with fab := { s.fab with tiers := tdel s.fab.tiers id } } i (fun x => { x with tierId := none })
  | none => s

/-- A session is closed (R226, R234): everything it holds is freed, its index's generation rises. -/
def closeSess (s : State) (i : Nat) : State :=
  let s := dropKv (endTier s i) i
  let g := (tget s.se.gen i 0 + 1) % 4096
  { s with se := { s.se with sessions := tdel s.se.sessions i, gen := tset s.se.gen i g 0, cached := s.se.cached.filter (· != i) } }

/-- A session becomes EXPIRED (R231, R249): no KV entries, its transcript stays; one status entry. -/
def expireSess (s : State) (i : Nat) (gone : Bool) : State :=
  match getSess s i with
  | none => s
  | some x =>
    let was := srState x.record == stExpired
    let s := dropKv (endTier s i) i
    let s := modSess s i (fun x => { x with
      record := srPut x.record ([(32, 3, stExpired), (35, 2, 0), (128, 32, 0), (160, 32, 0), (192, 64, 0), (320, 64, 0), (768, 32, 0)] ++
        (if gone then [(47, 1, 1)] else []))
      tierTo := none, tierDone := false, tierWait := none, plain := [] })
    if was then s
    else pushStatus (bump s HF_SE_EXPIRED_COUNT HF_SE_TALLY_STATUS 2 1) (srPart x.record) (plainEntry x.record 0 0x0206 0 0)

/-! ## Tiers (R244 to R247) -/

/-- The time to live of a tier, seconds. -/
def ttlOf (s : State) (part t : Nat) : Nat := (inForce s part (HF_SE_TTL_T t)).toNat

/-- The time a tier's time to live ends, counted from now. -/
def tierEnd (s : State) (part t : Nat) : Nat := let v := ttlOf s part t; if v = 0xFFFFFFFF then 2 ^ 64 - 1 else now s + 1000000000 * v

/-- The size of a session's packed image: its digest, and what the N8's format makes of the entries (log entry 7, DESIGN CHOICE). -/
def packedSize (x : Session) : Nat := if srTier x.record = 0 then 64 + Config.packedBytes (srKv x.record) (srDkv x.record) else srPacked x.record

/-- Bytes of a tier's store, and those its sessions hold or are moving into it. -/
def storeBytes (s : State) (t : Nat) : Nat := poolFld s (pBytes · (2 + t))
def storeUsed (s : State) (t : Nat) : Nat :=
  (s.se.sessions.map (fun y => (if srState y.2.record = stPaused ∧ srTier y.2.record = t then srPacked y.2.record else 0) +
    (if y.2.tierTo = some t then packedSize y.2 else 0))).foldl (· + ·) 0

/-- The tier a session goes to from `t`: the next with a time to live and a store that could hold it; 4 stands for EXPIRED. -/
def nextTier (s : State) (x : Session) (t : Nat) : Nat :=
  ((List.range 3).map (· + 1)).find? (fun u => decide (t < u) && decide (ttlOf s (srPart x.record) u ≠ 0) && decide (storeBytes s u ≠ 0) &&
    decide (packedSize x ≤ storeBytes s u)) |>.getD 4

/-- A PAUSED session of a tier. -/
def restsAt (x : Session) (t : Nat) : Bool := srState x.record == stPaused && srTier x.record == t

/-- A session's move to another tier is under way, or waits for room there. -/
def leaving (x : Session) : Bool := x.tierTo.isSome || x.tierWait.isSome

/-- Unpinned PAUSED sessions of a tier that no move has begun on, least recent first (R246). -/
def movable (s : State) (t : Nat) : List (Nat × Session) :=
  sortBy (fun a b => decide (srLast a.2.record < srLast b.2.record)) (s.se.sessions.filter (fun y =>
    restsAt y.2 t && !srPinned y.2.record && !leaving y.2 && !y.2.waiting))

/-- What sessions that are leaving a tier hold there, by a measure of a session. -/
def leavingSum (s : State) (t : Nat) (f : Nat × Session → Nat) : Nat :=
  ((s.se.sessions.filter (fun y => restsAt y.2 t && leaving y.2)).map f).foldl (· + ·) 0

/-- The images of a tier's store, with those under way, by address and bytes. -/
def imagesIn (s : State) (t : Nat) : List (Nat × Nat) :=
  s.se.sessions.filterMap (fun y => if restsAt y.2 t then some (srKvAddr y.2.record, srPacked y.2.record) else none) ++
    s.se.sessions.filterMap (fun y => if y.2.tierTo = some t then some (y.2.tierAddr, packedSize y.2) else none)

/-- The lowest free place of an image in a tier's store, in 64-byte units (log entry 46, DESIGN CHOICE). -/
def imagePlace (s : State) (t size : Nat) : Option Nat :=
  let base := poolFld s (pBase · (2 + t))
  let taken := imagesIn s t
  let fits (b : Nat) : Bool := decide (b + size ≤ base + storeBytes s t) && taken.all (fun p => decide (b + size ≤ p.1) || decide (p.1 + p.2 ≤ b))
  ((base :: taken.map (fun p => base + 64 * cdiv (p.1 + p.2 - base) 64)).filter fits).foldl (fun m b => some (match m with | none => b | some a => min a b)) none

/-- A session's move from tier `t` down begins, or, where the next store is short, the moves that make room in it; the session's own then waits for
it (R246). -/
def startDown (s : State) (i t fuel : Nat) : State :=
  match fuel, getSess s i with
  | n + 1, some x =>
    let u := nextTier s x t
    if u = 4 then putSess s i { x with tierTo := some 4, tierDone := true, tierWait := none }
    else match imagePlace s u (packedSize x) with
      | some a => putSess s i { x with tierTo := some u, tierDone := false, tierAddr := a, tierWait := none }
      | none =>
        let s := putSess s i { x with tierWait := some (t + 1) }
        let short := max 1 (storeUsed s u + packedSize x - storeBytes s u) - leavingSum s u (fun y => srPacked y.2.record)
        ((movable s u).foldl (fun (acc : State × Nat) y =>
          if short ≤ acc.2 then acc else (startDown acc.1 y.1 u n, acc.2 + srPacked y.2.record)) (s, 0)).1
  | _, _ => s

/-- Sessions move out of T0 ahead of their time, until `need` K slots are free (R246). -/
def pressureT0 (s : State) (need : Nat) : State :=
  let short := max 1 (need - (poolFld s pN - (slotsUsed s).length)) - leavingSum s 0 (fun y => heldSlots s y.1)
  ((movable s 0).foldl (fun (acc : State × Nat) y =>
    if short ≤ acc.2 ∨ heldSlots acc.1 y.1 = 0 then acc else (startDown acc.1 y.1 0 4, acc.2 + heldSlots acc.1 y.1)) (s, 0)).1

/-- A promotion to T0 begins: pages for the valid positions, or pressure, and it waits for them (R245, R246). -/
def startPromotion (s : State) (i : Nat) : State :=
  match getSess s i with
  | none => s
  | some x =>
    let m := srModel x.record
    let n := spanSize s m
    let d := match draftOf s m with | some d => spanSize s d | none => 0
    match (ensureSpans s i false n 0 (srKv x.record)).bind (fun s => ensureSpans s i true d 0 (srDkv x.record)) with
    | some s => modSess s i (fun x => { x with tierTo := some 0, tierDone := false, tierWait := none })
    | none => pressureT0 (modSess s i (fun x => { x with tierWait := some 0 })) (n * cdiv (srKv x.record) 512 + d * cdiv (srDkv x.record) 512)

/-- A move in progress is abandoned, its partial copy freed (R245). -/
def abandonMove (s : State) (i : Nat) : State :=
  match getSess s i with
  | none => s
  | some x =>
    let s := if x.tierTo = some 0 then dropKv s i else s
    modSess (endTier s i) i (fun x => { x with tierTo := none, tierDone := false, tierWait := none })

/-- A move that waits for room tries again; one down the tiers does not while its session is PINNED (R244). -/
def retryMove (s : State) (i : Nat) : State :=
  match getSess s i with
  | none => s
  | some x =>
    match x.tierTo, x.tierWait with
    | none, some w =>
      if srState x.record ≠ stPaused ∨ (srPinned x.record ∧ w ≠ 0) then putSess s i { x with tierWait := none }
      else if w = 0 then startPromotion s i
      else startDown s i (w - 1) 4
    | _, _ => s

/-! ### What a tier move copies (R244, R245, R247) -/

/-- The requester of a tier move: port HOIST (R245). -/
def tierRq : Rq := { port := 1 }

/-- Where a session's KV entries below their valid lengths lie: main before draft, by span and slot. -/
def kvRanges (s : State) (i : Nat) (r : SRec) : List (Nat × Nat) :=
  let before (a b : Span) : Bool := (!a.draft && b.draft) || (a.draft == b.draft && decide (a.idx < b.idx))
  ((sortBy before (s.se.spans.filter (fun p => p.session == i))).map (fun p =>
    let n := min 512 ((if p.draft then srDkv r else srKv r) - 512 * p.idx)
    (p.slots.map (fun k => kvPlaces s k 0 n)).flatten)).flatten

/-- Ranges are read, or written with bytes in their order. -/
def readRanges (s : State) (rs : List (Nat × Nat)) : W16 × List Byte × State :=
  rs.foldl (fun (acc : W16 × List Byte × State) p =>
    let (st, bs, s) := devRead acc.2.2 p.1 p.2 tierRq
    (worse acc.1 st, acc.2.1 ++ bs, s)) (0, [], s)
def writeRanges (s : State) (rs : List (Nat × Nat)) (bs : List Byte) : W16 × State :=
  let (st, s, _) := rs.foldl (fun (acc : W16 × State × List Byte) p =>
    let (st, s) := devWrite acc.2.1 p.1 (acc.2.2.take p.2) tierRq
    (worse acc.1 st, s, acc.2.2.drop p.2)) ((0 : W16), s, bs)
  (st, s)

/-- The bytes of ranges. -/
def rangeBytes (rs : List (Nat × Nat)) : List Nat := (rs.map (fun p => (List.range p.2).map (p.1 + ·))).flatten

/-- An image begins with the digest of its contents (R244). -/
def imageSound (bs : List Byte) : Bool := bs.take 64 == bytesOf (digest (bs.drop 64))

/-- A new packed image: contents in the N8's own format (log entry 47, DESIGN CHOICE) behind their digest. -/
def newImage (s : State) (size : Nat) : List Byte × State :=
  let (x, s) := draw s (8 * (size - 64))
  (bytesOf (digest (bytesOf x)) ++ bytesOf x, s)

/-- An image lies at this module: in its device memory or, by the host window, in its host's. -/
def imageHere (s : State) (a : Nat) : Bool := isLocalNode s (nodeOf (BitVec.ofNat 64 a))

/-- A session's image is read from a store of this module. -/
def readImage (s : State) (a size : Nat) : W16 × List Byte × State := localRead s (offOf (BitVec.ofNat 64 a)) size tierRq

/-- An image is written to a store of this module. -/
def writeImage (s : State) (a : Nat) (bs : List Byte) : W16 × State := localWrite s (offOf (BitVec.ofNat 64 a)) bs tierRq

/-- The local bytes of an image, which its move's partition pays for where they are device memory (R245, R299). -/
def imageBytes (s : State) (a size : Nat) : List Nat := if imageHere s a then (List.range size).map (offOf (BitVec.ofNat 64 a) + ·) else []

/-- The packets of a tier move to or from another node's Level store (R244, R245): GETs of the image, or PUTs of its bytes, on class BULK. With no peer entry they
complete with REMOTE_ERROR, reason NO_PEER (R331). -/
def sendTier (s : State) (i part a n : Nat) (bs : Option (List Byte)) : State :=
  let node := nodeOf (BitVec.ofNat 64 a)
  let id := s.se.order
  let s := modSess { s with se := { s.se with order := id + 1 }, fab := { s.fab with tiers := tput s.fab.tiers id { status := 0, bytes := [] } } } i
    (fun x => { x with tierId := some id })
  let runs := addrRuns ((List.range n).map (a + ·)) (largestPayload s node)
  let packet (r : Nat × Nat) : OpHeader × List Byte :=
    let h : OpHeader := { OpHeader.zero with part := part, addr := BitVec.ofNat 64 r.1 }
    match bs with
    | none => ({ h with kind := 5, len := r.2 }, [])
    | some bs => ({ h with kind := 1 }, (bs.drop (r.1 - a)).take r.2)
  if noPeer s node then
    modTier (logFabric s 1 node 0 { OpHeader.zero with addr := BitVec.ofNat 64 a } stRemote 0x00010101) id (fun g => { g with status := stRemote })
  else (runs.zip (List.range runs.length)).foldl (fun s r =>
    levelSend s node 0 (packet r.1).1 (packet r.1).2 (.tier id) (some part) (r.2 + 1 == runs.length)) s

/-- The image is discarded; the session expires at the boundary and is rebuilt by its next request (R247). 5 stands for an image that is lost. -/
def loseImage (s : State) (i t : Nat) : State :=
  modSess (endTier (if t = 0 then dropKv s i else s) i) i (fun x => { x with tierTo := some 5, tierDone := true, tierWait := none })

/-- The copy could not be written: it is freed, and the session skips to the next tier (R247). -/
def skipTier (s : State) (i t : Nat) : State :=
  let s := abandonMove s i
  if t = 0 then s else startDown s i t 4

/-- Where a move reads and writes this module's own memory: the pages, and the images it holds. -/
def tierPlaces (s : State) (i t : Nat) (x : Session) : List (Nat × Nat) :=
  let r := x.record
  let image (a n : Nat) : List (Nat × Nat) := if imageHere s a then [(offOf (BitVec.ofNat 64 a), n)] else []
  (if srTier r = 0 ∨ t = 0 then kvRanges s i r else []) ++ (if srTier r = 0 then [] else image (srKvAddr r) (srPacked r)) ++
    (if t = 0 then [] else image x.tierAddr (packedSize x))

/-- A move's copy may be made now: no hold keeps its memory (R180), and the buckets of its partition are open for all it reads and writes (R245, R299). -/
def tierOpen (s : State) (i t : Nat) (x : Session) : Bool :=
  let ps := tierPlaces s i t x
  !ps.any (fun p => decide (p.1 < memBytes s) && (devHeld s p.1 p.2 || devWriteHeld s p.1 p.2)) && bytesOpen s (srPart x.record) (rangeBytes ps)

/-- The image that a move goes on with: new ones are packed from the pages, others are read from their store, or are what the GETs brought. -/
def sourceImage (s : State) (i : Nat) (x : Session) : W16 × List Byte × List Byte × State :=
  let r := x.record
  if srTier r = 0 then
    let (st, bs, s) := readRanges s (kvRanges s i r)
    let (img, s) := newImage s (packedSize x)
    (st, bs, img, s)
  else
    let (st, img, s) := if imageHere s (srKvAddr r) then readImage s (srKvAddr r) (srPacked r)
      else let g := tierGot s x; (g.status, (List.range (srPacked r)).map (fun j => tget g.bytes (srKvAddr r + j) 0), s)
    (if imageSound img then st else worse st stMemUnc, x.plain, img, s)

/-- The copy of a move to tier `t` is made: the source is read, an image's digest checked, the copy written, and the bytes charged. Another node's store takes
PUTs and answers GETs, which the move awaits. A promotion unpacks what the image was made from, without loss. -/
def copyTier (s : State) (i t : Nat) (x : Session) : State :=
  let r := x.record
  if srTier r ≠ 0 ∧ !imageHere s (srKvAddr r) ∧ x.tierId = none then sendTier s i (srPart r) (srKvAddr r) (srPacked r) none
  else if t ≠ 0 ∧ !imageHere s x.tierAddr ∧ x.tierId.isSome then
    if (tierGot s x).status = 0 then modSess (endTier s i) i (fun x => { x with tierDone := true }) else skipTier s i t
  else
    let (st, plain, img, s) := sourceImage s i x
    if st ≠ 0 then loseImage s i t
    else
      let s := chargeBytes s (srPart r) (rangeBytes (tierPlaces s i t x))
      if t ≠ 0 ∧ !imageHere s x.tierAddr then
        sendTier (modSess s i (fun x => { x with plain := plain })) i (srPart r) x.tierAddr img.length (some img)
      else
        let (st, s) := if t = 0 then writeRanges s (kvRanges s i r) plain else writeImage s x.tierAddr img
        if st ≠ 0 then skipTier s i t
        else modSess (endTier s i) i (fun x => { x with tierDone := true, plain := plain })

/-- A finished move commits at a boundary (R245); one down the tiers is abandoned when its session is PINNED meanwhile (R244). -/
def commitTier (s : State) (i : Nat) : State :=
  match getSess s i with
  | none => s
  | some x =>
    let part := srPart x.record
    match x.tierTo with
    | none => s
    | some t =>
      if t ≠ 0 ∧ t ≠ 5 ∧ srPinned x.record then abandonMove s i
      else if !x.tierDone then s
      else if 4 ≤ t then expireSess s i false
      else if t = 0 then
        modSess s i (fun x => { x with
          record := srPut x.record [(35, 2, 0), (192, 64, rootAddr s (x.root.getD 0)), (768, 32, 0), (320, 64, tierEnd s part 0)]
          tierTo := none, tierDone := false, plain := [] })
      else
        let size := packedSize x
        let s := if srTier x.record = 0 then dropKv s i else s
        modSess s i (fun x => { x with
          record := srPut x.record [(35, 2, t), (192, 64, x.tierAddr), (768, 32, size), (320, 64, tierEnd s part t)], tierTo := none, tierDone := false })

/-! ## Deadlines and admission (R235, R255) -/

/-- The time a request's first token is due. -/
def firstDue (s : State) (r : SRec) : Option Nat :=
  let us := (inForce s (srPart r) (HF_SE_DLC_TTFT (srClass r))).toNat
  if us = 0 then none else some (srArrival r + 1000 * us)

/-- The time a session's next entry with tokens is due. -/
def nextDue (s : State) (x : Session) : Option Nat :=
  if x.first then firstDue s x.record
  else
    let us := (inForce s (srPart x.record) (HF_SE_DLC_ITL (srClass x.record))).toNat
    if us = 0 then none else some (srLast x.record + 1000 * us)

/-- The deadline a waiting request is admitted by. -/
def admitDue (s : State) (x : Session) : Option Nat := if x.takenOver then x.dueTtft else firstDue s x.record

/-- Admission order: earliest deadline, those without one last, then arrival. -/
def admitBefore (s : State) (a b : Nat × Session) : Bool :=
  match admitDue s a.2, admitDue s b.2 with
  | some x, some y => decide (x < y) || (x == y && decide (a.2.order < b.2.order))
  | some _, none => true
  | none, some _ => false
  | none, none => decide (a.2.order < b.2.order)

/-- A request gets a slot: the session becomes ACTIVE; one without KV entries is rebuilt (R249). -/
def giveSlot (s : State) (i : Nat) (x : Session) : State :=
  let rebuild := decide (0 < srLen x.record) && (srState x.record == stExpired || x.takenOver)
  let s := if x.started then s else tally s (srClient x.record) 1
  putSess { s with se := { s.se with order := s.se.order + 1 } } i { x with
    record := srPut x.record [(32, 3, stActive), (35, 2, 0), (37, 1, 0), (320, 64, 0)], slot := true, waiting := false, order := s.se.order
    started := true, satOut := 0, rebuilt := x.rebuilt || rebuild, prefillFrom := if rebuild then 0 else x.prefillFrom
    prefillAt := if rebuild then srLen x.record else x.prefillAt }

/-- Free slots go to waiting requests; a session below T0 is promoted first (R233, R235). -/
def takeWaiting (s : State) (part : Nat) : State :=
  let waiting := sortBy (admitBefore s) ((sessIn s part).filter (fun y => y.2.waiting))
  waiting.foldl (fun s y =>
    match getSess s y.1 with
    | none => s
    | some x =>
      let busy := ((sessIn s part).filter (fun z => z.2.slot)).length
      if rf s (PART_SLOTS part) 0 15 ≤ busy then s
      else if srState x.record = stPaused ∧ srTier x.record ≠ 0 then (if x.tierTo.isNone then startPromotion s y.1 else s)
      else if leaving x then s
      else giveSlot s y.1 x) s

/-! ## Boundaries (R231, R233, R234, R238, R240) -/

/-- The events of a session take effect, by precedence (R234); `said` tells that its entry is already in the record. A starved request waits again by itself, unless
SESSION_PAUSE was asked for too, and its session moves down unless it is PINNED (R244, R246, R248). -/
def applyEvents (s : State) (i : Nat) (said : Bool) : State :=
  match getSess s i with
  | none => s
  | some x =>
    let r := x.record
    let part := srPart r
    let request := x.slot || x.waiting || srSusp r
    let has (e : SessEvent) : Bool := x.events.any (· == e)
    let s := putSess s i { x with events := [] }
    if has .cancel then
      let s := if request then tally s (srClient r) 3 else s
      let s := if request && !said then pushStatus s part (plainEntry r (srReqTag r) 0x0205 4 2) else s
      closeSess s i
    else if has .gone then expireSess (modSess s i (fun x => { x with waiting := false })) i true
    else
      let stop := has .pause || has .starve
      let reason := if has .pause then 5 else 6
      let s := if stop && request && !srSusp r then
          let s := if has .starve && !has .pause then tally s (srClient r) 4 else s
          let s := if said then s else pushStatus s part (plainEntry r (srReqTag r) 0 reason 0x42)
          modSess s i (fun x => { x with
            record := srPut x.record ([(37, 1, 1)] ++ if srState x.record = stActive ∨ srState x.record = stOpen
              then [(32, 3, stPaused), (35, 2, 0), (320, 64, tierEnd s part 0)] else [])
            slot := false, satOut := 0 })
        else s
      let asked := x.events.filter (fun e => e == .pause || e == .resume)
      let last := (x.events.filter (fun e => e != .cancel && e != .gone)).getLast?
      match if last = some .starve ∧ asked.getLast? = some .pause then some .pause else last with
      | some .pause => modSess s i (fun x => { x with waiting := false })
      | some .starve =>
        let s := modSess { s with se := { s.se with order := s.se.order + 1 } } i (fun x => { x with waiting := true, order := s.se.order })
        if srPinned r then s else startDown s i 0 4
      | some .resume =>
        let s := abandonMove s i
        if request then modSess s i (fun x => { x with waiting := true })
        else if srState r = stPaused ∧ srTier r ≠ 0 then startPromotion s i
        else s
      | _ => s

/-- A change by SESSION_SET takes effect: class, FALLBACK_OK and PINNED under their mask (R284). -/
def applySet (s : State) (i : Nat) : State :=
  modSess s i (fun x => match x.setPending with
    | none => x
    | some w => { x with
        setPending := none
        record := srPut x.record ((if bit w 16 then [(44, 3, fld w 0 3)] else []) ++ (if bit w 17 then [(38, 1, fld w 8 1)] else []) ++
          (if bit w 18 then [(39, 1, fld w 9 1)] else [])) })

/-- Unloading models that have seen the boundary of every defined partition become FREE, and the measurements of their groups are forgotten (R218, R231). -/
def settleUnloads (s : State) (part : Nat) : State :=
  s.se.models.foldl (fun s m =>
    if mrState m.2.record ≠ 3 then s
    else
      let ps := m.2.unloadParts.filter (fun p => p != part && partDefined s p)
      if ps ≠ [] then putModel s m.1 { m.2 with unloadParts := ps }
      else
        let kept (t : Tab (List Nat)) : Tab (List Nat) := t.filter (fun e => decide (e.1 / 256 ≠ m.1))
        let s := writeModel { s with se := { s.se with models := tdel s.se.models m.1, rateNb := kept s.se.rateNb, rateD := kept s.se.rateD } } m.1
        let s := mirrorSend s (.model { id := m.1, digest := 0, bases := [] })
        match m.2.unloadCmd.bind (getCmd s) with
        | some c => complete s c stOk 0 0
        | none => s) s

/-- Weight repairs commit (R372): the slots withheld for the model run again. A model no longer under repair is no longer one without a source. -/
def commitRepairs (s : State) : State :=
  let rs := s.faults.repairs
  let s := { s with faults := { s.faults with
    repairs := [], missed := s.faults.missed.filter (fun i => ((getModel s i.1).bind (·.repairing)).isSome) } }
  rs.foldl (fun s r =>
    let src := match r.source with | .twin => 0 | .host => 1 | .failed => 2
    let s := logErr s { cls := 0x42, loc := r.loc, detail := r.model + 4096 * src, ex0 := r.units }
    let s := if r.source = .twin then bump s TWIN_REFETCH_COUNT TWIN_TALLY_STATUS 2 r.units else s
    let s := match getModel s r.model with | some m => putModel s r.model { m with repairing := none } | none => s
    s.se.sessions.foldl (fun s y => if r.model ∈ y.2.withheld then modSess s y.1 (fun x => { x with withheld := x.withheld.filter (· ≠ r.model) }) else s) s) s

/-- What was accepted has taken effect: the projected state is the state, a waiting request's being ACTIVE (R274). -/
def reproject (s : State) (i : Nat) : State :=
  modSess s i (fun x => if x.events ≠ [] then x else
    { x with proj := if x.waiting then stActive else srState x.record, projSusp := !x.waiting && srSusp x.record })

/-- A partition holds a request slot once what was accepted has taken effect (R274). -/
def slotsProjected (s : State) (part : Nat) : Bool := (sessIn s part).any (fun y => y.2.slot && y.2.proj == stActive)

/-- A partition's output ring is set (R259). -/
def setRing (s : State) (c : Cmd) : State :=
  let p := c.pkt
  let part := pkPart p
  let ring : Ring := { base := BitVec.ofNat 64 (pk p 16 8), log2 := pk p 24 1, tail := BitVec.ofNat 64 (pk p 32 8), msix := pk p 26 2 }
  complete (wr (wr { s with se := { s.se with rings := tput s.se.rings part ring } } (HF_SE_ORING_WR part) 0) (HF_SE_ORING_RD part) 0) c stOk 0 0

/-- The OUTPUT_RING_CONFIGs that waited for the partition's slots take effect (R274). -/
def settleRings (s : State) (part : Nat) : State :=
  if holdsSlot s part then s
  else (s.host.cmds.filter (fun c => c.begun && pkOp c.pkt == 0x0402 && pkPart c.pkt == part)).foldl setRing s

/-- A session's record is needed at a boundary: something waits for it there (R227). -/
def touched (x : Session) : Bool := decide (x.events ≠ []) || x.setPending.isSome || leaving x || x.waiting

/-- An event comes before a tier move or expiry at the same boundary (R234). -/
def beforeTier (x : Session) : Bool := x.events.any (fun e => e == .cancel || e == .gone || e == .pause || e == .starve)

/-- A step boundary of a partition (R238, R240): configuration, events, unloads, repairs, tier moves, admission. `said` lists the
sessions whose entry is in the record just written. A session whose event comes first keeps its tier move for the next boundary (R234). -/
def boundary (s : State) (part : Nat) (said : List Nat) : State :=
  let s := snapCfg (applyPending s part) part
  let ids : List Nat := (sessIn s part).map (·.1)
  let later : List Nat := ((sessIn s part).filter (fun y => beforeTier y.2)).map (·.1)
  let s := (((sessIn s part).filter (fun y => touched y.2)).map (·.1)).foldl cacheIn s
  let s := ids.foldl (fun s i => applyEvents (applySet s i) i (decide (i ∈ said))) s
  let s := commitRepairs (settleUnloads (settleRings s part) part)
  let s := (ids.filter (fun i => decide (i ∉ later))).foldl (fun s i => retryMove (commitTier s i) i) s
  let s := takeWaiting s part
  let s := ids.foldl reproject s
  { s with se := { s.se with boundaryAt := some (mono s) } }

end Sys2Proof.Machine
end

