-- ==== Sys2Proof/Machine/Plan.lean ====
section
/-! DEFINITION. The step sequencer's plan (R210 to R217): predicted times, crossovers, modes; the work of a step's slots (R236, R250, R254); the
deadline monitor (R256, R257). -/
namespace Sys2Proof.Machine

/-! ## Shares and rates (R215, R301) -/

/-- A partition's shares and measurement in force: those of its last step boundary (R219). -/
def forceRates (s : State) (p : Nat) : InForce := ((tfind s.parts p).bind (·.rates)).getD (liveRates s p)

/-- A partition's near-bank share (R301). -/
def nearShare (s : State) (p : Nat) : Rat := let r := forceRates s p; (r.near : Rat) / r.sum

/-- A partition's share of stack bandwidth: the mean of its regulators' rates over the present stacks. -/
def bandShare (s : State) (p : Nat) : Rat := ((forceRates s p).band : Rat) / (256 * stackCount s)

/-- The mean grant over the stack IDs (R215): that in force now, so that a group is planned with the grant at its stage 1 (R220). -/
def meanGrant (s : State) : Rat := (grantSum s : Rat) / stackCount s

/-- R_NB in weights per nanosecond: the partition's measurement scaled by grant and share, or its share of the module's rate (R215, R219). -/
def rateNb (s : State) (p : Nat) : Rat :=
  let r := forceRates s p
  let module : Rat := moduleRate s r.moduleNb * nearShare s p
  match r.meas with
  | some m => if m.grants = 0 ∨ m.near = 0 then module else m.nb * ((grantSum s : Rat) / m.grants) * (nearShare s p / ((m.near : Rat) / m.sum))
  | none => module

/-- R_D in bytes per nanosecond, two INT4 weights a byte: in the same way (R215, R219). -/
def rateD (s : State) (p : Nat) : Rat :=
  let r := forceRates s p
  let module : Rat := r.moduleD / 2 * bandShare s p
  match r.meas with
  | some m => if m.band = 0 then module else m.d / 2 * ((r.band : Rat) / m.band)
  | none => module

/-- The reference crossover of a partition (R215), 0 where its dense rate is 0. -/
def crossover (s : State) (p : Nat) : Nat := if rateD s p = 0 then 0 else (4 * rateNb s p / (2 * rateD s p)).floor.toNat

/-! ## Groups (R212 to R216) -/

/-- Lane groups of a projection group, wholly filled ones, and output rows. -/
def groupL (g : Line) : Nat := sumNat ((List.range (gRegions g)).map (fun k => cdiv (gRows g k) 512))
def groupFull (g : Line) : Nat := sumNat ((List.range (gRegions g)).map (fun k => gRows g k / 512))
def groupRows (g : Line) : Nat := sumNat ((List.range (gRegions g)).map (gRows g))

/-- Bits per stored weight element in the view. -/
def groupBits (g : Line) : Nat := if gWfmt g 0 = 8 then 8 else 4

/-- The key of a group's measurements. -/
def groupKey (model gi : Nat) : Nat := 256 * model + gi

/-- t_lg in nanoseconds: measured, scaled by the grant, or nominal, twice as long for eight planes (R213, R215, R218). -/
def tLg (s : State) (p model gi : Nat) (g : Line) : Rat :=
  match tget s.se.rateNb (groupKey model gi) [] with
  | [] => 512 * gIPad g * (groupBits g / 4 : Nat) / rateNb s p
  | xs => (sumNat xs : Rat) / xs.length / 65536 / meanGrant s

/-- t_row in nanoseconds. -/
def tRow (s : State) (p model gi : Nat) (g : Line) : Rat :=
  match tget s.se.rateD (groupKey model gi) [] with
  | [] => (gIPad g * groupBits g : Nat) / 8 / rateD s p
  | xs => (sumNat xs : Rat) / xs.length / 65536

/-- T_N of `n` lane groups at batch `b`, and T_D of what is left, in nanoseconds (R213); M at 512 multiply-accumulates a cycle and core of the partition (log entry 51, DEDUCED). -/
def timeN (s : State) (p model gi : Nat) (g : Line) (b n : Nat) : Rat := cdiv b 4 * n * tLg s p model gi g
def timeD (s : State) (p model gi : Nat) (g : Line) (b n : Nat) : Rat :=
  let rows := groupRows g - 512 * n
  let rate : Rat := 512 * partCount s p * rf s PWR_CORE 0 13 / 1000
  max (tRow s p model gi g * rows) ((rows * gIPad g * b : Nat) / rate)

/-- C_g (R214). -/
def groupC (s : State) (p model gi : Nat) (g : Line) (b : Nat) : Nat :=
  (4 * timeD s p model gi g b 0 / (groupL g * tLg s p model gi g)).floor.toNat

/-- The `n` in 1 … `m` with the least larger half, the smaller on a tie. -/
def bestSplit (s : State) (p model gi : Nat) (g : Line) (b m : Nat) : Nat :=
  let cost (n : Nat) : Rat := max (timeN s p model gi g b n) (timeD s p model gi g b n)
  ((List.range m).map (· + 1)).foldl (fun best n => if cost n < cost best then n else best) 1

/-- The mode of a group (R216). A group with no wholly filled lane group cannot split and runs dense in the band (log entry 128, DESIGN CHOICE). -/
def planMode (s : State) (p model gi : Nat) (g : Line) (b : Nat) : Mode :=
  let policy := forceFld s p HF_LSPLIT_CFG 0 2
  let k := forceFld s p HF_LSPLIT_CFG 2 4
  if nearShare s p = 0 then .dense
  else if policy = 1 then .near
  else if policy = 2 then .dense
  else
    let c := groupC s p model gi g b
    let full := groupFull g
    if b ≤ c then .near
    else if k * c < b ∨ full = 0 then .dense
    else
      let n := bestSplit s p model gi g b full
      if n = full ∧ full = groupL g then .near else .split n

/-- The larger half under a mode (R256). -/
def modeTime (s : State) (p model gi : Nat) (g : Line) (b : Nat) (m : Mode) : Rat :=
  match m with
  | .near => timeN s p model gi g b (groupL g)
  | .dense => timeD s p model gi g b 0
  | .split n => max (timeN s p model gi g b n) (timeD s p model gi g b n)

/-- Attention of a session runs near-bank (R217). -/
def attnNear (s : State) (p : Nat) (r : SRec) : Bool := decide (512 * forceFld s p HF_LSPLIT_CFG 6 4 ≤ srLen r)

/-! ## The work of a slot -/

/-- A model's weights await repair (R371). -/
def underRepair (s : State) (m : Nat) : Bool := match getModel s m with | some x => x.repairing.isSome | none => false

/-- A step of a session without draft tokens that probes: the PROBE_STEPS-th since its last probe (R254). -/
def probes (s : State) (x : Session) : Bool :=
  let n := forceFld s (srPart x.record) HF_SE_SPEC_CFG 16 12
  decide (srDraft x.record = 0) && decide (0 < srDraftMax x.record) && decide (n ≠ 0) && decide (n ≤ x.sinceProbe + 1)

/-- The draft length of a step (R237, R250, R254). -/
def stepDraft (s : State) (x : Session) : Nat :=
  let r := x.record
  match draftOf s (srModel r) with
  | none => 0
  | some dm =>
    if underRepair s dm then 0
    else min (if probes s x then 1 else srDraft r) (min (srRemaining r - 1) (1048576 - srLen r - 1))

/-- The work of a slot with `budget` prefill positions left (R236), none when it has prefill to do and none is left. The positions whose KV entries are
missing before the prompt, or before what is left of it, are catch-up positions (R258). -/
def slotWork (s : State) (moved : List Nat) (budget i : Nat) (x : Session) : Option Work :=
  let r := x.record
  let main := srModel r
  let mv := decide (i ∈ moved)
  let fb := (fallbackOf s main).getD main
  let draftFb := mv && draftOf s main == some fb
  let own := mv && !draftFb && !(match getModel s fb with | some m => mrKvCompat m.record | none => false)
  let have_ := if draftFb then srDkv r else srKv r
  let filling := decide (x.prefillFrom < x.prefillAt)
  let n := if filling then min budget (x.prefillAt - x.prefillFrom) else 0
  let upTo := x.prefillFrom + n
  let emits := !filling || upTo == x.prefillAt
  let d := if mv || filling then 0 else stepDraft s x
  if filling ∧ n = 0 then none
  else some {
    session := i, model := if mv then fb else main, moved := mv, draftFb := draftFb, d := d, probe := !mv && !filling && probes s x && decide (d = 1), prefill := n
    upTo := upTo, emits := emits, catchUp := if own then 0 else if filling then x.prefillFrom - have_ else srLen r - 1 - have_
    draftCatch := if d = 0 then 0 else srLen r - 1 - srDkv r }

/-- The works of slots in admission order under the step's prefill budget. -/
def works (s : State) (part : Nat) (moved : List Nat) (xs : List (Nat × Session)) : List Work :=
  (xs.foldl (fun (acc : List Work × Nat) y =>
    match slotWork s moved acc.2 y.1 y.2 with
    | some w => (acc.1 ++ [w], acc.2 - w.prefill)
    | none => acc) ([], forceFld s part HF_SE_CFG 0 16)).1

/-- A slot's vectors in the batches of a step: (kind, model, vectors), kinds 0 prefill, 1 catch-up, 2 draft, 3 decode (R236, R250, R258). -/
def workVectors (s : State) (w : Work) : List (Nat × Nat × Nat) :=
  let dm := (draftOf s w.model).getD w.model
  [(0, w.model, w.prefill), (1, w.model, w.catchUp), (1, dm, w.draftCatch), (2, dm, if w.d = 0 then 0 else w.d + 1),
    (3, w.model, if w.emits && w.prefill == 0 then w.d + 1 else 0)]

/-- The batches of a step (R211, R236, R250): (kind, model, vectors), kinds 0 prefill, 1 catch-up, 2 draft, 3 decode. -/
def batches (s : State) (ws : List Work) : List (Nat × Nat × Nat) :=
  let all := (ws.map (workVectors s)).flatten
  let keys := (all.filter (fun x => decide (x.2.2 ≠ 0))).map (fun x => (x.1, x.2.1)) |>.eraseDups
  sortBy (fun a b => decide (a.1 < b.1) || (a.1 == b.1 && decide (a.2.1 < b.2.1)))
    (keys.map (fun k => (k.1, k.2, sumNat ((all.filter (fun x => x.1 == k.1 && x.2.1 == k.2)).map (·.2.2)))))

/-- A model's groups for `b` vectors: those of its layers, or with kind 4 those that follow the last (R229). -/
def groupsFor (s : State) (kind model b : Nat) : List PlanItem :=
  match getModel s model with
  | some m => ((m.groups.zip (List.range m.groups.length)).filter (fun g => (gLayer g.1 == 0xFF) == (kind == 4))).map (fun g =>
      { kind := kind, model := model, batch := b, index := g.2, entry := g.1 })
  | none => []

/-- The groups a step plans, in order. Each batch runs its model's layers; the entries that run once per step come after the model's last batch, for all the
vectors its batches hold (R229; log entry 127, DEDUCED). -/
def stepGroups (s : State) (bs : List (Nat × Nat × Nat)) : List PlanItem :=
  ((bs.zip (List.range bs.length)).map (fun b =>
    let m := b.1.2.1
    let more := (bs.drop (b.2 + 1)).any (fun x => x.2.1 == m)
    groupsFor s b.1.1 m b.1.2.2 ++ (if more then [] else groupsFor s 4 m (sumNat ((bs.filter (fun x => x.2.1 == m)).map (·.2.2)))))).flatten

/-- T_plan in nanoseconds (R256). -/
def planNs (s : State) (part : Nat) (ws : List Work) : Nat :=
  ((stepGroups s (batches s ws)).foldl (fun (t : Rat) g => t + modeTime s part g.model g.index g.entry g.batch (planMode s part g.model g.index g.entry g.batch)) 0).floor.toNat

/-! ## The deadline monitor (R256, R257) -/

/-- H: the longest remaining hold of a retrain in progress. -/
def holdLeft (s : State) : Nat :=
  (s.mem.held.map (fun h =>
    let whole := if h.2 = 1 then 150000 else if h.2 = 2 then 5000000 else 0
    tget s.mem.heldAt h.1 0 + whole - mono s)).foldl max 0

/-- F: the mean of a partition's last differences. -/
def meanDiff (s : State) (part : Nat) : Int :=
  match tget s.se.durations part [] with
  | [] => 0
  | xs => xs.foldl (· + ·) 0 / xs.length

/-- D. -/
def predict (s : State) (part : Nat) (ws : List Work) : Nat := (planNs s part ws + holdLeft s + meanDiff s part).toNat

/-- A slot is at risk: a due time passes, or its model is under repair (R256, R371). -/
def atRisk (s : State) (part d : Nat) (x : Session) : Bool :=
  underRepair s (srModel x.record) || decide (x.withheld ≠ []) ||
    (match nextDue s x with | some t => decide (t < now s + d + 1000 * forceFld s part HF_SE_GUARD 0 16) | none => false)

/-- A slot that may move to a fallback whose weights are sound. -/
def mayMove (s : State) (x : Session) : Bool :=
  srFbOk x.record && (match fallbackOf s (srModel x.record) with | some f => decide (modelState s f = 2) && !underRepair s f | none => false)

/-- R257's loop: whole models' eligible slots move until no slot at risk is left to move. -/
def moveLoop (s : State) (part : Nat) (xs : List (Nat × Session)) (moved : List Nat) (fuel : Nat) : List Nat :=
  match fuel with
  | 0 => moved
  | n + 1 =>
    let d := predict s part (works s part moved xs)
    let risk := xs.filter (fun y => atRisk s part d y.2 && mayMove s y.2 && decide (y.1 ∉ moved))
    if risk = [] then moved
    else
      let ms := risk.map (fun y => srModel y.2.record)
      moveLoop s part xs (moved ++ (xs.filter (fun y => decide (srModel y.2.record ∈ ms) && mayMove s y.2 && decide (y.1 ∉ moved))).map (·.1)) n

end Sys2Proof.Machine
end

