-- ==== Sys2Proof/Machine/Sequencer.lean ====
section
/-! DEFINITION. What the step sequencer runs for a group and for a layer's attention (R21, R210, R212, R216, R217, R220): the near-bank programs, their
rounds, and the dense half's reads and results. Where the spec leaves the sequencer's layout open (which scratchpads, which places in the broadcast buffer and in program
memory, which semaphore, how entries are cut to fit), log entry 128, DESIGN CHOICE, says what the model does. -/
namespace Sys2Proof.Machine

/-! ## Lane groups (R216) -/

/-- The lane groups the near-bank half takes of each region: under NEAR all of them, under SPLIT `n` wholly filled ones, region by region from the lowest. -/
def nearGroups (g : Line) (m : Mode) : List Nat :=
  match m with
  | .near => (List.range (gRegions g)).map (fun k => cdiv (gRows g k) 512)
  | .dense => (List.range (gRegions g)).map (fun _ => 0)
  | .split n => ((List.range (gRegions g)).foldl (fun (acc : List Nat × Nat) k => let c := min acc.2 (gRows g k / 512); (acc.1 ++ [c], acc.2 - c)) ([], n)).1

/-! ## Entries (R190) -/

/-- Bytes of a partition's step scratchpad in each of its step cores (R298). -/
def stepBytes (s : State) (part : Nat) : Nat := 1024 * partScratchKib s part

/-- A place of `n` bytes in the step scratchpads of a partition, the top bytes of its step cores' scratchpads (R298): any one. -/
def stepPlace (s : State) (part n : Nat) : Nat × State :=
  let (v, s) := drawBelow s (partStepCores s part)
  let (k, s) := drawBelow s ((stepBytes s part - n) / 64 + 1)
  (0x20000000000 + 131072 * (partBase s part + v) + (131072 - stepBytes s part) + 64 * k, s)

/-- `n` bytes in pieces that a step scratchpad holds: (first byte, bytes). None where the partition has no step scratchpad. -/
def stepPieces (s : State) (part n : Nat) : List (Nat × Nat) :=
  let most := stepBytes s part
  if most = 0 then [] else (List.range (cdiv n most)).map (fun i => (most * i, min most (n - most * i)))

/-- A place of `n` bytes per stack: a scratchpad of its own for each where there are enough step cores. -/
def stackPlaces (s : State) (part n : Nat) : Nat × Nat × State :=
  let (a, s) := stepPlace s part n
  let spare := partStepCores s part - stackCount s
  if partStepCores s part < stackCount s then (a, 0, s)
  else
    let (v, s) := drawBelow s (spare + 1)
    (0x20000000000 + 131072 * (partBase s part + v) + (a - 0x20000000000) % 131072, 131072, s)

/-- LOAD, DRAIN and END descriptors. -/
def loadLine (src bytes act : Nat) : Line := pack 512 [(0, 8, 0x10), (256, 21, act), (320, 64, src), (384, 22, bytes)]
def drainLine (res dst stride bytes : Nat) : Line := pack 512 [(0, 8, 0x11), (128, 48, stride), (288, 21, res), (320, 64, dst), (384, 22, bytes)]

/-- The LOADs of an activation area of `n` bytes from the step scratchpads. -/
def loadsOf (s : State) (part n : Nat) : List Line × State :=
  (stepPieces s part n).foldl (fun (acc : List Line × State) p =>
    let (a, s) := stepPlace acc.2 part p.2
    (acc.1 ++ [loadLine a p.2 p.1], s)) ([], s)

/-- The DRAINs of `n` bytes from `res` into step scratchpads, on every stack into one of its own. -/
def drainsOf (s : State) (part res n : Nat) : List Line × State :=
  (stepPieces s part n).foldl (fun (acc : List Line × State) p =>
    let (a, stride, s) := stackPlaces acc.2 part p.2
    (acc.1 ++ [drainLine (res + p.1) a stride p.2], s)) ([], s)
def endLine (sem : Nat) : Line := pack 512 [(416, 16, sem), (432, 16, 1)]

/-- A GEMV descriptor for lane groups of a region of a group; INT16 activations. -/
def gemvLine (g : Line) (k nvec p lg n act res : Nat) : Line :=
  pack 512 [(0, 8, 1), (10, 1, b2n (gScaled g k)), (16, 4, gWfmt g k), (20, 4, 1), (24, 2, nvec - 1), (64, 10, p), (80, 15, gFirst g k), (96, 15, gRowsets g k),
    (128, 32, gIPad g), (160, 16, lg), (176, 16, n), (256, 21, act), (288, 21, res)]

/-- A QK or PV descriptor over pages of the K or V region; PV folds (R193). -/
def attnLine (r : Region) (pv : Bool) (nvec p pages valid act plist res : Nat) : Line :=
  pack 512 [(0, 8, if pv then 3 else 2), (9, 1, b2n pv), (16, 4, 8), (20, 4, 1), (24, 2, nvec - 1), (64, 10, p), (80, 15, r.first), (96, 15, r.count), (128, 16, pages),
    (144, 16, valid), (160, 21, plist), (256, 21, act), (288, 21, res)]

/-- The end of an area, rounded up to 64 bytes. -/
def areaEnd (n : Nat) : Nat := 64 * cdiv n 64

/-- Compute entries that run together, with what they need: their vectors are loaded, their results drained, a page list written beforehand. -/
structure BlastWork where
  loads : List Line
  entries : List Line
  drains : List Line
  list : List Byte
deriving DecidableEq, Repr

/-- Lists of at most `n`, in order; `fuel` bounds their number. -/
def chunks {α : Type} (n fuel : Nat) (xs : List α) : List (List α) :=
  match fuel, xs with
  | _, [] => []
  | 0, _ => []
  | k + 1, xs => xs.take n :: chunks n k (xs.drop n)

/-- Bytes of a stack's broadcast buffer that programs of its memory's lower part may use (R188). -/
def bufBytes (s : State) : Nat := if aptOn s then 1835008 else 2097152

/-- The most entries of a program besides its END (R188). -/
def bodyLimit (s : State) : Nat := lastEntry s 0

/-- The lane groups that one pass may take together for `nvec` vectors: as many as its results, 2,176 bytes for each vector and lane group with their bitmaps,
leave room for in the broadcast buffer, and its DRAINs in program memory. -/
def passMost (s : State) (part nvec regions res loads : Nat) : Nat :=
  let room := (bufBytes s - res) / (2176 * nvec)
  let lines := if stepBytes s part = 0 then room else (bodyLimit s - loads - 2 * regions) * stepBytes s part / (2048 * nvec)
  max 1 (min room lines)

/-- Lane groups cut into pieces of at most `most`: (region, first, count) of each region in it. -/
def passPieces (most : Nat) (near : List Nat) : List (List (Nat × Nat × Nat)) :=
  let all := (((List.range near.length).zip near).map (fun k => (List.range k.2).map (fun i => (k.1, i)))).flatten
  (chunks most (all.length + 1) all).map (fun c => (List.range near.length).filterMap (fun k =>
    match c.filter (fun x => x.1 == k) with
    | [] => none
    | x :: xs => some (k, x.2, xs.length + 1)))

/-- A piece of a pass: a GEMV for each region, the results one after another from `res`, then their DRAINs. -/
def pieceWork (s : State) (part : Nat) (g : Line) (nvec res : Nat) (ps : List (Nat × Nat × Nat)) : BlastWork × State :=
  let (w, _, s) := ps.foldl (fun (acc : BlastWork × Nat × State) p =>
    let (x, s) := drawBelow acc.2.2 1024
    let d := gemvLine g p.1 nvec x p.2.1 p.2.2 0 acc.2.1
    let (ds, s) := drainsOf s part (bRes d) (4 * nvec * bEntries d)
    ({ acc.1 with entries := acc.1.entries ++ [d], drains := acc.1.drains ++ ds }, areaEnd (bRes d + bResBytes d), s))
    ({ loads := [], entries := [], drains := [], list := [] }, res, s)
  (w, s)

/-- One pass over lane groups of a group for `nvec` vectors: the vectors are loaded once, and each region's GEMV runs over all its lane groups, in pieces where
they do not fit together (R210, R213). -/
def passWorks (s : State) (part : Nat) (g : Line) (near : List Nat) (nvec : Nat) : List BlastWork × State :=
  let act := bActBytes (gemvLine g 0 nvec 0 0 1 0 0)
  let (loads, s) := loadsOf s part act
  let most := passMost s part nvec near.length (areaEnd act) loads.length
  (passPieces most near).foldl (fun (acc : List BlastWork × State) ps =>
    let (w, s) := pieceWork acc.2 part g nvec (areaEnd act) ps
    (acc.1 ++ [{ w with loads := if acc.1 = [] then loads else [] }], s)) ([], s)

/-- The works of a group's near-bank half: a pass for every four vectors (R183, R213). -/
def groupWorks (s : State) (part : Nat) (x : PlanItem) (m : Mode) : List BlastWork × State :=
  let near := nearGroups x.entry m
  (List.range (cdiv x.batch 4)).foldl (fun (acc : List BlastWork × State) j =>
    let (ws, s) := passWorks acc.2 part x.entry near (min 4 (x.batch - 4 * j))
    (acc.1 ++ ws, s)) ([], s)

/-! ## Programs -/

/-- Bytes of the broadcast buffer a work uses besides its page list. -/
def workBytes (w : BlastWork) : Nat := (w.entries.map (fun d => bRes d + bResBytes d)).foldl max 0

/-- Entries of a work in its program. -/
def workLines (w : BlastWork) : List Line := w.loads ++ w.entries ++ w.drains

/-- Works are cut into programs of at most `limit` entries besides END; a program that begins within a pass loads its vectors again. -/
def cutWorks (limit : Nat) (ws : List BlastWork) : List (List BlastWork) :=
  (ws.foldl (fun (acc : List (List BlastWork) × List Line) w =>
    let loads := if w.loads = [] then acc.2 else w.loads
    match acc.1.reverse with
    | [] => ([[w]], loads)
    | last :: done =>
      if ((last ++ [w]).map workLines).flatten.length ≤ limit then (done.reverse ++ [last ++ [w]], loads)
      else (acc.1 ++ [[{ w with loads := loads }]], loads)) ([], [])).1

/-- A program of works on a stack: they use the same bytes one after another, and behind these lies a page list of up to 32 pages for each. -/
def nearProg (stack : Nat) (ws : List BlastWork) : NearProg :=
  let base := areaEnd ((ws.map workBytes).foldl max 0)
  let put (j : Nat) (w : BlastWork) : BlastWork := if w.list = [] then w else { w with entries := w.entries.map (fun d => setFld d 160 21 (base + 128 * j)) }
  let js := ws.zip (List.range ws.length)
  { stack := stack, lists := (js.filter (fun x => decide (x.1.list ≠ []))).map (fun x => (base + 128 * x.2, x.1.list))
    body := (js.map (fun x => workLines (put x.2 x.1))).flatten, bytes := base + 128 * ws.length }

/-- The rounds of a group: the same program on every stack (R194, R210). -/
def groupRounds (s : State) (ws : List BlastWork) : List (List NearProg) :=
  (cutWorks (bodyLimit s) ws).map (fun ws => (List.range (stackCount s)).map (fun k => nearProg k ws))

/-- The lowest free run of `n` program entries of a stack. -/
def entryRun (s : State) (stack n : Nat) : Option Nat :=
  let taken := (progsOn s stack).map (fun p => (p.start, (endEntry s stack p.start).getD (lastEntry s p.start)))
  (List.range (lastEntry s 0 + 1)).find? (fun e => decide (e + n ≤ lastEntry s 0 + 1) && taken.all (fun t => decide (e + n ≤ t.1) || decide (t.2 < e)))

/-- The areas of a stack's broadcast buffer that its programs use. -/
def areasUsed (s : State) (stack : Nat) : List (Nat × Nat) :=
  ((progsOn s stack).map (fun p =>
    ((List.range ((endEntry s stack p.start).getD p.start + 1 - p.start)).map (fun i =>
      let d := progEntry s stack (p.start + i)
      match bOp d with
      | 1 => [(bAct d, bActBytes d), (bRes d, bResBytes d)]
      | 2 | 3 => [(bAct d, bActBytes d), (bRes d, bResBytes d), (bPlist d, 4 * bPages d)]
      | 0x10 => [(bAct d, bBytes d)]
      | 4 | 0x11 => [(bRes d, bBytes d)]
      | _ => [])).flatten)).flatten

/-- The lowest free place of `n` bytes in a stack's broadcast buffer. -/
def bufPlace (s : State) (stack n : Nat) : Option Nat :=
  let size := bufBytes s
  let used := areasUsed s stack
  let fits (b : Nat) : Bool := decide (b + n ≤ size) && used.all (fun t => decide (b + n ≤ t.1) || decide (t.1 + t.2 ≤ b))
  ((0 :: used.map (fun t => areaEnd (t.1 + t.2))).filter fits).foldl (fun m b => some (match m with | none => b | some a => min a b)) none

/-- A descriptor's offsets from where its program's bytes lie. -/
def rebase (b : Nat) (d : Line) : Line :=
  match bOp d with
  | 1 => setFld (setFld d 256 21 (bAct d + b)) 288 21 (bRes d + b)
  | 2 | 3 => setFld (setFld (setFld d 256 21 (bAct d + b)) 288 21 (bRes d + b)) 160 21 (bPlist d + b)
  | 0x10 => setFld d 256 21 (bAct d + b)
  | _ => setFld d 288 21 (bRes d + b)

/-- A program starts, when its stack has a program place, entries and buffer for it (R189, R301); its END signals the layer's semaphore. -/
def startNear (s : State) (part sem : Nat) (p : NearProg) : Option State :=
  if startRefused s p.stack part then none
  else match entryRun s p.stack (p.body.length + 1), bufPlace s p.stack p.bytes with
    | some e, some b =>
      let s := p.lists.foldl (fun s l => bufWrite s p.stack (b + l.1) l.2) s
      let s := putProgram s p.stack e (p.body.map (rebase b) ++ [endLine sem])
      some (startProgram s p.stack e part 0 (.sequencer part)).2
    | _, _ => none

def putRun (s : State) (part : Nat) (r : StepRun) : State := { s with se := { s.se with steps := tput s.se.steps part r } }

/-- The programs of the present round that find a place start; the others wait. -/
def startRound (s : State) (part : Nat) (run : StepRun) : State :=
  match run.rounds with
  | [] => putRun s part run
  | round :: rest =>
    let (left, n, s) := round.foldl (fun (acc : List NearProg × Nat × State) p =>
      match startNear acc.2.2 part run.sem p with
      | some s => (acc.1, acc.2.1 + 1, s)
      | none => (acc.1 ++ [p], acc.2.1, acc.2.2)) ([], 0, s)
    putRun s part { run with rounds := left :: rest, signals := run.signals + n }

/-- The near-bank half goes on: what waits of the present round starts, or, once all of it has ended, the next one. -/
def advanceNear (s : State) (part : Nat) (run : StepRun) : State :=
  match run.rounds with
  | [] :: rest => if seqProgs s part = [] then startRound s part { run with rounds := rest, drained := true } else s
  | _ => startRound s part run

/-- The vectors the programs load are what the step's kernels left in the scratchpads: free values (log entry 128, DESIGN CHOICE). -/
def fillSources (s : State) (rounds : List (List NearProg)) : State :=
  let loads := ((rounds.flatten.map (·.body)).flatten.filter (fun d => bOp d == 0x10)).eraseDups
  loads.foldl (fun s d => let (x, s) := draw s (8 * bBytes d); (localWrite s (offOf (bAddr d 0)) (bytesOf x) { port := 0 }).2) s

/-- Bytes of results, free values (log entry 128, DESIGN CHOICE), go to the step scratchpads (R21, R212). -/
def writeResults (s : State) (part n : Nat) : State :=
  (stepPieces s part n).foldl (fun s p =>
    let (a, s) := stepPlace s part p.2
    let (x, s) := draw s (8 * p.2)
    (localWrite s (offOf (BitVec.ofNat 64 a)) (bytesOf x) { port := 0 }).2) s

/-! ## The dense half (R212, R217, R220) -/

/-- Reads that the dense half is to make join those it has; a half that has any signals at its end. -/
def addDense (run : StepRun) (ds : List DenseRead) : StepRun :=
  { run with dense := run.dense ++ ds, denseSig := if ds = [] then run.denseSig else 1 }

/-- The two halves begin under a semaphore of the layer: rounds of programs, and reads of the dense half. -/
def beginHalves (s : State) (part : Nat) (run : StepRun) (rounds : List (List NearProg)) (ds : List DenseRead) : State :=
  let (sem, s) := drawBelow s 65536
  let s := fillSources s rounds
  startRound s part (addDense { run with sem := sem, signals := 0, rounds := rounds, dense := [], denseSig := 0 } ds)

/-- The reads of rows `lo` to `hi - 1` of region `k` of a group, whole lane groups from the view, with their scales (R57, R212): each lane group leaves
four bytes a row and vector. -/
def rowReads (s : State) (g : Line) (k lo hi nvec : Nat) : List DenseRead :=
  match regionAt s (gFirst g k) with
  | none => []
  | some r =>
    let base := r.first * rowSetBytes s
    let item (a per lo n out : Nat) : DenseRead := { addr := a + per * lo, n := per * n, out := out, session := none }
    ((List.range (cdiv (hi - lo) 512)).map (fun i =>
      let first := lo + 512 * i
      let n := min 512 (hi - first)
      (if gScaled g k then [item (base + r.scaleBase) (r.iPad / 32) first n 0] else []) ++ [item base r.pitch first n (4 * n * nvec)])).flatten

/-- The dense half of a group: the rows that no near-bank lane group covers. -/
def denseRows (s : State) (x : PlanItem) (near : List Nat) : List DenseRead :=
  ((List.range (gRegions x.entry)).map (fun k => rowReads s x.entry k (512 * near.getD k 0) (gRows x.entry k) x.batch)).flatten

/-- The rows a near-bank half would have computed, when it is rescued (R220). -/
def rescueRows (s : State) (x : PlanItem) (near : List Nat) : List DenseRead :=
  ((List.range (gRegions x.entry)).map (fun k => rowReads s x.entry k 0 (min (gRows x.entry k) (512 * near.getD k 0)) x.batch)).flatten

/-- Cluster hoists make the reads that no hold keeps and the partition's buckets let go; the partition pays for each, and its results follow (R180, R221, R299).
What is left waits. -/
def denseTurn (s : State) (part : Nat) (run : StepRun) : StepRun × State :=
  run.dense.foldl (fun (acc : StepRun × State) x =>
    let s := acc.2
    if devHeld s x.addr x.n || !rangeOpen s part x.addr x.n then ({ acc.1 with dense := acc.1.dense ++ [x] }, s)
    else
      let (st, _, s) := devRead (chargeRange s part x.addr x.n) x.addr x.n { port := 1 }
      (if st = stPoisoned ∨ st = stMemUnc then markBad acc.1 x.session else acc.1, writeResults s part x.out)) ({ run with dense := [] }, s)

/-- The dense half goes on; at its end it signals the layer's semaphore, by a thread of the partition's first step core (R21; log entry 128, DESIGN CHOICE). -/
def advanceDense (s : State) (part : Nat) : State :=
  match tfind s.se.steps part with
  | none => s
  | some run =>
    if run.dense = [] then s
    else
      let (run, s) := denseTurn s part run
      let s := putRun s part run
      if run.dense = [] then semSignal s run.sem 1 { source := 1, agent := partBase s part, port := 0 } else s

/-! ## Attention (R217) -/

/-- The queries of a session in a group's batch: its draft or main pages, and the last position each of its vectors attends to. -/
def queriesOf (s : State) (run : StepRun) (x : PlanItem) (i : Nat) : Option (Bool × List Nat) :=
  match run.works.find? (fun w => w.session == i), getSess s i with
  | some w, some y =>
    let len := srLen y.record
    let upto (n lo : Nat) : List Nat := (List.range n).map (lo + ·)
    let have_ := if w.draftFb then srDkv y.record else srKv y.record
    if w.model = x.model then
      match x.kind with
      | 0 => some (w.draftFb, upto w.prefill (w.upTo - w.prefill))
      | 1 => some (w.draftFb, upto w.catchUp have_)
      | 3 => if w.emits && w.prefill == 0 then some (w.draftFb, upto (w.d + 1) (len - 1)) else none
      | _ => none
    else if draftOf s w.model = some x.model then
      match x.kind with
      | 1 => some (true, upto w.draftCatch (srDkv y.record))
      | 2 => if w.d = 0 then none else some (true, upto (w.d + 1) (len - 1))
      | _ => none
    else none
  | _, _ => none

/-- The pages of a session, layer and KV head up to a position: page numbers with the valid positions of each. -/
def pagesUpTo (s : State) (i : Nat) (draft : Bool) (slot pos : Nat) : List (Nat × Nat) :=
  (List.range (pos / 512 + 1)).filterMap (fun k =>
    match s.se.spans.find? (fun p => p.session == i && p.draft == draft && p.idx == k) with
    | some p => (p.slots[slot]?).map (fun page => (page, if k = pos / 512 then pos % 512 + 1 else 512))
    | none => none)

/-- The pages of a session, layer and KV head that a position attends to and that lie in a stack: page numbers with the valid positions of each. -/
def pagesIn (s : State) (stack i : Nat) (draft : Bool) (slot pos : Nat) : List (Nat × Nat) :=
  (pagesUpTo s i draft slot pos).filter (fun p => (mapUnit s true p.1).2 / 2048 == stack)

/-- The entry for up to four query heads over up to 32 pages of a stack. -/
def attnWork (s : State) (part : Nat) (r : Region) (pv : Bool) (nvec : Nat) (pages : List (Nat × Nat)) : BlastWork × State :=
  let n := pages.length
  let valid := match pages.getLast? with | some p => p.2 | none => 512
  let act := bActBytes (attnLine r pv nvec 0 n valid 0 0 0)
  let res := areaEnd act
  let (x, s) := drawBelow s 1024
  let d := attnLine r pv nvec x n valid 0 0 res
  let (loads, s) := loadsOf s part act
  let (ds, s) := (stepPieces s part (4 * nvec * bEntries d)).foldl (fun (acc : List Line × State) p =>
    let (b, s) := stepPlace acc.2 part p.2
    (acc.1 ++ [drainLine (res + p.1) b 0 p.2], s)) ([], s)
  ({ loads := loads, entries := [d], drains := ds, list := (pages.map (fun p => leBytes 4 p.1)).flatten }, s)

/-- The entries of a stack for a layer's attention, QK or PV. -/
def attnWorks (s : State) (part : Nat) (run : StepRun) (x : PlanItem) (pv : Bool) (stack : Nat) : List BlastWork × State :=
  match s.se.pool.bind (fun p => regionAt s (if pv then pVRow p else pKRow p)), getModel s x.model with
  | some r, some m =>
    let heads := mrKvHeads m.record
    let per := mrQHeads m.record / max heads 1
    run.attn.foldl (fun (acc : List BlastWork × State) i =>
      match queriesOf s run x i with
      | none => acc
      | some (draft, qs) =>
        qs.foldl (fun acc pos =>
          (List.range heads).foldl (fun acc h =>
            let pages := pagesIn s stack i draft (gLayer x.entry * heads + h) pos
            (chunks 32 (pages.length + 1) pages).foldl (fun acc ps =>
              (List.range (cdiv per 4)).foldl (fun (acc : List BlastWork × State) q =>
                let (w, s) := attnWork acc.2 part r pv (min 4 (per - 4 * q)) ps
                (acc.1 ++ [w], s)) acc) acc) acc) acc) ([], s)
  | _, _ => ([], s)

/-- Column reads of a compute entry. -/
def workReads (w : BlastWork) : Nat := sumNat (w.entries.map (fun d => sumNat ((List.range (bPages d)).map (unitReads d))))

/-- Entries are spread over a stack's program slots, each to the one with the fewest column reads so far (R217). -/
def spread (slots : Nat) (ws : List BlastWork) : List (List BlastWork) :=
  ((ws.foldl (fun (acc : List (Nat × List BlastWork)) w =>
    let least := (acc.map (·.1)).foldl min ((acc.head?.map (·.1)).getD 0)
    match acc.findIdx? (fun a => a.1 == least) with
    | some j => acc.set j (least + workReads w, (acc.getD j (0, [])).2 ++ [w])
    | none => acc) (List.replicate slots (0, []))).map (·.2)).filter (fun l => decide (l ≠ []))

/-- The rounds of one phase of attention: each stack's slots run their programs, cut to fit. -/
def phaseRounds (s : State) (part : Nat) (run : StepRun) (x : PlanItem) (pv : Bool) : List (List NearProg) × State :=
  let (ps, s) := (List.range (stackCount s)).foldl (fun (acc : List (List NearProg) × State) k =>
    let (ws, s) := attnWorks acc.2 part run x pv k
    let progs := (spread (rf s (PART_NB part) 8 3) ws).map (fun l => (cutWorks (bodyLimit s) l).map (nearProg k))
    (acc.1 ++ progs, s)) ([], s)
  let depth := (ps.map (·.length)).foldl max 0
  ((List.range depth).map (fun j => ps.filterMap (fun p => p[j]?)), s)

/-- The rounds of a layer's attention: QK, then, after the cores' softmax, PV. -/
def attnRounds (s : State) (part : Nat) (run : StepRun) (x : PlanItem) : List (List NearProg) × State :=
  let (a, s) := phaseRounds s part run x false
  let (b, s) := phaseRounds s part run x true
  (a ++ b, s)

/-- The reads of a layer's attention on the dense cores (R217): for every session whose attention does not run near-bank, the K and V views of its pages and
their scales; each KV head leaves 512 bytes a query. -/
def attnReads (s : State) (run : StepRun) (x : PlanItem) : List DenseRead :=
  match getModel s x.model with
  | none => []
  | some m =>
    let heads := max (mrKvHeads m.record) 1
    let per := mrQHeads m.record / heads
    ((run.works.filter (fun w => decide (w.session ∉ run.attn))).map (fun w =>
      match queriesOf s run x w.session with
      | none => []
      | some (_, []) => []
      | some (draft, q :: qs) =>
        ((List.range heads).map (fun h =>
          let ps := pagesUpTo s w.session draft (gLayer x.entry * heads + h) (qs.foldl max q)
          let reads := (ps.map (fun p => (kvPlaces s p.1 0 p.2).map (fun r : Nat × Nat =>
            ({ addr := r.1, n := r.2, out := 0, session := some w.session } : DenseRead)))).flatten
          match reads.reverse with
          | [] => []
          | last :: rest => rest.reverse ++ [{ last with out := 512 * per * (qs.length + 1) }])).flatten)).flatten

end Sys2Proof.Machine
end

