-- ==== Sys2Proof/Machine/Mirror.lean ====
section
/-! DEFINITION. Mirror before reveal (R375): what waits until the twin has acknowledged the items it depends on; the ends of pairing (R376) and of
detaching (R377). -/
namespace Sys2Proof.Machine

/-! ## Output records (R259, R260) -/

/-- WR of a partition's ring, the records that wait to be revealed counted. -/
def ringWr (s : State) (part : Nat) : Nat :=
  s.twin.gates.foldl (fun w g => match g.act with
    | .record p _ wr0 pad ls => if p = part then (wr0 + pad + ls.length) % 2 ^ 32 else w
    | _ => w) (rd s (HF_SE_ORING_WR part)).toNat

/-- A record is written behind `pad` units of filler, then the tail word, then the vector is sent. -/
def revealRecord (s : State) (part : Nat) (r : Ring) (wr0 pad : Nat) (ls : List Line) : State :=
  let size := 2 ^ r.log2 / 64
  let at_ (u : Nat) : Nat := r.base.toNat + 64 * (u % size)
  let s := if pad = 0 then s else (hostWrite s (at_ wr0) (bytesOf (pack 512 [(0, 24, pad), (24, 1, 1)] : Line))).2
  let s := (hostWrite s (at_ (wr0 + pad)) ((ls.map bytesOf).flatten)).2
  let w := (wr0 + pad + ls.length) % 2 ^ 32
  let s := wr s (HF_SE_ORING_WR part) (BitVec.ofNat 32 w)
  let s := (hostWrite s r.tail.toNat (leBytes 8 w)).2
  { s with host := { s.host with msix := r.msix :: s.host.msix } }

/-! ## The twin's states (R374) -/

def setTwin (s : State) (f : Twin → Twin) : State := { s with twin := f s.twin }

/-- A TWIN entry (R359), with the tag of the command that causes it (R276). -/
def logTwin (s : State) (event ex0 : Nat) (tag : Nat := 0) : State := logErr s { cls := 0x41, tag := tag, loc := twinNode s, detail := event, ex0 := ex0 }

/-- SOLO (R374): no partner, no mirror. What waits for acknowledgements goes on waiting. -/
def goSolo (s : State) : State :=
  let s := setTwin s (fun t => { Twin.reset with gate := t.gate + 1, gates := t.gates.filter (fun g => decide (g.act ≠ .copyDone)) })
  notePaths (wf (wf s TWIN_STATE 0 2 0) TWIN_STATE 16 16 0xFFFF)

/-- TWIN_PAIR's command completes, if it waits. -/
def endPair (s : State) (cmd : Option Nat) (st : W16) : State :=
  match cmd.bind (getCmd s) with
  | some c => complete s c st 0 0
  | none => s

/-- The tag of the command that pairing or detaching waits for, 0 for none. -/
def twinTag (s : State) : Nat := (s.twin.cmd.bind (getCmd s)).elim 0 cmdTag

/-- A pairing fails (R374): SOLO, and TWIN_PAIR completes with a status. -/
def failPairing (s : State) (st : W16) : State := let cmd := s.twin.cmd; endPair (goSolo s) cmd st

/-- PAIRED (R376): reveal is gated from the next commit, and TWIN_PAIR completes. -/
def becomePaired (s : State) : State :=
  if twinState s = 1 ∧ s.twin.sentDone ∧ s.twin.gotDone then
    let cmd := s.twin.cmd
    let s := logTwin (wf s TWIN_STATE 0 2 2) 1 0 (twinTag s)
    endPair (setTwin s (fun t => { t with cmd := none, lastHb := mono s, gate := t.gate + 1 })) cmd stOk
  else s

/-! ## Gates (R375) -/

/-- The act would reveal a record or a status: reveals keep their order. -/
def GateAct.reveals (a : GateAct) : Bool := match a with | .record .. => true | .status .. => true | _ => false

/-- The act is the status of a SESSION_OPEN, whose record the twin may refuse alone. -/
def GateAct.opens (a : GateAct) : Bool := match a with | .status _ _ _ o => o.isSome | _ => false

/-- An act takes place. A SESSION_OPEN whose record the twin has refused completes with NO_RESOURCE. -/
def doAct (s : State) (g : Gate) : State :=
  match g.act with
  | .record part r wr0 pad ls => revealRecord s part r wr0 pad ls
  | .status id st result opened =>
    match getCmd s id with
    | none => s
    | some c => match decide (g.id ∈ s.twin.refused), opened with
      | true, some i => complete (closeSess (setTwin s (fun t => { t with refused := t.refused.filter (· ≠ g.id) })) i) c 0x0104 0 0
      | _, _ => complete s c st 0 result
  | .copyDone => becomePaired (setTwin (twinSend s 4) (fun t => { t with sentDone := true }))
  | .detached id => match getCmd s id with | some c => complete s c stOk 0 0 | none => s

/-- The items under the number in use are not all acknowledged, or an earlier record or status still waits. -/
def gated (s : State) : Bool := (twinState s == 2 && pktOpen s (.twin s.twin.gate)) || s.twin.gates.any (fun g => g.act.reveals)

/-- An act takes place now, or waits. -/
def gateAct (s : State) (a : GateAct) : State :=
  let g : Gate := { id := s.twin.gate, act := a }
  if gated s then setTwin s (fun t => { t with gates := t.gates ++ [g], gate := t.gate + 1 }) else doAct s g

/-- A session command completes with OK once the twin has what it changed; `opened` is the index of a session it opened. -/
def gateStatus (s : State) (c : Cmd) (result : Nat) (opened : Option Nat) : State :=
  if gated s then gateAct s (.status c.id stOk result opened) else complete s c stOk 0 result

/-- The acts in front whose items are all acknowledged take place, in order. -/
def openGates (s : State) (fuel : Nat) : State :=
  match fuel with
  | 0 => s
  | n + 1 =>
    match s.twin.gates with
    | [] => s
    | g :: rest => if pktOpen s (.twin g.id) then s else openGates (doAct (setTwin s (fun t => { t with gates := rest })) g) n

/-- Every act that waits takes place: the partner is lost (R378; log entry 153, DESIGN CHOICE). -/
def releaseGates (s : State) : State := s.twin.gates.foldl doAct (setTwin s (fun t => { t with gates := [] }))

/-! ## Detaching (R377) -/

/-- Once nothing waits any more, a module that detaches sends its notice, discards the mirror and is SOLO; TWIN_DETACH completes when the notice is
acknowledged, or times out. -/
def settleDetach (s : State) : State :=
  if twinState s = 3 ∧ s.twin.gates = [] then
    let cmd := s.twin.cmd
    let g := s.twin.gate
    let s := goSolo (logTwin (twinSend s 2 (.twin g)) 2 0 (twinTag s))
    match cmd with
    | some id => openGates (setTwin s (fun t => { t with gates := [{ id := g, act := .detached id }] })) 1
    | none => s
  else s

/-- DETACHING: no new items are sent. -/
def beginDetach (s : State) (cmd : Option Nat) : State := settleDetach (setTwin (wf s TWIN_STATE 0 2 3) (fun t => { t with cmd := cmd }))

/-- An item that a mirror cannot hold is refused (R375): while pairing, the copy does not fit and pairing fails (R374); else both detach. -/
def mirrorFull (s : State) : State :=
  match twinState s with
  | 1 => failPairing s 0x0104
  | 2 => beginDetach (logTwin s 5 0) none
  | _ => s

/-- What the twin's acknowledgements and refusals allow or cause. -/
def settleTwin (s : State) : State :=
  let s := openGates s s.twin.gates.length
  let late := s.twin.refused.any (fun id => !s.twin.gates.any (fun g => g.id == id && g.act.opens))
  settleDetach (if late then mirrorFull (setTwin s (fun t => { t with refused := [] })) else s)

end Sys2Proof.Machine
end

