-- ==== Sys2Proof/Machine/SessCmds.lean ====
section
/-! DEFINITION. The model, session and request commands (R226 to R235, R241, R259, R283 to R286). -/
namespace Sys2Proof.Machine

/-! ## Models (R228 to R231, R283) -/

/-- A model record whose fields R230's code 0x30 refuses, with its group table. -/
def recordBad (r : SRec) (gs : List Line) : Bool :=
  decide (2 < mrKind r) || decide (fld r 18 14 ≠ 0) || mrLayers r == 0 || mrKvHeads r == 0 || mrQHeads r == 0 || decide (mrQHeads r % max (mrKvHeads r) 1 ≠ 0) ||
    mrGroups r == 0 || decide (mrGroups r ≠ gs.length) || decide (mrVocab r < 2) || decide (2 ^ 31 < mrVocab r) || decide (fld r 154 6 ≠ 0) ||
    decide (fld r 384 640 ≠ 0) ||
    gs.any (fun g => decide (fld g 10 6 ≠ 0) || decide (fld g 48 16 ≠ 0) || decide (fld g 448 64 ≠ 0) || !(gLayer g == 0xFF || decide (gLayer g < mrLayers r)) ||
      (List.range (gRegions g)).any (fun k => decide (fld g (99 + 96 * k) 29 ≠ 0)))

/-- The region a group table entry names for one projection (0x31). -/
def groupRegion (s : State) (g : Line) (k : Nat) : Option Region :=
  match regionAt s (gFirst g k) with
  | some r =>
    if r.planar ∧ r.kind = 0 ∧ r.first = gFirst g k ∧ r.count = gRowsets g k ∧ r.fmt = gWfmt g k ∧ r.scaled = gScaled g k ∧ r.iPad = gIPad g ∧
      r.rows = gRows g k then some r else none
  | none => none

/-- A block scale of 255 in the view of an FP4 E2M1 region, which cannot be transcoded (R41, R451). -/
def scaleBad (s : State) (v : Nat × List Byte) : Bool :=
  match regionAt s v.1 with
  | some r => r.fp4 && r.scaled && (List.range (r.rows * (r.iPad / 32))).any (fun i => v.2.getD (r.scaleBase + i) 0 == 0xFF)
  | none => false

/-- R230's codes in order. A scale of 0xFF, for which R41 and R451 name BAD_PARAM and no DETAIL, counts under 0x30 (log entry 123, DESIGN CHOICE). -/
def packageCodes (s : State) (p : Package) : List (Bool × Nat) :=
  let r := p.record
  [(recordBad r p.groups || p.views.any (scaleBad s), 0x30),
   (p.groups.any (fun g => (List.range (gRegions g)).any (fun k => (groupRegion s g k).isNone)), 0x31),
   (match mrDraft r with
    | some d => (match readyModel s d with | some x => !(mrKind x == 1 && mrVocab x == mrVocab r) | none => true)
    | none => false, 0x32),
   (match mrFallback r with
    | some f => decide (mrDraft r ≠ some f) && (match readyModel s f with
      | some x => !(mrKind x == 2 && mrLayers x == mrLayers r && mrKvHeads x == mrKvHeads r && mrQHeads x == mrQHeads r && mrVocab x == mrVocab r)
      | none => true)
    | none => false, 0x33),
   (mrKvCompat r && mrKind r != 2, 0x34)]

/-- A model id above 4,095. -/
def modelBad (c : Cmd) : Bool × Nat := (decide (4095 < pk c.pkt 16 2), 0x01)

/-- Bytes of the reserve beyond the model table that hold a group table (R228). -/
def tableBytes (x : Model) : Nat := 64 * x.groups.length

/-- The lowest free place in the reserve, beyond the model table, of a group table of `n` bytes (log entry 126, DESIGN CHOICE). -/
def groupPlace (s : State) (n : Nat) : Nat :=
  let base := modelOff s 4096
  let taken := s.se.models.map (fun m => (fld m.2.record 160 64, tableBytes m.2))
  let fits (b : Nat) : Bool := decide (b + n ≤ memBytes s) && taken.all (fun t => decide (b + n ≤ t.1) || decide (t.1 + t.2 ≤ b))
  (((base :: taken.map (fun t => t.1 + t.2)).filter fits).foldl (fun m b => some (match m with | none => b | some a => min a b)) none).getD base

/-- A package that passes its checks is loaded (R230, R283): the regions are written through their views, the group table and the record into the reserve;
the model becomes READY. Where the package's kernel table lies in device memory is a free value (log entry 126, DESIGN CHOICE). -/
def loadModel (s : State) (c : Cmd) (p : Package) : State :=
  let m := pk c.pkt 16 2
  let (st, s) := p.views.foldl (fun (acc : W16 × State) v =>
    let (st, s) := devWrite acc.2 (v.1 * rowSetBytes acc.2) v.2 (cmdRq c)
    (worse acc.1 st, s)) (0, s)
  if st ≠ 0 then reject s c st 0
  else
    let (kt, s) := drawBelow s (memBytes s)
    let gt := groupPlace s (64 * p.groups.length)
    let s := (devWrite s gt ((p.groups.map bytesOf).flatten) hfRq).2
    let r := srPut p.record [(0, 12, m), (12, 2, 2), (160, 64, gt), (224, 64, kt), (288, 32, 0), (320, 64, now s)]
    let s := putModel s m { record := r, groups := p.groups, digest := p.digest, pkgAddr := BitVec.ofNat 64 (pk c.pkt 24 8),
                            pkgBytes := BitVec.ofNat 32 (pk c.pkt 32 8), unloadCmd := none, unloadParts := [], repairing := none }
    let s := writeModel s m
    let s := match getModel s m with | some x => mirrorSend s (.model (twinModel s m x)) | none => s
    complete s c stOk 0 0

/-- MODEL_LOAD (R230, R283). A model that is being unloaded counts as FREE (R274): the load is accepted and takes effect, its package read, once it is. -/
def execModelLoad (id : Nat) (p : Package) (s : State) : Res :=
  let again (s : State) (c : Cmd) : State :=
    if modelState s (pk c.pkt 16 2) = 3 then s
    else withStruct s c p.status (if p.status = 0 then firstBad ((packageCodes s p).map (fun x => ckParam x.1 x.2)) else none) fun s => loadModel s c p
  .next (laterCmd s id 0x0200 again (runCmd s id 0x0200 fun s c =>
    let m := pk c.pkt 16 2
    let a : W64 := BitVec.ofNat 64 (pk c.pkt 24 8)
    let state := projModel s m id
    let late (codes : List (Bool × Nat)) := checks s c [] false ([modelBad c, bufBad s a (pk c.pkt 32 8)] ++ codes) [] [ckState (decide (state ≠ 0)) 0x03 state] false
    if modelState s m = 3 ∧ state = 0 then checked s c (late []) (fun s => s)
    else withStruct s c p.status (late (if p.status = 0 then packageCodes s p else [])) fun s => loadModel s c p))

/-- Sessions that name a model and are not MODEL_GONE (R231). -/
def sessionsOf (s : State) (m : Nat) : List (Nat × Session) := s.se.sessions.filter (fun y => srModel y.2.record == m && !srGone y.2.record)

/-- A command that names a model whose load waits for its unload is accepted only once that load has finished (log entry 147, DESIGN CHOICE). -/
def modelCmd (s : State) (id op : Nat) (f : State → Cmd → State) : State :=
  match getCmd s id with
  | some c => if loadWaiting s (pk c.pkt 16 2) id then s else runCmd s id op f
  | none => s

/-- MODEL_UNLOAD (R231, R283): completes when the model is FREE. -/
def execModelUnload (id : Nat) (s : State) : Res :=
  .next (modelCmd s id 0x0201 fun s c =>
    let m := pk c.pkt 16 2
    let named := s.se.models.any (fun x => mrState x.2.record == 2 && (mrDraft x.2.record == some m || mrFallback x.2.record == some m))
    let busy := (sessionsOf s m).find? (fun y => y.2.proj == stActive || y.2.waiting || y.2.projSusp)
    checked s c (checks s c [] false [modelBad c] []
      [ckState (decide (modelState s m ≠ 2)) 0x03 (projModel s m id), ckState named 0x03 2,
       ckState busy.isSome 0x02 (match busy with | some y => projCode y.2 | none => 0)] false) fun s =>
    let s := match getModel s m with
      | some x => putModel s m { x with
          record := srPut x.record [(12, 2, 3)], unloadCmd := some c.id, unloadParts := (List.range 16).filter (partDefined s) }
      | none => s
    let s := writeModel s m
    mirrorChange ((sessionsOf s m).foldl (fun s y => modSess s y.1 (fun x =>
      if x.proj = stClosed then x else { x with events := x.events ++ [.gone], proj := stExpired })) s))

/-- A model's record as MODEL_QUERY reads it (R228). -/
def modelRecord (s : State) (m : Nat) : SRec :=
  match getModel s m with
  | some x => srPut x.record [(288, 32, (sessionsOf s m).length)]
  | none => 0

/-- MODEL_QUERY (R283). -/
def execModelQuery (id : Nat) (s : State) : Res :=
  .next (runCmd s id 0x0202 fun s c =>
    let a : W64 := BitVec.ofNat 64 (pk c.pkt 24 8)
    checked s c (checks s c [] false [modelBad c, bufBad s a 128] [] [] false) fun s =>
    replyBuffer s c a (bytesOf (modelRecord s (pk c.pkt 16 2))) 0)

/-! ## Session commands (R226, R233, R284) -/

/-- The index of a new session: any free one (log entry 46, DESIGN CHOICE). -/
def freeIndex (s : State) : Nat × State :=
  let (r, s) := drawBelow s 1048576
  let used := s.se.sessions.map (·.1)
  (match lowestFree used 1048576 (used.length + 1) r 1 ++ lowestFree used 1048576 (used.length + 1) 0 1 with | i :: _ => i | [] => 0, s)

/-- SESSION_OPEN (R233, R284). -/
def execSessionOpen (id : Nat) (s : State) : Res :=
  .next (modelCmd s id 0x0300 fun s c =>
    let p := c.pkt
    let m := pk p 16 2
    let ready := match readyModel s m with | some r => mrKind r == 0 | none => false
    checked s c (checks s c [] false [(decide (4095 < m) || decide (7 < pk p 18 1) || decide (fld p 154 6 ≠ 0), 0x01)] []
      [ckState (!ready) 0x03 (projModel s m id), ckState (!partDefined s (pkPart p)) 0x06 0] (decide (1048576 ≤ s.se.sessions.length))) fun s =>
    let (i, s) := freeIndex s
    let h := tget s.se.gen i 0 * 2 ^ 20 + i
    let r := srPut 0 [(0, 32, h), (38, 1, fld p 152 1), (39, 1, fld p 153 1), (40, 4, pkPart p), (44, 3, pk p 18 1), (48, 8, pkClient p), (64, 12, m), (80, 8, 128),
      (576, 128, 2 ^ 128 - 1), (720, 16, 0x3C00)]
    gateStatus (mirrorChange (putSess (cacheNew s i) i { Session.zero with record := r, proj := stOpen })) c h (some i))

/-- The session a command names (R226). -/
def cmdSess (s : State) (c : Cmd) : Option Session := sessOf s (pk c.pkt 16 4)

/-- A session command: client and partition, then its own parameters, then the session's projected state, then `conf`; the record it names is then in the
cache (R227). -/
def sessCmd (s : State) (c : Cmd) (param : List (Bool × Nat)) (conf : Session → List (Bool × W16 × Nat)) (room : Bool) (k : State → Nat → Session → State) : State :=
  match cmdSess s c with
  | none => checked s c (checks s c [] false param [] [ckState true 0x02 stClosed] room) id
  | some x =>
    checked s c (checks s c [decide (srClient x.record ≠ pkClient c.pkt), decide (srPart x.record ≠ pkPart c.pkt)] false param []
      (ckState (x.proj == stClosed) 0x02 stClosed :: conf x) room) fun s =>
      let i := hIndex (pk c.pkt 16 4)
      let s := cacheIn s i
      k s i ((getSess s i).getD x)

/-- SESSION_PAUSE (R233). -/
def execSessionPause (id : Nat) (s : State) : Res :=
  .next (runCmd s id 0x0301 fun s c =>
    sessCmd s c [] (fun x => [ckState (x.proj != stActive) 0x02 (projCode x)]) false fun s i x =>
    let proj := if srState x.record = stExpired then stExpired else stPaused
    gateStatus (mirrorChange (putSess s i { x with events := x.events ++ [.pause], proj := proj, projSusp := true })) c 0 none)

/-- SESSION_RESUME (R233): a suspended request continues, or a PAUSED session is promoted. -/
def execSessionResume (id : Nat) (s : State) : Res :=
  .next (runCmd s id 0x0302 fun s c =>
    sessCmd s c [] (fun x =>
      [ckState (projGone x) 0x03 0,
       ckState (!(x.proj == stPaused || (x.proj == stExpired && x.projSusp))) 0x02 (projCode x)]) false fun s i x =>
    let s := { s with se := { s.se with order := s.se.order + 1 } }
    gateStatus (mirrorChange (putSess s i { x with
      events := x.events ++ [.resume], order := if x.projSusp && !x.slot then s.se.order else x.order
      proj := if x.projSusp then stActive else x.proj, projSusp := false })) c 0 none)

/-- SESSION_CANCEL (R233, R234): at the boundary, or at once when the session holds no slot. -/
def execSessionCancel (id : Nat) (s : State) : Res :=
  .next (runCmd s id 0x0303 fun s c =>
    sessCmd s c [] (fun _ => []) false fun s i x =>
    let s := putSess s i { x with events := x.events ++ [.cancel], proj := stClosed }
    gateStatus (mirrorChange (if x.slot then s else applyEvents s i false)) c 0 none)

/-- SESSION_QUERY (R232, R284). -/
def execSessionQuery (id : Nat) (s : State) : Res :=
  .next (runCmd s id 0x0304 fun s c =>
    let a : W64 := BitVec.ofNat 64 (pk c.pkt 24 8)
    sessCmd s c [bufBad s a 128] (fun _ => []) false fun s _ x => replyBuffer s c a (bytesOf x.record) 0)

/-- SESSION_SET (R284): the pending change holds the class in bits 2 to 0, FALLBACK_OK and PINNED in bits 8 and 9, the mask from bit 16. -/
def execSessionSet (id : Nat) (s : State) : Res :=
  .next (runCmd s id 0x0305 fun s c =>
    let p := c.pkt
    sessCmd s c [(decide (fld p 170 6 ≠ 0) || decide (fld p 179 5 ≠ 0) || (bit p 176 && decide (7 < pk p 20 1)), 0x01)] (fun _ => []) false fun s i x =>
    let o : W32 := x.setPending.getD 0
    let w := srPut (0 : SRec) [(0, 3, if bit p 176 then pk p 20 1 else fld o 0 3), (8, 1, if bit p 177 then fld p 168 1 else fld o 8 1),
      (9, 1, if bit p 178 then fld p 169 1 else fld o 9 1), (16, 3, (fld p 176 3) ||| (fld o 16 3))]
    complete (putSess s i { x with setPending := some (BitVec.ofNat 32 w.toNat) }) c stOk 0 0)

/-- SESSION_READ (R284). -/
def execSessionRead (id : Nat) (s : State) : Res :=
  .next (runCmd s id 0x0306 fun s c =>
    let first := pk c.pkt 20 4
    let n := pk c.pkt 24 4
    let a : W64 := BitVec.ofNat 64 (pk c.pkt 32 8)
    let beyond := match cmdSess s c with | some x => decide (srLen x.record < first + n) | none => false
    sessCmd s c [(!beyond && n != 0 && !bufOk s a (4 * n), 0x01), (beyond, 0x50)] (fun _ => []) false fun s _ x =>
    let (st, ts, s) := readToks s x first (first + n)
    if st ≠ 0 then complete s c st 0 0
    else if n = 0 then complete s c stOk 0 0
    else replyBuffer s c a ((ts.map bytesOf).flatten) n)

/-! ## Requests (R235, R285) -/

/-- REQUEST_SUBMIT (R235, R285): the prompt is appended, the request waits for a slot. -/
def execRequestSubmit (id : Nat) (s : State) : Res :=
  .next (runCmd s id 0x0400 fun s c =>
    let p := c.pkt
    let n := pk p 48 4
    let a : W64 := BitVec.ofNat 64 (pk p 56 8)
    let x? := cmdSess s c
    let long := match x? with | some x => decide (1048576 ≤ srLen x.record + n) | none => false
    let params := [(!long && n != 0 && !bufOk s a (4 * n), 0x01), (long, 0x51),
      (decide (8 < pk p 46 1) || pk p 42 2 == 0 || decide (0x3C00 < pk p 42 2) || pk p 20 4 == 0, 0x52)]
    let conf (x : Session) : List (Bool × W16 × Nat) :=
      [ckState (projGone x) 0x03 0, ckState (decide (modelState s (srModel x.record) ≠ 2)) 0x03 (modelState s (srModel x.record)),
       ckState (x.projSusp || x.proj == stActive) 0x02 (projCode x), ckState (tfind s.se.rings (srPart x.record)).isNone 0x09 0]
    let room := match x? with | some x => (ensureChunks s (hIndex (pk p 16 4)) (srLen x.record + n)).isNone | none => false
    let pass := match x? with
      | some x => (checks s c [decide (srClient x.record ≠ pkClient p), decide (srPart x.record ≠ pkPart p)] false params []
          (ckState (x.proj == stClosed) 0x02 stClosed :: conf x) room).isNone
      | none => false
    let (st, bs, s) := if pass && n != 0 then structRead s c a (4 * n) else (stOk, [], s)
    if pass && st != stOk then reject s c st 0
    else sessCmd s c params conf room fun s i x =>
      let s := appendToks s i ((List.range n).map (fun j => BitVec.ofNat 32 (leNat ((bs.drop (4 * j)).take 4))))
      let s := { s with se := { s.se with order := s.se.order + 1 } }
      let was := srLen x.record
      let len := was + n
      let s := modSess s i (fun x =>
        let r := srPut x.record [(448, 64, now s), (512, 32, (pkTag p).toNat), (544, 32, pk p 20 4), (576, 128, pk p 24 16), (704, 16, pk p 40 2), (720, 16, pk p 42 2),
          (736, 16, pk p 44 2), (752, 4, pk p 46 1), (56, 4, pk p 46 1), (80, 8, 128), (88, 8, 0)]
        { x with
          record := r, proj := stActive, waiting := true, events := x.events ++ [.resume], order := s.se.order, first := true, missedAny := false
          withheldSaid := false, started := false, sinceProbe := 0, prefillFrom := was, prefillAt := len, dueTtft := firstDue s r })
      gateStatus (mirrorChange (tally s (pkClient p) 0)) c 0 none)

/-! ## The pool and the output rings (R241, R259, R286) -/

/-- An area of the pool block that R286 refuses. -/
def poolBad (s : State) (b : SRec) : Bool :=
  let region (row kind : Nat) : Bool := match regionAt s row with
    | some r => r.planar && r.kind == kind && r.first == row && decide (pN b ≤ r.rows)
    | none => false
  let linear (a n : Nat) : Bool := isLocalNode s (a / 2 ^ 48) && inReservedLinear s (a % 2 ^ 48) n
  let level := pBytes b 4 == 0 || !isLocalNode s (pBase b 4 / 2 ^ 48)
  let host := pBytes b 5 == 0 || (isLocalNode s (pBase b 5 / 2 ^ 48) && localRange s (pBase b 5 % 2 ^ 48) (pBytes b 5) == .window)
  pN b == 0 || decide (2 ^ 24 < pN b) || !region (pKRow b) 1 || !region (pVRow b) 2 || !linear (pScale b) (2048 * pN b) ||
    (List.range 4).any (fun i => !linear (pBase b i) (pBytes b i)) || !level || !host

/-- A transcript is written anew in the transcript area in force. -/
def rewriteToks (s : State) (i : Nat) : State :=
  match getSess s i with
  | none => s
  | some x =>
    let bare : Session := { x with table := none, chunks := [], record := srPut x.record [(256, 64, 0)] }
    match ensureChunks (putSess s i bare) i x.toks.length with
    | none => putSess s i bare
    | some s =>
      let x := (getSess s i).getD x
      iterate x.toks.length (fun j s => match tokenOff s x j with
        | some a => (devWrite s a (leBytes 4 (x.toks.getD j 0).toNat) hfRq).2
        | none => s) s

/-- A session holds entries of the pool in force, in T0 or packed. -/
def holdsEntries (s : State) (y : Nat × Session) : Bool := s.se.spans.any (fun k => k.session == y.1) || srPacked y.2.record != 0

/-- A pool block takes effect once no session holds entries. Transcripts that exist move with the area (log entry 48, DESIGN CHOICE). -/
def setPool (s : State) (c : Cmd) : State :=
  if s.se.sessions.any (holdsEntries s) then s
  else
    let s := { s with se := { s.se with pool := some (BitVec.ofNat 1024 (leNat (c.ext.take 128))) } }
    complete ((s.se.sessions.map (·.1)).foldl rewriteToks s) c stOk 0 0

/-- KV_POOL_CONFIG (R241, R286). A session that an accepted SESSION_CANCEL closes is no conflict (R274): the block takes effect once it has gone. -/
def execKvPoolConfig (id : Nat) (s : State) : Res :=
  .next (laterCmd s id 0x0401 setPool (runCmd s id 0x0401 fun s c =>
    let b : SRec := BitVec.ofNat 1024 (leNat (c.ext.take 128))
    let busy := s.se.sessions.any (fun y => y.2.proj != stClosed && holdsEntries s y) || decide (twinState s ≠ 0)
    let late := checks s c [] false (if c.extStatus = 0 then [(decide (fld b 96 32 ≠ 0) || decide (fld b 960 64 ≠ 0), 0x01), (poolBad s b, 0x60)] else []) []
      [ckState busy 0x08 2] false
    withStruct s c c.extStatus late fun s => setPool s c))

/-- OUTPUT_RING_CONFIG (R259, R285). A slot that an accepted command gives up is no conflict (R274): the ring is set at the boundary where it goes. -/
def execOutputRingConfig (id : Nat) (s : State) : Res :=
  .next (runCmd s id 0x0402 fun s c =>
    let p := c.pkt
    let part := pkPart p
    checked s c (checks s c [] false
      [(decide (pk p 16 8 % 4096 ≠ 0) || decide (pk p 24 1 < 12) || decide (28 < pk p 24 1) || decide (511 < pk p 26 2), 0x01)] []
      [ckState (!partDefined s part) 0x06 0, ckState (slotsProjected s part) 0x09 2] false) fun s =>
    if holdsSlot s part then s else setRing s c)

end Sys2Proof.Machine
end

