-- ==== Sys2Proof/Machine/Steps.lean ====
section
/-! DEFINITION. Steps (R210 to R221, R236 to R262, R371, R373): start, planning of groups, rescue, commit with its record, idle boundaries, and
the tiers' events. -/
namespace Sys2Proof.Machine

/-! ## Records (R259, R260) -/

/-- Units of 64 bytes free in a partition's ring. -/
def ringFree (s : State) (part : Nat) (r : Ring) : Nat :=
  2 ^ r.log2 / 64 - (ringWr s part + 2 ^ 32 - (rd s (HF_SE_ORING_RD part)).toNat) % 2 ^ 32

/-- Units of filler before a record of `n` units, which never crosses the ring's end. -/
def ringPad (s : State) (part : Nat) (r : Ring) (n : Nat) : Nat :=
  let size := 2 ^ r.log2 / 64
  let off := ringWr s part % size
  if size < off + n then size - off else 0

/-- A record of `n` entries fits now. -/
def recordFits (s : State) (part : Nat) (r : Ring) (n : Nat) : Bool := decide (ringPad s part r (n + 1) + n + 1 ≤ ringFree s part r)

/-- The most entries of a record. -/
def maxEntries (r : Ring) : Nat := 2 ^ r.log2 / 128 - 1

/-- The header of a record (R260). -/
def recordHeader (part step entries hold start commit predicted : Nat) : Line :=
  pack 512 [(0, 24, entries + 1), (28, 4, part), (32, 32, step), (64, 32, entries), (96, 32, min hold 0xFFFFFFFF), (128, 64, start), (192, 64, commit),
    (256, 32, min predicted 0xFFFFFFFF)]

/-- A record is made (R239, R259, R260): the commit log and the step number follow, and it is revealed once the twin has what it tells (R375). -/
def writeRecord (s : State) (part : Nat) (r : Ring) (hold start predicted : Nat) (es : List Line) : State :=
  let n := es.length
  let step := tget s.se.stepNums part 0
  let wr0 := ringWr s part
  let pad := ringPad s part r (n + 1)
  let ls := recordHeader part (step % 2 ^ 32) n hold start (now s) predicted :: es
  let s := mirrorSend (mirrorChange s) (.outRecord part (BitVec.ofNat 64 step) ls)
  let s := wr64 s (HF_SE_STEP part) (BitVec.ofNat 64 step)
  let s := traceEvent s 9 0 0 part 0 0 n step
  gateAct { s with se := { s.se with commitLog := s.se.commitLog ++ [(part, BitVec.ofNat 64 step, ls)], stepNums := tput s.se.stepNums part ((step + 1) % 2 ^ 64) } }
    (.record part r wr0 pad ls)

/-- Waiting status entries are taken for a record that has `n` slot entries. -/
def takeStatus (s : State) (part : Nat) (r : Ring) (n : Nat) : List Line × State :=
  let q := tget s.se.status part []
  let most := min 1024 (maxEntries r - n)
  let k := ((List.range (min most q.length + 1)).filter (fun k => recordFits s part r (n + k))).foldl max 0
  (q.take k, { s with se := { s.se with status := tset s.se.status part (q.drop k) [] } })

/-! ## Step start (R238, R243, R248, R256, R257, R259) -/

/-- A slot's transcript is read for the step; poison in it is repaired from the twin's mirror, or the slot sits out (R373). -/
def checkTrans (s : State) (i : Nat) : State :=
  match getSess s i with
  | none => s
  | some x =>
    let (st, _, s) := readToks s x (srKv x.record) (srLen x.record)
    if st = 0 then s else if twinState s = 2 then rewriteToks s i else modSess s i (fun x => { x with transBad := true })

/-- A work's model keeps KV entries of its own that no length counts (log entry 49, DEDUCED). -/
def ownKv (s : State) (w : Work) : Bool :=
  w.moved && !w.draftFb && !(match getModel s w.model with | some m => mrKvCompat m.record | none => false)

/-- The positions a work writes: main from and to, draft from and to. -/
def workSpans (s : State) (w : Work) (r : SRec) : (Nat × Nat) × (Nat × Nat) :=
  let main := if w.draftFb || ownKv s w then (0, 0) else (srKv r, if w.emits then srLen r + w.d else w.upTo)
  let draft := if w.draftFb then (srDkv r, if w.emits then srLen r else w.upTo)
    else if w.d = 0 then (0, 0) else (srDkv r, srLen r - 1 + w.d)
  (main, draft)

/-- Pages a step will write (R243), or nothing changes. -/
def allocWork (s : State) (w : Work) : Option State :=
  match getSess s w.session with
  | none => none
  | some x =>
    let m := srModel x.record
    let d := match draftOf s m with | some d => spanSize s d | none => 0
    let (a, b) := workSpans s w x.record
    (ensureSpans s w.session false (spanSize s m) a.1 a.2).bind (fun s => ensureSpans s w.session true d b.1 b.2)

/-- The ACTIVE session, other than the starving one, that holds the most T0 slots (R248). -/
def starveVictim (s : State) (i : Nat) : Option Nat :=
  let xs := s.se.sessions.filter (fun y => y.2.slot && decide (y.1 ≠ i) && !y.2.events.any (· == .starve))
  (xs.foldl (fun (b : Option (Nat × Nat)) y => match b with
    | none => some (y.1, heldSlots s y.1)
    | some z => if z.2 < heldSlots s y.1 then some (y.1, heldSlots s y.1) else some z) none).map (·.1)

/-- A slot without pages sits out the step (R246, R248). -/
def sitOut (s : State) (part i : Nat) : State :=
  let moving := s.se.sessions.any (fun y => srState y.2.record == stPaused && srTier y.2.record == 0 && leaving y.2 && heldSlots s y.1 != 0)
  if moving || (movable s 0).any (fun y => heldSlots s y.1 != 0) then
    let need := match getSess s i with | some x => spanSize s (srModel x.record) | none => 0
    modSess (if moving then s else pressureT0 s need) i (fun x => { x with satOut := 0 })
  else
    let n := (match getSess s i with | some x => x.satOut | none => 0) + 1
    if n < forceFld s part HF_SE_CFG 16 8 then modSess s i (fun x => { x with satOut := n })
    else
      let s := modSess s i (fun x => { x with satOut := 0 })
      match starveVictim s i with
      | some v => modSess s v (fun x => { x with events := x.events ++ [.starve] })
      | none => s

/-- The works of a step, with their pages, in admission order under the prefill budget. -/
def gatherWorks (s : State) (part : Nat) (moved : List Nat) (xs : List (Nat × Session)) : List Work × State :=
  let (ws, _, s) := xs.foldl (fun (acc : List Work × Nat × State) y =>
    match slotWork acc.2.2 moved acc.2.1 y.1 y.2 with
    | none => acc
    | some w =>
      match allocWork acc.2.2 w with
      | some s => (acc.1 ++ [w], acc.2.1 - w.prefill, modSess s y.1 (fun x => { x with satOut := 0 }))
      | none => (acc.1, acc.2.1, sitOut acc.2.2 part y.1)) ([], forceFld s part HF_SE_CFG 0 16, s)
  (ws, s)

/-- Sessions of a list as they are now. -/
def refetch (s : State) (xs : List (Nat × Session)) : List (Nat × Session) := xs.filterMap (fun y => (getSess s y.1).map (fun x => (y.1, x)))

/-- The works a partition's step would start with (R238): the slots in admission order whose transcripts read, those the output ring holds entries for,
moved and planned, with their pages. -/
def startWorks (s : State) (part : Nat) (ring : Ring) : List Work × State :=
  let slots := sortBy (fun a b => decide (a.2.order < b.2.order)) ((sessIn s part).filter (fun y => y.2.slot))
  let s := (slots.map (·.1)).foldl checkTrans s
  let xs := (refetch s slots).filter (fun y => !y.2.transBad && (decide (y.2.withheld = []) || mayMove s y.2))
  let chosen := ((xs.filter (fun y => y.2.ringSatOut) ++ xs.filter (fun y => !y.2.ringSatOut)).take (maxEntries ring)).map (·.1)
  let s := xs.foldl (fun s y => modSess s y.1 (fun x => { x with ringSatOut := decide (y.1 ∉ chosen) })) s
  let ys := (refetch s xs).filter (fun y => decide (y.1 ∈ chosen))
  let moved := moveLoop s part ys [] (ys.length + 1)
  gatherWorks s part moved (ys.filter (fun y => decide (y.2.withheld = []) || decide (y.1 ∈ moved)))

/-- STEP_START (R238). -/
def execStepStart (part : Nat) (s : State) : Res :=
  match tfind s.se.rings part, tfind s.parts part with
  | some ring, some p =>
    if !serving s || (tfind s.faults.running 5).isSome || (tfind s.se.steps part).isSome || decide (displaced s part ≠ []) then .next s
    else
      let (ws, u) := startWorks s part ring
      let n := min (maxEntries ring) (ws.length + min 1024 (tget u.se.status part []).length)
      if ws = [] then .next u
      else if !recordFits u part ring n then .next s
      else
        let run : StepRun := {
          works := ws, start := BitVec.ofNat 64 (now u), startMono := mono u, predicted := predict u part ws, planNs := planNs u part ws
          todo := stepGroups u (batches u ws), group := none, groupAt := mono u, sem := 0, signals := 0, rounds := [], drained := false
          dense := [], denseSig := 0, badBatches := [], badSessions := [], attended := false, rescued := false, held := false, regrant := false, everHeld := false, holdNs := 0
          attn := (ws.filter (fun w => match getSess u w.session with | some x => attnNear u part x.record | none => false)).map (·.session) }
        .next (wf { u with se := { u.se with steps := tput u.se.steps part run }, parts := tput u.parts part { p with lastStep := mono u } }
          (PART_STATUS part) 1 1 1)
  | _, _ => .next s

/-! ## Groups (R212, R216, R218, R220) -/

/-- The layer of a group in trace records. -/
def traceLayer (g : Line) : Nat := if gLayer g = 0xFF then 0xFFFF else gLayer g

/-- A mode in trace records (R447). -/
def modeCode (m : Mode) : Nat := match m with | .near => 0 | .dense => 1 | .split n => 2 + 65536 * n

/-- A finished group's execution is measured in the halves it ran (R218): the values are the hardware's (log entry 3, DESIGN CHOICE). One that was rescued,
held by a retrain, or ran through a grant change is not. -/
def measureGroup (s : State) (run : StepRun) : State :=
  match run.group with
  | none => s
  | some (x, mode) =>
    if run.rescued ∨ run.held ∨ run.regrant then s
    else
      let k := groupKey x.model x.index
      let last8 (t : Tab (List Nat)) (v : Nat) : Tab (List Nat) := tput t k (let xs := tget t k [] ++ [v]; xs.drop (xs.length - 8))
      let (a, s) := draw s 48
      let (b, s) := draw s 48
      let s := if mode = .dense then s else { s with se := { s.se with rateNb := last8 s.se.rateNb a.toNat } }
      if mode = .near then s else { s with se := { s.se with rateD := last8 s.se.rateD b.toNat } }

/-- The step number a partition's present step will carry. -/
def stepNumber (s : State) (part : Nat) : Nat := tget s.se.stepNums part 0

/-- Two groups belong to one layer of one batch. -/
def sameLayer (x y : PlanItem) : Bool := x.kind == y.kind && x.model == y.model && gLayer x.entry == gLayer y.entry

/-- The stages that close a layer are traced once its last group is done (log entry 50, DEDUCED). -/
def closeLayer (s : State) (part : Nat) (run : StepRun) (next : Option PlanItem) : State :=
  match run.group with
  | none => s
  | some (x, mode) =>
    if (match next with | some y => sameLayer x y | none => false) then s
    else [5, 6].foldl (fun s k => traceEvent s 8 0 0 part (traceLayer x.entry) k (modeCode mode) (stepNumber s part)) s

/-- The time for which retrains have held a step's groups so far (R221). -/
def heldNs (s : State) (run : StepRun) : Nat :=
  match s.nb.retrainFrom, run.group with
  | some t, some _ => run.holdNs + (mono s - max t run.groupAt)
  | _, _ => run.holdNs

/-- Stage 6 may begin: every program of the near-bank half has ended and the dense half has made its reads, and the vector threads take the signals of both
(R21, R212). -/
def halvesDone (s : State) (part : Nat) (run : StepRun) : Option State :=
  if !nearOver s part run || decide (run.dense ≠ []) then none
  else if run.signals + run.denseSig = 0 then some s
  else let (ok, s) := semTake s run.sem (BitVec.ofNat 64 (run.signals + run.denseSig)); if ok then some s else none

/-- The layer of the group in progress is at its attention, which is still to begin (R21, R217). -/
def attentionDue (run : StepRun) : Option PlanItem :=
  match run.group with
  | some (x, _) =>
    let more : Bool := match run.todo with | y :: _ => sameLayer x y | [] => false
    if more ∨ gLayer x.entry = 0xFF ∨ run.attended then none else some x
  | none => none

/-- Halves whose signals are taken owe nothing more. -/
def StepRun.settled (run : StepRun) : StepRun := { run with signals := 0, denseSig := 0, rounds := [] }

/-- The next group of the step is planned and its halves start (R212, R216). -/
def planNext (s : State) (part : Nat) (run : StepRun) : State :=
  match run.todo with
  | [] => putRun s part run
  | x :: rest =>
    let s := closeLayer (measureGroup s run) part run (some x)
    let mode := planMode s part x.model x.index x.entry x.batch
    let (cnt, k) := match mode with | .near => (HF_LSPLIT_NEAR_COUNT, 0) | .split _ => (HF_LSPLIT_SPLIT_COUNT, 1) | .dense => (HF_LSPLIT_DENSE_COUNT, 2)
    let s := bump s cnt HF_LSPLIT_TALLY_STATUS k 1
    let s := [1, 2, 3, 4].foldl (fun s st => traceEvent s 8 0 0 part (traceLayer x.entry) st (modeCode mode) (stepNumber s part)) s
    let hold := s.nb.retrainFrom.isSome
    let on := match run.group with | some (y, _) => sameLayer y x && run.attended | none => false
    let run : StepRun := { run with
      todo := rest, group := some (x, mode), groupAt := mono s, sem := 0, signals := 0, rounds := [], drained := false, dense := [], denseSig := 0, attended := on, rescued := false
      held := hold, regrant := false, everHeld := run.everHeld || hold, holdNs := heldNs s run }
    let near := nearGroups x.entry mode
    let (ws, s) := if mode = .dense then ([], s) else groupWorks s part x mode
    beginHalves s part run (groupRounds s ws) (if mode = .near then [] else denseRows s x near)

/-- GROUP_PLAN (R21, R212, R216): the sequencer's next move in a step. What is left of the present halves starts and is read as there is room; once both
have signalled, the layer's attention begins, or the next group is planned. -/
def execGroupPlan (part : Nat) (s : State) : Res :=
  match tfind s.se.steps part with
  | none => .next s
  | some run =>
    match halvesDone s part run with
    | none => .next (advanceDense (advanceNear s part run) part)
    | some s =>
      let run := run.settled
      match attentionDue run with
      | none => .next (planNext s part run)
      | some x =>
        let run := { run with attended := true }
        let (rounds, s) := attnRounds s part run x
        let reads := attnReads s run x
        .next (if rounds = [] ∧ reads = [] then planNext s part run else beginHalves s part run rounds reads)

/-- A program has begun a DRAIN. -/
def drainBegun (s : State) (p : Program) : Bool :=
  (List.range (p.cur + 1 - p.start)).any (fun i => bOp (progEntry s p.stack (p.start + i)) == 0x11 && (decide (p.start + i < p.cur) || p.begun))

/-- How long a stack's grant has been 0, time held by a retrain not counted (R220). -/
def dryNs (s : State) (stack : Nat) : Nat :=
  if tget s.nb.grant stack 0 ≠ 0 then 0
  else
    let t := tget s.nb.dryFrom stack 0
    mono s - t - (match s.nb.retrainFrom with | some u => mono s - max u t | none => 0)

/-- RESCUE (R220): a near-bank half that has waited RESCUE_US for a grant goes to the dense cores, unless a DRAIN has started or one of its programs has ended. -/
def execRescue (part : Nat) (s : State) : Res :=
  match tfind s.se.steps part with
  | none => .next s
  | some run =>
    let mine := seqProgs s part
    let draining := run.drained || decide (mine.length < run.signals) || mine.any (drainBegun s)
    let dry := mine.any (fun p => tget s.nb.grant p.stack 0 == 0 && decide (1000 * forceFld s part HF_LSPLIT_CFG 16 8 ≤ dryNs s p.stack))
    match run.group with
    | some (x, mode) =>
      if mode = .dense ∨ run.attended ∨ draining ∨ !dry then .next s
      else
        let s := bump (mine.foldl abortProgram s) HF_LSPLIT_RESCUE_COUNT HF_LSPLIT_TALLY_STATUS 3 1
        .next (putRun s part (addDense { run with group := some (x, .dense), rounds := [], rescued := true } (rescueRows s x (nearGroups x.entry mode))))
    | none => .next s

/-! ## Commit (R238, R250 to R262, R371, R373) -/

/-- How many proposals are accepted (R251): the argmax agrees, or u × q ≤ p. -/
def acceptLen (greedy : Bool) (props argmax : List W32) (test : List (Nat × Nat × Nat)) : Nat :=
  match props with
  | [] => 0
  | x :: xs =>
    let ok := if greedy then argmax.head? == some x
      else match test.head? with | some (u, q, p) => decide (u * q ≤ p * 2 ^ 32) | none => false
    if ok then 1 + acceptLen greedy xs argmax.tail test.tail else 0

/-- The tokens a slot emits, the number accepted, and whether a stop token ended them (R237, R251). -/
def emitted (r : SRec) (d : Nat) (k : SlotResult) : List W32 × Nat × Bool :=
  let greedy := srTemp r % 0x8000 == 0
  let props := k.proposed.take d
  let a := acceptLen greedy props k.argmax k.test
  let all := props.take a ++ [if greedy then k.argmax.getD a 0 else k.final]
  let isStop (t : W32) : Bool := t != 0xFFFFFFFF && (List.range 4).any (fun i => srStop r i == t.toNat)
  match all.findIdx? isStop with
  | some i => (all.take (i + 1), a, true)
  | none => (all, a, false)

/-- The acceptance estimate and the draft length after a step that proposed `d` > 0 tokens (R254). -/
def draftUpdate (s : State) (part : Nat) (r : SRec) (d a : Nat) (probe : Bool) : Nat × Nat :=
  let x : Int := (255 * a / d : Nat)
  let est := ((srAcc r : Int) + (x - srAcc r).tdiv 8).toNat
  let raise := forceFld s part HF_SE_SPEC_CFG 0 8
  let lower := forceFld s part HF_SE_SPEC_CFG 8 8
  let now_ := srDraft r
  (est, if probe then (if lower ≤ est then 1 else 0)
    else if raise ≤ est ∧ now_ < srDraftMax r then now_ + 1
    else if est < lower ∧ 0 < now_ then now_ - 1
    else now_)

/-- The models whose weights gave poison to results that a slot's vectors used (R371). -/
def badModels (s : State) (run : StepRun) (w : Work) : List Nat :=
  let mine := (workVectors s w).filter (fun v => decide (v.2.2 ≠ 0))
  ((run.badBatches.filter (fun b => mine.any (fun v => v.2.1 == b.2 && (v.1 == b.1 || b.1 == 4)))).map (·.2)).eraseDups

/-- A model is under repair from its detection on (R372). -/
def markRepair (s : State) (m : Nat) : State :=
  match getModel s m with
  | some x =>
    if x.repairing.isSome then s
    else
      let s := putModel s m { x with repairing := some s.se.order }
      { s with se := { s.se with order := s.se.order + 1 } }
  | none => s

/-- A slot whose results carried poison, of weights of `ms` or of its KV pages (R371, R373): no length changes, but KV poison empties the KV entries; one entry a
request. -/
def withholdSlot (s : State) (w : Work) (ms : List Nat) (kv : Bool) (x : Session) : State × List OutEntry :=
  let r := x.record
  let s := modSess (ms.foldl markRepair s) w.session (fun x => { x with withheld := (x.withheld ++ ms).eraseDups })
  let s := if kv then modSess s w.session (fun x => { x with
      record := srPut x.record [(128, 32, 0), (160, 32, 0)], prefillFrom := 0, prefillAt := srLen x.record, rebuilt := true }) else s
  if x.withheldSaid then (s, [])
  else (modSess s w.session (fun x => { x with withheldSaid := true }), [plainEntry r (srReqTag r) 0x0201 0 0x20])

/-- A slot's part of the commit: its state, its entries. -/
def commitSlot (s : State) (part : Nat) (run : StepRun) (w : Work) (k : SlotResult) : State × List OutEntry :=
  match getSess s w.session with
  | none => (s, [])
  | some x =>
    let r := x.record
    let i := w.session
    let has (e : SessEvent) : Bool := x.events.any (· == e)
    let (wm, wd) := workSpans s w r
    let s := writeKvs (writeKvs s i false wm.1 wm.2) i true wd.1 wd.2
    if has .cancel then (s, [plainEntry r (srReqTag r) 0x0205 4 2])
    else if badModels s run w ≠ [] ∨ i ∈ run.badSessions then withholdSlot s w (badModels s run w) (decide (i ∈ run.badSessions)) x
    else if !w.emits then
      (modSess s i (fun x => { x with
        prefillFrom := w.upTo, record := srPut x.record (if w.draftFb then [(160, 32, w.upTo)] else if ownKv s w then [] else [(128, 32, w.upTo)]) }), [])
    else
      let (ts, a, stopped) := emitted r w.d k
      let n := ts.length
      let len := srLen r + n
      let rest := srRemaining r - n
      let why := if stopped then 1 else if rest = 0 then 2 else if 1048576 ≤ len then 3 else 0
      let susp := has .pause || has .starve
      let ended := !susp && decide (why ≠ 0)
      let missed := match nextDue s x with | some t => decide (t < now s) | none => false
      let late := x.missedAny || missed
      let built := x.rebuilt || x.takenOver
      let flags := b2n x.first + 2 * b2n (ended || susp) + 4 * b2n w.moved + 8 * b2n missed + 16 * b2n built + 64 * b2n susp + 128 * b2n x.takenOver
      let e : OutEntry := {
        handle := srHandle r, tag := srReqTag r, status := if ended && late then 0x0204 else 0, client := srClient r
        reason := if susp then (if has .pause then 5 else 6) else why, flags := flags, draft := w.d, pos := srLen r, toks := ts }
      let (est, d) := if w.d = 0 then (srAcc r, srDraft r) else draftUpdate s part r w.d a w.probe
      let kv := if w.draftFb || ownKv s w then srKv r else len - 1
      let dkv := if w.draftFb then len - 1 else if ownKv s w then srDkv r else min (if w.d = 0 then srDkv r else srLen r - 1 + w.d) kv
      let s := appendToks s i ts
      let s := modSess s i (fun x => { x with
        record := srPut x.record ([(128, 32, kv), (160, 32, dkv), (56, 4, d), (80, 8, est), (88, 8, if w.probe then 0 else min 255 (srProbe r + 1)),
          (384, 64, now s), (544, 32, rest), (800, 32, if w.moved then min 0xFFFFFFFF (srFbTokens r + n) else srFbTokens r),
          (832, 32, if missed then min 0xFFFFFFFF (srMissed r + n) else srMissed r)] ++
          (if ended then [(32, 3, stPaused), (35, 2, 0), (320, 64, tierEnd s part 0)] else []))
        prefillFrom := x.prefillAt, sinceProbe := if w.probe then 0 else x.sinceProbe + 1, first := false, missedAny := late, rebuilt := false, takenOver := false
        slot := x.slot && !ended })
      let s := if ended then tally s (srClient r) 2 else s
      let s := if w.moved then bump s HF_SE_FALLBACK_COUNT HF_SE_TALLY_STATUS 0 n else s
      let s := if missed then bump s HF_SE_MISSED_COUNT HF_SE_TALLY_STATUS 1 n else s
      let s := if built then bump s HF_SE_REBUILT_COUNT HF_SE_TALLY_STATUS 3 1 else s
      let s := if w.d = 0 then s else bump (bump s HF_SE_PROPOSED_COUNT HF_SE_TALLY_STATUS 4 w.d) HF_SE_ACCEPTED_COUNT HF_SE_TALLY_STATUS 5 a
      (s, [e])

/-- The results of a slot the kernels named none for: no proposal, token 0. -/
def SlotResult.none (i : Nat) : SlotResult :=
  { session := i, proposed := [], argmax := [], test := [], final := 0 }

/-- STEP_COMMIT (R21, R238): every group is done; transcripts, records, pages, the output record, then the boundary. -/
def execStepCommit (part : Nat) (res : StepResult) (s : State) : Res :=
  match tfind s.se.steps part, tfind s.se.rings part with
  | some run, some ring =>
    if run.todo ≠ [] ∨ (attentionDue run).isSome then .next s
    else match halvesDone s part run with
    | none => .next s
    | some s =>
      let hold := heldNs s run
      let s := closeLayer (measureGroup s run) part run none
      let s := [7, 8].foldl (fun s k => traceEvent s 8 0 0 part 0xFFFF k 0 (stepNumber s part)) s
      let (s, es) := run.works.foldl (fun (acc : State × List OutEntry) w =>
        let k := (res.slots.find? (fun k => k.session == w.session)).getD (SlotResult.none w.session)
        let (s, e) := commitSlot acc.1 part run w k
        (s, acc.2 ++ e)) (s, [])
      let s := (run.works.map (·.session)).foldl trimSpans s
      let (q, s) := takeStatus s part ring es.length
      let s := writeRecord s part ring hold run.start.toNat run.predicted (es.map (·.line) ++ q)
      let diff : Int := (mono s - run.startMono : Int) - run.planNs
      let ds := tget s.se.durations part [] ++ [diff]
      let durations := if !run.everHeld then tput s.se.durations part (ds.drop (ds.length - 8)) else s.se.durations
      let s := { s with se := { s.se with steps := tdel s.se.steps part, durations := durations } }
      let said := (s.se.sessions.filter (fun y => es.any (fun e => e.handle == srHandle y.2.record && e.status != 0x0201))).map (·.1)
      .next (boundary s part said)
  | _, _ => .next s

/-- IDLE_BOUNDARY (R239, R240): a partition that runs no step; waiting status entries go into a record of a step that runs no layer, unless a slot can run and
its step will carry them. -/
def execIdleBoundary (part : Nat) (s : State) : Res :=
  if !partDefined s part || (tfind s.se.steps part).isSome || !serving s then .next s
  else
    let s := boundary s part []
    match tfind s.se.rings part with
    | none => .next { s with se := { s.se with status := tset s.se.status part [] [] } }
    | some ring =>
      if tget s.se.status part [] = [] then .next s
      else
        let (q, s) := takeStatus s part ring 0
        if q = [] ∨ (startWorks s part ring).1 ≠ [] then .next { s with se := { s.se with status := tset s.se.status part (q ++ tget s.se.status part []) [] } }
        else .next (writeRecord s part ring 0 (now s) 0 q)

/-! ## Tiers (R244 to R247) -/

/-- TTL_EXPIRY (R244): the time to live of a session's tier has ended; its move down begins. -/
def execTtlExpiry (session : Nat) (s : State) : Res :=
  let s := cacheIn s session
  match getSess s session with
  | none => .next s
  | some x =>
    let r := x.record
    if srState r ≠ stPaused ∨ srPinned r ∨ x.tierTo.isSome ∨ x.waiting ∨ now s < srUntil r ∨ srUntil r = 2 ^ 64 - 1 then .next s
    else .next (startDown s session (srTier r) 4)

/-- TIER_MOVE_DONE (R245, R247): the copy has ended, once its memory and its packets let it; the move commits at the boundary, skips a tier, or loses its image. `ok` tells what its hoists and the
fabric met; what this module's own memory and digest show is added to it. -/
def execTierMoveDone (session : Nat) (ok : TierOutcome) (s : State) : Res :=
  match getSess s session with
  | none => .next s
  | some x =>
    match x.tierTo with
    | none => .next s
    | some t =>
      if x.tierDone then .next s
      else
        let s := cacheIn s session
        .next (match ok with
          | .copied =>
            let y := (getSess s session).getD x
            let open_ := match y.tierId with | some id => !pktOpen s (.tier id) | none => true
            if open_ && tierOpen s session t y then copyTier s session t y else s
          | .readError => loseImage s session t
          | .writeError => skipTier s session t)

end Sys2Proof.Machine
end

