-- ==== Sys2Proof/Machine/RegAccess.lean ====
section
/-! DEFINITION. Accesses to BAR0 (R435 to R442): which registers answer, what a read returns, what a write does, and the registers whose write is a
command of its own (R150, R393, R400, R448, R449). -/
namespace Sys2Proof.Machine

/-! ## Which register an access meets -/

/-- The module-wide registers of the stack controllers, seen at every stack's offset (R155, R209), by stack 0's offset. -/
def canonOff (off : Nat) : Nat :=
  let e := (off - 0x0700000) % 0x20000
  if 0x0700000 ≤ off ∧ off < 0x0800000 ∧ ((0x100 ≤ e ∧ e < 0x300) ∨ e = 0x900) then 0x0700000 + e else off

/-- The register whose word lies at an offset: its row, block and index, and whether the word is a high word. -/
def regAt (off : Nat) : Option (RegRow × Nat × Nat × Bool) :=
  match regFind regRows off with
  | some (r, b, i) => some (r, b, i, false)
  | none =>
    if off < 4 then none
    else match regFind regRows (off - 4) with
      | some (r, b, i) => if r.wide then some (r, b, i, true) else none
      | none => none

/-- The rings of the error logs (R99, R358). -/
def inRing (off : Nat) : Bool := (decide (0x0B10000 ≤ off) && decide (off < 0x0B30000)) || (decide (0x0B40000 ≤ off) && decide (off < 0x0BC0000))

/-- The headframe window's words beyond the first (R444). -/
def inWindow (off : Nat) : Bool := decide (0x0101000 ≤ off) && decide (off < 0x0102000)

/-- The manual defines a register at an aligned offset (R450). -/
def regExists (off : Nat) : Bool := inRing off || inWindow off || (regAt (canonOff off)).isSome

/-- The register belongs to a stack or port that is absent, or to a partition that is not defined: it reads as zero and ignores writes (R182, R302, R341). -/
def regAbsent (s : State) (off : Nat) : Bool :=
  (decide (0x0700000 ≤ off) && decide (off < 0x0800000) && decide (stackCount s ≤ (off - 0x0700000) / 0x20000)) ||
  (decide (0x0500000 ≤ off) && decide (off < 0x0504000) && decide (ports s ≤ (off - 0x0500000) / 0x1000)) ||
  (decide (0x0900000 ≤ off) && decide (off < 0x0904000) && !partDefined s ((off - 0x0900000) / 0x400))

/-- The debug level that gates a register (R413): 0 TRACE, 1 INJECT, 2 HF_INSPECT. -/
def gateOf (off : Nat) : Option Nat :=
  if 0x0C03000 ≤ off ∧ off < 0x0C04000 then some 1
  else if 0x0C00000 ≤ off ∧ off < 0x0C10000 then some 0
  else if off = HF_WIN_SEL ∨ (0x0101000 ≤ off ∧ off < 0x0102000) then some 2
  else none

/-- A debug level is open (R414). -/
def levelOpen (s : State) (k : Nat) : Bool := rf s SEC_DEBUG_STATUS 0 2 == 1 && nbit (rf s SEC_DEBUG_STATUS 2 4) k

def gateClosed (s : State) (off : Nat) : Bool := match gateOf off with | some k => !levelOpen s k | none => false

/-- The blocks that answer in each device state (R440). -/
def answers (s : State) (off : Nat) : Bool :=
  match devState s with
  | 0 => false
  | 1 => decide (off < 0x10000)
  | 6 => decide (off ∈ [GLOBAL_ID, GLOBAL_VERSION, GLOBAL_CAP0, GLOBAL_CAP1, GLOBAL_STATE, GLOBAL_RESET])
  | _ => true

/-- The accessor can reach its registers: the host port needs its link (R264, R429), the sideband PWRGOOD (R432). -/
def reaches (s : State) (a : Accessor) : Bool := match a with | .host => s.host.linkUp | .sideband => s.pins.pwrGood | _ => true

/-- A GLOBAL_ACCESS bit is set, with the first offset that set one while all were clear (R443). -/
def setAccess (s : State) (b off : Nat) : State :=
  let s := if rf s GLOBAL_ACCESS 0 3 = 0 then wr s GLOBAL_ACCESS_ADDR (BitVec.ofNat 32 (off % 2 ^ 26)) else s
  wf s GLOBAL_ACCESS b 1 1

/-! ## Values -/

/-- The count of a stack's ordinary operations held by a blast (R209). -/
def stackHeldOps (s : State) (n : Nat) : Bool :=
  s.mem.engines.any (fun e => e.1 / 64 == n && e.2.inflight.any (fun d => bankBusy s d.bank))

/-- The owner key in force (R408): the last one burnt. -/
def ownerHash (s : State) : BitVec 512 := (s.sec.owners.getLast?.map (·.1)).getD 0

/-- Registers whose value is other state: what the register at a (low) offset reads as. -/
def derived (s : State) (off : Nat) : Option Nat :=
  let stored := (rd s off).toNat
  if off = GLOBAL_STATE then some (putBits stored 0 3 (devState s))
  else if off = CF_STATUS then
    let un := sumNat ((List.range 16).map (fun p => if partDefined s p then ((List.range (partCount s p)).filter (fun i => unplaced s (partBase s p + i))).length else 0))
    some (s.cores.vmap.length % 8192 + un % 8192 * 8192)
  else if off = CF_VMAP then
    let v := rf s CF_VMAP_SEL 0 13
    some (match tfind s.cores.vmap v with
      | some p => (p - 1) / 68 + (p - 1) % 68 * 64
      | none => if (partOfCore s v).isSome then 8192 else 0)
  else if CF_CLUSTER 0 ≤ off ∧ off < CF_CLUSTER 64 then
    let c := (off - CF_CLUSTER 0) / 4
    let fenced := (s.cores.fenced.filter (fun p => p / 68 == c)).length
    let spares := (((inService s c).drop (coresPerCluster s)).filter (fun p => (servedBy s p).isNone)).length
    some (fenced + spares * 128)
  else if 0x0900000 ≤ off ∧ off < 0x0904000 ∧ off % 0x400 = 0 then
    some (putBits stored 2 1 (b2n (s.cores.preempted.any (fun v => isStepCore s ((off - 0x0900000) / 0x400) v && savedCore s v))))
  else if off = ERRLOG_RECOV then
    some (s.faults.running.foldl (fun a r => a + 2 ^ r.1) 0 + sumNat (s.faults.queued.map (fun q => q.2.length)) * 256)
  else if off = HF_SE_STATUS then
    some ((s.se.sessions.filter (fun x => x.2.slot)).length + (s.se.models.filter (fun m => mrState m.2.record == 2)).length * 65536)
  else if off = HF_SE_SESSIONS then some s.se.sessions.length
  else if off = HF_SE_KV_FREE then some (poolFld s pN - (slotsUsed s).length)
  else if HF_LSPLIT_XOVER 0 ≤ off ∧ off < HF_LSPLIT_XOVER 16 then
    let p := (off - HF_LSPLIT_XOVER 0) / 4
    some (if partDefined s p then crossover s p % 256 + b2n (decide (rd64 s PWR_ASSAY_LAST ≠ 0)) * 256 else 0)
  else if off = TWIN_STATE then
    some (putBits (putBits stored 3 1 (b2n s.pins.twinPresent)) 2 1 (b2n (decide (twinState s ≠ 0) && rf s (FAB_PORT_LINK 4) 2 8 == 0)))
  else if off = TWIN_MIRRORED then some s.twin.mirror.length
  else if off = TWIN_MIRROR_BYTES then some (mirrorBytes s)
  else if off = FAB_PEERS then some s.fab.peers.length
  else if off = TIME_NOW_CT then some (now s % 2 ^ 64)
  else if off = SEC_BOOT_STATUS then
    some (putBits (putBits stored 9 3 s.sec.owners.length) 12 1 (b2n ((s.sec.owners.getLast?.map (·.2)).getD true)))
  else if off = SEC_ROLLBACK then some (s.sec.floors.getD 0 0 + s.sec.floors.getD 1 0 * 256 + s.sec.floors.getD 2 0 * 65536)
  else if off = SEC_DEBUG_STATUS then some (putBits stored 10 1 (b2n s.flash.password.isSome))
  else if SEC_ROOT_HASH 0 ≤ off ∧ off < SEC_ROOT_HASH 16 then some (fld s.sec.rootHash (8 * (off - SEC_ROOT_HASH 0)) 32)
  else if SEC_OWNER_HASH 0 ≤ off ∧ off < SEC_OWNER_HASH 16 then some (fld (ownerHash s) (8 * (off - SEC_OWNER_HASH 0)) 32)
  else if SEC_DEVICE_KEY 0 ≤ off ∧ off < SEC_DEVICE_KEY 16 then some (fld s.sec.pubKey (8 * (off - SEC_DEVICE_KEY 0)) 32)
  else if off = TRACE_SEM_WAITER then
    some (match s.trace.waiters[rf s TRACE_SEM_WIDX 0 16]? with | some (t, _) => t.vcore % 8192 + t.thread % 8 * 8192 + 65536 | none => 0)
  else if off = TRACE_SEM_WAMOUNT then
    some (match s.trace.waiters[rf s TRACE_SEM_WIDX 0 16]? with | some (_, a) => a.toNat | none => 0)
  else if PWR_STK 0 ≤ off ∧ off < PWR_STK 8 then some (putBits stored 12 4 (tget s.nb.grant ((off - PWR_STK 0) / 4) 0))
  else if 0x0700000 ≤ off ∧ off < 0x0800000 then
    let n := (off - 0x0700000) / 0x20000
    if off = STK_NB_STATUS n then some (putBits (putBits stored 0 3 (progsOn s n).length) 4 1 (b2n (stackHeldOps s n)))
    else if off = STK_NB_GRANT n then some (256 * tget s.nb.grant n 0)
    else if off = STK_INFLIGHT n then some (stackInflight s n)
    else none
  else none

/-- The present value of a register, by its (low) offset. -/
def regValue (s : State) (r : RegRow) (off : Nat) : Nat := (derived s off).getD (if r.wide then (rd64 s off).toNat else (rd s off).toNat)

/-- The word at an offset of the register image (R436), without a read's effects. -/
def imageWord (s : State) (off : Nat) : Nat :=
  match regAt off with
  | some (r, _, _, high) => if high then regValue s r (off - 4) / 2 ^ 32 else regValue s r off % 2 ^ 32
  | none => 0

/-- `n` bytes of the register image from an offset. -/
def regImage (s : State) (base n : Nat) : List Byte := ((List.range (n / 4)).map (fun i => leBytes 4 (imageWord s (base + 4 * i)))).flatten

/-! ## Reads (R436, R437) -/

/-- A latch of an accessor is taken, replacing an earlier one, or released. -/
def setLatch (s : State) (a : Accessor) (off : Nat) (v : W32) : State :=
  let rest := s.bar.latch.filter (fun l => !(decide (l.1 = a) && l.2.1 == off))
  { s with bar := { s.bar with latch := (a, off, v) :: rest } }
def dropLatch (s : State) (a : Accessor) (off : Nat) : State :=
  { s with bar := { s.bar with latch := s.bar.latch.filter (fun l => !(decide (l.1 = a) && l.2.1 == off)) } }

/-- The counter is latched by a read of TIME_NOW_FRAC (R357). -/
def latchTime (s : State) : State :=
  let s := wr s TIME_NOW_FRAC (s.time.frac.setWidth 32)
  let s := wr s TIME_NOW_NS (BitVec.ofNat 32 s.time.ns)
  wr64 s TIME_NOW_SEC (s.time.sec.setWidth 64)

/-- One word of the error rings. -/
def ringWord (s : State) (off : Nat) : W32 :=
  if off < 0x0B40000 then
    let d := off - 0x0B10000
    BitVec.ofNat 32 (fld (tget s.faults.illRing (d / 32) 0) (8 * (d % 32)) 32)
  else
    let d := off - 0x0B40000
    BitVec.ofNat 32 (fld (tget s.faults.ring (d / 64) 0) (8 * (d % 64)) 32)

/-- An aligned word is read: what it returns, and the state. -/
def regReadWord (s : State) (a : Accessor) (off : Nat) : W32 × State :=
  if !regExists off then (0, s)
  else if gateClosed s off then (0, setAccess s 2 off)
  else if !answers s off || regAbsent s off then (0, s)
  else if inRing off then (ringWord s off, s)
  else if inWindow off then draw s 32
  else
    let off := canonOff off
    match regAt off with
    | none => (0, s)
    | some (r, _, _, high) =>
      if high then
        match s.bar.latch.find? (fun l => decide (l.1 = a) && l.2.1 == off - 4) with
        | some l => (l.2.2, dropLatch s a (off - 4))
        | none => (BitVec.ofNat 32 (regValue s r (off - 4) / 2 ^ 32), s)
      else
        let s := if off = TIME_NOW_FRAC then latchTime s else s
        let v := regValue s r off
        (BitVec.ofNat 32 v, if r.wide then setLatch s a off (BitVec.ofNat 32 (v / 2 ^ 32)) else s)

/-- A read of a word with the bytes `be` enabled (R436). -/
def regRead (s : State) (a : Accessor) (off : Nat) (be : BitVec 4) : W32 × State :=
  if be = 0 then (0, s)
  else if off % 4 ≠ 0 ∨ be ≠ 0xF then (0, if regExists (off / 4 * 4) && answers s GLOBAL_ACCESS then setAccess s 0 (off / 4 * 4) else s)
  else regReadWord s a off

/-! ## Writes with an effect of their own -/

/-- A snapshot of a semaphore (R150). -/
def semSnapshot (s : State) (w : W32) : State :=
  let n := fld w 0 16
  let x := getSem s n
  let s := wr s TRACE_SEM_SEL (BitVec.ofNat 32 n)
  let s := wr s TRACE_SEM_STATUS (pack 32 [(0, 16, x.waiters.length), (16, 1, 1), (17, 1, b2n x.saturated)])
  let s := wr64 s TRACE_SEM_VALUE x.value
  let s := wr s TRACE_SEM_LAST_SRC (pack 32 [(0, 3, x.source), (3, 3, x.sthread), (8, 13, x.agent)])
  let s := wr s TRACE_SEM_LAST_TAG x.tag
  let s := wr s TRACE_SEM_LAST_SUBTAG (x.subtag.setWidth 32)
  let s := wr64 s TRACE_SEM_LAST_TIME x.time
  { s with trace := { s.trace with waiters := x.waiters } }

/-- A history record is selected, 0 the newest, and copied to PWR_HISTw (R395, R400). -/
def histSelect (s : State) (w : W32) : State :=
  let i := fld w 0 12
  let rec? := s.flash.history.reverse[i]?
  let s := wr s PWR_HIST_SEL (pack 32 [(0, 12, i), (12, 1, b2n rec?.isSome)])
  iterate 64 (fun k s => wr s (PWR_HIST k) (BitVec.ofNat 32 (fld (rec?.getD 0) (32 * k) 32))) s

/-- TRACE_CTRL.STOP clears EN (R448). -/
def traceStop (s : State) : State := wf s TRACE_CTRL 0 1 0

/-- An injection's target is one that ARM accepts (R449). -/
def targetOk (s : State) (kind : Nat) (t : W64) : Bool :=
  match kind with
  | 1 => decide (t.toNat < memBytes s) && !inReserve s t.toNat
  | 2 => decide (t.toNat < memBytes s) && !inReserve s t.toNat
  | 3 => !unplaced s (fld t 0 13)
  | 4 => !unplaced s (fld t 0 13)
  | 5 => decide (fld t 0 9 < 64 * stackCount s)
  | 6 => decide (fld t 0 3 < ports s) || fld t 0 3 == 4
  | _ => false

/-- ARM (R449): the KIND and TARGET in force are armed, if none is and the target is one it accepts. -/
def armInjection (s : State) : State :=
  let kind := rf s TRACE_INJ_CTRL 0 4
  let t := rd64 s TRACE_INJ_TARGET
  if rf s TRACE_INJ_CTRL 5 1 = 1 ∨ !targetOk s kind t then s
  else { wf s TRACE_INJ_CTRL 5 1 1 with trace := { s.trace with armKind := kind, armTarget := t } }

/-- A full assay starts unless one runs (R393): `now` is its record's TIME. -/
def startAssay (s : State) : State :=
  if rf s PWR_STATUS 5 1 = 1 then s
  else { wf s PWR_STATUS 5 1 1 with pwr := { s.pwr with assayAt := BitVec.ofNat 64 (now s), assayStart := some (mono s) } }

/-- The RATE sum of a stack (`b` below 8) or port (8 + k) over the defined partitions, with `rate` in place of partition `p`'s; the others count with the
most of their definitions in force and waiting (R292, R302). -/
def rateSum (s : State) (p b rate : Nat) : Nat :=
  let word (x : PBlk) : W32 := if b < 8 then pbStk x b else pbPort x (b - 8)
  rate + sumNat ((otherParts s p).map (holdsMost s (fun x => fld (word x) 0 9)))

/-- A write of a regulator word is ignored as a whole (R302): a RATE sum above 256, or an absent stack or port. -/
def regulatorRefused (s : State) (off : Nat) (w : W32) : Bool :=
  let p := (off - 0x0900000) / 0x400
  let e := (off - 0x0900000) % 0x400
  let b := if e < 0x40 then (e - 0x20) / 4 else 8 + (e - 0x40) / 4
  (if b < 8 then decide (stackCount s ≤ b) else decide (ports s ≤ b - 8)) || decide (256 < rateSum s p b (fld w 0 9))

def isRegulator (off : Nat) : Bool :=
  decide (0x0900000 ≤ off) && decide (off < 0x0904000) && decide (0x20 ≤ off % 0x400) && decide (off % 0x400 < 0x50)

/-- The fields of a 32-bit register take a written word: RW fields through the register's own bounds, W1C fields cleared where the word has a 1. -/
def fieldWrite (s : State) (r : RegRow) (off : Nat) (mask : Nat) (w : W32) : State :=
  let old := rd s off
  let m : W32 := BitVec.ofNat 32 mask
  let c : W32 := BitVec.ofNat 32 r.w1c
  let v : W32 := BitVec.ofNat 32 (r.fix (old &&& m).toNat (w &&& m).toNat)
  wr s off (((old &&& ~~~m) ||| (v &&& m)) &&& ~~~(c &&& w))

/-- A programme of the aperture runs (R208). -/
def aptRuns (s : State) : Bool := s.nb.programs.any (fun p => decide (p.owner = .aperture))

/-- A 32-bit register is written, by an access to the offset `seen` (R209, R443). -/
def regPut (s : State) (r : RegRow) (off seen : Nat) (w : W32) : State :=
  if off = GLOBAL_AQ_CFG then aqWrite s w
  else if off = TRACE_SEM_SEL then semSnapshot s w
  else if off = PWR_HIST_SEL then histSelect s w
  else if off = TRACE_CTRL then (if bit w 3 then traceStop s else s)
  else if off = TRACE_INJ_CTRL then let s := fieldWrite s r off r.rw w; if bit w 4 then armInjection s else s
  else if off = PWR_ASSAY_CFG then let s := fieldWrite s r off r.rw w; if bit w 8 then startAssay s else s
  else if off = STK_APT_CTRL 0 then (if aptRuns s then s else fieldWrite s r off r.rw w)
  else if isRegulator off then (if regulatorRefused s off w then s else fieldWrite s r off r.rw w)
  else if r.rwl ≠ 0 then (if rf s (STK_MAP_LOCK 0) 0 1 = 1 then setAccess s 1 seen else fieldWrite s r off r.rwl w)
  else fieldWrite s r off r.rw w

/-! ## Writes (R436, R438 to R440) -/

/-- An aligned word is written. A 64-bit register changes when its high word is written. -/
def regWriteWord (s : State) (off : Nat) (w : W32) : State :=
  if !regExists off then s
  else if gateClosed s off then setAccess s 2 off
  else if !answers s off || regAbsent s off || inRing off || inWindow off then s
  else
    let seen := off
    let off := canonOff off
    match regAt off with
    | none => s
    | some (r, _, _, high) =>
      if !r.wide then regPut s r off seen w
      else if r.rw = 0 then s
      else if high then
        let lo := (tfind s.bar.pendLow (off - 4)).getD (BitVec.ofNat 32 (rd64 s (off - 4)).toNat)
        let s := wr64 s (off - 4) (BitVec.ofNat 64 (lo.toNat + w.toNat * 2 ^ 32))
        { s with bar := { s.bar with pendLow := tdel s.bar.pendLow (off - 4) } }
      else { s with bar := { s.bar with pendLow := tput s.bar.pendLow off w } }

/-- A write of a word with the bytes `be` enabled. -/
def regWrite (s : State) (off : Nat) (be : BitVec 4) (w : W32) : State :=
  if be = 0 then s
  else if off % 4 ≠ 0 ∨ be ≠ 0xF then (if regExists (off / 4 * 4) && answers s GLOBAL_ACCESS then setAccess s 0 (off / 4 * 4) else s)
  else regWriteWord s off w

/-! ## Temperatures (R387) and the sideband (R432) -/

/-- The highest of some readings and where it lies, the first of equals. -/
def hottest (xs : List Int) : Int × Nat :=
  (xs.zip (List.range xs.length)).foldl (fun a x => if a.1 < x.1 then x else a) (xs.headD 0, 0)

/-- The die temperature (R387). -/
def dieTemp (t : Temps) : Int := (hottest t.clusters).1
/-- The stack temperature (R387): the highest of the base die's four readings. -/
def stackTemp (t : Temps) (k : Nat) : Int := (hottest ((t.stackTemps.drop (4 * k)).take 4)).1

/-- The hottest stack's temperature. -/
def hottestStack (s : State) (t : Temps) : Int := (hottest ((List.range (stackCount s)).map (stackTemp t))).1

/-- A register of the sideband, by its offset (R432): what a read of it returns. A command on the sideband is one step, so BUSY reads 0. -/
def sbRead (s : State) (off : Nat) : W32 :=
  match off with
  | 0x00 => if storedState s = 1 ∧ rf s GLOBAL_STATE 8 8 ≤ 1 then 0 else rd s GLOBAL_CAP0
  | 0x04 => BitVec.ofNat 32 (imageWord s GLOBAL_STATE)
  | 0x08 => pack 32 [(0, 16, toCode 16 (dieTemp s.pwr.temps)), (16, 16, toCode 16 (hottestStack s s.pwr.temps))]
  | 0x0C => pack 32 [(0, 16, rf s PWR_IN 0 16), (16, 16, rf s PWR_IN 16 16 / 10)]
  | 0x10 => BitVec.ofNat 32 (rf s PWR_BOARD_CAP 0 12)
  | 0x14 => BitVec.ofNat 32 (rf s PWR_STATUS 0 7)
  | 0x20 => BitVec.ofNat 32 s.pins.rcvKind
  | 0x28 => s.pins.rcvStatus
  | _ => 0

/-- SB_BOARD_CAP takes a word (R382): the board's cap, within its limits. -/
def boardCap (s : State) (w : W32) : State := wr s PWR_BOARD_CAP (BitVec.ofNat 32 (max 1200 (min 2600 (fld w 0 12))))

/-- SB_RCV_CTRL's KIND takes its bits; a download of another kind no longer runs. -/
def rcvKindPut (s : State) (w : W32) : State :=
  let k := fld w 0 2
  { s with pins := { s.pins with rcvKind := k, rcvStarted := s.pins.rcvStarted && s.pins.rcvKind == k } }

/-- A write over the sideband of a register without a row of its own (R432): KIND alone; START and COMMIT are rows of their own. -/
def sbWrite (s : State) (off : Nat) (w : W32) : State :=
  match off with
  | 0x10 => boardCap s w
  | 0x20 => if bit w 2 || bit w 3 then s else rcvKindPut s w
  | _ => s

/-! ## Rows -/

/-- What a read returned is kept as the last word read. -/
def returned (x : W32 × State) : State := { x.2 with bar := { x.2.bar with rdata := x.1 } }

/-- REGISTER_WRITE (R432, R436, R438 to R440). -/
def execRegisterWrite (a : Accessor) (off : Nat) (be : BitVec 4) (w : W32) (s : State) : Res :=
  .next (if !reaches s a then s else if a = .sideband then (if be = 0xF then sbWrite s off w else s) else regWrite s off be w)

/-- LOW_WORD_READ (R437): a read of a word that is not a high word; any 32-bit register is read so too, the sideband's among them (R432). A read that
is not of an aligned word is a partial one (R436; log entry 82, DESIGN CHOICE). -/
def execLowWordRead (a : Accessor) (off : Nat) (s : State) : Res :=
  let high := match regAt (canonOff off) with | some (_, _, _, h) => h | none => false
  .next (if !reaches s a then s else if a = .sideband then returned (sbRead s off, s) else if !high then returned (regRead s a off 0xF) else s)

/-- HIGH_WORD_READ (R437). -/
def execHighWordRead (a : Accessor) (off : Nat) (s : State) : Res :=
  let high := match regAt (canonOff off) with | some (_, _, _, h) => h | none => false
  .next (if reaches s a && high && decide (a ≠ .sideband) then returned (regRead s a off 0xF) else s)

/-- TIME_NOW_FRAC (R357): a read that latches the counter. -/
def execTimeNowFrac (a : Accessor) (s : State) : Res := .next (if reaches s a then returned (regRead s a TIME_NOW_FRAC 0xF) else s)

/-- TRACE_SEM_SEL (R150): a write that takes a snapshot. -/
def execTraceSemSel (a : Accessor) (w : W32) (s : State) : Res := .next (if reaches s a then regWrite s TRACE_SEM_SEL 0xF w else s)

/-- PWR_HIST_SEL (R400): a write that copies a history record. -/
def execPwrHistSel (a : Accessor) (w : W32) (s : State) : Res := .next (if reaches s a then regWrite s PWR_HIST_SEL 0xF w else s)

/-- STOP (R448): a write of 1 to TRACE_CTRL.STOP. -/
def execStop (a : Accessor) (s : State) : Res := .next (if reaches s a then regWrite s TRACE_CTRL 0xF 8 else s)

/-- ARM (R449): a write of TRACE_INJ_CTRL with a 1 in ARM. -/
def execArm (a : Accessor) (w : W32) (s : State) : Res := .next (if reaches s a && bit w 4 then regWrite s TRACE_INJ_CTRL 0xF w else s)

/-- RUN (R393): a write of PWR_ASSAY_CFG with a 1 in RUN. -/
def execRun (a : Accessor) (w : W32) (s : State) : Res := .next (if reaches s a && bit w 8 then regWrite s PWR_ASSAY_CFG 0xF w else s)

/-- One bit of each of `n` bytes of a sector in DRAM is inverted, and the home slice drops its copy of the line (R449). Which bytes and bits is a
free choice, the bytes different. -/
def corruptSector (s : State) (a n : Nat) : State :=
  let s := evictLine s (a / 64)
  let s := drainWrites s (homeSlice s a)
  let secs := match viewOf s (a / 32 * 32) with
    | some (r, v) => ((List.range 32).map (fun i => (viewByte s r (v + i)).sectors)).flatten.eraseDups
    | none => [(mapLin s a).sector]
  match secs with
  | [] => s
  | sec :: _ =>
    let (i, s) := drawBelow s 32
    let (k, s) := drawBelow s 8
    let (d, s) := drawBelow s 31
    let (m, s) := drawBelow s 8
    let e := secErr s sec
    let flips := if n = 1 then [(i, (1 : Byte) <<< k)] else [(i, (1 : Byte) <<< k), ((i + 1 + d) % 32, (1 : Byte) <<< m)]
    if e.poison then s else setSecErr s sec { e with flips := flips }

/-- INJECTION_FIRE (R449): the armed injection takes effect; ARMED clears and FIRED sets. -/
def execInjectionFire (s : State) : Res :=
  if rf s TRACE_INJ_CTRL 5 1 = 0 then .next s
  else
    let k := s.trace.armKind
    let t := s.trace.armTarget
    let s := wf (wf s TRACE_INJ_CTRL 5 1 0) TRACE_INJ_CTRL 6 1 1
    let s := wr { s with trace := { s.trace with firedKind := k } } TRACE_INJ_SEQ 0
    let word := 16384 * fld t 0 13 + fld t 16 14
    .next (match k with
      | 1 => corruptSector s t.toNat 1
      | 2 => corruptSector s t.toNat 2
      | 3 => { s with trace := { s.trace with sram := (word, false) :: s.trace.sram } }
      | 4 => { s with trace := { s.trace with sram := (word, true) :: s.trace.sram } }
      | 5 => urgentTrigger s (fld t 0 9) 1 false
      | _ => { s with fab := { s.fab with dropNext := tset s.fab.dropNext (fld t 0 3) (rf s TRACE_INJ_CTRL 8 8) 0 } })

end Sys2Proof.Machine
end

