-- ==== Sys2Proof/Machine/BootOps.lean ====
section
/-! DEFINITION. What a reset and a loss of power leave (R25, R430), the firmware images (R403 to R406), and the shutdown of R391. -/
namespace Sys2Proof.Machine

/-! ## Images (R403, R404) -/

/-- `n` bytes of a byte string from byte `b`, as a number. -/
def bytesAt (bs : List Byte) (b n : Nat) : Nat := leNat ((bs.drop b).take n)

def imgBody (bs : List Byte) : List Byte := (bs.drop 32768).take (bytesAt bs 16 4)
def imgOwner (bs : List Byte) : Bool := nbit (bytesAt bs 5 1) 0
def imgVersion (bs : List Byte) : Nat := bytesAt bs 8 4
def imgSvn (bs : List Byte) : Nat := bytesAt bs 12 1

/-- The digest of the owner key that images are judged by: the one in force at the last BOOT (R408). -/
def bootOwner (s : State) : Option (BitVec 512) := if s.sec.bootGen = 0 then none else (s.sec.owners[s.sec.bootGen - 1]?).map (·.1)

/-- The first rule of R404 that an image breaks, as R406's detail: 0x91 form, kind or body, 0x92 key or signature, 0x93 version. -/
def imgFault (s : State) (kind : Nat) (bs : List Byte) : Option Nat :=
  let key := bytesAt bs 128 64
  let form := bytesAt bs 0 4 == 0x5746474E && bytesAt bs 4 1 == kind && bytesAt bs 5 1 / 2 == 0 && bytesAt bs 6 2 == 0 && bytesAt bs 13 3 == 0 &&
    bytesAt bs 20 44 == 0 && bytesAt bs 29984 2784 == 0 && decide (1 ≤ bytesAt bs 16 4) && decide (bytesAt bs 16 4 ≤ 16777216) &&
    decide (imgSvn bs ≤ 64) && decide (32768 + bytesAt bs 16 4 ≤ bs.length) && decide (BitVec.ofNat 512 (bytesAt bs 64 64) = digest (imgBody bs))
  let signer := if imgOwner bs then decide (bootOwner s = some (digest (leBytes 64 key))) else decide (digest (leBytes 64 key) = s.sec.rootHash)
  if !form then some 0x91
  else if !signer || !signedBy bs (BitVec.ofNat 512 key) then some 0x92
  else if imgSvn bs < s.sec.floors.getD kind 0 then some 0x93
  else none

/-- The image in a slot, if it has been committed (R26). -/
def slotImage (s : State) (kind slot : Nat) : Option (Nat × List Byte) :=
  match tfind s.flash.images (2 * kind + slot) with
  | some i => i.committed.map (fun n => (n, i.bytes))
  | none => none

/-- The order in which BOOT tries a kind's slots (R405): the one committed last, then the other. -/
def slotOrder (s : State) (kind : Nat) : List Nat :=
  match slotImage s kind 0, slotImage s kind 1 with
  | some (a, _), some (b, _) => if a < b then [1, 0] else [0, 1]
  | some _, none => [0]
  | none, some _ => [1]
  | none, none => []

/-- The slot that a kind runs from, the first valid one. -/
def bootSlot (s : State) (kind : Nat) : Option Nat :=
  (slotOrder s kind).find? (fun k => match slotImage s kind k with | some (_, bs) => (imgFault s kind bs).isNone | none => false)

/-- The image that a kind runs: SEC_BOOT_STATUS names its slot. -/
def runningImage (s : State) (kind : Nat) : List Byte :=
  match slotImage s kind (rf s SEC_BOOT_STATUS kind 1) with
  | some (_, bs) => bs
  | none => []

/-- A kind is verified at BOOT (R405): each rejected slot is logged, the first valid one runs, and without one NO_IMAGE shows the kind. -/
def verifyKind (s : State) (kind : Nat) : State :=
  let bad := (slotOrder s kind).takeWhile (fun k => bootSlot s kind != some k)
  let found := bootSlot s kind
  let s := bad.foldl (fun s _ => logErr s { cls := 0x60, loc := kind, detail := 0 }) s
  match found with
  | some k =>
    let s := wf s SEC_BOOT_STATUS kind 1 k
    wf (wf s SEC_BOOT_STATUS (3 + kind) 1 (b2n (imgOwner (runningImage s kind)))) SEC_BOOT_STATUS (6 + kind) 1 0
  | none => wf s SEC_BOOT_STATUS (6 + kind) 1 1

/-! ## What a reset keeps -/

/-- Tallies (R355): the 64-bit counts. A partition's are those of its definition and go with it. -/
def isTally (off : Nat) : Bool :=
  match regFind regRows off with
  | none => false
  | some (r, _, _) => r.wide && r.rw == 0 && !decide (r.base ∈ [TRACE_SEM_VALUE, TRACE_SEM_LAST_TIME, TRACE_SEM_WAMOUNT, TIME_NOW_SEC, TIME_NOW_CT,
      HF_SE_STEP 0, PART_CLUSTERS 0, PART_IDX_SKIPPED 0, PART_ILL_SKIPPED 0, PART_CVT_FLAGGED 0, PART_PREEMPT_COUNT 0, TWIN_MIRROR_BYTES,
      TWIN_LAST_HB, PWR_ASSAY_LAST, SEC_DEBUG_EXPIRY, TRACE_BUF_BASE])

/-- The 32-bit registers that a reset with the rails up leaves (log entry 53, DEDUCED): the tallies' WRAPPED bits, the write positions of the logs, and
PWR_BOARD_CAP (R430). -/
def keptReg (off : Nat) : Bool :=
  decide (off ∈ [ERRLOG_WPTR, ERRLOG_ILL_WPTR, PWR_BOARD_CAP]) ||
  (match regFind regRows off with
   | none => false
   | some (r, _, _) => decide (r.w1c ≠ 0) && r.rw == 0 &&
       !decide (r.base ∈ [GLOBAL_ACCESS, STK_NB_STATUS 0, PWR_STATUS, PART_TALLY_STATUS 0]))

/-- Flash after a loss of power: records whose commit word was never written are ignored (R26, R431). -/
def settledFlash (f : Flash) : Flash := { f with images := f.images.filter (fun i => i.2.committed.isSome), writing := [] }

/-- A loss of power (R25): the module is as manufactured but for its fuses and flash; what it sent before stays sent. -/
def powerLost (s : State) : State :=
  { State.reset with
    grade := s.grade
    fresh := s.fresh + 16777216
    nb := { NearBank.reset with bufSeed := (List.range 8).map (fun k => (k, s.fresh)) }
    host := { HostPort.reset with mem := s.host.mem, msix := s.host.msix }
    fab := { Fabric.reset with tx := s.fab.tx }
    sec := { Security.reset with rootHash := s.sec.rootHash, secret := s.sec.secret, owners := s.sec.owners, floors := s.sec.floors }
    flash := settledFlash s.flash
    pins := { Pins.reset with vinMv := s.pins.vinMv, pwrEn := s.pins.pwrEn, holdOff := s.pins.holdOff, roseInHold := s.pins.roseInHold,
                              twinPresent := s.pins.twinPresent, perstLow := s.pins.perstLow }
    pending := s.pending }

/-- The rails are off: state OFF (R274, R422). -/
def railsOff (s : State) : State :=
  let s := powerLost s
  let s := { s with pins := { s.pins with pwrGood := false, rails := false, resetLow := true, holdOff := true } }
  wr s GLOBAL_STATE 0

/-- The rails come up (R426): PWRGOOD rises, and the board holds RESET_N and PERST_N low. -/
def railsUp (s : State) (vinMv : Nat) : State :=
  let s := powerLost s
  { s with pins := { s.pins with vinMv := vinMv, pwrEn := true, resetLow := true, perstLow := true, roseInHold := false, holdOff := false } }

/-- The registers after a reset with the rails up, CAUSE as given. -/
def Bar.afterReset (s : State) (cause : Nat) : Bar :=
  let regs := s.bar.regs.filter (fun r => keptReg r.1)
  let mul := (List.range 8).filterMap (fun i =>
    let m := rf s (PWR_STK i) 16 2
    if m = 0 then none else some (PWR_STK i, BitVec.ofNat 32 (65536 * m)))
  { Bar.reset with
    regs := tset (mul.foldl (fun t p => tput t p.1 p.2) regs) GLOBAL_RESET (BitVec.ofNat 32 cause) 0
    regs64 := s.bar.regs64.filter (fun r => isTally r.1) }

/-- A reset of the N8 with its rails up (R430): 1 RESET_N, 2 DEVICE_RESET, 3 device recovery. The error logs, the tallies and PWR_BOARD_CAP stay;
the time counter, the TCXO state and the host link stay except at RESET_N. -/
def resetAll (s : State) (cause : Nat) : State :=
  let keep := cause ≠ 1
  let p := powerLost s
  { p with
    bar := Bar.afterReset s cause
    time := if keep then { TimeSt.reset with
        sec := s.time.sec, ns := s.time.ns, frac := s.time.frac, acc := s.time.acc, cycles := s.time.cycles, comp := s.time.comp
        servo := s.time.servo, tracedOnce := s.time.tracedOnce, secKnown := s.time.secKnown, ageing := s.time.ageing } else { TimeSt.reset with cycles := s.time.cycles }
    host := { p.host with linkUp := keep && s.host.linkUp, config := if keep then s.host.config else [] }
    flash := { p.flash with writing := s.flash.writing }
    faults := { Faults.reset with ring := s.faults.ring, illRing := s.faults.illRing, unflashed := s.faults.unflashed }
    pwr := { Power.reset with tcxo := if keep then s.pwr.tcxo else 0, assayStart := s.pwr.assayStart, firstAssay := s.pwr.firstAssay }
    pins := { s.pins with alert := false, ppsOut := false, clk10m := false, rcvKind := 0, rcvStarted := false, rcvStatus := 0,
                          bootStart := mono s } }

/-- The reset's rate adjustment: ρ goes on as before (R430). -/
def resetKeepingTime (s : State) (cause : Nat) : State :=
  let adj := rd s TIME_ADJ
  let temp := rd s TIME_TCXO
  wr (wr (resetAll s cause) TIME_ADJ adj) TIME_TCXO temp

/-- The handoff notice of R378, when PAIRED. -/
def handOff (s : State) (tag : Nat := 0) : State :=
  if twinState s = 2 then logErr (twinSend s 1 .none) { cls := 0x41, tag := tag, loc := twinNode s, detail := 6 } else s

/-- The reset that DEVICE_RESET and a device recovery run (R430). A recovery has sent its handoff at its start (R363); an assay that runs ends incomplete
(R394). -/
def deviceReset (s : State) (cause : Nat) (tag : Nat := 0) : State := 
  let s := if cause = 2 then handOff s tag else s
  resetKeepingTime (if rf s PWR_STATUS 5 1 = 1 then logErr s { cls := 0x52, detail := 5 } else s) cause

/-! ## Temperatures and shutdown (R387, R388, R391) -/

/-- The sensor at a shutdown level, with its reading: die 110 °C, stack 100 °C (R388). -/
def shutdownAt (s : State) (t : Temps) : Option (Nat × Int) :=
  let (d, c) := hottest t.clusters
  if 1760 ≤ d then some (c, d)
  else
    let (k, i) := hottest (t.stackTemps.take (4 * stackCount s))
    if 1600 ≤ k then some (64 + i, k) else none

/-- Every reading lies below its release level: die 100 °C, stack 90 °C. -/
def shutdownReleased (s : State) (t : Temps) : Bool :=
  decide ((hottest t.clusters).1 < 1600) && decide ((hottest (t.stackTemps.take (4 * stackCount s))).1 < 1440)

/-- THERMAL_SHUTDOWN (R391): THERMTRIP_N, the handoff, and the loss of all that the stopped clocks and rails held. An assay that runs ends
incomplete (R394). -/
def thermalShutdown (s : State) (sensor : Nat) (temp : Int) : State :=
  let s := logErr s { cls := 0x50, loc := sensor, detail := 4, ex0 := toCode 32 temp }
  let s := if rf s PWR_STATUS 5 1 = 1 then logErr (wf s PWR_STATUS 5 1 0) { cls := 0x52, detail := 5 } else s
  let s := handOff s
  let s := { s with
    mem := Mem.reset, cores := Cores.reset, sems := [], hoists := Hoists.reset, nb := NearBank.reset, parts := [], se := Serving.reset
    host := { HostPort.reset with mem := s.host.mem, msix := s.host.msix, linkUp := s.host.linkUp }
    fab := { Fabric.reset with tx := s.fab.tx }
    faults := { Faults.reset with ring := s.faults.ring, illRing := s.faults.illRing, unflashed := s.faults.unflashed }
    twin := Twin.reset
    pins := { s.pins with thermtrip := true } }
  wr s GLOBAL_STATE 6

/-- The hardware compare of R388's shutdown levels (R426), and the release of THERMTRIP_N. -/
def shutdownCompare (s : State) (t : Temps) : State :=
  if !s.pins.pwrGood then s
  else if storedState s = 6 then (if shutdownReleased s t then { s with pins := { s.pins with thermtrip := false } } else s)
  else match shutdownAt s t with
    | some (sensor, temp) => thermalShutdown s sensor temp
    | none => s

end Sys2Proof.Machine
end

