-- ==== Sys2Proof/Machine/BootRows.lean ====
section
/-! DEFINITION. Power, resets, BOOT and the sideband (R382, R420 to R434), and the command DEVICE_RESET and IDENTIFY. -/
namespace Sys2Proof.Machine

/-! ## Power (R420 to R422, R426) -/

/-- The operating range of the input (R420). -/
def vinOk (mv : Nat) : Bool := decide (32000 ≤ mv) && decide (mv ≤ 40000)

/-- POWER_UP (R422, R426, R430): PWR_EN rises with the input at `vinMv`. Within the hold-off it waits for the hold-off's end. -/
def execPowerUp (vinMv : Nat) (s : State) : Res :=
  if s.pins.pwrEn then .next s
  else
    let s := { s with pins := { s.pins with pwrEn := true, vinMv := vinMv } }
    if s.pins.holdOff then .next { s with pins := { s.pins with roseInHold := true } }
    else if vinOk vinMv then .next (railsUp s vinMv)
    else .next s

/-- PWR_EN_FALL (R422): the handoff if PAIRED, then PWRGOOD and the rails go. -/
def execPwrEnFall (s : State) : Res :=
  if !s.pins.rails then .next { s with pins := { s.pins with pwrEn := false, roseInHold := false } }
  else
    let s := railsOff (if devState s = 1 then s else handOff s)
    .next { s with pins := { s.pins with pwrEn := false, roseInHold := false } }

/-- BROWNOUT (R421): the input stayed below 31.0 V; as a power loss, with no handoff. -/
def execBrownout (s : State) : Res := .next (if s.pins.rails then railsOff s else s)

/-- OVERVOLTAGE (R421): the input stayed above 41.5 V; the converters are disconnected. -/
def execOvervoltage (s : State) : Res := .next (if s.pins.rails then railsOff s else s)

/-- PWR_EN_HOLD_OFF_END (R422): 100 ms have passed since PWRGOOD fell; a rise within them acts if PWR_EN is still high. -/
def execPwrEnHoldOffEnd (s : State) : Res :=
  if !s.pins.holdOff then .next s
  else
    let rise := s.pins.roseInHold && s.pins.pwrEn && vinOk s.pins.vinMv
    let s := { s with pins := { s.pins with holdOff := false, roseInHold := false } }
    .next (if rise then railsUp s s.pins.vinMv else s)

/-! ## Resets (R426, R430) -/

/-- RESET_N (R430): the N8 stops and is held; in THERMAL_SHUTDOWN it has no effect. -/
def execResetN (s : State) : Res :=
  if !s.pins.rails ∨ s.pins.resetLow ∨ storedState s = 6 then .next s
  else
    let s := resetAll s 1
    .next { s with pins := { s.pins with resetLow := true } }

/-- RESET_N_RELEASE (R426): the time counter starts and phase 0x01 begins; the link comes up once both resets are released. -/
def execResetNRelease (s : State) : Res :=
  if !s.pins.rails ∨ !s.pins.resetLow then .next s
  else .next { s with pins := { s.pins with resetLow := false, bootStart := mono s }, host := { s.host with linkUp := !s.pins.perstLow } }

/-- PERST_N_RELEASE (R426): the host link comes up once both resets are released. -/
def execPerstNRelease (s : State) : Res :=
  if !s.pins.rails ∨ !s.pins.perstLow then .next s
  else .next { s with pins := { s.pins with perstLow := false }, host := { s.host with linkUp := !s.pins.resetLow } }

/-- DEVICE_RESET (R278, R430): no status entry is written. -/
def execDeviceReset (id : Nat) (s : State) : Res :=
  .next (runCmd s id 0x0008 fun s c => checked s c (checks s c [] false [] [] [] false) fun s => deviceReset s 2 (cmdTag c))

/-! ## BOOT (R427, R428) -/

/-- BOOT halts (R428). -/
def haltBoot (s : State) (code detail : Nat) : State := wf (wf s GLOBAL_STATE 16 8 code) GLOBAL_STATE 24 8 detail

/-- The kinds with no valid image, as HALT's detail: those of the kinds named. -/
def noImage (s : State) (kinds : List Nat) : Nat := (kinds.filter (fun k => rf s SEC_BOOT_STATUS (6 + k) 1 == 1)).foldl (fun a k => a + 2 ^ k) 0

/-- Phase 0x01 (R427): FW_SEC is verified, the fuses loaded, the device key derived, the epoch drawn, never 0 (R324). -/
def phaseRom (s : State) : State :=
  let gen := s.sec.owners.length
  let s := { s with sec := { s.sec with pubKey := deviceKey s.sec.secret, bootGen := gen } }
  let (e, s) := draw s 16
  verifyKind (wf s FAB_NODE 16 16 (e.toNat % 65535 + 1)) 2

/-- Phase 0x02: FW_HF and FW_NB are verified. -/
def phaseFirmware (s : State) : State :=
  let s := verifyKind (verifyKind s 0) 1
  wr s HF_FW (BitVec.ofNat 32 (imgVersion (runningImage s 0)))

/-- Phase 0x03: the records that were being written when the reset came are committed, and the committed records are read (R26); the masks are loaded and MAP_LOCK taken (R182). -/
def phaseRecords (s : State) : State :=
  let s := { s with flash := s.flash.commitAll }
  let offs := (List.range 9).map (STK_MAP_SEL 0) ++ (List.range 3).map (STK_MAP_BANK 0) ++ (List.range 2).map (STK_MAP_SID 0) ++
    (List.range 9).map (STK_PMAP_SEL 0) ++ (List.range 3).map (STK_PMAP_BANK 0) ++ (List.range 2).map (STK_PMAP_SID 0)
  let s := (offs.zip s.flash.masks).foldl (fun s p => wr s p.1 p.2) s
  wf { s with pwr := { s.pwr with cals := s.flash.cals, calMax := [] } } (STK_MAP_LOCK 0) 0 1 1

/-- Phase 0x04: the remap lists are loaded (R177) and TRAINED is set. -/
def phaseStacks (s : State) : State :=
  let maps : Tab (List Nat) := s.flash.remaps.foldl (fun t x => tput t x.1 (tget t x.1 [] ++ [x.2])) []
  let s := { s with mem := { s.mem with remaps := maps } }
  iterate (stackCount s) (fun k s =>
    let used := (maps.filter (fun x => x.1 / 2048 == k)).foldl (fun a x => max a x.2.length) 0
    let s := wf (wf s (STK_STATUS k) 1 1 1) (STK_SPARES_MIN k) 0 6 (32 - used)
    if used = 32 then wf s (STK_STATUS k) 6 1 1 else s) s

/-- Phase 0x05: every sector reads zero with valid check bytes, the home slices are empty, the semaphores zero, every row set LINEAR. -/
def phaseClear (s : State) : State :=
  { s with mem := { s.mem with dram := [], discarded := [], touched := [], ecc := [], lines := [], lru := [], regions := [], noAlloc := [] }, sems := [] }

/-- Phase 0x06: the cores that fail the self-test are fenced (R367), then the listed cores are fenced again. -/
def phaseCores (s : State) (fails : List Nat) : State :=
  let list := s.flash.fence
  let s := fails.foldl (fun s p => if p < 68 * 64 then fenceCore s p 0 else s) s
  { s with cores := { s.cores with fenced := s.cores.fenced ++ list.filter (fun p => decide (p ∉ s.cores.fenced)) } }

/-- The highest frequency step whose voltage is at most VMAX, 850 mV (R394). -/
def fmaxOf (vf : List Nat) : Nat :=
  2400 + 50 * ((List.range (min 33 vf.length)).filter (fun i => decide (vf.getD i 0 ≤ 850))).foldl max 0

/-- The conditions the V/F record is taken under now (R396). -/
def condNow (s : State) : CalCond := { temps := [dieTemp s.pwr.temps], watts := s.pwr.meas.pIn / 1000, droop := s.pwr.meas.droopMv }

/-- A new record replaces the one in force (R397); the one with the highest load since the last full assay is kept for flash. -/
def noteCal (s : State) (kind : Nat) (r : CalRec) : State :=
  let keep := match tfind s.pwr.calMax kind with | some o => decide (o.cond.watts ≤ r.cond.watts) | none => true
  { s with pwr := { s.pwr with cals := tput s.pwr.cals kind r, calMax := if keep then tput s.pwr.calMax kind r else s.pwr.calMax } }

/-- PWR_FMAX as an assay finds it; a lower one is logged (R394). -/
def setFmax (s : State) (new : Nat) : State :=
  let old := rf s PWR_FMAX 0 13
  let s := wr s PWR_FMAX (BitVec.ofNat 32 new)
  if new < old then logErr s { cls := 0x52, detail := 1, ex0 := new } else s

/-- Phase 0x07: the short assay's V/F table, each voltage with VMARGIN, 25 mV (R393, R394). -/
def phaseAssay (s : State) (vf : List Nat) : State :=
  let vf := vf.map (· + 25)
  setFmax (noteCal s 0 { cond := condNow s, vals := vf }) (fmaxOf vf)

/-- Partition 0's definition at the end of BOOT (R293). -/
def defaultBlock (s : State) : PBlk :=
  let word := 256 + 512 + 65536 * 64
  pack 1024 ([(0, 64, 2 ^ 64 - 1), (80, 13, gradeCores s), (96, 8, 64), (112, 15, 16384), (576, 8, 255), (584, 3, 4), (592, 16, 1000)] ++
    (List.range 8).map (fun i => (192 + 32 * i, 32, word)) ++ (List.range 4).map (fun k => (448 + 32 * k, 32, word)) ++
    (List.range 8).map (fun i => (640 + 16 * i, 16, 0xFFFF)))

/-- The first READY raises the rollback floors to the running images' SVN (R405). -/
def raiseFloors (s : State) : State :=
  let fl := (List.range 3).map (fun k => max (s.sec.floors.getD k 0) (imgSvn (runningImage s k)))
  if s.sec.firstReady then s else { s with sec := { s.sec with floors := fl, firstReady := true } }

/-- Phase 0x08: partition 0 is defined and the device is READY, or DEGRADED while R362 says so. -/
def phaseServices (s : State) : State :=
  let s := applyBlock { s with se := Serving.reset } 0 (defaultBlock s)
  let spares := (List.range (stackCount s)).any (fun k => rf s (STK_STATUS k) 6 1 == 1)
  let bad := anyUnplaced s || spares
  let s := wr (wr s GLOBAL_STATE (if bad then 4 else 2)) GLOBAL_BOOT_US (BitVec.ofNat 32 ((mono s - s.pins.bootStart) / 1000))
  if bad then s else raiseFloors s

/-- BOOT_PHASE (R427, R428): the present phase ends, and the next begins or BOOT halts. -/
def execBootPhase (r : BootReport) (s : State) : Res :=
  let ph := rf s GLOBAL_STATE 8 8
  let go (s : State) : State := wf s GLOBAL_STATE 8 8 (ph + 1)
  if !s.pins.rails ∨ s.pins.resetLow ∨ storedState s ≠ 1 ∨ rf s GLOBAL_STATE 16 8 ≠ 0 then .next s
  else .next (match ph with
    | 1 => let s := phaseRom s; if noImage s [2] ≠ 0 then haltBoot s 1 (noImage s [2]) else go s
    | 2 => let s := phaseFirmware s; if noImage s [0, 1] ≠ 0 then haltBoot s 1 (noImage s [0, 1]) else go s
    | 3 => match s.flash.missing with
      | k :: _ => haltBoot s 2 k
      | [] => go (phaseRecords s)
    | 4 => match r.trainFailed with
      | some k => if k < stackCount s then haltBoot s 3 k else go (phaseStacks s)
      | none => go (phaseStacks s)
    | 5 => match r.clearFailed with
      | some k => if k < stackCount s then haltBoot s 4 k else go (phaseClear s)
      | none => go (phaseClear s)
    | 6 => go (phaseCores s r.coreFails)
    | 7 => go (phaseAssay s r.vf)
    | 8 => phaseServices s
    | _ => s)

/-! ## Sideband (R382, R432, R433) -/

/-- SB_BOARD_CAP (R382): the board's cap, within its limits; the sideband answers from PWRGOOD. -/
def execSbBoardCap (w : W32) (s : State) : Res :=
  .next (if s.pins.pwrGood then boardCap s w else s)

/-- A recovery download of a kind is accepted (R433). -/
def rcvOpen (s : State) (kind : Nat) : Bool :=
  rf s GLOBAL_STATE 16 8 == 1 && decide (kind < 3) && rf s SEC_BOOT_STATUS (6 + kind) 1 == 1

/-- SB_RCV_STATUS after a START or COMMIT. -/
def rcvAnswer (s : State) (st : W16) (detail : Nat) : State :=
  { s with pins := { s.pins with rcvStatus := pack 32 [(0, 16, st.toNat), (16, 16, detail)] } }

/-- START (R433): slot 0 of the kind is erased. -/
def rcvBegin (s : State) (kind : Nat) : State :=
  if !rcvOpen s kind then rcvAnswer s 0x0102 0
  else
    let imgs := tput s.flash.images (2 * kind) { bytes := [], committed := none }
    rcvAnswer { s with flash := { s.flash with images := imgs }, pins := { s.pins with rcvStarted := true } } 0 0

/-- COMMIT (R433): the image is checked by R404 and its commit word written only if it is valid. -/
def rcvCommit (s : State) (kind : Nat) : State :=
  if !rcvOpen s kind then rcvAnswer s 0x0102 0
  else
    let bs := match tfind s.flash.images (2 * kind) with | some i => (if i.committed.isSome then [] else i.bytes) | none => []
    match imgFault s kind bs with
    | some d => rcvAnswer s 0x0101 d
    | none =>
      let n := s.flash.commits + 1
      let imgs := tput s.flash.images (2 * kind) { bytes := bs, committed := some n }
      let s := { s with flash := { s.flash with images := imgs, commits := n }, pins := { s.pins with rcvStarted := false } }
      rcvAnswer (wf s SEC_BOOT_STATUS (6 + kind) 1 0) 0 0

/-- A write of SB_RCV_CTRL. -/
def rcvCtrl (s : State) (w : W32) : State :=
  if !s.pins.pwrGood then s
  else
    let k := fld w 0 2
    let s := rcvKindPut s w
    let s := if bit w 2 then rcvBegin s k else s
    if bit w 3 then rcvCommit s k else s

/-- RCV_START (R433): a write of SB_RCV_CTRL with START. -/
def execRcvStart (w : W32) (s : State) : Res := .next (if bit w 2 then rcvCtrl s w else s)

/-- SB_RCV_DATA (R432): 4 bytes are appended to the image. -/
def execSbRcvData (w : W32) (s : State) : Res :=
  if !s.pins.pwrGood ∨ !s.pins.rcvStarted then .next s
  else match tfind s.flash.images (2 * s.pins.rcvKind) with
    | some i => .next { s with flash := { s.flash with
        images := tput s.flash.images (2 * s.pins.rcvKind) { i with bytes := i.bytes ++ leBytes 4 w.toNat } } }
    | none => .next s

/-- COMMIT (R433): a write of SB_RCV_CTRL with COMMIT and no START. -/
def execCommit (w : W32) (s : State) : Res := .next (if bit w 3 && !bit w 2 then rcvCtrl s w else s)

/-- SHUTDOWN_COMPARE (R426, R388): the hardware compares every sensor with the shutdown levels. -/
def execShutdownCompare (x : Temps) (s : State) : Res := .next (shutdownCompare s x)

/-! ## IDENTIFY (R279) -/

/-- Physical cores in service (R1, R367): those of the grade and the spares, less the fenced. -/
def coresInService (s : State) : Nat := 64 * 68 - s.cores.fenced.length

/-- The 64 bytes of IDENTIFY. -/
def identity (s : State) : Line :=
  pack 512 [(0, 32, (rd s GLOBAL_CAP0).toNat), (32, 32, (rd s GLOBAL_CAP1).toNat), (64, 128, s.flash.serial.toNat),
    (192, 32, imgVersion (runningImage s 0)), (224, 32, imgVersion (runningImage s 1)), (256, 32, imgVersion (runningImage s 2)),
    (288, 8, devState s), (296, 2, twinState s), (304, 16, nodeNum s), (320, 13, coresInService s), (352, 64, memBytes s)]

/-- IDENTIFY (R279). -/
def execIdentify (id : Nat) (s : State) : Res :=
  .next (runCmd s id 0x0001 fun s c =>
    let a : W64 := BitVec.ofNat 64 (pk c.pkt 24 8)
    checked s c (checks s c [] false [bufBad s a 64] [] [] false) fun s =>
    replyBuffer s c a (bytesOf (identity s)) ((rd s GLOBAL_CAP0).toNat + 2 ^ 32 * (rd s GLOBAL_CAP1).toNat))

end Sys2Proof.Machine
end

