-- ==== Sys2Proof/Machine/CoreAddress.lean ====
section
/-! DEFINITION. The address-slot commands (R85): each issues a bundle whose address slot carries its opcode. -/
namespace Sys2Proof.Machine

/-- LDS (R85). -/
def execLds (t : Tid) (b : Bundle) (s : State) : Res := .next (issueRow s t b 1 0x01 0x01)

/-- STS (R85). -/
def execSts (t : Tid) (b : Bundle) (s : State) : Res := .next (issueRow s t b 1 0x02 0x02)

/-- LDV (R85). -/
def execLdv (t : Tid) (b : Bundle) (s : State) : Res := .next (issueRow s t b 1 0x03 0x03)

/-- STV (R85). -/
def execStv (t : Tid) (b : Bundle) (s : State) : Res := .next (issueRow s t b 1 0x04 0x04)

/-- AMO (R85). -/
def execAmo (t : Tid) (b : Bundle) (s : State) : Res := .next (issueRow s t b 1 0x08 0x08)

/-- SEMSIG (R85). -/
def execSemsig (t : Tid) (b : Bundle) (s : State) : Res := .next (issueRow s t b 1 0x10 0x10)

/-- SEMWAIT (R85). -/
def execSemwait (t : Tid) (b : Bundle) (s : State) : Res := .next (issueRow s t b 1 0x11 0x11)

/-- SEMTRY (R85). -/
def execSemtry (t : Tid) (b : Bundle) (s : State) : Res := .next (issueRow s t b 1 0x12 0x12)

/-- FENCE_L (R85, R136). -/
def execFenceL (t : Tid) (b : Bundle) (s : State) : Res :=
  .next (if fld b.adr 32 8 = 0 then issueRow s t b 1 0x18 0x18 else s)

/-- FENCE_D (R85, R136). -/
def execFenceD (t : Tid) (b : Bundle) (s : State) : Res :=
  .next (if fld b.adr 32 8 = 1 then issueRow s t b 1 0x18 0x18 else s)

/-- FENCE_H (R85, R136). -/
def execFenceH (t : Tid) (b : Bundle) (s : State) : Res :=
  .next (if fld b.adr 32 8 = 2 then issueRow s t b 1 0x18 0x18 else s)

/-- L1INV (R85). -/
def execL1inv (t : Tid) (b : Bundle) (s : State) : Res := .next (issueRow s t b 1 0x19 0x19)

/-- HOIST (R85). -/
def execHoist (t : Tid) (b : Bundle) (s : State) : Res := .next (issueRow s t b 1 0x20 0x20)

/-- LOOPCFG (R85). -/
def execLoopcfg (t : Tid) (b : Bundle) (s : State) : Res := .next (issueRow s t b 1 0x28 0x28)

/-- LOOPRD (R85). -/
def execLooprd (t : Tid) (b : Bundle) (s : State) : Res := .next (issueRow s t b 1 0x29 0x29)

/-- What a fence waits for is complete (R136). -/
def fenceDone (s : State) (t : Tid) (f : Fence) : Bool :=
  let ops := opsOf s t
  let loads := ops.all (fun o => match o.kind with | .load _ _ _ _ => false | _ => true)
  let local_ := ops.all (fun o => o.node != 0 || (match o.kind with
    | .store _ => o.done
    | .amo _ _ => o.done
    | .semSig => false
    | _ => true))
  match f with
  | .l => loads
  | .d => loads && local_
  | .h => loads && local_ && ops.all (fun o => o.node == 0)

/-- FENCE_COMPLETE (R136): the thread's fence ends. -/
def execFenceComplete (t : Tid) (s : State) : Res :=
  let th := getThread s t
  match th.fence with
  | some f => .next (if fenceDone s t f then setThread s t { th with fence := none } else s)
  | none => .next s

end Sys2Proof.Machine
end

