-- ==== Sys2Proof/Machine/CoreControl.lean ====
section
/-! DEFINITION. The control-slot commands (R82): each issues a bundle whose control slot carries its opcode. -/
namespace Sys2Proof.Machine

/-- ADD (R82). -/
def execAdd (t : Tid) (b : Bundle) (s : State) : Res := .next (issueRow s t b 0 0x01 0x01)

/-- SUB (R82). -/
def execSub (t : Tid) (b : Bundle) (s : State) : Res := .next (issueRow s t b 0 0x02 0x02)

/-- AND (R82). -/
def execAnd (t : Tid) (b : Bundle) (s : State) : Res := .next (issueRow s t b 0 0x03 0x03)

/-- OR (R82). -/
def execOr (t : Tid) (b : Bundle) (s : State) : Res := .next (issueRow s t b 0 0x04 0x04)

/-- XOR (R82). -/
def execXor (t : Tid) (b : Bundle) (s : State) : Res := .next (issueRow s t b 0 0x05 0x05)

/-- SHL (R82). -/
def execShl (t : Tid) (b : Bundle) (s : State) : Res := .next (issueRow s t b 0 0x06 0x06)

/-- SHR (R82). -/
def execShr (t : Tid) (b : Bundle) (s : State) : Res := .next (issueRow s t b 0 0x07 0x07)

/-- SRA (R82). -/
def execSra (t : Tid) (b : Bundle) (s : State) : Res := .next (issueRow s t b 0 0x08 0x08)

/-- MUL (R82). -/
def execMul (t : Tid) (b : Bundle) (s : State) : Res := .next (issueRow s t b 0 0x09 0x09)

/-- MULHU (R82). -/
def execMulhu (t : Tid) (b : Bundle) (s : State) : Res := .next (issueRow s t b 0 0x0A 0x0A)

/-- SLT (R82). -/
def execSlt (t : Tid) (b : Bundle) (s : State) : Res := .next (issueRow s t b 0 0x0B 0x0B)

/-- SLTU (R82). -/
def execSltu (t : Tid) (b : Bundle) (s : State) : Res := .next (issueRow s t b 0 0x0C 0x0C)

/-- MIN (R82). -/
def execMin (t : Tid) (b : Bundle) (s : State) : Res := .next (issueRow s t b 0 0x0D 0x0D)

/-- MAX (R82). -/
def execMax (t : Tid) (b : Bundle) (s : State) : Res := .next (issueRow s t b 0 0x0E 0x0E)

/-- ADDI (R82). -/
def execAddi (t : Tid) (b : Bundle) (s : State) : Res := .next (issueRow s t b 0 0x11 0x11)

/-- ANDI (R82). -/
def execAndi (t : Tid) (b : Bundle) (s : State) : Res := .next (issueRow s t b 0 0x13 0x13)

/-- ORI (R82). -/
def execOri (t : Tid) (b : Bundle) (s : State) : Res := .next (issueRow s t b 0 0x14 0x14)

/-- XORI (R82). -/
def execXori (t : Tid) (b : Bundle) (s : State) : Res := .next (issueRow s t b 0 0x15 0x15)

/-- SHLI (R82). -/
def execShli (t : Tid) (b : Bundle) (s : State) : Res := .next (issueRow s t b 0 0x16 0x16)

/-- SHRI (R82). -/
def execShri (t : Tid) (b : Bundle) (s : State) : Res := .next (issueRow s t b 0 0x17 0x17)

/-- SRAI (R82). -/
def execSrai (t : Tid) (b : Bundle) (s : State) : Res := .next (issueRow s t b 0 0x18 0x18)

/-- SLTI (R82). -/
def execSlti (t : Tid) (b : Bundle) (s : State) : Res := .next (issueRow s t b 0 0x1B 0x1B)

/-- LI (R82). -/
def execLi (t : Tid) (b : Bundle) (s : State) : Res := .next (issueRow s t b 0 0x20 0x20)

/-- LIH (R82). -/
def execLih (t : Tid) (b : Bundle) (s : State) : Res := .next (issueRow s t b 0 0x21 0x21)

/-- BEQZ (R82). -/
def execBeqz (t : Tid) (b : Bundle) (s : State) : Res := .next (issueRow s t b 0 0x30 0x30)

/-- BNEZ (R82). -/
def execBnez (t : Tid) (b : Bundle) (s : State) : Res := .next (issueRow s t b 0 0x31 0x31)

/-- BLTZ (R82). -/
def execBltz (t : Tid) (b : Bundle) (s : State) : Res := .next (issueRow s t b 0 0x32 0x32)

/-- BGEZ (R82). -/
def execBgez (t : Tid) (b : Bundle) (s : State) : Res := .next (issueRow s t b 0 0x33 0x33)

/-- JMP (R82). -/
def execJmp (t : Tid) (b : Bundle) (s : State) : Res := .next (issueRow s t b 0 0x34 0x34)

/-- CALL (R82). -/
def execCall (t : Tid) (b : Bundle) (s : State) : Res := .next (issueRow s t b 0 0x35 0x35)

/-- JR (R82). -/
def execJr (t : Tid) (b : Bundle) (s : State) : Res := .next (issueRow s t b 0 0x36 0x36)

/-- RPT (R82). -/
def execRpt (t : Tid) (b : Bundle) (s : State) : Res := .next (issueRow s t b 0 0x38 0x38)

/-- RPTI (R82). -/
def execRpti (t : Tid) (b : Bundle) (s : State) : Res := .next (issueRow s t b 0 0x39 0x39)

/-- WINEXT (R82). -/
def execWinext (t : Tid) (b : Bundle) (s : State) : Res := .next (issueRow s t b 0 0x40 0x40)

/-- END (R82). -/
def execEndThread (t : Tid) (b : Bundle) (s : State) : Res := .next (issueRow s t b 0 0x41 0x41)

/-- SUBTAG (R82). -/
def execSubtag (t : Tid) (b : Bundle) (s : State) : Res := .next (issueRow s t b 0 0x42 0x42)

/-- STAT (R82). -/
def execStat (t : Tid) (b : Bundle) (s : State) : Res := .next (issueRow s t b 0 0x43 0x43)

/-- A bundle whose present slots carry no assigned opcode belongs to no other row: none present is a no-operation, and every present one is
skipped (R78, R97). -/
def noRow (b : Bundle) : Bool :=
  let ctlOps := [0x01, 0x02, 0x03, 0x04, 0x05, 0x06, 0x07, 0x08, 0x09, 0x0A, 0x0B, 0x0C, 0x0D, 0x0E, 0x11, 0x13, 0x14, 0x15, 0x16, 0x17, 0x18,
    0x1B, 0x20, 0x21, 0x30, 0x31, 0x32, 0x33, 0x34, 0x35, 0x36, 0x38, 0x39, 0x40, 0x41, 0x42, 0x43]
  let adrOps := [0x01, 0x02, 0x03, 0x04, 0x08, 0x10, 0x11, 0x12, 0x19, 0x20, 0x28, 0x29] ++ (if fld b.adr 32 8 ≤ 2 then [0x18] else [])
  let mtxOps := [0x01, 0x02, 0x03] ++ [0x08, 0x09, 0x0A, 0x0B, 0x10, 0x11, 0x12, 0x13, 0x14, 0x15, 0x16, 0x17]
  !(Bundle.has b 0 && decide (Bundle.op b 0 ∈ ctlOps)) && !(Bundle.has b 1 && decide (Bundle.op b 1 ∈ adrOps)) &&
    !(Bundle.has b 2 && decide (Bundle.op b 2 ∈ mtxOps)) && !(Bundle.has b 3 && (vecSig (Bundle.op b 3)).isSome)

/-- BUNDLE_NOP (R78). -/
def execBundleNop (t : Tid) (b : Bundle) (s : State) : Res := .next (if noRow b then issue s t b else s)

/-- RESERVED_HEADER (R97, R98): one skip of the whole bundle, PC advances by its length. -/
def execReservedHeader (t : Tid) (b : Bundle) (s : State) : Res :=
  match issuer s t with
  | none => .next s
  | some (j, th) =>
    if Bundle.reserved b = 0 ∨ th.pc.toNat + Bundle.len b > j.codeBytes then .next s
    else
      let s := skipSlot s j t th.subtag th.pc.toNat 0xF 0x01 b.header.toNat
      let (rpt, pc) := seqNext th.rpt (th.pc.toNat + Bundle.len b)
      let th := getThread s t
      .next (setThread s t { th with rpt := rpt, pc := BitVec.ofNat 32 pc, waitQ := [], dropped := 0 })

/-- TRUNCATED_BUNDLE (R95): a bundle at or reaching past CODE_BYTES is skipped as a whole and the thread ends. -/
def execTruncatedBundle (t : Tid) (b : Bundle) (s : State) : Res :=
  match issuer s t with
  | none => .next s
  | some (j, th) =>
    if th.pc.toNat + Bundle.len b ≤ j.codeBytes then .next s
    else .next (endThread (skipSlot s j t th.subtag th.pc.toNat 0xF 0x0E th.pc.toNat) j t)

/-- A recorded wait still holds: to take from a queue that is empty or whose head has not arrived, to push one that is full (R76), once the bundle
has taken what it takes before (R77). -/
def stillWaits (s : State) (j : Job) (t : Tid) (w : QWait) : Bool :=
  let xs := getQ s j t w.q
  if w.push then decide (qDepth j w.q + w.taken ≤ xs.length) else match xs.drop w.taken with | [] => true | x :: _ => x.pending.isSome

/-- A thread waits on a queue operation, or has executed END (R102). -/
def stuck (s : State) (j : Job) (t : Tid) : Bool :=
  let x := getThread s t
  x.waitQ.any (stillWaits s j t) || (match x.run with | .ending | .ended => true | _ => false)

/-- A thread is deadlocked on the queue of a wait (R102). -/
def deadlocked (s : State) (j : Job) (t : Tid) (w : QWait) : Bool :=
  let n := (getQ s j t w.q).length
  let mine (k : Nat) : Bool := qShared j w.q || k == t.thread
  let reserved := s.cores.ops.any (fun o => o.t.vcore == t.vcore && mine o.t.thread && decide (o.dest = .queue w.q))
  (if w.push then decide (qDepth j w.q + w.taken ≤ n) else decide (n ≤ w.taken)) && !reserved &&
    (List.range j.threads).all (fun k => !mine k || stuck s j { vcore := t.vcore, thread := k })

/-- The first wait of a thread on whose queue it is deadlocked. -/
def deadWait (s : State) (j : Job) (t : Tid) : Option QWait := (getThread s t).waitQ.find? (deadlocked s j t)

/-- DEADLOCK (R102, R103): a waiting slot of the lowest-numbered deadlocked thread of a core is skipped for good. -/
def execDeadlock (vcore : Nat) (s : State) : Res :=
  match jobAt s vcore with
  | none => .next s
  | some j =>
    match (List.range j.threads).find? (fun k => (deadWait s j { vcore := vcore, thread := k }).isSome) with
    | none => .next s
    | some k =>
      let t : Tid := { vcore := vcore, thread := k }
      match deadWait s j t with
      | none => .next s
      | some w =>
        let s := skipSlot s j t (getThread s t).subtag (getThread s t).pc.toNat w.slot 0x0F w.q
        let th := getThread s t
        .next (setThread s t { th with waitQ := th.waitQ.filter (fun x => x.slot != w.slot), dropped := th.dropped ||| (1#4 <<< w.slot) })

end Sys2Proof.Machine
end

