-- ==== Sys2Proof/Machine/CoreMatrix.lean ====
section
/-! DEFINITION. The matrix-slot commands (R114): each issues a bundle whose matrix slot carries its opcode. -/
namespace Sys2Proof.Machine

/-- MMA (R114). -/
def execMma (t : Tid) (b : Bundle) (s : State) : Res := .next (issueRow s t b 2 0x01 0x01)

/-- MMAZ (R114). -/
def execMmaz (t : Tid) (b : Bundle) (s : State) : Res := .next (issueRow s t b 2 0x02 0x02)

/-- MZERO (R114). -/
def execMzero (t : Tid) (b : Bundle) (s : State) : Res := .next (issueRow s t b 2 0x03 0x03)

/-- MWR (R114). -/
def execMwr (t : Tid) (b : Bundle) (s : State) : Res := .next (issueRow s t b 2 0x08 0x0B)

/-- MRD (R114). -/
def execMrd (t : Tid) (b : Bundle) (s : State) : Res := .next (issueRow s t b 2 0x10 0x13)

/-- MRDZ (R114). -/
def execMrdz (t : Tid) (b : Bundle) (s : State) : Res := .next (issueRow s t b 2 0x14 0x17)

end Sys2Proof.Machine
end

