-- ==== Sys2Proof/Machine/CoreVector.lean ====
section
/-! DEFINITION. The vector-slot commands (R118): each issues a bundle whose vector slot carries its opcode. -/
namespace Sys2Proof.Machine

/-- FADD (R118). -/
def execFadd (t : Tid) (b : Bundle) (s : State) : Res := .next (issueRow s t b 3 0x01 0x01)

/-- FSUB (R118). -/
def execFsub (t : Tid) (b : Bundle) (s : State) : Res := .next (issueRow s t b 3 0x02 0x02)

/-- FMUL (R118). -/
def execFmul (t : Tid) (b : Bundle) (s : State) : Res := .next (issueRow s t b 3 0x03 0x03)

/-- FMA (R118). -/
def execFma (t : Tid) (b : Bundle) (s : State) : Res := .next (issueRow s t b 3 0x04 0x04)

/-- FMS (R118). -/
def execFms (t : Tid) (b : Bundle) (s : State) : Res := .next (issueRow s t b 3 0x05 0x05)

/-- FNMA (R118). -/
def execFnma (t : Tid) (b : Bundle) (s : State) : Res := .next (issueRow s t b 3 0x06 0x06)

/-- FMIN (R118). -/
def execFmin (t : Tid) (b : Bundle) (s : State) : Res := .next (issueRow s t b 3 0x07 0x07)

/-- FMAX (R118). -/
def execFmax (t : Tid) (b : Bundle) (s : State) : Res := .next (issueRow s t b 3 0x08 0x08)

/-- FABS (R118). -/
def execFabs (t : Tid) (b : Bundle) (s : State) : Res := .next (issueRow s t b 3 0x09 0x09)

/-- FNEG (R118). -/
def execFneg (t : Tid) (b : Bundle) (s : State) : Res := .next (issueRow s t b 3 0x0A 0x0A)

/-- FDIV (R118). -/
def execFdiv (t : Tid) (b : Bundle) (s : State) : Res := .next (issueRow s t b 3 0x0B 0x0B)

/-- FSCALB (R118). -/
def execFscalb (t : Tid) (b : Bundle) (s : State) : Res := .next (issueRow s t b 3 0x0C 0x0C)

/-- IADD (R118). -/
def execIadd (t : Tid) (b : Bundle) (s : State) : Res := .next (issueRow s t b 3 0x20 0x20)

/-- ISUB (R118). -/
def execIsub (t : Tid) (b : Bundle) (s : State) : Res := .next (issueRow s t b 3 0x21 0x21)

/-- IMUL (R118). -/
def execImul (t : Tid) (b : Bundle) (s : State) : Res := .next (issueRow s t b 3 0x22 0x22)

/-- IMIN (R118). -/
def execImin (t : Tid) (b : Bundle) (s : State) : Res := .next (issueRow s t b 3 0x23 0x23)

/-- IMAX (R118). -/
def execImax (t : Tid) (b : Bundle) (s : State) : Res := .next (issueRow s t b 3 0x24 0x24)

/-- VEC_AND (R118). -/
def execVecAnd (t : Tid) (b : Bundle) (s : State) : Res := .next (issueRow s t b 3 0x25 0x25)

/-- VEC_OR (R118). -/
def execVecOr (t : Tid) (b : Bundle) (s : State) : Res := .next (issueRow s t b 3 0x26 0x26)

/-- VEC_XOR (R118). -/
def execVecXor (t : Tid) (b : Bundle) (s : State) : Res := .next (issueRow s t b 3 0x27 0x27)

/-- VEC_SHL (R118). -/
def execVecShl (t : Tid) (b : Bundle) (s : State) : Res := .next (issueRow s t b 3 0x28 0x28)

/-- VEC_SHR (R118). -/
def execVecShr (t : Tid) (b : Bundle) (s : State) : Res := .next (issueRow s t b 3 0x29 0x29)

/-- VEC_SRA (R118). -/
def execVecSra (t : Tid) (b : Bundle) (s : State) : Res := .next (issueRow s t b 3 0x2A 0x2A)

/-- IABS (R118). -/
def execIabs (t : Tid) (b : Bundle) (s : State) : Res := .next (issueRow s t b 3 0x2B 0x2B)

/-- IADDS (R118). -/
def execIadds (t : Tid) (b : Bundle) (s : State) : Res := .next (issueRow s t b 3 0x2C 0x2C)

/-- CMPEQ (R118). -/
def execCmpeq (t : Tid) (b : Bundle) (s : State) : Res := .next (issueRow s t b 3 0x30 0x30)

/-- CMPNE (R118). -/
def execCmpne (t : Tid) (b : Bundle) (s : State) : Res := .next (issueRow s t b 3 0x31 0x31)

/-- CMPLT (R118). -/
def execCmplt (t : Tid) (b : Bundle) (s : State) : Res := .next (issueRow s t b 3 0x32 0x32)

/-- CMPLE (R118). -/
def execCmple (t : Tid) (b : Bundle) (s : State) : Res := .next (issueRow s t b 3 0x33 0x33)

/-- ISNAN (R118). -/
def execIsnan (t : Tid) (b : Bundle) (s : State) : Res := .next (issueRow s t b 3 0x34 0x34)

/-- MAND (R118). -/
def execMand (t : Tid) (b : Bundle) (s : State) : Res := .next (issueRow s t b 3 0x38 0x38)

/-- MOR (R118). -/
def execMor (t : Tid) (b : Bundle) (s : State) : Res := .next (issueRow s t b 3 0x39 0x39)

/-- MXOR (R118). -/
def execMxor (t : Tid) (b : Bundle) (s : State) : Res := .next (issueRow s t b 3 0x3A 0x3A)

/-- MNOT (R118). -/
def execMnot (t : Tid) (b : Bundle) (s : State) : Res := .next (issueRow s t b 3 0x3B 0x3B)

/-- MLEN (R118). -/
def execMlen (t : Tid) (b : Bundle) (s : State) : Res := .next (issueRow s t b 3 0x3C 0x3C)

/-- SEL (R118). -/
def execSel (t : Tid) (b : Bundle) (s : State) : Res := .next (issueRow s t b 3 0x3D 0x3D)

/-- RSUM (R118). -/
def execRsum (t : Tid) (b : Bundle) (s : State) : Res := .next (issueRow s t b 3 0x40 0x40)

/-- RMAX (R118). -/
def execRmax (t : Tid) (b : Bundle) (s : State) : Res := .next (issueRow s t b 3 0x41 0x41)

/-- RMIN (R118). -/
def execRmin (t : Tid) (b : Bundle) (s : State) : Res := .next (issueRow s t b 3 0x42 0x42)

/-- RARGMAX (R118). -/
def execRargmax (t : Tid) (b : Bundle) (s : State) : Res := .next (issueRow s t b 3 0x43 0x43)

/-- PSUM (R118). -/
def execPsum (t : Tid) (b : Bundle) (s : State) : Res := .next (issueRow s t b 3 0x44 0x44)

/-- BCAST (R118). -/
def execBcast (t : Tid) (b : Bundle) (s : State) : Res := .next (issueRow s t b 3 0x45 0x45)

/-- PERM (R118). -/
def execPerm (t : Tid) (b : Bundle) (s : State) : Res := .next (issueRow s t b 3 0x46 0x46)

/-- IOTA (R118). -/
def execIota (t : Tid) (b : Bundle) (s : State) : Res := .next (issueRow s t b 3 0x47 0x47)

/-- MPOPC (R118). -/
def execMpopc (t : Tid) (b : Bundle) (s : State) : Res := .next (issueRow s t b 3 0x48 0x48)

/-- MFIRST (R118). -/
def execMfirst (t : Tid) (b : Bundle) (s : State) : Res := .next (issueRow s t b 3 0x49 0x49)

/-- RCP (R118). -/
def execRcp (t : Tid) (b : Bundle) (s : State) : Res := .next (issueRow s t b 3 0x50 0x50)

/-- RSQRT (R118). -/
def execRsqrt (t : Tid) (b : Bundle) (s : State) : Res := .next (issueRow s t b 3 0x51 0x51)

/-- SQRT (R118). -/
def execSqrt (t : Tid) (b : Bundle) (s : State) : Res := .next (issueRow s t b 3 0x52 0x52)

/-- EXP2 (R118). -/
def execExp2 (t : Tid) (b : Bundle) (s : State) : Res := .next (issueRow s t b 3 0x53 0x53)

/-- EXP (R118). -/
def execExp (t : Tid) (b : Bundle) (s : State) : Res := .next (issueRow s t b 3 0x54 0x54)

/-- LOG2 (R118). -/
def execLog2 (t : Tid) (b : Bundle) (s : State) : Res := .next (issueRow s t b 3 0x55 0x55)

/-- TANH (R118). -/
def execTanh (t : Tid) (b : Bundle) (s : State) : Res := .next (issueRow s t b 3 0x56 0x56)

/-- SIGMOID (R118). -/
def execSigmoid (t : Tid) (b : Bundle) (s : State) : Res := .next (issueRow s t b 3 0x57 0x57)

/-- ERF (R118). -/
def execErf (t : Tid) (b : Bundle) (s : State) : Res := .next (issueRow s t b 3 0x58 0x58)

/-- SIN (R118). -/
def execSin (t : Tid) (b : Bundle) (s : State) : Res := .next (issueRow s t b 3 0x59 0x59)

/-- COS (R118). -/
def execCos (t : Tid) (b : Bundle) (s : State) : Res := .next (issueRow s t b 3 0x5A 0x5A)

/-- CVT (R118). -/
def execCvt (t : Tid) (b : Bundle) (s : State) : Res := .next (issueRow s t b 3 0x60 0x67)

/-- CVTSC (R118). -/
def execCvtsc (t : Tid) (b : Bundle) (s : State) : Res := .next (issueRow s t b 3 0x68 0x6F)

/-- BSCALE (R118). -/
def execBscale (t : Tid) (b : Bundle) (s : State) : Res := .next (issueRow s t b 3 0x70 0x77)

/-- NBX (R118). -/
def execNbx (t : Tid) (b : Bundle) (s : State) : Res := .next (issueRow s t b 3 0x78 0x7F)

/-- NBQ (R118). -/
def execNbq (t : Tid) (b : Bundle) (s : State) : Res := .next (issueRow s t b 3 0x80 0x87)

/-- RAND (R118). -/
def execRand (t : Tid) (b : Bundle) (s : State) : Res := .next (issueRow s t b 3 0x90 0x90)

/-- RDFLAGS (R118). -/
def execRdflags (t : Tid) (b : Bundle) (s : State) : Res := .next (issueRow s t b 3 0x91 0x91)

/-- CLRFLAGS (R118). -/
def execClrflags (t : Tid) (b : Bundle) (s : State) : Res := .next (issueRow s t b 3 0x92 0x92)

end Sys2Proof.Machine
end

