-- ==== Sys2Proof/Machine/FabricRx.lean ====
section
/-! DEFINITION. The Level transport's receiving side (R315, R317, R321 to R326, R331, R337, R338): the acceptance of DATA packets, what inbound
operations do, holds, and responses. -/
namespace Sys2Proof.Machine

/-! ## Reception (R317, R323, R324) -/

/-- A frame is received: the device serves the fabric or is FAILED (R338), the sub-port is up, and the frame is for this node. -/
def rxUp (s : State) (f : Frame) : Bool := (serving s || devState s == 7) && subUp s f.port f.sub && f.dst == nodeNum s

/-- The node is a peer, or the twin (R317, R339). -/
def knownPeer (s : State) (n : Nat) : Bool := (peerOf s n).isSome || (n == twinNode s && n != 0xFFFF)

/-- A tally of the port a frame arrived on (R341): its place in the offset order. -/
def portTally (s : State) (k i n : Nat) : State := bump s (FAB_PORT_FEC_CORR k + 8 * i) (FAB_PORT_TALLY_STATUS k) i n

/-- `n` rises over the numbers listed from it on, which leave the list; `fuel` bounds the rise. -/
def slide (n : Nat) (xs : List Nat) (fuel : Nat) : Nat × List Nat :=
  match fuel with
  | 0 => (n, xs)
  | k + 1 => if n ∈ xs then slide (n + 1) (xs.filter (· ≠ n)) k else (n, xs)

/-- A received packet has been performed (R325). -/
def markPerf (s : State) (peer cls p : Nat) : State :=
  let f := getFlow s peer cls
  if p < f.rxDone ∨ p ∈ f.rxPerf then s
  else
    let xs := p :: f.rxPerf
    let (d, rest) := slide f.rxDone xs xs.length
    setFlow s { f with rxDone := d, rxPerf := rest, ackDue := true }

/-- The receiver's half of a flow as a SYN starts it (R324). -/
def rxFresh (f : Flow) (pair : W16 × W16) : Flow :=
  { f with rxPair := some pair, rxRcv := 0, rxDone := 0, rxHave := [], rxPerf := [], rxHeld := [], rxHigh := 0, waitResp := [] }

/-- A packet number is received: RCV_PSN and HIGH_PSN follow. -/
def rxTake (f : Flow) (p : Nat) : Flow :=
  let xs := p :: f.rxHave
  let (r, rest) := slide f.rxRcv xs xs.length
  { f with rxRcv := r, rxHave := rest, rxHigh := max f.rxHigh p }

/-- A RESET or ACK, of `n` bytes after its transport header, goes out on the flow's first usable sub-port and counts as a packet sent. -/
def sendControl (s : State) (peer cls n : Nat) (x : Wire → TxFrame) : State :=
  match usable s peer cls with
  | [] => s
  | j :: _ => portTally (sendOut s (wireOf s peer j) (x (wireOf s peer j)) (levelBytes s peer n)) (j / 8) 2 1

/-- The bytes that held requests take of a port's receive buffer of 4 MiB: their Level headers and payloads (R330; log entry 20, DESIGN CHOICE). -/
def rxBuffered (s : State) (k : Nat) : Nat :=
  sumNat (s.fab.flows.map (fun f => sumNat ((f.rxHeld.filter (fun h => h.port == k)).map (fun h => 64 + h.payload.length))))

/-- A DATA packet arrives: counted, checked against the peers and the flow's pair, deduplicated, and performed once (R317, R323 to R325); an injected
drop discards it (R449), and so does a full receive buffer (R330). A SYN with the pair held is a duplicate. -/
def rxData (s : State) (f : Frame) (perform : State → Nat → State) : State :=
  let k := f.port
  let drop := tget s.fab.dropNext k 0
  if !rxUp s f then s
  else if drop ≠ 0 then { s with fab := { s.fab with dropNext := tset s.fab.dropNext k (drop - 1) 0 } }
  else if 4194304 < rxBuffered s k + 64 + f.payload.length then portTally s k 5 1
  else
    let s := portTally s k 3 1
    let s := if f.ce then portTally s k 9 1 else s
    if !knownPeer s f.src then portTally s k 8 1
    else
      let fl := getFlow s f.src f.cls
      let pair := (f.srcEpoch, f.incarn)
      let held := decide (fl.rxPair = some pair)
      if !f.syn && (!held || (decide (f.dstEpoch ≠ 0) && decide (f.dstEpoch ≠ epoch s))) then
        sendControl s f.src f.cls 0 (fun w => .reset w (txHeader s { fl with peerEpoch := f.srcEpoch } f.incarn))
      else
        let fl := if held then fl else rxFresh fl pair
        let fl := { fl with peerEpoch := f.srcEpoch, rxCount := fl.rxCount + 1, rxEce := fl.rxEce + b2n f.ce }
        match (if held && f.syn then none else psnNear fl.rxRcv f.psn) with
        | none => setFlow s { fl with ackDue := true }
        | some p =>
          if p < fl.rxRcv ∨ p ∈ fl.rxHave then setFlow s { fl with ackDue := true }
          else if fl.rxRcv + 2048 ≤ p then setFlow s fl
          else perform (setFlow s { rxTake fl p with ackDue := true }) p

/-! ## Checks of an inbound operation (R315, R317, R321, R331) -/

/-- The peer's entry has every permission bit. -/
def rxPerms (s : State) (src : Nat) (bits : List Nat) : Bool := match peerOf s src with | some b => bits.all (bit b) | none => bits.isEmpty

/-- The permission a range of the local offsets needs besides the operation's own (R315). -/
def rangePerm (r : Range) : List Nat := match r with | .scratch => [197] | .window => [198] | .image => [199] | _ => []

/-- The access is aligned as its range asks, and its target is there (R315). -/
def rangeAligned (s : State) (r : Range) (cls off n : Nat) : Bool :=
  match r with
  | .scratch => off % 8 == 0 && n % 8 == 0 && !unplaced s ((off - 0x20000000000) / 131072)
  | .image => off % 4 == 0 && n % 4 == 0 && decide (n ≤ 256) && cls == 3
  | .none => false
  | _ => true

/-- The request an inbound operation's accesses are made as (R162, R338). -/
def rxRq (op : OpHeader) : Rq := { port := 4, tag := op.tag, subtag := op.subtag }

/-- An access of `n` bytes by an inbound operation: the status and reason that refuse it, if any (R331). -/
def rxAccess (s : State) (src cls : Nat) (op : OpHeader) (perm n : Nat) (allowed : List Range) : Option (W16 × Nat) × State :=
  let off := offOf op.addr
  let r := localRange s off n
  let mine := nodeOf op.addr == 0 || nodeOf op.addr == nodeNum s
  if !rxPerms s src (perm :: rangePerm r) then (some (0x0105, 0x02), s)
  else if !mine || decide (r ∉ allowed) || !rangeAligned s r cls off n then (some (stBadParam, 0x03), s)
  else if r = .device ∧ touchesReserve s off n then (some (stBadParam, 0x03), addressRefused s (rxRq op) off)
  else (none, s)

/-- Bytes of an element type of R86. -/
def atypeBytes (t : Nat) : Nat := if t = 1 then 8 else if t = 0 ∨ t = 2 then 4 else 2

/-- The kinds and types of an AMO (R86). -/
def amoLegal (kind type : Nat) : Bool := (decide (type ≤ 1) && decide (kind ≤ 7)) || (decide (type ≤ 4) && kind == 0)

/-- The checks of an inbound request: reserved fields, permission, address (R331). -/
def rxCheck (s : State) (src cls : Nat) (op : OpHeader) (payload : List Byte) : Option (W16 × Nat) × State :=
  let bad : Option (W16 × Nat) := some (0x0100, 0x09)
  let n := payload.length
  if op.reserved then (bad, s)
  else match op.kind.toNat with
    | 1 => if n = 0 then (if rxPerms s src [194] then none else some (0x0105, 0x02), s) else rxAccess s src cls op 194 n [.device, .scratch, .image, .window]
    | 2 =>
      if op.atype = 1 ∨ 4 < op.atype then (bad, s)
      else match rxAccess s src cls op 194 n [.device] with
        | (none, s) => (if offOf op.addr % atypeBytes op.atype ≠ 0 ∨ n % atypeBytes op.atype ≠ 0 then some (stBadParam, 0x03) else none, s)
        | x => x
    | 3 => (if rxPerms s src [196] then none else some (0x0105, 0x02), s)
    | 4 =>
      if n ≠ 0 ∧ n ≠ 16 then (bad, s)
      else if op.operand ≠ 0 ∧ !rxPerms s src [196] then (some (0x0105, 0x02), s)
      else if n = 0 then (none, s) else rxAccess s src cls op 194 n [.device, .scratch, .window]
    | 5 =>
      match rxAccess s src cls op 193 op.len [.device, .scratch, .image, .window] with
      | (none, s) => (if op.len = 0 ∨ 4096 < offOf op.addr % 4096 + op.len ∨ largestPayload s src < op.len then some (stBadParam, 0x03) else none, s)
      | x => x
    | 6 =>
      if !amoLegal op.akind op.atype || (if op.akind = 2 then n != 8 else n != 0) then (bad, s)
      else match rxAccess s src cls op 195 (atypeBytes op.atype) [.device] with
        | (none, s) => (if offOf op.addr % atypeBytes op.atype ≠ 0 then some (stBadParam, 0x03) else none, s)
        | x => x
    | 7 => if n ≠ 64 then (bad, s) else (if rxPerms s src [200] then none else some (0x0105, 0x02), s)
    | _ => (bad, s)

/-! ## Effects -/

/-- The reason of an access's status (R331). -/
def memReason (r : Range) (st : W16) : Nat := if r = .window then 0x08 else if st = stBadParam then 0x03 else 0x04

/-- Bytes written at a local offset for a node (R315): device memory, a scratchpad, the register image word by word, or the host window. -/
def rxPut (s : State) (op : OpHeader) (bs : List Byte) : Option (W16 × Nat) × State :=
  let off := offOf op.addr
  let r := localRange s off bs.length
  match r with
  | .image => (none, iterate (bs.length / 4) (fun i s => regWriteWord s (off - 0x40000000000 + 4 * i) (BitVec.ofNat 32 (leNat ((bs.drop (4 * i)).take 4)))) s)
  | _ =>
    let (st, s) := localWrite s off bs (rxRq op)
    (if st = stOk then none else some (st, memReason r st), s)

/-- Bytes read at a local offset for a node; a register-image GET is an accessor of its own, whose latches end with it (R437). -/
def rxGet (s : State) (src : Nat) (op : OpHeader) : Option (W16 × Nat) × List Byte × State :=
  let off := offOf op.addr
  let r := localRange s off op.len
  match r with
  | .image =>
    let (bs, s) := (List.range (op.len / 4)).foldl (fun (bs, s) i =>
      let (w, s) := regReadWord s (.image src) (off - 0x40000000000 + 4 * i)
      (bs ++ bytesOf w, s)) (([] : List Byte), s)
    (none, bs, { s with bar := { s.bar with latch := s.bar.latch.filter (fun l => !decide (l.1 = .image src)) } })
  | _ =>
    let (st, bs, s) := localRead s off op.len (rxRq op)
    (if st = stOk then none else some (st, memReason r st), bs, s)

/-- Each element of an ADD is added at its home slice (R321, R45): the first status other than OK is the operation's. -/
def rxAdd (s : State) (op : OpHeader) (bs : List Byte) : Option (W16 × Nat) × State :=
  let k := atypeBytes op.atype
  let (st, s) := (List.range (bs.length / k)).foldl (fun (st, s) i =>
    let (st', _, s) := amoAt s (offOf op.addr + k * i) 0 op.atype (leNat ((bs.drop (k * i)).take k)) 0 (rxRq op)
    (if st = stOk then st' else st, s)) (stOk, s)
  (if st = stOk then none else some (st, memReason .device st), s)

/-- A response header that answers an operation. -/
def answerOp (op : OpHeader) (kind : Byte) : OpHeader := { OpHeader.zero with kind := kind, part := op.part, subtag := op.subtag, tag := op.tag }

/-- An operation is refused: logged here, and answered by ERROR_RESP with REMOTE_ERROR and the status and reason in DETAIL (R331). -/
def rxError (s : State) (src cls : Nat) (op : OpHeader) (p : Nat) (st : W16) (reason : Nat) : State :=
  let detail := st.toNat + reason * 65536
  let s := logFabric s 4 src cls op st (BitVec.ofNat 32 detail)
  sendResponse s src cls p { answerOp op 0x84 with status := stRemote, len := detail } []

/-- An inbound SIGNAL (R145, R338). -/
def rxSignal (s : State) (src : Nat) (op : OpHeader) : State :=
  semSignal s op.sem op.operand { source := 4, agent := src % 8192, tag := op.tag, subtag := op.subtag, port := 4 }

/-- A put-like operation has ended: performed, or answered by ERROR_RESP. -/
def rxEnd (x : Option (W16 × Nat) × State) (src cls : Nat) (op : OpHeader) (p : Nat) : State :=
  match x.1 with
  | some (st, reason) => rxError x.2 src cls op p st reason
  | none => markPerf x.2 src cls p

/-- A command that came over the Level waits for the fetch engine of its partition (R277). -/
def rxCommand (s : State) (src cls : Nat) (payload : List Byte) (p : Nat) : State :=
  { s with host := { s.host with remote := s.host.remote ++ [{ src := src, cls := cls, psn := p, pkt := lineOf payload }] } }

/-- An inbound request is performed (R321, R337, R338). -/
def rxPerform (s : State) (src cls : Nat) (op : OpHeader) (payload : List Byte) (p : Nat) : State :=
  if devState s = 7 then rxError s src cls op p 0x0102 0x07
  else match rxCheck s src cls op payload with
    | (some (st, reason), s) => rxError s src cls op p st reason
    | (none, s) =>
      match op.kind.toNat with
      | 1 => rxEnd (if payload = [] then (none, s) else rxPut s op payload) src cls op p
      | 2 => rxEnd (rxAdd s op payload) src cls op p
      | 3 => markPerf (rxSignal s src op) src cls p
      | 4 =>
        match (if payload = [] then (none, s) else rxPut s op payload) with
        | (some (st, reason), s) => rxError s src cls op p st reason
        | (none, s) => markPerf (if op.operand = 0 then s else rxSignal s src op) src cls p
      | 5 =>
        match rxGet s src op with
        | (some (st, reason), _, s) => rxError s src cls op p st reason
        | (none, bs, s) => sendResponse s src cls p (answerOp op 0x81) bs
      | 6 =>
        let (st, old, s) := amoAt s (offOf op.addr) op.akind op.atype op.operand.toNat (leNat payload) (rxRq op)
        if st = stOk then sendResponse s src cls p { answerOp op 0x82 with operand := BitVec.ofNat 64 old } []
        else rxError s src cls op p st (memReason .device st)
      | _ => rxCommand s src cls payload p

/-! ## Holds (R180, R322, R363) -/

/-- The bytes an inbound operation touches at a home slice. -/
def rxSpan (op : OpHeader) (payload : List Byte) : Nat :=
  match op.kind.toNat with | 5 => op.len | 6 => atypeBytes op.atype | 1 => payload.length | 2 => payload.length | 4 => payload.length | _ => 0

/-- A sector the operation must fetch lies behind a held pseudo-channel, or one it overwrites has no room in its slice. -/
def rxBlocked (s : State) (op : OpHeader) (payload : List Byte) : Bool :=
  let off := offOf op.addr
  let n := rxSpan op payload
  localRange s off n == .device && !touchesReserve s off n && (if op.kind == 1 || op.kind == 4 then devWriteHeld s off n else devHeld s off n)

/-- The sectors of device memory that an operation touches. -/
def rxSectors (s : State) (op : OpHeader) (payload : List Byte) : List Nat :=
  if localRange s (offOf op.addr) (rxSpan op payload) = .device then sectorsOf (offOf op.addr) (rxSpan op payload) else []

/-- An operation touches a sector that one of the operations held before it touches: the two keep their order (R180). -/
def rxBehind (s : State) (op : OpHeader) (payload : List Byte) (held : List HeldReq) : Bool :=
  let mine := rxSectors s op payload
  held.any (fun h => (rxSectors s h.op h.payload).any (fun a => decide (a ∈ mine)))

/-- An accepted request is performed, or held. -/
def rxRequest (s : State) (f : Frame) (p : Nat) : State :=
  if serving s && (rxBlocked s f.op f.payload || rxBehind s f.op f.payload (s.fab.flows.map (·.rxHeld)).flatten) then
    let fl := getFlow s f.src f.cls
    setFlow s { fl with rxHeld := fl.rxHeld ++ [{ psn := p, op := f.op, payload := f.payload, ackNow := f.ackNow, port := f.port }] }
  else rxPerform s f.src f.cls f.op f.payload p

/-- Held requests that nothing blocks any more are performed, in arrival order; one stays behind those that stay to its sectors. -/
def rxRelease (s : State) : State :=
  let all := (s.fab.flows.map (fun f => f.rxHeld.map (fun h => (f.peer, f.cls, h)))).flatten
  (all.foldl (fun (acc : State × List HeldReq) x =>
    let (peer, cls, h) := x
    let (s, kept) := acc
    if rxBlocked s h.op h.payload || rxBehind s h.op h.payload kept then (s, kept ++ [h])
    else
      let f := getFlow s peer cls
      (rxPerform (setFlow s { f with rxHeld := f.rxHeld.filter (fun x => x.psn != h.psn) }) peer cls h.op h.payload h.psn, kept)) (s, [])).1

/-! ## Responses (R321, R326, R331) -/

/-- A response or an ERROR_RESP has arrived for the packet at REQ_PSN: the request completes, or the put is marked failed. `kind` is the request
kind that the response answers, 0 for any. -/
def rxReply (s : State) (f : Frame) (p kind : Nat) (st : W16) (detail : W32) (data : List Byte) (operand : W64) : State :=
  let fl := getFlow s f.src f.cls
  let s := match fl.sent.find? (fun x => x.psn % 2 ^ 24 == f.op.reqPsn && !x.answered && decide (x.op.kind.toNat < 0x80) &&
      (kind == 0 || x.op.kind.toNat == kind)) with
    | none => s
    | some x =>
      if answeredKind x.op.kind then
        let s := setFlow s { fl with sent := mapIf (fun y => y.psn == x.psn) (fun y => { y with answered := true }) fl.sent }
        settleOps (pktComplete s x f.src f.cls st detail data operand)
      else setFlow s { fl with sent := mapIf (fun y => y.psn == x.psn) (fun y => { y with failed := some (st, detail) }) fl.sent }
  markPerf s f.src f.cls p

end Sys2Proof.Machine
end

