-- ==== Sys2Proof/Machine/FabricRows.lean ====
section
/-! DEFINITION. The Level fabric's rows: inbound operations and responses (R321), acknowledgement, retransmission, rate and path control (R324 to R331),
links and neighbours (R311, R312). -/
namespace Sys2Proof.Machine

/-! ## Inbound requests (R321) -/

/-- A DATA packet of one kind arrives. -/
def rxKind (s : State) (f : Frame) (k : Byte) : State := if f.op.kind = k then rxData s f (fun s p => rxRequest s f p) else s

/-- PUT (R321). -/
def execPut (f : Frame) (s : State) : Res := .next (rxKind s f 1)
/-- LEVEL_ADD (R321): the kind ADD. -/
def execLevelAdd (f : Frame) (s : State) : Res := .next (rxKind s f 2)
/-- SIGNAL (R321). -/
def execSignal (f : Frame) (s : State) : Res := .next (rxKind s f 3)
/-- PUT_SIGNAL (R321, R334). -/
def execPutSignal (f : Frame) (s : State) : Res := .next (rxKind s f 4)
/-- GET (R321). -/
def execGet (f : Frame) (s : State) : Res := .next (rxKind s f 5)
/-- ATOMIC (R337). -/
def execAtomic (f : Frame) (s : State) : Res := .next (rxKind s f 6)
/-- COMMAND (R277). -/
def execCommand (f : Frame) (s : State) : Res := .next (rxKind s f 7)

/-- RESERVED_KIND_PACKET (R321): a kind the table does not have is answered with ERROR_RESP, reason BAD_OPERATION. -/
def execReservedKindPacket (f : Frame) (s : State) : Res :=
  let k := f.op.kind.toNat
  if (1 ≤ k ∧ k ≤ 7) ∨ (0x81 ≤ k ∧ k ≤ 0x84) then .next s else .next (rxData s f (fun s p => rxRequest s f p))

/-! ## Responses -/

/-- GET_RESP (R321): completes the GET with its bytes. -/
def execGetResp (f : Frame) (s : State) : Res :=
  .next (if f.op.kind = 0x81 then rxData s f (fun s p => rxReply s f p 5 stOk 0 f.payload 0) else s)
/-- ATOMIC_RESP (R321): completes the ATOMIC with the old value. -/
def execAtomicResp (f : Frame) (s : State) : Res :=
  .next (if f.op.kind = 0x82 then rxData s f (fun s p => rxReply s f p 6 stOk 0 [] f.op.operand) else s)
/-- COMMAND_REPLY (R321): completes the COMMAND. -/
def execCommandReply (f : Frame) (s : State) : Res :=
  .next (if f.op.kind = 0x83 then rxData s f (fun s p => rxReply s f p 7 stOk 0 f.payload 0) else s)
/-- ERROR_RESP (R321, R331): completes the request at REQ_PSN with STATUS and DETAIL, or marks the put there failed. -/
def execErrorResp (f : Frame) (s : State) : Res :=
  .next (if f.op.kind = 0x84 then rxData s f (fun s p => rxReply s f p 0 f.op.status (BitVec.ofNat 32 f.op.len) [] 0) else s)

/-! ## Acknowledgement (R322, R326, R327, R329) -/

/-- The body, whose own RCV_PSN is `rcv`, reports a packet number received (R327). -/
def ackReports (f : Flow) (b : AckBody) (rcv p : Nat) : Bool :=
  decide (p < rcv) || (decide (rcv < p) && decide (p ≤ rcv + 64) && bit b.sack (p - rcv - 1)) || psnNear f.rcv b.highPsn == some p

/-- The round-trip estimate takes a sample (R327; the gains 1/8 and 1/4 are log entry 20, PRESUMED). -/
def rttSample (f : Flow) (m : Nat) : Flow :=
  if f.srtt = 0 then { f with srtt := m, rttvar := m / 2 }
  else
    let d := if m < f.srtt then f.srtt - m else m - f.srtt
    { f with srtt := (7 * f.srtt + m) / 8, rttvar := (3 * f.rttvar + d) / 4 }

/-- The sum of the rates of a peer's usable sub-ports (R329). -/
def lineRate (s : State) (peer cls : Nat) : Nat := sumNat ((usable s peer cls).map (fun n => subRate s (n / 8)))

/-- The rate rule of an ACK that reports CE marks (R329); α in units of 2^−32. -/
def rateCut (s : State) (f : Flow) (b : AckBody) : Flow :=
  if b.ece = 0 then f
  else
    let share := b.ece * 2 ^ 32 / max b.rcvd 1
    let alpha := ((f.alpha * 15 + share) / 16)
    let f := { f with alpha := alpha, eceSeen := true }
    if f.lastCut + max f.srtt 5000 ≤ mono s then
      let r := f.rate.getD (lineRate s f.peer f.cls)
      { f with rate := some (max 1000000000 (r * (2 ^ 33 - alpha) / 2 ^ 33)), lastCut := mono s, ai := 10000000000, quiet := 0 }
    else f

/-- The waiting responses that the requester has received, by RCV_PSN: their requests are performed (R325). -/
def settleResponses (s : State) (peer cls : Nat) : State :=
  let f := getFlow s peer cls
  let waits (p : Nat) : Bool :=
    (f.sent.any (fun x => decide (0x80 ≤ x.op.kind.toNat) && x.op.reqPsn == p % 2 ^ 24 && decide (f.rcv ≤ x.psn))) ||
      f.waitq.any (fun x => decide (0x80 ≤ x.op.kind.toNat) && x.op.reqPsn == p % 2 ^ 24)
  let ready := f.waitResp.filter (fun w => !waits w.1)
  let s := setFlow s { f with waitResp := f.waitResp.filter (fun w => waits w.1) }
  ready.foldl (fun s w => markPerf s peer cls w.1) s

/-- An ACK is applied to the flow it acknowledges: what it reports received, the estimate and RTO, the rate, then what DONE_PSN completes. -/
def ackApply (s : State) (peer cls : Nat) (b : AckBody) : State :=
  let f := getFlow s peer cls
  let own := (psnNear f.rcv b.rcvPsn).getD 0
  let rcv := max f.rcv own
  let done := max f.doneP ((psnNear f.doneP b.donePsn).getD 0)
  if f.next < rcv ∨ rcv < done then s
  else
    let new := f.sent.filter (fun x => ackReports f b own x.psn && !x.received)
    let sample := ((new.filter (fun x => !x.resent)).getLast?).map (fun x => mono s - x.sentAt)
    let f1 := match sample with | some m => rttSample f m | none => f
    let sent := f1.sent.map (fun x =>
      let r := x.received || decide (x.psn < rcv) || ackReports f b own x.psn
      { x with received := r, heldAt := if r && b.held && decide (done ≤ x.psn) then some (mono s) else x.heldAt })
    let f2 := { f1 with sent := sent, rcv := rcv, doneP := done, latest := new.foldl (fun t x => max t x.sentAt) f.latest }
    let f3 := if f.rcv < rcv then
        { f2 with lastAdvance := mono s, rto := min 4000000 (max (rtoMinNs s) (f2.srtt + 4 * f2.rttvar)) }
      else f2
    let f4 := rateCut s f3 b
    let put (x : Sent) : Bool := decide (x.psn < done) && !x.answered && !answeredKind x.op.kind
    let ended := f4.sent.filter (fun x => put x && decide (x.op.kind.toNat < 0x80))
    let left := f4.sent.filter (fun x => !(decide (x.psn < done) && (x.answered || !answeredKind x.op.kind)))
    let s := setFlow s { f4 with sent := left }
    let s := ended.foldl (fun s x =>
      let (st, d) := x.failed.getD (0, 0)
      pktComplete s x peer cls st d [] 0) s
    let s := settleResponses (settleOps s) peer cls
    pump s peer cls

/-- ACK (R322, R326): an acknowledgement of the present incarnation. -/
def execAck (f : Frame) (s : State) : Res :=
  if !rxUp s f then .next s
  else
    let s := portTally s f.port 3 1
    if !knownPeer s f.src then .next (portTally s f.port 8 1)
    else
      let fl := getFlow s f.src f.cls
      if f.incarn ≠ fl.incarn ∨ (f.dstEpoch ≠ 0 ∧ f.dstEpoch ≠ epoch s) then .next s
      else .next (settleTwin (ackApply (setFlow s { fl with peerEpoch := f.srcEpoch }) f.src f.cls f.ack))

/-- RESET (R324): every outstanding operation of the flow completes with REMOTE_ERROR, reason FLOW_RESET, and the flow starts anew. -/
def execReset (f : Frame) (s : State) : Res :=
  if !rxUp s f then .next s
  else
    let s := portTally s f.port 3 1
    if !knownPeer s f.src then .next (portTally s f.port 8 1)
    else
      let fl := getFlow s f.src f.cls
      if f.incarn ≠ fl.incarn ∨ fl.next = 0 then .next s
      else
        let s := setFlow s { fl with peerEpoch := f.srcEpoch }
        .next (settleTwin (flowReset s f.src f.cls stRemote 0x050203))

/-- The flow an index names. -/
def flowAt (s : State) (i : Nat) : Option Flow := s.fab.flows[i]?

/-- The ACK body of a flow's receiving half (R322). -/
def ackBody (f : Flow) : AckBody :=
  { rcvPsn := f.rxRcv % 2 ^ 24, held := decide (f.rxHeld ≠ []), donePsn := f.rxDone % 2 ^ 24
    sack := (List.range 64).foldl (fun (m : BitVec 64) i => if f.rxRcv + 1 + i ∈ f.rxHave then m ||| (1#64 <<< i) else m) 0
    highPsn := f.rxHigh % 2 ^ 24, ece := min f.rxEce 65535, rcvd := min f.rxCount 65535 }

/-- ACK_SEND (R326): the receiver acknowledges what is due, or what it holds. -/
def execAckSend (flow : Nat) (s : State) : Res :=
  match flowAt s flow with
  | none => .next s
  | some f =>
    if (!f.ackDue && decide (f.rxHeld = [])) || decide (usable s f.peer f.cls = []) || f.rxPair.isNone then .next s
    else
      let s := sendControl s f.peer f.cls 32 (fun w => .ack w (txHeader s f (f.rxPair.getD (0, 0)).2) (ackBody f))
      .next (setFlow s { f with ackDue := false, rxEce := 0, rxCount := 0 })

/-! ## Retransmission (R327, R328) -/

/-- A path is quarantined for 1 ms; when more than half the paths would be, the oldest quarantine ends (R328). -/
def quarantinePath (s : State) (f : Flow) (p : Nat) : Flow :=
  let live := f.quarantine.filter (fun q => decide (mono s < q.2) && q.1 != p) ++ [(p, mono s + 1000000)]
  { f with quarantine := if pathsOf s < 2 * live.length then live.drop 1 else live }

/-- A packet is sent again on the next unquarantined path after the one it last took; a peer with no usable sub-port holds it (R328). -/
def resend (s : State) (peer cls psn : Nat) : State :=
  let f := getFlow s peer cls
  match f.sent.find? (fun x => x.psn == psn && decide (usable s peer cls ≠ [])) with
  | none => s
  | some x =>
    let path := choosePath s f (x.path + 1)
    let y := { x with path := path, sentAt := mono s, resent := true }
    sendData (setFlow s { f with sent := mapIf (fun z => z.psn == psn) (fun _ => y) f.sent }) f y path true

/-- RETRANSMIT (R327): packets overtaken by one sent REORDER_NS later are declared lost, their paths quarantined, and sent again. -/
def execRetransmit (flow : Nat) (s : State) : Res :=
  match flowAt s flow with
  | none => .next s
  | some f =>
    let lost := f.sent.filter (fun x => !x.received && decide (x.sentAt + reorderNs s ≤ f.latest) && decide (usable s f.peer f.cls ≠ []))
    .next (lost.foldl (fun s x => resend (setFlow s (quarantinePath s (getFlow s f.peer f.cls) x.path)) f.peer f.cls x.psn) s)

/-- The retransmission time-out in force (R327): RTO_MIN_US before any estimate. -/
def rtoOf (s : State) (f : Flow) : Nat := if f.rto = 0 then rtoMinNs s else f.rto

/-- RTO_EXPIRY (R327): no ACK has advanced RCV_PSN for the time-out; the oldest packet goes again and the time-out doubles. -/
def execRtoExpiry (flow : Nat) (s : State) : Res :=
  match flowAt s flow with
  | none => .next s
  | some f =>
    match f.sent.find? (fun x => !x.received) with
    | none => .next s
    | some x =>
      if mono s < max f.lastAdvance x.sentAt + rtoOf s f ∨ usable s f.peer f.cls = [] then .next s
      else .next (resend (setFlow s { f with rto := min (2 * rtoOf s f) 4000000 }) f.peer f.cls x.psn)

/-- RATE_INCREASE (R329): 5 µs have passed for a flow. -/
def execRateIncrease (flow : Nat) (s : State) : Res :=
  match flowAt s flow with
  | none => .next s
  | some f =>
    if f.eceSeen then .next (setFlow s { f with eceSeen := false })
    else
      let quiet := f.quiet + 1
      let ai := if 20 < quiet then min (2 * f.ai) 160000000000 else f.ai
      let line := lineRate s f.peer f.cls
      let rate := f.rate.map (fun r => min line (r + ai))
      .next (setFlow s { f with quiet := quiet, ai := ai, rate := rate, alpha := f.alpha * 15 / 16 })

/-- QUARANTINE_END (R328): a path's millisecond is over. -/
def execQuarantineEnd (flow path : Nat) (s : State) : Res :=
  match flowAt s flow with
  | none => .next s
  | some f => .next (setFlow s { f with quarantine := f.quarantine.filter (fun q => !(q.1 == path && decide (q.2 ≤ mono s))) })

/-! ## Time-outs (R331) -/

/-- The peer has had no usable sub-port since the packet joined its flow. -/
def pathless (f : Flow) (x : Sent) : Bool := match f.noPath with | some t => decide (t ≤ x.firstAt) | none => false

/-- The DETAIL of a FABRIC_TIMEOUT: NO_PATH, NO_ACK or NOT_DONE. -/
def timeoutDetail (f : Flow) (x : Sent) : W32 :=
  let reason := if x.received then 0x11 else if pathless f x then 0x12 else 0x10
  BitVec.ofNat 32 (reason * 65536 + 0x0202)

/-- OP_TIMEOUT (R331): an operation has had OP_TIMEOUT_MS since its first transmission and since the last ACK that reported it held; it and every
other operation of its flow complete with FABRIC_TIMEOUT and the flow is reset. An operation that waits for the window or for tokens has not been sent;
one that waits because its peer has had no usable sub-port times out from the moment it joined its flow (R328, R331). -/
def execOpTimeout (flow psn : Nat) (s : State) : Res :=
  match flowAt s flow with
  | none => .next s
  | some f =>
    let x? := match f.sent.find? (fun x => x.psn == psn) with
      | some x => some x
      | none => if f.next ≤ psn then (f.waitq[psn - f.next]?).filter (pathless f) else none
    match x? with
    | none => .next s
    | some x =>
      let due := max x.firstAt (x.heldAt.getD 0) + opTimeoutNs s
      if x.answered || decide (0x80 ≤ x.op.kind.toNat) || decide (mono s < due) then .next s
      else .next (settleTwin (flowResetBy s f.peer f.cls stTimeout (timeoutDetail f)))

/-! ## Links and neighbours (R310 to R312) -/

/-- Lanes of sub-port j in a mode, as a mask (R310). -/
def subLanes (m j : Nat) : Nat := match m with | 1 => 0xFF | 2 => 0xF * 16 ^ j | 3 => 2 ^ j | _ => 0

/-- A port with clocks. -/
def portLive (s : State) : Bool := serving s || devState s == 7

/-- A link change's PORT entry (R359). -/
def logPort (s : State) (k subs detail : Nat) : State := logErr s { cls := 0x21, port := 7, loc := locF k 0 subs, detail := detail }

/-- LINK_UP (R311): a configured sub-port reaches link-up. The PMA, FEC and deskew latencies it measures are free values (R352; log entry 152, DESIGN CHOICE). -/
def execLinkUp (port sub : Nat) (s : State) : Res :=
  let m := rf s (FAB_PORT_LINK port) 0 2
  if !portLive s || decide (4 < port) || decide (modeSubs m ≤ sub) || subUp s port sub || decide (port ∈ s.faults.portsOut) then .next s
  else
    let s := wf s (FAB_PORT_LINK port) (2 + sub) 1 1
    let s := wr s (FAB_PORT_LANE port) (rd s (FAB_PORT_LANE port) ||| BitVec.ofNat 32 (subLanes m sub))
    let all := (List.range (modeSubs m)).all (fun j => subUp s port j)
    let s := if all then wf s (FAB_PORT_LINK port) 10 1 0 else s
    let s := logPort s port (2 ^ sub) 1
    let (rx, s) := draw s 32
    let (tx, s) := draw s 32
    let s := notePaths { s with time := { s.time with latency := tput s.time.latency (8 * port + sub) (rx.toNat, tx.toNat) } }
    .next (s.fab.flows.foldl (fun s f => pump s f.peer f.cls) s)

/-- LINK_DOWN (R311): a sub-port's link drops; it stops carrying packets, and its port trains again. -/
def execLinkDown (port sub : Nat) (s : State) : Res :=
  let m := rf s (FAB_PORT_LINK port) 0 2
  if 4 < port ∨ !subUp s port sub then .next s
  else
    let s := wf (wf s (FAB_PORT_LINK port) (2 + sub) 1 0) (FAB_PORT_LINK port) 10 1 1
    let s := wr s (FAB_PORT_LANE port) (rd s (FAB_PORT_LANE port) &&& ~~~(BitVec.ofNat 32 (subLanes m sub)))
    .next (notePaths (logPort s port (2 ^ sub) 0))

/-- The IPv6 interface address formed from a MAC (R339). -/
def linkLocal (mac : BitVec 48) : BitVec 128 :=
  let m := mac.toNat
  let hi := m / 2 ^ 24 ^^^ 0x020000
  BitVec.ofNat 128 (0xFE80 * 2 ^ 112 + hi * 2 ^ 40 + 0xFFFE * 2 ^ 24 + m % 2 ^ 24)

/-- An address is the node's own on a sub-port (R312, R316, R339). -/
def ownAddr (s : State) (n : Neighbour) : Bool :=
  if n.port = 4 then n.v6 && decide (n.target = linkLocal (portMac s 4 n.sub))
  else if n.v6 then decide (fld s.fab.node 0 128 ≠ 0) && decide (n.target.toNat = fld s.fab.node 0 128)
  else decide (fld s.fab.node 256 32 ≠ 0) && decide (n.target.toNat = fld s.fab.node 256 32)

/-- Some sub-port of the port is up on a live device. -/
def portUp (s : State) (k : Nat) : Bool := portLive s && decide (k ≤ 4) && decide (rf s (FAB_PORT_LINK k) 2 8 ≠ 0)

/-- A neighbour's message is received: its sub-port is up on a live device. -/
def neighUp (s : State) (n : Neighbour) : Bool := portLive s && decide (n.port ≤ 4) && subUp s n.port n.sub

/-- A frame that waited for a next hop has its MAC. -/
def TxFrame.resolved (f : TxFrame) (a : BitVec 128) (mac : BitVec 48) : TxFrame :=
  if !awaitsHop a f then f
  else match f with
    | .data w h op payload msg => .data { w with mac := some mac } h op payload msg
    | .ack w h body => .ack { w with mac := some mac } h body
    | .reset w h => .reset { w with mac := some mac } h
    | x => x

/-- A resolution message: a request for an own address is answered; an answer's address is learnt, and what waited for it leaves (R312). -/
def resolve (s : State) (n : Neighbour) : State :=
  if !neighUp s n then s
  else if n.request then (if ownAddr s n then txPush s (.neighbour n.port n.sub n.target (portMac s n.port n.sub)) else s)
  else
    let rest := s.fab.neigh.filter (fun x => decide (x.1 ≠ n.senderAddr))
    { s with fab := { s.fab with
      neigh := (n.senderAddr, n.senderMac) :: rest, tx := s.fab.tx.map (fun f => f.resolved n.senderAddr n.senderMac) } }

/-- NEIGHBOUR_DISCOVERY (R312). -/
def execNeighbourDiscovery (n : Neighbour) (s : State) : Res := .next (if n.v6 then resolve s n else s)
/-- ARP (R312). -/
def execArp (n : Neighbour) (s : State) : Res := .next (if n.v6 then s else resolve s n)
/-- ICMP_ECHO (R312): an echo request to an own address is answered. -/
def execIcmpEcho (n : Neighbour) (s : State) : Res :=
  .next (if neighUp s n && n.request && ownAddr s n then txPush s (.echo n.port n.sub n.target) else s)
/-- OTHER_FRAME (R312): discarded and counted. -/
def execOtherFrame (port : Nat) (s : State) : Res := .next (if portUp s port then portTally s port 7 1 else s)
/-- RX_BAD_PACKET (R317 to R319): discarded and counted, as malformed or as from no peer. -/
def execRxBadPacket (port : Nat) (unknown : Bool) (s : State) : Res := .next (if portUp s port then portTally s port (if unknown then 8 else 6) 1 else s)

/-! ## Commands (R288) -/

/-- A port is absent (R275, R310). -/
def portAbsent (s : State) (k : Nat) : Bool × Nat := (decide (ports s ≤ k) && decide (k < 4), 2 + 256 * k)

/-- PORT_CONFIG (R288, R310, R313). -/
def execPortConfig (id : Nat) (s : State) : Res :=
  .next (runCmd s id 0x0600 fun s c =>
    let k := pk c.pkt 16 1
    let m := pk c.pkt 17 1
    let a : W64 := BitVec.ofNat 64 (pk c.pkt 24 8)
    let modeBad := decide (4 < k) || decide (3 < m) || (k == 4 && decide (1 < m))
    let lanes (b : Line) : List Nat := (List.range 8).map (fun i => fld b (72 + 3 * i) 3)
    let bad (bs : List Byte) : List (Bool × Nat) :=
      let b := lineOf bs
      [(decide (fld b 50 6 ≠ 0) || decide (fld b 96 416 ≠ 0), 0x01), (decide ((lanes b).eraseDups.length ≠ 8) || bit b 40, 0x84)]
    withBlock s c a 64 (fun more => checks s c [] false ([bufBad s a 64, (modeBad, 0xB8)] ++ more) [portAbsent s k] [] false) bad fun s bs =>
    let b := lineOf bs
    let s := { s with fab := { s.fab with ports := tset s.fab.ports k b 0 }, faults := { s.faults with portsOut := s.faults.portsOut.filter (· ≠ k) } }
    let s := wr s (FAB_PORT_LANE k) 0
    complete (notePaths (wr s (FAB_PORT_LINK k) (pack 32 [(0, 2, m), (10, 1, b2n (m != 0))]))) c stOk 0 0)

/-- The 96 bytes of PORT_STATUS (R341). -/
def portImage (s : State) (k : Nat) : List Byte :=
  bytesOf (rd s (FAB_PORT_LINK k)) ++ bytesOf (rd s (FAB_PORT_LANE k)) ++ List.replicate 8 0 ++
    ((List.range 10).map (fun i => bytesOf (rd64 s (FAB_PORT_FEC_CORR k + 8 * i)))).flatten

/-- PORT_STATUS (R341). -/
def execPortStatus (id : Nat) (s : State) : Res :=
  .next (runCmd s id 0x0601 fun s c =>
    let k := pk c.pkt 16 1
    let a : W64 := BitVec.ofNat 64 (pk c.pkt 24 8)
    checked s c (checks s c [] false [bufBad s a 96, (decide (4 < k), 0xB8)] [portAbsent s k] [] false) fun s =>
    replyBuffer s c a (portImage s k) 0)

/-- A node block out of range (R316). -/
def nodeBlockBad (b : BitVec 1024) : Bool :=
  let ranged (lo len a z : Nat) : Bool := let v := fld b lo len; decide (v ≠ 0) && (decide (v < a) || decide (z < v))
  let sport := let v := fld b 368 16; if v = 0 then 49152 else v
  decide (fld b 336 16 ≠ 0) || decide (fld b 392 8 ≠ 0) || decide (fld b 431 17 ≠ 0) || decide (fld b 528 496 ≠ 0) ||
    decide (65536 < sport + fld b 384 8 + 1) || ranged 400 16 1280 9000 || ranged 480 16 6 1000 || ranged 496 16 10 4000 ||
    ranged 512 16 500 65535 || decide (128 < fld b 320 8) || decide (32 < fld b 328 8) || (List.range 4).any (fun i => decide (63 < fld b (448 + 8 * i) 8))

/-- Every flow is reset (R324). -/
def resetFlows (s : State) (st : W16) (detail : W32) (p : Flow → Bool) : State :=
  (s.fab.flows.filter p).foldl (fun s f => flowReset s f.peer f.cls st detail) s

/-- NODE_CONFIG (R316). -/
def execNodeConfig (id : Nat) (s : State) : Res :=
  .next (runCmd s id 0x0602 fun s c =>
    let n := pk c.pkt 16 2
    let a : W64 := BitVec.ofNat 64 (pk c.pkt 24 8)
    withBlock s c a 128 (fun more => checks s c [] false ([bufBad s a 128, (n == 0 || n == 0xFFFF, 0x80)] ++ more) [] [] false)
      (fun bs => [(nodeBlockBad (BitVec.ofNat 1024 (leNat bs)), 0x81)]) fun s bs =>
    let b : BitVec 1024 := BitVec.ofNat 1024 (leNat bs)
    let changed := decide (n ≠ nodeNum s)
    let s := { wf s FAB_NODE 0 16 n with fab := { s.fab with node := b } }
    complete (if changed then settleTwin (resetFlows s stRemote 0x050203 (fun _ => true)) else s) c stOk 0 0)

/-- PEER_SET (R317). -/
def execPeerSet (id : Nat) (s : State) : Res :=
  .next (runCmd s id 0x0603 fun s c =>
    let n := pk c.pkt 16 2
    let a : W64 := BitVec.ofNat 64 (pk c.pkt 24 8)
    let full := (peerOf s n).isNone && decide (4096 ≤ s.fab.peers.length)
    withBlock s c a 64 (fun more => checks s c [] false ([bufBad s a 64, (isLocalNode s n || n == 0xFFFF, 0x80)] ++ more) [] [] full)
      (fun bs => [(decide (fld (lineOf bs) 201 311 ≠ 0), 0x01)]) fun s bs =>
    let s := notePaths { s with fab := { s.fab with peers := tput s.fab.peers n (lineOf bs) } }
    complete ([0, 1, 2, 3].foldl (fun s k => pump s n k) s) c stOk 0 0)

/-- PEER_CLEAR (R317): the flows with the peer are reset, reason PEER_CLEARED, and the entry is removed. -/
def execPeerClear (id : Nat) (s : State) : Res :=
  .next (runCmd s id 0x0604 fun s c =>
    let n := pk c.pkt 16 2
    checked s c (checks s c [] false [] [] [] false) fun s =>
    let s := settleTwin (resetFlows s stRemote 0x060203 (fun f => f.peer == n))
    complete { s with fab := { s.fab with peers := tdel s.fab.peers n } } c stOk 0 0)

end Sys2Proof.Machine
end

