-- ==== Sys2Proof/Machine/TensorOps.lean ====
section
/-! DEFINITION. Tensor descriptors (R50 to R55) and hoist move descriptors (R62), element places (R52 to R54), and the checks of a move in the
order of R65. -/
namespace Sys2Proof.Machine

/-- A tensor descriptor (R50). -/
abbrev TDesc := BitVec 1024

def tdBase (d : TDesc) : Nat := fld d 0 64
def tdFmt (d : TDesc) : Nat := fld d 64 4
def tdScaled (d : TDesc) : Bool := bit d 68
def tdSat (d : TDesc) : Bool := bit d 69
def tdRnd (d : TDesc) : Nat := fld d 70 2
def tdRank (d : TDesc) : Nat := fld d 72 3
def tdPlanar (d : TDesc) : Bool := fld d 75 2 == 1
def tdIdxMode (d : TDesc) : Nat := fld d 77 2
def tdIndexed (d : TDesc) : Bool := bit d 79
def tdBlkC (d : TDesc) : Nat := fld d 80 3
def tdBlkR (d : TDesc) : Nat := fld d 83 3
def tdKind (d : TDesc) : Nat := fld d 86 2
def tdAccum (d : TDesc) : Bool := bit d 88
def tdIdxDim (d : TDesc) : Nat := fld d 89 3
def tdSize (d : TDesc) (k : Nat) : Nat := fld d (96 + 32 * k) 32
def tdStride (d : TDesc) (k : Nat) : Nat := if k = 0 then 0 else fld d (288 + 48 * (k - 1)) 48
def tdScaleAddr (d : TDesc) : Nat := fld d 576 64
def tdScaleStride (d : TDesc) : Nat := fld d 640 48
def tdIdxAddr (d : TDesc) : W64 := BitVec.ofNat 64 (fld d 704 64)
def tdIdxCount (d : TDesc) : Nat := fld d 768 32

/-- The dimensions in use. -/
def tdDims (d : TDesc) : List Nat := List.range (tdRank d)

def tdBlocked (d : TDesc) : Bool := decide (tdBlkC d ≠ 0) || decide (tdBlkR d ≠ 0)

/-- The extent of a dimension (R51). -/
def tdExtent (d : TDesc) (k : Nat) : Nat :=
  if k ≠ 0 then tdStride d k * tdSize d k
  else if tdBlocked d then cdiv (tdSize d 0) (2 ^ tdBlkC d) * 2 ^ tdBlkR d * 2 ^ tdBlkC d * fmtBits (tdFmt d) / 8
  else cdiv (tdSize d 0 * fmtBits (tdFmt d)) 8

/-- The node a Level address names, 0 for the N8 itself (R314). -/
def nodeAt (s : State) (a : Nat) : Nat := let n := a / 2 ^ 48 % 2 ^ 16; if isLocalNode s n then 0 else n

/-- Rule 0x04 of R51. A remote register image is an endpoint of its own kind (R333). The sender does not know another node's regions. -/
def tdPlaceOk (s : State) (d : TDesc) : Bool :=
  let a := tdBase d
  let own := nodeAt s a == 0
  match (if own then localRange s (a % 2 ^ 48) 1 else remoteRange (a % 2 ^ 48) 1) with
  | .device => !own || (viewOf s (a % 2 ^ 48)).isSome == tdPlanar d
  | .scratch | .window => !tdPlanar d
  | .image => !own && tdFmt d == 10 && tdRank d == 1 && !tdPlanar d
  | _ => false

/-- The PLANAR rules (R55). -/
def tdPlanarOk (s : State) (d : TDesc) : Bool :=
  let f := tdFmt d
  let form := tdRank d == 2 && !tdBlocked d && !tdIndexed d && !tdAccum d &&
    (if tdKind d = 0 then (f == 9 || f == 8 || (f == 7 && tdScaled d)) else f == 8 && !tdScaled d && tdSize d 0 == 128 && tdSize d 1 == 512)
  form && (if nodeAt s (tdBase d) ≠ 0 then true else
    match viewOf s (tdBase d % 2 ^ 48) with
    | none => false
    | some (r, v) => tdKind d == r.kind && (decide (r.kind ≠ 0) || (f == r.fmt && tdScaled d == r.scaled && tdSize d 0 == r.rowLen)) &&
        v % (if r.kind = 0 then 512 * r.pitch else 65536) == 0)

/-- The lowest code of R51 that a descriptor breaks. An INDEX_COUNT of 0 breaks none of them; the pairing rules of R65 see it. ACCUM in a
source means nothing (log entry 140, DESIGN CHOICE). -/
def tdCheck (s : State) (d : TDesc) (dst : Bool) : Option Nat :=
  let w := fmtBits (tdFmt d)
  let bad : List (Bool × Nat) := [
    (w == 0 || decide (1 < tdRnd d) || decide (1 < fld d 75 2) || tdKind d == 3 ||
       (tdIndexed d && tdIdxMode d == 3) || tdRank d == 0 || decide (6 < tdRank d) ||
       (tdDims d).any (fun k => tdSize d k == 0) ||
       decide (fld d 92 4 ≠ 0 ∨ fld d 528 48 ≠ 0 ∨ fld d 688 16 ≠ 0 ∨ fld d 800 224 ≠ 0), 0x01),
    (tdScaled d && !fmtScalable (tdFmt d), 0x02),
    (decide (8 ≤ w) && (decide (tdBase d % (w / 8) ≠ 0) || (tdDims d).any (fun k => decide (tdStride d k % (w / 8) ≠ 0))), 0x03),
    (!tdPlaceOk s d, 0x04),
    ((tdRank d == 1 && decide (tdBlkR d ≠ 0)) || (tdBlocked d && decide (tdBlkR d + tdBlkC d < 5)), 0x05),
    (dst && ((tdDims d).any (fun k => decide (1 ≤ k ∧ 1 < tdSize d k ∧ (tdStride d k = 0 ∨ tdStride d k < tdExtent d (k - 1)))) ||
       (tdScaled d && (tdDims d).any (fun k => decide (1 ≤ k ∧ 1 < tdSize d k)) && decide (tdScaleStride d < cdiv (tdSize d 0) 32))), 0x06),
    (tdIndexed d && (tdIdxDim d == 0 || decide (tdRank d ≤ tdIdxDim d) || tdPlanar d), 0x07),
    (dst && tdAccum d && (tdPlanar d || !(tdFmt d == 0 || tdFmt d == 1 || tdFmt d == 2 || tdFmt d == 10) ||
       (match (if nodeAt s (tdBase d) = 0 then localRange s (tdBase d % 2 ^ 48) 1 else remoteRange (tdBase d % 2 ^ 48) 1) with
        | .device => false | _ => true)), 0x08),
    (tdPlanar d && !tdPlanarOk s d, 0x09)]
  (bad.find? (·.1)).map (·.2)

/-! ## Places of elements -/

/-- Index `k` of a tuple. -/
def ix (i : List Nat) (k : Nat) : Nat := i.getD k 0

/-- The bit address of an element (R52); a PLANAR tensor's strides count bytes of the view. -/
def tdBit (d : TDesc) (i : List Nat) : Nat :=
  let w := fmtBits (tdFmt d)
  let far (from_ : Nat) : Nat := (tdDims d).foldl (fun a k => if from_ ≤ k then a + 8 * ix i k * tdStride d k else a) 0
  if tdBlocked d then
    let br := 2 ^ tdBlkR d
    let bc := 2 ^ tdBlkC d
    8 * tdBase d + 8 * (ix i 1 / br) * tdStride d 1 + ix i 0 / bc * br * bc * w + (ix i 1 % br * bc + ix i 0 % bc) * w + far 2
  else 8 * tdBase d + ix i 0 * w + far 1

/-- ρ of R54. -/
def tdRho (d : TDesc) (i : List Nat) : Nat :=
  (tdDims d).reverse.foldl (fun a k => if k = 0 then a else ix i k + tdSize d k * a) 0

/-- The byte of an element's block scale (R54). -/
def tdScale (d : TDesc) (i : List Nat) : Nat := tdScaleAddr d + tdRho d i * tdScaleStride d + ix i 0 / 32

/-- The bytes an element's code lies in. -/
def tdBytes (d : TDesc) (i : List Nat) : List Nat :=
  let a := tdBit d i
  (List.range ((a + fmtBits (tdFmt d) - 1) / 8 - a / 8 + 1)).map (a / 8 + ·)

/-- Every byte an element's value depends on. -/
def tdNeeds (d : TDesc) (i : List Nat) : List Nat := tdBytes d i ++ (if tdScaled d then [tdScale d i] else [])

/-- An element's code from the bytes at hand. -/
def tdCode (got : Tab Byte) (d : TDesc) (i : List Nat) : Nat :=
  let bs := (tdBytes d i).map (fun a => tget got a 0)
  leNat bs / 2 ^ (tdBit d i % 8) % 2 ^ fmtBits (tdFmt d)

/-- An element's value, if every byte it needs is at hand (R33). -/
def tdValue (got : Tab Byte) (d : TDesc) (i : List Nat) : Option FVal :=
  if (tdNeeds d i).all (fun a => (tfind got a).isSome) then
    let x := decodeF (tdFmt d) (tdCode got d i)
    some (if tdScaled d then scaledValue (tdFmt d) x (tget got (tdScale d i) 0).toNat else x)
  else none

/-! ## Move descriptors (R62) -/

def mvOp (d : Line) : Nat := fld d 0 8
def mvOrdered (d : Line) : Bool := bit d 8
def mvSubtag (d : Line) : W16 := BitVec.ofNat 16 (fld d 16 16)
def mvTag (d : Line) : W32 := BitVec.ofNat 32 (fld d 32 32)
def mvSrc (d : Line) : Nat := fld d 64 64
def mvDst (d : Line) : Nat := fld d 128 64
def mvPerm (d : Line) (k : Nat) : Nat := fld d (192 + 3 * k) 3
def mvSem (d : Line) : Nat := fld d 224 16
def mvInc (d : Line) : Nat := fld d 240 16
def mvRecord (d : Line) : Nat := fld d 256 64
def mvFill (d : Line) : Nat := fld d 320 64

/-- The requester of a move's accesses (R162): the hoist. -/
def mvRq (d : Line) : Rq := { port := 1, tag := mvTag d, subtag := mvSubtag d }

/-- Why a move ends as it starts: status, DETAIL, POSITION. -/
abbrev MvFail := W16 × Nat × Nat

/-- The places from which a move reads a structure (R49): a tensor descriptor from device memory or the issuing core's scratchpad, an index array
from any memory of the N8. -/
inductive MvPlaces
  | desc (core : Option Nat)
  | index
deriving DecidableEq, Repr

def MvPlaces.has (p : MvPlaces) (s : State) (off n : Nat) : Bool :=
  match localRange s off n, p with
  | .device, _ => true
  | .scratch, .desc v => decide (v = some ((off - 0x20000000000) / 131072))
  | .scratch, .index | .window, .index => true
  | _, _ => false

/-- A structure that a move reads (R49, R455), or the status met. One outside the memory R49 names is BAD_PARAM with `code` (log entry 36, DEDUCED). One that is
not aligned as R49 and R50 say is read where it stands (log entry 119, DESIGN CHOICE). -/
def mvRead (s : State) (d : Line) (places : MvPlaces) (a n code : Nat) : Except MvFail (List Byte) × State :=
  if !places.has s (a % 2 ^ 48) n then (.error (0x0101, code, 0), s)
  else match localRange s (a % 2 ^ 48) n with
  | .device =>
    if touchesReserve s (a % 2 ^ 48) n then (.error (0x0101, code, 0), addressRefused s (mvRq d) (a % 2 ^ 48))
    else
      let (st, bs, s) := devRead s (a % 2 ^ 48) n (mvRq d)
      (if st = 0 then .ok bs else .error (st, 0, 0), s)
  | .scratch | .window =>
    let (st, bs, s) := localRead s (a % 2 ^ 48) n (mvRq d)
    (if st = 0 then .ok bs else .error (st, 0, 0), s)
  | _ => (.error (0x0101, code, 0), s)

def mvBind {α β : Type} (r : Except MvFail α × State) (k : α → State → Except MvFail β × State) : Except MvFail β × State :=
  match r.1 with
  | .error e => (.error e, r.2)
  | .ok x => k x r.2

/-- An index entry resolved (R67): none faults, some none skips. -/
def resolveIdx (mode size : Nat) (e : Int) : Option (Option Nat) :=
  if 0 ≤ e ∧ e < size then some (some e.toNat)
  else if mode = 1 then some none
  else if mode = 2 ∧ -(size : Int) ≤ e ∧ e < 0 then some (some (e + size).toNat)
  else none

/-- An index array read and resolved; the positions that fault are none. -/
def mvIndices (s : State) (d : Line) (t : TDesc) (code : Nat) : Except MvFail (List (Option (Option Nat))) × State :=
  if !tdIndexed t then (.ok [], s)
  else mvBind (mvRead s d .index (tdIdxAddr t).toNat (4 * tdIdxCount t) code) fun bs s =>
    (.ok ((List.range (tdIdxCount t)).map (fun j =>
      resolveIdx (tdIdxMode t) (tdSize t (tdIdxDim t)) (sxt 32 (leNat ((bs.drop (4 * j)).take 4))))), s)

/-- The shape of a move's iteration (R63). -/
def mvShape (dst : TDesc) : List Nat := (tdDims dst).map (fun k => if tdIndexed dst && k == tdIdxDim dst then tdIdxCount dst else tdSize dst k)

/-- What a move needs to run, once every check has passed. -/
structure MvPlan where
  fill : Bool
  src : TDesc
  dst : TDesc
  srcIdx : List (Option Nat)
  dstIdx : List (Option Nat)
deriving DecidableEq, Repr

/-- PERM is a permutation of 0 to RANK − 1, zero beyond (R63). -/
def permOk (d : Line) (rank : Nat) : Bool :=
  (List.range rank).all (fun j => (List.range rank).any (fun k => mvPerm d k == j)) &&
    (List.range 6).all (fun k => decide (k < rank) || mvPerm d k == 0)

/-- The pairing rules 0x0C to 0x0E (R63, R65). -/
def pairing (d : Line) (fill : Bool) (src dst : TDesc) : Option Nat :=
  if fill then (if tdIndexed dst then some 0x0E else none)
  else
    let shape := mvShape dst
    let feeds (k : Nat) : Bool := tdIndexed src && mvPerm d k == tdIdxDim src
    if tdRank src ≠ tdRank dst ∨ (tdDims dst).any (fun k => !feeds k && tdSize src (mvPerm d k) != ix shape k) then some 0x0C
    else if (tdDims dst).any (fun k => feeds k && tdIdxCount src != ix shape k) then some 0x0D
    else none

/-- The lowest faulting position of an index array (R68). -/
def faultAtPos (xs : List (Option (Option Nat))) : Option Nat := (List.range xs.length).find? (fun j => xs.getD j none == none)

/-- The checks of a move as it starts, in the order of R65, with what the run needs. A destination descriptor that cannot be read leaves
PERM unchecked, and is reported before the source's own codes (log entry 142, DESIGN CHOICE). -/
def mvCheck (s : State) (d : Line) (core : Option Nat) : Except (Option TDesc × MvFail) MvPlan × State :=
  let fill := mvOp d == 2
  let rem (a : Nat) : Bool := nodeAt s a != 0
  let srcRem := !fill && rem (mvSrc d)
  let bad (dst : Option TDesc) (e : MvFail) (s : State) : Except (Option TDesc × MvFail) MvPlan × State := (.error (dst, e), s)
  if (mvOp d ≠ 1 ∧ mvOp d ≠ 2) ∨ fld d 9 7 ≠ 0 ∨ fld d 210 14 ≠ 0 ∨ fld d 384 128 ≠ 0 then bad none (0x0101, 0x0A, 0) s
  else if rem (mvDst d) then bad none (0x0101, 0x86, 0) s
  else
    let (r, s) := mvRead s d (.desc core) (mvDst d) 128 0x101
    match r with
    | .error e => bad none (if srcRem then (0x0101, 0x86, 0) else e) s
    | .ok bs =>
      let dst : TDesc := BitVec.ofNat 1024 (leNat bs)
      let rank := tdRank dst
      if !fill ∧ 1 ≤ rank ∧ rank ≤ 6 ∧ !permOk d rank then bad (some dst) (0x0101, 0x0B, 0) s
      else if srcRem then bad (some dst) (0x0101, 0x86, 0) s
      else
        let (r, s) := if fill then (.ok [], s) else mvRead s d (.desc core) (mvSrc d) 128 0x01
        match r with
        | .error e => bad (some dst) e s
        | .ok bs =>
          let src : TDesc := BitVec.ofNat 1024 (leNat bs)
          let code : Option Nat :=
            match (if fill then none else tdCheck s src false) with
            | some c => some c
            | none => match tdCheck s dst true with
              | some c => some (256 + c)
              | none => match pairing d fill src dst with
                | some c => some c
                | none =>
                  if !fill ∧ rem (tdBase src) ∧ rem (tdBase dst) then some 0x85
                  else if (!fill && tdIndexed src && rem (tdIdxAddr src).toNat) || (tdIndexed dst && rem (tdIdxAddr dst).toNat) then some 0x86
                  else if mvRecord d ≠ 0 ∧ nodeAt s (mvRecord d) ≠ nodeAt s (tdBase dst) then some 0x87
                  else none
          match code with
          | some c => bad (some dst) (0x0101, c, 0) s
          | none =>
            let (ri, s) := mvBind (if fill then (.ok [], s) else mvIndices s d src 0x01) fun si s => mvBind (mvIndices s d dst 0x101) fun di s => (.ok (si, di), s)
            match ri with
            | .error e => bad (some dst) e s
            | .ok (si, di) =>
              match faultAtPos si, faultAtPos di with
              | some p, _ => bad (some dst) (0x0101, 0x10, p) s
              | none, some p => bad (some dst) (0x0101, 0x11, p) s
              | none, none => (.ok { fill := fill, src := src, dst := dst, srcIdx := si.map (·.getD none), dstIdx := di.map (·.getD none) }, s)

/-! ## The iteration (R63) -/

/-- Digit by digit, dimension 0 fastest. -/
def digits (shape : List Nat) (n : Nat) : List Nat :=
  match shape with
  | [] => []
  | k :: r => n % k :: digits r (n / k)

/-- An iteration tuple: the entries of the index arrays it uses, and the source and destination coordinates unless it is skipped. -/
def mvTuple (d : Line) (p : MvPlan) (n : Nat) : (Option Nat × Option Nat) × Option (List Nat × List Nat) :=
  let u := digits (mvShape p.dst) n
  let v := (List.range (tdRank p.dst)).map (fun j => ix u (((List.range (tdRank p.dst)).find? (fun k => mvPerm d k == j)).getD 0))
  let js := if !p.fill && tdIndexed p.src then some (ix v (tdIdxDim p.src)) else none
  let jd := if tdIndexed p.dst then some (ix u (tdIdxDim p.dst)) else none
  let cs := js.map (fun j => p.srcIdx.getD j none)
  let cd := jd.map (fun j => p.dstIdx.getD j none)
  if cs = some none ∨ cd = some none then ((js, jd), none)
  else
    let v := match cs with | some (some c) => v.set (tdIdxDim p.src) c | _ => v
    let u := match cd with | some (some c) => u.set (tdIdxDim p.dst) c | _ => u
    ((js, jd), some (v, u))

def mvTuples (d : Line) (p : MvPlan) : List ((Option Nat × Option Nat) × Option (List Nat × List Nat)) :=
  (List.range ((mvShape p.dst).foldl (· * ·) 1)).map (mvTuple d p)

/-- The source and destination coordinates of the tuples that are not skipped. -/
def mvPairs (d : Line) (p : MvPlan) : List (List Nat × List Nat) := (mvTuples d p).filterMap (·.2)

/-- The number of skipped positions (R68). -/
def mvSkipped (d : Line) (p : MvPlan) : Nat := ((mvTuples d p).filterMap (fun t => match t.2 with | none => some t.1 | some _ => none)).eraseDups.length

end Sys2Proof.Machine
end

