-- ==== Sys2Proof/Machine/Hoist.lean ====
section
/-! DEFINITION. Hoist moves (R62 to R69, R128, R333, R334, R451 to R453): reading the source, conversion, block scales, writing, and the rows MOVE,
FILL, MOVE_RETIRE and MEM_MOVE. -/
namespace Sys2Proof.Machine

/-! ## Reading -/

/-- A sector read for a move: its status, the code of a refusal (R65), and its bytes. It is read at its offset in this N8, whatever node a SCALE_ADDR
beside a local BASE names (log entry 120, DESIGN CHOICE). -/
def mvReadSector (s : State) (d : Line) (a : Nat) : (W16 × Nat) × List Byte × State :=
  let off := a % 2 ^ 48
  match localRange s off 32 with
  | .device =>
    if touchesReserve s off 32 then ((0x0101, 0x0F), [], addressRefused s (mvRq d) off)
    else let (st, bs, s) := sliceRead s off (mvRq d); ((st, 0), bs, s)
  | .scratch | .window => let (st, bs, s) := localRead s off 32 (mvRq d); ((st, 0), bs, s)
  | _ => ((0x0101, 0x0F), [], s)

/-- What a move has met so far: the most severe status and the first refusal's code. -/
structure MvSt where
  st : W16 := 0
  code : Nat := 0
deriving DecidableEq, Repr

def MvSt.add (x : MvSt) (st : W16) (code : Nat) : MvSt := { st := worse x.st st, code := if x.code = 0 then code else x.code }

/-- Bytes of local memory that a move needs, each sector read once; the bytes of sectors read without error. -/
def mvFetch (s : State) (d : Line) (need : List Nat) (x : MvSt) : Tab Byte × MvSt × State :=
  ((need.map (· / 32)).eraseDups).foldl (fun (got, x, s) sec =>
    let ((st, code), bs, s) := mvReadSector s d (32 * sec)
    if st = 0 then ((List.range 32).foldl (fun t i => tput t (32 * sec + i) (bs.getD i 0)) got, x, s)
    else (got, MvSt.add x st code, s)) ([], x, s)

/-! ## Conversion -/

/-- The draw of stochastic rounding from a hoist's generator, seeded when the hoist first needs it (R37). -/
def mvDraw (s : State) (hoist : Nat) (t : TDesc) : Option Nat × State :=
  if tdRnd t = 1 then
    let (r, s) := match tfind s.hoists.rng hoist with | some r => (r, s) | none => draw s 32
    let r := xorshift r
    (some (drawR r), { s with hoists := { s.hoists with rng := tput s.hoists.rng hoist r } })
  else (none, s)

/-- Converted elements (place in the destination, code), scale bytes, the conditions raised, and what went wrong. -/
structure MvOut where
  codes : List (List Nat × Nat) := []
  scales : List (Nat × Nat) := []
  flags : Flg := 0
  x : MvSt := {}
deriving DecidableEq, Repr

/-- Elements converted without a block scale (R38). A FILL writes its code as it is. -/
def mvPlain (s : State) (h : Nat) (p : MvPlan) (code : Nat) (xs : List (List Nat × FVal)) : MvOut × State :=
  xs.foldl (fun (o, s) e =>
    if p.fill then ({ o with codes := o.codes ++ [(e.1, code)] }, s)
    else
      let (r, s) := mvDraw s h p.dst
      let (c, f) := convert (tdFmt p.dst) e.2 (tdSat p.dst) r
      ({ o with codes := o.codes ++ [(e.1, c)], flags := o.flags ||| f }, s)) ({}, s)

/-- A place within the tuple's block: its first index along dimension 0, and the elements it has. -/
def blkFirst (u : List Nat) : Nat := ix u 0 / 32 * 32
def blkTuples (t : TDesc) (u : List Nat) : List (List Nat) :=
  (List.range (min 32 (tdSize t 0 - blkFirst u))).map (fun i => u.set 0 (blkFirst u + i))

/-- The elements of a block that a move does not write (R452). -/
def blkOthers (t : TDesc) (us : List (List Nat)) : List (List Nat) :=
  match us with
  | u :: _ => (blkTuples t u).filter (fun v => !us.any (fun w => ix w 0 == ix v 0))
  | [] => []

/-- One block of a scaled destination (R35, R63, R452): `xs` are the elements the move writes in it, `lost` those that collided with them and gave way
(R69), converted for their conditions only. The block's other elements are read, at another node from what its GETs returned, and recoded under the new
scale; where they cannot be read the block is left alone (log entry 37, DEDUCED). -/
def mvBlock (s : State) (h : Nat) (d : Line) (p : MvPlan) (far : Option (Tab Byte)) (xs lost : List (List Nat × FVal)) (o : MvOut) : MvOut × State :=
  let t := p.dst
  let u0 := match xs with | (u, _) :: _ => u | [] => []
  let sa := tdScale t u0
  let all := blkTuples t u0
  let others := blkOthers t (xs.map (·.1))
  if others = [] ∧ p.fill then
    ({ o with codes := o.codes ++ xs.map (fun e => (e.1, mvFill d % 2 ^ fmtBits (tdFmt t))), scales := o.scales ++ [(sa, mvFill d / 2 ^ 56 % 256)] }, s)
  else
    let (got, x, s) := match far with
      | some got => (got, o.x, s)
      | none => mvFetch s d ((others.map (tdNeeds t)).flatten) o.x
    let vals := all.map (fun v => match xs.find? (fun e => ix e.1 0 == ix v 0) with | some e => some e.2 | none => tdValue got t v)
    if vals.any (·.isNone) then ({ o with x := x }, s)
    else
      let vs := vals.map (·.getD .nan)
      let c := blockScale (tdFmt t) vs
      let conv (o : MvOut) (s : State) (u : List Nat) (v : FVal) (keep : Bool) : MvOut × State :=
        let (r, s) := mvDraw s h t
        let (code, f) := toScaled (tdFmt t) v c r
        ({ o with codes := if keep then o.codes ++ [(u, code)] else o.codes, flags := o.flags ||| f }, s)
      let (o, s) := (all.zip vs).foldl (fun (o, s) e => conv o s e.1 e.2 true) ({ o with x := x }, s)
      let (o, s) := lost.foldl (fun (o, s) e => conv o s e.1 e.2 false) (o, s)
      ({ o with scales := o.scales ++ [(sa, c)] }, s)

/-- The block of a scaled destination that an element lies in. -/
def blkKey (t : TDesc) (u : List Nat) : Nat × Nat := (tdRho t u, ix u 0 / 32)

/-- Elements converted under block scales: block by block. -/
def mvScaled (s : State) (h : Nat) (d : Line) (p : MvPlan) (far : Option (Tab Byte)) (xs lost : List (List Nat × FVal)) : MvOut × State :=
  let here (k : Nat × Nat) (e : List Nat × FVal) : Bool := blkKey p.dst e.1 == k
  ((xs.map (fun e => blkKey p.dst e.1)).eraseDups).foldl (fun (o, s) k => mvBlock s h d p far (xs.filter (here k)) (lost.filter (here k)) o) ({}, s)

/-- Colliding elements of a scatter without ACCUM (R69): each destination element keeps one of its candidates, freely chosen; the others come second. -/
def mvWinners (s : State) (xs : List (List Nat × FVal)) : (List (List Nat × FVal) × List (List Nat × FVal)) × State :=
  xs.foldl (fun ((ys, zs), s) e =>
    match ys.find? (fun y => y.1 == e.1) with
    | some y =>
      let (k, s) := drawBelow s 2
      (if k = 0 then (ys, zs ++ [e]) else (mapIf (fun y => y.1 == e.1) (fun _ => e) ys, zs ++ [y]), s)
    | none => ((ys ++ [e], zs), s)) (([], []), s)

/-- A Level address with the N8's own node number written as 0, so that the two names of a local byte (R314) meet. -/
def mvNorm (s : State) (a : Nat) : Nat := if nodeAt s a = 0 then a % 2 ^ 48 else a

/-- What a move writes where it overlaps its own source is a free value: codes, and scale bytes (R66). Overlap is judged
by whole bytes (log entry 143, DESIGN CHOICE). -/
def mvOverlap (s : State) (t : TDesc) (src : List Nat) (o : MvOut) : MvOut × State :=
  if src = [] then (o, s)
  else
    let meets (a : Nat) : Bool := decide (mvNorm s a ∈ src)
    let (cs, s) := o.codes.foldl (fun (cs, s) c =>
      if (tdBytes t c.1).any meets then
        let (v, s) := draw s 32
        (cs ++ [(c.1, v.toNat % 2 ^ fmtBits (tdFmt t))], s)
      else (cs ++ [c], s)) ([], s)
    let (ss, s) := o.scales.foldl (fun (ss, s) c =>
      if meets c.1 then let (v, s) := draw s 8; (ss ++ [(c.1, v.toNat)], s) else (ss ++ [c], s)) ([], s)
    ({ o with codes := cs, scales := ss }, s)

/-! ## Writing -/

/-- `w` bits from a bit address join what is to be written: per byte, the mask of its bits and their values. -/
def mvPutBits (t : Tab (Nat × Nat)) (a w code : Nat) : Tab (Nat × Nat) :=
  (List.range w).foldl (fun t i =>
    let k := (a + i) / 8
    let b := (a + i) % 8
    let (m, v) := tget t k (0, 0)
    let v := if nbit v b then v - 2 ^ b else v
    tput t k (if nbit m b then m else m + 2 ^ b, if nbit code i then v + 2 ^ b else v)) t

/-- Everything a move writes: codes, the zero bits after an unblocked row (R53), scale bytes. -/
def mvBits (t : TDesc) (o : MvOut) : Tab (Nat × Nat) :=
  let w := fmtBits (tdFmt t)
  let put (acc : Tab (Nat × Nat)) (e : List Nat × Nat) : Tab (Nat × Nat) :=
    let a := tdBit t e.1
    let acc := mvPutBits acc a w e.2
    if !tdBlocked t && ix e.1 0 + 1 == tdSize t 0 && decide ((a + w) % 8 ≠ 0) then mvPutBits acc (a + w) (8 - (a + w) % 8) 0 else acc
  o.scales.foldl (fun acc e => mvPutBits acc (8 * e.1) 8 e.2) (o.codes.foldl put [])

/-- The bytes of one sector written by a move, bits outside the masks kept. -/
def mvWriteSector (s : State) (d : Line) (sec : Nat) (bs : Tab (Nat × Nat)) (x : MvSt) : MvSt × State :=
  let a := 32 * sec
  let off := a % 2 ^ 48
  let partial_ := bs.any (fun b => b.2.1 != 255)
  let ((st, _), old, s) := if partial_ then mvReadSector s d a else ((stOk, 0), List.replicate 32 0, s)
  if st ≠ 0 then (x.add st (if st = 0x0101 then 0x10F else 0), s)
  else
    let new := (List.range 32).map (fun i =>
      let (m, v) := tget bs (a + i) (0, 0)
      BitVec.ofNat 8 v ||| (old.getD i 0 &&& ~~~(BitVec.ofNat 8 m)))
    let mask : BitVec 32 := (List.range 32).foldl (fun (m : BitVec 32) i => if (tfind bs (a + i)).isSome then m ||| (1#32 <<< i) else m) 0
    match localRange s off 32 with
    | .device =>
      if touchesReserve s off 32 then (x.add 0x0101 0x10F, addressRefused s (mvRq d) off)
      else
        let (st, s) := sliceWrite s off new mask (mvRq d)
        (x.add st (if st = 0x0101 then 0x112 else 0), s)
    | .scratch | .window =>
      (List.range 32).foldl (fun (x, s) i =>
        if bit mask i then let (st, s) := localWrite s (off + i) [new.getD i 0] (mvRq d); (MvSt.add x st 0, s) else (x, s)) (x, s)
    | _ => (x.add 0x0101 0x10F, s)

/-- A local destination is written. -/
def mvStore (s : State) (d : Line) (t : TDesc) (o : MvOut) : MvSt × State :=
  let all := mvBits t o
  ((all.map (fun b => b.1 / 32)).eraseDups).foldl (fun (x, s) sec => mvWriteSector s d sec (all.filter (fun b => b.1 / 32 == sec)) x) (o.x, s)

/-- The type of R86 of a format that ACCUM takes. -/
def accType (f : Nat) : Nat := match f with | 0 => 2 | 1 => 3 | 2 => 4 | _ => 0

/-- A local destination is added into, one addition per element (R63, R69), in ascending order of the iteration's tuples: R69 leaves the order open, and
with it a rounded sum of colliding elements (log entry 121, DESIGN CHOICE). `src` are the source's bytes (R66). -/
def mvAdd (s : State) (d : Line) (t : TDesc) (o : MvOut) (src : List Nat) : MvSt × State :=
  o.codes.foldl (fun (x, s) e =>
    let off := tdBit t e.1 / 8 % 2 ^ 48
    let n := fmtBits (tdFmt t) / 8
    match localRange s off n with
      | .device =>
        if touchesReserve s off n then (MvSt.add x 0x0101 0x10F, addressRefused s (mvRq d) off)
        else if (tdBytes t e.1).any (fun a => decide (mvNorm s a ∈ src)) then
          let (st, s) := devWrite s off (leBytes n e.2) (mvRq d)
          (MvSt.add x st 0, s)
        else
          let (st, _, s) := amoAt s off 0 (accType (tdFmt t)) e.2 0 (mvRq d)
          (MvSt.add x st 0, s)
      | _ => (MvSt.add x 0x0101 0x10F, s)) (o.x, s)

/-! ## Moves over the Level (R333, R334) -/

/-- The class of a move's packets: MGMT for a register image, else BULK. -/
def mvClass (base : Nat) : Nat := match remoteRange (base % 2 ^ 48) 1 with | .image => 3 | _ => 0

/-- The packets of a move go to a node; with no peer entry they complete with REMOTE_ERROR, reason NO_PEER (R331). -/
def mvSend (s : State) (id node cls : Nat) (part : Nat) (ps : List (OpHeader × List Byte)) : State :=
  match ps with
  | [] => s
  | p :: _ =>
    if noPeer s node then
      modMove (logFabric s 1 node cls p.1 stRemote 0x00010101) id (fun m => { m with status := worse m.status stRemote })
    else (ps.zip (List.range ps.length)).foldl (fun s p =>
      levelSend s node cls p.1.1 p.1.2 (.move id) (some part) (cls != 0 || p.2 + 1 == ps.length)) s

/-- The header of a move's packets (R320). -/
def mvHeader (d : Line) (part : Nat) (kind : Byte) (a : Nat) : OpHeader :=
  { OpHeader.zero with kind := kind, part := part, subtag := mvSubtag d, tag := mvTag d, addr := BitVec.ofNat 64 a }

/-- The bytes a remote destination is sent: whole bytes of its PUTs, the bits that the move does not write as its GETs returned them (R53, R68). A byte
whose present content could not be read is not sent (log entry 38, DEDUCED). -/
def mvRemoteBytes (got : Tab Byte) (all : Tab (Nat × Nat)) : Tab Byte :=
  all.filterMap (fun b =>
    if b.2.1 = 255 then some (b.1, BitVec.ofNat 8 b.2.2)
    else (tfind got b.1).map (fun v => (b.1, BitVec.ofNat 8 b.2.2 ||| (v &&& ~~~(BitVec.ofNat 8 b.2.1)))))

/-- The PUTs of a remote destination. -/
def mvPuts (d : Line) (part lim : Nat) (bytes : Tab Byte) : List (OpHeader × List Byte) :=
  (addrRuns (bytes.map (·.1)) lim).map (fun r =>
    (mvHeader d part 1 r.1, (List.range r.2).map (fun i => tget bytes (r.1 + i) 0)))

/-- The ADDs of a remote destination, elements in order, consecutive ones together. -/
def mvAdds (d : Line) (part lim : Nat) (t : TDesc) (codes : List (List Nat × Nat)) : List (OpHeader × List Byte) :=
  let n := fmtBits (tdFmt t) / 8
  let h (a : Nat) : OpHeader := { mvHeader d part 2 a with atype := accType (tdFmt t) }
  (codes.foldl (fun (acc : List (Nat × List Byte)) e =>
    let a := tdBit t e.1 / 8
    match acc with
    | (b, bs) :: r => if b + bs.length = a ∧ bs.length + n ≤ lim ∧ a % 4096 ≠ 0 then (b, bs ++ leBytes n e.2) :: r
        else (a, leBytes n e.2) :: (b, bs) :: r
    | [] => [(a, leBytes n e.2)]) []).reverse.map (fun p => (h p.1, p.2))

/-! ## Running a move -/

/-- The plan of a started move. -/
def Move.plan (m : Move) : MvPlan := { fill := mvOp m.req.desc == 2, src := m.src, dst := m.dst, srcIdx := m.srcIdx, dstIdx := m.dstIdx }

/-- The local bytes a move's source occupies, as far as the move reads them. -/
def mvSrcBytes (s : State) (d : Line) (p : MvPlan) : List Nat :=
  if p.fill ∨ nodeAt s (tdBase p.src) ≠ 0 then [] else ((mvPairs d p).map (fun e => tdNeeds p.src e.1)).flatten.eraseDups.map (mvNorm s)

/-- The elements a move writes, with their values, as far as their sources are at hand (R64). -/
def mvElems (d : Line) (p : MvPlan) (got : Tab Byte) : List (List Nat × FVal) :=
  let pairs := mvPairs d p
  if p.fill then
    let v := decodeF (tdFmt p.dst) (mvFill d % 2 ^ fmtBits (tdFmt p.dst))
    let v := if tdScaled p.dst then scaledValue (tdFmt p.dst) v (mvFill d / 2 ^ 56 % 256) else v
    pairs.map (fun e => (e.2, v))
  else pairs.filterMap (fun e => (tdValue got p.src e.1).map (fun v => (e.2, v)))

/-- What a move that writes the elements `us` must keep of its destination (R53, R452): the bytes it writes only in part, and what the other elements
of a scaled block need. -/
def mvKeeps (t : TDesc) (us : List (List Nat)) : List Nat :=
  if tdAccum t then []
  else
    let blocks := if tdScaled t then (us.map (blkKey t)).eraseDups.map (fun k => us.filter (fun u => blkKey t u == k)) else []
    let others := (blocks.map (blkOthers t)).flatten
    let part := (mvBits t { codes := (us ++ others).map (fun u => (u, 0)) }).filter (fun b => b.2.1 != 255)
    (part.map (·.1) ++ (others.map (tdNeeds t)).flatten).eraseDups

/-- Elements are converted from the bytes at hand and written, or sent to the destination's node (R63, R333). -/
def mvPerform (s : State) (m : Move) : State :=
  let d := m.req.desc
  let p := m.plan
  let code := mvFill d % 2 ^ fmtBits (tdFmt p.dst)
  let ((xs, lost), s) := if tdIndexed p.dst && !tdAccum p.dst then mvWinners s (mvElems d p m.got) else ((mvElems d p m.got, []), s)
  let node := nodeAt s (tdBase p.dst)
  let h := m.req.hoist
  let (o, s) :=
    if tdScaled p.dst then mvScaled s h d p (if node = 0 then none else some m.got) xs lost
    else
      let (o, s) := mvPlain s h p code xs
      let (z, s) := mvPlain s h p code lost
      ({ o with flags := o.flags ||| z.flags }, s)
  let src := mvSrcBytes s d p
  let (o, s) := mvOverlap s p.dst src { o with x := MvSt.add o.x m.status m.detail.toNat }
  let skipped := mvSkipped d p
  let s := if skipped = 0 then s else bump s (PART_IDX_SKIPPED m.req.part) (PART_TALLY_STATUS m.req.part) 0 skipped
  let s := if o.flags &&& (fOF ||| fIV) = 0 then s else bump s (PART_CVT_FLAGGED m.req.part) (PART_TALLY_STATUS m.req.part) 2 1
  let (y, s) := if node ≠ 0 then (o.x, s) else if tdAccum p.dst then mvAdd s d p.dst o src else mvStore s d p.dst o
  let st := worse y.st (if skipped = 0 then 0 else 0x0001)
  let detail := if st = 0x0101 then y.code else if st = 0x0001 then min skipped 0xFFFFFFFF else 0
  let s := modMove s m.id (fun m => { m with status := st, detail := BitVec.ofNat 32 detail, flags := o.flags, phase := if node = 0 then .done else .puts })
  if node = 0 then s
  else
    let cls := mvClass (tdBase p.dst)
    let lim := if cls = 3 then 256 else largestPayload s node
    mvSend s m.id node cls m.req.part
      (if tdAccum p.dst then mvAdds d m.req.part lim p.dst o.codes else mvPuts d m.req.part lim (mvRemoteBytes m.got (mvBits p.dst o)))

/-- GETs of bytes at a tensor's node (R333): BASE's, whatever node SCALE_ADDR names (log entry 120, DESIGN CHOICE). -/
def mvGets (s : State) (m : Move) (t : TDesc) (need : List Nat) : State :=
  let need := sortBy (fun a b => decide (a < b)) need
  let node := nodeAt s (tdBase t)
  let cls := mvClass (tdBase t)
  let lim := if cls = 3 then 256 else largestPayload s node
  mvSend s m.id node cls m.req.part ((addrRuns need lim).map (fun r => ({ mvHeader m.req.desc m.req.part 5 r.1 with len := r.2 }, [])))

/-- A move whose source is at hand goes on: what it must keep of a destination at another node is asked for first. -/
def mvGoOn (s : State) (m : Move) : State :=
  let keep := if nodeAt s (tdBase m.dst) = 0 then [] else mvKeeps m.dst ((mvElems m.req.desc m.plan m.got).map (·.1))
  if keep = [] then mvPerform s m else mvGets (modMove s m.id (fun m => { m with phase := .dest })) m m.dst keep

/-- The local destination's sectors that a move's writes do not cover whole, and so must fetch first (R139). -/
def mvParts (t : TDesc) (us : List (List Nat)) : List Nat :=
  let bytes := (mvBits t { codes := us.map (fun u => (u, 0)), scales := if tdScaled t then (us.map (tdScale t)).eraseDups.map (fun a => (a, 0)) else [] }).map (·.1)
  bytes.filter (fun a => (List.range 32).any (fun i => decide (a / 32 * 32 + i ∉ bytes)))

/-- A move needs a sector that misses on a held pseudo-channel (R180, R181): one of its local source, of its local destination where it reads or writes
part of it, or of an index array. -/
def mvHeld (s : State) (d : Line) (p : MvPlan) : Bool :=
  let pairs := mvPairs d p
  let us := pairs.map (·.2)
  let waits (as : List Nat) : Bool := (as.map (fun a => a % 2 ^ 48 / 32 * 32)).eraseDups.any (fun a => decide (localRange s a 32 = .device) && readHeld s a)
  let here (t : TDesc) (as : List Nat) : Bool := nodeAt s (tdBase t) == 0 && waits as
  let index (t : TDesc) : List Nat := if tdIndexed t then (List.range (tdIdxCount t)).map (fun j => (tdIdxAddr t).toNat + 4 * j) else []
  (!p.fill && (here p.src ((pairs.map (fun e => tdNeeds p.src e.1)).flatten) || waits (index p.src))) || waits (index p.dst) ||
    here p.dst (if tdAccum p.dst then (us.map (tdBytes p.dst)).flatten else mvKeeps p.dst us ++ mvParts p.dst us)

/-- A move's record would be written into a sector that waits for a hold (R181). -/
def mvRecordHeld (s : State) (m : Move) : Bool :=
  let off := mvRecord m.req.desc % 2 ^ 48
  m.req.unreadable == 0 && mvRecord m.req.desc != 0 && nodeAt s (mvRecord m.req.desc) == 0 &&
    decide (localRange s off 16 = .device) && !touchesReserve s off 16 && devWriteHeld s off 16

/-- The bytes in device memory of this module that a move reads or writes, which its partition's buckets pay for (R299). -/
def mvBytes (s : State) (d : Line) (p : MvPlan) : List Nat :=
  let pairs := mvPairs d p
  let here (t : TDesc) (as : List Nat) : List Nat :=
    if nodeAt s (tdBase t) = 0 then (as.eraseDups.map (· % 2 ^ 48)).filter (fun a => decide (a < memBytes s)) else []
  (if p.fill then [] else here p.src ((pairs.map (fun e => tdNeeds p.src e.1)).flatten)) ++ here p.dst ((pairs.map (fun e => tdBytes p.dst e.2)).flatten)

/-- A hoist starts a move (R63, R65, R333, R453). The local part of the move runs as it starts; the order and the time of its accesses are
not part of the model. -/
def startMove (s : State) (r : MoveReq) : State :=
  let s := traceEvent s 4 (mvTag r.desc) (mvSubtag r.desc).toNat r.part r.hoist 0 0 r.addr.toNat
  let id := s.cores.nextId
  let (c, s) := if r.unreadable ≠ 0 then (.error (none, (r.unreadable, 0, 0)), s) else mvCheck s r.desc (r.owner.map (·.vcore))
  let m0 : Move := {
    id := id, req := r, src := 0, dst := 0, srcIdx := [], dstIdx := [], got := [], phase := .done, status := 0, detail := 0, position := 0, flags := 0, timedOut := false }
  let put (s : State) (m : Move) : State := { s with cores := { s.cores with nextId := id + 1 }, hoists := { s.hoists with moves := s.hoists.moves ++ [m] } }
  match c with
  | .error (dst, st, detail, pos) =>
    put s { m0 with dst := dst.getD 0, status := st, detail := BitVec.ofNat 32 detail, position := BitVec.ofNat 32 pos }
  | .ok p =>
    let s := chargeBytes s r.part (mvBytes s r.desc p)
    let m := { m0 with src := p.src, dst := p.dst, srcIdx := p.srcIdx, dstIdx := p.dstIdx }
    let need := if p.fill then [] else ((mvPairs r.desc p).map (fun e => tdNeeds p.src e.1)).flatten
    if !p.fill && nodeAt s (tdBase p.src) != 0 then
      let m := { m with phase := .gets }
      mvGets (put s m) m p.src need.eraseDups
    else
      let (got, x, s) := mvFetch s r.desc need {}
      let m := { m with got := got, status := x.st, detail := BitVec.ofNat 32 x.code }
      mvGoOn (put s m) m

/-- The sectors of a move's descriptors and of its data do not wait for a hold (R181), and its partition's buckets are open for its bytes (R299): until
then the move stays in its hoist's queue. -/
def moveReady (s : State) (r : MoveReq) : Bool :=
  let free (a n : Nat) : Bool := nodeAt s a != 0 || (match localRange s (a % 2 ^ 48) n with | .device => !devHeld s (a % 2 ^ 48) n | _ => true)
  r.unreadable != 0 || (free (mvDst r.desc) 128 && (mvOp r.desc == 2 || free (mvSrc r.desc) 128) &&
    (match (mvCheck s r.desc (r.owner.map (·.vcore))).1 with | .ok p => !mvHeld s r.desc p && bytesOpen s r.part (mvBytes s r.desc p) | .error _ => true))

/-- The move a hoist may start next (R62, R453): the oldest in its queue, an ORDERED one only when every earlier move of the hoist has
completed. -/
def nextMove (s : State) (hoist : Nat) : Option Nat :=
  let q := s.hoists.queue
  let running := s.hoists.moves.any (fun m => m.req.hoist == hoist)
  (List.range q.length).find? (fun i => match q[i]? with
    | some r => r.hoist == hoist && (!mvOrdered r.desc || (!running && !(q.take i).any (fun e => e.hoist == hoist)))
    | none => false)

/-- A cluster hoist is stopped by a recovery of its cluster or of the device (R363). -/
def hoistHeld (s : State) (hoist : Nat) : Bool :=
  (decide (hoist < 256) && tget s.faults.running 1 0 == hoist / 4 + 1) || tget s.faults.running 5 0 != 0

/-- A hoist takes its next move out of its queue when it is of the row's kind. -/
def takeMove (s : State) (hoist : Nat) (kind : Line → Bool) : State :=
  match (nextMove s hoist).bind (fun i => (s.hoists.queue[i]?).map (fun r => (i, r))) with
  | none => s
  | some (i, r) =>
    if kind r.desc && serving s && !hoistHeld s hoist && moveReady s r then startMove { s with hoists := { s.hoists with queue := s.hoists.queue.eraseIdx i } } r else s

/-- MOVE (R63): a hoist starts a MOVE; a descriptor with a reserved OP starts here too, and fails with 0x0A. -/
def execMove (hoist : Nat) (s : State) : Res := .next (takeMove s hoist (fun d => mvOp d != 2))

/-- FILL (R63). -/
def execFill (hoist : Nat) (s : State) : Res := .next (takeMove s hoist (fun d => mvOp d == 2))

/-! ## Completion (R64, R334) -/

/-- The DETAIL and POSITION a move reports (R64): zero unless its status is BAD_PARAM or OK_PARTIAL. -/
def mvReport (m : Move) : Nat × Nat := if m.status = 0x0101 ∨ m.status = 0x0001 then (m.detail.toNat, m.position.toNat) else (0, 0)

/-- The 16 bytes of a completion record. -/
def mvRecordBytes (m : Move) : List Byte :=
  bytesOf (pack 128 [(0, 16, m.status.toNat), (16, 16, (mvSubtag m.req.desc).toNat), (32, 32, (mvTag m.req.desc).toNat), (64, 32, (mvReport m).1),
    (96, 32, (mvReport m).2)])

/-- The node at which a move ends: its record's, else its destination's (log entry 39, DEDUCED). -/
def mvEndNode (s : State) (m : Move) : Nat :=
  if mvRecord m.req.desc ≠ 0 then nodeAt s (mvRecord m.req.desc) else nodeAt s (tdBase m.dst)

/-- A move retires: its waiting command completes. -/
def mvRetire (s : State) (m : Move) : State :=
  let s := traceEvent s 5 (mvTag m.req.desc) (mvSubtag m.req.desc).toNat m.req.part m.req.hoist 0 m.status.toNat (mvReport m).1
  let ms := s.hoists.moves.filter (fun x => x.id != m.id)
  let s := { s with hoists := { s.hoists with moves := ms } }
  match m.req.cmd.bind (getCmd s) with
  | some c => complete s c m.status (mvReport m).1 ((mvReport m).1 + 2 ^ 32 * (mvReport m).2)
  | none => s

/-- A move with a local end writes its record, signals, and retires, in this order (R64). -/
def mvFinish (s : State) (m : Move) : State :=
  let d := m.req.desc
  let known := m.req.unreadable == 0
  let s := if known && mvRecord d != 0 then
      (if touchesReserve s (mvRecord d % 2 ^ 48) 16 then addressRefused s (mvRq d) (mvRecord d % 2 ^ 48)
       else (localWrite s (mvRecord d % 2 ^ 48) (mvRecordBytes m) (mvRq d)).2) else s
  let s := if known && mvInc d != 0 then
      semSignal s (mvSem d) (BitVec.ofNat 64 (mvInc d)) { source := 2, agent := m.req.hoist, tag := mvTag d, subtag := mvSubtag d, port := 1 }
    else s
  mvRetire s m

/-- A move whose packets are all done goes on (R334): with a remote source, or with what it keeps of a remote destination, it converts what has arrived;
with a remote end it sends one PUT_SIGNAL, unless a packet of it timed out or it has neither record nor signal. -/
def mvNext (s : State) (m : Move) : State :=
  let d := m.req.desc
  match m.phase with
  | .gets =>
    let s := mvPerform s m
    match s.hoists.moves.find? (fun x => x.id == m.id) with
    | some m => mvFinish s m
    | none => s
  | .dest => mvPerform s m
  | .signal => mvRetire s m
  | _ =>
    let node := mvEndNode s m
    if node = 0 then mvFinish s m
    else if m.timedOut ∨ (mvRecord d = 0 ∧ mvInc d = 0) then mvRetire s m
    else
      let h := { mvHeader d m.req.part 4 (mvRecord d) with
        sem := if mvInc d = 0 then 0 else mvSem d, operand := BitVec.ofNat 64 (mvInc d) }
      mvSend (modMove s m.id (fun m => { m with phase := .signal })) m.id node (mvClass (tdBase m.dst)) m.req.part
        [(h, if mvRecord d = 0 then [] else mvRecordBytes m)]

/-- MOVE_RETIRE (R64, R181, R334): a move none of whose packets is open goes on to its next phase, and retires at its last. -/
def execMoveRetire (id : Nat) (s : State) : Res :=
  match s.hoists.moves.find? (fun m => m.id == id) with
  | none => .next s
  | some m =>
    let waits := decide (m.phase = .gets) && mvHeld s m.req.desc m.plan || (mvEndNode s m == 0 && mvRecordHeld s m)
    if pktOpen s (.move id) || hoistHeld s m.req.hoist || waits then .next s else .next (mvNext s m)

/-! ## MEM_MOVE (R281) -/

/-- The cluster hoist that runs a partition's MEM_MOVE: the first of its lowest cluster (log entry 40, DESIGN CHOICE). -/
def memMoveHoist (s : State) (part : Nat) : Nat := 4 * lowestBit 64 (rd64 s (PART_CLUSTERS part)).toNat

/-- MEM_MOVE (R281, R333, R455): the move joins the hoist's queue under the command's tag (R276). A descriptor that is not aligned to the 64 bytes of
R62 is read where it stands (log entry 119, DESIGN CHOICE). -/
def execMemMove (id : Nat) (s : State) : Res :=
  .next (runCmd s id 0x0102 fun s c =>
    let a : W64 := BitVec.ofNat 64 (pk c.pkt 24 8)
    let part := pkPart c.pkt
    let rem := !isLocalNode s (nodeOf a)
    let hoist := memMoveHoist s part
    let full := decide (64 ≤ (s.hoists.queue.filter (fun m => m.hoist / 4 == hoist / 4)).length)
    let place := match localRange s (offOf a) 64 with | .device => !touchesReserve s (offOf a) 64 | .scratch | .window => true | _ => false
    checked s c (checks s c [] false [(rem, 0x86), (!rem && !place, 0x01)] [] [ckState (!partDefined s part) 0x06 0] full) fun s =>
    let (st, bs, s) := localRead s (offOf a) 64 (cmdRq c)
    let d := setFld (if st = 0 then lineOf bs else 0) 32 32 (pkTag c.pkt).toNat
    let m : MoveReq := { hoist := hoist, desc := d, addr := a, owner := none, cmd := some c.id, part := part, unreadable := st }
    { s with hoists := { s.hoists with queue := s.hoists.queue ++ [m] } })

end Sys2Proof.Machine
end

