-- ==== Sys2Proof/Machine/HostRows.lean ====
section
/-! DEFINITION. Host accesses to device memory through BAR2, CXL.io and CXL.mem (R264, R225, R429), and the blast aperture (R206). -/
namespace Sys2Proof.Machine

/-- What a host read returned: its bytes, Unsupported Request, poisoned data. -/
def hostReturn (s : State) (bs : List Byte) (ur poison : Bool) : State := { s with host := { s.host with rbytes := bs, rUr := ur, rPoison := poison } }

/-- Device memory answers the host in the states that keep it (R429, R391). -/
def hostMemAnswers (s : State) : Bool := serving s || devState s == 7

/-- A host access is a request of port HOST (R162, R264). -/
def hostRq : Rq := { port := 3 }

/-- An access at device-memory offsets (R264): beyond the memory it reads as zero and is ignored; in the reserve of R225 BAR2 answers Unsupported Request, a
CXL.mem read is poisoned and a CXL.mem write dropped; a sector that is bad makes the data poisoned (R172). What poisoned data and data of a memory
that is shut down hold is open (log entry 85, DESIGN CHOICE). -/
def hostMemAccess (s : State) (cxl : Bool) (h : HostAcc) : State :=
  let n := if h.write then h.bytes.length else h.n
  let zeros := List.replicate n (0 : Byte)
  let inside := min n (memBytes s - h.addr)
  let open_ (s : State) (poison : Bool) : State := let (x, s) := draw s (8 * n); hostReturn s (bytesOf x) false poison
  if !hostMemAnswers s then (if h.write then s else if devState s = 6 then open_ s false else hostReturn s zeros false false)
  else if touchesReserve s h.addr inside then
    let s := addressRefused s hostRq h.addr
    if h.write then hostReturn s [] (!cxl) false else if cxl then open_ s true else hostReturn s zeros true false
  else if h.write then hostReturn (devWrite s h.addr (h.bytes.take inside) hostRq).2 [] false false
  else
    let (st, bs, s) := devRead s h.addr inside hostRq
    if st = stOk then hostReturn s (bs ++ List.replicate (n - inside) 0) false false else open_ s true

/-- A host access to device memory that misses on a held pseudo-channel waits (R180). -/
def hostHeld (s : State) (h : HostAcc) : Bool :=
  let inside := min (if h.write then h.bytes.length else h.n) (memBytes s - h.addr)
  hostMemAnswers s && !touchesReserve s h.addr inside && (if h.write then devWriteHeld s h.addr inside else devHeld s h.addr inside)

/-- A byte of a queue pair's doorbell page (R267): SQ_TAIL at 0 and CQ_HEAD at 4 as entry indices, every other byte zero. -/
def doorbellByte (s : State) (a : Nat) : Byte :=
  let x := getQp s (a / 4096)
  let idx (n : Nat) : Nat := if x.defined then n % 2 ^ x.log2 else n
  match a % 4096 with
  | 0 | 1 => (leBytes 2 (idx x.sqTail)).getD (a % 2) 0
  | 4 | 5 => (leBytes 2 (idx x.cqHead)).getD (a % 2) 0
  | _ => 0

/-- The index that a write of `bs` from BAR4 offset `a` leaves in the doorbell at offset `d`, where it meets one (R267). -/
def doorbellIndex (s : State) (a : Nat) (bs : List Byte) (d : Nat) : Option W32 :=
  let at_ (i : Nat) : Byte := if a ≤ d + i ∧ d + i < a + bs.length then bs.getD (d + i - a) 0 else doorbellByte s (d + i)
  if a < d + 2 ∧ d < a + bs.length then some (BitVec.ofNat 32 (leNat [at_ 0, at_ 1])) else none

/-- An access to BAR4 (R264, R267): a write acts through SQ_TAIL and CQ_HEAD and is otherwise ignored. -/
def bar4Access (s : State) (h : HostAcc) : State :=
  if h.write then
    iterate 256 (fun q s =>
      let s := match doorbellIndex s h.addr h.bytes (4096 * q) with | some w => doorbell s q (fld w 0 16) | none => s
      match doorbellIndex s h.addr h.bytes (4096 * q + 4) with | some w => freeCompletions s q (fld w 0 16) | none => s) s
  else hostReturn s ((List.range h.n).map (fun i => doorbellByte s (h.addr + i))) false false

/-- An access to CXL.io's configuration space (R264, R429), 4,096 bytes, answered from link-up. What its bytes hold is open, and with it what a write
leaves in those it names (log entry 130, DESIGN CHOICE). -/
def configAccess (s : State) (h : HostAcc) : State :=
  if h.write then
    iterate h.bytes.length (fun i s => { s with
      fresh := s.fresh + 1
      host := { s.host with config := tput s.host.config (h.addr + i) (Config.configByte (h.addr + i) s.fresh) } }) s
  else hostReturn s ((List.range h.n).map (fun i => (tfind s.host.config (h.addr + i)).getD (Config.configByte (h.addr + i) 0))) false false

/-- HOST_ACCESS (R264): through BAR2, BAR4 or CXL.io, once the link is up. -/
def execHostAccess (h : HostFaceAcc) (s : State) : Res :=
  if !s.host.linkUp then .next s
  else match h.face with
    | .bar2 => .next (if hostHeld s h.acc then s else hostMemAccess s false h.acc)
    | .bar4 => .next (bar4Access s h.acc)
    | .config => .next (configAccess s h.acc)

/-- A byte of the aperture as the host reads it (R206, R207). -/
def aptByte (s : State) (i : Nat) : Byte :=
  if !aptOn s then 0
  else if i < 2048 then BitVec.ofNat 8 (fld (tget s.nb.aptSlots (i / 64) 0) (8 * (i % 64)) 8)
  else if 2112 ≤ i ∧ i < 2176 then BitVec.ofNat 8 (fld s.nb.aptStatus (8 * (i - 2112)) 8)
  else 0

/-- A write into the aperture: slots are stored, a write that meets CONTROL is a write of that line, the rest is ignored. -/
def aptWrite (s : State) (a : Nat) (bs : List Byte) : State :=
  if !aptOn s then s
  else
    let s := iterate bs.length (fun i s =>
      let x := a + i
      if x < 2048 then
        let old := tget s.nb.aptSlots (x / 64) 0
        { s with nb := { s.nb with aptSlots := tset s.nb.aptSlots (x / 64) (setFld old (8 * (x % 64)) 8 (bs.getD i 0).toNat) 0 } }
      else s) s
    let ctl := (List.range 64).map (fun i => if a ≤ 2048 + i then bs.getD (2048 + i - a) 0 else 0)
    if a < 2112 ∧ 2048 < a + bs.length then aptControl s (lineOf ctl) else s

/-- CXL_MEM_ACCESS (R264, R206): range 0 is device memory, range 1 the aperture. -/
def execCxlMemAccess (range : Nat) (h : HostAcc) (s : State) : Res :=
  if !s.host.linkUp then .next s
  else if range = 0 then .next (if hostHeld s h then s else hostMemAccess s true h)
  else if range = 1 then
    .next (if h.write then (if hostMemAnswers s then aptWrite s h.addr h.bytes else s)
      else hostReturn s ((List.range h.n).map (fun i => if hostMemAnswers s then aptByte s (h.addr + i) else 0)) false false)
  else .next s

end Sys2Proof.Machine
end

