-- ==== Sys2Proof/Machine/MemCmds.lean ====
section
/-! DEFINITION. The memory commands (R157, R158, R278, R281, R282): allocation of row sets, the memory map, and the runs of blast programs. -/
namespace Sys2Proof.Machine

/-! ## Reservations (R281) -/

/-- The first row set that R225 reserves. -/
abbrev reserveRow : Nat := 24568

/-- A row set may be allocated: no reservation, no reserve, no row that R178 excludes. -/
def rowFree (s : State) (r : Nat) : Bool := decide (r < reserveRow) && (regionAt s r).isNone && decide (r ∉ s.mem.noAlloc)

/-- The least number of row sets that holds a PLANAR region (R158). -/
def planarRows (s : State) (r : Region) : Nat :=
  max (cdiv (cdiv r.units (banksB s) * r.unitBytes) 2048) (cdiv r.viewBytes (rowSetBytes s))

/-- The starts of the runs of `n` free row sets. -/
def freeRuns (s : State) (n : Nat) : List Nat :=
  (List.range (reserveRow + 1 - n)).filter (fun f => (List.range n).all (fun i => rowFree s (f + i)))

/-- The contents of some row sets are discarded (R281): until written again a byte of them is a free value (log entry 42, DESIGN CHOICE). -/
def discardRows (s : State) (first n : Nat) : State :=
  let hit (a : Nat) : Bool := decide (first ≤ a / rowSetBytes s) && decide (a / rowSetBytes s < first + n)
  let lines := s.mem.lines.filter (fun l => !hit (64 * l.1))
  let lru := (s.mem.lru.map (fun x => (x.1, x.2.filter (fun l => !hit (64 * l))))).filter (fun x => decide (x.2 ≠ []))
  let engines := (s.mem.engines.map (fun e => (e.1, { e.2 with wbuf := e.2.wbuf.filter (fun o => !hit o.addr) }))).filter (fun e => decide (e.2 ≠ Engine.zero))
  let rows (t : Tab Nat) (i : Nat) : Tab Nat := tput t (first + i) (s.fresh + 33554432 * i)
  { s with
    fresh := s.fresh + 33554432 * n
    mem := { s.mem with
      lines := lines, lru := lru, engines := engines
      dram := s.mem.dram.filter (fun b => !(decide (first ≤ keyRow b.1) && decide (keyRow b.1 < first + n)))
      discarded := (List.range n).foldl rows s.mem.discarded } }

/-- MEM_ALLOC (R280, R281, R456). Which free run is taken is a free choice (log entry 42, DESIGN CHOICE). -/
def execMemAlloc (id : Nat) (s : State) : Res :=
  .next (runCmd s id 0x0100 fun s c =>
    let p := c.pkt
    let planar := pk p 16 1 == 1
    let kind := pk p 17 1
    let fmt := pk p 18 1
    let scaled := bit p 152
    let r0 : Region := { first := 0, count := 0, planar := planar, kind := kind, fmt := fmt, scaled := scaled, rowLen := pk p 20 4, rows := pk p 24 4 }
    let badB3 := decide (1 < pk p 16 1) || decide (2 < kind) || decide (10 < fmt) ||
      (if planar then pk p 24 4 == 0 || (kind == 0 && pk p 20 4 == 0) else pk p 28 4 == 0)
    let bad40 := planar && (if kind = 0 then !((fmt == 9 && !scaled) || fmt == 8 || (fmt == 7 && scaled)) else fmt != 8 || scaled)
    let n := if planar then planarRows s r0 else pk p 28 4
    let want := pk p 32 4
    let any := want == 0xFFFFFFFF
    let runs := if n ≤ reserveRow then freeRuns s n else []
    checked s c (checks s c [] false [(decide (fld p 153 7 ≠ 0), 0x01), (badB3, 0xB3), (bad40, 0x40)] []
      [ckState (!any && (regionAt s want).isSome) 0x0A 1] (if any then decide (runs = []) else decide (want ∉ runs))) fun s =>
    let (i, s) := if any then drawBelow s runs.length else (0, s)
    let first := if any then runs.getD i 0 else want
    let r : Region := if planar then { r0 with first := first, count := n } else
      { first := first, count := n, planar := false, kind := 0, fmt := 0, scaled := false, rowLen := 0, rows := 0 }
    let s := if planar then discardRows s first n else s
    complete { s with mem := { s.mem with regions := s.mem.regions ++ [r] } } c stOk 0 (first + 2 ^ 32 * n))

/-- Two runs of row sets meet. -/
def rowsMeet (a n b m : Nat) : Bool := decide (a < b + m) && decide (b < a + n)

/-- Bytes from a local offset lie in part in row sets. -/
def bytesInRows (s : State) (off n first count : Nat) : Bool :=
  decide (0 < n) && decide (off < (first + count) * rowSetBytes s) && decide (first * rowSetBytes s < off + n)

/-- A resident model of those listed names some of the row sets. -/
def modelUses (ms : Tab Model) (first n : Nat) : Bool :=
  ms.any (fun m => m.2.groups.any (fun g => (List.range (gRegions g)).any (fun k => rowsMeet first n (gFirst g k) (gRowsets g k))))

/-- The KV pool lies in part in the row sets. -/
def poolUses (s : State) (first n : Nat) : Bool :=
  match s.se.pool with
  | none => false
  | some p =>
    (match regionAt s (pKRow p) with | some r => rowsMeet first n r.first r.count | none => false) ||
    (match regionAt s (pVRow p) with | some r => rowsMeet first n r.first r.count | none => false) ||
    bytesInRows s (pScale p % 2 ^ 48) (2048 * pN p) first n ||
    (List.range 4).any (fun i => bytesInRows s (pBase p i % 2 ^ 48) (pBytes p i) first n)

/-- A running program reads or writes the row sets. -/
def progUses (s : State) (first n : Nat) : Bool :=
  s.nb.programs.any (fun p =>
    let last := (endEntry s p.stack p.start).getD 63
    (List.range (last + 1 - p.start)).any (fun i =>
      let d := progEntry s p.stack (p.start + i)
      if bCompute d || bOp d == 5 then rowsMeet first n (bFirst d) (bRowsets d)
      else if bOp d = 0x10 ∨ bOp d = 0x11 then bytesInRows s (offOf (bAddr d p.stack)) (bBytes d) first n
      else false))

/-- The models that stay once every accepted MODEL_UNLOAD has taken effect (R274). -/
def keptModels (s : State) : Tab Model := s.se.models.filter (fun m => decide (mrState m.2.record ≠ 3))

/-- A reservation's row sets go back to LINEAR (R281), once no model that is being unloaded names them. -/
def freeRows (s : State) (c : Cmd) : State :=
  let first := pk c.pkt 16 4
  let n := match s.mem.regions.find? (fun r => r.first == first) with | some r => r.count | none => 0
  if modelUses s.se.models first n then s
  else
    let s := discardRows s first n
    let rs := s.mem.regions.filter (fun r => r.first != first)
    complete { s with mem := { s.mem with regions := rs } } c stOk 0 0

/-- MEM_FREE (R281, R456). A model that an accepted MODEL_UNLOAD removes is no conflict (R274): the row sets are freed once it is FREE. -/
def execMemFree (id : Nat) (s : State) : Res :=
  .next (laterCmd s id 0x0101 freeRows (runCmd s id 0x0101 fun s c =>
    let first := pk c.pkt 16 4
    let r := s.mem.regions.find? (fun r => r.first == first)
    let n := match r with | some r => r.count | none => 0
    let going := s.host.cmds.any (fun d => d.id != id && d.begun && pkOp d.pkt == 0x0101 && pk d.pkt 16 4 == first)
    checked s c (checks s c [] false [(r.isNone || going, 0xB4)] []
      [ckState (modelUses (keptModels s) first n || poolUses s first n || progUses s first n) 0x0A 2] false) fun s => freeRows s c))

/-- MEMMAP_CONFIG (R26, R182, R278): 28 mask words, in force from the next reset. -/
def execMemmapConfig (id : Nat) (s : State) : Res :=
  .next (runCmd s id 0x0007 fun s c =>
    let words : List W32 := (List.range 28).map (fun i => BitVec.ofNat 32 (leNat ((c.ext.drop (4 * i)).take 4)))
    let bad := words.any (fun w => decide (fld w 0 5 ≠ 0 ∨ fld w 23 9 ≠ 0))
    let late := checks s c [] false (if c.extStatus = 0 then [(bad, 0x01)] else []) [] [] false
    withStruct s c c.extStatus late fun s =>
    complete { s with flash := { s.flash with masks := words, missing := s.flash.missing.filter (· ≠ 0) } } c stOk 0 0)

/-! ## Programs run by command (R282) -/

/-- Program entries of a stack that no running program holds, from an entry on. -/
def entriesFree (s : State) (stack e n : Nat) : Bool :=
  (progsOn s stack).all (fun p => !rowsMeet e n p.start ((endEntry s stack p.start).getD (lastEntry s p.start) + 1 - p.start))

/-- The lowest run of free entries (log entry 43, DEDUCED). -/
def freeEntries (s : State) (stack n : Nat) : Option Nat :=
  (List.range (lastEntry s 0 + 2 - n)).find? (fun e => entriesFree s stack e n)

/-- NB_RUN (R189, R194, R195, R282, R456); its descriptors carry the command's tag in place of their own (R276). -/
def execNbRun (id : Nat) (s : State) : Res :=
  .next (runCmd s id 0x0107 fun s c =>
    let p := c.pkt
    let mask := pk p 16 1
    let n := pk p 17 1
    let a : W64 := BitVec.ofNat 64 (pk p 24 8)
    let part := pkPart p
    let sel := (List.range 8).filter (nbit mask)
    let early := [(decide (n < 2) || decide (64 < n) || mask == 0, 0xB5), bufBad s a (64 * n)]
    let absent := (sel.filter (fun k => decide (stackCount s ≤ k))).map (fun k => (true, 1 + 256 * k))
    let room := sel.any (fun k => startRefused s k part || (freeEntries s k n).isNone)
    let late (s : State) (noEnd : Bool) := checks s c [] false (early ++ [(noEnd, 0x26 + 256 * lastEntry s 0)]) absent
      [ckState (!partDefined s part) 0x06 0] room
    match checks s c [] false early [] [] false with
    | some (0x0102, _) | none =>
      let (st, bs, s) := structRead s c a (64 * n)
      let ds := (List.range n).map (fun i => lineOf ((bs.drop (64 * i)).take 64))
      withStruct s c st (late s (st == 0 && ds.all (fun d => bOp d != 0))) fun s =>
      let starts := sel.map (fun k => (k, (freeEntries s k n).getD 0))
      let s := starts.foldl (fun s x =>
        iterate n (fun i s => { s with nb := { s.nb with progMem := tset s.nb.progMem (64 * x.1 + x.2 + i) (setFld (ds.getD i 0) 32 32 (pkTag p).toNat) 0 } }) s) s
      starts.foldl (fun s x => (startProgram s x.1 x.2 part (pkTag p) (.cmd c.id)).2) s
    | some (st, d) => reject s c st d)

/-- NB_ABORT (R200, R282). -/
def execNbAbort (id : Nat) (s : State) : Res :=
  .next (runCmd s id 0x0108 fun s c =>
    let runs := s.host.cmds.filter (fun d => d.begun && pkOp d.pkt == 0x0107 && pkPart d.pkt == pkPart c.pkt && (pkTag d.pkt).toNat == pk c.pkt 16 4 &&
      s.nb.programs.any (fun p => decide (p.owner = .cmd d.id)))
    checked s c (checks s c [] false [] [] [ckState (decide (runs = [])) 0x0B 0] false) fun s =>
    let ps := s.nb.programs.filter (fun p => runs.any (fun d => decide (p.owner = .cmd d.id)))
    complete (ps.foldl abortProgram s) c stOk 0 0)

end Sys2Proof.Machine
end

