-- ==== Sys2Proof/Machine/PowerOps.lean ====
section
/-! DEFINITION. The power arbiter's settings (R381 to R386), throttle cuts (R389), and the windows and guards of the calibration records
(R396, R397). Powers are in milliwatts, temperatures in 1/16 °C. -/
namespace Sys2Proof.Machine

/-- The Headframe serves: the arbiter, the thermal loop and assay run (R17). -/
def loopsRun (s : State) : Bool := serving s || devState s == 7

/-! ## Caps and cuts (R381, R389) -/

/-- The effective cap in watts, as the last control period took it from the two registers (R382). -/
def effCap (s : State) : Nat := s.pwr.capW

/-- The cut of a temperature above its throttle level: 0.04 per °C, at most 1. -/
def cutOf (level t : Int) : Rat := min 1 ((max 0 (t - level) : Int) / 400)

def dieCut (s : State) : Rat := cutOf 1600 (dieTemp s.pwr.temps)
def stkCut (s : State) (k : Nat) : Rat := cutOf 1440 (stackTemp s.pwr.temps k)

/-- The largest cut. -/
def maxCut (s : State) : Rat := (List.range (stackCount s)).foldl (fun a k => max a (stkCut s k)) (dieCut s)

/-- The cap in force, mW. -/
def capNow (s : State) : Rat := 1000 * effCap s * (1 - maxCut s)

/-- The load power that the windows are checked against, W (R396): 0.98 × cap, a started watt as a whole one. -/
def loadW (s : State) : Nat := (98 * capNow s / 100000).ceil.toNat

/-! ## Calibration windows (R396) -/

/-- The sensors of a kind, as its record numbers them, with their present temperatures: the die's or the TCXO's, each one (64 clusters, four per stack, the
TCXO), or each stack's. -/
def calTemps (s : State) (kind : Nat) : List (Nat × Int) :=
  match kind with
  | 0 => [(0, dieTemp s.pwr.temps)]
  | 1 => [(0, s.pwr.tcxo)]
  | 2 =>
    (List.range 64).map (fun i => (i, s.pwr.temps.clusters.getD i 0)) ++
      (List.range (4 * stackCount s)).map (fun i => (64 + i, s.pwr.temps.stackTemps.getD i 0)) ++ [(96, s.pwr.tcxo)]
  | 5 => [(0, dieTemp s.pwr.temps)]
  | _ => (List.range (stackCount s)).map (fun k => (k, stackTemp s.pwr.temps k))

/-- How far a sensor lies outside a record's window, 1/16 °C. -/
def calOver (s : State) (r : CalRec) (x : Nat × Int) : Nat :=
  (x.2 - r.cond.temps.getD x.1 (r.cond.temps.headD 0)).natAbs - 16 * rf s PWR_CAL_CFG 0 8

/-- How far the present conditions lie outside a record's window: 1/16 °C, W, mV. -/
def calExcess (s : State) (r : CalRec) (temps : List (Nat × Int)) : Nat × Nat × Nat :=
  ((temps.map (calOver s r)).foldl max 0, loadW s - (r.cond.watts + rf s PWR_CAL_CFG 8 12), s.pwr.meas.droopMv - (r.cond.droop + rf s PWR_CAL_CFG 20 8))

/-- The sensors of a kind that its record guards: each whose own temperature lies outside, or all of them (R396). -/
def calGuards (s : State) (kind : Nat) : List Nat :=
  match tfind s.pwr.cals kind with
  | none => []
  | some r =>
    let (_, l, d) := calExcess s r []
    ((calTemps s kind).filter (fun x => decide (0 < l + d) || decide (0 < calOver s r x))).map (·.1)

/-- A sensor's reading as it is used: 2 °C more while the SENSOR record guards it, or would at this temperature (R396). Sensors are numbered as R398's, the TCXO 96. -/
def guardedTemp (s : State) (i : Nat) (t : Int) : Int :=
  let out := match tfind s.pwr.cals 2 with | some r => decide (0 < calOver s r (i, t)) | none => false
  if out || decide (i ∈ tget s.pwr.guardOut 2 []) then t + 32 else t

/-- The conditions of a kind that lie outside: bit 0 temperature, 1 load, 2 droop (R398). -/
def calOutside (s : State) (kind : Nat) : Nat :=
  match tfind s.pwr.cals kind with
  | some r => let (t, l, d) := calExcess s r (calTemps s kind); b2n (decide (0 < t)) + 2 * b2n (decide (0 < l)) + 4 * b2n (decide (0 < d))
  | none => 0

/-- The VF guard band in mV: 1 per °C, 4 per started 100 W, and the droop excess, at most 40. -/
def vfGuard (s : State) : Nat :=
  match tfind s.pwr.cals 0 with
  | some r => let (t, l, d) := calExcess s r (calTemps s 0); min 40 (cdiv t 16 + 4 * cdiv l 100 + d)
  | none => 0

/-- The guard band of a kind in its own unit (R398). -/
def guardBand (s : State) (kind : Nat) : Nat := match kind with | 0 => vfGuard s | 1 => 3 | 2 => 2 | 3 => 2 | _ => 0

/-- A CALIBRATION entry, at most one per kind and minute (R397): detail 0 guarded, 1 recalibrated. -/
def logCal (s : State) (kind detail out band : Nat) : State :=
  if (match tfind s.pwr.guardLogged kind with | some t => decide (mono s < t + 60000000000) | none => false) then s
  else logErr { s with pwr := { s.pwr with guardLogged := tput s.pwr.guardLogged kind (mono s) } } { cls := 0x53, loc := kind, detail := detail, ex0 := out, ex1 := band }

/-- A kind's guard is set, lifted or recomputed (R397). A kind that becomes guarded is logged at most once a minute; a stack that leaves STKPHY's window has its
channels due (R179). -/
def setGuard (s : State) (kind : Nat) : State :=
  let out := calOutside s kind
  let was := rf s PWR_CAL_STATUS kind 1
  let band := guardBand s kind
  let left := (calGuards s kind).filter (fun i => decide (i ∉ tget s.pwr.guardOut kind []))
  let s := { s with pwr := { s.pwr with guardOut := tset s.pwr.guardOut kind (calGuards s kind) [] } }
  let s := wf s PWR_CAL_STATUS kind 1 (b2n (decide (out ≠ 0)))
  let s := if kind = 0 then wf s PWR_CAL_STATUS 8 6 band else s
  let chans := if kind = 4 then (left.map (fun k => (List.range 32).map (32 * k + ·))).flatten else []
  let due := (chans.filter (fun c => (tfind s.mem.stkphyDue c).isNone)).foldl (fun t c => tput t c (mono s)) s.mem.stkphyDue
  let s := { s with mem := { s.mem with stkphyDue := due } }
  if out = 0 ∨ was = 1 then s
  else logCal { s with pwr := { s.pwr with guardAt := tput s.pwr.guardAt kind (mono s) } } kind 0 out band

def setGuards (s : State) : State := [0, 1, 2, 3, 4, 5].foldl setGuard s

/-! ## Voltage and frequency (R384) -/

/-- The voltage of a frequency in the table in force, guard band included, mV. -/
def vAt (s : State) (f : Nat) : Nat :=
  match tfind s.pwr.cals 0 with | some r => r.vals.getD ((f - 2400) / 50) 0 + rf s PWR_CAL_STATUS 8 6 | none => 0

/-- The predicted die power at a frequency (R383), mW. -/
def diePred (s : State) (f : Nat) : Rat :=
  let fNow := rf s PWR_CORE 0 13
  let vNow := vAt s fNow
  let v : Rat := if vNow = 0 then 1 else (vAt s f : Rat) / vNow
  (s.pwr.meas.pDie : Rat) * f / fNow * v * v

/-- The frequency steps, highest first, that PWR_FMAX and VMAX allow (R394, R396). -/
def fSteps (s : State) : List Nat :=
  ((List.range 33).reverse.map (fun i => 2400 + 50 * i)).filter (fun f => decide (f ≤ rf s PWR_FMAX 0 13) && decide (vAt s f ≤ 850))

/-- VDD_CORE takes the voltage of a frequency. -/
def setVcore (s : State) (f : Nat) : State := wf s PWR_CORE 16 10 (vAt s f)

/-- The CORE frequency changes: once per control period (R384). -/
def moveFreq (s : State) (f : Nat) : State :=
  if f = rf s PWR_CORE 0 13 then s else { wf s PWR_CORE 0 13 f with pwr := { s.pwr with moved := true } }

/-- The frequency moves to a step: a fall at once with the voltage after it, a rise once the voltage is reached. A voltage that must
rise is under way until VOLTAGE_REACHED. After a change the frequency stays until the next control period. -/
def setFreq (s : State) (f : Nat) : State :=
  if s.pwr.moved ∧ f ≠ rf s PWR_CORE 0 13 then s
  else
    let low := decide (vAt s f ≤ rf s PWR_CORE 16 10)
    let s := if f ≤ rf s PWR_CORE 0 13 || low then moveFreq s f else s
    let s := if low then setVcore s f else s
    { s with pwr := { s.pwr with target := if low then none else some f } }

/-! ## The arbiter (R383) -/

/-- The arbiter's grant of a stack for the next window. -/
def grantWanted (s : State) (k : Nat) : Nat := tget s.nb.grantSet k 0

/-- The share of the reads allowed that a stack's units performed. -/
def utilOf (s : State) (k : Nat) : Rat := (s.pwr.meas.reads.getD k 0 : Rat) / (s.pwr.meas.allowed.getD k 0 : Nat)

/-- B[s] of R383, mW. -/
def stkBase (s : State) (k : Nat) : Rat := (s.pwr.meas.pStk.getD k 0 : Rat) - utilOf s k * grantWanted s k * (s.pwr.kStk.getD k 0 : Nat)

/-- A stack's predicted power at a grant, and the sum at the grants of all, mW. -/
def stkPred (s : State) (k g : Nat) : Rat := stkBase s k + g * (s.pwr.kStk.getD k 0 : Nat)
def stkSum (s : State) (gs : List Nat) : Rat := ((List.range (stackCount s)).map (fun k => stkPred s k (gs.getD k 0))).foldl (· + ·) 0

/-- What is left of the cap for die and stacks, mW. -/
def availNow (s : State) : Rat :=
  let rest := (s.pwr.meas.pIn : Rat) - s.pwr.meas.pDie - (sumNat ((List.range (stackCount s)).map (fun k => s.pwr.meas.pStk.getD k 0)) : Nat)
  98 * capNow s / 100 - rest

/-- The grant a stack would have. -/
def wantOf (s : State) (k : Nat) : Nat :=
  let d := min 8 (rf s PWR_NB_CFG 0 4)
  let m := max d (min 8 (rf s PWR_NB_CFG 4 4))
  if rf s PWR_NB_CFG 8 1 = 1 ∧ (9 : Rat) / 10 ≤ utilOf s k then min m (grantWanted s k + 1) else d

/-- The grants in the stacks' order, each the largest that its own ceiling and the sum allow (R383). -/
def newGrants (s : State) : List Nat :=
  let room := availNow s - diePred s 2400
  (List.range (stackCount s)).foldl (fun (gs : List Nat) k =>
    let ok (g : Nat) : Bool := decide (stkPred s k g ≤ 100000 * (1 - stkCut s k)) && decide (stkSum s (gs.set k g) ≤ room)
    gs.set k (((List.range (wantOf s k + 1)).reverse.find? ok).getD 0)) ((List.range (stackCount s)).map (grantWanted s))

/-- die_allot of R383 at the grants. -/
def dieAllot (s : State) (gs : List Nat) : Rat := min (1500000 * (1 - dieCut s)) (availNow s - stkSum s gs)

/-- N of R386, 8 while issue is not gated. -/
def issueN (s : State) : Nat :=
  let base := stkSum s []
  if diePred s 2400 ≤ availNow s - base then 8
  else ([7, 6, 5, 4, 3].find? (fun (n : Nat) => decide (diePred s 2400 * n / 8 + base ≤ availNow s))).getD 2

/-- ALERT_N and PWR_STATUS.ALERT follow the warnings, the throttle and FLOOR (R388). -/
def setAlert (s : State) : State :=
  let a := decide (rf s PWR_STATUS 0 3 ≠ 0) || rf s PWR_STATUS 4 1 == 1
  let s := wf s PWR_STATUS 6 1 (b2n a)
  { s with pins := { s.pins with alert := a } }

/-- Issue gating begins, changes or ends (R386). -/
def setIssue (s : State) (n : Nat) : State :=
  let was := rf s PWR_STATUS 4 1
  let s := wf s PWR_CORE 13 3 (if n < 8 then n else 0)
  let s := wf s PWR_STATUS 4 1 (b2n (decide (n < 8)))
  let s := if n < 8 ∧ was = 0 then logErr s { cls := 0x51, detail := 1, ex0 := s.pwr.meas.pIn / 1000 } else s
  setAlert s

/-- Grants for the next window. -/
def setGrants (s : State) (gs : List Nat) : State :=
  { s with nb := { s.nb with grantSet := (gs.zip (List.range gs.length)).foldl (fun t p => tset t p.2 p.1 0) s.nb.grantSet } }

/-- The arbiter recomputes its settings from its last measurements; the guards come first (R383, R397). -/
def arbitrate (s : State) : State :=
  let s := setGuards s
  let gs := newGrants s
  let allot := dieAllot s gs
  let n := issueN s
  let f := ((fSteps s).find? (fun f => decide (diePred s f ≤ allot))).getD 2400
  let s := wf s PWR_DIE 16 16 (min 65535 (allot / 1000).floor.toNat)
  setFreq (setIssue (setGrants s gs) n) f

/-- A fast cut (R385). -/
def fastCut (s : State) (watts : Nat) : State :=
  let cut (t : Tab Nat) : Tab Nat := t.map (fun g => (g.1, min g.2 2))
  let s := { s with nb := { s.nb with grantSet := cut s.nb.grantSet }, pwr := { s.pwr with target := none, overUs := 0, moved := true } }
  let s := setVcore (wf s PWR_CORE 0 13 2400) 2400
  let s := bump (wf s PWR_STATUS 3 1 1) PWR_FASTCUT_COUNT PWR_TALLY_STATUS 0 1
  logErr s { cls := 0x51, detail := 0, ex0 := watts }

end Sys2Proof.Machine
end

