-- ==== Sys2Proof/Machine/RecoveryRows.lean ====
section
/-! DEFINITION. Faults and the ends of recoveries (R363 to R367), and the end of a retrain (R180). -/
namespace Sys2Proof.Machine

/-! ## Faults -/

/-- The core takes part in the N8's work: faults of a fenced core are nobody's, but for one whose own recovery still runs (R364). -/
def coreLive (s : State) (phys : Nat) : Bool :=
  decide (phys < 64 * 68) && (decide (phys ∉ s.cores.fenced) || decide (tfind s.faults.running 0 = some (phys + 1))) && (serving s || devState s == 7)

/-- A class C error entry (R359). -/
def logCore (s : State) (cls phys thread detail ex0 : Nat) (tag status : Nat := 0) : State :=
  logErr s { cls := cls, tag := tag, status := status, loc := locC (phys / 68) (phys % 68) (servedBy s phys) thread, detail := detail, ex0 := ex0 }

/-- A granule of a local operation waits behind a held pseudo-channel or a blast (R180, R202). -/
def granuleHeld (s : State) (o : MemOp) (g : Nat) : Bool :=
  !servedAtSlice s o g && (sourceSectors s (o.sector g)).any (fun x => pcHeld s (x / 64 / 24576 / 32) || bankBusy s (x / 64 / 24576))

/-- An operation of the thread is held (R366): behind a held pseudo-channel or a blast, or while a port's recovery leaves its node no path. -/
def opsHeld (s : State) (t : Tid) : Bool :=
  (opsOf s t).any (fun o =>
    if o.node = 0 then decide (offOf o.addr < memBytes s) && o.todo.any (granuleHeld s o)
    else !o.done && (tfind s.faults.running 4).isSome && decide (usable s o.node 1 = []))

/-- The time counts toward a core's watchdog (R366): some thread that has not ended waits on something other than SEMWAIT or a held operation,
and the core is neither pre-empted nor held by a recovery. -/
def watchdogRuns (s : State) (v : Nat) : Bool :=
  match jobAt s v with
  | none => false
  | some j =>
    let ts : List Tid := (List.range j.threads).map (fun k => { vcore := v, thread := k })
    decide (v ∉ s.cores.preempted) && !coreHeld s v && ts.any (fun t =>
      match (getThread s t).run with
      | .idle | .ended | .semWait _ _ => false
      | _ => !opsHeld s t && !(opsOf s t).any (fun o => decide (o.kind = .semWait)))

/-- WATCHDOG_MS in ns. -/
def watchdogNs (s : State) : Nat := 1000000 * rf s CF_CFG 8 16

/-- The semaphore that a thread's SEMWAIT waits on, the thread ending behind it or not (R73, R144). -/
def waitsOn (s : State) (t : Tid) : Option Nat :=
  match (opsOf s t).find? (fun o => decide (o.kind = .semWait)) with
  | some o => some ((offOf o.addr - 0x30000000000) / 8)
  | none => none

/-- The time of one SEMWAIT counts, but for time pre-empted or held by a recovery (R366; log entry 145, DESIGN CHOICE). -/
def semCounts (s : State) (t : Tid) : Bool := (waitsOn s t).isSome && decide (t.vcore ∉ s.cores.preempted) && !coreHeld s t.vcore

/-- `ns` pass for the watchdogs of a job's cores (R366). Of every 8 issue cycles ISSUE_N count while R386 gates issue, else all. -/
def watchJob (ns : Nat) (s : State) (j : Job) : State :=
  let n := rf s PWR_CORE 13 3
  j.vcores.foldl (fun s v =>
    let s := if watchdogRuns s v then { s with cores := { s.cores with watch := tput s.cores.watch v (tget s.cores.watch v 0 + ns * (if n = 0 then 8 else n)) } } else s
    iterate j.threads (fun k s =>
      let t : Tid := { vcore := v, thread := k }
      if semCounts s t then let th := getThread s t; setThread s t { th with semFor := th.semFor + ns } else s) s) s

/-- `ns` pass for every watchdog. -/
def watchPass (s : State) (ns : Nat) : State := (s.cores.jobs.filter (fun j => decide (j.state ≠ .waiting))).foldl (watchJob ns) s

/-- CORE_WATCHDOG (R366): the watchdog of a core expires, or with SEM_EN that of one SEMWAIT of its thread `semThread`. -/
def execCoreWatchdog (cluster core : Nat) (semThread : Option Nat) (s : State) : Res :=
  let p := 68 * cluster + core
  if !coreLive s p ∨ 64 ≤ cluster ∨ 68 ≤ core then .next s
  else match servedBy s p with
    | none => .next s
    | some v => match semThread with
      | some k =>
        let t : Tid := { vcore := v, thread := k }
        match waitsOn s t, jobAt s v with
        | some sem, some j =>
          if rf s CF_CFG 24 1 = 1 ∧ k < j.threads ∧ semCounts s t ∧ watchdogNs s ≤ (getThread s t).semFor then
            .next (stopJob (logCore s 0x12 p k 1 sem j.tag.toNat 0x0204) j.id .missed)
          else .next s
        | _, _ => .next s
      | none =>
        if watchdogRuns s v ∧ 8 * watchdogNs s ≤ tget s.cores.watch v 0 then .next (fault (logCore s 0x12 p 0 0 0) (0, p) 0x12) else .next s

/-- The correctable errors of a core in the last 24 h, with the one now. -/
def countCe (s : State) (phys : Nat) : Nat × State :=
  let day := 86400000000000
  let xs := (tget s.cores.ce phys []).filter (fun t => decide (mono s < t + day)) ++ [mono s]
  (xs.length, { s with cores := { s.cores with ce := tset s.cores.ce phys xs [] } })

/-- CORE_SRAM_ERROR (R363, R366): units 0 scratchpad, 1 queue storage, 2 register files, 3 L1, 4 instruction cache; the last two are
detected by parity, refetched, and count as correctable. -/
def execCoreSramError (cluster core unit : Nat) (uncorrectable : Bool) (s : State) : Res :=
  let p := 68 * cluster + core
  if !coreLive s p ∨ 64 ≤ cluster ∨ 68 ≤ core ∨ 4 < unit then .next s
  else
    let s := match servedBy s p, unit with
      | some v, 0 => { s with trace := { s.trace with sram := s.trace.sram.filter (fun x => x.1 / 16384 != v) } }
      | _, _ => s
    if uncorrectable ∧ unit < 3 then .next (fault (logCore s 0x11 p 0 unit 0) (0, p) 0x11)
    else
      let (n, s) := countCe s p
      let th := rf s CF_CFG 0 8
      let s := logCore s 0x10 p 0 unit n
      .next (if th ≠ 0 ∧ th ≤ n then fault s (0, p) 0x10 else s)

/-- CLUSTER_FAULT (R363): a fault of the mesh stop, or of a cluster hoist; `failed` are the cores (0 to 67) that will fail the self-test. -/
def execClusterFault (cluster : Nat) (hoistFault : Bool) (failed : List Nat) (s : State) : Res :=
  if 64 ≤ cluster ∨ !(serving s || devState s == 7) then .next s
  else
    let s := logErr s { cls := 0x14, loc := cluster, detail := if hoistFault then 2 else 1 }
    let cores := (failed.filter (fun c => decide (c < 68))).map (68 * cluster + ·)
    let s := { s with faults := { s.faults with selfTest := s.faults.selfTest ++ cores.filter (fun c => decide (c ∉ s.faults.selfTest)) } }
    .next (fault s (1, cluster) 0x14)

/-- STACK_FAULT (R363): a fault of the base die, sequencer or PHY; a training that failed is logged as STK_LINK. -/
def execStackFault (stack : Nat) (trainingFailed : Bool) (s : State) : Res :=
  if stackCount s ≤ stack ∨ !(serving s || devState s == 7) then .next s
  else
    let s := if trainingFailed then logErr s { cls := 0x05, loc := stack, detail := 4 } else s
    .next (fault s (3, stack) 0x05)

/-- PORT_FAULT (R363): a fault of the PHY, MAC or transport engine. -/
def execPortFault (port : Nat) (s : State) : Res :=
  if 4 < port ∨ (ports s ≤ port ∧ port < 4) ∨ !(serving s || devState s == 7) then .next s
  else .next (fault s (4, port) 0x21)

/-- An error in the tables of R225 is resolved as the device fault that it is (R363). -/
def settleTables (s : State) : State :=
  if s.faults.tableError then fault { s with faults := { s.faults with tableError := false } } (5, 0) 0x02 else s

/-- DEVICE_FAULT (R363): an error in the row sets of R225 that is still to be resolved, or else a Headframe fault, logged with its firmware fault code. -/
def execDeviceFault (code : W32) (s : State) : Res :=
  if !(serving s || devState s == 7) then .next s
  else if s.faults.tableError then .next (settleTables s)
  else .next (fault (logErr s { cls := 0x32, detail := code.toNat }) (5, 0) 0x32)

/-! ## Ends -/

/-- Pseudo-channels are released: their held operations go on, in arrival order, and held Level requests are performed (R180). -/
def releasePcs (s : State) (pcs : List Nat) : State :=
  let mark (d : DOp) : DOp := { d with released := true }
  let s := pcs.foldl (fun s p => let e := getEngine s p; setEngine s p { e with inflight := e.inflight.map mark, sliceQ := e.sliceQ.map mark }) s
  let s := { s with mem := { s.mem with
    held := s.mem.held.filter (fun h => decide (h.1 ∉ pcs)), heldAt := pcs.foldl (fun t p => tdel t p) s.mem.heldAt
    wholeDue := s.mem.wholeDue.filter (fun p => decide (p ∉ pcs)), stkphyDue := s.mem.stkphyDue.filter (fun c => decide (2 * c.1 ∉ pcs)) } }
  let s := noteHolds s
  match pcs with
  | [] => s
  | p :: _ => rxRelease (retrainFlags s (p / 64))

/-- A recovery ends in service (R364): its domain is free, and the next of its kind starts. -/
def endRecovery (s : State) (d : Dom) : State :=
  let s := { s with faults := { s.faults with running := tdel s.faults.running d.1, since := tdel s.faults.since d.1 } }
  bump (logRecovery s d 1) ERRLOG_RECOV_COUNT ERRLOG_STATUS 1 1

/-- The pseudo-channels of one retrain: those of the channel held for the same reason. -/
def retrainOf (s : State) (pc : Nat) : List Nat :=
  match s.mem.held.find? (fun h => h.1 == pc) with
  | some (_, why) => if why = 1 ∨ why = 2 then (s.mem.held.filter (fun h => h.1 / 2 == pc / 2 && h.2 == why)).map (·.1) else []
  | none => []

/-- A retrain ends in service: the hold is released and counted; an urgent one ends its recovery. -/
def endRetrain (s : State) (pc : Nat) : State :=
  let pcs := retrainOf s pc
  if pcs = [] then s
  else
    let s := bump (releasePcs s pcs) (STK_RETRAIN_COUNT (pc / 64)) (STK_TALLY_STATUS (pc / 64)) 3 1
    match tfind s.faults.running 2 with
    | some d => if d - 1 ∈ pcs then nextQueued (endRecovery s (2, d - 1)) 2 else s
    | none => s

/-- RETRAIN_END (R180, R363): training ends in service, or fails and is a fault of the stack. -/
def execRetrainEnd (pc : Nat) (ok : Bool) (s : State) : Res :=
  if retrainOf s pc = [] then .next s
  else if ok then .next (endRetrain s pc)
  else .next (fault (logErr s { cls := 0x05, loc := pc / 64 + 8 * pc, detail := 4 }) (3, pc / 64) 0x05)

/-- A cluster's reset is done: the cores that fail the self-test are fenced, the others go on (R363). -/
def clusterReset (s : State) (c : Nat) : State :=
  let bad := s.faults.selfTest.filter (fun p => p / 68 == c)
  let s := { s with faults := { s.faults with selfTest := s.faults.selfTest.filter (fun p => p / 68 != c) } }
  bad.foldl (fun s p => fenceCore s p 0x14) s

/-- A stack's channels are retrained and its base die reset: its buffer is undefined, the holds are released (R363). -/
def stackReset (s : State) (k : Nat) : State :=
  let s := bump s (STK_RETRAIN_COUNT k) (STK_TALLY_STATUS k) 3 32
  let bbuf := s.nb.bbuf.filter (fun b => b.1 / 2097152 != k)
  let s := { s with nb := { s.nb with bbuf := bbuf, bufSeed := tput s.nb.bufSeed k s.fresh }, fresh := s.fresh + 16777216 }
  let s := releasePcs s ((List.range 64).map (64 * k + ·))
  if storedState s = 5 ∧ (tfind s.faults.running 5).isNone then setDevState s s.faults.before else s

/-- RECOVERY_END (R364, R365): the running recovery of a kind ends in service; a device recovery then resets. -/
def execRecoveryEnd (kind : Nat) (s : State) : Res :=
  match tfind s.faults.running kind with
  | none => .next s
  | some d1 =>
    let n := d1 - 1
    .next (match kind with
      | 1 => let s := clusterReset s n; nextQueued (endRecovery s (1, n)) 1
      | 2 => endRetrain s n
      | 3 => let s := stackReset s n; nextQueued (endRecovery s (3, n)) 3
      | 4 => let s := wf s (FAB_PORT_LINK n) 10 1 1; nextQueued (endRecovery s (4, n)) 4
      | 5 => deviceReset (endRecovery s (5, 0)) 3
      | _ => nextQueued (endRecovery s (kind, n)) kind)

/-- RECOVERY_TIMEOUT (R363): a recovery has not restored its domain within its bound: a fault of its parent; a fabric port is out of service; a
device recovery has failed. -/
def execRecoveryTimeout (kind : Nat) (s : State) : Res :=
  match tfind s.faults.running kind with
  | none => .next s
  | some d1 =>
    let n := d1 - 1
    if mono s < tget s.faults.since kind 0 + recoveryBound kind then .next s
    else .next (match kind with
      | 4 =>
        let s := { s with faults := { s.faults with running := tdel s.faults.running 4, since := tdel s.faults.since 4, portsOut := s.faults.portsOut ++ [n] } }
        let s := logErr (logRecovery s (4, n) 5) { cls := 0x21, loc := locF n 0 0, detail := 2 }
        nextQueued (degrade s) 4
      | 5 => enterFailed (logRecovery s (5, 0) 5)
      | _ => match parent (kind, n) with
        | some p => fault s p 0x14
        | none => s)

end Sys2Proof.Machine
end

