-- ==== Sys2Proof/Machine/PowerRows.lean ====
section
/-! DEFINITION. The rows of the power arbiter, the thermal loop and assay (R383 to R399), and the copy to the flash log (R360). -/
namespace Sys2Proof.Machine

/-! ## The arbiter's rows -/

/-- CONTROL_PERIOD (R383): the measurements of the last 1 ms and the caps are taken and the settings recomputed. -/
def execControlPeriod (m : PowerMeas) (s : State) : Res :=
  if !loopsRun s then .next s
  else
    let s := { s with pwr := { s.pwr with meas := m, capW := min (rf s PWR_BUDGET_CAP 0 12) (rf s PWR_BOARD_CAP 0 12), moved := false } }
    let s := wr s PWR_IN (pack 32 [(0, 16, min 65535 (m.pIn / 1000)), (16, 16, min 65535 m.vinMv)])
    let s := wf s PWR_DIE 0 16 (min 65535 (m.pDie / 1000))
    let s := iterate (stackCount s) (fun k s => wf s (PWR_STK k) 0 12 (min 4095 (m.pStk.getD k 0 / 1000))) s
    .next (arbitrate s)

/-- VOLTAGE_REACHED (R384): a raised voltage is reached, and a frequency that waited for it rises, unless it has changed in this
control period. -/
def execVoltageReached (s : State) : Res :=
  match s.pwr.target with
  | none => .next s
  | some f =>
    if s.pwr.moved ∧ f ≠ rf s PWR_CORE 0 13 then .next s
    else .next (setVcore (moveFreq { s with pwr := { s.pwr with target := none } } f) f)

/-- POWER_SAMPLE (R385): the input power of one microsecond. -/
def execPowerSample (watts : Nat) (s : State) : Res :=
  if !loopsRun s then .next s
  else
    let past := if effCap s < watts then s.pwr.overUs + 1 else 0
    let s := { s with pwr := { s.pwr with overUs := past } }
    .next (if 3100 < watts ∨ 10000 ≤ past then fastCut s watts else s)

/-! ## Heat (R388 to R391) -/

/-- A state entered at `hi` and left at `lo`. -/
def hyst (was : Bool) (t hi lo : Int) : Bool := if was then decide (lo < t) else decide (hi ≤ t)

/-- A THERMAL entry for a state that changed (R398): details `d` set and `d + 1` cleared. -/
def logHeat (s : State) (was is : Bool) (sensor : Nat) (t : Int) (d : Nat) : State :=
  if was = is then s else logErr s { cls := 0x50, loc := sensor, detail := if is then d else d + 1, ex0 := toCode 32 t }

/-- Throttle entries are counted (R388). -/
def countThrottle (s : State) (was is : Bool) : State := if is && !was then bump s PWR_THROTTLE_COUNT PWR_TALLY_STATUS 1 1 else s

/-- The die's warning and throttle. -/
def heatDie (s : State) : State :=
  let (t, c) := hottest s.pwr.temps.clusters
  let w := hyst s.pwr.warnDie t 1520 1440
  let th := hyst s.pwr.throttleDie t 1600 1552
  let s := logHeat s s.pwr.warnDie w c t 0
  let s := countThrottle (logHeat s s.pwr.throttleDie th c t 2) s.pwr.throttleDie th
  let s := { s with pwr := { s.pwr with warnDie := w, throttleDie := th } }
  wr s PWR_TEMP_DIE (pack 32 [(0, 16, toCode 16 t), (16, 6, c)])

/-- A stack's warning, throttle, temperature register and thermal refresh factor (R390). -/
def heatStack (s : State) (k : Nat) : State :=
  let (t, j) := hottest ((s.pwr.temps.stackTemps.drop (4 * k)).take 4)
  let was := decide (k ∈ s.pwr.warnStk)
  let wasT := decide (k ∈ s.pwr.throttleStk)
  let w := hyst was t 1360 1312
  let th := hyst wasT t 1440 1392
  let s := logHeat s was w (64 + 4 * k + j) t 0
  let s := countThrottle (logHeat s wasT th (64 + 4 * k + j) t 2) wasT th
  let put (xs : List Nat) (b : Bool) : List Nat := let r := xs.filter (· ≠ k); if b then r ++ [k] else r
  let s := { s with pwr := { s.pwr with warnStk := put s.pwr.warnStk w, throttleStk := put s.pwr.throttleStk th } }
  let x2 := hyst (rf s (STK_STATUS k) 5 1 == 1) t 1361 1312
  wf (wr s (PWR_STK_TEMP k) (pack 32 [(0, 16, toCode 16 t)])) (STK_STATUS k) 5 1 (b2n x2)

/-- The readings as the loop uses them (R396). -/
def guardedTemps (s : State) (x : Temps) : Temps :=
  let fix (base : Nat) (ts : List Int) : List Int := (ts.zip (List.range ts.length)).map (fun p => guardedTemp s (base + p.2) p.1)
  { clusters := fix 0 (x.clusters.take 64), stackTemps := fix 64 (x.stackTemps.take (4 * stackCount s)) }

/-- THERMAL_SAMPLE (R387 to R391): the sensors are read and every state entered or cleared; a change of a cut recomputes the settings. -/
def execThermalSample (x : Temps) (s : State) : Res :=
  if storedState s = 6 then .next (shutdownCompare s x)
  else if !loopsRun s then .next s
  else
    let x := guardedTemps s x
    match shutdownAt s x with
    | some (sensor, t) => .next (thermalShutdown s sensor t)
    | none =>
      let cuts (s : State) : List Rat := dieCut s :: (List.range (stackCount s)).map (stkCut s)
      let old := cuts s
      let s := { s with pwr := { s.pwr with temps := x } }
      let s := iterate (stackCount s) (fun k s => heatStack s k) (heatDie s)
      let s := wf s PWR_STATUS 0 1 (b2n s.pwr.warnDie)
      let s := wf s PWR_STATUS 1 1 (b2n (decide (s.pwr.warnStk ≠ [])))
      let s := wf s PWR_STATUS 2 1 (b2n (s.pwr.throttleDie || decide (s.pwr.throttleStk ≠ [])))
      let s := setAlert (wr s PWR_CUT (BitVec.ofNat 32 (100 * maxCut s).floor.toNat))
      .next (if cuts s = old then s else arbitrate s)

/-! ## Assay (R393 to R395) -/

/-- FULL_ASSAY (R393): due 1 h after power-up, whatever RUN has started before, then PERIOD_H hours after the start of the previous one. -/
def execFullAssay (s : State) : Res :=
  let h := 3600000000000
  let due := if s.pwr.firstAssay then s.pwr.assayStart.getD 0 + rf s PWR_ASSAY_CFG 0 8 * h else h
  if !loopsRun s ∨ mono s < due ∨ rf s PWR_STATUS 5 1 = 1 then .next s
  else .next (startAssay { s with pwr := { s.pwr with firstAssay := true } })

/-- A value as 8 bits, saturating. -/
def sat8 (v : Nat) : Nat := min 255 v

/-- The rows of a stack that an assay's margin reads find weak, as 24,576 × bank + row. -/
def weakRows (f : Findings) (k : Nat) : List Nat :=
  ((f.weakRows.filter (fun x => x.1 / 2048 == k && decide (x.2 < 24576))).map (fun x => 24576 * x.1 + x.2)).eraseDups

/-- The history record of a full assay (R395): the voltage at FMAX is the measured one, before VMARGIN. -/
def historyRecord (s : State) (f : Findings) : BitVec 2048 :=
  let rows (k : Nat) : Nat := if k < stackCount s then (weakRows f k).length else 0
  pack 2048 ([(0, 64, s.pwr.assayAt.toNat), (64, 13, rf s PWR_FMAX 0 13), (80, 10, f.vf.getD ((rf s PWR_FMAX 0 13 - 2400) / 50) 0)] ++
    (List.range 64).map (fun c => (128 + 8 * c, 8, sat8 (f.slack.getD c 0))) ++
    (List.range 64).map (fun c => (640 + 8 * c, 8, toCode 8 (clampI (-128) 127 (f.ring.getD c 0)))) ++
    (List.range 8).map (fun k => (1152 + 2 * k, 2, rf s (PWR_STK k) 16 2)) ++
    (List.range 8).map (fun k => (1168 + 16 * k, 16, min 65535 (rows k))) ++
    (List.range 5).map (fun k => (1296 + 8 * k, 8, sat8 (f.eyePort.getD k 0))) ++
    (List.range 8).map (fun k => (1336 + 8 * k, 8, sat8 (f.eyeStk.getD k 0))))

/-- The V/F table found: a new record, guarded from the outset, and PWR_FMAX from it (R394). -/
def assayVf (s : State) (f : Findings) : State :=
  let s := setGuard (noteCal s 0 { cond := f.cond, vals := f.vf.map (· + 25) }) 0
  setFmax s (fmaxOf (f.vf.map (· + 25)))

/-- A stack's assay factor rises, never falls (R394): code 1 is ×2, 2 is ×4. -/
def assayFactor (s : State) (k code : Nat) : State :=
  if stackCount s ≤ k ∨ 2 < code ∨ code ≤ rf s (PWR_STK k) 16 2 then s
  else logErr (wf s (PWR_STK k) 16 2 code) { cls := 0x52, loc := k, detail := 2, ex0 := 2 ^ code }

/-- Rows are due for repair (R175). -/
def dueRows (s : State) (rows : List Nat) : State :=
  { s with mem := { s.mem with repairDue := s.mem.repairDue ++ rows.filter (fun r => decide (r ∉ s.mem.repairDue)) } }

/-- Rows that failed their margin reads are due for repair (R175, R394); one entry per stack. -/
def assayRows (s : State) (k : Nat) (f : Findings) : State :=
  let mine := weakRows f k
  if mine = [] then s
  else
    let s := dueRows s mine
    logErr s { cls := 0x52, loc := k, detail := 3, ex0 := mine.length }

/-- A lane below its minimum eye margin (R394): a stack's pseudo-channel (below 512) asks for an urgent retrain, a port's (512 + port) is logged. -/
def assayLane (s : State) (f : Findings) (lane : Nat) : State :=
  if lane < 512 then
    if 64 * stackCount s ≤ lane then s
    else urgentTrigger (logErr s { cls := 0x52, loc := lane / 64, detail := 4, ex0 := f.eyeStk.getD (lane / 64) 0 }) lane 3 false
  else logErr s { cls := 0x52, detail := 4, ex0 := f.eyePort.getD (lane - 512) 0 }

/-- The reference rates (R219): the module's, and those of the partitions, which their next step boundaries put in force. -/
def assayRates (s : State) (f : Findings) : State :=
  let total := sumNat ((List.range (stackCount s)).map (fun k => tget s.nb.grant k 0))
  let s := if total = 0 then s else { s with nb := { s.nb with measured := some (f.rateNb, total) } }
  let s := f.partRates.foldl (fun s r =>
    match tfind s.parts r.1 with
    | some p =>
      let v := liveRates s r.1
      { s with parts := tput s.parts r.1 { p with
        measured := some { nb := r.2.1, d := r.2.2, grants := total, near := v.near, sum := v.sum, band := v.band } } }
    | none => s) s
  refreshRateNb (wr s HF_LSPLIT_RATE_D (BitVec.ofNat 32 f.rateD))

/-- The record and the calibration records go to flash (R26, R395, R397). -/
def assayCommit (s : State) (f : Findings) : State :=
  flashWrite { s with pwr := { s.pwr with calMax := [] } } (.assay s.pwr.calMax (historyRecord s f))

/-- ASSAY_COMPLETE (R394, R395): the findings of the full assay that runs take effect. -/
def execAssayComplete (f : Findings) (s : State) : Res :=
  if !loopsRun s ∨ rf s PWR_STATUS 5 1 = 0 then .next s
  else
    let s := wf s PWR_STATUS 5 1 0
    let s := f.retention.foldl (fun s x => assayFactor s x.1 x.2) (assayVf s f)
    let s := iterate (stackCount s) (fun k s => assayRows s k f) s
    let s := assayRates { s with pwr := { s.pwr with kStk := (List.range 8).map (fun k => f.kStk.getD k 0) } } f
    let s := wr64 (assayCommit s f) PWR_ASSAY_LAST (BitVec.ofNat 64 (now s))
    let s := logErr s { cls := 0x52, detail := 0 }
    let s := f.weakLanes.foldl (fun s l => assayLane s f l) s
    .next ((f.noSlack.filter (· < 64)).foldl (fun s c => fault s (1, c) 0x52) s)

/-- ASSAY_TIMEOUT (R394): a full assay not finished within 10 min is incomplete and keeps the previous findings. -/
def execAssayTimeout (s : State) : Res :=
  let start := s.pwr.assayStart.getD 0
  if rf s PWR_STATUS 5 1 = 0 ∨ mono s < start + 600000000000 then .next s
  else .next (logErr (wf s PWR_STATUS 5 1 0) { cls := 0x52, detail := 5 })

/-- A recalibration of a kind may be made: a step boundary has come since it became guarded, or no partition runs steps; at most once per second (R397). -/
def recalDue (s : State) (kind : Nat) : Bool :=
  let soon : Bool := match tfind s.pwr.calAt kind with | some t => decide (mono s < t + 1000000000) | none => false
  let begun : Bool := decide (s.se.steps = []) || (match s.se.boundaryAt with | some b => decide (tget s.pwr.guardAt kind 0 ≤ b) | none => false)
  !soon && begun

/-- RECALIBRATION (R397): a guarded kind is measured again under load. A voltage carries VMARGIN; for RETENTION, `v` names the rows that fail their repeated
margin reads, as 24,576 × bank + row. The guard stands until the next control period. -/
def execRecalibration (kind : Nat) (c : CalCond) (v : List Nat) (s : State) : Res :=
  if !loopsRun s ∨ 5 < kind ∨ rf s PWR_CAL_STATUS kind 1 = 0 ∨ !recalDue s kind then .next s
  else
    let out := calOutside s kind
    let band := guardBand s kind
    let s := noteCal s kind { cond := c, vals := if kind = 0 then v.map (· + 25) else v }
    let s := if kind = 3 then dueRows s ((v.filter (fun r => decide (r < 24576 * 2048 * stackCount s))).eraseDups) else s
    let s := { s with pwr := { s.pwr with calAt := tput s.pwr.calAt kind (mono s) } }
    .next (logCal (bump s PWR_RECAL_COUNT PWR_TALLY_STATUS 2 1) kind 1 out band)

/-! ## Readings and the flash log -/

/-- The 256 bytes of SENSOR_READ (R399). -/
def sensorBlock (s : State) : BitVec 2048 :=
  let m := s.pwr.meas
  pack 2048 ((List.range 64).map (fun c => (16 * c, 16, toCode 16 (s.pwr.temps.clusters.getD c 0))) ++
    (List.range (4 * stackCount s)).map (fun i => (1024 + 16 * i, 16, toCode 16 (s.pwr.temps.stackTemps.getD i 0))) ++
    [(1536, 16, toCode 16 s.pwr.tcxo), (1568, 32, m.vinMv), (1600, 32, m.iinMa), (1632, 32, m.pIn), (1664, 32, m.pDie)] ++
    (List.range (stackCount s)).map (fun k => (1696 + 32 * k, 32, m.pStk.getD k 0)) ++
    [(1952, 16, rf s PWR_CORE 16 10), (1968, 16, rf s PWR_CORE 0 13), (1984, 64, now s)])

/-- SENSOR_READ (R399). -/
def execSensorRead (id : Nat) (s : State) : Res :=
  .next (runCmd s id 0x0903 fun s c =>
    let a : W64 := BitVec.ofNat 64 (pk c.pkt 24 8)
    checked s c (checks s c [] false [bufBad s a 256] [] [] false) fun s => replyBuffer s c a (bytesOf (sensorBlock s)) 0)

/-- The Headframe holds the flash interface (R17): from the end of BOOT phase 0x02 on. -/
def flashHeld (s : State) : Bool := s.pins.rails && !s.pins.resetLow && !s.pins.hfHalted && !(storedState s == 1 && decide (rf s GLOBAL_STATE 8 8 ≤ 2))

/-- The times of the copies of the last second. -/
def recentCopies (s : State) : List Nat := s.faults.copiedAt.filter (fun t => decide (mono s < t + 1000000000))

/-- FLASH_LOG_COPY (R360): waiting entries are copied, at most 100 in a second, and those beyond are not; in THERMAL_SHUTDOWN the Headframe then
halts (R391). -/
def execFlashLogCopy (s : State) : Res :=
  if !flashHeld s then .next s
  else
    let go := s.faults.unflashed.take (100 - (recentCopies s).length)
    let mark (l : Line) : Line := l ||| (1 : Line) <<< 11
    let lines := go.map (fun i => mark (tget s.faults.ring i 0))
    let ring := go.foldl (fun t i => tset t i (mark (tget t i 0)) 0) s.faults.ring
    .next { (if lines = [] then s else flashWrite s (.log lines)) with
      faults := { s.faults with ring := ring, unflashed := [], copiedAt := recentCopies s ++ go.map (fun _ => mono s) }
      pins := { s.pins with hfHalted := decide (storedState s = 6) } }

end Sys2Proof.Machine
end

