-- ==== Sys2Proof/Machine/TimeRows.lean ====
section
/-! DEFINITION. Time (R342 to R353, R357): the counter, its steps, the servo, the sources, PTP and the pins. -/
namespace Sys2Proof.Machine

def setTime (s : State) (f : TimeSt → TimeSt) : State := { s with time := f s.time }

/-! ## The counter (R344, R346) -/

/-- ρ in units of 2^−40. -/
def rho (s : State) : Int := sxt 32 (rd s TIME_ADJ).toNat

/-- One TIME cycle (R344): 10 ns × (1 + ρ), the part below 2^−16 ns carried. -/
def tickTime (t : TimeSt) (r : Int) : TimeSt :=
  let total : Nat := ((t.acc : Int) + 655360 * 2 ^ 40 + 655360 * r).toNat
  let f := t.frac.toNat + total / 2 ^ 40
  let n := t.ns + f / 65536
  { t with acc := total % 2 ^ 40, frac := BitVec.ofNat 16 f, ns := n % 1000000000, sec := t.sec + BitVec.ofNat 48 (n / 1000000000), cycles := t.cycles + 1 }

/-- ρ takes the sum of its parts, at most once every 10 ms. -/
def setRho (s : State) (comp servo : Int) : State :=
  let s := setTime s (fun t => { t with comp := comp, servo := servo })
  let free := match s.time.rhoAt with | some t => decide (t + 10000000 ≤ mono s) | none => true
  if free then setTime (wr s TIME_ADJ (BitVec.ofInt 32 (comp + servo))) (fun t => { t with rhoAt := some (mono s) }) else s

/-- A step (R346): the fractions become zero; one entry holds the old and the new time; PPS_OUT moves at once (R353). -/
def stepTime (s : State) (sec : BitVec 48) (ns : Nat) (tag : Nat := 0) : State :=
  let old := now s
  let s := setTime { s with pins := { s.pins with ppsOut := s.pins.ppsOut && decide (ns < 20000000) } }
    (fun t => { t with sec := sec, ns := ns, frac := 0, acc := 0 })
  let s := bump s TIME_STEPS TIME_TALLY_STATUS 0 1
  logErr s { cls := 0x48, tag := tag, loc := now s, addr := old }

/-- The counter steps to a time in nanoseconds, never below zero. -/
def stepTo (s : State) (t : Int) : State := let n := t.toNat; stepTime s (BitVec.ofNat 48 (n / 1000000000)) (n % 1000000000)

/-! ## Status (R347, R348) -/

def tSource (s : State) : Nat := rf s TIME_STATUS 0 3
def tState (s : State) : Nat := rf s TIME_STATUS 3 2
def traceable (s : State) : Bool := rf s TIME_STATUS 5 1 == 1
def ppsPresent (s : State) : Bool := rf s TIME_STATUS 6 1 == 1
def setTState (s : State) (v : Nat) : State := wf s TIME_STATUS 3 2 v
def setTraceable (s : State) (b : Bool) : State :=
  let s := wf s TIME_STATUS 5 1 (b2n b)
  if b then setTime s (fun t => { t with tracedOnce := true }) else s

/-- A signed number of nanoseconds as a saturating field. -/
def satNs (x : Int) : W32 := BitVec.ofInt 32 (clampI (-2147483648) 2147483647 x)
def satBound (n : Nat) : W32 := BitVec.ofNat 32 (min n 0xFFFFFFFF)

/-- The rate error assumed in HOLDOVER, in 2^−4 × 10^−9 (R345, R396): 5, and 2 more per °C beyond ±2 °C of the loss; three times 300 while the TCXO
record is guarded. -/
def holdRate (s : State) : Nat :=
  let d := (s.pwr.tcxo - s.time.lossTemp).natAbs
  if rf s PWR_CAL_STATUS 1 1 = 1 then 14400 else if d ≤ 32 then 80 else 80 + 2 * d

/-- The error bound in HOLDOVER, ns (R348). -/
def holdBound (s : State) : Nat := s.time.lossOffset + cdiv (s.time.bound + (mono s - s.time.boundAt) * holdRate s) 16000000000

/-- FREERUN: no bound is known. -/
def freerun (s : State) : State := wr (setTState (setTraceable s false) 0) TIME_ERR_BOUND 0xFFFFFFFF

/-- A source is chosen (R348). -/
def acquire (s : State) (src port : Nat) : State :=
  let s := setTState (setTraceable s false) 1
  let s := wf (wf s TIME_STATUS 0 3 src) TIME_STATUS 8 3 (if src = 1 then port else 0)
  wr (setTime s (fun t => { t with below := 0, delays := [], integral := 0 })) TIME_ERR_BOUND 0xFFFFFFFF

/-- The source is lost and no other is available (R348). -/
def loseSource (s : State) : State :=
  let was := tState s
  let off := (sxt 32 (rd s TIME_OFFSET).toNat).natAbs
  let s := wf (wf s TIME_STATUS 0 3 0) TIME_STATUS 8 3 0
  if was = 2 then
    let s := setTime s (fun t => { t with lossTemp := s.pwr.tcxo, lossOffset := off, bound := 0, boundAt := mono s })
    wr (setTState s 3) TIME_ERR_BOUND (satBound off)
  else if was = 1 then freerun s
  else s

/-! ## Ports (R350) -/

def PtpPort.zero : PtpPort :=
  { syncOrigin := 0, syncRx := 0, syncCorr := 0, awaitFollowUp := false, reqSent := none, reqSeq := 0, announced := false, clockClass := 248,
    accuracy := 0xFE, traceable := false, priority1 := 255, priority2 := 255, clockId := 0, seq := 0 }

def ptpPort (s : State) (k : Nat) : PtpPort := tget s.time.ports k PtpPort.zero
def setPtp (s : State) (k : Nat) (p : PtpPort) : State := setTime s (fun t => { t with ports := tset t.ports k p PtpPort.zero })
def ptpRole (s : State) (k : Nat) : Nat := rf s (TIME_PTP_CFG k) 14 2
def ptpDomain (s : State) (k : Nat) : Nat := rf s (TIME_PTP_CFG k) 17 8
/-- The standard's portState: 3 DISABLED, 4 LISTENING, 6 MASTER, 9 SLAVE. -/
def ptpState (s : State) (k : Nat) : Nat := rf s (TIME_PTP_CFG k) 25 4
def setPtpState (s : State) (k v : Nat) : State := wf s (TIME_PTP_CFG k) 25 4 v

/-- The SLAVE port. -/
def slavePort (s : State) : Option Nat := (List.range 5).find? (fun k => ptpState s k == 9)

/-- The source is chosen again (R347), the PTP ports standing as they do. -/
def reselect (s : State) : State :=
  let pps := bit s.time.ppsConfig 2 && ppsPresent s
  match pps, slavePort s with
  | true, _ => if tSource s = 2 then s else acquire s 2 0
  | false, some k => if tSource s = 1 ∧ rf s TIME_STATUS 8 3 = k then s else acquire s 1 k
  | false, none => if tSource s = 1 ∨ tSource s = 2 then loseSource s else s

/-- The ports take the states of the best-master selection: `best` SLAVE, other ports of role 3 MASTER. -/
def applyBest (s : State) (best : Option Nat) : State :=
  iterate 5 (fun k s =>
    match ptpRole s k with
    | 0 => s
    | 1 => setPtpState s k 6
    | r => setPtpState s k (if best = some k then 9 else if r = 3 then 6 else 4)) s

/-- SOURCE_SELECT (R347): `best` is the port the standard's best-master selection makes SLAVE, among those of role 2 or 3 with a master. -/
def execSourceSelect (best : Option Nat) (s : State) : Res :=
  let ok := match best with | some k => decide (k < 5) && decide (2 ≤ ptpRole s k) && (ptpPort s k).announced | none => true
  .next (if serving s && ok then reselect (applyBest s best) else s)

/-! ## The servo (R346, R348, R349) -/

/-- The servo's part of ρ and its integral after a measurement, and what it learns of the oscillator's ageing while LOCKED (R345, R349; log entry 154,
DESIGN CHOICE). -/
def servoStep (s : State) (offset : Int) : State :=
  let i := s.time.integral + offset
  let s := setTime s (fun t => { t with integral := i, ageing := if tState s = 2 then Config.ageing t.ageing offset i else t.ageing })
  setRho s s.time.comp (clampI (-109951162) 109951162 (Config.servo offset i))

/-- A measurement of the offset, in half nanoseconds: a step at acquisition, or the servo slews; 16 in a row below 100 ns lock. -/
def measure (s : State) (offset : Int) (trace : Bool) : State :=
  let s := wr s TIME_OFFSET (satNs (offset / 2))
  if tState s = 1 ∧ 2000000 < offset.natAbs ∧ !s.time.tracedOnce then setTime (stepTo s ((now s : Int) - offset / 2)) (fun t => { t with below := 0 })
  else
    let s := servoStep s offset
    let n := if offset.natAbs < 200 then s.time.below + 1 else 0
    let s := setTime s (fun t => { t with below := n })
    if tState s = 2 ∨ 16 ≤ n then
      let (b, s) := draw s 32
      let s := if tSource s = 1 then setTime s (fun t => { t with secKnown := true }) else s
      wr (setTraceable (setTState s 2) trace) TIME_ERR_BOUND b
    else s

/-! ## Timestamps (R352) -/

/-- The counter in half nanoseconds. -/
def nowHalf (s : State) : Nat := 2 * now s + s.time.frac.toNat / 32768

/-- The latencies of a sub-port, as measured at its link-up. -/
def latencyOf (s : State) (port sub : Nat) : Nat × Nat := tget s.time.latency (8 * port + sub) (0, 0)

/-- The timestamp of a message that arrives, and of one that leaves, at the message timestamp point: the counter less, or plus, the sub-port's latency. -/
def rxStamp (s : State) (port sub : Nat) : Nat := nowHalf s - (latencyOf s port sub).1
def txStamp (s : State) (port : Nat) : Nat := nowHalf s + (latencyOf s port (((List.range 8).find? (subUp s port)).getD 0)).2

/-- The part of a timestamp that a message's correctionField carries, in 2^−16 ns: what its whole nanoseconds leave. -/
def halfPart (t : Nat) : Int := 32768 * ((t % 2 : Nat) : Int)

/-- A PTP message goes out on a port, over IPv4 where IPV4 is set (R350). -/
def sendPtp (s : State) (port kind : Nat) (seq : W16) (ns : Nat) (correction : Int) : State :=
  txPush s (.ptp port (rf s (TIME_PTP_CFG port) 12 1 == 1) (ptpDomain s port) kind seq ns correction)

/-! ## PTP messages -/

/-- A message is taken on a port: the device runs, the port is up and configured, the domain is the node's. -/
def ptpTakes (s : State) (p : PtpMsg) : Bool := portUp s p.port && decide (ptpRole s p.port ≠ 0) && ptpDomain s p.port == p.domain

/-- SYNC (R350). -/
def execSync (p : PtpMsg) (s : State) : Res :=
  if !ptpTakes s p ∨ ptpState s p.port ≠ 9 then .next s
  else .next (setPtp s p.port { ptpPort s p.port with
    syncOrigin := p.originNs, syncRx := rxStamp s p.port p.sub, syncCorr := p.correction, awaitFollowUp := p.twoStep, seq := p.seq })

/-- FOLLOW_UP (R350): the origin timestamp of a two-step Sync. -/
def execFollowUp (p : PtpMsg) (s : State) : Res :=
  let x := ptpPort s p.port
  if !ptpTakes s p ∨ ptpState s p.port ≠ 9 ∨ !x.awaitFollowUp ∨ x.seq ≠ p.seq then .next s
  else .next (setPtp s p.port { x with syncOrigin := p.originNs, syncCorr := x.syncCorr + p.correction, awaitFollowUp := false })

/-- DELAY_REQ (R350): answered on a MASTER port with its receive time; kind 9 is Delay_Resp. Its correctionField is the request's less what the whole
nanoseconds leave (log entry 155, PRESUMED). -/
def execDelayReq (p : PtpMsg) (s : State) : Res :=
  .next (if ptpTakes s p && ptpState s p.port == 6 then let t := rxStamp s p.port p.sub; sendPtp s p.port 9 p.seq (t / 2) (p.correction - halfPart t) else s)

/-- DELAY_RESP (R349): the offset by the delay request-response mechanism, from the lowest mean path delay of the last 16 exchanges. `originNs` is
the master's receive time. Delays and offsets are in half nanoseconds. -/
def execDelayResp (p : PtpMsg) (s : State) : Res :=
  let x := ptpPort s p.port
  match x.reqSent with
  | none => .next s
  | some t3 =>
    if !ptpTakes s p ∨ ptpState s p.port ≠ 9 ∨ x.awaitFollowUp ∨ x.reqSeq ≠ p.seq ∨ tSource s ≠ 1 then .next s
    else
      let down : Int := (x.syncRx : Int) - 2 * x.syncOrigin - x.syncCorr / 32768
      let up : Int := 2 * (p.originNs : Int) - t3 - p.correction / 32768
      let d := (s.time.delays ++ [(down + up) / 2])
      let d := d.drop (d.length - 16)
      let low := d.foldl min (d.headD 0)
      let s := setTime (setPtp s p.port { x with reqSent := none }) (fun t => { t with delays := d })
      .next (measure s (down - low) x.traceable)

/-- ANNOUNCE (R347): what a master announces. -/
def execAnnounce (p : PtpMsg) (s : State) : Res :=
  if !ptpTakes s p ∨ ptpRole s p.port < 2 then .next s
  else .next (setPtp s p.port { ptpPort s p.port with
    announced := true, clockClass := p.clockClass, accuracy := p.accuracy, traceable := p.traceable, priority1 := p.priority1, priority2 := p.priority2
    clockId := p.clockId })

/-- A port may send as a master. -/
def ptpMaster (s : State) (k : Nat) : Bool := portUp s k && decide (ptpRole s k ≠ 0) && ptpState s k == 6

/-- SYNC_SEND (R350): a Sync (kind 0) with its origin time and correctionField, and in two-step a Follow_Up (kind 8) that carries them. -/
def execSyncSend (port : Nat) (s : State) : Res :=
  if !ptpMaster s port then .next s
  else
    let x := ptpPort s port
    let q := x.seq + 1
    let s := setPtp s port { x with seq := q }
    let t := txStamp s port
    .next (if rf s (TIME_PTP_CFG port) 16 1 = 1 then sendPtp (sendPtp s port 0 q 0 0) port 8 q (t / 2) (halfPart t) else sendPtp s port 0 q (t / 2) (halfPart t))

/-- ANNOUNCE_SEND (R351): the upstream grandmaster's values with a SLAVE port, else the N8's own. -/
def execAnnounceSend (port : Nat) (s : State) : Res :=
  if !ptpMaster s port then .next s
  else
    let x := ptpPort s port
    let q := x.seq + 1
    let s := setPtp s port { x with seq := q }
    let v4 := rf s (TIME_PTP_CFG port) 12 1 == 1
    let d := ptpDomain s port
    .next (match slavePort s with
      | some k => let u := ptpPort s k; txPush s (.announce port v4 d q u.clockClass u.accuracy u.traceable u.priority1 u.priority2 (some u.clockId))
      | none =>
        let (c, a, t) := if tState s = 2 ∧ tSource s = 2 then (6, 0x21, true) else if tState s = 3 ∧ traceable s then (7, 0x23, true) else (248, 0xFE, false)
        txPush s (.announce port v4 d q c a t (rf s TIME_CFG 16 8) (rf s TIME_CFG 24 8) none))

/-- DELAY_REQ_SEND (R349): kind 1. -/
def execDelayReqSend (port : Nat) (s : State) : Res :=
  if !portUp s port ∨ ptpState s port ≠ 9 then .next s
  else
    let x := ptpPort s port
    let q := x.reqSeq + 1
    let t := txStamp s port
    .next (sendPtp (setPtp s port { x with reqSeq := q, reqSent := some t }) port 1 q (t / 2) (halfPart t))

/-! ## The 1PPS input and the pins (R347, R353) -/

/-- A pulse arrived in each of the last 3 s. -/
def ppsFilled (s : State) : Bool :=
  (List.range 3).all (fun i => s.time.ppsEdges.any (fun e =>
    decide (mono s < e + 1000000000 * (i + 1)) && decide (e + 1000000000 * i ≤ mono s)))

/-- PPS_IN_EDGE (R353, R347): an edge within 10 ms of an accepted one is ignored; as the source it is a measurement of phase. A counter whose seconds
nothing has set steps to the nearest whole second. -/
def execPpsInEdge (s : State) : Res :=
  let near := s.time.ppsEdges.any (fun e => decide (mono s < e + 10000000))
  if !serving s ∨ near then .next s
  else
    let keep := s.time.ppsEdges.filter (fun e => decide (mono s < e + 4000000000))
    let s := setTime s (fun t => { t with ppsEdges := keep ++ [mono s] })
    let s := reselect (wf s TIME_STATUS 6 1 (b2n (ppsFilled s)))
    if tSource s ≠ 2 then .next s
    else
      let up := decide (500000000 ≤ s.time.ns)
      if !s.time.secKnown then
        let s := stepTime s (if up then s.time.sec + 1 else s.time.sec) 0
        .next (setTime s (fun t => { t with secKnown := true }))
      else
        let phase : Int := ((2 * s.time.ns + s.time.frac.toNat / 32768 : Nat) : Int)
        .next (measure s (if up then phase - 2000000000 else phase) true)

/-- PPS_IN_LOSS (R347): a second has passed with no pulse. -/
def execPpsInLoss (s : State) : Res :=
  if s.time.ppsEdges.any (fun e => decide (mono s < e + 1000000000)) then .next s
  else .next (reselect (wf (setTime s (fun t => { t with ppsEdges := [] })) TIME_STATUS 6 1 0))

/-- PPS_OUT_PULSE (R353): in the cycle of TIME in which a whole second of the counter begins PPS_OUT rises, never twice for one second. -/
def execPpsOutPulse (s : State) : Res :=
  if serving s ∧ bit s.time.ppsConfig 0 ∧ s.time.ns ≤ 10 ∧ s.time.sec ∉ s.time.ppsOutSecs then
    .next (setTime { s with pins := { s.pins with ppsOut := true } } (fun t => { t with ppsOutSecs := t.sec :: t.ppsOutSecs, ppsRose := mono s }))
  else .next s

/-! ## The oscillator (R345, R348) -/

/-- The frequency error of the oscillator record's cubic at a temperature, within ±2.5 × 10^−6 (R345). -/
def tcxoErr (s : State) (temp : Int) : Int :=
  clampI (-2748779) 2748779 (Config.tcxoError (match tfind s.pwr.cals 1 with | some r => r.vals | none => []) temp)

/-- TCXO_COMPENSATION (R345): the temperature is read, with the guard band of its sensor (R387), and ρ's compensation cancels the error of the record's cubic
there, and the ageing offset learned. The holdover bound is brought up to date. -/
def execTcxoCompensation (temp : W16) (s : State) : Res :=
  if !serving s then .next s
  else
    let s := if tState s = 3 then setTime s (fun t => { t with bound := t.bound + (mono s - t.boundAt) * holdRate s, boundAt := mono s }) else s
    let t := guardedTemp s 96 temp.toInt
    let s := { wr s TIME_TCXO (BitVec.ofNat 32 (toCode 16 t)) with pwr := { s.pwr with tcxo := t } }
    let s := setRho s (-(tcxoErr s t + s.time.ageing)) s.time.servo
    .next (if tState s = 3 then wr s TIME_ERR_BOUND (satBound (holdBound s)) else s)

/-- HOLDOVER_LIMIT (R348): the bound has passed HOLD_LIMIT_US. -/
def execHoldoverLimit (s : State) : Res :=
  .next (if tState s = 3 ∧ 1000 * rf s TIME_CFG 0 16 < holdBound s then freerun s else s)

/-! ## Commands (R289) -/

/-- TIME_READ (R289). -/
def execTimeRead (id : Nat) (s : State) : Res :=
  .next (runCmd s id 0x0700 fun s c => checked s c (checks s c [] false [] [] [] false) fun s => complete s c stOk 0 (now s))

/-- TIME_SET (R289, R346). -/
def execTimeSet (id : Nat) (s : State) : Res :=
  .next (runCmd s id 0x0701 fun s c =>
    let ns := pk c.pkt 24 4
    checked s c (checks s c [] false [(decide (999999999 < ns), 0xB6)] [] [ckState (traceable s) 0x0C 1] false) fun s =>
    let s := setTime (stepTime s (BitVec.ofNat 48 (pk c.pkt 16 6)) ns (cmdTag c)) (fun t => { t with secKnown := true })
    complete (if tSource s = 0 then wf s TIME_STATUS 0 3 3 else s) c stOk 0 0)

/-- PTP_CONFIG (R289, R350): the domain applies to every port. -/
def execPtpConfig (id : Nat) (s : State) : Res :=
  .next (runCmd s id 0x0702 fun s c =>
    let k := pk c.pkt 16 1
    let role := pk c.pkt 17 1
    let dom := pk c.pkt 18 1
    checked s c (checks s c [] false [(decide (fld c.pkt 153 7 ≠ 0), 0x01), (decide (4 < k) || decide (3 < role) || decide (127 < dom), 0xB8)]
      [portAbsent s k] [] false) fun s =>
    let s := iterate 5 (fun j s => wf s (TIME_PTP_CFG j) 17 8 dom) s
    let s := wf (wf s (TIME_PTP_CFG k) 14 2 role) (TIME_PTP_CFG k) 16 1 (fld c.pkt 152 1)
    let was := ptpState s k
    let s := setPtpState (setPtp s k PtpPort.zero) k (match role with | 0 => 3 | 1 => 6 | _ => 4)
    complete (if was = 9 then reselect s else s) c stOk 0 0)

/-- PPS_CONFIG (R289, R353): a disabled output is driven low. -/
def execPpsConfig (id : Nat) (s : State) : Res :=
  .next (runCmd s id 0x0703 fun s c =>
    checked s c (checks s c [] false [(decide (fld c.pkt 131 5 ≠ 0), 0x01)] [] [] false) fun s =>
    let v := BitVec.ofNat 3 (fld c.pkt 128 3)
    let s := setTime { s with pins := { s.pins with ppsOut := s.pins.ppsOut && bit v 0, clk10m := bit v 1 } } (fun t => { t with ppsConfig := v })
    complete s c stOk 0 0)

/-- TIME_STATUS (R289, R357): 128 bytes from 0x030_0000, the counter latched at the copy. -/
def execTimeStatus (id : Nat) (s : State) : Res :=
  .next (runCmd s id 0x0704 fun s c =>
    let a : W64 := BitVec.ofNat 64 (pk c.pkt 24 8)
    checked s c (checks s c [] false [bufBad s a 128] [] [] false) fun s =>
    let s := latchTime s
    replyBuffer s c a (regImage s TIME_NOW_FRAC 128) 0)

end Sys2Proof.Machine
end

