-- ==== Sys2Proof/Machine/SecRows.lean ====
section
/-! DEFINITION. Attestation, firmware update, the owner key, the debug lock (R406 to R418), and TRACE_CONFIG (R445). -/
namespace Sys2Proof.Machine

/-- A SECURITY entry (R418), with the tag of the command that causes it (R276). -/
def logSec (s : State) (detail loc ex0 : Nat) (tag : Nat := 0) : State :=
  logErr s { cls := 0x60, tag := tag, loc := loc, detail := detail, ex0 := ex0 }

def ownerVendor (s : State) : Bool := (s.sec.owners.getLast?.map (·.2)).getD true
def cap0 (s : State) : Nat := (rd s GLOBAL_CAP0).toNat
def cap1 (s : State) : Nat := (rd s GLOBAL_CAP1).toNat

/-! ## Attestation (R410 to R412) -/

/-- An entry of the report. -/
def measurement (kind index info : Nat) (d : BitVec 512) : List Byte :=
  bytesOf (pack 640 [(0, 16, kind), (16, 16, index), (32, 32, info), (128, 512, d.toNat)])

/-- The debug state as INFO of kind 6. -/
def debugInfo (s : State) : Nat :=
  rf s SEC_DEBUG_STATUS 2 4 + 256 * rf s SEC_DEBUG_STATUS 9 1 + 512 * b2n (rf s SEC_DEBUG_STATUS 0 2 == 2)

/-- The 28 masks in force, in register order (R182). -/
def maskWords (s : State) : List W32 :=
  ((List.range 9).map (STK_MAP_SEL 0) ++ (List.range 3).map (STK_MAP_BANK 0) ++ (List.range 2).map (STK_MAP_SID 0) ++
    (List.range 9).map (STK_PMAP_SEL 0) ++ (List.range 3).map (STK_PMAP_BANK 0) ++ (List.range 2).map (STK_PMAP_SID 0)).map (rd s)

/-- The measurements in table order (R411). -/
def measurements (s : State) : List (List Byte) :=
  [measurement 1 0 0 s.sec.rootHash,
   measurement 2 0 (s.sec.owners.length + 256 * b2n (ownerVendor s)) (ownerHash s)] ++
  (List.range 3).map (fun k => measurement 3 k (imgVersion (runningImage s k)) (digest ((runningImage s k).take 192))) ++
  (List.range 3).map (fun k => measurement 4 k (s.sec.floors.getD k 0) 0) ++
  [measurement 5 0 0 (digest ((maskWords s).map bytesOf).flatten), measurement 6 0 (debugInfo s) 0] ++
  (s.se.models.filter (fun m => mrState m.2.record == 2)).map (fun m => measurement 7 m.1 (mrKind m.2.record) m.2.digest)

/-- The report's length for a number of entries. -/
def reportBytes (n : Nat) : Nat := 192 + 80 * n + 49856

/-- The report (R411), signed with the device key; `rand` is the randomness that signing adds (log entry 157, DESIGN CHOICE). -/
def report (s : State) (nonce : Nat) (rand : BitVec 256) : List Byte :=
  let ms := measurements s
  let head : BitVec 1536 := pack 1536 [(0, 32, 0x5241474E), (32, 8, 1), (48, 16, ms.length), (64, 32, reportBytes ms.length), (128, 256, nonce),
    (384, 128, s.flash.serial.toNat), (512, 32, cap0 s), (544, 32, cap1 s), (576, 64, now s), (640, 8, devState s), (648, 2, twinState s),
    (650, 1, b2n (traceable s)), (656, 16, nodeNum s), (1024, 512, s.sec.pubKey.toNat)]
  let body := bytesOf head ++ ms.flatten
  body ++ deviceSign s.sec.secret (bytesOf rand) body

/-- A buffer smaller than needed (R410, R411): BAD_PARAM, detail 0x90, with the bytes needed as RESULT. -/
def tooSmall (s : State) (c : Cmd) (need : Nat) : State := complete s c 0x0101 0x90 need

/-- ATTEST (R411, R412). -/
def execAttest (id : Nat) (s : State) : Res :=
  .next (runCmd s id 0x0800 fun s c =>
    let a : W64 := BitVec.ofNat 64 (pk c.pkt 48 8)
    let n := pk c.pkt 56 4
    let need := reportBytes (measurements s).length
    checked s c (checks s c [] false [bufBad s a n] [] [] false) fun s =>
    if n < need then tooSmall s c need else let (rand, s) := draw s 256; replyBuffer s c a (report s (pk c.pkt 16 32) rand) need)

/-- CERT_READ (R410): the device certificate, then the manufacturing certificate. -/
def execCertRead (id : Nat) (s : State) : Res :=
  .next (runCmd s id 0x0801 fun s c =>
    let a : W64 := BitVec.ofNat 64 (pk c.pkt 24 8)
    let n := pk c.pkt 32 4
    checked s c (checks s c [] false [bufBad s a n] [] [] false) fun s =>
    if n < 59968 then tooSmall s c 59968
    else if s.flash.certs.length ≠ 59968 then complete s c 0x03FF 0 0
    else replyBuffer s c a s.flash.certs 59968)

/-! ## Firmware (R406) and the owner key (R407, R408) -/

/-- A valid image is committed into a slot (R26). -/
def commitImage (s : State) (kind slot : Nat) (bs : List Byte) : State :=
  let n := s.flash.commits + 1
  { s with flash := { s.flash with images := tput s.flash.images (2 * kind + slot) { bytes := bs, committed := some n }, commits := n } }

/-- FW_UPDATE (R406): the image goes into the slot of its kind that did not boot. -/
def execFwUpdate (id : Nat) (s : State) : Res :=
  .next (runCmd s id 0x0802 fun s c =>
    let kind := pk c.pkt 16 1
    let a : W64 := BitVec.ofNat 64 (pk c.pkt 24 8)
    let n := pk c.pkt 32 4
    let early := [bufBad s a n, (decide (2 < kind) || decide (16809984 < n), 0x91)]
    match checks s c [] false early [] [] false with
    | some (0x0102, _) | none =>
      let (st, bs, s) := structRead s c a n
      match (if st = stOk then imgFault s kind bs else none) with
      | some d => reject (logSec s 1 kind 0 (cmdTag c)) c 0x0101 d
      | none =>
        withStruct s c st (checks s c [] false early [] [] false) fun s =>
        complete (commitImage s kind (1 - rf s SEC_BOOT_STATUS kind 1) bs) c stOk 0 0
    | some (st, d) => reject (if d = 0x91 then logSec s 1 kind 0 (cmdTag c) else s) c st d)

/-- An owner key record's first rule of R408 that it breaks: a status and detail. -/
def ownerFault (s : State) (bs : List Byte) : Option (W16 × Nat) :=
  let gen := bytesAt bs 4 1 % 8
  let burnt := s.sec.owners.length
  let key := bytesAt bs 64 64
  let signer : BitVec 512 := if burnt = 0 then BitVec.ofNat 512 key else s.flash.ownerKey
  if bytesAt bs 0 4 ≠ 0x4B4F474E ∨ bytesAt bs 4 4 / 16 ≠ 0 ∨ bytesAt bs 24 40 ≠ 0 ∨ bytesAt bs 128 64 ≠ 0 then some (0x0101, 0x01)
  else if gen ≠ burnt + 1 ∨ BitVec.ofNat 128 (bytesAt bs 8 16) ≠ s.flash.serial then some (0x0101, 0x94)
  else if !signedBy bs signer then some (0x0101, 0x92)
  else if 4 ≤ burnt then some (0x0104, 0)
  else none

/-- OWNER_KEY_SET (R408): the next generation is burnt; it governs tokens at once. -/
def execOwnerKeySet (id : Nat) (s : State) : Res :=
  .next (runCmd s id 0x0803 fun s c =>
    let a : W64 := BitVec.ofNat 64 (pk c.pkt 24 8)
    let early := [bufBad s a 29984]
    match checks s c [] false early [] [] false with
    | some (0x0102, _) | none =>
      let (st, bs, s) := structRead s c a 29984
      let bad := if st = 0 then ownerFault s bs else none
      let param := match bad with | some (0x0101, d) => [(true, d)] | _ => []
      let full := match bad with | some (0x0104, _) => true | _ => false
      withStruct s c st (checks s c [] false (early ++ param) [] [] full) fun s =>
      let key := bytesAt bs 64 64
      let s := { s with
        sec := { s.sec with owners := s.sec.owners ++ [(digest (leBytes 64 key), nbit (bytesAt bs 4 1) 3)] }
        flash := { s.flash with ownerKey := BitVec.ofNat 512 key } }
      complete (logSec s 7 0 0 (cmdTag c)) c stOk 0 0
    | some (st, d) => reject s c st d)

/-! ## The debug lock (R413 to R417) -/

def debugLevels (s : State) : Nat := rf s SEC_DEBUG_STATUS 2 4
def triesLeft (s : State) : Nat := rf s SEC_DEBUG_STATUS 6 3

/-- The TRACE level closes: tracing stops at once. -/
def traceFollows (s : State) : State := if nbit (debugLevels s) 0 then s else traceStop s

/-- Access opens with levels (R414), from a password (source 0) or a token (1), until an expiry in completion-time form, all ones for none. -/
def openDebug (s : State) (levels source expiry : Nat) (cycles : Option Nat) (notAfter : W64) (tag : Nat) : State :=
  let s := wf (wf (wf (wf s SEC_DEBUG_STATUS 0 2 1) SEC_DEBUG_STATUS 2 4 levels) SEC_DEBUG_STATUS 9 1 1) SEC_DEBUG_STATUS 11 1 source
  let s := wr64 s SEC_DEBUG_EXPIRY (BitVec.ofNat 64 expiry)
  let s := { s with sec := { s.sec with expiryCycles := cycles, notAfter := notAfter } }
  logSec (traceFollows s) 2 levels (expiry % 2 ^ 32) tag

/-- Access closes at once (R414); `state` is 0 LOCKED or 2 LOCKOUT. -/
def closeDebug (s : State) (state : Nat) (tag : Nat := 0) : State :=
  let was := rf s SEC_DEBUG_STATUS 0 2
  let levels := debugLevels s
  let s := wr64 (wf (wf s SEC_DEBUG_STATUS 0 2 state) SEC_DEBUG_STATUS 2 4 0) SEC_DEBUG_EXPIRY 0
  let s := { s with sec := { s.sec with expiryCycles := none, notAfter := 0 } }
  if was = 1 then logSec (traceFollows s) 3 levels (triesLeft s) tag else s

/-- A failed unlock uses a try; the fifth locks out (R415). -/
def passwordFailed (s : State) (tag : Nat := 0) : State :=
  let n := triesLeft s - 1
  let s := logSec (wf s SEC_DEBUG_STATUS 6 3 n) 4 0 n tag
  if n = 0 then logSec (closeDebug s 2 tag) 5 0 0 tag else s

/-- The stored digest of a password (R415). -/
def passwordDigest (s : State) (salt : BitVec 128) (pw : List Byte) : BitVec 512 := digest (bytesOf s.flash.serial ++ bytesOf salt ++ pw)

/-- The password block's operation (R415). -/
def passwordOp (s : State) (c : Cmd) (bs : List Byte) : State :=
  let pw := (bs.drop 4).take (bytesAt bs 1 1)
  match bytesAt bs 0 1 with
  | 1 =>
    let (salt, s) := draw s 128
    let levels : BitVec 4 := BitVec.ofNat 4 (bytesAt bs 2 1)
    complete { s with flash := { s.flash with password := some (salt, passwordDigest s salt pw, levels) } } c stOk 0 0
  | 2 => complete { s with flash := { s.flash with password := none } } c stOk 0 0
  | _ => match s.flash.password with
    | none => reject s c 0x0105 0
    | some (salt, d, levels) =>
      if passwordDigest s salt pw = d then
        complete (openDebug (wf s SEC_DEBUG_STATUS 6 3 5) levels.toNat 0 (2 ^ 64 - 1) none 0 (cmdTag c)) c stOk 0 0
      else reject (passwordFailed s (cmdTag c)) c 0x0105 0

/-- DEBUG_PASSWORD (R414, R415). -/
def execDebugPassword (id : Nat) (s : State) : Res :=
  .next (runCmd s id 0x0804 fun s c =>
    let a : W64 := BitVec.ofNat 64 (pk c.pkt 24 8)
    let early := [bufBad s a 128]
    let locked := rf s SEC_DEBUG_STATUS 0 2 == 2
    match checks s c [c.src.isSome] locked early [] [] false with
    | some (0x0102, _) | none =>
      let (st, bs, s) := structRead s c a 128
      let op := bytesAt bs 0 1
      let len := bytesAt bs 1 1
      let read := decide (st = 0)
      let admin := read && decide (1 ≤ op) && decide (op ≤ 2) && !levelOpen s 3
      let form := read && (decide (2 < op) || decide (len < 8) || decide (64 < len))
      let rsv := read && (decide (bytesAt bs 2 2 / 16 ≠ 0) || decide (bytesAt bs 68 60 ≠ 0))
      withStruct s c st (checks s c [c.src.isSome, admin] locked (early ++ [(rsv, 0x01), (form, 0x95)]) [] [] false) fun s => passwordOp s c bs
    | some (st, d) => reject s c st d)

/-- DEBUG_CHALLENGE (R416): a fresh nonce, and its buffer. -/
def execDebugChallenge (id : Nat) (s : State) : Res :=
  .next (runCmd s id 0x0805 fun s c =>
    let a : W64 := BitVec.ofNat 64 (pk c.pkt 24 8)
    checked s c (checks s c [c.src.isSome] false [bufBad s a 64] [] [] false) fun s =>
    let (n, s) := draw s 256
    let s := { s with sec := { s.sec with nonce := some (n, mono s) } }
    replyBuffer s c a (bytesOf (pack 512 [(0, 256, n.toNat), (256, 128, s.flash.serial.toNat), (384, 64, now s), (448, 4, debugLevels s),
      (452, 2, rf s SEC_DEBUG_STATUS 0 2)])) 0)

/-- The nonce is valid for 10 minutes (R416). -/
def validNonce (s : State) : Option (BitVec 256) := match s.sec.nonce with | some (n, t) => if mono s < t + 600000000000 then some n else none | none => none

/-- A token satisfies every condition of R417. -/
def tokenOk (s : State) (bs : List Byte) : Bool :=
  let key : BitVec 512 := BitVec.ofNat 512 (bytesAt bs 128 64)
  let kd := digest (leBytes 64 key.toNat)
  let life := bytesAt bs 12 4
  let notAfter := bytesAt bs 16 8
  let form := bytesAt bs 0 4 == 0x5444474E && bytesAt bs 4 4 / 2 == 0 && bytesAt bs 8 4 / 16 == 0 && bytesAt bs 72 56 == 0 && decide (1 ≤ life) && decide (life ≤ 86400)
  let signer := if nbit (bytesAt bs 4 1) 0 then decide (s.sec.owners ≠ []) && decide (kd = ownerHash s) else decide (kd = s.sec.rootHash) && ownerVendor s
  form && decide (validNonce s = some (BitVec.ofNat 256 (bytesAt bs 24 32))) && decide (BitVec.ofNat 128 (bytesAt bs 56 16) = s.flash.serial) &&
    signer && signedBy bs key && (notAfter == 0 || (traceable s && decide (now s < notAfter)))

/-- A token that was read is judged (R417). -/
def tokenOp (s : State) (c : Cmd) (bs : List Byte) : State :=
  let levels := bytesAt bs 8 1 % 16
  let ok := tokenOk s bs
  let s := { s with sec := { s.sec with nonce := none } }
  if !ok then reject (logSec s 6 levels (triesLeft s) (cmdTag c)) c 0x0105 0
  else
    let life := bytesAt bs 12 4
    let notAfter := bytesAt bs 16 8
    let byLife := now s + life * 1000000000
    let expiry := if notAfter = 0 then byLife else min byLife notAfter
    complete (openDebug s levels 1 expiry (some (s.time.cycles + life * 100000000)) (BitVec.ofNat 64 notAfter) (cmdTag c)) c stOk 0 levels

/-- DEBUG_TOKEN (R414, R417). Bytes other than 29,984 make no token in range. -/
def execDebugToken (id : Nat) (s : State) : Res :=
  .next (runCmd s id 0x0806 fun s c =>
    let a : W64 := BitVec.ofNat 64 (pk c.pkt 24 8)
    let n := pk c.pkt 32 4
    checked s c (checks s c [c.src.isSome] (rf s SEC_DEBUG_STATUS 0 2 == 2) [bufBad s a n] [] [] false) fun s =>
    if n ≠ 29984 then tokenOp s c []
    else
      let (st, bs, s) := structRead s c a n
      if st ≠ 0 then reject { s with sec := { s.sec with nonce := none } } c st 0 else tokenOp s c bs)

/-- DEBUG_LOCK (R414): access closes; a lockout stays. -/
def execDebugLock (id : Nat) (s : State) : Res :=
  .next (runCmd s id 0x0807 fun s c =>
    checked s c (checks s c [] false [] [] [] false) fun s => complete (if rf s SEC_DEBUG_STATUS 0 2 = 1 then closeDebug s 0 (cmdTag c) else s) c stOk 0 0)

/-- DEBUG_EXPIRY (R417): NOT_AFTER on the counter, or LIFETIME_S of TIME cycles, has come. -/
def execDebugExpiry (s : State) : Res :=
  let past := (match s.sec.expiryCycles with | some n => decide (n ≤ s.time.cycles) | none => false) ||
    (decide (s.sec.notAfter ≠ 0) && decide (s.sec.notAfter.toNat ≤ now s))
  .next (if rf s SEC_DEBUG_STATUS 0 2 = 1 ∧ past then closeDebug s 0 else s)

/-- NONCE_EXPIRY (R416): 10 minutes after its issue a nonce is no longer valid. -/
def execNonceExpiry (s : State) : Res :=
  .next (if s.sec.nonce.isSome ∧ (validNonce s).isNone then { s with sec := { s.sec with nonce := none } } else s)

/-! ## TRACE_CONFIG (R445) -/

/-- The first rule of R445 that a block breaks. -/
def traceFault (s : State) (b : Line) : Option Nat :=
  let base := fld b 0 64
  let lg := fld b 64 6
  let off := base % 2 ^ 48
  if base % 4096 ≠ 0 ∨ base ≠ off ∨ memBytes s ≤ base then some 0xA0
  else if lg < 16 ∨ 32 < lg then some 0xA1
  else if !inReservedLinear s base (2 ^ lg) ∨ touchesReserve s base (2 ^ lg) then some 0xA0
  else if fld b 72 8 ≠ 0 ∨ fld b 176 336 ≠ 0 then some 0xA1
  else none

/-- An accepted configuration; an enable zeroes the counts. -/
def traceSetup (s : State) (b : Line) : State :=
  let was := rf s TRACE_CTRL 0 1
  let s := wr64 s TRACE_BUF_BASE (BitVec.ofNat 64 (fld b 0 64))
  let s := wr s TRACE_BUF_SIZE (BitVec.ofNat 32 (fld b 64 6))
  let s := wr s TRACE_EVENTS (pack 32 [(0, 16, fld b 80 16), (16, 16, fld b 160 16)])
  let s := wr (wr s TRACE_TAG (BitVec.ofNat 32 (fld b 96 32))) TRACE_TAG_MASK (BitVec.ofNat 32 (fld b 128 32))
  let s := wf (wf s TRACE_CTRL 1 1 (fld b 70 1)) TRACE_CTRL 0 1 (fld b 71 1)
  if was = 0 ∧ bit b 71 then
    let s := wr64 (wr64 s TRACE_RECORDS 0) TRACE_DROPPED 0
    wf (wr s TRACE_TALLY_STATUS 0) TRACE_CTRL 2 1 0
  else s

/-- TRACE_CONFIG (R291, R445): LOCKED unless level TRACE is open. -/
def execTraceConfig (id : Nat) (s : State) : Res :=
  .next (runCmd s id 0x0902 fun s c =>
    let a : W64 := BitVec.ofNat 64 (pk c.pkt 24 8)
    let early := [bufBad s a 64]
    let locked := !levelOpen s 0
    match checks s c [] locked early [] [] false with
    | some (0x0102, _) | none =>
      let (st, bs, s) := structRead s c a 64
      let bad := if st = 0 then traceFault s (lineOf bs) else none
      let param := match bad with | some d => [(true, d)] | none => []
      withStruct s c st (checks s c [] locked (early ++ param) [] [] false) fun s => complete (traceSetup s (lineOf bs)) c stOk 0 0
    | some (st, d) => reject s c st d)

end Sys2Proof.Machine
end

