-- ==== Sys2Proof/Machine/TwinRows.lean ====
section
/-! DEFINITION. The twin (R374 to R380) and the repair of weight regions (R372). The items' layout on the wire is not the spec's; a frame sent holds
the item itself. -/
namespace Sys2Proof.Machine

/-! ## Pairing (R376) -/

/-- Once each module holds the other's request, the models' digests, then the session records and transcripts in ascending index order, are
sent; COPY_DONE follows once every item is acknowledged. -/
def streamCopy (s : State) : State :=
  if twinState s = 1 ∧ s.twin.sentReq ∧ s.twin.gotReq ∧ !s.twin.sentDone ∧ !s.twin.gates.any (fun g => decide (g.act = .copyDone)) then
    let s := s.se.models.foldl (fun s m => if mrState m.2.record = 2 then mirrorSend s (.model (twinModel s m.1 m.2)) else s) s
    let s := s.se.sessions.foldl (fun s y =>
      let s := mirrorSend s (.session y.2.record (hasRequest y.2))
      if y.2.toks = [] then s else mirrorSend s (.tokens (BitVec.ofNat 32 (srHandle y.2.record)) y.2.toks)) s
    settleTwin (setTwin s (fun t => { t with
      sent := s.se.sessions.map (fun y => (y.1, (y.2.record, hasRequest y.2))), gates := t.gates ++ [{ id := t.gate, act := .copyDone }] }))
  else s

/-- TWIN_PAIR (R374, R376). -/
def execTwinPair (id : Nat) (s : State) : Res :=
  .next (runCmd s id 0x0605 fun s c =>
    let node := pk c.pkt 16 2
    checked s c (checks s c [] false [((peerOf s node).isNone, 0x88)] []
      [ckState (decide (twinState s ≠ 0)) 0x04 (twinState s), ckState s.se.pool.isNone 0x08 0] false) fun s =>
    let early := s.twin.gotReq && s.twin.peer.toNat == node
    let models := if early then s.twin.models else []
    let s := wf (wf s TWIN_STATE 0 2 1) TWIN_STATE 16 16 node
    let s := notePaths (setTwin s (fun t => { Twin.reset with
      sentReq := true, gotReq := early, peer := BitVec.ofNat 16 node, models := models, cmd := some c.id, since := mono s, lastHb := mono s
      gate := t.gate + 1, gates := t.gates }))
    streamCopy (twinSend (logTwin s 0 0 (cmdTag c)) 3))

/-- PAIRING_REQUEST (R376): the partner's request, with its models' digests and view bases; one that comes before this module's own TWIN_PAIR is kept. -/
def execPairingRequest (node : W16) (models : List TwinModel) (s : State) : Res :=
  let take (s : State) : State := setTwin s (fun t => { t with gotReq := true, peer := node, models := models })
  if !serving s then .next s
  else match twinState s with
    | 0 => .next (take s)
    | 1 => .next (if node.toNat = twinNode s ∧ !s.twin.gotReq then streamCopy (take s) else s)
    | _ => .next s

/-- COPY_DONE (R376): the partner has streamed everything. -/
def execCopyDone (s : State) : Res :=
  .next (if twinState s = 1 ∧ s.twin.gotReq then becomePaired (setTwin s (fun t => { t with gotDone := true })) else s)

/-- PAIRING_TIMEOUT (R374): no pairing request from the partner within 10 s. -/
def execPairingTimeout (s : State) : Res :=
  .next (if twinState s = 1 ∧ !s.twin.gotReq ∧ s.twin.since + 10000000000 ≤ mono s then failPairing s 0x0204 else s)

/-! ## Mirroring (R375) -/

/-- The transcript area has room for `n` more bytes of the mirror. -/
def mirrorRoom (s : State) (n : Nat) : Bool :=
  let own := 65536 * (s.se.sessions.foldl (fun a y => a + y.2.chunks.length) 0)
  decide (mirrorBytes s + n + own ≤ poolFld s (pBytes · 2))

/-- The mirror without a handle's entry. -/
def mirrorDrop (t : Twin) (h : Nat) : List Mirrored := t.mirror.filter (fun m => m.handle != h)

/-- This module refuses an item: an ERROR_RESP with NO_RESOURCE goes back (R321; log entry 151, DESIGN CHOICE). -/
def refuseItem (s : State) : State :=
  levelSend s (twinNode s) (twinCls s) { OpHeader.zero with kind := 0x84, status := stRemote, len := 0x0104 } [] .none none true

/-- MIRROR_ITEM (R375): the mirror takes an item. A new session's record that does not fit is refused alone. -/
def execMirrorItem (m : MirrorItem) (s : State) : Res :=
  if !serving s ∨ !(twinState s == 2 || (twinState s == 1 && s.twin.gotReq)) then .next s
  else match m with
    | .session r request =>
      let h := srHandle r
      let old := s.twin.mirror.find? (fun x => x.handle == h)
      let toks := match old with | some x => x.toks | none => []
      if srState r = stClosed then .next (setTwin s (fun t => { t with mirror := mirrorDrop t h }))
      else if old.isNone && !mirrorRoom s 128 then .next (if twinState s = 1 then mirrorFull (refuseItem s) else refuseItem s)
      else .next (setTwin s (fun t => { t with mirror := mirrorDrop t h ++ [{ handle := h, record := r, toks := toks, request := request }] }))
    | .tokens h ts =>
      if !mirrorRoom s (4 * ts.length) then .next (mirrorFull (refuseItem s))
      else .next (setTwin s (fun t => { t with mirror := mapIf (fun x => x.handle == h.toNat) (fun x => { x with toks := x.toks ++ ts }) t.mirror }))
    | .outRecord part step ls => .next (setTwin s (fun t => { t with records := t.records ++ [(part, step, ls)] }))
    | .model m =>
      let rest (t : Twin) := t.models.filter (fun x => x.id != m.id)
      .next (setTwin s (fun t => { t with models := if m.digest = 0 then rest t else rest t ++ [m] }))

/-- HEARTBEAT_SEND (R375): time, device state and each partition's step number. -/
def execHeartbeatSend (s : State) : Res :=
  .next (if serving s && twinState s == 2 then
      twinPost s (.heartbeat (BitVec.ofNat 64 (now s)) (devState s) ((List.range 16).map (fun p => BitVec.ofNat 64 (tget s.se.stepNums p 0)))) .none
    else s)

/-- HEARTBEAT (R378): a heartbeat arrives, over the twin port or the fabric. -/
def execHeartbeat (fabric : Bool) (s : State) : Res :=
  let carried := fabric || decide (rf s (FAB_PORT_LINK 4) 2 8 ≠ 0)
  .next (if serving s && decide (twinState s ≠ 0) && carried then
      wr64 (setTwin s (fun t => { t with lastHb := mono s })) TWIN_LAST_HB (BitVec.ofNat 64 (now s))
    else s)

/-! ## Detaching (R377) -/

/-- TWIN_DETACH (R377): it completes when the partner acknowledges the notice, or at OP_TIMEOUT_MS. -/
def execTwinDetach (id : Nat) (s : State) : Res :=
  .next (runCmd s id 0x0606 fun s c =>
    checked s c (checks s c [] false [] [] [ckState (decide (twinState s ≠ 2)) 0x04 (twinState s)] false) fun s => beginDetach s (some c.id))

/-- DETACH_NOTICE (R377): the partner detaches. -/
def execDetachNotice (s : State) : Res := .next (if twinState s = 2 then beginDetach s none else s)

/-! ## Takeover (R378, R379) -/

/-- A model is twin-matched (R372): both modules hold a READY model of the id with the same digest. -/
def twinMatched (s : State) (models : List TwinModel) (m : Nat) : Bool :=
  match getModel s m, models.find? (fun x => x.id == m) with
  | some a, some b => mrState a.record == 2 && decide (a.digest = b.digest)
  | _, _ => false

/-- The report of a taken-over session: TOKEN0 holds the handle it had at the lost module. -/
def takeoverEntry (r : SRec) (handle old : Nat) (final : Bool) : Line :=
  let e := plainEntry r (srReqTag r) 0x0301 0 (128 + 2 * b2n final)
  setFld ({ e with handle := handle } : OutEntry).line 160 32 old

def pushLine (s : State) (part : Nat) (l : Line) : State :=
  { s with se := { s.se with status := tset s.se.status part (tget s.se.status part [] ++ [l]) [] } }

/-- A mirrored session is adopted, or reported as not adopted (R379); one with a request is OPEN and waits for a slot (R233). -/
def adopt (s : State) (models : List TwinModel) (m : Mirrored) : State × Nat :=
  let r := m.record
  let part := if partDefined s (srPart r) then srPart r else 0
  if !twinMatched s models (srModel r) ∨ 1048576 ≤ s.se.sessions.length then
    (pushLine s part (takeoverEntry r 0 m.handle true), 0)
  else
    let (i, s) := freeIndex s
    let h := tget s.se.gen i 0 * 2 ^ 20 + i
    let req := m.request
    let st := if req ∨ srState r = stOpen then stOpen else stExpired
    let first := req && decide (srLast r < srArrival r)
    let r0 := srPut r [(0, 32, h), (32, 3, st), (35, 2, 0), (40, 4, part), (96, 32, 0), (128, 32, 0), (160, 32, 0), (192, 64, 0), (256, 64, 0), (320, 64, 0),
      (384, 64, now s), (768, 32, 0)]
    let r0 := if req then srPut r0 [(37, 1, 0)] else r0
    let s := cacheNew { s with se := { s.se with order := s.se.order + 1 } } i
    let s := putSess s i { Session.zero with
      record := r0, proj := if req then stActive else st, projSusp := !req && srSusp r, waiting := req, order := s.se.order, takenOver := true, first := first, started := req }
    let s := appendToks s i m.toks
    let s := modSess s i (fun x => { x with record := srPut x.record [(96, 32, srLen r)], dueTtft := nextDue s x })
    (pushLine s part (takeoverEntry r h m.handle false), 1)

/-- The partner is lost (R378, R379): SOLO, every mirrored session adopted or reported. -/
def takeover (s : State) : State :=
  let mirror := s.twin.mirror
  let models := s.twin.models
  let node := twinNode s
  let s := goSolo (releaseGates (logTwin s 3 0))
  let (s, n) := mirror.foldl (fun (acc : State × Nat) m => let (s, k) := adopt acc.1 models m; (s, acc.2 + k)) (s, 0)
  let s := bump (bump s TWIN_TAKEOVER_COUNT TWIN_TALLY_STATUS 0 1) TWIN_ADOPTED_COUNT TWIN_TALLY_STATUS 1 n
  logErr s { cls := 0x41, loc := node, detail := 4, ex0 := n }

/-- HANDOFF_NOTICE (R378): the partner is lost. -/
def execHandoffNotice (s : State) : Res := .next (if serving s && twinState s == 2 then takeover s else s)

/-- PARTNER_LOST (R374, R378): no heartbeat has arrived for MISS × 100 µs; a pairing then fails. -/
def execPartnerLost (s : State) : Res :=
  if !serving s ∨ mono s < s.twin.lastHb + 100000 * rf s TWIN_CFG 0 8 then .next s
  else match twinState s with
    | 2 => .next (takeover s)
    | 1 => .next (if s.twin.gotReq then failPairing s 0x0202 else s)
    | _ => .next s

/-- TWIN_STATUS (R380). -/
def execTwinStatus (id : Nat) (s : State) : Res :=
  .next (runCmd s id 0x0607 fun s c =>
    let a : W64 := BitVec.ofNat 64 (pk c.pkt 24 8)
    checked s c (checks s c [] false [bufBad s a 64] [] [] false) fun s => replyBuffer s c a (regImage s TWIN_STATE 64) (twinState s))

/-! ## Weight repair (R372) -/

/-- The source that R372 sets for a model now. -/
def repairFrom (s : State) (m : Nat) : RepairSource := if twinState s = 2 ∧ twinMatched s s.twin.models m then .twin else .host

/-- The view bytes among `us` that belong to whole placement units go through the re-planer (R58, R372): lines over them are written
back and leave their slices, and the column words that the units cover are written whole, which clears their poison (R205). -/
def repairWrite (s : State) (us : List (Nat × List Byte)) (mine : Nat → Bool) : State :=
  let cells := ((us.map (fun u => (List.range u.2.length).map (fun i => (u.1 + i, u.2.getD i 0)))).flatten).filter (fun c => mine c.1)
  s.mem.regions.foldl (fun s r =>
    let base := r.first * rowSetBytes s
    let mine := cells.filter (fun c => r.planar && decide (base ≤ c.1) && decide (c.1 < base + r.count * rowSetBytes s))
    let lines := (mine.map (fun c => c.1 / 64)).eraseDups
    if mine = [] then s
    else (viewWriteBack (discardLines (lines.foldl flushLine s) (fun ln => decide (ln ∈ lines))) r 0 base (mine.map (fun c => (c.1 - base, c.2)))).2) s

/-- The poisoned sectors of a model's regions, each with its region. -/
def badSectors (s : State) (m : Model) : List (Region × Nat) :=
  ((modelRegions s m).map (fun r => (s.mem.ecc.filter (fun e : Nat × SecErr =>
    e.2.poison && decide (r.first ≤ (secLoc e.1).row) && decide ((secLoc e.1).row < r.first + r.count))).map (fun e => (r, e.1)))).flatten

/-- The placement units that cover them. -/
def badUnits (s : State) (m : Model) : List (Region × Nat) := ((badSectors s m).map (fun x => (x.1, (unitAt s x.1 (secLoc x.2)).1))).eraseDups

/-- The view addresses of a placement unit's bytes. -/
def unitCells (s : State) (x : Region × Nat) : List Nat :=
  (((List.range x.1.unitBytes).map (fun off => (List.range 8).filterMap (unitView x.1 x.2 off))).flatten).map (x.1.first * rowSetBytes s + ·)

/-- Bytes cover an address. -/
def coversAt (us : List (Nat × List Byte)) (a : Nat) : Bool := us.any (fun u => decide (u.1 ≤ a) && decide (a < u.1 + u.2.length))

/-- A model waits for a repair whose source has not failed. -/
def waitsRepair (s : State) (x : Nat × Model) : Bool :=
  x.2.repairing.isSome && !s.faults.repairs.any (fun r => r.model == x.1) && (tfind s.faults.missed x.1).isNone

/-- A repair of a model with SHARED = 1 runs ahead of every other (R372), the others in order of detection: a later one waits while one is to be made and its
source has not failed. DESIGN CHOICE (log 132). -/
def repairTurn (s : State) (m : Model) : Bool :=
  mrShared m.record || !s.se.models.any (fun x => waitsRepair s x && (mrShared x.2.record || decide (x.2.repairing.getD 0 < m.repairing.getD 0)))

/-- A source that is unavailable, or a package whose digest is not the one taken at load (R372). -/
def sourceFails (m : Model) (k : RepairInput) : Bool := decide (k.source = .failed) || (decide (k.source = .host) && decide (k.digest ≠ m.digest))

/-- The first try of a repair, or 1 s after a failed one the next. -/
def repairDue (s : State) (model : Nat) (retry : Bool) : Bool :=
  match tfind s.faults.missed model with
  | none => !retry
  | some t => retry && decide (t + 1000000000 ≤ mono s)

/-- A repair's rows or lines wait for a hold (R180). -/
def repairHeld (s : State) (m : Model) (cells : List Nat) : Bool :=
  (badSectors s m).any (fun x => pcHeld s ((secLoc x.2).bank / 32)) || cells.any (fun a => lineWaits s (a / 64))

/-- A repair of a weight region: the rows of its poisoned sectors are remapped, every placement unit that covers one is written through the re-planer; it
commits at the next boundary. A source that is unavailable, or whose digest fails, is logged, and tried again after 1 s. -/
def weightRepair (s : State) (k : RepairInput) (retry : Bool) : State :=
  match getModel s k.model with
  | none => s
  | some m =>
    if m.repairing = none ∨ !serving s ∨ !repairDue s k.model retry ∨ s.faults.repairs.any (fun r => r.model == k.model) then s
    else
      let rows := ((badSectors s m).map (fun x => ((secLoc x.2).bank, (secLoc x.2).row))).eraseDups
      let loc := match rows with | (b, r) :: _ => locM ((b * 24576 + r) * 64) none | [] => 0
      let cells := ((badUnits s m).map (unitCells s)).flatten
      if sourceFails m k then
        logErr { s with faults := { s.faults with missed := tput s.faults.missed k.model (mono s) } } { cls := 0x42, loc := loc, detail := k.model % 4096 + 8192 }
      else if k.source ≠ repairFrom s k.model ∨ !repairTurn s m ∨ !cells.all (coversAt k.units) ∨ repairHeld s m cells then s
      else
        let s' := repairWrite (rows.foldl (fun s x => repairRow s x.1 x.2) s) k.units (fun a => decide (a ∈ cells))
        { s' with faults := { s'.faults with
          repairs := s'.faults.repairs ++ [{ model := k.model, source := k.source, loc := loc, units := (badUnits s m).length }]
          missed := tdel s'.faults.missed k.model } }

/-- WEIGHT_REPAIR (R372). -/
def execWeightRepair (k : RepairInput) (s : State) : Res := .next (weightRepair s k false)

/-- WEIGHT_REPAIR_RETRY (R372): a repair whose source failed is tried again, every 1 s. -/
def execWeightRepairRetry (k : RepairInput) (s : State) : Res := .next (weightRepair s k true)

end Sys2Proof.Machine
end

