-- ==== Sys2Proof/Machine/Dispatch.lean ====
section
/-! DEFINITION. One arm per command: a direct call of its meaning. -/
namespace Sys2Proof.Machine

/-- The effect of a command on everything but the queue. -/
def exec (i : Instr) (s : State) : Host.Outcome State Fault Refusal :=
  match i with
  | .powerUp vinMv => Sys2Proof.Machine.execPowerUp vinMv s
  | .pwrEnFall => Sys2Proof.Machine.execPwrEnFall s
  | .brownout => Sys2Proof.Machine.execBrownout s
  | .overvoltage => Sys2Proof.Machine.execOvervoltage s
  | .resetN => Sys2Proof.Machine.execResetN s
  | .resetNRelease => Sys2Proof.Machine.execResetNRelease s
  | .perstNRelease => Sys2Proof.Machine.execPerstNRelease s
  | .bootPhase r => Sys2Proof.Machine.execBootPhase r s
  | .sbBoardCap w => Sys2Proof.Machine.execSbBoardCap w s
  | .rcvStart w => Sys2Proof.Machine.execRcvStart w s
  | .sbRcvData w => Sys2Proof.Machine.execSbRcvData w s
  | .commit w => Sys2Proof.Machine.execCommit w s
  | .registerWrite a off be w => Sys2Proof.Machine.execRegisterWrite a off be w s
  | .lowWordRead a off => Sys2Proof.Machine.execLowWordRead a off s
  | .timeNowFrac a => Sys2Proof.Machine.execTimeNowFrac a s
  | .traceSemSel a w => Sys2Proof.Machine.execTraceSemSel a w s
  | .pwrHistSel a w => Sys2Proof.Machine.execPwrHistSel a w s
  | .aqEnable w => Sys2Proof.Machine.execAqEnable w s
  | .aqDisable w => Sys2Proof.Machine.execAqDisable w s
  | .aqDisableDone => Sys2Proof.Machine.execAqDisableDone s
  | .sqTail q w => Sys2Proof.Machine.execSqTail q w s
  | .cqHead q w => Sys2Proof.Machine.execCqHead q w s
  | .commandFetch q => Sys2Proof.Machine.execCommandFetch q s
  | .nop id => Sys2Proof.Machine.execNop id s
  | .identify id => Sys2Proof.Machine.execIdentify id s
  | .queueCreate id => Sys2Proof.Machine.execQueueCreate id s
  | .queueDelete id => Sys2Proof.Machine.execQueueDelete id s
  | .queueStatus id => Sys2Proof.Machine.execQueueStatus id s
  | .partitionDefine id => Sys2Proof.Machine.execPartitionDefine id s
  | .partitionDelete id => Sys2Proof.Machine.execPartitionDelete id s
  | .memmapConfig id => Sys2Proof.Machine.execMemmapConfig id s
  | .deviceReset id => Sys2Proof.Machine.execDeviceReset id s
  | .memAlloc id => Sys2Proof.Machine.execMemAlloc id s
  | .memFree id => Sys2Proof.Machine.execMemFree id s
  | .memMove id => Sys2Proof.Machine.execMemMove id s
  | .semSignal id => Sys2Proof.Machine.execSemSignal id s
  | .semWait id => Sys2Proof.Machine.execSemWait id s
  | .semWrite id => Sys2Proof.Machine.execSemWrite id s
  | .semRead id => Sys2Proof.Machine.execSemRead id s
  | .nbRun id => Sys2Proof.Machine.execNbRun id s
  | .nbAbort id => Sys2Proof.Machine.execNbAbort id s
  | .modelLoad id p => Sys2Proof.Machine.execModelLoad id p s
  | .modelUnload id => Sys2Proof.Machine.execModelUnload id s
  | .modelQuery id => Sys2Proof.Machine.execModelQuery id s
  | .sessionOpen id => Sys2Proof.Machine.execSessionOpen id s
  | .sessionPause id => Sys2Proof.Machine.execSessionPause id s
  | .sessionResume id => Sys2Proof.Machine.execSessionResume id s
  | .sessionCancel id => Sys2Proof.Machine.execSessionCancel id s
  | .sessionQuery id => Sys2Proof.Machine.execSessionQuery id s
  | .sessionSet id => Sys2Proof.Machine.execSessionSet id s
  | .sessionRead id => Sys2Proof.Machine.execSessionRead id s
  | .requestSubmit id => Sys2Proof.Machine.execRequestSubmit id s
  | .kvPoolConfig id => Sys2Proof.Machine.execKvPoolConfig id s
  | .outputRingConfig id => Sys2Proof.Machine.execOutputRingConfig id s
  | .jobLaunch id => Sys2Proof.Machine.execJobLaunch id s
  | .jobCancel id => Sys2Proof.Machine.execJobCancel id s
  | .jobQuery id => Sys2Proof.Machine.execJobQuery id s
  | .portConfig id => Sys2Proof.Machine.execPortConfig id s
  | .portStatus id => Sys2Proof.Machine.execPortStatus id s
  | .nodeConfig id => Sys2Proof.Machine.execNodeConfig id s
  | .peerSet id => Sys2Proof.Machine.execPeerSet id s
  | .peerClear id => Sys2Proof.Machine.execPeerClear id s
  | .twinPair id => Sys2Proof.Machine.execTwinPair id s
  | .twinDetach id => Sys2Proof.Machine.execTwinDetach id s
  | .twinStatus id => Sys2Proof.Machine.execTwinStatus id s
  | .timeRead id => Sys2Proof.Machine.execTimeRead id s
  | .timeSet id => Sys2Proof.Machine.execTimeSet id s
  | .ptpConfig id => Sys2Proof.Machine.execPtpConfig id s
  | .ppsConfig id => Sys2Proof.Machine.execPpsConfig id s
  | .timeStatus id => Sys2Proof.Machine.execTimeStatus id s
  | .attest id => Sys2Proof.Machine.execAttest id s
  | .certRead id => Sys2Proof.Machine.execCertRead id s
  | .fwUpdate id => Sys2Proof.Machine.execFwUpdate id s
  | .ownerKeySet id => Sys2Proof.Machine.execOwnerKeySet id s
  | .debugPassword id => Sys2Proof.Machine.execDebugPassword id s
  | .debugChallenge id => Sys2Proof.Machine.execDebugChallenge id s
  | .debugToken id => Sys2Proof.Machine.execDebugToken id s
  | .debugLock id => Sys2Proof.Machine.execDebugLock id s
  | .tallyRead id => Sys2Proof.Machine.execTallyRead id s
  | .errlogRead id => Sys2Proof.Machine.execErrlogRead id s
  | .traceConfig id => Sys2Proof.Machine.execTraceConfig id s
  | .sensorRead id => Sys2Proof.Machine.execSensorRead id s
  | .stop a => Sys2Proof.Machine.execStop a s
  | .arm a w => Sys2Proof.Machine.execArm a w s
  | .injectionFire => Sys2Proof.Machine.execInjectionFire s
  | .run a w => Sys2Proof.Machine.execRun a w s
  | .start control => Sys2Proof.Machine.execStart control s
  | .hostAccess h => Sys2Proof.Machine.execHostAccess h s
  | .cxlMemAccess range h => Sys2Proof.Machine.execCxlMemAccess range h s
  | .homeSliceAccess op granule => Sys2Proof.Machine.execHomeSliceAccess op granule s
  | .memoryOperationComplete pc => Sys2Proof.Machine.execMemoryOperationComplete pc s
  | .writeBufferDrain pc => Sys2Proof.Machine.execWriteBufferDrain pc s
  | .urgencyRise pc dop => Sys2Proof.Machine.execUrgencyRise pc dop s
  | .refresh bank forced => Sys2Proof.Machine.execRefresh bank forced s
  | .powerDown sid => Sys2Proof.Machine.execPowerDown sid s
  | .selfRefresh stack => Sys2Proof.Machine.execSelfRefresh stack s
  | .patrolScrub stack => Sys2Proof.Machine.execPatrolScrub stack s
  | .rowRepair bank row => Sys2Proof.Machine.execRowRepair bank row s
  | .periodicRetrain stack channel => Sys2Proof.Machine.execPeriodicRetrain stack channel s
  | .urgentRetrain pc cause whole => Sys2Proof.Machine.execUrgentRetrain pc cause whole s
  | .retrainEnd pc ok => Sys2Proof.Machine.execRetrainEnd pc ok s
  | .nbProg stack entry descs => Sys2Proof.Machine.execNbProg stack entry descs s
  | .nbStart stack entry part tag => Sys2Proof.Machine.execNbStart stack entry part tag s
  | .nbBcast stack off bytes => Sys2Proof.Machine.execNbBcast stack off bytes s
  | .nbDrain stack off n => Sys2Proof.Machine.execNbDrain stack off n s
  | .nbGroupAbort stack pid => Sys2Proof.Machine.execNbGroupAbort stack pid s
  | .nbStatus stack => Sys2Proof.Machine.execNbStatus stack s
  | .gemv stack pid => Sys2Proof.Machine.execGemv stack pid s
  | .qk stack pid => Sys2Proof.Machine.execQk stack pid s
  | .pv stack pid => Sys2Proof.Machine.execPv stack pid s
  | .rclear stack pid => Sys2Proof.Machine.execRclear stack pid s
  | .pzero stack pid => Sys2Proof.Machine.execPzero stack pid s
  | .load stack pid => Sys2Proof.Machine.execLoad stack pid s
  | .drain stack pid => Sys2Proof.Machine.execDrain stack pid s
  | .blastEnd stack pid => Sys2Proof.Machine.execBlastEnd stack pid s
  | .entryComplete stack pid => Sys2Proof.Machine.execEntryComplete stack pid s
  | .microStep stack pid bank => Sys2Proof.Machine.execMicroStep stack pid bank s
  | .grantWindow stack => Sys2Proof.Machine.execGrantWindow stack s
  | .yieldSlot bank => Sys2Proof.Machine.execYieldSlot bank s
  | .lds t b => Sys2Proof.Machine.execLds t b s
  | .sts t b => Sys2Proof.Machine.execSts t b s
  | .ldv t b => Sys2Proof.Machine.execLdv t b s
  | .stv t b => Sys2Proof.Machine.execStv t b s
  | .amo t b => Sys2Proof.Machine.execAmo t b s
  | .semsig t b => Sys2Proof.Machine.execSemsig t b s
  | .semwait t b => Sys2Proof.Machine.execSemwait t b s
  | .semtry t b => Sys2Proof.Machine.execSemtry t b s
  | .fenceL t b => Sys2Proof.Machine.execFenceL t b s
  | .fenceD t b => Sys2Proof.Machine.execFenceD t b s
  | .fenceH t b => Sys2Proof.Machine.execFenceH t b s
  | .fenceComplete t => Sys2Proof.Machine.execFenceComplete t s
  | .l1inv t b => Sys2Proof.Machine.execL1inv t b s
  | .hoist t b => Sys2Proof.Machine.execHoist t b s
  | .loopcfg t b => Sys2Proof.Machine.execLoopcfg t b s
  | .looprd t b => Sys2Proof.Machine.execLooprd t b s
  | .memoryResponse op => Sys2Proof.Machine.execMemoryResponse op s
  | .semaphoreOperation op => Sys2Proof.Machine.execSemaphoreOperation op s
  | .clockGate vcore => Sys2Proof.Machine.execClockGate vcore s
  | .poll id => Sys2Proof.Machine.execPoll id s
  | .yieldRetest q => Sys2Proof.Machine.execYieldRetest q s
  | .add t b => Sys2Proof.Machine.execAdd t b s
  | .sub t b => Sys2Proof.Machine.execSub t b s
  | .and t b => Sys2Proof.Machine.execAnd t b s
  | .or t b => Sys2Proof.Machine.execOr t b s
  | .xor t b => Sys2Proof.Machine.execXor t b s
  | .shl t b => Sys2Proof.Machine.execShl t b s
  | .shr t b => Sys2Proof.Machine.execShr t b s
  | .sra t b => Sys2Proof.Machine.execSra t b s
  | .mul t b => Sys2Proof.Machine.execMul t b s
  | .mulhu t b => Sys2Proof.Machine.execMulhu t b s
  | .slt t b => Sys2Proof.Machine.execSlt t b s
  | .sltu t b => Sys2Proof.Machine.execSltu t b s
  | .min t b => Sys2Proof.Machine.execMin t b s
  | .max t b => Sys2Proof.Machine.execMax t b s
  | .addi t b => Sys2Proof.Machine.execAddi t b s
  | .andi t b => Sys2Proof.Machine.execAndi t b s
  | .ori t b => Sys2Proof.Machine.execOri t b s
  | .xori t b => Sys2Proof.Machine.execXori t b s
  | .shli t b => Sys2Proof.Machine.execShli t b s
  | .shri t b => Sys2Proof.Machine.execShri t b s
  | .srai t b => Sys2Proof.Machine.execSrai t b s
  | .slti t b => Sys2Proof.Machine.execSlti t b s
  | .li t b => Sys2Proof.Machine.execLi t b s
  | .lih t b => Sys2Proof.Machine.execLih t b s
  | .beqz t b => Sys2Proof.Machine.execBeqz t b s
  | .bnez t b => Sys2Proof.Machine.execBnez t b s
  | .bltz t b => Sys2Proof.Machine.execBltz t b s
  | .bgez t b => Sys2Proof.Machine.execBgez t b s
  | .jmp t b => Sys2Proof.Machine.execJmp t b s
  | .call t b => Sys2Proof.Machine.execCall t b s
  | .jr t b => Sys2Proof.Machine.execJr t b s
  | .rpt t b => Sys2Proof.Machine.execRpt t b s
  | .rpti t b => Sys2Proof.Machine.execRpti t b s
  | .winext t b => Sys2Proof.Machine.execWinext t b s
  | .endThread t b => Sys2Proof.Machine.execEndThread t b s
  | .subtag t b => Sys2Proof.Machine.execSubtag t b s
  | .stat t b => Sys2Proof.Machine.execStat t b s
  | .bundleNop t b => Sys2Proof.Machine.execBundleNop t b s
  | .reservedHeader t b => Sys2Proof.Machine.execReservedHeader t b s
  | .truncatedBundle t b => Sys2Proof.Machine.execTruncatedBundle t b s
  | .deadlock vcore => Sys2Proof.Machine.execDeadlock vcore s
  | .mma t b => Sys2Proof.Machine.execMma t b s
  | .mmaz t b => Sys2Proof.Machine.execMmaz t b s
  | .mzero t b => Sys2Proof.Machine.execMzero t b s
  | .mwr t b => Sys2Proof.Machine.execMwr t b s
  | .mrd t b => Sys2Proof.Machine.execMrd t b s
  | .mrdz t b => Sys2Proof.Machine.execMrdz t b s
  | .fadd t b => Sys2Proof.Machine.execFadd t b s
  | .fsub t b => Sys2Proof.Machine.execFsub t b s
  | .fmul t b => Sys2Proof.Machine.execFmul t b s
  | .fma t b => Sys2Proof.Machine.execFma t b s
  | .fms t b => Sys2Proof.Machine.execFms t b s
  | .fnma t b => Sys2Proof.Machine.execFnma t b s
  | .fmin t b => Sys2Proof.Machine.execFmin t b s
  | .fmax t b => Sys2Proof.Machine.execFmax t b s
  | .fabs t b => Sys2Proof.Machine.execFabs t b s
  | .fneg t b => Sys2Proof.Machine.execFneg t b s
  | .fdiv t b => Sys2Proof.Machine.execFdiv t b s
  | .fscalb t b => Sys2Proof.Machine.execFscalb t b s
  | .iadd t b => Sys2Proof.Machine.execIadd t b s
  | .isub t b => Sys2Proof.Machine.execIsub t b s
  | .imul t b => Sys2Proof.Machine.execImul t b s
  | .imin t b => Sys2Proof.Machine.execImin t b s
  | .imax t b => Sys2Proof.Machine.execImax t b s
  | .vecAnd t b => Sys2Proof.Machine.execVecAnd t b s
  | .vecOr t b => Sys2Proof.Machine.execVecOr t b s
  | .vecXor t b => Sys2Proof.Machine.execVecXor t b s
  | .vecShl t b => Sys2Proof.Machine.execVecShl t b s
  | .vecShr t b => Sys2Proof.Machine.execVecShr t b s
  | .vecSra t b => Sys2Proof.Machine.execVecSra t b s
  | .iabs t b => Sys2Proof.Machine.execIabs t b s
  | .iadds t b => Sys2Proof.Machine.execIadds t b s
  | .cmpeq t b => Sys2Proof.Machine.execCmpeq t b s
  | .cmpne t b => Sys2Proof.Machine.execCmpne t b s
  | .cmplt t b => Sys2Proof.Machine.execCmplt t b s
  | .cmple t b => Sys2Proof.Machine.execCmple t b s
  | .isnan t b => Sys2Proof.Machine.execIsnan t b s
  | .mand t b => Sys2Proof.Machine.execMand t b s
  | .mor t b => Sys2Proof.Machine.execMor t b s
  | .mxor t b => Sys2Proof.Machine.execMxor t b s
  | .mnot t b => Sys2Proof.Machine.execMnot t b s
  | .mlen t b => Sys2Proof.Machine.execMlen t b s
  | .sel t b => Sys2Proof.Machine.execSel t b s
  | .rsum t b => Sys2Proof.Machine.execRsum t b s
  | .rmax t b => Sys2Proof.Machine.execRmax t b s
  | .rmin t b => Sys2Proof.Machine.execRmin t b s
  | .rargmax t b => Sys2Proof.Machine.execRargmax t b s
  | .psum t b => Sys2Proof.Machine.execPsum t b s
  | .bcast t b => Sys2Proof.Machine.execBcast t b s
  | .perm t b => Sys2Proof.Machine.execPerm t b s
  | .iota t b => Sys2Proof.Machine.execIota t b s
  | .mpopc t b => Sys2Proof.Machine.execMpopc t b s
  | .mfirst t b => Sys2Proof.Machine.execMfirst t b s
  | .rcp t b => Sys2Proof.Machine.execRcp t b s
  | .rsqrt t b => Sys2Proof.Machine.execRsqrt t b s
  | .sqrt t b => Sys2Proof.Machine.execSqrt t b s
  | .exp2 t b => Sys2Proof.Machine.execExp2 t b s
  | .exp t b => Sys2Proof.Machine.execExp t b s
  | .log2 t b => Sys2Proof.Machine.execLog2 t b s
  | .tanh t b => Sys2Proof.Machine.execTanh t b s
  | .sigmoid t b => Sys2Proof.Machine.execSigmoid t b s
  | .erf t b => Sys2Proof.Machine.execErf t b s
  | .sin t b => Sys2Proof.Machine.execSin t b s
  | .cos t b => Sys2Proof.Machine.execCos t b s
  | .cvt t b => Sys2Proof.Machine.execCvt t b s
  | .cvtsc t b => Sys2Proof.Machine.execCvtsc t b s
  | .bscale t b => Sys2Proof.Machine.execBscale t b s
  | .nbx t b => Sys2Proof.Machine.execNbx t b s
  | .nbq t b => Sys2Proof.Machine.execNbq t b s
  | .rand t b => Sys2Proof.Machine.execRand t b s
  | .rdflags t b => Sys2Proof.Machine.execRdflags t b s
  | .clrflags t b => Sys2Proof.Machine.execClrflags t b s
  | .move hoist => Sys2Proof.Machine.execMove hoist s
  | .fill hoist => Sys2Proof.Machine.execFill hoist s
  | .moveRetire mv => Sys2Proof.Machine.execMoveRetire mv s
  | .jobStart job => Sys2Proof.Machine.execJobStart job s
  | .jobEnd job => Sys2Proof.Machine.execJobEnd job s
  | .bucketWaitEnd op => Sys2Proof.Machine.execBucketWaitEnd op s
  | .preempt part => Sys2Proof.Machine.execPreempt part s
  | .resume part => Sys2Proof.Machine.execResume part s
  | .stepStart part => Sys2Proof.Machine.execStepStart part s
  | .groupPlan part => Sys2Proof.Machine.execGroupPlan part s
  | .rescue part => Sys2Proof.Machine.execRescue part s
  | .stepCommit part res => Sys2Proof.Machine.execStepCommit part res s
  | .idleBoundary part => Sys2Proof.Machine.execIdleBoundary part s
  | .ttlExpiry session => Sys2Proof.Machine.execTtlExpiry session s
  | .tierMoveDone session ok => Sys2Proof.Machine.execTierMoveDone session ok s
  | .put f => Sys2Proof.Machine.execPut f s
  | .levelAdd f => Sys2Proof.Machine.execLevelAdd f s
  | .signal f => Sys2Proof.Machine.execSignal f s
  | .putSignal f => Sys2Proof.Machine.execPutSignal f s
  | .get f => Sys2Proof.Machine.execGet f s
  | .atomic f => Sys2Proof.Machine.execAtomic f s
  | .command f => Sys2Proof.Machine.execCommand f s
  | .getResp f => Sys2Proof.Machine.execGetResp f s
  | .atomicResp f => Sys2Proof.Machine.execAtomicResp f s
  | .commandReply f => Sys2Proof.Machine.execCommandReply f s
  | .errorResp f => Sys2Proof.Machine.execErrorResp f s
  | .ack f => Sys2Proof.Machine.execAck f s
  | .reset f => Sys2Proof.Machine.execReset f s
  | .ackSend flow => Sys2Proof.Machine.execAckSend flow s
  | .retransmit flow => Sys2Proof.Machine.execRetransmit flow s
  | .rtoExpiry flow => Sys2Proof.Machine.execRtoExpiry flow s
  | .rateIncrease flow => Sys2Proof.Machine.execRateIncrease flow s
  | .quarantineEnd flow path => Sys2Proof.Machine.execQuarantineEnd flow path s
  | .opTimeout flow psn => Sys2Proof.Machine.execOpTimeout flow psn s
  | .linkUp port sub => Sys2Proof.Machine.execLinkUp port sub s
  | .linkDown port sub => Sys2Proof.Machine.execLinkDown port sub s
  | .neighbourDiscovery n => Sys2Proof.Machine.execNeighbourDiscovery n s
  | .arp n => Sys2Proof.Machine.execArp n s
  | .icmpEcho n => Sys2Proof.Machine.execIcmpEcho n s
  | .otherFrame port => Sys2Proof.Machine.execOtherFrame port s
  | .sync p => Sys2Proof.Machine.execSync p s
  | .followUp p => Sys2Proof.Machine.execFollowUp p s
  | .delayReq p => Sys2Proof.Machine.execDelayReq p s
  | .delayResp p => Sys2Proof.Machine.execDelayResp p s
  | .announce p => Sys2Proof.Machine.execAnnounce p s
  | .syncSend port => Sys2Proof.Machine.execSyncSend port s
  | .announceSend port => Sys2Proof.Machine.execAnnounceSend port s
  | .delayReqSend port => Sys2Proof.Machine.execDelayReqSend port s
  | .sourceSelect best => Sys2Proof.Machine.execSourceSelect best s
  | .ppsInEdge => Sys2Proof.Machine.execPpsInEdge s
  | .ppsOutPulse => Sys2Proof.Machine.execPpsOutPulse s
  | .tcxoCompensation temp => Sys2Proof.Machine.execTcxoCompensation temp s
  | .holdoverLimit => Sys2Proof.Machine.execHoldoverLimit s
  | .coreWatchdog cluster core semThread => Sys2Proof.Machine.execCoreWatchdog cluster core semThread s
  | .coreSramError cluster core unit uncorrectable => Sys2Proof.Machine.execCoreSramError cluster core unit uncorrectable s
  | .clusterFault cluster hoistFault failed => Sys2Proof.Machine.execClusterFault cluster hoistFault failed s
  | .stackFault stack trainingFailed => Sys2Proof.Machine.execStackFault stack trainingFailed s
  | .portFault port => Sys2Proof.Machine.execPortFault port s
  | .deviceFault code => Sys2Proof.Machine.execDeviceFault code s
  | .recoveryEnd kind => Sys2Proof.Machine.execRecoveryEnd kind s
  | .recoveryTimeout kind => Sys2Proof.Machine.execRecoveryTimeout kind s
  | .weightRepair k => Sys2Proof.Machine.execWeightRepair k s
  | .weightRepairRetry k => Sys2Proof.Machine.execWeightRepairRetry k s
  | .flashLogCopy => Sys2Proof.Machine.execFlashLogCopy s
  | .heartbeatSend => Sys2Proof.Machine.execHeartbeatSend s
  | .heartbeat fabric => Sys2Proof.Machine.execHeartbeat fabric s
  | .mirrorItem m => Sys2Proof.Machine.execMirrorItem m s
  | .pairingRequest node digests => Sys2Proof.Machine.execPairingRequest node digests s
  | .copyDone => Sys2Proof.Machine.execCopyDone s
  | .pairingTimeout => Sys2Proof.Machine.execPairingTimeout s
  | .detachNotice => Sys2Proof.Machine.execDetachNotice s
  | .handoffNotice => Sys2Proof.Machine.execHandoffNotice s
  | .partnerLost => Sys2Proof.Machine.execPartnerLost s
  | .controlPeriod m => Sys2Proof.Machine.execControlPeriod m s
  | .voltageReached => Sys2Proof.Machine.execVoltageReached s
  | .powerSample watts => Sys2Proof.Machine.execPowerSample watts s
  | .thermalSample x => Sys2Proof.Machine.execThermalSample x s
  | .fullAssay => Sys2Proof.Machine.execFullAssay s
  | .assayComplete f => Sys2Proof.Machine.execAssayComplete f s
  | .assayTimeout => Sys2Proof.Machine.execAssayTimeout s
  | .recalibration kind c v => Sys2Proof.Machine.execRecalibration kind c v s
  | .debugExpiry => Sys2Proof.Machine.execDebugExpiry s
  | .nonceExpiry => Sys2Proof.Machine.execNonceExpiry s
  | .semWaitTimeout id => Sys2Proof.Machine.execSemWaitTimeout id s
  | .highWordRead a off => Sys2Proof.Machine.execHighWordRead a off s
  | .pwrEnHoldOffEnd => Sys2Proof.Machine.execPwrEnHoldOffEnd s
  | .shutdownCompare x => Sys2Proof.Machine.execShutdownCompare x s
  | .ppsInLoss => Sys2Proof.Machine.execPpsInLoss s
  | .rxBadPacket port unknown => Sys2Proof.Machine.execRxBadPacket port unknown s
  | .reservedKindPacket f => Sys2Proof.Machine.execReservedKindPacket f s

end Sys2Proof.Machine
end

