-- ==== Sys2Proof/Machine/Tick.lean ====
section
/-! DEFINITION. One cycle of the TIME clock (R344): what passes while no command waits (log entry 54, DESIGN CHOICE). -/
namespace Sys2Proof.Machine

/-- A partition's buckets fill for 10 ns: a stack's by RATE × 10 GB/s, a port's by its RATE (R299, R300), in 1/16 bytes. -/
def refillBuckets (s : State) (part : Nat) (p : Part) : Part :=
  { p with tokens := p.tokens.foldl (fun t b =>
      let rate := fld (regWord s part b.1) 0 9
      tset t b.1 (b.2 - rate * (if b.1 < 8 then 1600 else 125)) 0) [] }

/-- A port that is up has decoded at most two codewords in a cycle of TIME, any of them corrected or uncorrectable (R341; log entry 156, DESIGN CHOICE). -/
def fecCount (s : State) (k : Nat) : State :=
  if !portUp s k then s
  else
    let (bad, s) := drawBelow s 3
    let (mended, s) := drawBelow s (3 - bad)
    portTally (portTally s k 0 mended) k 1 bad

/-- One cycle of TIME: the counter moves on (R344), the buckets fill, the ports' codewords count (R341), a 1PPS pulse ends 20 ms after it rose (R353),
a record that is being written to flash is committed (R26), and the watchdogs count (R366). Nothing passes while the
rails are off or RESET_N is low (R430). -/
def tick (s : State) : State :=
  if !s.pins.rails || s.pins.resetLow then s
  else
    let time := tickTime s.time (rho s)
    let s := (List.range 5).foldl fecCount (settleTables (watchPass s 10))
    { s with
      time := time
      flash := s.flash.commitNext
      parts := s.parts.map (fun p => (p.1, refillBuckets s p.1 p.2))
      pins := { s.pins with ppsOut := s.pins.ppsOut && decide (10 * time.cycles < time.ppsRose + 20000000) } }

end Sys2Proof.Machine
end

