-- ==== Sys2Proof/Certificates/Slice0/Obligations.lean ====
section
/-! DEFINITION. The statements about the N8. A clause about a command says what its next state is; "answers" stands for `exec`.
The words below (Gives, Admitted, …) are used by several statements. -/
namespace Sys2Proof.Claims
open Sys2Proof.Machine

/-- The command answers a next state, and `P` holds of it. -/
def Gives (c : Instr) (s : State) (P : State → Prop) : Prop := ∃ t, exec c s = .next t ∧ P t

/-- Command `c` waits under `id` with opcode `op`, and its row may begin it (R268): it is the oldest of its queue that has not begun, no device
recovery stops it, and an ORDERED command of a remote source has no earlier one in progress. -/
def Admitted (s : State) (id op : Nat) (c : Cmd) : Prop :=
  getCmd s id = some c ∧ pkOp c.pkt = op ∧ c.begun = false ∧ s.host.fetchStopped = false ∧
    ∀ d ∈ s.host.cmds, d.queue = c.queue → d.id < id → d.begun = true ∧ ¬(c.src.isSome = true ∧ pkOrdered c.pkt = true)

/-- The state in which the command has begun, and the command as it then is. -/
def begun (s : State) (id : Nat) : State := modCmd s id (fun c => { c with begun := true, at_ := mono s })
def taken (s : State) (c : Cmd) : Cmd := { c with begun := true, at_ := mono s }

/-- The checks that every opcode shares pass (R273). -/
def Plain (s : State) (c : Cmd) : Prop := checks s c [] false [] [] [] false = none

/-- Bytes `b` to `b + 7` of a packet as an address. -/
def addrAt (c : Cmd) (b : Nat) : W64 := BitVec.ofNat 64 (pk c.pkt b 8)

/-- The packet names a buffer of `n` bytes in the memory that R270 allows. -/
def Buffer (s : State) (c : Cmd) (b n : Nat) : Prop := bufOk s (addrAt c b) n = true

end Sys2Proof.Claims

section
open Sys2Proof Sys2Proof.Machine Sys2Proof.Claims

/-! ## The machine -/

/-- A step runs the command at the front of the queue on the state with the queue's rest. -/
def Obligations.StepRunsFront : Prop :=
  ∀ (s : State) (c : Instr) (rest : List Instr), s.pending = c :: rest → step s = exec c { s with pending := rest }

/-- R344. Every step answers a next state. While no command waits, a step is one cycle of the TIME clock: the counter moves on by 10 ns × (1 + ρ), counted in 2^−56 ns, and wraps with its seconds. That an idle step is a cycle is the model's choice (log entry 54, DESIGN CHOICE). -/
def Obligations.StepsAnswer : Prop :=
  (∀ s : State, s.pending = [] → s.pins.rails = true → s.pins.resetLow = false → s.time.ns < 1000000000 → s.time.acc < 2 ^ 40 →
    0 ≤ (2 ^ 40 : Int) + rho s →
    ∃ t, step s = .next t ∧ t.time.ns < 1000000000 ∧ t.time.acc < 2 ^ 40 ∧ t.time.cycles = s.time.cycles + 1 ∧
      (s.faults.tableError = false → t.mem = s.mem ∧ t.bar = s.bar) ∧
      ∃ k : Nat, t.time.sec = s.time.sec + BitVec.ofNat 48 k ∧
        ((k * 1000000000 + t.time.ns) * 2 ^ 16 + t.time.frac.toNat) * 2 ^ 40 + t.time.acc =
          ((s.time.ns : Int) * 2 ^ 16 + s.time.frac.toNat) * 2 ^ 40 + s.time.acc + 655360 * (2 ^ 40 + rho s)) ∧
  (∀ s : State, ∃ t, step s = .next t)

/-- What manufacture fixed and only OWNER_KEY_SET extends (R402, R408): the fuses' root hash and device secret, the serial and the certificates in
flash, and at most four owner generations. -/
def Sys2Proof.Claims.Fused (s : State) : Prop :=
  s.sec.rootHash = Config.rootHash ∧ s.sec.secret = Config.deviceSecret ∧ s.flash.serial = Config.serial ∧
    s.flash.certs = Flash.factoryCerts ∧ s.sec.owners.length ≤ 4

/-- Every step keeps what manufacture fixed, and the owner key slot never holds a fifth generation (R402, R408). -/
def Obligations.FusesKept : Prop := ∀ s t : State, Fused s → step s = .next t → Fused t

namespace Sys2Proof.Claims
open Sys2Proof.Machine

/-- The pieces of the state but for the grade and the queue: free values, time, registers, device memory, Core threads and jobs, semaphores, Hoists,
near-bank units, the host port, partitions, serving, the fabric, faults and logs, twin, power, security, flash, pins, trace. -/
inductive Piece
  | fresh
  | time
  | bar
  | mem
  | cores
  | sems
  | hoists
  | nb
  | host
  | parts
  | se
  | fab
  | faults
  | twin
  | pwr
  | sec
  | flash
  | pins
  | trace
deriving DecidableEq

/-- Two states agree on a piece. -/
def sameIn (p : Piece) (s t : State) : Prop :=
  match p with
  | .fresh => t.fresh = s.fresh
  | .time => t.time = s.time
  | .bar => t.bar = s.bar
  | .mem => t.mem = s.mem
  | .cores => t.cores = s.cores
  | .sems => t.sems = s.sems
  | .hoists => t.hoists = s.hoists
  | .nb => t.nb = s.nb
  | .host => t.host = s.host
  | .parts => t.parts = s.parts
  | .se => t.se = s.se
  | .fab => t.fab = s.fab
  | .faults => t.faults = s.faults
  | .twin => t.twin = s.twin
  | .pwr => t.pwr = s.pwr
  | .sec => t.sec = s.sec
  | .flash => t.flash = s.flash
  | .pins => t.pins = s.pins
  | .trace => t.trace = s.trace

def everyPiece : List Piece :=
  [.fresh, .time, .bar, .mem, .cores, .sems, .hoists, .nb, .host, .parts,
   .se, .fab, .faults, .twin, .pwr, .sec, .flash, .pins, .trace]

/-- A message waits in a flow to a peer, or is on its way (R323, R375). -/
def Posted (s : State) (peer : Nat) (m : TwinMsg) : Prop := ∃ f ∈ s.fab.flows, f.peer = peer ∧ ∃ y ∈ f.sent ++ f.waitq, y.msg = some m

/-- The module is SOLO, with nothing that waits for the twin and nothing refused by it (R374, R375). -/
def TwinQuiet (s : State) : Prop := twinState s = 0 ∧ s.twin.gates = [] ∧ s.twin.refused = []

/-- The pieces a command may change. -/
def mayChange (c : Instr) : List Piece :=
  match c with
  | .powerUp .. | .pwrEnFall | .brownout | .overvoltage | .resetN | .deviceReset .. | .recoveryEnd .. | .pwrEnHoldOffEnd => everyPiece
  | .resetNRelease | .perstNRelease => [.host, .pins]
  | .bootPhase .. => [.fresh, .bar, .mem, .cores, .sems, .parts, .se, .faults, .pwr, .sec, .flash, .trace]
  | .sbBoardCap .. | .selfRefresh .. | .otherFrame .. | .rxBadPacket .. => [.bar]
  | .rcvStart .. | .commit .. => [.bar, .flash, .pins]
  | .sbRcvData .. => [.flash]
  | .registerWrite .. => [.bar, .host, .faults, .pwr, .pins, .trace]
  | .traceSemSel .. | .pwrHistSel .. | .stop .. | .arm .. | .run .. => [.bar, .host, .faults, .pwr, .trace]
  | .lowWordRead .. | .timeNowFrac .. | .highWordRead .. => [.fresh, .bar]
  | .aqEnable .. | .aqDisable .. | .sqTail .. | .cqHead .. => [.bar, .host, .faults, .trace]
  | .aqDisableDone => [.host]
  | .commandFetch .. | .nop .. | .queueCreate .. | .queueDelete .. | .queueStatus .. | .memAlloc .. | .memFree .. | .semRead .. | .jobQuery ..
    | .portConfig .. | .peerSet .. | .timeRead .. | .traceConfig .. | .semWaitTimeout .. => [.fresh, .bar, .mem, .host, .parts, .fab, .faults, .trace]
  | .identify .. | .partitionDefine .. | .modelQuery .. | .jobLaunch .. | .portStatus .. | .twinStatus .. | .timeStatus .. | .attest ..
    | .certRead .. | .tallyRead .. | .errlogRead .. | .sensorRead .. | .jobStart .. | .jobEnd .. =>
    [.fresh, .bar, .mem, .cores, .host, .parts, .fab, .faults, .trace]
  | .partitionDelete .. | .sessionQuery .. | .sessionRead .. | .tierMoveDone .. =>
    [.fresh, .bar, .mem, .cores, .host, .parts, .se, .fab, .faults, .trace]
  | .memmapConfig .. | .fwUpdate .. => [.fresh, .bar, .mem, .host, .parts, .fab, .faults, .flash, .trace]
  | .memMove .. => [.fresh, .bar, .mem, .hoists, .host, .parts, .fab, .faults, .trace]
  | .semSignal .. | .semWait .. | .semWrite .. | .jobCancel .. | .poll .. | .yieldRetest .. =>
    [.fresh, .bar, .mem, .cores, .sems, .host, .parts, .fab, .faults, .trace]
  | .nbRun .. => [.fresh, .bar, .mem, .nb, .host, .parts, .fab, .faults, .trace]
  | .nbAbort .. | .nbGroupAbort .. | .blastEnd .. => [.fresh, .bar, .mem, .cores, .sems, .nb, .host, .parts, .fab, .faults, .trace]
  | .modelLoad .. | .sessionSet .. | .kvPoolConfig .. | .outputRingConfig .. => [.fresh, .bar, .mem, .host, .parts, .se, .fab, .faults, .trace]
  | .modelUnload .. | .sessionOpen .. | .sessionPause .. | .sessionResume .. | .sessionCancel .. | .requestSubmit .. | .partnerLost | .twinPair ..
    | .twinDetach .. | .mirrorItem .. | .pairingRequest .. | .detachNotice | .handoffNotice =>
    [.fresh, .bar, .mem, .host, .parts, .se, .fab, .faults, .twin, .trace]
  | .nodeConfig .. | .peerClear .. | .reset .. | .opTimeout .. | .ack .. =>
    [.fresh, .bar, .mem, .cores, .hoists, .host, .parts, .se, .fab, .faults, .twin, .trace]
  | .lds .. | .sts .. | .ldv .. | .stv .. | .amo .. | .semsig .. | .semwait .. | .semtry .. | .fenceL .. | .fenceD .. | .fenceH .. | .l1inv ..
    | .hoist .. | .loopcfg .. | .looprd .. | .add .. | .sub .. | .and .. | .or .. | .xor .. | .shl .. | .shr .. | .sra .. | .mul .. | .mulhu ..
    | .slt .. | .sltu .. | .min .. | .max .. | .addi .. | .andi .. | .ori .. | .xori .. | .shli .. | .shri .. | .srai .. | .slti .. | .li ..
    | .lih .. | .beqz .. | .bnez .. | .bltz .. | .bgez .. | .jmp .. | .call .. | .jr .. | .rpt .. | .rpti .. | .winext .. | .endThread ..
    | .subtag .. | .stat .. | .bundleNop .. | .mma .. | .mmaz .. | .mzero .. | .mwr .. | .mrd .. | .mrdz .. | .fadd .. | .fsub .. | .fmul ..
    | .fma .. | .fms .. | .fnma .. | .fmin .. | .fmax .. | .fabs .. | .fneg .. | .fdiv .. | .fscalb .. | .iadd .. | .isub .. | .imul .. | .imin ..
    | .imax .. | .vecAnd .. | .vecOr .. | .vecXor .. | .vecShl .. | .vecShr .. | .vecSra .. | .iabs .. | .iadds .. | .cmpeq .. | .cmpne ..
    | .cmplt .. | .cmple .. | .isnan .. | .mand .. | .mor .. | .mxor .. | .mnot .. | .mlen .. | .sel .. | .rsum .. | .rmax .. | .rmin ..
    | .rargmax .. | .psum .. | .bcast .. | .perm .. | .iota .. | .mpopc .. | .mfirst .. | .rcp .. | .rsqrt .. | .sqrt .. | .exp2 .. | .exp ..
    | .log2 .. | .tanh .. | .sigmoid .. | .erf .. | .sin .. | .cos .. | .cvt .. | .cvtsc .. | .bscale .. | .nbx .. | .nbq .. | .rand ..
    | .rdflags .. | .clrflags .. | .move .. | .fill .. => [.fresh, .bar, .mem, .cores, .hoists, .host, .parts, .fab, .faults, .trace]
  | .copyDone | .pairingTimeout => [.fresh, .bar, .mem, .host, .parts, .fab, .faults, .twin, .trace]
  | .timeSet .. | .ppsConfig .. => [.fresh, .time, .bar, .mem, .host, .parts, .fab, .faults, .pins, .trace]
  | .ptpConfig .. => [.fresh, .time, .bar, .mem, .host, .parts, .fab, .faults, .trace]
  | .ownerKeySet .. | .debugPassword .. => [.fresh, .bar, .mem, .host, .parts, .fab, .faults, .sec, .flash, .trace]
  | .debugChallenge .. => [.fresh, .bar, .mem, .cores, .host, .parts, .fab, .faults, .sec, .trace]
  | .debugToken .. | .debugLock .. => [.fresh, .bar, .mem, .host, .parts, .fab, .faults, .sec, .trace]
  | .injectionFire | .urgentRetrain .. | .coreWatchdog .. | .coreSramError .. | .clusterFault .. | .stackFault .. | .portFault .. | .deviceFault ..
    | .recoveryTimeout .. => [.fresh, .bar, .mem, .cores, .sems, .nb, .host, .parts, .se, .fab, .faults, .flash, .trace]
  | .start .. | .nbStart .. | .gemv .. | .qk .. | .pv .. | .microStep .. => [.fresh, .bar, .mem, .nb, .faults, .trace]
  | .hostAccess .. => [.fresh, .bar, .mem, .host, .faults, .trace]
  | .cxlMemAccess .. => [.fresh, .bar, .mem, .nb, .host, .faults, .trace]
  | .homeSliceAccess .. => [.fresh, .bar, .mem, .cores, .parts, .faults, .trace]
  | .memoryOperationComplete .. | .yieldSlot .. | .reservedHeader .. | .truncatedBundle .. | .deadlock .. =>
    [.fresh, .bar, .mem, .cores, .faults, .trace]
  | .writeBufferDrain .. | .patrolScrub .. => [.fresh, .bar, .mem, .faults, .trace]
  | .urgencyRise .. | .powerDown .. => [.mem]
  | .refresh .. => [.bar, .mem]
  | .rowRepair .. | .weightRepair .. | .weightRepairRetry .. => [.fresh, .bar, .mem, .faults, .flash, .trace]
  | .periodicRetrain .. => [.bar, .mem, .nb, .se]
  | .retrainEnd .. | .assayComplete .. => [.fresh, .bar, .mem, .cores, .sems, .nb, .host, .parts, .se, .fab, .faults, .pwr, .flash, .trace]
  | .nbProg .. | .nbBcast .. | .nbDrain .. | .nbStatus .. | .rclear .. => [.nb]
  | .pzero .. => [.bar, .mem, .nb]
  | .load .. => [.fresh, .bar, .mem, .nb, .parts, .faults, .trace]
  | .drain .. => [.fresh, .bar, .mem, .cores, .sems, .nb, .host, .parts, .faults, .trace]
  | .entryComplete .. => [.fresh, .bar, .nb, .se]
  | .grantWindow .. => [.bar, .nb, .se]
  | .fenceComplete .. | .clockGate .. => [.cores]
  | .memoryResponse .. => [.fresh, .bar, .mem, .cores, .parts, .fab, .faults, .trace]
  | .semaphoreOperation .. => [.fresh, .bar, .mem, .cores, .sems, .parts, .faults, .trace]
  | .preempt .. => [.fresh, .bar, .mem, .cores, .sems, .faults, .trace]
  | .moveRetire .. => [.fresh, .bar, .mem, .cores, .sems, .hoists, .host, .parts, .fab, .faults, .trace]
  | .bucketWaitEnd .. => [.bar, .cores, .parts, .fab]
  | .resume .. => [.fresh, .bar, .mem, .cores, .sems, .parts, .fab, .faults, .trace]
  | .stepStart .. => [.fresh, .bar, .mem, .parts, .se, .faults, .trace]
  | .groupPlan .. => [.fresh, .bar, .mem, .cores, .sems, .nb, .host, .parts, .se, .faults, .trace]
  | .rescue .. => [.fresh, .bar, .mem, .cores, .sems, .nb, .host, .parts, .se, .fab, .faults, .trace]
  | .stepCommit .. => [.fresh, .bar, .mem, .cores, .sems, .host, .parts, .se, .fab, .faults, .twin, .trace]
  | .idleBoundary .. => [.fresh, .bar, .mem, .cores, .host, .parts, .se, .fab, .faults, .twin, .trace]
  | .ttlExpiry .. => [.fresh, .bar, .mem, .se, .faults, .trace]
  | .put .. | .levelAdd .. | .signal .. | .putSignal .. | .get .. | .atomic .. | .command .. | .reservedKindPacket .. =>
    [.fresh, .bar, .mem, .cores, .sems, .host, .parts, .fab, .faults, .pwr, .trace]
  | .getResp .. | .atomicResp .. | .commandReply .. | .errorResp .. => [.bar, .cores, .hoists, .fab, .faults, .twin, .trace]
  | .ackSend .. | .retransmit .. | .rtoExpiry .. => [.bar, .fab]
  | .rateIncrease .. | .quarantineEnd .. | .neighbourDiscovery .. | .arp .. | .icmpEcho .. | .delayReq .. => [.fab]
  | .heartbeatSend => [.bar, .parts, .fab]
  | .linkUp .. => [.fresh, .time, .bar, .parts, .fab, .faults, .trace]
  | .linkDown .. => [.bar, .fab, .faults, .trace]
  | .assayTimeout => [.bar, .faults, .trace]
  | .sync .. | .followUp .. | .announce .. => [.time]
  | .delayResp .. | .ppsInEdge => [.fresh, .time, .bar, .faults, .pins, .trace]
  | .syncSend .. | .announceSend .. | .delayReqSend .. => [.time, .fab]
  | .sourceSelect .. | .holdoverLimit | .ppsInLoss => [.time, .bar]
  | .ppsOutPulse => [.time, .pins]
  | .tcxoCompensation .. => [.time, .bar, .pwr]
  | .flashLogCopy => [.faults, .flash, .pins]
  | .heartbeat .. => [.bar, .twin]
  | .controlPeriod .. => [.bar, .mem, .nb, .faults, .pwr, .pins, .trace]
  | .voltageReached | .fullAssay => [.bar, .pwr]
  | .powerSample .. => [.bar, .nb, .faults, .pwr, .trace]
  | .thermalSample .. => [.bar, .mem, .cores, .sems, .hoists, .nb, .host, .parts, .se, .fab, .faults, .twin, .pwr, .pins, .trace]
  | .recalibration .. => [.bar, .mem, .faults, .pwr, .trace]
  | .debugExpiry => [.bar, .faults, .sec, .trace]
  | .nonceExpiry => [.sec]
  | .shutdownCompare .. => [.bar, .mem, .cores, .sems, .hoists, .nb, .host, .parts, .se, .fab, .faults, .twin, .pins, .trace]

end Sys2Proof.Claims

/-- A command leaves alone the queue of waiting commands, the grade (R1), and every piece of the state that is not among those its row names. -/
def Obligations.CommandsKeepTheRest : Prop :=
  ∀ (c : Instr) (s t : State), exec c s = .next t → t.pending = s.pending ∧ t.grade = s.grade ∧ ∀ p, p ∉ mayChange c → sameIn p s t

/-! ## Power, resets, BOOT -/

/-- R26, R421, R422, R426, R430. The supply's rows, and the resets: what each leaves, its cause, and the release of the pins. -/
def Obligations.SupplyAndResetRows : Prop :=
  (∀ (s : State) (v : Nat), s.pins.pwrEn = false → s.pins.holdOff = false → 32000 ≤ v → v ≤ 40000 →
    Gives (.powerUp v) s fun t => t.pins.pwrEn = true ∧ t.pins.pwrGood = true ∧ t.pins.rails = true ∧ t.pins.resetLow = true ∧
      t.pins.perstLow = true ∧ t.pins.vinMv = v ∧ storedState t = 1 ∧ t.mem = Mem.reset) ∧
  (∀ (s : State) (v : Nat), s.pins.pwrEn = false → s.pins.holdOff = true →
    exec (.powerUp v) s = .next { s with pins := { s.pins with pwrEn := true, vinMv := v, roseInHold := true } }) ∧
  (∀ s : State, s.pins.rails = true →
    Gives .pwrEnFall s fun t => t.pins.pwrEn = false ∧ t.pins.pwrGood = false ∧ t.pins.rails = false ∧ t.pins.holdOff = true ∧ storedState t = 0 ∧
      t.mem = Mem.reset ∧ t.cores = Cores.reset ∧ t.flash.log = s.flash.log ∧ t.flash.history = s.flash.history ∧ t.flash.remaps = s.flash.remaps ∧
      t.flash.fence = s.flash.fence ∧ t.flash.writing = []) ∧
  (∀ s : State, s.pins.rails = true → ∀ c, c = Instr.brownout ∨ c = Instr.overvoltage →
    Gives c s fun t => t.pins.pwrGood = false ∧ t.pins.rails = false ∧ t.pins.holdOff = true ∧ storedState t = 0 ∧ t.mem = Mem.reset ∧
      t.fab.tx = s.fab.tx ∧ t.flash.log = s.flash.log) ∧
  (∀ s : State, s.pins.holdOff = true → s.pins.roseInHold = true → s.pins.pwrEn = true → 32000 ≤ s.pins.vinMv → s.pins.vinMv ≤ 40000 →
    Gives .pwrEnHoldOffEnd s fun t => t.pins.pwrGood = true ∧ t.pins.holdOff = false ∧ storedState t = 1) ∧
  (∀ s : State, s.pins.holdOff = true → s.pins.roseInHold = false →
    exec .pwrEnHoldOffEnd s = .next { s with pins := { s.pins with holdOff := false, roseInHold := false } }) ∧
  (∀ s : State, s.pins.rails = true → s.pins.resetLow = false → storedState s ≠ 6 →
    Gives .resetN s fun t => t.pins.resetLow = true ∧ rf t GLOBAL_RESET 0 2 = 1 ∧ storedState t = 1 ∧ t.time = { TimeSt.reset with cycles := s.time.cycles } ∧ t.cores = Cores.reset ∧
      t.mem = Mem.reset ∧ t.faults.ring = s.faults.ring ∧ t.flash.log = s.flash.log ∧ t.host.linkUp = false) ∧
  (∀ s : State, s.pins.rails = true → storedState s = 6 → exec .resetN s = .next s) ∧
  (∀ s : State, s.pins.rails = true → s.pins.resetLow = true →
    Gives .resetNRelease s fun t => t.pins.resetLow = false ∧ t.host.linkUp = !s.pins.perstLow ∧ t.bar = s.bar) ∧
  (∀ s : State, s.pins.rails = true → s.pins.perstLow = true →
    Gives .perstNRelease s fun t => t.pins.perstLow = false ∧ t.host.linkUp = !s.pins.resetLow ∧ t.bar = s.bar) ∧
  (∀ (s : State) (id : Nat) (c : Cmd), Admitted s id 0x0008 c → Plain (begun s id) (taken s c) → twinState s ≠ 2 →
    Gives (.deviceReset id) s fun t => rf t GLOBAL_RESET 0 2 = 2 ∧ storedState t = 1 ∧ t.time.sec = s.time.sec ∧ t.time.ns = s.time.ns ∧
      t.time.cycles = s.time.cycles ∧ t.host.linkUp = s.host.linkUp ∧ t.mem = Mem.reset ∧ (rf s PWR_STATUS 5 1 = 0 → t.faults.ring = s.faults.ring) ∧ t.host.cmds = [])

/-- R427, R428. BOOT's phases follow one another, the clear leaves memory and semaphores zero, a missing record halts, the last phase is READY. -/
def Obligations.BootPhases : Prop :=
  (∀ (s : State) (r : BootReport), s.pins.rails = true → s.pins.resetLow = false → storedState s = 1 → rf s GLOBAL_STATE 16 8 = 0 →
    rf s GLOBAL_STATE 8 8 = 5 → r.clearFailed = none →
    Gives (.bootPhase r) s fun t => rf t GLOBAL_STATE 8 8 = 6 ∧ t.mem.dram = [] ∧ t.mem.ecc = [] ∧ t.mem.lines = [] ∧ t.mem.regions = [] ∧ t.sems = []) ∧
  (∀ (s : State) (r : BootReport) (k : Nat) (ks : List Nat), s.pins.rails = true → s.pins.resetLow = false → storedState s = 1 →
    rf s GLOBAL_STATE 16 8 = 0 → rf s GLOBAL_STATE 8 8 = 3 → s.flash.missing = k :: ks → k < 256 →
    Gives (.bootPhase r) s fun t => rf t GLOBAL_STATE 16 8 = 2 ∧ rf t GLOBAL_STATE 24 8 = k ∧ storedState t = 1) ∧
  (∀ (s : State) (r : BootReport), s.pins.rails = true → s.pins.resetLow = false → storedState s = 1 → rf s GLOBAL_STATE 16 8 = 0 →
    rf s GLOBAL_STATE 8 8 = 7 →
    Gives (.bootPhase r) s fun t => rf t GLOBAL_STATE 8 8 = 8 ∧ rf t PWR_FMAX 0 13 = fmaxOf (r.vf.map (· + 25)) ∧
      ((tfind t.pwr.cals 0).map (·.vals)) = some (r.vf.map (· + 25))) ∧
  (∀ (s : State) (r : BootReport), s.pins.rails = true → s.pins.resetLow = false → storedState s = 1 → rf s GLOBAL_STATE 16 8 ≠ 0 →
    exec (.bootPhase r) s = .next s)

/-- R382, R432, R433. The sideband: its registers read and written by offset, silent while PWR_GOOD is low; the board's cap is clamped, and
the recovery download fills and commits slot 0 of a kind without an image. -/
def Obligations.SidebandRows : Prop :=
  (∀ (s : State) (off : Nat) (w : W32), s.pins.pwrGood = false →
    exec (.lowWordRead .sideband off) s = .next s ∧ exec (.registerWrite .sideband off 0xF w) s = .next s) ∧
  (∀ s : State, s.pins.pwrGood = true →
    Gives (.lowWordRead .sideband 0x00) s (fun t => t.bar.rdata = (if storedState s = 1 ∧ rf s GLOBAL_STATE 8 8 ≤ 1 then 0 else rd s GLOBAL_CAP0)) ∧
    Gives (.lowWordRead .sideband 0x04) s (fun t => t.bar.rdata = BitVec.ofNat 32 (imageWord s GLOBAL_STATE)) ∧
    Gives (.lowWordRead .sideband 0x10) s (fun t => t.bar.rdata = BitVec.ofNat 32 (rf s PWR_BOARD_CAP 0 12)) ∧
    Gives (.lowWordRead .sideband 0x28) s (fun t => t.bar.rdata = s.pins.rcvStatus)) ∧
  (∀ (s : State) (w : W32), s.pins.pwrGood = true →
    Gives (.registerWrite .sideband 0x10 0xF w) s (fun t => rf t PWR_BOARD_CAP 0 12 = max 1200 (min 2600 (fld w 0 12)) ∧ t.pins = s.pins) ∧
    (bit w 2 = false → bit w 3 = false → Gives (.registerWrite .sideband 0x20 0xF w) s fun t => t.pins.rcvKind = fld w 0 2 ∧ t.bar = s.bar)) ∧
  (∀ (s : State) (w : W32), s.pins.pwrGood = true →
    Gives (.sbBoardCap w) s fun t => rf t PWR_BOARD_CAP 0 12 = max 1200 (min 2600 (fld w 0 12))) ∧
  (∀ (s : State) (w : W32), s.pins.pwrGood = true → bit w 2 = true → bit w 3 = false → rcvOpen s (fld w 0 2) = true →
    Gives (.rcvStart w) s fun t => tfind t.flash.images (2 * fld w 0 2) = some { bytes := [], committed := none } ∧ t.pins.rcvStarted = true ∧
      t.pins.rcvKind = fld w 0 2 ∧ t.pins.rcvStatus = 0) ∧
  (∀ (s : State) (w : W32) (i : Image), s.pins.pwrGood = true → s.pins.rcvStarted = true → tfind s.flash.images (2 * s.pins.rcvKind) = some i →
    Gives (.sbRcvData w) s fun t =>
      tfind t.flash.images (2 * s.pins.rcvKind) = some { bytes := i.bytes ++ leBytes 4 w.toNat, committed := i.committed }) ∧
  (∀ (s : State) (w : W32) (i : Image), s.pins.pwrGood = true → bit w 2 = false → bit w 3 = true → rcvOpen s (fld w 0 2) = true →
    tfind s.flash.images (2 * fld w 0 2) = some i → i.committed = none → imgFault s (fld w 0 2) i.bytes = none →
    Gives (.commit w) s fun t => tfind t.flash.images (2 * fld w 0 2) = some { bytes := i.bytes, committed := some (s.flash.commits + 1) } ∧
      rf t SEC_BOOT_STATUS (6 + fld w 0 2) 1 = 0 ∧ t.pins.rcvStatus = 0) ∧
  (∀ (s : State) (w : W32) (i : Image) (d : Nat), s.pins.pwrGood = true → bit w 2 = false → bit w 3 = true → rcvOpen s (fld w 0 2) = true →
    tfind s.flash.images (2 * fld w 0 2) = some i → i.committed = none → imgFault s (fld w 0 2) i.bytes = some d → d < 65536 →
    Gives (.commit w) s fun t => t.flash = s.flash ∧ fld t.pins.rcvStatus 0 16 = 0x0101 ∧ fld t.pins.rcvStatus 16 16 = d)

/-! ## Bundles: operands, issue, the control slot -/

namespace Sys2Proof.Claims
open Sys2Proof.Machine

/-- The bundle's one present slot is `k`, and its reserved header bits are zero (R78). -/
def Alone (b : Bundle) (k : Nat) : Prop := b.header.toNat % 16 = 2 ^ k ∧ Bundle.reserved b = 0

/-- Thread `t` of job `j` may issue bundle `b` at its PC: the job runs the thread on a placed core, the bundle lies within the code, its bytes read
clean, a SERIAL bundle has nothing outstanding before it, and DEADLOCK has dropped no slot of it (R71, R79, R95, R103, R455). -/
def Issues (s : State) (t : Tid) (b : Bundle) (j : Job) (th : Thread) : Prop :=
  issuer s t = some (j, th) ∧ th.pc.toNat + Bundle.len b ≤ j.codeBytes ∧ (Bundle.serial b = true → opsOf s t = [] ∧ th.fence = none) ∧
    fetchStatus s j th (Bundle.len b) = (stOk, s) ∧ th.dropped = 0

/-- The bundle at the start of its issue. -/
def atIssue (s : State) (t : Tid) (b : Bundle) (j : Job) (th : Thread) : Ev :=
  { s := s, th0 := th, t := t, job := j, pc := th.pc.toNat, len := Bundle.len b, id0 := s.cores.nextId, wrote := [], pops := [], flags := 0, branch := none, rpt := none }

/-- The sources' operand codes name registers or queues of the slot's width, the destination's is writable (R75), and the scalar sources give `x`
and `y`, in that order, leaving `e'`. -/
def Reads2 (e : Ev) (ca cb cd : Nat) (x y : W64) (e' : Ev) : Prop :=
  srcCheck e false ca = .ok () ∧ srcCheck e false cb = .ok () ∧ dstCheck e false cd = .ok () ∧
    ∃ e1, readS e ca = .ok (x, e1) ∧ readS e1 cb = .ok (y, e')

/-- The same with one source. -/
def Reads1 (e : Ev) (ca cd : Nat) (x : W64) (e' : Ev) : Prop :=
  srcCheck e false ca = .ok () ∧ dstCheck e false cd = .ok () ∧ readS e ca = .ok (x, e')

/-- A source alone, without a destination. -/
def Reads (e : Ev) (ca : Nat) (x : W64) (e' : Ev) : Prop := srcCheck e false ca = .ok () ∧ readS e ca = .ok (x, e')

/-- A scalar register of a thread as a source reads it (R70). -/
def sReg (s : State) (t : Tid) (n : Nat) : W64 := if n = 0 then 0 else tget (getThread s t).s n 0

/-- Everything of a thread but its scalar registers, PC, repeats, flags and the slot it waits in. -/
def restOf (x : Thread) : Thread := { x with s := [], pc := 0, rpt := [], flags := 0, waitQ := [], dropped := 0 }

/-- Two-source arithmetic of the control slot (R82), by opcode. -/
def aluTable : List (Nat × (Tid → Bundle → Instr) × (W64 → W64 → W64)) :=
  [(0x01, Instr.add, fun a b => a + b), (0x02, Instr.sub, fun a b => a - b), (0x03, Instr.and, fun a b => a &&& b),
   (0x04, Instr.or, fun a b => a ||| b), (0x05, Instr.xor, fun a b => a ^^^ b),
   (0x06, Instr.shl, fun a b => BitVec.ofNat 64 (a.toNat * 2 ^ (b.toNat % 64))),
   (0x07, Instr.shr, fun a b => BitVec.ofNat 64 (a.toNat / 2 ^ (b.toNat % 64))),
   (0x08, Instr.sra, fun a b => BitVec.ofInt 64 (a.toInt / 2 ^ (b.toNat % 64))),
   (0x09, Instr.mul, fun a b => BitVec.ofNat 64 (a.toNat * b.toNat)),
   (0x0A, Instr.mulhu, fun a b => BitVec.ofNat 64 (a.toNat * b.toNat / 2 ^ 64)),
   (0x0B, Instr.slt, fun a b => if a.toInt < b.toInt then 1 else 0), (0x0C, Instr.sltu, fun a b => if a.toNat < b.toNat then 1 else 0),
   (0x0D, Instr.min, fun a b => BitVec.ofInt 64 (min a.toInt b.toInt)), (0x0E, Instr.max, fun a b => BitVec.ofInt 64 (max a.toInt b.toInt))]

/-- Immediate arithmetic (R82): `i` is the sign-extended 12-bit immediate. -/
def immTable : List (Nat × (Tid → Bundle → Instr) × (W64 → Int → W64)) :=
  [(0x11, Instr.addi, fun a i => BitVec.ofInt 64 (a.toInt + i)), (0x13, Instr.andi, fun a i => a &&& BitVec.ofInt 64 i),
   (0x14, Instr.ori, fun a i => a ||| BitVec.ofInt 64 i), (0x15, Instr.xori, fun a i => a ^^^ BitVec.ofInt 64 i),
   (0x16, Instr.shli, fun a i => BitVec.ofNat 64 (a.toNat * 2 ^ (i % 64).toNat)),
   (0x17, Instr.shri, fun a i => BitVec.ofNat 64 (a.toNat / 2 ^ (i % 64).toNat)),
   (0x18, Instr.srai, fun a i => BitVec.ofInt 64 (a.toInt / 2 ^ (i % 64).toNat)),
   (0x1B, Instr.slti, fun a i => if a.toInt < i then 1 else 0)]

/-- The conditional branches (R82). -/
def branchTable : List (Nat × (Tid → Bundle → Instr) × (W64 → Bool)) :=
  [(0x30, Instr.beqz, fun a => decide (a = 0)), (0x31, Instr.bnez, fun a => decide (a ≠ 0)), (0x32, Instr.bltz, fun a => decide (a.toInt < 0)),
   (0x33, Instr.bgez, fun a => decide (0 ≤ a.toInt))]

end Sys2Proof.Claims

/-- R70, R75. A scalar operand code below 32 reads the register's value of before the bundle and changes nothing; S0 reads as zero. A register
whose load is outstanding makes the slot wait. Written, a register takes the value and no other register of any thread changes; S0 ignores it. -/
def Obligations.ScalarRegisters : Prop :=
  (∀ (e : Ev) (n : Nat), n < 32 → pendingDest e (.sreg n) = false → readS e n = .ok (if n = 0 then 0 else tget e.th0.s n 0, e)) ∧
  (∀ e : Ev, readS e 0 = .ok (0, e)) ∧
  (∀ (e : Ev) (n : Nat), 0 < n → n < 32 → pendingDest e (.sreg n) = true → readS e n = .wait none) ∧
  (∀ (e : Ev) (v : W64), writeS e 0 v = .ok { e with wrote := 0 :: e.wrote }) ∧
  (∀ (e : Ev) (n : Nat) (v : W64), 0 < n → n < 32 → pendingDest e (.sreg n) = false →
    ∃ e', writeS e n v = .ok e' ∧ sReg e'.s e.t n = v ∧ (∀ m, m ≠ n → sReg e'.s e.t m = sReg e.s e.t m) ∧
      restOf (getThread e'.s e.t) = restOf (getThread e.s e.t) ∧
      (∀ u : Tid, tidKey u ≠ tidKey e.t → getThread e'.s u = getThread e.s u) ∧
      { e'.s with cores := { e'.s.cores with threads := e.s.cores.threads } } = e.s)

/-- R75, R76. A queue operand: codes 32 to 47 pop the head, 48 to 63 leave it; an empty queue, or a head whose load is outstanding, waits; a full
queue waits for a push or a load's reservation, which go to the tail; a load's data takes the place it reserved, and the threads of a core see one shared
queue. A code that names no queue of the slot's width, and a peek code as a destination, are illegal. -/
def Obligations.QueueOperands : Prop :=
  (∀ (e : Ev) (code : Nat) (x : QEntry) (r : List QEntry), 32 ≤ code → code < 64 → getQ e.s e.job e.t (code % 16) = x :: r → x.pending = none →
    ∃ e', readS e code = .ok (x.data.setWidth 64, e') ∧ readV e code = .ok (x.data, e') ∧
      getQ e'.s e.job e.t (code % 16) = (if code < 48 then r else x :: r)) ∧
  (∀ (e : Ev) (code : Nat), 32 ≤ code → code < 64 → getQ e.s e.job e.t (code % 16) = [] →
    readS e code = .wait (some (queueWait e (code % 16) false)) ∧ readV e code = .wait (some (queueWait e (code % 16) false))) ∧
  (∀ (e : Ev) (code : Nat) (x : QEntry) (r : List QEntry), 32 ≤ code → code < 64 → getQ e.s e.job e.t (code % 16) = x :: r → x.pending.isSome = true →
    readS e code = .wait (some (queueWait e (code % 16) false)) ∧ readV e code = .wait (some (queueWait e (code % 16) false))) ∧
  (∀ (e : Ev) (code : Nat) (v : W64) (x : VReg) (wide : Bool), 32 ≤ code → code < 48 →
    (getQ e.s e.job e.t (code % 16)).length < qDepth e.job (code % 16) →
    (∃ e', writeS e code v = .ok e' ∧
      getQ e'.s e.job e.t (code % 16) = getQ e.s e.job e.t (code % 16) ++ [{ data := v.setWidth 2048, pending := none }]) ∧
    (∃ e', writeV e code x = .ok e' ∧ getQ e'.s e.job e.t (code % 16) = getQ e.s e.job e.t (code % 16) ++ [{ data := x, pending := none }]) ∧
    ∃ e', reserveDest e wide code = .ok (e', .queue (code % 16)) ∧
      getQ e'.s e.job e.t (code % 16) = getQ e.s e.job e.t (code % 16) ++ [{ data := 0, pending := some e.s.cores.nextId }]) ∧
  (∀ (e : Ev) (code : Nat) (v : W64) (x : VReg) (wide : Bool), 32 ≤ code → code < 48 →
    qDepth e.job (code % 16) ≤ (getQ e.s e.job e.t (code % 16)).length →
    writeS e code v = .wait (some (queueWait e (code % 16) true)) ∧ writeV e code x = .wait (some (queueWait e (code % 16) true)) ∧
      reserveDest e wide code = .wait (some (queueWait e (code % 16) true))) ∧
  (∀ (s : State) (j : Job) (t : Tid) (q id : Nat) (v : VReg),
    getQ (deliver s j t (.queue q) id v) j t q =
      (getQ s j t q).map (fun x => if x.pending = some id then { data := v, pending := none } else x)) ∧
  (∀ (s : State) (j : Job) (t u : Tid) (q : Nat), qShared j q = true → t.vcore = u.vcore → getQ s j t q = getQ s j u q) ∧
  (∀ (e : Ev) (wide : Bool) (code : Nat), 32 ≤ code → code < 64 →
    (qDepth e.job (code % 16) = 0 ∨ qWide e.job (code % 16) ≠ wide) → srcCheck e wide code = .skip 0x06 (code % 16)) ∧
  (∀ (e : Ev) (wide : Bool) (code : Nat), 48 ≤ code → code < 64 → dstCheck e wide code = .skip 0x07 (code % 16))

/-- R80, R97, R99. The slots of a bundle run in the order control, address, matrix, vector, every source holding its value of before the bundle. A slot with
a reason to be illegal is skipped and counted, and the rest of the bundle runs; a slot that waits holds the whole bundle, which changes nothing but
the note of the queues that its slots wait for. -/
def Obligations.SlotsInOrder : Prop :=
  (∀ (e : Ev) (b : Bundle) (k : Nat) (ks : List Nat), Bundle.has b k = true → bit e.th0.dropped k = false →
    (∀ e', evalSlot e b k = .ok e' → runSlots e b (k :: ks) = runSlots e' b ks) ∧
    (∀ r d, evalSlot e b k = .skip r d → runSlots e b (k :: ks) = runSlots { e with s := skipSlot e.s e.job e.t e.th0.subtag e.pc k r d } b ks) ∧
    (∀ w, evalSlot e b k = .wait w → ∃ ws, runSlots e b (k :: ks) = .wait (slotWait k w ++ ws) ∧
      ∀ x ∈ ws, x.slot ∈ ks ∧ Bundle.has b x.slot = true ∧ bit e.th0.dropped x.slot = false)) ∧
  (∀ (e : Ev) (b : Bundle) (k : Nat) (ks : List Nat), Bundle.has b k = false → runSlots e b (k :: ks) = runSlots e b ks) ∧
  (∀ (s : State) (t : Tid) (b : Bundle) (j : Job) (th : Thread), Issues s t b j th → Bundle.reserved b = 0 →
    (∀ e, runSlots (atIssue s t b j th) b [0, 1, 2, 3] = .ok e → issue s t b = finishIssue e) ∧
    (∀ ws, runSlots (atIssue s t b j th) b [0, 1, 2, 3] = .wait ws → issue s t b = setThread s t { th with waitQ := ws })) ∧
  (∀ (s : State) (j : Job) (t : Tid) (subtag : W16) (pc slot reason detail : Nat),
    (getThread (skipSlot s j t subtag pc slot reason detail) t).skips.toNat = satInc (getThread s t).skips.toNat 1 ∧
    (getThread (skipSlot s j t subtag pc slot reason detail) t).pc = (getThread s t).pc ∧
    (skipSlot s j t subtag pc slot reason detail).sems = s.sems)

/-- R80, R94, R126. A bundle that has issued: its flags are set beside the thread's, a taken branch goes to its target, otherwise the thread runs on at the
next bundle or, at the end of a repeated body with passes left, at the body's start. No other thread moves, and memory stays. -/
def Obligations.BundleEnds : Prop :=
  (∀ e : Ev, (getThread e.s e.t).run = .running → e.branch = none → e.rpt = none → e.th0.rpt = [] → e.pc + e.len < 2 ^ 32 →
    (getThread (finishIssue e) e.t).pc.toNat = e.pc + e.len ∧ (getThread (finishIssue e) e.t).rpt = [] ∧
      (getThread (finishIssue e) e.t).s = (getThread e.s e.t).s ∧ (getThread (finishIssue e) e.t).v = (getThread e.s e.t).v ∧
      (getThread (finishIssue e) e.t).flags = (getThread e.s e.t).flags ||| e.flags ∧
      (finishIssue e).mem = e.s.mem ∧ (finishIssue e).bar = e.s.bar ∧ (finishIssue e).sems = e.s.sems ∧
      (∀ u : Tid, tidKey u ≠ tidKey e.t → (getThread (finishIssue e) u).pc = (getThread e.s u).pc ∧ (getThread (finishIssue e) u).s = (getThread e.s u).s)) ∧
  (∀ (e : Ev) (target : Nat), (getThread e.s e.t).run = .running → e.branch = some target → target < 2 ^ 32 →
    (getThread (finishIssue e) e.t).pc.toNat = target ∧ (getThread (finishIssue e) e.t).rpt = branchRepeats e.th0.rpt target) ∧
  (∀ (e : Ev) (r : Repeat) (rs : List Repeat), (getThread e.s e.t).run = .running → e.branch = none → e.rpt = none → e.th0.rpt = r :: rs →
    r.bodyEnd ≤ e.pc + e.len → 1 < r.passes → r.bodyStart < 2 ^ 32 →
    (getThread (finishIssue e) e.t).pc.toNat = r.bodyStart ∧ (getThread (finishIssue e) e.t).rpt = { r with passes := r.passes - 1 } :: rs)

/-- R82. The control slot's arithmetic: the destination takes the result of the row's operation on the values read. -/
def Obligations.ControlArithmetic : Prop :=
  (∀ r ∈ aluTable, ∀ (s : State) (t : Tid) (b : Bundle) (j : Job) (th : Thread) (x y : W64) (e e' : Ev), Issues s t b j th → Alone b 0 →
    Bundle.op b 0 = r.1 → fld b.ctl 26 6 = 0 → Reads2 (atIssue s t b j th) (ctlA b.ctl) (ctlB b.ctl) (ctlD b.ctl) x y e →
    writeS e (ctlD b.ctl) (r.2.2 x y) = .ok e' → exec (r.2.1 t b) s = .next (finishIssue e')) ∧
  (∀ r ∈ immTable, ∀ (s : State) (t : Tid) (b : Bundle) (j : Job) (th : Thread) (x : W64) (e e' : Ev), Issues s t b j th → Alone b 0 →
    Bundle.op b 0 = r.1 → Reads1 (atIssue s t b j th) (ctlA b.ctl) (ctlD b.ctl) x e →
    writeS e (ctlD b.ctl) (r.2.2 x (sxt 12 (fld b.ctl 20 12))) = .ok e' → exec (r.2.1 t b) s = .next (finishIssue e')) ∧
  (∀ (s : State) (t : Tid) (b : Bundle) (j : Job) (th : Thread) (e' : Ev), Issues s t b j th → Alone b 0 → Bundle.op b 0 = 0x20 →
    dstCheck (atIssue s t b j th) false (ctlD b.ctl) = .ok () →
    writeS (atIssue s t b j th) (ctlD b.ctl) (BitVec.ofInt 64 (sxt 18 (fld b.ctl 14 18))) = .ok e' → exec (.li t b) s = .next (finishIssue e')) ∧
  (∀ (s : State) (t : Tid) (b : Bundle) (j : Job) (th : Thread) (x : W64) (e e' : Ev), Issues s t b j th → Alone b 0 → Bundle.op b 0 = 0x21 →
    Reads1 (atIssue s t b j th) (ctlD b.ctl) (ctlD b.ctl) x e →
    writeS e (ctlD b.ctl) (BitVec.ofNat 64 (x.toNat * 2 ^ 18 + fld b.ctl 14 18)) = .ok e' → exec (.lih t b) s = .next (finishIssue e'))

/-- R82, R94, R95. Branches, jumps, calls and repeats. Offsets count from the bundle's own PC; a target outside the code makes the slot illegal with
BRANCH_RANGE. RPT of 0 passes skips the body, of more enters it. -/
def Obligations.ControlFlow : Prop :=
  (∀ r ∈ branchTable, ∀ (s : State) (t : Tid) (b : Bundle) (j : Job) (th : Thread) (x : W64) (e : Ev), Issues s t b j th → Alone b 0 →
    Bundle.op b 0 = r.1 → Reads (atIssue s t b j th) (fld b.ctl 8 6) x e →
    (∀ n : Nat, (n : Int) = th.pc.toNat + sxt 18 (fld b.ctl 14 18) → n < j.codeBytes →
      (r.2.2 x = false → exec (r.2.1 t b) s = .next (finishIssue e)) ∧
      (r.2.2 x = true → exec (r.2.1 t b) s = .next (finishIssue { e with branch := some n })))) ∧
  (∀ r ∈ branchTable, ∀ (s : State) (t : Tid) (b : Bundle) (j : Job) (th : Thread), Issues s t b j th → Alone b 0 →
    Bundle.op b 0 = r.1 → srcCheck (atIssue s t b j th) false (fld b.ctl 8 6) = .ok () →
    (th.pc.toNat + sxt 18 (fld b.ctl 14 18) < 0 ∨ (j.codeBytes : Int) ≤ th.pc.toNat + sxt 18 (fld b.ctl 14 18)) →
    exec (r.2.1 t b) s = .next (finishIssue { atIssue s t b j th with
      s := skipSlot s j t th.subtag th.pc.toNat 0 0x0E (toCode 32 (th.pc.toNat + sxt 18 (fld b.ctl 14 18))) })) ∧
  (∀ (s : State) (t : Tid) (b : Bundle) (j : Job) (th : Thread) (n : Nat), Issues s t b j th → Alone b 0 →
    (n : Int) = th.pc.toNat + sxt 24 (fld b.ctl 8 24) → n < j.codeBytes →
    (Bundle.op b 0 = 0x34 → exec (.jmp t b) s = .next (finishIssue { atIssue s t b j th with branch := some n })) ∧
    (∀ e', Bundle.op b 0 = 0x35 → writeS { atIssue s t b j th with branch := some n } 31 (BitVec.ofNat 64 (th.pc.toNat + Bundle.len b)) = .ok e' →
      exec (.call t b) s = .next (finishIssue e'))) ∧
  (∀ (s : State) (t : Tid) (b : Bundle) (j : Job) (th : Thread) (x : W64) (e : Ev), Issues s t b j th → Alone b 0 → Bundle.op b 0 = 0x36 →
    fld b.ctl 8 6 = 0 → fld b.ctl 20 12 = 0 → Reads (atIssue s t b j th) (ctlA b.ctl) x e → x.toNat < j.codeBytes →
    exec (.jr t b) s = .next (finishIssue { e with branch := some x.toNat })) ∧
  (∀ (s : State) (t : Tid) (b : Bundle) (j : Job) (th : Thread) (x : W64) (e : Ev), Issues s t b j th → Alone b 0 → Bundle.op b 0 = 0x38 →
    fld b.ctl 22 10 = 0 → 0 < fld b.ctl 14 8 → Reads (atIssue s t b j th) (fld b.ctl 8 6) x e → th.rpt.length < 4 ∨ x.toNat % 2 ^ 32 = 0 →
    e.th0 = th → exec (.rpt t b) s = .next (finishIssue { e with rpt := some (fld b.ctl 14 8, x.toNat % 2 ^ 32) })) ∧
  (∀ (s : State) (t : Tid) (b : Bundle) (j : Job) (th : Thread), Issues s t b j th → Alone b 0 → Bundle.op b 0 = 0x39 → 0 < fld b.ctl 8 8 →
    th.rpt.length < 4 ∨ fld b.ctl 16 16 = 0 →
    exec (.rpti t b) s = .next (finishIssue { atIssue s t b j th with rpt := some (fld b.ctl 8 8, fld b.ctl 16 16) }))

namespace Sys2Proof.Claims
open Sys2Proof.Machine

/-- The thread holds work-item `i`; an item that is not one returned counts as started (R73, R369). -/
def itemGiven (e : Ev) (j : Job) (th : Thread) (i : Option Nat) : Ev :=
  let s := setThread e.s e.t { getThread e.s e.t with item := i }
  { e with s := if i.isSome ∧ th.replay = none ∧ j.replay = [] then modJob s j.id (fun x => { x with started := x.started + 1 }) else s }

/-- What STAT's items read (R83). -/
def statValue (j : Job) (th : Thread) (item : Nat) : Option Nat :=
  match item with
  | 0 => some th.memerr.toNat
  | 1 => some th.skips.toNat
  | 2 => some (doneFlags th)
  | 3 => some th.subtag.toNat
  | 4 => some j.tag.toNat
  | _ => none

end Sys2Proof.Claims

/-- R70, R71, R73, R78, R83, R95, R97, R98, R102, R103. WINEXT gives the thread its next work-item: one returned comes
first; under STATIC thread `i` of `n` takes items `i`, `i + n`, …; under DYNAMIC a thread takes the job's next item; none is left beyond the job's count. END
ends the thread, at once where nothing of it is outstanding; SUBTAG sets and STAT reads its fields, an item STAT does not list being illegal; a bundle of no row only runs its slots; a bundle with reserved header bits and one
that reaches past the code are skipped whole; DEADLOCK drops a waiting slot of the lowest deadlocked thread. -/
def Obligations.ThreadRows : Prop :=
  (∀ (e : Ev) (i : Nat), (getThread e.s e.t).replay = some i → ∃ e', nextItem e = (some i, e') ∧ (getThread e'.s e.t).replay = none ∧
    e'.s.mem = e.s.mem) ∧
  (∀ (e : Ev) (j : Job) (i : Nat) (r : List Nat), jobAt e.s e.t.vcore = some j → (getThread e.s e.t).replay = none → j.replay = i :: r →
    ∃ e', nextItem e = (some i, e') ∧ e'.s = { bump e.s CF_REPLAY_COUNT CF_TALLY_STATUS 1 1 with cores :=
      (modJob e.s j.id (fun x => { x with replay := r })).cores }) ∧
  (∀ (e : Ev) (j : Job), jobAt e.s e.t.vcore = some j → (getThread e.s e.t).replay = none → j.replay = [] → j.dynamic = true →
    (j.nextItem < j.wiCount → nextItem e = (some j.nextItem, { e with s := modJob e.s j.id (fun x => { x with nextItem := x.nextItem + 1 }) })) ∧
    (j.wiCount ≤ j.nextItem → nextItem e = (none, e))) ∧
  (∀ (e : Ev) (j : Job) (k : Nat), jobAt e.s e.t.vcore = some j → (getThread e.s e.t).replay = none → j.replay = [] → j.dynamic = false →
    k = (e.t.vcore - j.vfirst) * j.threads + e.t.thread + (getThread e.s e.t).winext * (j.vcount * j.threads) →
    ∃ e', nextItem e = (if k < j.wiCount then some k else none, e') ∧ (getThread e'.s e.t).winext = (getThread e.s e.t).winext + 1 ∧
      (getThread e'.s e.t).s = (getThread e.s e.t).s ∧ e'.s.mem = e.s.mem ∧ e'.s.bar = e.s.bar) ∧
  (∀ (s : State) (t : Tid) (b : Bundle) (j : Job) (th : Thread) (e e' : Ev) (i : Option Nat), Issues s t b j th → Alone b 0 → Bundle.op b 0 = 0x40 →
    fld b.ctl 14 18 = 0 → dstCheck (atIssue s t b j th) false (ctlD b.ctl) = .ok () → nextItem (atIssue s t b j th) = (i, e) →
    writeS (itemGiven e j th i) (ctlD b.ctl) (match i with | some n => BitVec.ofNat 64 n | none => BitVec.allOnes 64) = .ok e' →
    exec (.winext t b) s = .next (finishIssue e')) ∧
  (∀ (s : State) (t : Tid) (b : Bundle) (j : Job) (th : Thread), Issues s t b j th → Alone b 0 → Bundle.op b 0 = 0x41 → fld b.ctl 8 24 = 0 →
    Gives (.endThread t b) s fun u => (getThread u t).run = (if opsOf s t = [] then .ended else .ending) ∧ (getThread u t).item = none ∧
      (getThread u t).s = th.s ∧ u.mem = s.mem ∧ u.sems = s.sems ∧ (j.clean = none → u.bar = s.bar)) ∧
  (∀ (s : State) (t : Tid) (b : Bundle) (j : Job) (th : Thread), Issues s t b j th → Alone b 0 → Bundle.op b 0 = 0x42 → fld b.ctl 8 8 = 0 →
    Gives (.subtag t b) s fun u => (getThread u t).subtag = BitVec.ofNat 16 (fld b.ctl 16 16) ∧ (getThread u t).s = th.s ∧ u.mem = s.mem ∧
      u.bar = s.bar ∧ u.sems = s.sems) ∧
  (∀ (s : State) (t : Tid) (b : Bundle) (j : Job) (th : Thread) (v : Nat) (e' : Ev), Issues s t b j th → Alone b 0 → Bundle.op b 0 = 0x43 →
    fld b.ctl 14 6 = 0 → dstCheck (atIssue s t b j th) false (ctlD b.ctl) = .ok () → statValue j th (fld b.ctl 20 12) = some v →
    writeS (atIssue s t b j th) (ctlD b.ctl) (BitVec.ofNat 64 v) = .ok e' → exec (.stat t b) s = .next (finishIssue e')) ∧
  (∀ (s : State) (t : Tid) (b : Bundle) (j : Job) (th : Thread), Issues s t b j th → Alone b 0 → Bundle.op b 0 = 0x43 →
    fld b.ctl 14 6 = 0 → statValue j th (fld b.ctl 20 12) = none →
    exec (.stat t b) s = .next (finishIssue { atIssue s t b j th with s := skipSlot s j t th.subtag th.pc.toNat 0 0x10 (fld b.ctl 20 12) })) ∧
  (∀ (s : State) (t : Tid) (b : Bundle) (j : Job) (th : Thread) (e : Ev), Issues s t b j th → noRow b = true → Bundle.reserved b = 0 →
    runSlots (atIssue s t b j th) b [0, 1, 2, 3] = .ok e → exec (.bundleNop t b) s = .next (finishIssue e)) ∧
  (∀ (s : State) (t : Tid) (b : Bundle) (j : Job) (th : Thread), Issues s t b j th → b.header.toNat % 16 = 0 → Bundle.reserved b = 0 →
    exec (.bundleNop t b) s = .next (finishIssue (atIssue s t b j th))) ∧
  (∀ (s : State) (t : Tid) (b : Bundle) (j : Job) (th : Thread), issuer s t = some (j, th) → Bundle.reserved b ≠ 0 →
    th.pc.toNat + Bundle.len b ≤ j.codeBytes → j.codeBytes < 2 ^ 32 → (∀ r ∈ th.rpt, r.bodyStart < 2 ^ 32) →
    Gives (.reservedHeader t b) s fun u => (getThread u t).pc.toNat = (seqNext th.rpt (th.pc.toNat + Bundle.len b)).2 ∧
      (getThread u t).rpt = (seqNext th.rpt (th.pc.toNat + Bundle.len b)).1 ∧ (getThread u t).skips.toNat = satInc th.skips.toNat 1 ∧
      (getThread u t).s = th.s ∧ u.sems = s.sems) ∧
  (∀ (s : State) (t : Tid) (b : Bundle) (j : Job) (th : Thread), issuer s t = some (j, th) → j.codeBytes < th.pc.toNat + Bundle.len b →
    Gives (.truncatedBundle t b) s fun u => (getThread u t).run = (if opsOf s t = [] then .ended else .ending) ∧ (getThread u t).item = none ∧
      (getThread u t).skips.toNat = satInc th.skips.toNat 1 ∧ u.sems = s.sems) ∧
  (∀ (s : State) (v : Nat) (j : Job) (k : Nat) (w : QWait), jobAt s v = some j →
    (List.range j.threads).find? (fun k => (deadWait s j { vcore := v, thread := k }).isSome) = some k → deadWait s j { vcore := v, thread := k } = some w →
    Gives (.deadlock v) s fun u =>
      (getThread u { vcore := v, thread := k }).waitQ = (getThread s { vcore := v, thread := k }).waitQ.filter (fun x => x.slot != w.slot) ∧
      (getThread u { vcore := v, thread := k }).dropped = (getThread s { vcore := v, thread := k }).dropped ||| (1#4 <<< w.slot) ∧
      (getThread u { vcore := v, thread := k }).skips.toNat = satInc (getThread s { vcore := v, thread := k }).skips.toNat 1) ∧
  (∀ (s : State) (v : Nat) (j : Job), jobAt s v = some j →
    (List.range j.threads).find? (fun k => (deadWait s j { vcore := v, thread := k }).isSome) = none → exec (.deadlock v) s = .next s)

/-! ## The address slot -/

namespace Sys2Proof.Claims
open Sys2Proof.Machine

/-- The address slot alone issues opcode `op`: its reserved fields are zero, no fence and no SEMTRY holds the thread's address slot, and fewer than 64
operations that count are outstanding where the opcode adds one (R84, R89, R136, R146). -/
def AdrIssues (s : State) (t : Tid) (b : Bundle) (j : Job) (th : Thread) (op : Nat) : Prop :=
  Issues s t b j th ∧ Alone b 1 ∧ Bundle.op b 1 = op ∧ zeroCheck b.adr (adrZero b.adr op) = .ok () ∧ th.fence = none ∧
    (∀ o ∈ opsOf s t, o.kind ≠ .semTry) ∧
    (op ∉ [0x11, 0x18, 0x19, 0x20, 0x28, 0x29] → ((opsOf s t).filter counted).length < 64)

/-- The address the slot forms in `e`, leaving `e'`. -/
def Forms (e : Ev) (w : W64) (a : W64) (e' : Ev) : Prop := adrBaseCheck e w = .ok () ∧ adrAddress e w = .ok (a, e')

/-- An address in the thread's own node: scratchpad bit clear and the node part local. -/
def Local (e : Ev) (w : W64) (a : W64) : Prop := adrScratch w = false ∧ isLocalNode e.s (nodeOf a) = true

/-- The operation of the thread that a bundle adds. -/
def added (e : Ev) (kind : OpKind) (a : W64) (data : VReg) (cmp : W64) (mask : BitVec 256) (d : Dest) (todo : List Nat) (res : VReg) : Ev :=
  (newOp e kind a data cmp mask d todo res).1

/-- A value delivered at once, under the number the operation would have had. -/
def delivered (e : Ev) (d : Dest) (v : VReg) : Ev :=
  let s := { e.s with cores := { e.s.cores with nextId := e.s.cores.nextId + 1 } }
  { e with s := deliver s e.job e.t d e.s.cores.nextId v }

/-- The operation sent to the node it names (R332). -/
def sent (e : Ev) (id : Nat) : Ev := { e with s := sendOp e.s id }

/-- LDS (wide false) and LDV (wide true): opcode, bytes, constructor. -/
def loadRows : List (Nat × Bool × (W64 → Nat) × (Tid → Bundle → Instr)) :=
  [(0x01, false, (fun w => 2 ^ (adrA w % 4)), Instr.lds), (0x03, true, (fun _ => 256), Instr.ldv)]

/-- The granules a load of `n` bytes fetches (R134): with NC its sectors; otherwise the sectors of its lines of which the L1 lacks one it asks for, but
for those the L1 holds. -/
def lacks (s : State) (v off n : Nat) (nc : Bool) : List Nat :=
  (granulesOf off n).filter (fun g =>
    let x := off / 64 * 64 + 32 * g
    if nc then decide (x ∈ sectorsOf off n)
    else (l1Sector s v x).isNone && (sectorsOf off n).any (fun y => (l1Sector s v y).isNone && y / 64 == x / 64))

/-- A byte of the L1's copies. -/
def l1Byte (s : State) (v a : Nat) : Byte := ((l1Sector s v (a / 32 * 32)).getD []).getD (a % 32) 0

/-- A load's alignment: its own size, 32 bytes for LDV (R87). -/
def loadAlign (n : Nat) : Nat := if n = 256 then 32 else n

/-- The value a finished load gives its destination (R85). -/
def loaded (w : W64) (wide : Bool) (n : Nat) (raw : VReg) : VReg :=
  if wide then raw else (loadValue n (nbit (adrA w) 2) raw).setWidth 2048

end Sys2Proof.Claims

/-- R84, R92, R93. The address of an access is a base register, or a loop unit's current address, plus the sign-extended 24-bit immediate, modulo 2^64; with ADV the unit then advances: a unit whose counts are positive advances its lowest index, an index that reaches its count returns to zero and carries, and past the highest level DONE is set. A unit that no LOOPCFG has loaded makes the slot illegal with BAD_LOOP. -/
def Obligations.AddressesAndLoops : Prop :=
  (∀ (e : Ev) (w : W64), adrLoop w = false → fld w 21 6 < 32 → pendingDest e (.sreg (fld w 21 6)) = false →
    adrAddress e w = .ok ((if fld w 21 6 = 0 then 0 else tget e.th0.s (fld w 21 6) 0) + BitVec.ofInt 64 (sxt 24 (fld w 40 24)), e)) ∧
  (∀ (e : Ev) (w : W64) (l : LoopUnit), adrLoop w = true → bit w 23 = false → tfind e.th0.loops (fld w 21 2) = some l → l.configured = true →
    adrAddress e w = .ok (l.addr + BitVec.ofInt 64 (sxt 24 (fld w 40 24)), e)) ∧
  (∀ (e : Ev) (w : W64) (l : LoopUnit), adrLoop w = true → bit w 23 = true → tfind e.th0.loops (fld w 21 2) = some l → l.configured = true →
    ∃ e', adrAddress e w = .ok (l.addr + BitVec.ofInt 64 (sxt 24 (fld w 40 24)), e') ∧
      tfind (getThread e'.s e.t).loops (fld w 21 2) = some l.advance ∧ (getThread e'.s e.t).s = (getThread e.s e.t).s) ∧
  (∀ (e : Ev) (w : W64), adrLoop w = true → tfind e.th0.loops (fld w 21 2) = none → adrBaseCheck e w = .skip 0x09 (fld w 21 2)) ∧
  (∀ (e : Ev) (w : W64) (use : Use) (a : W64) (n align : Nat), a.toNat % align ≠ 0 → adrCheck e w use a n align = .skip 0x0B (a.toNat % 2 ^ 32)) ∧
  (∀ (e : Ev) (w : W64) (a : W64) (n align : Nat), a.toNat % align = 0 → adrScratch w = true → e.job.scratch < a.toNat + n →
    adrCheck e w .loadStore a n align = .skip 0x0A (a.toNat % 2 ^ 32)) ∧
  (∀ l : LoopUnit, 0 < l.levels → tget l.idx 0 0 + 1 ≠ tget l.counts 0 0 →
    tget l.advance.idx 0 0 = tget l.idx 0 0 + 1 ∧ (∀ k, k ≠ 0 → tget l.advance.idx k 0 = tget l.idx k 0) ∧ l.advance.done = l.done) ∧
  (∀ l : LoopUnit, 0 < l.levels → (∀ k, k < l.levels → tget l.idx k 0 + 1 = tget l.counts k 0) →
    (∀ k, k < l.levels → tget l.advance.idx k 0 = 0) ∧ l.advance.done = true) ∧
  (∀ (l : LoopUnit) (m : Nat), 0 < m → m < l.levels → (∀ k, k < m → tget l.idx k 0 + 1 = tget l.counts k 0) →
    tget l.idx m 0 + 1 ≠ tget l.counts m 0 →
    (∀ k, k < m → tget l.advance.idx k 0 = 0) ∧ tget l.advance.idx m 0 = tget l.idx m 0 + 1 ∧ l.advance.done = l.done)

/-- R70, R76, R84, R85, R89, R134. LDS and LDV: from the scratchpad, and where the L1 has copies of all their sectors, the destination takes the value at once; otherwise an operation is added for the sectors the L1 lacks (with those of its lines), or sent to the node the address names; the host window answers at once. A destination register is taken, S0 discards, a queue's tail entry is reserved until the data arrives. -/
def Obligations.LoadsIssue : Prop :=
  (∀ r ∈ loadRows, ∀ (s : State) (t : Tid) (b : Bundle) (j : Job) (th : Thread) (a : W64) (e1 e2 : Ev) (d : Dest), AdrIssues s t b j th r.1 →
    dstCheck (atIssue s t b j th) r.2.1 (adrData b.adr) = .ok () → Forms (atIssue s t b j th) b.adr a e1 →
    adrCheck e1 b.adr .loadStore a (r.2.2.1 b.adr) (loadAlign (r.2.2.1 b.adr)) = .ok () →
    reserveDest e1 r.2.1 (adrData b.adr) = .ok (e2, d) →
    (adrScratch b.adr = true →
      exec (r.2.2.2 t b) s = .next (finishIssue (delivered e2 d (loaded b.adr r.2.1 (r.2.2.1 b.adr)
        (BitVec.ofNat 2048 (leNat (scratchRead e2.s t.vcore a.toNat (r.2.2.1 b.adr)))))))) ∧
    (Local e2 b.adr a → lacks e2.s t.vcore (offOf a) (r.2.2.1 b.adr) (nbit (adrA b.adr) 3) = [] →
      exec (r.2.2.2 t b) s = .next (finishIssue (delivered e2 d (loaded b.adr r.2.1 (r.2.2.1 b.adr)
        (BitVec.ofNat 2048 (leNat ((List.range (r.2.2.1 b.adr)).map (fun i => l1Byte e2.s t.vcore (offOf a + i))))))))) ∧
    (Local e2 b.adr a → localRange e2.s (offOf a) (r.2.2.1 b.adr) = .device →
      lacks e2.s t.vcore (offOf a) (r.2.2.1 b.adr) (nbit (adrA b.adr) 3) ≠ [] →
      ∃ raw : VReg, exec (r.2.2.2 t b) s = .next (finishIssue (added e2 (.load (r.2.2.1 b.adr) (if r.2.1 then false else nbit (adrA b.adr) 2) r.2.1
          (nbit (adrA b.adr) 3)) a 0 0 0 d (lacks e2.s t.vcore (offOf a) (r.2.2.1 b.adr) (nbit (adrA b.adr) 3)) raw)) ∧
        ∀ i, i < r.2.2.1 b.adr → nbit (adrA b.adr) 3 = false → l1Sector e2.s t.vcore ((offOf a + i) / 32 * 32) ≠ none →
          fld raw (8 * i) 8 = (l1Byte e2.s t.vcore (offOf a + i)).toNat) ∧
    (Local e2 b.adr a → localRange e2.s (offOf a) (r.2.2.1 b.adr) = .window →
      Gives (r.2.2.2 t b) s fun u => u.cores.ops = s.cores.ops ∧ u.mem.dram = s.mem.dram ∧ u.host.mem = s.host.mem) ∧
    (adrScratch b.adr = false → isLocalNode e2.s (nodeOf a) = false →
      exec (r.2.2.2 t b) s = .next (finishIssue (sent (added e2 (.load (r.2.2.1 b.adr)
        (if r.2.1 then false else nbit (adrA b.adr) 2) r.2.1 (nbit (adrA b.adr) 3)) a 0 0 0 d [0] 0) e2.s.cores.nextId)))) ∧
  (∀ (e : Ev) (n : Nat), 0 < n → n < 32 → pendingDest e (.sreg n) = false →
    reserveDest e false n = .ok ({ e with wrote := n :: e.wrote }, .sreg n)) ∧
  (∀ e : Ev, reserveDest e false 0 = .ok ({ e with wrote := 0 :: e.wrote }, .none)) ∧
  (∀ (e : Ev) (n : Nat), n < 32 → pendingDest e (.vreg n) = false →
    reserveDest e true n = .ok ({ e with wrote := (32 + n) :: e.wrote }, .vreg n)) ∧
  (∀ (e : Ev) (wide : Bool) (code : Nat), 32 ≤ code → code < 48 → (getQ e.s e.job e.t (code % 16)).length < qDepth e.job (code % 16) →
    ∃ e', reserveDest e wide code = .ok (e', .queue (code % 16)) ∧
      getQ e'.s e.job e.t (code % 16) = getQ e.s e.job e.t (code % 16) ++ [{ data := 0, pending := some e.s.cores.nextId }]) ∧
  (∀ (s : State) (j : Job) (t : Tid) (id n : Nat) (v : VReg), 0 < n → sReg (deliver s j t (.sreg n) id v) t n = v.setWidth 64 ∧
    (deliver s j t .none id v) = s) ∧
  (∀ (s : State) (j : Job) (t : Tid) (id q : Nat) (v : VReg),
    getQ (deliver s j t (.queue q) id v) j t q =
      (getQ s j t q).map (fun x => if x.pending = some id then { data := v, pending := none } else x))

/-- R84, R85, R87, R134, R135. STS and STV: a store to the scratchpad is made at once; to device memory it updates the copies of its own L1 and adds
an operation for the sectors it has bytes for (with no byte enabled none); to another node it is sent. STV with mask M stores the elements whose bit is set. -/
def Obligations.StoresIssue : Prop :=
  (∀ (s : State) (t : Tid) (b : Bundle) (j : Job) (th : Thread) (x : W64) (a : W64) (e0 e1 : Ev), AdrIssues s t b j th 0x02 →
    srcCheck (atIssue s t b j th) false (adrData b.adr) = .ok () → adrBaseCheck (atIssue s t b j th) b.adr = .ok () →
    readS (atIssue s t b j th) (adrData b.adr) = .ok (x, e0) → adrAddress e0 b.adr = .ok (a, e1) →
    adrCheck e1 b.adr .loadStore a (2 ^ (adrA b.adr % 4)) (2 ^ (adrA b.adr % 4)) = .ok () →
    (adrScratch b.adr = true → Gives (.sts t b) s fun u =>
      (∀ i, i < 2 ^ (adrA b.adr % 4) → scratchByte u t.vcore (a.toNat + i) = BitVec.ofNat 8 (x.toNat / 2 ^ (8 * i) % 256)) ∧
      (∀ v i, 131072 * v + i < 131072 * t.vcore + a.toNat ∨ 131072 * t.vcore + a.toNat + 2 ^ (adrA b.adr % 4) ≤ 131072 * v + i →
        scratchByte u v i = scratchByte s v i) ∧ u.mem = s.mem) ∧
    (Local e1 b.adr a → localRange (l1Store e1.s t.vcore (offOf a) (leBytes (2 ^ (adrA b.adr % 4)) x.toNat) (BitVec.allOnes 256)) (offOf a)
        (2 ^ (adrA b.adr % 4)) = .device →
      Gives (.sts t b) s fun u => ∃ o ∈ u.cores.ops, o.id = s.cores.nextId ∧ o.t = t ∧ o.kind = .store (2 ^ (adrA b.adr % 4)) ∧ o.addr = a ∧
        o.data.setWidth 64 = x ∧ o.part = j.part ∧ o.done = false ∧ u.mem = s.mem) ∧
    (adrScratch b.adr = false → isLocalNode e1.s (nodeOf a) = false →
      exec (.sts t b) s = .next (finishIssue (sent (added e1 (.store (2 ^ (adrA b.adr % 4))) a (x.setWidth 2048) 0 (BitVec.allOnes 256) .none [0] 0)
        e1.s.cores.nextId)))) ∧
  (∀ (s : State) (t : Tid) (b : Bundle) (j : Job) (th : Thread) (x : VReg) (a : W64) (e0 e1 : Ev), AdrIssues s t b j th 0x04 →
    srcCheck (atIssue s t b j th) true (adrData b.adr) = .ok () → adrBaseCheck (atIssue s t b j th) b.adr = .ok () →
    readV (atIssue s t b j th) (adrData b.adr) = .ok (x, e0) → adrAddress e0 b.adr = .ok (a, e1) → e1.th0 = th →
    adrCheck e1 b.adr .loadStore a 256 32 = .ok () → adrScratch b.adr = true →
    Gives (.stv t b) s fun u =>
      (∀ i, i < 256 → scratchByte u t.vcore (a.toNat + i) =
        if nbit (adrA b.adr) 4 = true ∧ bit (tget th.m (adrA b.adr % 8) 0) i = false then scratchByte s t.vcore (a.toNat + i)
        else BitVec.ofNat 8 (fld x (8 * i) 8)) ∧
      (∀ v i, 131072 * v + i < 131072 * t.vcore + a.toNat ∨ 131072 * t.vcore + a.toNat + 256 ≤ 131072 * v + i →
        scratchByte u v i = scratchByte s v i) ∧ u.mem = s.mem) ∧
  (∀ (s : State) (t : Tid) (b : Bundle) (j : Job) (th : Thread) (x : VReg) (a : W64) (e0 e1 : Ev) (mask : BitVec 256), AdrIssues s t b j th 0x04 →
    srcCheck (atIssue s t b j th) true (adrData b.adr) = .ok () → adrBaseCheck (atIssue s t b j th) b.adr = .ok () →
    readV (atIssue s t b j th) (adrData b.adr) = .ok (x, e0) → adrAddress e0 b.adr = .ok (a, e1) → e1.th0 = th →
    mask = (if nbit (adrA b.adr) 4 then (tget th.m (adrA b.adr % 8) 0).setWidth 256 else BitVec.allOnes 256) →
    adrCheck e1 b.adr .loadStore a 256 32 = .ok () →
    (Local e1 b.adr a → localRange (l1Store e1.s t.vcore (offOf a) (leBytes 256 x.toNat) mask) (offOf a) 256 = .device →
      (mask ≠ 0 → Gives (.stv t b) s fun u => ∃ o ∈ u.cores.ops, o.id = s.cores.nextId ∧ o.t = t ∧ o.kind = .store 256 ∧ o.addr = a ∧ o.data = x ∧
        o.mask = mask ∧ o.part = j.part ∧ o.done = false ∧ u.mem = s.mem) ∧
      (mask = 0 → Gives (.stv t b) s fun u => u.cores.ops = s.cores.ops ∧ u.mem = s.mem)) ∧
    (adrScratch b.adr = false → isLocalNode e1.s (nodeOf a) = false →
      exec (.stv t b) s = .next (finishIssue (sent (added e1 (.store 256) a x 0 mask .none [0] 0) e1.s.cores.nextId))))

/-- R85, R86, R144, R146. AMO, SEMSIG, SEMWAIT and SEMTRY of a local address add an operation with the value read; AMO also drops its core's L1 copy
of the sector, and SEMWAIT makes the thread wait. -/
def Obligations.AtomicAndSemaphoreIssue : Prop :=
  (∀ (s : State) (t : Tid) (b : Bundle) (j : Job) (th : Thread) (kind type n : Nat) (x c a : W64) (e0 e1 e2 e3 : Ev) (d : Dest), AdrIssues s t b j th 0x08 →
    kind = adrA b.adr % 16 → type = adrA b.adr / 16 → (type ≤ 1 ∧ kind ≤ 7 ∨ type ≤ 4 ∧ kind = 0) →
    n = (if type = 1 then 8 else if type = 0 ∨ type = 2 then 4 else 2) → (kind = 2 → adrAux b.adr < 32) →
    srcCheck (atIssue s t b j th) false (adrData b.adr) = .ok () → dstCheck (atIssue s t b j th) false (adrAux b.adr) = .ok () →
    adrBaseCheck (atIssue s t b j th) b.adr = .ok () → readS (atIssue s t b j th) (adrData b.adr) = .ok (x, e0) →
    (if kind = 2 then readS e0 (adrAux b.adr) = .ok (c, e1) else c = 0 ∧ e1 = e0) → adrAddress e1 b.adr = .ok (a, e2) →
    adrCheck e2 b.adr .amo a n n = .ok () → reserveDest e2 false (adrAux b.adr) = .ok (e3, d) → isLocalNode e3.s (nodeOf a) = true →
    isLocalNode (l1Drop e3.s e3.t.vcore (offOf a)) (nodeOf a) = true →
    Gives (.amo t b) s fun u => l1Sector u t.vcore (offOf a / 32 * 32) = none ∧ u.mem = s.mem ∧
      ∃ o ∈ u.cores.ops, o.t = t ∧ o.kind = .amo kind type ∧ o.addr = a ∧ o.data.setWidth 64 = x ∧ o.cmp = c ∧ o.dest = d ∧ o.todo = [offOf a / 32 % 2]) ∧
  (∀ (s : State) (t : Tid) (b : Bundle) (j : Job) (th : Thread) (x a : W64) (e0 e1 : Ev),
    srcCheck (atIssue s t b j th) false (adrData b.adr) = .ok () → adrBaseCheck (atIssue s t b j th) b.adr = .ok () →
    readS (atIssue s t b j th) (adrData b.adr) = .ok (x, e0) → adrAddress e0 b.adr = .ok (a, e1) → isLocalNode e1.s (nodeOf a) = true →
    (AdrIssues s t b j th 0x10 → adrCheck e1 b.adr .semSig a 8 8 = .ok () →
      Gives (.semsig t b) s fun u => u.mem = s.mem ∧ u.sems = s.sems ∧
        ∃ o ∈ u.cores.ops, o.t = t ∧ o.kind = .semSig ∧ o.addr = a ∧ o.data.setWidth 64 = x ∧ o.todo = [0]) ∧
    (AdrIssues s t b j th 0x11 → adrCheck e1 b.adr .semLocal a 8 8 = .ok () →
      Gives (.semwait t b) s fun u => u.mem = s.mem ∧ u.sems = s.sems ∧ (getThread u t).run = .semWait ((offOf a - 0x30000000000) / 8) x ∧
        ∃ o ∈ u.cores.ops, o.t = t ∧ o.kind = .semWait ∧ o.addr = a ∧ o.data.setWidth 64 = x ∧ o.todo = [0]) ∧
    (∀ (e2 : Ev) (d : Dest), AdrIssues s t b j th 0x12 → dstCheck (atIssue s t b j th) false (adrAux b.adr) = .ok () →
      adrCheck e1 b.adr .semLocal a 8 8 = .ok () → reserveDest e1 false (adrAux b.adr) = .ok (e2, d) →
      Gives (.semtry t b) s fun u => u.mem = s.mem ∧ u.sems = s.sems ∧
        ∃ o ∈ u.cores.ops, o.t = t ∧ o.kind = .semTry ∧ o.addr = a ∧ o.data.setWidth 64 = x ∧ o.dest = d ∧ o.todo = [0]))

/-- R85, R92, R135, R136. The fences, L1INV, HOIST, LOOPCFG and LOOPRD. A fence holds the thread's address slot until what it waits for is complete. -/
def Obligations.FencesLoopsHoists : Prop :=
  (∀ (s : State) (t : Tid) (b : Bundle) (j : Job) (th : Thread), AdrIssues s t b j th 0x18 →
    (adrA b.adr = 0 → Gives (.fenceL t b) s fun u => (getThread u t).fence = some .l ∧ u.mem = s.mem ∧ u.cores.ops = s.cores.ops) ∧
    (adrA b.adr = 1 → Gives (.fenceD t b) s fun u => (getThread u t).fence = some .d ∧ u.mem = s.mem ∧ u.cores.ops = s.cores.ops) ∧
    (adrA b.adr = 2 → Gives (.fenceH t b) s fun u => (getThread u t).fence = some .h ∧ u.mem = s.mem ∧ u.cores.ops = s.cores.ops)) ∧
  (∀ (s : State) (t : Tid) (f : Fence), (getThread s t).fence = some f → fenceDone s t f = true →
    Gives (.fenceComplete t) s fun u => (getThread u t).fence = none ∧ (getThread u t).s = (getThread s t).s ∧ u.mem = s.mem) ∧
  (∀ (s : State) (t : Tid) (f : Fence), (getThread s t).fence = some f → fenceDone s t f = false → exec (.fenceComplete t) s = .next s) ∧
  (∀ (s : State) (t : Tid) (b : Bundle) (j : Job) (th : Thread) (x a : W64) (e0 e1 : Ev), AdrIssues s t b j th 0x19 →
    srcCheck (atIssue s t b j th) false (adrData b.adr) = .ok () → adrBaseCheck (atIssue s t b j th) b.adr = .ok () →
    readS (atIssue s t b j th) (adrData b.adr) = .ok (x, e0) → adrAddress e0 b.adr = .ok (a, e1) → adrCheck e1 b.adr .inval a 1 1 = .ok () →
    Gives (.l1inv t b) s fun u => u.mem = s.mem ∧ u.cores.ops = s.cores.ops ∧
      (∀ o, x = 0 → l1Sector u t.vcore o = none) ∧
      (∀ o, x ≠ 0 → o < 2 ^ 48 → offOf a ≤ o → o < offOf a + x.toNat → l1Sector u t.vcore o = none)) ∧
  (∀ (s : State) (t : Tid) (b : Bundle) (j : Job) (th : Thread) (a : W64) (e1 e2 : Ev) (d : Line), AdrIssues s t b j th 0x20 →
    Forms (atIssue s t b j th) b.adr a e1 → adrCheck e1 b.adr .desc a 64 64 = .ok () → descWaits e1 b.adr a = false →
    readDesc e1 b.adr a 1 = (stOk, d, e2) →
    (e1.s.hoists.queue.filter (fun m => m.hoist / 4 == clusterHoist e1.s t.vcore (adrA b.adr % 4) / 4 &&
      decide (clusterHoist e1.s t.vcore (adrA b.adr % 4) < 256))).length < 64 →
    Gives (.hoist t b) s fun u => u.hoists.moves = s.hoists.moves ∧ u.hoists.queue = s.hoists.queue ++
      [{ hoist := clusterHoist e1.s t.vcore (adrA b.adr % 4), desc := d, addr := a, owner := some t, cmd := none, part := j.part, unreadable := 0 }]) ∧
  (∀ (s : State) (t : Tid) (b : Bundle) (j : Job) (th : Thread) (a : W64) (e1 e2 : Ev) (d : Line), AdrIssues s t b j th 0x28 →
    Forms (atIssue s t b j th) b.adr a e1 → adrCheck e1 b.adr .desc a 64 64 = .ok () →
    (adrScratch b.adr = true ∨ viewOf e1.s (offOf a) = none ∧ storePending e1.s t.vcore (sectorsOf (offOf a) 64) = false) →
    descWaits e1 b.adr a = false → readDesc e1 b.adr a 0 = (stOk, d, e2) →
    fld d 67 61 = 0 → 1 ≤ fld d 64 3 → fld d 64 3 ≤ 6 → (∀ k, k < fld d 64 3 → fld d (128 + 64 * k) 32 ≠ 0) →
    Gives (.loopcfg t b) s fun u => ∃ l, tfind (getThread u t).loops (adrA b.adr % 4) = some l ∧ l.configured = true ∧
      l.base = BitVec.ofNat 64 (fld d 0 64) ∧ l.levels = fld d 64 3 ∧ l.done = false ∧ l.addr = l.base ∧
      (∀ k, k < fld d 64 3 → tget l.counts k 0 = fld d (128 + 64 * k) 32 ∧ tget l.strides k 0 = sxt 32 (fld d (160 + 64 * k) 32) ∧ tget l.idx k 0 = 0)) ∧
  (∀ (s : State) (t : Tid) (b : Bundle) (j : Job) (th : Thread) (l : LoopUnit) (e' : Ev), AdrIssues s t b j th 0x29 →
    dstCheck (atIssue s t b j th) false (adrData b.adr) = .ok () → tfind th.loops (adrA b.adr % 4) = some l → l.configured = true →
    writeS (if nbit (adrA b.adr) 2 then setLoop (atIssue s t b j th) (adrA b.adr % 4) l.advance else atIssue s t b j th) (adrData b.adr) l.addr = .ok e' →
    exec (.looprd t b) s = .next (finishIssue e'))

/-! ## Number formats, the matrix slot, the vector slot -/

namespace Sys2Proof.Claims
open Sys2Proof.Machine

/-- The matrix slot alone issues opcode `op`. -/
def MtxIssues (s : State) (t : Tid) (b : Bundle) (j : Job) (th : Thread) (op : Nat) : Prop := Issues s t b j th ∧ Alone b 2 ∧ Bundle.op b 2 = op

/-- The vector slot alone issues opcode `op` with operands as `sg` says, its fields legal (R91, R107, R118); its sources are readable, its vector
destination writable, and the sources read give `a`, `b`, `c`, leaving `e'`. -/
def VecIssues (s : State) (t : Tid) (b : Bundle) (j : Job) (th : Thread) (op : Nat) (sg : VecSig) (x y z : VReg) (e' : Ev) : Prop :=
  Issues s t b j th ∧ Alone b 3 ∧ Bundle.op b 3 = op ∧ vecCheck b.vec sg = .ok () ∧
    (if sg.a = 1 then srcCheck (atIssue s t b j th) true (vecA b.vec) = .ok () else True) ∧
    (if sg.b = 1 then srcCheck (atIssue s t b j th) true (vecB b.vec) = .ok () else True) ∧
    (if sg.c then srcCheck (atIssue s t b j th) true (vecC b.vec) = .ok () else True) ∧
    (if sg.d = 1 then dstCheck (atIssue s t b j th) true (vecD b.vec) = .ok () else True) ∧
    ∃ e1 e2, (if sg.a = 1 then readV (atIssue s t b j th) (vecA b.vec) = .ok (x, e1) else x = 0 ∧ e1 = atIssue s t b j th) ∧
      (if sg.b = 1 then readV e1 (vecB b.vec) = .ok (y, e2) else y = 0 ∧ e2 = e1) ∧
      (if sg.c then readV e2 (vecC b.vec) = .ok (z, e') else z = 0 ∧ e' = e2)

/-- The issue raises flags beside those of the bundle so far. -/
def raise (e : Ev) (fl : Flg) : Ev := { e with flags := e.flags ||| fl }

/-- D from A; from A and B; from A, B and C. -/
def sig1 : VecSig := { d := 1, a := 1, b := 0, c := false, usesMask := false, en := none }
def sig2 : VecSig := { d := 1, a := 1, b := 1, c := false, usesMask := false, en := none }
def sig3 : VecSig := { d := 1, a := 1, b := 1, c := true, usesMask := false, en := none }

/-- An exact value and its invalid condition rounded once to a format (R36, R126). -/
def rounded (f : Nat) (x : FVal × Bool) : Nat × Flg := ((arith f x.1).1, (arith f x.1).2 ||| fIf x.2 fIV)

/-- The sign bit of an element. -/
def topBit (f : Nat) : Nat := 2 ^ (fmtBits f - 1)

/-- Element-wise float arithmetic (R118): opcode, operands, constructor, and the element's code and conditions from those of A, B and C. -/
def floatTable : List (Nat × VecSig × (Tid → Bundle → Instr) × (Nat → Nat → Nat → Nat → Nat × Flg)) :=
  [(0x01, sig2, Instr.fadd, fun f a b _ => rounded f ((decodeF f a).add (decodeF f b))),
   (0x02, sig2, Instr.fsub, fun f a b _ => rounded f ((decodeF f a).add (decodeF f b).neg)),
   (0x03, sig2, Instr.fmul, fun f a b _ => rounded f ((decodeF f a).mul (decodeF f b))),
   (0x04, sig3, Instr.fma, fun f a b c =>
     rounded f ((((decodeF f a).mul (decodeF f b)).1.add (decodeF f c)).1,
       ((decodeF f a).mul (decodeF f b)).2 || (((decodeF f a).mul (decodeF f b)).1.add (decodeF f c)).2)),
   (0x05, sig3, Instr.fms, fun f a b c =>
     rounded f ((((decodeF f a).mul (decodeF f b)).1.add (decodeF f c).neg).1,
       ((decodeF f a).mul (decodeF f b)).2 || (((decodeF f a).mul (decodeF f b)).1.add (decodeF f c).neg).2)),
   (0x06, sig3, Instr.fnma, fun f a b c =>
     rounded f ((((decodeF f a).mul (decodeF f b)).1.neg.add (decodeF f c)).1,
       ((decodeF f a).mul (decodeF f b)).2 || (((decodeF f a).mul (decodeF f b)).1.neg.add (decodeF f c)).2)),
   (0x07, sig2, Instr.fmin, ewFloat 0x07), (0x08, sig2, Instr.fmax, ewFloat 0x08),
   (0x09, sig1, Instr.fabs, fun f a _ _ => (a % topBit f, 0)),
   (0x0A, sig1, Instr.fneg, fun f a _ _ => (if topBit f ≤ a then a - topBit f else a + topBit f, 0)),
   (0x0B, sig2, Instr.fdiv, ewFloat 0x0B), (0x0C, sig2, Instr.fscalb, ewFloat 0x0C)]

/-- Element-wise integer arithmetic (R118). -/
def intTable : List (Nat × VecSig × (Tid → Bundle → Instr) × (Nat → Nat → Nat → Nat → Nat × Flg)) :=
  [(0x20, sig2, Instr.iadd, fun f a b _ => ((a + b) % 2 ^ fmtBits f, 0)),
   (0x21, sig2, Instr.isub, fun f a b _ => ((a + 2 ^ fmtBits f - b) % 2 ^ fmtBits f, 0)),
   (0x22, sig2, Instr.imul, fun f a b _ => (a * b % 2 ^ fmtBits f, 0)),
   (0x23, sig2, Instr.imin, fun f a b _ => (if sxt (fmtBits f) a < sxt (fmtBits f) b then a else b, 0)),
   (0x24, sig2, Instr.imax, fun f a b _ => (if sxt (fmtBits f) a < sxt (fmtBits f) b then b else a, 0)),
   (0x25, sig2, Instr.vecAnd, fun _ a b _ => (a &&& b, 0)), (0x26, sig2, Instr.vecOr, fun _ a b _ => (a ||| b, 0)),
   (0x27, sig2, Instr.vecXor, fun _ a b _ => (a ^^^ b, 0)),
   (0x28, sig2, Instr.vecShl, fun f a b _ => (a * 2 ^ (b % fmtBits f) % 2 ^ fmtBits f, 0)),
   (0x29, sig2, Instr.vecShr, fun f a b _ => (a / 2 ^ (b % fmtBits f), 0)),
   (0x2A, sig2, Instr.vecSra, fun f a b _ => (toCode (fmtBits f) (sxt (fmtBits f) a / 2 ^ (b % fmtBits f)), 0)),
   (0x2B, sig1, Instr.iabs, fun f a _ _ => (if topBit f ≤ a then 2 ^ fmtBits f - a else a, 0)),
   (0x2C, sig2, Instr.iadds, fun f a b _ =>
     if sxt (fmtBits f) a + sxt (fmtBits f) b < -(topBit f : Int) then (topBit f, fSA)
     else if (topBit f : Int) ≤ sxt (fmtBits f) a + sxt (fmtBits f) b then (topBit f - 1, fSA) else ((a + b) % 2 ^ fmtBits f, 0))]

/-- Transcendental operations (R118): FP32 first, then one rounding to the format. -/
def transTable : List (Nat × VecSig × (Tid → Bundle → Instr) × (Nat → Nat → Nat → Nat → Nat × Flg)) :=
  [(0x50, Instr.rcp), (0x51, Instr.rsqrt), (0x52, Instr.sqrt), (0x53, Instr.exp2), (0x54, Instr.exp), (0x55, Instr.log2), (0x56, Instr.tanh),
   (0x57, Instr.sigmoid), (0x58, Instr.erf), (0x59, Instr.sin), (0x5A, Instr.cos)].map
    (fun p => (p.1, sig1, p.2, fun f a _ _ => ewTrans p.1 f a))

/-- The compares (R118): mask bit `i` from elements A and B. -/
def compareTable : List (Nat × VecSig × (Tid → Bundle → Instr) × (Nat → Nat → Nat → Bool)) :=
  [(0x30, { sig2 with d := 2 }, Instr.cmpeq, fun f a b => elemCmp f a b == some 0), (0x31, { sig2 with d := 2 }, Instr.cmpne, fun f a b => elemCmp f a b != some 0),
   (0x32, { sig2 with d := 2 }, Instr.cmplt, fun f a b => elemCmp f a b == some (-1)),
   (0x33, { sig2 with d := 2 }, Instr.cmple, fun f a b => elemCmp f a b == some (-1) || elemCmp f a b == some 0),
   (0x34, { sig1 with d := 2 }, Instr.isnan, fun f a _ => (decodeF f a).isNan)]

/-- D has the elements `g` gives at the active positions and what the destination held at the others (R117), and zero above its last element. -/
def Elements (e : Ev) (w : BitVec 48) (g : Nat → Nat) (v : VReg) : Prop :=
  v.toNat < 2 ^ (fmtBits (vecFmtD w) * fmtN (vecFmtD w)) ∧
  ∀ i, i < fmtN (vecFmtD w) → vElem (vecFmtD w) v i = if activeAt e w i then g i else vElem (vecFmtD w) (oldV e (vecD w)) i

/-- The conditions of the active elements together (R127). -/
def condsOf (e : Ev) (w : BitVec 48) (g : Nat → Flg) : Flg :=
  orFlags ((List.range (fmtN (vecFmtD w))).map (fun i => if activeAt e w i then g i else fNone))

/-- The generator after `n` draws (R124). -/
def drawAt (n : Nat) (g : W32) : W32 :=
  match n with
  | 0 => g
  | k + 1 => xorshift (drawAt k g)

/-- D holds `xs` from element 0 up and zero in its other elements. -/
def Head (f : Nat) (xs : List Nat) (v : VReg) : Prop := ∀ i, i < fmtN f → vElem f v i = xs.getD i 0

end Sys2Proof.Claims

/-- R29, R36, R38, R106, R117. Every code of a floating-point format that is no NaN converts to itself and raises nothing; a NaN converts to the format's NaN. Conversion to an integer format rounds to nearest, ties to even, saturates with IV, and says NX where it rounds. Packing the codes of a format into a vector and reading them back gives the codes, and two vectors with the same elements are one. -/
def Obligations.NumbersAndElements : Prop :=
  (∀ f c : Nat, f ≤ 7 → c < 2 ^ fmtBits f →
    ((decodeF f c).isNan = false → arith f (decodeF f c) = (c, fNone)) ∧
    ((decodeF f c).isNan = true → (arith f (decodeF f c)).2 = fNone ∧ (ffmt f).nan = some (arith f (decodeF f c)).1)) ∧
  (∀ (f : Nat) (i : Int), f = 8 ∨ f = 9 ∨ f = 10 →
    (-(topBit f : Int) ≤ i → i < topBit f → convert f (.ofInt i) false none = (toCode (fmtBits f) i, fNone)) ∧
    (i < -(topBit f : Int) → convert f (.ofInt i) false none = (topBit f, fIV)) ∧
    ((topBit f : Int) ≤ i → convert f (.ofInt i) false none = (topBit f - 1, fIV)) ∧
    (∀ k : Nat, k < topBit f - 1 → convert f (.fin false (2 * k + 1) (-1)) false none = (k + k % 2, fNX)) ∧
    convert f .nan false none = (0, fIV)) ∧
  (∀ f : Nat, f ∈ [0, 1, 2, 3, 4, 7, 8, 9, 10] →
    (∀ (cs : List Nat) (i : Nat), i < fmtN f → cs.length ≤ fmtN f → vElem f (packV f cs) i = cs.getD i 0 % 2 ^ fmtBits f) ∧
    (∀ u v : VReg, (∀ i, i < fmtN f → vElem f u i = vElem f v i) → u = v))

/-- R108 to R115. The matrix slot. MMA adds K products per entry exactly to the open group of the tile, after closing a group that has no room for them, and closes the group at 32; on an INT tile the group closes into the entry, saturating with SA. MMAZ starts from a zero tile of the pair's type; MZERO zeroes; MWR and MRD move tile entries; the post-operations work on every entry. -/
def Obligations.MatrixRows : Prop :=
  (∀ (s : State) (t : Tid) (b : Bundle) (j : Job) (th : Thread) (k : Nat) (isInt : Bool) (x y z : VReg) (e1 e2 e3 : Ev),
    fld b.mtx 38 10 = 0 → mtxFmtA b.mtx < 0xB → mtxFmtB b.mtx < 0xB → pairKind (mtxFmtA b.mtx) (mtxFmtB b.mtx) = some (k, isInt) →
    srcCheck (atIssue s t b j th) true (mtxA b.mtx) = .ok () → srcCheck (atIssue s t b j th) true (mtxB b.mtx) = .ok () →
    readV (atIssue s t b j th) (mtxA b.mtx) = .ok (x, e1) → readV e1 (mtxB b.mtx) = .ok (y, e2) →
    (mtxSA b.mtx = true → 3 ≤ mtxFmtA b.mtx ∧ mtxFmtA b.mtx ≤ 7) → (mtxSB b.mtx = true → 3 ≤ mtxFmtB b.mtx ∧ mtxFmtB b.mtx ≤ 7) →
    (if mtxSA b.mtx || mtxSB b.mtx then srcCheck (atIssue s t b j th) true (mtxScale b.mtx) = .ok () ∧ readV e2 (mtxScale b.mtx) = .ok (z, e3)
      else fld b.mtx 32 6 = 0 ∧ z = 0 ∧ e3 = e2) →
    (MtxIssues s t b j th 0x01 → (tget th.acc (mtxAcc b.mtx) Tile.zero).isInt = isInt → e3.th0 = th →
      exec (.mma t b) s = .next (finishIssue (putTile e3 (mtxAcc b.mtx)
        (mmaTile (tget th.acc (mtxAcc b.mtx) Tile.zero) k (mtxFmtA b.mtx) (mtxFmtB b.mtx) x y z (mtxSA b.mtx) (mtxSB b.mtx)).1
        (mmaTile (tget th.acc (mtxAcc b.mtx) Tile.zero) k (mtxFmtA b.mtx) (mtxFmtB b.mtx) x y z (mtxSA b.mtx) (mtxSB b.mtx)).2))) ∧
    (MtxIssues s t b j th 0x02 →
      exec (.mmaz t b) s = .next (finishIssue (putTile e3 (mtxAcc b.mtx)
        (mmaTile { Tile.zero with isInt := isInt } k (mtxFmtA b.mtx) (mtxFmtB b.mtx) x y z (mtxSA b.mtx) (mtxSB b.mtx)).1
        (mmaTile { Tile.zero with isInt := isInt } k (mtxFmtA b.mtx) (mtxFmtB b.mtx) x y z (mtxSA b.mtx) (mtxSB b.mtx)).2)))) ∧
  (∀ (s : State) (t : Tid) (b : Bundle) (j : Job) (th : Thread), MtxIssues s t b j th 0x03 → fld b.mtx 8 20 = 0 → fld b.mtx 30 14 = 0 →
    mtxFmtC b.mtx = 0 ∨ mtxFmtC b.mtx = 10 →
    Gives (.mzero t b) s fun u => tget (getThread u t).acc (mtxAcc b.mtx) Tile.zero = { Tile.zero with isInt := decide (mtxFmtC b.mtx = 10) } ∧
      (getThread u t).v = th.v ∧ u.mem = s.mem) ∧
  (∀ (s : State) (t : Tid) (b : Bundle) (j : Job) (th : Thread) (q : Nat) (x : VReg) (e1 : Ev), q < 4 → MtxIssues s t b j th (0x08 + q) →
    fld b.mtx 12 4 = 0 → fld b.mtx 22 6 = 0 → fld b.mtx 30 18 = 0 → mtxFmtA b.mtx = 0 ∨ mtxFmtA b.mtx = 10 →
    srcCheck (atIssue s t b j th) true (mtxA b.mtx) = .ok () → readV (atIssue s t b j th) (mtxA b.mtx) = .ok (x, e1) →
    Gives (.mwr t b) s fun u => (tget (getThread u t).acc (mtxAcc b.mtx) Tile.zero).isInt = decide (mtxFmtA b.mtx = 10) ∧
      ∀ i, i < 64 → (tget (tget (getThread u t).acc (mtxAcc b.mtx) Tile.zero).entries (64 * q + i) 0).toNat = vElem 0 x i) ∧
  (∀ (s : State) (t : Tid) (b : Bundle) (j : Job) (th : Thread) (q : Nat) (tile : Tile) (fl : Flg) (rs : List (Nat × Flg)) (e' : Ev), q < 4 →
    fld b.mtx 8 20 = 0 → fld b.mtx 30 8 = 0 → dstCheck (atIssue s t b j th) true (mtxC b.mtx) = .ok () →
    (mtxFmtC b.mtx = 0 ∨ (tget th.acc (mtxAcc b.mtx) Tile.zero).isInt = true ∧ mtxFmtC b.mtx = 10 ∨
      (tget th.acc (mtxAcc b.mtx) Tile.zero).isInt = false ∧ (mtxFmtC b.mtx = 1 ∨ mtxFmtC b.mtx = 2)) →
    closeGroup (tget th.acc (mtxAcc b.mtx) Tile.zero) = (tile, fl) →
    rs = (List.range 64).map (fun i => convert (mtxFmtC b.mtx) (if tile.isInt then .ofInt (tget tile.entries (64 * q + i) 0).toInt
      else decodeF 0 (tget tile.entries (64 * q + i) 0).toNat) false none) →
    (MtxIssues s t b j th (0x10 + q) →
      writeV (putTile (atIssue s t b j th) (mtxAcc b.mtx) tile (fl ||| orFlags (rs.map (·.2)))) (mtxC b.mtx) (packV (mtxFmtC b.mtx) (rs.map (·.1))) = .ok e' →
      exec (.mrd t b) s = .next (finishIssue e')) ∧
    (MtxIssues s t b j th (0x14 + q) →
      writeV (putTile (atIssue s t b j th) (mtxAcc b.mtx)
        { tile with entries := (List.range 64).foldl (fun es i => tset es (64 * q + i) 0 0) tile.entries } (fl ||| orFlags (rs.map (·.2))))
        (mtxC b.mtx) (packV (mtxFmtC b.mtx) (rs.map (·.1))) = .ok e' →
      exec (.mrdz t b) s = .next (finishIssue e'))) ∧
  (∀ (tile : Tile) (x y : VReg) (i : Nat), tile.isInt = true → tile.gk = 0 → i < 256 →
    (tget (mmaTile tile 16 8 8 x y 0 false false).1.part i Partial.zero).num = (tget tile.part i Partial.zero).num +
      ((List.range 16).map (fun k => sxt 8 (vElem 8 x (i / 16 * 16 + k)) * sxt 8 (vElem 8 y (i % 16 * 16 + k)))).sum ∧
    (mmaTile tile 16 8 8 x y 0 false false).1.gk = 16 ∧ (mmaTile tile 16 8 8 x y 0 false false).1.entries = tile.entries ∧
    ∀ (entry : W32) (p : Partial), (entry.toInt + p.num < -2147483648 → closeEntry true entry p = (BitVec.ofInt 32 (-2147483648), fSA)) ∧
      (2147483647 < entry.toInt + p.num → closeEntry true entry p = (BitVec.ofInt 32 2147483647, fSA)) ∧
      (-2147483648 ≤ entry.toInt + p.num → entry.toInt + p.num ≤ 2147483647 → closeEntry true entry p = (BitVec.ofInt 32 (entry.toInt + p.num), fNone)))

/-- R107, R117, R118, R126, R127. Element-wise arithmetic: each active element takes the row's result from the elements of A, B and C at its position, each inactive one keeps what the destination held, and the flags rise by the active elements' conditions. Compares and mask operations: mask bit i is the compare of the elements at an active position i and 0 at the others; the logic works on all 512 bits; MLEN sets the low A[0] bits; SEL picks by the mask. -/
def Obligations.ElementwiseRows : Prop :=
  (∀ r ∈ floatTable ++ intTable ++ transTable, ∀ (s : State) (t : Tid) (b : Bundle) (j : Job) (th : Thread) (x y z v : VReg) (e e' : Ev),
    VecIssues s t b j th r.1 r.2.1 x y z e →
    Elements e b.vec (fun i => (r.2.2.2 (vecFmt b.vec) (vElem (vecFmt b.vec) x i) (vElem (vecFmt b.vec) y i) (vElem (vecFmt b.vec) z i)).1) v →
    writeV (raise e (condsOf e b.vec (fun i =>
      (r.2.2.2 (vecFmt b.vec) (vElem (vecFmt b.vec) x i) (vElem (vecFmt b.vec) y i) (vElem (vecFmt b.vec) z i)).2))) (vecD b.vec) v = .ok e' →
    exec (r.2.2.1 t b) s = .next (finishIssue e')) ∧
  (∀ r ∈ compareTable, ∀ (s : State) (t : Tid) (b : Bundle) (j : Job) (th : Thread) (x y z : VReg) (e : Ev) (m : Mask),
    VecIssues s t b j th r.1 r.2.1 x y z e →
    (∀ i, i < 512 → bit m i = (decide (i < fmtN (vecFmt b.vec)) && activeAt e b.vec i &&
      r.2.2.2 (vecFmt b.vec) (vElem (vecFmt b.vec) x i) (vElem (vecFmt b.vec) y i))) →
    exec (r.2.2.1 t b) s = .next (finishIssue { e with s := putM e.s t (vecD b.vec) m, wrote := kM (vecD b.vec) :: e.wrote })) ∧
  (∀ (s : State) (t : Tid) (b : Bundle) (j : Job) (th : Thread) (x y z : VReg) (e : Ev) (m : Mask) (sg : VecSig) (op : Nat) (c : Instr),
    sg = { d := 2, a := 2, b := if op = 0x3B then 0 else 2, c := false, usesMask := false, en := some false } →
    (op = 0x38 ∧ c = .mand t b ∧ m = (tget th.m (vecA b.vec) 0 &&& tget th.m (vecB b.vec) 0) ∨
      op = 0x39 ∧ c = .mor t b ∧ m = (tget th.m (vecA b.vec) 0 ||| tget th.m (vecB b.vec) 0) ∨
      op = 0x3A ∧ c = .mxor t b ∧ m = (tget th.m (vecA b.vec) 0 ^^^ tget th.m (vecB b.vec) 0) ∨
      op = 0x3B ∧ c = .mnot t b ∧ m = ~~~ tget th.m (vecA b.vec) 0) →
    VecIssues s t b j th op sg x y z e →
    exec c s = .next (finishIssue { e with s := putM e.s t (vecD b.vec) m, wrote := kM (vecD b.vec) :: e.wrote })) ∧
  (∀ (s : State) (t : Tid) (b : Bundle) (j : Job) (th : Thread) (x y z : VReg) (e : Ev) (m : Mask),
    VecIssues s t b j th 0x3C { d := 2, a := 1, b := 0, c := false, usesMask := false, en := some false } x y z e →
    (∀ i, i < 512 → bit m i = decide (i < vElem (vecFmt b.vec) x 0)) →
    exec (.mlen t b) s = .next (finishIssue { e with s := putM e.s t (vecD b.vec) m, wrote := kM (vecD b.vec) :: e.wrote })) ∧
  (∀ (s : State) (t : Tid) (b : Bundle) (j : Job) (th : Thread) (x y z v : VReg) (e e' : Ev),
    VecIssues s t b j th 0x3D { sig2 with usesMask := true, en := some true } x y z e →
    (∀ i, i < fmtN (vecFmt b.vec) → vElem (vecFmt b.vec) v i =
      if bit (tget th.m (vecMask b.vec) 0) i then vElem (vecFmt b.vec) x i else vElem (vecFmt b.vec) y i) →
    writeV (raise e 0) (vecD b.vec) v = .ok e' → exec (.sel t b) s = .next (finishIssue e')) ∧
  (∀ (e : Ev) (w : BitVec 48) (i : Nat), activeAt e w i = (!vecMaskEn w || bit (tget e.th0.m (vecMask w) 0) i))

/-- R117 to R120. Reductions, scans, permutations and counts: the result stands in element 0 (RARGMAX: the value in 0, its index in 1) with zero in the others. RSUM adds by the pairwise tree, RMAX and RMIN of integers give an active element no other active one passes, and PSUM of integers gives position i the sum, modulo the element's width, of the active elements up to it. RMAX and RMIN without an active element, and MPOPC of a count that does not fit, run too, with a value that the spec does not state (log entry 111, DESIGN CHOICE). -/
def Obligations.ReductionRows : Prop :=
  (∀ (s : State) (t : Tid) (b : Bundle) (j : Job) (th : Thread) (x y z v : VReg) (e e' : Ev) (r : Nat) (fl : Flg), VecIssues s t b j th 0x40 sig1 x y z e →
    rsum (vecFmt b.vec) ((List.range (fmtN (vecFmt b.vec))).map (fun i => if activeAt e b.vec i then vElem (vecFmt b.vec) x i else 0)) = (r, fl) →
    Head (vecFmt b.vec) [r % 2 ^ fmtBits (vecFmt b.vec)] v → writeV (raise e fl) (vecD b.vec) v = .ok e' →
    exec (.rsum t b) s = .next (finishIssue e')) ∧
  (∀ (s : State) (t : Tid) (b : Bundle) (j : Job) (th : Thread) (x y z v : VReg) (e e' : Ev) (i : Nat), vecFmt b.vec = 8 ∨ vecFmt b.vec = 10 →
    i < fmtN (vecFmt b.vec) → activeAt e b.vec i = true → Head (vecFmt b.vec) [vElem (vecFmt b.vec) x i] v →
    writeV (raise e 0) (vecD b.vec) v = .ok e' →
    (VecIssues s t b j th 0x41 sig1 x y z e → (∀ k, k < fmtN (vecFmt b.vec) → activeAt e b.vec k = true →
        sxt (fmtBits (vecFmt b.vec)) (vElem (vecFmt b.vec) x k) ≤ sxt (fmtBits (vecFmt b.vec)) (vElem (vecFmt b.vec) x i)) →
      exec (.rmax t b) s = .next (finishIssue e')) ∧
    (VecIssues s t b j th 0x42 sig1 x y z e → (∀ k, k < fmtN (vecFmt b.vec) → activeAt e b.vec k = true →
        sxt (fmtBits (vecFmt b.vec)) (vElem (vecFmt b.vec) x i) ≤ sxt (fmtBits (vecFmt b.vec)) (vElem (vecFmt b.vec) x k)) →
      exec (.rmin t b) s = .next (finishIssue e'))) ∧
  (∀ (s : State) (t : Tid) (b : Bundle) (j : Job) (th : Thread) (x y z v : VReg) (e e' : Ev) (op i r : Nat),
    redBest op (vecFmt b.vec) (((List.range (fmtN (vecFmt b.vec))).filter (activeAt e b.vec)).map (fun k => (k, vElem (vecFmt b.vec) x k))) = some (i, r) →
    VecIssues s t b j th op sig1 x y z e → writeV (raise e 0) (vecD b.vec) v = .ok e' → (decodeF (vecFmt b.vec) r).isNan = false →
    (op = 0x41 → Head (vecFmt b.vec) [r] v → exec (.rmax t b) s = .next (finishIssue e')) ∧
    (op = 0x42 → Head (vecFmt b.vec) [r] v → exec (.rmin t b) s = .next (finishIssue e')) ∧
    (op = 0x43 → Head (vecFmt b.vec) [r, i] v → exec (.rargmax t b) s = .next (finishIssue e'))) ∧
  (∀ (s : State) (t : Tid) (b : Bundle) (j : Job) (th : Thread) (x y z v : VReg) (e e' : Ev), VecIssues s t b j th 0x43 sig1 x y z e →
    (∀ i, i < fmtN (vecFmt b.vec) → activeAt e b.vec i = false) → Head (vecFmt b.vec) [0, 2 ^ fmtBits (vecFmt b.vec) - 1] v →
    writeV (raise e 0) (vecD b.vec) v = .ok e' → exec (.rargmax t b) s = .next (finishIssue e')) ∧
  (∀ (s : State) (t : Tid) (b : Bundle) (j : Job) (th : Thread) (x y z : VReg) (e : Ev), (∀ i, i < fmtN (vecFmt b.vec) → activeAt e b.vec i = false) →
    (VecIssues s t b j th 0x41 sig1 x y z e → ∃ w, ∀ v e', Head (vecFmt b.vec) [w] v → writeV (raise e 0) (vecD b.vec) v = .ok e' →
      exec (.rmax t b) s = .next (finishIssue e')) ∧
    (VecIssues s t b j th 0x42 sig1 x y z e → ∃ w, ∀ v e', Head (vecFmt b.vec) [w] v → writeV (raise e 0) (vecD b.vec) v = .ok e' →
      exec (.rmin t b) s = .next (finishIssue e'))) ∧
  (∀ (s : State) (t : Tid) (b : Bundle) (j : Job) (th : Thread) (x y z : VReg) (e : Ev),
    VecIssues s t b j th 0x48 { sig1 with a := 0, usesMask := true } x y z e →
    2 ^ fmtBits (vecFmt b.vec) ≤ ((List.range (fmtN (vecFmt b.vec))).filter (fun i => bit (tget th.m (vecMask b.vec) 0) i)).length →
    ∃ w, ∀ v e', Head (vecFmt b.vec) [w] v → writeV (raise e 0) (vecD b.vec) v = .ok e' → exec (.mpopc t b) s = .next (finishIssue e')) ∧
  (∀ (s : State) (t : Tid) (b : Bundle) (j : Job) (th : Thread) (x y z v : VReg) (e e' : Ev) (ps : List (Option Nat)) (fl : Flg),
    VecIssues s t b j th 0x44 sig1 x y z e →
    psum (vecFmt b.vec) ((List.range (fmtN (vecFmt b.vec))).map (fun i => if activeAt e b.vec i then some (vElem (vecFmt b.vec) x i) else none)) = (ps, fl) →
    Elements e b.vec (fun i => ((ps.getD i none).getD 0) % 2 ^ fmtBits (vecFmt b.vec)) v → writeV (raise e fl) (vecD b.vec) v = .ok e' →
    exec (.psum t b) s = .next (finishIssue e')) ∧
  (∀ (s : State) (t : Tid) (b : Bundle) (j : Job) (th : Thread) (x y z v : VReg) (e e' : Ev),
    writeV (raise e 0) (vecD b.vec) v = .ok e' →
    (VecIssues s t b j th 0x45 sig2 x y z e →
      Elements e b.vec (fun _ => vElem (vecFmt b.vec) x (vElem (vecFmt b.vec) y 0 % fmtN (vecFmt b.vec))) v → exec (.bcast t b) s = .next (finishIssue e')) ∧
    (VecIssues s t b j th 0x46 sig2 x y z e →
      Elements e b.vec (fun i => vElem (vecFmt b.vec) x (fld y (8 * i) 8 % fmtN (vecFmt b.vec))) v → exec (.perm t b) s = .next (finishIssue e')) ∧
    (VecIssues s t b j th 0x47 { sig1 with a := 0 } x y z e → 
      Elements e b.vec (fun i => if fmtInt (vecFmt b.vec) then i else (arith (vecFmt b.vec) (.fin false i 0)).1) v →
      exec (.iota t b) s = .next (finishIssue e')) ∧
    (VecIssues s t b j th 0x48 { sig1 with a := 0, usesMask := true } x y z e →
      ((List.range (fmtN (vecFmt b.vec))).filter (fun i => bit (tget th.m (vecMask b.vec) 0) i)).length < 2 ^ fmtBits (vecFmt b.vec) →
      Head (vecFmt b.vec) [((List.range (fmtN (vecFmt b.vec))).filter (fun i => bit (tget th.m (vecMask b.vec) 0) i)).length] v →
      exec (.mpopc t b) s = .next (finishIssue e')) ∧
    (∀ i, VecIssues s t b j th 0x49 { sig1 with a := 0, usesMask := true } x y z e → i < fmtN (vecFmt b.vec) →
      bit (tget th.m (vecMask b.vec) 0) i = true → (∀ k, k < i → bit (tget th.m (vecMask b.vec) 0) k = false) →
      Head (vecFmt b.vec) [i % 2 ^ fmtBits (vecFmt b.vec)] v → exec (.mfirst t b) s = .next (finishIssue e')) ∧
    (VecIssues s t b j th 0x49 { sig1 with a := 0, usesMask := true } x y z e →
      (∀ k, k < fmtN (vecFmt b.vec) → bit (tget th.m (vecMask b.vec) 0) k = false) →
      Head (vecFmt b.vec) [2 ^ fmtBits (vecFmt b.vec) - 1] v → exec (.mfirst t b) s = .next (finishIssue e'))) ∧
  (∀ (f : Nat) (xs : List (Option Nat)), f = 8 ∨ f = 10 → (∀ x ∈ xs, ∀ a, x = some a → a < 2 ^ fmtBits f) →
    (psum f xs).2 = fNone ∧ (psum f xs).1.length = xs.length ∧
    (∀ i a, xs.getD i none = some a → (psum f xs).1.getD i none = some (((xs.take (i + 1)).map (·.getD 0)).sum % 2 ^ fmtBits f)) ∧
    (∀ n : Nat, xs.length = 2 ^ n → rsum f (xs.map (·.getD 0)) = ((xs.map (·.getD 0)).sum % 2 ^ fmtBits f, fNone)))

/-- R121 to R127. Conversions, block scales, near-bank codes, random numbers and the flags. A conversion between formats of one width converts each
active element once, with the field's saturation; a stochastic one draws in ascending order; RDFLAGS reads the flags and CLRFLAGS clears them. -/
def Obligations.ConversionRows : Prop :=
  (∀ (s : State) (t : Tid) (b : Bundle) (j : Job) (th : Thread) (x y z v : VReg) (e e' : Ev), VecIssues s t b j th 0x60 sig1 x y z e →
    fmtN (vecFmt b.vec) = fmtN (vecFmtD b.vec) → vecRnd b.vec = 0 →
    Elements e b.vec (fun i => (convert (vecFmtD b.vec) (decodeF (vecFmt b.vec) (vElem (vecFmt b.vec) x i)) (vecSat b.vec) none).1) v →
    writeV (raise (putRng e th.rng) (condsOf e b.vec (fun i =>
      (convert (vecFmtD b.vec) (decodeF (vecFmt b.vec) (vElem (vecFmt b.vec) x i)) (vecSat b.vec) none).2))) (vecD b.vec) v = .ok e' → e.th0 = th →
    exec (.cvt t b) s = .next (finishIssue e')) ∧
  (∀ (s : State) (t : Tid) (b : Bundle) (j : Job) (th : Thread) (x y z v : VReg) (fl : Flg) (g : W32) (p : Nat) (e e' : Ev), p < 8 →
    writeV (raise (putRng e g) fl) (vecD b.vec) v = .ok e' →
    (VecIssues s t b j th (0x60 + p) sig1 x y z e →
      convResult e b.vec p x (fun q _ rnd => convert (vecFmtD b.vec) (decodeF (vecFmt b.vec) q) (vecSat b.vec) rnd) = (v, fl, g) →
      exec (.cvt t b) s = .next (finishIssue e')) ∧
    (VecIssues s t b j th (0x68 + p) { sig1 with c := true } x y z e →
      convResult e b.vec p x (fun q pos rnd =>
        if fmtScalable (vecFmtD b.vec) then toScaled (vecFmtD b.vec) (decodeF (vecFmt b.vec) q) (fld z (8 * (pos / 32)) 8) rnd
        else convert (vecFmtD b.vec) (scaledValue (vecFmt b.vec) (decodeF (vecFmt b.vec) q) (fld z (8 * (pos / 32)) 8)) (vecSat b.vec) rnd) = (v, fl, g) →
      exec (.cvtsc t b) s = .next (finishIssue e')) ∧
    (VecIssues s t b j th (0x80 + p) { sig1 with c := true } x y z e →
      convResult e b.vec p x (fun q pos rnd =>
        nbCode (vecFmtD b.vec == 1) (decodeF (vecFmt b.vec) q) (fld z (8 * (pos / 32)) 8) rnd) = (v, fl, g) →
      exec (.nbq t b) s = .next (finishIssue e'))) ∧
  (∀ (s : State) (t : Tid) (b : Bundle) (j : Job) (th : Thread) (x y z v : VReg) (p : Nat) (e e' : Ev), p < 8 →
    (VecIssues s t b j th (0x70 + p) sig1 x y z e →
      (∀ i, i < 256 → vElem 8 v i =
        if p * (fmtN (vecFmt b.vec) / 32) ≤ i ∧ i < p * (fmtN (vecFmt b.vec) / 32) + fmtN (vecFmt b.vec) / 32 then
          blockScale (vecFmtD b.vec) (blockValues e b.vec x (i - p * (fmtN (vecFmt b.vec) / 32)))
        else vElem 8 (oldV e (vecD b.vec)) i) →
      writeV (raise e 0) (vecD b.vec) v = .ok e' → exec (.bscale t b) s = .next (finishIssue e')) ∧
    (VecIssues s t b j th (0x78 + p) sig1 x y z e →
      (∀ i, i < 256 → vElem 8 v i =
        if p * (fmtN (vecFmt b.vec) / 32) ≤ i ∧ i < p * (fmtN (vecFmt b.vec) / 32) + fmtN (vecFmt b.vec) / 32 then
          (nbExp (vecFmtD b.vec == 1) (blockValues e b.vec x (i - p * (fmtN (vecFmt b.vec) / 32)))).1
        else vElem 8 (oldV e (vecD b.vec)) i) →
      writeV (raise e (orFlags ((List.range (fmtN (vecFmt b.vec) / 32)).map (fun k => (nbExp (vecFmtD b.vec == 1) (blockValues e b.vec x k)).2))))
        (vecD b.vec) v = .ok e' → exec (.nbx t b) s = .next (finishIssue e'))) ∧
  (∀ (s : State) (t : Tid) (b : Bundle) (j : Job) (th : Thread) (x y z v : VReg) (e e' : Ev), VecIssues s t b j th 0x90 { sig1 with a := 0 } x y z e →
    vecMaskEn b.vec = false → e.th0 = th →
    (∀ i, i < 64 → vElem 0 v i = (arith 0 (.fin false ((drawAt (i + 1) th.rng).toNat / 256) (-24))).1) →
    writeV (raise (putRng e (drawAt 64 th.rng)) 0) (vecD b.vec) v = .ok e' → exec (.rand t b) s = .next (finishIssue e')) ∧
  (∀ (s : State) (t : Tid) (b : Bundle) (j : Job) (th : Thread) (x y z v : VReg) (e e' : Ev), VecIssues s t b j th 0x91 { sig1 with a := 0 } x y z e →
    Head 10 [th.flags.toNat] v → e.th0 = th → writeV (raise e 0) (vecD b.vec) v = .ok e' → exec (.rdflags t b) s = .next (finishIssue e')) ∧
  (∀ (s : State) (t : Tid) (b : Bundle) (j : Job) (th : Thread) (x y z : VReg) (e : Ev),
    VecIssues s t b j th 0x92 { sig1 with d := 0, a := 0 } x y z e →
    Gives (.clrflags t b) s fun u => (getThread u t).flags = 0 ∧ (getThread u t).v = th.v ∧ u.mem = s.mem)

/-! ## Memory, semaphores, stacks, faults -/

namespace Sys2Proof.Claims
open Sys2Proof.Machine

/-- Operation `id` of a thread is outstanding as `o`. -/
def Outstanding (s : State) (id : Nat) (o : MemOp) : Prop := getOp s id = some o

/-- The semaphore an operation names. -/
def semNo (o : MemOp) : Nat := (offOf o.addr - 0x30000000000) / 8

/-- The bucket of the stack whose home slice holds the semaphore lets the operation's 8 bytes go (R143, R299). -/
def semLets (s : State) (o : MemOp) : Bool :=
  bucketOpen s o.part (semStack s (semNo o)) 8 (decide (stackInflight s (semStack s (semNo o)) < 2048))

/-- The state in which a semaphore operation's bytes are charged. -/
def semCharged (s : State) (o : MemOp) : State := bucketCharge s o.part (semStack s (semNo o)) 8

/-- No operation of the same core's earlier issue stands before semaphore operation `o` at its semaphore, its core is not saved, and it is not held by its
partition's bucket (R146, R299, R307). -/
def SemTurn (s : State) (o : MemOp) : Prop :=
  o.node = 0 ∧ o.todo ≠ [] ∧ o.short = false ∧ semLets s o = true ∧ (o.kind = .semWait → o.t.vcore ∉ s.cores.preempted) ∧
    ∀ p ∈ s.cores.ops, p.t.vcore = o.t.vcore → p.id < o.id → p.kind = .semSig ∨ p.kind = .semWait ∨ p.kind = .semTry → p.node = 0 →
      p.addr = o.addr → p.todo = []

/-- What a fault of a domain becomes while nothing is recovering or queued and the N8 serves. -/
def Quiet (s : State) : Prop := s.faults.running = [] ∧ s.faults.queued = [] ∧ s.faults.causes = [] ∧ serving s = true

end Sys2Proof.Claims

/-- R139, R154, R172. Device memory's canonical form (the model's representation): written bytes read back, others keep theirs, addresses rise strictly and no byte that reads as an unlisted one is listed (log entry 15, DESIGN CHOICE: an unwritten byte reads zero; log entry 42, DESIGN CHOICE: one of a discarded row set is a free value). A whole sector written at its home slice stands there valid, dirty and without poison, and is what the next read of it gives. -/
def Obligations.DeviceMemory : Prop :=
  (∀ (s : State) (k : Nat) (b : Byte), dramByte (setDramByte s k b) k = b) ∧
  (∀ (s : State) (k j : Nat) (b : Byte), j ≠ k → dramByte (setDramByte s k b) j = dramByte s j) ∧
  (∀ (s : State) (k : Nat) (b : Byte), Mem.wf s.mem = true → Mem.wf (setDramByte s k b).mem = true) ∧
  (∀ (m m' : Mem), Mem.wf m = true → Mem.wf m' = true → m.discarded = m'.discarded →
    (∀ k, (tfind m.discarded (keyRow k)).isSome = true → tfind m.dram k = tfind m'.dram k) →
    (∀ k, tget m.dram k 0 = tget m'.dram k 0) → m.dram = m'.dram) ∧
  (∀ (s t : State) (a : Nat) (new : List Byte) (rq : Rq) (st : W16), new.length = 32 → viewOf s (a / 32 * 32) = none →
    sliceWrite s a new (BitVec.allOnes 32) rq = (st, t) →
    st = stOk ∧ bit (getLine t (a / 64)).valid (a / 32 % 2) = true ∧ bit (getLine t (a / 64)).dirty (a / 32 % 2) = true ∧
      bit (getLine t (a / 64)).poison (a / 32 % 2) = false ∧ (sliceRead t a rq).1 = stOk ∧ (sliceRead t a rq).2.1 = new)

/-- Every step keeps the canonical form of device memory's cells, of their errors, and of host memory: keys rise strictly, and nothing is listed that reads
as an unlisted key does (the model's representation). -/
def Obligations.MemoryStaysCanonical : Prop :=
  ∀ s t : State, Mem.wf s.mem = true → twf (fun _ => 0) s.host.mem = true → step s = .next t →
    Mem.wf t.mem = true ∧ twf (fun _ => 0) t.host.mem = true

/-- R143 to R145, R150. A signal raises the semaphore, saturating with its mark, and records who signalled; the waiters are satisfied from the head of the list while the value covers the head: amounts taken and the value left are the value before, the order is kept, and the head that stays waits for more than is left. A thread's SEMSIG performed at its home slice: the semaphore takes the signal under the thread's name, and the operation is gone. -/
def Obligations.SemaphoreRules : Prop :=
  (∀ (v : Nat) (ws : List (Tid × W64)), ∃ k : Nat, k ≤ ws.length ∧ (satisfy v ws).2.1 = ws.drop k ∧ (satisfy v ws).2.2 = (ws.take k).map (·.1) ∧
    (satisfy v ws).1 + ((ws.take k).map (·.2.toNat)).sum = v ∧ ∀ w, (ws.drop k).head? = some w → (satisfy v ws).1 < w.2.toNat) ∧
  (∀ (s : State) (n : Nat) (a : W64) (src : SemSrc), (getSem s n).waiters = [] →
    (getSem (semSignal s n a src) n).value.toNat = min ((getSem s n).value.toNat + a.toNat) (2 ^ 64 - 1) ∧
    (getSem (semSignal s n a src) n).saturated = ((getSem s n).saturated || decide (2 ^ 64 ≤ (getSem s n).value.toNat + a.toNat)) ∧
    (getSem (semSignal s n a src) n).source = src.source ∧ (getSem (semSignal s n a src) n).tag = src.tag) ∧
  (∀ (s : State) (n m : Nat) (a : W64) (src : SemSrc), m ≠ n → (getSem s n).waiters = [] → getSem (semSignal s n a src) m = getSem s m) ∧
  (∀ (s : State) (n : Nat) (a : W64), (getSem s n).waiters = [] → a.toNat ≤ (getSem s n).value.toNat →
    (semTake s n a).1 = true ∧ (getSem (semTake s n a).2 n).value = (getSem s n).value - a) ∧
  (∀ (s : State) (n : Nat) (a : W64), (getSem s n).waiters ≠ [] ∨ (getSem s n).value.toNat < a.toNat → semTake s n a = (false, s)) ∧
  (∀ (s : State) (op : Nat) (o : MemOp), Outstanding s op o → SemTurn s o → o.kind = .semSig → o.parked = false → (getSem s (semNo o)).waiters = [] → rf s TRACE_CTRL 0 1 = 0 →
    Gives (.semaphoreOperation op) s fun u => getOp u op = none ∧
      (getSem u (semNo o)).value.toNat = min ((getSem s (semNo o)).value.toNat + fld o.data 0 64) (2 ^ 64 - 1) ∧
      (getSem u (semNo o)).source = 1 ∧ (getSem u (semNo o)).agent = o.origin.vcore ∧ (getSem u (semNo o)).sthread = o.origin.thread ∧
      (∀ m, m ≠ semNo o → getSem u m = getSem s m) ∧ u.mem = s.mem)

namespace Sys2Proof.Claims
open Sys2Proof.Machine

/-- Granule `g` of operation `op` = `o` may try its home slice: it is a memory access of this node with the granule still to do, not waiting at its
requester, nothing of its core stands before it, no DRAM operation is queued for it, no fill of its sector where it needs none itself, and its slice has room (R137, R139,
R160, R180, R299). -/
def AtSlice (s : State) (op g : Nat) (o : MemOp) : Prop :=
  Outstanding s op o ∧ g ∈ o.todo ∧ o.node = 0 ∧ o.done = false ∧ o.short = false ∧
    ((∃ n sg v nc, o.kind = .load n sg v nc) ∨ (∃ n, o.kind = .store n) ∨ (∃ k ty, o.kind = .amo k ty)) ∧ behind s o (o.sector g) = false ∧
    (∀ d ∈ (getEngine s ((fillPlace s (o.sector g)).1 / 32)).inflight ++ (getEngine s ((fillPlace s (o.sector g)).1 / 32)).sliceQ, d.op ≠ op ∧
      (servedAtSlice s o g = true → d.write = false → d.addr / 32 ≠ o.sector g / 32)) ∧ allocBlocked s (o.sector g) = false

/-- The stack bucket lets the granule go (R299). -/
def bucketLets (s : State) (o : MemOp) (g : Nat) : Bool :=
  bucketOpen s o.part (homeSlice s (o.sector g) / 64) (granuleBytes o g) (decide (stackInflight s (homeSlice s (o.sector g) / 64) < 2048))

/-- The urgency that the share of its port's target which has passed gives an operation (R163). -/
def shareUrgency (s : State) (pc : Nat) (d : DOp) : Nat :=
  let target := rf s (STK_QOS_TGT (pc / 64) d.port) 0 16
  let age := mono s - d.arrived
  if target ≤ age then 3 else if 3 * target ≤ 4 * age then 2 else if target ≤ 2 * age then 1 else 0

/-- What a completed operation gives its destination (R86, R88): zero on an error; a load's value extended, or its vector; an AMO's old value. -/
def landed (o : MemOp) : VReg :=
  if o.status ≠ 0 then 0 else match o.kind with
    | .load n signed false _ => (loadValue n signed o.res).setWidth 2048
    | .amo _ 1 => (loadValue 8 false o.res).setWidth 2048
    | .amo _ 0 => (loadValue 4 false o.res).setWidth 2048
    | .amo _ 2 => (loadValue 4 false o.res).setWidth 2048
    | .amo _ _ => (loadValue 2 false o.res).setWidth 2048
    | _ => o.res

end Sys2Proof.Claims

/-- R86, R88, R139, R144 to R147, R154, R160, R299, R307. An operation's granule is performed at its home slice when its sector is there, its partition's bucket
open and nothing of its core stands before it, is queued for its engine where it needs DRAM, and waits at its requester where the bucket is short; a finished one lands in its destination, or is parked;
semaphore operations are performed in their turn; a core all of whose threads wait is gated. -/
def Obligations.OperationRows : Prop :=
  (∀ (s : State) (op g : Nat) (o : MemOp), AtSlice s op g o → bucketLets s o g = true → servedAtSlice s o g = true →
    exec (.homeSliceAccess op g) s = .next (settleEnd (performGranule
      (bucketCharge s o.part (homeSlice s (o.sector g) / 64) (granuleBytes o g)) o g) o.t)) ∧
  (∀ (s : State) (op g bank row : Nat) (o : MemOp) (e : Engine), AtSlice s op g o → bucketLets s o g = true → servedAtSlice s o g = false →
    fillPlace s (o.sector g) = (bank, row) → getEngine s (bank / 32) = e → e.load < 128 ∨ e.sliceQ.length < 64 →
    Gives (.homeSliceAccess op g) s fun u => getOp u op = some o ∧ u.mem.dram = s.mem.dram ∧ u.mem.lines = s.mem.lines ∧
      ∃ d : DOp, d.op = op ∧ d.gran = g ∧ d.addr = o.sector g ∧ d.bank = bank ∧ d.row = row ∧ d.write = false ∧ d.urgency = 0 ∧ d.arrived = mono s ∧
        ((getEngine u (bank / 32)).inflight, (getEngine u (bank / 32)).sliceQ) =
          (if e.load < 128 then (e.inflight ++ [d], e.sliceQ) else (e.inflight, e.sliceQ ++ [d]))) ∧
  (∀ (s : State) (op g : Nat) (o : MemOp), AtSlice s op g o → servedAtSlice s o g = false →
    128 ≤ (getEngine s ((fillPlace s (o.sector g)).1 / 32)).load → 64 ≤ (getEngine s ((fillPlace s (o.sector g)).1 / 32)).sliceQ.length →
    exec (.homeSliceAccess op g) s = .next s) ∧
  (∀ (s : State) (op g : Nat) (o : MemOp), AtSlice s op g o → bucketLets s o g = false →
    (servedAtSlice s o g = true ∨ (getEngine s ((fillPlace s (o.sector g)).1 / 32)).load < 128 ∨
      (getEngine s ((fillPlace s (o.sector g)).1 / 32)).sliceQ.length < 64) →
    exec (.homeSliceAccess op g) s = .next (modOp s op (fun o => { o with short := true }))) ∧
  (∀ (s : State) (op g : Nat) (o : MemOp), Outstanding s op o → o.done = true ∨ g ∉ o.todo ∨ o.short = true ∨ behind s o (o.sector g) = true ∨
      allocBlocked s (o.sector g) = true ∨ (servedAtSlice s o g = true ∧
        ∃ d ∈ (getEngine s ((fillPlace s (o.sector g)).1 / 32)).inflight ++ (getEngine s ((fillPlace s (o.sector g)).1 / 32)).sliceQ,
          d.write = false ∧ d.addr / 32 = o.sector g / 32) →
    exec (.homeSliceAccess op g) s = .next s) ∧
  (∀ (s : State) (op : Nat) (o : MemOp), Outstanding s op o → s.fab.flows = [] → o.kind ≠ .semSig → o.kind ≠ .semWait → o.kind ≠ .semTry →
    (o.short = true → (∃ g ∈ o.todo, bucketLets s o g = true) → exec (.bucketWaitEnd op) s = .next (modOp s op (fun o => { o with short := false }))) ∧
    (o.short = false ∨ (∀ g ∈ o.todo, bucketLets s o g = false) → exec (.bucketWaitEnd op) s = .next s)) ∧
  (∀ (s : State) (op : Nat) (o : MemOp), Outstanding s op o → s.fab.flows = [] → o.kind = .semSig ∨ o.kind = .semWait ∨ o.kind = .semTry →
    exec (.bucketWaitEnd op) s = .next (if o.short = true ∧ semLets s o = true then modOp s op (fun o => { o with short := false }) else s)) ∧
  (∀ (s : State) (op : Nat) (o : MemOp), Outstanding s op o → o.done = true → o.parked = true →
    exec (.memoryResponse op) s = .next (if op ∈ s.cores.parkOrder then s else park s o)) ∧
  (∀ (s : State) (o : MemOp), (park s o).cores = { s.cores with parkOrder := s.cores.parkOrder ++ [o.id] } ∧ (park s o).sems = s.sems) ∧
  (∀ (s : State) (op : Nat) (o : MemOp), Outstanding s op o → o.done = false → exec (.memoryResponse op) s = .next s) ∧
  (∀ (s : State) (op : Nat) (o : MemOp), Outstanding s op o → o.done = true → o.parked = false → jobAt s o.t.vcore = none →
    exec (.memoryResponse op) s = .next (removeOp s op)) ∧
  (∀ (s : State) (op : Nat) (o : MemOp) (j : Job), Outstanding s op o → o.done = true → o.parked = false → jobAt s o.t.vcore = some j →
    Gives (.memoryResponse op) s fun u => u.mem = s.mem ∧ u.sems = s.sems ∧ getOp u op = none ∧
      (getThread u o.t).memerr = (if (getThread s o.t).memerr = 0 then o.status else (getThread s o.t).memerr) ∧
      (∀ d, o.dest = .sreg d → 0 < d → sReg u o.t d = (landed o).setWidth 64) ∧
      (∀ d, o.dest = .vreg d → tget (getThread u o.t).v d 0 = landed o) ∧
      (∀ q, o.dest = .queue q → getQ u j o.t q =
        (getQ s j o.t q).map (fun x => if x.pending = some op then { data := landed o, pending := none } else x)) ∧
      (o.dest = .none → (getThread u o.t).s = (getThread s o.t).s ∧ (getThread u o.t).v = (getThread s o.t).v)) ∧
  (∀ (s : State) (op : Nat) (o : MemOp), Outstanding s op o → SemTurn s o → o.kind = .semTry →
    Gives (.semaphoreOperation op) s fun u => u.sems = (semTake s (semNo o) (o.data.setWidth 64)).2.sems ∧
      ∃ p, getOp u op = some p ∧ p.done = true ∧ p.todo = [] ∧ p.res = if (semTake s (semNo o) (o.data.setWidth 64)).1 then 1 else 0) ∧
  (∀ (s : State) (op : Nat) (o : MemOp), Outstanding s op o → SemTurn s o → o.kind = .semWait →
    exec (.semaphoreOperation op) s = .next (semWaitOp (modOp (semCharged s o) op (fun o => { o with todo := [] })) (semNo o) (o.data.setWidth 64) o.t o.tag)) ∧
  (∀ (s : State) (v : Nat) (j : Job), jobAt s v = some j → v ∉ s.cores.gated →
    (∀ k, k < j.threads → (∃ n a, (getThread s { vcore := v, thread := k }).run = .semWait n a) ∨ (getThread s { vcore := v, thread := k }).run = .ended) →
    (∃ k, k < j.threads ∧ ∃ n a, (getThread s { vcore := v, thread := k }).run = .semWait n a) →
    exec (.clockGate v) s = .next { s with cores := { s.cores with gated := s.cores.gated ++ [v] } }) ∧
  (∀ (s : State) (v : Nat), (jobAt s v = none ∨ v ∈ s.cores.gated ∨ ∃ j k, jobAt s v = some j ∧ k < j.threads ∧
      (getThread s { vcore := v, thread := k }).run ≠ .ended ∧ ∀ n a, (getThread s { vcore := v, thread := k }).run ≠ .semWait n a) →
    exec (.clockGate v) s = .next s)

/-- R160 to R164, R202. The engines. The operation an engine completes is the first of R164's order among those that may be served; the write buffer drains at
three-quarters full, or when no read can be served; urgency only rises, by the share of the target that has passed; a held operation of a bank under a
blast is performed at a micro-step boundary, four at most, and what a slot leaves is due at the next. -/
def Obligations.EngineRows : Prop :=
  (∀ (s : State) (pc : Nat) (d : DOp), chooseDop s pc = some d →
    d ∈ (getEngine s pc).inflight ∧ dopReady s pc d = true ∧
    exec (.memoryOperationComplete pc) s = .next (match getOp s d.op with | some o => settleEnd (completeDop s pc d) o.t | none => completeDop s pc d)) ∧
  (∀ (s : State) (pc : Nat) (d : DOp), chooseDop s pc = some d → ∀ x ∈ (getEngine s pc).inflight, dopReady s pc x = true →
    (x.released = true → d.released = true ∧ d.arrived ≤ x.arrived) ∧
    (d.released = false → x.urgency ≤ d.urgency ∧
      (x.urgency = d.urgency → (x.critical = true → d.critical = true ∨ d.urgency = 3) ∧
        (((x.critical = true ∨ x.urgency = 3) ↔ (d.critical = true ∨ d.urgency = 3)) →
          (tget (getEngine s pc).openRow x.bank 0 = x.row + 1 → tget (getEngine s pc).openRow d.bank 0 = d.row + 1) ∧
          (decide (tget (getEngine s pc).openRow x.bank 0 = x.row + 1) = decide (tget (getEngine s pc).openRow d.bank 0 = d.row + 1) →
            d.arrived ≤ x.arrived))))) ∧
  (∀ (s : State) (pc : Nat), (getEngine s pc).wbuf ≠ [] → pcHeld s pc = false → 48 ≤ (getEngine s pc).wbuf.length ∨ chooseDop s pc = none →
    exec (.writeBufferDrain pc) s = .next (drainWrites s pc)) ∧
  (∀ (s : State) (pc : Nat), pcHeld s pc = true → exec (.writeBufferDrain pc) s = .next s) ∧
  (∀ (s : State) (pc dop : Nat) (up : DOp → DOp),
    (∀ d, up d = if d.id = dop then { d with urgency := max d.urgency (shareUrgency s pc d) } else d) →
    Gives (.urgencyRise pc dop) s fun u => (getEngine u pc).inflight = (getEngine s pc).inflight.map up ∧
      (getEngine u pc).sliceQ = (getEngine s pc).sliceQ.map up ∧ (∀ k, k ≠ pc → getEngine u k = getEngine s k)) ∧
  (∀ (s u : State) (bank : Nat) (d : DOp) (ds : List DOp), (getEngine s (bank / 32)).inflight.filter (fun d => d.bank == bank) = d :: ds →
    bankBusy s bank = true → pcHeld s (bank / 32) = false →
    d.slotted = true ∨ d.arrived + (rf s (STK_NB_YIELD (bank / 2048)) 0 16 - 250) ≤ mono s →
    u = ((d :: ds).take 4).foldl (fun s d => completeDop s (bank / 32) d) s →
    exec (.yieldSlot bank) s = .next (setEngine u (bank / 32) { getEngine u (bank / 32) with
      inflight := (getEngine u (bank / 32)).inflight.map (fun d => if d.bank = bank then { d with slotted := true } else d) })) ∧
  (∀ (s : State) (bank : Nat), (bankBusy s bank = false ∨ pcHeld s (bank / 32) = true ∨
      (getEngine s (bank / 32)).inflight.filter (fun d => d.bank == bank) = []) → exec (.yieldSlot bank) s = .next s)

/-- R166 to R168, R174 to R180, R222. The stack controllers' events. -/
def Obligations.StackRows : Prop :=
  (∀ (s : State) (bank : Nat), bank < bankCount s → rf s (STK_STATUS (bank / 2048)) 2 1 = 0 → pcHeld s (bank / 32) = false →
    (tget (getEngine s (bank / 32)).postponed bank 0 < 8 → Gives (.refresh bank false) s fun u =>
      tget (getEngine u (bank / 32)).postponed bank 0 = tget (getEngine s (bank / 32)).postponed bank 0 + 1) ∧
    (tget (getEngine s (bank / 32)).postponed bank 0 = 8 → Gives (.refresh bank false) s fun u =>
      tget (getEngine u (bank / 32)).postponed bank 0 = 8 ∧ tget (getEngine u (bank / 32)).openRow bank 0 = 0) ∧
    (0 < tget (getEngine s (bank / 32)).postponed bank 0 → Gives (.refresh bank true) s fun u =>
      tget (getEngine u (bank / 32)).postponed bank 0 + 1 = tget (getEngine s (bank / 32)).postponed bank 0 ∧
      tget (getEngine u (bank / 32)).openRow bank 0 = 0)) ∧
  (∀ (s : State) (sid : Nat), sid < 256 * stackCount s → sidIdle s sid = true → rf s (STK_POWER (sid / 256)) 16 1 = 1 → sid ∉ s.mem.powerDown →
    exec (.powerDown sid) s = .next { s with mem := { s.mem with powerDown := s.mem.powerDown ++ [sid] } }) ∧
  (∀ (s : State) (k : Nat), k < stackCount s → rf s (STK_POWER k) 17 1 = 1 → (∀ i, i < 256 → sidIdle s (256 * k + i) = true) →
    (∀ h ∈ s.mem.held, h.1 / 64 ≠ k) → Gives (.selfRefresh k) s fun u => rf u (STK_STATUS k) 2 1 = 1 ∧ u.mem = s.mem) ∧
  (∀ (s : State) (k : Nat), k < stackCount s → serving s = true → pcHeld s ((k * 3221225472 + tget s.mem.scrubPos k 0) / 64 / 24576 / 32) = false →
    tget s.mem.ecc (k * 3221225472 + tget s.mem.scrubPos k 0) SecErr.none = SecErr.none →
    Gives (.patrolScrub k) s fun u => tget u.mem.scrubPos k 0 = (tget s.mem.scrubPos k 0 + 1) % 3221225472 ∧ u.mem.dram = s.mem.dram ∧ u.faults = s.faults) ∧
  (∀ (s : State) (k : Nat), pcHeld s ((k * 3221225472 + tget s.mem.scrubPos k 0) / 64 / 24576 / 32) = true → exec (.patrolScrub k) s = .next s) ∧
  (∀ (s : State) (bank row : Nat), bank * 24576 + row ∈ s.mem.repairDue → row < 24576 → pcHeld s (bank / 32) = false → (tget s.mem.remaps bank []).length < 32 →
    Gives (.rowRepair bank row) s fun u => tget u.mem.remaps bank [] = tget s.mem.remaps bank [] ++ [row] ∧ bank * 24576 + row ∉ u.mem.repairDue ∧
      u.flash = { s.flash with writing := s.flash.writing ++ [.remap bank row] }) ∧
  (∀ (s : State) (bank row : Nat), bank * 24576 + row ∈ s.mem.repairDue → row < 24576 → pcHeld s (bank / 32) = false → 32 ≤ (tget s.mem.remaps bank []).length →
    Gives (.rowRepair bank row) s fun u => row ∈ u.mem.noAlloc ∧ rf u (STK_STATUS (bank / 2048)) 6 1 = 1 ∧ u.mem.remaps = s.mem.remaps) ∧
  (∀ (s : State) (k ch c : Nat), c = 32 * k + ch → k < stackCount s → ch < 32 → serving s = true → rf s (STK_RETRAIN_CFG k) 0 16 ≠ 0 →
    retrainDue s c ≤ mono s → pcHeld s (2 * c) = false → pcHeld s (2 * c + 1) = false →
    ((∀ r ∈ s.se.steps, inStages s r.1 r.2 = false) ∧ (∀ p, p < 16 → partDefined s p = true → startSoon s p = false) ∨
      retrainDue s c + 2000000000 ≤ mono s ∧ s.se.boundaryAt = some (mono s)) →
    Gives (.periodicRetrain k ch) s fun u => pcHeld u (2 * c) = true ∧ pcHeld u (2 * c + 1) = true ∧ rf u (STK_STATUS k) 3 1 = 1 ∧
      tget u.mem.trainedAt c 0 = mono s ∧ u.mem.dram = s.mem.dram) ∧
  (∀ (s : State) (k ch c : Nat), c = 32 * k + ch → (mono s < retrainDue s c ∨ (retrainDue s c + 2000000000 > mono s ∨ s.se.boundaryAt ≠ some (mono s)) ∧
      ((∃ r ∈ s.se.steps, inStages s r.1 r.2 = true) ∨ ∃ p, p < 16 ∧ partDefined s p = true ∧ startSoon s p = true)) →
    exec (.periodicRetrain k ch) s = .next s) ∧
  (∀ (s : State) (pc : Nat) (cause : RetrainCause) (whole : Bool), pc < 64 * stackCount s → Quiet s →
    Gives (.urgentRetrain pc cause whole) s fun u => pcHeld u pc = true ∧ tget u.faults.running 2 0 = pc + 1) ∧
  (∀ (s : State) (pc : Nat), s.mem.held = [(pc, 1)] → s.fab.flows = [] → tfind s.faults.running 2 = none →
    Gives (.retrainEnd pc true) s fun u => u.mem.held = [] ∧ u.mem.dram = s.mem.dram)

/-- R359, R363 to R366. Faults. While nothing recovers, a fault is logged under its class and its domain's recovery starts; correctable errors of a core count to
the threshold; a hung thread or wait is found by the watchdogs. -/
def Obligations.FaultRows : Prop :=
  (∀ (s : State) (cluster core v : Nat), Quiet s → cluster < 64 → core < 68 → coreLive s (68 * cluster + core) = true →
    servedBy s (68 * cluster + core) = some v → watchdogRuns s v = true → 8 * watchdogNs s ≤ tget s.cores.watch v 0 →
    Gives (.coreWatchdog cluster core none) s fun u => 68 * cluster + core ∈ u.cores.fenced ∧ u.flash = { s.flash with writing := s.flash.writing ++ [.fence (68 * cluster + core)] }) ∧
  (∀ (s : State) (cluster core : Nat), cluster < 64 → core < 68 → coreLive s (68 * cluster + core) = true → rf s CF_CFG 0 8 = 0 →
    Gives (.coreSramError cluster core 3 false) s fun u => (tget u.cores.ce (68 * cluster + core) []).length =
      ((tget s.cores.ce (68 * cluster + core) []).filter (fun t => decide (mono s < t + 86400000000000))).length + 1 ∧ u.mem = s.mem) ∧
  (∀ (s : State) (cluster : Nat) (failed : List Nat), cluster < 64 → Quiet s →
    Gives (.clusterFault cluster true failed) s fun u => tget u.faults.running 1 0 = cluster + 1) ∧
  (∀ (s : State) (k : Nat) (training : Bool), k < stackCount s → Quiet s →
    Gives (.stackFault k training) s fun u => tget u.faults.running 3 0 = k + 1 ∧ storedState u = 5 ∧ ∀ i, i < 64 → pcHeld u (64 * k + i) = true) ∧
  (∀ (s : State) (p : Nat), p < ports s ∨ p = 4 → Quiet s →
    Gives (.portFault p) s fun u => tget u.faults.running 4 0 = p + 1 ∧ rf u (FAB_PORT_LINK p) 2 8 = 0) ∧
  (∀ (s : State) (code : W32), Quiet s → twinState s ≠ 2 →
    Gives (.deviceFault code) s fun u => tget u.faults.running 5 0 = 1 ∧ storedState u = 5 ∧ u.host.fetchStopped = true)

/-- R362 to R365. A recovery that ends frees its kind and starts the next of its queue; one that outlives its bound is a fault of the parent, a port is out of service
and degrades the N8, and a device recovery that fails leaves it FAILED. -/
def Obligations.RecoveryRows : Prop :=
  (∀ (s : State) (p : Nat), tfind s.faults.running 4 = some (p + 1) → tget s.faults.queued 4 [] = [] →
    Gives (.recoveryEnd 4) s fun u => tfind u.faults.running 4 = none ∧ rf u (FAB_PORT_LINK p) 10 1 = 1 ∧ u.sems = s.sems) ∧
  (∀ s : State, tfind s.faults.running 5 = some 1 →
    Gives (.recoveryEnd 5) s fun u => storedState u = 1 ∧ rf u GLOBAL_RESET 0 2 = 3 ∧ u.host.cmds = []) ∧
  (∀ (s : State) (p : Nat), tfind s.faults.running 4 = some (p + 1) → tget s.faults.queued 4 [] = [] →
    tget s.faults.since 4 0 + recoveryBound 4 ≤ mono s →
    Gives (.recoveryTimeout 4) s fun u => p ∈ u.faults.portsOut ∧ tfind u.faults.running 4 = none) ∧
  (∀ s : State, tfind s.faults.running 5 = some 1 → tget s.faults.since 5 0 + recoveryBound 5 ≤ mono s →
    Gives (.recoveryTimeout 5) s fun u => storedState u = 7 ∧ u.faults.running = [] ∧ u.faults.queued = []) ∧
  (∀ (s : State) (k : Nat), tfind s.faults.running k = none → exec (.recoveryEnd k) s = .next s ∧ exec (.recoveryTimeout k) s = .next s) ∧
  (∀ s : State, ∀ d : Dom, d.1 = 5 → (tfind s.faults.running 5).isSome = true → serving s = true → devState s ≠ 7 →
    storedState (fault s d 0x32) = 7)

/-! ## Registers -/

namespace Sys2Proof.Claims
open Sys2Proof.Machine

/-- The register at `off` can be reached: it exists, is present, and no gate or device state hides it (R413, R435, R440). -/
def Reach (s : State) (a : Accessor) (off : Nat) : Prop :=
  a ≠ .sideband ∧ reaches s a = true ∧ regExists off = true ∧ gateClosed s off = false ∧ answers s off = true ∧ regAbsent s off = false ∧ inRing off = false ∧
    inWindow off = false ∧ off % 4 = 0

/-- A register's row at its own offset. -/
def RowAt (off : Nat) (r : RegRow) (high : Bool) : Prop := ∃ b i, regAt (canonOff off) = some (r, b, i, high)

end Sys2Proof.Claims

/-- R357, R436, R437. A read of a 64-bit register's low word latches the high word for the accessor, and a read of the high word returns the latched value and releases it; with none latched it returns the register's present high word. A read of TIME_NOW_FRAC returns the fraction and latches the counter: TIME_NOW_NS and TIME_NOW_SEC then hold its nanoseconds and seconds. -/
def Obligations.WideReads : Prop :=
  (∀ (s : State) (a : Accessor) (off : Nat) (r : RegRow), Reach s a off → RowAt off r false → canonOff off = off → off ≠ TIME_NOW_FRAC → r.wide = true →
    Gives (.lowWordRead a off) s fun u => u.bar.rdata = BitVec.ofNat 32 (regValue s r off) ∧
      (∃ l ∈ u.bar.latch, l = (a, off, BitVec.ofNat 32 (regValue s r off / 2 ^ 32))) ∧ u.bar.regs = s.bar.regs ∧ u.bar.regs64 = s.bar.regs64 ∧ u.mem = s.mem) ∧
  (∀ (s : State) (a : Accessor) (off : Nat) (r : RegRow), Reach s a off → RowAt off r false → canonOff off = off → off ≠ TIME_NOW_FRAC → r.wide = false →
    Gives (.lowWordRead a off) s fun u => u.bar.rdata = BitVec.ofNat 32 (regValue s r off) ∧ u.bar.regs = s.bar.regs ∧ u.bar.latch = s.bar.latch ∧ u.mem = s.mem) ∧
  (∀ (s : State) (a : Accessor) (off : Nat) (r : RegRow) (v : W32), Reach s a off → RowAt off r true → canonOff off = off →
    s.bar.latch.find? (fun l => decide (l.1 = a) && l.2.1 == off - 4) = some (a, off - 4, v) →
    Gives (.highWordRead a off) s fun u => u.bar.rdata = v ∧ (∀ l ∈ u.bar.latch, ¬(l.1 = a ∧ l.2.1 = off - 4)) ∧ u.bar.regs = s.bar.regs ∧ u.mem = s.mem) ∧
  (∀ (s : State) (a : Accessor) (off : Nat) (r : RegRow), Reach s a off → RowAt off r true → canonOff off = off →
    s.bar.latch.find? (fun l => decide (l.1 = a) && l.2.1 == off - 4) = none →
    Gives (.highWordRead a off) s fun u => u.bar.rdata = BitVec.ofNat 32 (regValue s r (off - 4) / 2 ^ 32) ∧ u.bar.regs = s.bar.regs ∧ u.mem = s.mem) ∧
  (∀ (s : State) (a : Accessor), reaches s a = true → answers s TIME_NOW_FRAC = true → s.time.ns < 2 ^ 32 →
    Gives (.timeNowFrac a) s fun u => u.bar.rdata = s.time.frac.setWidth 32 ∧ (rd u TIME_NOW_NS).toNat = s.time.ns ∧
      rd64 u TIME_NOW_SEC = s.time.sec.setWidth 64 ∧ u.time = s.time)

/-- R413, R436, R438 to R440, R442, R443. A write of a whole 32-bit word: the RW fields take it, within their bounds, the W1C fields clear where it has a 1, the others stay. A 64-bit register changes when its high word is written. A write of part of a word changes nothing. A gated register whose debug level is closed does nothing but set GLOBAL_ACCESS's DEBUG_LOCKED bit; it reads as zero. -/
def Obligations.RegisterWrites : Prop :=
  (∀ (s : State) (a : Accessor) (w : W32), a ≠ .sideband → reaches s a = true → devState s = 2 →
    Gives (.registerWrite a PWR_BUDGET_CAP 0xF w) s fun u => rf u PWR_BUDGET_CAP 0 12 = max 1200 (min 2600 (fld w 0 12)) ∧
      rf u PWR_BUDGET_CAP 12 20 = rf s PWR_BUDGET_CAP 12 20 ∧ (∀ o, o ≠ PWR_BUDGET_CAP → rd u o = rd s o) ∧ u.mem = s.mem) ∧
  (∀ (s : State) (a : Accessor) (w : W32), a ≠ .sideband → reaches s a = true → devState s = 2 →
    Gives (.registerWrite a PWR_STATUS 0xF w) s fun u => rf u PWR_STATUS 3 1 = (if bit w 3 then 0 else rf s PWR_STATUS 3 1) ∧
      rf u PWR_STATUS 0 3 = rf s PWR_STATUS 0 3 ∧ rf u PWR_STATUS 4 28 = rf s PWR_STATUS 4 28 ∧ ∀ o, o ≠ PWR_STATUS → rd u o = rd s o) ∧
  (∀ (s : State) (a : Accessor) (off : Nat) (r : RegRow) (w : W32), Reach s a off → RowAt off r false → canonOff off = off → r.wide = true → r.rw ≠ 0 →
    Gives (.registerWrite a off 0xF w) s fun u => tfind u.bar.pendLow off = some w ∧ u.bar.regs64 = s.bar.regs64 ∧ u.bar.regs = s.bar.regs ∧ u.mem = s.mem) ∧
  (∀ (s : State) (a : Accessor) (off : Nat) (r : RegRow) (w lo : W32), Reach s a off → RowAt off r true → canonOff off = off → r.wide = true → r.rw ≠ 0 →
    tfind s.bar.pendLow (off - 4) = some lo →
    Gives (.registerWrite a off 0xF w) s fun u => rd64 u (off - 4) = w ++ lo ∧ tfind u.bar.pendLow (off - 4) = none ∧ u.bar.regs = s.bar.regs ∧ u.mem = s.mem) ∧
  (∀ (s : State) (a : Accessor) (off : Nat) (be : BitVec 4) (w : W32), a ≠ .sideband → reaches s a = true → be ≠ 0 → be ≠ 0xF ∨ off % 4 ≠ 0 →
    regExists (off / 4 * 4) = true → answers s GLOBAL_ACCESS = true →
    Gives (.registerWrite a off be w) s fun u => rf u GLOBAL_ACCESS 0 1 = 1 ∧
      (rf s GLOBAL_ACCESS 0 3 = 0 → (rd u GLOBAL_ACCESS_ADDR).toNat = off / 4 * 4 % 2 ^ 26) ∧ u.mem = s.mem ∧ u.bar.regs64 = s.bar.regs64) ∧
  (∀ (s : State) (w : W32), s.host.linkUp = false → exec (.registerWrite .host 0 0xF w) s = .next s ∧ exec (.stop .host) s = .next s) ∧
  (∀ (s : State) (a : Accessor) (w : W32), reaches s a = true → levelOpen s 0 = false →
    (∀ c, c = Instr.traceSemSel a w ∨ c = Instr.stop a → Gives c s fun u => rf u GLOBAL_ACCESS 2 1 = 1 ∧ u.trace = s.trace ∧
      rd u TRACE_CTRL = rd s TRACE_CTRL ∧ u.mem = s.mem)) ∧
  (∀ (s : State) (a : Accessor) (w : W32), reaches s a = true → levelOpen s 1 = false → bit w 4 = true →
    Gives (.arm a w) s fun u => rf u GLOBAL_ACCESS 2 1 = 1 ∧ u.trace = s.trace) ∧
  (∀ (s : State) (a : Accessor), a ≠ .sideband → reaches s a = true → levelOpen s 0 = false →
    Gives (.lowWordRead a TRACE_CTRL) s fun u => u.bar.rdata = 0 ∧ rf u GLOBAL_ACCESS 2 1 = 1)

/-- R150, R393, R395, R400, R448, R449. The registers whose write is a command. -/
def Obligations.CommandRegisters : Prop :=
  (∀ (s : State) (a : Accessor) (w : W32), reaches s a = true → devState s = 2 ∨ devState s = 3 → levelOpen s 0 = true →
    Gives (.traceSemSel a w) s fun u => rd64 u TRACE_SEM_VALUE = (getSem s (fld w 0 16)).value ∧ rf u TRACE_SEM_STATUS 16 1 = 1 ∧
      rf u TRACE_SEM_STATUS 17 1 = b2n (getSem s (fld w 0 16)).saturated ∧ rf u TRACE_SEM_STATUS 0 16 = (getSem s (fld w 0 16)).waiters.length % 2 ^ 16 ∧
      rd u TRACE_SEM_LAST_TAG = (getSem s (fld w 0 16)).tag ∧ rd64 u TRACE_SEM_LAST_TIME = (getSem s (fld w 0 16)).time ∧
      u.trace.waiters = (getSem s (fld w 0 16)).waiters ∧ u.sems = s.sems) ∧
  (∀ (s : State) (a : Accessor) (w : W32) (x : BitVec 2048), reaches s a = true → devState s = 2 ∨ devState s = 3 →
    s.flash.history.reverse[fld w 0 12]? = some x →
    Gives (.pwrHistSel a w) s fun u => rf u PWR_HIST_SEL 12 1 = 1 ∧ rf u PWR_HIST_SEL 0 12 = fld w 0 12 ∧
      ∀ k, k < 64 → (rd u (PWR_HIST k)).toNat = fld x (32 * k) 32) ∧
  (∀ (s : State) (a : Accessor), reaches s a = true → devState s = 2 ∨ devState s = 3 → levelOpen s 0 = true →
    Gives (.stop a) s fun u => rf u TRACE_CTRL 0 1 = 0 ∧ (∀ o, o ≠ TRACE_CTRL → rd u o = rd s o) ∧ u.mem = s.mem) ∧
  (∀ (s : State) (a : Accessor) (w : W32), reaches s a = true → devState s = 2 ∨ devState s = 3 → levelOpen s 1 = true → bit w 4 = true →
    rf s TRACE_INJ_CTRL 5 1 = 0 → targetOk s (fld w 0 4) (rd64 s TRACE_INJ_TARGET) = true →
    Gives (.arm a w) s fun u => rf u TRACE_INJ_CTRL 5 1 = 1 ∧ u.trace.armKind = fld w 0 4 ∧ u.trace.armTarget = rd64 s TRACE_INJ_TARGET) ∧
  (∀ (s : State) (a : Accessor) (w : W32), reaches s a = true → devState s = 2 ∨ devState s = 3 → bit w 8 = true → rf s PWR_STATUS 5 1 = 0 →
    Gives (.run a w) s fun u => rf u PWR_STATUS 5 1 = 1 ∧ u.pwr.assayStart = some (mono s)) ∧
  (∀ s : State, rf s TRACE_INJ_CTRL 5 1 = 1 → s.trace.armKind = 3 →
    Gives .injectionFire s fun u => rf u TRACE_INJ_CTRL 5 1 = 0 ∧ rf u TRACE_INJ_CTRL 6 1 = 1 ∧ u.trace.firedKind = 3 ∧
      u.trace.sram = (16384 * fld s.trace.armTarget 0 13 + fld s.trace.armTarget 16 14, false) :: s.trace.sram) ∧
  (∀ s : State, rf s TRACE_INJ_CTRL 5 1 = 0 → exec .injectionFire s = .next s)

/-- R1, R426, R434, R442. What the registers hold right after reset, for the values the spec states: the state BOOT, its phase 1, access bits clear, the caps of the power loop, the default depth of the admin queue; the fuses and the factory's flash are as manufacture left them; and memory has its canonical form. -/
def Obligations.ResetState : Prop :=
  storedState State.reset = 1 ∧ rf State.reset GLOBAL_STATE 8 8 = 1 ∧ rf State.reset GLOBAL_STATE 16 8 = 0 ∧ rd State.reset GLOBAL_ACCESS = 0 ∧
    rf State.reset GLOBAL_RESET 0 2 = 0 ∧ rf State.reset GLOBAL_AQ_CFG 8 1 = 0 ∧ rf State.reset SEC_DEBUG_STATUS 0 2 = 0 ∧
    (∀ n, n < 8 → rf State.reset (STK_STATUS n) 3 1 = 0) ∧ (∀ p, p < 16 → rf State.reset (PART_STATUS p) 0 1 = 0) ∧
    State.reset.host.cmds = [] ∧ State.reset.sems = [] ∧ State.reset.mem = Mem.reset ∧ State.reset.pending = [] ∧
  Fused State.reset ∧ Mem.wf State.reset.mem = true ∧ twf (fun _ => 0) State.reset.host.mem = true

/-! ## Host accesses, queues -/

/-- R162, R172, R180, R206, R225, R264, R267. A host read returns the bytes of device memory, poisoned when a sector is bad
(what poisoned data holds is a free value, log entry 85, DESIGN CHOICE); one in the reserve of R225 is refused and
logged; a write reaches device memory; one that a hold makes wait has no effect yet (R180); the aperture answers through CXL.mem range 1, the doorbell pages through BAR4 and the configuration space through CXL.io (what its bytes hold is open, log entry 130, DESIGN CHOICE). -/
def Obligations.HostAccesses : Prop :=
  (∀ (s : State) (h : HostAcc), s.host.linkUp = true → serving s = true → h.write = false → h.addr + h.n ≤ memBytes s → touchesReserve s h.addr h.n = false →
    hostHeld s h = false → (∀ c, c = Instr.hostAccess ⟨.bar2, h⟩ ∨ c = Instr.cxlMemAccess 0 h → Gives c s fun u => u.host.rUr = false ∧
      u.host.rPoison = decide ((devRead s h.addr h.n hostRq).1 ≠ stOk) ∧ ((devRead s h.addr h.n hostRq).1 = stOk → u.host.rbytes = (devRead s h.addr h.n hostRq).2.1) ∧
      u.mem = (devRead s h.addr h.n hostRq).2.2.mem)) ∧
  (∀ (s : State) (h : HostAcc), s.host.linkUp = true → serving s = true → h.write = true → h.addr + h.bytes.length ≤ memBytes s →
    touchesReserve s h.addr h.bytes.length = false → hostHeld s h = false →
    (∀ c, c = Instr.hostAccess ⟨.bar2, h⟩ ∨ c = Instr.cxlMemAccess 0 h → Gives c s fun u => u.host.rUr = false ∧ u.mem = (devWrite s h.addr h.bytes hostRq).2.mem)) ∧
  (∀ (s : State) (h : HostAcc), s.host.linkUp = true → serving s = true → h.write = false → h.addr + h.n ≤ memBytes s → touchesReserve s h.addr h.n = true →
    Gives (.hostAccess ⟨.bar2, h⟩) s fun u => u.host.rUr = true ∧ u.host.rbytes = List.replicate h.n 0 ∧ u.mem = s.mem) ∧
  (∀ (s : State) (h : HostAcc), s.host.linkUp = true → serving s = true → h.write = true → h.addr + h.bytes.length ≤ 2048 → aptOn s = true →
    Gives (.cxlMemAccess 1 h) s fun u => u.mem = s.mem ∧ ∀ i, i < 2048 →
      aptByte u i = if h.addr ≤ i ∧ i < h.addr + h.bytes.length then h.bytes.getD (i - h.addr) 0 else aptByte s i) ∧
  (∀ (s : State) (h : HostAcc), hostHeld s h = true → exec (.hostAccess ⟨.bar2, h⟩) s = .next s ∧ exec (.cxlMemAccess 0 h) s = .next s) ∧
  (∀ (s : State) (h : HostAcc) (q : Nat) (b0 b1 b2 b3 : Byte), s.host.linkUp = true → q < 256 →
    (h.write = true → h.bytes = [b0, b1, b2, b3] →
      (h.addr = 4096 * q → exec (.hostAccess ⟨.bar4, h⟩) s = exec (.sqTail q (b3 ++ b2 ++ b1 ++ b0)) s) ∧
      (h.addr = 4096 * q + 4 → exec (.hostAccess ⟨.bar4, h⟩) s = exec (.cqHead q (b3 ++ b2 ++ b1 ++ b0)) s)) ∧
    (h.write = false → h.n = 4 → (getQp s q).defined = true →
      (h.addr = 4096 * q → Gives (.hostAccess ⟨.bar4, h⟩) s fun u =>
        u.host.rbytes = leBytes 2 ((getQp s q).sqTail % 2 ^ (getQp s q).log2) ++ [0, 0] ∧ u.host.rUr = false ∧ u.mem = s.mem) ∧
      (h.addr = 4096 * q + 4 → Gives (.hostAccess ⟨.bar4, h⟩) s fun u =>
        u.host.rbytes = leBytes 2 ((getQp s q).cqHead % 2 ^ (getQp s q).log2) ++ [0, 0] ∧ u.host.rUr = false ∧ u.mem = s.mem))) ∧
  (∀ (s : State) (h : HostAcc), s.host.linkUp = true →
    (h.write = false → Gives (.hostAccess ⟨.config, h⟩) s fun u => u.host.rbytes.length = h.n ∧ u.host.rUr = false ∧ u.host.config = s.host.config ∧ u.mem = s.mem) ∧
    (h.write = true → Gives (.hostAccess ⟨.config, h⟩) s fun u => u.mem = s.mem ∧ u.bar = s.bar ∧
      ∀ a, a < h.addr ∨ h.addr + h.bytes.length ≤ a → tfind u.host.config a = tfind s.host.config a)) ∧
  (∀ (s : State) (f : HostFace) (h : HostAcc) (r : Nat), s.host.linkUp = false →
    exec (.hostAccess ⟨f, h⟩) s = .next s ∧ exec (.cxlMemAccess r h) s = .next s)

/-- R265 to R268. The admin queue is enabled empty at entry 0 with the bases of its registers, disabled for new fetches at once and gone when its fetched
commands have completed. A tail index makes that many commands visible, a head index frees entries, an index outside the ring puts the queue in ERROR. A tail written to queue pair 0 before its registers enable it, and either index written to any pair in BOOT, is kept (log entry 131, DEDUCED). -/
def Obligations.QueueRows : Prop :=
  (∀ (s : State) (q : Nat) (w : W32), (getQp s q).defined = false → devState s = 1 →
    exec (.sqTail q w) s = .next (modQp s q (fun x => { x with sqTail := fld w 0 16 })) ∧
    exec (.cqHead q w) s = .next (modQp s q (fun x => { x with cqHead := fld w 0 16 }))) ∧
  (∀ (s : State) (w : W32) (n : Nat), rf s GLOBAL_AQ_CFG 8 1 = 0 → (getQp s 0).defined = false → n = max 4 (min 16 (fld w 0 5)) → (getQp s 0).sqTail < 2 ^ n →
    (getQp s 0).cqHead = 0 →
    exec (.sqTail 0 w) s = .next (modQp s 0 (fun x => { x with sqTail := fld w 0 16 })) ∧
    (bit w 8 = true → devState s = 2 → Gives (.aqEnable w) s fun u => (getQp u 0).defined = true ∧ (getQp u 0).sqTail = (getQp s 0).sqTail ∧
      (getQp u 0).sqHead = 0)) ∧
  (∀ (s : State) (w : W32), rf s GLOBAL_AQ_CFG 8 1 = 0 → bit w 8 = true → devState s = 2 → (getQp s 0).defined = true ∨ ((getQp s 0).sqTail = 0 ∧ (getQp s 0).cqHead = 0) →
    Gives (.aqEnable w) s fun u => rf u GLOBAL_AQ_CFG 8 1 = 1 ∧ (getQp u 0).defined = true ∧ (getQp u 0).admin = true ∧ (getQp u 0).sqTail = 0 ∧
      (getQp u 0).sqHead = 0 ∧ (getQp u 0).phase = true ∧ (getQp u 0).error = false ∧ (getQp u 0).log2 = max 4 (min 16 (fld w 0 5)) ∧
      (getQp u 0).sqBase.toNat = (rd64 s GLOBAL_AQ_SQ_BASE).toNat / 4096 * 4096) ∧
  (∀ (s : State) (w : W32), rf s GLOBAL_AQ_CFG 8 1 = 1 → bit w 8 = false →
    Gives (.aqDisable w) s fun u => rf u GLOBAL_AQ_CFG 8 1 = 0 ∧ u.host = s.host ∧ ∀ o, o ≠ GLOBAL_AQ_CFG → rd u o = rd s o) ∧
  (∀ (s : State), rf s GLOBAL_AQ_CFG 8 1 = 0 → (getQp s 0).defined = true → (∀ c ∈ s.host.cmds, c.queue ≠ 0) →
    Gives .aqDisableDone s fun u => getQp u 0 = QueuePair.zero ∧ ∀ q, q ≠ 0 → getQp u q = getQp s q) ∧
  (∀ (s : State) (q : Nat) (w : W32) (k : Nat), (getQp s q).defined = true → (getQp s q).error = false → fld w 0 16 < 2 ^ (getQp s q).log2 →
    k < 2 ^ (getQp s q).log2 → ((getQp s q).sqTail + k) % 2 ^ (getQp s q).log2 = fld w 0 16 →
    (getQp s q).sqTail - (getQp s q).sqHead + k ≤ 2 ^ (getQp s q).log2 →
    exec (.sqTail q w) s = .next (modQp s q (fun x => { x with sqTail := x.sqTail + k }))) ∧
  (∀ (s : State) (q : Nat) (w : W32), (getQp s q).defined = true → (getQp s q).error = false → 2 ^ (getQp s q).log2 ≤ fld w 0 16 →
    (∀ c, c = Instr.sqTail q w ∨ c = Instr.cqHead q w → Gives c s fun u => (getQp u q).error = true ∧ (getQp u q).sqTail = (getQp s q).sqTail ∧
      (getQp u q).cqHead = (getQp s q).cqHead)) ∧
  (∀ (s : State) (q : Nat) (w : W32) (k : Nat), (getQp s q).defined = true → (getQp s q).error = false → fld w 0 16 < 2 ^ (getQp s q).log2 →
    0 < k → k ≤ (getQp s q).cqTail - (getQp s q).cqHead → k < 2 ^ (getQp s q).log2 → ((getQp s q).cqHead + k) % 2 ^ (getQp s q).log2 = fld w 0 16 →
    exec (.cqHead q w) s = .next (modQp s q (fun x => { x with cqHead := x.cqHead + k })))

/-- R149, R268, R269, R270, R277. COMMAND_FETCH takes the next packet of the ring, moves the head on, reserves a completion entry and accepts the command; of what came over the Level it takes the first that its partition's engine may fetch, in the order of arrival, and turns away a node that the partition does not admit. -/
def Obligations.CommandFetched : Prop :=
  (∀ (s : State) (q : Nat) (bs : List Byte), q < 256 → (getQp s q).defined = true → (getQp s q).error = false → (getQp s q).deleting = none →
    (getQp s q).waitSem = none → (getQp s q).sqHead < (getQp s q).sqTail →
    (getQp s q).cqTail - (getQp s q).cqHead + (getQp s q).reserved < 2 ^ (getQp s q).log2 → (q = 0 → rf s GLOBAL_AQ_CFG 8 1 = 1) → stalled s q = false →
    fetching s = true → (∀ c ∈ s.host.cmds, c.queue ≠ q) →
    hostRead s ((getQp s q).sqBase.toNat + 64 * ((getQp s q).sqHead % 2 ^ (getQp s q).log2)) 64 = (stOk, bs) →
    opAssigned (pkOp (lineOf bs)) = true → pkExtended (lineOf bs) = false →
    Gives (.commandFetch q) s fun u => (getQp u q).sqHead = (getQp s q).sqHead + 1 ∧ (getQp u q).reserved = (getQp s q).reserved + 1 ∧
      u.host.nextCmd = s.host.nextCmd + 1 ∧ ∃ c, u.host.cmds = s.host.cmds ++ [c] ∧ c.id = s.host.nextCmd ∧ c.pkt = lineOf bs ∧ c.queue = q ∧
        c.begun = false ∧ c.src = none) ∧
  (∀ (s : State) (q : Nat) (r : RemoteCmd), 256 ≤ q → fetching s = true →
    s.host.remote.find? (fun r => r.queue % 16 == q % 16 && remoteReady s r) = some r → r.queue = q → pkExtended r.pkt = false → badOpcode r.pkt = false →
    (remoteAdmitted s (pkPart r.pkt) r.src = true → Gives (.commandFetch q) s fun u => u.host.remote = s.host.remote.erase r ∧
      u.host.nextCmd = s.host.nextCmd + 1 ∧ ∃ c, u.host.cmds = s.host.cmds ++ [c] ∧ c.id = s.host.nextCmd ∧ c.pkt = r.pkt ∧ c.queue = q ∧
        c.begun = false ∧ c.src = some (r.src, r.cls, r.psn)) ∧
    (remoteAdmitted s (pkPart r.pkt) r.src = false → Gives (.commandFetch q) s fun u => u.host.remote = s.host.remote.erase r ∧
      u.host.nextCmd = s.host.nextCmd + 1 ∧ ∀ c ∈ u.host.cmds, c.id ≠ s.host.nextCmd)) ∧
  (∀ (s : State) (q : Nat), 256 ≤ q → s.host.remote.find? (fun r => r.queue % 16 == q % 16 && remoteReady s r) = none →
    exec (.commandFetch q) s = .next s)

/-! ## Command rows -/

namespace Sys2Proof.Claims
open Sys2Proof.Machine

/-- A command of opcode `op` that its row may begin, that passes the common checks, and for which `cond` holds has the effect `eff` of the state
in which it has begun. -/
def Row (row : Nat → Instr) (op : Nat) (cond : State → Cmd → Prop) (eff : State → Cmd → State) : Prop :=
  ∀ (s : State) (id : Nat) (c : Cmd), Admitted s id op c → Plain (begun s id) (taken s c) → cond s c →
    exec (row id) s = .next (eff (begun s id) (taken s c))

/-- The same with what holds of the next state. -/
def RowGives (row : Nat → Instr) (op : Nat) (cond : State → Cmd → Prop) (P : State → Cmd → State → Prop) : Prop :=
  ∀ (s : State) (id : Nat) (c : Cmd), Admitted s id op c → Plain (begun s id) (taken s c) → cond s c → Gives (row id) s (P s c)

/-- The command's structure of `n` bytes at `a` is read without error as `bs`, leaving `u`, in which the common checks still pass. -/
def Fetched (s : State) (id : Nat) (c : Cmd) (a : W64) (n : Nat) (bs : List Byte) (u : State) : Prop :=
  bufOk s a n = true ∧ structRead (begun s id) (taken s c) a n = (stOk, bs, u) ∧ Plain u (taken s c)

/-- A command that reads a structure: where it is read as `bs` and `cond` holds of the state after the read, the row's next state has `P`. -/
def RowReads (row : Nat → Instr) (op at_ : Nat) (n : Cmd → Nat) (cond : State → Cmd → List Byte → Prop) (P : State → Cmd → List Byte → State → Prop) : Prop :=
  ∀ (s : State) (id : Nat) (c : Cmd) (bs : List Byte) (u : State), Admitted s id op c → Plain (begun s id) (taken s c) →
    Fetched s id c (addrAt c at_) (n c) bs u → cond u c bs → Gives (row id) s (P u (taken s c) bs)

/-- Every row of a command, by opcode; a MODEL_LOAD reads `p`. -/
def cmdRows (p : Package) : List (Nat × (Nat → Instr)) :=
  [(0x0000, Instr.nop), (0x0001, Instr.identify), (0x0002, Instr.queueCreate), (0x0003, Instr.queueDelete), (0x0004, Instr.queueStatus),
   (0x0005, Instr.partitionDefine), (0x0006, Instr.partitionDelete), (0x0007, Instr.memmapConfig), (0x0008, Instr.deviceReset),
   (0x0100, Instr.memAlloc), (0x0101, Instr.memFree), (0x0102, Instr.memMove), (0x0103, Instr.semSignal), (0x0104, Instr.semWait),
   (0x0105, Instr.semWrite), (0x0106, Instr.semRead), (0x0107, Instr.nbRun), (0x0108, Instr.nbAbort), (0x0200, fun id => Instr.modelLoad id p),
   (0x0201, Instr.modelUnload), (0x0202, Instr.modelQuery), (0x0300, Instr.sessionOpen), (0x0301, Instr.sessionPause), (0x0302, Instr.sessionResume),
   (0x0303, Instr.sessionCancel), (0x0304, Instr.sessionQuery), (0x0305, Instr.sessionSet), (0x0306, Instr.sessionRead), (0x0400, Instr.requestSubmit),
   (0x0401, Instr.kvPoolConfig), (0x0402, Instr.outputRingConfig), (0x0500, Instr.jobLaunch), (0x0501, Instr.jobCancel), (0x0502, Instr.jobQuery),
   (0x0600, Instr.portConfig), (0x0601, Instr.portStatus), (0x0602, Instr.nodeConfig), (0x0603, Instr.peerSet), (0x0604, Instr.peerClear),
   (0x0605, Instr.twinPair), (0x0606, Instr.twinDetach), (0x0607, Instr.twinStatus), (0x0700, Instr.timeRead), (0x0701, Instr.timeSet),
   (0x0702, Instr.ptpConfig), (0x0703, Instr.ppsConfig), (0x0704, Instr.timeStatus), (0x0800, Instr.attest), (0x0801, Instr.certRead),
   (0x0802, Instr.fwUpdate), (0x0803, Instr.ownerKeySet), (0x0804, Instr.debugPassword), (0x0805, Instr.debugChallenge), (0x0806, Instr.debugToken),
   (0x0807, Instr.debugLock), (0x0900, Instr.tallyRead), (0x0901, Instr.errlogRead), (0x0902, Instr.traceConfig), (0x0903, Instr.sensorRead)]

/-- The opcodes whose PERMISSION and LOCKED checks are the common ones alone. -/
def plainOps : List Nat :=
  [0x0000, 0x0001, 0x0002, 0x0003, 0x0004, 0x0005, 0x0006, 0x0007, 0x0008, 0x0100, 0x0101, 0x0102, 0x0103, 0x0104, 0x0105, 0x0106, 0x0107, 0x0108,
   0x0200, 0x0201, 0x0202, 0x0300, 0x0401, 0x0402, 0x0500, 0x0501, 0x0502, 0x0600, 0x0601, 0x0602, 0x0603, 0x0604, 0x0605, 0x0606, 0x0607, 0x0700,
   0x0701, 0x0702, 0x0703, 0x0704, 0x0800, 0x0801, 0x0802, 0x0803, 0x0807, 0x0901, 0x0903]

/-- Nothing that a command's end also settles: no queue pair is being deleted, no record is traced. -/
def Settled (s : State) : Prop := (∀ q, (getQp s q).deleting = none) ∧ rf s TRACE_CTRL 0 1 = 0

end Sys2Proof.Claims

/-- R268, R271, R272. A command that a host queue sent ends with one status entry in the queue's completion ring, in host memory, at the next place; the
phase changes with each pass of the ring, a message goes out, and the command is in progress no more. -/
def Obligations.StatusPosted : Prop :=
  (∀ (s : State) (c : Cmd) (st : W16) (detail result : Nat), c.src = none → st ≠ 0x03FF → s.host.linkUp = true → Settled s →
    getCmd (complete s c st detail result) c.id = none ∧
    (complete s c st detail result).host.msix = (getQp s c.queue).msix :: s.host.msix ∧
    (getQp (complete s c st detail result) c.queue).cqTail = (getQp s c.queue).cqTail + 1 ∧
    (getQp (complete s c st detail result) c.queue).reserved = (getQp s c.queue).reserved - 1 ∧
    (getQp (complete s c st detail result) c.queue).phase =
      ((getQp s c.queue).phase != decide ((getQp s c.queue).cqTail % 2 ^ (getQp s c.queue).log2 + 1 = 2 ^ (getQp s c.queue).log2)) ∧
    hostRead (complete s c st detail result) ((getQp s c.queue).cqBase.toNat + 32 * ((getQp s c.queue).cqTail % 2 ^ (getQp s c.queue).log2)) 32 =
      (stOk, bytesOf (statusEntry c.pkt st detail (now s) result ((getQp s c.queue).sqHead % 2 ^ (getQp s c.queue).log2) c.queue
        (b2n (getQp s c.queue).phase))) ∧
    (complete s c st detail result).mem = s.mem) ∧
  (∀ (p : Line) (st : W16) (d t r h q ph : Nat),
    fld (statusEntry p st d t r h q ph) 0 32 = fld p 32 32 ∧ fld (statusEntry p st d t r h q ph) 32 16 = fld p 0 16 ∧
    fld (statusEntry p st d t r h q ph) 48 16 = st.toNat ∧ fld (statusEntry p st d t r h q ph) 64 32 = d % 2 ^ 32 ∧
    fld (statusEntry p st d t r h q ph) 96 64 = t % 2 ^ 64 ∧ fld (statusEntry p st d t r h q ph) 160 64 = r % 2 ^ 64 ∧
    fld (statusEntry p st d t r h q ph) 224 16 = h % 2 ^ 16 ∧ fld (statusEntry p st d t r h q ph) 240 8 = q % 2 ^ 8 ∧
    fld (statusEntry p st d t r h q ph) 248 1 = ph % 2)

/-- R273. The order of the checks that all opcodes share, for every row: reserved packet bits are BAD_OPCODE whatever else is wrong; a command that
needs an ADMIN queue, or names another client or partition than its queue's, is PERMISSION before any parameter; a zero tag or a broken extended
length is BAD_PARAM 0x01, and then a partition outside the grade's 0x02, where the opcode has no permission of its own. -/
def Obligations.ChecksInOrder : Prop :=
  (∀ (p : Package), ∀ r ∈ cmdRows p, ∀ (s : State) (id : Nat) (c : Cmd), Admitted s id r.1 c → fld c.pkt 19 5 ≠ 0 →
    exec (r.2 id) s = .next (complete (begun s id) (taken s c) 0x0100 0 0)) ∧
  (∀ (p : Package), ∀ r ∈ cmdRows p, ∀ (s : State) (id : Nat) (c : Cmd), Admitted s id r.1 c → fld c.pkt 18 6 = 0 →
    (opAdmin r.1 = true ∧ cmdAdmin s c = false) ∨ cmdForeign s c = true →
    exec (r.2 id) s = .next (complete (begun s id) (taken s c) 0x0105 0 0)) ∧
  (∀ (p : Package), ∀ r ∈ cmdRows p, r.1 ∈ plainOps → ∀ (s : State) (id : Nat) (c : Cmd), Admitted s id r.1 c → fld c.pkt 18 6 = 0 →
    (opAdmin r.1 = true → cmdAdmin s c = true) → cmdForeign s c = false →
    (pkTag c.pkt = 0 ∨ (bit c.pkt 17 = true ∧ fld c.pkt 96 32 < 64) ∨ (bit c.pkt 17 = false ∧ fld c.pkt 96 32 ≠ 0) ∨ 255 < fld c.pkt 64 32 ∨
      c.extStatus = 0x0101) →
    exec (r.2 id) s = .next (complete (begun s id) (taken s c) 0x0101 1 0)) ∧
  (∀ (p : Package), ∀ r ∈ cmdRows p, r.1 ∈ plainOps → opBlock r.1 = 0 → ∀ (s : State) (id : Nat) (c : Cmd), Admitted s id r.1 c → fld c.pkt 17 7 = 0 →
    (opAdmin r.1 = true → cmdAdmin s c = true) → cmdForeign s c = false → pkTag c.pkt ≠ 0 → fld c.pkt 96 32 = 0 → fld c.pkt 64 32 ≤ 255 →
    c.extStatus ≠ 0x0101 →
    partitions s ≤ fld c.pkt 24 8 → exec (r.2 id) s = .next (complete (begun s id) (taken s c) 0x0101 2 0))

/-- R148, R149, R278, R279, R280, R282, R304, R360. The queue, semaphore, tally and log commands. -/
def Obligations.QueueCommandRows : Prop :=
  Row Instr.nop 0x0000 (fun _ _ => True) (fun s c => complete s c stOk 0 0) ∧
  Row Instr.identify 0x0001 (fun s c => Buffer s c 24 64)
    (fun s c => replyBuffer s c (addrAt c 24) (bytesOf (identity s)) ((rd s GLOBAL_CAP0).toNat + 2 ^ 32 * (rd s GLOBAL_CAP1).toNat)) ∧
  Row Instr.queueCreate 0x0002
    (fun s c => fld c.pkt 146 6 = 0 ∧ pk c.pkt 16 1 ≠ 0 ∧ 4 ≤ pk c.pkt 17 1 ∧ pk c.pkt 17 1 ≤ 16 ∧ pk c.pkt 20 2 ≤ 511 ∧ pk c.pkt 40 4 ≤ 255 ∧
      pk c.pkt 24 8 % 4096 = 0 ∧ pk c.pkt 32 8 % 4096 = 0 ∧ (getQp s (pk c.pkt 16 1)).defined = false ∧ (getQp s (pk c.pkt 16 1)).deleting = none ∧
      rf s (PART_STATUS (pkPart c.pkt)) 0 1 = 1 ∧ ∀ d ∈ s.host.cmds, d.id ≠ c.id → d.begun = true → pkOp d.pkt = 0x0002 → pk d.pkt 16 1 ≠ pk c.pkt 16 1)
    (fun s c => complete (keptDoorbells (setQp s (pk c.pkt 16 1) { QueuePair.zero with
      defined := true, sqBase := addrAt c 24, cqBase := addrAt c 32, log2 := pk c.pkt 17 1, admin := bit c.pkt 144, yields := bit c.pkt 145
      msix := pk c.pkt 20 2, part := pkPart c.pkt, client := pk c.pkt 40 4 }) (pk c.pkt 16 1) (getQp s (pk c.pkt 16 1))) c stOk 0 0) ∧
  Row Instr.queueCreate 0x0002
    (fun s c => fld c.pkt 146 6 = 0 ∧ pk c.pkt 16 1 ≠ 0 ∧ 4 ≤ pk c.pkt 17 1 ∧ pk c.pkt 17 1 ≤ 16 ∧ pk c.pkt 20 2 ≤ 511 ∧ pk c.pkt 40 4 ≤ 255 ∧
      pk c.pkt 24 8 % 4096 = 0 ∧ pk c.pkt 32 8 % 4096 = 0 ∧ (getQp s (pk c.pkt 16 1)).defined = true ∧ (getQp s (pk c.pkt 16 1)).deleting = none)
    (fun s c => complete s c 0x0102 0x0105 0) ∧
  RowGives Instr.queueDelete 0x0003
    (fun s c => pk c.pkt 16 1 ≠ 0 ∧ pk c.pkt 16 1 ≠ c.queue ∧ (getQp s (pk c.pkt 16 1)).defined = true ∧ (getQp s (pk c.pkt 16 1)).deleting = none ∧
      ∀ d ∈ s.host.cmds, d.queue ≠ pk c.pkt 16 1)
    (fun _ c t => getQp t (pk c.pkt 16 1) = QueuePair.zero ∧ getCmd t c.id = none) ∧
  RowGives Instr.queueDelete 0x0003
    (fun s c => pk c.pkt 16 1 ≠ 0 ∧ pk c.pkt 16 1 ≠ c.queue ∧ (getQp s (pk c.pkt 16 1)).defined = true ∧ (getQp s (pk c.pkt 16 1)).deleting = none ∧
      ∃ d ∈ s.host.cmds, d.queue = pk c.pkt 16 1)
    (fun s c t => (getQp t (pk c.pkt 16 1)).deleting = some c.id ∧ (getQp t (pk c.pkt 16 1)).sqHead = (getQp s (pk c.pkt 16 1)).sqTail ∧
      getCmd t c.id ≠ none) ∧
  Row Instr.queueDelete 0x0003
    (fun s c => pk c.pkt 16 1 ≠ 0 ∧ pk c.pkt 16 1 ≠ c.queue ∧ ((getQp s (pk c.pkt 16 1)).defined = false ∨ (getQp s (pk c.pkt 16 1)).deleting ≠ none))
    (fun s c => complete s c 0x0102 0x05 0) ∧
  Row Instr.queueStatus 0x0004 (fun s c => (getQp s (pk c.pkt 16 1)).waitSem = none)
    (fun s c => complete s c stOk 0 ((getQp s (pk c.pkt 16 1)).sqHead % 2 ^ (getQp s (pk c.pkt 16 1)).log2 + 65536 *
      (if (getQp s (pk c.pkt 16 1)).defined = false then 0 else if (getQp s (pk c.pkt 16 1)).error = true then 5
        else if (getQp s (pk c.pkt 16 1)).sqHead < (getQp s (pk c.pkt 16 1)).sqTail then 2 else 1))) ∧
  (∀ (s : State) (id : Nat) (c : Cmd) (w : Nat) (d : Cmd), Admitted s id 0x0004 c → Plain (begun s id) (taken s c) →
    (getQp s (pk c.pkt 16 1)).waitSem = some w → getCmd s w = some d → (getQp s (pk c.pkt 16 1)).defined = true → (getQp s (pk c.pkt 16 1)).error = false →
    exec (.queueStatus id) s = .next (complete (begun s id) (taken s c) stOk 0 ((getQp s (pk c.pkt 16 1)).sqHead % 2 ^ (getQp s (pk c.pkt 16 1)).log2 +
      65536 * (if (getQp s (pk c.pkt 16 1)).yields = true then 4 else 3) + 2 ^ 32 * pk d.pkt 16 2))) ∧
  Row Instr.semSignal 0x0103 (fun _ _ => True)
    (fun s c => complete (semSignal s (pk c.pkt 16 2) (addrAt c 24) { source := 3, tag := pkTag c.pkt, port := 5 }) c stOk 0 0) ∧
  RowGives Instr.semWait 0x0104
    (fun s c => Settled s ∧ (getSem s (pk c.pkt 16 2)).waiters = [] ∧ (addrAt c 24).toNat ≤ (getSem s (pk c.pkt 16 2)).value.toNat)
    (fun s c t => (getSem t (pk c.pkt 16 2)).value = (getSem s (pk c.pkt 16 2)).value - addrAt c 24 ∧ getCmd t c.id = none ∧
      (getQp t c.queue).waitSem = none) ∧
  RowGives Instr.semWait 0x0104
    (fun s c => (getSem s (pk c.pkt 16 2)).waiters ≠ [] ∨ (getSem s (pk c.pkt 16 2)).value.toNat < (addrAt c 24).toNat)
    (fun s c t => t.sems = s.sems ∧ (getQp t c.queue).waitSem = some c.id ∧ t.host.msix = s.host.msix ∧ getCmd t c.id ≠ none) ∧
  Row Instr.semWrite 0x0105 (fun s c => (getSem s (pk c.pkt 16 2)).waiters = [])
    (fun s c => complete (setSem (cleanTouch s (pkTag c.pkt) (pk c.pkt 16 2)) (pk c.pkt 16 2)
      { getSem s (pk c.pkt 16 2) with value := addrAt c 24, saturated := false }) c stOk 0 0) ∧
  Row Instr.semWrite 0x0105 (fun s c => (getSem s (pk c.pkt 16 2)).waiters ≠ []) (fun s c => complete s c 0x0102 0x0107 0) ∧
  Row Instr.semRead 0x0106 (fun _ _ => True) (fun s c => complete s c stOk 0 (getSem s (pk c.pkt 16 2)).value.toNat) ∧
  (∀ (s : State) (id : Nat) (c : Cmd), getCmd s id = some c → c.begun = true → pkOp c.pkt = 0x0104 → (getQp s c.queue).yields = false →
    (getSem s (pk c.pkt 16 2)).waiters = [] → (addrAt c 24).toNat ≤ (getSem s (pk c.pkt 16 2)).value.toNat →
    Gives (.poll id) s fun t => (getSem t (pk c.pkt 16 2)).value = (getSem s (pk c.pkt 16 2)).value - addrAt c 24 ∧ getCmd t id = none) ∧
  (∀ (s : State) (id q : Nat) (c : Cmd), (getQp s q).waitSem = some id → getCmd s id = some c → c.begun = true → pkOp c.pkt = 0x0104 →
    (getQp s q).yields = true → (getSem s (pk c.pkt 16 2)).waiters = [] → (addrAt c 24).toNat ≤ (getSem s (pk c.pkt 16 2)).value.toNat →
    Gives (.yieldRetest q) s fun t => (getSem t (pk c.pkt 16 2)).value = (getSem s (pk c.pkt 16 2)).value - addrAt c 24 ∧ getCmd t id = none) ∧
  (∀ (s : State) (id : Nat) (c : Cmd), getCmd s id = some c → c.begun = true → pkOp c.pkt = 0x0104 →
    c.at_ + 1000 * (if pk c.pkt 20 4 = 0 then 1000000 else pk c.pkt 20 4) ≤ mono s →
    exec (.semWaitTimeout id) s = .next (complete s c 0x0204 ((getSem s (pk c.pkt 16 2)).value.toNat % 2 ^ 32) 0)) ∧
  Row Instr.tallyRead 0x0900
    (fun s c => Buffer s c 24 64 ∧ (cmdAdmin s c = true ∨ pk c.pkt 16 1 = if c.queue < 256 then (getQp s c.queue).client else pkClient c.pkt))
    (fun s c => replyBuffer s c (addrAt c 24) (bytesOf (tallyLine s (pk c.pkt 16 1) (now s))) 0) ∧
  Row Instr.errlogRead 0x0901
    (fun s c => fld c.pkt 176 16 = 0 ∧ 1 ≤ pk c.pkt 20 2 ∧ pk c.pkt 20 2 ≤ 8192 ∧ (rd64 s ERRLOG_COUNT).toNat < 2 ^ 32 ∧ 1 ≤ pk c.pkt 16 4 ∧
      pk c.pkt 16 4 ≤ (rd64 s ERRLOG_COUNT).toNat ∧ (rd64 s ERRLOG_COUNT).toNat < pk c.pkt 16 4 + 8192 ∧
      Buffer s c 24 (64 * min (pk c.pkt 20 2) ((rd64 s ERRLOG_COUNT).toNat + 1 - pk c.pkt 16 4)))
    (fun s c => replyBuffer s c (addrAt c 24) ((List.range (min (pk c.pkt 20 2) ((rd64 s ERRLOG_COUNT).toNat + 1 - pk c.pkt 16 4))).map (fun i =>
        bytesOf (tget s.faults.ring ((rf s ERRLOG_WPTR 0 13 + 8192 - ((rd64 s ERRLOG_COUNT).toNat + 1 - pk c.pkt 16 4) + i) % 8192) 0))).flatten
      (min (pk c.pkt 20 2) ((rd64 s ERRLOG_COUNT).toNat + 1 - pk c.pkt 16 4) + 2 ^ 32 * pk c.pkt 16 4)) ∧
  Row Instr.errlogRead 0x0901
    (fun s c => fld c.pkt 176 16 = 0x8000 ∧ 1 ≤ pk c.pkt 20 2 ∧ pk c.pkt 20 2 ≤ 8192 ∧ pk c.pkt 16 4 < s.flash.log.length ∧
      Buffer s c 24 (64 * min (pk c.pkt 20 2) (s.flash.log.length - pk c.pkt 16 4)))
    (fun s c => replyBuffer s c (addrAt c 24) ((List.range (min (pk c.pkt 20 2) (s.flash.log.length - pk c.pkt 16 4))).map (fun i =>
        bytesOf (s.flash.log.getD (pk c.pkt 16 4 + i) 0))).flatten
      (min (pk c.pkt 20 2) (s.flash.log.length - pk c.pkt 16 4) + 2 ^ 32 * pk c.pkt 16 4))

namespace Sys2Proof.Claims
open Sys2Proof.Machine

/-- The region of `n` row sets from `first` that a MEM_ALLOC packet asks for (R281). -/
def askedRegion (c : Cmd) (first n : Nat) : Region :=
  if pk c.pkt 16 1 = 1 then
    { first := first, count := n, planar := true, kind := pk c.pkt 17 1, fmt := pk c.pkt 18 1, scaled := bit c.pkt 152, rowLen := pk c.pkt 20 4,
      rows := pk c.pkt 24 4 }
  else { first := first, count := n, planar := false, kind := 0, fmt := 0, scaled := false, rowLen := 0, rows := 0 }

/-- The row sets it needs, and its fields in range: LINEAR with a count, PLANAR of a kind and format that go together (R56, R158, R281). -/
def askedRows (s : State) (c : Cmd) : Nat := if pk c.pkt 16 1 = 1 then planarRows s (askedRegion c 0 0) else pk c.pkt 28 4
def askedWell (c : Cmd) : Prop :=
  fld c.pkt 153 7 = 0 ∧ pk c.pkt 17 1 ≤ 2 ∧ pk c.pkt 18 1 ≤ 10 ∧
    ((pk c.pkt 16 1 = 0 ∧ pk c.pkt 28 4 ≠ 0) ∨
     (pk c.pkt 16 1 = 1 ∧ pk c.pkt 24 4 ≠ 0 ∧ pk c.pkt 17 1 = 0 ∧ pk c.pkt 20 4 ≠ 0 ∧
      ((pk c.pkt 18 1 = 9 ∧ bit c.pkt 152 = false) ∨ pk c.pkt 18 1 = 8 ∨ (pk c.pkt 18 1 = 7 ∧ bit c.pkt 152 = true))) ∨
     (pk c.pkt 16 1 = 1 ∧ pk c.pkt 24 4 ≠ 0 ∧ pk c.pkt 17 1 ≠ 0 ∧ pk c.pkt 18 1 = 8 ∧ bit c.pkt 152 = false))

end Sys2Proof.Claims

/-- R293 to R298, R302, R305 to R308. Partitions. A definition takes effect at once while no slot is held, else it waits for the step boundary; its registers
hold it; a deleted partition is undefined; step cores are saved when a step is to start and given back after the idle time. -/
def Obligations.PartitionRows : Prop :=
  Row Instr.partitionDefine 0x0005
    (fun s c => c.extStatus = 0 ∧ blockBad s (BitVec.ofNat 1024 (leNat (c.ext.take 128))) = false ∧
      pbClusters (BitVec.ofNat 1024 (leNat (c.ext.take 128))) ≠ 0 ∧
      pbBase (BitVec.ofNat 1024 (leNat (c.ext.take 128))) + pbCount s (BitVec.ofNat 1024 (leNat (c.ext.take 128))) ≤ gradeCores s ∧
      pbStep (BitVec.ofNat 1024 (leNat (c.ext.take 128))) ≤ pbCount s (BitVec.ofNat 1024 (leNat (c.ext.take 128))) ∧
      (pbSlots (BitVec.ofNat 1024 (leNat (c.ext.take 128))) = 0 ∨ pbStep (BitVec.ofNat 1024 (leNat (c.ext.take 128))) ≠ 0) ∧
      saveBad s (BitVec.ofNat 1024 (leNat (c.ext.take 128))) = false ∧
      (pbRemote (BitVec.ofNat 1024 (leNat (c.ext.take 128))) = 1 →
        ∃ i, i < 8 ∧ pbNode (BitVec.ofNat 1024 (leNat (c.ext.take 128))) i ≠ 0xFFFF) ∧
      (∀ q, q < 16 → q ≠ pkPart c.pkt → partDefined s q = true → blocksMeet s (BitVec.ofNat 1024 (leNat (c.ext.take 128))) (projBlock s q) = false) ∧
      redefineRefused s (pkPart c.pkt) (BitVec.ofNat 1024 (leNat (c.ext.take 128))) = false ∧
      sumsOver s (pkPart c.pkt) (BitVec.ofNat 1024 (leNat (c.ext.take 128))) = false ∧
      (partDefined s (pkPart c.pkt) = false ∨ holdsSlot s (pkPart c.pkt) = false))
    (fun s c => complete (applyBlock s (pkPart c.pkt) (BitVec.ofNat 1024 (leNat (c.ext.take 128)))) c stOk 0 0) ∧
  (∀ (s : State) (p : Nat) (b : PBlk), p < 16 →
    partDefined (applyBlock s p b) p = true ∧ rd64 (applyBlock s p b) (PART_CLUSTERS p) = pbClusters b ∧
    rf (applyBlock s p b) (PART_VCORE p) 0 13 = pbBase b ∧ rf (applyBlock s p b) (PART_STEP p) 0 13 = pbStep b ∧
    rf (applyBlock s p b) (PART_STEP p) 16 8 = pbScratch b ∧ rf (applyBlock s p b) (PART_SLOTS p) 0 15 = pbSlots b ∧
    rf (applyBlock s p b) (PART_NB p) 0 8 = pbWeight b ∧ rf (applyBlock s p b) (PART_NB p) 8 3 = pbProgs b ∧
    rf (applyBlock s p b) (PART_STEP_IDLE p) 0 16 = pbIdle b ∧ saveArea (applyBlock s p b) p = BitVec.ofNat 64 (pbSave b) ∧
    (∀ q, q ≠ p → q < 16 → tfind (applyBlock s p b).parts q = tfind s.parts q ∧ partDefined (applyBlock s p b) q = partDefined s q) ∧
    (applyBlock s p b).mem = s.mem ∧ (applyBlock s p b).cores.jobs = s.cores.jobs) ∧
  RowGives Instr.partitionDelete 0x0006
    (fun s c => pkPart c.pkt ≠ 0 ∧ partDefined s (pkPart c.pkt) = true ∧ partBusy s (pkPart c.pkt) c.queue = false)
    (fun _ c t => partDefined t (pkPart c.pkt) = false ∧ tfind t.parts (pkPart c.pkt) = none ∧ rd64 t (PART_CLUSTERS (pkPart c.pkt)) = 0) ∧
  Row Instr.partitionDelete 0x0006 (fun _ c => pkPart c.pkt = 0) (fun s c => complete s c 0x0101 0x74 0) ∧
  (∀ (s : State) (part : Nat), part < 16 → holdsSlot s part = true → saveArea s part ≠ 0 → serving s = true → displaced s part ≠ [] →
    Gives (.preempt part) s fun t => ∀ d ∈ displaced s part, ∀ v ∈ d.2, v ∈ t.cores.preempted) ∧
  (∀ (s : State) (part x : Nat), part < 16 → derived s (PART_STATUS part) = some x →
    (nbit x 2 = true ↔ ∃ v ∈ s.cores.preempted, isStepCore s part v = true ∧ savedCore s v = true)) ∧
  (∀ (s : State) (part : Nat), holdsSlot s part = true → saveArea s part ≠ 0 → serving s = true → displaced s part = [] →
    exec (.preempt part) s = .next s) ∧
  (∀ (s : State) (part : Nat) (x : Part), part < 16 → tfind s.parts part = some x → x.lastStep + 1000 * rf s (PART_STEP_IDLE part) 0 16 ≤ mono s →
    tfind s.se.steps part = none →
    Gives (.resume part) s fun t => rf t (PART_STATUS part) 1 1 = 0 ∧
      ∀ v, isStepCore s part v = true → tget s.cores.vmap v 0 ≠ 0 → savedCore s v = true → v ∉ t.cores.preempted)

/-- R26, R157, R158, R182, R189, R195, R200, R281, R282. The memory commands. Which free run of row sets MEM_ALLOC takes is a free choice, and the
contents of freed row sets are discarded: what they read as until written is a free value (log entry 42, DESIGN CHOICE). -/
def Obligations.MemoryCommandRows : Prop :=
  RowGives Instr.memAlloc 0x0100
    (fun s c => askedWell c ∧ pk c.pkt 32 4 = 0xFFFFFFFF ∧ askedRows s c ≤ 24568 ∧ freeRuns s (askedRows s c) ≠ [])
    (fun s c t => ∃ first ∈ freeRuns s (askedRows s c), t.mem.regions = s.mem.regions ++ [askedRegion c first (askedRows s c)]) ∧
  RowGives Instr.memAlloc 0x0100
    (fun s c => askedWell c ∧ pk c.pkt 32 4 ≠ 0xFFFFFFFF ∧ askedRows s c ≤ 24568 ∧ regionAt s (pk c.pkt 32 4) = none ∧
      pk c.pkt 32 4 ∈ freeRuns s (askedRows s c))
    (fun s c t => t.mem.regions = s.mem.regions ++ [askedRegion c (pk c.pkt 32 4) (askedRows s c)]) ∧
  Row Instr.memAlloc 0x0100
    (fun s c => askedWell c ∧ pk c.pkt 32 4 ≠ 0xFFFFFFFF ∧ (regionAt s (pk c.pkt 32 4)).isSome = true)
    (fun s c => complete s c 0x0102 0x010A 0) ∧
  (∀ (s : State) (n f : Nat), f ∈ freeRuns s n → ∀ i, i < n → rowFree s (f + i) = true) ∧
  RowGives Instr.memFree 0x0101
    (fun s c => ∃ r, s.mem.regions.find? (fun r => r.first == pk c.pkt 16 4) = some r ∧ modelUses s.se.models (pk c.pkt 16 4) r.count = false ∧
      (∀ d ∈ s.host.cmds, d.id ≠ c.id → d.begun = true → pkOp d.pkt = 0x0101 → pk d.pkt 16 4 ≠ pk c.pkt 16 4) ∧
      poolUses s (pk c.pkt 16 4) r.count = false ∧ progUses s (pk c.pkt 16 4) r.count = false)
    (fun s c t => t.mem.regions = s.mem.regions.filter (fun r => r.first != pk c.pkt 16 4) ∧
      ∀ r, s.mem.regions.find? (fun r => r.first == pk c.pkt 16 4) = some r →
        ∀ i, i < r.count → (tfind t.mem.discarded (pk c.pkt 16 4 + i)).isSome = true) ∧
  Row Instr.memFree 0x0101 (fun s c => ∀ r ∈ s.mem.regions, r.first ≠ pk c.pkt 16 4) (fun s c => complete s c 0x0101 0xB4 0) ∧
  (∀ (s : State) (id : Nat) (c : Cmd) (bs : List Byte) (u : State), Admitted s id 0x0102 c → Plain (begun s id) (taken s c) →
    isLocalNode s (nodeOf (addrAt c 24)) = true → localRange s (offOf (addrAt c 24)) 64 = .device →
    touchesReserve s (offOf (addrAt c 24)) 64 = false → partDefined s (pkPart c.pkt) = true →
    (s.hoists.queue.filter (fun m => m.hoist / 4 == memMoveHoist s (pkPart c.pkt) / 4)).length < 64 →
    structRead (begun s id) (taken s c) (addrAt c 24) 64 = (stOk, bs, u) →
    Gives (.memMove id) s fun t => t.hoists.queue = s.hoists.queue ++ [{
      hoist := memMoveHoist s (pkPart c.pkt), desc := setFld (lineOf bs) 32 32 (pkTag c.pkt).toNat, addr := addrAt c 24, owner := none, cmd := some id,
      part := pkPart c.pkt, unreadable := 0 }] ∧ getCmd t id ≠ none) ∧
  RowGives Instr.memmapConfig 0x0007
    (fun _ c => c.extStatus = 0 ∧ ∀ i, i < 28 → fld (BitVec.ofNat 32 (leNat ((c.ext.drop (4 * i)).take 4)) : W32) 0 5 = 0 ∧
      fld (BitVec.ofNat 32 (leNat ((c.ext.drop (4 * i)).take 4)) : W32) 23 9 = 0)
    (fun s c t => t.flash.masks = (List.range 28).map (fun i => BitVec.ofNat 32 (leNat ((c.ext.drop (4 * i)).take 4))) ∧
      (∀ j, j < 9 → rd t (STK_MAP_SEL 0 j) = rd s (STK_MAP_SEL 0 j)) ∧ t.mem.regions = s.mem.regions) ∧
  RowReads Instr.nbRun 0x0107 24 (fun c => 64 * pk c.pkt 17 1)
    (fun u c bs => 2 ≤ pk c.pkt 17 1 ∧ pk c.pkt 17 1 ≤ 64 ∧ pk c.pkt 16 1 ≠ 0 ∧ (∀ k, k < 8 → nbit (pk c.pkt 16 1) k = true → k < stackCount u ∧
        startRefused u k (pkPart c.pkt) = false ∧ (freeEntries u k (pk c.pkt 17 1)).isSome = true) ∧
      (∃ i, i < pk c.pkt 17 1 ∧ bOp (lineOf ((bs.drop (64 * i)).take 64)) = 0) ∧ partDefined u (pkPart c.pkt) = true)
    (fun u c bs t => ∀ k, k < 8 → nbit (pk c.pkt 16 1) k = true → ∃ e, freeEntries u k (pk c.pkt 17 1) = some e ∧
      (∀ i, i < pk c.pkt 17 1 → progEntry t k (e + i) = setFld (lineOf ((bs.drop (64 * i)).take 64)) 32 32 (pkTag c.pkt).toNat) ∧
      ∃ p ∈ t.nb.programs, p.stack = k ∧ p.start = e ∧ p.owner = .cmd c.id ∧ p.part = pkPart c.pkt ∧ p.tag = pkTag c.pkt) ∧
  RowGives Instr.nbAbort 0x0108
    (fun s c => ∃ d ∈ s.host.cmds, d.begun = true ∧ pkOp d.pkt = 0x0107 ∧ pkPart d.pkt = pkPart c.pkt ∧ (pkTag d.pkt).toNat = pk c.pkt 16 4 ∧
      ∃ p ∈ s.nb.programs, p.owner = .cmd d.id)
    (fun s c t => getCmd t c.id = none ∧ ∀ d ∈ s.host.cmds, d.begun = true → pkOp d.pkt = 0x0107 → pkPart d.pkt = pkPart c.pkt →
      (pkTag d.pkt).toNat = pk c.pkt 16 4 → ∀ p ∈ t.nb.programs, p.owner ≠ .cmd d.id) ∧
  Row Instr.nbAbort 0x0108 (fun s _ => s.nb.programs = []) (fun s c => complete s c 0x0102 0x0B 0)

/-- R71 to R73, R101, R287, R297, R309. Jobs: a launched job waits; it starts once its cores are free of earlier jobs and steps, every thread at the entry with its
registers; it is cancelled by tag, queried, and ends when every thread has. -/
def Obligations.JobRows : Prop :=
  RowReads Instr.jobLaunch 0x0500 16 (fun _ => 128)
    (fun u c bs => localRange u (offOf (addrAt c 16)) 128 = .device ∧ pk c.pkt 28 4 ≠ 0 ∧ pk c.pkt 24 4 + pk c.pkt 28 4 ≤ gradeCores u ∧
      pk c.pkt 32 4 ≠ 0 ∧ partBase u (pkPart c.pkt) ≤ pk c.pkt 24 4 ∧
      pk c.pkt 24 4 + pk c.pkt 28 4 ≤ partBase u (pkPart c.pkt) + partCount u (pkPart c.pkt) ∧ partDefined u (pkPart c.pkt) = true ∧
      headerCode u (BitVec.ofNat 1024 (leNat bs)) (pkPart c.pkt) (pk c.pkt 24 4) (pk c.pkt 28 4) = none ∧
      (∀ i, i < pk c.pkt 28 4 → unplaced u (pk c.pkt 24 4 + i) = false) ∧
      (pkClean c.pkt = true → (u.cores.jobs.filter (fun j => j.clean.isSome)).length < 4))
    (fun u c bs t => ∃ j, t.cores.jobs = u.cores.jobs ++ [j] ∧ j.id = u.cores.nextId ∧ j.cmd = c.id ∧ j.tag = pkTag c.pkt ∧ j.part = pkPart c.pkt ∧
      j.vfirst = pk c.pkt 24 4 ∧ j.vcount = pk c.pkt 28 4 ∧ j.wiCount = pk c.pkt 32 4 ∧ j.arg = addrAt c 40 ∧ j.image = addrAt c 16 ∧
      j.state = .waiting ∧ j.stop = none ∧ j.threads = fld (BitVec.ofNat 1024 (leNat bs) : BitVec 1024) 40 4 ∧
      j.codeBytes = fld (BitVec.ofNat 1024 (leNat bs) : BitVec 1024) 64 32 ∧ j.entry = fld (BitVec.ofNat 1024 (leNat bs) : BitVec 1024) 96 32 ∧
      j.clean.isSome = pkClean c.pkt ∧ getCmd t c.id ≠ none) ∧
  Row Instr.jobCancel 0x0501 (fun s c => ∃ j ∈ s.cores.jobs, j.part = pkPart c.pkt ∧ j.tag.toNat = pk c.pkt 16 4)
    (fun s c => complete ((s.cores.jobs.filter (fun j => j.part == pkPart c.pkt && j.tag.toNat == pk c.pkt 16 4)).foldl
      (fun s j => stopJob s j.id .cancelled) s) c stOk 0 0) ∧
  Row Instr.jobCancel 0x0501 (fun s c => ∀ j ∈ s.cores.jobs, ¬(j.part = pkPart c.pkt ∧ j.tag.toNat = pk c.pkt 16 4))
    (fun s c => complete s c 0x0102 0x0B 0) ∧
  (∀ (s : State) (j : Job), getJob s j.id = some j → j.state ≠ .waiting → ∃ k, getJob (stopJob s j.id .cancelled) j.id = some k ∧
    k.state = .ending ∧ k.stop = some .cancelled) ∧
  (∀ (s : State) (id : Nat) (c : Cmd) (j : Job), Admitted s id 0x0502 c → Plain (begun s id) (taken s c) →
    s.cores.jobs.find? (fun j => j.part == pkPart c.pkt && j.tag.toNat == pk c.pkt 16 4) = some j →
    exec (.jobQuery id) s = .next (complete (begun s id) (taken s c) stOk 0 (j.started % 2 ^ 32 + 2 ^ 32 *
      (if j.state = .waiting then 0 else if j.state = .ending ∨ jobEnding s j = true then 2 else 1)))) ∧
  (∀ (s : State) (j : Job), getJob s j.id = some j → j.state = .waiting → j.stop = none → j.threads ≤ 8 →
    (∀ k ∈ s.cores.jobs, k.id < j.id → k.part = j.part → ∀ v ∈ k.range, v ∉ j.range) → jobOnSteps s j = false → serving s = true →
    (∀ v ∈ j.range, unplaced s v = false) →
    Gives (.jobStart j.id) s fun t => (∃ k, getJob t j.id = some k ∧ k.state = .running ∧ k.vcores = j.range) ∧
      ∀ v ∈ j.range, ∀ n, n < j.threads →
        (getThread t { vcore := v, thread := n }).run = .running ∧ (getThread t { vcore := v, thread := n }).pc = BitVec.ofNat 32 j.entry ∧
        sReg t { vcore := v, thread := n } 1 = BitVec.ofNat 64 v ∧ sReg t { vcore := v, thread := n } 2 = BitVec.ofNat 64 n ∧
        sReg t { vcore := v, thread := n } 3 = j.arg ∧ sReg t { vcore := v, thread := n } 4 = BitVec.ofNat 64 j.tag.toNat ∧
        ∀ r, 5 ≤ r → sReg t { vcore := v, thread := n } r = 0) ∧
  (∀ (s : State) (j k : Job), getJob s j.id = some j → k ∈ s.cores.jobs → k.id < j.id → k.part = j.part → (∃ v ∈ k.range, v ∈ j.range) →
    exec (.jobStart j.id) s = .next s) ∧
  (∀ (s : State) (j : Job), getJob s j.id = some j → j.state ≠ .waiting → jobThreadsEnded s j = true → jobMoves s j = false → j.replay = [] →
    exec (.jobEnd j.id) s = .next (finishJob s j) ∧ getJob (finishJob s j) j.id = none ∧
    ∀ v ∈ j.vcores, ∀ n, n < 8 → getThread (finishJob s j) { vcore := v, thread := n } = Thread.zero) ∧
  (∀ (s : State) (j : Job), j.stop = some .cancelled → jobStatus s j = (0x0205, 0)) ∧
  (∀ (s : State) (j : Job), j.stop = some .fenced → jobStatus s j = (0x0300, 0)) ∧
  (∀ (s : State) (j : Job), j.stop = none → (∀ v ∈ j.vcores, ∀ n, n < j.threads → (getThread s { vcore := v, thread := n }).memerr = 0) →
    jobStatus s j = if j.skips = 0 then (0, 0) else (0x0001, min j.skips 0xFFFFFFFF))

namespace Sys2Proof.Claims
open Sys2Proof.Machine

/-- A command names the session `x` of index `i`, whose client and partition are the packet's, and which is not CLOSED in its projected state (R226,
R274). -/
def Names (s : State) (c : Cmd) (i : Nat) (x : Session) : Prop :=
  i = hIndex (pk c.pkt 16 4) ∧ getSess s i = some x ∧ srHandle x.record = pk c.pkt 16 4 ∧ srClient x.record = pkClient c.pkt ∧
    srPart x.record = pkPart c.pkt ∧ x.proj ≠ stClosed

/-- A session command's row under `cond` has the effect `eff` of the state in which the session's record stands in the cache (R227), and of the session
there. -/
def SessRow (row : Nat → Instr) (op : Nat) (cond : State → Cmd → Session → Prop) (eff : State → Cmd → Nat → Session → State) : Prop :=
  ∀ (s : State) (id : Nat) (c : Cmd) (i : Nat) (x y : Session), Admitted s id op c → Plain (begun s id) (taken s c) → Names s c i x → cond s c x →
    getSess (cacheIn (begun s id) i) i = some y → exec (row id) s = .next (eff (cacheIn (begun s id) i) (taken s c) i y)

/-- A session command that names a session and is turned away. -/
def SessRefused (row : Nat → Instr) (op : Nat) (cond : State → Cmd → Session → Prop) (st : W16) (detail : Cmd → Session → Nat) : Prop :=
  ∀ (s : State) (id : Nat) (c : Cmd) (i : Nat) (x : Session), Admitted s id op c → Plain (begun s id) (taken s c) → Names s c i x → cond s c x →
    exec (row id) s = .next (complete (begun s id) (taken s c) st (detail c x) 0)

end Sys2Proof.Claims

/-- R228, R230, R231, R241, R259, R283, R286. The model, pool and ring commands. -/
def Obligations.ModelRows : Prop :=
  (∀ (s : State) (id : Nat) (c : Cmd) (p : Package), Admitted s id 0x0200 c → Plain (begun s id) (taken s c) → pk c.pkt 16 2 ≤ 4095 →
    Buffer s c 24 (pk c.pkt 32 8) → p.status = 0 → (∀ x ∈ packageCodes s p, x.1 = false) → modelState s (pk c.pkt 16 2) = 0 →
    loadWaiting s (pk c.pkt 16 2) id = false →
    (p.views.foldl (fun (acc : W16 × State) v =>
      (worse acc.1 (devWrite acc.2 (v.1 * rowSetBytes acc.2) v.2 (cmdRq c)).1, (devWrite acc.2 (v.1 * rowSetBytes acc.2) v.2 (cmdRq c)).2))
      (0, begun s id)).1 = 0 →
    Gives (.modelLoad id p) s fun t => ∃ x, getModel t (pk c.pkt 16 2) = some x ∧ mrState x.record = 2 ∧ fld x.record 0 12 = pk c.pkt 16 2 ∧
      x.groups = p.groups ∧ x.digest = p.digest ∧ mrKind x.record = mrKind p.record ∧ mrLayers x.record = mrLayers p.record ∧ getCmd t id = none) ∧
  (∀ (s : State) (id : Nat) (c : Cmd) (p : Package) (d : Nat), Admitted s id 0x0200 c → Plain (begun s id) (taken s c) → pk c.pkt 16 2 ≤ 4095 →
    Buffer s c 24 (pk c.pkt 32 8) → modelState s (pk c.pkt 16 2) ≠ 3 → p.status = 0 → (packageCodes s p).find? (·.1) = some (true, d) →
    exec (.modelLoad id p) s = .next (complete (begun s id) (taken s c) 0x0101 d 0)) ∧
  RowGives Instr.modelUnload 0x0201
    (fun s c => pk c.pkt 16 2 ≤ 4095 ∧ modelState s (pk c.pkt 16 2) = 2 ∧ loadWaiting s (pk c.pkt 16 2) c.id = false ∧
      (∀ x ∈ s.se.models, mrState x.2.record = 2 → mrDraft x.2.record ≠ some (pk c.pkt 16 2) ∧ mrFallback x.2.record ≠ some (pk c.pkt 16 2)) ∧
      ∀ y ∈ sessionsOf s (pk c.pkt 16 2), y.2.proj ≠ stActive ∧ y.2.waiting = false ∧ y.2.projSusp = false)
    (fun s c t => modelState t (pk c.pkt 16 2) = 3 ∧ getCmd t c.id ≠ none ∧ ∀ y ∈ sessionsOf s (pk c.pkt 16 2), getSess s y.1 = some y.2 →
      y.2.proj ≠ stClosed → ∃ x, getSess t y.1 = some x ∧ x.proj = stExpired ∧ SessEvent.gone ∈ x.events ∧ x.record = y.2.record) ∧
  Row Instr.modelUnload 0x0201 (fun s c => pk c.pkt 16 2 ≤ 4095 ∧ modelState s (pk c.pkt 16 2) ≠ 2 ∧ loadWaiting s (pk c.pkt 16 2) c.id = false)
    (fun s c => complete s c 0x0102 (0x03 + 256 * (if modelState s (pk c.pkt 16 2) = 3 then 0 else modelState s (pk c.pkt 16 2))) 0) ∧
  Row Instr.modelQuery 0x0202 (fun s c => pk c.pkt 16 2 ≤ 4095 ∧ Buffer s c 24 128)
    (fun s c => replyBuffer s c (addrAt c 24) (bytesOf (modelRecord s (pk c.pkt 16 2))) 0) ∧
  RowGives Instr.kvPoolConfig 0x0401
    (fun s c => c.extStatus = 0 ∧ fld (BitVec.ofNat 1024 (leNat (c.ext.take 128)) : SRec) 96 32 = 0 ∧
      fld (BitVec.ofNat 1024 (leNat (c.ext.take 128)) : SRec) 960 64 = 0 ∧ poolBad s (BitVec.ofNat 1024 (leNat (c.ext.take 128))) = false ∧
      s.se.spans = [] ∧ (∀ y ∈ s.se.sessions, srPacked y.2.record = 0) ∧ twinState s = 0)
    (fun _ c t => t.se.pool = some (BitVec.ofNat 1024 (leNat (c.ext.take 128))) ∧ getCmd t c.id = none) ∧
  RowGives Instr.outputRingConfig 0x0402
    (fun s c => pk c.pkt 16 8 % 4096 = 0 ∧ 12 ≤ pk c.pkt 24 1 ∧ pk c.pkt 24 1 ≤ 28 ∧ pk c.pkt 26 2 ≤ 511 ∧ partDefined s (pkPart c.pkt) = true ∧
      holdsSlot s (pkPart c.pkt) = false)
    (fun _ c t => tfind t.se.rings (pkPart c.pkt) = some { base := addrAt c 16, log2 := pk c.pkt 24 1, tail := addrAt c 32, msix := pk c.pkt 26 2 } ∧
      rd t (HF_SE_ORING_WR (pkPart c.pkt)) = 0 ∧ rd t (HF_SE_ORING_RD (pkPart c.pkt)) = 0)

/-- R226, R227, R231 to R235, R274, R284, R285. The session commands and the request, and the session cache: a record in the cache stays as it is, one that
is not is fetched from the session table. A session's table index is a free choice (log entry 46, DESIGN CHOICE), which record leaves a full cache too (log entry 125, DESIGN CHOICE). -/
def Obligations.SessionRows : Prop :=
  (∀ (s : State) (i : Nat), i ∈ s.se.cached → cacheIn s i = s) ∧
  (∀ (s : State) (i : Nat) (x : Session), i ∉ s.se.cached → getSess s i = some x → s.se.cached.length < 32768 →
    (cacheIn s i).se.cached = i :: s.se.cached ∧ (∀ j, j ≠ i → getSess (cacheIn s i) j = getSess s j) ∧
    ∃ r, getSess (cacheIn s i) i = some { x with record := r } ∧
      ((devReadNat s (recOff s i) 128 hfRq).1 = stOk → r.toNat = (devReadNat s (recOff s i) 128 hfRq).2.1)) ∧
  (∀ (s : State) (i : Nat) (x : Session), getSess s i = some x → ∃ r, getSess (cacheIn s i) i = some { x with record := r }) ∧
  RowGives Instr.sessionOpen 0x0300
    (fun s c => pk c.pkt 16 2 ≤ 4095 ∧ pk c.pkt 18 1 ≤ 7 ∧ fld c.pkt 154 6 = 0 ∧ (∃ r, readyModel s (pk c.pkt 16 2) = some r ∧ mrKind r = 0) ∧
      loadWaiting s (pk c.pkt 16 2) c.id = false ∧
      partDefined s (pkPart c.pkt) = true ∧ s.se.sessions.length < 1048576 ∧ ∀ i, tget s.se.gen i 0 < 4096)
    (fun s c t => ∃ i x, i < 1048576 ∧ getSess s i = none ∧ getSess t i = some x ∧ hIndex (srHandle x.record) = i ∧
      hGen (srHandle x.record) = tget s.se.gen i 0 ∧ srState x.record = stOpen ∧ x.proj = stOpen ∧ srPart x.record = pkPart c.pkt ∧
      srClass x.record = pk c.pkt 18 1 ∧ srClient x.record = pkClient c.pkt ∧ srModel x.record = pk c.pkt 16 2 ∧ srLen x.record = 0 ∧
      srFbOk x.record = bit c.pkt 152 ∧ srPinned x.record = bit c.pkt 153 ∧ x.toks = [] ∧ ∀ j, j ≠ i → getSess t j = getSess s j) ∧
  SessRow Instr.sessionPause 0x0301 (fun _ _ x => x.proj = stActive)
    (fun s c i x => gateStatus (mirrorChange (putSess s i { x with
      events := x.events ++ [.pause], proj := if srState x.record = stExpired then stExpired else stPaused, projSusp := true })) c 0 none) ∧
  SessRefused Instr.sessionPause 0x0301 (fun _ _ x => x.proj ≠ stActive) 0x0102
    (fun _ x => 0x02 + 256 * (x.proj + if x.projSusp = true then 128 else 0)) ∧
  SessRefused Instr.sessionResume 0x0302 (fun _ _ x => srGone x.record = true ∨ SessEvent.gone ∈ x.events) 0x0102 (fun _ _ => 0x03) ∧
  SessRow Instr.sessionResume 0x0302 (fun _ _ x => projGone x = false ∧ x.projSusp = true ∧ (x.proj = stPaused ∨ x.proj = stExpired))
    (fun s c i x => gateStatus (mirrorChange (putSess { s with se := { s.se with order := s.se.order + 1 } } i { x with
      events := x.events ++ [.resume], order := if x.slot = true then x.order else s.se.order + 1, proj := stActive, projSusp := false })) c 0 none) ∧
  SessRow Instr.sessionResume 0x0302 (fun _ _ x => projGone x = false ∧ x.projSusp = false ∧ x.proj = stPaused)
    (fun s c i x => gateStatus (mirrorChange (putSess { s with se := { s.se with order := s.se.order + 1 } } i { x with
      events := x.events ++ [.resume], proj := stPaused, projSusp := false })) c 0 none) ∧
  SessRow Instr.sessionCancel 0x0303 (fun _ _ _ => True)
    (fun s c i x => gateStatus (mirrorChange (if x.slot = true then putSess s i { x with events := x.events ++ [.cancel], proj := stClosed }
      else applyEvents (putSess s i { x with events := x.events ++ [.cancel], proj := stClosed }) i false)) c 0 none) ∧
  (∀ (s : State) (i : Nat) (x : Session), getSess s i = some x → SessEvent.cancel ∈ x.events → x.slot = false →
    getSess (applyEvents s i false) i = none ∧ tget (applyEvents s i false).se.gen i 0 = (tget s.se.gen i 0 + 1) % 4096) ∧
  SessRow Instr.sessionQuery 0x0304 (fun s c _ => Buffer s c 24 128) (fun s c _ x => replyBuffer s c (addrAt c 24) (bytesOf x.record) 0) ∧
  (∀ (s : State) (id : Nat) (c : Cmd) (i : Nat) (x x' : Session), Admitted s id 0x0305 c → Plain (begun s id) (taken s c) → Names s c i x →
    getSess (cacheIn (begun s id) i) i = some x' →
    fld c.pkt 170 6 = 0 → fld c.pkt 179 5 = 0 → (bit c.pkt 176 = true → pk c.pkt 20 1 ≤ 7) →
    Gives (.sessionSet id) s fun t => ∃ y w, getSess t i = some y ∧ y.setPending = some w ∧ y.record = x'.record ∧ y.proj = x.proj ∧
      (bit c.pkt 176 = true → bit w 16 = true ∧ fld w 0 3 = pk c.pkt 20 1) ∧ (bit c.pkt 177 = true → bit w 17 = true ∧ bit w 8 = bit c.pkt 168) ∧
      (bit c.pkt 178 = true → bit w 18 = true ∧ bit w 9 = bit c.pkt 169) ∧
      (x.setPending = none → bit c.pkt 176 = false → bit w 16 = false)) ∧
  (∀ (s : State) (id : Nat) (c : Cmd) (i : Nat) (x y : Session) (ts : List W32) (u : State), Admitted s id 0x0306 c → Plain (begun s id) (taken s c) →
    Names s c i x → pk c.pkt 20 4 + pk c.pkt 24 4 ≤ srLen x.record → pk c.pkt 24 4 ≠ 0 → Buffer s c 32 (4 * pk c.pkt 24 4) →
    getSess (cacheIn (begun s id) i) i = some y →
    readToks (cacheIn (begun s id) i) y (pk c.pkt 20 4) (pk c.pkt 20 4 + pk c.pkt 24 4) = (0, ts, u) →
    exec (.sessionRead id) s = .next (replyBuffer u (taken s c) (addrAt c 32) ((ts.map bytesOf).flatten) (pk c.pkt 24 4))) ∧
  SessRefused Instr.sessionRead 0x0306 (fun _ c x => srLen x.record < pk c.pkt 20 4 + pk c.pkt 24 4) 0x0101 (fun _ _ => 0x50) ∧
  SessRow Instr.sessionRead 0x0306 (fun _ c x => pk c.pkt 20 4 ≤ srLen x.record ∧ pk c.pkt 24 4 = 0) (fun s c _ _ => complete s c stOk 0 0) ∧
  (∀ r ∈ [(0x0301, Instr.sessionPause), (0x0302, Instr.sessionResume), (0x0303, Instr.sessionCancel)], ∀ (s : State) (id : Nat) (c : Cmd),
    Admitted s id r.1 c → Plain (begun s id) (taken s c) → sessOf s (pk c.pkt 16 4) = none →
    exec (r.2 id) s = .next (complete (begun s id) (taken s c) 0x0102 0x0402 0)) ∧
  (∀ (s : State) (id : Nat) (c : Cmd) (i : Nat) (x x' : Session) (bs : List Byte) (u : State), Admitted s id 0x0400 c →
    Plain (begun s id) (taken s c) → Names s c i x → projGone x = false → modelState s (srModel x.record) = 2 → x.projSusp = false → x.proj ≠ stActive →
    (tfind s.se.rings (srPart x.record)).isSome = true → srLen x.record + pk c.pkt 48 4 < 1048576 → pk c.pkt 46 1 ≤ 8 → pk c.pkt 42 2 ≠ 0 →
    pk c.pkt 42 2 ≤ 0x3C00 → pk c.pkt 20 4 ≠ 0 → (ensureChunks s i (srLen x.record + pk c.pkt 48 4)).isSome = true →
    (pk c.pkt 48 4 ≠ 0 → Fetched s id c (addrAt c 56) (4 * pk c.pkt 48 4) bs u) → (pk c.pkt 48 4 = 0 → u = begun s id) →
    getSess (cacheIn u i) i = some x' →
    Gives (.requestSubmit id) s fun t => ∃ y, getSess t i = some y ∧ y.proj = stActive ∧ y.waiting = true ∧ y.first = true ∧
      srLen y.record = srLen x'.record + pk c.pkt 48 4 ∧ y.prefillFrom = srLen x'.record ∧ srReqTag y.record = (pkTag c.pkt).toNat ∧ srRemaining y.record = pk c.pkt 20 4 ∧
      (∀ k, k < 4 → srStop y.record k = pk c.pkt (24 + 4 * k) 4) ∧ srTemp y.record = pk c.pkt 40 2 ∧ srDraftMax y.record = pk c.pkt 46 1 ∧
      y.toks = x.toks ++ (List.range (pk c.pkt 48 4)).map (fun j => BitVec.ofNat 32 (leNat ((bs.drop (4 * j)).take 4))) ∧ (TwinQuiet s → getCmd t id = none))

/-- R288, R289, R310, R313, R314, R316, R317, R341, R346, R350, R353, R357. The fabric, twin and time commands. -/
def Obligations.FabricAndTimeCommandRows : Prop :=
  RowReads Instr.portConfig 0x0600 24 (fun _ => 64)
    (fun u c bs => pk c.pkt 16 1 ≤ 4 ∧ pk c.pkt 17 1 ≤ 3 ∧ (pk c.pkt 16 1 = 4 → pk c.pkt 17 1 ≤ 1) ∧ (pk c.pkt 16 1 < ports u ∨ pk c.pkt 16 1 = 4) ∧
      fld (lineOf bs) 50 6 = 0 ∧ fld (lineOf bs) 96 416 = 0 ∧ bit (lineOf bs) 40 = false ∧
      ∀ l, l < 8 → ∃ i, i < 8 ∧ fld (lineOf bs) (72 + 3 * i) 3 = l)
    (fun _ c bs t => tget t.fab.ports (pk c.pkt 16 1) 0 = lineOf bs ∧ rf t (FAB_PORT_LINK (pk c.pkt 16 1)) 0 2 = pk c.pkt 17 1 ∧
      rf t (FAB_PORT_LINK (pk c.pkt 16 1)) 2 8 = 0 ∧ rf t (FAB_PORT_LINK (pk c.pkt 16 1)) 10 1 = (if pk c.pkt 17 1 = 0 then 0 else 1) ∧
      rd t (FAB_PORT_LANE (pk c.pkt 16 1)) = 0 ∧ pk c.pkt 16 1 ∉ t.faults.portsOut) ∧
  RowReads Instr.portConfig 0x0600 24 (fun _ => 64)
    (fun u c bs => pk c.pkt 16 1 ≤ 4 ∧ pk c.pkt 17 1 ≤ 3 ∧ (pk c.pkt 16 1 = 4 → pk c.pkt 17 1 ≤ 1) ∧ (pk c.pkt 16 1 < ports u ∨ pk c.pkt 16 1 = 4) ∧
      fld (lineOf bs) 50 6 = 0 ∧ fld (lineOf bs) 96 416 = 0 ∧
      ∃ l, l < 8 ∧ ∀ i, i < 8 → fld (lineOf bs) (72 + 3 * i) 3 ≠ l)
    (fun u c _ t => t = complete u c 0x0101 0x84 0) ∧
  Row Instr.portStatus 0x0601 (fun s c => Buffer s c 24 96 ∧ (pk c.pkt 16 1 < ports s ∨ pk c.pkt 16 1 = 4))
    (fun s c => replyBuffer s c (addrAt c 24) (portImage s (pk c.pkt 16 1)) 0) ∧
  RowReads Instr.nodeConfig 0x0602 24 (fun _ => 128)
    (fun _ c bs => pk c.pkt 16 2 ≠ 0 ∧ pk c.pkt 16 2 ≠ 0xFFFF ∧ nodeBlockBad (BitVec.ofNat 1024 (leNat bs)) = false)
    (fun u c bs t => nodeNum t = pk c.pkt 16 2 ∧ t.fab.node = BitVec.ofNat 1024 (leNat bs) ∧
      (pk c.pkt 16 2 = nodeNum u → c.src = none → (∀ q, (getQp u q).deleting = none) → t.fab.flows = u.fab.flows) ∧
      (pk c.pkt 16 2 ≠ nodeNum u → TwinQuiet u → c.src = none → (∀ q, (getQp u q).deleting = none) → ∀ f ∈ t.fab.flows, f.sent = [] ∧ f.waitq = [] ∧ f.next = 0)) ∧
  RowReads Instr.peerSet 0x0603 24 (fun _ => 64)
    (fun u c bs => isLocalNode u (pk c.pkt 16 2) = false ∧ pk c.pkt 16 2 ≠ 0xFFFF ∧ fld (lineOf bs) 201 311 = 0 ∧
      ((peerOf u (pk c.pkt 16 2)).isSome = true ∨ u.fab.peers.length < 4096))
    (fun _ c bs t => peerOf t (pk c.pkt 16 2) = some (lineOf bs)) ∧
  Row Instr.peerSet 0x0603 (fun s c => Buffer s c 24 64 ∧ (isLocalNode s (pk c.pkt 16 2) = true ∨ pk c.pkt 16 2 = 0xFFFF))
    (fun s c => complete s c 0x0101 0x80 0) ∧
  RowGives Instr.peerClear 0x0604 (fun s c => c.src = none ∧ ∀ q, (getQp s q).deleting = none)
    (fun s c t => peerOf t (pk c.pkt 16 2) = none ∧ (TwinQuiet s → ∀ f ∈ t.fab.flows, f.peer = pk c.pkt 16 2 → f.sent = [] ∧ f.waitq = [])) ∧
  RowGives Instr.twinPair 0x0605
    (fun s c => (peerOf s (pk c.pkt 16 2)).isSome = true ∧ twinState s = 0 ∧ s.se.pool.isSome = true ∧ s.twin.gotReq = false)
    (fun s c t => twinState t = 1 ∧ twinNode t = pk c.pkt 16 2 ∧ t.twin.cmd = some c.id ∧ getCmd t c.id ≠ none ∧ t.twin.mirror = [] ∧
      Posted t (pk c.pkt 16 2) (.notice 3 (BitVec.ofNat 64 (now s)) (devState s))) ∧
  Row Instr.twinPair 0x0605 (fun s c => (peerOf s (pk c.pkt 16 2)).isSome = true ∧ twinState s ≠ 0)
    (fun s c => complete s c 0x0102 (0x04 + 256 * twinState s) 0) ∧
  RowGives Instr.twinDetach 0x0606 (fun s _ => twinState s = 2)
    (fun s c t => getCmd t c.id ≠ none ∧
      (s.twin.gates ≠ [] → twinState t = 3 ∧ t.twin.cmd = some c.id ∧ t.twin.gates = s.twin.gates ∧ t.fab = s.fab) ∧
      (s.twin.gates = [] → twinState t = 0 ∧ twinNode t = 0xFFFF ∧ t.twin.mirror = [] ∧ t.twin.models = [] ∧
        t.twin.gates = [{ id := s.twin.gate, act := .detached c.id }] ∧
        ∃ x, Posted t (twinNode s) (.notice 2 (BitVec.ofNat 64 (now s)) x))) ∧
  Row Instr.twinDetach 0x0606 (fun s _ => twinState s ≠ 2) (fun s c => complete s c 0x0102 (0x04 + 256 * twinState s) 0) ∧
  Row Instr.twinStatus 0x0607 (fun s c => Buffer s c 24 64) (fun s c => replyBuffer s c (addrAt c 24) (regImage s TWIN_STATE 64) (twinState s)) ∧
  Row Instr.timeRead 0x0700 (fun _ _ => True) (fun s c => complete s c stOk 0 (s.time.sec.toNat * 1000000000 + s.time.ns)) ∧
  RowGives Instr.timeSet 0x0701 (fun s c => pk c.pkt 24 4 ≤ 999999999 ∧ rf s TIME_STATUS 5 1 = 0)
    (fun s c t => t.time.sec = BitVec.ofNat 48 (pk c.pkt 16 6) ∧ t.time.ns = pk c.pkt 24 4 ∧ t.time.frac = 0 ∧ t.time.cycles = s.time.cycles ∧
      rf t TIME_STATUS 0 3 = (if rf s TIME_STATUS 0 3 = 0 then 3 else rf s TIME_STATUS 0 3) ∧ getCmd t c.id = none) ∧
  Row Instr.timeSet 0x0701 (fun s c => pk c.pkt 24 4 ≤ 999999999 ∧ rf s TIME_STATUS 5 1 = 1) (fun s c => complete s c 0x0102 0x010C 0) ∧
  RowGives Instr.ptpConfig 0x0702
    (fun s c => fld c.pkt 153 7 = 0 ∧ pk c.pkt 17 1 ≤ 3 ∧ pk c.pkt 18 1 ≤ 127 ∧ (pk c.pkt 16 1 < ports s ∨ pk c.pkt 16 1 = 4))
    (fun _ c t => rf t (TIME_PTP_CFG (pk c.pkt 16 1)) 14 2 = pk c.pkt 17 1 ∧ rf t (TIME_PTP_CFG (pk c.pkt 16 1)) 16 1 = fld c.pkt 152 1 ∧
      ∀ k, k < 5 → rf t (TIME_PTP_CFG k) 17 8 = pk c.pkt 18 1) ∧
  RowGives Instr.ppsConfig 0x0703 (fun _ c => fld c.pkt 131 5 = 0)
    (fun s c t => t.time.ppsConfig = BitVec.ofNat 3 (fld c.pkt 128 3) ∧ t.pins.clk10m = bit c.pkt 129 ∧ t.pins.ppsOut = (s.pins.ppsOut && bit c.pkt 128)) ∧
  Row Instr.timeStatus 0x0704 (fun s c => Buffer s c 24 128)
    (fun s c => replyBuffer (latchTime s) c (addrAt c 24) (regImage (latchTime s) TIME_NOW_FRAC 128) 0)

/-- R399, R402, R405 to R417, R445. Attestation, firmware, the owner key, the debug lock, the trace unit and the sensors by command. -/
def Obligations.SecurityRows : Prop :=
  Row Instr.attest 0x0800 (fun s c => bufOk s (addrAt c 48) (pk c.pkt 56 4) = true ∧ reportBytes (measurements s).length ≤ pk c.pkt 56 4)
    (fun s c => replyBuffer (draw s 256).2 c (addrAt c 48) (report (draw s 256).2 (pk c.pkt 16 32) (draw s 256).1) (reportBytes (measurements s).length)) ∧
  Row Instr.attest 0x0800 (fun s c => bufOk s (addrAt c 48) (pk c.pkt 56 4) = true ∧ pk c.pkt 56 4 < reportBytes (measurements s).length)
    (fun s c => complete s c 0x0101 0x90 (reportBytes (measurements s).length)) ∧
  Row Instr.certRead 0x0801 (fun s c => bufOk s (addrAt c 24) (pk c.pkt 32 4) = true ∧ 59968 ≤ pk c.pkt 32 4 ∧ s.flash.certs.length = 59968)
    (fun s c => replyBuffer s c (addrAt c 24) s.flash.certs 59968) ∧
  (∀ (s : State) (id : Nat) (c : Cmd) (bs : List Byte) (u : State), Admitted s id 0x0802 c → Plain (begun s id) (taken s c) → pk c.pkt 16 1 ≤ 2 →
    pk c.pkt 32 4 ≤ 16809984 → bufOk s (addrAt c 24) (pk c.pkt 32 4) = true →
    structRead (begun s id) (taken s c) (addrAt c 24) (pk c.pkt 32 4) = (stOk, bs, u) →
    (imgFault u (pk c.pkt 16 1) bs = none → Plain u (taken s c) → Gives (.fwUpdate id) s fun t =>
      tfind t.flash.images (2 * pk c.pkt 16 1 + (1 - rf u SEC_BOOT_STATUS (pk c.pkt 16 1) 1)) = some { bytes := bs, committed := some (s.flash.commits + 1) } ∧
      t.flash.commits = s.flash.commits + 1 ∧ getCmd t id = none) ∧
    (∀ d, imgFault u (pk c.pkt 16 1) bs = some d → exec (.fwUpdate id) s = .next (complete (logSec u 1 (pk c.pkt 16 1) 0 (pkTag c.pkt).toNat) (taken s c) 0x0101 d 0))) ∧
  (∀ (s : State) (k : Nat) (bs : List Byte), bytesAt bs 4 1 ≠ k ∨ 64 < imgSvn bs ∨ bs.length < 32768 + bytesAt bs 16 4 ∨ bytesAt bs 16 4 = 0 ∨
    imgSvn bs < s.sec.floors.getD k 0 → imgFault s k bs ≠ none) ∧
  RowReads Instr.ownerKeySet 0x0803 24 (fun _ => 29984) (fun _ _ _ => True)
    (fun u c bs t => (ownerFault u bs = none → t.sec.owners = u.sec.owners ++ [(digest (leBytes 64 (bytesAt bs 64 64)), nbit (bytesAt bs 4 1) 3)] ∧
      t.flash.ownerKey = BitVec.ofNat 512 (bytesAt bs 64 64) ∧ t.sec.owners.length ≤ 4 ∧ t.sec.rootHash = u.sec.rootHash ∧ getCmd t c.id = none) ∧
      ∀ st d, ownerFault u bs = some (st, d) → t = complete u c st d 0) ∧
  RowReads Instr.debugPassword 0x0804 24 (fun _ => 128)
    (fun u c bs => c.src = none ∧ rf u SEC_DEBUG_STATUS 0 2 ≠ 2 ∧ bytesAt bs 0 1 = 0 ∧ 8 ≤ bytesAt bs 1 1 ∧ bytesAt bs 1 1 ≤ 64 ∧ bytesAt bs 2 2 / 16 = 0 ∧
      bytesAt bs 68 60 = 0 ∧ ∃ salt levels, u.flash.password = some (salt, passwordDigest u salt ((bs.drop 4).take (bytesAt bs 1 1)), levels))
    (fun u c _ t => rf t SEC_DEBUG_STATUS 0 2 = 1 ∧ (∃ salt d levels, u.flash.password = some (salt, d, levels) ∧
      rf t SEC_DEBUG_STATUS 2 4 = levels.toNat) ∧ rf t SEC_DEBUG_STATUS 6 3 = 5 ∧ rf t SEC_DEBUG_STATUS 9 1 = 1 ∧ rf t SEC_DEBUG_STATUS 11 1 = 0 ∧
      getCmd t c.id = none) ∧
  RowReads Instr.debugPassword 0x0804 24 (fun _ => 128)
    (fun u c bs => c.src = none ∧ rf u SEC_DEBUG_STATUS 0 2 ≠ 2 ∧ bytesAt bs 0 1 = 0 ∧ 8 ≤ bytesAt bs 1 1 ∧ bytesAt bs 1 1 ≤ 64 ∧ bytesAt bs 2 2 / 16 = 0 ∧
      bytesAt bs 68 60 = 0 ∧ 1 < rf u SEC_DEBUG_STATUS 6 3 ∧
      ∃ salt d levels, u.flash.password = some (salt, d, levels) ∧ passwordDigest u salt ((bs.drop 4).take (bytesAt bs 1 1)) ≠ d)
    (fun u _ _ t => rf t SEC_DEBUG_STATUS 0 2 = rf u SEC_DEBUG_STATUS 0 2 ∧ rf t SEC_DEBUG_STATUS 2 4 = rf u SEC_DEBUG_STATUS 2 4 ∧
      rf t SEC_DEBUG_STATUS 6 3 = rf u SEC_DEBUG_STATUS 6 3 - 1) ∧
  (∀ (s : State) (tag : Nat), rf s SEC_DEBUG_STATUS 6 3 = 1 → rf (passwordFailed s tag) SEC_DEBUG_STATUS 0 2 = 2 ∧
    rf (passwordFailed s tag) SEC_DEBUG_STATUS 2 4 = 0 ∧ rf (passwordFailed s tag) SEC_DEBUG_STATUS 6 3 = 0) ∧
  RowGives Instr.debugChallenge 0x0805 (fun s c => c.src = none ∧ Buffer s c 24 64)
    (fun s c t => ∃ n, t.sec.nonce = some (n, mono s) ∧ getCmd t c.id = none) ∧
  RowReads Instr.debugToken 0x0806 24 (fun _ => 29984)
    (fun u c _ => c.src = none ∧ rf u SEC_DEBUG_STATUS 0 2 ≠ 2 ∧ pk c.pkt 32 4 = 29984)
    (fun u c bs t => t.sec.nonce = none ∧ getCmd t c.id = none ∧
      (tokenOk u bs = true → rf t SEC_DEBUG_STATUS 0 2 = 1 ∧ rf t SEC_DEBUG_STATUS 2 4 = bytesAt bs 8 1 % 16 ∧ rf t SEC_DEBUG_STATUS 11 1 = 1) ∧
      (tokenOk u bs = false → rf t SEC_DEBUG_STATUS 0 2 = rf u SEC_DEBUG_STATUS 0 2 ∧ rf t SEC_DEBUG_STATUS 2 4 = rf u SEC_DEBUG_STATUS 2 4)) ∧
  (∀ (s : State) (bs : List Byte), s.sec.nonce = none ∨
    (∃ n at_, s.sec.nonce = some (n, at_) ∧ (at_ + 600000000000 ≤ mono s ∨ n ≠ BitVec.ofNat 256 (bytesAt bs 24 32))) ∨
    BitVec.ofNat 128 (bytesAt bs 56 16) ≠ s.flash.serial ∨ signedBy bs (BitVec.ofNat 512 (bytesAt bs 128 64)) = false ∨
    bytesAt bs 12 4 = 0 ∨ 86400 < bytesAt bs 12 4 → tokenOk s bs = false) ∧
  RowGives Instr.debugLock 0x0807 (fun s _ => rf s SEC_DEBUG_STATUS 0 2 = 1)
    (fun _ c t => rf t SEC_DEBUG_STATUS 0 2 = 0 ∧ rf t SEC_DEBUG_STATUS 2 4 = 0 ∧ rf t TRACE_CTRL 0 1 = 0 ∧ t.sec.expiryCycles = none ∧ getCmd t c.id = none) ∧
  Row Instr.debugLock 0x0807 (fun s _ => rf s SEC_DEBUG_STATUS 0 2 ≠ 1) (fun s c => complete s c stOk 0 0) ∧
  (∀ (s : State) (n : Nat), rf s SEC_DEBUG_STATUS 0 2 = 1 → s.sec.expiryCycles = some n → n ≤ s.time.cycles →
    Gives .debugExpiry s fun t => rf t SEC_DEBUG_STATUS 0 2 = 0 ∧ rf t SEC_DEBUG_STATUS 2 4 = 0 ∧ rf t TRACE_CTRL 0 1 = 0) ∧
  (∀ (s : State) (n : BitVec 256) (at_ : Nat), s.sec.nonce = some (n, at_) →
    (at_ + 600000000000 ≤ mono s → Gives .nonceExpiry s fun t => t.sec.nonce = none ∧ t.mem = s.mem) ∧
    (mono s < at_ + 600000000000 → exec .nonceExpiry s = .next s)) ∧
  RowReads Instr.traceConfig 0x0902 24 (fun _ => 64) (fun u _ bs => levelOpen u 0 = true ∧ traceFault u (lineOf bs) = none)
    (fun u c bs t => t = complete (traceSetup u (lineOf bs)) c stOk 0 0) ∧
  (∀ (s : State) (b : Line), bit b 71 = true → rf s TRACE_CTRL 0 1 = 0 → rd64 (traceSetup s b) TRACE_RECORDS = 0 ∧ rf (traceSetup s b) TRACE_CTRL 0 1 = 1 ∧
    (rd64 (traceSetup s b) TRACE_BUF_BASE).toNat = fld b 0 64 ∧ rf (traceSetup s b) TRACE_BUF_SIZE 0 6 = fld b 64 6 ∧
    (rd (traceSetup s b) TRACE_TAG).toNat = fld b 96 32 ∧ (rd (traceSetup s b) TRACE_TAG_MASK).toNat = fld b 128 32) ∧
  Row Instr.traceConfig 0x0902 (fun s _ => levelOpen s 0 = false) (fun s c => complete s c 0x0106 0 0) ∧
  Row Instr.sensorRead 0x0903 (fun s c => Buffer s c 24 256) (fun s c => replyBuffer s c (addrAt c 24) (bytesOf (sensorBlock s)) 0)

/-! ## Near-bank programs, hoists, the serving engine -/

namespace Sys2Proof.Claims
open Sys2Proof.Machine

/-- Program `p` is the one of `pid` on its stack, at an entry of operation `op` that has not begun. -/
def AtEnd (s : State) (stack pid op : Nat) (p : Program) : Prop := getProg s stack pid = some p ∧ bOp (progDesc s p) = op ∧ p.begun = false

/-- The same of a program that broke no rule: one that did runs only its END (R195). -/
def AtEntry (s : State) (stack pid op : Nat) (p : Program) : Prop := AtEnd s stack pid op p ∧ p.sevAll ≠ 0x0101

/-- What ARM, CONTROL and the command group start: a program of stack `k` at `entry`. -/
def Started (t : State) (k entry part : Nat) (owner : ProgOwner) : Prop :=
  ∃ p ∈ t.nb.programs, p.stack = k ∧ p.start = entry ∧ p.part = part ∧ p.owner = owner

end Sys2Proof.Claims

/-- R16, R24, R180, R187 to R197, R200, R201, R203, R204, R206 to R208, R299, R301. Near-bank programs: the command group, the entries' starts and completion, micro-steps of at
most 16 reads within the grant, and the aperture's START. The result entries that writes to a running entry's units make unspecified (R203) take
free values as the entry completes (log entry 106, DESIGN CHOICE); no other byte of the buffer changes then. Lines of
a region that a hold keeps from being written back are written as the hold ends, and the entry's reads wait for them. -/
def Obligations.NearBankRows : Prop :=
  (∀ (s : State) (stack entry : Nat) (ds : List Line), stack < stackCount s → entry + ds.length ≤ 64 →
    Gives (.nbProg stack entry ds) s fun t => (∀ i, i < ds.length → progEntry t stack (entry + i) = ds.getD i 0) ∧
      (∀ k e, e < 64 → k ≠ stack ∨ e < entry ∨ entry + ds.length ≤ e → progEntry t k e = progEntry s k e) ∧ t.mem = s.mem ∧ t.nb.programs = s.nb.programs) ∧
  (∀ (s : State) (stack entry part : Nat) (tag : W32), stack < stackCount s → aptOn s = false ∨ entry < 32 → startRefused s stack part = false →
    programCode s stack entry = none →
    Gives (.nbStart stack entry part tag) s fun t => t.nb.startOut = 0 ∧ ∃ p, t.nb.programs = s.nb.programs ++ [p] ∧ p.stack = stack ∧ p.start = entry ∧ p.cur = entry ∧
      p.part = part ∧ p.tag = tag ∧ p.owner = .group ∧ p.begun = false ∧ p.sev = 0) ∧
  (∀ (s : State) (stack entry part code e : Nat) (tag : W32), stack < stackCount s → aptOn s = false ∨ entry < 32 → startRefused s stack part = false →
    programCode s stack entry = some (code, e) →
    Gives (.nbStart stack entry part tag) s fun t => rf t (STK_NB_STATUS stack) 3 1 = 1 ∧ ∃ p, t.nb.programs = s.nb.programs ++ [p] ∧
      p.cur = (endEntry s stack entry).getD (lastEntry s entry) ∧ p.sevAll = 0x0101 ∧ p.detail = BitVec.ofNat 32 (code + 256 * e)) ∧
  (∀ (s : State) (stack entry part : Nat) (tag : W32), stack < stackCount s → aptOn s = false ∨ entry < 32 → startRefused s stack part = true →
    exec (.nbStart stack entry part tag) s = .next { s with nb := { s.nb with startOut := 0x0104 } }) ∧
  (∀ (s : State) (stack entry part : Nat) (tag : W32), aptOn s = true → 32 ≤ entry → exec (.nbStart stack entry part tag) s = .next s) ∧
  (∀ (s : State) (stack off : Nat) (bs : List Byte), stack < stackCount s → off + bs.length ≤ 2097152 →
    Gives (.nbBcast stack off bs) s fun t => (∀ i, i < bs.length → bufByte t stack (off + i) = bs.getD i 0) ∧
      (∀ k i, i < 2097152 → k ≠ stack ∨ i < off ∨ off + bs.length ≤ i → bufByte t k i = bufByte s k i) ∧ t.mem = s.mem ∧ t.nb.programs = s.nb.programs) ∧
  (∀ (s : State) (stack off n : Nat), stack < stackCount s → off + n ≤ 2097152 →
    Gives (.nbDrain stack off n) s fun t => t.nb.drained = (List.range n).map (fun i => bufByte s stack (off + i)) ∧ t.nb.bbuf = s.nb.bbuf ∧ t.mem = s.mem) ∧
  (∀ (s : State) (stack pid : Nat) (p : Program), getProg s stack pid = some p →
    Gives (.nbGroupAbort stack pid) s fun t => getProg t stack pid = none) ∧
  (∀ (s : State) (stack : Nat), Gives (.nbStatus stack) s fun t =>
    t.nb.statusOut = s.nb.programs.filter (fun p => p.stack == stack) ∧ t.nb.programs = s.nb.programs ∧ t.mem = s.mem) ∧
  (∀ c op, (c, op) ∈ [(Instr.gemv, 1), (Instr.qk, 2), (Instr.pv, 3)] → ∀ (s : State) (stack pid : Nat) (p : Program), AtEntry s stack pid op p →
    (op ≠ 1 → pagesBad s stack (progDesc s p) = false) →
    Gives (c stack pid) s fun t => ∃ q, getProg t stack pid = some q ∧ q.begun = true ∧ q.cur = p.cur ∧ q.sev = p.sev ∧
      q.results = p.results ++ [(bRes (progDesc s p), bNvec (progDesc s p) * bEntries (progDesc s p))] ∧
      (bAccum (progDesc s p) = false → ∀ i, i < bResBytes (progDesc s p) → bufByte t stack (bRes (progDesc s p) + i) = 0) ∧
      (bAccum (progDesc s p) = true → t.nb.bbuf = s.nb.bbuf)) ∧
  (∀ c op, (c, op) ∈ [(Instr.qk, 2), (Instr.pv, 3)] → ∀ (s : State) (stack pid : Nat) (p : Program), AtEntry s stack pid op p →
    pagesBad s stack (progDesc s p) = true →
    Gives (c stack pid) s fun t => rf t (STK_NB_STATUS stack) 3 1 = 1 ∧ ∃ q, getProg t stack pid = some q ∧ q.begun = false ∧
      q.cur = (endEntry s stack p.start).getD p.cur ∧ q.sevAll = 0x0101 ∧ q.detail = BitVec.ofNat 32 (0x24 + 256 * p.cur)) ∧
  (∀ (s : State) (stack pid : Nat) (p : Program), AtEntry s stack pid 4 p →
    Gives (.rclear stack pid) s fun t => (∃ q, getProg t stack pid = some q ∧ q.begun = true ∧ q.left = []) ∧ t.mem = s.mem ∧
      ∀ i, i < bBytes (progDesc s p) → bufByte t stack (bRes (progDesc s p) + i) = 0) ∧
  (∀ (s : State) (stack pid : Nat) (p : Program), AtEntry s stack pid 5 p →
    Gives (.pzero stack pid) s fun t => (∃ q, getProg t stack pid = some q ∧ q.begun = true ∧ q.left = []) ∧ t.nb.bbuf = s.nb.bbuf ∧
      ∀ r, bRegion s (progDesc s p) = some r → ∀ u w, bUnit (progDesc s p) ≤ u → u < bUnit (progDesc s p) + bUnitCount (progDesc s p) →
        (mapUnit s true u).2 / 2048 = stack → w < bUnitWords (progDesc s p) →
        sectorBytes t (wordSectors s r u w) = List.replicate 32 0 ∧ sectorBytes t (wordSectors s r u w + 1) = List.replicate 32 0) ∧
  (∀ (s : State) (stack pid : Nat) (p : Program), AtEntry s stack pid 0x10 p →
    localRange s (offOf (bAddr (progDesc s p) stack)) (bBytes (progDesc s p)) = .scratch →
    transferOpen s p false (offOf (bAddr (progDesc s p) stack)) (bBytes (progDesc s p)) = true → bAct (progDesc s p) + bBytes (progDesc s p) ≤ 2097152 →
    Gives (.load stack pid) s fun t => (∃ q, getProg t stack pid = some q ∧ q.begun = true ∧ q.tainted = p.tainted) ∧ t.mem = s.mem ∧
      t.parts = (bucketCharge s p.part p.stack (bBytes (progDesc s p))).parts ∧ ∀ i, i < bBytes (progDesc s p) → bufByte t stack (bAct (progDesc s p) + i) =
        scratchByte s ((offOf (bAddr (progDesc s p) stack) - 0x20000000000) / 131072) (offOf (bAddr (progDesc s p) stack) % 131072 + i)) ∧
  (∀ (s : State) (stack pid : Nat) (p : Program), AtEntry s stack pid 0x10 p →
    (transferOpen s p (loadHeld s stack (progDesc s p)) (offOf (bAddr (progDesc s p) stack)) (bBytes (progDesc s p)) = true →
      Gives (.load stack pid) s fun t => ∃ q, getProg t stack pid = some q ∧ q.begun = true ∧ q.cur = p.cur) ∧
    (transferOpen s p (loadHeld s stack (progDesc s p)) (offOf (bAddr (progDesc s p) stack)) (bBytes (progDesc s p)) = false → exec (.load stack pid) s = .next s)) ∧
  (∀ (s : State) (stack pid : Nat) (p : Program), AtEntry s stack pid 0x11 p →
    transferOpen s p (drainHeld s stack (progDesc s p)) (offOf (bAddr (progDesc s p) stack)) (bBytes (progDesc s p)) = false → exec (.drain stack pid) s = .next s) ∧
  (∀ (s : State) (p : Program) (off n : Nat), transferOpen s p true off n = false ∧
    (localRange s off n = .device → (transferOpen s p false off n = true ↔ ∀ k, k < stackCount s → homeBytes s off n k = 0 ∨
      bucketOpen s p.part k (homeBytes s off n k) (decide (stackInflight s k < 2048)) = true)) ∧
    (localRange s off n = .scratch →
      (transferOpen s p false off n = true ↔ bucketOpen s p.part p.stack n (decide (stackInflight s p.stack < 2048)) = true))) ∧
  (∀ (s : State) (stack pid : Nat) (p : Program), AtEntry s stack pid 0x11 p →
    transferOpen s p (drainHeld s stack (progDesc s p)) (offOf (bAddr (progDesc s p) stack)) (bBytes (progDesc s p)) = true →
    Gives (.drain stack pid) s fun t => ∃ q, getProg t stack pid = some q ∧ q.begun = true ∧ q.cur = p.cur ∧ q.results = [] ∧ q.sev = 0) ∧
  (∀ (s : State) (stack pid : Nat) (p : Program), AtEnd s stack pid 0 p →
    Gives (.blastEnd stack pid) s fun t => getProg t stack pid = none) ∧
  (∀ (s : State) (stack pid : Nat) (p : Program), getProg s stack pid = some p → p.begun = false → bOp (progDesc s p) ≠ 0 → p.sevAll = 0x0101 →
    endEntry s stack p.start = none → Gives (.blastEnd stack pid) s fun t => getProg t stack pid = none) ∧
  (∀ (c : Instr) (op stack pid : Nat) (s : State) (p : Program), (c, op) ∈ [(Instr.gemv stack pid, 1), (.qk stack pid, 2), (.pv stack pid, 3),
      (.rclear stack pid, 4), (.pzero stack pid, 5), (.load stack pid, 0x10), (.drain stack pid, 0x11)] → getProg s stack pid = some p →
    p.sevAll = 0x0101 ∨ bOp (progDesc s p) ≠ op ∨ p.begun = true → exec c s = .next s) ∧
  (∀ (s : State) (stack pid : Nat) (p : Program), AtEnd s stack pid 0 p → p.owner = .group → bSemInc (progDesc s p) = 0 → bRecord (progDesc s p) ≠ 0 →
    localRange s (offOf (bRecord (progDesc s p))) 16 = .window → s.host.linkUp = true → rf s TRACE_CTRL 0 1 = 0 →
    Gives (.blastEnd stack pid) s fun t => hostRead t (offOf (bRecord (progDesc s p)) - 0x80000000000) 16 = (stOk, leBytes 2 p.sevAll.toNat ++
      leBytes 2 p.cur ++ leBytes 4 (bTag (progDesc s p)).toNat ++ leBytes 4 (if p.sevAll = 0x0101 then p.detail.toNat else 0) ++ leBytes 4 0)) ∧
  (∀ (s : State) (stack pid : Nat) (p : Program), getProg s stack pid = some p → p.begun = true → p.left = [] →
    Gives (.entryComplete stack pid) s fun t => (∃ q, getProg t stack pid = some q ∧ q.begun = false ∧ q.cur = p.cur + 1) ∧ t.mem = s.mem ∧
      (bCompute (progDesc s p) = false → t.nb.bbuf = s.nb.bbuf) ∧
      ∀ i, i < 2097152 → (∀ r, bRegion s (progDesc s p) = some r → ∀ e ∈ loose s p (progDesc s p) r,
        i < bRes (progDesc s p) + 4 * e ∨ bRes (progDesc s p) + 4 * e + 4 ≤ i) → bufByte t stack i = bufByte s stack i) ∧
  (∀ (s : State) (stack pid : Nat) (p : Program), getProg s stack pid = some p → p.begun = false ∨ p.left ≠ [] →
    exec (.entryComplete stack pid) s = .next s) ∧
  (∀ (s : State) (stack pid bank : Nat) (p : Program), getProg s stack pid = some p → p.begun = true → (getUnit s bank).seg = none ∨ (getUnit s bank).seg = some pid →
    pcHeld s (bank / 32) = false → bank / 2048 = stack → p.unflushed = [] →
    exec (.microStep stack pid bank) s =
      .next (iterate (min 16 (min (tget p.left bank 0) (min (64 - tget s.nb.usedBank bank 0) (readsOpen s (bank / 8) p)))) (fun _ s => microRead s stack pid bank) s)) ∧
  (∀ (s : State) (stack pid bank : Nat) (p : Program), getProg s stack pid = some p → p.begun = true → (getUnit s bank).seg = none ∨ (getUnit s bank).seg = some pid →
    pcHeld s (bank / 32) = false → bank / 2048 = stack → p.unflushed ≠ [] → (∀ ln ∈ p.unflushed, lineWaits s ln = false) →
    0 < tget p.left bank 0 → tget s.nb.usedBank bank 0 < 64 →
    exec (.microStep stack pid bank) s =
      .next (iterate (min 16 (min (tget p.left bank 0) (min (64 - tget s.nb.usedBank bank 0) (readsOpen s (bank / 8) p)))) (fun _ s => microRead s stack pid bank)
        (modProg (p.unflushed.foldl flushLine s) pid (fun p => { p with unflushed := [] })))) ∧
  (∀ (s : State) (stack pid bank : Nat) (p : Program), getProg s stack pid = some p →
    pcHeld s (bank / 32) = true ∨ (∃ q, (getUnit s bank).seg = some q ∧ q ≠ pid) ∨ (∃ ln ∈ p.unflushed, lineWaits s ln = true) →
    exec (.microStep stack pid bank) s = .next s) ∧
  (∀ (s : State) (sid : Nat) (p : Program), tget s.nb.used sid 0 + readsOpen s sid p ≤ 16 * tget s.nb.grant (sid / 256) 0 ∨ readsOpen s sid p = 0) ∧
  (∀ (s : State) (stack : Nat), Gives (.grantWindow stack) s fun t => tget t.nb.grant stack 0 = tget s.nb.grantSet stack 0 ∧
    (∀ k, k ≠ stack → tget t.nb.grant k 0 = tget s.nb.grant k 0) ∧ (∀ sid, sid / 256 = stack → tget t.nb.used sid 0 = 0) ∧
    (∀ bank, bank / 2048 = stack → tget t.nb.usedBank bank 0 = 0) ∧ t.mem = s.mem) ∧
  (∀ (s : State) (line : Line), aptOn s = true → bit line 14 = true → bit s.nb.aptStatus 0 = false → fld line 0 8 ≠ 0 → 1 ≤ fld line 8 6 → fld line 8 6 ≤ 32 →
    fld line 15 17 = 0 → fld line 64 448 = 0 → (∀ k, k < 8 → bit line k = true → k < stackCount s ∧ startRefused s k (rf s (STK_APT_CTRL 0) 1 4) = false) →
    Gives (.start line) s fun t => t.nb.aptStatus = 1 ∧ ∀ k, k < 8 → bit line k = true → Started t k 32 (rf s (STK_APT_CTRL 0) 1 4) .aperture ∧
      ∀ i, i < fld line 8 6 → progEntry t k (32 + i) = tget s.nb.aptSlots i 0) ∧
  (∀ (s : State) (line : Line), aptOn s = true → bit line 14 = true → bit s.nb.aptStatus 0 = false → fld line 0 8 = 0 ∨ fld line 8 6 = 0 ∨ 32 < fld line 8 6 →
    Gives (.start line) s fun t => bit t.nb.aptStatus 0 = false ∧ bit t.nb.aptStatus 1 = true ∧ fld t.nb.aptStatus 16 16 = 0x0101 ∧
      fld t.nb.aptStatus 32 32 = 0x27 ∧ t.nb.programs = s.nb.programs) ∧
  (∀ (s : State) (line : Line), aptOn s = true → bit line 14 = true → bit s.nb.aptStatus 0 = true →
    Gives (.start line) s fun t => t.nb.aptStatus = s.nb.aptStatus ||| 4 ∧ t.nb.programs = s.nb.programs ∧ t.mem = s.mem)

/-- R62 to R65, R180, R181, R299, R333, R334, R453, R455. Hoists: which move starts, what an unreadable descriptor ends as, and retirement with record, signal
and command. A move waits for holds of what it needs and for its partition's buckets. -/
def Obligations.HoistRows : Prop :=
  (∀ (s : State) (hoist i : Nat) (r : MoveReq), nextMove s hoist = some i → s.hoists.queue[i]? = some r → serving s = true → hoistHeld s hoist = false →
    moveReady s r = true →
    exec (if mvOp r.desc = 2 then Instr.fill hoist else Instr.move hoist) s =
      .next (startMove { s with hoists := { s.hoists with queue := s.hoists.queue.eraseIdx i } } r) ∧
    exec (if mvOp r.desc = 2 then Instr.move hoist else Instr.fill hoist) s = .next s) ∧
  (∀ (s : State) (hoist i : Nat) (r : MoveReq), nextMove s hoist = some i → s.hoists.queue[i]? = some r → moveReady s r = false →
    exec (.move hoist) s = .next s ∧ exec (.fill hoist) s = .next s) ∧
  (∀ (s : State) (r : MoveReq) (p : MvPlan), r.unreadable = 0 → (mvCheck s r.desc (r.owner.map (·.vcore))).1 = .ok p →
    mvHeld s r.desc p = true ∨ bytesOpen s r.part (mvBytes s r.desc p) = false → moveReady s r = false) ∧
  (∀ (s : State) (hoist i : Nat), nextMove s hoist = some i → ∃ r, s.hoists.queue[i]? = some r ∧ r.hoist = hoist ∧
    (mvOrdered r.desc = true → (∀ m ∈ s.hoists.moves, m.req.hoist ≠ hoist) ∧ ∀ e ∈ s.hoists.queue.take i, e.hoist ≠ hoist)) ∧
  (∀ (s : State) (hoist : Nat), hoistHeld s hoist = true → exec (.move hoist) s = .next s ∧ exec (.fill hoist) s = .next s) ∧
  (∀ (s : State) (hoist i : Nat) (r : MoveReq), nextMove s hoist = some i → s.hoists.queue[i]? = some r → serving s = true → hoistHeld s hoist = false →
    r.unreadable ≠ 0 → mvOp r.desc ≠ 2 →
    Gives (.move hoist) s fun t => ∃ m, t.hoists.moves = s.hoists.moves ++ [m] ∧ m.id = s.cores.nextId ∧ m.status = r.unreadable ∧ m.phase = .done ∧
      t.hoists.queue = s.hoists.queue.eraseIdx i) ∧
  (∀ (s : State) (hoist i : Nat) (r : MoveReq), nextMove s hoist = some i → s.hoists.queue[i]? = some r → serving s = true → hoistHeld s hoist = false →
    moveReady s r = true → mvOp r.desc = 2 →
    Gives (.fill hoist) s fun t => t.hoists.queue = s.hoists.queue.eraseIdx i ∧ ∃ m ∈ t.hoists.moves, m.id = s.cores.nextId ∧ m.req = r) ∧
  (∀ (s : State) (m : Move), s.hoists.moves.find? (fun x => x.id == m.id) = some m → pktOpen s (.move m.id) = false → hoistHeld s m.req.hoist = false →
    m.phase = .done → mvEndNode s m = 0 → mvRecordHeld s m = false → Gives (.moveRetire m.id) s fun t => ∀ x ∈ t.hoists.moves, x.id ≠ m.id) ∧
  (∀ (s : State) (m : Move), s.hoists.moves.find? (fun x => x.id == m.id) = some m → pktOpen s (.move m.id) = false → hoistHeld s m.req.hoist = false →
    m.phase = .done → mvEndNode s m = 0 → m.req.unreadable = 0 → m.req.cmd = none → mvRecord m.req.desc ≠ 0 → mvInc m.req.desc = 0 →
    localRange s (mvRecord m.req.desc % 2 ^ 48) 16 = .window → s.host.linkUp = true → rf s TRACE_CTRL 0 1 = 0 →
    Gives (.moveRetire m.id) s fun t => hostRead t (mvRecord m.req.desc % 2 ^ 48 - 0x80000000000) 16 = (stOk, leBytes 2 m.status.toNat ++
      leBytes 2 (mvSubtag m.req.desc).toNat ++ leBytes 4 (mvTag m.req.desc).toNat ++
      (if m.status = 0x0101 ∨ m.status = 0x0001 then leBytes 4 m.detail.toNat ++ leBytes 4 m.position.toNat else List.replicate 8 0))) ∧
  (∀ (s : State) (m : Move) (c : Cmd), s.hoists.moves.find? (fun x => x.id == m.id) = some m → pktOpen s (.move m.id) = false →
    hoistHeld s m.req.hoist = false → m.phase = .done → mvEndNode s m = 0 → mvRecordHeld s m = false → m.req.cmd = some c.id → getCmd s c.id = some c →
    Gives (.moveRetire m.id) s fun t => getCmd t c.id = none) ∧
  (∀ (s : State) (m : Move), s.hoists.moves.find? (fun x => x.id == m.id) = some m → pktOpen s (.move m.id) = true ∨
    (m.phase = .gets ∧ mvHeld s m.req.desc m.plan = true) ∨ (mvEndNode s m = 0 ∧ mvRecordHeld s m = true) → exec (.moveRetire m.id) s = .next s)

/-- R21, R194, R199, R210, R212, R216, R217, R220, R227, R234, R238 to R240, R244, R245, R247, R251, R259, R260. Steps and tiers. -/
def Obligations.StepRows : Prop :=
  (∀ (s : State) (part : Nat) (ring : Ring) (p : Part) (ws : List Work) (u : State), part < 16 → tfind s.se.rings part = some ring → tfind s.parts part = some p →
    serving s = true → tfind s.faults.running 5 = none → tfind s.se.steps part = none → displaced s part = [] → startWorks s part ring = (ws, u) → ws ≠ [] →
    recordFits u part ring (min (maxEntries ring) (ws.length + min 1024 (tget u.se.status part []).length)) = true →
    Gives (.stepStart part) s fun t => rf t (PART_STATUS part) 1 1 = 1 ∧ ∃ run, tfind t.se.steps part = some run ∧ run.works = ws ∧
      run.start = BitVec.ofNat 64 (now u) ∧ run.todo = stepGroups u (batches u ws) ∧ run.group = none ∧ run.rescued = false) ∧
  (∀ (s : State) (part : Nat) (run : StepRun), tfind s.se.steps part = some run → exec (.stepStart part) s = .next s) ∧
  -- the next group waits for both halves and for the layer's attention, and is planned with the grant in force
  (∀ (s : State) (part : Nat) (run : StepRun), tfind s.se.steps part = some run → halvesDone s part run = none →
    exec (.groupPlan part) s = .next (advanceDense (advanceNear s part run) part)) ∧
  (∀ (s u : State) (part : Nat) (run : StepRun), halvesDone s part run = some u → nearOver s part run = true ∧ run.dense = [] ∧
    (run.signals + run.denseSig ≠ 0 → semTake s run.sem (BitVec.ofNat 64 (run.signals + run.denseSig)) = (true, u)) ∧ ∀ p ∈ s.nb.programs, p.owner ≠ .sequencer part) ∧
  (∀ (s u v : State) (part : Nat) (x : PlanItem) (run : StepRun) (rounds : List (List NearProg)), tfind s.se.steps part = some run →
    halvesDone s part run = some u → attentionDue run = some x →
    attnRounds u part { run.settled with attended := true } x = (rounds, v) → rounds ≠ [] ∨ attnReads v { run.settled with attended := true } x ≠ [] →
    exec (.groupPlan part) s =
      .next (beginHalves v part { run.settled with attended := true } rounds (attnReads v { run.settled with attended := true } x))) ∧
  -- the dense half: what no hold and no bucket keeps is read, paid for, and leaves its results; its last read signals
  (∀ (s : State) (part : Nat) (run : StepRun) (x : DenseRead), run.dense = [x] →
    (devHeld s x.addr x.n = true ∨ rangeOpen s part x.addr x.n = false → denseTurn s part run = (run, s)) ∧
    (devHeld s x.addr x.n = false → rangeOpen s part x.addr x.n = true → (denseTurn s part run).1.dense = [] ∧
      (denseTurn s part run).2 = writeResults (devRead (chargeRange s part x.addr x.n) x.addr x.n { port := 1 }).2.2 part x.out)) ∧
  (∀ (s : State) (part : Nat) (run : StepRun), tfind s.se.steps part = some run → run.dense ≠ [] → (denseTurn s part run).1.dense = [] →
    advanceDense s part = semSignal (putRun (denseTurn s part run).2 part (denseTurn s part run).1) (denseTurn s part run).1.sem 1
      { source := 1, agent := partBase (putRun (denseTurn s part run).2 part (denseTurn s part run).1) part, port := 0 }) ∧
  (∀ (s u : State) (part : Nat) (x : PlanItem) (rest : List PlanItem) (run : StepRun), tfind s.se.steps part = some run →
    halvesDone s part run = some u → attentionDue run = none → run.todo = x :: rest →
    Gives (.groupPlan part) s fun t => ∃ r mode, tfind t.se.steps part = some r ∧ r.todo = rest ∧ r.group = some (x, mode) ∧ r.rescued = false ∧
      r.works = run.works ∧ r.start = run.start) ∧
  (∀ (s u : State) (part sem : Nat) (p : NearProg), startNear s part sem p = some u → startRefused s p.stack part = false ∧
    ∃ e b, entryRun s p.stack (p.body.length + 1) = some e ∧ bufPlace s p.stack p.bytes = some b ∧ Started u p.stack e part (.sequencer part) ∧
      (∀ i, i < p.body.length → progEntry u p.stack (e + i) = rebase b (p.body.getD i 0)) ∧ progEntry u p.stack (e + p.body.length) = endLine sem) ∧
  -- RESCUE
  (∀ (s : State) (part : Nat) (x : PlanItem) (mode : Mode) (run : StepRun) (p : Program), tfind s.se.steps part = some run → run.group = some (x, mode) →
    mode ≠ .dense → run.attended = false → run.drained = false → run.signals ≤ (seqProgs s part).length → (∀ q ∈ s.nb.programs, q.owner = .sequencer part → drainBegun s q = false) →
    p ∈ s.nb.programs → p.owner = .sequencer part → tget s.nb.grant p.stack 0 = 0 → 1000 * forceFld s part HF_LSPLIT_CFG 16 8 ≤ dryNs s p.stack →
    Gives (.rescue part) s fun t => (∃ r, tfind t.se.steps part = some r ∧ r.group = some (x, .dense) ∧ r.rescued = true ∧ r.rounds = [] ∧
        r.dense = run.dense ++ rescueRows (bump ((seqProgs s part).foldl abortProgram s) HF_LSPLIT_RESCUE_COUNT HF_LSPLIT_TALLY_STATUS 3 1) x
          (nearGroups x.entry mode)) ∧
      ∀ q ∈ t.nb.programs, q.owner ≠ .sequencer part) ∧
  (∀ (s : State) (part : Nat) (run : StepRun), tfind s.se.steps part = some run →
    (∀ p ∈ s.nb.programs, p.owner = .sequencer part → tget s.nb.grant p.stack 0 ≠ 0 ∨ dryNs s p.stack < 1000 * forceFld s part HF_LSPLIT_CFG 16 8) ∨
      (∃ p ∈ s.nb.programs, p.owner = .sequencer part ∧ drainBegun s p = true) ∨ run.drained = true ∨ (seqProgs s part).length < run.signals → exec (.rescue part) s = .next s) ∧
  -- STEP_COMMIT
  (∀ (s u : State) (part : Nat) (res : StepResult) (run : StepRun) (ring : Ring), tfind s.se.steps part = some run → tfind s.se.rings part = some ring →
    run.todo = [] → attentionDue run = none → halvesDone s part run = some u →
    Gives (.stepCommit part res) s fun t => tfind t.se.steps part = none ∧ ∃ lines, (part, BitVec.ofNat 64 (stepNumber s part), lines) ∈ t.se.commitLog) ∧
  (∀ (s : State) (part : Nat) (res : StepResult) (run : StepRun), tfind s.se.steps part = some run →
    run.todo ≠ [] ∨ attentionDue run ≠ none ∨ halvesDone s part run = none → exec (.stepCommit part res) s = .next s) ∧
  (∀ (props argmax : List W32) (test : List (Nat × Nat × Nat)), acceptLen true props argmax test ≤ props.length ∧
    props.take (acceptLen true props argmax test) = argmax.take (acceptLen true props argmax test) ∧
    (acceptLen true props argmax test < props.length →
      argmax[acceptLen true props argmax test]? ≠ props[acceptLen true props argmax test]?)) ∧
  (∀ (props argmax : List W32) (test : List (Nat × Nat × Nat)), (∀ i u q p, i < acceptLen false props argmax test → test[i]? = some (u, q, p) →
      u * q ≤ p * 2 ^ 32) ∧
    (acceptLen false props argmax test < props.length → ∀ u q p, test[acceptLen false props argmax test]? = some (u, q, p) → p * 2 ^ 32 < u * q)) ∧
  -- idle boundaries
  (∀ (s : State) (part : Nat), partDefined s part = true → tfind s.se.steps part = none → serving s = true → tfind (boundary s part []).se.rings part = none →
    Gives (.idleBoundary part) s fun t => tget t.se.status part [] = []) ∧
  (∀ (s : State) (part : Nat), partDefined s part = true → tfind s.se.steps part = none → serving s = true → tget (boundary s part []).se.status part [] = [] →
    tfind (boundary s part []).se.rings part ≠ none → exec (.idleBoundary part) s = .next (boundary s part [])) ∧
  (∀ (s v : State) (part : Nat) (ring : Ring) (q : List Line), partDefined s part = true → tfind s.se.steps part = none → serving s = true →
    tfind (boundary s part []).se.rings part = some ring → tget (boundary s part []).se.status part [] ≠ [] →
    takeStatus (boundary s part []) part ring 0 = (q, v) →
    (q ≠ [] → (startWorks v part ring).1 = [] → exec (.idleBoundary part) s = .next (writeRecord v part ring 0 (now v) 0 q)) ∧
    ((startWorks v part ring).1 ≠ [] → Gives (.idleBoundary part) s fun t => tget t.se.status part [] = tget (boundary s part []).se.status part [])) ∧
  -- tiers
  (∀ (s : State) (i : Nat) (x : Session), getSess (cacheIn s i) i = some x → srState x.record = stPaused → srPinned x.record = false → x.tierTo = none →
    x.waiting = false → srUntil x.record ≤ now (cacheIn s i) → srUntil x.record ≠ 2 ^ 64 - 1 →
    exec (.ttlExpiry i) s = .next (startDown (cacheIn s i) i (srTier x.record) 4)) ∧
  (∀ (s : State) (i t : Nat) (x : Session), getSess s i = some x → nextTier s x t = 4 →
    ∃ y, getSess (startDown s i t 4) i = some y ∧ y.tierTo = some 4 ∧ y.tierDone = true) ∧
  (∀ (s : State) (i t a : Nat) (x : Session), getSess s i = some x → nextTier s x t ≠ 4 → imagePlace s (nextTier s x t) (packedSize x) = some a →
    ∃ y, getSess (startDown s i t 4) i = some y ∧ y.tierTo = some (nextTier s x t) ∧ y.tierAddr = a ∧ y.tierDone = false) ∧
  (∀ (s : State) (i t : Nat) (x : Session), getSess s i = some x → nextTier s x t ≠ 4 → imagePlace s (nextTier s x t) (packedSize x) = none →
    movable (putSess s i { x with tierWait := some (t + 1) }) (nextTier s x t) = [] →
    startDown s i t 4 = putSess s i { x with tierWait := some (t + 1) }) ∧
  (∀ (s : State) (t size a : Nat), imagePlace s t size = some a → a + size ≤ poolFld s (pBase · (2 + t)) + storeBytes s t ∧
    ∀ p ∈ imagesIn s t, a + size ≤ p.1 ∨ p.1 + p.2 ≤ a) ∧
  (∀ (s : State) (i t : Nat) (x : Session), getSess s i = some x → x.tierTo = some t → x.tierDone = false →
    (∀ y, getSess (cacheIn s i) i = some y → (∀ id, y.tierId = some id → pktOpen (cacheIn s i) (.tier id) = false) →
      (tierOpen (cacheIn s i) i t y = true → exec (.tierMoveDone i .copied) s = .next (copyTier (cacheIn s i) i t y)) ∧
      (tierOpen (cacheIn s i) i t y = false → exec (.tierMoveDone i .copied) s = .next (cacheIn s i))) ∧
    Gives (.tierMoveDone i .readError) s (fun u => ∃ y, getSess u i = some y ∧ y.tierTo = some 5 ∧ y.tierDone = true) ∧
    (t = 0 → exec (.tierMoveDone i .writeError) s = .next (abandonMove (cacheIn s i) i)) ∧
    (t ≠ 0 → exec (.tierMoveDone i .writeError) s = .next (startDown (abandonMove (cacheIn s i) i) i t 4))) ∧
  (∀ (s u : State) (i t : Nat) (st : W16) (img : List Byte) (x : Session), srTier x.record ≠ 0 → imageHere s (srKvAddr x.record) = true → x.tierId = none →
    readImage s (srKvAddr x.record) (srPacked x.record) = (st, img, u) → st ≠ 0 ∨ imageSound img = false → copyTier s i t x = loseImage u i t)

namespace Sys2Proof.Claims

/-- The tallies of an arriving DATA packet (R341). -/
def counted (s : State) (f : Frame) : State :=
  let s := portTally s f.port 3 1
  if f.ce then portTally s f.port 9 1 else s

/-- The receiving half of the flow a DATA packet arrives to, started anew by a SYN of another incarnation (R324). -/
def rxFlow (s : State) (f : Frame) : Flow :=
  let fl := getFlow s f.src f.cls
  let fl := if fl.rxPair = some (f.srcEpoch, f.incarn) then fl else rxFresh fl (f.srcEpoch, f.incarn)
  { fl with peerEpoch := f.srcEpoch, rxCount := fl.rxCount + 1, rxEce := fl.rxEce + b2n f.ce }

/-- The full number of the packet; none for one that precedes the incarnation's first, and for a SYN of the incarnation held (R322, R324, R354). -/
def placeOf (s : State) (f : Frame) : Option Nat :=
  if (getFlow s f.src f.cls).rxPair = some (f.srcEpoch, f.incarn) ∧ f.syn = true then none else psnNear (rxFlow s f).rxRcv f.psn

def psnOf (s : State) (f : Frame) : Nat := (placeOf s f).getD 0

/-- The packet belongs to the flow: its incarnation is the one held and names this epoch, or it is the SYN of one. -/
def InFlow (s : State) (f : Frame) : Prop :=
  f.syn = true ∨ ((getFlow s f.src f.cls).rxPair = some (f.srcEpoch, f.incarn) ∧ (f.dstEpoch = 0 ∨ f.dstEpoch = epoch s))

/-- A DATA packet is received (R330, R338, R449): not dropped, and the receive buffer has room. -/
def Received (s : State) (f : Frame) : Prop :=
  rxUp s f = true ∧ tget s.fab.dropNext f.port 0 = 0 ∧ rxBuffered s f.port + 64 + f.payload.length ≤ 4194304

/-- A DATA packet is accepted: it was not received before and lies in the window (R323 to R325). -/
def Accepted (s : State) (f : Frame) : Prop :=
  Received s f ∧ knownPeer s f.src = true ∧ InFlow s f ∧ placeOf s f = some (psnOf s f) ∧ (rxFlow s f).rxRcv ≤ psnOf s f ∧ psnOf s f < (rxFlow s f).rxRcv + 2048 ∧
    psnOf s f ∉ (rxFlow s f).rxHave

/-- The state in which an accepted packet is performed. -/
def arrived (s : State) (f : Frame) : State := setFlow (counted s f) { rxTake (rxFlow s f) (psnOf s f) with ackDue := true }

/-- Nothing holds an accepted request back: its sectors can be reached, and no request held before it touches them (R180, R363). -/
def Unheld (s : State) (f : Frame) : Prop :=
  rxBlocked (arrived s f) f.op f.payload = false ∧
    rxBehind (arrived s f) f.op f.payload ((arrived s f).fab.flows.map (·.rxHeld)).flatten = false

/-- An accepted request of kind `k`, well formed, of a device that serves the fabric, with nothing it must wait for (R180, R321, R338, R363). -/
def Asked (s : State) (f : Frame) (k : Byte) : Prop :=
  Accepted s f ∧ devState s ≠ 7 ∧ f.op.kind = k ∧ f.op.reserved = false ∧ Unheld s f

/-- The sender's entry has the permission bits (R315, R317). -/
def Permits (s : State) (f : Frame) (bits : List Nat) : Prop := ∃ b, peerOf s f.src = some b ∧ ∀ x ∈ bits, bit b x = true

/-- The address is one of this node's (R314). -/
def Ours (s : State) (f : Frame) : Prop := nodeOf f.op.addr = 0 ∨ nodeOf f.op.addr = nodeNum s

/-- `n` bytes at the address lie in device memory, none of them in the row sets of R225. -/
def InDevice (s : State) (f : Frame) (n : Nat) : Prop :=
  localRange s (offOf f.op.addr) n = .device ∧ touchesReserve s (offOf f.op.addr) n = false

/-- `n` bytes at the address lie in a scratchpad, aligned, of a placed core; or in the host window. -/
def InScratch (s : State) (f : Frame) (n : Nat) : Prop :=
  localRange s (offOf f.op.addr) n = .scratch ∧ offOf f.op.addr % 8 = 0 ∧ n % 8 = 0 ∧ unplaced s ((offOf f.op.addr - 0x20000000000) / 131072) = false

/-- What an operation that ended with a status leaves: performed, or answered with REMOTE_ERROR and a reason (R331). -/
def ended (x : W16 × State) (f : Frame) (p reason : Nat) : State :=
  if x.1 = stOk then markPerf x.2 f.src f.cls p else rxError x.2 f.src f.cls f.op p x.1 (if x.1 = stBadParam then 3 else reason)

/-- The rows of DATA packets, each with the kinds it takes (R321). -/
def DataRow (r : Frame → Instr) (ks : List Byte) : Prop :=
  (r, ks) ∈ [(Instr.put, [1]), (Instr.levelAdd, [2]), (Instr.signal, [3]), (Instr.putSignal, [4]), (Instr.get, [5]), (Instr.atomic, [6]), (Instr.command, [7]),
   (Instr.getResp, [0x81]), (Instr.atomicResp, [0x82]), (Instr.commandReply, [0x83]), (Instr.errorResp, [0x84]),
   (Instr.reservedKindPacket, ([0, 8, 9, 0x7F, 0x80, 0x85, 0xFF] : List Byte))]

end Sys2Proof.Claims

/-- R312, R317, R321 to R325, R330, R338, R341, R354, R449. A DATA packet is discarded, dropped, counted, answered with a RESET, or found a duplicate; an
unresolved next hop is asked for once. -/
def Obligations.DataPacketRows : Prop :=
  (∀ (r : Frame → Instr) (ks : List Byte) (s : State) (f : Frame), DataRow r ks → f.op.kind ∈ ks →
    (rxUp s f = false → exec (r f) s = .next s) ∧
    (∀ n, rxUp s f = true → tget s.fab.dropNext f.port 0 = n + 1 → Gives (r f) s fun t =>
      tget t.fab.dropNext f.port 0 = n ∧ t.fab.flows = s.fab.flows ∧ t.fab.tx = s.fab.tx ∧ t.bar = s.bar ∧ t.mem = s.mem) ∧
    (Received s f → knownPeer s f.src = false → exec (r f) s = .next (portTally (counted s f) f.port 8 1)) ∧
    (rxUp s f = true → tget s.fab.dropNext f.port 0 = 0 → 4194304 < rxBuffered s f.port + 64 + f.payload.length →
      exec (r f) s = .next (portTally s f.port 5 1)) ∧
    (Received s f → knownPeer s f.src = true → ¬InFlow s f → exec (r f) s = .next (sendControl (counted s f) f.src f.cls 0
      (fun w => .reset w (txHeader (counted s f) { getFlow s f.src f.cls with peerEpoch := f.srcEpoch } f.incarn)))) ∧
    (Received s f → knownPeer s f.src = true → InFlow s f →
      placeOf s f = none ∨ psnOf s f < (rxFlow s f).rxRcv ∨ psnOf s f ∈ (rxFlow s f).rxHave →
      exec (r f) s = .next (setFlow (counted s f) { rxFlow s f with ackDue := true })) ∧
    (Received s f → knownPeer s f.src = true → InFlow s f → placeOf s f = some (psnOf s f) → (rxFlow s f).rxRcv + 2048 ≤ psnOf s f →
      psnOf s f ∉ (rxFlow s f).rxHave →
      exec (r f) s = .next (setFlow (counted s f) (rxFlow s f)))) ∧
  (∀ (s : State) (f : Frame), f.syn = true → (getFlow s f.src f.cls).rxPair ≠ some (f.srcEpoch, f.incarn) →
    (rxFlow s f).rxRcv = 0 ∧ (rxFlow s f).rxDone = 0 ∧ (rxFlow s f).rxHave = [] ∧ (rxFlow s f).rxPerf = [] ∧ (rxFlow s f).rxHeld = []) ∧
  (∀ (s : State) (peer cls n j : Nat) (rest : List Nat) (x : Wire → TxFrame), usable s peer cls = j :: rest →
    let t := sendControl s peer cls n x
    t.fab.tx.head? = some (x (wireOf s peer j)) ∧ (∀ g ∈ s.fab.tx, g ∈ t.fab.tx) ∧ t.fab.flows = s.fab.flows ∧ t.mem = s.mem ∧ t.sems = s.sems ∧
      (∀ a, (wireOf s peer j).hop = some a → (wireOf s peer j).mac = none →
        TxFrame.solicit (j / 8) (j % 8) a (portMac s (j / 8) (j % 8)) ∈ t.fab.tx ∨ ∃ g ∈ s.fab.tx, awaitsHop a g = true)) ∧
  (∀ (s : State) (peer cls n : Nat) (x : Wire → TxFrame), usable s peer cls = [] → sendControl s peer cls n x = s) ∧
  (∀ (b v p : Nat), v < 2 ^ 24 → psnNear b v = some p → p % 2 ^ 24 = v ∧ (p < b ↔ precedes 24 v b = true)) ∧
  (∀ (f : Flow) (p : Nat), f.rxRcv ≤ p → f.rxRcv ∉ f.rxHave → p ∉ f.rxHave → f.rxHave.Nodup →
    (p ≠ f.rxRcv → (rxTake f p).rxRcv = f.rxRcv) ∧ (p = f.rxRcv → f.rxRcv < (rxTake f p).rxRcv) ∧
    (∀ q, f.rxRcv ≤ q → q < (rxTake f p).rxRcv → q = p ∨ q ∈ f.rxHave) ∧ (rxTake f p).rxRcv ∉ (rxTake f p).rxHave) ∧
  (∀ (s : State) (f : Frame), Accepted s f → f.op.kind ∈ ([1, 2, 3, 4, 5, 6, 7] : List Byte) → devState s = 7 →
    ∀ r ks, DataRow r ks → f.op.kind ∈ ks → exec (r f) s = .next (rxError (arrived s f) f.src f.cls f.op (psnOf s f) 0x0102 0x07)) ∧
  (∀ (s : State) (f : Frame), Accepted s f → serving s = true → rxBlocked (arrived s f) f.op f.payload = true → f.op.kind ∈ ([1, 2, 4, 5, 6] : List Byte) →
    ∀ r ks, DataRow r ks → f.op.kind ∈ ks → Gives (r f) s fun t => t.mem = s.mem ∧ t.sems = s.sems ∧
      (getFlow t f.src f.cls).rxHeld =
        (rxFlow s f).rxHeld ++ [{ psn := psnOf s f, op := f.op, payload := f.payload, ackNow := f.ackNow, port := f.port }])

/-- R42, R45, R86, R145, R277, R315, R317, R321, R331, R334, R337, R338. What the inbound operations of the Level do. -/
def Obligations.InboundOperationRows : Prop :=
  (∀ (s : State) (f : Frame), Asked s f 1 → f.payload ≠ [] → Ours s f →
    (Permits s f [194] → InDevice s f f.payload.length → exec (.put f) s =
      .next (ended (localWrite (arrived s f) (offOf f.op.addr) f.payload (rxRq f.op)) f (psnOf s f) 4)) ∧
    (Permits s f [194, 197] → InScratch s f f.payload.length → exec (.put f) s =
      .next (ended (localWrite (arrived s f) (offOf f.op.addr) f.payload (rxRq f.op)) f (psnOf s f) 4)) ∧
    (Permits s f [194, 199] → localRange s (offOf f.op.addr) 4 = .image → offOf f.op.addr % 4 = 0 → f.payload.length = 4 → f.cls = 3 → exec (.put f) s =
      .next (markPerf (regWriteWord (arrived s f) (offOf f.op.addr - 0x40000000000) (BitVec.ofNat 32 (leNat f.payload))) f.src f.cls (psnOf s f))) ∧
    (¬Permits s f [194] → exec (.put f) s = .next (rxError (arrived s f) f.src f.cls f.op (psnOf s f) 0x0105 2)) ∧
    (Permits s f [194] → localRange s (offOf f.op.addr) f.payload.length = .none →
      exec (.put f) s = .next (rxError (arrived s f) f.src f.cls f.op (psnOf s f) 0x0101 3))) ∧
  (∀ (s : State) (f : Frame), Asked s f 1 → f.payload = [] →
    (Permits s f [194] → exec (.put f) s = .next (markPerf (arrived s f) f.src f.cls (psnOf s f))) ∧
    (¬Permits s f [194] → exec (.put f) s = .next (rxError (arrived s f) f.src f.cls f.op (psnOf s f) 0x0105 2))) ∧
  (∀ (s : State) (f : Frame), Asked s f 2 → Ours s f → Permits s f [194] → InDevice s f f.payload.length → f.op.atype ∈ [0, 2, 3, 4] →
    f.payload.length = atypeBytes f.op.atype → offOf f.op.addr % atypeBytes f.op.atype = 0 → exec (.levelAdd f) s =
      .next (let x := amoAt (arrived s f) (offOf f.op.addr) 0 f.op.atype (leNat f.payload) 0 (rxRq f.op)
        ended (x.1, x.2.2) f (psnOf s f) 4)) ∧
  (∀ (s : State) (f : Frame), Asked s f 2 → (f.op.atype = 1 ∨ 4 < f.op.atype) →
    exec (.levelAdd f) s = .next (rxError (arrived s f) f.src f.cls f.op (psnOf s f) 0x0100 9)) ∧
  (∀ (s : State) (f : Frame), Asked s f 3 →
    (Permits s f [196] → exec (.signal f) s = .next (markPerf (rxSignal (arrived s f) f.src f.op) f.src f.cls (psnOf s f))) ∧
    (¬Permits s f [196] → exec (.signal f) s = .next (rxError (arrived s f) f.src f.cls f.op (psnOf s f) 0x0105 2))) ∧
  (∀ (s : State) (f : Frame), Asked s f 4 → f.payload = [] → f.op.operand ≠ 0 → Permits s f [196] →
    exec (.putSignal f) s = .next (markPerf (rxSignal (arrived s f) f.src f.op) f.src f.cls (psnOf s f))) ∧
  (∀ (s v : State) (f : Frame), Asked s f 4 → f.payload.length = 16 → Ours s f → Permits s f [194, 196] → InDevice s f 16 →
    localWrite (arrived s f) (offOf f.op.addr) f.payload (rxRq f.op) = (stOk, v) →
    exec (.putSignal f) s = .next (markPerf (if f.op.operand = 0 then v else rxSignal v f.src f.op) f.src f.cls (psnOf s f))) ∧
  (∀ (s v : State) (st : W16) (f : Frame), Asked s f 4 → f.payload.length = 16 → Ours s f → Permits s f [194, 196] → InDevice s f 16 →
    localWrite (arrived s f) (offOf f.op.addr) f.payload (rxRq f.op) = (st, v) → st ≠ stOk → st ≠ stBadParam →
    exec (.putSignal f) s = .next (rxError v f.src f.cls f.op (psnOf s f) st 4)) ∧
  (∀ (s : State) (f : Frame), Asked s f 5 → Ours s f → 0 < f.op.len → offOf f.op.addr % 4096 + f.op.len ≤ 4096 →
    f.op.len ≤ largestPayload s f.src →
    (Permits s f [193] ∧ InDevice s f f.op.len) ∨ (Permits s f [193, 197] ∧ InScratch s f f.op.len) →
    (∀ bs v, localRead (arrived s f) (offOf f.op.addr) f.op.len (rxRq f.op) = (stOk, bs, v) →
      exec (.get f) s = .next (sendResponse v f.src f.cls (psnOf s f) (answerOp f.op 0x81) bs)) ∧
    (∀ st bs v, st ≠ stOk → st ≠ stBadParam → localRead (arrived s f) (offOf f.op.addr) f.op.len (rxRq f.op) = (st, bs, v) →
      exec (.get f) s = .next (rxError v f.src f.cls f.op (psnOf s f) st 4))) ∧
  (∀ (s : State) (f : Frame), Asked s f 5 → ¬Permits s f [193] →
    exec (.get f) s = .next (rxError (arrived s f) f.src f.cls f.op (psnOf s f) 0x0105 2)) ∧
  (∀ (s : State) (f : Frame), Asked s f 6 → Ours s f → amoLegal f.op.akind f.op.atype = true → f.payload.length = (if f.op.akind = 2 then 8 else 0) →
    Permits s f [195] → InDevice s f (atypeBytes f.op.atype) → offOf f.op.addr % atypeBytes f.op.atype = 0 →
    ∀ st old v, amoAt (arrived s f) (offOf f.op.addr) f.op.akind f.op.atype f.op.operand.toNat (leNat f.payload) (rxRq f.op) = (st, old, v) →
      (st = stOk → exec (.atomic f) s =
        .next (sendResponse v f.src f.cls (psnOf s f) { answerOp f.op 0x82 with operand := BitVec.ofNat 64 old } [])) ∧
      (st ≠ stOk → st ≠ stBadParam → exec (.atomic f) s = .next (rxError v f.src f.cls f.op (psnOf s f) st 4))) ∧
  (∀ (s : State) (f : Frame), Asked s f 7 → f.payload.length = 64 → Permits s f [200] → Gives (.command f) s fun t =>
    t.host.remote = s.host.remote ++ [{ src := f.src, cls := f.cls, psn := psnOf s f, pkt := lineOf f.payload }] ∧ t.host.cmds = s.host.cmds ∧ t.mem = s.mem ∧
      t.fab = (arrived s f).fab) ∧
  (∀ (s : State) (f : Frame), Asked s f 7 → f.payload.length ≠ 64 →
    exec (.command f) s = .next (rxError (arrived s f) f.src f.cls f.op (psnOf s f) 0x0100 9)) ∧
  (∀ (s : State) (f : Frame), Accepted s f → devState s ≠ 7 → Unheld s f → f.op.reserved = true →
    ∀ r ks, DataRow r ks → f.op.kind ∈ ks → f.op.kind ∈ ([1, 2, 3, 4, 5, 6, 7] : List Byte) →
      exec (r f) s = .next (rxError (arrived s f) f.src f.cls f.op (psnOf s f) 0x0100 9)) ∧
  (∀ (s : State) (f : Frame), Accepted s f → devState s ≠ 7 → Unheld s f →
    f.op.kind = 0 ∨ (7 < f.op.kind.toNat ∧ f.op.kind.toNat < 0x81) ∨ 0x84 < f.op.kind.toNat →
    exec (.reservedKindPacket f) s = .next (rxError (arrived s f) f.src f.cls f.op (psnOf s f) 0x0100 9)) ∧
  (∀ (s : State) (src cls : Nat) (op : OpHeader) (p : Nat) (st : W16) (reason : Nat), ∃ u : State, rxError s src cls op p st reason =
    sendResponse u src cls p { answerOp op 0x84 with status := 0x0203, len := st.toNat + reason * 65536 } [] ∧ u.fab = s.fab ∧ u.mem = s.mem ∧ u.sems = s.sems)

/-- R88, R321, R325, R331. Responses complete the request they answer; any response is performed on arrival. -/
def Obligations.ResponseRows : Prop :=
  (∀ r ∈ [(Instr.getResp, (0x81 : Byte), (5 : Byte)), (Instr.atomicResp, 0x82, 6), (Instr.commandReply, 0x83, 7)],
    ∀ (s : State) (f : Frame) (x : Sent), Accepted s f → f.op.kind = r.2.1 → x ∈ (getFlow s f.src f.cls).sent → x.psn % 2 ^ 24 = f.op.reqPsn →
      (∀ y ∈ (getFlow s f.src f.cls).sent, y.psn % 2 ^ 24 = f.op.reqPsn → y = x) → x.answered = false → x.op.kind = r.2.2 →
      exec (r.1 f) s = .next (
        let u := arrived s f
        let fl := getFlow u f.src f.cls
        let v := setFlow u { fl with sent := mapIf (fun y => y.psn == x.psn) (fun y => { y with answered := true }) fl.sent }
        markPerf (settleOps (pktComplete v x f.src f.cls 0 0 (if r.2.1 = 0x82 then [] else f.payload) (if r.2.1 = 0x82 then f.op.operand else 0)))
          f.src f.cls (psnOf s f))) ∧
  (∀ (s : State) (f : Frame) (x : Sent), Accepted s f → f.op.kind = 0x84 → x ∈ (getFlow s f.src f.cls).sent → x.psn % 2 ^ 24 = f.op.reqPsn →
    (∀ y ∈ (getFlow s f.src f.cls).sent, y.psn % 2 ^ 24 = f.op.reqPsn → y = x) → x.answered = false →
    (x.op.kind ∈ ([5, 6, 7] : List Byte) → Gives (.errorResp f) s fun t => ∃ v : State,
      t = markPerf (settleOps (pktComplete v x f.src f.cls f.op.status (BitVec.ofNat 32 f.op.len) [] 0)) f.src f.cls (psnOf s f) ∧
        ∀ y ∈ (getFlow v f.src f.cls).sent, y.psn = x.psn → y.answered = true) ∧
    (x.op.kind ∈ ([1, 2, 3, 4] : List Byte) → Gives (.errorResp f) s fun t =>
      (∀ y ∈ (getFlow t f.src f.cls).sent, y.psn = x.psn → y.failed = some (f.op.status, BitVec.ofNat 32 f.op.len)) ∧
      t.cores = s.cores ∧ t.hoists = s.hoists)) ∧
  (∀ r ∈ [(Instr.getResp, (0x81 : Byte)), (Instr.atomicResp, 0x82), (Instr.commandReply, 0x83), (Instr.errorResp, 0x84)],
    ∀ (s : State) (f : Frame), Accepted s f → f.op.kind = r.2 → (∀ y ∈ (getFlow s f.src f.cls).sent, y.psn % 2 ^ 24 ≠ f.op.reqPsn) →
      exec (r.1 f) s = .next (markPerf (arrived s f) f.src f.cls (psnOf s f))) ∧
  (∀ (s : State) (x : Sent) (peer cls id : Nat) (o : MemOp) (data : List Byte) (operand : W64), x.owner = .op id → o ∈ s.cores.ops → o.id = id →
    o.status = 0 →
    ∃ p ∈ (pktComplete s x peer cls 0 0 data operand).cores.ops, p.id = id ∧ p.status = 0 ∧
      (x.op.kind = 5 → p.res = putBytesV o.res (offOf x.op.addr - offOf o.addr) data) ∧
      (x.op.kind = 6 → p.res = putBytesV o.res 0 (leBytes 8 operand.toNat))) ∧
  (∀ (s : State) (peer cls p : Nat), p < (getFlow s peer cls).rxDone ∨ p ∈ (getFlow s peer cls).rxPerf ∨
    (let f := getFlow (markPerf s peer cls p) peer cls
     (p < f.rxDone ∨ p ∈ f.rxPerf) ∧ f.ackDue = true ∧ (getFlow s peer cls).rxDone ≤ f.rxDone))

/-- R322, R324, R326 to R329, R331. Acknowledgement, retransmission, rate, quarantine, and the time-out of operations. -/
def Obligations.TransportRows : Prop :=
  (∀ (s : State) (f : Frame), rxUp s f = true → knownPeer s f.src = true → f.incarn = (getFlow s f.src f.cls).incarn → (f.dstEpoch = 0 ∨ f.dstEpoch = epoch s) →
    exec (.ack f) s = .next (settleTwin (ackApply (setFlow (portTally s f.port 3 1) { getFlow s f.src f.cls with peerEpoch := f.srcEpoch })
      f.src f.cls f.ack))) ∧
  (∀ (s : State) (peer cls : Nat) (b : AckBody),
    let fl := getFlow s peer cls
    let own := (psnNear fl.rcv b.rcvPsn).getD 0
    let rcv := max fl.rcv own
    let done := max fl.doneP ((psnNear fl.doneP b.donePsn).getD 0)
    let g := getFlow (ackApply s peer cls b) peer cls
    (done ≤ rcv → rcv ≤ fl.next →
      g.rcv = rcv ∧ g.doneP = done ∧ (∀ y ∈ g.sent, y.psn < rcv → y.received = true) ∧
        (∀ y ∈ g.sent, y.psn < done → answeredKind y.op.kind = true ∧ y.answered = false) ∧
        (∀ i, i < 64 → bit b.sack i = true → own + 1 + i < fl.next → ∀ y ∈ g.sent, y.psn = own + 1 + i → y.received = true) ∧
        (fl.rcv < rcv → g.rto = min 4000000 (max (rtoMinNs s) (g.srtt + 4 * g.rttvar)) ∧ g.lastAdvance = mono s) ∧
        (b.ece = 0 → g.rate = fl.rate ∧ g.alpha = fl.alpha) ∧
        (b.ece ≠ 0 → g.alpha = (fl.alpha * 15 + b.ece * 2 ^ 32 / max b.rcvd 1) / 16 ∧ g.eceSeen = true)) ∧
    (rcv < done ∨ fl.next < rcv → ackApply s peer cls b = s)) ∧
  (∀ s : State, TwinQuiet s → settleTwin s = s) ∧
  (∀ (s : State) (f : Frame), rxUp s f = true → knownPeer s f.src = true → f.incarn ≠ (getFlow s f.src f.cls).incarn →
    exec (.ack f) s = .next (portTally s f.port 3 1) ∧ exec (.reset f) s = .next (portTally s f.port 3 1)) ∧
  (∀ (s : State) (f : Frame), rxUp s f = false → exec (.ack f) s = .next s ∧ exec (.reset f) s = .next s) ∧
  (∀ (s : State) (f : Frame), rxUp s f = true → knownPeer s f.src = true → f.incarn = (getFlow s f.src f.cls).incarn → (getFlow s f.src f.cls).next ≠ 0 →
    exec (.reset f) s = .next (settleTwin (flowReset (setFlow (portTally s f.port 3 1) { getFlow s f.src f.cls with peerEpoch := f.srcEpoch })
      f.src f.cls 0x0203 0x050203))) ∧
  (∀ (s : State) (peer cls : Nat) (st : W16) (d : W32), let f := getFlow (flowReset s peer cls st d) peer cls
    f.next = 0 ∧ f.rcv = 0 ∧ f.doneP = 0 ∧ f.sent = [] ∧ f.incarn = (getFlow s peer cls).incarn + 1 ∧
      (TwinQuiet s → f.waitq = []) ∧ ∀ y ∈ f.waitq, ∃ id, y.owner = .twin id) ∧
  (∀ (s : State) (i n : Nat) (rest : List Nat) (f : Flow), flowAt s i = some f → f.ackDue = true ∨ f.rxHeld ≠ [] → usable s f.peer f.cls = n :: rest →
    f.rxPair.isSome = true → exec (.ackSend i) s = .next (setFlow (sendControl s f.peer f.cls 32
      (fun w => .ack w (txHeader s f (f.rxPair.getD (0, 0)).2) (ackBody f))) { f with ackDue := false, rxEce := 0, rxCount := 0 })) ∧
  (∀ (s : State) (f : Flow) (x : Sent) (path : Nat) (retx : Bool), let h := dataHeader s f x path retx
    h.src = nodeNum s ∧ h.dst = f.peer ∧ h.cls = f.cls ∧ h.srcEpoch = epoch s ∧ h.dstEpoch = f.peerEpoch ∧ h.incarn = f.incarn ∧
      h.psn = x.psn % 2 ^ 24 ∧ h.path = path ∧ h.retx = retx ∧ (h.syn = true ↔ x.psn = 0)) ∧
  (∀ (f : Flow), (ackBody f).rcvPsn = f.rxRcv % 2 ^ 24 ∧ (ackBody f).donePsn = f.rxDone % 2 ^ 24 ∧ (ackBody f).highPsn = f.rxHigh % 2 ^ 24 ∧
    ((ackBody f).held = true ↔ f.rxHeld ≠ []) ∧ ∀ i, i < 64 → (bit (ackBody f).sack i = true ↔ f.rxRcv + 1 + i ∈ f.rxHave)) ∧
  (∀ (s : State) (i : Nat) (f : Flow), flowAt s i = some f → f.ackDue = false → f.rxHeld = [] → exec (.ackSend i) s = .next s) ∧
  (∀ (s : State) (i : Nat) (f : Flow), flowAt s i = some f → getFlow s f.peer f.cls = f → (f.sent.map (·.psn)).Nodup →
    Gives (.retransmit i) s fun t => ∀ x ∈ f.sent, x.received = false → x.sentAt + reorderNs s ≤ f.latest → usable s f.peer f.cls ≠ [] →
      ∃ w h, TxFrame.data w h x.op x.payload x.msg ∈ t.fab.tx ∧ h.psn = x.psn % 2 ^ 24 ∧ h.retx = true) ∧
  (∀ (s : State) (i : Nat) (f : Flow), flowAt s i = some f →
    (∀ x ∈ f.sent, x.received = false → f.latest < x.sentAt + reorderNs s) ∨ usable s f.peer f.cls = [] → exec (.retransmit i) s = .next s) ∧
  (∀ (s : State) (i : Nat) (f : Flow) (x : Sent), flowAt s i = some f → f.sent.find? (fun x => !x.received) = some x →
    (max f.lastAdvance x.sentAt + rtoOf s f ≤ mono s → usable s f.peer f.cls ≠ [] →
      Gives (.rtoExpiry i) s fun t => (getFlow t f.peer f.cls).rto = min (2 * rtoOf s f) 4000000 ∧
      ∃ y ∈ f.sent, y.psn = x.psn ∧ ∃ w h, TxFrame.data w h y.op y.payload y.msg ∈ t.fab.tx ∧ h.psn = y.psn % 2 ^ 24 ∧ h.retx = true) ∧
    (mono s < max f.lastAdvance x.sentAt + rtoOf s f ∨ usable s f.peer f.cls = [] → exec (.rtoExpiry i) s = .next s)) ∧
  (∀ (s : State) (i : Nat) (f : Flow), flowAt s i = some f →
    (f.eceSeen = true → exec (.rateIncrease i) s = .next (setFlow s { f with eceSeen := false })) ∧
    (f.eceSeen = false → Gives (.rateIncrease i) s fun t => let g := getFlow t f.peer f.cls
      g.alpha = f.alpha * 15 / 16 ∧ g.ai = (if f.quiet < 20 then f.ai else min (2 * f.ai) 160000000000) ∧
        ∀ r, f.rate = some r → g.rate = some (min (lineRate s f.peer f.cls) (r + g.ai)))) ∧
  (∀ (s : State) (i path : Nat) (f : Flow), flowAt s i = some f → Gives (.quarantineEnd i path) s fun t =>
    ∀ q, q ∈ (getFlow t f.peer f.cls).quarantine ↔ q ∈ f.quarantine ∧ ¬(q.1 = path ∧ q.2 ≤ mono s)) ∧
  (∀ (s : State) (i psn : Nat) (f : Flow) (x : Sent), flowAt s i = some f → f.sent.find? (fun x => x.psn == psn) = some x → x.answered = false →
    x.op.kind.toNat < 0x80 →
    (max x.firstAt (x.heldAt.getD 0) + opTimeoutNs s ≤ mono s → exec (.opTimeout i psn) s =
      .next (settleTwin (flowResetBy s f.peer f.cls 0x0202 (timeoutDetail f)))) ∧
    (mono s < max x.firstAt (x.heldAt.getD 0) + opTimeoutNs s → exec (.opTimeout i psn) s = .next s)) ∧
  (∀ (s : State) (i psn : Nat) (f : Flow) (x : Sent), flowAt s i = some f → f.sent.find? (fun x => x.psn == psn) = none → f.next ≤ psn →
    f.waitq[psn - f.next]? = some x → x.answered = false → x.op.kind.toNat < 0x80 →
    (pathless f x = true → max x.firstAt (x.heldAt.getD 0) + opTimeoutNs s ≤ mono s → exec (.opTimeout i psn) s =
      .next (settleTwin (flowResetBy s f.peer f.cls 0x0202 (timeoutDetail f)))) ∧
    (pathless f x = false ∨ mono s < max x.firstAt (x.heldAt.getD 0) + opTimeoutNs s → exec (.opTimeout i psn) s = .next s)) ∧
  (∀ (f : Flow) (x : Sent), timeoutDetail f x = if x.received = true then 0x110202 else if pathless f x = true then 0x120202 else 0x100202) ∧
  (∀ (s : State) (f : Flow), f ∈ (notePaths s).fab.flows → (f.noPath.isSome = true ↔ usable s f.peer f.cls = []))

/-- R310 to R312, R316, R339, R341. Links, neighbours and the frames that are no Level packets. -/
def Obligations.LinkRows : Prop :=
  (∀ (s : State) (p j : Nat), portLive s = true → p ≤ 4 → j < modeSubs (rf s (FAB_PORT_LINK p) 0 2) → subUp s p j = false → p ∉ s.faults.portsOut →
    Gives (.linkUp p j) s fun t => subUp t p j = true ∧ (∀ i, i < 8 → i ≠ j → subUp t p i = subUp s p i) ∧
      rd t (FAB_PORT_LANE p) = rd s (FAB_PORT_LANE p) ||| BitVec.ofNat 32 (subLanes (rf s (FAB_PORT_LINK p) 0 2) j) ∧
      (tfind t.time.latency (8 * p + j)).isSome = true ∧ t.time.sec = s.time.sec ∧ t.time.ns = s.time.ns ∧
      ((∀ i, i < modeSubs (rf s (FAB_PORT_LINK p) 0 2) → i ≠ j → subUp s p i = true) → rf t (FAB_PORT_LINK p) 10 1 = 0)) ∧
  (∀ (s : State) (p j : Nat), p ∈ s.faults.portsOut ∨ modeSubs (rf s (FAB_PORT_LINK p) 0 2) ≤ j → exec (.linkUp p j) s = .next s) ∧
  (∀ (s : State) (p j : Nat), p ≤ 4 → subUp s p j = true → Gives (.linkDown p j) s fun t => subUp t p j = false ∧ rf t (FAB_PORT_LINK p) 10 1 = 1 ∧
    (∀ i, i < 8 → i ≠ j → subUp t p i = subUp s p i) ∧
    rd t (FAB_PORT_LANE p) = rd s (FAB_PORT_LANE p) &&& ~~~(BitVec.ofNat 32 (subLanes (rf s (FAB_PORT_LINK p) 0 2) j)) ∧
    t.fab.tx = s.fab.tx ∧ t.fab.peers = s.fab.peers ∧ t.fab.flows.map (·.sent) = s.fab.flows.map (·.sent) ∧
    ∀ f ∈ t.fab.flows, f.noPath.isSome = true ↔ usable t f.peer f.cls = []) ∧
  (∀ (s : State) (n : Neighbour), neighUp s n = true →
    (n.request = true → ownAddr s n = true → ∀ c, (n.v6 = true ∧ c = Instr.neighbourDiscovery n) ∨ (n.v6 = false ∧ c = Instr.arp n) →
      Gives c s fun t => t.fab.tx = .neighbour n.port n.sub n.target (portMac s n.port n.sub) :: s.fab.tx ∧ t.fab.flows = s.fab.flows) ∧
    (n.request = true → ownAddr s n = false → exec (.neighbourDiscovery n) s = .next s ∧ exec (.arp n) s = .next s) ∧
    (n.request = false → ∀ c, (n.v6 = true ∧ c = Instr.neighbourDiscovery n) ∨ (n.v6 = false ∧ c = Instr.arp n) →
      Gives c s fun t => t.fab.neigh.find? (fun x => x.1 == n.senderAddr) = some (n.senderAddr, n.senderMac) ∧
        (∀ a, a ≠ n.senderAddr → t.fab.neigh.find? (fun x => x.1 == a) = s.fab.neigh.find? (fun x => x.1 == a)) ∧
        t.fab.tx = s.fab.tx.map (fun f => f.resolved n.senderAddr n.senderMac) ∧ ∀ g ∈ t.fab.tx, awaitsHop n.senderAddr g = false) ∧
    (n.request = true → ownAddr s n = true → Gives (.icmpEcho n) s fun t => t.fab.tx = .echo n.port n.sub n.target :: s.fab.tx) ∧
    (n.request = false ∨ ownAddr s n = false → exec (.icmpEcho n) s = .next s)) ∧
  (∀ (s : State) (k j : Nat), k < 5 → j < 8 → fld (tget s.fab.ports k 0) 0 48 + 8 ≤ 2 ^ 48 →
    (portMac s k j).toNat = fld (tget s.fab.ports k 0) 0 48 + j) ∧
  (∀ (s : State) (n : Neighbour), neighUp s n = false →
    exec (.neighbourDiscovery n) s = .next s ∧ exec (.arp n) s = .next s ∧ exec (.icmpEcho n) s = .next s) ∧
  (∀ (s : State) (n : Neighbour), n.port < 4 → n.v6 = true →
    (ownAddr s n = true ↔ n.target.toNat = fld s.fab.node 0 128 ∧ fld s.fab.node 0 128 ≠ 0)) ∧
  (∀ (s : State) (p : Nat) (unknown : Bool), portUp s p = true →
    exec (.otherFrame p) s = .next (portTally s p 7 1) ∧ exec (.rxBadPacket p unknown) s = .next (portTally s p (if unknown then 8 else 6) 1)) ∧
  (∀ (s : State) (p : Nat) (unknown : Bool), portUp s p = false → exec (.otherFrame p) s = .next s ∧ exec (.rxBadPacket p unknown) s = .next s)

/-- R345 to R353. Sources, the servo, PTP messages, the pins and the oscillator. -/
def Obligations.TimeEventRows : Prop :=
  (∀ (s : State) (o : Int) (trace : Bool),
    (tState s = 1 → 2000000 < o.natAbs → s.time.tracedOnce = false → o / 2 ≤ now s → ((now s : Int) - o / 2) / 1000000000 < 2 ^ 48 →
      (now (measure s o trace) : Int) = now s - o / 2 ∧ (measure s o trace).time.frac = 0 ∧ (measure s o trace).time.below = 0 ∧
        rd (measure s o trace) TIME_OFFSET = satNs (o / 2)) ∧
    (tState s ≠ 1 ∨ o.natAbs ≤ 2000000 ∨ s.time.tracedOnce = true → let t := measure s o trace
      let n := if o.natAbs < 200 then s.time.below + 1 else 0
      now t = now s ∧ t.time.below = n ∧ rd t TIME_OFFSET = satNs (o / 2) ∧ t.time.comp = s.time.comp ∧
        t.time.integral = s.time.integral + o ∧ t.time.servo = clampI (-109951162) 109951162 (Config.servo o t.time.integral) ∧
        (tState s ≠ 2 → t.time.ageing = s.time.ageing) ∧ -109951162 ≤ t.time.servo ∧ t.time.servo ≤ 109951162 ∧
        (tState s = 2 ∨ 16 ≤ n → tState t = 2 ∧ traceable t = trace) ∧ (tState s ≠ 2 → n < 16 → tState t = tState s))) ∧
  (∀ (s : State) (p : PtpMsg), ptpTakes s p = true → ptpState s p.port = 9 → Gives (.sync p) s fun t =>
    let x := ptpPort t p.port
    x.syncOrigin = p.originNs ∧ x.syncRx = rxStamp s p.port p.sub ∧ x.syncCorr = p.correction ∧ x.awaitFollowUp = p.twoStep ∧ x.seq = p.seq ∧ now t = now s) ∧
  (∀ (s : State) (p : PtpMsg), ptpTakes s p = true → ptpState s p.port = 9 → (ptpPort s p.port).awaitFollowUp = true → (ptpPort s p.port).seq = p.seq →
    Gives (.followUp p) s fun t => (ptpPort t p.port).syncOrigin = p.originNs ∧ (ptpPort t p.port).awaitFollowUp = false ∧
      (ptpPort t p.port).syncCorr = (ptpPort s p.port).syncCorr + p.correction) ∧
  (∀ (s : State) (p : PtpMsg), ptpTakes s p = true → ptpState s p.port = 6 →
    Gives (.delayReq p) s fun t => t.fab.tx =
      .ptp p.port (rf s (TIME_PTP_CFG p.port) 12 1 == 1) (ptpDomain s p.port) 9 p.seq (rxStamp s p.port p.sub / 2)
        (p.correction - halfPart (rxStamp s p.port p.sub)) :: s.fab.tx) ∧
  (∀ (s : State) (p : PtpMsg) (t3 : Nat), ptpTakes s p = true → ptpState s p.port = 9 → (ptpPort s p.port).reqSent = some t3 →
    (ptpPort s p.port).awaitFollowUp = false → (ptpPort s p.port).reqSeq = p.seq → tSource s = 1 → s.time.delays = [] →
    let x := ptpPort s p.port
    let down : Int := (x.syncRx : Int) - 2 * x.syncOrigin - x.syncCorr / 32768
    let up : Int := 2 * (p.originNs : Int) - t3 - p.correction / 32768
    ∃ u : State, exec (.delayResp p) s = .next (measure u (down - (down + up) / 2) x.traceable) ∧ now u = now s ∧ u.time.delays = [(down + up) / 2] ∧
      (ptpPort u p.port).reqSent = none ∧ tState u = tState s ∧ u.time.below = s.time.below) ∧
  (∀ (s : State) (p : PtpMsg), ptpTakes s p = true → 2 ≤ ptpRole s p.port → Gives (.announce p) s fun t =>
    let x := ptpPort t p.port
    x.announced = true ∧ x.clockClass = p.clockClass ∧ x.accuracy = p.accuracy ∧ x.traceable = p.traceable ∧ x.priority1 = p.priority1 ∧
      x.priority2 = p.priority2 ∧ x.clockId = p.clockId) ∧
  (∀ (s : State) (p : PtpMsg), ptpTakes s p = false → exec (.sync p) s = .next s ∧ exec (.followUp p) s = .next s ∧ exec (.delayReq p) s = .next s ∧
    exec (.delayResp p) s = .next s ∧ exec (.announce p) s = .next s) ∧
  (∀ (s : State) (k : Nat), ptpMaster s k = true →
    let v4 := rf s (TIME_PTP_CFG k) 12 1 == 1
    let d := ptpDomain s k
    let q := (ptpPort s k).seq + 1
    (rf s (TIME_PTP_CFG k) 16 1 = 0 → Gives (.syncSend k) s fun t =>
      t.fab.tx = .ptp k v4 d 0 q (txStamp s k / 2) (halfPart (txStamp s k)) :: s.fab.tx ∧ (ptpPort t k).seq = q) ∧
    (rf s (TIME_PTP_CFG k) 16 1 = 1 → Gives (.syncSend k) s fun t =>
      t.fab.tx = .ptp k v4 d 8 q (txStamp s k / 2) (halfPart (txStamp s k)) :: .ptp k v4 d 0 q 0 0 :: s.fab.tx) ∧
    (∀ j, slavePort s = some j → Gives (.announceSend k) s fun t => let u := ptpPort s j
      t.fab.tx = .announce k v4 d q u.clockClass u.accuracy u.traceable u.priority1 u.priority2 (some u.clockId) :: s.fab.tx) ∧
    (slavePort s = none → tState s = 2 → tSource s = 2 → Gives (.announceSend k) s fun t =>
      t.fab.tx = .announce k v4 d q 6 0x21 true (rf s TIME_CFG 16 8) (rf s TIME_CFG 24 8) none :: s.fab.tx) ∧
    (slavePort s = none → tState s = 3 → traceable s = true → Gives (.announceSend k) s fun t =>
      t.fab.tx = .announce k v4 d q 7 0x23 true (rf s TIME_CFG 16 8) (rf s TIME_CFG 24 8) none :: s.fab.tx) ∧
    (slavePort s = none → tState s < 2 → Gives (.announceSend k) s fun t =>
      t.fab.tx = .announce k v4 d q 248 0xFE false (rf s TIME_CFG 16 8) (rf s TIME_CFG 24 8) none :: s.fab.tx)) ∧
  (∀ (s : State) (k : Nat), ptpMaster s k = false → exec (.syncSend k) s = .next s ∧ exec (.announceSend k) s = .next s) ∧
  (∀ (s : State) (k : Nat), portUp s k = true → ptpState s k = 9 → Gives (.delayReqSend k) s fun t =>
    t.fab.tx = .ptp k (rf s (TIME_PTP_CFG k) 12 1 == 1) (ptpDomain s k) 1 ((ptpPort s k).reqSeq + 1) (txStamp s k / 2) (halfPart (txStamp s k)) ::
      s.fab.tx ∧ (ptpPort t k).reqSent = some (txStamp s k) ∧ (ptpPort t k).reqSeq = (ptpPort s k).reqSeq + 1) ∧
  (∀ (s : State) (k : Nat), serving s = true → k < 5 → 2 ≤ ptpRole s k → (ptpPort s k).announced = true → (bit s.time.ppsConfig 2 && ppsPresent s) = false →
    (∀ j, j < 5 → ptpRole s j = 0 → ptpState s j ≠ 9) →
    Gives (.sourceSelect (some k)) s fun t => ptpState t k = 9 ∧ tSource t = 1 ∧ rf t TIME_STATUS 8 3 = k ∧ ∀ j, j < 5 → j ≠ k → ptpState t j ≠ 9) ∧
  (∀ (s : State), serving s = true → (bit s.time.ppsConfig 2 && ppsPresent s) = false → (∀ j, j < 5 → ptpRole s j = 0 → ptpState s j ≠ 9) → tSource s = 1 → tState s = 2 →
    Gives (.sourceSelect none) s fun t => tState t = 3 ∧ tSource t = 0 ∧ traceable t = traceable s ∧ t.time.lossTemp = s.pwr.tcxo) ∧
  (∀ (s : State), s.time.ppsEdges.any (fun e => decide (mono s < e + 10000000)) = true → exec .ppsInEdge s = .next s) ∧
  (∀ (s : State), serving s = true → s.time.ppsEdges.any (fun e => decide (mono s < e + 10000000)) = false → bit s.time.ppsConfig 2 = true → tSource s = 2 →
    let u := setTime s (fun t => { t with ppsEdges := s.time.ppsEdges.filter (fun e => decide (mono s < e + 4000000000)) ++ [mono s] })
    let phase : Int := ((2 * s.time.ns + s.time.frac.toNat / 32768 : Nat) : Int)
    ppsFilled u = true →
    (s.time.secKnown = true → s.time.ns < 500000000 → exec .ppsInEdge s = .next (measure (wf u TIME_STATUS 6 1 1) phase true)) ∧
    (s.time.secKnown = true → 500000000 ≤ s.time.ns → exec .ppsInEdge s = .next (measure (wf u TIME_STATUS 6 1 1) (phase - 2000000000) true)) ∧
    (s.time.secKnown = false → Gives .ppsInEdge s fun t => t.time.ns = 0 ∧ t.time.frac = 0 ∧ t.time.secKnown = true ∧
      t.time.sec = (if 500000000 ≤ s.time.ns then s.time.sec + 1 else s.time.sec))) ∧
  (∀ (s : State), s.time.ppsEdges.any (fun e => decide (mono s < e + 1000000000)) = true → exec .ppsInLoss s = .next s) ∧
  (∀ (s : State), s.time.ppsEdges.any (fun e => decide (mono s < e + 1000000000)) = false → Gives .ppsInLoss s fun t => t.time.ppsEdges = [] ∧ ppsPresent t = false ∧
    (tSource s = 2 → slavePort s = none → tSource t = 0 ∧ (tState s = 2 → tState t = 3) ∧ (tState s = 1 → tState t = 0)) ∧
    (∀ k, tSource s = 2 → slavePort s = some k → tSource t = 1 ∧ tState t = 1 ∧ rf t TIME_STATUS 8 3 = k)) ∧
  (∀ (s : State), serving s = true → bit s.time.ppsConfig 0 = true → s.time.ns ≤ 10 → s.time.sec ∉ s.time.ppsOutSecs → Gives .ppsOutPulse s fun t =>
    t.pins.ppsOut = true ∧ s.time.sec ∈ t.time.ppsOutSecs ∧ t.time.ppsRose = mono s ∧ now t = now s) ∧
  (∀ (s : State), bit s.time.ppsConfig 0 = false ∨ 10 < s.time.ns ∨ s.time.sec ∈ s.time.ppsOutSecs → exec .ppsOutPulse s = .next s) ∧
  (∀ (s : State) (temp : W16), serving s = true → Gives (.tcxoCompensation temp) s fun t => rd t TIME_TCXO = BitVec.ofNat 32 (toCode 16 t.pwr.tcxo) ∧
    t.pwr.tcxo = guardedTemp s 96 temp.toInt ∧ t.time.comp = -(tcxoErr s t.pwr.tcxo + s.time.ageing) ∧ t.time.servo = s.time.servo ∧ now t = now s ∧
    ((∀ a, s.time.rhoAt = some a → a + 10000000 ≤ mono s) → rd t TIME_ADJ = BitVec.ofInt 32 (t.time.comp + t.time.servo)) ∧
    ((∃ a, s.time.rhoAt = some a ∧ mono s < a + 10000000) → rd t TIME_ADJ = rd s TIME_ADJ)) ∧
  (∀ (s : State), tState s = 3 → 1000 * rf s TIME_CFG 0 16 < holdBound s → Gives .holdoverLimit s fun t => tState t = 0 ∧ traceable t = false ∧
    rd t TIME_ERR_BOUND = 0xFFFFFFFF) ∧
  (∀ (s : State), tState s ≠ 3 ∨ holdBound s ≤ 1000 * rf s TIME_CFG 0 16 → exec .holdoverLimit s = .next s)

/-- R372, R374 to R380. Pairing, mirroring, detaching and takeover, and the repair of weight regions: which repair waits for a shared model's is the
model's choice (log entry 132, DESIGN CHOICE). -/
def Obligations.TwinRows : Prop :=
  (∀ (s : State) (node : W16) (ds : List TwinModel), serving s = true →
    (twinState s = 0 → Gives (.pairingRequest node ds) s fun t => t.twin.gotReq = true ∧ t.twin.peer = node ∧ t.twin.models = ds ∧ twinState t = 0) ∧
    (twinState s = 1 → node.toNat = twinNode s → s.twin.gotReq = false → s.twin.sentReq = true → s.twin.sentDone = false → s.twin.gotDone = false →
      s.twin.gates = [] → s.twin.refused = [] → pktOpen s (.twin s.twin.gate) = false →
      Gives (.pairingRequest node ds) s fun t => t.twin.gotReq = true ∧ t.twin.models = ds ∧ twinState t = 1 ∧
        (∀ i x, getSess s i = some x → Posted t (twinNode s) (.mirror (.session x.record (hasRequest x)))) ∧
        (∀ id m, getModel s id = some m → mrState m.record = 2 → Posted t (twinNode s) (.mirror (.model (twinModel s id m)))) ∧
        ((s.se.sessions ≠ [] ∨ ∃ m ∈ s.se.models, mrState m.2.record = 2) → t.twin.sentDone = false ∧
          t.twin.gates = [{ id := s.twin.gate, act := .copyDone }]) ∧
        (s.se.sessions = [] → (∀ m ∈ s.se.models, mrState m.2.record ≠ 2) → t.twin.sentDone = true ∧
          Posted t (twinNode s) (.notice 4 (BitVec.ofNat 64 (now s)) (devState s)))) ∧
    (twinState s = 1 → node.toNat ≠ twinNode s → exec (.pairingRequest node ds) s = .next s) ∧
    (2 ≤ twinState s → exec (.pairingRequest node ds) s = .next s)) ∧
  (∀ (s : State), twinState s = 1 → s.twin.gotReq = true →
    (s.twin.sentDone = false → Gives .copyDone s fun t => t.twin.gotDone = true ∧ twinState t = 1) ∧
    (s.twin.sentDone = true → s.twin.cmd = none → Gives .copyDone s fun t => twinState t = 2 ∧ t.twin.lastHb = mono s) ∧
    (∀ c, s.twin.sentDone = true → s.twin.cmd = some c.id → getCmd s c.id = some c → c.src = none →
      Gives .copyDone s fun t => twinState t = 2 ∧ getCmd t c.id = none ∧ t.twin.cmd = none)) ∧
  (∀ (s : State), twinState s ≠ 1 ∨ s.twin.gotReq = false → exec .copyDone s = .next s) ∧
  (∀ (s : State) (c : Cmd), twinState s = 1 → s.twin.gotReq = false → s.twin.since + 10000000000 ≤ mono s → s.twin.cmd = some c.id → getCmd s c.id = some c →
    exec .pairingTimeout s = .next (complete (goSolo s) c 0x0204 0 0)) ∧
  (∀ (s : State), mono s < s.twin.since + 10000000000 ∨ s.twin.gotReq = true → exec .pairingTimeout s = .next s) ∧
  (∀ (s : State), twinState (goSolo s) = 0 ∧ twinNode (goSolo s) = 0xFFFF ∧ (goSolo s).twin = { Twin.reset with
    gate := s.twin.gate + 1, gates := s.twin.gates.filter (fun g => decide (g.act ≠ .copyDone)) }) ∧
  -- what waits for the twin
  (∀ (s : State) (c : Cmd) (result : Nat) (opened : Option Nat),
    (gated s = false → gateStatus s c result opened = complete s c 0 0 result) ∧
    (gated s = true → let t := gateStatus s c result opened
      t.host = s.host ∧ t.mem = s.mem ∧ t.twin.gates = s.twin.gates ++ [{ id := s.twin.gate, act := .status c.id 0 result opened }])) ∧
  (∀ (s : State) (part : Nat) (r : Ring) (wr0 pad : Nat) (ls : List Line),
    (gated s = false → gateAct s (.record part r wr0 pad ls) = revealRecord s part r wr0 pad ls) ∧
    (gated s = true → let t := gateAct s (.record part r wr0 pad ls)
      t.host = s.host ∧ t.mem = s.mem ∧ t.twin.gates = s.twin.gates ++ [{ id := s.twin.gate, act := .record part r wr0 pad ls }])) ∧
  (∀ (s : State), gated s = true ↔ (twinState s = 2 ∧ pktOpen s (.twin s.twin.gate) = true) ∨ ∃ g ∈ s.twin.gates, g.act.reveals = true) ∧
  (∀ (s : State) (g : Gate) (rest : List Gate) (n : Nat), s.twin.gates = g :: rest →
    (pktOpen s (.twin g.id) = true → openGates s n = s) ∧
    (pktOpen s (.twin g.id) = false → 0 < n →
      openGates s n = openGates (doAct { s with twin := { s.twin with gates := rest } } g) (n - 1))) ∧
  (∀ (s : State) (g : Gate) (id i result : Nat) (c : Cmd), g.act = .status id 0 result (some i) → getCmd s id = some c →
    (g.id ∉ s.twin.refused → doAct s g = complete s c 0 0 result) ∧
    (g.id ∈ s.twin.refused → ∃ u : State, doAct s g = complete u c 0x0104 0 0 ∧ getSess u i = none ∧ g.id ∉ u.twin.refused)) ∧
  (∀ (s : State) (c : Cmd) (g : Nat), twinState s = 0 → s.twin.refused = [] → s.twin.gates = [{ id := g, act := .detached c.id }] → getCmd s c.id = some c →
    (pktOpen s (.twin g) = true → settleTwin s = s) ∧
    (pktOpen s (.twin g) = false → settleTwin s = complete { s with twin := { s.twin with gates := [] } } c 0 0 0)) ∧
  (∀ (s : State) (cmd : Option Nat), let t := beginDetach s cmd
    (s.twin.gates ≠ [] → twinState t = 3 ∧ t.twin = { s.twin with cmd := cmd } ∧ t.fab = s.fab) ∧
    (s.twin.gates = [] → twinState t = 0 ∧ twinNode t = 0xFFFF ∧ t.twin.mirror = [] ∧ t.twin.models = [] ∧
      ∃ x, Posted t (twinNode s) (.notice 2 (BitVec.ofNat 64 (now s)) x))) ∧
  (∀ (s : State) (m : TwinMsg) (owner : PktOwner), Posted (twinPost s m owner) (twinNode s) m) ∧
  (∀ (s : State) (m : MirrorItem), serving s = false ∨ twinState s = 0 ∨ twinState s = 3 → exec (.mirrorItem m) s = .next s) ∧
  (∀ (s : State) (r : BitVec 1024) (q : Bool), serving s = true → twinState s = 2 →
    (srState r = stClosed → Gives (.mirrorItem (.session r q)) s fun t => ∀ x ∈ t.twin.mirror, x.handle ≠ srHandle r) ∧
    (srState r ≠ stClosed → mirrorRoom s 128 = true → Gives (.mirrorItem (.session r q)) s fun t => ∃ m ∈ t.twin.mirror,
      m.handle = srHandle r ∧ m.record = r ∧ m.request = q ∧ (∀ x ∈ t.twin.mirror, x.handle = srHandle r → x = m) ∧
      (∀ x, s.twin.mirror.find? (fun x => x.handle == srHandle r) = some x → m.toks = x.toks) ∧
      (s.twin.mirror.find? (fun x => x.handle == srHandle r) = none → m.toks = []) ∧ t.fab = s.fab) ∧
    (srState r ≠ stClosed → mirrorRoom s 128 = false → s.twin.mirror.find? (fun x => x.handle == srHandle r) = none →
      exec (.mirrorItem (.session r q)) s = .next (refuseItem s))) ∧
  (∀ (s : State) (h : W32) (ts : List W32), serving s = true → twinState s = 2 →
    (mirrorRoom s (4 * ts.length) = true → Gives (.mirrorItem (.tokens h ts)) s fun t => ∀ x ∈ s.twin.mirror, x.handle = h.toNat →
      { x with toks := x.toks ++ ts } ∈ t.twin.mirror) ∧
    (mirrorRoom s (4 * ts.length) = false → exec (.mirrorItem (.tokens h ts)) s = .next (mirrorFull (refuseItem s)))) ∧
  (∀ (s : State), twinState s = 2 → ∃ u : State, mirrorFull s = beginDetach u none ∧ u.twin = s.twin ∧ u.fab = s.fab ∧ twinNode u = twinNode s) ∧
  (∀ (s : State), ∃ f ∈ (refuseItem s).fab.flows, f.peer = twinNode s ∧ ∃ y ∈ f.sent ++ f.waitq, y.op.kind = 0x84 ∧ y.op.status = 0x0203 ∧ y.op.len = 0x0104) ∧
  (∀ (s : State) (part : Nat) (step : W64) (lines : List Line) (m : TwinModel), serving s = true → twinState s = 2 →
    (m.digest ≠ 0 → Gives (.mirrorItem (.model m)) s (fun t => m ∈ t.twin.models ∧ ∀ x ∈ t.twin.models, x.id = m.id → x = m)) ∧
    (m.digest = 0 → Gives (.mirrorItem (.model m)) s (fun t => ∀ x ∈ t.twin.models, x.id ≠ m.id)) ∧
    Gives (.mirrorItem (.outRecord part step lines)) s (fun t => t.twin.records = s.twin.records ++ [(part, step, lines)] ∧ t.fab = s.fab)) ∧
  (∀ (s : State), serving s = true → twinState s = 2 → Gives .heartbeatSend s fun t => ∃ steps, steps.length = 16 ∧
    Posted t (twinNode s) (.heartbeat (BitVec.ofNat 64 (now s)) (devState s) steps) ∧
    ∀ p, p < 16 → steps[p]? = some (BitVec.ofNat 64 (stepNumber s p))) ∧
  (∀ (s : State), twinState s ≠ 2 → exec .heartbeatSend s = .next s ∧ exec .detachNotice s = .next s ∧ exec .handoffNotice s = .next s) ∧
  (∀ (s : State) (fabric : Bool), serving s = true → twinState s ≠ 0 → fabric = true ∨ rf s (FAB_PORT_LINK 4) 2 8 ≠ 0 →
    Gives (.heartbeat fabric) s fun t => t.twin.lastHb = mono s ∧ rd64 t TWIN_LAST_HB = BitVec.ofNat 64 (now s) ∧ twinState t = twinState s) ∧
  (∀ (s : State) (fabric : Bool), twinState s = 0 → exec (.heartbeat fabric) s = .next s) ∧
  (∀ (s : State), twinState s = 2 → exec .detachNotice s = .next (beginDetach s none)) ∧
  (∀ (s : State), serving s = true → twinState s = 2 → exec .handoffNotice s = .next (takeover s) ∧
    (s.twin.lastHb + 100000 * rf s TWIN_CFG 0 8 ≤ mono s → exec .partnerLost s = .next (takeover s))) ∧
  (∀ (s : State) (c : Cmd), serving s = true → twinState s = 1 → s.twin.gotReq = true → s.twin.lastHb + 100000 * rf s TWIN_CFG 0 8 ≤ mono s →
    s.twin.cmd = some c.id → getCmd s c.id = some c → exec .partnerLost s = .next (complete (goSolo s) c 0x0202 0 0)) ∧
  (∀ (s : State), mono s < s.twin.lastHb + 100000 * rf s TWIN_CFG 0 8 → exec .partnerLost s = .next s) ∧
  (∀ (s : State), twinState (takeover s) = 0 ∧ twinNode (takeover s) = 0xFFFF ∧ (takeover s).twin.mirror = [] ∧
    (takeover s).twin.models = [] ∧ (takeover s).twin.cmd = none ∧
    rd64 (takeover s) TWIN_TAKEOVER_COUNT = rd64 s TWIN_TAKEOVER_COUNT + 1) ∧
  (∀ (s : State) (ms : List TwinModel) (m : Mirrored), partDefined s (srPart m.record) = true →
    (twinMatched s ms (srModel m.record) = false → adopt s ms m = (pushLine s (srPart m.record) (takeoverEntry m.record 0 m.handle true), 0)) ∧
    (twinMatched s ms (srModel m.record) = true → s.se.sessions.length < 1048576 → (adopt s ms m).2 = 1 ∧
      (m.request = true → ∃ i x, getSess s i = none ∧ getSess (adopt s ms m).1 i = some x ∧ x.waiting = true ∧ srState x.record = stOpen) ∧
      ∃ h, tget (adopt s ms m).1.se.status (srPart m.record) [] = tget s.se.status (srPart m.record) [] ++ [takeoverEntry m.record h m.handle false])) ∧
  (∀ c ∈ [Instr.weightRepair, Instr.weightRepairRetry], ∀ (s : State) (k : RepairInput) (m : Model), getModel s k.model = some m → m.repairing ≠ none →
    serving s = true → repairDue s k.model (decide (c k = .weightRepairRetry k)) = true → s.faults.repairs.any (fun r => r.model == k.model) = false →
    (sourceFails m k = false → k.source = repairFrom s k.model → repairTurn s m = true →
      ((badUnits s m).map (unitCells s)).flatten.all (coversAt k.units) = true → repairHeld s m ((badUnits s m).map (unitCells s)).flatten = false →
      Gives (c k) s fun t => ∃ r ∈ t.faults.repairs, r.model = k.model ∧ r.source = k.source ∧ r.units = (badUnits s m).length) ∧
    (sourceFails m k = false → repairTurn s m = false → exec (c k) s = .next s) ∧
    (mrShared m.record = true → repairTurn s m = true) ∧
    (sourceFails m k = false → k.source ≠ repairFrom s k.model → exec (c k) s = .next s) ∧
    (sourceFails m k = true → ∃ loc, exec (c k) s = .next (logErr { s with faults := { s.faults with missed := tput s.faults.missed k.model (mono s) } }
        { cls := 0x42, loc := loc, detail := k.model % 4096 + 8192 }))) ∧
  (∀ c ∈ [Instr.weightRepair, Instr.weightRepairRetry], ∀ (s : State) (k : RepairInput) (m : Model), getModel s k.model = some m →
    m.repairing = none ∨ repairDue s k.model (decide (c k = .weightRepairRetry k)) = false → exec (c k) s = .next s) ∧
  (∀ (s : State) (m : Nat), repairFrom s m = .twin ↔ twinState s = 2 ∧ twinMatched s s.twin.models m = true)

/-- R219, R360, R381 to R397, R426. The arbiter, the thermal loop, assay, recalibration and the flash log. -/
def Obligations.PowerRows : Prop :=
  (∀ (s : State) (m : PowerMeas), loopsRun s = true → Gives (.controlPeriod m) s fun t => t.pwr.meas = m ∧ effCap t = min (rf s PWR_BUDGET_CAP 0 12) (rf s PWR_BOARD_CAP 0 12) ∧
    rd t PWR_IN = pack 32 [(0, 16, min 65535 (m.pIn / 1000)), (16, 16, min 65535 m.vinMv)] ∧ rf t PWR_DIE 0 16 = min 65535 (m.pDie / 1000) ∧
    (∀ k, k < stackCount s → rf t (PWR_STK k) 0 12 = min 4095 (m.pStk.getD k 0 / 1000)) ∧ t.nb.grant = s.nb.grant) ∧
  (∀ (s : State) (m : PowerMeas), loopsRun s = false → exec (.controlPeriod m) s = .next s) ∧
  (∀ (s : State) (k : Nat), k < stackCount s → (newGrants s)[k]?.isSome = true ∧ (newGrants s).getD k 0 ≤ wantOf s k ∧
    (0 < (newGrants s).getD k 0 → stkPred s k ((newGrants s).getD k 0) ≤ 100000 * (1 - stkCut s k))) ∧
  (∀ (s : State) (k : Nat), wantOf s k ≤ 8 ∧ (rf s PWR_NB_CFG 8 1 = 0 → wantOf s k = min 8 (rf s PWR_NB_CFG 0 4))) ∧
  (∀ (s : State) (k : Nat), k < stackCount s → tget (arbitrate s).nb.grantSet k 0 = (newGrants (setGuards s)).getD k 0) ∧
  (∀ (s : State), issueN s ≤ 8 ∧ 2 ≤ issueN s ∧ (issueN s = 8 ↔ diePred s 2400 ≤ availNow s - stkSum s [])) ∧
  (∀ (s : State) (k : Nat), k ≤ 5 → rf (setGuards s) PWR_CAL_STATUS k 1 = (if calOutside s k = 0 then 0 else 1)) ∧
  (∀ (s : State), rf (setGuards s) PWR_CAL_STATUS 8 6 = vfGuard s ∧ vfGuard s ≤ 40) ∧
  (∀ (s : State) (f : Nat), f ∈ fSteps s → 2400 ≤ f ∧ f ≤ 4000 ∧ f ≤ rf s PWR_FMAX 0 13 ∧ vAt s f ≤ 850) ∧
  (∀ (s : State) (f : Nat), s.pwr.target = some f → f < 8192 →
    (s.pwr.moved = false ∨ f = rf s PWR_CORE 0 13 → Gives .voltageReached s fun t => rf t PWR_CORE 0 13 = f ∧ t.pwr.target = none) ∧
    (s.pwr.moved = true → f ≠ rf s PWR_CORE 0 13 → exec .voltageReached s = .next s)) ∧
  (∀ (s : State) (f : Nat), s.pwr.moved = true → rf (setFreq s f) PWR_CORE 0 13 = rf s PWR_CORE 0 13) ∧
  (∀ (s : State) (i : Nat) (x : Int),
    ((i ∈ tget s.pwr.guardOut 2 [] ∨ ∃ r, tfind s.pwr.cals 2 = some r ∧ 0 < calOver s r (i, x)) → guardedTemp s i x = x + 32) ∧
    (i ∉ tget s.pwr.guardOut 2 [] → (∀ r, tfind s.pwr.cals 2 = some r → calOver s r (i, x) = 0) → guardedTemp s i x = x)) ∧
  (∀ (s : State) (k c : Nat), k ∈ calGuards s 4 → k ∉ tget s.pwr.guardOut 4 [] → 32 * k ≤ c → c < 32 * k + 32 →
    (tfind (setGuard s 4).mem.stkphyDue c).isSome = true) ∧
  (∀ (s : State), s.pwr.target = none → exec .voltageReached s = .next s) ∧
  (∀ (s : State) (w : Nat), loopsRun s = true → 3100 < w ∨ (effCap s < w ∧ 9999 ≤ s.pwr.overUs) → Gives (.powerSample w) s fun t =>
    rf t PWR_CORE 0 13 = 2400 ∧ (∀ k, tget t.nb.grantSet k 0 ≤ 2) ∧ t.nb.grant = s.nb.grant ∧ rf t PWR_STATUS 3 1 = 1 ∧
      t.pwr.target = none ∧ rd64 t PWR_FASTCUT_COUNT = rd64 s PWR_FASTCUT_COUNT + 1) ∧
  (∀ (s : State) (w : Nat), loopsRun s = true → w ≤ 3100 → (effCap s < w → s.pwr.overUs < 9999) →
    exec (.powerSample w) s = .next { s with pwr := { s.pwr with overUs := if effCap s < w then s.pwr.overUs + 1 else 0 } }) ∧
  (∀ (s : State) (x : Temps), loopsRun s = true → storedState s ≠ 6 → shutdownAt s (guardedTemps s x) = none → Gives (.thermalSample x) s fun t =>
    let h := hottest (guardedTemps s x).clusters
    t.pwr.temps = guardedTemps s x ∧ rd t PWR_TEMP_DIE = pack 32 [(0, 16, toCode 16 h.1), (16, 6, h.2)] ∧
      (t.pwr.warnDie = true ↔ (s.pwr.warnDie = false ∧ 1520 ≤ h.1) ∨ (s.pwr.warnDie = true ∧ 1440 < h.1)) ∧
      (t.pwr.throttleDie = true ↔ (s.pwr.throttleDie = false ∧ 1600 ≤ h.1) ∨ (s.pwr.throttleDie = true ∧ 1552 < h.1)) ∧
      rf t PWR_STATUS 0 1 = b2n t.pwr.warnDie ∧ (rf t PWR_STATUS 1 1 = 1 ↔ t.pwr.warnStk ≠ []) ∧
      (rf t PWR_STATUS 2 1 = 1 ↔ t.pwr.throttleDie = true ∨ t.pwr.throttleStk ≠ []) ∧ rd t PWR_CUT = BitVec.ofNat 32 (100 * maxCut t).floor.toNat ∧
      ∀ k, k < stackCount s → let g := (hottest (((guardedTemps s x).stackTemps.drop (4 * k)).take 4)).1
        (k ∈ t.pwr.warnStk ↔ (k ∉ s.pwr.warnStk ∧ 1360 ≤ g) ∨ (k ∈ s.pwr.warnStk ∧ 1312 < g)) ∧
        (k ∈ t.pwr.throttleStk ↔ (k ∉ s.pwr.throttleStk ∧ 1440 ≤ g) ∨ (k ∈ s.pwr.throttleStk ∧ 1392 < g)) ∧
        (rf t (STK_STATUS k) 5 1 = 1 ↔ (rf s (STK_STATUS k) 5 1 = 0 ∧ 1361 ≤ g) ∨ (rf s (STK_STATUS k) 5 1 = 1 ∧ 1312 < g))) ∧
  (∀ (s : State) (x : Temps) (sensor : Nat) (c : Int), loopsRun s = true → storedState s ≠ 6 → shutdownAt s (guardedTemps s x) = some (sensor, c) →
    exec (.thermalSample x) s = .next (thermalShutdown s sensor c)) ∧
  (∀ (s : State) (x : Temps) (sensor : Nat) (c : Int), s.pins.pwrGood = true → storedState s ≠ 6 → shutdownAt s x = some (sensor, c) →
    exec (.shutdownCompare x) s = .next (thermalShutdown s sensor c)) ∧
  (∀ (s : State) (x : Temps), s.pins.pwrGood = false ∨ (storedState s ≠ 6 ∧ shutdownAt s x = none) → exec (.shutdownCompare x) s = .next s) ∧
  (∀ (s : State) (x : Temps), storedState s = 6 → s.pins.pwrGood = true → shutdownReleased s x = true →
    Gives (.shutdownCompare x) s (fun t => t.pins.thermtrip = false ∧ storedState t = 6) ∧
    Gives (.thermalSample x) s (fun t => t.pins.thermtrip = false ∧ storedState t = 6)) ∧
  (∀ (s : State) (x : Temps), (∃ r ∈ x.clusters, 1760 ≤ r) ∨ (∃ r ∈ x.stackTemps.take (4 * stackCount s), 1600 ≤ r) → ∃ p, shutdownAt s x = some p) ∧
  (∀ (s : State) (sensor : Nat) (c : Int), storedState (thermalShutdown s sensor c) = 6 ∧ (thermalShutdown s sensor c).pins.thermtrip = true ∧
    (thermalShutdown s sensor c).mem = Mem.reset ∧ (thermalShutdown s sensor c).cores = Cores.reset ∧ (thermalShutdown s sensor c).sems = [] ∧
    (thermalShutdown s sensor c).host.cmds = [] ∧ (thermalShutdown s sensor c).host.mem = s.host.mem ∧ rf (thermalShutdown s sensor c) PWR_STATUS 5 1 = 0) ∧
  (∀ (s : State), loopsRun s = true → rf s PWR_STATUS 5 1 = 0 →
    let due := if s.pwr.firstAssay = true then s.pwr.assayStart.getD 0 + rf s PWR_ASSAY_CFG 0 8 * 3600000000000 else 3600000000000
    (due ≤ mono s → Gives .fullAssay s fun t => rf t PWR_STATUS 5 1 = 1 ∧ t.pwr.assayStart = some (mono s) ∧
      t.pwr.assayAt = BitVec.ofNat 64 (now s) ∧ t.pwr.firstAssay = true) ∧
    (mono s < due → exec .fullAssay s = .next s)) ∧
  (∀ (s : State) (f : Findings), fld (historyRecord s f) 80 10 = f.vf.getD ((rf s PWR_FMAX 0 13 - 2400) / 50) 0 % 1024 ∧
    ∀ k, k < stackCount s → fld (historyRecord s f) (1168 + 16 * k) 16 = min 65535 (weakRows f k).length) ∧
  (∀ (s : State) (f : Findings), loopsRun s = true → rf s PWR_STATUS 5 1 = 1 → f.weakLanes = [] → f.noSlack = [] → Gives (.assayComplete f) s fun t =>
    rf t PWR_STATUS 5 1 = 0 ∧ rd t PWR_FMAX = BitVec.ofNat 32 (fmaxOf (f.vf.map (· + 25))) ∧ rd t HF_LSPLIT_RATE_D = BitVec.ofNat 32 f.rateD ∧
      rd64 t PWR_ASSAY_LAST = BitVec.ofNat 64 (now s) ∧ (∀ k, k < 8 → t.pwr.kStk[k]? = some (f.kStk.getD k 0)) ∧
      (∃ cals r, fld r 0 64 = s.pwr.assayAt.toNat ∧ t.flash = { s.flash with writing := s.flash.writing ++ [.assay cals r] }) ∧ t.pwr.calMax = [] ∧
      (tfind t.pwr.cals 0).map (·.vals) = some (f.vf.map (· + 25)) ∧
      (∀ k code, f.retention = [(k, code)] → k < stackCount s → code ≤ 2 → rf t (PWR_STK k) 16 2 = max code (rf s (PWR_STK k) 16 2)) ∧
      (∀ r ∈ f.weakRows, r.1 / 2048 < stackCount s → r.2 < 24576 → 24576 * r.1 + r.2 ∈ t.mem.repairDue)) ∧
  (∀ (s : State) (f : Findings), rf s PWR_STATUS 5 1 = 0 → exec (.assayComplete f) s = .next s ∧ exec .assayTimeout s = .next s) ∧
  (∀ (s : State) (a : Nat), rf s PWR_STATUS 5 1 = 1 → s.pwr.assayStart = some a →
    (a + 600000000000 ≤ mono s → exec .assayTimeout s = .next (logErr (wf s PWR_STATUS 5 1 0) { cls := 0x52, detail := 5 })) ∧
    (mono s < a + 600000000000 → exec .assayTimeout s = .next s)) ∧
  (∀ (s : State) (kind : Nat) (c : CalCond) (v : List Nat), loopsRun s = true → kind ≤ 5 → rf s PWR_CAL_STATUS kind 1 = 1 →
    (recalDue s kind = true → Gives (.recalibration kind c v) s fun t =>
      tfind t.pwr.cals kind = some { cond := c, vals := if kind = 0 then v.map (· + 25) else v } ∧ tfind t.pwr.calAt kind = some (mono s) ∧
        rd64 t PWR_RECAL_COUNT = rd64 s PWR_RECAL_COUNT + 1 ∧ (kind = 3 → ∀ x ∈ v, x < 50331648 * stackCount s → x ∈ t.mem.repairDue) ∧
        (kind ≠ 3 → t.mem = s.mem)) ∧
    (recalDue s kind = false → exec (.recalibration kind c v) s = .next s)) ∧
  (∀ (s : State) (kind : Nat), recalDue s kind = true ↔ (∀ a, tfind s.pwr.calAt kind = some a → a + 1000000000 ≤ mono s) ∧
    (s.se.steps = [] ∨ ∃ b, s.se.boundaryAt = some b ∧ tget s.pwr.guardAt kind 0 ≤ b)) ∧
  (∀ (s : State) (kind : Nat) (c : CalCond) (v : List Nat), rf s PWR_CAL_STATUS kind 1 = 0 → exec (.recalibration kind c v) s = .next s) ∧
  (∀ (s : State) (go : List Nat), flashHeld s = true → go = s.faults.unflashed.take (100 - (recentCopies s).length) → Gives .flashLogCopy s fun t =>
    t.faults.unflashed = [] ∧ (t.pins.hfHalted = true ↔ storedState s = 6) ∧ (go = [] → t.flash = s.flash) ∧
      (go ≠ [] → t.flash = { s.flash with writing := s.flash.writing ++ [.log (go.map (fun i => tget s.faults.ring i 0 ||| (1 : Line) <<< 11))] }) ∧
      t.faults.copiedAt = recentCopies s ++ go.map (fun _ => mono s) ∧
      ∀ i ∈ go, tget t.faults.ring i 0 = tget s.faults.ring i 0 ||| (1 : Line) <<< 11) ∧
  -- a record counts once it is committed (R26)
  (∀ (f : Flash) (r : FlashRec) (rest : List FlashRec), f.writing = r :: rest → f.commitNext.writing = rest ∧
    (∀ ls, r = .log ls → f.commitNext.log.length ≤ 16384 ∧ (f.log.length + ls.length ≤ 16384 → f.commitNext.log = f.log ++ ls) ∧
      f.commitNext.history = f.history) ∧
    (∀ cals h, r = .assay cals h → f.commitNext.history = (f.history ++ [h]).drop (f.history.length - 4095) ∧ f.commitNext.log = f.log) ∧
    (∀ b n, r = .remap b n → f.commitNext.remaps = f.remaps ++ [(b, n)])) ∧
  (∀ (s : State), flashHeld s = false → exec .flashLogCopy s = .next s)

end
end

