-- ==== Sys2Proof/Laws/Fold.lean ====
section
/-! SUPPORT. A fold keeps what each of its steps keeps: by field of the state, for folds over a state alone and beside results. -/
namespace Sys2Proof.Machine

/-- Every step of a fold keeps the part `p`. -/
def Keeps {α σ γ : Type} (p : σ → γ) (g : σ → α → σ) : Prop := ∀ s a, p (g s a) = p s

@[simp] theorem keeps_iff {α σ γ : Type} (p : σ → γ) (g : σ → α → σ) : Keeps p g ↔ ∀ s a, p (g s a) = p s := Iff.rfl

theorem foldl_keeps {α σ γ : Type} (p : σ → γ) (g : σ → α → σ) (h : Keeps p g) (l : List α) (s : σ) : p (l.foldl g s) = p s :=
  List.foldlRecOn l g (motive := fun x => p x = p s) rfl fun x hx a _ => (h x a).trans hx

theorem iterate_eq {σ : Type} (n : Nat) (f : Nat → σ → σ) (s : σ) : iterate n f s = (List.range n).foldl (fun a i => f i a) s := rfl

@[simp] theorem foldl_grade {α : Type} (g : State → α → State) (h : Keeps State.grade g) (l : List α) (s : State) : (l.foldl g s).grade = s.grade :=
  foldl_keeps _ _ h _ _
@[simp] theorem foldl2_grade {α β : Type} (g : β × State → α → β × State) (h : Keeps (fun x => x.2.grade) g) (l : List α) (x : β × State) :
    (l.foldl g x).2.grade = x.2.grade := foldl_keeps _ _ h _ _
@[simp] theorem foldl3_grade {α β γ : Type} (g : β × γ × State → α → β × γ × State) (h : Keeps (fun x => x.2.2.grade) g) (l : List α)
    (x : β × γ × State) : (l.foldl g x).2.2.grade = x.2.2.grade := foldl_keeps _ _ h _ _
@[simp] theorem foldr1_grade {α β : Type} (g : State × β → α → State × β) (h : Keeps (fun x => x.1.grade) g) (l : List α) (x : State × β) :
    (l.foldl g x).1.grade = x.1.grade := foldl_keeps _ _ h _ _
@[simp] theorem iterate_grade (n : Nat) (f : Nat → State → State) (h : Keeps State.grade (fun s i => f i s)) (s : State) : (iterate n f s).grade = s.grade :=
  foldl_keeps _ _ h _ _
@[simp] theorem foldl_fresh {α : Type} (g : State → α → State) (h : Keeps State.fresh g) (l : List α) (s : State) : (l.foldl g s).fresh = s.fresh :=
  foldl_keeps _ _ h _ _
@[simp] theorem foldl2_fresh {α β : Type} (g : β × State → α → β × State) (h : Keeps (fun x => x.2.fresh) g) (l : List α) (x : β × State) :
    (l.foldl g x).2.fresh = x.2.fresh := foldl_keeps _ _ h _ _
@[simp] theorem foldl3_fresh {α β γ : Type} (g : β × γ × State → α → β × γ × State) (h : Keeps (fun x => x.2.2.fresh) g) (l : List α)
    (x : β × γ × State) : (l.foldl g x).2.2.fresh = x.2.2.fresh := foldl_keeps _ _ h _ _
@[simp] theorem foldr1_fresh {α β : Type} (g : State × β → α → State × β) (h : Keeps (fun x => x.1.fresh) g) (l : List α) (x : State × β) :
    (l.foldl g x).1.fresh = x.1.fresh := foldl_keeps _ _ h _ _
@[simp] theorem iterate_fresh (n : Nat) (f : Nat → State → State) (h : Keeps State.fresh (fun s i => f i s)) (s : State) : (iterate n f s).fresh = s.fresh :=
  foldl_keeps _ _ h _ _
@[simp] theorem foldl_time {α : Type} (g : State → α → State) (h : Keeps State.time g) (l : List α) (s : State) : (l.foldl g s).time = s.time :=
  foldl_keeps _ _ h _ _
@[simp] theorem foldl2_time {α β : Type} (g : β × State → α → β × State) (h : Keeps (fun x => x.2.time) g) (l : List α) (x : β × State) :
    (l.foldl g x).2.time = x.2.time := foldl_keeps _ _ h _ _
@[simp] theorem foldl3_time {α β γ : Type} (g : β × γ × State → α → β × γ × State) (h : Keeps (fun x => x.2.2.time) g) (l : List α)
    (x : β × γ × State) : (l.foldl g x).2.2.time = x.2.2.time := foldl_keeps _ _ h _ _
@[simp] theorem foldr1_time {α β : Type} (g : State × β → α → State × β) (h : Keeps (fun x => x.1.time) g) (l : List α) (x : State × β) :
    (l.foldl g x).1.time = x.1.time := foldl_keeps _ _ h _ _
@[simp] theorem iterate_time (n : Nat) (f : Nat → State → State) (h : Keeps State.time (fun s i => f i s)) (s : State) : (iterate n f s).time = s.time :=
  foldl_keeps _ _ h _ _
@[simp] theorem foldl_bar {α : Type} (g : State → α → State) (h : Keeps State.bar g) (l : List α) (s : State) : (l.foldl g s).bar = s.bar :=
  foldl_keeps _ _ h _ _
@[simp] theorem foldl2_bar {α β : Type} (g : β × State → α → β × State) (h : Keeps (fun x => x.2.bar) g) (l : List α) (x : β × State) :
    (l.foldl g x).2.bar = x.2.bar := foldl_keeps _ _ h _ _
@[simp] theorem foldl3_bar {α β γ : Type} (g : β × γ × State → α → β × γ × State) (h : Keeps (fun x => x.2.2.bar) g) (l : List α)
    (x : β × γ × State) : (l.foldl g x).2.2.bar = x.2.2.bar := foldl_keeps _ _ h _ _
@[simp] theorem foldr1_bar {α β : Type} (g : State × β → α → State × β) (h : Keeps (fun x => x.1.bar) g) (l : List α) (x : State × β) :
    (l.foldl g x).1.bar = x.1.bar := foldl_keeps _ _ h _ _
@[simp] theorem iterate_bar (n : Nat) (f : Nat → State → State) (h : Keeps State.bar (fun s i => f i s)) (s : State) : (iterate n f s).bar = s.bar :=
  foldl_keeps _ _ h _ _
@[simp] theorem foldl_mem {α : Type} (g : State → α → State) (h : Keeps State.mem g) (l : List α) (s : State) : (l.foldl g s).mem = s.mem :=
  foldl_keeps _ _ h _ _
@[simp] theorem foldl2_mem {α β : Type} (g : β × State → α → β × State) (h : Keeps (fun x => x.2.mem) g) (l : List α) (x : β × State) :
    (l.foldl g x).2.mem = x.2.mem := foldl_keeps _ _ h _ _
@[simp] theorem foldl3_mem {α β γ : Type} (g : β × γ × State → α → β × γ × State) (h : Keeps (fun x => x.2.2.mem) g) (l : List α)
    (x : β × γ × State) : (l.foldl g x).2.2.mem = x.2.2.mem := foldl_keeps _ _ h _ _
@[simp] theorem foldr1_mem {α β : Type} (g : State × β → α → State × β) (h : Keeps (fun x => x.1.mem) g) (l : List α) (x : State × β) :
    (l.foldl g x).1.mem = x.1.mem := foldl_keeps _ _ h _ _
@[simp] theorem iterate_mem (n : Nat) (f : Nat → State → State) (h : Keeps State.mem (fun s i => f i s)) (s : State) : (iterate n f s).mem = s.mem :=
  foldl_keeps _ _ h _ _
@[simp] theorem foldl_cores {α : Type} (g : State → α → State) (h : Keeps State.cores g) (l : List α) (s : State) : (l.foldl g s).cores = s.cores :=
  foldl_keeps _ _ h _ _
@[simp] theorem foldl2_cores {α β : Type} (g : β × State → α → β × State) (h : Keeps (fun x => x.2.cores) g) (l : List α) (x : β × State) :
    (l.foldl g x).2.cores = x.2.cores := foldl_keeps _ _ h _ _
@[simp] theorem foldl3_cores {α β γ : Type} (g : β × γ × State → α → β × γ × State) (h : Keeps (fun x => x.2.2.cores) g) (l : List α)
    (x : β × γ × State) : (l.foldl g x).2.2.cores = x.2.2.cores := foldl_keeps _ _ h _ _
@[simp] theorem foldr1_cores {α β : Type} (g : State × β → α → State × β) (h : Keeps (fun x => x.1.cores) g) (l : List α) (x : State × β) :
    (l.foldl g x).1.cores = x.1.cores := foldl_keeps _ _ h _ _
@[simp] theorem iterate_cores (n : Nat) (f : Nat → State → State) (h : Keeps State.cores (fun s i => f i s)) (s : State) : (iterate n f s).cores = s.cores :=
  foldl_keeps _ _ h _ _
@[simp] theorem foldl_sems {α : Type} (g : State → α → State) (h : Keeps State.sems g) (l : List α) (s : State) : (l.foldl g s).sems = s.sems :=
  foldl_keeps _ _ h _ _
@[simp] theorem foldl2_sems {α β : Type} (g : β × State → α → β × State) (h : Keeps (fun x => x.2.sems) g) (l : List α) (x : β × State) :
    (l.foldl g x).2.sems = x.2.sems := foldl_keeps _ _ h _ _
@[simp] theorem foldl3_sems {α β γ : Type} (g : β × γ × State → α → β × γ × State) (h : Keeps (fun x => x.2.2.sems) g) (l : List α)
    (x : β × γ × State) : (l.foldl g x).2.2.sems = x.2.2.sems := foldl_keeps _ _ h _ _
@[simp] theorem foldr1_sems {α β : Type} (g : State × β → α → State × β) (h : Keeps (fun x => x.1.sems) g) (l : List α) (x : State × β) :
    (l.foldl g x).1.sems = x.1.sems := foldl_keeps _ _ h _ _
@[simp] theorem iterate_sems (n : Nat) (f : Nat → State → State) (h : Keeps State.sems (fun s i => f i s)) (s : State) : (iterate n f s).sems = s.sems :=
  foldl_keeps _ _ h _ _
@[simp] theorem foldl_hoists {α : Type} (g : State → α → State) (h : Keeps State.hoists g) (l : List α) (s : State) : (l.foldl g s).hoists = s.hoists :=
  foldl_keeps _ _ h _ _
@[simp] theorem foldl2_hoists {α β : Type} (g : β × State → α → β × State) (h : Keeps (fun x => x.2.hoists) g) (l : List α) (x : β × State) :
    (l.foldl g x).2.hoists = x.2.hoists := foldl_keeps _ _ h _ _
@[simp] theorem foldl3_hoists {α β γ : Type} (g : β × γ × State → α → β × γ × State) (h : Keeps (fun x => x.2.2.hoists) g) (l : List α)
    (x : β × γ × State) : (l.foldl g x).2.2.hoists = x.2.2.hoists := foldl_keeps _ _ h _ _
@[simp] theorem foldr1_hoists {α β : Type} (g : State × β → α → State × β) (h : Keeps (fun x => x.1.hoists) g) (l : List α) (x : State × β) :
    (l.foldl g x).1.hoists = x.1.hoists := foldl_keeps _ _ h _ _
@[simp] theorem iterate_hoists (n : Nat) (f : Nat → State → State) (h : Keeps State.hoists (fun s i => f i s)) (s : State) : (iterate n f s).hoists = s.hoists :=
  foldl_keeps _ _ h _ _
@[simp] theorem foldl_nb {α : Type} (g : State → α → State) (h : Keeps State.nb g) (l : List α) (s : State) : (l.foldl g s).nb = s.nb :=
  foldl_keeps _ _ h _ _
@[simp] theorem foldl2_nb {α β : Type} (g : β × State → α → β × State) (h : Keeps (fun x => x.2.nb) g) (l : List α) (x : β × State) :
    (l.foldl g x).2.nb = x.2.nb := foldl_keeps _ _ h _ _
@[simp] theorem foldl3_nb {α β γ : Type} (g : β × γ × State → α → β × γ × State) (h : Keeps (fun x => x.2.2.nb) g) (l : List α)
    (x : β × γ × State) : (l.foldl g x).2.2.nb = x.2.2.nb := foldl_keeps _ _ h _ _
@[simp] theorem foldr1_nb {α β : Type} (g : State × β → α → State × β) (h : Keeps (fun x => x.1.nb) g) (l : List α) (x : State × β) :
    (l.foldl g x).1.nb = x.1.nb := foldl_keeps _ _ h _ _
@[simp] theorem iterate_nb (n : Nat) (f : Nat → State → State) (h : Keeps State.nb (fun s i => f i s)) (s : State) : (iterate n f s).nb = s.nb :=
  foldl_keeps _ _ h _ _
@[simp] theorem foldl_host {α : Type} (g : State → α → State) (h : Keeps State.host g) (l : List α) (s : State) : (l.foldl g s).host = s.host :=
  foldl_keeps _ _ h _ _
@[simp] theorem foldl2_host {α β : Type} (g : β × State → α → β × State) (h : Keeps (fun x => x.2.host) g) (l : List α) (x : β × State) :
    (l.foldl g x).2.host = x.2.host := foldl_keeps _ _ h _ _
@[simp] theorem foldl3_host {α β γ : Type} (g : β × γ × State → α → β × γ × State) (h : Keeps (fun x => x.2.2.host) g) (l : List α)
    (x : β × γ × State) : (l.foldl g x).2.2.host = x.2.2.host := foldl_keeps _ _ h _ _
@[simp] theorem foldr1_host {α β : Type} (g : State × β → α → State × β) (h : Keeps (fun x => x.1.host) g) (l : List α) (x : State × β) :
    (l.foldl g x).1.host = x.1.host := foldl_keeps _ _ h _ _
@[simp] theorem iterate_host (n : Nat) (f : Nat → State → State) (h : Keeps State.host (fun s i => f i s)) (s : State) : (iterate n f s).host = s.host :=
  foldl_keeps _ _ h _ _
@[simp] theorem foldl_parts {α : Type} (g : State → α → State) (h : Keeps State.parts g) (l : List α) (s : State) : (l.foldl g s).parts = s.parts :=
  foldl_keeps _ _ h _ _
@[simp] theorem foldl2_parts {α β : Type} (g : β × State → α → β × State) (h : Keeps (fun x => x.2.parts) g) (l : List α) (x : β × State) :
    (l.foldl g x).2.parts = x.2.parts := foldl_keeps _ _ h _ _
@[simp] theorem foldl3_parts {α β γ : Type} (g : β × γ × State → α → β × γ × State) (h : Keeps (fun x => x.2.2.parts) g) (l : List α)
    (x : β × γ × State) : (l.foldl g x).2.2.parts = x.2.2.parts := foldl_keeps _ _ h _ _
@[simp] theorem foldr1_parts {α β : Type} (g : State × β → α → State × β) (h : Keeps (fun x => x.1.parts) g) (l : List α) (x : State × β) :
    (l.foldl g x).1.parts = x.1.parts := foldl_keeps _ _ h _ _
@[simp] theorem iterate_parts (n : Nat) (f : Nat → State → State) (h : Keeps State.parts (fun s i => f i s)) (s : State) : (iterate n f s).parts = s.parts :=
  foldl_keeps _ _ h _ _
@[simp] theorem foldl_se {α : Type} (g : State → α → State) (h : Keeps State.se g) (l : List α) (s : State) : (l.foldl g s).se = s.se :=
  foldl_keeps _ _ h _ _
@[simp] theorem foldl2_se {α β : Type} (g : β × State → α → β × State) (h : Keeps (fun x => x.2.se) g) (l : List α) (x : β × State) :
    (l.foldl g x).2.se = x.2.se := foldl_keeps _ _ h _ _
@[simp] theorem foldl3_se {α β γ : Type} (g : β × γ × State → α → β × γ × State) (h : Keeps (fun x => x.2.2.se) g) (l : List α)
    (x : β × γ × State) : (l.foldl g x).2.2.se = x.2.2.se := foldl_keeps _ _ h _ _
@[simp] theorem foldr1_se {α β : Type} (g : State × β → α → State × β) (h : Keeps (fun x => x.1.se) g) (l : List α) (x : State × β) :
    (l.foldl g x).1.se = x.1.se := foldl_keeps _ _ h _ _
@[simp] theorem iterate_se (n : Nat) (f : Nat → State → State) (h : Keeps State.se (fun s i => f i s)) (s : State) : (iterate n f s).se = s.se :=
  foldl_keeps _ _ h _ _
@[simp] theorem foldl_fab {α : Type} (g : State → α → State) (h : Keeps State.fab g) (l : List α) (s : State) : (l.foldl g s).fab = s.fab :=
  foldl_keeps _ _ h _ _
@[simp] theorem foldl2_fab {α β : Type} (g : β × State → α → β × State) (h : Keeps (fun x => x.2.fab) g) (l : List α) (x : β × State) :
    (l.foldl g x).2.fab = x.2.fab := foldl_keeps _ _ h _ _
@[simp] theorem foldl3_fab {α β γ : Type} (g : β × γ × State → α → β × γ × State) (h : Keeps (fun x => x.2.2.fab) g) (l : List α)
    (x : β × γ × State) : (l.foldl g x).2.2.fab = x.2.2.fab := foldl_keeps _ _ h _ _
@[simp] theorem foldr1_fab {α β : Type} (g : State × β → α → State × β) (h : Keeps (fun x => x.1.fab) g) (l : List α) (x : State × β) :
    (l.foldl g x).1.fab = x.1.fab := foldl_keeps _ _ h _ _
@[simp] theorem iterate_fab (n : Nat) (f : Nat → State → State) (h : Keeps State.fab (fun s i => f i s)) (s : State) : (iterate n f s).fab = s.fab :=
  foldl_keeps _ _ h _ _
@[simp] theorem foldl_faults {α : Type} (g : State → α → State) (h : Keeps State.faults g) (l : List α) (s : State) : (l.foldl g s).faults = s.faults :=
  foldl_keeps _ _ h _ _
@[simp] theorem foldl2_faults {α β : Type} (g : β × State → α → β × State) (h : Keeps (fun x => x.2.faults) g) (l : List α) (x : β × State) :
    (l.foldl g x).2.faults = x.2.faults := foldl_keeps _ _ h _ _
@[simp] theorem foldl3_faults {α β γ : Type} (g : β × γ × State → α → β × γ × State) (h : Keeps (fun x => x.2.2.faults) g) (l : List α)
    (x : β × γ × State) : (l.foldl g x).2.2.faults = x.2.2.faults := foldl_keeps _ _ h _ _
@[simp] theorem foldr1_faults {α β : Type} (g : State × β → α → State × β) (h : Keeps (fun x => x.1.faults) g) (l : List α) (x : State × β) :
    (l.foldl g x).1.faults = x.1.faults := foldl_keeps _ _ h _ _
@[simp] theorem iterate_faults (n : Nat) (f : Nat → State → State) (h : Keeps State.faults (fun s i => f i s)) (s : State) : (iterate n f s).faults = s.faults :=
  foldl_keeps _ _ h _ _
@[simp] theorem foldl_twin {α : Type} (g : State → α → State) (h : Keeps State.twin g) (l : List α) (s : State) : (l.foldl g s).twin = s.twin :=
  foldl_keeps _ _ h _ _
@[simp] theorem foldl2_twin {α β : Type} (g : β × State → α → β × State) (h : Keeps (fun x => x.2.twin) g) (l : List α) (x : β × State) :
    (l.foldl g x).2.twin = x.2.twin := foldl_keeps _ _ h _ _
@[simp] theorem foldl3_twin {α β γ : Type} (g : β × γ × State → α → β × γ × State) (h : Keeps (fun x => x.2.2.twin) g) (l : List α)
    (x : β × γ × State) : (l.foldl g x).2.2.twin = x.2.2.twin := foldl_keeps _ _ h _ _
@[simp] theorem foldr1_twin {α β : Type} (g : State × β → α → State × β) (h : Keeps (fun x => x.1.twin) g) (l : List α) (x : State × β) :
    (l.foldl g x).1.twin = x.1.twin := foldl_keeps _ _ h _ _
@[simp] theorem iterate_twin (n : Nat) (f : Nat → State → State) (h : Keeps State.twin (fun s i => f i s)) (s : State) : (iterate n f s).twin = s.twin :=
  foldl_keeps _ _ h _ _
@[simp] theorem foldl_pwr {α : Type} (g : State → α → State) (h : Keeps State.pwr g) (l : List α) (s : State) : (l.foldl g s).pwr = s.pwr :=
  foldl_keeps _ _ h _ _
@[simp] theorem foldl2_pwr {α β : Type} (g : β × State → α → β × State) (h : Keeps (fun x => x.2.pwr) g) (l : List α) (x : β × State) :
    (l.foldl g x).2.pwr = x.2.pwr := foldl_keeps _ _ h _ _
@[simp] theorem foldl3_pwr {α β γ : Type} (g : β × γ × State → α → β × γ × State) (h : Keeps (fun x => x.2.2.pwr) g) (l : List α)
    (x : β × γ × State) : (l.foldl g x).2.2.pwr = x.2.2.pwr := foldl_keeps _ _ h _ _
@[simp] theorem foldr1_pwr {α β : Type} (g : State × β → α → State × β) (h : Keeps (fun x => x.1.pwr) g) (l : List α) (x : State × β) :
    (l.foldl g x).1.pwr = x.1.pwr := foldl_keeps _ _ h _ _
@[simp] theorem iterate_pwr (n : Nat) (f : Nat → State → State) (h : Keeps State.pwr (fun s i => f i s)) (s : State) : (iterate n f s).pwr = s.pwr :=
  foldl_keeps _ _ h _ _
@[simp] theorem foldl_sec {α : Type} (g : State → α → State) (h : Keeps State.sec g) (l : List α) (s : State) : (l.foldl g s).sec = s.sec :=
  foldl_keeps _ _ h _ _
@[simp] theorem foldl2_sec {α β : Type} (g : β × State → α → β × State) (h : Keeps (fun x => x.2.sec) g) (l : List α) (x : β × State) :
    (l.foldl g x).2.sec = x.2.sec := foldl_keeps _ _ h _ _
@[simp] theorem foldl3_sec {α β γ : Type} (g : β × γ × State → α → β × γ × State) (h : Keeps (fun x => x.2.2.sec) g) (l : List α)
    (x : β × γ × State) : (l.foldl g x).2.2.sec = x.2.2.sec := foldl_keeps _ _ h _ _
@[simp] theorem foldr1_sec {α β : Type} (g : State × β → α → State × β) (h : Keeps (fun x => x.1.sec) g) (l : List α) (x : State × β) :
    (l.foldl g x).1.sec = x.1.sec := foldl_keeps _ _ h _ _
@[simp] theorem iterate_sec (n : Nat) (f : Nat → State → State) (h : Keeps State.sec (fun s i => f i s)) (s : State) : (iterate n f s).sec = s.sec :=
  foldl_keeps _ _ h _ _
@[simp] theorem foldl_flash {α : Type} (g : State → α → State) (h : Keeps State.flash g) (l : List α) (s : State) : (l.foldl g s).flash = s.flash :=
  foldl_keeps _ _ h _ _
@[simp] theorem foldl2_flash {α β : Type} (g : β × State → α → β × State) (h : Keeps (fun x => x.2.flash) g) (l : List α) (x : β × State) :
    (l.foldl g x).2.flash = x.2.flash := foldl_keeps _ _ h _ _
@[simp] theorem foldl3_flash {α β γ : Type} (g : β × γ × State → α → β × γ × State) (h : Keeps (fun x => x.2.2.flash) g) (l : List α)
    (x : β × γ × State) : (l.foldl g x).2.2.flash = x.2.2.flash := foldl_keeps _ _ h _ _
@[simp] theorem foldr1_flash {α β : Type} (g : State × β → α → State × β) (h : Keeps (fun x => x.1.flash) g) (l : List α) (x : State × β) :
    (l.foldl g x).1.flash = x.1.flash := foldl_keeps _ _ h _ _
@[simp] theorem iterate_flash (n : Nat) (f : Nat → State → State) (h : Keeps State.flash (fun s i => f i s)) (s : State) : (iterate n f s).flash = s.flash :=
  foldl_keeps _ _ h _ _
@[simp] theorem foldl_pins {α : Type} (g : State → α → State) (h : Keeps State.pins g) (l : List α) (s : State) : (l.foldl g s).pins = s.pins :=
  foldl_keeps _ _ h _ _
@[simp] theorem foldl2_pins {α β : Type} (g : β × State → α → β × State) (h : Keeps (fun x => x.2.pins) g) (l : List α) (x : β × State) :
    (l.foldl g x).2.pins = x.2.pins := foldl_keeps _ _ h _ _
@[simp] theorem foldl3_pins {α β γ : Type} (g : β × γ × State → α → β × γ × State) (h : Keeps (fun x => x.2.2.pins) g) (l : List α)
    (x : β × γ × State) : (l.foldl g x).2.2.pins = x.2.2.pins := foldl_keeps _ _ h _ _
@[simp] theorem foldr1_pins {α β : Type} (g : State × β → α → State × β) (h : Keeps (fun x => x.1.pins) g) (l : List α) (x : State × β) :
    (l.foldl g x).1.pins = x.1.pins := foldl_keeps _ _ h _ _
@[simp] theorem iterate_pins (n : Nat) (f : Nat → State → State) (h : Keeps State.pins (fun s i => f i s)) (s : State) : (iterate n f s).pins = s.pins :=
  foldl_keeps _ _ h _ _
@[simp] theorem foldl_trace {α : Type} (g : State → α → State) (h : Keeps State.trace g) (l : List α) (s : State) : (l.foldl g s).trace = s.trace :=
  foldl_keeps _ _ h _ _
@[simp] theorem foldl2_trace {α β : Type} (g : β × State → α → β × State) (h : Keeps (fun x => x.2.trace) g) (l : List α) (x : β × State) :
    (l.foldl g x).2.trace = x.2.trace := foldl_keeps _ _ h _ _
@[simp] theorem foldl3_trace {α β γ : Type} (g : β × γ × State → α → β × γ × State) (h : Keeps (fun x => x.2.2.trace) g) (l : List α)
    (x : β × γ × State) : (l.foldl g x).2.2.trace = x.2.2.trace := foldl_keeps _ _ h _ _
@[simp] theorem foldr1_trace {α β : Type} (g : State × β → α → State × β) (h : Keeps (fun x => x.1.trace) g) (l : List α) (x : State × β) :
    (l.foldl g x).1.trace = x.1.trace := foldl_keeps _ _ h _ _
@[simp] theorem iterate_trace (n : Nat) (f : Nat → State → State) (h : Keeps State.trace (fun s i => f i s)) (s : State) : (iterate n f s).trace = s.trace :=
  foldl_keeps _ _ h _ _
@[simp] theorem foldl_pending {α : Type} (g : State → α → State) (h : Keeps State.pending g) (l : List α) (s : State) : (l.foldl g s).pending = s.pending :=
  foldl_keeps _ _ h _ _
@[simp] theorem foldl2_pending {α β : Type} (g : β × State → α → β × State) (h : Keeps (fun x => x.2.pending) g) (l : List α) (x : β × State) :
    (l.foldl g x).2.pending = x.2.pending := foldl_keeps _ _ h _ _
@[simp] theorem foldl3_pending {α β γ : Type} (g : β × γ × State → α → β × γ × State) (h : Keeps (fun x => x.2.2.pending) g) (l : List α)
    (x : β × γ × State) : (l.foldl g x).2.2.pending = x.2.2.pending := foldl_keeps _ _ h _ _
@[simp] theorem foldr1_pending {α β : Type} (g : State × β → α → State × β) (h : Keeps (fun x => x.1.pending) g) (l : List α) (x : State × β) :
    (l.foldl g x).1.pending = x.1.pending := foldl_keeps _ _ h _ _
@[simp] theorem iterate_pending (n : Nat) (f : Nat → State → State) (h : Keeps State.pending (fun s i => f i s)) (s : State) : (iterate n f s).pending = s.pending :=
  foldl_keeps _ _ h _ _

/-! The parts of a choice. -/

@[simp] theorem ite_fst {α β : Type} (c : Prop) [Decidable c] (a b : α × β) : (if c then a else b).1 = if c then a.1 else b.1 := apply_ite _ _ _ _
@[simp] theorem ite_snd {α β : Type} (c : Prop) [Decidable c] (a b : α × β) : (if c then a else b).2 = if c then a.2 else b.2 := apply_ite _ _ _ _
@[simp] theorem ite_grade (c : Prop) [Decidable c] (a b : State) : (if c then a else b).grade = if c then a.grade else b.grade := apply_ite _ _ _ _
@[simp] theorem ite_fresh (c : Prop) [Decidable c] (a b : State) : (if c then a else b).fresh = if c then a.fresh else b.fresh := apply_ite _ _ _ _
@[simp] theorem ite_time (c : Prop) [Decidable c] (a b : State) : (if c then a else b).time = if c then a.time else b.time := apply_ite _ _ _ _
@[simp] theorem ite_bar (c : Prop) [Decidable c] (a b : State) : (if c then a else b).bar = if c then a.bar else b.bar := apply_ite _ _ _ _
@[simp] theorem ite_mem (c : Prop) [Decidable c] (a b : State) : (if c then a else b).mem = if c then a.mem else b.mem := apply_ite _ _ _ _
@[simp] theorem ite_cores (c : Prop) [Decidable c] (a b : State) : (if c then a else b).cores = if c then a.cores else b.cores := apply_ite _ _ _ _
@[simp] theorem ite_sems (c : Prop) [Decidable c] (a b : State) : (if c then a else b).sems = if c then a.sems else b.sems := apply_ite _ _ _ _
@[simp] theorem ite_hoists (c : Prop) [Decidable c] (a b : State) : (if c then a else b).hoists = if c then a.hoists else b.hoists := apply_ite _ _ _ _
@[simp] theorem ite_nb (c : Prop) [Decidable c] (a b : State) : (if c then a else b).nb = if c then a.nb else b.nb := apply_ite _ _ _ _
@[simp] theorem ite_host (c : Prop) [Decidable c] (a b : State) : (if c then a else b).host = if c then a.host else b.host := apply_ite _ _ _ _
@[simp] theorem ite_parts (c : Prop) [Decidable c] (a b : State) : (if c then a else b).parts = if c then a.parts else b.parts := apply_ite _ _ _ _
@[simp] theorem ite_se (c : Prop) [Decidable c] (a b : State) : (if c then a else b).se = if c then a.se else b.se := apply_ite _ _ _ _
@[simp] theorem ite_fab (c : Prop) [Decidable c] (a b : State) : (if c then a else b).fab = if c then a.fab else b.fab := apply_ite _ _ _ _
@[simp] theorem ite_faults (c : Prop) [Decidable c] (a b : State) : (if c then a else b).faults = if c then a.faults else b.faults := apply_ite _ _ _ _
@[simp] theorem ite_twin (c : Prop) [Decidable c] (a b : State) : (if c then a else b).twin = if c then a.twin else b.twin := apply_ite _ _ _ _
@[simp] theorem ite_pwr (c : Prop) [Decidable c] (a b : State) : (if c then a else b).pwr = if c then a.pwr else b.pwr := apply_ite _ _ _ _
@[simp] theorem ite_sec (c : Prop) [Decidable c] (a b : State) : (if c then a else b).sec = if c then a.sec else b.sec := apply_ite _ _ _ _
@[simp] theorem ite_flash (c : Prop) [Decidable c] (a b : State) : (if c then a else b).flash = if c then a.flash else b.flash := apply_ite _ _ _ _
@[simp] theorem ite_pins (c : Prop) [Decidable c] (a b : State) : (if c then a else b).pins = if c then a.pins else b.pins := apply_ite _ _ _ _
@[simp] theorem ite_trace (c : Prop) [Decidable c] (a b : State) : (if c then a else b).trace = if c then a.trace else b.trace := apply_ite _ _ _ _
@[simp] theorem ite_pending (c : Prop) [Decidable c] (a b : State) : (if c then a else b).pending = if c then a.pending else b.pending := apply_ite _ _ _ _

end Sys2Proof.Machine
end

