-- ==== Sys2Proof/Laws/Tab.lean ====
section
/-! SUPPORT. The laws of sparse tables: what a write leaves under its own key and under others, and that every operation keeps the canonical
form. -/
namespace Sys2Proof.Machine

variable {α : Type}

@[simp] theorem tfind_nil (k : Nat) : tfind ([] : Tab α) k = none := rfl

@[simp] theorem tfind_tput_same (t : Tab α) (k : Nat) (v : α) : tfind (tput t k v) k = some v := by
  fun_induction tput t k v <;> simp_all [tfind]

theorem tfind_tput_ne (t : Tab α) {k i : Nat} (v : α) (h : i ≠ k) : tfind (tput t k v) i = tfind t i := by
  fun_induction tput t k v <;> simp_all [tfind]

/-- What is found among the pairs that a filter by key keeps. -/
theorem tfind_filter (t : Tab α) (p : Nat → Bool) (k : Nat) : tfind (t.filter (fun e => p e.1)) k = if p k then tfind t k else none := by
  induction t with
  | nil => simp [tfind]
  | cons e r ih => by_cases hk : k = e.1 <;> cases hp : p e.1 <;> simp_all [tfind]

@[simp] theorem tfind_tdel_same (t : Tab α) (k : Nat) : tfind (tdel t k) k = none := by
  rw [tdel, tfind_filter t (fun j => decide (j ≠ k))]; simp

theorem tfind_tdel_ne (t : Tab α) {k i : Nat} (h : i ≠ k) : tfind (tdel t k) i = tfind t i := by
  rw [tdel, tfind_filter t (fun j => decide (j ≠ k))]; simp [h]

/-- A write is read back. -/
@[simp] theorem tget_tset_same [DecidableEq α] (t : Tab α) (k : Nat) (v d : α) : tget (tset t k v d) k d = v := by
  unfold tget tset
  split
  · rename_i h; simp [h]
  · simp

/-- A write leaves every other key alone. -/
theorem tget_tset_ne [DecidableEq α] (t : Tab α) {k i : Nat} (v d e : α) (h : i ≠ k) : tget (tset t k v d) i e = tget t i e := by
  unfold tget tset
  split
  · rw [tfind_tdel_ne t h]
  · rw [tfind_tput_ne t v h]

@[simp] theorem tget_tput_same (t : Tab α) (k : Nat) (v d : α) : tget (tput t k v) k d = v := by simp [tget]

theorem tget_tput_ne (t : Tab α) {k i : Nat} (v d : α) (h : i ≠ k) : tget (tput t k v) i d = tget t i d := by simp [tget, tfind_tput_ne t v h]

@[simp] theorem tget_nil (k : Nat) (d : α) : tget ([] : Tab α) k d = d := rfl

/-! ## The canonical form -/

/-- `risesFrom` by the order of the keys: each lies above the bound and above those before it. -/
theorem risesFrom_iff (b : Option Nat) (t : Tab α) :
    risesFrom b t = true ↔ (∀ x ∈ b, ∀ p ∈ t, x < p.1) ∧ t.Pairwise (fun p q => p.1 < q.1) := by
  fun_induction risesFrom b t with
  | case1 => simp
  | case2 b j v r ih =>
    cases b with
    | none => simp [ih]
    | some i =>
      simp only [ih, Bool.and_eq_true, decide_eq_true_eq, List.pairwise_cons, List.forall_mem_cons, Option.mem_some, forall_eq']
      exact ⟨fun h => ⟨⟨h.1, fun p hp => Nat.lt_trans h.1 (h.2.1 p hp)⟩, h.2⟩, fun h => ⟨h.1.1, h.2⟩⟩

theorem mem_tput {t : Tab α} {k : Nat} {v : α} {p : Nat × α} (h : p ∈ tput t k v) : p = (k, v) ∨ p ∈ t := by
  fun_induction tput t k v <;> grind

theorem risesFrom_tput {t : Tab α} {b : Option Nat} (k : Nat) (v : α) (h : risesFrom b t = true) (hb : ∀ x, b = some x → x < k) :
    risesFrom b (tput t k v) = true := by
  rw [risesFrom_iff] at h ⊢
  refine ⟨fun x hx p hp => (mem_tput hp).elim (fun e => e ▸ hb x hx) (h.1 x hx p), ?_⟩
  have hs := h.2
  clear h hb
  fun_induction tput t k v with
  | case1 => simp
  | case2 => simpa using hs
  | case3 j w r _ hlt =>
    refine .cons (fun p hp => ?_) hs
    rcases List.mem_cons.1 hp with rfl | hp
    · exact hlt
    · exact Nat.lt_trans hlt (List.rel_of_pairwise_cons hs hp)
  | case4 j w r hne hlt ih =>
    refine .cons (fun p hp => ?_) (ih hs.of_cons)
    exact (mem_tput hp).elim (fun e => by subst e; simp only; omega) (fun hp => List.rel_of_pairwise_cons hs hp)

theorem risesFrom_filter {t : Tab α} {b : Option Nat} (p : Nat × α → Bool) (h : risesFrom b t = true) : risesFrom b (t.filter p) = true := by
  rw [risesFrom_iff] at h ⊢
  exact ⟨fun x hx q hq => h.1 x hx q (List.mem_filter.1 hq).1, h.2.filter _⟩

/-- A write keeps the canonical form: strictly rising keys and no pair that holds what its key reads as unlisted. -/
theorem twf_tset [DecidableEq α] (d : Nat → α) (t : Tab α) (k : Nat) (v : α) (h : twf d t = true) : twf d (tset t k v (d k)) = true := by
  unfold twf at *
  simp only [Bool.and_eq_true, List.all_eq_true, decide_eq_true_eq] at h ⊢
  unfold tset
  split
  · exact ⟨risesFrom_filter _ h.1, fun p hp => h.2 p ((List.mem_filter.1 hp).1)⟩
  · rename_i hv
    refine ⟨risesFrom_tput k v h.1 (fun x hx => by cases hx), fun p hp => ?_⟩
    rcases mem_tput hp with rfl | hp
    · exact hv
    · exact h.2 p hp

/-- Taking a pair out keeps the canonical form. -/
theorem twf_tdel [DecidableEq α] (d : Nat → α) (t : Tab α) (k : Nat) (h : twf d t = true) : twf d (tdel t k) = true := by
  unfold twf at *
  simp only [Bool.and_eq_true, List.all_eq_true, decide_eq_true_eq] at h ⊢
  exact ⟨risesFrom_filter _ h.1, fun p hp => h.2 p ((List.mem_filter.1 hp).1)⟩

end Sys2Proof.Machine
end

