-- ==== Sys2Proof/Laws/Regs.lean ====
section
/-! SUPPORT. The laws of the register storage: what a write and a field write leave in their own register, in its other fields, and in other
registers. -/
namespace Sys2Proof.Machine

@[simp] theorem rd_wr_same (s : State) (o : Nat) (v : W32) : rd (wr s o v) o = v := by simp [rd, wr]

theorem rd_wr_ne (s : State) {o p : Nat} (v : W32) (h : p ≠ o) : rd (wr s o v) p = rd s p := by simp [rd, wr, tget_tset_ne _ _ _ _ h]

@[simp] theorem rd64_wr64_same (s : State) (o : Nat) (v : W64) : rd64 (wr64 s o v) o = v := by simp [rd64, wr64]

theorem rd64_wr64_ne (s : State) {o p : Nat} (v : W64) (h : p ≠ o) : rd64 (wr64 s o v) p = rd64 s p := by
  simp [rd64, wr64, tget_tset_ne _ _ _ _ h]

@[simp] theorem rd64_wr (s : State) (o p : Nat) (v : W32) : rd64 (wr s o v) p = rd64 s p := rfl

@[simp] theorem rd_wr64 (s : State) (o p : Nat) (v : W64) : rd (wr64 s o v) p = rd s p := rfl

theorem rf_wr_same (s : State) (o l n : Nat) (v : W32) : rf (wr s o v) o l n = v.toNat / 2 ^ l % 2 ^ n := by simp [rf]

theorem rf_wr_ne (s : State) {o p : Nat} (l n : Nat) (v : W32) (h : p ≠ o) : rf (wr s o v) p l n = rf s p l n := by simp [rf, rd_wr_ne _ _ h]

@[simp] theorem rf_wr64 (s : State) (o p l n : Nat) (v : W64) : rf (wr64 s o v) p l n = rf s p l n := rfl

theorem rf_wf_ne (s : State) {o p : Nat} (l n k m v : Nat) (h : p ≠ o) : rf (wf s o k m v) p l n = rf s p l n := rf_wr_ne s l n _ h

@[simp] theorem rd64_wf (s : State) (o p l n v : Nat) : rd64 (wf s o l n v) p = rd64 s p := rfl

/-! ## Fields -/

/-- A number with a field replaced, as the sum of its three parts. -/
theorem putBits_eq (w l n v : Nat) : putBits w l n v = w / 2 ^ (l + n) * 2 ^ (l + n) + v % 2 ^ n * 2 ^ l + w % 2 ^ l := by
  have h1 : w / 2 ^ l % 2 ^ n + 2 ^ n * (w / 2 ^ l / 2 ^ n) = w / 2 ^ l := Nat.mod_add_div _ _
  have h2 : w % 2 ^ l + 2 ^ l * (w / 2 ^ l) = w := Nat.mod_add_div _ _
  have h3 : w / 2 ^ l / 2 ^ n = w / 2 ^ (l + n) := by rw [Nat.div_div_eq_div_mul, pow_add]
  rw [h3] at h1
  have h4 : w = w / 2 ^ (l + n) * 2 ^ (l + n) + w / 2 ^ l % 2 ^ n * 2 ^ l + w % 2 ^ l := by
    conv_lhs => rw [← h2, ← h1]
    rw [pow_add]; ring
  unfold putBits
  omega

theorem putBits_lt (w l n v : Nat) (hw : w < 2 ^ 32) (h : l + n ≤ 32) : putBits w l n v < 2 ^ 32 := by
  rw [putBits_eq]
  have hp : (2 : Nat) ^ 32 = 2 ^ (32 - (l + n)) * 2 ^ (l + n) := by rw [← pow_add]; congr 1; omega
  have h1 : w / 2 ^ (l + n) < 2 ^ (32 - (l + n)) := by
    rw [Nat.div_lt_iff_lt_mul (by positivity), ← hp]; exact hw
  have h2 : v % 2 ^ n < 2 ^ n := Nat.mod_lt _ (by positivity)
  have h3 : w % 2 ^ l < 2 ^ l := Nat.mod_lt _ (by positivity)
  have h4 : v % 2 ^ n * 2 ^ l + w % 2 ^ l < 2 ^ (l + n) := by
    calc v % 2 ^ n * 2 ^ l + w % 2 ^ l < v % 2 ^ n * 2 ^ l + 2 ^ l := by omega
      _ = (v % 2 ^ n + 1) * 2 ^ l := by ring
      _ ≤ 2 ^ n * 2 ^ l := Nat.mul_le_mul_right _ h2
      _ = 2 ^ (l + n) := by rw [pow_add]; ring
  calc w / 2 ^ (l + n) * 2 ^ (l + n) + v % 2 ^ n * 2 ^ l + w % 2 ^ l < w / 2 ^ (l + n) * 2 ^ (l + n) + 2 ^ (l + n) := by omega
    _ = (w / 2 ^ (l + n) + 1) * 2 ^ (l + n) := by ring
    _ ≤ 2 ^ (32 - (l + n)) * 2 ^ (l + n) := Nat.mul_le_mul_right _ h1
    _ = 2 ^ 32 := hp.symm

theorem putBits_same (w l n v : Nat) : putBits w l n v / 2 ^ l % 2 ^ n = v % 2 ^ n := by
  rw [putBits_eq]
  have h3 : w % 2 ^ l < 2 ^ l := Nat.mod_lt _ (by positivity)
  have : w / 2 ^ (l + n) * 2 ^ (l + n) + v % 2 ^ n * 2 ^ l + w % 2 ^ l = w % 2 ^ l + 2 ^ l * (v % 2 ^ n + 2 ^ n * (w / 2 ^ (l + n))) := by
    rw [pow_add]; ring
  rw [this, Nat.add_mul_div_left _ _ (by positivity), Nat.div_eq_of_lt h3, Nat.zero_add, Nat.add_mul_mod_self_left, Nat.mod_mod]

/-- A field below or above the one replaced keeps its value. -/
theorem putBits_other (w l n v i k : Nat) (h : i + k ≤ l ∨ l + n ≤ i) : putBits w l n v / 2 ^ i % 2 ^ k = w / 2 ^ i % 2 ^ k := by
  have hw : w = putBits w l n (w / 2 ^ l) := by
    rw [putBits_eq, show w / 2 ^ (l + n) = w / 2 ^ l / 2 ^ n by rw [Nat.div_div_eq_div_mul, pow_add]]
    have h1 := Nat.mod_add_div (w / 2 ^ l) (2 ^ n)
    have h2 := Nat.mod_add_div w (2 ^ l)
    conv_lhs => rw [← h2, ← h1]
    rw [pow_add]; ring
  have key : ∀ x, putBits w l n x / 2 ^ i % 2 ^ k =
      (if l + n ≤ i then w / 2 ^ i % 2 ^ k else w % 2 ^ l / 2 ^ i % 2 ^ k) := by
    intro x
    rw [putBits_eq]
    have h2 : x % 2 ^ n < 2 ^ n := Nat.mod_lt _ (by positivity)
    have h3 : w % 2 ^ l < 2 ^ l := Nat.mod_lt _ (by positivity)
    split
    · rename_i hi
      have h4 : x % 2 ^ n * 2 ^ l + w % 2 ^ l < 2 ^ (l + n) := by
        calc x % 2 ^ n * 2 ^ l + w % 2 ^ l < x % 2 ^ n * 2 ^ l + 2 ^ l := by omega
          _ = (x % 2 ^ n + 1) * 2 ^ l := by ring
          _ ≤ 2 ^ n * 2 ^ l := Nat.mul_le_mul_right _ h2
          _ = 2 ^ (l + n) := by rw [pow_add]; ring
      have e : (2 : Nat) ^ i = 2 ^ (l + n) * 2 ^ (i - (l + n)) := by rw [← pow_add]; congr 1; omega
      rw [e, ← Nat.div_div_eq_div_mul, ← Nat.div_div_eq_div_mul]
      rw [show w / 2 ^ (l + n) * 2 ^ (l + n) + x % 2 ^ n * 2 ^ l + w % 2 ^ l = (x % 2 ^ n * 2 ^ l + w % 2 ^ l) + 2 ^ (l + n) * (w / 2 ^ (l + n)) by ring]
      rw [Nat.add_mul_div_left _ _ (by positivity), Nat.div_eq_of_lt h4, Nat.zero_add]
    · rename_i hi
      have hl : i + k ≤ l := by omega
      have e : (2 : Nat) ^ l = 2 ^ i * 2 ^ (l - i) := by rw [← pow_add]; congr 1; omega
      have e' : (2 : Nat) ^ (l - i) = 2 ^ k * 2 ^ (l - i - k) := by rw [← pow_add]; congr 1; omega
      rw [show w / 2 ^ (l + n) * 2 ^ (l + n) + x % 2 ^ n * 2 ^ l + w % 2 ^ l =
        w % 2 ^ l + 2 ^ i * (2 ^ k * (2 ^ (l - i - k) * (w / 2 ^ (l + n) * 2 ^ n + x % 2 ^ n))) by
          rw [pow_add]; conv_lhs => rw [e, e']
          conv_rhs => rw [e, e']
          ring]
      rw [Nat.add_mul_div_left _ _ (by positivity), Nat.add_mul_mod_self_left]
  rw [key]
  conv_rhs => rw [hw, key]

@[simp] theorem rd_wf_toNat (s : State) (o l n v : Nat) (h : l + n ≤ 32) : (rd (wf s o l n v) o).toNat = putBits (rd s o).toNat l n v := by
  have := putBits_lt (rd s o).toNat l n v (rd s o).isLt h
  simp [wf]
  exact this

/-- A field write is read back. -/
theorem rf_wf_same (s : State) (o l n v : Nat) (h : l + n ≤ 32) : rf (wf s o l n v) o l n = v % 2 ^ n := by
  unfold rf; rw [rd_wf_toNat _ _ _ _ _ h]; exact putBits_same _ _ _ _

/-- The register's other fields keep their values. -/
theorem rf_wf_other (s : State) (o l n v i k : Nat) (h : l + n ≤ 32) (hd : i + k ≤ l ∨ l + n ≤ i) : rf (wf s o l n v) o i k = rf s o i k := by
  unfold rf; rw [rd_wf_toNat _ _ _ _ _ h]; exact putBits_other _ _ _ _ _ _ hd

end Sys2Proof.Machine
end

