-- ==== Sys2Proof/Laws/State.lean ====
section
/-! SUPPORT. What each plain update leaves: one equation per field of the state that it does not touch. -/
namespace Sys2Proof.Machine

@[simp] theorem wr_grade (s : State) (off : Nat) (v : W32) : (wr s off v).grade = s.grade := rfl
@[simp] theorem wr_fresh (s : State) (off : Nat) (v : W32) : (wr s off v).fresh = s.fresh := rfl
@[simp] theorem wr_time (s : State) (off : Nat) (v : W32) : (wr s off v).time = s.time := rfl
@[simp] theorem wr_mem (s : State) (off : Nat) (v : W32) : (wr s off v).mem = s.mem := rfl
@[simp] theorem wr_cores (s : State) (off : Nat) (v : W32) : (wr s off v).cores = s.cores := rfl
@[simp] theorem wr_sems (s : State) (off : Nat) (v : W32) : (wr s off v).sems = s.sems := rfl
@[simp] theorem wr_hoists (s : State) (off : Nat) (v : W32) : (wr s off v).hoists = s.hoists := rfl
@[simp] theorem wr_nb (s : State) (off : Nat) (v : W32) : (wr s off v).nb = s.nb := rfl
@[simp] theorem wr_host (s : State) (off : Nat) (v : W32) : (wr s off v).host = s.host := rfl
@[simp] theorem wr_parts (s : State) (off : Nat) (v : W32) : (wr s off v).parts = s.parts := rfl
@[simp] theorem wr_se (s : State) (off : Nat) (v : W32) : (wr s off v).se = s.se := rfl
@[simp] theorem wr_fab (s : State) (off : Nat) (v : W32) : (wr s off v).fab = s.fab := rfl
@[simp] theorem wr_faults (s : State) (off : Nat) (v : W32) : (wr s off v).faults = s.faults := rfl
@[simp] theorem wr_twin (s : State) (off : Nat) (v : W32) : (wr s off v).twin = s.twin := rfl
@[simp] theorem wr_pwr (s : State) (off : Nat) (v : W32) : (wr s off v).pwr = s.pwr := rfl
@[simp] theorem wr_sec (s : State) (off : Nat) (v : W32) : (wr s off v).sec = s.sec := rfl
@[simp] theorem wr_flash (s : State) (off : Nat) (v : W32) : (wr s off v).flash = s.flash := rfl
@[simp] theorem wr_pins (s : State) (off : Nat) (v : W32) : (wr s off v).pins = s.pins := rfl
@[simp] theorem wr_trace (s : State) (off : Nat) (v : W32) : (wr s off v).trace = s.trace := rfl
@[simp] theorem wr_pending (s : State) (off : Nat) (v : W32) : (wr s off v).pending = s.pending := rfl

@[simp] theorem wr64_grade (s : State) (off : Nat) (v : W64) : (wr64 s off v).grade = s.grade := rfl
@[simp] theorem wr64_fresh (s : State) (off : Nat) (v : W64) : (wr64 s off v).fresh = s.fresh := rfl
@[simp] theorem wr64_time (s : State) (off : Nat) (v : W64) : (wr64 s off v).time = s.time := rfl
@[simp] theorem wr64_mem (s : State) (off : Nat) (v : W64) : (wr64 s off v).mem = s.mem := rfl
@[simp] theorem wr64_cores (s : State) (off : Nat) (v : W64) : (wr64 s off v).cores = s.cores := rfl
@[simp] theorem wr64_sems (s : State) (off : Nat) (v : W64) : (wr64 s off v).sems = s.sems := rfl
@[simp] theorem wr64_hoists (s : State) (off : Nat) (v : W64) : (wr64 s off v).hoists = s.hoists := rfl
@[simp] theorem wr64_nb (s : State) (off : Nat) (v : W64) : (wr64 s off v).nb = s.nb := rfl
@[simp] theorem wr64_host (s : State) (off : Nat) (v : W64) : (wr64 s off v).host = s.host := rfl
@[simp] theorem wr64_parts (s : State) (off : Nat) (v : W64) : (wr64 s off v).parts = s.parts := rfl
@[simp] theorem wr64_se (s : State) (off : Nat) (v : W64) : (wr64 s off v).se = s.se := rfl
@[simp] theorem wr64_fab (s : State) (off : Nat) (v : W64) : (wr64 s off v).fab = s.fab := rfl
@[simp] theorem wr64_faults (s : State) (off : Nat) (v : W64) : (wr64 s off v).faults = s.faults := rfl
@[simp] theorem wr64_twin (s : State) (off : Nat) (v : W64) : (wr64 s off v).twin = s.twin := rfl
@[simp] theorem wr64_pwr (s : State) (off : Nat) (v : W64) : (wr64 s off v).pwr = s.pwr := rfl
@[simp] theorem wr64_sec (s : State) (off : Nat) (v : W64) : (wr64 s off v).sec = s.sec := rfl
@[simp] theorem wr64_flash (s : State) (off : Nat) (v : W64) : (wr64 s off v).flash = s.flash := rfl
@[simp] theorem wr64_pins (s : State) (off : Nat) (v : W64) : (wr64 s off v).pins = s.pins := rfl
@[simp] theorem wr64_trace (s : State) (off : Nat) (v : W64) : (wr64 s off v).trace = s.trace := rfl
@[simp] theorem wr64_pending (s : State) (off : Nat) (v : W64) : (wr64 s off v).pending = s.pending := rfl

@[simp] theorem wf_grade (s : State) (off lo len v : Nat) : (wf s off lo len v).grade = s.grade := rfl
@[simp] theorem wf_fresh (s : State) (off lo len v : Nat) : (wf s off lo len v).fresh = s.fresh := rfl
@[simp] theorem wf_time (s : State) (off lo len v : Nat) : (wf s off lo len v).time = s.time := rfl
@[simp] theorem wf_mem (s : State) (off lo len v : Nat) : (wf s off lo len v).mem = s.mem := rfl
@[simp] theorem wf_cores (s : State) (off lo len v : Nat) : (wf s off lo len v).cores = s.cores := rfl
@[simp] theorem wf_sems (s : State) (off lo len v : Nat) : (wf s off lo len v).sems = s.sems := rfl
@[simp] theorem wf_hoists (s : State) (off lo len v : Nat) : (wf s off lo len v).hoists = s.hoists := rfl
@[simp] theorem wf_nb (s : State) (off lo len v : Nat) : (wf s off lo len v).nb = s.nb := rfl
@[simp] theorem wf_host (s : State) (off lo len v : Nat) : (wf s off lo len v).host = s.host := rfl
@[simp] theorem wf_parts (s : State) (off lo len v : Nat) : (wf s off lo len v).parts = s.parts := rfl
@[simp] theorem wf_se (s : State) (off lo len v : Nat) : (wf s off lo len v).se = s.se := rfl
@[simp] theorem wf_fab (s : State) (off lo len v : Nat) : (wf s off lo len v).fab = s.fab := rfl
@[simp] theorem wf_faults (s : State) (off lo len v : Nat) : (wf s off lo len v).faults = s.faults := rfl
@[simp] theorem wf_twin (s : State) (off lo len v : Nat) : (wf s off lo len v).twin = s.twin := rfl
@[simp] theorem wf_pwr (s : State) (off lo len v : Nat) : (wf s off lo len v).pwr = s.pwr := rfl
@[simp] theorem wf_sec (s : State) (off lo len v : Nat) : (wf s off lo len v).sec = s.sec := rfl
@[simp] theorem wf_flash (s : State) (off lo len v : Nat) : (wf s off lo len v).flash = s.flash := rfl
@[simp] theorem wf_pins (s : State) (off lo len v : Nat) : (wf s off lo len v).pins = s.pins := rfl
@[simp] theorem wf_trace (s : State) (off lo len v : Nat) : (wf s off lo len v).trace = s.trace := rfl
@[simp] theorem wf_pending (s : State) (off lo len v : Nat) : (wf s off lo len v).pending = s.pending := rfl

@[simp] theorem setDevState_grade (s : State) (v : Nat) : (setDevState s v).grade = s.grade := rfl
@[simp] theorem setDevState_fresh (s : State) (v : Nat) : (setDevState s v).fresh = s.fresh := rfl
@[simp] theorem setDevState_time (s : State) (v : Nat) : (setDevState s v).time = s.time := rfl
@[simp] theorem setDevState_mem (s : State) (v : Nat) : (setDevState s v).mem = s.mem := rfl
@[simp] theorem setDevState_cores (s : State) (v : Nat) : (setDevState s v).cores = s.cores := rfl
@[simp] theorem setDevState_sems (s : State) (v : Nat) : (setDevState s v).sems = s.sems := rfl
@[simp] theorem setDevState_hoists (s : State) (v : Nat) : (setDevState s v).hoists = s.hoists := rfl
@[simp] theorem setDevState_nb (s : State) (v : Nat) : (setDevState s v).nb = s.nb := rfl
@[simp] theorem setDevState_host (s : State) (v : Nat) : (setDevState s v).host = s.host := rfl
@[simp] theorem setDevState_parts (s : State) (v : Nat) : (setDevState s v).parts = s.parts := rfl
@[simp] theorem setDevState_se (s : State) (v : Nat) : (setDevState s v).se = s.se := rfl
@[simp] theorem setDevState_fab (s : State) (v : Nat) : (setDevState s v).fab = s.fab := rfl
@[simp] theorem setDevState_faults (s : State) (v : Nat) : (setDevState s v).faults = s.faults := rfl
@[simp] theorem setDevState_twin (s : State) (v : Nat) : (setDevState s v).twin = s.twin := rfl
@[simp] theorem setDevState_pwr (s : State) (v : Nat) : (setDevState s v).pwr = s.pwr := rfl
@[simp] theorem setDevState_sec (s : State) (v : Nat) : (setDevState s v).sec = s.sec := rfl
@[simp] theorem setDevState_flash (s : State) (v : Nat) : (setDevState s v).flash = s.flash := rfl
@[simp] theorem setDevState_pins (s : State) (v : Nat) : (setDevState s v).pins = s.pins := rfl
@[simp] theorem setDevState_trace (s : State) (v : Nat) : (setDevState s v).trace = s.trace := rfl
@[simp] theorem setDevState_pending (s : State) (v : Nat) : (setDevState s v).pending = s.pending := rfl

@[simp] theorem setSem_grade (s : State) (n : Nat) (x : Sem) : (setSem s n x).grade = s.grade := rfl
@[simp] theorem setSem_fresh (s : State) (n : Nat) (x : Sem) : (setSem s n x).fresh = s.fresh := rfl
@[simp] theorem setSem_time (s : State) (n : Nat) (x : Sem) : (setSem s n x).time = s.time := rfl
@[simp] theorem setSem_bar (s : State) (n : Nat) (x : Sem) : (setSem s n x).bar = s.bar := rfl
@[simp] theorem setSem_mem (s : State) (n : Nat) (x : Sem) : (setSem s n x).mem = s.mem := rfl
@[simp] theorem setSem_cores (s : State) (n : Nat) (x : Sem) : (setSem s n x).cores = s.cores := rfl
@[simp] theorem setSem_hoists (s : State) (n : Nat) (x : Sem) : (setSem s n x).hoists = s.hoists := rfl
@[simp] theorem setSem_nb (s : State) (n : Nat) (x : Sem) : (setSem s n x).nb = s.nb := rfl
@[simp] theorem setSem_host (s : State) (n : Nat) (x : Sem) : (setSem s n x).host = s.host := rfl
@[simp] theorem setSem_parts (s : State) (n : Nat) (x : Sem) : (setSem s n x).parts = s.parts := rfl
@[simp] theorem setSem_se (s : State) (n : Nat) (x : Sem) : (setSem s n x).se = s.se := rfl
@[simp] theorem setSem_fab (s : State) (n : Nat) (x : Sem) : (setSem s n x).fab = s.fab := rfl
@[simp] theorem setSem_faults (s : State) (n : Nat) (x : Sem) : (setSem s n x).faults = s.faults := rfl
@[simp] theorem setSem_twin (s : State) (n : Nat) (x : Sem) : (setSem s n x).twin = s.twin := rfl
@[simp] theorem setSem_pwr (s : State) (n : Nat) (x : Sem) : (setSem s n x).pwr = s.pwr := rfl
@[simp] theorem setSem_sec (s : State) (n : Nat) (x : Sem) : (setSem s n x).sec = s.sec := rfl
@[simp] theorem setSem_flash (s : State) (n : Nat) (x : Sem) : (setSem s n x).flash = s.flash := rfl
@[simp] theorem setSem_pins (s : State) (n : Nat) (x : Sem) : (setSem s n x).pins = s.pins := rfl
@[simp] theorem setSem_trace (s : State) (n : Nat) (x : Sem) : (setSem s n x).trace = s.trace := rfl
@[simp] theorem setSem_pending (s : State) (n : Nat) (x : Sem) : (setSem s n x).pending = s.pending := rfl

@[simp] theorem setThread_grade (s : State) (t : Tid) (x : Thread) : (setThread s t x).grade = s.grade := rfl
@[simp] theorem setThread_fresh (s : State) (t : Tid) (x : Thread) : (setThread s t x).fresh = s.fresh := rfl
@[simp] theorem setThread_time (s : State) (t : Tid) (x : Thread) : (setThread s t x).time = s.time := rfl
@[simp] theorem setThread_bar (s : State) (t : Tid) (x : Thread) : (setThread s t x).bar = s.bar := rfl
@[simp] theorem setThread_mem (s : State) (t : Tid) (x : Thread) : (setThread s t x).mem = s.mem := rfl
@[simp] theorem setThread_sems (s : State) (t : Tid) (x : Thread) : (setThread s t x).sems = s.sems := rfl
@[simp] theorem setThread_hoists (s : State) (t : Tid) (x : Thread) : (setThread s t x).hoists = s.hoists := rfl
@[simp] theorem setThread_nb (s : State) (t : Tid) (x : Thread) : (setThread s t x).nb = s.nb := rfl
@[simp] theorem setThread_host (s : State) (t : Tid) (x : Thread) : (setThread s t x).host = s.host := rfl
@[simp] theorem setThread_parts (s : State) (t : Tid) (x : Thread) : (setThread s t x).parts = s.parts := rfl
@[simp] theorem setThread_se (s : State) (t : Tid) (x : Thread) : (setThread s t x).se = s.se := rfl
@[simp] theorem setThread_fab (s : State) (t : Tid) (x : Thread) : (setThread s t x).fab = s.fab := rfl
@[simp] theorem setThread_faults (s : State) (t : Tid) (x : Thread) : (setThread s t x).faults = s.faults := rfl
@[simp] theorem setThread_twin (s : State) (t : Tid) (x : Thread) : (setThread s t x).twin = s.twin := rfl
@[simp] theorem setThread_pwr (s : State) (t : Tid) (x : Thread) : (setThread s t x).pwr = s.pwr := rfl
@[simp] theorem setThread_sec (s : State) (t : Tid) (x : Thread) : (setThread s t x).sec = s.sec := rfl
@[simp] theorem setThread_flash (s : State) (t : Tid) (x : Thread) : (setThread s t x).flash = s.flash := rfl
@[simp] theorem setThread_pins (s : State) (t : Tid) (x : Thread) : (setThread s t x).pins = s.pins := rfl
@[simp] theorem setThread_trace (s : State) (t : Tid) (x : Thread) : (setThread s t x).trace = s.trace := rfl
@[simp] theorem setThread_pending (s : State) (t : Tid) (x : Thread) : (setThread s t x).pending = s.pending := rfl

@[simp] theorem setSecErr_grade (s : State) (sec : Nat) (e : SecErr) : (setSecErr s sec e).grade = s.grade := rfl
@[simp] theorem setSecErr_fresh (s : State) (sec : Nat) (e : SecErr) : (setSecErr s sec e).fresh = s.fresh := rfl
@[simp] theorem setSecErr_time (s : State) (sec : Nat) (e : SecErr) : (setSecErr s sec e).time = s.time := rfl
@[simp] theorem setSecErr_bar (s : State) (sec : Nat) (e : SecErr) : (setSecErr s sec e).bar = s.bar := rfl
@[simp] theorem setSecErr_cores (s : State) (sec : Nat) (e : SecErr) : (setSecErr s sec e).cores = s.cores := rfl
@[simp] theorem setSecErr_sems (s : State) (sec : Nat) (e : SecErr) : (setSecErr s sec e).sems = s.sems := rfl
@[simp] theorem setSecErr_hoists (s : State) (sec : Nat) (e : SecErr) : (setSecErr s sec e).hoists = s.hoists := rfl
@[simp] theorem setSecErr_nb (s : State) (sec : Nat) (e : SecErr) : (setSecErr s sec e).nb = s.nb := rfl
@[simp] theorem setSecErr_host (s : State) (sec : Nat) (e : SecErr) : (setSecErr s sec e).host = s.host := rfl
@[simp] theorem setSecErr_parts (s : State) (sec : Nat) (e : SecErr) : (setSecErr s sec e).parts = s.parts := rfl
@[simp] theorem setSecErr_se (s : State) (sec : Nat) (e : SecErr) : (setSecErr s sec e).se = s.se := rfl
@[simp] theorem setSecErr_fab (s : State) (sec : Nat) (e : SecErr) : (setSecErr s sec e).fab = s.fab := rfl
@[simp] theorem setSecErr_faults (s : State) (sec : Nat) (e : SecErr) : (setSecErr s sec e).faults = s.faults := rfl
@[simp] theorem setSecErr_twin (s : State) (sec : Nat) (e : SecErr) : (setSecErr s sec e).twin = s.twin := rfl
@[simp] theorem setSecErr_pwr (s : State) (sec : Nat) (e : SecErr) : (setSecErr s sec e).pwr = s.pwr := rfl
@[simp] theorem setSecErr_sec (s : State) (sec : Nat) (e : SecErr) : (setSecErr s sec e).sec = s.sec := rfl
@[simp] theorem setSecErr_flash (s : State) (sec : Nat) (e : SecErr) : (setSecErr s sec e).flash = s.flash := rfl
@[simp] theorem setSecErr_pins (s : State) (sec : Nat) (e : SecErr) : (setSecErr s sec e).pins = s.pins := rfl
@[simp] theorem setSecErr_trace (s : State) (sec : Nat) (e : SecErr) : (setSecErr s sec e).trace = s.trace := rfl
@[simp] theorem setSecErr_pending (s : State) (sec : Nat) (e : SecErr) : (setSecErr s sec e).pending = s.pending := rfl

@[simp] theorem setDramByte_grade (s : State) (key : Nat) (b : Byte) : (setDramByte s key b).grade = s.grade := rfl
@[simp] theorem setDramByte_fresh (s : State) (key : Nat) (b : Byte) : (setDramByte s key b).fresh = s.fresh := rfl
@[simp] theorem setDramByte_time (s : State) (key : Nat) (b : Byte) : (setDramByte s key b).time = s.time := rfl
@[simp] theorem setDramByte_bar (s : State) (key : Nat) (b : Byte) : (setDramByte s key b).bar = s.bar := rfl
@[simp] theorem setDramByte_cores (s : State) (key : Nat) (b : Byte) : (setDramByte s key b).cores = s.cores := rfl
@[simp] theorem setDramByte_sems (s : State) (key : Nat) (b : Byte) : (setDramByte s key b).sems = s.sems := rfl
@[simp] theorem setDramByte_hoists (s : State) (key : Nat) (b : Byte) : (setDramByte s key b).hoists = s.hoists := rfl
@[simp] theorem setDramByte_nb (s : State) (key : Nat) (b : Byte) : (setDramByte s key b).nb = s.nb := rfl
@[simp] theorem setDramByte_host (s : State) (key : Nat) (b : Byte) : (setDramByte s key b).host = s.host := rfl
@[simp] theorem setDramByte_parts (s : State) (key : Nat) (b : Byte) : (setDramByte s key b).parts = s.parts := rfl
@[simp] theorem setDramByte_se (s : State) (key : Nat) (b : Byte) : (setDramByte s key b).se = s.se := rfl
@[simp] theorem setDramByte_fab (s : State) (key : Nat) (b : Byte) : (setDramByte s key b).fab = s.fab := rfl
@[simp] theorem setDramByte_faults (s : State) (key : Nat) (b : Byte) : (setDramByte s key b).faults = s.faults := rfl
@[simp] theorem setDramByte_twin (s : State) (key : Nat) (b : Byte) : (setDramByte s key b).twin = s.twin := rfl
@[simp] theorem setDramByte_pwr (s : State) (key : Nat) (b : Byte) : (setDramByte s key b).pwr = s.pwr := rfl
@[simp] theorem setDramByte_sec (s : State) (key : Nat) (b : Byte) : (setDramByte s key b).sec = s.sec := rfl
@[simp] theorem setDramByte_flash (s : State) (key : Nat) (b : Byte) : (setDramByte s key b).flash = s.flash := rfl
@[simp] theorem setDramByte_pins (s : State) (key : Nat) (b : Byte) : (setDramByte s key b).pins = s.pins := rfl
@[simp] theorem setDramByte_trace (s : State) (key : Nat) (b : Byte) : (setDramByte s key b).trace = s.trace := rfl
@[simp] theorem setDramByte_pending (s : State) (key : Nat) (b : Byte) : (setDramByte s key b).pending = s.pending := rfl

@[simp] theorem setEngine_grade (s : State) (pc : Nat) (e : Engine) : (setEngine s pc e).grade = s.grade := rfl
@[simp] theorem setEngine_fresh (s : State) (pc : Nat) (e : Engine) : (setEngine s pc e).fresh = s.fresh := rfl
@[simp] theorem setEngine_time (s : State) (pc : Nat) (e : Engine) : (setEngine s pc e).time = s.time := rfl
@[simp] theorem setEngine_bar (s : State) (pc : Nat) (e : Engine) : (setEngine s pc e).bar = s.bar := rfl
@[simp] theorem setEngine_cores (s : State) (pc : Nat) (e : Engine) : (setEngine s pc e).cores = s.cores := rfl
@[simp] theorem setEngine_sems (s : State) (pc : Nat) (e : Engine) : (setEngine s pc e).sems = s.sems := rfl
@[simp] theorem setEngine_hoists (s : State) (pc : Nat) (e : Engine) : (setEngine s pc e).hoists = s.hoists := rfl
@[simp] theorem setEngine_nb (s : State) (pc : Nat) (e : Engine) : (setEngine s pc e).nb = s.nb := rfl
@[simp] theorem setEngine_host (s : State) (pc : Nat) (e : Engine) : (setEngine s pc e).host = s.host := rfl
@[simp] theorem setEngine_parts (s : State) (pc : Nat) (e : Engine) : (setEngine s pc e).parts = s.parts := rfl
@[simp] theorem setEngine_se (s : State) (pc : Nat) (e : Engine) : (setEngine s pc e).se = s.se := rfl
@[simp] theorem setEngine_fab (s : State) (pc : Nat) (e : Engine) : (setEngine s pc e).fab = s.fab := rfl
@[simp] theorem setEngine_faults (s : State) (pc : Nat) (e : Engine) : (setEngine s pc e).faults = s.faults := rfl
@[simp] theorem setEngine_twin (s : State) (pc : Nat) (e : Engine) : (setEngine s pc e).twin = s.twin := rfl
@[simp] theorem setEngine_pwr (s : State) (pc : Nat) (e : Engine) : (setEngine s pc e).pwr = s.pwr := rfl
@[simp] theorem setEngine_sec (s : State) (pc : Nat) (e : Engine) : (setEngine s pc e).sec = s.sec := rfl
@[simp] theorem setEngine_flash (s : State) (pc : Nat) (e : Engine) : (setEngine s pc e).flash = s.flash := rfl
@[simp] theorem setEngine_pins (s : State) (pc : Nat) (e : Engine) : (setEngine s pc e).pins = s.pins := rfl
@[simp] theorem setEngine_trace (s : State) (pc : Nat) (e : Engine) : (setEngine s pc e).trace = s.trace := rfl
@[simp] theorem setEngine_pending (s : State) (pc : Nat) (e : Engine) : (setEngine s pc e).pending = s.pending := rfl

@[simp] theorem setLine_grade (s : State) (ln : Nat) (c : CacheLine) : (setLine s ln c).grade = s.grade := rfl
@[simp] theorem setLine_fresh (s : State) (ln : Nat) (c : CacheLine) : (setLine s ln c).fresh = s.fresh := rfl
@[simp] theorem setLine_time (s : State) (ln : Nat) (c : CacheLine) : (setLine s ln c).time = s.time := rfl
@[simp] theorem setLine_bar (s : State) (ln : Nat) (c : CacheLine) : (setLine s ln c).bar = s.bar := rfl
@[simp] theorem setLine_cores (s : State) (ln : Nat) (c : CacheLine) : (setLine s ln c).cores = s.cores := rfl
@[simp] theorem setLine_sems (s : State) (ln : Nat) (c : CacheLine) : (setLine s ln c).sems = s.sems := rfl
@[simp] theorem setLine_hoists (s : State) (ln : Nat) (c : CacheLine) : (setLine s ln c).hoists = s.hoists := rfl
@[simp] theorem setLine_nb (s : State) (ln : Nat) (c : CacheLine) : (setLine s ln c).nb = s.nb := rfl
@[simp] theorem setLine_host (s : State) (ln : Nat) (c : CacheLine) : (setLine s ln c).host = s.host := rfl
@[simp] theorem setLine_parts (s : State) (ln : Nat) (c : CacheLine) : (setLine s ln c).parts = s.parts := rfl
@[simp] theorem setLine_se (s : State) (ln : Nat) (c : CacheLine) : (setLine s ln c).se = s.se := rfl
@[simp] theorem setLine_fab (s : State) (ln : Nat) (c : CacheLine) : (setLine s ln c).fab = s.fab := rfl
@[simp] theorem setLine_faults (s : State) (ln : Nat) (c : CacheLine) : (setLine s ln c).faults = s.faults := rfl
@[simp] theorem setLine_twin (s : State) (ln : Nat) (c : CacheLine) : (setLine s ln c).twin = s.twin := rfl
@[simp] theorem setLine_pwr (s : State) (ln : Nat) (c : CacheLine) : (setLine s ln c).pwr = s.pwr := rfl
@[simp] theorem setLine_sec (s : State) (ln : Nat) (c : CacheLine) : (setLine s ln c).sec = s.sec := rfl
@[simp] theorem setLine_flash (s : State) (ln : Nat) (c : CacheLine) : (setLine s ln c).flash = s.flash := rfl
@[simp] theorem setLine_pins (s : State) (ln : Nat) (c : CacheLine) : (setLine s ln c).pins = s.pins := rfl
@[simp] theorem setLine_trace (s : State) (ln : Nat) (c : CacheLine) : (setLine s ln c).trace = s.trace := rfl
@[simp] theorem setLine_pending (s : State) (ln : Nat) (c : CacheLine) : (setLine s ln c).pending = s.pending := rfl

@[simp] theorem setLru_grade (s : State) (k : Nat) (xs : List Nat) : (setLru s k xs).grade = s.grade := rfl
@[simp] theorem setLru_fresh (s : State) (k : Nat) (xs : List Nat) : (setLru s k xs).fresh = s.fresh := rfl
@[simp] theorem setLru_time (s : State) (k : Nat) (xs : List Nat) : (setLru s k xs).time = s.time := rfl
@[simp] theorem setLru_bar (s : State) (k : Nat) (xs : List Nat) : (setLru s k xs).bar = s.bar := rfl
@[simp] theorem setLru_cores (s : State) (k : Nat) (xs : List Nat) : (setLru s k xs).cores = s.cores := rfl
@[simp] theorem setLru_sems (s : State) (k : Nat) (xs : List Nat) : (setLru s k xs).sems = s.sems := rfl
@[simp] theorem setLru_hoists (s : State) (k : Nat) (xs : List Nat) : (setLru s k xs).hoists = s.hoists := rfl
@[simp] theorem setLru_nb (s : State) (k : Nat) (xs : List Nat) : (setLru s k xs).nb = s.nb := rfl
@[simp] theorem setLru_host (s : State) (k : Nat) (xs : List Nat) : (setLru s k xs).host = s.host := rfl
@[simp] theorem setLru_parts (s : State) (k : Nat) (xs : List Nat) : (setLru s k xs).parts = s.parts := rfl
@[simp] theorem setLru_se (s : State) (k : Nat) (xs : List Nat) : (setLru s k xs).se = s.se := rfl
@[simp] theorem setLru_fab (s : State) (k : Nat) (xs : List Nat) : (setLru s k xs).fab = s.fab := rfl
@[simp] theorem setLru_faults (s : State) (k : Nat) (xs : List Nat) : (setLru s k xs).faults = s.faults := rfl
@[simp] theorem setLru_twin (s : State) (k : Nat) (xs : List Nat) : (setLru s k xs).twin = s.twin := rfl
@[simp] theorem setLru_pwr (s : State) (k : Nat) (xs : List Nat) : (setLru s k xs).pwr = s.pwr := rfl
@[simp] theorem setLru_sec (s : State) (k : Nat) (xs : List Nat) : (setLru s k xs).sec = s.sec := rfl
@[simp] theorem setLru_flash (s : State) (k : Nat) (xs : List Nat) : (setLru s k xs).flash = s.flash := rfl
@[simp] theorem setLru_pins (s : State) (k : Nat) (xs : List Nat) : (setLru s k xs).pins = s.pins := rfl
@[simp] theorem setLru_trace (s : State) (k : Nat) (xs : List Nat) : (setLru s k xs).trace = s.trace := rfl
@[simp] theorem setLru_pending (s : State) (k : Nat) (xs : List Nat) : (setLru s k xs).pending = s.pending := rfl

@[simp] theorem txPush_grade (s : State) (f : TxFrame) : (txPush s f).grade = s.grade := rfl
@[simp] theorem txPush_fresh (s : State) (f : TxFrame) : (txPush s f).fresh = s.fresh := rfl
@[simp] theorem txPush_time (s : State) (f : TxFrame) : (txPush s f).time = s.time := rfl
@[simp] theorem txPush_bar (s : State) (f : TxFrame) : (txPush s f).bar = s.bar := rfl
@[simp] theorem txPush_mem (s : State) (f : TxFrame) : (txPush s f).mem = s.mem := rfl
@[simp] theorem txPush_cores (s : State) (f : TxFrame) : (txPush s f).cores = s.cores := rfl
@[simp] theorem txPush_sems (s : State) (f : TxFrame) : (txPush s f).sems = s.sems := rfl
@[simp] theorem txPush_hoists (s : State) (f : TxFrame) : (txPush s f).hoists = s.hoists := rfl
@[simp] theorem txPush_nb (s : State) (f : TxFrame) : (txPush s f).nb = s.nb := rfl
@[simp] theorem txPush_host (s : State) (f : TxFrame) : (txPush s f).host = s.host := rfl
@[simp] theorem txPush_parts (s : State) (f : TxFrame) : (txPush s f).parts = s.parts := rfl
@[simp] theorem txPush_se (s : State) (f : TxFrame) : (txPush s f).se = s.se := rfl
@[simp] theorem txPush_faults (s : State) (f : TxFrame) : (txPush s f).faults = s.faults := rfl
@[simp] theorem txPush_twin (s : State) (f : TxFrame) : (txPush s f).twin = s.twin := rfl
@[simp] theorem txPush_pwr (s : State) (f : TxFrame) : (txPush s f).pwr = s.pwr := rfl
@[simp] theorem txPush_sec (s : State) (f : TxFrame) : (txPush s f).sec = s.sec := rfl
@[simp] theorem txPush_flash (s : State) (f : TxFrame) : (txPush s f).flash = s.flash := rfl
@[simp] theorem txPush_pins (s : State) (f : TxFrame) : (txPush s f).pins = s.pins := rfl
@[simp] theorem txPush_trace (s : State) (f : TxFrame) : (txPush s f).trace = s.trace := rfl
@[simp] theorem txPush_pending (s : State) (f : TxFrame) : (txPush s f).pending = s.pending := rfl

@[simp] theorem modOp_grade (s : State) (id : Nat) (f : MemOp → MemOp) : (modOp s id f).grade = s.grade := rfl
@[simp] theorem modOp_fresh (s : State) (id : Nat) (f : MemOp → MemOp) : (modOp s id f).fresh = s.fresh := rfl
@[simp] theorem modOp_time (s : State) (id : Nat) (f : MemOp → MemOp) : (modOp s id f).time = s.time := rfl
@[simp] theorem modOp_bar (s : State) (id : Nat) (f : MemOp → MemOp) : (modOp s id f).bar = s.bar := rfl
@[simp] theorem modOp_mem (s : State) (id : Nat) (f : MemOp → MemOp) : (modOp s id f).mem = s.mem := rfl
@[simp] theorem modOp_sems (s : State) (id : Nat) (f : MemOp → MemOp) : (modOp s id f).sems = s.sems := rfl
@[simp] theorem modOp_hoists (s : State) (id : Nat) (f : MemOp → MemOp) : (modOp s id f).hoists = s.hoists := rfl
@[simp] theorem modOp_nb (s : State) (id : Nat) (f : MemOp → MemOp) : (modOp s id f).nb = s.nb := rfl
@[simp] theorem modOp_host (s : State) (id : Nat) (f : MemOp → MemOp) : (modOp s id f).host = s.host := rfl
@[simp] theorem modOp_parts (s : State) (id : Nat) (f : MemOp → MemOp) : (modOp s id f).parts = s.parts := rfl
@[simp] theorem modOp_se (s : State) (id : Nat) (f : MemOp → MemOp) : (modOp s id f).se = s.se := rfl
@[simp] theorem modOp_fab (s : State) (id : Nat) (f : MemOp → MemOp) : (modOp s id f).fab = s.fab := rfl
@[simp] theorem modOp_faults (s : State) (id : Nat) (f : MemOp → MemOp) : (modOp s id f).faults = s.faults := rfl
@[simp] theorem modOp_twin (s : State) (id : Nat) (f : MemOp → MemOp) : (modOp s id f).twin = s.twin := rfl
@[simp] theorem modOp_pwr (s : State) (id : Nat) (f : MemOp → MemOp) : (modOp s id f).pwr = s.pwr := rfl
@[simp] theorem modOp_sec (s : State) (id : Nat) (f : MemOp → MemOp) : (modOp s id f).sec = s.sec := rfl
@[simp] theorem modOp_flash (s : State) (id : Nat) (f : MemOp → MemOp) : (modOp s id f).flash = s.flash := rfl
@[simp] theorem modOp_pins (s : State) (id : Nat) (f : MemOp → MemOp) : (modOp s id f).pins = s.pins := rfl
@[simp] theorem modOp_trace (s : State) (id : Nat) (f : MemOp → MemOp) : (modOp s id f).trace = s.trace := rfl
@[simp] theorem modOp_pending (s : State) (id : Nat) (f : MemOp → MemOp) : (modOp s id f).pending = s.pending := rfl

@[simp] theorem modMove_grade (s : State) (id : Nat) (f : Move → Move) : (modMove s id f).grade = s.grade := rfl
@[simp] theorem modMove_fresh (s : State) (id : Nat) (f : Move → Move) : (modMove s id f).fresh = s.fresh := rfl
@[simp] theorem modMove_time (s : State) (id : Nat) (f : Move → Move) : (modMove s id f).time = s.time := rfl
@[simp] theorem modMove_bar (s : State) (id : Nat) (f : Move → Move) : (modMove s id f).bar = s.bar := rfl
@[simp] theorem modMove_mem (s : State) (id : Nat) (f : Move → Move) : (modMove s id f).mem = s.mem := rfl
@[simp] theorem modMove_cores (s : State) (id : Nat) (f : Move → Move) : (modMove s id f).cores = s.cores := rfl
@[simp] theorem modMove_sems (s : State) (id : Nat) (f : Move → Move) : (modMove s id f).sems = s.sems := rfl
@[simp] theorem modMove_nb (s : State) (id : Nat) (f : Move → Move) : (modMove s id f).nb = s.nb := rfl
@[simp] theorem modMove_host (s : State) (id : Nat) (f : Move → Move) : (modMove s id f).host = s.host := rfl
@[simp] theorem modMove_parts (s : State) (id : Nat) (f : Move → Move) : (modMove s id f).parts = s.parts := rfl
@[simp] theorem modMove_se (s : State) (id : Nat) (f : Move → Move) : (modMove s id f).se = s.se := rfl
@[simp] theorem modMove_fab (s : State) (id : Nat) (f : Move → Move) : (modMove s id f).fab = s.fab := rfl
@[simp] theorem modMove_faults (s : State) (id : Nat) (f : Move → Move) : (modMove s id f).faults = s.faults := rfl
@[simp] theorem modMove_twin (s : State) (id : Nat) (f : Move → Move) : (modMove s id f).twin = s.twin := rfl
@[simp] theorem modMove_pwr (s : State) (id : Nat) (f : Move → Move) : (modMove s id f).pwr = s.pwr := rfl
@[simp] theorem modMove_sec (s : State) (id : Nat) (f : Move → Move) : (modMove s id f).sec = s.sec := rfl
@[simp] theorem modMove_flash (s : State) (id : Nat) (f : Move → Move) : (modMove s id f).flash = s.flash := rfl
@[simp] theorem modMove_pins (s : State) (id : Nat) (f : Move → Move) : (modMove s id f).pins = s.pins := rfl
@[simp] theorem modMove_trace (s : State) (id : Nat) (f : Move → Move) : (modMove s id f).trace = s.trace := rfl
@[simp] theorem modMove_pending (s : State) (id : Nat) (f : Move → Move) : (modMove s id f).pending = s.pending := rfl

@[simp] theorem setHostByte_grade (s : State) (a : Nat) (b : Byte) : (setHostByte s a b).grade = s.grade := rfl
@[simp] theorem setHostByte_fresh (s : State) (a : Nat) (b : Byte) : (setHostByte s a b).fresh = s.fresh := rfl
@[simp] theorem setHostByte_time (s : State) (a : Nat) (b : Byte) : (setHostByte s a b).time = s.time := rfl
@[simp] theorem setHostByte_bar (s : State) (a : Nat) (b : Byte) : (setHostByte s a b).bar = s.bar := rfl
@[simp] theorem setHostByte_mem (s : State) (a : Nat) (b : Byte) : (setHostByte s a b).mem = s.mem := rfl
@[simp] theorem setHostByte_cores (s : State) (a : Nat) (b : Byte) : (setHostByte s a b).cores = s.cores := rfl
@[simp] theorem setHostByte_sems (s : State) (a : Nat) (b : Byte) : (setHostByte s a b).sems = s.sems := rfl
@[simp] theorem setHostByte_hoists (s : State) (a : Nat) (b : Byte) : (setHostByte s a b).hoists = s.hoists := rfl
@[simp] theorem setHostByte_nb (s : State) (a : Nat) (b : Byte) : (setHostByte s a b).nb = s.nb := rfl
@[simp] theorem setHostByte_parts (s : State) (a : Nat) (b : Byte) : (setHostByte s a b).parts = s.parts := rfl
@[simp] theorem setHostByte_se (s : State) (a : Nat) (b : Byte) : (setHostByte s a b).se = s.se := rfl
@[simp] theorem setHostByte_fab (s : State) (a : Nat) (b : Byte) : (setHostByte s a b).fab = s.fab := rfl
@[simp] theorem setHostByte_faults (s : State) (a : Nat) (b : Byte) : (setHostByte s a b).faults = s.faults := rfl
@[simp] theorem setHostByte_twin (s : State) (a : Nat) (b : Byte) : (setHostByte s a b).twin = s.twin := rfl
@[simp] theorem setHostByte_pwr (s : State) (a : Nat) (b : Byte) : (setHostByte s a b).pwr = s.pwr := rfl
@[simp] theorem setHostByte_sec (s : State) (a : Nat) (b : Byte) : (setHostByte s a b).sec = s.sec := rfl
@[simp] theorem setHostByte_flash (s : State) (a : Nat) (b : Byte) : (setHostByte s a b).flash = s.flash := rfl
@[simp] theorem setHostByte_pins (s : State) (a : Nat) (b : Byte) : (setHostByte s a b).pins = s.pins := rfl
@[simp] theorem setHostByte_trace (s : State) (a : Nat) (b : Byte) : (setHostByte s a b).trace = s.trace := rfl
@[simp] theorem setHostByte_pending (s : State) (a : Nat) (b : Byte) : (setHostByte s a b).pending = s.pending := rfl

@[simp] theorem setScratchByte_grade (s : State) (v i : Nat) (b : Byte) : (setScratchByte s v i b).grade = s.grade := rfl
@[simp] theorem setScratchByte_fresh (s : State) (v i : Nat) (b : Byte) : (setScratchByte s v i b).fresh = s.fresh := rfl
@[simp] theorem setScratchByte_time (s : State) (v i : Nat) (b : Byte) : (setScratchByte s v i b).time = s.time := rfl
@[simp] theorem setScratchByte_bar (s : State) (v i : Nat) (b : Byte) : (setScratchByte s v i b).bar = s.bar := rfl
@[simp] theorem setScratchByte_mem (s : State) (v i : Nat) (b : Byte) : (setScratchByte s v i b).mem = s.mem := rfl
@[simp] theorem setScratchByte_sems (s : State) (v i : Nat) (b : Byte) : (setScratchByte s v i b).sems = s.sems := rfl
@[simp] theorem setScratchByte_hoists (s : State) (v i : Nat) (b : Byte) : (setScratchByte s v i b).hoists = s.hoists := rfl
@[simp] theorem setScratchByte_nb (s : State) (v i : Nat) (b : Byte) : (setScratchByte s v i b).nb = s.nb := rfl
@[simp] theorem setScratchByte_host (s : State) (v i : Nat) (b : Byte) : (setScratchByte s v i b).host = s.host := rfl
@[simp] theorem setScratchByte_parts (s : State) (v i : Nat) (b : Byte) : (setScratchByte s v i b).parts = s.parts := rfl
@[simp] theorem setScratchByte_se (s : State) (v i : Nat) (b : Byte) : (setScratchByte s v i b).se = s.se := rfl
@[simp] theorem setScratchByte_fab (s : State) (v i : Nat) (b : Byte) : (setScratchByte s v i b).fab = s.fab := rfl
@[simp] theorem setScratchByte_faults (s : State) (v i : Nat) (b : Byte) : (setScratchByte s v i b).faults = s.faults := rfl
@[simp] theorem setScratchByte_twin (s : State) (v i : Nat) (b : Byte) : (setScratchByte s v i b).twin = s.twin := rfl
@[simp] theorem setScratchByte_pwr (s : State) (v i : Nat) (b : Byte) : (setScratchByte s v i b).pwr = s.pwr := rfl
@[simp] theorem setScratchByte_sec (s : State) (v i : Nat) (b : Byte) : (setScratchByte s v i b).sec = s.sec := rfl
@[simp] theorem setScratchByte_flash (s : State) (v i : Nat) (b : Byte) : (setScratchByte s v i b).flash = s.flash := rfl
@[simp] theorem setScratchByte_pins (s : State) (v i : Nat) (b : Byte) : (setScratchByte s v i b).pins = s.pins := rfl
@[simp] theorem setScratchByte_trace (s : State) (v i : Nat) (b : Byte) : (setScratchByte s v i b).trace = s.trace := rfl
@[simp] theorem setScratchByte_pending (s : State) (v i : Nat) (b : Byte) : (setScratchByte s v i b).pending = s.pending := rfl

@[simp] theorem modJob_grade (s : State) (id : Nat) (f : Job → Job) : (modJob s id f).grade = s.grade := rfl
@[simp] theorem modJob_fresh (s : State) (id : Nat) (f : Job → Job) : (modJob s id f).fresh = s.fresh := rfl
@[simp] theorem modJob_time (s : State) (id : Nat) (f : Job → Job) : (modJob s id f).time = s.time := rfl
@[simp] theorem modJob_bar (s : State) (id : Nat) (f : Job → Job) : (modJob s id f).bar = s.bar := rfl
@[simp] theorem modJob_mem (s : State) (id : Nat) (f : Job → Job) : (modJob s id f).mem = s.mem := rfl
@[simp] theorem modJob_sems (s : State) (id : Nat) (f : Job → Job) : (modJob s id f).sems = s.sems := rfl
@[simp] theorem modJob_hoists (s : State) (id : Nat) (f : Job → Job) : (modJob s id f).hoists = s.hoists := rfl
@[simp] theorem modJob_nb (s : State) (id : Nat) (f : Job → Job) : (modJob s id f).nb = s.nb := rfl
@[simp] theorem modJob_host (s : State) (id : Nat) (f : Job → Job) : (modJob s id f).host = s.host := rfl
@[simp] theorem modJob_parts (s : State) (id : Nat) (f : Job → Job) : (modJob s id f).parts = s.parts := rfl
@[simp] theorem modJob_se (s : State) (id : Nat) (f : Job → Job) : (modJob s id f).se = s.se := rfl
@[simp] theorem modJob_fab (s : State) (id : Nat) (f : Job → Job) : (modJob s id f).fab = s.fab := rfl
@[simp] theorem modJob_faults (s : State) (id : Nat) (f : Job → Job) : (modJob s id f).faults = s.faults := rfl
@[simp] theorem modJob_twin (s : State) (id : Nat) (f : Job → Job) : (modJob s id f).twin = s.twin := rfl
@[simp] theorem modJob_pwr (s : State) (id : Nat) (f : Job → Job) : (modJob s id f).pwr = s.pwr := rfl
@[simp] theorem modJob_sec (s : State) (id : Nat) (f : Job → Job) : (modJob s id f).sec = s.sec := rfl
@[simp] theorem modJob_flash (s : State) (id : Nat) (f : Job → Job) : (modJob s id f).flash = s.flash := rfl
@[simp] theorem modJob_pins (s : State) (id : Nat) (f : Job → Job) : (modJob s id f).pins = s.pins := rfl
@[simp] theorem modJob_trace (s : State) (id : Nat) (f : Job → Job) : (modJob s id f).trace = s.trace := rfl
@[simp] theorem modJob_pending (s : State) (id : Nat) (f : Job → Job) : (modJob s id f).pending = s.pending := rfl

@[simp] theorem setL1_grade (s : State) (v ln : Nat) (x : L1Line) : (setL1 s v ln x).grade = s.grade := rfl
@[simp] theorem setL1_fresh (s : State) (v ln : Nat) (x : L1Line) : (setL1 s v ln x).fresh = s.fresh := rfl
@[simp] theorem setL1_time (s : State) (v ln : Nat) (x : L1Line) : (setL1 s v ln x).time = s.time := rfl
@[simp] theorem setL1_bar (s : State) (v ln : Nat) (x : L1Line) : (setL1 s v ln x).bar = s.bar := rfl
@[simp] theorem setL1_mem (s : State) (v ln : Nat) (x : L1Line) : (setL1 s v ln x).mem = s.mem := rfl
@[simp] theorem setL1_sems (s : State) (v ln : Nat) (x : L1Line) : (setL1 s v ln x).sems = s.sems := rfl
@[simp] theorem setL1_hoists (s : State) (v ln : Nat) (x : L1Line) : (setL1 s v ln x).hoists = s.hoists := rfl
@[simp] theorem setL1_nb (s : State) (v ln : Nat) (x : L1Line) : (setL1 s v ln x).nb = s.nb := rfl
@[simp] theorem setL1_host (s : State) (v ln : Nat) (x : L1Line) : (setL1 s v ln x).host = s.host := rfl
@[simp] theorem setL1_parts (s : State) (v ln : Nat) (x : L1Line) : (setL1 s v ln x).parts = s.parts := rfl
@[simp] theorem setL1_se (s : State) (v ln : Nat) (x : L1Line) : (setL1 s v ln x).se = s.se := rfl
@[simp] theorem setL1_fab (s : State) (v ln : Nat) (x : L1Line) : (setL1 s v ln x).fab = s.fab := rfl
@[simp] theorem setL1_faults (s : State) (v ln : Nat) (x : L1Line) : (setL1 s v ln x).faults = s.faults := rfl
@[simp] theorem setL1_twin (s : State) (v ln : Nat) (x : L1Line) : (setL1 s v ln x).twin = s.twin := rfl
@[simp] theorem setL1_pwr (s : State) (v ln : Nat) (x : L1Line) : (setL1 s v ln x).pwr = s.pwr := rfl
@[simp] theorem setL1_sec (s : State) (v ln : Nat) (x : L1Line) : (setL1 s v ln x).sec = s.sec := rfl
@[simp] theorem setL1_flash (s : State) (v ln : Nat) (x : L1Line) : (setL1 s v ln x).flash = s.flash := rfl
@[simp] theorem setL1_pins (s : State) (v ln : Nat) (x : L1Line) : (setL1 s v ln x).pins = s.pins := rfl
@[simp] theorem setL1_trace (s : State) (v ln : Nat) (x : L1Line) : (setL1 s v ln x).trace = s.trace := rfl
@[simp] theorem setL1_pending (s : State) (v ln : Nat) (x : L1Line) : (setL1 s v ln x).pending = s.pending := rfl

@[simp] theorem l1Clear_grade (s : State) (v : Nat) : (l1Clear s v).grade = s.grade := rfl
@[simp] theorem l1Clear_fresh (s : State) (v : Nat) : (l1Clear s v).fresh = s.fresh := rfl
@[simp] theorem l1Clear_time (s : State) (v : Nat) : (l1Clear s v).time = s.time := rfl
@[simp] theorem l1Clear_bar (s : State) (v : Nat) : (l1Clear s v).bar = s.bar := rfl
@[simp] theorem l1Clear_mem (s : State) (v : Nat) : (l1Clear s v).mem = s.mem := rfl
@[simp] theorem l1Clear_sems (s : State) (v : Nat) : (l1Clear s v).sems = s.sems := rfl
@[simp] theorem l1Clear_hoists (s : State) (v : Nat) : (l1Clear s v).hoists = s.hoists := rfl
@[simp] theorem l1Clear_nb (s : State) (v : Nat) : (l1Clear s v).nb = s.nb := rfl
@[simp] theorem l1Clear_host (s : State) (v : Nat) : (l1Clear s v).host = s.host := rfl
@[simp] theorem l1Clear_parts (s : State) (v : Nat) : (l1Clear s v).parts = s.parts := rfl
@[simp] theorem l1Clear_se (s : State) (v : Nat) : (l1Clear s v).se = s.se := rfl
@[simp] theorem l1Clear_fab (s : State) (v : Nat) : (l1Clear s v).fab = s.fab := rfl
@[simp] theorem l1Clear_faults (s : State) (v : Nat) : (l1Clear s v).faults = s.faults := rfl
@[simp] theorem l1Clear_twin (s : State) (v : Nat) : (l1Clear s v).twin = s.twin := rfl
@[simp] theorem l1Clear_pwr (s : State) (v : Nat) : (l1Clear s v).pwr = s.pwr := rfl
@[simp] theorem l1Clear_sec (s : State) (v : Nat) : (l1Clear s v).sec = s.sec := rfl
@[simp] theorem l1Clear_flash (s : State) (v : Nat) : (l1Clear s v).flash = s.flash := rfl
@[simp] theorem l1Clear_pins (s : State) (v : Nat) : (l1Clear s v).pins = s.pins := rfl
@[simp] theorem l1Clear_trace (s : State) (v : Nat) : (l1Clear s v).trace = s.trace := rfl
@[simp] theorem l1Clear_pending (s : State) (v : Nat) : (l1Clear s v).pending = s.pending := rfl

@[simp] theorem setQp_grade (s : State) (q : Nat) (x : QueuePair) : (setQp s q x).grade = s.grade := rfl
@[simp] theorem setQp_fresh (s : State) (q : Nat) (x : QueuePair) : (setQp s q x).fresh = s.fresh := rfl
@[simp] theorem setQp_time (s : State) (q : Nat) (x : QueuePair) : (setQp s q x).time = s.time := rfl
@[simp] theorem setQp_bar (s : State) (q : Nat) (x : QueuePair) : (setQp s q x).bar = s.bar := rfl
@[simp] theorem setQp_mem (s : State) (q : Nat) (x : QueuePair) : (setQp s q x).mem = s.mem := rfl
@[simp] theorem setQp_cores (s : State) (q : Nat) (x : QueuePair) : (setQp s q x).cores = s.cores := rfl
@[simp] theorem setQp_sems (s : State) (q : Nat) (x : QueuePair) : (setQp s q x).sems = s.sems := rfl
@[simp] theorem setQp_hoists (s : State) (q : Nat) (x : QueuePair) : (setQp s q x).hoists = s.hoists := rfl
@[simp] theorem setQp_nb (s : State) (q : Nat) (x : QueuePair) : (setQp s q x).nb = s.nb := rfl
@[simp] theorem setQp_parts (s : State) (q : Nat) (x : QueuePair) : (setQp s q x).parts = s.parts := rfl
@[simp] theorem setQp_se (s : State) (q : Nat) (x : QueuePair) : (setQp s q x).se = s.se := rfl
@[simp] theorem setQp_fab (s : State) (q : Nat) (x : QueuePair) : (setQp s q x).fab = s.fab := rfl
@[simp] theorem setQp_faults (s : State) (q : Nat) (x : QueuePair) : (setQp s q x).faults = s.faults := rfl
@[simp] theorem setQp_twin (s : State) (q : Nat) (x : QueuePair) : (setQp s q x).twin = s.twin := rfl
@[simp] theorem setQp_pwr (s : State) (q : Nat) (x : QueuePair) : (setQp s q x).pwr = s.pwr := rfl
@[simp] theorem setQp_sec (s : State) (q : Nat) (x : QueuePair) : (setQp s q x).sec = s.sec := rfl
@[simp] theorem setQp_flash (s : State) (q : Nat) (x : QueuePair) : (setQp s q x).flash = s.flash := rfl
@[simp] theorem setQp_pins (s : State) (q : Nat) (x : QueuePair) : (setQp s q x).pins = s.pins := rfl
@[simp] theorem setQp_trace (s : State) (q : Nat) (x : QueuePair) : (setQp s q x).trace = s.trace := rfl
@[simp] theorem setQp_pending (s : State) (q : Nat) (x : QueuePair) : (setQp s q x).pending = s.pending := rfl

@[simp] theorem modCmd_grade (s : State) (id : Nat) (f : Cmd → Cmd) : (modCmd s id f).grade = s.grade := rfl
@[simp] theorem modCmd_fresh (s : State) (id : Nat) (f : Cmd → Cmd) : (modCmd s id f).fresh = s.fresh := rfl
@[simp] theorem modCmd_time (s : State) (id : Nat) (f : Cmd → Cmd) : (modCmd s id f).time = s.time := rfl
@[simp] theorem modCmd_bar (s : State) (id : Nat) (f : Cmd → Cmd) : (modCmd s id f).bar = s.bar := rfl
@[simp] theorem modCmd_mem (s : State) (id : Nat) (f : Cmd → Cmd) : (modCmd s id f).mem = s.mem := rfl
@[simp] theorem modCmd_cores (s : State) (id : Nat) (f : Cmd → Cmd) : (modCmd s id f).cores = s.cores := rfl
@[simp] theorem modCmd_sems (s : State) (id : Nat) (f : Cmd → Cmd) : (modCmd s id f).sems = s.sems := rfl
@[simp] theorem modCmd_hoists (s : State) (id : Nat) (f : Cmd → Cmd) : (modCmd s id f).hoists = s.hoists := rfl
@[simp] theorem modCmd_nb (s : State) (id : Nat) (f : Cmd → Cmd) : (modCmd s id f).nb = s.nb := rfl
@[simp] theorem modCmd_parts (s : State) (id : Nat) (f : Cmd → Cmd) : (modCmd s id f).parts = s.parts := rfl
@[simp] theorem modCmd_se (s : State) (id : Nat) (f : Cmd → Cmd) : (modCmd s id f).se = s.se := rfl
@[simp] theorem modCmd_fab (s : State) (id : Nat) (f : Cmd → Cmd) : (modCmd s id f).fab = s.fab := rfl
@[simp] theorem modCmd_faults (s : State) (id : Nat) (f : Cmd → Cmd) : (modCmd s id f).faults = s.faults := rfl
@[simp] theorem modCmd_twin (s : State) (id : Nat) (f : Cmd → Cmd) : (modCmd s id f).twin = s.twin := rfl
@[simp] theorem modCmd_pwr (s : State) (id : Nat) (f : Cmd → Cmd) : (modCmd s id f).pwr = s.pwr := rfl
@[simp] theorem modCmd_sec (s : State) (id : Nat) (f : Cmd → Cmd) : (modCmd s id f).sec = s.sec := rfl
@[simp] theorem modCmd_flash (s : State) (id : Nat) (f : Cmd → Cmd) : (modCmd s id f).flash = s.flash := rfl
@[simp] theorem modCmd_pins (s : State) (id : Nat) (f : Cmd → Cmd) : (modCmd s id f).pins = s.pins := rfl
@[simp] theorem modCmd_trace (s : State) (id : Nat) (f : Cmd → Cmd) : (modCmd s id f).trace = s.trace := rfl
@[simp] theorem modCmd_pending (s : State) (id : Nat) (f : Cmd → Cmd) : (modCmd s id f).pending = s.pending := rfl

@[simp] theorem dropCmd_grade (s : State) (id : Nat) : (dropCmd s id).grade = s.grade := rfl
@[simp] theorem dropCmd_fresh (s : State) (id : Nat) : (dropCmd s id).fresh = s.fresh := rfl
@[simp] theorem dropCmd_time (s : State) (id : Nat) : (dropCmd s id).time = s.time := rfl
@[simp] theorem dropCmd_bar (s : State) (id : Nat) : (dropCmd s id).bar = s.bar := rfl
@[simp] theorem dropCmd_mem (s : State) (id : Nat) : (dropCmd s id).mem = s.mem := rfl
@[simp] theorem dropCmd_cores (s : State) (id : Nat) : (dropCmd s id).cores = s.cores := rfl
@[simp] theorem dropCmd_sems (s : State) (id : Nat) : (dropCmd s id).sems = s.sems := rfl
@[simp] theorem dropCmd_hoists (s : State) (id : Nat) : (dropCmd s id).hoists = s.hoists := rfl
@[simp] theorem dropCmd_nb (s : State) (id : Nat) : (dropCmd s id).nb = s.nb := rfl
@[simp] theorem dropCmd_parts (s : State) (id : Nat) : (dropCmd s id).parts = s.parts := rfl
@[simp] theorem dropCmd_se (s : State) (id : Nat) : (dropCmd s id).se = s.se := rfl
@[simp] theorem dropCmd_fab (s : State) (id : Nat) : (dropCmd s id).fab = s.fab := rfl
@[simp] theorem dropCmd_faults (s : State) (id : Nat) : (dropCmd s id).faults = s.faults := rfl
@[simp] theorem dropCmd_twin (s : State) (id : Nat) : (dropCmd s id).twin = s.twin := rfl
@[simp] theorem dropCmd_pwr (s : State) (id : Nat) : (dropCmd s id).pwr = s.pwr := rfl
@[simp] theorem dropCmd_sec (s : State) (id : Nat) : (dropCmd s id).sec = s.sec := rfl
@[simp] theorem dropCmd_flash (s : State) (id : Nat) : (dropCmd s id).flash = s.flash := rfl
@[simp] theorem dropCmd_pins (s : State) (id : Nat) : (dropCmd s id).pins = s.pins := rfl
@[simp] theorem dropCmd_trace (s : State) (id : Nat) : (dropCmd s id).trace = s.trace := rfl
@[simp] theorem dropCmd_pending (s : State) (id : Nat) : (dropCmd s id).pending = s.pending := rfl

@[simp] theorem setBufByte_grade (s : State) (stack i : Nat) (b : Byte) : (setBufByte s stack i b).grade = s.grade := rfl
@[simp] theorem setBufByte_fresh (s : State) (stack i : Nat) (b : Byte) : (setBufByte s stack i b).fresh = s.fresh := rfl
@[simp] theorem setBufByte_time (s : State) (stack i : Nat) (b : Byte) : (setBufByte s stack i b).time = s.time := rfl
@[simp] theorem setBufByte_bar (s : State) (stack i : Nat) (b : Byte) : (setBufByte s stack i b).bar = s.bar := rfl
@[simp] theorem setBufByte_mem (s : State) (stack i : Nat) (b : Byte) : (setBufByte s stack i b).mem = s.mem := rfl
@[simp] theorem setBufByte_cores (s : State) (stack i : Nat) (b : Byte) : (setBufByte s stack i b).cores = s.cores := rfl
@[simp] theorem setBufByte_sems (s : State) (stack i : Nat) (b : Byte) : (setBufByte s stack i b).sems = s.sems := rfl
@[simp] theorem setBufByte_hoists (s : State) (stack i : Nat) (b : Byte) : (setBufByte s stack i b).hoists = s.hoists := rfl
@[simp] theorem setBufByte_host (s : State) (stack i : Nat) (b : Byte) : (setBufByte s stack i b).host = s.host := rfl
@[simp] theorem setBufByte_parts (s : State) (stack i : Nat) (b : Byte) : (setBufByte s stack i b).parts = s.parts := rfl
@[simp] theorem setBufByte_se (s : State) (stack i : Nat) (b : Byte) : (setBufByte s stack i b).se = s.se := rfl
@[simp] theorem setBufByte_fab (s : State) (stack i : Nat) (b : Byte) : (setBufByte s stack i b).fab = s.fab := rfl
@[simp] theorem setBufByte_faults (s : State) (stack i : Nat) (b : Byte) : (setBufByte s stack i b).faults = s.faults := rfl
@[simp] theorem setBufByte_twin (s : State) (stack i : Nat) (b : Byte) : (setBufByte s stack i b).twin = s.twin := rfl
@[simp] theorem setBufByte_pwr (s : State) (stack i : Nat) (b : Byte) : (setBufByte s stack i b).pwr = s.pwr := rfl
@[simp] theorem setBufByte_sec (s : State) (stack i : Nat) (b : Byte) : (setBufByte s stack i b).sec = s.sec := rfl
@[simp] theorem setBufByte_flash (s : State) (stack i : Nat) (b : Byte) : (setBufByte s stack i b).flash = s.flash := rfl
@[simp] theorem setBufByte_pins (s : State) (stack i : Nat) (b : Byte) : (setBufByte s stack i b).pins = s.pins := rfl
@[simp] theorem setBufByte_trace (s : State) (stack i : Nat) (b : Byte) : (setBufByte s stack i b).trace = s.trace := rfl
@[simp] theorem setBufByte_pending (s : State) (stack i : Nat) (b : Byte) : (setBufByte s stack i b).pending = s.pending := rfl

@[simp] theorem modProg_grade (s : State) (pid : Nat) (f : Program → Program) : (modProg s pid f).grade = s.grade := rfl
@[simp] theorem modProg_fresh (s : State) (pid : Nat) (f : Program → Program) : (modProg s pid f).fresh = s.fresh := rfl
@[simp] theorem modProg_time (s : State) (pid : Nat) (f : Program → Program) : (modProg s pid f).time = s.time := rfl
@[simp] theorem modProg_bar (s : State) (pid : Nat) (f : Program → Program) : (modProg s pid f).bar = s.bar := rfl
@[simp] theorem modProg_mem (s : State) (pid : Nat) (f : Program → Program) : (modProg s pid f).mem = s.mem := rfl
@[simp] theorem modProg_cores (s : State) (pid : Nat) (f : Program → Program) : (modProg s pid f).cores = s.cores := rfl
@[simp] theorem modProg_sems (s : State) (pid : Nat) (f : Program → Program) : (modProg s pid f).sems = s.sems := rfl
@[simp] theorem modProg_hoists (s : State) (pid : Nat) (f : Program → Program) : (modProg s pid f).hoists = s.hoists := rfl
@[simp] theorem modProg_host (s : State) (pid : Nat) (f : Program → Program) : (modProg s pid f).host = s.host := rfl
@[simp] theorem modProg_parts (s : State) (pid : Nat) (f : Program → Program) : (modProg s pid f).parts = s.parts := rfl
@[simp] theorem modProg_se (s : State) (pid : Nat) (f : Program → Program) : (modProg s pid f).se = s.se := rfl
@[simp] theorem modProg_fab (s : State) (pid : Nat) (f : Program → Program) : (modProg s pid f).fab = s.fab := rfl
@[simp] theorem modProg_faults (s : State) (pid : Nat) (f : Program → Program) : (modProg s pid f).faults = s.faults := rfl
@[simp] theorem modProg_twin (s : State) (pid : Nat) (f : Program → Program) : (modProg s pid f).twin = s.twin := rfl
@[simp] theorem modProg_pwr (s : State) (pid : Nat) (f : Program → Program) : (modProg s pid f).pwr = s.pwr := rfl
@[simp] theorem modProg_sec (s : State) (pid : Nat) (f : Program → Program) : (modProg s pid f).sec = s.sec := rfl
@[simp] theorem modProg_flash (s : State) (pid : Nat) (f : Program → Program) : (modProg s pid f).flash = s.flash := rfl
@[simp] theorem modProg_pins (s : State) (pid : Nat) (f : Program → Program) : (modProg s pid f).pins = s.pins := rfl
@[simp] theorem modProg_trace (s : State) (pid : Nat) (f : Program → Program) : (modProg s pid f).trace = s.trace := rfl
@[simp] theorem modProg_pending (s : State) (pid : Nat) (f : Program → Program) : (modProg s pid f).pending = s.pending := rfl

@[simp] theorem setUnit_grade (s : State) (bank : Nat) (u : NbUnit) : (setUnit s bank u).grade = s.grade := rfl
@[simp] theorem setUnit_fresh (s : State) (bank : Nat) (u : NbUnit) : (setUnit s bank u).fresh = s.fresh := rfl
@[simp] theorem setUnit_time (s : State) (bank : Nat) (u : NbUnit) : (setUnit s bank u).time = s.time := rfl
@[simp] theorem setUnit_bar (s : State) (bank : Nat) (u : NbUnit) : (setUnit s bank u).bar = s.bar := rfl
@[simp] theorem setUnit_mem (s : State) (bank : Nat) (u : NbUnit) : (setUnit s bank u).mem = s.mem := rfl
@[simp] theorem setUnit_cores (s : State) (bank : Nat) (u : NbUnit) : (setUnit s bank u).cores = s.cores := rfl
@[simp] theorem setUnit_sems (s : State) (bank : Nat) (u : NbUnit) : (setUnit s bank u).sems = s.sems := rfl
@[simp] theorem setUnit_hoists (s : State) (bank : Nat) (u : NbUnit) : (setUnit s bank u).hoists = s.hoists := rfl
@[simp] theorem setUnit_host (s : State) (bank : Nat) (u : NbUnit) : (setUnit s bank u).host = s.host := rfl
@[simp] theorem setUnit_parts (s : State) (bank : Nat) (u : NbUnit) : (setUnit s bank u).parts = s.parts := rfl
@[simp] theorem setUnit_se (s : State) (bank : Nat) (u : NbUnit) : (setUnit s bank u).se = s.se := rfl
@[simp] theorem setUnit_fab (s : State) (bank : Nat) (u : NbUnit) : (setUnit s bank u).fab = s.fab := rfl
@[simp] theorem setUnit_faults (s : State) (bank : Nat) (u : NbUnit) : (setUnit s bank u).faults = s.faults := rfl
@[simp] theorem setUnit_twin (s : State) (bank : Nat) (u : NbUnit) : (setUnit s bank u).twin = s.twin := rfl
@[simp] theorem setUnit_pwr (s : State) (bank : Nat) (u : NbUnit) : (setUnit s bank u).pwr = s.pwr := rfl
@[simp] theorem setUnit_sec (s : State) (bank : Nat) (u : NbUnit) : (setUnit s bank u).sec = s.sec := rfl
@[simp] theorem setUnit_flash (s : State) (bank : Nat) (u : NbUnit) : (setUnit s bank u).flash = s.flash := rfl
@[simp] theorem setUnit_pins (s : State) (bank : Nat) (u : NbUnit) : (setUnit s bank u).pins = s.pins := rfl
@[simp] theorem setUnit_trace (s : State) (bank : Nat) (u : NbUnit) : (setUnit s bank u).trace = s.trace := rfl
@[simp] theorem setUnit_pending (s : State) (bank : Nat) (u : NbUnit) : (setUnit s bank u).pending = s.pending := rfl

@[simp] theorem removeOp_grade (s : State) (id : Nat) : (removeOp s id).grade = s.grade := rfl
@[simp] theorem removeOp_fresh (s : State) (id : Nat) : (removeOp s id).fresh = s.fresh := rfl
@[simp] theorem removeOp_time (s : State) (id : Nat) : (removeOp s id).time = s.time := rfl
@[simp] theorem removeOp_bar (s : State) (id : Nat) : (removeOp s id).bar = s.bar := rfl
@[simp] theorem removeOp_mem (s : State) (id : Nat) : (removeOp s id).mem = s.mem := rfl
@[simp] theorem removeOp_sems (s : State) (id : Nat) : (removeOp s id).sems = s.sems := rfl
@[simp] theorem removeOp_hoists (s : State) (id : Nat) : (removeOp s id).hoists = s.hoists := rfl
@[simp] theorem removeOp_nb (s : State) (id : Nat) : (removeOp s id).nb = s.nb := rfl
@[simp] theorem removeOp_host (s : State) (id : Nat) : (removeOp s id).host = s.host := rfl
@[simp] theorem removeOp_parts (s : State) (id : Nat) : (removeOp s id).parts = s.parts := rfl
@[simp] theorem removeOp_se (s : State) (id : Nat) : (removeOp s id).se = s.se := rfl
@[simp] theorem removeOp_fab (s : State) (id : Nat) : (removeOp s id).fab = s.fab := rfl
@[simp] theorem removeOp_faults (s : State) (id : Nat) : (removeOp s id).faults = s.faults := rfl
@[simp] theorem removeOp_twin (s : State) (id : Nat) : (removeOp s id).twin = s.twin := rfl
@[simp] theorem removeOp_pwr (s : State) (id : Nat) : (removeOp s id).pwr = s.pwr := rfl
@[simp] theorem removeOp_sec (s : State) (id : Nat) : (removeOp s id).sec = s.sec := rfl
@[simp] theorem removeOp_flash (s : State) (id : Nat) : (removeOp s id).flash = s.flash := rfl
@[simp] theorem removeOp_pins (s : State) (id : Nat) : (removeOp s id).pins = s.pins := rfl
@[simp] theorem removeOp_trace (s : State) (id : Nat) : (removeOp s id).trace = s.trace := rfl
@[simp] theorem removeOp_pending (s : State) (id : Nat) : (removeOp s id).pending = s.pending := rfl

@[simp] theorem putSess_grade (s : State) (i : Nat) (x : Session) : (putSess s i x).grade = s.grade := rfl
@[simp] theorem putSess_fresh (s : State) (i : Nat) (x : Session) : (putSess s i x).fresh = s.fresh := rfl
@[simp] theorem putSess_time (s : State) (i : Nat) (x : Session) : (putSess s i x).time = s.time := rfl
@[simp] theorem putSess_bar (s : State) (i : Nat) (x : Session) : (putSess s i x).bar = s.bar := rfl
@[simp] theorem putSess_mem (s : State) (i : Nat) (x : Session) : (putSess s i x).mem = s.mem := rfl
@[simp] theorem putSess_cores (s : State) (i : Nat) (x : Session) : (putSess s i x).cores = s.cores := rfl
@[simp] theorem putSess_sems (s : State) (i : Nat) (x : Session) : (putSess s i x).sems = s.sems := rfl
@[simp] theorem putSess_hoists (s : State) (i : Nat) (x : Session) : (putSess s i x).hoists = s.hoists := rfl
@[simp] theorem putSess_nb (s : State) (i : Nat) (x : Session) : (putSess s i x).nb = s.nb := rfl
@[simp] theorem putSess_host (s : State) (i : Nat) (x : Session) : (putSess s i x).host = s.host := rfl
@[simp] theorem putSess_parts (s : State) (i : Nat) (x : Session) : (putSess s i x).parts = s.parts := rfl
@[simp] theorem putSess_fab (s : State) (i : Nat) (x : Session) : (putSess s i x).fab = s.fab := rfl
@[simp] theorem putSess_faults (s : State) (i : Nat) (x : Session) : (putSess s i x).faults = s.faults := rfl
@[simp] theorem putSess_twin (s : State) (i : Nat) (x : Session) : (putSess s i x).twin = s.twin := rfl
@[simp] theorem putSess_pwr (s : State) (i : Nat) (x : Session) : (putSess s i x).pwr = s.pwr := rfl
@[simp] theorem putSess_sec (s : State) (i : Nat) (x : Session) : (putSess s i x).sec = s.sec := rfl
@[simp] theorem putSess_flash (s : State) (i : Nat) (x : Session) : (putSess s i x).flash = s.flash := rfl
@[simp] theorem putSess_pins (s : State) (i : Nat) (x : Session) : (putSess s i x).pins = s.pins := rfl
@[simp] theorem putSess_trace (s : State) (i : Nat) (x : Session) : (putSess s i x).trace = s.trace := rfl
@[simp] theorem putSess_pending (s : State) (i : Nat) (x : Session) : (putSess s i x).pending = s.pending := rfl

@[simp] theorem putModel_grade (s : State) (m : Nat) (x : Model) : (putModel s m x).grade = s.grade := rfl
@[simp] theorem putModel_fresh (s : State) (m : Nat) (x : Model) : (putModel s m x).fresh = s.fresh := rfl
@[simp] theorem putModel_time (s : State) (m : Nat) (x : Model) : (putModel s m x).time = s.time := rfl
@[simp] theorem putModel_bar (s : State) (m : Nat) (x : Model) : (putModel s m x).bar = s.bar := rfl
@[simp] theorem putModel_mem (s : State) (m : Nat) (x : Model) : (putModel s m x).mem = s.mem := rfl
@[simp] theorem putModel_cores (s : State) (m : Nat) (x : Model) : (putModel s m x).cores = s.cores := rfl
@[simp] theorem putModel_sems (s : State) (m : Nat) (x : Model) : (putModel s m x).sems = s.sems := rfl
@[simp] theorem putModel_hoists (s : State) (m : Nat) (x : Model) : (putModel s m x).hoists = s.hoists := rfl
@[simp] theorem putModel_nb (s : State) (m : Nat) (x : Model) : (putModel s m x).nb = s.nb := rfl
@[simp] theorem putModel_host (s : State) (m : Nat) (x : Model) : (putModel s m x).host = s.host := rfl
@[simp] theorem putModel_parts (s : State) (m : Nat) (x : Model) : (putModel s m x).parts = s.parts := rfl
@[simp] theorem putModel_fab (s : State) (m : Nat) (x : Model) : (putModel s m x).fab = s.fab := rfl
@[simp] theorem putModel_faults (s : State) (m : Nat) (x : Model) : (putModel s m x).faults = s.faults := rfl
@[simp] theorem putModel_twin (s : State) (m : Nat) (x : Model) : (putModel s m x).twin = s.twin := rfl
@[simp] theorem putModel_pwr (s : State) (m : Nat) (x : Model) : (putModel s m x).pwr = s.pwr := rfl
@[simp] theorem putModel_sec (s : State) (m : Nat) (x : Model) : (putModel s m x).sec = s.sec := rfl
@[simp] theorem putModel_flash (s : State) (m : Nat) (x : Model) : (putModel s m x).flash = s.flash := rfl
@[simp] theorem putModel_pins (s : State) (m : Nat) (x : Model) : (putModel s m x).pins = s.pins := rfl
@[simp] theorem putModel_trace (s : State) (m : Nat) (x : Model) : (putModel s m x).trace = s.trace := rfl
@[simp] theorem putModel_pending (s : State) (m : Nat) (x : Model) : (putModel s m x).pending = s.pending := rfl

@[simp] theorem unplace_grade (s : State) (base count : Nat) : (unplace s base count).grade = s.grade := rfl
@[simp] theorem unplace_fresh (s : State) (base count : Nat) : (unplace s base count).fresh = s.fresh := rfl
@[simp] theorem unplace_time (s : State) (base count : Nat) : (unplace s base count).time = s.time := rfl
@[simp] theorem unplace_bar (s : State) (base count : Nat) : (unplace s base count).bar = s.bar := rfl
@[simp] theorem unplace_mem (s : State) (base count : Nat) : (unplace s base count).mem = s.mem := rfl
@[simp] theorem unplace_sems (s : State) (base count : Nat) : (unplace s base count).sems = s.sems := rfl
@[simp] theorem unplace_hoists (s : State) (base count : Nat) : (unplace s base count).hoists = s.hoists := rfl
@[simp] theorem unplace_nb (s : State) (base count : Nat) : (unplace s base count).nb = s.nb := rfl
@[simp] theorem unplace_host (s : State) (base count : Nat) : (unplace s base count).host = s.host := rfl
@[simp] theorem unplace_parts (s : State) (base count : Nat) : (unplace s base count).parts = s.parts := rfl
@[simp] theorem unplace_se (s : State) (base count : Nat) : (unplace s base count).se = s.se := rfl
@[simp] theorem unplace_fab (s : State) (base count : Nat) : (unplace s base count).fab = s.fab := rfl
@[simp] theorem unplace_faults (s : State) (base count : Nat) : (unplace s base count).faults = s.faults := rfl
@[simp] theorem unplace_twin (s : State) (base count : Nat) : (unplace s base count).twin = s.twin := rfl
@[simp] theorem unplace_pwr (s : State) (base count : Nat) : (unplace s base count).pwr = s.pwr := rfl
@[simp] theorem unplace_sec (s : State) (base count : Nat) : (unplace s base count).sec = s.sec := rfl
@[simp] theorem unplace_flash (s : State) (base count : Nat) : (unplace s base count).flash = s.flash := rfl
@[simp] theorem unplace_pins (s : State) (base count : Nat) : (unplace s base count).pins = s.pins := rfl
@[simp] theorem unplace_trace (s : State) (base count : Nat) : (unplace s base count).trace = s.trace := rfl
@[simp] theorem unplace_pending (s : State) (base count : Nat) : (unplace s base count).pending = s.pending := rfl

@[simp] theorem pushStatus_grade (s : State) (part : Nat) (e : OutEntry) : (pushStatus s part e).grade = s.grade := rfl
@[simp] theorem pushStatus_fresh (s : State) (part : Nat) (e : OutEntry) : (pushStatus s part e).fresh = s.fresh := rfl
@[simp] theorem pushStatus_time (s : State) (part : Nat) (e : OutEntry) : (pushStatus s part e).time = s.time := rfl
@[simp] theorem pushStatus_bar (s : State) (part : Nat) (e : OutEntry) : (pushStatus s part e).bar = s.bar := rfl
@[simp] theorem pushStatus_mem (s : State) (part : Nat) (e : OutEntry) : (pushStatus s part e).mem = s.mem := rfl
@[simp] theorem pushStatus_cores (s : State) (part : Nat) (e : OutEntry) : (pushStatus s part e).cores = s.cores := rfl
@[simp] theorem pushStatus_sems (s : State) (part : Nat) (e : OutEntry) : (pushStatus s part e).sems = s.sems := rfl
@[simp] theorem pushStatus_hoists (s : State) (part : Nat) (e : OutEntry) : (pushStatus s part e).hoists = s.hoists := rfl
@[simp] theorem pushStatus_nb (s : State) (part : Nat) (e : OutEntry) : (pushStatus s part e).nb = s.nb := rfl
@[simp] theorem pushStatus_host (s : State) (part : Nat) (e : OutEntry) : (pushStatus s part e).host = s.host := rfl
@[simp] theorem pushStatus_parts (s : State) (part : Nat) (e : OutEntry) : (pushStatus s part e).parts = s.parts := rfl
@[simp] theorem pushStatus_fab (s : State) (part : Nat) (e : OutEntry) : (pushStatus s part e).fab = s.fab := rfl
@[simp] theorem pushStatus_faults (s : State) (part : Nat) (e : OutEntry) : (pushStatus s part e).faults = s.faults := rfl
@[simp] theorem pushStatus_twin (s : State) (part : Nat) (e : OutEntry) : (pushStatus s part e).twin = s.twin := rfl
@[simp] theorem pushStatus_pwr (s : State) (part : Nat) (e : OutEntry) : (pushStatus s part e).pwr = s.pwr := rfl
@[simp] theorem pushStatus_sec (s : State) (part : Nat) (e : OutEntry) : (pushStatus s part e).sec = s.sec := rfl
@[simp] theorem pushStatus_flash (s : State) (part : Nat) (e : OutEntry) : (pushStatus s part e).flash = s.flash := rfl
@[simp] theorem pushStatus_pins (s : State) (part : Nat) (e : OutEntry) : (pushStatus s part e).pins = s.pins := rfl
@[simp] theorem pushStatus_trace (s : State) (part : Nat) (e : OutEntry) : (pushStatus s part e).trace = s.trace := rfl
@[simp] theorem pushStatus_pending (s : State) (part : Nat) (e : OutEntry) : (pushStatus s part e).pending = s.pending := rfl

@[simp] theorem setLatch_grade (s : State) (a : Accessor) (off : Nat) (v : W32) : (setLatch s a off v).grade = s.grade := rfl
@[simp] theorem setLatch_fresh (s : State) (a : Accessor) (off : Nat) (v : W32) : (setLatch s a off v).fresh = s.fresh := rfl
@[simp] theorem setLatch_time (s : State) (a : Accessor) (off : Nat) (v : W32) : (setLatch s a off v).time = s.time := rfl
@[simp] theorem setLatch_mem (s : State) (a : Accessor) (off : Nat) (v : W32) : (setLatch s a off v).mem = s.mem := rfl
@[simp] theorem setLatch_cores (s : State) (a : Accessor) (off : Nat) (v : W32) : (setLatch s a off v).cores = s.cores := rfl
@[simp] theorem setLatch_sems (s : State) (a : Accessor) (off : Nat) (v : W32) : (setLatch s a off v).sems = s.sems := rfl
@[simp] theorem setLatch_hoists (s : State) (a : Accessor) (off : Nat) (v : W32) : (setLatch s a off v).hoists = s.hoists := rfl
@[simp] theorem setLatch_nb (s : State) (a : Accessor) (off : Nat) (v : W32) : (setLatch s a off v).nb = s.nb := rfl
@[simp] theorem setLatch_host (s : State) (a : Accessor) (off : Nat) (v : W32) : (setLatch s a off v).host = s.host := rfl
@[simp] theorem setLatch_parts (s : State) (a : Accessor) (off : Nat) (v : W32) : (setLatch s a off v).parts = s.parts := rfl
@[simp] theorem setLatch_se (s : State) (a : Accessor) (off : Nat) (v : W32) : (setLatch s a off v).se = s.se := rfl
@[simp] theorem setLatch_fab (s : State) (a : Accessor) (off : Nat) (v : W32) : (setLatch s a off v).fab = s.fab := rfl
@[simp] theorem setLatch_faults (s : State) (a : Accessor) (off : Nat) (v : W32) : (setLatch s a off v).faults = s.faults := rfl
@[simp] theorem setLatch_twin (s : State) (a : Accessor) (off : Nat) (v : W32) : (setLatch s a off v).twin = s.twin := rfl
@[simp] theorem setLatch_pwr (s : State) (a : Accessor) (off : Nat) (v : W32) : (setLatch s a off v).pwr = s.pwr := rfl
@[simp] theorem setLatch_sec (s : State) (a : Accessor) (off : Nat) (v : W32) : (setLatch s a off v).sec = s.sec := rfl
@[simp] theorem setLatch_flash (s : State) (a : Accessor) (off : Nat) (v : W32) : (setLatch s a off v).flash = s.flash := rfl
@[simp] theorem setLatch_pins (s : State) (a : Accessor) (off : Nat) (v : W32) : (setLatch s a off v).pins = s.pins := rfl
@[simp] theorem setLatch_trace (s : State) (a : Accessor) (off : Nat) (v : W32) : (setLatch s a off v).trace = s.trace := rfl
@[simp] theorem setLatch_pending (s : State) (a : Accessor) (off : Nat) (v : W32) : (setLatch s a off v).pending = s.pending := rfl

@[simp] theorem dropLatch_grade (s : State) (a : Accessor) (off : Nat) : (dropLatch s a off).grade = s.grade := rfl
@[simp] theorem dropLatch_fresh (s : State) (a : Accessor) (off : Nat) : (dropLatch s a off).fresh = s.fresh := rfl
@[simp] theorem dropLatch_time (s : State) (a : Accessor) (off : Nat) : (dropLatch s a off).time = s.time := rfl
@[simp] theorem dropLatch_mem (s : State) (a : Accessor) (off : Nat) : (dropLatch s a off).mem = s.mem := rfl
@[simp] theorem dropLatch_cores (s : State) (a : Accessor) (off : Nat) : (dropLatch s a off).cores = s.cores := rfl
@[simp] theorem dropLatch_sems (s : State) (a : Accessor) (off : Nat) : (dropLatch s a off).sems = s.sems := rfl
@[simp] theorem dropLatch_hoists (s : State) (a : Accessor) (off : Nat) : (dropLatch s a off).hoists = s.hoists := rfl
@[simp] theorem dropLatch_nb (s : State) (a : Accessor) (off : Nat) : (dropLatch s a off).nb = s.nb := rfl
@[simp] theorem dropLatch_host (s : State) (a : Accessor) (off : Nat) : (dropLatch s a off).host = s.host := rfl
@[simp] theorem dropLatch_parts (s : State) (a : Accessor) (off : Nat) : (dropLatch s a off).parts = s.parts := rfl
@[simp] theorem dropLatch_se (s : State) (a : Accessor) (off : Nat) : (dropLatch s a off).se = s.se := rfl
@[simp] theorem dropLatch_fab (s : State) (a : Accessor) (off : Nat) : (dropLatch s a off).fab = s.fab := rfl
@[simp] theorem dropLatch_faults (s : State) (a : Accessor) (off : Nat) : (dropLatch s a off).faults = s.faults := rfl
@[simp] theorem dropLatch_twin (s : State) (a : Accessor) (off : Nat) : (dropLatch s a off).twin = s.twin := rfl
@[simp] theorem dropLatch_pwr (s : State) (a : Accessor) (off : Nat) : (dropLatch s a off).pwr = s.pwr := rfl
@[simp] theorem dropLatch_sec (s : State) (a : Accessor) (off : Nat) : (dropLatch s a off).sec = s.sec := rfl
@[simp] theorem dropLatch_flash (s : State) (a : Accessor) (off : Nat) : (dropLatch s a off).flash = s.flash := rfl
@[simp] theorem dropLatch_pins (s : State) (a : Accessor) (off : Nat) : (dropLatch s a off).pins = s.pins := rfl
@[simp] theorem dropLatch_trace (s : State) (a : Accessor) (off : Nat) : (dropLatch s a off).trace = s.trace := rfl
@[simp] theorem dropLatch_pending (s : State) (a : Accessor) (off : Nat) : (dropLatch s a off).pending = s.pending := rfl

@[simp] theorem hostReturn_grade (s : State) (bs : List Byte) (ur poison : Bool) : (hostReturn s bs ur poison).grade = s.grade := rfl
@[simp] theorem hostReturn_fresh (s : State) (bs : List Byte) (ur poison : Bool) : (hostReturn s bs ur poison).fresh = s.fresh := rfl
@[simp] theorem hostReturn_time (s : State) (bs : List Byte) (ur poison : Bool) : (hostReturn s bs ur poison).time = s.time := rfl
@[simp] theorem hostReturn_bar (s : State) (bs : List Byte) (ur poison : Bool) : (hostReturn s bs ur poison).bar = s.bar := rfl
@[simp] theorem hostReturn_mem (s : State) (bs : List Byte) (ur poison : Bool) : (hostReturn s bs ur poison).mem = s.mem := rfl
@[simp] theorem hostReturn_cores (s : State) (bs : List Byte) (ur poison : Bool) : (hostReturn s bs ur poison).cores = s.cores := rfl
@[simp] theorem hostReturn_sems (s : State) (bs : List Byte) (ur poison : Bool) : (hostReturn s bs ur poison).sems = s.sems := rfl
@[simp] theorem hostReturn_hoists (s : State) (bs : List Byte) (ur poison : Bool) : (hostReturn s bs ur poison).hoists = s.hoists := rfl
@[simp] theorem hostReturn_nb (s : State) (bs : List Byte) (ur poison : Bool) : (hostReturn s bs ur poison).nb = s.nb := rfl
@[simp] theorem hostReturn_parts (s : State) (bs : List Byte) (ur poison : Bool) : (hostReturn s bs ur poison).parts = s.parts := rfl
@[simp] theorem hostReturn_se (s : State) (bs : List Byte) (ur poison : Bool) : (hostReturn s bs ur poison).se = s.se := rfl
@[simp] theorem hostReturn_fab (s : State) (bs : List Byte) (ur poison : Bool) : (hostReturn s bs ur poison).fab = s.fab := rfl
@[simp] theorem hostReturn_faults (s : State) (bs : List Byte) (ur poison : Bool) : (hostReturn s bs ur poison).faults = s.faults := rfl
@[simp] theorem hostReturn_twin (s : State) (bs : List Byte) (ur poison : Bool) : (hostReturn s bs ur poison).twin = s.twin := rfl
@[simp] theorem hostReturn_pwr (s : State) (bs : List Byte) (ur poison : Bool) : (hostReturn s bs ur poison).pwr = s.pwr := rfl
@[simp] theorem hostReturn_sec (s : State) (bs : List Byte) (ur poison : Bool) : (hostReturn s bs ur poison).sec = s.sec := rfl
@[simp] theorem hostReturn_flash (s : State) (bs : List Byte) (ur poison : Bool) : (hostReturn s bs ur poison).flash = s.flash := rfl
@[simp] theorem hostReturn_pins (s : State) (bs : List Byte) (ur poison : Bool) : (hostReturn s bs ur poison).pins = s.pins := rfl
@[simp] theorem hostReturn_trace (s : State) (bs : List Byte) (ur poison : Bool) : (hostReturn s bs ur poison).trace = s.trace := rfl
@[simp] theorem hostReturn_pending (s : State) (bs : List Byte) (ur poison : Bool) : (hostReturn s bs ur poison).pending = s.pending := rfl

@[simp] theorem setTwin_grade (s : State) (f : Twin → Twin) : (setTwin s f).grade = s.grade := rfl
@[simp] theorem setTwin_fresh (s : State) (f : Twin → Twin) : (setTwin s f).fresh = s.fresh := rfl
@[simp] theorem setTwin_time (s : State) (f : Twin → Twin) : (setTwin s f).time = s.time := rfl
@[simp] theorem setTwin_bar (s : State) (f : Twin → Twin) : (setTwin s f).bar = s.bar := rfl
@[simp] theorem setTwin_mem (s : State) (f : Twin → Twin) : (setTwin s f).mem = s.mem := rfl
@[simp] theorem setTwin_cores (s : State) (f : Twin → Twin) : (setTwin s f).cores = s.cores := rfl
@[simp] theorem setTwin_sems (s : State) (f : Twin → Twin) : (setTwin s f).sems = s.sems := rfl
@[simp] theorem setTwin_hoists (s : State) (f : Twin → Twin) : (setTwin s f).hoists = s.hoists := rfl
@[simp] theorem setTwin_nb (s : State) (f : Twin → Twin) : (setTwin s f).nb = s.nb := rfl
@[simp] theorem setTwin_host (s : State) (f : Twin → Twin) : (setTwin s f).host = s.host := rfl
@[simp] theorem setTwin_parts (s : State) (f : Twin → Twin) : (setTwin s f).parts = s.parts := rfl
@[simp] theorem setTwin_se (s : State) (f : Twin → Twin) : (setTwin s f).se = s.se := rfl
@[simp] theorem setTwin_fab (s : State) (f : Twin → Twin) : (setTwin s f).fab = s.fab := rfl
@[simp] theorem setTwin_faults (s : State) (f : Twin → Twin) : (setTwin s f).faults = s.faults := rfl
@[simp] theorem setTwin_pwr (s : State) (f : Twin → Twin) : (setTwin s f).pwr = s.pwr := rfl
@[simp] theorem setTwin_sec (s : State) (f : Twin → Twin) : (setTwin s f).sec = s.sec := rfl
@[simp] theorem setTwin_flash (s : State) (f : Twin → Twin) : (setTwin s f).flash = s.flash := rfl
@[simp] theorem setTwin_pins (s : State) (f : Twin → Twin) : (setTwin s f).pins = s.pins := rfl
@[simp] theorem setTwin_trace (s : State) (f : Twin → Twin) : (setTwin s f).trace = s.trace := rfl
@[simp] theorem setTwin_pending (s : State) (f : Twin → Twin) : (setTwin s f).pending = s.pending := rfl

@[simp] theorem pushLine_grade (s : State) (part : Nat) (l : Line) : (pushLine s part l).grade = s.grade := rfl
@[simp] theorem pushLine_fresh (s : State) (part : Nat) (l : Line) : (pushLine s part l).fresh = s.fresh := rfl
@[simp] theorem pushLine_time (s : State) (part : Nat) (l : Line) : (pushLine s part l).time = s.time := rfl
@[simp] theorem pushLine_bar (s : State) (part : Nat) (l : Line) : (pushLine s part l).bar = s.bar := rfl
@[simp] theorem pushLine_mem (s : State) (part : Nat) (l : Line) : (pushLine s part l).mem = s.mem := rfl
@[simp] theorem pushLine_cores (s : State) (part : Nat) (l : Line) : (pushLine s part l).cores = s.cores := rfl
@[simp] theorem pushLine_sems (s : State) (part : Nat) (l : Line) : (pushLine s part l).sems = s.sems := rfl
@[simp] theorem pushLine_hoists (s : State) (part : Nat) (l : Line) : (pushLine s part l).hoists = s.hoists := rfl
@[simp] theorem pushLine_nb (s : State) (part : Nat) (l : Line) : (pushLine s part l).nb = s.nb := rfl
@[simp] theorem pushLine_host (s : State) (part : Nat) (l : Line) : (pushLine s part l).host = s.host := rfl
@[simp] theorem pushLine_parts (s : State) (part : Nat) (l : Line) : (pushLine s part l).parts = s.parts := rfl
@[simp] theorem pushLine_fab (s : State) (part : Nat) (l : Line) : (pushLine s part l).fab = s.fab := rfl
@[simp] theorem pushLine_faults (s : State) (part : Nat) (l : Line) : (pushLine s part l).faults = s.faults := rfl
@[simp] theorem pushLine_twin (s : State) (part : Nat) (l : Line) : (pushLine s part l).twin = s.twin := rfl
@[simp] theorem pushLine_pwr (s : State) (part : Nat) (l : Line) : (pushLine s part l).pwr = s.pwr := rfl
@[simp] theorem pushLine_sec (s : State) (part : Nat) (l : Line) : (pushLine s part l).sec = s.sec := rfl
@[simp] theorem pushLine_flash (s : State) (part : Nat) (l : Line) : (pushLine s part l).flash = s.flash := rfl
@[simp] theorem pushLine_pins (s : State) (part : Nat) (l : Line) : (pushLine s part l).pins = s.pins := rfl
@[simp] theorem pushLine_trace (s : State) (part : Nat) (l : Line) : (pushLine s part l).trace = s.trace := rfl
@[simp] theorem pushLine_pending (s : State) (part : Nat) (l : Line) : (pushLine s part l).pending = s.pending := rfl

@[simp] theorem setTime_grade (s : State) (f : TimeSt → TimeSt) : (setTime s f).grade = s.grade := rfl
@[simp] theorem setTime_fresh (s : State) (f : TimeSt → TimeSt) : (setTime s f).fresh = s.fresh := rfl
@[simp] theorem setTime_bar (s : State) (f : TimeSt → TimeSt) : (setTime s f).bar = s.bar := rfl
@[simp] theorem setTime_mem (s : State) (f : TimeSt → TimeSt) : (setTime s f).mem = s.mem := rfl
@[simp] theorem setTime_cores (s : State) (f : TimeSt → TimeSt) : (setTime s f).cores = s.cores := rfl
@[simp] theorem setTime_sems (s : State) (f : TimeSt → TimeSt) : (setTime s f).sems = s.sems := rfl
@[simp] theorem setTime_hoists (s : State) (f : TimeSt → TimeSt) : (setTime s f).hoists = s.hoists := rfl
@[simp] theorem setTime_nb (s : State) (f : TimeSt → TimeSt) : (setTime s f).nb = s.nb := rfl
@[simp] theorem setTime_host (s : State) (f : TimeSt → TimeSt) : (setTime s f).host = s.host := rfl
@[simp] theorem setTime_parts (s : State) (f : TimeSt → TimeSt) : (setTime s f).parts = s.parts := rfl
@[simp] theorem setTime_se (s : State) (f : TimeSt → TimeSt) : (setTime s f).se = s.se := rfl
@[simp] theorem setTime_fab (s : State) (f : TimeSt → TimeSt) : (setTime s f).fab = s.fab := rfl
@[simp] theorem setTime_faults (s : State) (f : TimeSt → TimeSt) : (setTime s f).faults = s.faults := rfl
@[simp] theorem setTime_twin (s : State) (f : TimeSt → TimeSt) : (setTime s f).twin = s.twin := rfl
@[simp] theorem setTime_pwr (s : State) (f : TimeSt → TimeSt) : (setTime s f).pwr = s.pwr := rfl
@[simp] theorem setTime_sec (s : State) (f : TimeSt → TimeSt) : (setTime s f).sec = s.sec := rfl
@[simp] theorem setTime_flash (s : State) (f : TimeSt → TimeSt) : (setTime s f).flash = s.flash := rfl
@[simp] theorem setTime_pins (s : State) (f : TimeSt → TimeSt) : (setTime s f).pins = s.pins := rfl
@[simp] theorem setTime_trace (s : State) (f : TimeSt → TimeSt) : (setTime s f).trace = s.trace := rfl
@[simp] theorem setTime_pending (s : State) (f : TimeSt → TimeSt) : (setTime s f).pending = s.pending := rfl

@[simp] theorem flashWrite_grade (s : State) (r : FlashRec) : (flashWrite s r).grade = s.grade := rfl
@[simp] theorem flashWrite_fresh (s : State) (r : FlashRec) : (flashWrite s r).fresh = s.fresh := rfl
@[simp] theorem flashWrite_time (s : State) (r : FlashRec) : (flashWrite s r).time = s.time := rfl
@[simp] theorem flashWrite_bar (s : State) (r : FlashRec) : (flashWrite s r).bar = s.bar := rfl
@[simp] theorem flashWrite_mem (s : State) (r : FlashRec) : (flashWrite s r).mem = s.mem := rfl
@[simp] theorem flashWrite_cores (s : State) (r : FlashRec) : (flashWrite s r).cores = s.cores := rfl
@[simp] theorem flashWrite_sems (s : State) (r : FlashRec) : (flashWrite s r).sems = s.sems := rfl
@[simp] theorem flashWrite_hoists (s : State) (r : FlashRec) : (flashWrite s r).hoists = s.hoists := rfl
@[simp] theorem flashWrite_nb (s : State) (r : FlashRec) : (flashWrite s r).nb = s.nb := rfl
@[simp] theorem flashWrite_host (s : State) (r : FlashRec) : (flashWrite s r).host = s.host := rfl
@[simp] theorem flashWrite_parts (s : State) (r : FlashRec) : (flashWrite s r).parts = s.parts := rfl
@[simp] theorem flashWrite_se (s : State) (r : FlashRec) : (flashWrite s r).se = s.se := rfl
@[simp] theorem flashWrite_fab (s : State) (r : FlashRec) : (flashWrite s r).fab = s.fab := rfl
@[simp] theorem flashWrite_faults (s : State) (r : FlashRec) : (flashWrite s r).faults = s.faults := rfl
@[simp] theorem flashWrite_twin (s : State) (r : FlashRec) : (flashWrite s r).twin = s.twin := rfl
@[simp] theorem flashWrite_pwr (s : State) (r : FlashRec) : (flashWrite s r).pwr = s.pwr := rfl
@[simp] theorem flashWrite_sec (s : State) (r : FlashRec) : (flashWrite s r).sec = s.sec := rfl
@[simp] theorem flashWrite_pins (s : State) (r : FlashRec) : (flashWrite s r).pins = s.pins := rfl
@[simp] theorem flashWrite_trace (s : State) (r : FlashRec) : (flashWrite s r).trace = s.trace := rfl
@[simp] theorem flashWrite_pending (s : State) (r : FlashRec) : (flashWrite s r).pending = s.pending := rfl

@[simp] theorem putRun_grade (s : State) (part : Nat) (r : StepRun) : (putRun s part r).grade = s.grade := rfl
@[simp] theorem putRun_fresh (s : State) (part : Nat) (r : StepRun) : (putRun s part r).fresh = s.fresh := rfl
@[simp] theorem putRun_time (s : State) (part : Nat) (r : StepRun) : (putRun s part r).time = s.time := rfl
@[simp] theorem putRun_bar (s : State) (part : Nat) (r : StepRun) : (putRun s part r).bar = s.bar := rfl
@[simp] theorem putRun_mem (s : State) (part : Nat) (r : StepRun) : (putRun s part r).mem = s.mem := rfl
@[simp] theorem putRun_cores (s : State) (part : Nat) (r : StepRun) : (putRun s part r).cores = s.cores := rfl
@[simp] theorem putRun_sems (s : State) (part : Nat) (r : StepRun) : (putRun s part r).sems = s.sems := rfl
@[simp] theorem putRun_hoists (s : State) (part : Nat) (r : StepRun) : (putRun s part r).hoists = s.hoists := rfl
@[simp] theorem putRun_nb (s : State) (part : Nat) (r : StepRun) : (putRun s part r).nb = s.nb := rfl
@[simp] theorem putRun_host (s : State) (part : Nat) (r : StepRun) : (putRun s part r).host = s.host := rfl
@[simp] theorem putRun_parts (s : State) (part : Nat) (r : StepRun) : (putRun s part r).parts = s.parts := rfl
@[simp] theorem putRun_fab (s : State) (part : Nat) (r : StepRun) : (putRun s part r).fab = s.fab := rfl
@[simp] theorem putRun_faults (s : State) (part : Nat) (r : StepRun) : (putRun s part r).faults = s.faults := rfl
@[simp] theorem putRun_twin (s : State) (part : Nat) (r : StepRun) : (putRun s part r).twin = s.twin := rfl
@[simp] theorem putRun_pwr (s : State) (part : Nat) (r : StepRun) : (putRun s part r).pwr = s.pwr := rfl
@[simp] theorem putRun_sec (s : State) (part : Nat) (r : StepRun) : (putRun s part r).sec = s.sec := rfl
@[simp] theorem putRun_flash (s : State) (part : Nat) (r : StepRun) : (putRun s part r).flash = s.flash := rfl
@[simp] theorem putRun_pins (s : State) (part : Nat) (r : StepRun) : (putRun s part r).pins = s.pins := rfl
@[simp] theorem putRun_trace (s : State) (part : Nat) (r : StepRun) : (putRun s part r).trace = s.trace := rfl
@[simp] theorem putRun_pending (s : State) (part : Nat) (r : StepRun) : (putRun s part r).pending = s.pending := rfl

@[simp] theorem commitImage_grade (s : State) (kind slot : Nat) (bs : List Byte) : (commitImage s kind slot bs).grade = s.grade := rfl
@[simp] theorem commitImage_fresh (s : State) (kind slot : Nat) (bs : List Byte) : (commitImage s kind slot bs).fresh = s.fresh := rfl
@[simp] theorem commitImage_time (s : State) (kind slot : Nat) (bs : List Byte) : (commitImage s kind slot bs).time = s.time := rfl
@[simp] theorem commitImage_bar (s : State) (kind slot : Nat) (bs : List Byte) : (commitImage s kind slot bs).bar = s.bar := rfl
@[simp] theorem commitImage_mem (s : State) (kind slot : Nat) (bs : List Byte) : (commitImage s kind slot bs).mem = s.mem := rfl
@[simp] theorem commitImage_cores (s : State) (kind slot : Nat) (bs : List Byte) : (commitImage s kind slot bs).cores = s.cores := rfl
@[simp] theorem commitImage_sems (s : State) (kind slot : Nat) (bs : List Byte) : (commitImage s kind slot bs).sems = s.sems := rfl
@[simp] theorem commitImage_hoists (s : State) (kind slot : Nat) (bs : List Byte) : (commitImage s kind slot bs).hoists = s.hoists := rfl
@[simp] theorem commitImage_nb (s : State) (kind slot : Nat) (bs : List Byte) : (commitImage s kind slot bs).nb = s.nb := rfl
@[simp] theorem commitImage_host (s : State) (kind slot : Nat) (bs : List Byte) : (commitImage s kind slot bs).host = s.host := rfl
@[simp] theorem commitImage_parts (s : State) (kind slot : Nat) (bs : List Byte) : (commitImage s kind slot bs).parts = s.parts := rfl
@[simp] theorem commitImage_se (s : State) (kind slot : Nat) (bs : List Byte) : (commitImage s kind slot bs).se = s.se := rfl
@[simp] theorem commitImage_fab (s : State) (kind slot : Nat) (bs : List Byte) : (commitImage s kind slot bs).fab = s.fab := rfl
@[simp] theorem commitImage_faults (s : State) (kind slot : Nat) (bs : List Byte) : (commitImage s kind slot bs).faults = s.faults := rfl
@[simp] theorem commitImage_twin (s : State) (kind slot : Nat) (bs : List Byte) : (commitImage s kind slot bs).twin = s.twin := rfl
@[simp] theorem commitImage_pwr (s : State) (kind slot : Nat) (bs : List Byte) : (commitImage s kind slot bs).pwr = s.pwr := rfl
@[simp] theorem commitImage_sec (s : State) (kind slot : Nat) (bs : List Byte) : (commitImage s kind slot bs).sec = s.sec := rfl
@[simp] theorem commitImage_pins (s : State) (kind slot : Nat) (bs : List Byte) : (commitImage s kind slot bs).pins = s.pins := rfl
@[simp] theorem commitImage_trace (s : State) (kind slot : Nat) (bs : List Byte) : (commitImage s kind slot bs).trace = s.trace := rfl
@[simp] theorem commitImage_pending (s : State) (kind slot : Nat) (bs : List Byte) : (commitImage s kind slot bs).pending = s.pending := rfl

end Sys2Proof.Machine
end

