-- ==== Sys2Proof/Laws/FrameOps.lean ====
section
/-! SUPPORT. Frames of the shared operations over registers, semaphores, logs, device memory, home slices, trace, fabric and host memory: the pieces of the state each one leaves as they are, one lemma per operation. -/
namespace Sys2Proof.Machine

/-! ## RegMap.lean -/

@[simp] theorem wr_frame (s : State) (off : Nat) (v : W32) : (wr s off v).grade = s.grade ∧ (wr s off v).fresh = s.fresh ∧ (wr s off v).time = s.time ∧
    (wr s off v).mem = s.mem ∧ (wr s off v).cores = s.cores ∧ (wr s off v).sems = s.sems ∧ (wr s off v).hoists = s.hoists ∧ (wr s off v).nb = s.nb ∧
    (wr s off v).host = s.host ∧ (wr s off v).parts = s.parts ∧ (wr s off v).se = s.se ∧ (wr s off v).fab = s.fab ∧ (wr s off v).faults = s.faults ∧
    (wr s off v).twin = s.twin ∧ (wr s off v).pwr = s.pwr ∧ (wr s off v).sec = s.sec ∧ (wr s off v).flash = s.flash ∧ (wr s off v).pins = s.pins ∧
    (wr s off v).trace = s.trace ∧ (wr s off v).pending = s.pending := by simp [wr]

@[simp] theorem wr64_frame (s : State) (off : Nat) (v : W64) : (wr64 s off v).grade = s.grade ∧ (wr64 s off v).fresh = s.fresh ∧
    (wr64 s off v).time = s.time ∧ (wr64 s off v).mem = s.mem ∧ (wr64 s off v).cores = s.cores ∧ (wr64 s off v).sems = s.sems ∧
    (wr64 s off v).hoists = s.hoists ∧ (wr64 s off v).nb = s.nb ∧ (wr64 s off v).host = s.host ∧ (wr64 s off v).parts = s.parts ∧
    (wr64 s off v).se = s.se ∧ (wr64 s off v).fab = s.fab ∧ (wr64 s off v).faults = s.faults ∧ (wr64 s off v).twin = s.twin ∧
    (wr64 s off v).pwr = s.pwr ∧ (wr64 s off v).sec = s.sec ∧ (wr64 s off v).flash = s.flash ∧ (wr64 s off v).pins = s.pins ∧
    (wr64 s off v).trace = s.trace ∧ (wr64 s off v).pending = s.pending := by simp [wr64]

@[simp] theorem wf_frame (s : State) (off lo len v : Nat) : (wf s off lo len v).grade = s.grade ∧ (wf s off lo len v).fresh = s.fresh ∧
    (wf s off lo len v).time = s.time ∧ (wf s off lo len v).mem = s.mem ∧ (wf s off lo len v).cores = s.cores ∧ (wf s off lo len v).sems = s.sems ∧
    (wf s off lo len v).hoists = s.hoists ∧ (wf s off lo len v).nb = s.nb ∧ (wf s off lo len v).host = s.host ∧ (wf s off lo len v).parts = s.parts ∧
    (wf s off lo len v).se = s.se ∧ (wf s off lo len v).fab = s.fab ∧ (wf s off lo len v).faults = s.faults ∧ (wf s off lo len v).twin = s.twin ∧
    (wf s off lo len v).pwr = s.pwr ∧ (wf s off lo len v).sec = s.sec ∧ (wf s off lo len v).flash = s.flash ∧ (wf s off lo len v).pins = s.pins ∧
    (wf s off lo len v).trace = s.trace ∧ (wf s off lo len v).pending = s.pending := by simp [wf]

@[simp] theorem bump_frame (s : State) (off status bit n : Nat) : (bump s off status bit n).grade = s.grade ∧
    (bump s off status bit n).fresh = s.fresh ∧ (bump s off status bit n).time = s.time ∧ (bump s off status bit n).mem = s.mem ∧
    (bump s off status bit n).cores = s.cores ∧ (bump s off status bit n).sems = s.sems ∧ (bump s off status bit n).hoists = s.hoists ∧
    (bump s off status bit n).nb = s.nb ∧ (bump s off status bit n).host = s.host ∧ (bump s off status bit n).parts = s.parts ∧
    (bump s off status bit n).se = s.se ∧ (bump s off status bit n).fab = s.fab ∧ (bump s off status bit n).faults = s.faults ∧
    (bump s off status bit n).twin = s.twin ∧ (bump s off status bit n).pwr = s.pwr ∧ (bump s off status bit n).sec = s.sec ∧
    (bump s off status bit n).flash = s.flash ∧ (bump s off status bit n).pins = s.pins ∧ (bump s off status bit n).trace = s.trace ∧
    (bump s off status bit n).pending = s.pending := by simp [bump]

/-! ## Ops.lean -/

@[simp] theorem draw_frame (s : State) (w : Nat) : (draw s w).2.grade = s.grade ∧ (draw s w).2.time = s.time ∧ (draw s w).2.bar = s.bar ∧
    (draw s w).2.mem = s.mem ∧ (draw s w).2.cores = s.cores ∧ (draw s w).2.sems = s.sems ∧ (draw s w).2.hoists = s.hoists ∧ (draw s w).2.nb = s.nb ∧
    (draw s w).2.host = s.host ∧ (draw s w).2.parts = s.parts ∧ (draw s w).2.se = s.se ∧ (draw s w).2.fab = s.fab ∧ (draw s w).2.faults = s.faults ∧
    (draw s w).2.twin = s.twin ∧ (draw s w).2.pwr = s.pwr ∧ (draw s w).2.sec = s.sec ∧ (draw s w).2.flash = s.flash ∧ (draw s w).2.pins = s.pins ∧
    (draw s w).2.trace = s.trace ∧ (draw s w).2.pending = s.pending := by simp [draw]

@[simp] theorem drawBelow_frame (s : State) (n : Nat) : (drawBelow s n).2.grade = s.grade ∧ (drawBelow s n).2.time = s.time ∧
    (drawBelow s n).2.bar = s.bar ∧ (drawBelow s n).2.mem = s.mem ∧ (drawBelow s n).2.cores = s.cores ∧ (drawBelow s n).2.sems = s.sems ∧
    (drawBelow s n).2.hoists = s.hoists ∧ (drawBelow s n).2.nb = s.nb ∧ (drawBelow s n).2.host = s.host ∧ (drawBelow s n).2.parts = s.parts ∧
    (drawBelow s n).2.se = s.se ∧ (drawBelow s n).2.fab = s.fab ∧ (drawBelow s n).2.faults = s.faults ∧ (drawBelow s n).2.twin = s.twin ∧
    (drawBelow s n).2.pwr = s.pwr ∧ (drawBelow s n).2.sec = s.sec ∧ (drawBelow s n).2.flash = s.flash ∧ (drawBelow s n).2.pins = s.pins ∧
    (drawBelow s n).2.trace = s.trace ∧ (drawBelow s n).2.pending = s.pending := by simp [drawBelow]

@[simp] theorem setDevState_frame (s : State) (v : Nat) : (setDevState s v).grade = s.grade ∧ (setDevState s v).fresh = s.fresh ∧
    (setDevState s v).time = s.time ∧ (setDevState s v).mem = s.mem ∧ (setDevState s v).cores = s.cores ∧ (setDevState s v).sems = s.sems ∧
    (setDevState s v).hoists = s.hoists ∧ (setDevState s v).nb = s.nb ∧ (setDevState s v).host = s.host ∧ (setDevState s v).parts = s.parts ∧
    (setDevState s v).se = s.se ∧ (setDevState s v).fab = s.fab ∧ (setDevState s v).faults = s.faults ∧ (setDevState s v).twin = s.twin ∧
    (setDevState s v).pwr = s.pwr ∧ (setDevState s v).sec = s.sec ∧ (setDevState s v).flash = s.flash ∧ (setDevState s v).pins = s.pins ∧
    (setDevState s v).trace = s.trace ∧ (setDevState s v).pending = s.pending := by simp [setDevState]

@[simp] theorem flashWrite_frame (s : State) (r : FlashRec) : (flashWrite s r).grade = s.grade ∧ (flashWrite s r).fresh = s.fresh ∧
    (flashWrite s r).time = s.time ∧ (flashWrite s r).bar = s.bar ∧ (flashWrite s r).mem = s.mem ∧ (flashWrite s r).cores = s.cores ∧
    (flashWrite s r).sems = s.sems ∧ (flashWrite s r).hoists = s.hoists ∧ (flashWrite s r).nb = s.nb ∧ (flashWrite s r).host = s.host ∧
    (flashWrite s r).parts = s.parts ∧ (flashWrite s r).se = s.se ∧ (flashWrite s r).fab = s.fab ∧ (flashWrite s r).faults = s.faults ∧
    (flashWrite s r).twin = s.twin ∧ (flashWrite s r).pwr = s.pwr ∧ (flashWrite s r).sec = s.sec ∧ (flashWrite s r).pins = s.pins ∧
    (flashWrite s r).trace = s.trace ∧ (flashWrite s r).pending = s.pending := by simp [flashWrite]

@[simp] theorem logErr_frame (s : State) (e : ErrEnt) : (logErr s e).grade = s.grade ∧ (logErr s e).fresh = s.fresh ∧ (logErr s e).time = s.time ∧
    (logErr s e).mem = s.mem ∧ (logErr s e).cores = s.cores ∧ (logErr s e).sems = s.sems ∧ (logErr s e).hoists = s.hoists ∧ (logErr s e).nb = s.nb ∧
    (logErr s e).host = s.host ∧ (logErr s e).parts = s.parts ∧ (logErr s e).se = s.se ∧ (logErr s e).fab = s.fab ∧ (logErr s e).twin = s.twin ∧
    (logErr s e).pwr = s.pwr ∧ (logErr s e).sec = s.sec ∧ (logErr s e).flash = s.flash ∧ (logErr s e).pins = s.pins ∧
    (logErr s e).pending = s.pending := by simp [logErr]

@[simp] theorem logIll_frame (s : State) (tag subtag reason slot pc : Nat) (t : Tid) (detail : Nat) : (logIll s tag subtag reason slot pc t detail).grade = s.grade ∧
    (logIll s tag subtag reason slot pc t detail).fresh = s.fresh ∧ (logIll s tag subtag reason slot pc t detail).time = s.time ∧
    (logIll s tag subtag reason slot pc t detail).mem = s.mem ∧ (logIll s tag subtag reason slot pc t detail).cores = s.cores ∧
    (logIll s tag subtag reason slot pc t detail).sems = s.sems ∧ (logIll s tag subtag reason slot pc t detail).hoists = s.hoists ∧
    (logIll s tag subtag reason slot pc t detail).nb = s.nb ∧ (logIll s tag subtag reason slot pc t detail).host = s.host ∧
    (logIll s tag subtag reason slot pc t detail).parts = s.parts ∧ (logIll s tag subtag reason slot pc t detail).se = s.se ∧
    (logIll s tag subtag reason slot pc t detail).fab = s.fab ∧ (logIll s tag subtag reason slot pc t detail).twin = s.twin ∧
    (logIll s tag subtag reason slot pc t detail).pwr = s.pwr ∧ (logIll s tag subtag reason slot pc t detail).sec = s.sec ∧
    (logIll s tag subtag reason slot pc t detail).flash = s.flash ∧ (logIll s tag subtag reason slot pc t detail).pins = s.pins ∧
    (logIll s tag subtag reason slot pc t detail).trace = s.trace ∧
    (logIll s tag subtag reason slot pc t detail).pending = s.pending := by simp [logIll]

@[simp] theorem setSem_frame (s : State) (n : Nat) (x : Sem) : (setSem s n x).grade = s.grade ∧ (setSem s n x).fresh = s.fresh ∧
    (setSem s n x).time = s.time ∧ (setSem s n x).bar = s.bar ∧ (setSem s n x).mem = s.mem ∧ (setSem s n x).cores = s.cores ∧
    (setSem s n x).hoists = s.hoists ∧ (setSem s n x).nb = s.nb ∧ (setSem s n x).host = s.host ∧ (setSem s n x).parts = s.parts ∧
    (setSem s n x).se = s.se ∧ (setSem s n x).fab = s.fab ∧ (setSem s n x).faults = s.faults ∧ (setSem s n x).twin = s.twin ∧
    (setSem s n x).pwr = s.pwr ∧ (setSem s n x).sec = s.sec ∧ (setSem s n x).flash = s.flash ∧ (setSem s n x).pins = s.pins ∧
    (setSem s n x).trace = s.trace ∧ (setSem s n x).pending = s.pending := by simp [setSem]

@[simp] theorem setThread_frame (s : State) (t : Tid) (x : Thread) : (setThread s t x).grade = s.grade ∧ (setThread s t x).fresh = s.fresh ∧
    (setThread s t x).time = s.time ∧ (setThread s t x).bar = s.bar ∧ (setThread s t x).mem = s.mem ∧ (setThread s t x).sems = s.sems ∧
    (setThread s t x).hoists = s.hoists ∧ (setThread s t x).nb = s.nb ∧ (setThread s t x).host = s.host ∧ (setThread s t x).parts = s.parts ∧
    (setThread s t x).se = s.se ∧ (setThread s t x).fab = s.fab ∧ (setThread s t x).faults = s.faults ∧ (setThread s t x).twin = s.twin ∧
    (setThread s t x).pwr = s.pwr ∧ (setThread s t x).sec = s.sec ∧ (setThread s t x).flash = s.flash ∧ (setThread s t x).pins = s.pins ∧
    (setThread s t x).trace = s.trace ∧ (setThread s t x).pending = s.pending := by simp [setThread]

@[simp] theorem cleanTouch_frame (s : State) (tag : W32) (n : Nat) : (cleanTouch s tag n).grade = s.grade ∧ (cleanTouch s tag n).fresh = s.fresh ∧
    (cleanTouch s tag n).time = s.time ∧ (cleanTouch s tag n).bar = s.bar ∧ (cleanTouch s tag n).mem = s.mem ∧ (cleanTouch s tag n).sems = s.sems ∧
    (cleanTouch s tag n).hoists = s.hoists ∧ (cleanTouch s tag n).nb = s.nb ∧ (cleanTouch s tag n).host = s.host ∧
    (cleanTouch s tag n).parts = s.parts ∧ (cleanTouch s tag n).se = s.se ∧ (cleanTouch s tag n).fab = s.fab ∧ (cleanTouch s tag n).faults = s.faults ∧
    (cleanTouch s tag n).twin = s.twin ∧ (cleanTouch s tag n).pwr = s.pwr ∧ (cleanTouch s tag n).sec = s.sec ∧ (cleanTouch s tag n).flash = s.flash ∧
    (cleanTouch s tag n).pins = s.pins ∧ (cleanTouch s tag n).trace = s.trace ∧ (cleanTouch s tag n).pending = s.pending := by simp [cleanTouch]

@[simp] theorem wake_frame (s : State) (t : Tid) : (wake s t).grade = s.grade ∧ (wake s t).fresh = s.fresh ∧ (wake s t).time = s.time ∧
    (wake s t).bar = s.bar ∧ (wake s t).mem = s.mem ∧ (wake s t).sems = s.sems ∧ (wake s t).hoists = s.hoists ∧ (wake s t).nb = s.nb ∧
    (wake s t).host = s.host ∧ (wake s t).parts = s.parts ∧ (wake s t).se = s.se ∧ (wake s t).fab = s.fab ∧ (wake s t).faults = s.faults ∧
    (wake s t).twin = s.twin ∧ (wake s t).pwr = s.pwr ∧ (wake s t).sec = s.sec ∧ (wake s t).flash = s.flash ∧ (wake s t).pins = s.pins ∧
    (wake s t).trace = s.trace ∧ (wake s t).pending = s.pending := by
  unfold wake
  dsimp only
  repeat' split
  all_goals simp

@[simp] theorem semSatisfy_frame (s : State) (n : Nat) : (semSatisfy s n).grade = s.grade ∧ (semSatisfy s n).fresh = s.fresh ∧
    (semSatisfy s n).time = s.time ∧ (semSatisfy s n).bar = s.bar ∧ (semSatisfy s n).mem = s.mem ∧ (semSatisfy s n).hoists = s.hoists ∧
    (semSatisfy s n).nb = s.nb ∧ (semSatisfy s n).host = s.host ∧ (semSatisfy s n).parts = s.parts ∧ (semSatisfy s n).se = s.se ∧
    (semSatisfy s n).fab = s.fab ∧ (semSatisfy s n).faults = s.faults ∧ (semSatisfy s n).twin = s.twin ∧ (semSatisfy s n).pwr = s.pwr ∧
    (semSatisfy s n).sec = s.sec ∧ (semSatisfy s n).flash = s.flash ∧ (semSatisfy s n).pins = s.pins ∧ (semSatisfy s n).trace = s.trace ∧
    (semSatisfy s n).pending = s.pending := by simp [semSatisfy]

@[simp] theorem semSignal_frame (s : State) (n : Nat) (a : W64) (src : SemSrc) : (semSignal s n a src).grade = s.grade ∧
    (semSignal s n a src).fresh = s.fresh ∧ (semSignal s n a src).time = s.time ∧ (semSignal s n a src).mem = s.mem ∧
    (semSignal s n a src).hoists = s.hoists ∧ (semSignal s n a src).nb = s.nb ∧ (semSignal s n a src).host = s.host ∧
    (semSignal s n a src).parts = s.parts ∧ (semSignal s n a src).se = s.se ∧ (semSignal s n a src).fab = s.fab ∧ (semSignal s n a src).twin = s.twin ∧
    (semSignal s n a src).pwr = s.pwr ∧ (semSignal s n a src).sec = s.sec ∧ (semSignal s n a src).flash = s.flash ∧
    (semSignal s n a src).pins = s.pins ∧ (semSignal s n a src).pending = s.pending := by simp [semSignal]

@[simp] theorem semTake_frame (s : State) (n : Nat) (a : W64) : (semTake s n a).2.grade = s.grade ∧ (semTake s n a).2.fresh = s.fresh ∧
    (semTake s n a).2.time = s.time ∧ (semTake s n a).2.bar = s.bar ∧ (semTake s n a).2.mem = s.mem ∧ (semTake s n a).2.cores = s.cores ∧
    (semTake s n a).2.hoists = s.hoists ∧ (semTake s n a).2.nb = s.nb ∧ (semTake s n a).2.host = s.host ∧ (semTake s n a).2.parts = s.parts ∧
    (semTake s n a).2.se = s.se ∧ (semTake s n a).2.fab = s.fab ∧ (semTake s n a).2.faults = s.faults ∧ (semTake s n a).2.twin = s.twin ∧
    (semTake s n a).2.pwr = s.pwr ∧ (semTake s n a).2.sec = s.sec ∧ (semTake s n a).2.flash = s.flash ∧ (semTake s n a).2.pins = s.pins ∧
    (semTake s n a).2.trace = s.trace ∧ (semTake s n a).2.pending = s.pending := by simp [semTake]

@[simp] theorem semWaitOp_frame (s : State) (n : Nat) (a : W64) (t : Tid) (tag : W32) : (semWaitOp s n a t tag).grade = s.grade ∧
    (semWaitOp s n a t tag).fresh = s.fresh ∧ (semWaitOp s n a t tag).time = s.time ∧ (semWaitOp s n a t tag).bar = s.bar ∧
    (semWaitOp s n a t tag).mem = s.mem ∧ (semWaitOp s n a t tag).hoists = s.hoists ∧ (semWaitOp s n a t tag).nb = s.nb ∧
    (semWaitOp s n a t tag).host = s.host ∧ (semWaitOp s n a t tag).parts = s.parts ∧ (semWaitOp s n a t tag).se = s.se ∧
    (semWaitOp s n a t tag).fab = s.fab ∧ (semWaitOp s n a t tag).faults = s.faults ∧ (semWaitOp s n a t tag).twin = s.twin ∧
    (semWaitOp s n a t tag).pwr = s.pwr ∧ (semWaitOp s n a t tag).sec = s.sec ∧ (semWaitOp s n a t tag).flash = s.flash ∧
    (semWaitOp s n a t tag).pins = s.pins ∧ (semWaitOp s n a t tag).trace = s.trace ∧
    (semWaitOp s n a t tag).pending = s.pending := by simp [semWaitOp]

@[simp] theorem semLeave_frame (s : State) (t : Tid) : (semLeave s t).grade = s.grade ∧ (semLeave s t).fresh = s.fresh ∧ (semLeave s t).time = s.time ∧
    (semLeave s t).bar = s.bar ∧ (semLeave s t).mem = s.mem ∧ (semLeave s t).hoists = s.hoists ∧ (semLeave s t).nb = s.nb ∧
    (semLeave s t).host = s.host ∧ (semLeave s t).parts = s.parts ∧ (semLeave s t).se = s.se ∧ (semLeave s t).fab = s.fab ∧
    (semLeave s t).faults = s.faults ∧ (semLeave s t).twin = s.twin ∧ (semLeave s t).pwr = s.pwr ∧ (semLeave s t).sec = s.sec ∧
    (semLeave s t).flash = s.flash ∧ (semLeave s t).pins = s.pins ∧ (semLeave s t).trace = s.trace ∧
    (semLeave s t).pending = s.pending := by simp [semLeave]

/-! ## Memory.lean -/

@[simp] theorem setEngine_frame (s : State) (pc : Nat) (e : Engine) : (setEngine s pc e).grade = s.grade ∧ (setEngine s pc e).fresh = s.fresh ∧
    (setEngine s pc e).time = s.time ∧ (setEngine s pc e).bar = s.bar ∧ (setEngine s pc e).cores = s.cores ∧ (setEngine s pc e).sems = s.sems ∧
    (setEngine s pc e).hoists = s.hoists ∧ (setEngine s pc e).nb = s.nb ∧ (setEngine s pc e).host = s.host ∧ (setEngine s pc e).parts = s.parts ∧
    (setEngine s pc e).se = s.se ∧ (setEngine s pc e).fab = s.fab ∧ (setEngine s pc e).faults = s.faults ∧ (setEngine s pc e).twin = s.twin ∧
    (setEngine s pc e).pwr = s.pwr ∧ (setEngine s pc e).sec = s.sec ∧ (setEngine s pc e).flash = s.flash ∧ (setEngine s pc e).pins = s.pins ∧
    (setEngine s pc e).trace = s.trace ∧ (setEngine s pc e).pending = s.pending := by simp [setEngine]

@[simp] theorem setLine_frame (s : State) (ln : Nat) (c : CacheLine) : (setLine s ln c).grade = s.grade ∧ (setLine s ln c).fresh = s.fresh ∧
    (setLine s ln c).time = s.time ∧ (setLine s ln c).bar = s.bar ∧ (setLine s ln c).cores = s.cores ∧ (setLine s ln c).sems = s.sems ∧
    (setLine s ln c).hoists = s.hoists ∧ (setLine s ln c).nb = s.nb ∧ (setLine s ln c).host = s.host ∧ (setLine s ln c).parts = s.parts ∧
    (setLine s ln c).se = s.se ∧ (setLine s ln c).fab = s.fab ∧ (setLine s ln c).faults = s.faults ∧ (setLine s ln c).twin = s.twin ∧
    (setLine s ln c).pwr = s.pwr ∧ (setLine s ln c).sec = s.sec ∧ (setLine s ln c).flash = s.flash ∧ (setLine s ln c).pins = s.pins ∧
    (setLine s ln c).trace = s.trace ∧ (setLine s ln c).pending = s.pending := by simp [setLine]

@[simp] theorem setSecErr_frame (s : State) (sec : Nat) (e : SecErr) : (setSecErr s sec e).grade = s.grade ∧ (setSecErr s sec e).fresh = s.fresh ∧
    (setSecErr s sec e).time = s.time ∧ (setSecErr s sec e).bar = s.bar ∧ (setSecErr s sec e).cores = s.cores ∧ (setSecErr s sec e).sems = s.sems ∧
    (setSecErr s sec e).hoists = s.hoists ∧ (setSecErr s sec e).nb = s.nb ∧ (setSecErr s sec e).host = s.host ∧ (setSecErr s sec e).parts = s.parts ∧
    (setSecErr s sec e).se = s.se ∧ (setSecErr s sec e).fab = s.fab ∧ (setSecErr s sec e).faults = s.faults ∧ (setSecErr s sec e).twin = s.twin ∧
    (setSecErr s sec e).pwr = s.pwr ∧ (setSecErr s sec e).sec = s.sec ∧ (setSecErr s sec e).flash = s.flash ∧ (setSecErr s sec e).pins = s.pins ∧
    (setSecErr s sec e).trace = s.trace ∧ (setSecErr s sec e).pending = s.pending := by simp [setSecErr]

@[simp] theorem setDramByte_frame (s : State) (key : Nat) (b : Byte) : (setDramByte s key b).grade = s.grade ∧ (setDramByte s key b).fresh = s.fresh ∧
    (setDramByte s key b).time = s.time ∧ (setDramByte s key b).bar = s.bar ∧ (setDramByte s key b).cores = s.cores ∧
    (setDramByte s key b).sems = s.sems ∧ (setDramByte s key b).hoists = s.hoists ∧ (setDramByte s key b).nb = s.nb ∧
    (setDramByte s key b).host = s.host ∧ (setDramByte s key b).parts = s.parts ∧ (setDramByte s key b).se = s.se ∧ (setDramByte s key b).fab = s.fab ∧
    (setDramByte s key b).faults = s.faults ∧ (setDramByte s key b).twin = s.twin ∧ (setDramByte s key b).pwr = s.pwr ∧
    (setDramByte s key b).sec = s.sec ∧ (setDramByte s key b).flash = s.flash ∧ (setDramByte s key b).pins = s.pins ∧
    (setDramByte s key b).trace = s.trace ∧ (setDramByte s key b).pending = s.pending := by simp [setDramByte]

@[simp] theorem wakeBank_frame (s : State) (bank : Nat) : (wakeBank s bank).grade = s.grade ∧ (wakeBank s bank).fresh = s.fresh ∧
    (wakeBank s bank).time = s.time ∧ (wakeBank s bank).cores = s.cores ∧ (wakeBank s bank).sems = s.sems ∧ (wakeBank s bank).hoists = s.hoists ∧
    (wakeBank s bank).nb = s.nb ∧ (wakeBank s bank).host = s.host ∧ (wakeBank s bank).parts = s.parts ∧ (wakeBank s bank).se = s.se ∧
    (wakeBank s bank).fab = s.fab ∧ (wakeBank s bank).faults = s.faults ∧ (wakeBank s bank).twin = s.twin ∧ (wakeBank s bank).pwr = s.pwr ∧
    (wakeBank s bank).sec = s.sec ∧ (wakeBank s bank).flash = s.flash ∧ (wakeBank s bank).pins = s.pins ∧ (wakeBank s bank).trace = s.trace ∧
    (wakeBank s bank).pending = s.pending := by simp [wakeBank]

@[simp] theorem activate_frame (s : State) (sec : Nat) : (activate s sec).grade = s.grade ∧ (activate s sec).fresh = s.fresh ∧
    (activate s sec).time = s.time ∧ (activate s sec).cores = s.cores ∧ (activate s sec).sems = s.sems ∧ (activate s sec).hoists = s.hoists ∧
    (activate s sec).nb = s.nb ∧ (activate s sec).host = s.host ∧ (activate s sec).parts = s.parts ∧ (activate s sec).se = s.se ∧
    (activate s sec).fab = s.fab ∧ (activate s sec).faults = s.faults ∧ (activate s sec).twin = s.twin ∧ (activate s sec).pwr = s.pwr ∧
    (activate s sec).sec = s.sec ∧ (activate s sec).flash = s.flash ∧ (activate s sec).pins = s.pins ∧ (activate s sec).trace = s.trace ∧
    (activate s sec).pending = s.pending := by simp [activate]

@[simp] theorem repairWanted_frame (s : State) (rowKey : Nat) : (repairWanted s rowKey).grade = s.grade ∧ (repairWanted s rowKey).fresh = s.fresh ∧
    (repairWanted s rowKey).time = s.time ∧ (repairWanted s rowKey).bar = s.bar ∧ (repairWanted s rowKey).cores = s.cores ∧
    (repairWanted s rowKey).sems = s.sems ∧ (repairWanted s rowKey).hoists = s.hoists ∧ (repairWanted s rowKey).nb = s.nb ∧
    (repairWanted s rowKey).host = s.host ∧ (repairWanted s rowKey).parts = s.parts ∧ (repairWanted s rowKey).se = s.se ∧
    (repairWanted s rowKey).fab = s.fab ∧ (repairWanted s rowKey).faults = s.faults ∧ (repairWanted s rowKey).twin = s.twin ∧
    (repairWanted s rowKey).pwr = s.pwr ∧ (repairWanted s rowKey).sec = s.sec ∧ (repairWanted s rowKey).flash = s.flash ∧
    (repairWanted s rowKey).pins = s.pins ∧ (repairWanted s rowKey).trace = s.trace ∧
    (repairWanted s rowKey).pending = s.pending := by simp [repairWanted]

@[simp] theorem correctable_frame (s : State) (sec byte : Nat) (rq : Rq) (addr : Nat) : (correctable s sec byte rq addr).grade = s.grade ∧
    (correctable s sec byte rq addr).fresh = s.fresh ∧ (correctable s sec byte rq addr).time = s.time ∧
    (correctable s sec byte rq addr).cores = s.cores ∧ (correctable s sec byte rq addr).sems = s.sems ∧
    (correctable s sec byte rq addr).hoists = s.hoists ∧ (correctable s sec byte rq addr).nb = s.nb ∧ (correctable s sec byte rq addr).host = s.host ∧
    (correctable s sec byte rq addr).parts = s.parts ∧ (correctable s sec byte rq addr).se = s.se ∧ (correctable s sec byte rq addr).fab = s.fab ∧
    (correctable s sec byte rq addr).twin = s.twin ∧ (correctable s sec byte rq addr).pwr = s.pwr ∧ (correctable s sec byte rq addr).sec = s.sec ∧
    (correctable s sec byte rq addr).flash = s.flash ∧ (correctable s sec byte rq addr).pins = s.pins ∧
    (correctable s sec byte rq addr).pending = s.pending := by simp [correctable]

@[simp] theorem poisonLines_frame (s : State) (sec : Nat) : (poisonLines s sec).grade = s.grade ∧ (poisonLines s sec).fresh = s.fresh ∧
    (poisonLines s sec).time = s.time ∧ (poisonLines s sec).bar = s.bar ∧ (poisonLines s sec).cores = s.cores ∧ (poisonLines s sec).sems = s.sems ∧
    (poisonLines s sec).hoists = s.hoists ∧ (poisonLines s sec).nb = s.nb ∧ (poisonLines s sec).host = s.host ∧ (poisonLines s sec).parts = s.parts ∧
    (poisonLines s sec).se = s.se ∧ (poisonLines s sec).fab = s.fab ∧ (poisonLines s sec).faults = s.faults ∧ (poisonLines s sec).twin = s.twin ∧
    (poisonLines s sec).pwr = s.pwr ∧ (poisonLines s sec).sec = s.sec ∧ (poisonLines s sec).flash = s.flash ∧ (poisonLines s sec).pins = s.pins ∧
    (poisonLines s sec).trace = s.trace ∧ (poisonLines s sec).pending = s.pending := by simp [poisonLines]

@[simp] theorem tableFault_frame (s : State) (sec : Nat) : (tableFault s sec).grade = s.grade ∧ (tableFault s sec).fresh = s.fresh ∧
    (tableFault s sec).time = s.time ∧ (tableFault s sec).bar = s.bar ∧ (tableFault s sec).mem = s.mem ∧ (tableFault s sec).cores = s.cores ∧
    (tableFault s sec).sems = s.sems ∧ (tableFault s sec).hoists = s.hoists ∧ (tableFault s sec).nb = s.nb ∧ (tableFault s sec).host = s.host ∧
    (tableFault s sec).parts = s.parts ∧ (tableFault s sec).se = s.se ∧ (tableFault s sec).fab = s.fab ∧ (tableFault s sec).twin = s.twin ∧
    (tableFault s sec).pwr = s.pwr ∧ (tableFault s sec).sec = s.sec ∧ (tableFault s sec).flash = s.flash ∧ (tableFault s sec).pins = s.pins ∧
    (tableFault s sec).trace = s.trace ∧ (tableFault s sec).pending = s.pending := by
  unfold tableFault
  split <;> simp

@[simp] theorem uncorrectable_frame (s : State) (sec : Nat) (rq : Rq) (addr : Nat) : (uncorrectable s sec rq addr).grade = s.grade ∧
    (uncorrectable s sec rq addr).fresh = s.fresh ∧ (uncorrectable s sec rq addr).time = s.time ∧ (uncorrectable s sec rq addr).cores = s.cores ∧
    (uncorrectable s sec rq addr).sems = s.sems ∧ (uncorrectable s sec rq addr).hoists = s.hoists ∧ (uncorrectable s sec rq addr).nb = s.nb ∧
    (uncorrectable s sec rq addr).host = s.host ∧ (uncorrectable s sec rq addr).parts = s.parts ∧ (uncorrectable s sec rq addr).se = s.se ∧
    (uncorrectable s sec rq addr).fab = s.fab ∧ (uncorrectable s sec rq addr).twin = s.twin ∧ (uncorrectable s sec rq addr).pwr = s.pwr ∧
    (uncorrectable s sec rq addr).sec = s.sec ∧ (uncorrectable s sec rq addr).flash = s.flash ∧ (uncorrectable s sec rq addr).pins = s.pins ∧
    (uncorrectable s sec rq addr).pending = s.pending := by simp [uncorrectable]

@[simp] theorem poisonEntry_frame (s : State) (sec n : Nat) (e : ErrEnt) : (poisonEntry s sec n e).grade = s.grade ∧
    (poisonEntry s sec n e).fresh = s.fresh ∧ (poisonEntry s sec n e).time = s.time ∧ (poisonEntry s sec n e).cores = s.cores ∧
    (poisonEntry s sec n e).sems = s.sems ∧ (poisonEntry s sec n e).hoists = s.hoists ∧ (poisonEntry s sec n e).nb = s.nb ∧
    (poisonEntry s sec n e).host = s.host ∧ (poisonEntry s sec n e).parts = s.parts ∧ (poisonEntry s sec n e).se = s.se ∧
    (poisonEntry s sec n e).fab = s.fab ∧ (poisonEntry s sec n e).twin = s.twin ∧ (poisonEntry s sec n e).pwr = s.pwr ∧
    (poisonEntry s sec n e).sec = s.sec ∧ (poisonEntry s sec n e).flash = s.flash ∧ (poisonEntry s sec n e).pins = s.pins ∧
    (poisonEntry s sec n e).pending = s.pending := by simp [poisonEntry]

@[simp] theorem poisonRefusal_frame (s : State) (sec : Nat) (rq : Rq) (addr : Nat) : (poisonRefusal s sec rq addr).grade = s.grade ∧
    (poisonRefusal s sec rq addr).fresh = s.fresh ∧ (poisonRefusal s sec rq addr).time = s.time ∧ (poisonRefusal s sec rq addr).cores = s.cores ∧
    (poisonRefusal s sec rq addr).sems = s.sems ∧ (poisonRefusal s sec rq addr).hoists = s.hoists ∧ (poisonRefusal s sec rq addr).nb = s.nb ∧
    (poisonRefusal s sec rq addr).host = s.host ∧ (poisonRefusal s sec rq addr).parts = s.parts ∧ (poisonRefusal s sec rq addr).se = s.se ∧
    (poisonRefusal s sec rq addr).fab = s.fab ∧ (poisonRefusal s sec rq addr).twin = s.twin ∧ (poisonRefusal s sec rq addr).pwr = s.pwr ∧
    (poisonRefusal s sec rq addr).sec = s.sec ∧ (poisonRefusal s sec rq addr).flash = s.flash ∧ (poisonRefusal s sec rq addr).pins = s.pins ∧
    (poisonRefusal s sec rq addr).pending = s.pending := by simp [poisonRefusal]

@[simp] theorem checkSector_frame (s : State) (sec : Nat) (rq : Rq) (addr : Nat) (count : Bool) : (checkSector s sec rq addr count).2.grade = s.grade ∧
    (checkSector s sec rq addr count).2.time = s.time ∧ (checkSector s sec rq addr count).2.cores = s.cores ∧
    (checkSector s sec rq addr count).2.sems = s.sems ∧ (checkSector s sec rq addr count).2.hoists = s.hoists ∧
    (checkSector s sec rq addr count).2.nb = s.nb ∧ (checkSector s sec rq addr count).2.host = s.host ∧
    (checkSector s sec rq addr count).2.parts = s.parts ∧ (checkSector s sec rq addr count).2.se = s.se ∧
    (checkSector s sec rq addr count).2.fab = s.fab ∧ (checkSector s sec rq addr count).2.twin = s.twin ∧
    (checkSector s sec rq addr count).2.pwr = s.pwr ∧ (checkSector s sec rq addr count).2.sec = s.sec ∧
    (checkSector s sec rq addr count).2.flash = s.flash ∧ (checkSector s sec rq addr count).2.pins = s.pins ∧
    (checkSector s sec rq addr count).2.pending = s.pending := by
  unfold checkSector
  dsimp only
  repeat' split
  all_goals simp

@[simp] theorem checkSectors_frame (s : State) (secs : List Nat) (rq : Rq) (addr : Nat) (count : Bool) : (checkSectors s secs rq addr count).2.grade = s.grade ∧
    (checkSectors s secs rq addr count).2.time = s.time ∧ (checkSectors s secs rq addr count).2.cores = s.cores ∧
    (checkSectors s secs rq addr count).2.sems = s.sems ∧ (checkSectors s secs rq addr count).2.hoists = s.hoists ∧
    (checkSectors s secs rq addr count).2.nb = s.nb ∧ (checkSectors s secs rq addr count).2.host = s.host ∧
    (checkSectors s secs rq addr count).2.parts = s.parts ∧ (checkSectors s secs rq addr count).2.se = s.se ∧
    (checkSectors s secs rq addr count).2.fab = s.fab ∧ (checkSectors s secs rq addr count).2.twin = s.twin ∧
    (checkSectors s secs rq addr count).2.pwr = s.pwr ∧ (checkSectors s secs rq addr count).2.sec = s.sec ∧
    (checkSectors s secs rq addr count).2.flash = s.flash ∧ (checkSectors s secs rq addr count).2.pins = s.pins ∧
    (checkSectors s secs rq addr count).2.pending = s.pending := by simp [checkSectors]

@[simp] theorem writeSector_frame (s : State) (sec : Nat) (bs : List Byte) : (writeSector s sec bs).grade = s.grade ∧
    (writeSector s sec bs).fresh = s.fresh ∧ (writeSector s sec bs).time = s.time ∧ (writeSector s sec bs).cores = s.cores ∧
    (writeSector s sec bs).sems = s.sems ∧ (writeSector s sec bs).hoists = s.hoists ∧ (writeSector s sec bs).nb = s.nb ∧
    (writeSector s sec bs).host = s.host ∧ (writeSector s sec bs).parts = s.parts ∧ (writeSector s sec bs).se = s.se ∧
    (writeSector s sec bs).fab = s.fab ∧ (writeSector s sec bs).faults = s.faults ∧ (writeSector s sec bs).twin = s.twin ∧
    (writeSector s sec bs).pwr = s.pwr ∧ (writeSector s sec bs).sec = s.sec ∧ (writeSector s sec bs).flash = s.flash ∧
    (writeSector s sec bs).pins = s.pins ∧ (writeSector s sec bs).trace = s.trace ∧
    (writeSector s sec bs).pending = s.pending := by simp [writeSector]

@[simp] theorem writePoison_frame (s : State) (sec : Nat) : (writePoison s sec).grade = s.grade ∧ (writePoison s sec).fresh = s.fresh ∧
    (writePoison s sec).time = s.time ∧ (writePoison s sec).bar = s.bar ∧ (writePoison s sec).cores = s.cores ∧ (writePoison s sec).sems = s.sems ∧
    (writePoison s sec).hoists = s.hoists ∧ (writePoison s sec).nb = s.nb ∧ (writePoison s sec).host = s.host ∧ (writePoison s sec).parts = s.parts ∧
    (writePoison s sec).se = s.se ∧ (writePoison s sec).fab = s.fab ∧ (writePoison s sec).faults = s.faults ∧ (writePoison s sec).twin = s.twin ∧
    (writePoison s sec).pwr = s.pwr ∧ (writePoison s sec).sec = s.sec ∧ (writePoison s sec).flash = s.flash ∧ (writePoison s sec).pins = s.pins ∧
    (writePoison s sec).trace = s.trace ∧ (writePoison s sec).pending = s.pending := by simp [writePoison]

@[simp] theorem touch_frame (s : State) (bits : List (Nat × Nat)) : (touch s bits).grade = s.grade ∧ (touch s bits).fresh = s.fresh ∧
    (touch s bits).time = s.time ∧ (touch s bits).bar = s.bar ∧ (touch s bits).cores = s.cores ∧ (touch s bits).sems = s.sems ∧
    (touch s bits).hoists = s.hoists ∧ (touch s bits).nb = s.nb ∧ (touch s bits).host = s.host ∧ (touch s bits).parts = s.parts ∧
    (touch s bits).se = s.se ∧ (touch s bits).fab = s.fab ∧ (touch s bits).faults = s.faults ∧ (touch s bits).twin = s.twin ∧
    (touch s bits).pwr = s.pwr ∧ (touch s bits).sec = s.sec ∧ (touch s bits).flash = s.flash ∧ (touch s bits).pins = s.pins ∧
    (touch s bits).trace = s.trace ∧ (touch s bits).pending = s.pending := by simp [touch]

@[simp] theorem clearWord_frame (s : State) (w : Nat) : (clearWord s w).grade = s.grade ∧ (clearWord s w).fresh = s.fresh ∧
    (clearWord s w).time = s.time ∧ (clearWord s w).cores = s.cores ∧ (clearWord s w).sems = s.sems ∧ (clearWord s w).hoists = s.hoists ∧
    (clearWord s w).nb = s.nb ∧ (clearWord s w).host = s.host ∧ (clearWord s w).parts = s.parts ∧ (clearWord s w).se = s.se ∧
    (clearWord s w).fab = s.fab ∧ (clearWord s w).faults = s.faults ∧ (clearWord s w).twin = s.twin ∧ (clearWord s w).pwr = s.pwr ∧
    (clearWord s w).sec = s.sec ∧ (clearWord s w).flash = s.flash ∧ (clearWord s w).pins = s.pins ∧ (clearWord s w).trace = s.trace ∧
    (clearWord s w).pending = s.pending := by simp [clearWord]

@[simp] theorem putBitsAt_frame (s : State) (whole : List Nat) (bits : List (Nat × Nat × Bool)) (changed : List (Nat × Nat)) : (putBitsAt s whole bits changed).grade = s.grade ∧
    (putBitsAt s whole bits changed).fresh = s.fresh ∧ (putBitsAt s whole bits changed).time = s.time ∧
    (putBitsAt s whole bits changed).cores = s.cores ∧ (putBitsAt s whole bits changed).sems = s.sems ∧
    (putBitsAt s whole bits changed).hoists = s.hoists ∧ (putBitsAt s whole bits changed).nb = s.nb ∧ (putBitsAt s whole bits changed).host = s.host ∧
    (putBitsAt s whole bits changed).parts = s.parts ∧ (putBitsAt s whole bits changed).se = s.se ∧ (putBitsAt s whole bits changed).fab = s.fab ∧
    (putBitsAt s whole bits changed).faults = s.faults ∧ (putBitsAt s whole bits changed).twin = s.twin ∧ (putBitsAt s whole bits changed).pwr = s.pwr ∧
    (putBitsAt s whole bits changed).sec = s.sec ∧ (putBitsAt s whole bits changed).flash = s.flash ∧ (putBitsAt s whole bits changed).pins = s.pins ∧
    (putBitsAt s whole bits changed).trace = s.trace ∧ (putBitsAt s whole bits changed).pending = s.pending := by simp [putBitsAt]

@[simp] theorem poisonWords_frame (s : State) (words merged : List Nat) (addr : Nat) : (poisonWords s words merged addr).grade = s.grade ∧
    (poisonWords s words merged addr).fresh = s.fresh ∧ (poisonWords s words merged addr).time = s.time ∧
    (poisonWords s words merged addr).cores = s.cores ∧ (poisonWords s words merged addr).sems = s.sems ∧
    (poisonWords s words merged addr).hoists = s.hoists ∧ (poisonWords s words merged addr).nb = s.nb ∧
    (poisonWords s words merged addr).host = s.host ∧ (poisonWords s words merged addr).parts = s.parts ∧ (poisonWords s words merged addr).se = s.se ∧
    (poisonWords s words merged addr).fab = s.fab ∧ (poisonWords s words merged addr).twin = s.twin ∧ (poisonWords s words merged addr).pwr = s.pwr ∧
    (poisonWords s words merged addr).sec = s.sec ∧ (poisonWords s words merged addr).flash = s.flash ∧
    (poisonWords s words merged addr).pins = s.pins ∧ (poisonWords s words merged addr).pending = s.pending := by
  unfold poisonWords
  split <;> simp

@[simp] theorem viewWriteBack_frame (s : State) (r : Region) (v0 addr : Nat) (bytes : List (Nat × Byte)) : (viewWriteBack s r v0 addr bytes).2.grade = s.grade ∧
    (viewWriteBack s r v0 addr bytes).2.time = s.time ∧ (viewWriteBack s r v0 addr bytes).2.cores = s.cores ∧
    (viewWriteBack s r v0 addr bytes).2.sems = s.sems ∧ (viewWriteBack s r v0 addr bytes).2.hoists = s.hoists ∧
    (viewWriteBack s r v0 addr bytes).2.nb = s.nb ∧ (viewWriteBack s r v0 addr bytes).2.host = s.host ∧
    (viewWriteBack s r v0 addr bytes).2.parts = s.parts ∧ (viewWriteBack s r v0 addr bytes).2.se = s.se ∧
    (viewWriteBack s r v0 addr bytes).2.fab = s.fab ∧ (viewWriteBack s r v0 addr bytes).2.twin = s.twin ∧
    (viewWriteBack s r v0 addr bytes).2.pwr = s.pwr ∧ (viewWriteBack s r v0 addr bytes).2.sec = s.sec ∧
    (viewWriteBack s r v0 addr bytes).2.flash = s.flash ∧ (viewWriteBack s r v0 addr bytes).2.pins = s.pins ∧
    (viewWriteBack s r v0 addr bytes).2.pending = s.pending := by simp [viewWriteBack]

/-! ## HomeSlice.lean -/

@[simp] theorem setLru_frame (s : State) (k : Nat) (xs : List Nat) : (setLru s k xs).grade = s.grade ∧ (setLru s k xs).fresh = s.fresh ∧
    (setLru s k xs).time = s.time ∧ (setLru s k xs).bar = s.bar ∧ (setLru s k xs).cores = s.cores ∧ (setLru s k xs).sems = s.sems ∧
    (setLru s k xs).hoists = s.hoists ∧ (setLru s k xs).nb = s.nb ∧ (setLru s k xs).host = s.host ∧ (setLru s k xs).parts = s.parts ∧
    (setLru s k xs).se = s.se ∧ (setLru s k xs).fab = s.fab ∧ (setLru s k xs).faults = s.faults ∧ (setLru s k xs).twin = s.twin ∧
    (setLru s k xs).pwr = s.pwr ∧ (setLru s k xs).sec = s.sec ∧ (setLru s k xs).flash = s.flash ∧ (setLru s k xs).pins = s.pins ∧
    (setLru s k xs).trace = s.trace ∧ (setLru s k xs).pending = s.pending := by simp [setLru]

@[simp] theorem touchLine_frame (s : State) (ln : Nat) : (touchLine s ln).grade = s.grade ∧ (touchLine s ln).fresh = s.fresh ∧
    (touchLine s ln).time = s.time ∧ (touchLine s ln).bar = s.bar ∧ (touchLine s ln).cores = s.cores ∧ (touchLine s ln).sems = s.sems ∧
    (touchLine s ln).hoists = s.hoists ∧ (touchLine s ln).nb = s.nb ∧ (touchLine s ln).host = s.host ∧ (touchLine s ln).parts = s.parts ∧
    (touchLine s ln).se = s.se ∧ (touchLine s ln).fab = s.fab ∧ (touchLine s ln).faults = s.faults ∧ (touchLine s ln).twin = s.twin ∧
    (touchLine s ln).pwr = s.pwr ∧ (touchLine s ln).sec = s.sec ∧ (touchLine s ln).flash = s.flash ∧ (touchLine s ln).pins = s.pins ∧
    (touchLine s ln).trace = s.trace ∧ (touchLine s ln).pending = s.pending := by simp [touchLine]

@[simp] theorem dropLine_frame (s : State) (ln : Nat) : (dropLine s ln).grade = s.grade ∧ (dropLine s ln).fresh = s.fresh ∧
    (dropLine s ln).time = s.time ∧ (dropLine s ln).bar = s.bar ∧ (dropLine s ln).cores = s.cores ∧ (dropLine s ln).sems = s.sems ∧
    (dropLine s ln).hoists = s.hoists ∧ (dropLine s ln).nb = s.nb ∧ (dropLine s ln).host = s.host ∧ (dropLine s ln).parts = s.parts ∧
    (dropLine s ln).se = s.se ∧ (dropLine s ln).fab = s.fab ∧ (dropLine s ln).faults = s.faults ∧ (dropLine s ln).twin = s.twin ∧
    (dropLine s ln).pwr = s.pwr ∧ (dropLine s ln).sec = s.sec ∧ (dropLine s ln).flash = s.flash ∧ (dropLine s ln).pins = s.pins ∧
    (dropLine s ln).trace = s.trace ∧ (dropLine s ln).pending = s.pending := by simp [dropLine]

@[simp] theorem writeLine_frame (s : State) (ln : Nat) (data : BitVec 512) (dirty : BitVec 2) : (writeLine s ln data dirty).grade = s.grade ∧
    (writeLine s ln data dirty).time = s.time ∧ (writeLine s ln data dirty).cores = s.cores ∧ (writeLine s ln data dirty).sems = s.sems ∧
    (writeLine s ln data dirty).hoists = s.hoists ∧ (writeLine s ln data dirty).nb = s.nb ∧ (writeLine s ln data dirty).host = s.host ∧
    (writeLine s ln data dirty).parts = s.parts ∧ (writeLine s ln data dirty).se = s.se ∧ (writeLine s ln data dirty).fab = s.fab ∧
    (writeLine s ln data dirty).twin = s.twin ∧ (writeLine s ln data dirty).pwr = s.pwr ∧ (writeLine s ln data dirty).sec = s.sec ∧
    (writeLine s ln data dirty).flash = s.flash ∧ (writeLine s ln data dirty).pins = s.pins ∧ (writeLine s ln data dirty).pending = s.pending := by
  unfold writeLine
  dsimp only
  repeat' split
  all_goals simp

@[simp] theorem countHeld_frame (s : State) (secs : List Nat) : (countHeld s secs).grade = s.grade ∧ (countHeld s secs).fresh = s.fresh ∧
    (countHeld s secs).time = s.time ∧ (countHeld s secs).mem = s.mem ∧ (countHeld s secs).cores = s.cores ∧ (countHeld s secs).sems = s.sems ∧
    (countHeld s secs).hoists = s.hoists ∧ (countHeld s secs).nb = s.nb ∧ (countHeld s secs).host = s.host ∧ (countHeld s secs).parts = s.parts ∧
    (countHeld s secs).se = s.se ∧ (countHeld s secs).fab = s.fab ∧ (countHeld s secs).faults = s.faults ∧ (countHeld s secs).twin = s.twin ∧
    (countHeld s secs).pwr = s.pwr ∧ (countHeld s secs).sec = s.sec ∧ (countHeld s secs).flash = s.flash ∧ (countHeld s secs).pins = s.pins ∧
    (countHeld s secs).trace = s.trace ∧ (countHeld s secs).pending = s.pending := by
  unfold countHeld
  split <;> simp

@[simp] theorem drainWrites_frame (s : State) (pc : Nat) : (drainWrites s pc).grade = s.grade ∧ (drainWrites s pc).time = s.time ∧
    (drainWrites s pc).cores = s.cores ∧ (drainWrites s pc).sems = s.sems ∧ (drainWrites s pc).hoists = s.hoists ∧ (drainWrites s pc).nb = s.nb ∧
    (drainWrites s pc).host = s.host ∧ (drainWrites s pc).parts = s.parts ∧ (drainWrites s pc).se = s.se ∧ (drainWrites s pc).fab = s.fab ∧
    (drainWrites s pc).twin = s.twin ∧ (drainWrites s pc).pwr = s.pwr ∧ (drainWrites s pc).sec = s.sec ∧ (drainWrites s pc).flash = s.flash ∧
    (drainWrites s pc).pins = s.pins ∧ (drainWrites s pc).pending = s.pending := by simp [drainWrites]

@[simp] theorem queueWriteBack_frame (s : State) (ln : Nat) (c : CacheLine) : (queueWriteBack s ln c).grade = s.grade ∧
    (queueWriteBack s ln c).time = s.time ∧ (queueWriteBack s ln c).cores = s.cores ∧ (queueWriteBack s ln c).sems = s.sems ∧
    (queueWriteBack s ln c).hoists = s.hoists ∧ (queueWriteBack s ln c).nb = s.nb ∧ (queueWriteBack s ln c).host = s.host ∧
    (queueWriteBack s ln c).parts = s.parts ∧ (queueWriteBack s ln c).se = s.se ∧ (queueWriteBack s ln c).fab = s.fab ∧
    (queueWriteBack s ln c).twin = s.twin ∧ (queueWriteBack s ln c).pwr = s.pwr ∧ (queueWriteBack s ln c).sec = s.sec ∧
    (queueWriteBack s ln c).flash = s.flash ∧ (queueWriteBack s ln c).pins = s.pins ∧
    (queueWriteBack s ln c).pending = s.pending := by simp [queueWriteBack]

@[simp] theorem evictLine_frame (s : State) (ln : Nat) : (evictLine s ln).grade = s.grade ∧ (evictLine s ln).time = s.time ∧
    (evictLine s ln).cores = s.cores ∧ (evictLine s ln).sems = s.sems ∧ (evictLine s ln).hoists = s.hoists ∧ (evictLine s ln).nb = s.nb ∧
    (evictLine s ln).host = s.host ∧ (evictLine s ln).parts = s.parts ∧ (evictLine s ln).se = s.se ∧ (evictLine s ln).fab = s.fab ∧
    (evictLine s ln).twin = s.twin ∧ (evictLine s ln).pwr = s.pwr ∧ (evictLine s ln).sec = s.sec ∧ (evictLine s ln).flash = s.flash ∧
    (evictLine s ln).pins = s.pins ∧ (evictLine s ln).pending = s.pending := by simp [evictLine]

@[simp] theorem allocLine_frame (s : State) (ln : Nat) : (allocLine s ln).grade = s.grade ∧ (allocLine s ln).time = s.time ∧
    (allocLine s ln).cores = s.cores ∧ (allocLine s ln).sems = s.sems ∧ (allocLine s ln).hoists = s.hoists ∧ (allocLine s ln).nb = s.nb ∧
    (allocLine s ln).host = s.host ∧ (allocLine s ln).parts = s.parts ∧ (allocLine s ln).se = s.se ∧ (allocLine s ln).fab = s.fab ∧
    (allocLine s ln).twin = s.twin ∧ (allocLine s ln).pwr = s.pwr ∧ (allocLine s ln).sec = s.sec ∧ (allocLine s ln).flash = s.flash ∧
    (allocLine s ln).pins = s.pins ∧ (allocLine s ln).pending = s.pending := by simp [allocLine]

@[simp] theorem flushLine_frame (s : State) (ln : Nat) : (flushLine s ln).grade = s.grade ∧ (flushLine s ln).time = s.time ∧
    (flushLine s ln).cores = s.cores ∧ (flushLine s ln).sems = s.sems ∧ (flushLine s ln).hoists = s.hoists ∧ (flushLine s ln).nb = s.nb ∧
    (flushLine s ln).host = s.host ∧ (flushLine s ln).parts = s.parts ∧ (flushLine s ln).se = s.se ∧ (flushLine s ln).fab = s.fab ∧
    (flushLine s ln).twin = s.twin ∧ (flushLine s ln).pwr = s.pwr ∧ (flushLine s ln).sec = s.sec ∧ (flushLine s ln).flash = s.flash ∧
    (flushLine s ln).pins = s.pins ∧ (flushLine s ln).pending = s.pending := by simp [flushLine]

@[simp] theorem viewSectorFetch_frame (s : State) (r : Region) (v a : Nat) (rq : Rq) : (viewSectorFetch s r v a rq).2.2.grade = s.grade ∧
    (viewSectorFetch s r v a rq).2.2.time = s.time ∧ (viewSectorFetch s r v a rq).2.2.cores = s.cores ∧ (viewSectorFetch s r v a rq).2.2.sems = s.sems ∧
    (viewSectorFetch s r v a rq).2.2.hoists = s.hoists ∧ (viewSectorFetch s r v a rq).2.2.nb = s.nb ∧ (viewSectorFetch s r v a rq).2.2.host = s.host ∧
    (viewSectorFetch s r v a rq).2.2.parts = s.parts ∧ (viewSectorFetch s r v a rq).2.2.se = s.se ∧ (viewSectorFetch s r v a rq).2.2.fab = s.fab ∧
    (viewSectorFetch s r v a rq).2.2.twin = s.twin ∧ (viewSectorFetch s r v a rq).2.2.pwr = s.pwr ∧ (viewSectorFetch s r v a rq).2.2.sec = s.sec ∧
    (viewSectorFetch s r v a rq).2.2.flash = s.flash ∧ (viewSectorFetch s r v a rq).2.2.pins = s.pins ∧
    (viewSectorFetch s r v a rq).2.2.pending = s.pending := by simp [viewSectorFetch]

@[simp] theorem fetchSector_frame (s : State) (a : Nat) (rq : Rq) : (fetchSector s a rq).2.2.grade = s.grade ∧ (fetchSector s a rq).2.2.time = s.time ∧
    (fetchSector s a rq).2.2.cores = s.cores ∧ (fetchSector s a rq).2.2.sems = s.sems ∧ (fetchSector s a rq).2.2.hoists = s.hoists ∧
    (fetchSector s a rq).2.2.nb = s.nb ∧ (fetchSector s a rq).2.2.host = s.host ∧ (fetchSector s a rq).2.2.parts = s.parts ∧
    (fetchSector s a rq).2.2.se = s.se ∧ (fetchSector s a rq).2.2.fab = s.fab ∧ (fetchSector s a rq).2.2.twin = s.twin ∧
    (fetchSector s a rq).2.2.pwr = s.pwr ∧ (fetchSector s a rq).2.2.sec = s.sec ∧ (fetchSector s a rq).2.2.flash = s.flash ∧
    (fetchSector s a rq).2.2.pins = s.pins ∧ (fetchSector s a rq).2.2.pending = s.pending := by
  unfold fetchSector
  dsimp only
  repeat' split
  all_goals simp

@[simp] theorem fillSector_frame (s : State) (a : Nat) (rq : Rq) : (fillSector s a rq).2.grade = s.grade ∧ (fillSector s a rq).2.time = s.time ∧
    (fillSector s a rq).2.cores = s.cores ∧ (fillSector s a rq).2.sems = s.sems ∧ (fillSector s a rq).2.hoists = s.hoists ∧
    (fillSector s a rq).2.nb = s.nb ∧ (fillSector s a rq).2.host = s.host ∧ (fillSector s a rq).2.parts = s.parts ∧ (fillSector s a rq).2.se = s.se ∧
    (fillSector s a rq).2.fab = s.fab ∧ (fillSector s a rq).2.twin = s.twin ∧ (fillSector s a rq).2.pwr = s.pwr ∧ (fillSector s a rq).2.sec = s.sec ∧
    (fillSector s a rq).2.flash = s.flash ∧ (fillSector s a rq).2.pins = s.pins ∧ (fillSector s a rq).2.pending = s.pending := by simp [fillSector]

@[simp] theorem sliceRead_frame (s : State) (a : Nat) (rq : Rq) : (sliceRead s a rq).2.2.grade = s.grade ∧ (sliceRead s a rq).2.2.time = s.time ∧
    (sliceRead s a rq).2.2.cores = s.cores ∧ (sliceRead s a rq).2.2.sems = s.sems ∧ (sliceRead s a rq).2.2.hoists = s.hoists ∧
    (sliceRead s a rq).2.2.nb = s.nb ∧ (sliceRead s a rq).2.2.host = s.host ∧ (sliceRead s a rq).2.2.parts = s.parts ∧
    (sliceRead s a rq).2.2.se = s.se ∧ (sliceRead s a rq).2.2.fab = s.fab ∧ (sliceRead s a rq).2.2.twin = s.twin ∧ (sliceRead s a rq).2.2.pwr = s.pwr ∧
    (sliceRead s a rq).2.2.sec = s.sec ∧ (sliceRead s a rq).2.2.flash = s.flash ∧ (sliceRead s a rq).2.2.pins = s.pins ∧
    (sliceRead s a rq).2.2.pending = s.pending := by simp [sliceRead]

@[simp] theorem sliceWrite_frame (s : State) (a : Nat) (new : List Byte) (mask : BitVec 32) (rq : Rq) : (sliceWrite s a new mask rq).2.grade = s.grade ∧
    (sliceWrite s a new mask rq).2.time = s.time ∧ (sliceWrite s a new mask rq).2.cores = s.cores ∧ (sliceWrite s a new mask rq).2.sems = s.sems ∧
    (sliceWrite s a new mask rq).2.hoists = s.hoists ∧ (sliceWrite s a new mask rq).2.nb = s.nb ∧ (sliceWrite s a new mask rq).2.host = s.host ∧
    (sliceWrite s a new mask rq).2.parts = s.parts ∧ (sliceWrite s a new mask rq).2.se = s.se ∧ (sliceWrite s a new mask rq).2.fab = s.fab ∧
    (sliceWrite s a new mask rq).2.twin = s.twin ∧ (sliceWrite s a new mask rq).2.pwr = s.pwr ∧ (sliceWrite s a new mask rq).2.sec = s.sec ∧
    (sliceWrite s a new mask rq).2.flash = s.flash ∧ (sliceWrite s a new mask rq).2.pins = s.pins ∧
    (sliceWrite s a new mask rq).2.pending = s.pending := by simp [sliceWrite]

@[simp] theorem devRead_frame (s : State) (a n : Nat) (rq : Rq) : (devRead s a n rq).2.2.grade = s.grade ∧ (devRead s a n rq).2.2.time = s.time ∧
    (devRead s a n rq).2.2.cores = s.cores ∧ (devRead s a n rq).2.2.sems = s.sems ∧ (devRead s a n rq).2.2.hoists = s.hoists ∧
    (devRead s a n rq).2.2.nb = s.nb ∧ (devRead s a n rq).2.2.host = s.host ∧ (devRead s a n rq).2.2.parts = s.parts ∧
    (devRead s a n rq).2.2.se = s.se ∧ (devRead s a n rq).2.2.fab = s.fab ∧ (devRead s a n rq).2.2.twin = s.twin ∧ (devRead s a n rq).2.2.pwr = s.pwr ∧
    (devRead s a n rq).2.2.sec = s.sec ∧ (devRead s a n rq).2.2.flash = s.flash ∧ (devRead s a n rq).2.2.pins = s.pins ∧
    (devRead s a n rq).2.2.pending = s.pending := by simp [devRead]

@[simp] theorem devWrite_frame (s : State) (a : Nat) (bs : List Byte) (rq : Rq) : (devWrite s a bs rq).2.grade = s.grade ∧
    (devWrite s a bs rq).2.time = s.time ∧ (devWrite s a bs rq).2.cores = s.cores ∧ (devWrite s a bs rq).2.sems = s.sems ∧
    (devWrite s a bs rq).2.hoists = s.hoists ∧ (devWrite s a bs rq).2.nb = s.nb ∧ (devWrite s a bs rq).2.host = s.host ∧
    (devWrite s a bs rq).2.parts = s.parts ∧ (devWrite s a bs rq).2.se = s.se ∧ (devWrite s a bs rq).2.fab = s.fab ∧
    (devWrite s a bs rq).2.twin = s.twin ∧ (devWrite s a bs rq).2.pwr = s.pwr ∧ (devWrite s a bs rq).2.sec = s.sec ∧
    (devWrite s a bs rq).2.flash = s.flash ∧ (devWrite s a bs rq).2.pins = s.pins ∧ (devWrite s a bs rq).2.pending = s.pending := by simp [devWrite]

@[simp] theorem devReadNat_frame (s : State) (a n : Nat) (rq : Rq) : (devReadNat s a n rq).2.2.grade = s.grade ∧
    (devReadNat s a n rq).2.2.time = s.time ∧ (devReadNat s a n rq).2.2.cores = s.cores ∧ (devReadNat s a n rq).2.2.sems = s.sems ∧
    (devReadNat s a n rq).2.2.hoists = s.hoists ∧ (devReadNat s a n rq).2.2.nb = s.nb ∧ (devReadNat s a n rq).2.2.host = s.host ∧
    (devReadNat s a n rq).2.2.parts = s.parts ∧ (devReadNat s a n rq).2.2.se = s.se ∧ (devReadNat s a n rq).2.2.fab = s.fab ∧
    (devReadNat s a n rq).2.2.twin = s.twin ∧ (devReadNat s a n rq).2.2.pwr = s.pwr ∧ (devReadNat s a n rq).2.2.sec = s.sec ∧
    (devReadNat s a n rq).2.2.flash = s.flash ∧ (devReadNat s a n rq).2.2.pins = s.pins ∧
    (devReadNat s a n rq).2.2.pending = s.pending := by simp [devReadNat]

@[simp] theorem addressRefused_frame (s : State) (rq : Rq) (a : Nat) : (addressRefused s rq a).grade = s.grade ∧
    (addressRefused s rq a).fresh = s.fresh ∧ (addressRefused s rq a).time = s.time ∧ (addressRefused s rq a).mem = s.mem ∧
    (addressRefused s rq a).cores = s.cores ∧ (addressRefused s rq a).sems = s.sems ∧ (addressRefused s rq a).hoists = s.hoists ∧
    (addressRefused s rq a).nb = s.nb ∧ (addressRefused s rq a).host = s.host ∧ (addressRefused s rq a).parts = s.parts ∧
    (addressRefused s rq a).se = s.se ∧ (addressRefused s rq a).fab = s.fab ∧ (addressRefused s rq a).twin = s.twin ∧
    (addressRefused s rq a).pwr = s.pwr ∧ (addressRefused s rq a).sec = s.sec ∧ (addressRefused s rq a).flash = s.flash ∧
    (addressRefused s rq a).pins = s.pins ∧ (addressRefused s rq a).pending = s.pending := by simp [addressRefused]

/-! ## TraceOps.lean -/

@[simp] theorem traceEvent_frame (s : State) (ev : Nat) (tag : W32) (subtag part source aux arg0 arg1 : Nat) : (traceEvent s ev tag subtag part source aux arg0 arg1).grade = s.grade ∧
    (traceEvent s ev tag subtag part source aux arg0 arg1).time = s.time ∧ (traceEvent s ev tag subtag part source aux arg0 arg1).cores = s.cores ∧
    (traceEvent s ev tag subtag part source aux arg0 arg1).sems = s.sems ∧ (traceEvent s ev tag subtag part source aux arg0 arg1).hoists = s.hoists ∧
    (traceEvent s ev tag subtag part source aux arg0 arg1).nb = s.nb ∧ (traceEvent s ev tag subtag part source aux arg0 arg1).host = s.host ∧
    (traceEvent s ev tag subtag part source aux arg0 arg1).parts = s.parts ∧ (traceEvent s ev tag subtag part source aux arg0 arg1).se = s.se ∧
    (traceEvent s ev tag subtag part source aux arg0 arg1).fab = s.fab ∧ (traceEvent s ev tag subtag part source aux arg0 arg1).twin = s.twin ∧
    (traceEvent s ev tag subtag part source aux arg0 arg1).pwr = s.pwr ∧ (traceEvent s ev tag subtag part source aux arg0 arg1).sec = s.sec ∧
    (traceEvent s ev tag subtag part source aux arg0 arg1).flash = s.flash ∧ (traceEvent s ev tag subtag part source aux arg0 arg1).pins = s.pins ∧
    (traceEvent s ev tag subtag part source aux arg0 arg1).pending = s.pending := by simp [traceEvent]

/-! ## FabricOps.lean -/

@[simp] theorem setFlow_frame (s : State) (f : Flow) : (setFlow s f).grade = s.grade ∧ (setFlow s f).fresh = s.fresh ∧ (setFlow s f).time = s.time ∧
    (setFlow s f).bar = s.bar ∧ (setFlow s f).mem = s.mem ∧ (setFlow s f).cores = s.cores ∧ (setFlow s f).sems = s.sems ∧
    (setFlow s f).hoists = s.hoists ∧ (setFlow s f).nb = s.nb ∧ (setFlow s f).host = s.host ∧ (setFlow s f).parts = s.parts ∧ (setFlow s f).se = s.se ∧
    (setFlow s f).faults = s.faults ∧ (setFlow s f).twin = s.twin ∧ (setFlow s f).pwr = s.pwr ∧ (setFlow s f).sec = s.sec ∧
    (setFlow s f).flash = s.flash ∧ (setFlow s f).pins = s.pins ∧ (setFlow s f).trace = s.trace ∧
    (setFlow s f).pending = s.pending := by simp [setFlow]

@[simp] theorem txPush_frame (s : State) (f : TxFrame) : (txPush s f).grade = s.grade ∧ (txPush s f).fresh = s.fresh ∧ (txPush s f).time = s.time ∧
    (txPush s f).bar = s.bar ∧ (txPush s f).mem = s.mem ∧ (txPush s f).cores = s.cores ∧ (txPush s f).sems = s.sems ∧ (txPush s f).hoists = s.hoists ∧
    (txPush s f).nb = s.nb ∧ (txPush s f).host = s.host ∧ (txPush s f).parts = s.parts ∧ (txPush s f).se = s.se ∧ (txPush s f).faults = s.faults ∧
    (txPush s f).twin = s.twin ∧ (txPush s f).pwr = s.pwr ∧ (txPush s f).sec = s.sec ∧ (txPush s f).flash = s.flash ∧ (txPush s f).pins = s.pins ∧
    (txPush s f).trace = s.trace ∧ (txPush s f).pending = s.pending := by simp [txPush]

@[simp] theorem notePaths_frame (s : State) : (notePaths s).grade = s.grade ∧ (notePaths s).fresh = s.fresh ∧ (notePaths s).time = s.time ∧
    (notePaths s).bar = s.bar ∧ (notePaths s).mem = s.mem ∧ (notePaths s).cores = s.cores ∧ (notePaths s).sems = s.sems ∧
    (notePaths s).hoists = s.hoists ∧ (notePaths s).nb = s.nb ∧ (notePaths s).host = s.host ∧ (notePaths s).parts = s.parts ∧
    (notePaths s).se = s.se ∧ (notePaths s).faults = s.faults ∧ (notePaths s).twin = s.twin ∧ (notePaths s).pwr = s.pwr ∧ (notePaths s).sec = s.sec ∧
    (notePaths s).flash = s.flash ∧ (notePaths s).pins = s.pins ∧ (notePaths s).trace = s.trace ∧ (notePaths s).pending = s.pending := by simp [notePaths]

@[simp] theorem txQueue_frame (s : State) (k n : Nat) : (txQueue s k n).grade = s.grade ∧ (txQueue s k n).fresh = s.fresh ∧
    (txQueue s k n).time = s.time ∧ (txQueue s k n).bar = s.bar ∧ (txQueue s k n).mem = s.mem ∧ (txQueue s k n).cores = s.cores ∧
    (txQueue s k n).sems = s.sems ∧ (txQueue s k n).hoists = s.hoists ∧ (txQueue s k n).nb = s.nb ∧ (txQueue s k n).host = s.host ∧
    (txQueue s k n).parts = s.parts ∧ (txQueue s k n).se = s.se ∧ (txQueue s k n).faults = s.faults ∧ (txQueue s k n).twin = s.twin ∧
    (txQueue s k n).pwr = s.pwr ∧ (txQueue s k n).sec = s.sec ∧ (txQueue s k n).flash = s.flash ∧ (txQueue s k n).pins = s.pins ∧
    (txQueue s k n).trace = s.trace ∧ (txQueue s k n).pending = s.pending := by simp [txQueue]

@[simp] theorem sendOut_frame (s : State) (w : Wire) (f : TxFrame) (n : Nat) : (sendOut s w f n).grade = s.grade ∧
    (sendOut s w f n).fresh = s.fresh ∧ (sendOut s w f n).time = s.time ∧ (sendOut s w f n).bar = s.bar ∧ (sendOut s w f n).mem = s.mem ∧
    (sendOut s w f n).cores = s.cores ∧ (sendOut s w f n).sems = s.sems ∧ (sendOut s w f n).hoists = s.hoists ∧ (sendOut s w f n).nb = s.nb ∧
    (sendOut s w f n).host = s.host ∧ (sendOut s w f n).parts = s.parts ∧ (sendOut s w f n).se = s.se ∧ (sendOut s w f n).faults = s.faults ∧
    (sendOut s w f n).twin = s.twin ∧ (sendOut s w f n).pwr = s.pwr ∧ (sendOut s w f n).sec = s.sec ∧ (sendOut s w f n).flash = s.flash ∧
    (sendOut s w f n).pins = s.pins ∧ (sendOut s w f n).trace = s.trace ∧ (sendOut s w f n).pending = s.pending := by
  unfold sendOut
  dsimp only
  repeat' split
  all_goals simp

@[simp] theorem bucketCharge_frame (s : State) (part b n : Nat) : (bucketCharge s part b n).grade = s.grade ∧
    (bucketCharge s part b n).fresh = s.fresh ∧ (bucketCharge s part b n).time = s.time ∧ (bucketCharge s part b n).bar = s.bar ∧
    (bucketCharge s part b n).mem = s.mem ∧ (bucketCharge s part b n).cores = s.cores ∧ (bucketCharge s part b n).sems = s.sems ∧
    (bucketCharge s part b n).hoists = s.hoists ∧ (bucketCharge s part b n).nb = s.nb ∧ (bucketCharge s part b n).host = s.host ∧
    (bucketCharge s part b n).se = s.se ∧ (bucketCharge s part b n).fab = s.fab ∧ (bucketCharge s part b n).faults = s.faults ∧
    (bucketCharge s part b n).twin = s.twin ∧ (bucketCharge s part b n).pwr = s.pwr ∧ (bucketCharge s part b n).sec = s.sec ∧
    (bucketCharge s part b n).flash = s.flash ∧ (bucketCharge s part b n).pins = s.pins ∧ (bucketCharge s part b n).trace = s.trace ∧
    (bucketCharge s part b n).pending = s.pending := by
  unfold bucketCharge
  split <;> simp

@[simp] theorem chargeBytes_frame (s : State) (part : Nat) (as : List Nat) : (chargeBytes s part as).grade = s.grade ∧
    (chargeBytes s part as).fresh = s.fresh ∧ (chargeBytes s part as).time = s.time ∧ (chargeBytes s part as).bar = s.bar ∧
    (chargeBytes s part as).mem = s.mem ∧ (chargeBytes s part as).cores = s.cores ∧ (chargeBytes s part as).sems = s.sems ∧
    (chargeBytes s part as).hoists = s.hoists ∧ (chargeBytes s part as).nb = s.nb ∧ (chargeBytes s part as).host = s.host ∧
    (chargeBytes s part as).se = s.se ∧ (chargeBytes s part as).fab = s.fab ∧ (chargeBytes s part as).faults = s.faults ∧
    (chargeBytes s part as).twin = s.twin ∧ (chargeBytes s part as).pwr = s.pwr ∧ (chargeBytes s part as).sec = s.sec ∧
    (chargeBytes s part as).flash = s.flash ∧ (chargeBytes s part as).pins = s.pins ∧ (chargeBytes s part as).trace = s.trace ∧
    (chargeBytes s part as).pending = s.pending := by simp [chargeBytes]

@[simp] theorem sendData_frame (s : State) (f : Flow) (x : Sent) (path : Nat) (retx : Bool) : (sendData s f x path retx).grade = s.grade ∧
    (sendData s f x path retx).fresh = s.fresh ∧ (sendData s f x path retx).time = s.time ∧ (sendData s f x path retx).mem = s.mem ∧
    (sendData s f x path retx).cores = s.cores ∧ (sendData s f x path retx).sems = s.sems ∧ (sendData s f x path retx).hoists = s.hoists ∧
    (sendData s f x path retx).nb = s.nb ∧ (sendData s f x path retx).host = s.host ∧ (sendData s f x path retx).parts = s.parts ∧
    (sendData s f x path retx).se = s.se ∧ (sendData s f x path retx).faults = s.faults ∧ (sendData s f x path retx).twin = s.twin ∧
    (sendData s f x path retx).pwr = s.pwr ∧ (sendData s f x path retx).sec = s.sec ∧ (sendData s f x path retx).flash = s.flash ∧
    (sendData s f x path retx).pins = s.pins ∧ (sendData s f x path retx).trace = s.trace ∧ (sendData s f x path retx).pending = s.pending := by
  unfold sendData
  dsimp only
  repeat' split
  all_goals simp

@[simp] theorem pumpFlow_frame (s : State) (peer cls fuel : Nat) : (pumpFlow s peer cls fuel).grade = s.grade ∧
    (pumpFlow s peer cls fuel).fresh = s.fresh ∧ (pumpFlow s peer cls fuel).time = s.time ∧ (pumpFlow s peer cls fuel).mem = s.mem ∧
    (pumpFlow s peer cls fuel).cores = s.cores ∧ (pumpFlow s peer cls fuel).sems = s.sems ∧ (pumpFlow s peer cls fuel).hoists = s.hoists ∧
    (pumpFlow s peer cls fuel).nb = s.nb ∧ (pumpFlow s peer cls fuel).host = s.host ∧ (pumpFlow s peer cls fuel).se = s.se ∧
    (pumpFlow s peer cls fuel).faults = s.faults ∧ (pumpFlow s peer cls fuel).twin = s.twin ∧ (pumpFlow s peer cls fuel).pwr = s.pwr ∧
    (pumpFlow s peer cls fuel).sec = s.sec ∧ (pumpFlow s peer cls fuel).flash = s.flash ∧ (pumpFlow s peer cls fuel).pins = s.pins ∧
    (pumpFlow s peer cls fuel).trace = s.trace ∧ (pumpFlow s peer cls fuel).pending = s.pending := by
  induction fuel generalizing s with
  | zero => simp [pumpFlow]
  | succ n ih =>
    unfold pumpFlow
    dsimp only
    (repeat' split) <;> simp_all

@[simp] theorem pump_frame (s : State) (peer cls : Nat) : (pump s peer cls).grade = s.grade ∧ (pump s peer cls).fresh = s.fresh ∧
    (pump s peer cls).time = s.time ∧ (pump s peer cls).mem = s.mem ∧ (pump s peer cls).cores = s.cores ∧ (pump s peer cls).sems = s.sems ∧
    (pump s peer cls).hoists = s.hoists ∧ (pump s peer cls).nb = s.nb ∧ (pump s peer cls).host = s.host ∧ (pump s peer cls).se = s.se ∧
    (pump s peer cls).faults = s.faults ∧ (pump s peer cls).twin = s.twin ∧ (pump s peer cls).pwr = s.pwr ∧ (pump s peer cls).sec = s.sec ∧
    (pump s peer cls).flash = s.flash ∧ (pump s peer cls).pins = s.pins ∧ (pump s peer cls).trace = s.trace ∧
    (pump s peer cls).pending = s.pending := by simp [pump]

@[simp] theorem enqueue_frame (s : State) (peer cls : Nat) (op : OpHeader) (payload : List Byte) (owner : PktOwner) (charge : Option Nat) (ackNow : Bool) (msg : Option TwinMsg) :
    (enqueue s peer cls op payload owner charge ackNow msg).grade = s.grade ∧
    (enqueue s peer cls op payload owner charge ackNow msg).fresh = s.fresh ∧ (enqueue s peer cls op payload owner charge ackNow msg).time = s.time ∧
    (enqueue s peer cls op payload owner charge ackNow msg).bar = s.bar ∧ (enqueue s peer cls op payload owner charge ackNow msg).mem = s.mem ∧
    (enqueue s peer cls op payload owner charge ackNow msg).cores = s.cores ∧ (enqueue s peer cls op payload owner charge ackNow msg).sems = s.sems ∧
    (enqueue s peer cls op payload owner charge ackNow msg).hoists = s.hoists ∧ (enqueue s peer cls op payload owner charge ackNow msg).nb = s.nb ∧
    (enqueue s peer cls op payload owner charge ackNow msg).host = s.host ∧ (enqueue s peer cls op payload owner charge ackNow msg).parts = s.parts ∧
    (enqueue s peer cls op payload owner charge ackNow msg).se = s.se ∧ (enqueue s peer cls op payload owner charge ackNow msg).faults = s.faults ∧
    (enqueue s peer cls op payload owner charge ackNow msg).twin = s.twin ∧ (enqueue s peer cls op payload owner charge ackNow msg).pwr = s.pwr ∧
    (enqueue s peer cls op payload owner charge ackNow msg).sec = s.sec ∧ (enqueue s peer cls op payload owner charge ackNow msg).flash = s.flash ∧
    (enqueue s peer cls op payload owner charge ackNow msg).pins = s.pins ∧ (enqueue s peer cls op payload owner charge ackNow msg).trace = s.trace ∧
    (enqueue s peer cls op payload owner charge ackNow msg).pending = s.pending := by simp [enqueue]

@[simp] theorem levelSend_frame (s : State) (peer cls : Nat) (op : OpHeader) (payload : List Byte) (owner : PktOwner) (charge : Option Nat) (ackNow : Bool) : (levelSend s peer cls op payload owner charge ackNow).grade = s.grade ∧
    (levelSend s peer cls op payload owner charge ackNow).fresh = s.fresh ∧ (levelSend s peer cls op payload owner charge ackNow).time = s.time ∧
    (levelSend s peer cls op payload owner charge ackNow).mem = s.mem ∧ (levelSend s peer cls op payload owner charge ackNow).cores = s.cores ∧
    (levelSend s peer cls op payload owner charge ackNow).sems = s.sems ∧ (levelSend s peer cls op payload owner charge ackNow).hoists = s.hoists ∧
    (levelSend s peer cls op payload owner charge ackNow).nb = s.nb ∧ (levelSend s peer cls op payload owner charge ackNow).host = s.host ∧
    (levelSend s peer cls op payload owner charge ackNow).se = s.se ∧ (levelSend s peer cls op payload owner charge ackNow).faults = s.faults ∧
    (levelSend s peer cls op payload owner charge ackNow).twin = s.twin ∧ (levelSend s peer cls op payload owner charge ackNow).pwr = s.pwr ∧
    (levelSend s peer cls op payload owner charge ackNow).sec = s.sec ∧ (levelSend s peer cls op payload owner charge ackNow).flash = s.flash ∧
    (levelSend s peer cls op payload owner charge ackNow).pins = s.pins ∧ (levelSend s peer cls op payload owner charge ackNow).trace = s.trace ∧
    (levelSend s peer cls op payload owner charge ackNow).pending = s.pending := by simp [levelSend]

@[simp] theorem twinEnqueue_frame (s : State) (m : TwinMsg) (owner : PktOwner) : (twinEnqueue s m owner).grade = s.grade ∧
    (twinEnqueue s m owner).fresh = s.fresh ∧ (twinEnqueue s m owner).time = s.time ∧ (twinEnqueue s m owner).bar = s.bar ∧
    (twinEnqueue s m owner).mem = s.mem ∧ (twinEnqueue s m owner).cores = s.cores ∧ (twinEnqueue s m owner).sems = s.sems ∧
    (twinEnqueue s m owner).hoists = s.hoists ∧ (twinEnqueue s m owner).nb = s.nb ∧ (twinEnqueue s m owner).host = s.host ∧
    (twinEnqueue s m owner).parts = s.parts ∧ (twinEnqueue s m owner).se = s.se ∧ (twinEnqueue s m owner).faults = s.faults ∧
    (twinEnqueue s m owner).twin = s.twin ∧ (twinEnqueue s m owner).pwr = s.pwr ∧ (twinEnqueue s m owner).sec = s.sec ∧
    (twinEnqueue s m owner).flash = s.flash ∧ (twinEnqueue s m owner).pins = s.pins ∧ (twinEnqueue s m owner).trace = s.trace ∧
    (twinEnqueue s m owner).pending = s.pending := by simp [twinEnqueue]

@[simp] theorem twinPost_frame (s : State) (m : TwinMsg) (owner : PktOwner) : (twinPost s m owner).grade = s.grade ∧
    (twinPost s m owner).fresh = s.fresh ∧ (twinPost s m owner).time = s.time ∧ (twinPost s m owner).mem = s.mem ∧
    (twinPost s m owner).cores = s.cores ∧ (twinPost s m owner).sems = s.sems ∧ (twinPost s m owner).hoists = s.hoists ∧
    (twinPost s m owner).nb = s.nb ∧ (twinPost s m owner).host = s.host ∧ (twinPost s m owner).se = s.se ∧ (twinPost s m owner).faults = s.faults ∧
    (twinPost s m owner).twin = s.twin ∧ (twinPost s m owner).pwr = s.pwr ∧ (twinPost s m owner).sec = s.sec ∧ (twinPost s m owner).flash = s.flash ∧
    (twinPost s m owner).pins = s.pins ∧ (twinPost s m owner).trace = s.trace ∧ (twinPost s m owner).pending = s.pending := by simp [twinPost]

@[simp] theorem logFabric_frame (s : State) (port : Nat) (peer cls : Nat) (op : OpHeader) (st : W16) (detail : W32) : (logFabric s port peer cls op st detail).grade = s.grade ∧
    (logFabric s port peer cls op st detail).fresh = s.fresh ∧ (logFabric s port peer cls op st detail).time = s.time ∧
    (logFabric s port peer cls op st detail).mem = s.mem ∧ (logFabric s port peer cls op st detail).cores = s.cores ∧
    (logFabric s port peer cls op st detail).sems = s.sems ∧ (logFabric s port peer cls op st detail).hoists = s.hoists ∧
    (logFabric s port peer cls op st detail).nb = s.nb ∧ (logFabric s port peer cls op st detail).host = s.host ∧
    (logFabric s port peer cls op st detail).parts = s.parts ∧ (logFabric s port peer cls op st detail).se = s.se ∧
    (logFabric s port peer cls op st detail).fab = s.fab ∧ (logFabric s port peer cls op st detail).twin = s.twin ∧
    (logFabric s port peer cls op st detail).pwr = s.pwr ∧ (logFabric s port peer cls op st detail).sec = s.sec ∧
    (logFabric s port peer cls op st detail).flash = s.flash ∧ (logFabric s port peer cls op st detail).pins = s.pins ∧
    (logFabric s port peer cls op st detail).pending = s.pending := by simp [logFabric]

@[simp] theorem modOp_frame (s : State) (id : Nat) (f : MemOp → MemOp) : (modOp s id f).grade = s.grade ∧ (modOp s id f).fresh = s.fresh ∧
    (modOp s id f).time = s.time ∧ (modOp s id f).bar = s.bar ∧ (modOp s id f).mem = s.mem ∧ (modOp s id f).sems = s.sems ∧
    (modOp s id f).hoists = s.hoists ∧ (modOp s id f).nb = s.nb ∧ (modOp s id f).host = s.host ∧ (modOp s id f).parts = s.parts ∧
    (modOp s id f).se = s.se ∧ (modOp s id f).fab = s.fab ∧ (modOp s id f).faults = s.faults ∧ (modOp s id f).twin = s.twin ∧
    (modOp s id f).pwr = s.pwr ∧ (modOp s id f).sec = s.sec ∧ (modOp s id f).flash = s.flash ∧ (modOp s id f).pins = s.pins ∧
    (modOp s id f).trace = s.trace ∧ (modOp s id f).pending = s.pending := by simp [modOp]

@[simp] theorem modTier_frame (s : State) (id : Nat) (f : TierGot → TierGot) : (modTier s id f).grade = s.grade ∧ (modTier s id f).fresh = s.fresh ∧
    (modTier s id f).time = s.time ∧ (modTier s id f).bar = s.bar ∧ (modTier s id f).mem = s.mem ∧ (modTier s id f).cores = s.cores ∧
    (modTier s id f).sems = s.sems ∧ (modTier s id f).hoists = s.hoists ∧ (modTier s id f).nb = s.nb ∧ (modTier s id f).host = s.host ∧
    (modTier s id f).parts = s.parts ∧ (modTier s id f).se = s.se ∧ (modTier s id f).faults = s.faults ∧ (modTier s id f).twin = s.twin ∧
    (modTier s id f).pwr = s.pwr ∧ (modTier s id f).sec = s.sec ∧ (modTier s id f).flash = s.flash ∧ (modTier s id f).pins = s.pins ∧
    (modTier s id f).trace = s.trace ∧ (modTier s id f).pending = s.pending := by unfold modTier; split <;> simp

@[simp] theorem modMove_frame (s : State) (id : Nat) (f : Move → Move) : (modMove s id f).grade = s.grade ∧ (modMove s id f).fresh = s.fresh ∧
    (modMove s id f).time = s.time ∧ (modMove s id f).bar = s.bar ∧ (modMove s id f).mem = s.mem ∧ (modMove s id f).cores = s.cores ∧
    (modMove s id f).sems = s.sems ∧ (modMove s id f).nb = s.nb ∧ (modMove s id f).host = s.host ∧ (modMove s id f).parts = s.parts ∧
    (modMove s id f).se = s.se ∧ (modMove s id f).fab = s.fab ∧ (modMove s id f).faults = s.faults ∧ (modMove s id f).twin = s.twin ∧
    (modMove s id f).pwr = s.pwr ∧ (modMove s id f).sec = s.sec ∧ (modMove s id f).flash = s.flash ∧ (modMove s id f).pins = s.pins ∧
    (modMove s id f).trace = s.trace ∧ (modMove s id f).pending = s.pending := by simp [modMove]

@[simp] theorem pktComplete_frame (s : State) (x : Sent) (peer cls : Nat) (st : W16) (detail : W32) (data : List Byte) (operand : W64) :
    (pktComplete s x peer cls st detail data operand).grade = s.grade ∧ (pktComplete s x peer cls st detail data operand).fresh = s.fresh ∧
    (pktComplete s x peer cls st detail data operand).time = s.time ∧ (pktComplete s x peer cls st detail data operand).mem = s.mem ∧
    (pktComplete s x peer cls st detail data operand).sems = s.sems ∧ (pktComplete s x peer cls st detail data operand).nb = s.nb ∧
    (pktComplete s x peer cls st detail data operand).host = s.host ∧ (pktComplete s x peer cls st detail data operand).parts = s.parts ∧
    (pktComplete s x peer cls st detail data operand).se = s.se ∧ (pktComplete s x peer cls st detail data operand).pwr = s.pwr ∧
    (pktComplete s x peer cls st detail data operand).sec = s.sec ∧ (pktComplete s x peer cls st detail data operand).flash = s.flash ∧
    (pktComplete s x peer cls st detail data operand).pins = s.pins ∧ (pktComplete s x peer cls st detail data operand).pending = s.pending := by
  unfold pktComplete
  dsimp only
  repeat' split
  all_goals simp

@[simp] theorem settleOps_frame (s : State) : (settleOps s).grade = s.grade ∧ (settleOps s).fresh = s.fresh ∧ (settleOps s).time = s.time ∧
    (settleOps s).bar = s.bar ∧ (settleOps s).mem = s.mem ∧ (settleOps s).sems = s.sems ∧ (settleOps s).hoists = s.hoists ∧ (settleOps s).nb = s.nb ∧
    (settleOps s).host = s.host ∧ (settleOps s).parts = s.parts ∧ (settleOps s).se = s.se ∧ (settleOps s).fab = s.fab ∧
    (settleOps s).faults = s.faults ∧ (settleOps s).twin = s.twin ∧ (settleOps s).pwr = s.pwr ∧ (settleOps s).sec = s.sec ∧
    (settleOps s).flash = s.flash ∧ (settleOps s).pins = s.pins ∧ (settleOps s).trace = s.trace ∧
    (settleOps s).pending = s.pending := by simp [settleOps]

@[simp] theorem flowResetBy_frame (s : State) (peer cls : Nat) (st : W16) (detail : Sent → W32) :
    (flowResetBy s peer cls st detail).grade = s.grade ∧ (flowResetBy s peer cls st detail).fresh = s.fresh ∧
    (flowResetBy s peer cls st detail).time = s.time ∧ (flowResetBy s peer cls st detail).mem = s.mem ∧
    (flowResetBy s peer cls st detail).sems = s.sems ∧ (flowResetBy s peer cls st detail).nb = s.nb ∧
    (flowResetBy s peer cls st detail).host = s.host ∧ (flowResetBy s peer cls st detail).parts = s.parts ∧
    (flowResetBy s peer cls st detail).se = s.se ∧ (flowResetBy s peer cls st detail).pwr = s.pwr ∧ (flowResetBy s peer cls st detail).sec = s.sec ∧
    (flowResetBy s peer cls st detail).flash = s.flash ∧ (flowResetBy s peer cls st detail).pins = s.pins ∧
    (flowResetBy s peer cls st detail).pending = s.pending := by simp [flowResetBy]

@[simp] theorem flowReset_frame (s : State) (peer cls : Nat) (st : W16) (detail : W32) : (flowReset s peer cls st detail).grade = s.grade ∧
    (flowReset s peer cls st detail).fresh = s.fresh ∧ (flowReset s peer cls st detail).time = s.time ∧
    (flowReset s peer cls st detail).mem = s.mem ∧ (flowReset s peer cls st detail).sems = s.sems ∧ (flowReset s peer cls st detail).nb = s.nb ∧
    (flowReset s peer cls st detail).host = s.host ∧ (flowReset s peer cls st detail).parts = s.parts ∧ (flowReset s peer cls st detail).se = s.se ∧
    (flowReset s peer cls st detail).pwr = s.pwr ∧ (flowReset s peer cls st detail).sec = s.sec ∧ (flowReset s peer cls st detail).flash = s.flash ∧
    (flowReset s peer cls st detail).pins = s.pins ∧ (flowReset s peer cls st detail).pending = s.pending := by simp [flowReset]

/-! ## HostMem.lean -/

@[simp] theorem setHostByte_frame (s : State) (a : Nat) (b : Byte) : (setHostByte s a b).grade = s.grade ∧ (setHostByte s a b).fresh = s.fresh ∧
    (setHostByte s a b).time = s.time ∧ (setHostByte s a b).bar = s.bar ∧ (setHostByte s a b).mem = s.mem ∧ (setHostByte s a b).cores = s.cores ∧
    (setHostByte s a b).sems = s.sems ∧ (setHostByte s a b).hoists = s.hoists ∧ (setHostByte s a b).nb = s.nb ∧ (setHostByte s a b).parts = s.parts ∧
    (setHostByte s a b).se = s.se ∧ (setHostByte s a b).fab = s.fab ∧ (setHostByte s a b).faults = s.faults ∧ (setHostByte s a b).twin = s.twin ∧
    (setHostByte s a b).pwr = s.pwr ∧ (setHostByte s a b).sec = s.sec ∧ (setHostByte s a b).flash = s.flash ∧ (setHostByte s a b).pins = s.pins ∧
    (setHostByte s a b).trace = s.trace ∧ (setHostByte s a b).pending = s.pending := by simp [setHostByte]

@[simp] theorem hostWrite_frame (s : State) (a : Nat) (bs : List Byte) : (hostWrite s a bs).2.grade = s.grade ∧ (hostWrite s a bs).2.fresh = s.fresh ∧
    (hostWrite s a bs).2.time = s.time ∧ (hostWrite s a bs).2.bar = s.bar ∧ (hostWrite s a bs).2.mem = s.mem ∧ (hostWrite s a bs).2.cores = s.cores ∧
    (hostWrite s a bs).2.sems = s.sems ∧ (hostWrite s a bs).2.hoists = s.hoists ∧ (hostWrite s a bs).2.nb = s.nb ∧
    (hostWrite s a bs).2.parts = s.parts ∧ (hostWrite s a bs).2.se = s.se ∧ (hostWrite s a bs).2.fab = s.fab ∧ (hostWrite s a bs).2.faults = s.faults ∧
    (hostWrite s a bs).2.twin = s.twin ∧ (hostWrite s a bs).2.pwr = s.pwr ∧ (hostWrite s a bs).2.sec = s.sec ∧ (hostWrite s a bs).2.flash = s.flash ∧
    (hostWrite s a bs).2.pins = s.pins ∧ (hostWrite s a bs).2.trace = s.trace ∧ (hostWrite s a bs).2.pending = s.pending := by simp [hostWrite]

@[simp] theorem setScratchByte_frame (s : State) (v i : Nat) (b : Byte) : (setScratchByte s v i b).grade = s.grade ∧
    (setScratchByte s v i b).fresh = s.fresh ∧ (setScratchByte s v i b).time = s.time ∧ (setScratchByte s v i b).bar = s.bar ∧
    (setScratchByte s v i b).mem = s.mem ∧ (setScratchByte s v i b).sems = s.sems ∧ (setScratchByte s v i b).hoists = s.hoists ∧
    (setScratchByte s v i b).nb = s.nb ∧ (setScratchByte s v i b).host = s.host ∧ (setScratchByte s v i b).parts = s.parts ∧
    (setScratchByte s v i b).se = s.se ∧ (setScratchByte s v i b).fab = s.fab ∧ (setScratchByte s v i b).faults = s.faults ∧
    (setScratchByte s v i b).twin = s.twin ∧ (setScratchByte s v i b).pwr = s.pwr ∧ (setScratchByte s v i b).sec = s.sec ∧
    (setScratchByte s v i b).flash = s.flash ∧ (setScratchByte s v i b).pins = s.pins ∧ (setScratchByte s v i b).trace = s.trace ∧
    (setScratchByte s v i b).pending = s.pending := by simp [setScratchByte]

@[simp] theorem scratchWrite_frame (s : State) (v off : Nat) (bs : List Byte) : (scratchWrite s v off bs).grade = s.grade ∧
    (scratchWrite s v off bs).fresh = s.fresh ∧ (scratchWrite s v off bs).time = s.time ∧ (scratchWrite s v off bs).bar = s.bar ∧
    (scratchWrite s v off bs).mem = s.mem ∧ (scratchWrite s v off bs).sems = s.sems ∧ (scratchWrite s v off bs).hoists = s.hoists ∧
    (scratchWrite s v off bs).nb = s.nb ∧ (scratchWrite s v off bs).host = s.host ∧ (scratchWrite s v off bs).parts = s.parts ∧
    (scratchWrite s v off bs).se = s.se ∧ (scratchWrite s v off bs).fab = s.fab ∧ (scratchWrite s v off bs).faults = s.faults ∧
    (scratchWrite s v off bs).twin = s.twin ∧ (scratchWrite s v off bs).pwr = s.pwr ∧ (scratchWrite s v off bs).sec = s.sec ∧
    (scratchWrite s v off bs).flash = s.flash ∧ (scratchWrite s v off bs).pins = s.pins ∧ (scratchWrite s v off bs).trace = s.trace ∧
    (scratchWrite s v off bs).pending = s.pending := by simp [scratchWrite]

@[simp] theorem localRead_frame (s : State) (off n : Nat) (rq : Rq) : (localRead s off n rq).2.2.grade = s.grade ∧
    (localRead s off n rq).2.2.time = s.time ∧ (localRead s off n rq).2.2.cores = s.cores ∧ (localRead s off n rq).2.2.sems = s.sems ∧
    (localRead s off n rq).2.2.hoists = s.hoists ∧ (localRead s off n rq).2.2.nb = s.nb ∧ (localRead s off n rq).2.2.host = s.host ∧
    (localRead s off n rq).2.2.parts = s.parts ∧ (localRead s off n rq).2.2.se = s.se ∧ (localRead s off n rq).2.2.fab = s.fab ∧
    (localRead s off n rq).2.2.twin = s.twin ∧ (localRead s off n rq).2.2.pwr = s.pwr ∧ (localRead s off n rq).2.2.sec = s.sec ∧
    (localRead s off n rq).2.2.flash = s.flash ∧ (localRead s off n rq).2.2.pins = s.pins ∧ (localRead s off n rq).2.2.pending = s.pending := by
  unfold localRead
  split <;> simp

@[simp] theorem localWrite_frame (s : State) (off : Nat) (bs : List Byte) (rq : Rq) : (localWrite s off bs rq).2.grade = s.grade ∧
    (localWrite s off bs rq).2.time = s.time ∧ (localWrite s off bs rq).2.sems = s.sems ∧ (localWrite s off bs rq).2.hoists = s.hoists ∧
    (localWrite s off bs rq).2.nb = s.nb ∧ (localWrite s off bs rq).2.parts = s.parts ∧ (localWrite s off bs rq).2.se = s.se ∧
    (localWrite s off bs rq).2.fab = s.fab ∧ (localWrite s off bs rq).2.twin = s.twin ∧ (localWrite s off bs rq).2.pwr = s.pwr ∧
    (localWrite s off bs rq).2.sec = s.sec ∧ (localWrite s off bs rq).2.flash = s.flash ∧ (localWrite s off bs rq).2.pins = s.pins ∧
    (localWrite s off bs rq).2.pending = s.pending := by
  unfold localWrite
  split <;> simp

end Sys2Proof.Machine
end

