-- ==== Sys2Proof/Laws/FrameCore.lean ====
section
/-! SUPPORT. Frames of the operations of Core threads, their memory operations and near-bank units: the pieces of the state each one leaves as they are, one lemma per operation. -/
namespace Sys2Proof.Machine

/-! ## Operands.lean -/

@[simp] theorem modJob_frame (s : State) (id : Nat) (f : Job → Job) : (modJob s id f).grade = s.grade ∧ (modJob s id f).fresh = s.fresh ∧
    (modJob s id f).time = s.time ∧ (modJob s id f).bar = s.bar ∧ (modJob s id f).mem = s.mem ∧ (modJob s id f).sems = s.sems ∧
    (modJob s id f).hoists = s.hoists ∧ (modJob s id f).nb = s.nb ∧ (modJob s id f).host = s.host ∧ (modJob s id f).parts = s.parts ∧
    (modJob s id f).se = s.se ∧ (modJob s id f).fab = s.fab ∧ (modJob s id f).faults = s.faults ∧ (modJob s id f).twin = s.twin ∧
    (modJob s id f).pwr = s.pwr ∧ (modJob s id f).sec = s.sec ∧ (modJob s id f).flash = s.flash ∧ (modJob s id f).pins = s.pins ∧
    (modJob s id f).trace = s.trace ∧ (modJob s id f).pending = s.pending := by simp [modJob]

@[simp] theorem setQ_frame (s : State) (j : Job) (t : Tid) (q : Nat) (xs : List QEntry) : (setQ s j t q xs).grade = s.grade ∧
    (setQ s j t q xs).fresh = s.fresh ∧ (setQ s j t q xs).time = s.time ∧ (setQ s j t q xs).bar = s.bar ∧ (setQ s j t q xs).mem = s.mem ∧
    (setQ s j t q xs).sems = s.sems ∧ (setQ s j t q xs).hoists = s.hoists ∧ (setQ s j t q xs).nb = s.nb ∧ (setQ s j t q xs).host = s.host ∧
    (setQ s j t q xs).parts = s.parts ∧ (setQ s j t q xs).se = s.se ∧ (setQ s j t q xs).fab = s.fab ∧ (setQ s j t q xs).faults = s.faults ∧
    (setQ s j t q xs).twin = s.twin ∧ (setQ s j t q xs).pwr = s.pwr ∧ (setQ s j t q xs).sec = s.sec ∧ (setQ s j t q xs).flash = s.flash ∧
    (setQ s j t q xs).pins = s.pins ∧ (setQ s j t q xs).trace = s.trace ∧ (setQ s j t q xs).pending = s.pending := by simp [setQ]

@[simp] theorem putS_frame (s : State) (t : Tid) (n : Nat) (v : W64) : (putS s t n v).grade = s.grade ∧ (putS s t n v).fresh = s.fresh ∧
    (putS s t n v).time = s.time ∧ (putS s t n v).bar = s.bar ∧ (putS s t n v).mem = s.mem ∧ (putS s t n v).sems = s.sems ∧
    (putS s t n v).hoists = s.hoists ∧ (putS s t n v).nb = s.nb ∧ (putS s t n v).host = s.host ∧ (putS s t n v).parts = s.parts ∧
    (putS s t n v).se = s.se ∧ (putS s t n v).fab = s.fab ∧ (putS s t n v).faults = s.faults ∧ (putS s t n v).twin = s.twin ∧
    (putS s t n v).pwr = s.pwr ∧ (putS s t n v).sec = s.sec ∧ (putS s t n v).flash = s.flash ∧ (putS s t n v).pins = s.pins ∧
    (putS s t n v).trace = s.trace ∧ (putS s t n v).pending = s.pending := by simp [putS]

@[simp] theorem putV_frame (s : State) (t : Tid) (n : Nat) (v : VReg) : (putV s t n v).grade = s.grade ∧ (putV s t n v).fresh = s.fresh ∧
    (putV s t n v).time = s.time ∧ (putV s t n v).bar = s.bar ∧ (putV s t n v).mem = s.mem ∧ (putV s t n v).sems = s.sems ∧
    (putV s t n v).hoists = s.hoists ∧ (putV s t n v).nb = s.nb ∧ (putV s t n v).host = s.host ∧ (putV s t n v).parts = s.parts ∧
    (putV s t n v).se = s.se ∧ (putV s t n v).fab = s.fab ∧ (putV s t n v).faults = s.faults ∧ (putV s t n v).twin = s.twin ∧
    (putV s t n v).pwr = s.pwr ∧ (putV s t n v).sec = s.sec ∧ (putV s t n v).flash = s.flash ∧ (putV s t n v).pins = s.pins ∧
    (putV s t n v).trace = s.trace ∧ (putV s t n v).pending = s.pending := by simp [putV]

@[simp] theorem putM_frame (s : State) (t : Tid) (n : Nat) (v : Mask) : (putM s t n v).grade = s.grade ∧ (putM s t n v).fresh = s.fresh ∧
    (putM s t n v).time = s.time ∧ (putM s t n v).bar = s.bar ∧ (putM s t n v).mem = s.mem ∧ (putM s t n v).sems = s.sems ∧
    (putM s t n v).hoists = s.hoists ∧ (putM s t n v).nb = s.nb ∧ (putM s t n v).host = s.host ∧ (putM s t n v).parts = s.parts ∧
    (putM s t n v).se = s.se ∧ (putM s t n v).fab = s.fab ∧ (putM s t n v).faults = s.faults ∧ (putM s t n v).twin = s.twin ∧
    (putM s t n v).pwr = s.pwr ∧ (putM s t n v).sec = s.sec ∧ (putM s t n v).flash = s.flash ∧ (putM s t n v).pins = s.pins ∧
    (putM s t n v).trace = s.trace ∧ (putM s t n v).pending = s.pending := by simp [putM]

@[simp] theorem skipSlot_frame (s : State) (j : Job) (t : Tid) (subtag : W16) (pc slot reason detail : Nat) : (skipSlot s j t subtag pc slot reason detail).grade = s.grade ∧
    (skipSlot s j t subtag pc slot reason detail).time = s.time ∧ (skipSlot s j t subtag pc slot reason detail).sems = s.sems ∧
    (skipSlot s j t subtag pc slot reason detail).hoists = s.hoists ∧ (skipSlot s j t subtag pc slot reason detail).nb = s.nb ∧
    (skipSlot s j t subtag pc slot reason detail).host = s.host ∧ (skipSlot s j t subtag pc slot reason detail).parts = s.parts ∧
    (skipSlot s j t subtag pc slot reason detail).se = s.se ∧ (skipSlot s j t subtag pc slot reason detail).fab = s.fab ∧
    (skipSlot s j t subtag pc slot reason detail).twin = s.twin ∧ (skipSlot s j t subtag pc slot reason detail).pwr = s.pwr ∧
    (skipSlot s j t subtag pc slot reason detail).sec = s.sec ∧ (skipSlot s j t subtag pc slot reason detail).flash = s.flash ∧
    (skipSlot s j t subtag pc slot reason detail).pins = s.pins ∧
    (skipSlot s j t subtag pc slot reason detail).pending = s.pending := by simp [skipSlot]

/-! ## Matrix.lean -/

@[simp] theorem putTile_frame (e : Ev) (n : Nat) (t : Tile) (fl : Flg) : (putTile e n t fl).s.grade = e.s.grade ∧
    (putTile e n t fl).s.fresh = e.s.fresh ∧ (putTile e n t fl).s.time = e.s.time ∧ (putTile e n t fl).s.bar = e.s.bar ∧
    (putTile e n t fl).s.mem = e.s.mem ∧ (putTile e n t fl).s.sems = e.s.sems ∧ (putTile e n t fl).s.hoists = e.s.hoists ∧
    (putTile e n t fl).s.nb = e.s.nb ∧ (putTile e n t fl).s.host = e.s.host ∧ (putTile e n t fl).s.parts = e.s.parts ∧
    (putTile e n t fl).s.se = e.s.se ∧ (putTile e n t fl).s.fab = e.s.fab ∧ (putTile e n t fl).s.faults = e.s.faults ∧
    (putTile e n t fl).s.twin = e.s.twin ∧ (putTile e n t fl).s.pwr = e.s.pwr ∧ (putTile e n t fl).s.sec = e.s.sec ∧
    (putTile e n t fl).s.flash = e.s.flash ∧ (putTile e n t fl).s.pins = e.s.pins ∧ (putTile e n t fl).s.trace = e.s.trace ∧
    (putTile e n t fl).s.pending = e.s.pending := by simp [putTile]

/-! ## Vector.lean -/

@[simp] theorem putRng_frame (e : Ev) (s : W32) : (putRng e s).s.grade = e.s.grade ∧ (putRng e s).s.fresh = e.s.fresh ∧ (putRng e s).s.time = e.s.time ∧
    (putRng e s).s.bar = e.s.bar ∧ (putRng e s).s.mem = e.s.mem ∧ (putRng e s).s.sems = e.s.sems ∧ (putRng e s).s.hoists = e.s.hoists ∧
    (putRng e s).s.nb = e.s.nb ∧ (putRng e s).s.host = e.s.host ∧ (putRng e s).s.parts = e.s.parts ∧ (putRng e s).s.se = e.s.se ∧
    (putRng e s).s.fab = e.s.fab ∧ (putRng e s).s.faults = e.s.faults ∧ (putRng e s).s.twin = e.s.twin ∧ (putRng e s).s.pwr = e.s.pwr ∧
    (putRng e s).s.sec = e.s.sec ∧ (putRng e s).s.flash = e.s.flash ∧ (putRng e s).s.pins = e.s.pins ∧ (putRng e s).s.trace = e.s.trace ∧
    (putRng e s).s.pending = e.s.pending := by simp [putRng]

/-! ## Address.lean -/

@[simp] theorem setLoop_frame (e : Ev) (u : Nat) (l : LoopUnit) : (setLoop e u l).s.grade = e.s.grade ∧ (setLoop e u l).s.fresh = e.s.fresh ∧
    (setLoop e u l).s.time = e.s.time ∧ (setLoop e u l).s.bar = e.s.bar ∧ (setLoop e u l).s.mem = e.s.mem ∧ (setLoop e u l).s.sems = e.s.sems ∧
    (setLoop e u l).s.hoists = e.s.hoists ∧ (setLoop e u l).s.nb = e.s.nb ∧ (setLoop e u l).s.host = e.s.host ∧ (setLoop e u l).s.parts = e.s.parts ∧
    (setLoop e u l).s.se = e.s.se ∧ (setLoop e u l).s.fab = e.s.fab ∧ (setLoop e u l).s.faults = e.s.faults ∧ (setLoop e u l).s.twin = e.s.twin ∧
    (setLoop e u l).s.pwr = e.s.pwr ∧ (setLoop e u l).s.sec = e.s.sec ∧ (setLoop e u l).s.flash = e.s.flash ∧ (setLoop e u l).s.pins = e.s.pins ∧
    (setLoop e u l).s.trace = e.s.trace ∧ (setLoop e u l).s.pending = e.s.pending := by simp [setLoop]

@[simp] theorem setL1_frame (s : State) (v ln : Nat) (x : L1Line) : (setL1 s v ln x).grade = s.grade ∧ (setL1 s v ln x).fresh = s.fresh ∧
    (setL1 s v ln x).time = s.time ∧ (setL1 s v ln x).bar = s.bar ∧ (setL1 s v ln x).mem = s.mem ∧ (setL1 s v ln x).sems = s.sems ∧
    (setL1 s v ln x).hoists = s.hoists ∧ (setL1 s v ln x).nb = s.nb ∧ (setL1 s v ln x).host = s.host ∧ (setL1 s v ln x).parts = s.parts ∧
    (setL1 s v ln x).se = s.se ∧ (setL1 s v ln x).fab = s.fab ∧ (setL1 s v ln x).faults = s.faults ∧ (setL1 s v ln x).twin = s.twin ∧
    (setL1 s v ln x).pwr = s.pwr ∧ (setL1 s v ln x).sec = s.sec ∧ (setL1 s v ln x).flash = s.flash ∧ (setL1 s v ln x).pins = s.pins ∧
    (setL1 s v ln x).trace = s.trace ∧ (setL1 s v ln x).pending = s.pending := by simp [setL1]

@[simp] theorem fillL1_frame (s : State) (v off : Nat) (bs : List Byte) : (fillL1 s v off bs).grade = s.grade ∧ (fillL1 s v off bs).time = s.time ∧
    (fillL1 s v off bs).bar = s.bar ∧ (fillL1 s v off bs).mem = s.mem ∧ (fillL1 s v off bs).sems = s.sems ∧ (fillL1 s v off bs).hoists = s.hoists ∧
    (fillL1 s v off bs).nb = s.nb ∧ (fillL1 s v off bs).host = s.host ∧ (fillL1 s v off bs).parts = s.parts ∧ (fillL1 s v off bs).se = s.se ∧
    (fillL1 s v off bs).fab = s.fab ∧ (fillL1 s v off bs).faults = s.faults ∧ (fillL1 s v off bs).twin = s.twin ∧ (fillL1 s v off bs).pwr = s.pwr ∧
    (fillL1 s v off bs).sec = s.sec ∧ (fillL1 s v off bs).flash = s.flash ∧ (fillL1 s v off bs).pins = s.pins ∧ (fillL1 s v off bs).trace = s.trace ∧
    (fillL1 s v off bs).pending = s.pending := by simp [fillL1]

@[simp] theorem l1Store_frame (s : State) (v off : Nat) (bs : List Byte) (mask : BitVec 256) : (l1Store s v off bs mask).grade = s.grade ∧
    (l1Store s v off bs mask).fresh = s.fresh ∧ (l1Store s v off bs mask).time = s.time ∧ (l1Store s v off bs mask).bar = s.bar ∧
    (l1Store s v off bs mask).mem = s.mem ∧ (l1Store s v off bs mask).sems = s.sems ∧ (l1Store s v off bs mask).hoists = s.hoists ∧
    (l1Store s v off bs mask).nb = s.nb ∧ (l1Store s v off bs mask).host = s.host ∧ (l1Store s v off bs mask).parts = s.parts ∧
    (l1Store s v off bs mask).se = s.se ∧ (l1Store s v off bs mask).fab = s.fab ∧ (l1Store s v off bs mask).faults = s.faults ∧
    (l1Store s v off bs mask).twin = s.twin ∧ (l1Store s v off bs mask).pwr = s.pwr ∧ (l1Store s v off bs mask).sec = s.sec ∧
    (l1Store s v off bs mask).flash = s.flash ∧ (l1Store s v off bs mask).pins = s.pins ∧ (l1Store s v off bs mask).trace = s.trace ∧
    (l1Store s v off bs mask).pending = s.pending := by
  simp (disch := first | (simp; done) | (simp only [keeps_iff]; intros; (repeat' split) <;> simp)) [l1Store]

@[simp] theorem l1Drop_frame (s : State) (v off : Nat) : (l1Drop s v off).grade = s.grade ∧ (l1Drop s v off).fresh = s.fresh ∧
    (l1Drop s v off).time = s.time ∧ (l1Drop s v off).bar = s.bar ∧ (l1Drop s v off).mem = s.mem ∧ (l1Drop s v off).sems = s.sems ∧
    (l1Drop s v off).hoists = s.hoists ∧ (l1Drop s v off).nb = s.nb ∧ (l1Drop s v off).host = s.host ∧ (l1Drop s v off).parts = s.parts ∧
    (l1Drop s v off).se = s.se ∧ (l1Drop s v off).fab = s.fab ∧ (l1Drop s v off).faults = s.faults ∧ (l1Drop s v off).twin = s.twin ∧
    (l1Drop s v off).pwr = s.pwr ∧ (l1Drop s v off).sec = s.sec ∧ (l1Drop s v off).flash = s.flash ∧ (l1Drop s v off).pins = s.pins ∧
    (l1Drop s v off).trace = s.trace ∧ (l1Drop s v off).pending = s.pending := by simp [l1Drop]

@[simp] theorem l1Clear_frame (s : State) (v : Nat) : (l1Clear s v).grade = s.grade ∧ (l1Clear s v).fresh = s.fresh ∧ (l1Clear s v).time = s.time ∧
    (l1Clear s v).bar = s.bar ∧ (l1Clear s v).mem = s.mem ∧ (l1Clear s v).sems = s.sems ∧ (l1Clear s v).hoists = s.hoists ∧ (l1Clear s v).nb = s.nb ∧
    (l1Clear s v).host = s.host ∧ (l1Clear s v).parts = s.parts ∧ (l1Clear s v).se = s.se ∧ (l1Clear s v).fab = s.fab ∧
    (l1Clear s v).faults = s.faults ∧ (l1Clear s v).twin = s.twin ∧ (l1Clear s v).pwr = s.pwr ∧ (l1Clear s v).sec = s.sec ∧
    (l1Clear s v).flash = s.flash ∧ (l1Clear s v).pins = s.pins ∧ (l1Clear s v).trace = s.trace ∧
    (l1Clear s v).pending = s.pending := by simp [l1Clear]

@[simp] theorem newOp_frame (e : Ev) (kind : OpKind) (a : W64) (data : VReg) (cmp : W64) (mask : BitVec 256) (dest : Dest) (todo : List Nat) (res : VReg) : (newOp e kind a data cmp mask dest todo res).1.s.grade = e.s.grade ∧
    (newOp e kind a data cmp mask dest todo res).1.s.fresh = e.s.fresh ∧ (newOp e kind a data cmp mask dest todo res).1.s.time = e.s.time ∧
    (newOp e kind a data cmp mask dest todo res).1.s.bar = e.s.bar ∧ (newOp e kind a data cmp mask dest todo res).1.s.mem = e.s.mem ∧
    (newOp e kind a data cmp mask dest todo res).1.s.sems = e.s.sems ∧ (newOp e kind a data cmp mask dest todo res).1.s.hoists = e.s.hoists ∧
    (newOp e kind a data cmp mask dest todo res).1.s.nb = e.s.nb ∧ (newOp e kind a data cmp mask dest todo res).1.s.host = e.s.host ∧
    (newOp e kind a data cmp mask dest todo res).1.s.parts = e.s.parts ∧ (newOp e kind a data cmp mask dest todo res).1.s.se = e.s.se ∧
    (newOp e kind a data cmp mask dest todo res).1.s.fab = e.s.fab ∧ (newOp e kind a data cmp mask dest todo res).1.s.faults = e.s.faults ∧
    (newOp e kind a data cmp mask dest todo res).1.s.twin = e.s.twin ∧ (newOp e kind a data cmp mask dest todo res).1.s.pwr = e.s.pwr ∧
    (newOp e kind a data cmp mask dest todo res).1.s.sec = e.s.sec ∧ (newOp e kind a data cmp mask dest todo res).1.s.flash = e.s.flash ∧
    (newOp e kind a data cmp mask dest todo res).1.s.pins = e.s.pins ∧ (newOp e kind a data cmp mask dest todo res).1.s.trace = e.s.trace ∧
    (newOp e kind a data cmp mask dest todo res).1.s.pending = e.s.pending := by simp [newOp]

@[simp] theorem deliver_frame (s : State) (j : Job) (t : Tid) (d : Dest) (id : Nat) (v : VReg) : (deliver s j t d id v).grade = s.grade ∧
    (deliver s j t d id v).fresh = s.fresh ∧ (deliver s j t d id v).time = s.time ∧ (deliver s j t d id v).bar = s.bar ∧
    (deliver s j t d id v).mem = s.mem ∧ (deliver s j t d id v).sems = s.sems ∧ (deliver s j t d id v).hoists = s.hoists ∧
    (deliver s j t d id v).nb = s.nb ∧ (deliver s j t d id v).host = s.host ∧ (deliver s j t d id v).parts = s.parts ∧
    (deliver s j t d id v).se = s.se ∧ (deliver s j t d id v).fab = s.fab ∧ (deliver s j t d id v).faults = s.faults ∧
    (deliver s j t d id v).twin = s.twin ∧ (deliver s j t d id v).pwr = s.pwr ∧ (deliver s j t d id v).sec = s.sec ∧
    (deliver s j t d id v).flash = s.flash ∧ (deliver s j t d id v).pins = s.pins ∧ (deliver s j t d id v).trace = s.trace ∧
    (deliver s j t d id v).pending = s.pending := by
  unfold deliver
  split <;> simp

@[simp] theorem memErr_frame (s : State) (t : Tid) (st : W16) : (memErr s t st).grade = s.grade ∧ (memErr s t st).fresh = s.fresh ∧
    (memErr s t st).time = s.time ∧ (memErr s t st).bar = s.bar ∧ (memErr s t st).mem = s.mem ∧ (memErr s t st).sems = s.sems ∧
    (memErr s t st).hoists = s.hoists ∧ (memErr s t st).nb = s.nb ∧ (memErr s t st).host = s.host ∧ (memErr s t st).parts = s.parts ∧
    (memErr s t st).se = s.se ∧ (memErr s t st).fab = s.fab ∧ (memErr s t st).faults = s.faults ∧ (memErr s t st).twin = s.twin ∧
    (memErr s t st).pwr = s.pwr ∧ (memErr s t st).sec = s.sec ∧ (memErr s t st).flash = s.flash ∧ (memErr s t st).pins = s.pins ∧
    (memErr s t st).trace = s.trace ∧ (memErr s t st).pending = s.pending := by simp [memErr]

@[simp] theorem settleEnd_frame (s : State) (t : Tid) : (settleEnd s t).grade = s.grade ∧ (settleEnd s t).fresh = s.fresh ∧
    (settleEnd s t).time = s.time ∧ (settleEnd s t).bar = s.bar ∧ (settleEnd s t).mem = s.mem ∧ (settleEnd s t).sems = s.sems ∧
    (settleEnd s t).hoists = s.hoists ∧ (settleEnd s t).nb = s.nb ∧ (settleEnd s t).host = s.host ∧ (settleEnd s t).parts = s.parts ∧
    (settleEnd s t).se = s.se ∧ (settleEnd s t).fab = s.fab ∧ (settleEnd s t).faults = s.faults ∧ (settleEnd s t).twin = s.twin ∧
    (settleEnd s t).pwr = s.pwr ∧ (settleEnd s t).sec = s.sec ∧ (settleEnd s t).flash = s.flash ∧ (settleEnd s t).pins = s.pins ∧
    (settleEnd s t).trace = s.trace ∧ (settleEnd s t).pending = s.pending := by simp [settleEnd]

@[simp] theorem sendOp_frame (s : State) (id : Nat) : (sendOp s id).grade = s.grade ∧ (sendOp s id).fresh = s.fresh ∧ (sendOp s id).time = s.time ∧
    (sendOp s id).mem = s.mem ∧ (sendOp s id).sems = s.sems ∧ (sendOp s id).hoists = s.hoists ∧ (sendOp s id).nb = s.nb ∧ (sendOp s id).host = s.host ∧
    (sendOp s id).se = s.se ∧ (sendOp s id).twin = s.twin ∧ (sendOp s id).pwr = s.pwr ∧ (sendOp s id).sec = s.sec ∧ (sendOp s id).flash = s.flash ∧
    (sendOp s id).pins = s.pins ∧ (sendOp s id).pending = s.pending := by
  unfold sendOp
  split <;> simp

@[simp] theorem retryOps_frame (s : State) (t : Tid) : (retryOps s t).grade = s.grade ∧ (retryOps s t).fresh = s.fresh ∧ (retryOps s t).time = s.time ∧
    (retryOps s t).mem = s.mem ∧ (retryOps s t).sems = s.sems ∧ (retryOps s t).hoists = s.hoists ∧ (retryOps s t).nb = s.nb ∧
    (retryOps s t).host = s.host ∧ (retryOps s t).se = s.se ∧ (retryOps s t).twin = s.twin ∧ (retryOps s t).pwr = s.pwr ∧ (retryOps s t).sec = s.sec ∧
    (retryOps s t).flash = s.flash ∧ (retryOps s t).pins = s.pins ∧ (retryOps s t).pending = s.pending := by simp [retryOps]

@[simp] theorem amoAt_frame (s : State) (off kind type x c : Nat) (rq : Rq) : (amoAt s off kind type x c rq).2.2.grade = s.grade ∧
    (amoAt s off kind type x c rq).2.2.time = s.time ∧ (amoAt s off kind type x c rq).2.2.cores = s.cores ∧
    (amoAt s off kind type x c rq).2.2.sems = s.sems ∧ (amoAt s off kind type x c rq).2.2.hoists = s.hoists ∧
    (amoAt s off kind type x c rq).2.2.nb = s.nb ∧ (amoAt s off kind type x c rq).2.2.host = s.host ∧
    (amoAt s off kind type x c rq).2.2.parts = s.parts ∧ (amoAt s off kind type x c rq).2.2.se = s.se ∧ (amoAt s off kind type x c rq).2.2.fab = s.fab ∧
    (amoAt s off kind type x c rq).2.2.twin = s.twin ∧ (amoAt s off kind type x c rq).2.2.pwr = s.pwr ∧ (amoAt s off kind type x c rq).2.2.sec = s.sec ∧
    (amoAt s off kind type x c rq).2.2.flash = s.flash ∧ (amoAt s off kind type x c rq).2.2.pins = s.pins ∧
    (amoAt s off kind type x c rq).2.2.pending = s.pending := by simp [amoAt]

@[simp] theorem performGranule_frame (s : State) (o : MemOp) (g : Nat) : (performGranule s o g).grade = s.grade ∧ (performGranule s o g).time = s.time ∧
    (performGranule s o g).sems = s.sems ∧ (performGranule s o g).hoists = s.hoists ∧ (performGranule s o g).nb = s.nb ∧
    (performGranule s o g).host = s.host ∧ (performGranule s o g).parts = s.parts ∧ (performGranule s o g).se = s.se ∧
    (performGranule s o g).fab = s.fab ∧ (performGranule s o g).twin = s.twin ∧ (performGranule s o g).pwr = s.pwr ∧
    (performGranule s o g).sec = s.sec ∧ (performGranule s o g).flash = s.flash ∧ (performGranule s o g).pins = s.pins ∧
    (performGranule s o g).pending = s.pending := by
  unfold performGranule
  split <;> simp

/-! ## NearOps.lean -/

@[simp] theorem putProgram_frame (s : State) (stack e : Nat) (ds : List Line) : (putProgram s stack e ds).grade = s.grade ∧
    (putProgram s stack e ds).fresh = s.fresh ∧ (putProgram s stack e ds).time = s.time ∧ (putProgram s stack e ds).bar = s.bar ∧
    (putProgram s stack e ds).mem = s.mem ∧ (putProgram s stack e ds).cores = s.cores ∧ (putProgram s stack e ds).sems = s.sems ∧
    (putProgram s stack e ds).hoists = s.hoists ∧ (putProgram s stack e ds).host = s.host ∧ (putProgram s stack e ds).parts = s.parts ∧
    (putProgram s stack e ds).se = s.se ∧ (putProgram s stack e ds).fab = s.fab ∧ (putProgram s stack e ds).faults = s.faults ∧
    (putProgram s stack e ds).twin = s.twin ∧ (putProgram s stack e ds).pwr = s.pwr ∧ (putProgram s stack e ds).sec = s.sec ∧
    (putProgram s stack e ds).flash = s.flash ∧ (putProgram s stack e ds).pins = s.pins ∧ (putProgram s stack e ds).trace = s.trace ∧
    (putProgram s stack e ds).pending = s.pending := by simp [putProgram]

@[simp] theorem setBufByte_frame (s : State) (stack i : Nat) (b : Byte) : (setBufByte s stack i b).grade = s.grade ∧
    (setBufByte s stack i b).fresh = s.fresh ∧ (setBufByte s stack i b).time = s.time ∧ (setBufByte s stack i b).bar = s.bar ∧
    (setBufByte s stack i b).mem = s.mem ∧ (setBufByte s stack i b).cores = s.cores ∧ (setBufByte s stack i b).sems = s.sems ∧
    (setBufByte s stack i b).hoists = s.hoists ∧ (setBufByte s stack i b).host = s.host ∧ (setBufByte s stack i b).parts = s.parts ∧
    (setBufByte s stack i b).se = s.se ∧ (setBufByte s stack i b).fab = s.fab ∧ (setBufByte s stack i b).faults = s.faults ∧
    (setBufByte s stack i b).twin = s.twin ∧ (setBufByte s stack i b).pwr = s.pwr ∧ (setBufByte s stack i b).sec = s.sec ∧
    (setBufByte s stack i b).flash = s.flash ∧ (setBufByte s stack i b).pins = s.pins ∧ (setBufByte s stack i b).trace = s.trace ∧
    (setBufByte s stack i b).pending = s.pending := by simp [setBufByte]

@[simp] theorem bufWrite_frame (s : State) (stack off : Nat) (bs : List Byte) : (bufWrite s stack off bs).grade = s.grade ∧
    (bufWrite s stack off bs).fresh = s.fresh ∧ (bufWrite s stack off bs).time = s.time ∧ (bufWrite s stack off bs).bar = s.bar ∧
    (bufWrite s stack off bs).mem = s.mem ∧ (bufWrite s stack off bs).cores = s.cores ∧ (bufWrite s stack off bs).sems = s.sems ∧
    (bufWrite s stack off bs).hoists = s.hoists ∧ (bufWrite s stack off bs).host = s.host ∧ (bufWrite s stack off bs).parts = s.parts ∧
    (bufWrite s stack off bs).se = s.se ∧ (bufWrite s stack off bs).fab = s.fab ∧ (bufWrite s stack off bs).faults = s.faults ∧
    (bufWrite s stack off bs).twin = s.twin ∧ (bufWrite s stack off bs).pwr = s.pwr ∧ (bufWrite s stack off bs).sec = s.sec ∧
    (bufWrite s stack off bs).flash = s.flash ∧ (bufWrite s stack off bs).pins = s.pins ∧ (bufWrite s stack off bs).trace = s.trace ∧
    (bufWrite s stack off bs).pending = s.pending := by simp [bufWrite]

@[simp] theorem setBufBit_frame (s : State) (stack off e : Nat) : (setBufBit s stack off e).grade = s.grade ∧
    (setBufBit s stack off e).fresh = s.fresh ∧ (setBufBit s stack off e).time = s.time ∧ (setBufBit s stack off e).bar = s.bar ∧
    (setBufBit s stack off e).mem = s.mem ∧ (setBufBit s stack off e).cores = s.cores ∧ (setBufBit s stack off e).sems = s.sems ∧
    (setBufBit s stack off e).hoists = s.hoists ∧ (setBufBit s stack off e).host = s.host ∧ (setBufBit s stack off e).parts = s.parts ∧
    (setBufBit s stack off e).se = s.se ∧ (setBufBit s stack off e).fab = s.fab ∧ (setBufBit s stack off e).faults = s.faults ∧
    (setBufBit s stack off e).twin = s.twin ∧ (setBufBit s stack off e).pwr = s.pwr ∧ (setBufBit s stack off e).sec = s.sec ∧
    (setBufBit s stack off e).flash = s.flash ∧ (setBufBit s stack off e).pins = s.pins ∧ (setBufBit s stack off e).trace = s.trace ∧
    (setBufBit s stack off e).pending = s.pending := by simp [setBufBit]

@[simp] theorem modProg_frame (s : State) (pid : Nat) (f : Program → Program) : (modProg s pid f).grade = s.grade ∧ (modProg s pid f).fresh = s.fresh ∧
    (modProg s pid f).time = s.time ∧ (modProg s pid f).bar = s.bar ∧ (modProg s pid f).mem = s.mem ∧ (modProg s pid f).cores = s.cores ∧
    (modProg s pid f).sems = s.sems ∧ (modProg s pid f).hoists = s.hoists ∧ (modProg s pid f).host = s.host ∧ (modProg s pid f).parts = s.parts ∧
    (modProg s pid f).se = s.se ∧ (modProg s pid f).fab = s.fab ∧ (modProg s pid f).faults = s.faults ∧ (modProg s pid f).twin = s.twin ∧
    (modProg s pid f).pwr = s.pwr ∧ (modProg s pid f).sec = s.sec ∧ (modProg s pid f).flash = s.flash ∧ (modProg s pid f).pins = s.pins ∧
    (modProg s pid f).trace = s.trace ∧ (modProg s pid f).pending = s.pending := by simp [modProg]

@[simp] theorem reserveRefused_frame (s : State) (stack : Nat) (bad : Option (Nat × Nat)) : (reserveRefused s stack bad).grade = s.grade ∧
    (reserveRefused s stack bad).fresh = s.fresh ∧ (reserveRefused s stack bad).time = s.time ∧ (reserveRefused s stack bad).mem = s.mem ∧
    (reserveRefused s stack bad).cores = s.cores ∧ (reserveRefused s stack bad).sems = s.sems ∧ (reserveRefused s stack bad).hoists = s.hoists ∧
    (reserveRefused s stack bad).nb = s.nb ∧ (reserveRefused s stack bad).host = s.host ∧ (reserveRefused s stack bad).parts = s.parts ∧
    (reserveRefused s stack bad).se = s.se ∧ (reserveRefused s stack bad).fab = s.fab ∧ (reserveRefused s stack bad).twin = s.twin ∧
    (reserveRefused s stack bad).pwr = s.pwr ∧ (reserveRefused s stack bad).sec = s.sec ∧ (reserveRefused s stack bad).flash = s.flash ∧
    (reserveRefused s stack bad).pins = s.pins ∧ (reserveRefused s stack bad).pending = s.pending := by
  unfold reserveRefused
  split <;> simp

@[simp] theorem startProgram_frame (s : State) (stack entry part : Nat) (tag : W32) (owner : ProgOwner) : (startProgram s stack entry part tag owner).2.grade = s.grade ∧
    (startProgram s stack entry part tag owner).2.time = s.time ∧ (startProgram s stack entry part tag owner).2.cores = s.cores ∧
    (startProgram s stack entry part tag owner).2.sems = s.sems ∧ (startProgram s stack entry part tag owner).2.hoists = s.hoists ∧
    (startProgram s stack entry part tag owner).2.host = s.host ∧ (startProgram s stack entry part tag owner).2.parts = s.parts ∧
    (startProgram s stack entry part tag owner).2.se = s.se ∧ (startProgram s stack entry part tag owner).2.fab = s.fab ∧
    (startProgram s stack entry part tag owner).2.twin = s.twin ∧ (startProgram s stack entry part tag owner).2.pwr = s.pwr ∧
    (startProgram s stack entry part tag owner).2.sec = s.sec ∧ (startProgram s stack entry part tag owner).2.flash = s.flash ∧
    (startProgram s stack entry part tag owner).2.pins = s.pins ∧
    (startProgram s stack entry part tag owner).2.pending = s.pending := by simp [startProgram]

@[simp] theorem setUnit_frame (s : State) (bank : Nat) (u : NbUnit) : (setUnit s bank u).grade = s.grade ∧ (setUnit s bank u).fresh = s.fresh ∧
    (setUnit s bank u).time = s.time ∧ (setUnit s bank u).bar = s.bar ∧ (setUnit s bank u).mem = s.mem ∧ (setUnit s bank u).cores = s.cores ∧
    (setUnit s bank u).sems = s.sems ∧ (setUnit s bank u).hoists = s.hoists ∧ (setUnit s bank u).host = s.host ∧ (setUnit s bank u).parts = s.parts ∧
    (setUnit s bank u).se = s.se ∧ (setUnit s bank u).fab = s.fab ∧ (setUnit s bank u).faults = s.faults ∧ (setUnit s bank u).twin = s.twin ∧
    (setUnit s bank u).pwr = s.pwr ∧ (setUnit s bank u).sec = s.sec ∧ (setUnit s bank u).flash = s.flash ∧ (setUnit s bank u).pins = s.pins ∧
    (setUnit s bank u).trace = s.trace ∧ (setUnit s bank u).pending = s.pending := by simp [setUnit]

@[simp] theorem spill_frame (s : State) (p : Program) (d : Line) (bank seg : Nat) : (spill s p d bank seg).grade = s.grade ∧
    (spill s p d bank seg).fresh = s.fresh ∧ (spill s p d bank seg).time = s.time ∧ (spill s p d bank seg).bar = s.bar ∧
    (spill s p d bank seg).mem = s.mem ∧ (spill s p d bank seg).cores = s.cores ∧ (spill s p d bank seg).sems = s.sems ∧
    (spill s p d bank seg).hoists = s.hoists ∧ (spill s p d bank seg).host = s.host ∧ (spill s p d bank seg).parts = s.parts ∧
    (spill s p d bank seg).se = s.se ∧ (spill s p d bank seg).fab = s.fab ∧ (spill s p d bank seg).faults = s.faults ∧
    (spill s p d bank seg).twin = s.twin ∧ (spill s p d bank seg).pwr = s.pwr ∧ (spill s p d bank seg).sec = s.sec ∧
    (spill s p d bank seg).flash = s.flash ∧ (spill s p d bank seg).pins = s.pins ∧ (spill s p d bank seg).trace = s.trace ∧
    (spill s p d bank seg).pending = s.pending := by simp [spill]

@[simp] theorem loosen_frame (s : State) (p : Program) (d : Line) : (loosen s p d).grade = s.grade ∧ (loosen s p d).time = s.time ∧
    (loosen s p d).bar = s.bar ∧ (loosen s p d).mem = s.mem ∧ (loosen s p d).cores = s.cores ∧ (loosen s p d).sems = s.sems ∧
    (loosen s p d).hoists = s.hoists ∧ (loosen s p d).host = s.host ∧ (loosen s p d).parts = s.parts ∧ (loosen s p d).se = s.se ∧
    (loosen s p d).fab = s.fab ∧ (loosen s p d).faults = s.faults ∧ (loosen s p d).twin = s.twin ∧ (loosen s p d).pwr = s.pwr ∧
    (loosen s p d).sec = s.sec ∧ (loosen s p d).flash = s.flash ∧ (loosen s p d).pins = s.pins ∧ (loosen s p d).trace = s.trace ∧
    (loosen s p d).pending = s.pending := by
  unfold loosen
  split <;> simp

@[simp] theorem blastRecord_frame (s : State) (stack idx : Nat) (d : Line) (st : W16) (detail : W32) : (blastRecord s stack idx d st detail).grade = s.grade ∧
    (blastRecord s stack idx d st detail).time = s.time ∧ (blastRecord s stack idx d st detail).hoists = s.hoists ∧
    (blastRecord s stack idx d st detail).nb = s.nb ∧ (blastRecord s stack idx d st detail).parts = s.parts ∧
    (blastRecord s stack idx d st detail).se = s.se ∧ (blastRecord s stack idx d st detail).fab = s.fab ∧
    (blastRecord s stack idx d st detail).twin = s.twin ∧ (blastRecord s stack idx d st detail).pwr = s.pwr ∧
    (blastRecord s stack idx d st detail).sec = s.sec ∧ (blastRecord s stack idx d st detail).flash = s.flash ∧
    (blastRecord s stack idx d st detail).pins = s.pins ∧ (blastRecord s stack idx d st detail).pending = s.pending := by simp [blastRecord]

/-! ## Issue.lean -/

@[simp] theorem breach_frame (s : State) (id kind object before after : Nat) : (breach s id kind object before after).grade = s.grade ∧
    (breach s id kind object before after).fresh = s.fresh ∧ (breach s id kind object before after).time = s.time ∧
    (breach s id kind object before after).mem = s.mem ∧ (breach s id kind object before after).sems = s.sems ∧
    (breach s id kind object before after).hoists = s.hoists ∧ (breach s id kind object before after).nb = s.nb ∧
    (breach s id kind object before after).host = s.host ∧ (breach s id kind object before after).parts = s.parts ∧
    (breach s id kind object before after).se = s.se ∧ (breach s id kind object before after).fab = s.fab ∧
    (breach s id kind object before after).twin = s.twin ∧ (breach s id kind object before after).pwr = s.pwr ∧
    (breach s id kind object before after).sec = s.sec ∧ (breach s id kind object before after).flash = s.flash ∧
    (breach s id kind object before after).pins = s.pins ∧ (breach s id kind object before after).pending = s.pending := by
  unfold breach
  repeat' split
  all_goals simp

@[simp] theorem cleanEnd_frame (s : State) (j : Job) (t : Tid) : (cleanEnd s j t).grade = s.grade ∧ (cleanEnd s j t).fresh = s.fresh ∧
    (cleanEnd s j t).time = s.time ∧ (cleanEnd s j t).mem = s.mem ∧ (cleanEnd s j t).sems = s.sems ∧ (cleanEnd s j t).hoists = s.hoists ∧
    (cleanEnd s j t).nb = s.nb ∧ (cleanEnd s j t).host = s.host ∧ (cleanEnd s j t).parts = s.parts ∧ (cleanEnd s j t).se = s.se ∧
    (cleanEnd s j t).fab = s.fab ∧ (cleanEnd s j t).twin = s.twin ∧ (cleanEnd s j t).pwr = s.pwr ∧ (cleanEnd s j t).sec = s.sec ∧
    (cleanEnd s j t).flash = s.flash ∧ (cleanEnd s j t).pins = s.pins ∧ (cleanEnd s j t).pending = s.pending := by simp [cleanEnd]

@[simp] theorem finishIssue_frame (e : Ev) : (finishIssue e).grade = e.s.grade ∧ (finishIssue e).fresh = e.s.fresh ∧ (finishIssue e).time = e.s.time ∧
    (finishIssue e).mem = e.s.mem ∧ (finishIssue e).sems = e.s.sems ∧ (finishIssue e).hoists = e.s.hoists ∧ (finishIssue e).nb = e.s.nb ∧
    (finishIssue e).host = e.s.host ∧ (finishIssue e).parts = e.s.parts ∧ (finishIssue e).se = e.s.se ∧ (finishIssue e).fab = e.s.fab ∧
    (finishIssue e).twin = e.s.twin ∧ (finishIssue e).pwr = e.s.pwr ∧ (finishIssue e).sec = e.s.sec ∧ (finishIssue e).flash = e.s.flash ∧
    (finishIssue e).pins = e.s.pins ∧ (finishIssue e).pending = e.s.pending := by
  unfold finishIssue
  dsimp only
  repeat' split
  all_goals simp

@[simp] theorem fetchStatus_frame (s : State) (j : Job) (th : Thread) (n : Nat) : (fetchStatus s j th n).2.grade = s.grade ∧
    (fetchStatus s j th n).2.time = s.time ∧ (fetchStatus s j th n).2.cores = s.cores ∧ (fetchStatus s j th n).2.sems = s.sems ∧
    (fetchStatus s j th n).2.hoists = s.hoists ∧ (fetchStatus s j th n).2.nb = s.nb ∧ (fetchStatus s j th n).2.host = s.host ∧
    (fetchStatus s j th n).2.parts = s.parts ∧ (fetchStatus s j th n).2.se = s.se ∧ (fetchStatus s j th n).2.fab = s.fab ∧
    (fetchStatus s j th n).2.twin = s.twin ∧ (fetchStatus s j th n).2.pwr = s.pwr ∧ (fetchStatus s j th n).2.sec = s.sec ∧
    (fetchStatus s j th n).2.flash = s.flash ∧ (fetchStatus s j th n).2.pins = s.pins ∧
    (fetchStatus s j th n).2.pending = s.pending := by simp [fetchStatus]

@[simp] theorem endThread_frame (s : State) (j : Job) (t : Tid) : (endThread s j t).grade = s.grade ∧ (endThread s j t).fresh = s.fresh ∧
    (endThread s j t).time = s.time ∧ (endThread s j t).mem = s.mem ∧ (endThread s j t).sems = s.sems ∧ (endThread s j t).hoists = s.hoists ∧
    (endThread s j t).nb = s.nb ∧ (endThread s j t).host = s.host ∧ (endThread s j t).parts = s.parts ∧ (endThread s j t).se = s.se ∧
    (endThread s j t).fab = s.fab ∧ (endThread s j t).twin = s.twin ∧ (endThread s j t).pwr = s.pwr ∧ (endThread s j t).sec = s.sec ∧
    (endThread s j t).flash = s.flash ∧ (endThread s j t).pins = s.pins ∧ (endThread s j t).pending = s.pending := by simp [endThread]

/-! ## MemRows.lean -/

@[simp] theorem completeDop_frame (s : State) (pc : Nat) (d : DOp) : (completeDop s pc d).grade = s.grade ∧ (completeDop s pc d).time = s.time ∧
    (completeDop s pc d).sems = s.sems ∧ (completeDop s pc d).hoists = s.hoists ∧ (completeDop s pc d).nb = s.nb ∧ (completeDop s pc d).host = s.host ∧
    (completeDop s pc d).parts = s.parts ∧ (completeDop s pc d).se = s.se ∧ (completeDop s pc d).fab = s.fab ∧ (completeDop s pc d).twin = s.twin ∧
    (completeDop s pc d).pwr = s.pwr ∧ (completeDop s pc d).sec = s.sec ∧ (completeDop s pc d).flash = s.flash ∧ (completeDop s pc d).pins = s.pins ∧
    (completeDop s pc d).pending = s.pending := by
  unfold completeDop
  dsimp only
  repeat' split
  all_goals simp

@[simp] theorem removeOp_frame (s : State) (id : Nat) : (removeOp s id).grade = s.grade ∧ (removeOp s id).fresh = s.fresh ∧
    (removeOp s id).time = s.time ∧ (removeOp s id).bar = s.bar ∧ (removeOp s id).mem = s.mem ∧ (removeOp s id).sems = s.sems ∧
    (removeOp s id).hoists = s.hoists ∧ (removeOp s id).nb = s.nb ∧ (removeOp s id).host = s.host ∧ (removeOp s id).parts = s.parts ∧
    (removeOp s id).se = s.se ∧ (removeOp s id).fab = s.fab ∧ (removeOp s id).faults = s.faults ∧ (removeOp s id).twin = s.twin ∧
    (removeOp s id).pwr = s.pwr ∧ (removeOp s id).sec = s.sec ∧ (removeOp s id).flash = s.flash ∧ (removeOp s id).pins = s.pins ∧
    (removeOp s id).trace = s.trace ∧ (removeOp s id).pending = s.pending := by simp [removeOp]

@[simp] theorem landOp_frame (s : State) (o : MemOp) : (landOp s o).grade = s.grade ∧ (landOp s o).fresh = s.fresh ∧ (landOp s o).time = s.time ∧
    (landOp s o).mem = s.mem ∧ (landOp s o).sems = s.sems ∧ (landOp s o).hoists = s.hoists ∧ (landOp s o).nb = s.nb ∧ (landOp s o).host = s.host ∧
    (landOp s o).se = s.se ∧ (landOp s o).twin = s.twin ∧ (landOp s o).pwr = s.pwr ∧ (landOp s o).sec = s.sec ∧ (landOp s o).flash = s.flash ∧
    (landOp s o).pins = s.pins ∧ (landOp s o).pending = s.pending := by
  unfold landOp
  split <;> simp

end Sys2Proof.Machine
end

