-- ==== Sys2Proof/Laws/FrameCmd.lean ====
section
/-! SUPPORT. Frames of the operations of command packets, queues, jobs, recoveries, stacks and sessions: the pieces of the state each one leaves as they are, one lemma per operation. -/
namespace Sys2Proof.Machine

/-! ## CmdOps.lean -/

@[simp] theorem setQp_frame (s : State) (q : Nat) (x : QueuePair) : (setQp s q x).grade = s.grade ∧ (setQp s q x).fresh = s.fresh ∧
    (setQp s q x).time = s.time ∧ (setQp s q x).bar = s.bar ∧ (setQp s q x).mem = s.mem ∧ (setQp s q x).cores = s.cores ∧ (setQp s q x).sems = s.sems ∧
    (setQp s q x).hoists = s.hoists ∧ (setQp s q x).nb = s.nb ∧ (setQp s q x).parts = s.parts ∧ (setQp s q x).se = s.se ∧ (setQp s q x).fab = s.fab ∧
    (setQp s q x).faults = s.faults ∧ (setQp s q x).twin = s.twin ∧ (setQp s q x).pwr = s.pwr ∧ (setQp s q x).sec = s.sec ∧
    (setQp s q x).flash = s.flash ∧ (setQp s q x).pins = s.pins ∧ (setQp s q x).trace = s.trace ∧ (setQp s q x).pending = s.pending := by simp [setQp]

@[simp] theorem modQp_frame (s : State) (q : Nat) (f : QueuePair → QueuePair) : (modQp s q f).grade = s.grade ∧ (modQp s q f).fresh = s.fresh ∧
    (modQp s q f).time = s.time ∧ (modQp s q f).bar = s.bar ∧ (modQp s q f).mem = s.mem ∧ (modQp s q f).cores = s.cores ∧ (modQp s q f).sems = s.sems ∧
    (modQp s q f).hoists = s.hoists ∧ (modQp s q f).nb = s.nb ∧ (modQp s q f).parts = s.parts ∧ (modQp s q f).se = s.se ∧ (modQp s q f).fab = s.fab ∧
    (modQp s q f).faults = s.faults ∧ (modQp s q f).twin = s.twin ∧ (modQp s q f).pwr = s.pwr ∧ (modQp s q f).sec = s.sec ∧
    (modQp s q f).flash = s.flash ∧ (modQp s q f).pins = s.pins ∧ (modQp s q f).trace = s.trace ∧ (modQp s q f).pending = s.pending := by simp [modQp]

@[simp] theorem modCmd_frame (s : State) (id : Nat) (f : Cmd → Cmd) : (modCmd s id f).grade = s.grade ∧ (modCmd s id f).fresh = s.fresh ∧
    (modCmd s id f).time = s.time ∧ (modCmd s id f).bar = s.bar ∧ (modCmd s id f).mem = s.mem ∧ (modCmd s id f).cores = s.cores ∧
    (modCmd s id f).sems = s.sems ∧ (modCmd s id f).hoists = s.hoists ∧ (modCmd s id f).nb = s.nb ∧ (modCmd s id f).parts = s.parts ∧
    (modCmd s id f).se = s.se ∧ (modCmd s id f).fab = s.fab ∧ (modCmd s id f).faults = s.faults ∧ (modCmd s id f).twin = s.twin ∧
    (modCmd s id f).pwr = s.pwr ∧ (modCmd s id f).sec = s.sec ∧ (modCmd s id f).flash = s.flash ∧ (modCmd s id f).pins = s.pins ∧
    (modCmd s id f).trace = s.trace ∧ (modCmd s id f).pending = s.pending := by simp [modCmd]

@[simp] theorem sendResponse_frame (s : State) (peer cls p : Nat) (op : OpHeader) (payload : List Byte) : (sendResponse s peer cls p op payload).grade = s.grade ∧
    (sendResponse s peer cls p op payload).fresh = s.fresh ∧ (sendResponse s peer cls p op payload).time = s.time ∧
    (sendResponse s peer cls p op payload).mem = s.mem ∧ (sendResponse s peer cls p op payload).cores = s.cores ∧
    (sendResponse s peer cls p op payload).sems = s.sems ∧ (sendResponse s peer cls p op payload).hoists = s.hoists ∧
    (sendResponse s peer cls p op payload).nb = s.nb ∧ (sendResponse s peer cls p op payload).host = s.host ∧
    (sendResponse s peer cls p op payload).se = s.se ∧ (sendResponse s peer cls p op payload).faults = s.faults ∧
    (sendResponse s peer cls p op payload).twin = s.twin ∧ (sendResponse s peer cls p op payload).pwr = s.pwr ∧
    (sendResponse s peer cls p op payload).sec = s.sec ∧ (sendResponse s peer cls p op payload).flash = s.flash ∧
    (sendResponse s peer cls p op payload).pins = s.pins ∧ (sendResponse s peer cls p op payload).trace = s.trace ∧
    (sendResponse s peer cls p op payload).pending = s.pending := by simp [sendResponse]

@[simp] theorem dropCmd_frame (s : State) (id : Nat) : (dropCmd s id).grade = s.grade ∧ (dropCmd s id).fresh = s.fresh ∧ (dropCmd s id).time = s.time ∧
    (dropCmd s id).bar = s.bar ∧ (dropCmd s id).mem = s.mem ∧ (dropCmd s id).cores = s.cores ∧ (dropCmd s id).sems = s.sems ∧
    (dropCmd s id).hoists = s.hoists ∧ (dropCmd s id).nb = s.nb ∧ (dropCmd s id).parts = s.parts ∧ (dropCmd s id).se = s.se ∧
    (dropCmd s id).fab = s.fab ∧ (dropCmd s id).faults = s.faults ∧ (dropCmd s id).twin = s.twin ∧ (dropCmd s id).pwr = s.pwr ∧
    (dropCmd s id).sec = s.sec ∧ (dropCmd s id).flash = s.flash ∧ (dropCmd s id).pins = s.pins ∧ (dropCmd s id).trace = s.trace ∧
    (dropCmd s id).pending = s.pending := by simp [dropCmd]

@[simp] theorem writeStatus_frame (s : State) (c : Cmd) (st : W16) (detail result : Nat) : (writeStatus s c st detail result).grade = s.grade ∧
    (writeStatus s c st detail result).fresh = s.fresh ∧ (writeStatus s c st detail result).time = s.time ∧
    (writeStatus s c st detail result).mem = s.mem ∧ (writeStatus s c st detail result).cores = s.cores ∧
    (writeStatus s c st detail result).sems = s.sems ∧ (writeStatus s c st detail result).hoists = s.hoists ∧
    (writeStatus s c st detail result).nb = s.nb ∧ (writeStatus s c st detail result).se = s.se ∧ (writeStatus s c st detail result).twin = s.twin ∧
    (writeStatus s c st detail result).pwr = s.pwr ∧ (writeStatus s c st detail result).sec = s.sec ∧
    (writeStatus s c st detail result).flash = s.flash ∧ (writeStatus s c st detail result).pins = s.pins ∧
    (writeStatus s c st detail result).pending = s.pending := by
  unfold writeStatus
  repeat' split
  all_goals simp

@[simp] theorem postStatus_frame (s : State) (c : Cmd) (st : W16) (detail result : Nat) : (postStatus s c st detail result).grade = s.grade ∧
    (postStatus s c st detail result).time = s.time ∧ (postStatus s c st detail result).cores = s.cores ∧
    (postStatus s c st detail result).sems = s.sems ∧ (postStatus s c st detail result).hoists = s.hoists ∧
    (postStatus s c st detail result).nb = s.nb ∧ (postStatus s c st detail result).se = s.se ∧ (postStatus s c st detail result).twin = s.twin ∧
    (postStatus s c st detail result).pwr = s.pwr ∧ (postStatus s c st detail result).sec = s.sec ∧ (postStatus s c st detail result).flash = s.flash ∧
    (postStatus s c st detail result).pins = s.pins ∧ (postStatus s c st detail result).pending = s.pending := by simp [postStatus]

@[simp] theorem settleDelete_frame (s : State) (q : Nat) : (settleDelete s q).grade = s.grade ∧ (settleDelete s q).time = s.time ∧
    (settleDelete s q).cores = s.cores ∧ (settleDelete s q).sems = s.sems ∧ (settleDelete s q).hoists = s.hoists ∧ (settleDelete s q).nb = s.nb ∧
    (settleDelete s q).se = s.se ∧ (settleDelete s q).twin = s.twin ∧ (settleDelete s q).pwr = s.pwr ∧ (settleDelete s q).sec = s.sec ∧
    (settleDelete s q).flash = s.flash ∧ (settleDelete s q).pins = s.pins ∧ (settleDelete s q).pending = s.pending := by
  unfold settleDelete
  dsimp only
  repeat' split
  all_goals simp

@[simp] theorem complete_frame (s : State) (c : Cmd) (st : W16) (detail result : Nat) : (complete s c st detail result).grade = s.grade ∧
    (complete s c st detail result).time = s.time ∧ (complete s c st detail result).cores = s.cores ∧ (complete s c st detail result).sems = s.sems ∧
    (complete s c st detail result).hoists = s.hoists ∧ (complete s c st detail result).nb = s.nb ∧ (complete s c st detail result).se = s.se ∧
    (complete s c st detail result).twin = s.twin ∧ (complete s c st detail result).pwr = s.pwr ∧ (complete s c st detail result).sec = s.sec ∧
    (complete s c st detail result).flash = s.flash ∧ (complete s c st detail result).pins = s.pins ∧
    (complete s c st detail result).pending = s.pending := by simp [complete]

@[simp] theorem logAbsent_frame (s : State) (c : Cmd) : (logAbsent s c).grade = s.grade ∧ (logAbsent s c).fresh = s.fresh ∧
    (logAbsent s c).time = s.time ∧ (logAbsent s c).mem = s.mem ∧ (logAbsent s c).cores = s.cores ∧ (logAbsent s c).sems = s.sems ∧
    (logAbsent s c).hoists = s.hoists ∧ (logAbsent s c).nb = s.nb ∧ (logAbsent s c).parts = s.parts ∧ (logAbsent s c).se = s.se ∧
    (logAbsent s c).fab = s.fab ∧ (logAbsent s c).twin = s.twin ∧ (logAbsent s c).pwr = s.pwr ∧ (logAbsent s c).sec = s.sec ∧
    (logAbsent s c).flash = s.flash ∧ (logAbsent s c).pins = s.pins ∧ (logAbsent s c).pending = s.pending := by simp [logAbsent]

@[simp] theorem reject_frame (s : State) (c : Cmd) (st : W16) (detail : Nat) : (reject s c st detail).grade = s.grade ∧
    (reject s c st detail).time = s.time ∧ (reject s c st detail).cores = s.cores ∧ (reject s c st detail).sems = s.sems ∧
    (reject s c st detail).hoists = s.hoists ∧ (reject s c st detail).nb = s.nb ∧ (reject s c st detail).se = s.se ∧
    (reject s c st detail).twin = s.twin ∧ (reject s c st detail).pwr = s.pwr ∧ (reject s c st detail).sec = s.sec ∧
    (reject s c st detail).flash = s.flash ∧ (reject s c st detail).pins = s.pins ∧ (reject s c st detail).pending = s.pending := by simp [reject]

@[simp] theorem structRead_frame (s : State) (c : Cmd) (a : W64) (n : Nat) : (structRead s c a n).2.2.grade = s.grade ∧
    (structRead s c a n).2.2.time = s.time ∧ (structRead s c a n).2.2.cores = s.cores ∧ (structRead s c a n).2.2.sems = s.sems ∧
    (structRead s c a n).2.2.hoists = s.hoists ∧ (structRead s c a n).2.2.nb = s.nb ∧ (structRead s c a n).2.2.host = s.host ∧
    (structRead s c a n).2.2.parts = s.parts ∧ (structRead s c a n).2.2.se = s.se ∧ (structRead s c a n).2.2.fab = s.fab ∧
    (structRead s c a n).2.2.twin = s.twin ∧ (structRead s c a n).2.2.pwr = s.pwr ∧ (structRead s c a n).2.2.sec = s.sec ∧
    (structRead s c a n).2.2.flash = s.flash ∧ (structRead s c a n).2.2.pins = s.pins ∧
    (structRead s c a n).2.2.pending = s.pending := by simp [structRead]

@[simp] theorem replyBuffer_frame (s : State) (c : Cmd) (a : W64) (bs : List Byte) (result : Nat) : (replyBuffer s c a bs result).grade = s.grade ∧
    (replyBuffer s c a bs result).time = s.time ∧ (replyBuffer s c a bs result).sems = s.sems ∧ (replyBuffer s c a bs result).hoists = s.hoists ∧
    (replyBuffer s c a bs result).nb = s.nb ∧ (replyBuffer s c a bs result).se = s.se ∧ (replyBuffer s c a bs result).twin = s.twin ∧
    (replyBuffer s c a bs result).pwr = s.pwr ∧ (replyBuffer s c a bs result).sec = s.sec ∧ (replyBuffer s c a bs result).flash = s.flash ∧
    (replyBuffer s c a bs result).pins = s.pins ∧ (replyBuffer s c a bs result).pending = s.pending := by simp [replyBuffer]

@[simp] theorem tally_frame (s : State) (client i : Nat) : (tally s client i).grade = s.grade ∧ (tally s client i).fresh = s.fresh ∧
    (tally s client i).time = s.time ∧ (tally s client i).mem = s.mem ∧ (tally s client i).cores = s.cores ∧ (tally s client i).sems = s.sems ∧
    (tally s client i).hoists = s.hoists ∧ (tally s client i).nb = s.nb ∧ (tally s client i).host = s.host ∧ (tally s client i).parts = s.parts ∧
    (tally s client i).se = s.se ∧ (tally s client i).fab = s.fab ∧ (tally s client i).faults = s.faults ∧ (tally s client i).twin = s.twin ∧
    (tally s client i).pwr = s.pwr ∧ (tally s client i).sec = s.sec ∧ (tally s client i).flash = s.flash ∧ (tally s client i).pins = s.pins ∧
    (tally s client i).trace = s.trace ∧ (tally s client i).pending = s.pending := by simp [tally]

/-! ## NearBank.lean -/

@[simp] theorem aptSettle_frame (s : State) : (aptSettle s).grade = s.grade ∧ (aptSettle s).fresh = s.fresh ∧ (aptSettle s).time = s.time ∧
    (aptSettle s).bar = s.bar ∧ (aptSettle s).mem = s.mem ∧ (aptSettle s).cores = s.cores ∧ (aptSettle s).sems = s.sems ∧
    (aptSettle s).hoists = s.hoists ∧ (aptSettle s).host = s.host ∧ (aptSettle s).parts = s.parts ∧ (aptSettle s).se = s.se ∧
    (aptSettle s).fab = s.fab ∧ (aptSettle s).faults = s.faults ∧ (aptSettle s).twin = s.twin ∧ (aptSettle s).pwr = s.pwr ∧ (aptSettle s).sec = s.sec ∧
    (aptSettle s).flash = s.flash ∧ (aptSettle s).pins = s.pins ∧ (aptSettle s).trace = s.trace ∧
    (aptSettle s).pending = s.pending := by simp [aptSettle]

@[simp] theorem settleRun_frame (s : State) (id : Nat) : (settleRun s id).grade = s.grade ∧ (settleRun s id).time = s.time ∧
    (settleRun s id).cores = s.cores ∧ (settleRun s id).sems = s.sems ∧ (settleRun s id).hoists = s.hoists ∧ (settleRun s id).se = s.se ∧
    (settleRun s id).twin = s.twin ∧ (settleRun s id).pwr = s.pwr ∧ (settleRun s id).sec = s.sec ∧ (settleRun s id).flash = s.flash ∧
    (settleRun s id).pins = s.pins ∧ (settleRun s id).pending = s.pending := by
  unfold settleRun
  dsimp only
  repeat' split
  all_goals simp

@[simp] theorem endProgram_frame (s : State) (p : Program) (st : W16) (detail : W32) : (endProgram s p st detail).grade = s.grade ∧
    (endProgram s p st detail).time = s.time ∧ (endProgram s p st detail).cores = s.cores ∧ (endProgram s p st detail).sems = s.sems ∧
    (endProgram s p st detail).hoists = s.hoists ∧ (endProgram s p st detail).se = s.se ∧ (endProgram s p st detail).twin = s.twin ∧
    (endProgram s p st detail).pwr = s.pwr ∧ (endProgram s p st detail).sec = s.sec ∧ (endProgram s p st detail).flash = s.flash ∧
    (endProgram s p st detail).pins = s.pins ∧ (endProgram s p st detail).pending = s.pending := by
  unfold endProgram
  split <;> simp

@[simp] theorem abortProgram_frame (s : State) (p : Program) : (abortProgram s p).grade = s.grade ∧ (abortProgram s p).time = s.time ∧
    (abortProgram s p).hoists = s.hoists ∧ (abortProgram s p).se = s.se ∧ (abortProgram s p).twin = s.twin ∧ (abortProgram s p).pwr = s.pwr ∧
    (abortProgram s p).sec = s.sec ∧ (abortProgram s p).flash = s.flash ∧ (abortProgram s p).pins = s.pins ∧
    (abortProgram s p).pending = s.pending := by
  unfold abortProgram
  dsimp only
  repeat' split
  all_goals simp

@[simp] theorem flushRegion_frame (s : State) (r : Region) : (flushRegion s r).grade = s.grade ∧ (flushRegion s r).time = s.time ∧
    (flushRegion s r).cores = s.cores ∧ (flushRegion s r).sems = s.sems ∧ (flushRegion s r).hoists = s.hoists ∧ (flushRegion s r).nb = s.nb ∧
    (flushRegion s r).host = s.host ∧ (flushRegion s r).parts = s.parts ∧ (flushRegion s r).se = s.se ∧ (flushRegion s r).fab = s.fab ∧
    (flushRegion s r).twin = s.twin ∧ (flushRegion s r).pwr = s.pwr ∧ (flushRegion s r).sec = s.sec ∧ (flushRegion s r).flash = s.flash ∧
    (flushRegion s r).pins = s.pins ∧ (flushRegion s r).pending = s.pending := by simp [flushRegion]

@[simp] theorem startCompute_frame (s : State) (p : Program) : (startCompute s p).grade = s.grade ∧ (startCompute s p).time = s.time ∧
    (startCompute s p).cores = s.cores ∧ (startCompute s p).sems = s.sems ∧ (startCompute s p).hoists = s.hoists ∧ (startCompute s p).host = s.host ∧
    (startCompute s p).parts = s.parts ∧ (startCompute s p).se = s.se ∧ (startCompute s p).fab = s.fab ∧ (startCompute s p).twin = s.twin ∧
    (startCompute s p).pwr = s.pwr ∧ (startCompute s p).sec = s.sec ∧ (startCompute s p).flash = s.flash ∧ (startCompute s p).pins = s.pins ∧
    (startCompute s p).pending = s.pending := by
  unfold startCompute
  dsimp only
  repeat' split
  all_goals simp

@[simp] theorem entryDone_frame (s : State) (pid : Nat) : (entryDone s pid).grade = s.grade ∧ (entryDone s pid).fresh = s.fresh ∧
    (entryDone s pid).time = s.time ∧ (entryDone s pid).bar = s.bar ∧ (entryDone s pid).mem = s.mem ∧ (entryDone s pid).cores = s.cores ∧
    (entryDone s pid).sems = s.sems ∧ (entryDone s pid).hoists = s.hoists ∧ (entryDone s pid).host = s.host ∧ (entryDone s pid).parts = s.parts ∧
    (entryDone s pid).se = s.se ∧ (entryDone s pid).fab = s.fab ∧ (entryDone s pid).faults = s.faults ∧ (entryDone s pid).twin = s.twin ∧
    (entryDone s pid).pwr = s.pwr ∧ (entryDone s pid).sec = s.sec ∧ (entryDone s pid).flash = s.flash ∧ (entryDone s pid).pins = s.pins ∧
    (entryDone s pid).trace = s.trace ∧ (entryDone s pid).pending = s.pending := by simp [entryDone]

@[simp] theorem discardLines_frame (s : State) (past : Nat → Bool) : (discardLines s past).grade = s.grade ∧ (discardLines s past).fresh = s.fresh ∧
    (discardLines s past).time = s.time ∧ (discardLines s past).bar = s.bar ∧ (discardLines s past).cores = s.cores ∧
    (discardLines s past).sems = s.sems ∧ (discardLines s past).hoists = s.hoists ∧ (discardLines s past).nb = s.nb ∧
    (discardLines s past).host = s.host ∧ (discardLines s past).parts = s.parts ∧ (discardLines s past).se = s.se ∧ (discardLines s past).fab = s.fab ∧
    (discardLines s past).faults = s.faults ∧ (discardLines s past).twin = s.twin ∧ (discardLines s past).pwr = s.pwr ∧
    (discardLines s past).sec = s.sec ∧ (discardLines s past).flash = s.flash ∧ (discardLines s past).pins = s.pins ∧
    (discardLines s past).trace = s.trace ∧ (discardLines s past).pending = s.pending := by simp [discardLines]

@[simp] theorem refreshRateNb_frame (s : State) : (refreshRateNb s).grade = s.grade ∧ (refreshRateNb s).fresh = s.fresh ∧
    (refreshRateNb s).time = s.time ∧ (refreshRateNb s).mem = s.mem ∧ (refreshRateNb s).cores = s.cores ∧ (refreshRateNb s).sems = s.sems ∧
    (refreshRateNb s).hoists = s.hoists ∧ (refreshRateNb s).nb = s.nb ∧ (refreshRateNb s).host = s.host ∧ (refreshRateNb s).parts = s.parts ∧
    (refreshRateNb s).se = s.se ∧ (refreshRateNb s).fab = s.fab ∧ (refreshRateNb s).faults = s.faults ∧ (refreshRateNb s).twin = s.twin ∧
    (refreshRateNb s).pwr = s.pwr ∧ (refreshRateNb s).sec = s.sec ∧ (refreshRateNb s).flash = s.flash ∧ (refreshRateNb s).pins = s.pins ∧
    (refreshRateNb s).trace = s.trace ∧ (refreshRateNb s).pending = s.pending := by simp [refreshRateNb]

@[simp] theorem aptControl_frame (s : State) (control : Line) : (aptControl s control).grade = s.grade ∧ (aptControl s control).time = s.time ∧
    (aptControl s control).cores = s.cores ∧ (aptControl s control).sems = s.sems ∧ (aptControl s control).hoists = s.hoists ∧
    (aptControl s control).host = s.host ∧ (aptControl s control).parts = s.parts ∧ (aptControl s control).se = s.se ∧
    (aptControl s control).fab = s.fab ∧ (aptControl s control).twin = s.twin ∧ (aptControl s control).pwr = s.pwr ∧
    (aptControl s control).sec = s.sec ∧ (aptControl s control).flash = s.flash ∧ (aptControl s control).pins = s.pins ∧
    (aptControl s control).pending = s.pending := by
  unfold aptControl
  dsimp only
  repeat' split
  all_goals simp

/-! ## QueueCmds.lean -/

@[simp] theorem queueError_frame (s : State) (q idx : Nat) : (queueError s q idx).grade = s.grade ∧ (queueError s q idx).fresh = s.fresh ∧
    (queueError s q idx).time = s.time ∧ (queueError s q idx).mem = s.mem ∧ (queueError s q idx).cores = s.cores ∧ (queueError s q idx).sems = s.sems ∧
    (queueError s q idx).hoists = s.hoists ∧ (queueError s q idx).nb = s.nb ∧ (queueError s q idx).parts = s.parts ∧ (queueError s q idx).se = s.se ∧
    (queueError s q idx).fab = s.fab ∧ (queueError s q idx).twin = s.twin ∧ (queueError s q idx).pwr = s.pwr ∧ (queueError s q idx).sec = s.sec ∧
    (queueError s q idx).flash = s.flash ∧ (queueError s q idx).pins = s.pins ∧ (queueError s q idx).pending = s.pending := by simp [queueError]

@[simp] theorem doorbell_frame (s : State) (q idx : Nat) : (doorbell s q idx).grade = s.grade ∧ (doorbell s q idx).fresh = s.fresh ∧
    (doorbell s q idx).time = s.time ∧ (doorbell s q idx).mem = s.mem ∧ (doorbell s q idx).cores = s.cores ∧ (doorbell s q idx).sems = s.sems ∧
    (doorbell s q idx).hoists = s.hoists ∧ (doorbell s q idx).nb = s.nb ∧ (doorbell s q idx).parts = s.parts ∧ (doorbell s q idx).se = s.se ∧
    (doorbell s q idx).fab = s.fab ∧ (doorbell s q idx).twin = s.twin ∧ (doorbell s q idx).pwr = s.pwr ∧ (doorbell s q idx).sec = s.sec ∧
    (doorbell s q idx).flash = s.flash ∧ (doorbell s q idx).pins = s.pins ∧ (doorbell s q idx).pending = s.pending := by simp [doorbell]

@[simp] theorem freeCompletions_frame (s : State) (q idx : Nat) : (freeCompletions s q idx).grade = s.grade ∧
    (freeCompletions s q idx).fresh = s.fresh ∧ (freeCompletions s q idx).time = s.time ∧ (freeCompletions s q idx).mem = s.mem ∧
    (freeCompletions s q idx).cores = s.cores ∧ (freeCompletions s q idx).sems = s.sems ∧ (freeCompletions s q idx).hoists = s.hoists ∧
    (freeCompletions s q idx).nb = s.nb ∧ (freeCompletions s q idx).parts = s.parts ∧ (freeCompletions s q idx).se = s.se ∧
    (freeCompletions s q idx).fab = s.fab ∧ (freeCompletions s q idx).twin = s.twin ∧ (freeCompletions s q idx).pwr = s.pwr ∧
    (freeCompletions s q idx).sec = s.sec ∧ (freeCompletions s q idx).flash = s.flash ∧ (freeCompletions s q idx).pins = s.pins ∧
    (freeCompletions s q idx).pending = s.pending := by simp [freeCompletions]

@[simp] theorem keptDoorbells_frame (s : State) (q : Nat) (old : QueuePair) : (keptDoorbells s q old).grade = s.grade ∧
    (keptDoorbells s q old).fresh = s.fresh ∧ (keptDoorbells s q old).time = s.time ∧ (keptDoorbells s q old).mem = s.mem ∧
    (keptDoorbells s q old).cores = s.cores ∧ (keptDoorbells s q old).sems = s.sems ∧ (keptDoorbells s q old).hoists = s.hoists ∧
    (keptDoorbells s q old).nb = s.nb ∧ (keptDoorbells s q old).parts = s.parts ∧ (keptDoorbells s q old).se = s.se ∧
    (keptDoorbells s q old).fab = s.fab ∧ (keptDoorbells s q old).twin = s.twin ∧ (keptDoorbells s q old).pwr = s.pwr ∧
    (keptDoorbells s q old).sec = s.sec ∧ (keptDoorbells s q old).flash = s.flash ∧ (keptDoorbells s q old).pins = s.pins ∧
    (keptDoorbells s q old).pending = s.pending := by
  unfold keptDoorbells
  repeat' split
  all_goals simp

@[simp] theorem aqWrite_frame (s : State) (w : W32) : (aqWrite s w).grade = s.grade ∧ (aqWrite s w).fresh = s.fresh ∧ (aqWrite s w).time = s.time ∧
    (aqWrite s w).mem = s.mem ∧ (aqWrite s w).cores = s.cores ∧ (aqWrite s w).sems = s.sems ∧ (aqWrite s w).hoists = s.hoists ∧
    (aqWrite s w).nb = s.nb ∧ (aqWrite s w).parts = s.parts ∧ (aqWrite s w).se = s.se ∧ (aqWrite s w).fab = s.fab ∧ (aqWrite s w).twin = s.twin ∧
    (aqWrite s w).pwr = s.pwr ∧ (aqWrite s w).sec = s.sec ∧ (aqWrite s w).flash = s.flash ∧ (aqWrite s w).pins = s.pins ∧
    (aqWrite s w).pending = s.pending := by
  unfold aqWrite
  dsimp only
  repeat' split
  all_goals simp

@[simp] theorem acceptCmd_frame (s : State) (c : Cmd) : (acceptCmd s c).grade = s.grade ∧ (acceptCmd s c).time = s.time ∧
    (acceptCmd s c).cores = s.cores ∧ (acceptCmd s c).sems = s.sems ∧ (acceptCmd s c).hoists = s.hoists ∧ (acceptCmd s c).nb = s.nb ∧
    (acceptCmd s c).se = s.se ∧ (acceptCmd s c).twin = s.twin ∧ (acceptCmd s c).pwr = s.pwr ∧ (acceptCmd s c).sec = s.sec ∧
    (acceptCmd s c).flash = s.flash ∧ (acceptCmd s c).pins = s.pins ∧ (acceptCmd s c).pending = s.pending := by simp [acceptCmd]

@[simp] theorem acceptRemote_frame (s : State) (r : RemoteCmd) : (acceptRemote s r).grade = s.grade ∧ (acceptRemote s r).time = s.time ∧
    (acceptRemote s r).cores = s.cores ∧ (acceptRemote s r).sems = s.sems ∧ (acceptRemote s r).hoists = s.hoists ∧ (acceptRemote s r).nb = s.nb ∧
    (acceptRemote s r).se = s.se ∧ (acceptRemote s r).twin = s.twin ∧ (acceptRemote s r).pwr = s.pwr ∧ (acceptRemote s r).sec = s.sec ∧
    (acceptRemote s r).flash = s.flash ∧ (acceptRemote s r).pins = s.pins ∧ (acceptRemote s r).pending = s.pending := by
  unfold acceptRemote
  dsimp only
  repeat' split
  all_goals simp

@[simp] theorem fetchRemote_frame (s : State) (q : Nat) : (fetchRemote s q).grade = s.grade ∧ (fetchRemote s q).time = s.time ∧
    (fetchRemote s q).cores = s.cores ∧ (fetchRemote s q).sems = s.sems ∧ (fetchRemote s q).hoists = s.hoists ∧ (fetchRemote s q).nb = s.nb ∧
    (fetchRemote s q).se = s.se ∧ (fetchRemote s q).twin = s.twin ∧ (fetchRemote s q).pwr = s.pwr ∧ (fetchRemote s q).sec = s.sec ∧
    (fetchRemote s q).flash = s.flash ∧ (fetchRemote s q).pins = s.pins ∧ (fetchRemote s q).pending = s.pending := by
  unfold fetchRemote
  split <;> simp

@[simp] theorem semRetest_frame (s : State) (c : Cmd) : (semRetest s c).grade = s.grade ∧ (semRetest s c).time = s.time ∧
    (semRetest s c).hoists = s.hoists ∧ (semRetest s c).nb = s.nb ∧ (semRetest s c).se = s.se ∧ (semRetest s c).twin = s.twin ∧
    (semRetest s c).pwr = s.pwr ∧ (semRetest s c).sec = s.sec ∧ (semRetest s c).flash = s.flash ∧ (semRetest s c).pins = s.pins ∧
    (semRetest s c).pending = s.pending := by simp [semRetest]

/-! ## JobOps.lean -/

@[simp] theorem stopThread_frame (s : State) (id : Nat) (t : Tid) : (stopThread s id t).grade = s.grade ∧ (stopThread s id t).fresh = s.fresh ∧
    (stopThread s id t).time = s.time ∧ (stopThread s id t).mem = s.mem ∧ (stopThread s id t).hoists = s.hoists ∧ (stopThread s id t).nb = s.nb ∧
    (stopThread s id t).host = s.host ∧ (stopThread s id t).parts = s.parts ∧ (stopThread s id t).se = s.se ∧ (stopThread s id t).fab = s.fab ∧
    (stopThread s id t).twin = s.twin ∧ (stopThread s id t).pwr = s.pwr ∧ (stopThread s id t).sec = s.sec ∧ (stopThread s id t).flash = s.flash ∧
    (stopThread s id t).pins = s.pins ∧ (stopThread s id t).pending = s.pending := by simp [stopThread]

@[simp] theorem stopJob_frame (s : State) (id : Nat) (why : JobStop) : (stopJob s id why).grade = s.grade ∧ (stopJob s id why).fresh = s.fresh ∧
    (stopJob s id why).time = s.time ∧ (stopJob s id why).mem = s.mem ∧ (stopJob s id why).hoists = s.hoists ∧ (stopJob s id why).nb = s.nb ∧
    (stopJob s id why).host = s.host ∧ (stopJob s id why).parts = s.parts ∧ (stopJob s id why).se = s.se ∧ (stopJob s id why).fab = s.fab ∧
    (stopJob s id why).twin = s.twin ∧ (stopJob s id why).pwr = s.pwr ∧ (stopJob s id why).sec = s.sec ∧ (stopJob s id why).flash = s.flash ∧
    (stopJob s id why).pins = s.pins ∧ (stopJob s id why).pending = s.pending := by
  unfold stopJob
  split <;> simp

@[simp] theorem cleanCheck_frame (s : State) (j : Job) : (cleanCheck s j).grade = s.grade ∧ (cleanCheck s j).fresh = s.fresh ∧
    (cleanCheck s j).time = s.time ∧ (cleanCheck s j).mem = s.mem ∧ (cleanCheck s j).sems = s.sems ∧ (cleanCheck s j).hoists = s.hoists ∧
    (cleanCheck s j).nb = s.nb ∧ (cleanCheck s j).host = s.host ∧ (cleanCheck s j).parts = s.parts ∧ (cleanCheck s j).se = s.se ∧
    (cleanCheck s j).fab = s.fab ∧ (cleanCheck s j).twin = s.twin ∧ (cleanCheck s j).pwr = s.pwr ∧ (cleanCheck s j).sec = s.sec ∧
    (cleanCheck s j).flash = s.flash ∧ (cleanCheck s j).pins = s.pins ∧ (cleanCheck s j).pending = s.pending := by
  unfold cleanCheck
  split <;> simp

@[simp] theorem finishJob_frame (s : State) (j : Job) : (finishJob s j).grade = s.grade ∧ (finishJob s j).time = s.time ∧
    (finishJob s j).sems = s.sems ∧ (finishJob s j).hoists = s.hoists ∧ (finishJob s j).nb = s.nb ∧ (finishJob s j).se = s.se ∧
    (finishJob s j).twin = s.twin ∧ (finishJob s j).pwr = s.pwr ∧ (finishJob s j).sec = s.sec ∧ (finishJob s j).flash = s.flash ∧
    (finishJob s j).pins = s.pins ∧ (finishJob s j).pending = s.pending := by
  unfold finishJob
  dsimp only
  repeat' split
  all_goals simp

@[simp] theorem freshThread_frame (s : State) (j : Job) (t : Tid) : (freshThread s j t).grade = s.grade ∧ (freshThread s j t).time = s.time ∧
    (freshThread s j t).bar = s.bar ∧ (freshThread s j t).mem = s.mem ∧ (freshThread s j t).sems = s.sems ∧ (freshThread s j t).hoists = s.hoists ∧
    (freshThread s j t).nb = s.nb ∧ (freshThread s j t).host = s.host ∧ (freshThread s j t).parts = s.parts ∧ (freshThread s j t).se = s.se ∧
    (freshThread s j t).fab = s.fab ∧ (freshThread s j t).faults = s.faults ∧ (freshThread s j t).twin = s.twin ∧ (freshThread s j t).pwr = s.pwr ∧
    (freshThread s j t).sec = s.sec ∧ (freshThread s j t).flash = s.flash ∧ (freshThread s j t).pins = s.pins ∧ (freshThread s j t).trace = s.trace ∧
    (freshThread s j t).pending = s.pending := by simp [freshThread]

@[simp] theorem startCore_frame (s : State) (j : Job) (v : Nat) : (startCore s j v).grade = s.grade ∧ (startCore s j v).time = s.time ∧
    (startCore s j v).bar = s.bar ∧ (startCore s j v).mem = s.mem ∧ (startCore s j v).sems = s.sems ∧ (startCore s j v).hoists = s.hoists ∧
    (startCore s j v).nb = s.nb ∧ (startCore s j v).host = s.host ∧ (startCore s j v).parts = s.parts ∧ (startCore s j v).se = s.se ∧
    (startCore s j v).fab = s.fab ∧ (startCore s j v).faults = s.faults ∧ (startCore s j v).twin = s.twin ∧ (startCore s j v).pwr = s.pwr ∧
    (startCore s j v).sec = s.sec ∧ (startCore s j v).flash = s.flash ∧ (startCore s j v).pins = s.pins ∧ (startCore s j v).trace = s.trace ∧
    (startCore s j v).pending = s.pending := by simp [startCore]

@[simp] theorem saveCore_frame (s : State) (j : Job) (v : Nat) : (saveCore s j v).grade = s.grade ∧ (saveCore s j v).time = s.time ∧
    (saveCore s j v).hoists = s.hoists ∧ (saveCore s j v).nb = s.nb ∧ (saveCore s j v).host = s.host ∧ (saveCore s j v).parts = s.parts ∧
    (saveCore s j v).se = s.se ∧ (saveCore s j v).fab = s.fab ∧ (saveCore s j v).twin = s.twin ∧ (saveCore s j v).pwr = s.pwr ∧
    (saveCore s j v).sec = s.sec ∧ (saveCore s j v).flash = s.flash ∧ (saveCore s j v).pins = s.pins ∧
    (saveCore s j v).pending = s.pending := by simp [saveCore]

@[simp] theorem preemptPart_frame (s : State) (part : Nat) : (preemptPart s part).grade = s.grade ∧ (preemptPart s part).time = s.time ∧
    (preemptPart s part).hoists = s.hoists ∧ (preemptPart s part).nb = s.nb ∧ (preemptPart s part).host = s.host ∧
    (preemptPart s part).parts = s.parts ∧ (preemptPart s part).se = s.se ∧ (preemptPart s part).fab = s.fab ∧ (preemptPart s part).twin = s.twin ∧
    (preemptPart s part).pwr = s.pwr ∧ (preemptPart s part).sec = s.sec ∧ (preemptPart s part).flash = s.flash ∧ (preemptPart s part).pins = s.pins ∧
    (preemptPart s part).pending = s.pending := by simp [preemptPart]

@[simp] theorem restoreThread_frame (s : State) (t : Tid) : (restoreThread s t).grade = s.grade ∧ (restoreThread s t).fresh = s.fresh ∧
    (restoreThread s t).time = s.time ∧ (restoreThread s t).bar = s.bar ∧ (restoreThread s t).mem = s.mem ∧ (restoreThread s t).hoists = s.hoists ∧
    (restoreThread s t).nb = s.nb ∧ (restoreThread s t).host = s.host ∧ (restoreThread s t).parts = s.parts ∧ (restoreThread s t).se = s.se ∧
    (restoreThread s t).fab = s.fab ∧ (restoreThread s t).faults = s.faults ∧ (restoreThread s t).twin = s.twin ∧ (restoreThread s t).pwr = s.pwr ∧
    (restoreThread s t).sec = s.sec ∧ (restoreThread s t).flash = s.flash ∧ (restoreThread s t).pins = s.pins ∧ (restoreThread s t).trace = s.trace ∧
    (restoreThread s t).pending = s.pending := by
  unfold restoreThread
  dsimp only
  repeat' split
  all_goals simp

/-! ## RecoveryOps.lean -/

@[simp] theorem placePart_frame (s : State) (part : Nat) : (placePart s part).grade = s.grade ∧ (placePart s part).fresh = s.fresh ∧
    (placePart s part).time = s.time ∧ (placePart s part).bar = s.bar ∧ (placePart s part).mem = s.mem ∧ (placePart s part).sems = s.sems ∧
    (placePart s part).hoists = s.hoists ∧ (placePart s part).nb = s.nb ∧ (placePart s part).host = s.host ∧ (placePart s part).parts = s.parts ∧
    (placePart s part).se = s.se ∧ (placePart s part).fab = s.fab ∧ (placePart s part).faults = s.faults ∧ (placePart s part).twin = s.twin ∧
    (placePart s part).pwr = s.pwr ∧ (placePart s part).sec = s.sec ∧ (placePart s part).flash = s.flash ∧ (placePart s part).pins = s.pins ∧
    (placePart s part).trace = s.trace ∧ (placePart s part).pending = s.pending := by simp [placePart]

@[simp] theorem degrade_frame (s : State) : (degrade s).grade = s.grade ∧ (degrade s).fresh = s.fresh ∧ (degrade s).time = s.time ∧
    (degrade s).mem = s.mem ∧ (degrade s).cores = s.cores ∧ (degrade s).sems = s.sems ∧ (degrade s).hoists = s.hoists ∧ (degrade s).nb = s.nb ∧
    (degrade s).host = s.host ∧ (degrade s).parts = s.parts ∧ (degrade s).se = s.se ∧ (degrade s).fab = s.fab ∧ (degrade s).twin = s.twin ∧
    (degrade s).pwr = s.pwr ∧ (degrade s).sec = s.sec ∧ (degrade s).flash = s.flash ∧ (degrade s).pins = s.pins ∧ (degrade s).trace = s.trace ∧
    (degrade s).pending = s.pending := by simp [degrade]

@[simp] theorem loseCore_frame (s : State) (j : Job) (v : Nat) : (loseCore s j v).grade = s.grade ∧ (loseCore s j v).fresh = s.fresh ∧
    (loseCore s j v).time = s.time ∧ (loseCore s j v).mem = s.mem ∧ (loseCore s j v).hoists = s.hoists ∧ (loseCore s j v).nb = s.nb ∧
    (loseCore s j v).host = s.host ∧ (loseCore s j v).parts = s.parts ∧ (loseCore s j v).se = s.se ∧ (loseCore s j v).fab = s.fab ∧
    (loseCore s j v).twin = s.twin ∧ (loseCore s j v).pwr = s.pwr ∧ (loseCore s j v).sec = s.sec ∧ (loseCore s j v).flash = s.flash ∧
    (loseCore s j v).pins = s.pins ∧ (loseCore s j v).pending = s.pending := by simp [loseCore]

@[simp] theorem resolveJob_frame (s : State) (j : Job) (v : Nat) : (resolveJob s j v).1.grade = s.grade ∧ (resolveJob s j v).1.time = s.time ∧
    (resolveJob s j v).1.mem = s.mem ∧ (resolveJob s j v).1.hoists = s.hoists ∧ (resolveJob s j v).1.nb = s.nb ∧ (resolveJob s j v).1.host = s.host ∧
    (resolveJob s j v).1.parts = s.parts ∧ (resolveJob s j v).1.se = s.se ∧ (resolveJob s j v).1.fab = s.fab ∧ (resolveJob s j v).1.twin = s.twin ∧
    (resolveJob s j v).1.pwr = s.pwr ∧ (resolveJob s j v).1.sec = s.sec ∧ (resolveJob s j v).1.flash = s.flash ∧ (resolveJob s j v).1.pins = s.pins ∧
    (resolveJob s j v).1.pending = s.pending := by simp [resolveJob]

@[simp] theorem fenceCore_frame (s : State) (phys cause : Nat) : (fenceCore s phys cause).grade = s.grade ∧ (fenceCore s phys cause).time = s.time ∧
    (fenceCore s phys cause).mem = s.mem ∧ (fenceCore s phys cause).hoists = s.hoists ∧ (fenceCore s phys cause).nb = s.nb ∧
    (fenceCore s phys cause).host = s.host ∧ (fenceCore s phys cause).parts = s.parts ∧ (fenceCore s phys cause).se = s.se ∧
    (fenceCore s phys cause).fab = s.fab ∧ (fenceCore s phys cause).twin = s.twin ∧ (fenceCore s phys cause).pwr = s.pwr ∧
    (fenceCore s phys cause).sec = s.sec ∧ (fenceCore s phys cause).pins = s.pins ∧ (fenceCore s phys cause).pending = s.pending := by
  unfold fenceCore
  dsimp only
  repeat' split
  all_goals simp

@[simp] theorem logRecovery_frame (s : State) (d : Dom) (event : Nat) : (logRecovery s d event).grade = s.grade ∧
    (logRecovery s d event).time = s.time ∧ (logRecovery s d event).cores = s.cores ∧ (logRecovery s d event).sems = s.sems ∧
    (logRecovery s d event).hoists = s.hoists ∧ (logRecovery s d event).nb = s.nb ∧ (logRecovery s d event).host = s.host ∧
    (logRecovery s d event).parts = s.parts ∧ (logRecovery s d event).se = s.se ∧ (logRecovery s d event).fab = s.fab ∧
    (logRecovery s d event).twin = s.twin ∧ (logRecovery s d event).pwr = s.pwr ∧ (logRecovery s d event).sec = s.sec ∧
    (logRecovery s d event).flash = s.flash ∧ (logRecovery s d event).pins = s.pins ∧
    (logRecovery s d event).pending = s.pending := by simp [logRecovery]

@[simp] theorem twinSend_frame (s : State) (kind : Nat) (owner : PktOwner) : (twinSend s kind owner).grade = s.grade ∧
    (twinSend s kind owner).fresh = s.fresh ∧ (twinSend s kind owner).time = s.time ∧ (twinSend s kind owner).mem = s.mem ∧
    (twinSend s kind owner).cores = s.cores ∧ (twinSend s kind owner).sems = s.sems ∧ (twinSend s kind owner).hoists = s.hoists ∧
    (twinSend s kind owner).nb = s.nb ∧ (twinSend s kind owner).host = s.host ∧ (twinSend s kind owner).se = s.se ∧
    (twinSend s kind owner).faults = s.faults ∧ (twinSend s kind owner).twin = s.twin ∧ (twinSend s kind owner).pwr = s.pwr ∧
    (twinSend s kind owner).sec = s.sec ∧ (twinSend s kind owner).flash = s.flash ∧ (twinSend s kind owner).pins = s.pins ∧
    (twinSend s kind owner).trace = s.trace ∧ (twinSend s kind owner).pending = s.pending := by simp [twinSend]

@[simp] theorem noteHolds_frame (s : State) : (noteHolds s).grade = s.grade ∧ (noteHolds s).fresh = s.fresh ∧ (noteHolds s).time = s.time ∧
    (noteHolds s).bar = s.bar ∧ (noteHolds s).mem = s.mem ∧ (noteHolds s).cores = s.cores ∧ (noteHolds s).sems = s.sems ∧
    (noteHolds s).hoists = s.hoists ∧ (noteHolds s).host = s.host ∧ (noteHolds s).parts = s.parts ∧ (noteHolds s).fab = s.fab ∧
    (noteHolds s).faults = s.faults ∧ (noteHolds s).twin = s.twin ∧ (noteHolds s).pwr = s.pwr ∧ (noteHolds s).sec = s.sec ∧
    (noteHolds s).flash = s.flash ∧ (noteHolds s).pins = s.pins ∧ (noteHolds s).trace = s.trace ∧ (noteHolds s).pending = s.pending := by
  unfold noteHolds
  dsimp only
  repeat' split
  all_goals simp

@[simp] theorem holdPcs_frame (s : State) (pcs : List Nat) (why : Nat) : (holdPcs s pcs why).grade = s.grade ∧ (holdPcs s pcs why).fresh = s.fresh ∧
    (holdPcs s pcs why).time = s.time ∧ (holdPcs s pcs why).bar = s.bar ∧ (holdPcs s pcs why).cores = s.cores ∧ (holdPcs s pcs why).sems = s.sems ∧
    (holdPcs s pcs why).hoists = s.hoists ∧ (holdPcs s pcs why).host = s.host ∧ (holdPcs s pcs why).parts = s.parts ∧ (holdPcs s pcs why).fab = s.fab ∧
    (holdPcs s pcs why).faults = s.faults ∧ (holdPcs s pcs why).twin = s.twin ∧ (holdPcs s pcs why).pwr = s.pwr ∧ (holdPcs s pcs why).sec = s.sec ∧
    (holdPcs s pcs why).flash = s.flash ∧ (holdPcs s pcs why).pins = s.pins ∧ (holdPcs s pcs why).trace = s.trace ∧
    (holdPcs s pcs why).pending = s.pending := by simp [holdPcs]

@[simp] theorem retrainFlags_frame (s : State) (stack : Nat) : (retrainFlags s stack).grade = s.grade ∧ (retrainFlags s stack).fresh = s.fresh ∧
    (retrainFlags s stack).time = s.time ∧ (retrainFlags s stack).mem = s.mem ∧ (retrainFlags s stack).cores = s.cores ∧
    (retrainFlags s stack).sems = s.sems ∧ (retrainFlags s stack).hoists = s.hoists ∧ (retrainFlags s stack).nb = s.nb ∧
    (retrainFlags s stack).host = s.host ∧ (retrainFlags s stack).parts = s.parts ∧ (retrainFlags s stack).se = s.se ∧
    (retrainFlags s stack).fab = s.fab ∧ (retrainFlags s stack).faults = s.faults ∧ (retrainFlags s stack).twin = s.twin ∧
    (retrainFlags s stack).pwr = s.pwr ∧ (retrainFlags s stack).sec = s.sec ∧ (retrainFlags s stack).flash = s.flash ∧
    (retrainFlags s stack).pins = s.pins ∧ (retrainFlags s stack).trace = s.trace ∧
    (retrainFlags s stack).pending = s.pending := by simp [retrainFlags]

@[simp] theorem completeAll_frame (s : State) (st : Cmd → W16) : (completeAll s st).grade = s.grade ∧ (completeAll s st).time = s.time ∧
    (completeAll s st).cores = s.cores ∧ (completeAll s st).sems = s.sems ∧ (completeAll s st).hoists = s.hoists ∧ (completeAll s st).nb = s.nb ∧
    (completeAll s st).se = s.se ∧ (completeAll s st).twin = s.twin ∧ (completeAll s st).pwr = s.pwr ∧ (completeAll s st).sec = s.sec ∧
    (completeAll s st).flash = s.flash ∧ (completeAll s st).pins = s.pins ∧ (completeAll s st).pending = s.pending := by
  simp (disch := first | (simp; done) | (simp only [keeps_iff]; intros; (repeat' split) <;> simp)) [completeAll]

@[simp] theorem dropJobs_frame (s : State) : (dropJobs s).grade = s.grade ∧ (dropJobs s).time = s.time ∧ (dropJobs s).hoists = s.hoists ∧
    (dropJobs s).nb = s.nb ∧ (dropJobs s).se = s.se ∧ (dropJobs s).twin = s.twin ∧ (dropJobs s).pwr = s.pwr ∧ (dropJobs s).sec = s.sec ∧
    (dropJobs s).flash = s.flash ∧ (dropJobs s).pins = s.pins ∧ (dropJobs s).pending = s.pending := by
  simp (disch := first | (simp; done) | (simp only [keeps_iff]; intros; (repeat' split) <;> simp)) [dropJobs]

@[simp] theorem enterFailed_frame (s : State) : (enterFailed s).grade = s.grade ∧ (enterFailed s).time = s.time ∧ (enterFailed s).cores = s.cores ∧
    (enterFailed s).sems = s.sems ∧ (enterFailed s).hoists = s.hoists ∧ (enterFailed s).nb = s.nb ∧ (enterFailed s).se = s.se ∧
    (enterFailed s).twin = s.twin ∧ (enterFailed s).pwr = s.pwr ∧ (enterFailed s).sec = s.sec ∧ (enterFailed s).flash = s.flash ∧
    (enterFailed s).pins = s.pins ∧ (enterFailed s).pending = s.pending := by simp [enterFailed]

@[simp] theorem recoveryAction_frame (s : State) (d : Dom) (cause : Nat) : (recoveryAction s d cause).grade = s.grade ∧
    (recoveryAction s d cause).time = s.time ∧ (recoveryAction s d cause).hoists = s.hoists ∧ (recoveryAction s d cause).twin = s.twin ∧
    (recoveryAction s d cause).pwr = s.pwr ∧ (recoveryAction s d cause).sec = s.sec ∧ (recoveryAction s d cause).pins = s.pins ∧
    (recoveryAction s d cause).pending = s.pending := by
  unfold recoveryAction
  split <;> simp

@[simp] theorem startRecovery_frame (s : State) (d : Dom) (cause : Nat) : (startRecovery s d cause).grade = s.grade ∧
    (startRecovery s d cause).time = s.time ∧ (startRecovery s d cause).hoists = s.hoists ∧ (startRecovery s d cause).twin = s.twin ∧
    (startRecovery s d cause).pwr = s.pwr ∧ (startRecovery s d cause).sec = s.sec ∧ (startRecovery s d cause).pins = s.pins ∧
    (startRecovery s d cause).pending = s.pending := by simp [startRecovery]

@[simp] theorem stopRecovery_frame (s : State) (d : Dom) : (stopRecovery s d).grade = s.grade ∧ (stopRecovery s d).time = s.time ∧
    (stopRecovery s d).cores = s.cores ∧ (stopRecovery s d).sems = s.sems ∧ (stopRecovery s d).hoists = s.hoists ∧ (stopRecovery s d).nb = s.nb ∧
    (stopRecovery s d).host = s.host ∧ (stopRecovery s d).parts = s.parts ∧ (stopRecovery s d).se = s.se ∧ (stopRecovery s d).fab = s.fab ∧
    (stopRecovery s d).twin = s.twin ∧ (stopRecovery s d).pwr = s.pwr ∧ (stopRecovery s d).sec = s.sec ∧ (stopRecovery s d).flash = s.flash ∧
    (stopRecovery s d).pins = s.pins ∧ (stopRecovery s d).pending = s.pending := by simp [stopRecovery]

@[simp] theorem queueDom_frame (s : State) (d : Dom) (cause : Nat) (head : Bool) : (queueDom s d cause head).grade = s.grade ∧
    (queueDom s d cause head).time = s.time ∧ (queueDom s d cause head).cores = s.cores ∧ (queueDom s d cause head).sems = s.sems ∧
    (queueDom s d cause head).hoists = s.hoists ∧ (queueDom s d cause head).nb = s.nb ∧ (queueDom s d cause head).host = s.host ∧
    (queueDom s d cause head).parts = s.parts ∧ (queueDom s d cause head).se = s.se ∧ (queueDom s d cause head).fab = s.fab ∧
    (queueDom s d cause head).twin = s.twin ∧ (queueDom s d cause head).pwr = s.pwr ∧ (queueDom s d cause head).sec = s.sec ∧
    (queueDom s d cause head).flash = s.flash ∧ (queueDom s d cause head).pins = s.pins ∧
    (queueDom s d cause head).pending = s.pending := by simp [queueDom]

@[simp] theorem startAhead_frame (s : State) (d : Dom) (cause : Nat) : (startAhead s d cause).grade = s.grade ∧ (startAhead s d cause).time = s.time ∧
    (startAhead s d cause).hoists = s.hoists ∧ (startAhead s d cause).twin = s.twin ∧ (startAhead s d cause).pwr = s.pwr ∧
    (startAhead s d cause).sec = s.sec ∧ (startAhead s d cause).pins = s.pins ∧ (startAhead s d cause).pending = s.pending := by simp [startAhead]

@[simp] theorem nextQueued_frame (s : State) (kind : Nat) : (nextQueued s kind).grade = s.grade ∧ (nextQueued s kind).time = s.time ∧
    (nextQueued s kind).hoists = s.hoists ∧ (nextQueued s kind).twin = s.twin ∧ (nextQueued s kind).pwr = s.pwr ∧ (nextQueued s kind).sec = s.sec ∧
    (nextQueued s kind).pins = s.pins ∧ (nextQueued s kind).pending = s.pending := by
  unfold nextQueued
  repeat' split
  all_goals simp

/-! ## StackRows.lean -/

@[simp] theorem refreshBank_frame (s : State) (bank postponed : Nat) : (refreshBank s bank postponed).grade = s.grade ∧
    (refreshBank s bank postponed).fresh = s.fresh ∧ (refreshBank s bank postponed).time = s.time ∧ (refreshBank s bank postponed).cores = s.cores ∧
    (refreshBank s bank postponed).sems = s.sems ∧ (refreshBank s bank postponed).hoists = s.hoists ∧ (refreshBank s bank postponed).nb = s.nb ∧
    (refreshBank s bank postponed).host = s.host ∧ (refreshBank s bank postponed).parts = s.parts ∧ (refreshBank s bank postponed).se = s.se ∧
    (refreshBank s bank postponed).fab = s.fab ∧ (refreshBank s bank postponed).faults = s.faults ∧ (refreshBank s bank postponed).twin = s.twin ∧
    (refreshBank s bank postponed).pwr = s.pwr ∧ (refreshBank s bank postponed).sec = s.sec ∧ (refreshBank s bank postponed).flash = s.flash ∧
    (refreshBank s bank postponed).pins = s.pins ∧ (refreshBank s bank postponed).trace = s.trace ∧
    (refreshBank s bank postponed).pending = s.pending := by simp [refreshBank]

@[simp] theorem repairRow_frame (s : State) (bank row : Nat) : (repairRow s bank row).grade = s.grade ∧ (repairRow s bank row).time = s.time ∧
    (repairRow s bank row).cores = s.cores ∧ (repairRow s bank row).sems = s.sems ∧ (repairRow s bank row).hoists = s.hoists ∧
    (repairRow s bank row).nb = s.nb ∧ (repairRow s bank row).host = s.host ∧ (repairRow s bank row).parts = s.parts ∧
    (repairRow s bank row).se = s.se ∧ (repairRow s bank row).fab = s.fab ∧ (repairRow s bank row).twin = s.twin ∧ (repairRow s bank row).pwr = s.pwr ∧
    (repairRow s bank row).sec = s.sec ∧ (repairRow s bank row).pins = s.pins ∧ (repairRow s bank row).pending = s.pending := by simp [repairRow]

/-! ## SessOps.lean -/

@[simp] theorem putSess_frame (s : State) (i : Nat) (x : Session) : (putSess s i x).grade = s.grade ∧ (putSess s i x).fresh = s.fresh ∧
    (putSess s i x).time = s.time ∧ (putSess s i x).bar = s.bar ∧ (putSess s i x).mem = s.mem ∧ (putSess s i x).cores = s.cores ∧
    (putSess s i x).sems = s.sems ∧ (putSess s i x).hoists = s.hoists ∧ (putSess s i x).nb = s.nb ∧ (putSess s i x).host = s.host ∧
    (putSess s i x).parts = s.parts ∧ (putSess s i x).fab = s.fab ∧ (putSess s i x).faults = s.faults ∧ (putSess s i x).twin = s.twin ∧
    (putSess s i x).pwr = s.pwr ∧ (putSess s i x).sec = s.sec ∧ (putSess s i x).flash = s.flash ∧ (putSess s i x).pins = s.pins ∧
    (putSess s i x).trace = s.trace ∧ (putSess s i x).pending = s.pending := by simp [putSess]

@[simp] theorem modSess_frame (s : State) (i : Nat) (f : Session → Session) : (modSess s i f).grade = s.grade ∧ (modSess s i f).fresh = s.fresh ∧
    (modSess s i f).time = s.time ∧ (modSess s i f).bar = s.bar ∧ (modSess s i f).mem = s.mem ∧ (modSess s i f).cores = s.cores ∧
    (modSess s i f).sems = s.sems ∧ (modSess s i f).hoists = s.hoists ∧ (modSess s i f).nb = s.nb ∧ (modSess s i f).host = s.host ∧
    (modSess s i f).parts = s.parts ∧ (modSess s i f).fab = s.fab ∧ (modSess s i f).faults = s.faults ∧ (modSess s i f).twin = s.twin ∧
    (modSess s i f).pwr = s.pwr ∧ (modSess s i f).sec = s.sec ∧ (modSess s i f).flash = s.flash ∧ (modSess s i f).pins = s.pins ∧
    (modSess s i f).trace = s.trace ∧ (modSess s i f).pending = s.pending := by
  unfold modSess
  split <;> simp

@[simp] theorem modRec_frame (s : State) (i : Nat) (fs : List (Nat × Nat × Nat)) : (modRec s i fs).grade = s.grade ∧ (modRec s i fs).fresh = s.fresh ∧
    (modRec s i fs).time = s.time ∧ (modRec s i fs).bar = s.bar ∧ (modRec s i fs).mem = s.mem ∧ (modRec s i fs).cores = s.cores ∧
    (modRec s i fs).sems = s.sems ∧ (modRec s i fs).hoists = s.hoists ∧ (modRec s i fs).nb = s.nb ∧ (modRec s i fs).host = s.host ∧
    (modRec s i fs).parts = s.parts ∧ (modRec s i fs).fab = s.fab ∧ (modRec s i fs).faults = s.faults ∧ (modRec s i fs).twin = s.twin ∧
    (modRec s i fs).pwr = s.pwr ∧ (modRec s i fs).sec = s.sec ∧ (modRec s i fs).flash = s.flash ∧ (modRec s i fs).pins = s.pins ∧
    (modRec s i fs).trace = s.trace ∧ (modRec s i fs).pending = s.pending := by simp [modRec]

@[simp] theorem putModel_frame (s : State) (m : Nat) (x : Model) : (putModel s m x).grade = s.grade ∧ (putModel s m x).fresh = s.fresh ∧
    (putModel s m x).time = s.time ∧ (putModel s m x).bar = s.bar ∧ (putModel s m x).mem = s.mem ∧ (putModel s m x).cores = s.cores ∧
    (putModel s m x).sems = s.sems ∧ (putModel s m x).hoists = s.hoists ∧ (putModel s m x).nb = s.nb ∧ (putModel s m x).host = s.host ∧
    (putModel s m x).parts = s.parts ∧ (putModel s m x).fab = s.fab ∧ (putModel s m x).faults = s.faults ∧ (putModel s m x).twin = s.twin ∧
    (putModel s m x).pwr = s.pwr ∧ (putModel s m x).sec = s.sec ∧ (putModel s m x).flash = s.flash ∧ (putModel s m x).pins = s.pins ∧
    (putModel s m x).trace = s.trace ∧ (putModel s m x).pending = s.pending := by simp [putModel]

end Sys2Proof.Machine
end

