-- ==== Sys2Proof/Laws/Lookup.lean ====
section
/-! SUPPORT. What stands where something was put: threads, semaphores, lines, engines, queues, queue pairs, sessions; and when a command's row begins its
command. -/
namespace Sys2Proof.Machine

@[simp] theorem getThread_setThread (s : State) (t : Tid) (x : Thread) : getThread (setThread s t x) t = x := by simp [getThread, setThread]

theorem getThread_setThread_ne (s : State) {t u : Tid} (x : Thread) (h : tidKey u ≠ tidKey t) : getThread (setThread s t x) u = getThread s u := by
  simp [getThread, setThread, tget_tset_ne _ _ _ _ h]

@[simp] theorem getSem_setSem (s : State) (n : Nat) (x : Sem) : getSem (setSem s n x) n = x := by simp [getSem, setSem]

theorem getSem_setSem_ne (s : State) {n m : Nat} (x : Sem) (h : m ≠ n) : getSem (setSem s n x) m = getSem s m := by
  simp [getSem, setSem, tget_tset_ne _ _ _ _ h]

@[simp] theorem getLine_setLine (s : State) (n : Nat) (c : CacheLine) : getLine (setLine s n c) n = c := by simp [getLine, setLine]

theorem getLine_setLine_ne (s : State) {n m : Nat} (c : CacheLine) (h : m ≠ n) : getLine (setLine s n c) m = getLine s m := by
  simp [getLine, setLine, tget_tset_ne _ _ _ _ h]

@[simp] theorem getEngine_setEngine (s : State) (p : Nat) (e : Engine) : getEngine (setEngine s p e) p = e := by simp [getEngine, setEngine]

theorem getEngine_setEngine_ne (s : State) {p q : Nat} (e : Engine) (h : q ≠ p) : getEngine (setEngine s p e) q = getEngine s q := by
  simp [getEngine, setEngine, tget_tset_ne _ _ _ _ h]

@[simp] theorem getQp_setQp (s : State) (q : Nat) (x : QueuePair) : getQp (setQp s q x) q = x := by simp [getQp, setQp]

theorem getQp_setQp_ne (s : State) {q r : Nat} (x : QueuePair) (h : r ≠ q) : getQp (setQp s q x) r = getQp s r := by
  simp [getQp, setQp, tget_tset_ne _ _ _ _ h]

@[simp] theorem getSess_putSess (s : State) (i : Nat) (x : Session) : getSess (putSess s i x) i = some x := by simp [getSess, putSess]

theorem getSess_putSess_ne (s : State) {i k : Nat} (x : Session) (h : k ≠ i) : getSess (putSess s i x) k = getSess s k := by
  simp [getSess, putSess, tfind_tput_ne _ _ h]

@[simp] theorem getQ_setQ (s : State) (j : Job) (t : Tid) (q : Nat) (xs : List QEntry) : getQ (setQ s j t q xs) j t q = xs := by
  by_cases h : qShared j q = true <;> simp [getQ, setQ, h]

/-! ## Commands -/

/-- The oldest command of its queue that has not begun runs its opcode's row, on the state in which it has begun. -/
theorem runCmd_begins {s : State} {id op : Nat} {c : Cmd} (f : State → Cmd → State) (hc : getCmd s id = some c) (hop : pkOp c.pkt = op)
    (hb : c.begun = false) (hs : s.host.fetchStopped = false)
    (ho : ∀ d ∈ s.host.cmds, d.queue = c.queue → d.id < id → d.begun = true ∧ ¬(c.src.isSome = true ∧ pkOrdered c.pkt = true)) :
    runCmd s id op f = f (modCmd s id (fun c => { c with begun := true, at_ := mono s })) { c with begun := true, at_ := mono s } := by
  have hold : s.host.cmds.any (fun d => d.queue == c.queue && decide (d.id < id) && (!d.begun || (c.src.isSome && pkOrdered c.pkt))) = false := by
    rw [List.any_eq_false]
    intro d hd
    simp only [Bool.and_eq_true, beq_iff_eq, decide_eq_true_eq, Bool.or_eq_true, Bool.not_eq_true', not_and, not_or]
    intro h
    obtain ⟨hq, hl⟩ := h
    obtain ⟨h1, h2⟩ := ho d hd hq hl
    exact ⟨by simp [h1], fun a b => h2 ⟨a, b⟩⟩
  unfold runCmd
  rw [hc]
  simp only [hold]
  simp [hop, hb, hs]
  rfl

/-- No command waits under the id: the row does nothing. -/
theorem runCmd_absent {s : State} {id op : Nat} (f : State → Cmd → State) (h : getCmd s id = none) : runCmd s id op f = s := by simp [runCmd, h]

/-- A command of another opcode is not this row's. -/
theorem runCmd_other {s : State} {id op : Nat} {c : Cmd} (f : State → Cmd → State) (hc : getCmd s id = some c) (h : pkOp c.pkt ≠ op) :
    runCmd s id op f = s := by simp [runCmd, hc, h]

end Sys2Proof.Machine
end

