-- ==== Sys2Proof/Laws/Memory.lean ====
section
/-! SUPPORT. Every operation on device memory and on host memory keeps their canonical form, and reset memory has it. A read of a byte just written
gives what was written, and a read of another byte what stood there. -/
namespace Sys2Proof.Machine

theorem memReset_wf : Mem.wf State.reset.mem = true := rfl
theorem hostReset_wf : twf (fun _ => 0) State.reset.host.mem = true := rfl

/-- Memory differs in neither its bytes nor their errors. -/
theorem wf_of_same {m m' : Mem} (hd : m'.dram = m.dram) (he : m'.ecc = m.ecc) (hx : m'.discarded = m.discarded) (h : Mem.wf m = true) :
    Mem.wf m' = true := by
  simpa [Mem.wf, hd, he, hx] using h

/-- A fold keeps the form when each step does. -/
theorem foldl_wf {α : Type} (g : State → α → State) (hg : ∀ s a, Mem.wf s.mem = true → Mem.wf (g s a).mem = true) (l : List α) (s : State)
    (h : Mem.wf s.mem = true) : Mem.wf (l.foldl g s).mem = true :=
  List.foldlRecOn l g (motive := fun s => Mem.wf s.mem = true) h fun s hs a _ => hg s a hs

/-- The same beside results. -/
theorem foldl2_wf {α β : Type} (g : β × State → α → β × State) (hg : ∀ x a, Mem.wf x.2.mem = true → Mem.wf (g x a).2.mem = true) (l : List α)
    (x : β × State) (h : Mem.wf x.2.mem = true) : Mem.wf (l.foldl g x).2.mem = true :=
  List.foldlRecOn l g (motive := fun x => Mem.wf x.2.mem = true) h fun x hx a _ => hg x a hx

theorem foldl3_wf {α β γ : Type} (g : β × γ × State → α → β × γ × State) (hg : ∀ x a, Mem.wf x.2.2.mem = true → Mem.wf (g x a).2.2.mem = true)
    (l : List α) (x : β × γ × State) (h : Mem.wf x.2.2.mem = true) : Mem.wf (l.foldl g x).2.2.mem = true :=
  List.foldlRecOn l g (motive := fun x => Mem.wf x.2.2.mem = true) h fun x hx a _ => hg x a hx

/-! ## Bytes and their errors -/

/-- Other bytes keep the form where their keys rise and none that stands in a row set never discarded is zero. -/
theorem wf_of_dram {m : Mem} {d : Tab Byte} (h : Mem.wf m = true) (hr : risesFrom none d = true)
    (hz : ∀ p ∈ d, p.2 ≠ 0 ∨ (tfind m.discarded (keyRow p.1)).isSome = true) : Mem.wf { m with dram := d } = true := by
  have hz' : d.all (fun p => decide (p.2 ≠ 0) || (tfind m.discarded (keyRow p.1)).isSome) = true := by simpa using hz
  unfold Mem.wf at h ⊢
  simp_all

theorem wf_dram {m : Mem} (h : Mem.wf m = true) : risesFrom none m.dram = true ∧
    ∀ p ∈ m.dram, p.2 ≠ 0 ∨ (tfind m.discarded (keyRow p.1)).isSome = true := by
  unfold Mem.wf at h
  simp_all

theorem setDramByte_wf {s : State} (k : Nat) (b : Byte) (h : Mem.wf s.mem = true) : Mem.wf (setDramByte s k b).mem = true := by
  have hd := wf_dram h
  unfold setDramByte
  refine wf_of_dram h ?_ fun p hp => ?_
  · split
    · exact risesFrom_tput k b hd.1 nofun
    · unfold tset
      split
      · exact risesFrom_filter _ hd.1
      · exact risesFrom_tput k b hd.1 nofun
  · by_cases hx : (tfind s.mem.discarded (keyRow k)).isSome = true
    · rw [if_pos hx] at hp
      exact (mem_tput hp).elim (fun e => .inr (e ▸ hx)) (hd.2 p)
    · rw [if_neg hx, tset] at hp
      split at hp
      · exact hd.2 p (List.mem_filter.1 hp).1
      · exact (mem_tput hp).elim (fun e => .inl (by subst e; assumption)) (hd.2 p)

theorem setSecErr_wf {s : State} (k : Nat) (e : SecErr) (h : Mem.wf s.mem = true) : Mem.wf (setSecErr s k e).mem = true := by
  simp only [Mem.wf, Bool.and_eq_true] at h ⊢
  exact ⟨h.1, twf_tset (fun _ => SecErr.none) _ k e h.2⟩

theorem dramByte_setDramByte (s : State) (k : Nat) (b : Byte) : dramByte (setDramByte s k b) k = b := by
  by_cases hd : (tfind s.mem.discarded (keyRow k)).isSome = true
  · have e : tfind (setDramByte s k b).mem.dram k = some b := by simp [setDramByte, hd]
    simp [dramByte, e]
  · by_cases hb : b = 0
    · have e : tfind (setDramByte s k b).mem.dram k = none := by
        simp only [setDramByte]; rw [if_neg hd, tset, if_pos hb]; exact tfind_tdel_same _ _
      have hn : tfind (setDramByte s k b).mem.discarded (keyRow k) = none := by simpa [setDramByte] using hd
      simp only [dramByte, e, hn]; exact hb.symm
    · have e : tfind (setDramByte s k b).mem.dram k = some b := by
        simp only [setDramByte]; rw [if_neg hd, tset, if_neg hb]; exact tfind_tput_same _ _ _
      simp [dramByte, e]

theorem dramByte_setDramByte_ne (s : State) {k j : Nat} (b : Byte) (h : j ≠ k) : dramByte (setDramByte s k b) j = dramByte s j := by
  have e : tfind (setDramByte s k b).mem.dram j = tfind s.mem.dram j := by
    simp only [setDramByte]
    split
    · exact tfind_tput_ne _ _ h
    · unfold tset
      split
      · exact tfind_tdel_ne _ h
      · exact tfind_tput_ne _ _ h
  simp only [dramByte, e]
  rfl

theorem touch_wf {s : State} (bits : List (Nat × Nat)) (h : Mem.wf s.mem = true) : Mem.wf (touch s bits).mem = true := by
  unfold touch
  split
  · exact wf_of_same rfl rfl rfl h
  · exact h

theorem secErr_setSecErr (s : State) (k : Nat) (e : SecErr) : secErr (setSecErr s k e) k = e := by simp [secErr, setSecErr]

theorem setEngine_wf {s : State} (pc : Nat) (e : Engine) (h : Mem.wf s.mem = true) : Mem.wf (setEngine s pc e).mem = true := h

theorem wakeBank_wf {s : State} (b : Nat) (h : Mem.wf s.mem = true) : Mem.wf (wakeBank s b).mem = true := by
  refine wf_of_same ?_ ?_ ?_ h <;> (unfold wakeBank; repeat' split) <;> simp

theorem activate_wf {s : State} (sec : Nat) (h : Mem.wf s.mem = true) : Mem.wf (activate s sec).mem = true := setEngine_wf _ _ (wakeBank_wf _ h)

theorem repairWanted_wf {s : State} (r : Nat) (h : Mem.wf s.mem = true) : Mem.wf (repairWanted s r).mem = true := by
  refine wf_of_same ?_ ?_ ?_ h <;> (unfold repairWanted; split) <;> rfl

theorem poisonEntry_wf {s : State} (sec n : Nat) (e : ErrEnt) (h : Mem.wf s.mem = true) : Mem.wf (poisonEntry s sec n e).mem = true := by
  refine wf_of_same ?_ ?_ ?_ h <;> (unfold poisonEntry; dsimp only; split) <;> simp

theorem poisonRefusal_wf {s : State} (sec : Nat) (rq : Rq) (addr : Nat) (h : Mem.wf s.mem = true) : Mem.wf (poisonRefusal s sec rq addr).mem = true :=
  poisonEntry_wf _ _ _ h

theorem logErr_wf {s : State} (e : ErrEnt) (h : Mem.wf s.mem = true) : Mem.wf (logErr s e).mem = true := by simpa using h

theorem correctable_wf {s : State} (sec byte : Nat) (rq : Rq) (addr : Nat) (h : Mem.wf s.mem = true) : Mem.wf (correctable s sec byte rq addr).mem = true := by
  unfold correctable
  extract_lets s1 st row s2 times m s3 last m' s3' s4 th
  have h1 : Mem.wf s1.mem = true := setSecErr_wf _ _ h
  have h3 : Mem.wf s3.mem = true := wf_of_same (by simp [s3, m, s2]) (by simp [s3, m, s2]) (by simp [s3, m, s2]) h1
  have h4 : Mem.wf s4.mem = true := by
    simp only [s4]
    split
    · exact logErr_wf _ (wf_of_same rfl rfl rfl h3)
    · exact h3
  split
  · exact repairWanted_wf _ h4
  · exact h4

theorem uncorrectable_wf {s : State} (sec : Nat) (rq : Rq) (addr : Nat) (h : Mem.wf s.mem = true) : Mem.wf (uncorrectable s sec rq addr).mem = true := by
  unfold uncorrectable
  refine repairWanted_wf _ (wf_of_same (m := (poisonLines (setSecErr s sec { flips := [], poison := true }) sec).mem) (by simp) (by simp) (by simp) ?_)
  exact wf_of_same rfl rfl rfl (setSecErr_wf sec { flips := [], poison := true } h)

theorem checkSector_wf {s : State} (sec : Nat) (rq : Rq) (addr : Nat) (count : Bool) (h : Mem.wf s.mem = true) :
    Mem.wf (checkSector s sec rq addr count).2.mem = true := by
  unfold checkSector
  have ha := activate_wf sec h
  generalize activate s sec = s at ha ⊢
  have hd : Mem.wf (drawBelow s 2).2.mem = true := by simpa using ha
  dsimp only
  split
  · dsimp only
    split
    · exact poisonRefusal_wf _ _ _ ha
    · exact ha
  · split
    · exact uncorrectable_wf _ _ _ ha
    · split
      · exact ha
      · exact correctable_wf _ _ _ _ ha
      · exact uncorrectable_wf _ _ _ ha
      · split
        · exact uncorrectable_wf _ _ _ hd
        · exact setSecErr_wf _ _ (foldl_wf _ (fun _ _ hs => setDramByte_wf _ _ hs) _ _ hd)

theorem checkSectors_wf {s : State} (secs : List Nat) (rq : Rq) (addr : Nat) (count : Bool) (h : Mem.wf s.mem = true) :
    Mem.wf (checkSectors s secs rq addr count).2.mem = true := by
  unfold checkSectors
  refine foldl2_wf _ ?_ _ _ h
  exact fun _ _ hx => checkSector_wf _ _ _ _ hx

theorem writeSector_wf {s : State} (sec : Nat) (bs : List Byte) (h : Mem.wf s.mem = true) : Mem.wf (writeSector s sec bs).mem = true :=
  setSecErr_wf _ _ (foldl_wf _ (fun _ _ hs => setDramByte_wf _ _ hs) _ _ (activate_wf _ h))

theorem writePoison_wf {s : State} (sec : Nat) (h : Mem.wf s.mem = true) : Mem.wf (writePoison s sec).mem = true := setSecErr_wf _ _ h

theorem clearWord_wf {s : State} (w : Nat) (h : Mem.wf s.mem = true) : Mem.wf (clearWord s w).mem = true :=
  foldl_wf _ (fun _ _ hs => writeSector_wf _ _ hs) _ _ h

theorem putBitsAt_wf {s : State} (whole : List Nat) (bits : List (Nat × Nat × Bool)) (changed : List (Nat × Nat)) (h : Mem.wf s.mem = true) :
    Mem.wf (putBitsAt s whole bits changed).mem = true :=
  touch_wf _ (foldl_wf _ (fun _ _ hs => setDramByte_wf _ _ hs) _ _ (foldl_wf _ (fun _ _ hs => clearWord_wf _ hs) _ _ h))

theorem poisonWords_wf {s : State} (words merged : List Nat) (addr : Nat) (h : Mem.wf s.mem = true) : Mem.wf (poisonWords s words merged addr).mem = true := by
  have hp := foldl_wf writePoison (fun _ _ hs => writePoison_wf _ hs) ((words.map (fun w => [2 * w, 2 * w + 1])).flatten) s h
  cases merged
  · exact hp
  · exact poisonEntry_wf _ _ _ hp

theorem viewWriteBack_wf {s : State} (r : Region) (v0 addr : Nat) (bytes : List (Nat × Byte)) (h : Mem.wf s.mem = true) :
    Mem.wf (viewWriteBack s r v0 addr bytes).2.mem = true := by
  unfold viewWriteBack
  dsimp only
  split
  · exact putBitsAt_wf _ _ _ (checkSectors_wf _ _ _ _ h)
  · exact poisonWords_wf _ _ _ (checkSectors_wf _ _ _ _ h)

/-! ## Home slices -/

theorem setLine_wf {s : State} (ln : Nat) (c : CacheLine) (h : Mem.wf s.mem = true) : Mem.wf (setLine s ln c).mem = true := h
theorem setLru_wf {s : State} (k : Nat) (xs : List Nat) (h : Mem.wf s.mem = true) : Mem.wf (setLru s k xs).mem = true := h
theorem touchLine_wf {s : State} (ln : Nat) (h : Mem.wf s.mem = true) : Mem.wf (touchLine s ln).mem = true := by
  unfold touchLine
  exact setLru_wf _ _ h
theorem dropLine_wf {s : State} (ln : Nat) (h : Mem.wf s.mem = true) : Mem.wf (dropLine s ln).mem = true := by
  unfold dropLine
  exact setLru_wf _ _ (setLine_wf _ _ h)

theorem writeLine_wf {s : State} (ln : Nat) (data : BitVec 512) (dirty : BitVec 2) (h : Mem.wf s.mem = true) :
    Mem.wf (writeLine s ln data dirty).mem = true := by
  unfold writeLine
  dsimp only
  split
  · refine foldl_wf _ (fun s i hs => ?_) _ _ h
    split
    · exact writeSector_wf _ _ hs
    · exact hs
  · split
    · exact viewWriteBack_wf _ _ _ _ h
    · split
      · exact viewWriteBack_wf _ _ _ _ h
      · exact setLine_wf _ _ (viewWriteBack_wf _ _ _ _ h)

theorem countHeld_wf {s : State} (secs : List Nat) (h : Mem.wf s.mem = true) : Mem.wf (countHeld s secs).mem = true := by
  simpa using h

theorem drainWrites_wf {s : State} (pc : Nat) (h : Mem.wf s.mem = true) : Mem.wf (drainWrites s pc).mem = true := by
  unfold drainWrites
  exact foldl_wf _ (fun _ _ hs => writeLine_wf _ _ _ (countHeld_wf _ hs)) _ _ (setEngine_wf _ _ h)

theorem queueWriteBack_wf {s : State} (ln : Nat) (c : CacheLine) (h : Mem.wf s.mem = true) : Mem.wf (queueWriteBack s ln c).mem = true := by
  unfold queueWriteBack
  dsimp only
  refine setEngine_wf _ _ ?_
  split
  · exact drainWrites_wf _ h
  · exact h

theorem evictLine_wf {s : State} (ln : Nat) (h : Mem.wf s.mem = true) : Mem.wf (evictLine s ln).mem = true := by
  unfold evictLine
  dsimp only
  split
  · exact dropLine_wf _ h
  · exact queueWriteBack_wf _ _ (dropLine_wf _ h)

theorem allocLine_wf {s : State} (ln : Nat) (h : Mem.wf s.mem = true) : Mem.wf (allocLine s ln).mem = true := by
  unfold allocLine
  dsimp only
  refine touchLine_wf _ ?_
  split
  · exact evictLine_wf _ (by simpa using h)
  · exact h

theorem flushLine_wf {s : State} (ln : Nat) (h : Mem.wf s.mem = true) : Mem.wf (flushLine s ln).mem = true := by
  unfold flushLine
  dsimp only
  split
  · exact drainWrites_wf _ h
  · exact writeLine_wf _ _ _ (setLine_wf _ _ (drainWrites_wf _ h))

theorem viewSectorFetch_wf {s : State} (r : Region) (v a : Nat) (rq : Rq) (h : Mem.wf s.mem = true) :
    Mem.wf (viewSectorFetch s r v a rq).2.2.mem = true := checkSectors_wf _ _ _ _ h

theorem fetchSector_wf {s : State} (a : Nat) (rq : Rq) (h : Mem.wf s.mem = true) : Mem.wf (fetchSector s a rq).2.2.mem = true := by
  unfold fetchSector
  dsimp only
  split
  · exact h
  · have hc : Mem.wf (if rq.port = 0 then s else countHeld s (sourceSectors s a)).mem = true := by
      split
      · exact h
      · exact countHeld_wf _ h
    split
    · exact viewSectorFetch_wf _ _ _ _ hc
    · exact checkSector_wf _ _ _ _ hc

theorem fillSector_wf {s : State} (a : Nat) (rq : Rq) (h : Mem.wf s.mem = true) : Mem.wf (fillSector s a rq).2.mem = true := by
  unfold fillSector
  dsimp only
  split
  · split
    · exact poisonRefusal_wf _ _ _ (touchLine_wf _ h)
    · exact touchLine_wf _ h
  · exact setLine_wf _ _ (fetchSector_wf _ _ (allocLine_wf _ h))

theorem sliceRead_wf {s : State} (a : Nat) (rq : Rq) (h : Mem.wf s.mem = true) : Mem.wf (sliceRead s a rq).2.2.mem = true := by
  unfold sliceRead
  dsimp only
  split <;> exact fillSector_wf _ _ h

theorem sliceWrite_wf {s : State} (a : Nat) (new : List Byte) (mask : BitVec 32) (rq : Rq) (h : Mem.wf s.mem = true) :
    Mem.wf (sliceWrite s a new mask rq).2.mem = true := by
  unfold sliceWrite
  dsimp only
  split
  · exact h
  split
  · exact logErr_wf _ h
  have hf := fillSector_wf a rq h
  by_cases hm : mask = BitVec.allOnes 32 <;> simp only [hm, decide_true, decide_false, if_true, Bool.false_eq_true, if_false]
  · exact setLine_wf _ _ (allocLine_wf _ h)
  · split
    · exact hf
    · exact setLine_wf _ _ hf

theorem devRead_wf {s : State} (a n : Nat) (rq : Rq) (h : Mem.wf s.mem = true) : Mem.wf (devRead s a n rq).2.2.mem = true := by
  unfold devRead
  refine foldl3_wf _ ?_ _ _ h
  exact fun _ _ hx => sliceRead_wf _ _ hx

theorem devWrite_wf {s : State} (a : Nat) (bs : List Byte) (rq : Rq) (h : Mem.wf s.mem = true) : Mem.wf (devWrite s a bs rq).2.mem = true := by
  unfold devWrite
  refine foldl2_wf _ ?_ _ _ h
  exact fun _ _ hx => sliceWrite_wf _ _ _ _ hx

/-! ## Host memory -/

theorem setHostByte_wf {s : State} (a : Nat) (b : Byte) (h : twf (fun _ => 0) s.host.mem = true) : twf (fun _ => 0) (setHostByte s a b).host.mem = true :=
  twf_tset (fun _ => 0) _ a b h

theorem hostWrite_wf {s : State} (a : Nat) (bs : List Byte) (h : twf (fun _ => 0) s.host.mem = true) :
    twf (fun _ => 0) (hostWrite s a bs).2.host.mem = true := by
  unfold hostWrite
  split
  · exact List.foldlRecOn _ _ (motive := fun s : State => twf (fun _ => 0) s.host.mem = true) h fun _ hs _ _ => setHostByte_wf _ _ hs
  · exact h

end Sys2Proof.Machine
end

