-- ==== Sys2Proof/WellFormed.lean ====
section
/-! DEFINITION. Which commands are well formed: each operand lies in the range the spec gives what it names. The meanings
are total: on a command out of range they find nothing to act on and change nothing (log entry 12, DESIGN CHOICE). -/
namespace Sys2Proof

/-- Virtual cores 0 to 4,095 at most (R2, R4) with 8 threads each (R70). -/
def Tid.wf (t : Tid) : Bool := decide (t.vcore < 4096) && decide (t.thread < 8)

/-- An offset of BAR0, 64 MiB (R435), aligned or not (R436), or of the sideband's 256 (R432). -/
def regOff (a : Accessor) (off : Nat) : Bool := decide (off < if a = .sideband then 256 else 0x4000000)

/-- A host access covers at least one byte. -/
def HostAcc.wf (h : HostAcc) : Bool := decide (0 < h.n) && (!h.write || decide (h.bytes.length = h.n))

/-- A frame arrives on a port 0 to 4 (R310), in one of the four classes (R318). -/
def Frame.wf (f : Frame) : Bool := decide (f.port < 5) && decide (f.cls < 4)

/-- Every operand lies in its range. -/
def Instr.wf : Instr → Bool
  | .powerUp _ | .pwrEnFall | .brownout | .overvoltage | .resetN | .resetNRelease | .perstNRelease | .bootPhase _
  | .sbBoardCap _ | .rcvStart _ | .sbRcvData _ | .commit _
  | .aqEnable _ | .aqDisable _ | .aqDisableDone | .nop _ | .identify _ | .queueCreate _ | .queueDelete _ | .queueStatus _
  | .partitionDefine _ | .partitionDelete _ | .memmapConfig _ | .deviceReset _ | .memAlloc _ | .memFree _ | .memMove _
  | .semSignal _ | .semWait _ | .semWrite _ | .semRead _ | .nbRun _ | .nbAbort _ | .modelLoad _ _ | .modelUnload _
  | .modelQuery _ | .sessionOpen _ | .sessionPause _ | .sessionResume _ | .sessionCancel _ | .sessionQuery _
  | .sessionSet _ | .sessionRead _ | .requestSubmit _ | .kvPoolConfig _ | .outputRingConfig _ | .jobLaunch _
  | .jobCancel _ | .jobQuery _ | .portConfig _ | .portStatus _ | .nodeConfig _ | .peerSet _ | .peerClear _ | .twinPair _
  | .twinDetach _ | .twinStatus _ | .timeRead _ | .timeSet _ | .ptpConfig _ | .ppsConfig _ | .timeStatus _ | .attest _
  | .certRead _ | .fwUpdate _ | .ownerKeySet _ | .debugPassword _ | .debugChallenge _ | .debugToken _ | .debugLock _
  | .tallyRead _ | .errlogRead _ | .traceConfig _ | .sensorRead _ | .injectionFire
  | .start _ | .memoryResponse _ | .semaphoreOperation _ | .poll _ | .moveRetire _ | .jobStart _ | .jobEnd _
  | .bucketWaitEnd _ | .ackSend _ | .retransmit _ | .rtoExpiry _ | .rateIncrease _ | .quarantineEnd _ _ | .opTimeout _ _
  | .sourceSelect _ | .ppsInEdge | .ppsOutPulse | .tcxoCompensation _ | .holdoverLimit | .deviceFault _ | .weightRepair _
  | .weightRepairRetry _ | .flashLogCopy | .heartbeatSend | .heartbeat _ | .mirrorItem _ | .pairingRequest _ _ | .copyDone
  | .pairingTimeout | .detachNotice | .handoffNotice | .partnerLost | .controlPeriod _ | .voltageReached | .powerSample _
  | .thermalSample _ | .fullAssay | .assayComplete _ | .assayTimeout | .debugExpiry | .nonceExpiry | .semWaitTimeout _
  | .pwrEnHoldOffEnd | .shutdownCompare _ | .ppsInLoss => true
  | .timeNowFrac a | .traceSemSel a _ | .pwrHistSel a _ | .stop a | .arm a _ | .run a _ => decide (a ≠ .sideband)
  | .registerWrite a off _ _ | .lowWordRead a off | .highWordRead a off => regOff a off
  | .sqTail q _ | .cqHead q _ => decide (q < 256)
  | .commandFetch q | .yieldRetest q => decide (q < 256 + 16 * 65536)
  | .hostAccess h => h.acc.wf && (h.face == .bar2 || decide (h.acc.addr + h.acc.n ≤ (if h.face = .bar4 then 1048576 else 4096)))
  | .cxlMemAccess range h => decide (range < 2) && h.wf
  | .homeSliceAccess _ granule => decide (granule < 8)
  | .memoryOperationComplete pc | .writeBufferDrain pc | .urgencyRise pc _ | .urgentRetrain pc _ _ | .retrainEnd pc _ => decide (pc < 512)
  | .refresh bank _ | .yieldSlot bank => decide (bank < 16384)
  | .powerDown sid => decide (sid < 2048)
  | .selfRefresh stack | .patrolScrub stack | .nbGroupAbort stack _ | .nbStatus stack | .gemv stack _ | .qk stack _
  | .pv stack _ | .rclear stack _ | .pzero stack _ | .load stack _ | .drain stack _ | .blastEnd stack _
  | .entryComplete stack _ | .grantWindow stack | .stackFault stack _ => decide (stack < 8)
  | .rowRepair bank row => decide (bank < 16384) && decide (row < 24576)
  | .periodicRetrain stack channel => decide (stack < 8) && decide (channel < 32)
  | .nbProg stack entry _ => decide (stack < 8) && decide (entry < 64)
  | .nbStart stack entry part _ => decide (stack < 8) && decide (entry < 64) && decide (part < 16)
  | .nbBcast stack off _ => decide (stack < 8) && decide (off < 2097152)
  | .nbDrain stack off n => decide (stack < 8) && decide (off + n ≤ 2097152)
  | .microStep stack _ bank => decide (stack < 8) && decide (bank < 16384)
  | .lds t _ | .sts t _ | .ldv t _ | .stv t _ | .amo t _ | .semsig t _ | .semwait t _ | .semtry t _ | .fenceL t _
  | .fenceD t _ | .fenceH t _ | .fenceComplete t | .l1inv t _ | .hoist t _ | .loopcfg t _ | .looprd t _ | .add t _
  | .sub t _ | .and t _ | .or t _ | .xor t _ | .shl t _ | .shr t _ | .sra t _ | .mul t _ | .mulhu t _ | .slt t _
  | .sltu t _ | .min t _ | .max t _ | .addi t _ | .andi t _ | .ori t _ | .xori t _ | .shli t _ | .shri t _ | .srai t _
  | .slti t _ | .li t _ | .lih t _ | .beqz t _ | .bnez t _ | .bltz t _ | .bgez t _ | .jmp t _ | .call t _ | .jr t _
  | .rpt t _ | .rpti t _ | .winext t _ | .endThread t _ | .subtag t _ | .stat t _ | .bundleNop t _ | .reservedHeader t _
  | .truncatedBundle t _ | .mma t _ | .mmaz t _ | .mzero t _ | .mwr t _ | .mrd t _ | .mrdz t _ | .fadd t _ | .fsub t _
  | .fmul t _ | .fma t _ | .fms t _ | .fnma t _ | .fmin t _ | .fmax t _ | .fabs t _ | .fneg t _ | .fdiv t _ | .fscalb t _
  | .iadd t _ | .isub t _ | .imul t _ | .imin t _ | .imax t _ | .vecAnd t _ | .vecOr t _ | .vecXor t _ | .vecShl t _
  | .vecShr t _ | .vecSra t _ | .iabs t _ | .iadds t _ | .cmpeq t _ | .cmpne t _ | .cmplt t _ | .cmple t _ | .isnan t _
  | .mand t _ | .mor t _ | .mxor t _ | .mnot t _ | .mlen t _ | .sel t _ | .rsum t _ | .rmax t _ | .rmin t _ | .rargmax t _
  | .psum t _ | .bcast t _ | .perm t _ | .iota t _ | .mpopc t _ | .mfirst t _ | .rcp t _ | .rsqrt t _ | .sqrt t _
  | .exp2 t _ | .exp t _ | .log2 t _ | .tanh t _ | .sigmoid t _ | .erf t _ | .sin t _ | .cos t _ | .cvt t _ | .cvtsc t _
  | .bscale t _ | .nbx t _ | .nbq t _ | .rand t _ | .rdflags t _ | .clrflags t _ => t.wf
  | .clockGate vcore | .deadlock vcore => decide (vcore < 4096)
  | .move hst | .fill hst => decide (hst < 288)
  | .preempt part | .resume part | .stepStart part | .groupPlan part | .rescue part | .stepCommit part _
  | .idleBoundary part => decide (part < 16)
  | .ttlExpiry session | .tierMoveDone session _ => decide (session < 1048576)
  | .put f | .levelAdd f | .signal f | .putSignal f | .get f | .atomic f | .command f | .getResp f | .atomicResp f
  | .commandReply f | .errorResp f | .ack f | .reset f | .reservedKindPacket f => f.wf
  | .linkUp port sb | .linkDown port sb => decide (port < 5) && decide (sb < 8)
  | .neighbourDiscovery n | .arp n | .icmpEcho n => decide (n.port < 5) && decide (n.sub < 8)
  | .otherFrame port | .syncSend port | .announceSend port | .delayReqSend port | .portFault port | .rxBadPacket port _ => decide (port < 5)
  | .sync p | .followUp p | .delayReq p | .delayResp p | .announce p => decide (p.port < 5) && decide (p.sub < 8)
  | .coreWatchdog cluster core _ | .coreSramError cluster core _ _ => decide (cluster < 64) && decide (core < 68)
  | .clusterFault cluster _ _ => decide (cluster < 64)
  | .recoveryEnd kind | .recoveryTimeout kind | .recalibration kind _ _ => decide (kind < 6)

end Sys2Proof
end

