-- ==== Sys2Proof/Tests/Slice0.lean ====
section
/-! SUPPORT. Tests. Results come from the spec's worked examples or are worked out by hand from its rules; `witness_` theorems show that
the hypotheses of a statement can be met. -/
namespace Sys2Proof.Tests
open Sys2Proof Sys2Proof.Machine Sys2Proof.Claims

set_option Elab.async false
set_option maxRecDepth 20000

/-! ## Small states -/

/-- The reset state with the device READY. -/
def up : State := setDevState State.reset 2

/-- Thread 0 of virtual core 3 runs a job whose code is 59 bytes long. -/
def tid : Tid := { vcore := 3, thread := 0 }
def job1 : Job :=
  { id := 1, cmd := 0, tag := 9, client := 0, part := 0, image := 0x100000, vfirst := 3, vcount := 1, wiCount := 1, arg := 0, threads := 2,
    idempotent := false, dynamic := false, codeBytes := 59, entry := 0, scratch := 65536, qmap := [(1, 16), (12, 12304)],
    state := .running, stop := none, nextItem := 0, replay := [], started := 0, skips := 0, clean := none, vcores := [3] }

/-- A state in which the job runs and its thread is as given. -/
def core (th : Thread) : State :=
  setThread { up with cores := { up.cores with jobs := [job1], vmap := [(3, 4)] } } tid { th with run := .running }

/-- A bundle of one control, address, matrix or vector slot. -/
def bCtl (w : W32) : Bundle := { header := 1, ctl := w, adr := 0, mtx := 0, vec := 0 }
def bAdr (w : W64) : Bundle := { header := 2, ctl := 0, adr := w, mtx := 0, vec := 0 }
def bMtx (w : BitVec 48) : Bundle := { header := 4, ctl := 0, adr := 0, mtx := w, vec := 0 }
def bVec (w : BitVec 48) : Bundle := { header := 8, ctl := 0, adr := 0, mtx := 0, vec := w }

/-- What the next state answers a question with. -/
def after {α : Type} (r : Host.Outcome State Fault Refusal) (d : α) (f : State → α) : α := match r with | .next t => f t | _ => d

/-! ## Well-formedness refuses what the rows do not have -/

theorem test_illFormed_offset : Instr.wf (.registerWrite .sideband 256 0xF 0) = false ∧ Instr.wf (.lowWordRead .host 0x4000000) = false ∧
    Instr.wf (.highWordRead .host 0x4000001) = false ∧ Instr.wf (.registerWrite .host 0x3FFFFFC 0xF 0) = true := by decide
theorem test_illFormed_queue : Instr.wf (.sqTail 256 0) = false ∧ Instr.wf (.cqHead 256 0) = false ∧ Instr.wf (.commandFetch 1048832) = false ∧
    Instr.wf (.yieldRetest 1048832) = false ∧ Instr.wf (.sqTail 255 0) = true := by decide
theorem test_illFormed_hostAccess : Instr.wf (.hostAccess ⟨.bar2, { write := false, addr := 0, n := 0, bytes := [] }⟩) = false ∧
    Instr.wf (.hostAccess ⟨.bar2, { write := true, addr := 0, n := 2, bytes := [1] }⟩) = false ∧
    Instr.wf (.hostAccess ⟨.config, { write := false, addr := 4096, n := 1, bytes := [] }⟩) = false ∧
    Instr.wf (.cxlMemAccess 2 { write := false, addr := 0, n := 1, bytes := [] }) = false := by decide
theorem test_illFormed_slice : Instr.wf (.homeSliceAccess 0 8) = false ∧ Instr.wf (.memoryOperationComplete 512) = false ∧ Instr.wf (.writeBufferDrain 512) = false ∧
    Instr.wf (.urgencyRise 512 0) = false ∧ Instr.wf (.urgentRetrain 512 .errorRate false) = false := by decide
theorem test_illFormed_bank : Instr.wf (.yieldSlot 16384) = false ∧ Instr.wf (.powerDown 2048) = false ∧ Instr.wf (.rowRepair 16384 0) = false ∧
    Instr.wf (.rowRepair 0 24576) = false ∧ Instr.wf (.selfRefresh 8) = false ∧ Instr.wf (.patrolScrub 8) = false := by decide
theorem test_illFormed_nearBank : Instr.wf (.entryComplete 8 0) = false ∧ Instr.wf (.nbProg 0 64 []) = false ∧
    Instr.wf (.nbBcast 0 2097152 []) = false ∧ Instr.wf (.nbDrain 0 2097152 1) = false ∧ Instr.wf (.microStep 0 0 16384) = false := by decide
theorem test_illFormed_thread : Instr.wf (.add { vcore := 4096, thread := 0 } (bCtl 1)) = false ∧ Instr.wf (.lds { vcore := 0, thread := 8 } (bAdr 1)) = false ∧
    Instr.wf (.clockGate 4096) = false ∧ Instr.wf (.move 288) = false ∧ Instr.wf (.preempt 16) = false ∧ Instr.wf (.ttlExpiry 1048576) = false := by decide

/-- A frame of a class on a port, from node 5 to node 7, a SYN of epoch 9. -/
def frame (kind : Byte) (psn : Nat) (payload : List Byte) : Frame :=
  { port := 1, sub := 0, cls := 0, retx := false, ackNow := false, syn := true, src := 5, dst := 7, srcEpoch := 9, dstEpoch := 0, psn := psn, path := 0,
    incarn := 1, ce := false, op := { OpHeader.zero with kind := kind }, payload := payload,
    ack := { rcvPsn := 0, held := false, donePsn := 0, sack := 0, highPsn := 0, ece := 0, rcvd := 0 } }

theorem test_illFormed_frame : Instr.wf (.put { frame 1 0 [] with port := 5 }) = false ∧ Instr.wf (.get { frame 5 0 [] with cls := 4 }) = false ∧
    Instr.wf (.linkUp 5 0) = false ∧ Instr.wf (.linkDown 0 8) = false ∧ Instr.wf (.otherFrame 5) = false := by decide
theorem test_illFormed_faults : Instr.wf (.clusterFault 64 false []) = false ∧ Instr.wf (.recoveryEnd 6) = false ∧ Instr.wf (.recoveryTimeout 6) = false := by decide

/-- No row of the table has bits. -/
theorem test_no_words : decodeTableWord 8 1 = none ∧ (State.reset.withFetchWord 8 1).pending = [] := by decide +kernel

/-! ## The spec's worked examples -/

/-- *Locating one byte*: bank, row and byte of 0x0034_5678_9ABC on grade A with the default masks. -/
theorem test_locate : mapLin up 0x3456789ABC = { bank := 5681, row := 6699, byte := 444 } ∧ homeSlice up 0x3456789ABC = 177 := by decide +kernel

/-- *One FP4 block*: 0.37 in FP32 is 0x3EBD70A4; its block's scale code and its elements' codes. -/
theorem test_fp4_block : blockScale 7 [decodeF 0 0x3EBD70A4, decodeF 0 0xBD4CCCCD, decodeF 0 0x3DB851EC, decodeF 0 0] = 123 ∧
    (toScaled 7 (decodeF 0 0x3EBD70A4) 123 none).1 = 7 ∧ (toScaled 7 (decodeF 0 0xBD4CCCCD) 123 none).1 = 0xA ∧
    (toScaled 7 (decodeF 0 0x3DB851EC) 123 none).1 = 3 := by decide +kernel

/-- *One FP4 block*: the INT16 activation block of largest magnitude 3.1 has exponent code 114, and 3.1 becomes 25,395. -/
theorem test_nb_activation : (nbExp true [decodeF 0 0x40466666]).1 = 114 ∧ (nbCode true (decodeF 0 0x40466666) 114 none).1 = 25395 := by decide +kernel

/-- *One FP4 block*: block sums under a pass exponent 2 above their own. -/
theorem test_nb_fold : nbFold 1003 (-2) = 250 ∧ nbFold (-1003) (-2) = -251 := by decide +kernel

/-- *A two-thread copy*: the words of BNEZ, LDV, STV and LOOPCFG read as the fields the example names. -/
theorem test_bundle_fields : Bundle.op (bCtl 0x00080231) 0 = 0x31 ∧ fld (0x00080231 : W32) 8 6 = 2 ∧ sxt 18 (fld (0x00080231 : W32) 14 18) = 32 ∧
    Bundle.op (bAdr 0x00902C03) 1 = 0x03 ∧ adrData 0x00902C03 = 44 ∧ adrLoop 0x00902C03 = true ∧ bit (0x00902C03 : W64) 23 = true ∧
    adrScratch 0x00902C03 = false ∧ adrScratch 0x08902C04 = true ∧ sxt 24 (fld (0x0000400000600028 : W64) 40 24) = 64 := by decide +kernel

/-- *A two-thread copy*: thread 1's BNEZ S2 jumps to offset 32, thread 0's runs on at 5. -/
theorem test_bnez : after (exec (.bnez tid (bCtl 0x00080231)) (core { Thread.zero with s := [(2, 1)] })) 0 (fun s => (getThread s tid).pc) = 32 ∧
    after (exec (.bnez tid (bCtl 0x00080231)) (core Thread.zero)) 0 (fun s => (getThread s tid).pc) = 5 := by decide +kernel

/-- *A two-thread copy*: LDV Q12 from an unconfigured loop unit is skipped; the thread runs on. -/
theorem test_ldv_badLoop : after (exec (.ldv tid (bAdr 0x00902C03)) (core { Thread.zero with pc := 18 })) 0 (fun s => (getThread s tid).skips) = 1 ∧
    after (exec (.ldv tid (bAdr 0x00902C03)) (core { Thread.zero with pc := 18 })) 0 (fun s => (getThread s tid).pc) = 27 := by decide +kernel

/-- *One MXFP8 tile*: the fields of the MMA slot 0x0006_D144_3301. -/
theorem test_mma_fields : Bundle.op (bMtx 0x0006D1443301) 2 = 1 ∧ fld (0x0006D1443301 : BitVec 48) 8 4 = 3 ∧ fld (0x0006D1443301 : BitVec 48) 12 4 = 3 ∧
    fld (0x0006D1443301 : BitVec 48) 16 6 = 4 := by decide +kernel

/-- *Reading a tally*: the host's low-word read latches the high word; two entries later its high-word read returns the latched one, node 12's pair the new. -/
def tally : State := wr64 up ERRLOG_COUNT 0x00000002FFFFFFFE
def tally2 : State := let s := (regReadWord tally .host ERRLOG_COUNT).2; logErr (logErr s { cls := 0 }) { cls := 0 }
theorem test_tally : (regReadWord tally .host ERRLOG_COUNT).1 = 0xFFFFFFFE ∧ rd64 tally2 ERRLOG_COUNT = 0x0000000300000000 ∧
    (regReadWord tally2 (.image 12) ERRLOG_COUNT).1 = 0 ∧
    (regReadWord (regReadWord tally2 (.image 12) ERRLOG_COUNT).2 (.image 12) (ERRLOG_COUNT + 4)).1 = 3 ∧
    (regReadWord tally2 .host (ERRLOG_COUNT + 4)).1 = 2 := by decide +kernel

/-- The supply is off. -/
def off : State := { State.reset with pins := { State.reset.pins with pwrEn := false, pwrGood := false, rails := false } }

/-- A state with some pins. -/
def pinned (p : Pins) : State := { up with pins := p }

/-- BOOT at a phase. -/
def boot (n : Nat) : State := wf (wf up GLOBAL_STATE 0 8 1) GLOBAL_STATE 8 8 n
def bootRep : BootReport := { trainFailed := none, clearFailed := none, coreFails := [], vf := [600, 700, 840] }

/-- BOOT halted for want of images, with slot 0 of every kind asking for one. -/
def rcv : State := wr (wf (boot 2) GLOBAL_STATE 16 8 1) SEC_BOOT_STATUS 0x1C0
def noImage : Image := { bytes := [], committed := none }

/-- A command of the admin queue, its packet given by fields, and a state that holds it alone. -/
def cmd (op : Nat) (fs : List (Nat × Nat × Nat)) : Cmd :=
  { id := 5, queue := 0, pkt := pack 512 (fs ++ [(0, 16, op), (32, 32, 7)]), ext := [], extStatus := 0, src := none, begun := false, at_ := 0, count := 0, status := 0,
    detail := 0 }
def adminQ : QueuePair :=
  { defined := true, sqBase := 0x80000010000, cqBase := 0x80000020000, log2 := 6, yields := false, admin := true, msix := 0, part := 0, client := 0, sqTail := 1,
    sqHead := 1, cqHead := 0, cqTail := 0, reserved := 1, phase := true, error := false, waitSem := none, deleting := none }
def holds (s : State) (c : Cmd) : State := { s with host := { s.host with cmds := [c], nextCmd := 9, linkUp := true, qps := [(0, adminQ)] } }

/-- The value a slot's step ends with. -/
def okE (r : SlotRes Ev) (d : Ev) : Ev := match r with | .ok e => e | _ => d

/-- A thread with S2 = 5 and S3 = −1, at PC 0; its bundle's issue. -/
def th1 : Thread :=
  { Thread.zero with s := [(2, 5), (3, 0xFFFFFFFFFFFFFFFF), (6, 0x0009000000000000), (7, 0x30000000000)], v := [(1, 7)], run := .running }
def ev (b : Bundle) : Ev := atIssue (core th1) tid b job1 th1
def q1 : QEntry := { data := 77, pending := none }
def q2 : QEntry := { data := 0, pending := some 1 }
/-- The same with entries in its private queue 1, which is 16 deep. -/
def evQ (xs : List QEntry) : Ev := atIssue (core { th1 with q := [(1, xs)] }) tid (bCtl 0) job1 th1
def opOf (d : Dest) : MemOp :=
  { id := 1, t := tid, kind := .load 8 false false false, addr := 0, data := 0, cmp := 0, mask := 0, dest := d, part := 0, tag := 9, subtag := 0, todo := [0],
    res := 0, status := 0, done := false, node := 0, parked := false, short := false, origin := tid }
def th2 : Thread := { th1 with winext := 1 }
def evW : Ev := (nextItem (atIssue (core th2) tid (bCtl 0x440) job1 th2)).2
def lu : LoopUnit := { base := 64, levels := 2, counts := [(0, 2), (1, 3)], strides := [(0, 8), (1, 256)], idx := [(0, 1)], done := false, configured := true }
def thL : Thread := { th1 with loops := [(0, lu)] }
def evA (w : W64) : Ev := atIssue (core th1) tid (bAdr w) job1 th1
def evL (w : W64) : Ev := atIssue (core thL) tid (bAdr w) job1 thL
/-- Virtual core 3's scratchpad holds a loop descriptor at 0: one level of 4 passes. -/
def coreD : State := { core th1 with cores := { (core th1).cores with scratch := [(393224, 1), (393232, 4)] } }
def evD : Ev := atIssue coreD tid (bAdr 0x08000028) job1 th1

/-- Vector operands: V1 = 1.0 and 2.0, V2 = 3.0 and 0.5 in FP32, −1.0 elsewhere nothing; mask M1 has bit 0. -/
def thV : Thread :=
  { th1 with v := [(1, pack 2048 [(0, 32, 0x3F800000), (32, 32, 0x40000000)]), (2, pack 2048 [(0, 32, 0x40400000), (32, 32, 0x3F000000)])], m := [(1, 1)],
             flags := 5, rng := 1 }
def evV (w : BitVec 48) : Ev := atIssue (core thV) tid (bVec w) job1 thV
def evM (w : BitVec 48) : Ev := atIssue (core thV) tid (bMtx w) job1 thV
/-- A vector register after a command. -/
def vOf (r : Host.Outcome State Fault Refusal) (n : Nat) : VReg := after r 0 (fun s => tget (getThread s tid).v n 0)
def mOf (r : Host.Outcome State Fault Refusal) (n : Nat) : Mask := after r 0 (fun s => tget (getThread s tid).m n 0)

/-! ## Memory, stacks, faults -/

/-- A load of 8 bytes of thread 0 at address 0x40, outstanding alone. -/
def ld (f : MemOp → MemOp) : MemOp := f { opOf (.sreg 5) with addr := 0x40, todo := [0], tag := 0 }
def withOp (o : MemOp) : State := { core th1 with cores := { (core th1).cores with ops := [o] } }
/-- The bucket of partition 0 on a stack is open. -/
def fund (s : State) (k : Nat) : State := wr s (PART_STK_REG 0 k) 0x00010001
/-- Its line stands in the home slice. -/
def hit (s : State) : State := setLine s 1 { data := 0x1122334455667788, valid := 3, dirty := 0, poison := 0 }
/-- An operation on semaphore 4. -/
def semOp (k : OpKind) : MemOp := { opOf (.sreg 5) with addr := 0x30000000020, data := 3, kind := k }
def dop : DOp :=
  { id := 7, write := false, bank := 0, row := 3, addr := 0x40, op := 99, gran := 0, port := 2, urgency := 0, critical := false, arrived := 0,
    data := 0, dirty := 0, poison := 0 }
def dop2 : DOp := { dop with id := 8, write := true, op := 0, dirty := 3 }
def eng (e : Engine) : State := setEngine up 0 e
def eng0 : Engine := { inflight := [], sliceQ := [], wbuf := [], openRow := [], postponed := [] }
/-- A program that reads bank 0. -/
def prog : Program :=
  { id := 0, stack := 0, start := 0, cur := 0, part := 0, tag := 9, owner := .aperture, begun := true, sev := 0, sevAll := 0, detail := 0, results := [],
    tainted := [], pos := [], left := [(0, 4)], mark := 0, unflushed := [] }
def busy : State := { eng { eng0 with inflight := [dop] } with nb := { up.nb with programs := [prog] } }
/-- Core 3 of cluster 0 serves virtual core 3, and the clock shows a second. -/
def clocked (s : State) (n : Nat) : State := { s with time := { s.time with cycles := n } }
def recovering (k d : Nat) : State := { up with faults := { up.faults with running := [(k, d + 1)] } }

/-! ## Registers, the host port -/

/-- The row of a register. -/
def rowOf (off : Nat) : RegRow := match regAt off with | some x => x.1 | none => { name := "", base := 0 }
/-- A host that reaches the device, with debug levels 0 to 2 open in `open_`. -/
def linked (s : State) : State := { s with host := { s.host with linkUp := true } }
def open_ (s : State) : State := wf (wf (linked s) SEC_DEBUG_STATUS 0 2 1) SEC_DEBUG_STATUS 2 4 7
def hostAcc (w : Bool) (a n : Nat) (bs : List Byte) : HostAcc := { write := w, addr := a, n := n, bytes := bs }
def q3 : QueuePair := { adminQ with admin := false, sqTail := 3, sqHead := 2, cqTail := 5, cqHead := 3, reserved := 0, log2 := 4 }
def queued : State := { linked up with host := { (linked up).host with qps := [(3, q3)] } }

/-! ## Commands -/

/-- The state also has queue pair 3. -/
def withQ (s : State) (q : QueuePair) : State := { s with host := { s.host with qps := [(0, adminQ), (3, q)] } }
/-- The admin queue is as given. -/
def admin (s : State) (q : QueuePair) : State := { s with host := { s.host with qps := [(0, q)] } }
/-- Semaphore 4 has a value and waiters. -/
def sem4 (s : State) (v : W64) (ws : List (Tid × W64)) : State := setSem s 4 { getSem s 4 with value := v, waiters := ws }
/-- A command already begun. -/
def going (c : Cmd) : Cmd := { c with begun := true }
def cNop : Cmd := cmd 0x0000 []
def cId : Cmd := cmd 0x0001 [(192, 64, 0x1000)]
def cQc : Cmd := cmd 0x0002 [(128, 8, 3), (136, 8, 4), (160, 16, 9), (192, 64, 0x2000), (256, 64, 0x3000), (320, 32, 5)]
def cQd : Cmd := cmd 0x0003 [(128, 8, 3)]
def cQs : Cmd := cmd 0x0004 [(128, 8, 3)]
def cSig : Cmd := cmd 0x0103 [(128, 16, 4), (192, 64, 6)]
def cSw : Cmd := cmd 0x0104 [(128, 16, 4), (160, 32, 50), (192, 64, 6)]
def cSwr : Cmd := cmd 0x0105 [(128, 16, 4), (192, 64, 6)]
def cSr : Cmd := cmd 0x0106 [(128, 16, 4)]
def pkg0 : Package := { record := 0, groups := [], views := [], digest := 0, status := 0 }
/-- Bytes of a number, low first. -/
def bsOf (n x : Nat) : List Byte := leBytes n x
/-- A command with an extended block. -/
def cmdX (op : Nat) (fs : List (Nat × Nat × Nat)) (xs : List Byte) : Cmd := { cmd op ([(17, 1, 1), (96, 32, xs.length)] ++ fs) with ext := xs }
/-- Cluster 0 from virtual core 0, no step core, each bucket a burst of 4. -/
def pblk : BitVec 1024 :=
  pack 1024 ([(0, 64, 1), (112, 15, 0), (584, 3, 1), (592, 16, 100)] ++ (List.range 8).map (fun i => (192 + 32 * i, 32, 0x40000)) ++
    (List.range 4).map (fun k => (448 + 32 * k, 32, 0x40000)))
def cPd : Cmd := cmdX 0x0005 [] (bsOf 128 pblk.toNat)
/-- Partition 0 is defined with cluster 0's 68 virtual cores. -/
def parted (s : State) : State := applyBlock s 0 pblk
/-- A session of partition 0 with a slot, and step cores that a job holds. -/
def slotted (s : State) : State := { s with se := { s.se with sessions := [(1, { Session.zero with slot := true })] } }
def stepping : State := wf (slotted { core th1 with parts := [(0, { Part.zero with saveBase := 0x4000 })] }) (PART_STEP 0) 0 13 4
def cMa (fs : List (Nat × Nat × Nat)) : Cmd := cmd 0x0100 ([(224, 32, 1)] ++ fs)
def lin (a n : Nat) : Region := { first := a, count := n, planar := false, kind := 0, fmt := 0, scaled := false, rowLen := 0, rows := 0 }
def withRegion (s : State) (r : Region) : State := { s with mem := { s.mem with regions := [r] } }
def readBy (s : State) (c : Cmd) (a : W64) (n : Nat) : W16 × List Byte × State := structRead (begun s 5) (taken s c) a n
def cMm : Cmd := cmd 0x0102 [(192, 64, 0x1000)]
/-- A near-bank program of two entries, each an END. -/
def cNr : Cmd := cmd 0x0107 [(128, 8, 1), (136, 8, 2), (192, 64, 0x1000)]
def cNa : Cmd := cmd 0x0108 [(128, 32, 7)]
/-- A job whose header is at 0x1000: one thread, 64 bytes of code. -/
def hdr : BitVec 1024 := pack 1024 [(0, 32, 0x314B474E), (32, 8, 1), (40, 4, 1), (64, 32, 64)]
def cJl : Cmd := cmd 0x0500 [(128, 64, 0x1000), (192, 32, 3), (224, 32, 1), (256, 32, 8), (320, 64, 99)]
def placeBytes (s : State) (a : Nat) (bs : List Byte) : State := (devWrite s a bs hfRq).2
def jl : State := placeBytes (parted (holds up cJl)) 0x1000 (bsOf 128 hdr.toNat)
def cJc (op : Nat) : Cmd := cmd op [(128, 32, 9)]
def waiting : Job := { job1 with state := .waiting, threads := 1, vcores := [] }
def withJobs (s : State) (js : List Job) : State := { s with cores := { s.cores with jobs := js, vmap := [(3, 4)] } }

/-! ## Serving -/

/-- A model's group of one weight region: 4 rows of 512 FP8 elements. -/
def wreg : Region := { first := 4, count := 2, planar := true, kind := 0, fmt := 8, scaled := false, rowLen := 512, rows := 4 }
def grp : Line := pack 512 [(0, 8, 0), (16, 32, 512), (64, 15, 4), (79, 15, 2), (94, 4, 8), (128, 32, 4)]
def mrec (st : Nat) : SRec := pack 1024 [(0, 12, 6), (12, 2, st), (32, 8, 1), (40, 8, 1), (48, 8, 1), (56, 8, 1), (64, 32, 100)]
def pkg1 : Package := { record := mrec 0, groups := [grp], views := [(4, [1, 2, 3])], digest := 7, status := 0 }
def cMl : Cmd := cmd 0x0200 [(128, 16, 6), (192, 64, 0x1000), (256, 64, 128)]
def mdl : Model := { record := mrec 2, groups := [grp], digest := 7, pkgAddr := 0x1000, pkgBytes := 128, unloadCmd := none, unloadParts := [], repairing := none }
def modelled (s : State) : State := { s with se := { s.se with models := [(6, mdl)] } }
/-- Session 2 of client 0 and partition 0 runs model 6; its state and some of its fields. -/
def sess (st : Nat) (f : Session → Session) : Session :=
  f { Session.zero with record := pack 1024 [(0, 32, 2), (32, 3, st), (64, 12, 6), (96, 32, 3)], proj := st, chunks := [0], table := some 0, toks := [5, 6, 7] }
def serve (s : State) (x : Session) : State :=
  { modelled s with se := { (modelled s).se with sessions := [(2, x)], cached := [2], rings := [(0, { base := 0x80000100000, log2 := 12, tail := 0x80000200000, msix := 3 })] } }
/-- A pool of 4 slots: K and V in planar regions, the areas in one linear region. -/
def kreg (a k : Nat) : Region := { first := a, count := 1, planar := true, kind := k, fmt := 8, scaled := false, rowLen := 0, rows := 4 }
def poolRec : SRec :=
  pack 1024 [(0, 32, 5), (32, 32, 6), (64, 32, 4), (128, 64, 0xE000000), (192, 64, 0xE010000), (256, 64, 16384), (320, 64, 0xE020000), (384, 64, 4096),
    (448, 64, 0xE030000), (512, 64, 65536), (576, 64, 0xE050000), (640, 64, 4096), (832, 64, 0x80000300000)]
def pooled (s : State) : State := { s with mem := { s.mem with regions := [kreg 5 1, kreg 6 2, lin 7 2] } }
def cKv : Cmd := cmdX 0x0401 [] (bsOf 128 poolRec.toNat)
def cOr : Cmd := cmd 0x0402 [(128, 64, 0x80000100000), (192, 8, 12), (208, 16, 3), (256, 64, 0x80000200000)]
/-- A session command that names session 2. -/
def cSe (op : Nat) (fs : List (Nat × Nat × Nat)) : Cmd := cmd op ([(128, 32, 2)] ++ fs)
def cRs : Cmd :=
  cSe 0x0400 [(160, 32, 9), (192, 32, 1), (224, 32, 1), (256, 32, 1), (288, 32, 1), (320, 16, 0x3C00), (336, 16, 0x3C00), (384, 32, 2), (448, 64, 0x1000)]

/-! ## Fabric, time and security commands -/

/-- Bytes in host memory, where a command's structure is read through the host window at 0x80000400000. -/
def hostBytes (s : State) (bs : List Byte) : State := (hostWrite s 0x400000 bs).2
abbrev win : Nat := 0x80000400000
def cmdW (op : Nat) (fs : List (Nat × Nat × Nat)) : Cmd := cmd op ([(192, 64, win)] ++ fs)
/-- Lanes in their own places. -/
def lanes : Nat := ((List.range 8).map (fun i => i * 2 ^ (72 + 3 * i))).foldl (· + ·) 0
def withPeer (s : State) : State := { s with fab := { s.fab with peers := [(7, 0)] } }
def paired (s : State) (n : Nat) : State := wf s TWIN_STATE 0 2 n
def cPw : Cmd := cmdW 0x0804 []
/-- An 8-byte password block, the operation OPEN. -/
def pwBlock : Nat := 0x0800
def locked (s : State) (d : BitVec 512 → BitVec 512) : State :=
  { wf (hostBytes s (bsOf 128 pwBlock)) SEC_DEBUG_STATUS 6 3 5 with
    flash := { s.flash with password := some (3, d (passwordDigest s 3 (List.replicate 8 0)), 7) } }
def trBlk : Nat := 0xE000000 + 16 * 2 ^ 64 + 2 ^ 71

theorem pairOf {α β γ : Type} (x : α × β × γ) (a : α) (h : x.1 = a) : x = (a, x.2.1, x.2.2) := by subst h; rfl
theorem not_self (x : BitVec 512) : x ≠ ~~~x := fun e => absurd (congrArg (BitVec.getLsbD · 0) e) (by simp)
theorem pairEta {α β : Type} (x : α × β) : x = (x.1, x.2) := rfl

/-! ## Near-bank programs, hoists, steps -/

/-- Program 0 of stack 0 stands at an entry with descriptor `d`; an END follows. -/
def nbAt (d : Line) (f : Program → Program) : State :=
  { up with nb := { up.nb with programs := [f { prog with begun := false, left := [] }], progMem := [(0, d)] } }
def prog0 (f : Program → Program) : Program := f { prog with begun := false, left := [] }
/-- A page list of one page. -/
def pages (d : Line) (n : Byte) : State :=
  let s := nbAt d id
  { s with nb := { s.nb with bbuf := [(0, n), (1, 0), (2, 0), (3, 0)] }, mem := { s.mem with regions := [kreg 5 (bOp d - 1)] } }
def dQk (op : Nat) : Line := pack 512 [(0, 8, op), (16, 4, 8), (80, 15, 5), (96, 15, 1), (128, 16, 1), (144, 16, 4), (256, 21, 1024), (288, 21, 8192)]
def aptState (x : Line) : State := { wf (wf up (STK_APT_CTRL 0) 0 1 1) (PART_NB 0) 8 3 1 with nb := { up.nb with aptStatus := x } }
/-- A move by descriptor, queued at hoist 0. -/
def rq (d : Line) (u : W16) : MoveReq := { hoist := 0, desc := d, addr := 0x1000, owner := none, cmd := none, part := 0, unreadable := u }
def dMove (op : Nat) (fs : List (Nat × Nat × Nat)) : Line := pack 512 ([(0, 8, op), (32, 32, 7)] ++ fs)
def hoisting (r : MoveReq) : State := { up with hoists := { up.hoists with queue := [r] } }
def mv (f : Move → Move) : Move :=
  f { id := 1, req := rq (dMove 1 []) 0, src := 0, dst := 0, srcIdx := [], dstIdx := [], got := [], phase := .done, status := 0x0200, detail := 5, position := 6,
      flags := 0, timedOut := false }
def moving (s : State) (m : Move) : State := { s with hoists := { s.hoists with moves := [m] } }
/-- Session 2 is ACTIVE in a slot with 3 tokens, of which none has KV entries. -/
def sAct : Session := sess 1 fun x => { x with slot := true, chunks := [], root := some 0 }
def serving0 : State :=
  let s := serve (pooled (parted up)) sAct
  { s with se := { s.se with pool := some poolRec, spans := [{ session := 2, draft := false, idx := 0, block := 0, slots := [0] }] } }
def ring0 : Ring := { base := 0x80000100000, log2 := 12, tail := 0x80000200000, msix := 3 }
def run0 (f : StepRun → StepRun) : StepRun :=
  f { works := [], start := 0, startMono := 0, predicted := 0, planNs := 0, todo := [], group := none, groupAt := 0, sem := 0, signals := 0,
      rounds := [], drained := false, dense := [], denseSig := 0, attended := false, rescued := false, held := false, regrant := false, everHeld := false, holdNs := 0, attn := [], badBatches := [], badSessions := [] }
def stepping0 (r : StepRun) : State := { serving0 with se := { serving0.se with steps := [(0, r)] } }
def res0 : StepResult := { slots := [] }
def sTier (t : Nat) (f : Session → Session) : Session :=
  f { Session.zero with record := pack 1024 [(0, 32, 2), (32, 3, 2), (35, 2, t), (64, 12, 6), (96, 32, 3), (768, 32, 64)], proj := 2, chunks := [0], toks := [5, 6, 7] }
def tiers (x : Session) (host : Nat) : State :=
  let s := serve (pooled (parted up)) x
  wr { s with se := { s.se with pool := some (srPut poolRec [(896, 64, host)]) } } (HF_SE_TTL_T 3) 10
/-- A packet of flow 7 that waits or is outstanding. -/
def pktOf (o : PktOwner) : Sent :=
  { psn := 3, op := OpHeader.zero, payload := [], ackNow := false, path := 0, sentAt := 0, firstAt := 0, resent := false, received := false, answered := false,
    failed := none, heldAt := none, owner := o, charge := none, msg := none }

/-! ## The fabric -/

/-- Node 3 with sub-ports up on port 0; node 7 is a peer that may do everything, over sub-ports 0 and 1. -/
def peer7 : Line := pack 512 [(160, 2, 3), (193, 8, 0xFF)]
def net : State :=
  let s := wf (wf (wf up FAB_NODE 0 16 3) FAB_NODE 16 16 9) (FAB_PORT_LINK 0) 0 10 0x3FC
  { s with fab := { s.fab with peers := [(7, peer7), (8, 0)] } }
def op0 (k : Byte) : OpHeader := { OpHeader.zero with kind := k, addr := 0x1000 }
def ack0 : AckBody := { rcvPsn := 0, held := false, donePsn := 0, sack := 0, highPsn := 0, ece := 0, rcvd := 0 }
/-- Packet 0 from node 7, a SYN, with an operation and its payload. -/
def fr (op : OpHeader) (pl : List Byte) (f : Frame → Frame) : Frame :=
  f { port := 0, sub := 1, cls := 0, retx := false, ackNow := false, syn := true, src := 7, dst := 3, srcEpoch := 4, dstEpoch := 0, psn := 0, path := 0, incarn := 2,
      ce := false, op := op, payload := pl, ack := ack0 }
/-- The flow with node 7 holds a request. -/
def asked (s : State) (f : Sent → Sent) : State := { s with fab := { s.fab with flows := [{ Flow.fresh 7 0 with sent := [f (pktOf .none)], next := 4 }] } }
def sent (f : Sent → Sent) : Sent := f (pktOf .none)
/-- A line whose first sector is poisoned stands in the home slice. -/
def bad (s : State) : State := setLine s 64 { data := 0, valid := 3, dirty := 0, poison := 1 }
def flow (f : Flow → Flow) : Flow := f { Flow.fresh 7 0 with sent := [pktOf .none], next := 4 }
def flowing (f : Flow) : State := { net with fab := { net.fab with flows := [f] } }
def nbr (f : Neighbour → Neighbour) : Neighbour := f { port := 0, sub := 1, v6 := true, request := true, target := 5, senderAddr := 6, senderMac := 7 }
/-- The node has the address 5. -/
def addressed : State := { net with fab := { net.fab with node := 5 } }

/-! ## Time -/

/-- Port 0 is up with a PTP role and state, domain 0. -/
def ptp (role st : Nat) : State := wf (wf (wf net (TIME_PTP_CFG 0) 14 2 role) (TIME_PTP_CFG 0) 17 8 0) (TIME_PTP_CFG 0) 25 4 st
def msg : PtpMsg :=
  { port := 0, sub := 1, seq := 4, originNs := 100, correction := 3, twoStep := false, domain := 0, priority1 := 1, priority2 := 2, clockClass := 6,
    accuracy := 0x21, traceable := true, clockId := 9 }
def ptpAt (s : State) (f : PtpPort → PtpPort) : State := setPtp s 0 (f PtpPort.zero)
/-- Time's source and state. -/
def timed (s : State) (src st : Nat) : State := wf (wf s TIME_STATUS 0 3 src) TIME_STATUS 3 2 st
/-- Three seconds of pulses, the last a second ago. -/
def pulses (s : State) (f : TimeSt → TimeSt) : State :=
  let s := clocked s 1000000000
  { s with time := f { s.time with ppsEdges := [7500000000, 8500000000], ppsConfig := 5, ns := 0 } }

/-! ## The twin -/

/-- Paired with node 7 in a state, with the twin's fields as given. -/
def twinned (n : Nat) (f : Twin → Twin) : State := let s := wf (paired up n) TWIN_STATE 16 16 7; { s with twin := f s.twin }
def cTp : Cmd := going (cmd 0x0605 [(128, 16, 7)])
/-- TWIN_PAIR is in progress. -/
def pairing (f : Twin → Twin) : State := let s := wf (paired (holds up cTp) 1) TWIN_STATE 16 16 7; { s with twin := f { s.twin with cmd := some 5 } }
def mirrored : Mirrored := { handle := 2, record := (sess 2 id).record, toks := [5], request := true }
def repairing (src : RepairSource) : State × RepairInput :=
  ({ up with se := { up.se with models := [(6, { mdl with repairing := some 0 })] } }, { model := 6, source := src, digest := 7, units := [] })
/-- A model with SHARED = 1 under repair: model 7 beside model 6, or model 6 itself. -/
def sharedModel : Model := { mdl with record := setFld mdl.record 16 1 1, repairing := some 0 }
def sharedRepair (i : Nat) : State := { up with se := { up.se with models := (tput [(6, { mdl with repairing := some 0 })] i sharedModel) } }
/-! ## Power -/

def meas1 : PowerMeas :=
  { pIn := 1000000, pDie := 500000, pStk := List.replicate 8 20000, reads := List.replicate 8 900, allowed := List.replicate 8 1000, vinMv := 54000,
    iinMa := 18000, droopMv := 10 }
/-- Clusters at a temperature in 1/16 °C, stacks at 50 °C. -/
def cool (t : Int) : Temps := { clusters := List.replicate 64 t, stackTemps := List.replicate 32 800 }
def found1 : Findings :=
  { vf := List.replicate 33 700, noSlack := [], retention := [(1, 2)], weakRows := [(2048, 5)], weakLanes := [], slack := [], ring := [],
    eyePort := [], eyeStk := [], kStk := List.replicate 8 11, rateNb := 5, rateD := 6, partRates := [], cond := { temps := [800], watts := 700, droop := 20 } }
def cond1 : CalCond := { temps := [800], watts := 700, droop := 20 }
/-- The rails are up and no reset holds the Headframe. -/
def railed : State := { up with pins := { up.pins with rails := true, resetLow := false } }

/-- *An idle-time V/F scan meets a full step*: the record of 46 °C, 700 W, 14 mV has a guard band of 40 mV under a cap of 2,600 W, and 0.790 V becomes 0.830 V; the
record of 48 °C, 2,310 W, 29 mV has 4 mV. -/
def vfState (t w d mv : Nat) : State :=
  { wf (wf up PWR_BUDGET_CAP 0 12 2600) PWR_BOARD_CAP 0 12 2600 with
    pwr := { up.pwr with capW := 2600, temps := cool (16 * t), cals := [(0, { cond := { temps := [16 * t], watts := w, droop := d }, vals := List.replicate 33 mv })] } }
theorem test_vf_guard : vfGuard (vfState 46 700 14 790) = 40 ∧ rf (setGuards (vfState 46 700 14 790)) PWR_CAL_STATUS 0 1 = 1 ∧
    vAt (setGuards (vfState 46 700 14 790)) 4000 = 830 ∧ vfGuard (vfState 48 2310 29 806) = 4 ∧ vAt (setGuards (vfState 48 2310 29 806)) 4000 = 810 ∧
    calOutside (vfState 55 2540 31 806) 0 = 0 := by decide +kernel

/-- *Faults that meet a recovery*: a second trip of pseudo-channel 177 in its recovery starts stack 2's and raises ERRLOG_ESCAL_COUNT; pseudo-channel 130 is absorbed, 300
starts at once, 301 queues. -/
def trips (s : State) (pcs : List Nat) : State := pcs.foldl (fun s pc => urgentTrigger s pc 1 false) s
theorem test_recovery_meets : (trips up [177]).faults.running = [(2, 178)] ∧ storedState (trips up [177]) = 2 ∧
    tfind (trips up [177, 177]).faults.running 3 = some 3 ∧ storedState (trips up [177, 177]) = 5 ∧ rd64 (trips up [177, 177]) ERRLOG_ESCAL_COUNT = 1 ∧
    (trips up [177, 177, 130]).faults.running = (trips up [177, 177]).faults.running ∧
    tfind (trips up [177, 177, 300]).faults.running 2 = some 301 ∧
    (trips up [177, 177, 300, 301]).faults.queued = [(2, [301])] := by decide +kernel

/-- *Two readers' examples* (R354): p = 0x00_0004 lies 10 past DONE_PSN 0xFF_FFFA, and 0xFF_FFF0 precedes RCV_PSN 0x00_0010. -/
theorem test_psn : psnNear 0xFFFFFA 4 = some (0xFFFFFA + 10) ∧ psnNear 0x1000010 0xFFFFF0 = some (0x1000010 - 32) ∧ psnNear 0x10 0xFFFFF0 = none := by decide +kernel

/-- *A scatter with repeated and negative indices*: in BF16, 256 + 1 rounds to 256. -/
theorem test_scatter_add : amoNew 0 4 0x4380 0x3F80 0 = 0x4380 ∧ amoNew 0 4 0x437F 0x3F80 0 = 0x4380 := by decide +kernel

/-! ## What is left open (R57, R203, R281) -/

/-- R203: a write to position 3 of a K page that a QK entry reads leaves the entry's result for lane 3 unspecified. -/
def blasting : State := { pages (dQk 2) 0 with nb := { (pages (dQk 2) 0).nb with programs := [prog0 fun p => { p with begun := true }] } }
theorem test_written_lane_is_loose :
    loose (viewWriteBack blasting (kreg 5 1) 0 0 [(384, 1)]).2 (prog0 fun p => { p with begun := true }) (dQk 2) (kreg 5 1) = [3] := by decide +kernel

/-- No program runs: nothing is noted. -/
theorem test_untouched : (viewWriteBack (pages (dQk 2) 0) (kreg 5 1) 0 0 [(384, 1)]).2.mem.touched = [] := by decide +kernel

/-- R281: a discarded row set's byte reads as what was written to it, zero included, and the form is kept. -/
theorem test_discarded_write : dramByte (setDramByte (discardRows up 3 2) 6149 0) 6149 = 0 ∧
    Mem.wf (setDramByte (discardRows up 3 2) 6149 0).mem = true := by decide +kernel

/-- R57: the view's code of a stored code is R41's. -/
theorem test_fp4_codes : (List.range 16).map (fun e => codeToFp4 (fp4ToCode e)) = [0, 1, 2, 3, 4, 5, 6, 7, 0, 9, 10, 11, 12, 13, 14, 15] := by decide +kernel

/-! ## The hypotheses of each statement can be met

One theorem for each statement: its parts are the statement's clauses that have hypotheses, in the statement's order, some more than once where a clause has
cases of its own. -/

theorem witness_StepRunsFront :
    ∃ (s : State) (c : Instr) (rest : List Instr), (s.pending = c :: rest) :=
  ⟨{ up with pending := [.nop 0, .brownout] }, .nop 0, [.brownout], by decide +kernel⟩

theorem witness_StepsAnswer :
    ∃ (s : State), (s.pending = []) ∧ (s.pins.rails = true) ∧ (s.pins.resetLow = false) ∧ (s.time.ns < 1000000000) ∧ (s.time.acc < 2 ^ 40) ∧ (0 ≤
      (2 ^ 40 : Int) + rho s) :=
  ⟨up, by decide +kernel⟩

theorem witness_FusesKept :
    ∃ (s : _) (t : State), (Fused s) ∧ (step s = .next t) :=
  ⟨up, after (step up) up id, by (exact ⟨⟨rfl, rfl, rfl, rfl, by decide +kernel⟩, rfl⟩)⟩

theorem witness_CommandsKeepTheRest :
    ∃ (c : Instr) (s t : State), exec c s = .next t :=
  ⟨.sbBoardCap 500, up, after (exec (.sbBoardCap 500) up) up id, rfl⟩

theorem witness_SupplyAndResetRows :
    (∃ (s : State) (v : Nat), (s.pins.pwrEn = false) ∧ (s.pins.holdOff = false) ∧ (32000 ≤ v) ∧ (v ≤ 40000)) ∧
    (∃ (s : State) (v : Nat), (s.pins.pwrEn = false) ∧ (s.pins.holdOff = false) ∧ (32000 ≤ v) ∧ (v ≤ 40000)) ∧
    (∃ (s : State) (v : Nat), (s.pins.pwrEn = false) ∧ (s.pins.holdOff = true)) ∧
    (∃ (s : State), (s.pins.rails = true)) ∧
    (∃ (s : State) (c : _), (s.pins.rails = true) ∧ (c = Instr.brownout ∨ c = Instr.overvoltage)) ∧
    (∃ (s : State) (c : _), (s.pins.rails = true) ∧ (c = Instr.brownout ∨ c = Instr.overvoltage)) ∧
    (∃ (s : State), (s.pins.holdOff = true) ∧ (s.pins.roseInHold = true) ∧ (s.pins.pwrEn = true) ∧ (32000 ≤ s.pins.vinMv) ∧ (s.pins.vinMv ≤ 40000)) ∧
    (∃ (s : State), (s.pins.holdOff = true) ∧ (s.pins.roseInHold = false)) ∧
    (∃ (s : State), (s.pins.rails = true) ∧ (s.pins.resetLow = false) ∧ (storedState s ≠ 6)) ∧
    (∃ (s : State), (s.pins.rails = true) ∧ (storedState s = 6)) ∧
    (∃ (s : State), (s.pins.rails = true) ∧ (s.pins.resetLow = true)) ∧
    (∃ (s : State), (s.pins.rails = true) ∧ (s.pins.perstLow = true)) ∧
    (∃ (s : State) (id : Nat) (c : Cmd), (Admitted s id 0x0008 c) ∧ (Plain (begun s id) (taken s c)) ∧ (twinState s ≠ 2)) :=
  ⟨⟨off, 32000, by decide +kernel⟩,
   ⟨off, 40000, by decide +kernel⟩,
   ⟨{ off with pins := { off.pins with holdOff := true } }, 40001, by decide +kernel⟩,
   ⟨up, by decide +kernel⟩,
   ⟨up, .brownout, by decide +kernel⟩,
   ⟨up, .overvoltage, by decide +kernel⟩,
   ⟨{ off with pins := { off.pins with holdOff := true, roseInHold := true, pwrEn := true, vinMv := 40000 } }, by decide +kernel⟩,
   ⟨{ off with pins := { off.pins with holdOff := true } }, by decide +kernel⟩,
   ⟨up, by decide +kernel⟩,
   ⟨setDevState up 6, by decide +kernel⟩,
   ⟨pinned { up.pins with resetLow := true }, by decide +kernel⟩,
   ⟨up, by decide +kernel⟩,
   ⟨holds up (cmd 8 []), 5, cmd 8 [], by simp only [Admitted, Plain, begun, taken]; decide +kernel⟩⟩

theorem witness_BootPhases :
    (∃ (s : State) (r : BootReport), (s.pins.rails = true) ∧ (s.pins.resetLow = false) ∧ (storedState s = 1) ∧ (rf s GLOBAL_STATE 16 8 = 0) ∧
      (rf s GLOBAL_STATE 8 8 = 5) ∧ (r.clearFailed = none)) ∧
    (∃ (s : State) (r : BootReport) (k : Nat) (ks : List Nat), (s.pins.rails = true) ∧ (s.pins.resetLow = false) ∧ (storedState s = 1) ∧
      (rf s GLOBAL_STATE 16 8 = 0) ∧ (rf s GLOBAL_STATE 8 8 = 3) ∧ (s.flash.missing = k :: ks) ∧ (k < 256)) ∧
    (∃ (s : State) (r : BootReport), (s.pins.rails = true) ∧ (s.pins.resetLow = false) ∧ (storedState s = 1) ∧ (rf s GLOBAL_STATE 16 8 = 0) ∧
      (rf s GLOBAL_STATE 8 8 = 7)) ∧
    (∃ (s : State) (r : BootReport), (s.pins.rails = true) ∧ (s.pins.resetLow = false) ∧ (storedState s = 1) ∧ (rf s GLOBAL_STATE 16 8 ≠ 0)) :=
  ⟨⟨boot 5, bootRep, by decide +kernel⟩,
   ⟨{ boot 3 with flash := { up.flash with missing := [255] } }, bootRep, 255, [], by decide +kernel⟩,
   ⟨boot 7, bootRep, by decide +kernel⟩,
   ⟨wf (boot 5) GLOBAL_STATE 16 8 2, bootRep, by decide +kernel⟩⟩

theorem witness_SidebandRows :
    (∃ (s : State) (off : Nat) (w : W32), (s.pins.pwrGood = false)) ∧
    (∃ (s : State), (s.pins.pwrGood = true)) ∧
    (∃ (s : State) (w : W32), (s.pins.pwrGood = true) ∧ (bit w 2 = false) ∧ (bit w 3 = false)) ∧
    (∃ (s : State) (w : W32), (s.pins.pwrGood = true)) ∧
    (∃ (s : State) (w : W32), (s.pins.pwrGood = true)) ∧
    (∃ (s : State) (w : W32), (s.pins.pwrGood = true) ∧ (bit w 2 = true) ∧ (bit w 3 = false) ∧ (rcvOpen s (fld w 0 2) = true)) ∧
    (∃ (s : State) (w : W32) (i : Image), (s.pins.pwrGood = true) ∧ (s.pins.rcvStarted = true) ∧ (tfind s.flash.images
      (2 * s.pins.rcvKind) = some i)) ∧
    (∃ (s : State) (w : W32) (i : Image) (d : Nat), (s.pins.pwrGood = true) ∧ (bit w 2 = false) ∧ (bit w 3 = true) ∧ (rcvOpen s (fld w 0 2) = true) ∧
      (tfind s.flash.images (2 * fld w 0 2) = some i) ∧ (i.committed = none) ∧ (imgFault s (fld w 0 2) i.bytes = some d) ∧ (d < 65536)) :=
  ⟨⟨{ up with pins := { up.pins with pwrGood := false } }, 4, 9, by decide +kernel⟩,
   ⟨up, by decide +kernel⟩,
   ⟨up, 1, by decide +kernel⟩,
   ⟨up, 0, by decide +kernel⟩,
   ⟨up, 0xFFF, by decide +kernel⟩,
   ⟨rcv, 4, by decide +kernel⟩,
   ⟨{ rcv with pins := { rcv.pins with rcvStarted := true, rcvKind := 0 }, flash := { rcv.flash with images := [(0, noImage)] } }, 0x01020304, noImage, by decide +kernel⟩,
   ⟨{ rcv with flash := { rcv.flash with images := [(0, noImage)] } }, 8, noImage, 0x91, by decide +kernel⟩⟩

theorem witness_ScalarRegisters :
    (∃ (e : Ev) (n : Nat), (n < 32) ∧ (pendingDest e (.sreg n) = false)) ∧
    (∃ (e : Ev) (n : Nat), (n < 32) ∧ (pendingDest e (.sreg n) = false)) ∧
    (∃ (e : Ev) (n : Nat), (0 < n) ∧ (n < 32) ∧ (pendingDest e (.sreg n) = true)) ∧
    (∃ (e : Ev) (n : Nat) (v : W64), (0 < n) ∧ (n < 32) ∧ (pendingDest e (.sreg n) = false)) :=
  ⟨⟨ev (bCtl 0), 31, by decide +kernel⟩,
   ⟨ev (bCtl 0), 0, by decide +kernel⟩,
   ⟨{ ev (bCtl 0) with s := { core th1 with cores := { (core th1).cores with ops := [opOf (.sreg 31)] } }, id0 := 2 }, 31, by decide +kernel⟩,
   ⟨ev (bCtl 0), 31, 9, by decide +kernel⟩⟩

theorem witness_QueueOperands :
    (∃ (e : Ev) (code : Nat) (x : QEntry) (r : List QEntry), (32 ≤ code) ∧ (code < 64) ∧ (getQ e.s e.job e.t (code % 16) = x :: r) ∧
      (x.pending = none)) ∧
    (∃ (e : Ev) (code : Nat) (x : QEntry) (r : List QEntry), (32 ≤ code) ∧ (code < 64) ∧ (getQ e.s e.job e.t (code % 16) = x :: r) ∧
      (x.pending = none)) ∧
    (∃ (e : Ev) (code : Nat), (32 ≤ code) ∧ (code < 64) ∧ (getQ e.s e.job e.t (code % 16) = [])) ∧
    (∃ (e : Ev) (code : Nat), (32 ≤ code) ∧ (code < 64) ∧ (getQ e.s e.job e.t (code % 16) = [])) ∧
    (∃ (e : Ev) (code : Nat) (x : QEntry) (r : List QEntry), (32 ≤ code) ∧ (code < 64) ∧ (getQ e.s e.job e.t (code % 16) = x :: r) ∧
      (x.pending.isSome = true)) ∧
    (∃ (e : Ev) (code : Nat) (v : W64) (x : VReg) (wide : Bool), (32 ≤ code) ∧ (code < 48) ∧ ((getQ e.s e.job e.t (code % 16)).length < qDepth e.job
      (code % 16))) ∧
    (∃ (e : Ev) (code : Nat) (v : W64) (x : VReg) (wide : Bool), (32 ≤ code) ∧ (code < 48) ∧ (qDepth e.job (code % 16) ≤ (getQ e.s e.job e.t
      (code % 16)).length)) ∧
    (∃ (s : State) (j : Job) (t : Tid) (u : Tid) (q : Nat), (qShared j q = true) ∧ (t.vcore = u.vcore)) ∧
    (∃ (e : Ev) (wide : Bool) (code : Nat), (32 ≤ code) ∧ (code < 64) ∧ ((qDepth e.job (code % 16) = 0 ∨ qWide e.job (code % 16) ≠ wide))) ∧
    (∃ (e : Ev) (wide : Bool) (code : Nat), (32 ≤ code) ∧ (code < 64) ∧ ((qDepth e.job (code % 16) = 0 ∨ qWide e.job (code % 16) ≠ wide))) ∧
    (∃ (e : Ev) (wide : Bool) (code : Nat), (32 ≤ code) ∧ (code < 64) ∧ ((qDepth e.job (code % 16) = 0 ∨ qWide e.job (code % 16) ≠ wide))) ∧
    (∃ (e : Ev) (wide : Bool) (code : Nat), (48 ≤ code) ∧ (code < 64)) ∧
    (∃ (e : Ev) (wide : Bool) (code : Nat), (48 ≤ code) ∧ (code < 64)) :=
  ⟨⟨evQ [q1, q2], 33, q1, [q2], by decide +kernel⟩,
   ⟨evQ [q1, q2], 49, q1, [q2], by decide +kernel⟩,
   ⟨evQ [], 33, by decide +kernel⟩,
   ⟨evQ [], 63, by decide +kernel⟩,
   ⟨evQ [q2, q1], 33, q2, [q1], by decide +kernel⟩,
   ⟨evQ [q1], 33, 5, 7, true, by decide +kernel⟩,
   ⟨evQ (List.replicate 16 q1), 33, 5, 7, true, by decide +kernel⟩,
   ⟨up, { job1 with qmap := [(1, 16 + 2 ^ 13)] }, tid, { tid with thread := 3 }, 1, by decide +kernel⟩,
   ⟨evQ [], true, 33, by decide +kernel⟩,
   ⟨evQ [], false, 44, by decide +kernel⟩,
   ⟨evQ [], true, 63, by decide +kernel⟩,
   ⟨evQ [], true, 48, by decide +kernel⟩,
   ⟨evQ [], true, 63, by decide +kernel⟩⟩

theorem witness_SlotsInOrder :
    (∃ (e : Ev) (b : Bundle) (k : Nat) (ks : List Nat), (Bundle.has b k = true) ∧ (bit e.th0.dropped k = false)) ∧
    (∃ (e : Ev) (b : Bundle) (k : Nat) (ks : List Nat), (Bundle.has b k = false)) ∧
    (∃ (s : State) (t : Tid) (b : Bundle) (j : Job) (th : Thread), (Issues s t b j th) ∧ (Bundle.reserved b = 0)) :=
  ⟨⟨ev (bCtl 0x308401), bCtl 0x308401, 0, [], by decide +kernel⟩,
   ⟨ev (bCtl 0x308401), bCtl 0x308401, 1, [], by decide +kernel⟩,
   ⟨core th1, tid, bCtl 0x308401, job1, th1, by simp only [Issues]; and_intros <;> first | trivial⟩⟩

theorem witness_BundleEnds :
    (∃ (e : Ev), ((getThread e.s e.t).run = .running) ∧ (e.branch = none) ∧ (e.rpt = none) ∧ (e.th0.rpt = []) ∧ (e.pc + e.len < 2 ^ 32)) ∧
    (∃ (e : Ev) (target : Nat), ((getThread e.s e.t).run = .running) ∧ (e.branch = some target) ∧ (target < 2 ^ 32)) ∧
    (∃ (e : Ev) (r : Repeat) (rs : List Repeat), ((getThread e.s e.t).run = .running) ∧ (e.branch = none) ∧ (e.rpt = none) ∧ (e.th0.rpt = r :: rs) ∧
      (r.bodyEnd ≤ e.pc + e.len) ∧ (1 < r.passes) ∧ (r.bodyStart < 2 ^ 32)) :=
  ⟨⟨ev (bCtl 0x308401), by decide +kernel⟩,
   ⟨{ ev (bCtl 0x308401) with branch := some 32 }, 32, by decide +kernel⟩,
   ⟨{ ev (bCtl 0x308401) with th0 := { th1 with rpt := [{ bodyStart := 0, bodyEnd := 5, passes := 2 }] }, s := core { th1 with rpt := [{ bodyStart := 0, bodyEnd := 5, passes := 2 }] } }, { bodyStart := 0, bodyEnd := 5, passes := 2 }, [], by decide +kernel⟩⟩

theorem witness_ControlArithmetic :
    (∃ (r : Nat × (Tid → Bundle → Instr) × (W64 → W64 → W64)) (s : State) (t : Tid) (b : Bundle) (j : Job) (th : Thread) (x : W64) (y : W64) (e : Ev)
      (e' : Ev), (Issues s t b j th) ∧ (Alone b 0) ∧ (Bundle.op b 0 = r.1) ∧ (fld b.ctl 26 6 = 0) ∧ (Reads2 (atIssue s t b j th) (ctlA b.ctl)
      (ctlB b.ctl) (ctlD b.ctl) x y e) ∧ (writeS e (ctlD b.ctl) (r.2.2 x y) = .ok e')) ∧
    (∃ (r : Nat × (Tid → Bundle → Instr) × (W64 → Int → W64)) (s : State) (t : Tid) (b : Bundle) (j : Job) (th : Thread) (x : W64) (e : Ev)
      (e' : Ev), (Issues s t b j th) ∧ (Alone b 0) ∧ (Bundle.op b 0 = r.1) ∧ (Reads1 (atIssue s t b j th) (ctlA b.ctl) (ctlD b.ctl) x e) ∧ (writeS e
      (ctlD b.ctl) (r.2.2 x (sxt 12 (fld b.ctl 20 12))) = .ok e')) ∧
    (∃ (s : State) (t : Tid) (b : Bundle) (j : Job) (th : Thread) (e' : Ev), (Issues s t b j th) ∧ (Alone b 0) ∧ (Bundle.op b 0 = 0x20) ∧ (dstCheck
      (atIssue s t b j th) false (ctlD b.ctl) = .ok ()) ∧ (writeS (atIssue s t b j th) (ctlD b.ctl) (BitVec.ofInt 64 (sxt 18
      (fld b.ctl 14 18))) = .ok e')) ∧
    (∃ (s : State) (t : Tid) (b : Bundle) (j : Job) (th : Thread) (x : W64) (e : Ev) (e' : Ev), (Issues s t b j th) ∧ (Alone b 0) ∧
      (Bundle.op b 0 = 0x21) ∧ (Reads1 (atIssue s t b j th) (ctlD b.ctl) (ctlD b.ctl) x e) ∧ (writeS e (ctlD b.ctl) (BitVec.ofNat 64
      (x.toNat * 2 ^ 18 + fld b.ctl 14 18)) = .ok e')) :=
  ⟨⟨(0x01, Instr.add, fun a b => a + b), core th1, tid, bCtl 0x308401, job1, th1, 5, 0xFFFFFFFFFFFFFFFF, ev (bCtl 0x308401), okE (writeS (ev (bCtl 0x308401)) 4 4) (ev (bCtl 0)), by simp only [Alone, Issues, Reads2]; and_intros <;> first | trivial | exact ⟨_, rfl, rfl⟩⟩,
   ⟨(0x11, Instr.addi, fun a i => BitVec.ofInt 64 (a.toInt + i)), core th1, tid, bCtl 0xFFF08411, job1, th1, 5, ev (bCtl 0xFFF08411), okE (writeS (ev (bCtl 0xFFF08411)) 4 4) (ev (bCtl 0)), by simp only [Alone, Issues, Reads1]; and_intros <;> first | trivial⟩,
   ⟨core th1, tid, bCtl 0xFFFFC420, job1, th1, okE (writeS (ev (bCtl 0xFFFFC420)) 4 0xFFFFFFFFFFFFFFFF) (ev (bCtl 0)), by simp only [Alone, Issues]; and_intros <;> first | trivial⟩,
   ⟨core th1, tid, bCtl 0xFFFFC221, job1, th1, 5, ev (bCtl 0xFFFFC221), okE (writeS (ev (bCtl 0xFFFFC221)) 2 0x17FFFF) (ev (bCtl 0)), by simp only [Alone, Issues, Reads1]; and_intros <;> first | trivial⟩⟩

theorem witness_ControlFlow :
    (∃ (r : Nat × (Tid → Bundle → Instr) × (W64 → Bool)) (s : State) (t : Tid) (b : Bundle) (j : Job) (th : Thread) (x : W64) (e : Ev) (n : Nat),
      (r ∈ branchTable) ∧ (Issues s t b j th) ∧ (Alone b 0) ∧ (Bundle.op b 0 = r.1) ∧ (Reads (atIssue s t b j th) (fld b.ctl 8 6) x e) ∧
      ((n : Int) = th.pc.toNat + sxt 18 (fld b.ctl 14 18)) ∧ (n < j.codeBytes)) ∧
    (∃ (r : Nat × (Tid → Bundle → Instr) × (W64 → Bool)) (s : State) (t : Tid) (b : Bundle) (j : Job) (th : Thread), (r ∈ branchTable) ∧
      (Issues s t b j th) ∧ (Alone b 0) ∧ (Bundle.op b 0 = r.1) ∧ (srcCheck (atIssue s t b j th) false (fld b.ctl 8 6) = .ok ()) ∧
      (th.pc.toNat + sxt 18 (fld b.ctl 14 18) < 0 ∨ (j.codeBytes : Int) ≤ th.pc.toNat + sxt 18 (fld b.ctl 14 18))) ∧
    (∃ (s : State) (t : Tid) (b : Bundle) (j : Job) (th : Thread) (n : Nat), (Issues s t b j th) ∧ (Alone b 0) ∧ ((n : Int) = th.pc.toNat + sxt 24
      (fld b.ctl 8 24)) ∧ (n < j.codeBytes)) ∧
    (∃ (s : State) (t : Tid) (b : Bundle) (j : Job) (th : Thread) (n : Nat), (Issues s t b j th) ∧ (Alone b 0) ∧ ((n : Int) = th.pc.toNat + sxt 24
      (fld b.ctl 8 24)) ∧ (n < j.codeBytes)) ∧
    (∃ (s : State) (t : Tid) (b : Bundle) (j : Job) (th : Thread) (x : W64) (e : Ev), (Issues s t b j th) ∧ (Alone b 0) ∧ (Bundle.op b 0 = 0x36) ∧
      (fld b.ctl 8 6 = 0) ∧ (fld b.ctl 20 12 = 0) ∧ (Reads (atIssue s t b j th) (ctlA b.ctl) x e) ∧ (x.toNat < j.codeBytes)) ∧
    (∃ (s : State) (t : Tid) (b : Bundle) (j : Job) (th : Thread) (x : W64) (e : Ev), (Issues s t b j th) ∧ (Alone b 0) ∧ (Bundle.op b 0 = 0x38) ∧
      (fld b.ctl 22 10 = 0) ∧ (0 < fld b.ctl 14 8) ∧ (Reads (atIssue s t b j th) (fld b.ctl 8 6) x e) ∧ (th.rpt.length < 4 ∨ x.toNat % 2 ^ 32 = 0) ∧
      (e.th0 = th)) ∧
    (∃ (s : State) (t : Tid) (b : Bundle) (j : Job) (th : Thread), (Issues s t b j th) ∧ (Alone b 0) ∧ (Bundle.op b 0 = 0x39) ∧ (0 < fld b.ctl 8 8) ∧
      (th.rpt.length < 4 ∨ fld b.ctl 16 16 = 0)) :=
  ⟨⟨(0x31, Instr.bnez, fun a => decide (a ≠ 0)), core th1, tid, bCtl 0x00080231, job1, th1, 5, ev (bCtl 0x00080231), 32, by
     simp only [Alone, Issues, Reads]; and_intros <;> first | trivial | simp [branchTable] | decide +kernel⟩,
   ⟨(0x31, Instr.bnez, fun a => decide (a ≠ 0)), core th1, tid, bCtl 0x000EC231, job1, th1, by
     simp only [Alone, Issues]; and_intros <;> first | trivial | simp [branchTable] | exact Or.inr (by decide +kernel)⟩,
   ⟨core th1, tid, bCtl 0x3A34, job1, th1, 58, by simp only [Alone, Issues]; and_intros <;> first | trivial⟩,
   ⟨core th1, tid, bCtl 0x3A35, job1, th1, 58, by simp only [Alone, Issues]; and_intros <;> first | trivial⟩,
   ⟨core th1, tid, bCtl 0x8036, job1, th1, 5, ev (bCtl 0x8036), by simp only [Alone, Issues, Reads]; and_intros <;> first | trivial⟩,
   ⟨core th1, tid, bCtl 0x4238, job1, th1, 5, ev (bCtl 0x4238), by simp only [Alone, Issues, Reads]; and_intros <;> first | trivial⟩,
   ⟨core th1, tid, bCtl 0x00050139, job1, th1, by simp only [Alone, Issues]; and_intros <;> first | trivial⟩⟩

/-- The bundle at issue of a job and thread. -/
def evJ (j : Job) (th : Thread) : Ev := let s := core th; atIssue { s with cores := { s.cores with jobs := [j] } } tid (bCtl 0x440) j th
def queued1 (w : List QWait) : State :=
  let s := core { th1 with waitQ := w }
  { s with cores := { s.cores with jobs := [{ job1 with threads := 1 }] } }

theorem witness_ThreadRows :
    (∃ (e : Ev) (i : Nat), (getThread e.s e.t).replay = some i) ∧
    (∃ (e : Ev) (j : Job) (i : Nat) (r : List Nat), (jobAt e.s e.t.vcore = some j) ∧ ((getThread e.s e.t).replay = none) ∧ (j.replay = i :: r)) ∧
    (∃ (e : Ev) (j : Job), (jobAt e.s e.t.vcore = some j) ∧ ((getThread e.s e.t).replay = none) ∧ (j.replay = []) ∧ (j.dynamic = true) ∧
      (j.nextItem < j.wiCount)) ∧
    (∃ (e : Ev) (j : Job), (jobAt e.s e.t.vcore = some j) ∧ ((getThread e.s e.t).replay = none) ∧ (j.replay = []) ∧ (j.dynamic = true) ∧
      (j.wiCount ≤ j.nextItem)) ∧
    (∃ (e : Ev) (j : Job) (k : Nat), (jobAt e.s e.t.vcore = some j) ∧ ((getThread e.s e.t).replay = none) ∧ (j.replay = []) ∧ (j.dynamic = false) ∧
      (k = (e.t.vcore - j.vfirst) * j.threads + e.t.thread + (getThread e.s e.t).winext * (j.vcount * j.threads))) ∧
    (∃ (s : State) (t : Tid) (b : Bundle) (j : Job) (th : Thread) (e : Ev) (e' : Ev) (i : Option Nat), (Issues s t b j th) ∧ (Alone b 0) ∧
      (Bundle.op b 0 = 0x40) ∧ (fld b.ctl 14 18 = 0) ∧ (dstCheck (atIssue s t b j th) false (ctlD b.ctl) = .ok ()) ∧ (nextItem (atIssue s t b j th) =
      (i, e)) ∧ (writeS (itemGiven e j th i) (ctlD b.ctl) (match i with | some n => BitVec.ofNat 64 n | none => BitVec.allOnes 64) = .ok e')) ∧
    (∃ (s : State) (t : Tid) (b : Bundle) (j : Job) (th : Thread), (Issues s t b j th) ∧ (Alone b 0) ∧ (Bundle.op b 0 = 0x41) ∧
      (fld b.ctl 8 24 = 0)) ∧
    (∃ (s : State) (t : Tid) (b : Bundle) (j : Job) (th : Thread), (Issues s t b j th) ∧ (Alone b 0) ∧ (Bundle.op b 0 = 0x42) ∧ (fld b.ctl 8 8 = 0)) ∧
    (∃ (s : State) (t : Tid) (b : Bundle) (j : Job) (th : Thread) (v : Nat) (e' : Ev), (Issues s t b j th) ∧ (Alone b 0) ∧ (Bundle.op b 0 = 0x43) ∧
      (fld b.ctl 14 6 = 0) ∧ (dstCheck (atIssue s t b j th) false (ctlD b.ctl) = .ok ()) ∧
      (statValue j th (fld b.ctl 20 12) = some v) ∧ (writeS (atIssue s t b j th) (ctlD b.ctl) (BitVec.ofNat 64 v) = .ok e')) ∧
    (∃ (s : State) (t : Tid) (b : Bundle) (j : Job) (th : Thread), (Issues s t b j th) ∧ (Alone b 0) ∧ (Bundle.op b 0 = 0x43) ∧ (fld b.ctl 14 6 = 0) ∧
      (statValue j th (fld b.ctl 20 12) = none)) ∧
    (∃ (s : State) (t : Tid) (b : Bundle) (j : Job) (th : Thread) (e : Ev), (Issues s t b j th) ∧ (noRow b = true) ∧ (Bundle.reserved b = 0) ∧
      (runSlots (atIssue s t b j th) b [0, 1, 2, 3] = .ok e)) ∧
    (∃ (s : State) (t : Tid) (b : Bundle) (j : Job) (th : Thread), (Issues s t b j th) ∧ (b.header.toNat % 16 = 0) ∧ (Bundle.reserved b = 0)) ∧
    (∃ (s : State) (t : Tid) (b : Bundle) (j : Job) (th : Thread), (issuer s t = some (j, th)) ∧ (Bundle.reserved b ≠ 0) ∧
      (th.pc.toNat + Bundle.len b ≤ j.codeBytes) ∧ (j.codeBytes < 2 ^ 32) ∧ (∀ r ∈ th.rpt, r.bodyStart < 2 ^ 32)) ∧
    (∃ (s : State) (t : Tid) (b : Bundle) (j : Job) (th : Thread), (issuer s t = some (j, th)) ∧ (j.codeBytes < th.pc.toNat + Bundle.len b)) ∧
    (∃ (s : State) (v : Nat) (j : Job) (k : Nat) (w : QWait), (jobAt s v = some j) ∧ ((List.range j.threads).find?
      (fun k => (deadWait s j { vcore := v, thread := k }).isSome) = some k) ∧ (deadWait s j { vcore := v, thread := k } = some w)) ∧
    (∃ (s : State) (v : Nat) (j : Job), (jobAt s v = some j) ∧ ((List.range j.threads).find?
      (fun k => (deadWait s j { vcore := v, thread := k }).isSome) = none)) :=
  ⟨⟨evJ job1 { th1 with replay := some 3 }, 3, by decide +kernel⟩,
   ⟨evJ { job1 with replay := [2] } th1, { job1 with replay := [2] }, 2, [], by decide +kernel⟩,
   ⟨evJ { job1 with dynamic := true } th1, { job1 with dynamic := true }, by decide +kernel⟩,
   ⟨evJ { job1 with dynamic := true, nextItem := 1 } th1, { job1 with dynamic := true, nextItem := 1 }, by decide +kernel⟩,
   ⟨evJ job1 th2, job1, 2, by decide +kernel⟩,
   ⟨core th2, tid, bCtl 0x440, job1, th2, evW, okE (writeS (itemGiven evW job1 th2 none) 4 0xFFFFFFFFFFFFFFFF) evW, none, by simp only [Alone, Issues]; and_intros <;> first | trivial⟩,
   ⟨core th1, tid, bCtl 0x41, job1, th1, by simp only [Alone, Issues]; and_intros <;> first | trivial⟩,
   ⟨core th1, tid, bCtl 0x12340042, job1, th1, by simp only [Alone, Issues]; and_intros <;> first | trivial⟩,
   ⟨core th1, tid, bCtl 0x00400443, job1, th1, 9, okE (writeS (ev (bCtl 0x00400443)) 4 9) (ev (bCtl 0)), by simp only [Alone, Issues]; and_intros <;> first | trivial⟩,
   ⟨core th1, tid, bCtl 0x00500443, job1, th1, by simp only [Alone, Issues]; and_intros <;> first | trivial | decide +kernel⟩,
   ⟨core th1, tid, { bCtl 0 with header := 0 }, job1, th1, atIssue (core th1) tid { bCtl 0 with header := 0 } job1 th1, by simp only [Issues]; and_intros <;> first | trivial | decide +kernel⟩,
   ⟨core th1, tid, { bCtl 0 with header := 0 }, job1, th1, by simp only [Issues]; and_intros <;> first | trivial⟩,
   ⟨core th1, tid, { bCtl 0 with header := 0x21 }, job1, th1, by decide +kernel⟩,
   ⟨core { th1 with pc := 55 }, tid, bCtl 0, job1, { th1 with pc := 55 }, by decide +kernel⟩,
   ⟨queued1 [⟨0, 1, false, 0⟩], 3, { job1 with threads := 1 }, 0, ⟨0, 1, false, 0⟩, by decide +kernel⟩,
   ⟨queued1 [], 3, { job1 with threads := 1 }, by decide +kernel⟩⟩

theorem witness_AddressesAndLoops :
    (∃ (e : Ev) (w : W64), (adrLoop w = false) ∧ (fld w 21 6 < 32) ∧ (pendingDest e (.sreg (fld w 21 6)) = false)) ∧
    (∃ (e : Ev) (w : W64), (adrLoop w = false) ∧ (fld w 21 6 < 32) ∧ (pendingDest e (.sreg (fld w 21 6)) = false)) ∧
    (∃ (e : Ev) (w : W64) (l : LoopUnit), (adrLoop w = true) ∧ (bit w 23 = false) ∧ (tfind e.th0.loops (fld w 21 2) = some l) ∧
      (l.configured = true)) ∧
    (∃ (e : Ev) (w : W64) (l : LoopUnit), (adrLoop w = true) ∧ (bit w 23 = true) ∧ (tfind e.th0.loops (fld w 21 2) = some l) ∧ (l.configured = true)) ∧
    (∃ (e : Ev) (w : W64), (adrLoop w = true) ∧ (tfind e.th0.loops (fld w 21 2) = none)) ∧
    (∃ (e : Ev) (w : W64) (use : Use) (a : W64) (n : Nat) (align : Nat), (a.toNat % align ≠ 0)) ∧
    (∃ (e : Ev) (w : W64) (a : W64) (n : Nat) (align : Nat), (a.toNat % align = 0) ∧ (adrScratch w = true) ∧ (e.job.scratch < a.toNat + n)) ∧
    (∃ (l : LoopUnit), (0 < l.levels) ∧ (tget l.idx 0 0 + 1 ≠ tget l.counts 0 0)) ∧
    (∃ (l : LoopUnit), (0 < l.levels) ∧ ((∀ k, k < l.levels → tget l.idx k 0 + 1 = tget l.counts k 0))) ∧
    (∃ (l : LoopUnit) (m : Nat), (0 < m) ∧ (m < l.levels) ∧ ((∀ k, k < m → tget l.idx k 0 + 1 = tget l.counts k 0)) ∧
      (tget l.idx m 0 + 1 ≠ tget l.counts m 0)) :=
  ⟨⟨evA 0, 0xFFFFFF0000400401, by decide +kernel⟩,
   ⟨evA 0, 0x0000010000000401, by decide +kernel⟩,
   ⟨evL 0, 0x0000080000100401, lu, by decide +kernel⟩,
   ⟨evL 0, 0x0000080000900401, lu, by decide +kernel⟩,
   ⟨evL 0, 0x0000080000700401, by decide +kernel⟩,
   ⟨evA 0, 0, .loadStore, 9, 8, 8, by decide +kernel⟩,
   ⟨evA 0, 0x08000000, 65529, 8, 1, by decide +kernel⟩,
   ⟨{ lu with idx := [] }, by decide +kernel⟩,
   ⟨{ lu with idx := [(0, 1), (1, 2)] }, by decide +kernel⟩,
   ⟨lu, 1, by decide +kernel⟩⟩

/-- Virtual core 3's L1 holds line 0; a thread whose S2 lies in the host window; the issue of an address slot. -/
def copied : State := setL1 (core th1) 3 0 { data := 0, valid := 3 }
def thHost : Thread := { th1 with s := [(2, 0x80000000005)] }
def evS (s : State) (th : Thread) (w : W64) : Ev := atIssue s tid (bAdr w) job1 th

theorem witness_LoadsIssue :
    (∃ (r : Nat × Bool × (W64 → Nat) × (Tid → Bundle → Instr)) (s : State) (t : Tid) (b : Bundle) (j : Job) (th : Thread) (a : W64) (e1 : Ev)
      (e2 : Ev) (d : Dest), (r ∈ loadRows) ∧ (AdrIssues s t b j th r.1) ∧ (dstCheck (atIssue s t b j th) r.2.1 (adrData b.adr) = .ok ()) ∧ (Forms
      (atIssue s t b j th) b.adr a e1) ∧ (adrCheck e1 b.adr .loadStore a (r.2.2.1 b.adr) (loadAlign (r.2.2.1 b.adr)) = .ok ()) ∧
      (reserveDest e1 r.2.1 (adrData b.adr) = .ok (e2, d)) ∧ (adrScratch b.adr = true)) ∧
    (∃ (r : Nat × Bool × (W64 → Nat) × (Tid → Bundle → Instr)) (s : State) (t : Tid) (b : Bundle) (j : Job) (th : Thread) (a : W64) (e1 : Ev)
      (e2 : Ev) (d : Dest), (r ∈ loadRows) ∧ (AdrIssues s t b j th r.1) ∧ (dstCheck (atIssue s t b j th) r.2.1 (adrData b.adr) = .ok ()) ∧ (Forms
      (atIssue s t b j th) b.adr a e1) ∧ (adrCheck e1 b.adr .loadStore a (r.2.2.1 b.adr) (loadAlign (r.2.2.1 b.adr)) = .ok ()) ∧
      (reserveDest e1 r.2.1 (adrData b.adr) = .ok (e2, d)) ∧ (Local e2 b.adr a) ∧
      (lacks e2.s t.vcore (offOf a) (r.2.2.1 b.adr) (nbit (adrA b.adr) 3) = [])) ∧
    (∃ (r : Nat × Bool × (W64 → Nat) × (Tid → Bundle → Instr)) (s : State) (t : Tid) (b : Bundle) (j : Job) (th : Thread) (a : W64) (e1 : Ev)
      (e2 : Ev) (d : Dest), (r ∈ loadRows) ∧ (AdrIssues s t b j th r.1) ∧ (dstCheck (atIssue s t b j th) r.2.1 (adrData b.adr) = .ok ()) ∧ (Forms
      (atIssue s t b j th) b.adr a e1) ∧ (adrCheck e1 b.adr .loadStore a (r.2.2.1 b.adr) (loadAlign (r.2.2.1 b.adr)) = .ok ()) ∧
      (reserveDest e1 r.2.1 (adrData b.adr) = .ok (e2, d)) ∧ (Local e2 b.adr a) ∧
      (localRange e2.s (offOf a) (r.2.2.1 b.adr) = .device) ∧ (lacks e2.s t.vcore (offOf a) (r.2.2.1 b.adr) (nbit (adrA b.adr) 3) ≠ [])) ∧
    (∃ (r : Nat × Bool × (W64 → Nat) × (Tid → Bundle → Instr)) (s : State) (t : Tid) (b : Bundle) (j : Job) (th : Thread) (a : W64) (e1 : Ev)
      (e2 : Ev) (d : Dest), (r ∈ loadRows) ∧ (AdrIssues s t b j th r.1) ∧ (dstCheck (atIssue s t b j th) r.2.1 (adrData b.adr) = .ok ()) ∧ (Forms
      (atIssue s t b j th) b.adr a e1) ∧ (adrCheck e1 b.adr .loadStore a (r.2.2.1 b.adr) (loadAlign (r.2.2.1 b.adr)) = .ok ()) ∧
      (reserveDest e1 r.2.1 (adrData b.adr) = .ok (e2, d)) ∧ (Local e2 b.adr a) ∧
      (localRange e2.s (offOf a) (r.2.2.1 b.adr) = .window)) ∧
    (∃ (r : Nat × Bool × (W64 → Nat) × (Tid → Bundle → Instr)) (s : State) (t : Tid) (b : Bundle) (j : Job) (th : Thread) (a : W64) (e1 : Ev)
      (e2 : Ev) (d : Dest), (r ∈ loadRows) ∧ (AdrIssues s t b j th r.1) ∧ (dstCheck (atIssue s t b j th) r.2.1 (adrData b.adr) = .ok ()) ∧ (Forms
      (atIssue s t b j th) b.adr a e1) ∧ (adrCheck e1 b.adr .loadStore a (r.2.2.1 b.adr) (loadAlign (r.2.2.1 b.adr)) = .ok ()) ∧
      (reserveDest e1 r.2.1 (adrData b.adr) = .ok (e2, d)) ∧ (adrScratch b.adr = false) ∧
      (isLocalNode e2.s (nodeOf a) = false)) ∧
    (∃ (e : Ev) (n : Nat), (0 < n) ∧ (n < 32) ∧ (pendingDest e (.sreg n) = false)) ∧
    (∃ (e : Ev) (n : Nat), (n < 32) ∧ (pendingDest e (.vreg n) = false)) ∧
    (∃ (e : Ev) (wide : Bool) (code : Nat), (32 ≤ code) ∧ (code < 48) ∧ ((getQ e.s e.job e.t (code % 16)).length < qDepth e.job (code % 16))) ∧
    (∃ (s : State) (j : Job) (t : Tid) (id : Nat) (n : Nat) (v : VReg), (0 < n)) :=
  ⟨⟨(0x01, false, (fun w => 2 ^ (adrA w % 4)), Instr.lds), core th1, tid, bAdr 0x08400401, job1, th1, 5, evA 0x08400401, { evA 0x08400401 with wrote := [4] }, .sreg 4, by
     simp only [AdrIssues, Alone, Forms, Issues, Local]; and_intros <;> first | trivial | simp [loadRows] | decide +kernel⟩,
   ⟨(0x01, false, (fun w => 2 ^ (adrA w % 4)), Instr.lds), copied, tid, bAdr 0x00400401, job1, th1, 5, evS copied th1 0x00400401, { evS copied th1 0x00400401 with wrote := [4] }, .sreg 4, by
     simp only [AdrIssues, Alone, Forms, Issues, Local]; and_intros <;> first | trivial | simp [loadRows] | decide +kernel⟩,
   ⟨(0x01, false, (fun w => 2 ^ (adrA w % 4)), Instr.lds), core th1, tid, bAdr 0x800400401, job1, th1, 5, evA 0x800400401, { evA 0x800400401 with wrote := [4] }, .sreg 4, by
     simp only [AdrIssues, Alone, Forms, Issues, Local]; and_intros <;> first | trivial | simp [loadRows] | decide +kernel⟩,
   ⟨(0x01, false, (fun w => 2 ^ (adrA w % 4)), Instr.lds), core thHost, tid, bAdr 0x00400401, job1, thHost, 0x80000000005, evS (core thHost) thHost 0x00400401, { evS (core thHost) thHost 0x00400401 with wrote := [4] }, .sreg 4, by
     simp only [AdrIssues, Alone, Forms, Issues, Local]; and_intros <;> first | trivial | simp [loadRows] | decide +kernel⟩,
   ⟨(0x01, false, (fun w => 2 ^ (adrA w % 4)), Instr.lds), core th1, tid, bAdr 0x00C00401, job1, th1, 0x0009000000000000, evA 0x00C00401, { evA 0x00C00401 with wrote := [4] }, .sreg 4, by
     simp only [AdrIssues, Alone, Forms, Issues, Local]; and_intros <;> first | trivial | simp [loadRows] | decide +kernel⟩,
   ⟨evA 0, 31, by decide +kernel⟩,
   ⟨evA 0, 0, by decide +kernel⟩,
   ⟨evQ [q1], false, 33, by decide +kernel⟩,
   ⟨core th1, job1, tid, 0, 31, 7, by decide +kernel⟩⟩

theorem witness_StoresIssue :
    (∃ (s : State) (t : Tid) (b : Bundle) (j : Job) (th : Thread) (x : W64) (a : W64) (e0 : Ev) (e1 : Ev), (AdrIssues s t b j th 0x02) ∧ (srcCheck
      (atIssue s t b j th) false (adrData b.adr) = .ok ()) ∧ (adrBaseCheck (atIssue s t b j th) b.adr = .ok ()) ∧ (readS (atIssue s t b j th)
      (adrData b.adr) = .ok (x, e0)) ∧ (adrAddress e0 b.adr = .ok (a, e1)) ∧ (adrCheck e1 b.adr .loadStore a (2 ^ (adrA b.adr % 4)) (2 ^
      (adrA b.adr % 4)) = .ok ()) ∧ (adrScratch b.adr = true)) ∧
    (∃ (s : State) (t : Tid) (b : Bundle) (j : Job) (th : Thread) (x : W64) (a : W64) (e0 : Ev) (e1 : Ev), (AdrIssues s t b j th 0x02) ∧ (srcCheck
      (atIssue s t b j th) false (adrData b.adr) = .ok ()) ∧ (adrBaseCheck (atIssue s t b j th) b.adr = .ok ()) ∧ (readS (atIssue s t b j th)
      (adrData b.adr) = .ok (x, e0)) ∧ (adrAddress e0 b.adr = .ok (a, e1)) ∧ (adrCheck e1 b.adr .loadStore a (2 ^ (adrA b.adr % 4)) (2 ^
      (adrA b.adr % 4)) = .ok ()) ∧ (Local e1 b.adr a) ∧
      (localRange (l1Store e1.s t.vcore (offOf a) (leBytes (2 ^ (adrA b.adr % 4)) x.toNat) (BitVec.allOnes 256)) (offOf a)
        (2 ^ (adrA b.adr % 4)) = .device)) ∧
    (∃ (s : State) (t : Tid) (b : Bundle) (j : Job) (th : Thread) (x : W64) (a : W64) (e0 : Ev) (e1 : Ev), (AdrIssues s t b j th 0x02) ∧ (srcCheck
      (atIssue s t b j th) false (adrData b.adr) = .ok ()) ∧ (adrBaseCheck (atIssue s t b j th) b.adr = .ok ()) ∧ (readS (atIssue s t b j th)
      (adrData b.adr) = .ok (x, e0)) ∧ (adrAddress e0 b.adr = .ok (a, e1)) ∧ (adrCheck e1 b.adr .loadStore a (2 ^ (adrA b.adr % 4)) (2 ^
      (adrA b.adr % 4)) = .ok ()) ∧ (adrScratch b.adr = false) ∧ (isLocalNode e1.s (nodeOf a) = false)) ∧
    (∃ (s : State) (t : Tid) (b : Bundle) (j : Job) (th : Thread) (x : VReg) (a : W64) (e0 : Ev) (e1 : Ev), (AdrIssues s t b j th 0x04) ∧ (srcCheck
      (atIssue s t b j th) true (adrData b.adr) = .ok ()) ∧ (adrBaseCheck (atIssue s t b j th) b.adr = .ok ()) ∧ (readV (atIssue s t b j th)
      (adrData b.adr) = .ok (x, e0)) ∧ (adrAddress e0 b.adr = .ok (a, e1)) ∧ (e1.th0 = th) ∧ (adrCheck e1 b.adr .loadStore a 256 32 = .ok ()) ∧
      (adrScratch b.adr = true)) ∧
    (∃ (s : State) (t : Tid) (b : Bundle) (j : Job) (th : Thread) (x : VReg) (a : W64) (e0 : Ev) (e1 : Ev) (mask : BitVec 256), (AdrIssues s t b j th 0x04) ∧ (srcCheck
      (atIssue s t b j th) true (adrData b.adr) = .ok ()) ∧ (adrBaseCheck (atIssue s t b j th) b.adr = .ok ()) ∧ (readV (atIssue s t b j th)
      (adrData b.adr) = .ok (x, e0)) ∧ (adrAddress e0 b.adr = .ok (a, e1)) ∧ (e1.th0 = th) ∧ (adrCheck e1 b.adr .loadStore a 256 32 = .ok ()) ∧
      (mask = (if nbit (adrA b.adr) 4 then (tget th.m (adrA b.adr % 8) 0).setWidth 256 else BitVec.allOnes 256)) ∧ (Local e1 b.adr a) ∧
      (localRange (l1Store e1.s t.vcore (offOf a) (leBytes 256 x.toNat) mask) (offOf a) 256 = .device) ∧ (mask ≠ 0)) ∧
    (∃ (s : State) (t : Tid) (b : Bundle) (j : Job) (th : Thread) (x : VReg) (a : W64) (e0 : Ev) (e1 : Ev) (mask : BitVec 256), (AdrIssues s t b j th 0x04) ∧ (srcCheck
      (atIssue s t b j th) true (adrData b.adr) = .ok ()) ∧ (adrBaseCheck (atIssue s t b j th) b.adr = .ok ()) ∧ (readV (atIssue s t b j th)
      (adrData b.adr) = .ok (x, e0)) ∧ (adrAddress e0 b.adr = .ok (a, e1)) ∧ (e1.th0 = th) ∧ (adrCheck e1 b.adr .loadStore a 256 32 = .ok ()) ∧
      (mask = (if nbit (adrA b.adr) 4 then (tget th.m (adrA b.adr % 8) 0).setWidth 256 else BitVec.allOnes 256)) ∧ (Local e1 b.adr a) ∧
      (localRange (l1Store e1.s t.vcore (offOf a) (leBytes 256 x.toNat) mask) (offOf a) 256 = .device) ∧ (mask = 0)) ∧
    (∃ (s : State) (t : Tid) (b : Bundle) (j : Job) (th : Thread) (x : VReg) (a : W64) (e0 : Ev) (e1 : Ev) (mask : BitVec 256), (AdrIssues s t b j th 0x04) ∧ (srcCheck
      (atIssue s t b j th) true (adrData b.adr) = .ok ()) ∧ (adrBaseCheck (atIssue s t b j th) b.adr = .ok ()) ∧ (readV (atIssue s t b j th)
      (adrData b.adr) = .ok (x, e0)) ∧ (adrAddress e0 b.adr = .ok (a, e1)) ∧ (e1.th0 = th) ∧ (adrCheck e1 b.adr .loadStore a 256 32 = .ok ()) ∧
      (mask = (if nbit (adrA b.adr) 4 then (tget th.m (adrA b.adr % 8) 0).setWidth 256 else BitVec.allOnes 256)) ∧ (adrScratch b.adr = false) ∧
      (isLocalNode e1.s (nodeOf a) = false)) :=
  ⟨⟨core th1, tid, bAdr 0x08400302, job1, th1, 0xFFFFFFFFFFFFFFFF, 5, evA 0x08400302, evA 0x08400302, by
     simp only [AdrIssues, Alone, Issues, Local]; and_intros <;> first | trivial | decide +kernel⟩,
   ⟨core th1, tid, bAdr 0x00400302, job1, th1, 0xFFFFFFFFFFFFFFFF, 5, evA 0x00400302, evA 0x00400302, by
     simp only [AdrIssues, Alone, Issues, Local]; and_intros <;> first | trivial | decide +kernel⟩,
   ⟨core th1, tid, bAdr 0x00C00302, job1, th1, 0xFFFFFFFFFFFFFFFF, 0x0009000000000000, evA 0x00C00302, evA 0x00C00302, by
     simp only [AdrIssues, Alone, Issues, Local]; and_intros <;> first | trivial | decide +kernel⟩,
   ⟨core th1, tid, bAdr 0x08000104, job1, th1, 7, 0, evA 0x08000104, evA 0x08000104, by
     simp only [AdrIssues, Alone, Issues, Local]; and_intros <;> first | trivial | decide +kernel⟩,
   ⟨core th1, tid, bAdr 0x00000104, job1, th1, 7, 0, evA 0x00000104, evA 0x00000104, BitVec.allOnes 256, by
     simp only [AdrIssues, Alone, Issues, Local]; and_intros <;> first | trivial | decide +kernel⟩,
   ⟨core th1, tid, bAdr 0x1000000104, job1, th1, 7, 0, evA 0x1000000104, evA 0x1000000104, 0, by
     simp only [AdrIssues, Alone, Issues, Local]; and_intros <;> first | trivial | decide +kernel⟩,
   ⟨core th1, tid, bAdr 0x00C00104, job1, th1, 7, 0x0009000000000000, evA 0x00C00104, evA 0x00C00104, BitVec.allOnes 256, by
     simp only [AdrIssues, Alone, Issues, Local]; and_intros <;> first | trivial | decide +kernel⟩⟩

theorem witness_AtomicAndSemaphoreIssue :
    (∃ (s : State) (t : Tid) (b : Bundle) (j : Job) (th : Thread) (kind : Nat) (type : Nat) (n : Nat) (x : W64) (c : W64) (a : W64) (e0 : Ev)
      (e1 : Ev) (e2 : Ev) (e3 : Ev) (d : Dest), (AdrIssues s t b j th 0x08) ∧ (kind = adrA b.adr % 16) ∧ (type = adrA b.adr / 16) ∧
      ((type ≤ 1 ∧ kind ≤ 7 ∨ type ≤ 4 ∧ kind = 0)) ∧ (n = (if type = 1 then 8 else if type = 0 ∨ type = 2 then 4 else 2)) ∧
      ((kind = 2 → adrAux b.adr < 32)) ∧ (srcCheck (atIssue s t b j th) false (adrData b.adr) = .ok ()) ∧ (dstCheck (atIssue s t b j th) false
      (adrAux b.adr) = .ok ()) ∧ (adrBaseCheck (atIssue s t b j th) b.adr = .ok ()) ∧ (readS (atIssue s t b j th) (adrData b.adr) = .ok (x, e0)) ∧
      ((if kind = 2 then readS e0 (adrAux b.adr) = .ok (c, e1) else c = 0 ∧ e1 = e0)) ∧ (adrAddress e1 b.adr = .ok (a, e2)) ∧
      (adrCheck e2 b.adr .amo a n n = .ok ()) ∧ (reserveDest e2 false (adrAux b.adr) = .ok (e3, d)) ∧ (isLocalNode e3.s (nodeOf a) = true) ∧
      (isLocalNode (l1Drop e3.s e3.t.vcore (offOf a)) (nodeOf a) = true)) ∧
    (∃ (s : State) (t : Tid) (b : Bundle) (j : Job) (th : Thread) (x : W64) (a : W64) (e0 : Ev) (e1 : Ev), (srcCheck (atIssue s t b j th) false
      (adrData b.adr) = .ok ()) ∧ (adrBaseCheck (atIssue s t b j th) b.adr = .ok ()) ∧ (readS (atIssue s t b j th) (adrData b.adr) = .ok (x, e0)) ∧
      (adrAddress e0 b.adr = .ok (a, e1)) ∧ (isLocalNode e1.s (nodeOf a) = true)) ∧
    (∃ (s : State) (t : Tid) (b : Bundle) (j : Job) (th : Thread) (x : W64) (a : W64) (e0 : Ev) (e1 : Ev), (srcCheck (atIssue s t b j th) false
      (adrData b.adr) = .ok ()) ∧ (adrBaseCheck (atIssue s t b j th) b.adr = .ok ()) ∧ (readS (atIssue s t b j th) (adrData b.adr) = .ok (x, e0)) ∧
      (adrAddress e0 b.adr = .ok (a, e1)) ∧ (isLocalNode e1.s (nodeOf a) = true)) ∧
    (∃ (s : State) (t : Tid) (b : Bundle) (j : Job) (th : Thread) (x : W64) (a : W64) (e0 : Ev) (e1 : Ev), (srcCheck (atIssue s t b j th) false
      (adrData b.adr) = .ok ()) ∧ (adrBaseCheck (atIssue s t b j th) b.adr = .ok ()) ∧ (readS (atIssue s t b j th) (adrData b.adr) = .ok (x, e0)) ∧
      (adrAddress e0 b.adr = .ok (a, e1)) ∧ (isLocalNode e1.s (nodeOf a) = true)) :=
  ⟨⟨core th1, tid, bAdr 0x00010308, job1, th1, 0, 0, 4, 0xFFFFFFFFFFFFFFFF, 0, 0, evA 0x00010308, evA 0x00010308, evA 0x00010308, { evA 0x00010308 with wrote := [4] }, .sreg 4, by simp only [AdrIssues, Alone, Issues]; and_intros <;> first | trivial⟩,
   ⟨core th1, tid, bAdr 0xE00310, job1, th1, 0xFFFFFFFFFFFFFFFF, 0x30000000000, evA 0xE00310, evA 0xE00310, by and_intros <;> first | trivial⟩,
   ⟨core th1, tid, bAdr 0xE00311, job1, th1, 0xFFFFFFFFFFFFFFFF, 0x30000000000, evA 0xE00311, evA 0xE00311, by and_intros <;> first | trivial⟩,
   ⟨core th1, tid, bAdr 0xE10312, job1, th1, 0xFFFFFFFFFFFFFFFF, 0x30000000000, evA 0xE10312, evA 0xE10312, by and_intros <;> first | trivial⟩⟩

/-- A thread of a partition whose bucket is open, at its HOIST. -/
def coreF : State := fund (core th1) (homeSlice up 0 / 64)
def evF : Ev := atIssue coreF tid (bAdr 0x20) job1 th1

theorem witness_FencesLoopsHoists :
    (∃ (s : State) (t : Tid) (b : Bundle) (j : Job) (th : Thread), (AdrIssues s t b j th 0x18)) ∧
    (∃ (s : State) (t : Tid) (b : Bundle) (j : Job) (th : Thread), (AdrIssues s t b j th 0x18)) ∧
    (∃ (s : State) (t : Tid) (b : Bundle) (j : Job) (th : Thread), (AdrIssues s t b j th 0x18)) ∧
    (∃ (s : State) (t : Tid) (f : Fence), ((getThread s t).fence = some f) ∧ (fenceDone s t f = true)) ∧
    (∃ (s : State) (t : Tid) (f : Fence), ((getThread s t).fence = some f) ∧ (fenceDone s t f = false)) ∧
    (∃ (s : State) (t : Tid) (b : Bundle) (j : Job) (th : Thread) (x : W64) (a : W64) (e0 : Ev) (e1 : Ev), (AdrIssues s t b j th 0x19) ∧ (srcCheck
      (atIssue s t b j th) false (adrData b.adr) = .ok ()) ∧ (adrBaseCheck (atIssue s t b j th) b.adr = .ok ()) ∧ (readS (atIssue s t b j th)
      (adrData b.adr) = .ok (x, e0)) ∧ (adrAddress e0 b.adr = .ok (a, e1)) ∧ (adrCheck e1 b.adr .inval a 1 1 = .ok ())) ∧
    (∃ (s : State) (t : Tid) (b : Bundle) (j : Job) (th : Thread) (a : W64) (e1 : Ev) (e2 : Ev) (d : Line), (AdrIssues s t b j th 0x20) ∧ (Forms
      (atIssue s t b j th) b.adr a e1) ∧ (adrCheck e1 b.adr .desc a 64 64 = .ok ()) ∧ (descWaits e1 b.adr a = false) ∧ (readDesc e1 b.adr a 1 = (stOk, d, e2)) ∧
      ((e1.s.hoists.queue.filter (fun m => m.hoist / 4 == clusterHoist e1.s t.vcore (adrA b.adr % 4) / 4 && decide (clusterHoist e1.s t.vcore
      (adrA b.adr % 4) < 256))).length < 64)) ∧
    (∃ (s : State) (t : Tid) (b : Bundle) (j : Job) (th : Thread) (a : W64) (e1 : Ev) (e2 : Ev) (d : Line), (AdrIssues s t b j th 0x28) ∧ (Forms
      (atIssue s t b j th) b.adr a e1) ∧ (adrCheck e1 b.adr .desc a 64 64 = .ok ()) ∧ ((adrScratch b.adr = true ∨ viewOf e1.s (offOf a) = none ∧
      storePending e1.s t.vcore (sectorsOf (offOf a) 64) = false)) ∧ (descWaits e1 b.adr a = false) ∧ (readDesc e1 b.adr a 0 = (stOk, d, e2)) ∧ (fld d 67 61 = 0) ∧
      (1 ≤ fld d 64 3) ∧ (fld d 64 3 ≤ 6) ∧ ((∀ k, k < fld d 64 3 → fld d (128 + 64 * k) 32 ≠ 0))) ∧
    (∃ (s : State) (t : Tid) (b : Bundle) (j : Job) (th : Thread) (l : LoopUnit) (e' : Ev), (AdrIssues s t b j th 0x29) ∧ (dstCheck
      (atIssue s t b j th) false (adrData b.adr) = .ok ()) ∧ (tfind th.loops (adrA b.adr % 4) = some l) ∧ (l.configured = true) ∧ (writeS (if nbit
      (adrA b.adr) 2 then setLoop (atIssue s t b j th) (adrA b.adr % 4) l.advance else atIssue s t b j th) (adrData b.adr) l.addr = .ok e')) :=
  ⟨⟨core th1, tid, bAdr 0x18, job1, th1, by simp only [AdrIssues, Alone, Issues]; and_intros <;> first | trivial⟩,
   ⟨core th1, tid, bAdr 0x100000018, job1, th1, by simp only [AdrIssues, Alone, Issues]; and_intros <;> first | trivial⟩,
   ⟨core th1, tid, bAdr 0x200000018, job1, th1, by simp only [AdrIssues, Alone, Issues]; and_intros <;> first | trivial⟩,
   ⟨core { th1 with fence := some .h }, tid, .h, by decide +kernel⟩,
   ⟨{ core { th1 with fence := some .d } with cores := { (core { th1 with fence := some .d }).cores with ops := [{ opOf .none with kind := .store 8 }] } }, tid, .d, by decide +kernel⟩,
   ⟨core th1, tid, bAdr 0x0319, job1, th1, 0xFFFFFFFFFFFFFFFF, 0, evA 0x0319, evA 0x0319, by simp only [AdrIssues, Alone, Issues]; and_intros <;> first | trivial⟩,
   ⟨coreF, tid, bAdr 0x20, job1, th1, 0, evF, (readDesc evF 0x20 0 1).2.2, 0, by simp only [AdrIssues, Alone, Forms, Issues]; and_intros <;> first | trivial | decide +kernel⟩,
   ⟨coreD, tid, bAdr 0x08000028, job1, th1, 0, evD, evD, (readDesc evD 0x08000028 0 0).2.1, by
     simp only [AdrIssues, Alone, Forms, Issues]; and_intros <;> first | trivial | exact Or.inl (by decide +kernel)⟩,
   ⟨core thL, tid, bAdr 0x0429, job1, thL, lu, okE (writeS (evL 0x0429) 4 72) (evL 0), by simp only [AdrIssues, Alone, Issues]; and_intros <;> first | trivial⟩⟩

theorem witness_NumbersAndElements :
    (∃ (f : _) (c : Nat), (f ≤ 7) ∧ (c < 2 ^ fmtBits f)) ∧
    (∃ (f : _) (c : Nat), (f ≤ 7) ∧ (c < 2 ^ fmtBits f)) ∧
    (∃ (f : Nat) (i : Int), (f = 8 ∨ f = 9 ∨ f = 10)) ∧
    (∃ (f : Nat), (f ∈ [0, 1, 2, 3, 4, 7, 8, 9, 10])) :=
  ⟨⟨7, 15, by decide +kernel⟩,
   ⟨3, 255, by decide +kernel⟩,
   ⟨8, -129, by decide +kernel⟩,
   ⟨10, by (decide +kernel)⟩⟩

theorem witness_MatrixRows :
    (∃ (s : State) (t : Tid) (b : Bundle) (j : Job) (th : Thread) (k : Nat) (isInt : Bool) (x : VReg) (y : VReg) (z : VReg) (e1 : Ev) (e2 : Ev)
      (e3 : Ev), (fld b.mtx 38 10 = 0) ∧ (mtxFmtA b.mtx < 0xB) ∧ (mtxFmtB b.mtx < 0xB) ∧ (pairKind (mtxFmtA b.mtx) (mtxFmtB b.mtx) = some
      (k, isInt)) ∧ (srcCheck (atIssue s t b j th) true (mtxA b.mtx) = .ok ()) ∧ (srcCheck (atIssue s t b j th) true (mtxB b.mtx) = .ok ()) ∧ (readV
      (atIssue s t b j th) (mtxA b.mtx) = .ok (x, e1)) ∧ (readV e1 (mtxB b.mtx) = .ok (y, e2)) ∧
      ((mtxSA b.mtx = true → 3 ≤ mtxFmtA b.mtx ∧ mtxFmtA b.mtx ≤ 7)) ∧ ((mtxSB b.mtx = true → 3 ≤ mtxFmtB b.mtx ∧ mtxFmtB b.mtx ≤ 7)) ∧
      ((if mtxSA b.mtx || mtxSB b.mtx then srcCheck (atIssue s t b j th) true (mtxScale b.mtx) = .ok () ∧ readV e2 (mtxScale b.mtx) = .ok
      (z, e3) else fld b.mtx 32 6 = 0 ∧ z = 0 ∧ e3 = e2))) ∧
    (∃ (s : State) (t : Tid) (b : Bundle) (j : Job) (th : Thread) (k : Nat) (isInt : Bool) (x : VReg) (y : VReg) (z : VReg) (e1 : Ev) (e2 : Ev)
      (e3 : Ev), (fld b.mtx 38 10 = 0) ∧ (mtxFmtA b.mtx < 0xB) ∧ (mtxFmtB b.mtx < 0xB) ∧ (pairKind (mtxFmtA b.mtx) (mtxFmtB b.mtx) = some
      (k, isInt)) ∧ (srcCheck (atIssue s t b j th) true (mtxA b.mtx) = .ok ()) ∧ (srcCheck (atIssue s t b j th) true (mtxB b.mtx) = .ok ()) ∧ (readV
      (atIssue s t b j th) (mtxA b.mtx) = .ok (x, e1)) ∧ (readV e1 (mtxB b.mtx) = .ok (y, e2)) ∧
      ((mtxSA b.mtx = true → 3 ≤ mtxFmtA b.mtx ∧ mtxFmtA b.mtx ≤ 7)) ∧ ((mtxSB b.mtx = true → 3 ≤ mtxFmtB b.mtx ∧ mtxFmtB b.mtx ≤ 7)) ∧
      ((if mtxSA b.mtx || mtxSB b.mtx then srcCheck (atIssue s t b j th) true (mtxScale b.mtx) = .ok () ∧ readV e2 (mtxScale b.mtx) = .ok
      (z, e3) else fld b.mtx 32 6 = 0 ∧ z = 0 ∧ e3 = e2))) ∧
    (∃ (s : State) (t : Tid) (b : Bundle) (j : Job) (th : Thread), (MtxIssues s t b j th 0x03) ∧ (fld b.mtx 8 20 = 0) ∧ (fld b.mtx 30 14 = 0) ∧
      (mtxFmtC b.mtx = 0 ∨ mtxFmtC b.mtx = 10)) ∧
    (∃ (s : State) (t : Tid) (b : Bundle) (j : Job) (th : Thread) (q : Nat) (x : VReg) (e1 : Ev), (q < 4) ∧ (MtxIssues s t b j th (0x08 + q)) ∧
      (fld b.mtx 12 4 = 0) ∧ (fld b.mtx 22 6 = 0) ∧ (fld b.mtx 30 18 = 0) ∧ (mtxFmtA b.mtx = 0 ∨ mtxFmtA b.mtx = 10) ∧ (srcCheck
      (atIssue s t b j th) true (mtxA b.mtx) = .ok ()) ∧ (readV (atIssue s t b j th) (mtxA b.mtx) = .ok (x, e1))) ∧
    (∃ (s : State) (t : Tid) (b : Bundle) (j : Job) (th : Thread) (q : Nat) (tile : Tile) (fl : Flg) (rs : List (Nat × Flg)) (e' : Ev), (q < 4) ∧
      (fld b.mtx 8 20 = 0) ∧ (fld b.mtx 30 8 = 0) ∧ (dstCheck (atIssue s t b j th) true (mtxC b.mtx) = .ok ()) ∧ ((mtxFmtC b.mtx = 0 ∨ (tget th.acc
      (mtxAcc b.mtx) Tile.zero).isInt = true ∧ mtxFmtC b.mtx = 10 ∨ (tget th.acc (mtxAcc b.mtx) Tile.zero).isInt = false ∧
      (mtxFmtC b.mtx = 1 ∨ mtxFmtC b.mtx = 2))) ∧ (closeGroup (tget th.acc (mtxAcc b.mtx) Tile.zero) = (tile, fl)) ∧ (rs = (List.range 64).map
      (fun i => convert (mtxFmtC b.mtx) (if tile.isInt then .ofInt (tget tile.entries (64 * q + i) 0).toInt else decodeF 0 (tget tile.entries
      (64 * q + i) 0).toNat) false none))) ∧
    (∃ (tile : Tile) (x : VReg) (y : VReg) (i : Nat), (tile.isInt = true) ∧ (tile.gk = 0) ∧ (i < 256)) :=
  ⟨⟨core thV, tid, bMtx 0x10813301, job1, thV, 16, false, tget thV.v 1 0, tget thV.v 2 0, 0, evM 0x10813301, evM 0x10813301, evM 0x10813301, by and_intros <;> first | trivial⟩,
   ⟨core thV, tid, bMtx 0x10818802, job1, thV, 16, true, tget thV.v 1 0, tget thV.v 2 0, 0, evM 0x10818802, evM 0x10818802, evM 0x10818802, by and_intros <;> first | trivial⟩,
   ⟨core thV, tid, bMtx 0xa00010000003, job1, thV, by simp only [Alone, Issues, MtxIssues]; and_intros <;> first | trivial⟩,
   ⟨core thV, tid, bMtx 0x1001000b, job1, thV, 3, tget thV.v 1 0, evM 0x1001000b, by simp only [Alone, Issues, MtxIssues]; and_intros <;> first | trivial⟩,
   ⟨core thV, tid, bMtx 0x10010000010, job1, thV, 0, Tile.zero, 0, (List.range 64).map (fun i => convert 0 (decodeF 0 0) false none), okE (writeV (putTile (evM 0x10010000010) 1 Tile.zero 0) 4 0) (evM 0), by and_intros <;> first | trivial⟩,
   ⟨{ Tile.zero with isInt := true }, 0x0201, 0x0403, 0, by decide +kernel⟩⟩

theorem witness_ElementwiseRows :
    (∃ (r : Nat × VecSig × (Tid → Bundle → Instr) × (Nat → Nat → Nat → Nat → Nat × Flg)) (s : State) (t : Tid) (b : Bundle) (j : Job) (th : Thread)
      (x : VReg) (y : VReg) (z : VReg) (v : VReg) (e : Ev) (e' : Ev), (VecIssues s t b j th r.1 r.2.1 x y z e) ∧ (Elements e b.vec (fun i => (r.2.2.2
      (vecFmt b.vec) (vElem (vecFmt b.vec) x i) (vElem (vecFmt b.vec) y i) (vElem (vecFmt b.vec) z i)).1) v) ∧ (writeV (raise e (condsOf e b.vec
      (fun i => (r.2.2.2 (vecFmt b.vec) (vElem (vecFmt b.vec) x i) (vElem (vecFmt b.vec) y i) (vElem (vecFmt b.vec) z i)).2)))
      (vecD b.vec) v = .ok e')) ∧
    (∃ (r : Nat × VecSig × (Tid → Bundle → Instr) × (Nat → Nat → Nat → Nat → Nat × Flg)) (s : State) (t : Tid) (b : Bundle) (j : Job) (th : Thread)
      (x : VReg) (y : VReg) (z : VReg) (v : VReg) (e : Ev) (e' : Ev), (VecIssues s t b j th r.1 r.2.1 x y z e) ∧ (Elements e b.vec (fun i => (r.2.2.2
      (vecFmt b.vec) (vElem (vecFmt b.vec) x i) (vElem (vecFmt b.vec) y i) (vElem (vecFmt b.vec) z i)).1) v) ∧ (writeV (raise e (condsOf e b.vec
      (fun i => (r.2.2.2 (vecFmt b.vec) (vElem (vecFmt b.vec) x i) (vElem (vecFmt b.vec) y i) (vElem (vecFmt b.vec) z i)).2)))
      (vecD b.vec) v = .ok e')) ∧
    (∃ (r : Nat × VecSig × (Tid → Bundle → Instr) × (Nat → Nat → Nat → Bool)) (s : State) (t : Tid) (b : Bundle) (j : Job) (th : Thread) (x : VReg)
      (y : VReg) (z : VReg) (e : Ev) (m : Mask), (VecIssues s t b j th r.1 r.2.1 x y z e) ∧ ((∀ i, i < 512 → bit m i = (decide (i < fmtN
      (vecFmt b.vec)) && activeAt e b.vec i && r.2.2.2 (vecFmt b.vec) (vElem (vecFmt b.vec) x i) (vElem (vecFmt b.vec) y i))))) ∧
    (∃ (s : State) (t : Tid) (b : Bundle) (j : Job) (th : Thread) (x : VReg) (y : VReg) (z : VReg) (e : Ev) (m : Mask) (sg : VecSig) (op : Nat)
      (c : Instr), (sg = { d := 2, a := 2, b := if op = 0x3B then 0 else 2, c := false, usesMask := false, en := some false }) ∧
      ((op = 0x38 ∧ c = .mand t b ∧ m = (tget th.m (vecA b.vec) 0 &&& tget th.m (vecB b.vec) 0) ∨ op = 0x39 ∧ c = .mor t b ∧ m = (tget th.m
      (vecA b.vec) 0 ||| tget th.m (vecB b.vec) 0) ∨ op = 0x3A ∧ c = .mxor t b ∧ m = (tget th.m (vecA b.vec) 0 ^^^ tget th.m
      (vecB b.vec) 0) ∨ op = 0x3B ∧ c = .mnot t b ∧ m = ~~~ tget th.m (vecA b.vec) 0)) ∧ (VecIssues s t b j th op sg x y z e)) ∧
    (∃ (s : State) (t : Tid) (b : Bundle) (j : Job) (th : Thread) (x : VReg) (y : VReg) (z : VReg) (e : Ev) (m : Mask),
      (VecIssues s t b j th 0x3C { d := 2, a := 1, b := 0, c := false, usesMask := false, en := some false } x y z e) ∧
      ((∀ i, i < 512 → bit m i = decide (i < vElem (vecFmt b.vec) x 0)))) ∧
    (∃ (s : State) (t : Tid) (b : Bundle) (j : Job) (th : Thread) (x : VReg) (y : VReg) (z : VReg) (v : VReg) (e : Ev) (e' : Ev),
      (VecIssues s t b j th 0x3D { sig2 with usesMask := true, en := some true } x y z e) ∧ ((∀ i, i < fmtN (vecFmt b.vec) → vElem
      (vecFmt b.vec) v i = if bit (tget th.m (vecMask b.vec) 0) i then vElem (vecFmt b.vec) x i else vElem (vecFmt b.vec) y i)) ∧ (writeV (raise e 0)
      (vecD b.vec) v = .ok e')) :=
  ⟨⟨(0x01, sig2, Instr.fadd, fun f a b _ => rounded f ((decodeF f a).add (decodeF f b))), core thV, tid, bVec 0x20440001, job1, thV, tget thV.v 1 0, tget thV.v 2 0, 0, vOf (exec (Instr.fadd tid (bVec 0x20440001)) (core thV)) 4, evV 0x20440001, okE (writeV (raise (evV 0x20440001) 0) 4 (vOf (exec (Instr.fadd tid (bVec 0x20440001)) (core thV)) 4)) (evV 0), by simp only [Alone, Elements, Issues, VecIssues]; and_intros <;> first | trivial | exact ⟨(evV 0x20440001), (evV 0x20440001), by first | exact rfl | exact ⟨rfl, rfl⟩ | exact ⟨trivial, rfl⟩, by first | exact rfl | exact ⟨rfl, rfl⟩ | exact ⟨trivial, rfl⟩, by first | exact rfl | exact ⟨rfl, rfl⟩ | exact ⟨trivial, rfl⟩⟩⟩,
   ⟨(0x09, sig1, Instr.fabs, fun f a _ _ => (a % topBit f, 0)), core thV, tid, bVec 0x90000440009, job1, thV, tget thV.v 1 0, 0, 0, vOf (exec (Instr.fabs tid (bVec 0x90000440009)) (core thV)) 4, evV 0x90000440009, okE (writeV (raise (evV 0x90000440009) 0) 4 (vOf (exec (Instr.fabs tid (bVec 0x90000440009)) (core thV)) 4)) (evV 0), by simp only [Alone, Elements, Issues, VecIssues]; and_intros <;> first | trivial | exact ⟨(evV 0x90000440009), (evV 0x90000440009), by first | exact rfl | exact ⟨rfl, rfl⟩ | exact ⟨trivial, rfl⟩, by first | exact rfl | exact ⟨rfl, rfl⟩ | exact ⟨trivial, rfl⟩, by first | exact rfl | exact ⟨rfl, rfl⟩ | exact ⟨trivial, rfl⟩⟩⟩,
   ⟨(0x32, { sig2 with d := 2 }, Instr.cmplt, fun f a b => elemCmp f a b == some (-1)), core thV, tid, bVec 0x20430032, job1, thV, tget thV.v 1 0, tget thV.v 2 0, 0, evV 0x20430032, mOf (exec (Instr.cmplt tid (bVec 0x20430032)) (core thV)) 3, by simp only [Alone, Issues, VecIssues]; and_intros <;> first | trivial | exact ⟨(evV 0x20430032), (evV 0x20430032), by first | exact rfl | exact ⟨rfl, rfl⟩ | exact ⟨trivial, rfl⟩, by first | exact rfl | exact ⟨rfl, rfl⟩ | exact ⟨trivial, rfl⟩, by first | exact rfl | exact ⟨rfl, rfl⟩ | exact ⟨trivial, rfl⟩⟩⟩,
   ⟨core thV, tid, bVec 0x20430038, job1, thV, 0, 0, 0, evV 0x20430038, 0, { d := 2, a := 2, b := 2, c := false, usesMask := false, en := some false }, 0x38, .mand tid (bVec 0x20430038), by simp only [Alone, Issues, VecIssues]; and_intros <;> first | trivial | exact ⟨(evV 0x20430038), (evV 0x20430038), by first | exact rfl | exact ⟨rfl, rfl⟩ | exact ⟨trivial, rfl⟩, by first | exact rfl | exact ⟨rfl, rfl⟩ | exact ⟨trivial, rfl⟩, by first | exact rfl | exact ⟨rfl, rfl⟩ | exact ⟨trivial, rfl⟩⟩⟩,
   ⟨core thV, tid, bVec 0x43003c, job1, thV, tget thV.v 1 0, 0, 0, evV 0x43003c, BitVec.allOnes 512, by simp only [Alone, Issues, VecIssues]; and_intros <;> first | trivial | exact ⟨(evV 0x43003c), (evV 0x43003c), by first | exact rfl | exact ⟨rfl, rfl⟩ | exact ⟨trivial, rfl⟩, by first | exact rfl | exact ⟨rfl, rfl⟩ | exact ⟨trivial, rfl⟩, by first | exact rfl | exact ⟨rfl, rfl⟩ | exact ⟨trivial, rfl⟩⟩⟩,
   ⟨core thV, tid, bVec 0x9002044003d, job1, thV, tget thV.v 1 0, tget thV.v 2 0, 0, vOf (exec (.sel tid (bVec 0x9002044003d)) (core thV)) 4, evV 0x9002044003d, okE (writeV (raise (evV 0x9002044003d) 0) 4 (vOf (exec (.sel tid (bVec 0x9002044003d)) (core thV)) 4)) (evV 0), by simp only [Alone, Issues, VecIssues]; and_intros <;> first | trivial | exact ⟨(evV 0x9002044003d), (evV 0x9002044003d), by first | exact rfl | exact ⟨rfl, rfl⟩ | exact ⟨trivial, rfl⟩, by first | exact rfl | exact ⟨rfl, rfl⟩ | exact ⟨trivial, rfl⟩, by first | exact rfl | exact ⟨rfl, rfl⟩ | exact ⟨trivial, rfl⟩⟩⟩⟩

def thP : Thread := { thV with m := [(1, BitVec.allOnes 512)] }
def evP (w : BitVec 48) : Ev := atIssue (core thP) tid (bVec w) job1 thP

theorem witness_ReductionRows :
    (∃ (s : State) (t : Tid) (b : Bundle) (j : Job) (th : Thread) (x : VReg) (y : VReg) (z : VReg) (v : VReg) (e : Ev) (e' : Ev) (r : Nat)
      (fl : Flg), (VecIssues s t b j th 0x40 sig1 x y z e) ∧ (rsum (vecFmt b.vec) ((List.range (fmtN (vecFmt b.vec))).map
      (fun i => if activeAt e b.vec i then vElem (vecFmt b.vec) x i else 0)) = (r, fl)) ∧ (Head (vecFmt b.vec) [r % 2 ^ fmtBits (vecFmt b.vec)] v) ∧
      (writeV (raise e fl) (vecD b.vec) v = .ok e')) ∧
    (∃ (s : State) (t : Tid) (b : Bundle) (j : Job) (th : Thread) (x : VReg) (y : VReg) (z : VReg) (v : VReg) (e : Ev) (e' : Ev) (i : Nat),
      (vecFmt b.vec = 8 ∨ vecFmt b.vec = 10) ∧ (i < fmtN (vecFmt b.vec)) ∧ (activeAt e b.vec i = true) ∧ (Head (vecFmt b.vec) [vElem
      (vecFmt b.vec) x i] v) ∧ (writeV (raise e 0) (vecD b.vec) v = .ok e')) ∧
    (∃ (s : State) (t : Tid) (b : Bundle) (j : Job) (th : Thread) (x : VReg) (y : VReg) (z : VReg) (v : VReg) (e : Ev) (e' : Ev) (op : Nat) (i : Nat)
      (r : Nat), (redBest op (vecFmt b.vec) (((List.range (fmtN (vecFmt b.vec))).filter (activeAt e b.vec)).map (fun k => (k, vElem
      (vecFmt b.vec) x k))) = some (i, r)) ∧ (VecIssues s t b j th op sig1 x y z e) ∧ (writeV (raise e 0) (vecD b.vec) v = .ok e') ∧ ((decodeF
      (vecFmt b.vec) r).isNan = false)) ∧
    (∃ (s : State) (t : Tid) (b : Bundle) (j : Job) (th : Thread) (x : VReg) (y : VReg) (z : VReg) (v : VReg) (e : Ev) (e' : Ev),
      (VecIssues s t b j th 0x43 sig1 x y z e) ∧ ((∀ i, i < fmtN (vecFmt b.vec) → activeAt e b.vec i = false)) ∧ (Head (vecFmt b.vec) [0, 2 ^ fmtBits
      (vecFmt b.vec) - 1] v) ∧ (writeV (raise e 0) (vecD b.vec) v = .ok e')) ∧
    (∃ (s : State) (t : Tid) (b : Bundle) (j : Job) (th : Thread) (x : VReg) (y : VReg) (z : VReg) (e : Ev), ((∀ i, i < fmtN (vecFmt b.vec) →
      activeAt e b.vec i = false)) ∧ (VecIssues s t b j th 0x41 sig1 x y z e)) ∧
    (∃ (s : State) (t : Tid) (b : Bundle) (j : Job) (th : Thread) (x : VReg) (y : VReg) (z : VReg) (e : Ev), ((∀ i, i < fmtN (vecFmt b.vec) →
      activeAt e b.vec i = false)) ∧ (VecIssues s t b j th 0x42 sig1 x y z e)) ∧
    (∃ (s : State) (t : Tid) (b : Bundle) (j : Job) (th : Thread) (x : VReg) (y : VReg) (z : VReg) (e : Ev), (VecIssues s t b j th 0x48
      { sig1 with a := 0, usesMask := true } x y z e) ∧ (2 ^ fmtBits (vecFmt b.vec) ≤ ((List.range (fmtN (vecFmt b.vec))).filter
      (fun i => bit (tget th.m (vecMask b.vec) 0) i)).length)) ∧
    (∃ (s : State) (t : Tid) (b : Bundle) (j : Job) (th : Thread) (x : VReg) (y : VReg) (z : VReg) (v : VReg) (e : Ev) (e' : Ev) (ps : List
      (Option Nat)) (fl : Flg), (VecIssues s t b j th 0x44 sig1 x y z e) ∧ (psum (vecFmt b.vec) ((List.range (fmtN (vecFmt b.vec))).map
      (fun i => if activeAt e b.vec i then some (vElem (vecFmt b.vec) x i) else none)) = (ps, fl)) ∧ (Elements e b.vec (fun i =>
      ((ps.getD i none).getD 0) % 2 ^ fmtBits (vecFmt b.vec)) v) ∧ (writeV (raise e fl) (vecD b.vec) v = .ok e')) ∧
    (∃ (s : State) (t : Tid) (b : Bundle) (j : Job) (th : Thread) (x : VReg) (y : VReg) (z : VReg) (v : VReg) (e : Ev) (e' : Ev), (writeV (raise e 0)
      (vecD b.vec) v = .ok e')) ∧
    (∃ (f : Nat) (xs : List (Option Nat)), (f = 8 ∨ f = 10) ∧ ((∀ x ∈ xs, ∀ a, x = some a → a < 2 ^ fmtBits f))) :=
  ⟨⟨core thV, tid, bVec 0x440040, job1, thV, tget thV.v 1 0, 0, 0, vOf (exec (Instr.rsum tid (bVec 0x440040)) (core thV)) 4, evV 0x440040, okE (writeV (raise (evV 0x440040) 0) 4 (vOf (exec (Instr.rsum tid (bVec 0x440040)) (core thV)) 4)) (evV 0), (rsum 0 ((List.range 64).map (fun i => if activeAt (evV 0x440040) 0x440040 i then vElem 0 (tget thV.v 1 0) i else 0))).1, (rsum 0 ((List.range 64).map (fun i => if activeAt (evV 0x440040) 0x440040 i then vElem 0 (tget thV.v 1 0) i else 0))).2, by simp only [Alone, Head, Issues, VecIssues]; and_intros <;> first | trivial | exact ⟨(evV 0x440040), (evV 0x440040), by first | exact rfl | exact ⟨rfl, rfl⟩ | exact ⟨trivial, rfl⟩, by first | exact rfl | exact ⟨rfl, rfl⟩ | exact ⟨trivial, rfl⟩, by first | exact rfl | exact ⟨rfl, rfl⟩ | exact ⟨trivial, rfl⟩⟩⟩,
   ⟨core thV, tid, bVec 0x44aa41, job1, thV, tget thV.v 1 0, 0, 0, vOf (exec (Instr.rmax tid (bVec 0x44aa41)) (core thV)) 4, evV 0x44aa41, okE (writeV (raise (evV 0x44aa41) 0) 4 (vOf (exec (Instr.rmax tid (bVec 0x44aa41)) (core thV)) 4)) (evV 0), 1, by simp only [Head]; and_intros <;> first | trivial⟩,
   ⟨core thV, tid, bVec 0x90000440043, job1, thV, tget thV.v 1 0, 0, 0, vOf (exec (Instr.rargmax tid (bVec 0x90000440043)) (core thV)) 4, evV 0x90000440043, okE (writeV (raise (evV 0x90000440043) 0) 4 (vOf (exec (Instr.rargmax tid (bVec 0x90000440043)) (core thV)) 4)) (evV 0), 0x43, 0, 0x3F800000, by simp only [Alone, Issues, VecIssues]; and_intros <;> first | trivial | exact ⟨(evV 0x90000440043), (evV 0x90000440043), by first | exact rfl | exact ⟨rfl, rfl⟩ | exact ⟨trivial, rfl⟩, by first | exact rfl | exact ⟨rfl, rfl⟩ | exact ⟨trivial, rfl⟩, by first | exact rfl | exact ⟨rfl, rfl⟩ | exact ⟨trivial, rfl⟩⟩⟩,
   ⟨core thV, tid, bVec 0xa0000440043, job1, thV, tget thV.v 1 0, 0, 0, vOf (exec (Instr.rargmax tid (bVec 0xa0000440043)) (core thV)) 4, evV 0xa0000440043, okE (writeV (raise (evV 0xa0000440043) 0) 4 (vOf (exec (Instr.rargmax tid (bVec 0xa0000440043)) (core thV)) 4)) (evV 0), by simp only [Alone, Head, Issues, VecIssues]; and_intros <;> first | trivial | exact ⟨(evV 0xa0000440043), (evV 0xa0000440043), by first | exact rfl | exact ⟨rfl, rfl⟩ | exact ⟨trivial, rfl⟩, by first | exact rfl | exact ⟨rfl, rfl⟩ | exact ⟨trivial, rfl⟩, by first | exact rfl | exact ⟨rfl, rfl⟩ | exact ⟨trivial, rfl⟩⟩⟩,
   ⟨core thV, tid, bVec 0xa0000440041, job1, thV, tget thV.v 1 0, 0, 0, evV 0xa0000440041, by
     simp only [Alone, Issues, VecIssues]; and_intros <;> first | trivial | decide +kernel | exact ⟨(evV 0xa0000440041), (evV 0xa0000440041), by first | exact rfl | exact ⟨rfl, rfl⟩ | exact ⟨trivial, rfl⟩, by first | exact rfl | exact ⟨rfl, rfl⟩ | exact ⟨trivial, rfl⟩, by first | exact rfl | exact ⟨rfl, rfl⟩ | exact ⟨trivial, rfl⟩⟩⟩,
   ⟨core thV, tid, bVec 0xa0000440042, job1, thV, tget thV.v 1 0, 0, 0, evV 0xa0000440042, by
     simp only [Alone, Issues, VecIssues]; and_intros <;> first | trivial | decide +kernel | exact ⟨(evV 0xa0000440042), (evV 0xa0000440042), by first | exact rfl | exact ⟨rfl, rfl⟩ | exact ⟨trivial, rfl⟩, by first | exact rfl | exact ⟨rfl, rfl⟩ | exact ⟨trivial, rfl⟩, by first | exact rfl | exact ⟨rfl, rfl⟩ | exact ⟨trivial, rfl⟩⟩⟩,
   ⟨core thP, tid, bVec 0x10000048848, job1, thP, 0, 0, 0, evP 0x10000048848, by
     simp only [Alone, Issues, VecIssues]; and_intros <;> first | trivial | decide +kernel | exact ⟨(evP 0x10000048848), (evP 0x10000048848), by first | exact rfl | exact ⟨rfl, rfl⟩ | exact ⟨trivial, rfl⟩, by first | exact rfl | exact ⟨rfl, rfl⟩ | exact ⟨trivial, rfl⟩, by first | exact rfl | exact ⟨rfl, rfl⟩ | exact ⟨trivial, rfl⟩⟩⟩,
   ⟨core thV, tid, bVec 0x440044, job1, thV, tget thV.v 1 0, 0, 0, vOf (exec (Instr.psum tid (bVec 0x440044)) (core thV)) 4, evV 0x440044, okE (writeV (raise (evV 0x440044) 0) 4 (vOf (exec (Instr.psum tid (bVec 0x440044)) (core thV)) 4)) (evV 0), (psum 0 ((List.range 64).map (fun i => if activeAt (evV 0x440044) 0x440044 i then some (vElem 0 (tget thV.v 1 0) i) else none))).1, (psum 0 ((List.range 64).map (fun i => if activeAt (evV 0x440044) 0x440044 i then some (vElem 0 (tget thV.v 1 0) i) else none))).2, by simp only [Alone, Elements, Issues, VecIssues]; and_intros <;> first | trivial | exact ⟨(evV 0x440044), (evV 0x440044), by first | exact rfl | exact ⟨rfl, rfl⟩ | exact ⟨trivial, rfl⟩, by first | exact rfl | exact ⟨rfl, rfl⟩ | exact ⟨trivial, rfl⟩, by first | exact rfl | exact ⟨rfl, rfl⟩ | exact ⟨trivial, rfl⟩⟩⟩,
   ⟨core thV, tid, bVec 0x20440045, job1, thV, tget thV.v 1 0, tget thV.v 2 0, 0, vOf (exec (Instr.bcast tid (bVec 0x20440045)) (core thV)) 4, evV 0x20440045, okE (writeV (raise (evV 0x20440045) 0) 4 (vOf (exec (Instr.bcast tid (bVec 0x20440045)) (core thV)) 4)) (evV 0), by and_intros <;> first | trivial⟩,
   ⟨8, [some 255, none, some 1, some 2], by decide +kernel⟩⟩

theorem witness_ConversionRows :
    (∃ (s : State) (t : Tid) (b : Bundle) (j : Job) (th : Thread) (x : VReg) (y : VReg) (z : VReg) (v : VReg) (e : Ev) (e' : Ev),
      (VecIssues s t b j th 0x60 sig1 x y z e) ∧ (fmtN (vecFmt b.vec) = fmtN (vecFmtD b.vec)) ∧ (vecRnd b.vec = 0) ∧ (Elements e b.vec (fun i =>
      (convert (vecFmtD b.vec) (decodeF (vecFmt b.vec) (vElem (vecFmt b.vec) x i)) (vecSat b.vec) none).1) v) ∧ (writeV (raise (putRng e th.rng)
      (condsOf e b.vec (fun i => (convert (vecFmtD b.vec) (decodeF (vecFmt b.vec) (vElem (vecFmt b.vec) x i)) (vecSat b.vec) none).2)))
      (vecD b.vec) v = .ok e') ∧ (e.th0 = th)) ∧
    (∃ (s : State) (t : Tid) (b : Bundle) (j : Job) (th : Thread) (x : VReg) (y : VReg) (z : VReg) (v : VReg) (e : Ev) (e' : Ev),
      (VecIssues s t b j th 0x90 { sig1 with a := 0 } x y z e) ∧ (vecMaskEn b.vec = false) ∧ (e.th0 = th) ∧ ((∀ i, i < 64 → vElem 0 v i = (arith 0
      (.fin false ((drawAt (i + 1) th.rng).toNat / 256) (-24))).1)) ∧ (writeV (raise (putRng e (drawAt 64 th.rng)) 0) (vecD b.vec) v = .ok e')) ∧
    (∃ (s : State) (t : Tid) (b : Bundle) (j : Job) (th : Thread) (x : VReg) (y : VReg) (z : VReg) (v : VReg) (e : Ev) (e' : Ev),
      (VecIssues s t b j th 0x91 { sig1 with a := 0 } x y z e) ∧ (Head 10 [th.flags.toNat] v) ∧ (e.th0 = th) ∧ (writeV (raise e 0)
      (vecD b.vec) v = .ok e')) ∧
    (∃ (s : State) (t : Tid) (b : Bundle) (j : Job) (th : Thread) (x : VReg) (y : VReg) (z : VReg) (e : Ev),
      (VecIssues s t b j th 0x92 { sig1 with d := 0, a := 0 } x y z e)) :=
  ⟨⟨core thV, tid, bVec 0x442160, job1, thV, tget thV.v 1 0, 0, 0, vOf (exec (Instr.cvt tid (bVec 0x442160)) (core thV)) 4, evV 0x442160, okE (writeV (raise (evV 0x442160) 0) 4 (vOf (exec (Instr.cvt tid (bVec 0x442160)) (core thV)) 4)) (evV 0), by simp only [Alone, Elements, Issues, VecIssues]; and_intros <;> first | trivial | exact ⟨(evV 0x442160), (evV 0x442160), by first | exact rfl | exact ⟨rfl, rfl⟩ | exact ⟨trivial, rfl⟩, by first | exact rfl | exact ⟨rfl, rfl⟩ | exact ⟨trivial, rfl⟩, by first | exact rfl | exact ⟨rfl, rfl⟩ | exact ⟨trivial, rfl⟩⟩⟩,
   ⟨core thV, tid, bVec 0x40090, job1, thV, 0, 0, 0, vOf (exec (.rand tid (bVec 0x40090)) (core thV)) 4, evV 0x40090, okE (writeV (raise (putRng (evV 0x40090) (drawAt 64 1)) 0) 4 (vOf (exec (.rand tid (bVec 0x40090)) (core thV)) 4)) (evV 0), by simp only [Alone, Issues, VecIssues]; and_intros <;> first | trivial | exact ⟨(evV 0x40090), (evV 0x40090), by first | exact rfl | exact ⟨rfl, rfl⟩ | exact ⟨trivial, rfl⟩, by first | exact rfl | exact ⟨rfl, rfl⟩ | exact ⟨trivial, rfl⟩, by first | exact rfl | exact ⟨rfl, rfl⟩ | exact ⟨trivial, rfl⟩⟩⟩,
   ⟨core thV, tid, bVec 0x4aa91, job1, thV, 0, 0, 0, vOf (exec (.rdflags tid (bVec 0x4aa91)) (core thV)) 4, evV 0x4aa91, okE (writeV (raise (evV 0x4aa91) 0) 4 (vOf (exec (.rdflags tid (bVec 0x4aa91)) (core thV)) 4)) (evV 0), by simp only [Alone, Head, Issues, VecIssues]; and_intros <;> first | trivial | exact ⟨(evV 0x4aa91), (evV 0x4aa91), by first | exact rfl | exact ⟨rfl, rfl⟩ | exact ⟨trivial, rfl⟩, by first | exact rfl | exact ⟨rfl, rfl⟩ | exact ⟨trivial, rfl⟩, by first | exact rfl | exact ⟨rfl, rfl⟩ | exact ⟨trivial, rfl⟩⟩⟩,
   ⟨core thV, tid, bVec 0x92, job1, thV, 0, 0, 0, evV 0x92, by simp only [Alone, Issues, VecIssues]; and_intros <;> first | trivial | exact ⟨(evV 0x92), (evV 0x92), by first | exact rfl | exact ⟨rfl, rfl⟩ | exact ⟨trivial, rfl⟩, by first | exact rfl | exact ⟨rfl, rfl⟩ | exact ⟨trivial, rfl⟩, by first | exact rfl | exact ⟨rfl, rfl⟩ | exact ⟨trivial, rfl⟩⟩⟩⟩

theorem witness_DeviceMemory :
    (∃ (s : State) (k : Nat) (j : Nat) (b : Byte), (j ≠ k)) ∧
    (∃ (s : State) (k : Nat) (b : Byte), (Mem.wf s.mem = true)) ∧
    (∃ (m m' : Mem), (Mem.wf m = true) ∧ (Mem.wf m' = true) ∧ (m.discarded = m'.discarded) ∧
      (∀ k, (tfind m.discarded (keyRow k)).isSome = true → tfind m.dram k = tfind m'.dram k) ∧
      (∀ k, tget m.dram k 0 = tget m'.dram k 0)) ∧
    (∃ (s : State) (t : State) (a : Nat) (new : List Byte) (rq : Rq) (st : W16), (new.length = 32) ∧ (viewOf s (a / 32 * 32) = none) ∧
      (sliceWrite s a new (BitVec.allOnes 32) rq = (st, t))) :=
  ⟨⟨up, 5, 6, 7, by decide +kernel⟩,
   ⟨up, 5, 7, by decide +kernel⟩,
   ⟨(setDramByte up 5 9).mem, (setDramByte up 5 9).mem, by decide +kernel, by decide +kernel, rfl, fun _ _ => rfl, fun _ => rfl⟩,
   ⟨up, (sliceWrite up 64 (List.replicate 32 7) (BitVec.allOnes 32) hfRq).2, 64, List.replicate 32 7, hfRq, stOk, by and_intros <;> first | trivial⟩⟩

theorem witness_MemoryStaysCanonical :
    ∃ (s : _) (t : State), (Mem.wf s.mem = true) ∧ (twf (fun _ => 0) s.host.mem = true) ∧ (step s = .next t) :=
  ⟨up, after (step up) up id, by (exact ⟨by decide +kernel, by decide +kernel, rfl⟩)⟩

theorem witness_SemaphoreRules :
    (∃ (s : State) (n : Nat) (a : W64) (src : SemSrc), ((getSem s n).waiters = [])) ∧
    (∃ (s : State) (n : Nat) (m : Nat) (a : W64) (src : SemSrc), (m ≠ n) ∧ ((getSem s n).waiters = [])) ∧
    (∃ (s : State) (n : Nat) (a : W64), ((getSem s n).waiters = []) ∧ (a.toNat ≤ (getSem s n).value.toNat)) ∧
    (∃ (s : State) (n : Nat) (a : W64), ((getSem s n).waiters ≠ [] ∨ (getSem s n).value.toNat < a.toNat)) ∧
    (∃ (s : State) (op : Nat) (o : MemOp), (Outstanding s op o) ∧ (SemTurn s o) ∧ (o.kind = .semSig) ∧ (o.parked = false) ∧ ((getSem s (semNo o)).waiters = []) ∧
      (rf s TRACE_CTRL 0 1 = 0)) :=
  ⟨⟨up, 4, 9, { source := 3, port := 5 }, by decide +kernel⟩,
   ⟨up, 4, 5, 9, { source := 3, port := 5 }, by decide +kernel⟩,
   ⟨up, 4, 0, by decide +kernel⟩,
   ⟨up, 4, 1, by decide +kernel⟩,
   ⟨fund (withOp (semOp .semSig)) (semStack up 4), 1, semOp .semSig, by simp only [Outstanding, SemTurn]; and_intros <;> first | trivial | decide +kernel⟩⟩

/-- A load whose partition's bucket is open; the same with its pseudo-channel's 128 places taken and `n` waiting in the slice queue. -/
def funded (o : MemOp) : State := fund (withOp o) 0
def full (n : Nat) : Engine := { eng0 with inflight := List.replicate 128 dop, sliceQ := List.replicate n dop }
def crowded (n : Nat) : State := setEngine (funded (ld id)) ((fillPlace (funded (ld id)) 0x40).1 / 32) (full n)

theorem witness_OperationRows :
    (∃ (s : State) (op : Nat) (g : Nat) (o : MemOp), (AtSlice s op g o) ∧ (bucketLets s o g = true) ∧ (servedAtSlice s o g = true)) ∧
    (∃ (s : State) (op : Nat) (g : Nat) (bank : Nat) (row : Nat) (o : MemOp) (e : Engine), (AtSlice s op g o) ∧ (bucketLets s o g = true) ∧
      (servedAtSlice s o g = false) ∧ (fillPlace s (o.sector g) = (bank, row)) ∧ (getEngine s (bank / 32) = e) ∧ (e.load < 128)) ∧
    (∃ (s : State) (op : Nat) (g : Nat) (bank : Nat) (row : Nat) (o : MemOp) (e : Engine), (AtSlice s op g o) ∧ (bucketLets s o g = true) ∧
      (servedAtSlice s o g = false) ∧ (fillPlace s (o.sector g) = (bank, row)) ∧ (getEngine s (bank / 32) = e) ∧ (128 ≤ e.load) ∧
      (e.sliceQ.length < 64)) ∧
    (∃ (s : State) (op : Nat) (g : Nat) (o : MemOp), (AtSlice s op g o) ∧ (servedAtSlice s o g = false) ∧ (128 ≤ (getEngine s ((fillPlace s (o.sector g)).1 / 32)).load) ∧
      (64 ≤ (getEngine s ((fillPlace s (o.sector g)).1 / 32)).sliceQ.length)) ∧
    (∃ (s : State) (op : Nat) (g : Nat) (o : MemOp), (AtSlice s op g o) ∧ (bucketLets s o g = false) ∧ (servedAtSlice s o g = true)) ∧
    (∃ (s : State) (op : Nat) (g : Nat) (o : MemOp), (Outstanding s op o) ∧ (o.done = true ∨ g ∉ o.todo ∨ o.short = true ∨ behind s o (o.sector g) = true ∨
      allocBlocked s (o.sector g) = true ∨ (servedAtSlice s o g = true ∧ ∃ d ∈ (getEngine s ((fillPlace s (o.sector g)).1 / 32)).inflight ++
        (getEngine s ((fillPlace s (o.sector g)).1 / 32)).sliceQ, d.write = false ∧ d.addr / 32 = o.sector g / 32))) ∧
    (∃ (s : State) (op : Nat) (g : Nat) (o : MemOp), (Outstanding s op o) ∧ (servedAtSlice s o g = true) ∧
      (∃ d ∈ (getEngine s ((fillPlace s (o.sector g)).1 / 32)).inflight ++ (getEngine s ((fillPlace s (o.sector g)).1 / 32)).sliceQ,
        d.write = false ∧ d.addr / 32 = o.sector g / 32)) ∧
    (∃ (s : State) (op : Nat) (o : MemOp), (Outstanding s op o) ∧ (s.fab.flows = []) ∧ (o.kind ≠ .semSig) ∧ (o.kind ≠ .semWait) ∧ (o.kind ≠ .semTry) ∧ (o.short = true) ∧ ((∃ g ∈ o.todo, bucketLets s o g = true))) ∧
    (∃ (s : State) (op : Nat) (o : MemOp), (Outstanding s op o) ∧ (s.fab.flows = []) ∧ (o.kind ≠ .semSig) ∧ (o.kind ≠ .semWait) ∧ (o.kind ≠ .semTry) ∧ (o.short = false)) ∧
    (∃ (s : State) (op : Nat) (o : MemOp), (Outstanding s op o) ∧ (s.fab.flows = []) ∧ ((o.kind = .semSig ∨ o.kind = .semWait ∨ o.kind = .semTry)) ∧ (o.short = true) ∧
      (semLets s o = true)) ∧
    (∃ (s : State) (op : Nat) (o : MemOp), (Outstanding s op o) ∧ (o.done = true) ∧ (o.parked = true)) ∧
    (∃ (s : State) (op : Nat) (o : MemOp), (Outstanding s op o) ∧ (o.done = false)) ∧
    (∃ (s : State) (op : Nat) (o : MemOp), (Outstanding s op o) ∧ (o.done = true) ∧ (o.parked = false) ∧ (jobAt s o.t.vcore = none)) ∧
    (∃ (s : State) (op : Nat) (o : MemOp) (j : Job), (Outstanding s op o) ∧ (o.done = true) ∧ (o.parked = false) ∧ (jobAt s o.t.vcore = some j)) ∧
    (∃ (s : State) (op : Nat) (o : MemOp), (Outstanding s op o) ∧ (SemTurn s o) ∧ (o.kind = .semTry)) ∧
    (∃ (s : State) (op : Nat) (o : MemOp), (Outstanding s op o) ∧ (SemTurn s o) ∧ (o.kind = .semWait)) ∧
    (∃ (s : State) (v : Nat) (j : Job), (jobAt s v = some j) ∧ (v ∉ s.cores.gated) ∧ ((∀ k, k < j.threads → (∃ n a,
      (getThread s { vcore := v, thread := k }).run = .semWait n a) ∨ (getThread s { vcore := v, thread := k }).run = .ended)) ∧
      ((∃ k, k < j.threads ∧ ∃ n a, (getThread s { vcore := v, thread := k }).run = .semWait n a))) ∧
    (∃ (s : State) (v : Nat), ((jobAt s v = none ∨ v ∈ s.cores.gated ∨ ∃ j k, jobAt s v = some j ∧ k < j.threads ∧
      (getThread s { vcore := v, thread := k }).run ≠ .ended ∧ ∀ n a, (getThread s { vcore := v, thread := k }).run ≠ .semWait n a))) :=
  ⟨⟨hit (funded (ld id)), 1, 0, ld id, by
     simp only [AtSlice, Outstanding]
     exact ⟨⟨by rfl, by decide, by decide, by decide, by decide, .inl ⟨8, false, false, false, rfl⟩, by decide +kernel, by decide +kernel, by decide +kernel⟩, by decide +kernel, by decide +kernel⟩⟩,
   ⟨funded (ld id), 1, 0, (fillPlace (funded (ld id)) 0x40).1, (fillPlace (funded (ld id)) 0x40).2, ld id, eng0, by
     simp only [AtSlice, Outstanding]
     refine ⟨⟨by rfl, by decide, by decide, by decide, by decide, .inl ⟨8, false, false, false, rfl⟩, ?_, ?_, ?_⟩, ?_, ?_, ?_, ?_, ?_⟩ <;> decide +kernel⟩,
   ⟨crowded 0, 1, 0, (fillPlace (funded (ld id)) 0x40).1, (fillPlace (funded (ld id)) 0x40).2, ld id, full 0, by
     simp only [AtSlice, Outstanding]
     refine ⟨⟨by rfl, by decide, by decide, by decide, by decide, .inl ⟨8, false, false, false, rfl⟩, ?_, ?_, ?_⟩, ?_, ?_, ?_, ?_, ?_, ?_⟩ <;> decide +kernel⟩,
   ⟨crowded 64, 1, 0, ld id, by
     simp only [AtSlice, Outstanding]
     exact ⟨⟨by rfl, by decide, by decide, by decide, by decide, .inl ⟨8, false, false, false, rfl⟩, by decide +kernel, by decide +kernel, by decide +kernel⟩, by decide +kernel, by decide +kernel, by decide +kernel⟩⟩,
   ⟨hit (withOp (ld id)), 1, 0, ld id, by
     simp only [AtSlice, Outstanding]
     exact ⟨⟨by rfl, by decide, by decide, by decide, by decide, .inl ⟨8, false, false, false, rfl⟩, by decide +kernel, by decide +kernel, by decide +kernel⟩, by decide +kernel, by decide +kernel⟩⟩,
   ⟨withOp (ld id), 1, 1, ld id, by simp only [Outstanding]; decide +kernel⟩,
   ⟨setEngine (hit (funded (ld id))) ((fillPlace (funded (ld id)) 0x40).1 / 32) (full 0), 1, 0, ld id, by simp only [Outstanding]; decide +kernel⟩,
   ⟨funded (ld fun o => { o with short := true }), 1, ld fun o => { o with short := true }, by
     simp only [Outstanding]; exact ⟨by rfl, by decide, by decide, by decide, by decide, by decide +kernel, 0, by decide, by decide +kernel⟩⟩,
   ⟨withOp (ld id), 1, ld id, by simp only [Outstanding]; decide +kernel⟩,
   ⟨fund (withOp { semOp .semTry with short := true }) (semStack up 4), 1, { semOp .semTry with short := true }, by simp only [Outstanding]; decide +kernel⟩,
   ⟨withOp (ld fun o => { o with done := true, parked := true }), 1, ld fun o => { o with done := true, parked := true }, by simp only [Outstanding]; decide +kernel⟩,
   ⟨withOp (ld id), 1, ld id, by simp only [Outstanding]; decide +kernel⟩,
   ⟨{ up with cores := { up.cores with ops := [ld fun o => { o with done := true }] } }, 1, ld fun o => { o with done := true }, by simp only [Outstanding]; decide +kernel⟩,
   ⟨withOp (ld fun o => { o with done := true, kind := .load 1 true false false, res := 0x80 }), 1, ld fun o => { o with done := true, kind := .load 1 true false false, res := 0x80 }, job1, by simp only [Outstanding]; decide +kernel⟩,
   ⟨fund (withOp (semOp .semTry)) (semStack up 4), 1, semOp .semTry, by simp only [Outstanding, SemTurn]; and_intros <;> first | trivial | decide +kernel⟩,
   ⟨fund (withOp (semOp .semWait)) (semStack up 4), 1, semOp .semWait, by simp only [Outstanding, SemTurn]; and_intros <;> first | trivial | decide +kernel⟩,
   ⟨setThread (setThread (core th1) tid { th1 with run := .semWait 4 3 }) { tid with thread := 1 } { th1 with run := .ended }, 3, job1, by (refine ⟨by rfl, by decide +kernel, fun k h => ?_, 0, by decide, 4, 3, by decide +kernel⟩; match k, h with | 0, _ => exact .inl ⟨4, 3, by decide +kernel⟩ | 1, _ => exact .inr (by decide +kernel))⟩,
   ⟨up, 3, .inl (by decide +kernel)⟩⟩

theorem witness_EngineRows :
    (∃ (s : State) (pc : Nat) (d : DOp), (chooseDop s pc = some d)) ∧
    (∃ (s : State) (pc : Nat) (d : DOp) (x : DOp), (chooseDop s pc = some d) ∧ (x ∈ (getEngine s pc).inflight) ∧ (dopReady s pc x = true) ∧
      (d.released = false) ∧ (x.urgency ≠ d.urgency)) ∧
    (∃ (s : State) (pc : Nat) (d : DOp) (x : DOp), (chooseDop s pc = some d) ∧ (x ∈ (getEngine s pc).inflight) ∧ (dopReady s pc x = true) ∧
      (x.released = true)) ∧
    (∃ (s : State) (pc : Nat), ((getEngine s pc).wbuf ≠ []) ∧ (pcHeld s pc = false) ∧ (48 ≤ (getEngine s pc).wbuf.length ∨ chooseDop s pc = none)) ∧
    (∃ (s : State) (pc : Nat), (pcHeld s pc = true)) ∧
    (∃ (s : State) (pc : Nat) (dop : Nat) (up : DOp → DOp), ((∀ d, up d = if d.id = dop then
      { d with urgency := max d.urgency (shareUrgency s pc d) } else d))) ∧
    (∃ (s : State) (u : State) (bank : Nat) (d : DOp) (ds : List DOp), ((getEngine s (bank / 32)).inflight.filter (fun d => d.bank == bank) = d :: ds) ∧
      (bankBusy s bank = true) ∧ (pcHeld s (bank / 32) = false) ∧ ((d.slotted = true ∨ d.arrived +
      (rf s (STK_NB_YIELD (bank / 2048)) 0 16 - 250) ≤ mono s)) ∧ (u = ((d :: ds).take 4).foldl (fun s d => completeDop s (bank / 32) d) s)) ∧
    (∃ (s : State) (bank : Nat), ((bankBusy s bank = false ∨ pcHeld s (bank / 32) = true ∨
      (getEngine s (bank / 32)).inflight.filter (fun d => d.bank == bank) = []))) :=
  ⟨⟨eng { eng0 with inflight := [dop] }, 0, dop, by decide +kernel⟩,
   ⟨eng { eng0 with inflight := [dop, { dop2 with urgency := 2 }] }, 0, { dop2 with urgency := 2 }, dop, by decide +kernel⟩,
   ⟨eng { eng0 with inflight := [{ dop with released := true }, { dop2 with urgency := 2 }] }, 0, { dop with released := true }, { dop with released := true }, by
     decide +kernel⟩,
   ⟨eng { eng0 with wbuf := [dop2] }, 0, by decide +kernel⟩,
   ⟨{ eng { eng0 with wbuf := [dop2] } with mem := { (eng { eng0 with wbuf := [dop2] }).mem with held := [(0, 1)] } }, 0, by decide +kernel⟩,
   ⟨up, 0, 7, fun d => if d.id = 7 then { d with urgency := max d.urgency (shareUrgency up 0 d) } else d, fun _ => rfl⟩,
   ⟨clocked busy 10000, ([dop].take 4).foldl (fun s d => completeDop s (0 / 32) d) (clocked busy 10000), 0, dop, [], by
     and_intros <;> first | rfl | decide +kernel⟩,
   ⟨up, 0, by decide +kernel⟩⟩

/-- A step plans its group while the clock shows a time; the last step boundary. -/
def grouped (n : Nat) (b : Option Nat) : State :=
  let s := clocked (wf up (STK_RETRAIN_CFG 0) 0 16 2) n
  { s with se := { s.se with boundaryAt := b, steps := [(0, run0 fun r => { r with
    group := some ({ kind := 3, model := 6, index := 0, batch := 1, entry := 0 }, .dense),
    dense := [{ addr := 0, n := 32, out := 0, session := none }] })] } }

theorem witness_StackRows :
    (∃ (s : State) (bank : Nat), (bank < bankCount s) ∧ (rf s (STK_STATUS (bank / 2048)) 2 1 = 0) ∧ (pcHeld s (bank / 32) = false)) ∧
    (∃ (s : State) (bank : Nat), (bank < bankCount s) ∧ (rf s (STK_STATUS (bank / 2048)) 2 1 = 0) ∧ (pcHeld s (bank / 32) = false)) ∧
    (∃ (s : State) (sid : Nat), (sid < 256 * stackCount s) ∧ (sidIdle s sid = true) ∧ (rf s (STK_POWER (sid / 256)) 16 1 = 1) ∧
      (sid ∉ s.mem.powerDown)) ∧
    (∃ (s : State) (k : Nat), (k < stackCount s) ∧ (rf s (STK_POWER k) 17 1 = 1) ∧ ((∀ i, i < 256 → sidIdle s (256 * k + i) = true)) ∧
      ((∀ h ∈ s.mem.held, h.1 / 64 ≠ k))) ∧
    (∃ (s : State) (k : Nat), (k < stackCount s) ∧ (serving s = true) ∧ (pcHeld s ((k * 3221225472 + tget s.mem.scrubPos k 0) / 64 / 24576 / 32) =
      false) ∧ (tget s.mem.ecc (k * 3221225472 + tget s.mem.scrubPos k 0) SecErr.none = SecErr.none)) ∧
    (∃ (s : State) (k : Nat), (pcHeld s ((k * 3221225472 + tget s.mem.scrubPos k 0) / 64 / 24576 / 32) = true)) ∧
    (∃ (s : State) (bank : Nat) (row : Nat), (bank * 24576 + row ∈ s.mem.repairDue) ∧ (row < 24576) ∧ (pcHeld s (bank / 32) = false) ∧ ((tget s.mem.remaps bank []).length < 32)) ∧
    (∃ (s : State) (bank : Nat) (row : Nat), (bank * 24576 + row ∈ s.mem.repairDue) ∧ (row < 24576) ∧ (pcHeld s (bank / 32) = false) ∧ (32 ≤ (tget s.mem.remaps bank []).length)) ∧
    (∃ (s : State) (k ch c : Nat), (c = 32 * k + ch) ∧ (k < stackCount s) ∧ (ch < 32) ∧ (serving s = true) ∧ (rf s (STK_RETRAIN_CFG k) 0 16 ≠ 0) ∧
      (retrainDue s c ≤ mono s) ∧ (pcHeld s (2 * c) = false) ∧ (pcHeld s (2 * c + 1) = false) ∧ ((∀ r ∈ s.se.steps, inStages s r.1 r.2 = false)) ∧
      ((∀ p, p < 16 → partDefined s p = true → startSoon s p = false))) ∧
    (∃ (s : State) (k ch c : Nat), (c = 32 * k + ch) ∧ (k < stackCount s) ∧ (ch < 32) ∧ (serving s = true) ∧ (rf s (STK_RETRAIN_CFG k) 0 16 ≠ 0) ∧
      (retrainDue s c ≤ mono s) ∧ (pcHeld s (2 * c) = false) ∧ (pcHeld s (2 * c + 1) = false) ∧ (retrainDue s c + 2000000000 ≤ mono s) ∧
      (s.se.boundaryAt = some (mono s)) ∧ (s.se.steps ≠ [])) ∧
    (∃ (s : State) (k ch c : Nat), (c = 32 * k + ch) ∧ (mono s < retrainDue s c)) ∧
    (∃ (s : State) (k ch c : Nat), (c = 32 * k + ch) ∧ (retrainDue s c ≤ mono s) ∧ (retrainDue s c + 2000000000 > mono s) ∧ ((∃ r ∈ s.se.steps, inStages s r.1 r.2 = true))) ∧
    (∃ (s : State) (pc : Nat) (cause : RetrainCause) (whole : Bool), (pc < 64 * stackCount s) ∧ (Quiet s)) ∧
    (∃ (s : State) (pc : Nat), (s.mem.held = [(pc, 1)]) ∧ (s.fab.flows = []) ∧ (tfind s.faults.running 2 = none)) :=
  ⟨⟨up, 7, by decide +kernel⟩,
   ⟨eng { eng0 with postponed := [(7, 8)], openRow := [(7, 4)] }, 7, by decide +kernel⟩,
   ⟨wf up (STK_POWER 0) 16 1 1, 7, by decide +kernel⟩,
   ⟨wf up (STK_POWER 1) 17 1 1, 1, by decide +kernel⟩,
   ⟨up, 1, by decide +kernel⟩,
   ⟨{ up with mem := { up.mem with held := [(64, 1)] } }, 1, by decide +kernel⟩,
   ⟨{ up with mem := { up.mem with repairDue := [24576 * 5 + 9] } }, 5, 9, by decide +kernel⟩,
   ⟨{ up with mem := { up.mem with repairDue := [24576 * 5 + 9], remaps := [(5, List.range 32)] } }, 5, 9, by decide +kernel⟩,
   ⟨clocked (wf up (STK_RETRAIN_CFG 0) 0 16 2) 300000000, 0, 3, 3, by decide +kernel⟩,
   ⟨grouped 500000000 (some 5000000000), 0, 3, 3, by decide +kernel⟩,
   ⟨wf up (STK_RETRAIN_CFG 0) 0 16 2, 0, 3, 3, by decide +kernel⟩,
   ⟨grouped 300000000 none, 0, 3, 3, by decide +kernel⟩,
   ⟨up, 9, .errorRate, true, by simp only [Quiet]; decide +kernel⟩,
   ⟨{ up with mem := { up.mem with held := [(9, 1)] } }, 9, by decide +kernel⟩⟩

theorem witness_FaultRows :
    (∃ (s : State) (cluster : Nat) (core : Nat) (v : Nat), (Quiet s) ∧ (cluster < 64) ∧ (core < 68) ∧ (coreLive s (68 * cluster + core) = true) ∧
      (servedBy s (68 * cluster + core) = some v) ∧ (watchdogRuns s v = true) ∧ (8 * watchdogNs s ≤ tget s.cores.watch v 0)) ∧
    (∃ (s : State) (cluster : Nat) (core : Nat), (cluster < 64) ∧ (core < 68) ∧ (coreLive s (68 * cluster + core) = true) ∧ (rf s CF_CFG 0 8 = 0)) ∧
    (∃ (s : State) (cluster : Nat) (failed : List Nat), (cluster < 64) ∧ (Quiet s)) ∧
    (∃ (s : State) (k : Nat) (training : Bool), (k < stackCount s) ∧ (Quiet s)) ∧
    (∃ (s : State) (p : Nat), (p < ports s ∨ p = 4) ∧ (Quiet s)) ∧
    (∃ (s : State) (p : Nat), (p < ports s ∨ p = 4) ∧ (Quiet s)) ∧
    (∃ (s : State) (code : W32), (Quiet s) ∧ (twinState s ≠ 2)) :=
  ⟨⟨{ core th1 with cores := { (core th1).cores with watch := [(3, 8 * watchdogNs up)] } }, 0, 3, 3, by simp only [Quiet]; decide +kernel⟩,
   ⟨wf up CF_CFG 0 8 0, 2, 5, by decide +kernel⟩,
   ⟨up, 2, [3], by simp only [Quiet]; decide +kernel⟩,
   ⟨up, 1, true, by simp only [Quiet]; decide +kernel⟩,
   ⟨up, 1, by simp only [Quiet]; decide +kernel⟩,
   ⟨up, 4, by simp only [Quiet]; decide +kernel⟩,
   ⟨up, 0x22, by simp only [Quiet]; decide +kernel⟩⟩

theorem witness_RecoveryRows :
    (∃ (s : State) (p : Nat), (tfind s.faults.running 4 = some (p + 1)) ∧ (tget s.faults.queued 4 [] = [])) ∧
    (∃ (s : State), (tfind s.faults.running 5 = some 1)) ∧
    (∃ (s : State) (p : Nat), (tfind s.faults.running 4 = some (p + 1)) ∧ (tget s.faults.queued 4 [] = []) ∧
      (tget s.faults.since 4 0 + recoveryBound 4 ≤ mono s)) ∧
    (∃ (s : State), (tfind s.faults.running 5 = some 1) ∧ (tget s.faults.since 5 0 + recoveryBound 5 ≤ mono s)) ∧
    (∃ (s : State) (k : Nat), (tfind s.faults.running k = none)) ∧
    (∃ (s : State) (d : Dom), (d.1 = 5) ∧ ((tfind s.faults.running 5).isSome = true) ∧ (serving s = true) ∧ (devState s ≠ 7)) :=
  ⟨⟨recovering 4 2, 2, by decide +kernel⟩,
   ⟨recovering 5 0, by decide +kernel⟩,
   ⟨clocked (recovering 4 2) 90000000, 2, by decide +kernel⟩,
   ⟨clocked (recovering 5 0) 90000000, by decide +kernel⟩,
   ⟨up, 3, by decide +kernel⟩,
   ⟨recovering 5 0, (5, 0), by decide +kernel⟩⟩

theorem witness_WideReads :
    (∃ (s : State) (a : Accessor) (off : Nat) (r : RegRow), (Reach s a off) ∧ (RowAt off r false) ∧ (canonOff off = off) ∧ (off ≠ TIME_NOW_FRAC) ∧
      (r.wide = true)) ∧
    (∃ (s : State) (a : Accessor) (off : Nat) (r : RegRow), (Reach s a off) ∧ (RowAt off r false) ∧ (canonOff off = off) ∧ (off ≠ TIME_NOW_FRAC) ∧
      (r.wide = false)) ∧
    (∃ (s : State) (a : Accessor) (off : Nat) (r : RegRow) (v : W32), (Reach s a off) ∧ (RowAt off r true) ∧ (canonOff off = off) ∧
      (s.bar.latch.find? (fun l => decide (l.1 = a) && l.2.1 == off - 4) = some (a, off - 4, v))) ∧
    (∃ (s : State) (a : Accessor) (off : Nat) (r : RegRow), (Reach s a off) ∧ (RowAt off r true) ∧ (canonOff off = off) ∧ (s.bar.latch.find?
      (fun l => decide (l.1 = a) && l.2.1 == off - 4) = none)) ∧
    (∃ (s : State) (a : Accessor), (reaches s a = true) ∧ (answers s TIME_NOW_FRAC = true) ∧ (s.time.ns < 2 ^ 32)) :=
  ⟨⟨linked up, .host, GLOBAL_AQ_SQ_BASE, rowOf GLOBAL_AQ_SQ_BASE, by (refine ⟨by (unfold Reach; decide +kernel), ⟨0, 0, by rfl⟩, by decide +kernel⟩)⟩,
   ⟨linked up, .host, PWR_STATUS, rowOf PWR_STATUS, by (refine ⟨by (unfold Reach; decide +kernel), ⟨0, 0, by rfl⟩, by decide +kernel⟩)⟩,
   ⟨{ up with bar := { up.bar with latch := [(.headframe, GLOBAL_AQ_SQ_BASE, 9)] } }, .headframe, GLOBAL_AQ_SQ_BASE + 4, rowOf GLOBAL_AQ_SQ_BASE, 9, by (refine ⟨by (unfold Reach; decide +kernel), ⟨0, 0, by rfl⟩, by decide +kernel⟩)⟩,
   ⟨linked up, .host, GLOBAL_AQ_SQ_BASE + 4, rowOf GLOBAL_AQ_SQ_BASE, by (refine ⟨by (unfold Reach; decide +kernel), ⟨0, 0, by rfl⟩, by decide +kernel⟩)⟩,
   ⟨linked up, .host, by decide +kernel⟩⟩

theorem witness_RegisterWrites :
    (∃ (s : State) (a : Accessor) (w : W32), (a ≠ .sideband) ∧ (reaches s a = true) ∧ (devState s = 2)) ∧
    (∃ (s : State) (a : Accessor) (w : W32), (a ≠ .sideband) ∧ (reaches s a = true) ∧ (devState s = 2)) ∧
    (∃ (s : State) (a : Accessor) (off : Nat) (r : RegRow) (w : W32), (Reach s a off) ∧ (RowAt off r false) ∧ (canonOff off = off) ∧
      (r.wide = true) ∧ (r.rw ≠ 0)) ∧
    (∃ (s : State) (a : Accessor) (off : Nat) (r : RegRow) (w : W32) (lo : W32), (Reach s a off) ∧ (RowAt off r true) ∧ (canonOff off = off) ∧
      (r.wide = true) ∧ (r.rw ≠ 0) ∧ (tfind s.bar.pendLow (off - 4) = some lo)) ∧
    (∃ (s : State) (a : Accessor) (off : Nat) (be : BitVec 4) (w : W32), (a ≠ .sideband) ∧ (reaches s a = true) ∧ (be ≠ 0) ∧ (be ≠ 0xF ∨ off % 4 ≠ 0) ∧ (regExists
      (off / 4 * 4) = true) ∧ (answers s GLOBAL_ACCESS = true)) ∧
    (∃ (s : State) (a : Accessor) (off : Nat) (be : BitVec 4) (w : W32), (a ≠ .sideband) ∧ (reaches s a = true) ∧ (be ≠ 0) ∧ (be ≠ 0xF ∨ off % 4 ≠ 0) ∧ (regExists
      (off / 4 * 4) = true) ∧ (answers s GLOBAL_ACCESS = true)) ∧
    (∃ (s : State) (w : W32), (s.host.linkUp = false)) ∧
    (∃ (s : State) (a : Accessor) (w : W32), (reaches s a = true) ∧ (levelOpen s 0 = false)) ∧
    (∃ (s : State) (a : Accessor) (w : W32), (reaches s a = true) ∧ (levelOpen s 1 = false) ∧ (bit w 4 = true)) ∧
    (∃ (s : State) (a : Accessor), (a ≠ .sideband) ∧ (reaches s a = true) ∧ (levelOpen s 0 = false)) :=
  ⟨⟨linked up, .host, 0xFFFFF900, by decide +kernel⟩,
   ⟨linked (wr up PWR_STATUS 0xFFFFFFFF), .host, 0xFFFFFFFF, by decide +kernel⟩,
   ⟨linked up, .host, GLOBAL_AQ_SQ_BASE, rowOf GLOBAL_AQ_SQ_BASE, 5, by (refine ⟨by (unfold Reach; decide +kernel), ⟨0, 0, by rfl⟩, by decide +kernel⟩)⟩,
   ⟨{ linked up with bar := { up.bar with pendLow := [(GLOBAL_AQ_SQ_BASE, 0x12345678)] } }, .host, GLOBAL_AQ_SQ_BASE + 4, rowOf GLOBAL_AQ_SQ_BASE, 5, 0x12345678, by (refine ⟨by (unfold Reach; decide +kernel), ⟨0, 0, by rfl⟩, by decide +kernel⟩)⟩,
   ⟨linked up, .host, PWR_STATUS + 2, 1, 7, by decide +kernel⟩,
   ⟨linked up, .host, PWR_STATUS, 3, 7, by decide +kernel⟩,
   ⟨up, 7, by decide +kernel⟩,
   ⟨linked up, .host, 5, by decide +kernel⟩,
   ⟨linked up, .host, 0x10, by decide +kernel⟩,
   ⟨linked up, .host, by decide +kernel⟩⟩

theorem witness_CommandRegisters :
    (∃ (s : State) (a : Accessor) (w : W32), (reaches s a = true) ∧ (devState s = 2 ∨ devState s = 3) ∧ (levelOpen s 0 = true)) ∧
    (∃ (s : State) (a : Accessor) (w : W32) (x : BitVec 2048), (reaches s a = true) ∧ (devState s = 2 ∨ devState s = 3) ∧
      (s.flash.history.reverse[fld w 0 12]? = some x)) ∧
    (∃ (s : State) (a : Accessor), (reaches s a = true) ∧ (devState s = 2 ∨ devState s = 3) ∧ (levelOpen s 0 = true)) ∧
    (∃ (s : State) (a : Accessor) (w : W32), (reaches s a = true) ∧ (devState s = 2 ∨ devState s = 3) ∧ (levelOpen s 1 = true) ∧ (bit w 4 = true) ∧
      (rf s TRACE_INJ_CTRL 5 1 = 0) ∧ (targetOk s (fld w 0 4) (rd64 s TRACE_INJ_TARGET) = true)) ∧
    (∃ (s : State) (a : Accessor) (w : W32), (reaches s a = true) ∧ (devState s = 2 ∨ devState s = 3) ∧ (bit w 8 = true) ∧ (rf s PWR_STATUS 5 1 = 0)) ∧
    (∃ (s : State), (rf s TRACE_INJ_CTRL 5 1 = 1) ∧ (s.trace.armKind = 3)) ∧
    (∃ (s : State), (rf s TRACE_INJ_CTRL 5 1 = 0)) :=
  ⟨⟨open_ { up with sems := [(5, { (getSem up 5) with value := 77, saturated := true, waiters := [(tid, 99)], tag := 8, time := 6 })] }, .host, 5, by decide +kernel⟩,
   ⟨{ linked up with flash := { up.flash with history := [8, 9] } }, .host, 1, 8, by decide +kernel⟩,
   ⟨open_ (wf up TRACE_CTRL 0 1 1), .host, by decide +kernel⟩,
   ⟨wr64 (open_ (core th1)) TRACE_INJ_TARGET 3, .host, 0x13, by decide +kernel⟩,
   ⟨linked up, .host, 0x100, by decide +kernel⟩,
   ⟨{ wf up TRACE_INJ_CTRL 5 1 1 with trace := { up.trace with armKind := 3, armTarget := 0x20003 } }, by decide +kernel⟩,
   ⟨up, by decide +kernel⟩⟩

theorem witness_HostAccesses :
    (∃ (s : State) (h : HostAcc), (s.host.linkUp = true) ∧ (serving s = true) ∧ (h.write = false) ∧ (h.addr + h.n ≤ memBytes s) ∧
      (touchesReserve s h.addr h.n = false) ∧ (hostHeld s h = false)) ∧
    (∃ (s : State) (h : HostAcc), (s.host.linkUp = true) ∧ (serving s = true) ∧ (h.write = true) ∧ (h.addr + h.bytes.length ≤ memBytes s) ∧
      (touchesReserve s h.addr h.bytes.length = false) ∧ (hostHeld s h = false)) ∧
    (∃ (s : State) (h : HostAcc), (s.host.linkUp = true) ∧ (serving s = true) ∧ (h.write = false) ∧ (h.addr + h.n ≤ memBytes s) ∧
      (touchesReserve s h.addr h.n = true)) ∧
    (∃ (s : State) (h : HostAcc), (s.host.linkUp = true) ∧ (serving s = true) ∧ (h.write = true) ∧ (h.addr + h.bytes.length ≤ 2048) ∧
      (aptOn s = true)) ∧
    (∃ (s : State) (h : HostAcc), (hostHeld s h = true)) ∧
    (∃ (s : State) (h : HostAcc) (q : Nat) (b0 b1 b2 b3 : Byte), (s.host.linkUp = true) ∧ (q < 256) ∧ (h.write = true) ∧ (h.bytes = [b0, b1, b2, b3]) ∧
      (h.addr = 4096 * q)) ∧
    (∃ (s : State) (h : HostAcc) (q : Nat) (b0 b1 b2 b3 : Byte), (s.host.linkUp = true) ∧ (q < 256) ∧ (h.write = true) ∧ (h.bytes = [b0, b1, b2, b3]) ∧
      (h.addr = 4096 * q + 4)) ∧
    (∃ (s : State) (h : HostAcc) (q : Nat), (s.host.linkUp = true) ∧ (q < 256) ∧ (h.write = false) ∧ (h.n = 4) ∧ ((getQp s q).defined = true) ∧
      (h.addr = 4096 * q)) ∧
    (∃ (s : State) (h : HostAcc) (q : Nat), (s.host.linkUp = true) ∧ (q < 256) ∧ (h.write = false) ∧ (h.n = 4) ∧ ((getQp s q).defined = true) ∧
      (h.addr = 4096 * q + 4)) ∧
    (∃ (s : State) (h : HostAcc), (s.host.linkUp = true) ∧ (h.write = false)) ∧
    (∃ (s : State) (h : HostAcc), (s.host.linkUp = true) ∧ (h.write = true)) ∧
    (∃ (s : State), (s.host.linkUp = false)) :=
  ⟨⟨linked up, hostAcc false 0x1000 8 [], by decide +kernel⟩,
   ⟨linked up, hostAcc true 0x1000 0 [1, 2, 3], by decide +kernel⟩,
   ⟨linked up, hostAcc false (memBytes up - 64) 8 [], by decide +kernel⟩,
   ⟨wf (linked up) (STK_APT_CTRL 0) 0 1 1, hostAcc true 5 0 [1, 2, 3], by decide +kernel⟩,
   ⟨{ linked up with mem := { up.mem with held := (List.range 384).map (fun pc => (pc, 1)) } }, hostAcc false 0x1000 8 [], by decide +kernel⟩,
   ⟨queued, hostAcc true 0x3000 0 [6, 0, 0, 0], 3, 6, 0, 0, 0, by decide +kernel⟩,
   ⟨queued, hostAcc true 0x3004 0 [5, 0, 0, 0], 3, 5, 0, 0, 0, by decide +kernel⟩,
   ⟨queued, hostAcc false 0x3000 4 [], 3, by decide +kernel⟩,
   ⟨queued, hostAcc false 0x3004 4 [], 3, by decide +kernel⟩,
   ⟨linked up, hostAcc false 4 4 [], by decide +kernel⟩,
   ⟨linked up, hostAcc true 4 4 [1, 2, 3, 4], by decide +kernel⟩,
   ⟨up, by decide +kernel⟩⟩

theorem witness_QueueRows :
    (∃ (s : State) (q : Nat) (w : W32), ((getQp s q).defined = false) ∧ (devState s = 1)) ∧
    (∃ (s : State) (w : W32) (n : Nat), (rf s GLOBAL_AQ_CFG 8 1 = 0) ∧ ((getQp s 0).defined = false) ∧ (n = max 4 (min 16 (fld w 0 5))) ∧
      ((getQp s 0).sqTail < 2 ^ n) ∧ ((getQp s 0).cqHead = 0) ∧ (bit w 8 = true) ∧ (devState s = 2)) ∧
    (∃ (s : State) (w : W32), (rf s GLOBAL_AQ_CFG 8 1 = 0) ∧ (bit w 8 = true) ∧ (devState s = 2) ∧ ((getQp s 0).defined = true ∨ ((getQp s 0).sqTail = 0 ∧ (getQp s 0).cqHead = 0))) ∧
    (∃ (s : State) (w : W32), (rf s GLOBAL_AQ_CFG 8 1 = 1) ∧ (bit w 8 = false)) ∧
    (∃ (s : State), (rf s GLOBAL_AQ_CFG 8 1 = 0) ∧ ((getQp s 0).defined = true) ∧ ((∀ c ∈ s.host.cmds, c.queue ≠ 0))) ∧
    (∃ (s : State) (q : Nat) (w : W32) (k : Nat), ((getQp s q).defined = true) ∧ ((getQp s q).error = false) ∧ (fld w 0 16 < 2 ^ (getQp s q).log2) ∧
      (k < 2 ^ (getQp s q).log2) ∧ (((getQp s q).sqTail + k) % 2 ^ (getQp s q).log2 = fld w 0 16) ∧ ((getQp s q).sqTail -
      (getQp s q).sqHead + k ≤ 2 ^ (getQp s q).log2)) ∧
    (∃ (s : State) (q : Nat) (w : W32), ((getQp s q).defined = true) ∧ ((getQp s q).error = false) ∧ (2 ^ (getQp s q).log2 ≤ fld w 0 16)) ∧
    (∃ (s : State) (q : Nat) (w : W32) (k : Nat), ((getQp s q).defined = true) ∧ ((getQp s q).error = false) ∧ (fld w 0 16 < 2 ^ (getQp s q).log2) ∧
      (0 < k) ∧ (k ≤ (getQp s q).cqTail - (getQp s q).cqHead) ∧ (k < 2 ^ (getQp s q).log2) ∧ (((getQp s q).cqHead + k) % 2 ^
      (getQp s q).log2 = fld w 0 16)) :=
  ⟨⟨wf up GLOBAL_STATE 0 4 1, 3, 5, by decide +kernel⟩,
   ⟨modQp up 0 (fun x => { x with sqTail := 5 }), 0x106, 6, by decide +kernel⟩,
   ⟨wr64 up GLOBAL_AQ_SQ_BASE 0x123456, 0x106, by decide +kernel⟩,
   ⟨wf (wf queued GLOBAL_AQ_CFG 8 1 1) GLOBAL_AQ_CFG 0 5 6, 0x6, by decide +kernel⟩,
   ⟨{ up with host := { up.host with qps := [(0, adminQ)] } }, by decide +kernel⟩,
   ⟨queued, 3, 6, 3, by decide +kernel⟩,
   ⟨queued, 3, 16, by decide +kernel⟩,
   ⟨queued, 3, 5, 2, by decide +kernel⟩⟩

def remote0 : RemoteCmd := { src := 7, cls := 0, psn := 4, pkt := pack 512 [(32, 32, 5)] }

theorem witness_CommandFetched :
    (∃ (s : State) (q : Nat) (bs : List Byte), (q < 256) ∧ ((getQp s q).defined = true) ∧ ((getQp s q).error = false) ∧ ((getQp s q).deleting = none) ∧
      ((getQp s q).waitSem = none) ∧ ((getQp s q).sqHead < (getQp s q).sqTail) ∧ ((getQp s q).cqTail - (getQp s q).cqHead +
      (getQp s q).reserved < 2 ^ (getQp s q).log2) ∧ ((q = 0 → rf s GLOBAL_AQ_CFG 8 1 = 1)) ∧ (stalled s q = false) ∧ (fetching s = true) ∧
      ((∀ c ∈ s.host.cmds, c.queue ≠ q)) ∧ (hostRead s ((getQp s q).sqBase.toNat + 64 * ((getQp s q).sqHead % 2 ^ (getQp s q).log2)) 64 =
      (stOk, bs)) ∧ (opAssigned (pkOp (lineOf bs)) = true) ∧ (pkExtended (lineOf bs) = false)) ∧
    (∃ (s : State) (q : Nat) (r : RemoteCmd), (256 ≤ q) ∧ (fetching s = true) ∧ (s.host.remote.find? (fun r => r.queue % 16 == q % 16 && remoteReady s r) = some r) ∧
      (r.queue = q) ∧ (pkExtended r.pkt = false) ∧ (badOpcode r.pkt = false) ∧ (remoteAdmitted s (pkPart r.pkt) r.src = true)) ∧
    (∃ (s : State) (q : Nat) (r : RemoteCmd), (256 ≤ q) ∧ (fetching s = true) ∧ (s.host.remote.find? (fun r => r.queue % 16 == q % 16 && remoteReady s r) = some r) ∧
      (r.queue = q) ∧ (pkExtended r.pkt = false) ∧ (badOpcode r.pkt = false) ∧ (remoteAdmitted s (pkPart r.pkt) r.src = false)) ∧
    (∃ (s : State) (q : Nat), (256 ≤ q) ∧ (s.host.remote.find? (fun r => r.queue % 16 == q % 16 && remoteReady s r) = none)) :=
  ⟨⟨{ queued with host := { queued.host with mem := [(0x80000010081, 1)] } }, 3, 0 :: 1 :: List.replicate 62 0, by decide +kernel⟩,
   ⟨{ parted up with parts := [(0, { Part.zero with remoteCmd := 2 })], host := { up.host with remote := [remote0] } }, remote0.queue, remote0, by decide +kernel⟩,
   ⟨{ parted up with parts := [(0, { Part.zero with remoteCmd := 1 })], host := { up.host with remote := [remote0] } }, remote0.queue, remote0, by decide +kernel⟩,
   ⟨up, 256, by decide +kernel⟩⟩

theorem witness_StatusPosted :
    ∃ (s : State) (c : Cmd) (st : W16) (detail : Nat) (result : Nat), (c.src = none) ∧ (st ≠ 0x03FF) ∧ (s.host.linkUp = true) ∧ (Settled s) :=
  ⟨holds up cNop, cNop, 0, 3, 9, by (simp only [Settled]; exact ⟨by decide +kernel, by decide +kernel, by decide +kernel, fun q => (by simp only [getQp]; exact (by by_cases h : q = 0 <;> first | (subst h; rfl) | (simp [tget, tfind, holds, h]; rfl))), by decide +kernel⟩)⟩

theorem witness_ChecksInOrder :
    (∃ (p : Package) (r : Nat × (Nat → Instr)) (s : State) (id : Nat) (c : Cmd), (Admitted s id r.1 c) ∧ (fld c.pkt 19 5 ≠ 0)) ∧
    (∃ (p : Package) (r : Nat × (Nat → Instr)) (s : State) (id : Nat) (c : Cmd), (Admitted s id r.1 c) ∧ (fld c.pkt 18 6 = 0) ∧
      ((opAdmin r.1 = true ∧ cmdAdmin s c = false) ∨ cmdForeign s c = true)) ∧
    (∃ (p : Package) (r : Nat × (Nat → Instr)) (s : State) (id : Nat) (c : Cmd), (r.1 ∈ plainOps) ∧ (Admitted s id r.1 c) ∧ (fld c.pkt 18 6 = 0) ∧
      ((opAdmin r.1 = true → cmdAdmin s c = true)) ∧ (cmdForeign s c = false) ∧ ((pkTag c.pkt = 0 ∨ (bit c.pkt 17 = true ∧ fld c.pkt 96 32 < 64) ∨
      (bit c.pkt 17 = false ∧ fld c.pkt 96 32 ≠ 0) ∨ 255 < fld c.pkt 64 32 ∨ c.extStatus = 0x0101))) ∧
    (∃ (p : Package) (r : Nat × (Nat → Instr)) (s : State) (id : Nat) (c : Cmd), (r.1 ∈ plainOps) ∧ (opBlock r.1 = 0) ∧ (Admitted s id r.1 c) ∧
      (fld c.pkt 17 7 = 0) ∧ ((opAdmin r.1 = true → cmdAdmin s c = true)) ∧ (cmdForeign s c = false) ∧ (pkTag c.pkt ≠ 0) ∧ (fld c.pkt 96 32 = 0) ∧
      (fld c.pkt 64 32 ≤ 255) ∧ (c.extStatus ≠ 0x0101) ∧ (partitions s ≤ fld c.pkt 24 8)) :=
  ⟨⟨pkg0, (0x0104, Instr.semWait), holds up (cmd 0x0104 [(20, 1, 1)]), 5, cmd 0x0104 [(20, 1, 1)], by simp only [Admitted, begun, taken]; decide +kernel⟩,
   ⟨pkg0, (0x0005, Instr.partitionDefine), admin (holds up (cmd 0x0005 [])) { adminQ with admin := false }, 5, cmd 0x0005 [], by simp only [Admitted, begun, taken]; decide +kernel⟩,
   ⟨pkg0, (0x0104, Instr.semWait), holds up (cmd 0x0104 [(17, 1, 1), (96, 32, 5)]), 5, cmd 0x0104 [(17, 1, 1), (96, 32, 5)], by simp only [Admitted, begun, taken]; decide +kernel⟩,
   ⟨pkg0, (0x0104, Instr.semWait), holds up (cmd 0x0104 [(24, 8, 16)]), 5, cmd 0x0104 [(24, 8, 16)], by simp only [Admitted, begun, taken]; decide +kernel⟩⟩

theorem witness_QueueCommandRows :
    (∃ (s : State) (id : Nat) (c : Cmd), (Admitted s id 0x0000 c) ∧ (Plain (begun s id) (taken s c)) ∧ ((fun _ _ => True) s c)) ∧
    (∃ (s : State) (id : Nat) (c : Cmd), (Admitted s id 0x0001 c) ∧ (Plain (begun s id) (taken s c)) ∧ ((fun s c => Buffer s c 24 64) s c)) ∧
    (∃ (s : State) (id : Nat) (c : Cmd), (Admitted s id 0x0002 c) ∧ (Plain (begun s id) (taken s c)) ∧
      ((fun s c => fld c.pkt 146 6 = 0 ∧ pk c.pkt 16 1 ≠ 0 ∧ 4 ≤ pk c.pkt 17 1 ∧ pk c.pkt 17 1 ≤ 16 ∧ pk c.pkt 20 2 ≤ 511 ∧ pk c.pkt 40 4 ≤ 255 ∧ pk c.pkt 24 8 % 4096 = 0 ∧ pk c.pkt 32 8 % 4096 = 0 ∧
      (getQp s (pk c.pkt 16 1)).defined = false ∧ (getQp s (pk c.pkt 16 1)).deleting = none ∧ rf s (PART_STATUS (pkPart c.pkt)) 0 1 = 1 ∧ ∀ d ∈ s.host.cmds, d.id ≠ c.id →
      d.begun = true → pkOp d.pkt = 0x0002 → pk d.pkt 16 1 ≠ pk c.pkt 16 1) s c)) ∧
    (∃ (s : State) (id : Nat) (c : Cmd), (Admitted s id 0x0002 c) ∧ (Plain (begun s id) (taken s c)) ∧
      ((fun s c => fld c.pkt 146 6 = 0 ∧ pk c.pkt 16 1 ≠ 0 ∧ 4 ≤ pk c.pkt 17 1 ∧ pk c.pkt 17 1 ≤ 16 ∧ pk c.pkt 20 2 ≤ 511 ∧ pk c.pkt 40 4 ≤ 255 ∧ pk c.pkt 24 8 % 4096 = 0 ∧ pk c.pkt 32 8 % 4096 = 0 ∧
      (getQp s (pk c.pkt 16 1)).defined = true ∧ (getQp s (pk c.pkt 16 1)).deleting = none) s c)) ∧
    (∃ (s : State) (id : Nat) (c : Cmd), (Admitted s id 0x0003 c) ∧ (Plain (begun s id) (taken s c)) ∧
      ((fun s c => pk c.pkt 16 1 ≠ 0 ∧ pk c.pkt 16 1 ≠ c.queue ∧ (getQp s (pk c.pkt 16 1)).defined = true ∧ (getQp s
      (pk c.pkt 16 1)).deleting = none ∧ ∀ d ∈ s.host.cmds, d.queue ≠ pk c.pkt 16 1) s c)) ∧
    (∃ (s : State) (id : Nat) (c : Cmd), (Admitted s id 0x0003 c) ∧ (Plain (begun s id) (taken s c)) ∧
      ((fun s c => pk c.pkt 16 1 ≠ 0 ∧ pk c.pkt 16 1 ≠ c.queue ∧ (getQp s (pk c.pkt 16 1)).defined = true ∧ (getQp s
      (pk c.pkt 16 1)).deleting = none ∧ ∃ d ∈ s.host.cmds, d.queue = pk c.pkt 16 1) s c)) ∧
    (∃ (s : State) (id : Nat) (c : Cmd), (Admitted s id 0x0003 c) ∧ (Plain (begun s id) (taken s c)) ∧
      ((fun s c => pk c.pkt 16 1 ≠ 0 ∧ pk c.pkt 16 1 ≠ c.queue ∧ ((getQp s (pk c.pkt 16 1)).defined = false ∨ (getQp s (pk c.pkt 16 1)).deleting ≠ none)) s c)) ∧
    (∃ (s : State) (id : Nat) (c : Cmd), (Admitted s id 0x0004 c) ∧ (Plain (begun s id) (taken s c)) ∧ ((fun s c => (getQp s
      (pk c.pkt 16 1)).waitSem = none) s c)) ∧
    (∃ (s : State) (id : Nat) (c : Cmd) (w : Nat) (d : Cmd), (Admitted s id 0x0004 c) ∧ (Plain (begun s id) (taken s c)) ∧ ((getQp s
      (pk c.pkt 16 1)).waitSem = some w) ∧ (getCmd s w = some d) ∧ ((getQp s (pk c.pkt 16 1)).defined = true) ∧ ((getQp s
      (pk c.pkt 16 1)).error = false)) ∧
    (∃ (s : State) (id : Nat) (c : Cmd), (Admitted s id 0x0103 c) ∧ (Plain (begun s id) (taken s c)) ∧ ((fun _ _ => True) s c)) ∧
    (∃ (s : State) (id : Nat) (c : Cmd), (Admitted s id 0x0104 c) ∧ (Plain (begun s id) (taken s c)) ∧ ((fun s c => Settled s ∧ (getSem s
      (pk c.pkt 16 2)).waiters = [] ∧ (addrAt c 24).toNat ≤ (getSem s (pk c.pkt 16 2)).value.toNat) s c)) ∧
    (∃ (s : State) (id : Nat) (c : Cmd), (Admitted s id 0x0104 c) ∧ (Plain (begun s id) (taken s c)) ∧ ((fun s c => (getSem s
      (pk c.pkt 16 2)).waiters ≠ [] ∨ (getSem s (pk c.pkt 16 2)).value.toNat < (addrAt c 24).toNat) s c)) ∧
    (∃ (s : State) (id : Nat) (c : Cmd), (Admitted s id 0x0105 c) ∧ (Plain (begun s id) (taken s c)) ∧ ((fun s c => (getSem s
      (pk c.pkt 16 2)).waiters = []) s c)) ∧
    (∃ (s : State) (id : Nat) (c : Cmd), (Admitted s id 0x0105 c) ∧ (Plain (begun s id) (taken s c)) ∧ ((fun s c => (getSem s
      (pk c.pkt 16 2)).waiters ≠ []) s c)) ∧
    (∃ (s : State) (id : Nat) (c : Cmd), (Admitted s id 0x0106 c) ∧ (Plain (begun s id) (taken s c)) ∧ ((fun _ _ => True) s c)) ∧
    (∃ (s : State) (id : Nat) (c : Cmd), (getCmd s id = some c) ∧ (c.begun = true) ∧ (pkOp c.pkt = 0x0104) ∧ ((getQp s c.queue).yields = false) ∧
      ((getSem s (pk c.pkt 16 2)).waiters = []) ∧ ((addrAt c 24).toNat ≤ (getSem s (pk c.pkt 16 2)).value.toNat)) ∧
    (∃ (s : State) (id : Nat) (q : Nat) (c : Cmd), ((getQp s q).waitSem = some id) ∧ (getCmd s id = some c) ∧ (c.begun = true) ∧
      (pkOp c.pkt = 0x0104) ∧ ((getQp s q).yields = true) ∧ ((getSem s (pk c.pkt 16 2)).waiters = []) ∧ ((addrAt c 24).toNat ≤ (getSem s
      (pk c.pkt 16 2)).value.toNat)) ∧
    (∃ (s : State) (id : Nat) (c : Cmd), (getCmd s id = some c) ∧ (c.begun = true) ∧ (pkOp c.pkt = 0x0104) ∧ (c.at_ + 1000 *
      (if pk c.pkt 20 4 = 0 then 1000000 else pk c.pkt 20 4) ≤ mono s)) ∧
    (∃ (s : State) (id : Nat) (c : Cmd), (Admitted s id 0x0900 c) ∧ (Plain (begun s id) (taken s c)) ∧ ((fun s c => Buffer s c 24 64 ∧
      (cmdAdmin s c = true ∨ pk c.pkt 16 1 = if c.queue < 256 then (getQp s c.queue).client else pkClient c.pkt)) s c)) ∧
    (∃ (s : State) (id : Nat) (c : Cmd), (Admitted s id 0x0901 c) ∧ (Plain (begun s id) (taken s c)) ∧
      ((fun s c => fld c.pkt 176 16 = 0 ∧ 1 ≤ pk c.pkt 20 2 ∧ pk c.pkt 20 2 ≤ 8192 ∧
      (rd64 s ERRLOG_COUNT).toNat < 2 ^ 32 ∧ 1 ≤ pk c.pkt 16 4 ∧ pk c.pkt 16 4 ≤ (rd64 s ERRLOG_COUNT).toNat ∧
      (rd64 s ERRLOG_COUNT).toNat < pk c.pkt 16 4 + 8192 ∧ Buffer s c 24 (64 * min (pk c.pkt 20 2)
      ((rd64 s ERRLOG_COUNT).toNat + 1 - pk c.pkt 16 4))) s c)) ∧
    (∃ (s : State) (id : Nat) (c : Cmd), (Admitted s id 0x0901 c) ∧ (Plain (begun s id) (taken s c)) ∧
      ((fun s c => fld c.pkt 176 16 = 0x8000 ∧ 1 ≤ pk c.pkt 20 2 ∧ pk c.pkt 20 2 ≤ 8192 ∧ pk c.pkt 16 4 < s.flash.log.length ∧ Buffer s c 24
      (64 * min (pk c.pkt 20 2) (s.flash.log.length - pk c.pkt 16 4))) s c)) :=
  ⟨⟨holds up cNop, 5, cNop, by simp only [Admitted, Plain, begun, taken]; decide +kernel⟩,
   ⟨holds up cId, 5, cId, by simp only [Admitted, Buffer, Plain, begun, taken]; decide +kernel⟩,
   ⟨holds (wf up (PART_STATUS 0) 0 1 1) cQc, 5, cQc, by simp only [Admitted, Plain, begun, taken]; decide +kernel⟩,
   ⟨withQ (holds up cQc) q3, 5, cQc, by simp only [Admitted, Plain, begun, taken]; decide +kernel⟩,
   ⟨withQ (holds up cQd) q3, 5, cQd, by simp only [Admitted, Plain, begun, taken]; decide +kernel⟩,
   ⟨{ withQ (holds up cQd) q3 with host := { (withQ (holds up cQd) q3).host with cmds := [cQd, { going cNop with id := 4, queue := 3 }] } }, 5, cQd, by simp only [Admitted, Plain, begun, taken]; decide +kernel⟩,
   ⟨withQ (holds up cQd) { q3 with deleting := some 4 }, 5, cQd, by simp only [Admitted, Plain, begun, taken]; decide +kernel⟩,
   ⟨withQ (holds up cQs) q3, 5, cQs, by simp only [Admitted, Plain, begun, taken]; decide +kernel⟩,
   ⟨{ withQ (holds up cQs) { q3 with waitSem := some 4 } with host := { (withQ (holds up cQd) { q3 with waitSem := some 4 }).host with cmds := [cQs, { going cSw with id := 4, queue := 3 }] } }, 5, cQs, 4, { going cSw with id := 4, queue := 3 }, by simp only [Admitted, Plain, begun, taken]; decide +kernel⟩,
   ⟨holds up cSig, 5, cSig, by simp only [Admitted, Plain, begun, taken]; decide +kernel⟩,
   ⟨sem4 (holds up cSw) 8 [], 5, cSw, by (simp only [Admitted, Plain, Settled]; exact ⟨by decide +kernel, by decide +kernel, ⟨fun q => (by simp only [getQp]; exact (by by_cases h : q = 0 <;> first | (subst h; rfl) | (simp [tget, tfind, holds, sem4, setSem, h]; rfl))), by decide +kernel⟩, by decide +kernel⟩)⟩,
   ⟨sem4 (holds up cSw) 5 [], 5, cSw, by simp only [Admitted, Plain, begun, taken]; decide +kernel⟩,
   ⟨sem4 (holds up cSwr) 5 [], 5, cSwr, by simp only [Admitted, Plain, begun, taken]; decide +kernel⟩,
   ⟨sem4 (holds up cSwr) 5 [(tid, 9)], 5, cSwr, by simp only [Admitted, Plain, begun, taken]; decide +kernel⟩,
   ⟨sem4 (holds up cSr) 5 [], 5, cSr, by simp only [Admitted, Plain, begun, taken]; decide +kernel⟩,
   ⟨sem4 (holds up (going cSw)) 8 [], 5, going cSw, by decide +kernel⟩,
   ⟨sem4 (admin (holds up (going cSw)) { adminQ with yields := true, waitSem := some 5 }) 8 [], 5, 0, going cSw, by decide +kernel⟩,
   ⟨clocked (holds up (going cSw)) 5000, 5, going cSw, by decide +kernel⟩,
   ⟨holds up (cmd 0x0900 [(128, 8, 3), (192, 64, 0x1000)]), 5, cmd 0x0900 [(128, 8, 3), (192, 64, 0x1000)], by simp only [Admitted, Buffer, Plain, begun, taken]; decide +kernel⟩,
   ⟨logErr (holds up (cmd 0x0901 [(128, 32, 1), (160, 16, 4), (192, 64, 0x1000)])) { cls := 0x40, loc := 5, detail := 6 }, 5, cmd 0x0901 [(128, 32, 1), (160, 16, 4), (192, 64, 0x1000)], by simp only [Admitted, Buffer, Plain, begun, taken]; decide +kernel⟩,
   ⟨{ holds up (cmd 0x0901 [(128, 32, 1), (160, 16, 4), (191, 1, 1), (192, 64, 0x1000)]) with flash := { up.flash with log := [7, 8, 9] } }, 5, cmd 0x0901 [(128, 32, 1), (160, 16, 4), (191, 1, 1), (192, 64, 0x1000)], by simp only [Admitted, Buffer, Plain, begun, taken]; decide +kernel⟩⟩

theorem witness_PartitionRows :
    (∃ (s : State) (id : Nat) (c : Cmd), (Admitted s id 0x0005 c) ∧ (Plain (begun s id) (taken s c)) ∧ ((fun s c => c.extStatus = 0 ∧ blockBad s
      (BitVec.ofNat 1024 (leNat (c.ext.take 128))) = false ∧ pbClusters (BitVec.ofNat 1024 (leNat (c.ext.take 128))) ≠ 0 ∧ pbBase (BitVec.ofNat 1024
      (leNat (c.ext.take 128))) + pbCount s (BitVec.ofNat 1024 (leNat (c.ext.take 128))) ≤ gradeCores s ∧ pbStep (BitVec.ofNat 1024 (leNat
      (c.ext.take 128))) ≤ pbCount s (BitVec.ofNat 1024 (leNat (c.ext.take 128))) ∧ (pbSlots (BitVec.ofNat 1024 (leNat
      (c.ext.take 128))) = 0 ∨ pbStep (BitVec.ofNat 1024 (leNat (c.ext.take 128))) ≠ 0) ∧ saveBad s (BitVec.ofNat 1024 (leNat
      (c.ext.take 128))) = false ∧ (pbRemote (BitVec.ofNat 1024 (leNat (c.ext.take 128))) = 1 → ∃ i, i < 8 ∧ pbNode (BitVec.ofNat 1024 (leNat
      (c.ext.take 128))) i ≠ 0xFFFF) ∧ (∀ q, q < 16 → q ≠ pkPart c.pkt → partDefined s q = true → blocksMeet s (BitVec.ofNat 1024 (leNat
      (c.ext.take 128))) (projBlock s q) = false) ∧ redefineRefused s (pkPart c.pkt) (BitVec.ofNat 1024 (leNat
      (c.ext.take 128))) = false ∧ sumsOver s (pkPart c.pkt) (BitVec.ofNat 1024 (leNat (c.ext.take 128))) = false ∧ (partDefined s
      (pkPart c.pkt) = false ∨ holdsSlot s (pkPart c.pkt) = false)) s c)) ∧
    (∃ (s : State) (p : Nat) (b : PBlk), (p < 16)) ∧
    (∃ (s : State) (id : Nat) (c : Cmd), (Admitted s id 0x0006 c) ∧ (Plain (begun s id) (taken s c)) ∧ ((fun s c => pkPart c.pkt ≠ 0 ∧ partDefined s
      (pkPart c.pkt) = true ∧ partBusy s (pkPart c.pkt) c.queue = false) s c)) ∧
    (∃ (s : State) (id : Nat) (c : Cmd), (Admitted s id 0x0006 c) ∧ (Plain (begun s id) (taken s c)) ∧ ((fun _ c => pkPart c.pkt = 0) s c)) ∧
    (∃ (s : State) (part : Nat), (part < 16) ∧ (holdsSlot s part = true) ∧ (saveArea s part ≠ 0) ∧ (serving s = true) ∧ (displaced s part ≠ [])) ∧
    (∃ (s : State) (part x : Nat), (part < 16) ∧ (derived s (PART_STATUS part) = some x)) ∧
    (∃ (s : State) (part : Nat), (holdsSlot s part = true) ∧ (saveArea s part ≠ 0) ∧ (serving s = true) ∧ (displaced s part = [])) ∧
    (∃ (s : State) (part : Nat) (x : Part), (part < 16) ∧ (tfind s.parts part = some x) ∧ (x.lastStep + 1000 * rf s
      (PART_STEP_IDLE part) 0 16 ≤ mono s) ∧ (tfind s.se.steps part = none)) :=
  ⟨⟨holds up cPd, 5, cPd, by simp only [Admitted, Plain, begun, taken]; decide +kernel⟩,
   ⟨up, 0, pblk, by decide +kernel⟩,
   ⟨applyBlock (holds up (cmd 0x0006 [(24, 8, 3)])) 3 pblk, 5, cmd 0x0006 [(24, 8, 3)], by simp only [Admitted, Plain, begun, taken]; decide +kernel⟩,
   ⟨holds up (cmd 0x0006 []), 5, cmd 0x0006 [], by simp only [Admitted, Plain, begun, taken]; decide +kernel⟩,
   ⟨stepping, 0, by decide +kernel⟩,
   ⟨up, 0, (derived up (PART_STATUS 0)).getD 0, by decide +kernel⟩,
   ⟨withJobs stepping [], 0, by decide +kernel⟩,
   ⟨{ clocked (core th1) 500 with parts := [(0, Part.zero)] }, 0, Part.zero, by decide +kernel⟩⟩

theorem witness_MemoryCommandRows :
    (∃ (s : State) (id : Nat) (c : Cmd), (Admitted s id 0x0100 c) ∧ (Plain (begun s id) (taken s c)) ∧
      ((fun s c => askedWell c ∧ pk c.pkt 32 4 = 0xFFFFFFFF ∧ askedRows s c ≤ 24568 ∧ freeRuns s (askedRows s c) ≠ []) s c)) ∧
    (∃ (s : State) (id : Nat) (c : Cmd), (Admitted s id 0x0100 c) ∧ (Plain (begun s id) (taken s c)) ∧
      ((fun s c => askedWell c ∧ pk c.pkt 32 4 ≠ 0xFFFFFFFF ∧ askedRows s c ≤ 24568 ∧ regionAt s (pk c.pkt 32 4) = none ∧ pk c.pkt 32 4 ∈ freeRuns s
      (askedRows s c)) s c)) ∧
    (∃ (s : State) (id : Nat) (c : Cmd), (Admitted s id 0x0100 c) ∧ (Plain (begun s id) (taken s c)) ∧
      ((fun s c => askedWell c ∧ pk c.pkt 32 4 ≠ 0xFFFFFFFF ∧ (regionAt s (pk c.pkt 32 4)).isSome = true) s c)) ∧
    (∃ (s : State) (n : Nat) (f : Nat) (i : Nat), (f ∈ freeRuns s n) ∧ (i < n)) ∧
    (∃ (s : State) (id : Nat) (c : Cmd), (Admitted s id 0x0101 c) ∧ (Plain (begun s id) (taken s c)) ∧ ((fun s c => ∃ r, s.mem.regions.find?
      (fun r => r.first == pk c.pkt 16 4) = some r ∧ modelUses s.se.models (pk c.pkt 16 4) r.count = false ∧ (∀ d ∈ s.host.cmds, d.id ≠ c.id →
      d.begun = true → pkOp d.pkt = 0x0101 → pk d.pkt 16 4 ≠ pk c.pkt 16 4) ∧ poolUses s
      (pk c.pkt 16 4) r.count = false ∧ progUses s (pk c.pkt 16 4) r.count = false) s c)) ∧
    (∃ (s : State) (id : Nat) (c : Cmd), (Admitted s id 0x0101 c) ∧ (Plain (begun s id) (taken s c)) ∧
      ((fun s c => ∀ r ∈ s.mem.regions, r.first ≠ pk c.pkt 16 4) s c)) ∧
    (∃ (s : State) (id : Nat) (c : Cmd) (bs : List Byte) (u : State), (Admitted s id 0x0102 c) ∧ (Plain (begun s id) (taken s c)) ∧ (isLocalNode s
      (nodeOf (addrAt c 24)) = true) ∧ (localRange s (offOf (addrAt c 24)) 64 = .device) ∧ (touchesReserve s (offOf (addrAt c 24)) 64 = false) ∧
      (partDefined s (pkPart c.pkt) = true) ∧ ((s.hoists.queue.filter (fun m => m.hoist / 4 == memMoveHoist s (pkPart c.pkt) / 4)).length < 64) ∧
      (structRead (begun s id) (taken s c) (addrAt c 24) 64 = (stOk, bs, u))) ∧
    (∃ (s : State) (id : Nat) (c : Cmd), (Admitted s id 0x0007 c) ∧ (Plain (begun s id) (taken s c)) ∧
      ((fun _ c => c.extStatus = 0 ∧ ∀ i, i < 28 → fld (BitVec.ofNat 32 (leNat ((c.ext.drop (4 * i)).take 4)) : W32) 0 5 = 0 ∧ fld (BitVec.ofNat 32
      (leNat ((c.ext.drop (4 * i)).take 4)) : W32) 23 9 = 0) s c)) ∧
    (∃ (s : State) (id : Nat) (c : Cmd) (bs : List Byte) (u : State), (Admitted s id 0x0107 c) ∧ (Plain (begun s id) (taken s c)) ∧ (Fetched s id c
      (addrAt c 24) ((fun c => 64 * pk c.pkt 17 1) c) bs u) ∧ ((fun u c bs => 2 ≤ pk c.pkt 17 1 ∧ pk c.pkt 17 1 ≤ 64 ∧ pk c.pkt 16 1 ≠ 0 ∧
      (∀ k, k < 8 → nbit (pk c.pkt 16 1) k = true → k < stackCount u ∧ startRefused u k (pkPart c.pkt) = false ∧ (freeEntries u k
      (pk c.pkt 17 1)).isSome = true) ∧ (∃ i, i < pk c.pkt 17 1 ∧ bOp (lineOf ((bs.drop (64 * i)).take 64)) = 0) ∧ partDefined u
      (pkPart c.pkt) = true) u c bs)) ∧
    (∃ (s : State) (id : Nat) (c : Cmd), (Admitted s id 0x0108 c) ∧ (Plain (begun s id) (taken s c)) ∧
      ((fun s c => ∃ d ∈ s.host.cmds, d.begun = true ∧ pkOp d.pkt = 0x0107 ∧ pkPart d.pkt = pkPart c.pkt ∧
      (pkTag d.pkt).toNat = pk c.pkt 16 4 ∧ ∃ p ∈ s.nb.programs, p.owner = .cmd d.id) s c)) ∧
    (∃ (s : State) (id : Nat) (c : Cmd), (Admitted s id 0x0108 c) ∧ (Plain (begun s id) (taken s c)) ∧ ((fun s _ => s.nb.programs = []) s c)) :=
  ⟨⟨holds up (cMa [(256, 32, 0xFFFFFFFF)]), 5, cMa [(256, 32, 0xFFFFFFFF)], by (simp only [Admitted, Plain, askedWell]; refine ⟨?_, ?_, ?_, ?_, ?_, ?_⟩ <;> decide +kernel)⟩,
   ⟨holds up (cMa [(256, 32, 0)]), 5, cMa [(256, 32, 0)], by (simp only [Admitted, Plain, askedWell]; refine ⟨?_, ?_, ?_, ?_, ?_, ?_, ?_⟩ <;> decide +kernel)⟩,
   ⟨withRegion (holds up (cMa [(256, 32, 5)])) (lin 4 2), 5, cMa [(256, 32, 5)], by simp only [Admitted, Plain, begun, taken]; and_intros <;> first | trivial⟩,
   ⟨up, 1, 0, 0, by decide +kernel⟩,
   ⟨withRegion (holds up (cmd 0x0101 [(128, 32, 4)])) (lin 4 2), 5, cmd 0x0101 [(128, 32, 4)], by (simp only [Admitted, Plain]; exact ⟨by decide +kernel, by decide +kernel, lin 4 2, by decide +kernel⟩)⟩,
   ⟨holds up (cmd 0x0101 [(128, 32, 4)]), 5, cmd 0x0101 [(128, 32, 4)], by simp only [Admitted, Plain, begun, taken]; decide +kernel⟩,
   ⟨parted (holds up cMm), 5, cMm, (readBy (parted (holds up cMm)) cMm 0x1000 64).2.1, (readBy (parted (holds up cMm)) cMm 0x1000 64).2.2, by (simp only [Admitted, Plain]; refine ⟨?_, ?_, ?_, ?_, ?_, ?_, ?_, pairOf _ _ ?_⟩ <;> decide +kernel)⟩,
   ⟨holds up (cmdX 0x0007 [] (List.replicate 112 0)), 5, cmdX 0x0007 [] (List.replicate 112 0), by simp only [Admitted, Plain, begun, taken]; decide +kernel⟩,
   ⟨parted (holds up cNr), 5, cNr, (readBy (parted (holds up cNr)) cNr 0x1000 128).2.1, (readBy (parted (holds up cNr)) cNr 0x1000 128).2.2, by (simp only [Admitted, Plain, Fetched]; refine ⟨?_, ?_, ⟨?_, pairOf _ _ ?_, ?_⟩, ?_, ?_, ?_, ?_, ⟨0, ?_⟩, ?_⟩ <;> decide +kernel)⟩,
   ⟨{ holds up cNa with host := { (holds up cNa).host with cmds := [cNa, { going cNr with id := 4 }] }, nb := { up.nb with programs := [{ prog with owner := .cmd 4 }] } }, 5, cNa, by simp only [Admitted, Plain, begun, taken]; decide +kernel⟩,
   ⟨holds up cNa, 5, cNa, by simp only [Admitted, Plain, begun, taken]; decide +kernel⟩⟩

theorem witness_JobRows :
    (∃ (s : State) (id : Nat) (c : Cmd) (bs : List Byte) (u : State), (Admitted s id 0x0500 c) ∧ (Plain (begun s id) (taken s c)) ∧ (Fetched s id c
      (addrAt c 16) ((fun _ => 128) c) bs u) ∧ ((fun u c bs => localRange u (offOf
      (addrAt c 16)) 128 = .device ∧ pk c.pkt 28 4 ≠ 0 ∧ pk c.pkt 24 4 + pk c.pkt 28 4 ≤ gradeCores u ∧ pk c.pkt 32 4 ≠ 0 ∧ partBase u
      (pkPart c.pkt) ≤ pk c.pkt 24 4 ∧ pk c.pkt 24 4 + pk c.pkt 28 4 ≤ partBase u (pkPart c.pkt) + partCount u (pkPart c.pkt) ∧ partDefined u
      (pkPart c.pkt) = true ∧ headerCode u (BitVec.ofNat 1024 (leNat bs)) (pkPart c.pkt) (pk c.pkt 24 4) (pk c.pkt 28 4) = none ∧
      (∀ i, i < pk c.pkt 28 4 → unplaced u (pk c.pkt 24 4 + i) = false) ∧ (pkClean c.pkt = true → (u.cores.jobs.filter
      (fun j => j.clean.isSome)).length < 4)) u c bs)) ∧
    (∃ (s : State) (id : Nat) (c : Cmd), (Admitted s id 0x0501 c) ∧ (Plain (begun s id) (taken s c)) ∧
      ((fun s c => ∃ j ∈ s.cores.jobs, j.part = pkPart c.pkt ∧ j.tag.toNat = pk c.pkt 16 4) s c)) ∧
    (∃ (s : State) (id : Nat) (c : Cmd), (Admitted s id 0x0501 c) ∧ (Plain (begun s id) (taken s c)) ∧
      ((fun s c => ∀ j ∈ s.cores.jobs, ¬(j.part = pkPart c.pkt ∧ j.tag.toNat = pk c.pkt 16 4)) s c)) ∧
    (∃ (s : State) (j : Job), (getJob s j.id = some j) ∧ (j.state ≠ .waiting)) ∧
    (∃ (s : State) (id : Nat) (c : Cmd) (j : Job), (Admitted s id 0x0502 c) ∧ (Plain (begun s id) (taken s c)) ∧ (s.cores.jobs.find?
      (fun j => j.part == pkPart c.pkt && j.tag.toNat == pk c.pkt 16 4) = some j)) ∧
    (∃ (s : State) (j : Job), (getJob s j.id = some j) ∧ (j.state = .waiting) ∧ (j.stop = none) ∧ (j.threads ≤ 8) ∧
      ((∀ k ∈ s.cores.jobs, k.id < j.id → k.part = j.part → ∀ v ∈ k.range, v ∉ j.range)) ∧ (jobOnSteps s j = false) ∧ (serving s = true) ∧
      ((∀ v ∈ j.range, unplaced s v = false))) ∧
    (∃ (s : State) (j : Job) (k : Job), (getJob s j.id = some j) ∧ (k ∈ s.cores.jobs) ∧ (k.id < j.id) ∧ (k.part = j.part) ∧
      ((∃ v ∈ k.range, v ∈ j.range))) ∧
    (∃ (s : State) (j : Job), (getJob s j.id = some j) ∧ (j.state ≠ .waiting) ∧ (jobThreadsEnded s j = true) ∧ (jobMoves s j = false) ∧
      (j.replay = [])) ∧
    (∃ (s : State) (j : Job), (j.stop = some .cancelled)) ∧
    (∃ (s : State) (j : Job), (j.stop = some .fenced)) ∧
    (∃ (s : State) (j : Job), (j.stop = none) ∧ ((∀ v ∈ j.vcores, ∀ n, n < j.threads → (getThread s { vcore := v, thread := n }).memerr = 0))) :=
  ⟨⟨jl, 5, cJl, (readBy jl cJl 0x1000 128).2.1, (readBy jl cJl 0x1000 128).2.2, by (simp only [Admitted, Plain, Fetched]; exact ⟨by decide +kernel, by decide +kernel, ⟨by decide +kernel, pairOf _ _ (by decide +kernel), by decide +kernel⟩, by decide +kernel⟩)⟩,
   ⟨withJobs (holds up (cJc 0x0501)) [job1], 5, cJc 0x0501, by simp only [Admitted, Plain, begun, taken]; decide +kernel⟩,
   ⟨holds up (cJc 0x0501), 5, cJc 0x0501, by simp only [Admitted, Plain, begun, taken]; decide +kernel⟩,
   ⟨core th1, job1, by decide +kernel⟩,
   ⟨withJobs (holds up (cJc 0x0502)) [job1], 5, cJc 0x0502, job1, by simp only [Admitted, Plain, begun, taken]; decide +kernel⟩,
   ⟨withJobs up [waiting], waiting, by decide +kernel⟩,
   ⟨withJobs up [{ job1 with id := 0 }, waiting], waiting, { job1 with id := 0 }, by decide +kernel⟩,
   ⟨withJobs up [{ job1 with vcores := [] }], { job1 with vcores := [] }, by decide +kernel⟩,
   ⟨up, { job1 with stop := some .cancelled }, by rfl⟩,
   ⟨up, { job1 with stop := some .fenced }, by rfl⟩,
   ⟨up, job1, by decide +kernel⟩⟩

theorem witness_ModelRows :
    (∃ (s : State) (id : Nat) (c : Cmd) (p : Package), (Admitted s id 0x0200 c) ∧ (Plain (begun s id) (taken s c)) ∧ (pk c.pkt 16 2 ≤ 4095) ∧
      (Buffer s c 24 (pk c.pkt 32 8)) ∧ (p.status = 0) ∧ ((∀ x ∈ packageCodes s p, x.1 = false)) ∧ (modelState s (pk c.pkt 16 2) = 0) ∧
      (loadWaiting s (pk c.pkt 16 2) id = false) ∧
      ((p.views.foldl (fun (acc : W16 × State) v => (worse acc.1 (devWrite acc.2 (v.1 * rowSetBytes acc.2) v.2 (cmdRq c)).1, (devWrite acc.2
      (v.1 * rowSetBytes acc.2) v.2 (cmdRq c)).2)) (0, begun s id)).1 = 0)) ∧
    (∃ (s : State) (id : Nat) (c : Cmd) (p : Package) (d : Nat), (Admitted s id 0x0200 c) ∧ (Plain (begun s id) (taken s c)) ∧
      (pk c.pkt 16 2 ≤ 4095) ∧ (Buffer s c 24 (pk c.pkt 32 8)) ∧ (modelState s (pk c.pkt 16 2) ≠ 3) ∧ (p.status = 0) ∧ ((packageCodes s p).find? (·.1) = some (true, d))) ∧
    (∃ (s : State) (id : Nat) (c : Cmd), (Admitted s id 0x0201 c) ∧ (Plain (begun s id) (taken s c)) ∧
      ((fun s c => pk c.pkt 16 2 ≤ 4095 ∧ modelState s (pk c.pkt 16 2) = 2 ∧ loadWaiting s (pk c.pkt 16 2) c.id = false ∧ (∀ x ∈ s.se.models, mrState x.2.record = 2 → mrDraft x.2.record ≠ some
      (pk c.pkt 16 2) ∧ mrFallback x.2.record ≠ some (pk c.pkt 16 2)) ∧ ∀ y ∈ sessionsOf s
      (pk c.pkt 16 2), y.2.proj ≠ stActive ∧ y.2.waiting = false ∧ y.2.projSusp = false) s c)) ∧
    (∃ (s : State) (id : Nat) (c : Cmd), (Admitted s id 0x0201 c) ∧ (Plain (begun s id) (taken s c)) ∧
      ((fun s c => pk c.pkt 16 2 ≤ 4095 ∧ modelState s (pk c.pkt 16 2) ≠ 2 ∧ loadWaiting s (pk c.pkt 16 2) c.id = false) s c)) ∧
    (∃ (s : State) (id : Nat) (c : Cmd), (Admitted s id 0x0202 c) ∧ (Plain (begun s id) (taken s c)) ∧
      ((fun s c => pk c.pkt 16 2 ≤ 4095 ∧ Buffer s c 24 128) s c)) ∧
    (∃ (s : State) (id : Nat) (c : Cmd), (Admitted s id 0x0401 c) ∧ (Plain (begun s id) (taken s c)) ∧ ((fun s c => c.extStatus = 0 ∧ fld
      (BitVec.ofNat 1024 (leNat (c.ext.take 128)) : SRec) 96 32 = 0 ∧ fld (BitVec.ofNat 1024 (leNat (c.ext.take 128)) : SRec) 960 64 = 0 ∧ poolBad s
      (BitVec.ofNat 1024 (leNat (c.ext.take 128))) = false ∧ s.se.spans = [] ∧
      (∀ y ∈ s.se.sessions, srPacked y.2.record = 0) ∧ twinState s = 0) s c)) ∧
    (∃ (s : State) (id : Nat) (c : Cmd), (Admitted s id 0x0402 c) ∧ (Plain (begun s id) (taken s c)) ∧
      ((fun s c => pk c.pkt 16 8 % 4096 = 0 ∧ 12 ≤ pk c.pkt 24 1 ∧ pk c.pkt 24 1 ≤ 28 ∧ pk c.pkt 26 2 ≤ 511 ∧ partDefined s
      (pkPart c.pkt) = true ∧ holdsSlot s (pkPart c.pkt) = false) s c)) :=
  ⟨⟨withRegion (holds up cMl) wreg, 5, cMl, pkg1, by simp only [Admitted, Buffer, Plain, begun, taken]; decide +kernel⟩,
   ⟨holds up cMl, 5, cMl, pkg1, 0x31, by simp only [Admitted, Buffer, Plain, begun, taken]; decide +kernel⟩,
   ⟨serve (holds up (cmd 0x0201 [(128, 16, 6)])) (sess 0 id), 5, cmd 0x0201 [(128, 16, 6)], by simp only [Admitted, Plain, begun, taken]; decide +kernel⟩,
   ⟨holds up (cmd 0x0201 [(128, 16, 6)]), 5, cmd 0x0201 [(128, 16, 6)], by simp only [Admitted, Plain, begun, taken]; decide +kernel⟩,
   ⟨modelled (holds up (cmd 0x0202 [(128, 16, 6), (192, 64, 0x1000)])), 5, cmd 0x0202 [(128, 16, 6), (192, 64, 0x1000)], by simp only [Admitted, Buffer, Plain, begun, taken]; decide +kernel⟩,
   ⟨pooled (holds up cKv), 5, cKv, by simp only [Admitted, Plain, begun, taken]; decide +kernel⟩,
   ⟨parted (holds up cOr), 5, cOr, by simp only [Admitted, Plain, begun, taken]; decide +kernel⟩⟩

def cRd : Cmd := cSe 0x0306 [(160, 32, 1), (192, 32, 2), (256, 64, 0x1000)]
/-- A request without a prompt. -/
def cRs0 : Cmd := cSe 0x0400 [(160, 32, 9), (320, 16, 0x3C00), (336, 16, 0x3C00)]

theorem witness_SessionRows :
    (∃ (s : State) (i : Nat), (i ∈ s.se.cached)) ∧
    (∃ (s : State) (i : Nat) (x : Session), (i ∉ s.se.cached) ∧ (getSess s i = some x) ∧ (s.se.cached.length < 32768) ∧
      ((devReadNat s (recOff s i) 128 hfRq).1 = stOk)) ∧
    (∃ (s : State) (id : Nat) (c : Cmd), (Admitted s id 0x0300 c) ∧ (Plain (begun s id) (taken s c)) ∧
      ((fun s c => pk c.pkt 16 2 ≤ 4095 ∧ pk c.pkt 18 1 ≤ 7 ∧ fld c.pkt 154 6 = 0 ∧ (∃ r, readyModel s
      (pk c.pkt 16 2) = some r ∧ mrKind r = 0) ∧ loadWaiting s (pk c.pkt 16 2) c.id = false ∧ partDefined s
      (pkPart c.pkt) = true ∧ s.se.sessions.length < 1048576 ∧ ∀ i, tget s.se.gen i 0 < 4096) s c)) ∧
    (∃ (s : State) (id : Nat) (c : Cmd) (i : Nat) (x y : Session), (Admitted s id 0x0301 c) ∧ (Plain (begun s id) (taken s c)) ∧ (Names s c i x) ∧
      ((fun _ _ x => x.proj = stActive) s c x) ∧ (getSess (cacheIn (begun s id) i) i = some y)) ∧
    (∃ (s : State) (id : Nat) (c : Cmd) (i : Nat) (x : Session), (Admitted s id 0x0301 c) ∧ (Plain (begun s id) (taken s c)) ∧ (Names s c i x) ∧
      ((fun _ _ x => x.proj ≠ stActive) s c x)) ∧
    (∃ (s : State) (id : Nat) (c : Cmd) (i : Nat) (x : Session), (Admitted s id 0x0302 c) ∧ (Plain (begun s id) (taken s c)) ∧ (Names s c i x) ∧
      ((fun _ _ x => srGone x.record = true ∨ SessEvent.gone ∈ x.events) s c x)) ∧
    (∃ (s : State) (id : Nat) (c : Cmd) (i : Nat) (x y : Session), (Admitted s id 0x0302 c) ∧ (Plain (begun s id) (taken s c)) ∧ (Names s c i x) ∧
      ((fun _ _ x => projGone x = false ∧ x.projSusp = true ∧ (x.proj = stPaused ∨ x.proj = stExpired)) s c x) ∧ (getSess (cacheIn (begun s id) i) i = some y)) ∧
    (∃ (s : State) (id : Nat) (c : Cmd) (i : Nat) (x y : Session), (Admitted s id 0x0302 c) ∧ (Plain (begun s id) (taken s c)) ∧ (Names s c i x) ∧
      ((fun _ _ x => projGone x = false ∧ x.projSusp = false ∧ x.proj = stPaused) s c x) ∧ (getSess (cacheIn (begun s id) i) i = some y)) ∧
    (∃ (s : State) (id : Nat) (c : Cmd) (i : Nat) (x y : Session), (Admitted s id 0x0303 c) ∧ (Plain (begun s id) (taken s c)) ∧ (Names s c i x) ∧
      ((fun _ _ _ => True) s c x) ∧ (getSess (cacheIn (begun s id) i) i = some y)) ∧
    (∃ (s : State) (i : Nat) (x : Session), (getSess s i = some x) ∧ (SessEvent.cancel ∈ x.events) ∧ (x.slot = false)) ∧
    (∃ (s : State) (id : Nat) (c : Cmd) (i : Nat) (x y : Session), (Admitted s id 0x0304 c) ∧ (Plain (begun s id) (taken s c)) ∧ (Names s c i x) ∧
      ((fun s c _ => Buffer s c 24 128) s c x) ∧ (getSess (cacheIn (begun s id) i) i = some y)) ∧
    (∃ (s : State) (id : Nat) (c : Cmd) (i : Nat) (x x' : Session), (Admitted s id 0x0305 c) ∧ (Plain (begun s id) (taken s c)) ∧ (Names s c i x) ∧
      (getSess (cacheIn (begun s id) i) i = some x') ∧ (fld c.pkt 170 6 = 0) ∧ (fld c.pkt 179 5 = 0) ∧ ((bit c.pkt 176 = true → pk c.pkt 20 1 ≤ 7))) ∧
    (∃ (s : State) (id : Nat) (c : Cmd) (i : Nat) (x y : Session) (ts : List W32) (u : State), (Admitted s id 0x0306 c) ∧ (Plain (begun s id)
      (taken s c)) ∧ (Names s c i x) ∧ (pk c.pkt 20 4 + pk c.pkt 24 4 ≤ srLen x.record) ∧ (pk c.pkt 24 4 ≠ 0) ∧ (Buffer s c 32 (4 * pk c.pkt 24 4)) ∧
      (getSess (cacheIn (begun s id) i) i = some y) ∧ (readToks (cacheIn (begun s id) i) y (pk c.pkt 20 4) (pk c.pkt 20 4 + pk c.pkt 24 4) = (0, ts, u))) ∧
    (∃ (s : State) (id : Nat) (c : Cmd) (i : Nat) (x : Session), (Admitted s id 0x0306 c) ∧ (Plain (begun s id) (taken s c)) ∧ (Names s c i x) ∧
      ((fun _ c x => srLen x.record < pk c.pkt 20 4 + pk c.pkt 24 4) s c x)) ∧
    (∃ (s : State) (id : Nat) (c : Cmd) (i : Nat) (x y : Session), (Admitted s id 0x0306 c) ∧ (Plain (begun s id) (taken s c)) ∧ (Names s c i x) ∧
      ((fun _ c x => pk c.pkt 20 4 ≤ srLen x.record ∧ pk c.pkt 24 4 = 0) s c x) ∧ (getSess (cacheIn (begun s id) i) i = some y)) ∧
    (∃ (r : Nat × (Nat → Instr)) (s : State) (id : Nat) (c : Cmd), (Admitted s id r.1 c) ∧ (Plain (begun s id) (taken s c)) ∧ (sessOf s
      (pk c.pkt 16 4) = none)) ∧
    (∃ (s : State) (id : Nat) (c : Cmd) (i : Nat) (x x' : Session) (bs : List Byte) (u : State), (Admitted s id 0x0400 c) ∧ (Plain (begun s id)
      (taken s c)) ∧ (Names s c i x) ∧ (projGone x = false) ∧ (modelState s (srModel x.record) = 2) ∧ (x.projSusp = false) ∧
      (x.proj ≠ stActive) ∧ ((tfind s.se.rings (srPart x.record)).isSome = true) ∧ (srLen x.record + pk c.pkt 48 4 < 1048576) ∧ (pk c.pkt 46 1 ≤ 8) ∧
      (pk c.pkt 42 2 ≠ 0) ∧ (pk c.pkt 42 2 ≤ 0x3C00) ∧ (pk c.pkt 20 4 ≠ 0) ∧ ((ensureChunks s i (srLen x.record + pk c.pkt 48 4)).isSome = true) ∧
      ((pk c.pkt 48 4 ≠ 0 → Fetched s id c (addrAt c 56) (4 * pk c.pkt 48 4) bs u)) ∧ (pk c.pkt 48 4 ≠ 0) ∧ (getSess (cacheIn u i) i = some x')) ∧
    (∃ (s : State) (id : Nat) (c : Cmd) (i : Nat) (x x' : Session) (bs : List Byte) (u : State), (Admitted s id 0x0400 c) ∧ (Plain (begun s id)
      (taken s c)) ∧ (Names s c i x) ∧ (projGone x = false) ∧ (modelState s (srModel x.record) = 2) ∧ (x.projSusp = false) ∧
      (x.proj ≠ stActive) ∧ ((tfind s.se.rings (srPart x.record)).isSome = true) ∧ (srLen x.record + pk c.pkt 48 4 < 1048576) ∧ (pk c.pkt 46 1 ≤ 8) ∧
      (pk c.pkt 42 2 ≠ 0) ∧ (pk c.pkt 42 2 ≤ 0x3C00) ∧ (pk c.pkt 20 4 ≠ 0) ∧ ((ensureChunks s i (srLen x.record + pk c.pkt 48 4)).isSome = true) ∧
      ((pk c.pkt 48 4 ≠ 0 → Fetched s id c (addrAt c 56) (4 * pk c.pkt 48 4) bs u)) ∧ (pk c.pkt 48 4 = 0) ∧ (u = begun s id) ∧ (getSess (cacheIn u i) i = some x')) :=
  ⟨⟨serve up (sess 2 id), 2, by decide +kernel⟩,
   ⟨{ serve up (sess 2 id) with se := { (serve up (sess 2 id)).se with cached := [] } }, 2, sess 2 id, by decide +kernel⟩,
   ⟨parted (modelled (holds up (cmd 0x0300 [(128, 16, 6), (144, 8, 7)]))), 5, cmd 0x0300 [(128, 16, 6), (144, 8, 7)], by (simp only [Admitted, Plain]; refine ⟨?_, ?_, ?_, ?_, ?_, ⟨mrec 2, ?_⟩, ?_, ?_, ?_, fun i => (show tget ([] : Tab Nat) i 0 < 4096 from by simp [tget, tfind])⟩ <;> decide +kernel)⟩,
   ⟨serve (holds up (cSe 0x0301 [])) (sess 1 id), 5, cSe 0x0301 [], 2, sess 1 id, sess 1 id, by simp only [Admitted, Names, Plain, begun, taken]; decide +kernel⟩,
   ⟨serve (holds up (cSe 0x0301 [])) (sess 0 id), 5, cSe 0x0301 [], 2, sess 0 id, by simp only [Admitted, Names, Plain, begun, taken]; decide +kernel⟩,
   ⟨serve (holds up (cSe 0x0302 [])) (sess 2 fun x => { x with events := [.gone] }), 5, cSe 0x0302 [], 2, sess 2 fun x => { x with events := [.gone] }, by simp only [Admitted, Names, Plain, begun, taken]; decide +kernel⟩,
   ⟨serve (holds up (cSe 0x0302 [])) (sess 2 fun x => { x with projSusp := true }), 5, cSe 0x0302 [], 2, sess 2 fun x => { x with projSusp := true }, sess 2 fun x => { x with projSusp := true }, by simp only [Admitted, Names, Plain, begun, taken]; decide +kernel⟩,
   ⟨serve (holds up (cSe 0x0302 [])) (sess 2 id), 5, cSe 0x0302 [], 2, sess 2 id, sess 2 id, by simp only [Admitted, Names, Plain, begun, taken]; decide +kernel⟩,
   ⟨serve (holds up (cSe 0x0303 [])) (sess 2 id), 5, cSe 0x0303 [], 2, sess 2 id, sess 2 id, by simp only [Admitted, Names, Plain, begun, taken]; decide +kernel⟩,
   ⟨serve up (sess 2 fun x => { x with events := [.cancel] }), 2, sess 2 fun x => { x with events := [.cancel] }, by decide +kernel⟩,
   ⟨serve (holds up (cSe 0x0304 [(192, 64, 0x1000)])) (sess 2 id), 5, cSe 0x0304 [(192, 64, 0x1000)], 2, sess 2 id, sess 2 id, by simp only [Admitted, Buffer, Names, Plain, begun, taken]; decide +kernel⟩,
   ⟨serve (holds up (cSe 0x0305 [(160, 8, 7), (176, 1, 1)])) (sess 2 id), 5, cSe 0x0305 [(160, 8, 7), (176, 1, 1)], 2, sess 2 id, sess 2 id, by simp only [Admitted, Names, Plain, begun, taken]; decide +kernel⟩,
   ⟨serve (holds up cRd) (sess 2 id), 5, cRd, 2, sess 2 id, sess 2 id, (readToks (begun (serve (holds up cRd) (sess 2 id)) 5) (sess 2 id) 1 3).2.1,
    (readToks (begun (serve (holds up cRd) (sess 2 id)) 5) (sess 2 id) 1 3).2.2, by
    (simp only [Admitted, Plain, Names, Buffer]
     refine ⟨?_, ?_, ?_, ?_, ?_, ?_, ?_, pairOf _ _ ?_⟩ <;> decide +kernel)⟩,
   ⟨serve (holds up (cSe 0x0306 [(160, 32, 2), (192, 32, 2)])) (sess 2 id), 5, cSe 0x0306 [(160, 32, 2), (192, 32, 2)], 2, sess 2 id, by simp only [Admitted, Names, Plain, begun, taken]; decide +kernel⟩,
   ⟨serve (holds up (cSe 0x0306 [(160, 32, 3)])) (sess 2 id), 5, cSe 0x0306 [(160, 32, 3)], 2, sess 2 id, sess 2 id, by simp only [Admitted, Names, Plain, begun, taken]; decide +kernel⟩,
   ⟨(0x0301, Instr.sessionPause), holds up (cSe 0x0301 []), 5, cSe 0x0301 [], by simp only [Admitted, Plain, begun, taken]; decide +kernel⟩,
   ⟨serve (holds up cRs) (sess 0 id), 5, cRs, 2, sess 0 id, sess 0 id, (readBy (serve (holds up cRs) (sess 0 id)) cRs 0x1000 8).2.1,
    (readBy (serve (holds up cRs) (sess 0 id)) cRs 0x1000 8).2.2, by
    (simp only [Admitted, Plain, Names, Fetched]
     refine ⟨?_, ?_, ?_, ?_, ?_, ?_, ?_, ?_,
       ?_, ?_, ?_, ?_, ?_, ?_,
       fun _ => ⟨by decide +kernel, pairOf _ _ (by decide +kernel), by decide +kernel⟩, ?_, ?_⟩ <;> decide +kernel)⟩,
   ⟨serve (holds up cRs0) (sess 0 id), 5, cRs0, 2, sess 0 id, sess 0 id, [], begun (serve (holds up cRs0) (sess 0 id)) 5, by
    (simp only [Admitted, Plain, Names, Fetched]
     refine ⟨?_, ?_, ?_, ?_, ?_, ?_, ?_, ?_,
       ?_, ?_, ?_, ?_, ?_, ?_,
       fun h => absurd (by decide +kernel) h, ?_, trivial, ?_⟩ <;> decide +kernel)⟩⟩

/-- An item waits for the twin to perform it. -/
def gateHeld (s : State) : State := { s with twin := { s.twin with gates := [{ id := 3, act := .detached 9 }] } }
theorem witness_FabricAndTimeCommandRows :
    (∃ (s : State) (id : Nat) (c : Cmd) (bs : List Byte) (u : State), (Admitted s id 0x0600 c) ∧ (Plain (begun s id) (taken s c)) ∧ (Fetched s id c
      (addrAt c 24) ((fun _ => 64) c) bs u) ∧ ((fun u c bs => pk c.pkt 16 1 ≤ 4 ∧ pk c.pkt 17 1 ≤ 3 ∧ (pk c.pkt 16 1 = 4 → pk c.pkt 17 1 ≤ 1) ∧
      (pk c.pkt 16 1 < ports u ∨ pk c.pkt 16 1 = 4) ∧ fld (lineOf bs) 50 6 = 0 ∧ fld (lineOf bs) 96 416 = 0 ∧ bit
      (lineOf bs) 40 = false ∧ ∀ l, l < 8 → ∃ i, i < 8 ∧ fld (lineOf bs) (72 + 3 * i) 3 = l) u c bs)) ∧
    (∃ (s : State) (id : Nat) (c : Cmd) (bs : List Byte) (u : State), (Admitted s id 0x0600 c) ∧ (Plain (begun s id) (taken s c)) ∧ (Fetched s id c
      (addrAt c 24) ((fun _ => 64) c) bs u) ∧ ((fun u c bs => pk c.pkt 16 1 ≤ 4 ∧ pk c.pkt 17 1 ≤ 3 ∧ (pk c.pkt 16 1 = 4 → pk c.pkt 17 1 ≤ 1) ∧
      (pk c.pkt 16 1 < ports u ∨ pk c.pkt 16 1 = 4) ∧ fld (lineOf bs) 50 6 = 0 ∧ fld (lineOf bs) 96 416 = 0 ∧ ∃ l, l < 8 ∧ ∀ i, i < 8 → fld
      (lineOf bs) (72 + 3 * i) 3 ≠ l) u c bs)) ∧
    (∃ (s : State) (id : Nat) (c : Cmd), (Admitted s id 0x0601 c) ∧ (Plain (begun s id) (taken s c)) ∧ ((fun s c => Buffer s c 24 96 ∧
      (pk c.pkt 16 1 < ports s ∨ pk c.pkt 16 1 = 4)) s c)) ∧
    (∃ (s : State) (id : Nat) (c : Cmd) (bs : List Byte) (u : State), (Admitted s id 0x0602 c) ∧ (Plain (begun s id) (taken s c)) ∧ (Fetched s id c
      (addrAt c 24) ((fun _ => 128) c) bs u) ∧ ((fun _ c bs => pk c.pkt 16 2 ≠ 0 ∧ pk c.pkt 16 2 ≠ 0xFFFF ∧ nodeBlockBad (BitVec.ofNat 1024
      (leNat bs)) = false) u c bs)) ∧
    (∃ (s : State) (id : Nat) (c : Cmd) (bs : List Byte) (u : State), (Admitted s id 0x0603 c) ∧ (Plain (begun s id) (taken s c)) ∧ (Fetched s id c
      (addrAt c 24) ((fun _ => 64) c) bs u) ∧ ((fun u c bs => isLocalNode u (pk c.pkt 16 2) = false ∧ pk c.pkt 16 2 ≠ 0xFFFF ∧ fld
      (lineOf bs) 201 311 = 0 ∧ ((peerOf u (pk c.pkt 16 2)).isSome = true ∨ u.fab.peers.length < 4096)) u c bs)) ∧
    (∃ (s : State) (id : Nat) (c : Cmd), (Admitted s id 0x0603 c) ∧ (Plain (begun s id) (taken s c)) ∧ ((fun s c => Buffer s c 24 64 ∧ (isLocalNode s
      (pk c.pkt 16 2) = true ∨ pk c.pkt 16 2 = 0xFFFF)) s c)) ∧
    (∃ (s : State) (id : Nat) (c : Cmd), (Admitted s id 0x0604 c) ∧ (Plain (begun s id) (taken s c)) ∧ (TwinQuiet s ∧ c.src = none ∧ ∀ q,
      (getQp s q).deleting = none)) ∧
    (∃ (s : State) (id : Nat) (c : Cmd), (Admitted s id 0x0605 c) ∧ (Plain (begun s id) (taken s c)) ∧ ((fun s c => (peerOf s
      (pk c.pkt 16 2)).isSome = true ∧ twinState s = 0 ∧ s.se.pool.isSome = true ∧ s.twin.gotReq = false) s c)) ∧
    (∃ (s : State) (id : Nat) (c : Cmd), (Admitted s id 0x0605 c) ∧ (Plain (begun s id) (taken s c)) ∧ ((fun s c => (peerOf s
      (pk c.pkt 16 2)).isSome = true ∧ twinState s ≠ 0) s c)) ∧
    (∃ (s : State) (id : Nat) (c : Cmd), (Admitted s id 0x0606 c) ∧ (Plain (begun s id) (taken s c)) ∧ (twinState s = 2 ∧ s.twin.gates = [])) ∧
    (∃ (s : State) (id : Nat) (c : Cmd), (Admitted s id 0x0606 c) ∧ (Plain (begun s id) (taken s c)) ∧ (twinState s = 2 ∧ s.twin.gates ≠ [])) ∧
    (∃ (s : State) (id : Nat) (c : Cmd), (Admitted s id 0x0606 c) ∧ (Plain (begun s id) (taken s c)) ∧ ((fun s _ => twinState s ≠ 2) s c)) ∧
    (∃ (s : State) (id : Nat) (c : Cmd), (Admitted s id 0x0607 c) ∧ (Plain (begun s id) (taken s c)) ∧ ((fun s c => Buffer s c 24 64) s c)) ∧
    (∃ (s : State) (id : Nat) (c : Cmd), (Admitted s id 0x0700 c) ∧ (Plain (begun s id) (taken s c)) ∧ ((fun _ _ => True) s c)) ∧
    (∃ (s : State) (id : Nat) (c : Cmd), (Admitted s id 0x0701 c) ∧ (Plain (begun s id) (taken s c)) ∧
      ((fun s c => pk c.pkt 24 4 ≤ 999999999 ∧ rf s TIME_STATUS 5 1 = 0) s c)) ∧
    (∃ (s : State) (id : Nat) (c : Cmd), (Admitted s id 0x0701 c) ∧ (Plain (begun s id) (taken s c)) ∧
      ((fun s c => pk c.pkt 24 4 ≤ 999999999 ∧ rf s TIME_STATUS 5 1 = 1) s c)) ∧
    (∃ (s : State) (id : Nat) (c : Cmd), (Admitted s id 0x0702 c) ∧ (Plain (begun s id) (taken s c)) ∧
      ((fun s c => fld c.pkt 153 7 = 0 ∧ pk c.pkt 17 1 ≤ 3 ∧ pk c.pkt 18 1 ≤ 127 ∧ (pk c.pkt 16 1 < ports s ∨ pk c.pkt 16 1 = 4)) s c)) ∧
    (∃ (s : State) (id : Nat) (c : Cmd), (Admitted s id 0x0703 c) ∧ (Plain (begun s id) (taken s c)) ∧ ((fun _ c => fld c.pkt 131 5 = 0) s c)) ∧
    (∃ (s : State) (id : Nat) (c : Cmd), (Admitted s id 0x0704 c) ∧ (Plain (begun s id) (taken s c)) ∧ ((fun s c => Buffer s c 24 128) s c)) :=
  ⟨⟨hostBytes (holds up (cmdW 0x0600 [(128, 8, 2), (136, 8, 1)])) (bsOf 64 lanes), 5, cmdW 0x0600 [(128, 8, 2), (136, 8, 1)], (readBy (hostBytes (holds up (cmdW 0x0600 [(128, 8, 2), (136, 8, 1)])) (bsOf 64 lanes)) (cmdW 0x0600 [(128, 8, 2), (136, 8, 1)]) win 64).2.1, (readBy (hostBytes (holds up (cmdW 0x0600 [(128, 8, 2), (136, 8, 1)])) (bsOf 64 lanes)) (cmdW 0x0600 [(128, 8, 2), (136, 8, 1)]) win 64).2.2, by (simp only [Admitted, Plain, Fetched]; exact ⟨by decide +kernel, by decide +kernel, ⟨by decide +kernel, pairOf _ _ (by decide +kernel), by decide +kernel⟩, by decide +kernel⟩)⟩,
   ⟨holds up (cmdW 0x0600 [(128, 8, 2), (136, 8, 1)]), 5, cmdW 0x0600 [(128, 8, 2), (136, 8, 1)], (readBy (holds up (cmdW 0x0600 [(128, 8, 2), (136, 8, 1)])) (cmdW 0x0600 [(128, 8, 2), (136, 8, 1)]) win 64).2.1, (readBy (holds up (cmdW 0x0600 [(128, 8, 2), (136, 8, 1)])) (cmdW 0x0600 [(128, 8, 2), (136, 8, 1)]) win 64).2.2, by (simp only [Admitted, Plain, Fetched]; exact ⟨by decide +kernel, by decide +kernel, ⟨by decide +kernel, pairOf _ _ (by decide +kernel), by decide +kernel⟩, by decide +kernel⟩)⟩,
   ⟨holds up (cmdW 0x0601 [(128, 8, 4)]), 5, cmdW 0x0601 [(128, 8, 4)], by simp only [Admitted, Buffer, Plain, begun, taken]; decide +kernel⟩,
   ⟨holds up (cmdW 0x0602 [(128, 16, 3)]), 5, cmdW 0x0602 [(128, 16, 3)], (readBy (holds up (cmdW 0x0602 [(128, 16, 3)])) (cmdW 0x0602 [(128, 16, 3)]) win 128).2.1, (readBy (holds up (cmdW 0x0602 [(128, 16, 3)])) (cmdW 0x0602 [(128, 16, 3)]) win 128).2.2, by (simp only [Admitted, Plain, Fetched]; exact ⟨by decide +kernel, by decide +kernel, ⟨by decide +kernel, pairOf _ _ (by decide +kernel), by decide +kernel⟩, by decide +kernel⟩)⟩,
   ⟨holds up (cmdW 0x0603 [(128, 16, 9)]), 5, cmdW 0x0603 [(128, 16, 9)], (readBy (holds up (cmdW 0x0603 [(128, 16, 9)])) (cmdW 0x0603 [(128, 16, 9)]) win 64).2.1, (readBy (holds up (cmdW 0x0603 [(128, 16, 9)])) (cmdW 0x0603 [(128, 16, 9)]) win 64).2.2, by (simp only [Admitted, Plain, Fetched]; exact ⟨by decide +kernel, by decide +kernel, ⟨by decide +kernel, pairOf _ _ (by decide +kernel), by decide +kernel⟩, by decide +kernel⟩)⟩,
   ⟨holds up (cmdW 0x0603 [(128, 16, 0xFFFF)]), 5, cmdW 0x0603 [(128, 16, 0xFFFF)], by simp only [Admitted, Buffer, Plain, begun, taken]; decide +kernel⟩,
   ⟨withPeer (holds up (cmd 0x0604 [(128, 16, 7)])), 5, cmd 0x0604 [(128, 16, 7)], by (simp only [Admitted, Plain, TwinQuiet]; exact ⟨by decide +kernel, by decide +kernel, by decide +kernel, by decide +kernel, fun q => (show (tget [(0, adminQ)] q QueuePair.zero).deleting = none from by by_cases h : q = 0 <;> simp [tget, tfind, h, adminQ, QueuePair.zero])⟩)⟩,
   ⟨{ withPeer (holds up (cmd 0x0605 [(128, 16, 7)])) with se := { up.se with pool := some poolRec } }, 5, cmd 0x0605 [(128, 16, 7)], by simp only [Admitted, Plain, begun, taken]; decide +kernel⟩,
   ⟨paired (withPeer (holds up (cmd 0x0605 [(128, 16, 7)]))) 2, 5, cmd 0x0605 [(128, 16, 7)], by simp only [Admitted, Plain, begun, taken]; decide +kernel⟩,
   ⟨paired (withPeer (holds up (cmd 0x0606 [(128, 16, 7)]))) 2, 5, cmd 0x0606 [(128, 16, 7)], by simp only [Admitted, Plain, begun, taken]; decide +kernel⟩,
   ⟨gateHeld (paired (withPeer (holds up (cmd 0x0606 [(128, 16, 7)]))) 2), 5, cmd 0x0606 [(128, 16, 7)], by simp only [Admitted, Plain, begun, taken]; decide +kernel⟩,
   ⟨holds up (cmd 0x0606 [(128, 16, 7)]), 5, cmd 0x0606 [(128, 16, 7)], by simp only [Admitted, Plain, begun, taken]; decide +kernel⟩,
   ⟨holds up (cmdW 0x0607 []), 5, cmdW 0x0607 [], by simp only [Admitted, Buffer, Plain, begun, taken]; decide +kernel⟩,
   ⟨holds up (cmd 0x0700 []), 5, cmd 0x0700 [], by simp only [Admitted, Plain, begun, taken]; decide +kernel⟩,
   ⟨holds up (cmd 0x0701 [(128, 48, 99), (192, 32, 999999999)]), 5, cmd 0x0701 [(128, 48, 99), (192, 32, 999999999)], by simp only [Admitted, Plain, begun, taken]; decide +kernel⟩,
   ⟨wf (holds up (cmd 0x0701 [(128, 48, 99), (192, 32, 5)])) TIME_STATUS 5 1 1, 5, cmd 0x0701 [(128, 48, 99), (192, 32, 5)], by simp only [Admitted, Plain, begun, taken]; decide +kernel⟩,
   ⟨holds up (cmd 0x0702 [(128, 8, 4), (136, 8, 3), (144, 8, 127), (152, 1, 1)]), 5, cmd 0x0702 [(128, 8, 4), (136, 8, 3), (144, 8, 127), (152, 1, 1)], by simp only [Admitted, Plain, begun, taken]; decide +kernel⟩,
   ⟨holds up (cmd 0x0703 [(128, 3, 7)]), 5, cmd 0x0703 [(128, 3, 7)], by simp only [Admitted, Plain, begun, taken]; decide +kernel⟩,
   ⟨holds up (cmdW 0x0704 []), 5, cmdW 0x0704 [], by simp only [Admitted, Buffer, Plain, begun, taken]; decide +kernel⟩⟩

theorem witness_SecurityRows :
    (∃ (s : State) (id : Nat) (c : Cmd), (Admitted s id 0x0800 c) ∧ (Plain (begun s id) (taken s c)) ∧ ((fun s c => bufOk s (addrAt c 48)
      (pk c.pkt 56 4) = true ∧ reportBytes (measurements s).length ≤ pk c.pkt 56 4) s c)) ∧
    (∃ (s : State) (id : Nat) (c : Cmd), (Admitted s id 0x0800 c) ∧ (Plain (begun s id) (taken s c)) ∧ ((fun s c => bufOk s (addrAt c 48)
      (pk c.pkt 56 4) = true ∧ pk c.pkt 56 4 < reportBytes (measurements s).length) s c)) ∧
    (∃ (s : State) (id : Nat) (c : Cmd), (Admitted s id 0x0801 c) ∧ (Plain (begun s id) (taken s c)) ∧ ((fun s c => bufOk s (addrAt c 24)
      (pk c.pkt 32 4) = true ∧ 59968 ≤ pk c.pkt 32 4 ∧ s.flash.certs.length = 59968) s c)) ∧
    (∃ (s : State) (id : Nat) (c : Cmd) (bs : List Byte) (u : State), (Admitted s id 0x0802 c) ∧ (Plain (begun s id) (taken s c)) ∧
      (pk c.pkt 16 1 ≤ 2) ∧ (pk c.pkt 32 4 ≤ 16809984) ∧ (bufOk s (addrAt c 24) (pk c.pkt 32 4) = true) ∧ (structRead (begun s id) (taken s c)
      (addrAt c 24) (pk c.pkt 32 4) = (stOk, bs, u)) ∧ (Plain u (taken s c))) ∧
    (∃ (s : State) (k : Nat) (bs : List Byte),
      (bytesAt bs 4 1 ≠ k ∨ 64 < imgSvn bs ∨ bs.length < 32768 + bytesAt bs 16 4 ∨ bytesAt bs 16 4 = 0 ∨ imgSvn bs < s.sec.floors.getD k 0) ∧
      (bytesAt bs 4 1 ≠ k)) ∧
    (∃ (s : State) (k : Nat) (bs : List Byte),
      (bytesAt bs 4 1 ≠ k ∨ 64 < imgSvn bs ∨ bs.length < 32768 + bytesAt bs 16 4 ∨ bytesAt bs 16 4 = 0 ∨ imgSvn bs < s.sec.floors.getD k 0) ∧
      (bytesAt bs 16 4 = 0)) ∧
    (∃ (s : State) (id : Nat) (c : Cmd) (bs : List Byte) (u : State), (Admitted s id 0x0803 c) ∧ (Plain (begun s id) (taken s c)) ∧ (Fetched s id c
      (addrAt c 24) ((fun _ => 29984) c) bs u) ∧ ((fun _ _ _ => True) u c bs)) ∧
    (∃ (s : State) (id : Nat) (c : Cmd) (bs : List Byte) (u : State), (Admitted s id 0x0804 c) ∧ (Plain (begun s id) (taken s c)) ∧ (Fetched s id c
      (addrAt c 24) ((fun _ => 128) c) bs u) ∧
      ((fun u c bs => c.src = none ∧ rf u SEC_DEBUG_STATUS 0 2 ≠ 2 ∧ bytesAt bs 0 1 = 0 ∧ 8 ≤ bytesAt bs 1 1 ∧ bytesAt bs 1 1 ≤ 64 ∧ bytesAt bs 2 2 / 16 = 0 ∧ bytesAt bs 68 60 = 0 ∧ ∃ salt levels, u.flash.password = some
      (salt, passwordDigest u salt ((bs.drop 4).take (bytesAt bs 1 1)), levels)) u c bs)) ∧
    (∃ (s : State) (id : Nat) (c : Cmd) (bs : List Byte) (u : State), (Admitted s id 0x0804 c) ∧ (Plain (begun s id) (taken s c)) ∧ (Fetched s id c
      (addrAt c 24) ((fun _ => 128) c) bs u) ∧
      ((fun u c bs => c.src = none ∧ rf u SEC_DEBUG_STATUS 0 2 ≠ 2 ∧ bytesAt bs 0 1 = 0 ∧ 8 ≤ bytesAt bs 1 1 ∧ bytesAt bs 1 1 ≤ 64 ∧ bytesAt bs 2 2 / 16 = 0 ∧ bytesAt bs 68 60 = 0 ∧ 1 < rf u SEC_DEBUG_STATUS 6 3 ∧ ∃ salt d levels, u.flash.password = some
      (salt, d, levels) ∧ passwordDigest u salt ((bs.drop 4).take (bytesAt bs 1 1)) ≠ d) u c bs)) ∧
    (∃ (s : State), (rf s SEC_DEBUG_STATUS 6 3 = 1)) ∧
    (∃ (s : State) (id : Nat) (c : Cmd), (Admitted s id 0x0805 c) ∧ (Plain (begun s id) (taken s c)) ∧
      ((fun s c => c.src = none ∧ Buffer s c 24 64) s c)) ∧
    (∃ (s : State) (id : Nat) (c : Cmd) (bs : List Byte) (u : State), (Admitted s id 0x0806 c) ∧ (Plain (begun s id) (taken s c)) ∧ (Fetched s id c
      (addrAt c 24) ((fun _ => 29984) c) bs u) ∧ ((fun u c _ => c.src = none ∧ rf u SEC_DEBUG_STATUS 0 2 ≠ 2 ∧ pk c.pkt 32 4 = 29984) u c bs)) ∧
    (∃ (s : State) (bs : List Byte), (s.sec.nonce = none ∨ (∃ n at_, s.sec.nonce = some (n, at_) ∧
      (at_ + 600000000000 ≤ mono s ∨ n ≠ BitVec.ofNat 256 (bytesAt bs 24 32))) ∨ BitVec.ofNat 128 (bytesAt bs 56 16) ≠ s.flash.serial ∨ signedBy bs
      (BitVec.ofNat 512 (bytesAt bs 128 64)) = false ∨ bytesAt bs 12 4 = 0 ∨ 86400 < bytesAt bs 12 4)) ∧
    (∃ (s : State) (id : Nat) (c : Cmd), (Admitted s id 0x0807 c) ∧ (Plain (begun s id) (taken s c)) ∧
      ((fun s _ => rf s SEC_DEBUG_STATUS 0 2 = 1) s c)) ∧
    (∃ (s : State) (id : Nat) (c : Cmd), (Admitted s id 0x0807 c) ∧ (Plain (begun s id) (taken s c)) ∧
      ((fun s _ => rf s SEC_DEBUG_STATUS 0 2 ≠ 1) s c)) ∧
    (∃ (s : State) (n : Nat), (rf s SEC_DEBUG_STATUS 0 2 = 1) ∧ (s.sec.expiryCycles = some n) ∧ (n ≤ s.time.cycles)) ∧
    (∃ (s : State) (n : BitVec 256) (at_ : Nat), (s.sec.nonce = some (n, at_))) ∧
    (∃ (s : State) (id : Nat) (c : Cmd) (bs : List Byte) (u : State), (Admitted s id 0x0902 c) ∧ (Plain (begun s id) (taken s c)) ∧ (Fetched s id c
      (addrAt c 24) ((fun _ => 64) c) bs u) ∧ ((fun u _ bs => levelOpen u 0 = true ∧ traceFault u (lineOf bs) = none) u c bs)) ∧
    (∃ (s : State) (b : Line), (bit b 71 = true) ∧ (rf s TRACE_CTRL 0 1 = 0)) ∧
    (∃ (s : State) (id : Nat) (c : Cmd), (Admitted s id 0x0902 c) ∧ (Plain (begun s id) (taken s c)) ∧ ((fun s _ => levelOpen s 0 = false) s c)) ∧
    (∃ (s : State) (id : Nat) (c : Cmd), (Admitted s id 0x0903 c) ∧ (Plain (begun s id) (taken s c)) ∧ ((fun s c => Buffer s c 24 256) s c)) :=
  ⟨⟨holds up (cmd 0x0800 [(384, 64, win), (448, 32, 65536)]), 5, cmd 0x0800 [(384, 64, win), (448, 32, 65536)], by simp only [Admitted, Plain, begun, taken]; decide +kernel⟩,
   ⟨holds up (cmd 0x0800 [(384, 64, win), (448, 32, 100)]), 5, cmd 0x0800 [(384, 64, win), (448, 32, 100)], by simp only [Admitted, Plain, begun, taken]; decide +kernel⟩,
   ⟨{ holds up (cmdW 0x0801 [(256, 32, 59968)]) with flash := { up.flash with certs := List.replicate 59968 0 } }, 5, cmdW 0x0801 [(256, 32, 59968)], by (simp only [Admitted, Plain]; refine ⟨?_, ?_, ?_, ?_, (List.length_replicate : (List.replicate 59968 (0 : Byte)).length = 59968)⟩ <;> decide +kernel)⟩,
   ⟨holds up (cmdW 0x0802 [(256, 32, 64)]), 5, cmdW 0x0802 [(256, 32, 64)], (readBy (holds up (cmdW 0x0802 [(256, 32, 64)])) (cmdW 0x0802 [(256, 32, 64)]) win 64).2.1, (readBy (holds up (cmdW 0x0802 [(256, 32, 64)])) (cmdW 0x0802 [(256, 32, 64)]) win 64).2.2, by (simp only [Admitted, Plain]; refine ⟨?_, ?_, ?_, ?_, ?_, pairOf _ _ ?_, ?_⟩ <;> decide +kernel)⟩,
   ⟨up, 1, [], by (exact ⟨by decide +kernel, by decide +kernel⟩)⟩,
   ⟨up, 0, [], by (exact ⟨by decide +kernel, by decide +kernel⟩)⟩,
   ⟨holds up (cmdW 0x0803 []), 5, cmdW 0x0803 [], (readBy (holds up (cmdW 0x0803 [])) (cmdW 0x0803 []) win 29984).2.1, (readBy (holds up (cmdW 0x0803 [])) (cmdW 0x0803 []) win 29984).2.2, by (simp only [Admitted, Plain, Fetched]; exact ⟨by decide +kernel, by decide +kernel, ⟨by decide +kernel, pairOf _ _ (by decide +kernel), by decide +kernel⟩, trivial⟩)⟩,
   ⟨locked (holds up cPw) id, 5, cPw, (readBy (locked (holds up cPw) id) (cPw) win 128).2.1, (readBy (locked (holds up cPw) id) (cPw) win 128).2.2, by (simp only [Admitted, Plain, Fetched]; refine ⟨?_, ?_, ⟨?_, pairOf _ _ ?_, ?_⟩, ?_, ?_, ?_, ?_, ?_, ?_, ?_, ⟨3, 7, by rfl⟩⟩ <;> decide +kernel)⟩,
   ⟨locked (holds up cPw) (~~~ ·), 5, cPw, (readBy (locked (holds up cPw) (~~~ ·)) (cPw) win 128).2.1, (readBy (locked (holds up cPw) (~~~ ·)) (cPw) win 128).2.2, by (simp only [Admitted, Plain, Fetched]; refine ⟨?_, ?_, ⟨?_, pairOf _ _ ?_, ?_⟩, ?_, ?_, ?_, ?_, ?_, ?_, ?_, ?_, ⟨3, _, 7, by rfl, fun h => not_self (passwordDigest (holds up cPw) 3 (List.replicate 8 0)) h⟩⟩ <;> decide +kernel)⟩,
   ⟨wf up SEC_DEBUG_STATUS 6 3 1, by decide +kernel⟩,
   ⟨holds up (cmdW 0x0805 []), 5, cmdW 0x0805 [], by simp only [Admitted, Buffer, Plain, begun, taken]; decide +kernel⟩,
   ⟨holds up (cmdW 0x0806 [(256, 32, 29984)]), 5, cmdW 0x0806 [(256, 32, 29984)], (readBy (holds up (cmdW 0x0806 [(256, 32, 29984)])) (cmdW 0x0806 [(256, 32, 29984)]) win 29984).2.1, (readBy (holds up (cmdW 0x0806 [(256, 32, 29984)])) (cmdW 0x0806 [(256, 32, 29984)]) win 29984).2.2, by (simp only [Admitted, Plain, Fetched]; exact ⟨by decide +kernel, by decide +kernel, ⟨by decide +kernel, pairOf _ _ (by decide +kernel), by decide +kernel⟩, by decide +kernel⟩)⟩,
   ⟨up, [], by (exact .inl rfl)⟩,
   ⟨wf (holds up (cmd 0x0807 [])) SEC_DEBUG_STATUS 0 2 1, 5, cmd 0x0807 [], by simp only [Admitted, Plain, begun, taken]; decide +kernel⟩,
   ⟨holds up (cmd 0x0807 []), 5, cmd 0x0807 [], by simp only [Admitted, Plain, begun, taken]; decide +kernel⟩,
   ⟨{ wf (clocked up 9) SEC_DEBUG_STATUS 0 2 1 with sec := { up.sec with expiryCycles := some 9 } }, 9, by decide +kernel⟩,
   ⟨{ up with sec := { up.sec with nonce := some (5, 0) } }, 5, 0, by rfl⟩,
   ⟨withRegion (hostBytes (open_ (holds up (cmdW 0x0902 []))) (bsOf 64 trBlk)) (lin 7 1), 5, cmdW 0x0902 [], (readBy (withRegion (hostBytes (open_ (holds up (cmdW 0x0902 []))) (bsOf 64 trBlk)) (lin 7 1)) (cmdW 0x0902 []) win 64).2.1, (readBy (withRegion (hostBytes (open_ (holds up (cmdW 0x0902 []))) (bsOf 64 trBlk)) (lin 7 1)) (cmdW 0x0902 []) win 64).2.2, by (simp only [Admitted, Plain, Fetched]; exact ⟨by decide +kernel, by decide +kernel, ⟨by decide +kernel, pairOf _ _ (by decide +kernel), by decide +kernel⟩, by decide +kernel⟩)⟩,
   ⟨up, BitVec.ofNat 512 trBlk, by decide +kernel⟩,
   ⟨holds up (cmdW 0x0902 []), 5, cmdW 0x0902 [], by simp only [Admitted, Plain, begun, taken]; decide +kernel⟩,
   ⟨holds up (cmdW 0x0903 []), 5, cmdW 0x0903 [], by simp only [Admitted, Buffer, Plain, begun, taken]; decide +kernel⟩⟩

/-- Every pseudo-channel is held. -/
def heldAll (s : State) : State := { s with mem := { s.mem with held := (List.range 384).map (fun pc => (pc, 1)) } }
/-- Partition 0's bucket of stack 0 is full. -/
def served (s : State) : State := wr s (PART_STK_REG 0 0) 0x00FF0100
/-- A program that broke a rule of its check. -/
def bad0 (p : Program) : Program := { p with sevAll := 0x0101 }

theorem witness_NearBankRows :
    (∃ (s : State) (stack : Nat) (entry : Nat) (ds : List Line), (stack < stackCount s) ∧ (entry + ds.length ≤ 64)) ∧
    (∃ (s : State) (stack : Nat) (entry : Nat) (part : Nat) (tag : W32), (stack < stackCount s) ∧ (aptOn s = false ∨ entry < 32) ∧ (startRefused s stack part = false) ∧
      (programCode s stack entry = none)) ∧
    (∃ (s : State) (stack : Nat) (entry : Nat) (part : Nat) (code : Nat) (e : Nat) (tag : W32), (stack < stackCount s) ∧
      (aptOn s = false ∨ entry < 32) ∧ (startRefused s stack part = false) ∧ (programCode s stack entry = some (code, e))) ∧
    (∃ (s : State) (stack : Nat) (entry : Nat) (part : Nat) (tag : W32), (stack < stackCount s) ∧ (aptOn s = false ∨ entry < 32) ∧ (startRefused s stack part = true)) ∧
    (∃ (s : State) (entry : Nat), (aptOn s = true) ∧ (32 ≤ entry)) ∧
    (∃ (s : State) (stack : Nat) (off : Nat) (bs : List Byte), (stack < stackCount s) ∧ (off + bs.length ≤ 2097152)) ∧
    (∃ (s : State) (stack : Nat) (off : Nat) (n : Nat), (stack < stackCount s) ∧ (off + n ≤ 2097152)) ∧
    (∃ (s : State) (stack : Nat) (pid : Nat) (p : Program), (getProg s stack pid = some p)) ∧
    (∃ (c : Nat → Nat → Instr) (op : Nat) (s : State) (stack : Nat) (pid : Nat) (p : Program), ((c, op) ∈ [(Instr.gemv, 1), (Instr.qk, 2),
      (Instr.pv, 3)]) ∧ (AtEntry s stack pid op p) ∧ ((op ≠ 1 → pagesBad s stack (progDesc s p) = false))) ∧
    (∃ (c : Nat → Nat → Instr) (op : Nat) (s : State) (stack : Nat) (pid : Nat) (p : Program), ((c, op) ∈ [(Instr.gemv, 1), (Instr.qk, 2),
      (Instr.pv, 3)]) ∧ (AtEntry s stack pid op p) ∧ ((op ≠ 1 → pagesBad s stack (progDesc s p) = false))) ∧
    (∃ (c : Nat → Nat → Instr) (op : Nat) (s : State) (stack : Nat) (pid : Nat) (p : Program), ((c, op) ∈ [(Instr.qk, 2), (Instr.pv, 3)]) ∧
      (AtEntry s stack pid op p) ∧ (pagesBad s stack (progDesc s p) = true)) ∧
    (∃ (s : State) (stack : Nat) (pid : Nat) (p : Program), (AtEntry s stack pid 4 p)) ∧
    (∃ (s : State) (stack : Nat) (pid : Nat) (p : Program), (AtEntry s stack pid 5 p)) ∧
    (∃ (s : State) (stack : Nat) (pid : Nat) (p : Program), (AtEntry s stack pid 0x10 p) ∧ (localRange s (offOf (bAddr (progDesc s p) stack)) (bBytes
      (progDesc s p)) = .scratch) ∧ (transferOpen s p false (offOf (bAddr (progDesc s p) stack)) (bBytes (progDesc s p)) = true) ∧ (bAct (progDesc s p) + bBytes (progDesc s p) ≤ 2097152)) ∧
    (∃ (s : State) (stack : Nat) (pid : Nat) (p : Program), (AtEntry s stack pid 0x10 p) ∧
      (transferOpen s p (loadHeld s stack (progDesc s p)) (offOf (bAddr (progDesc s p) stack)) (bBytes (progDesc s p)) = true)) ∧
    (∃ (s : State) (stack : Nat) (pid : Nat) (p : Program), (AtEntry s stack pid 0x10 p) ∧
      (transferOpen s p (loadHeld s stack (progDesc s p)) (offOf (bAddr (progDesc s p) stack)) (bBytes (progDesc s p)) = false)) ∧
    (∃ (s : State) (stack : Nat) (pid : Nat) (p : Program), (AtEntry s stack pid 0x11 p) ∧
      (transferOpen s p (drainHeld s stack (progDesc s p)) (offOf (bAddr (progDesc s p) stack)) (bBytes (progDesc s p)) = false)) ∧
    (∃ (s : State) (p : Program) (off n : Nat), (localRange s off n = .device)) ∧
    (∃ (s : State) (p : Program) (off n : Nat), (localRange s off n = .scratch)) ∧
    (∃ (s : State) (stack : Nat) (pid : Nat) (p : Program), (AtEntry s stack pid 0x11 p) ∧
      (transferOpen s p (drainHeld s stack (progDesc s p)) (offOf (bAddr (progDesc s p) stack)) (bBytes (progDesc s p)) = true)) ∧
    (∃ (s : State) (stack : Nat) (pid : Nat) (p : Program), (AtEnd s stack pid 0 p)) ∧
    (∃ (s : State) (stack : Nat) (pid : Nat) (p : Program), (getProg s stack pid = some p) ∧ (p.begun = false) ∧ (bOp (progDesc s p) ≠ 0) ∧
      (p.sevAll = 0x0101) ∧ (endEntry s stack p.start = none)) ∧
    (∃ (c : Instr) (op stack pid : Nat) (s : State) (p : Program), ((c, op) ∈ [(Instr.gemv stack pid, 1), (.qk stack pid, 2), (.pv stack pid, 3),
      (.rclear stack pid, 4), (.pzero stack pid, 5), (.load stack pid, 0x10), (.drain stack pid, 0x11)]) ∧ (getProg s stack pid = some p) ∧
      (p.sevAll = 0x0101 ∨ bOp (progDesc s p) ≠ op ∨ p.begun = true)) ∧
    (∃ (s : State) (stack : Nat) (pid : Nat) (p : Program), (AtEnd s stack pid 0 p) ∧ (p.owner = .group) ∧ (bSemInc (progDesc s p) = 0) ∧ (bRecord
      (progDesc s p) ≠ 0) ∧ (localRange s (offOf (bRecord (progDesc s p))) 16 = .window) ∧ (s.host.linkUp = true) ∧ (rf s TRACE_CTRL 0 1 = 0)) ∧
    (∃ (s : State) (stack : Nat) (pid : Nat) (p : Program), (getProg s stack pid = some p) ∧ (p.begun = true) ∧ (p.left = [])) ∧
    (∃ (s : State) (stack : Nat) (pid : Nat) (p : Program), (getProg s stack pid = some p) ∧ (p.begun = false ∨ p.left ≠ [])) ∧
    (∃ (s : State) (stack : Nat) (pid : Nat) (p : Program), (getProg s stack pid = some p) ∧ (p.begun = false ∨ p.left ≠ [])) ∧
    (∃ (s : State) (stack : Nat) (pid : Nat) (bank : Nat) (p : Program), (getProg s stack pid = some p) ∧ (p.begun = true) ∧
      ((getUnit s bank).seg = none ∨ (getUnit s bank).seg = some pid) ∧ (pcHeld s (bank / 32) = false) ∧ (bank / 2048 = stack) ∧ (p.unflushed = [])) ∧
    (∃ (s : State) (stack : Nat) (pid : Nat) (bank : Nat) (p : Program), (getProg s stack pid = some p) ∧ (p.begun = true) ∧
      ((getUnit s bank).seg = none ∨ (getUnit s bank).seg = some pid) ∧ (pcHeld s (bank / 32) = false) ∧ (bank / 2048 = stack) ∧ (p.unflushed ≠ []) ∧
      ((∀ ln ∈ p.unflushed, lineWaits s ln = false)) ∧ (0 < tget p.left bank 0) ∧ (tget s.nb.usedBank bank 0 < 64)) ∧
    (∃ (s : State) (stack : Nat) (pid : Nat) (bank : Nat) (p : Program), (getProg s stack pid = some p) ∧ (pcHeld s (bank / 32) = true ∨ (∃ q,
      (getUnit s bank).seg = some q ∧ q ≠ pid) ∨ (∃ ln ∈ p.unflushed, lineWaits s ln = true))) ∧
    (∃ (s : State) (line : Line), (aptOn s = true) ∧ (bit line 14 = true) ∧ (bit s.nb.aptStatus 0 = false) ∧ (fld line 0 8 ≠ 0) ∧
      (1 ≤ fld line 8 6) ∧ (fld line 8 6 ≤ 32) ∧ (fld line 15 17 = 0) ∧ (fld line 64 448 = 0) ∧
      ((∀ k, k < 8 → bit line k = true → k < stackCount s ∧ startRefused s k (rf s (STK_APT_CTRL 0) 1 4) = false))) ∧
    (∃ (s : State) (line : Line), (aptOn s = true) ∧ (bit line 14 = true) ∧ (bit s.nb.aptStatus 0 = false) ∧
      (fld line 0 8 = 0 ∨ fld line 8 6 = 0 ∨ 32 < fld line 8 6)) ∧
    (∃ (s : State) (line : Line), (aptOn s = true) ∧ (bit line 14 = true) ∧ (bit s.nb.aptStatus 0 = true)) :=
  ⟨⟨up, 7, 62, [5, 6], by decide +kernel⟩,
   ⟨wf up (PART_NB 0) 8 3 1, 0, 0, 0, 9, by decide +kernel⟩,
   ⟨{ wf up (PART_NB 0) 8 3 1 with nb := { up.nb with progMem := [(0, 9)] } }, 0, 0, 0, 0x20, 0, 9, by decide +kernel⟩,
   ⟨up, 0, 0, 0, 9, by decide +kernel⟩,
   ⟨aptState 0, 32, by decide +kernel⟩,
   ⟨up, 7, 2097150, [1, 2], by decide +kernel⟩,
   ⟨up, 7, 2097150, 2, by decide +kernel⟩,
   ⟨nbAt 1 id, 0, 0, prog0 id, by decide +kernel⟩,
   ⟨Instr.qk, 2, pages (dQk 2) 1, 0, 0, prog0 id, by (simp only [AtEntry, AtEnd]; exact ⟨by simp, by decide +kernel, by decide +kernel⟩)⟩,
   ⟨Instr.gemv, 1, nbAt (dQk 1) id, 0, 0, prog0 id, by (simp only [AtEntry, AtEnd]; exact ⟨by simp, by decide +kernel, by simp⟩)⟩,
   ⟨Instr.pv, 3, pages (dQk 3) 4, 0, 0, prog0 id, by (simp only [AtEntry, AtEnd]; exact ⟨by simp, by decide +kernel, by decide +kernel⟩)⟩,
   ⟨nbAt (pack 512 [(0, 8, 4), (288, 21, 8), (384, 22, 4)]) id, 0, 0, prog0 id, by simp only [AtEntry, AtEnd, begun, taken]; decide +kernel⟩,
   ⟨withRegion (nbAt (pack 512 [(0, 8, 5), (80, 15, 4), (96, 15, 2), (160, 32, 1), (192, 12, 1)]) id) wreg, 0, 0, prog0 id, by simp only [AtEntry, AtEnd, begun, taken]; decide +kernel⟩,
   ⟨served (nbAt (pack 512 [(0, 8, 0x10), (320, 64, 0x20000060000), (384, 22, 4)]) id), 0, 0, prog0 id, by simp only [AtEntry, AtEnd, begun, taken]; decide +kernel⟩,
   ⟨served (nbAt (pack 512 [(0, 8, 0x10), (320, 64, 0x1000), (384, 22, 4)]) id), 0, 0, prog0 id, by simp only [AtEntry, AtEnd, begun, taken]; decide +kernel⟩,
   ⟨heldAll (nbAt (pack 512 [(0, 8, 0x10), (320, 64, 0x1000), (384, 22, 4)]) id), 0, 0, prog0 id, by simp only [AtEntry, AtEnd, begun, taken]; decide +kernel⟩,
   ⟨heldAll (nbAt (pack 512 [(0, 8, 0x11), (320, 64, 0x1000), (384, 22, 4)]) id), 0, 0, prog0 id, by simp only [AtEntry, AtEnd, begun, taken]; decide +kernel⟩,
   ⟨up, prog, 0x1000, 64, by decide +kernel⟩,
   ⟨up, prog, 0x20000060000, 64, by decide +kernel⟩,
   ⟨served (nbAt (pack 512 [(0, 8, 0x11), (320, 64, 0x1000), (384, 22, 4)]) id), 0, 0, prog0 id, by simp only [AtEntry, AtEnd, begun, taken]; decide +kernel⟩,
   ⟨nbAt 0 id, 0, 0, prog0 id, by simp only [AtEntry, AtEnd, begun, taken]; decide +kernel⟩,
   ⟨{ nbAt 1 bad0 with nb := { (nbAt 1 bad0).nb with progMem := (List.range 64).map (fun e => (e, 1)) } }, 0, 0, prog0 bad0, by decide +kernel⟩,
   ⟨.qk 0 0, 2, 0, 0, nbAt 1 id, prog0 id, by (exact ⟨by simp, by decide +kernel, by decide +kernel⟩)⟩,
   ⟨linked (nbAt (pack 512 [(32, 32, 9), (448, 64, 0x80000500000)]) fun p => { p with owner := .group, sevAll := 0x0101, detail := 0x27 }), 0, 0, prog0 fun p => { p with owner := .group, sevAll := 0x0101, detail := 0x27 }, by simp only [AtEntry, AtEnd, begun, taken]; decide +kernel⟩,
   ⟨nbAt 4 fun p => { p with begun := true }, 0, 0, prog0 fun p => { p with begun := true }, by decide +kernel⟩,
   ⟨nbAt 4 id, 0, 0, prog0 id, by decide +kernel⟩,
   ⟨nbAt 4 fun p => { p with begun := true, left := [(0, 3)] }, 0, 0, prog0 fun p => { p with begun := true, left := [(0, 3)] }, by decide +kernel⟩,
   ⟨nbAt 1 fun p => { p with begun := true, left := [(0, 3)] }, 0, 0, 0, prog0 fun p => { p with begun := true, left := [(0, 3)] }, by decide +kernel⟩,
   ⟨nbAt 1 fun p => { p with begun := true, left := [(0, 3)], unflushed := [1] }, 0, 0, 0, prog0 fun p => { p with begun := true, left := [(0, 3)], unflushed := [1] }, by decide +kernel⟩,
   ⟨{ nbAt 1 id with mem := { up.mem with held := [(0, 1)] } }, 0, 0, 0, prog0 id, by decide +kernel⟩,
   ⟨aptState 0, pack 512 [(0, 8, 1), (8, 6, 2), (14, 1, 1)], by (refine ⟨?_, ?_, ?_, ?_, ?_, ?_, ?_, ?_, ?_⟩ <;> decide +kernel)⟩,
   ⟨aptState 0, pack 512 [(0, 8, 1), (8, 6, 33), (14, 1, 1)], by decide +kernel⟩,
   ⟨aptState 1, pack 512 [(0, 8, 1), (8, 6, 2), (14, 1, 1)], by decide +kernel⟩⟩

/-- A FILL of four numbers that adds into device memory. -/
def td0 : BitVec 1024 := pack 1024 [(0, 64, 0x2000), (64, 4, 0), (72, 3, 1), (88, 1, 1), (96, 32, 4)]
def filling : State := placeBytes up 0x1000 (bsOf 128 td0.toNat)
def rq2 : MoveReq := rq (dMove 2 [(128, 64, 0x1000)]) 0
def plan2 : MvPlan := { fill := true, src := 0, dst := td0, srcIdx := [], dstIdx := [] }
def mv2 : Move := mv fun m => { m with req := rq2, dst := td0, phase := .gets }
def mvR : Move := mv fun m => { m with req := rq (dMove 1 [(256, 64, 0x4000)]) 0 }
def isPlan {ε : Type} (r : Except ε MvPlan) (p : MvPlan) : Bool := match r with | .ok q => decide (q = p) | .error _ => false
theorem planOf {ε : Type} (r : Except ε MvPlan) (p : MvPlan) (h : isPlan r p = true) : r = .ok p := by
  cases r with
  | ok q => exact congrArg _ (of_decide_eq_true h)
  | error _ => cases h

theorem witness_HoistRows :
    (∃ (s : State) (hoist : Nat) (i : Nat) (r : MoveReq), (nextMove s hoist = some i) ∧ (s.hoists.queue[i]? = some r) ∧ (serving s = true) ∧
      (hoistHeld s hoist = false) ∧ (moveReady s r = true)) ∧
    (∃ (s : State) (hoist : Nat) (i : Nat) (r : MoveReq), (nextMove s hoist = some i) ∧ (s.hoists.queue[i]? = some r) ∧ (serving s = true) ∧
      (hoistHeld s hoist = false) ∧ (moveReady s r = true)) ∧
    (∃ (s : State) (hoist : Nat) (i : Nat) (r : MoveReq), (nextMove s hoist = some i) ∧ (s.hoists.queue[i]? = some r) ∧ (moveReady s r = false)) ∧
    (∃ (s : State) (r : MoveReq) (p : MvPlan), (r.unreadable = 0) ∧ ((mvCheck s r.desc (r.owner.map (·.vcore))).1 = .ok p) ∧ (mvHeld s r.desc p = true)) ∧
    (∃ (s : State) (r : MoveReq) (p : MvPlan), (r.unreadable = 0) ∧ ((mvCheck s r.desc (r.owner.map (·.vcore))).1 = .ok p) ∧
      (bytesOpen s r.part (mvBytes s r.desc p) = false)) ∧
    (∃ (s : State) (hoist : Nat) (i : Nat), (nextMove s hoist = some i)) ∧
    (∃ (s : State) (hoist : Nat), (hoistHeld s hoist = true)) ∧
    (∃ (s : State) (hoist : Nat) (i : Nat) (r : MoveReq), (nextMove s hoist = some i) ∧ (s.hoists.queue[i]? = some r) ∧ (serving s = true) ∧
      (hoistHeld s hoist = false) ∧ (r.unreadable ≠ 0) ∧ (mvOp r.desc ≠ 2)) ∧
    (∃ (s : State) (hoist : Nat) (i : Nat) (r : MoveReq), (nextMove s hoist = some i) ∧ (s.hoists.queue[i]? = some r) ∧ (serving s = true) ∧
      (hoistHeld s hoist = false) ∧ (moveReady s r = true) ∧ (mvOp r.desc = 2)) ∧
    (∃ (s : State) (m : Move), (s.hoists.moves.find? (fun x => x.id == m.id) = some m) ∧ (pktOpen s (.move m.id) = false) ∧
      (hoistHeld s m.req.hoist = false) ∧ (m.phase = .done) ∧ (mvEndNode s m = 0) ∧ (mvRecordHeld s m = false)) ∧
    (∃ (s : State) (m : Move), (s.hoists.moves.find? (fun x => x.id == m.id) = some m) ∧ (pktOpen s (.move m.id) = false) ∧
      (hoistHeld s m.req.hoist = false) ∧ (m.phase = .done) ∧ (mvEndNode s m = 0) ∧ (m.req.unreadable = 0) ∧ (m.req.cmd = none) ∧
      (mvRecord m.req.desc ≠ 0) ∧ (mvInc m.req.desc = 0) ∧ (localRange s (mvRecord m.req.desc % 2 ^ 48) 16 = .window) ∧ (s.host.linkUp = true) ∧
      (rf s TRACE_CTRL 0 1 = 0)) ∧
    (∃ (s : State) (m : Move) (c : Cmd), (s.hoists.moves.find? (fun x => x.id == m.id) = some m) ∧ (pktOpen s (.move m.id) = false) ∧
      (hoistHeld s m.req.hoist = false) ∧ (m.phase = .done) ∧ (mvEndNode s m = 0) ∧ (mvRecordHeld s m = false) ∧ (m.req.cmd = some c.id) ∧ (getCmd s c.id = some c)) ∧
    (∃ (s : State) (m : Move), (s.hoists.moves.find? (fun x => x.id == m.id) = some m) ∧ (pktOpen s (.move m.id) = true)) ∧
    (∃ (s : State) (m : Move), (s.hoists.moves.find? (fun x => x.id == m.id) = some m) ∧ (m.phase = .gets) ∧ (mvHeld s m.req.desc m.plan = true)) ∧
    (∃ (s : State) (m : Move), (s.hoists.moves.find? (fun x => x.id == m.id) = some m) ∧ (mvEndNode s m = 0) ∧ (mvRecordHeld s m = true)) :=
  ⟨⟨hoisting (rq (dMove 2 []) 0), 0, 0, rq (dMove 2 []) 0, by decide +kernel⟩,
   ⟨hoisting (rq (dMove 1 []) 0), 0, 0, rq (dMove 1 []) 0, by decide +kernel⟩,
   ⟨heldAll { filling with hoists := { up.hoists with queue := [rq2] } }, 0, 0, rq2, by decide +kernel⟩,
   ⟨heldAll filling, rq2, plan2, by decide +kernel, planOf _ _ (by decide +kernel), by decide +kernel⟩,
   ⟨filling, rq2, plan2, by decide +kernel, planOf _ _ (by decide +kernel), by decide +kernel⟩,
   ⟨hoisting (rq (dMove 1 [(8, 1, 1)]) 0), 0, 0, by decide +kernel⟩,
   ⟨recovering 1 0, 3, by decide +kernel⟩,
   ⟨hoisting (rq (dMove 1 []) 0x0200), 0, 0, rq (dMove 1 []) 0x0200, by decide +kernel⟩,
   ⟨hoisting (rq (dMove 2 []) 0), 0, 0, rq (dMove 2 []) 0, by decide +kernel⟩,
   ⟨moving up (mv id), mv id, by decide +kernel⟩,
   ⟨moving (linked up) (mv fun m => { m with req := rq (dMove 1 [(256, 64, 0x80000500000)]) 0 }), mv fun m => { m with req := rq (dMove 1 [(256, 64, 0x80000500000)]) 0 }, by decide +kernel⟩,
   ⟨moving (holds up (going cMm)) (mv fun m => { m with req := { rq (dMove 1 []) 0 with cmd := some 5 } }), mv fun m => { m with req := { rq (dMove 1 []) 0 with cmd := some 5 } }, going cMm, by decide +kernel⟩,
   ⟨{ moving up (mv id) with fab := { up.fab with flows := [{ Flow.fresh 7 0 with waitq := [pktOf (.move 1)] }] } }, mv id, by decide +kernel⟩,
   ⟨moving (heldAll up) mv2, mv2, by decide +kernel⟩,
   ⟨moving (heldAll up) mvR, mvR, by decide +kernel⟩⟩

/-- The groups and programs of a step in partition 0. -/
def item0 : PlanItem := { kind := 3, model := 6, index := 0, batch := 1, entry := grp }
def np0 : NearProg := { stack := 0, lists := [], body := [4], bytes := 64 }
def runR : StepRun := run0 fun r => { r with rounds := [[np0]] }
def runS : StepRun := run0 fun r => { r with sem := 4, signals := 3 }
def runA : StepRun := run0 fun r => { r with works := (startWorks serving0 0 ring0).1, group := some (item0, .dense), attn := [2] }
def dr0 : DenseRead := { addr := 0, n := 32, out := 0, session := none }
def runD : StepRun := run0 fun r => { r with dense := [dr0] }
def runT : StepRun := run0 fun r => { r with todo := [item0] }
def runN : StepRun := run0 fun r => { r with group := some (item0, .near) }
def progN : Program := { prog with owner := .sequencer 0, begun := true }
/-- A program of the step stands at an entry of operation `op`, its stack at grant `g` for 100 µs. -/
def dried (g op : Nat) : State :=
  let s := clocked (stepping0 runN) 200000
  { s with nb := { s.nb with programs := [progN], progMem := [(0, BitVec.ofNat 512 op)], grant := [(0, g)] } }
/-- The host store holds one image, which another session's move is to fill. -/
def full3 : State :=
  let s := tiers (sTier 1 id) 64
  { s with se := { s.se with sessions := [(2, sTier 1 id), (3, sTier 1 fun x => { x with tierTo := some 3, tierAddr := 8796096167936 })] } }
theorem someOf {α : Type} (o : Option α) (d : α) (h : o.isSome = true) : o = some (o.getD d) := by
  cases o with
  | some _ => rfl
  | none => cases h
theorem tripleEta {α β γ : Type} (x : α × β × γ) : x = (x.1, x.2.1, x.2.2) := rfl

/-- The first line of a session's image is poisoned. -/
def badS : State := setLine (tiers (sTier 1 id) 4096) 0 { data := 0, valid := 3, dirty := 0, poison := 3 }
def badImg : W16 × List Byte × State := readImage badS (srKvAddr (sTier 1 id).record) (srPacked (sTier 1 id).record)
theorem badImgEta : readImage badS (srKvAddr (sTier 1 id).record) (srPacked (sTier 1 id).record) = (badImg.1, badImg.2.1, badImg.2.2) := tripleEta badImg
theorem badImgBad : badImg.1 ≠ 0 := by decide +kernel

theorem witness_StepRows :
    (∃ (s : State) (part : Nat) (ring : Ring) (p : Part) (ws : List Work) (u : State), (part < 16) ∧ (tfind s.se.rings part = some ring) ∧
      (tfind s.parts part = some p) ∧ (serving s = true) ∧ (tfind s.faults.running 5 = none) ∧ (tfind s.se.steps part = none) ∧
      (displaced s part = []) ∧ (startWorks s part ring = (ws, u)) ∧ (ws ≠ []) ∧ (recordFits u part ring (min (maxEntries ring) (ws.length + min 1024
      (tget u.se.status part []).length)) = true)) ∧
    (∃ (s : State) (part : Nat) (run : StepRun), (tfind s.se.steps part = some run)) ∧
    (∃ (s : State) (part : Nat) (run : StepRun), (tfind s.se.steps part = some run) ∧ (halvesDone s part run = none)) ∧
    (∃ (s u : State) (part : Nat) (run : StepRun), (halvesDone s part run = some u) ∧ (run.signals + run.denseSig ≠ 0)) ∧
    (∃ (s u v : State) (part : Nat) (x : PlanItem) (run : StepRun) (rounds : List (List NearProg)), (tfind s.se.steps part = some run) ∧
      (halvesDone s part run = some u) ∧ (attentionDue run = some x) ∧
      (attnRounds u part { run.settled with attended := true } x = (rounds, v)) ∧
      ((rounds ≠ [] ∨ attnReads v { run.settled with attended := true } x ≠ []))) ∧
    (∃ (s : State) (part : Nat) (run : StepRun) (x : DenseRead), (run.dense = [x]) ∧ (devHeld s x.addr x.n = true)) ∧
    (∃ (s : State) (part : Nat) (run : StepRun) (x : DenseRead), (run.dense = [x]) ∧ (rangeOpen s part x.addr x.n = false)) ∧
    (∃ (s : State) (part : Nat) (run : StepRun) (x : DenseRead), (run.dense = [x]) ∧ (devHeld s x.addr x.n = false) ∧
      (rangeOpen s part x.addr x.n = true)) ∧
    (∃ (s : State) (part : Nat) (run : StepRun), (tfind s.se.steps part = some run) ∧ (run.dense ≠ []) ∧ ((denseTurn s part run).1.dense = [])) ∧
    (∃ (s u : State) (part : Nat) (x : PlanItem) (rest : List PlanItem) (run : StepRun), (tfind s.se.steps part = some run) ∧
      (halvesDone s part run = some u) ∧ (attentionDue run = none) ∧ (run.todo = x :: rest)) ∧
    (∃ (s u : State) (part sem : Nat) (p : NearProg), (startNear s part sem p = some u)) ∧
    (∃ (s : State) (part : Nat) (x : PlanItem) (mode : Mode) (run : StepRun) (p : Program), (tfind s.se.steps part = some run) ∧
      (run.group = some (x, mode)) ∧ (mode ≠ .dense) ∧ (run.attended = false) ∧ (run.drained = false) ∧ (run.signals ≤ (seqProgs s part).length) ∧
      (∀ q ∈ s.nb.programs, q.owner = .sequencer part → drainBegun s q = false) ∧ (p ∈ s.nb.programs) ∧ (p.owner = .sequencer part) ∧
      (tget s.nb.grant p.stack 0 = 0) ∧ (1000 * forceFld s part HF_LSPLIT_CFG 16 8 ≤ dryNs s p.stack)) ∧
    (∃ (s : State) (part : Nat) (run : StepRun) (p : Program), (tfind s.se.steps part = some run) ∧ (p ∈ s.nb.programs) ∧ (p.owner = .sequencer part) ∧
      (∀ p ∈ s.nb.programs, p.owner = .sequencer part → tget s.nb.grant p.stack 0 ≠ 0 ∨ dryNs s p.stack < 1000 * forceFld s part HF_LSPLIT_CFG 16 8)) ∧
    (∃ (s : State) (part : Nat) (run : StepRun), (tfind s.se.steps part = some run) ∧
      (∃ p ∈ s.nb.programs, p.owner = .sequencer part ∧ drainBegun s p = true)) ∧
    (∃ (s : State) (part : Nat) (run : StepRun), (tfind s.se.steps part = some run) ∧ (run.drained = true)) ∧
    (∃ (s : State) (part : Nat) (run : StepRun), (tfind s.se.steps part = some run) ∧ ((seqProgs s part).length < run.signals)) ∧
    (∃ (s u : State) (part : Nat) (run : StepRun) (ring : Ring), (tfind s.se.steps part = some run) ∧ (tfind s.se.rings part = some ring) ∧
      (run.todo = []) ∧ (attentionDue run = none) ∧ (halvesDone s part run = some u)) ∧
    (∃ (s : State) (part : Nat) (run : StepRun), (tfind s.se.steps part = some run) ∧ (run.todo ≠ [])) ∧
    (∃ (s : State) (part : Nat) (run : StepRun), (tfind s.se.steps part = some run) ∧ (attentionDue run ≠ none)) ∧
    (∃ (s : State) (part : Nat) (run : StepRun), (tfind s.se.steps part = some run) ∧ (halvesDone s part run = none)) :=
  ⟨⟨serving0, 0, ring0, (tfind serving0.parts 0).getD Part.zero, (startWorks serving0 0 ring0).1, (startWorks serving0 0 ring0).2, by (refine ⟨by decide, ?_, ?_, ?_, ?_, ?_, ?_, pairEta _, ?_, ?_⟩ <;> decide +kernel)⟩,
   ⟨stepping0 (run0 id), 0, run0 id, by decide +kernel⟩,
   ⟨stepping0 runR, 0, runR, by decide +kernel⟩,
   ⟨setSem (stepping0 runS) 4 { getSem up 4 with value := 3 }, _, 0, runS, someOf _ up (by decide +kernel), by decide +kernel⟩,
   ⟨stepping0 runA, _, _, 0, item0, runA, _, by decide +kernel, someOf _ up (by decide +kernel), by decide +kernel, pairEta _, by decide +kernel⟩,
   ⟨heldAll up, 0, runD, dr0, rfl, by decide +kernel⟩,
   ⟨up, 0, runD, dr0, rfl, by decide +kernel⟩,
   ⟨fund up (homeSlice up 0 / 64), 0, runD, dr0, rfl, by decide +kernel⟩,
   ⟨fund (stepping0 runD) (homeSlice up 0 / 64), 0, runD, by decide +kernel⟩,
   ⟨stepping0 runT, _, 0, item0, [], runT, by decide +kernel, someOf _ up (by decide +kernel), by decide +kernel, rfl⟩,
   ⟨wf up (PART_NB 0) 8 3 1, _, 0, 0, np0, someOf _ up (by decide +kernel)⟩,
   ⟨dried 0 0, 0, item0, .near, runN, progN, by decide +kernel⟩,
   ⟨dried 5 0, 0, runN, progN, by decide +kernel⟩,
   ⟨dried 0 0x11, 0, runN, by decide +kernel, progN, by decide +kernel⟩,
   ⟨stepping0 (run0 fun r => { r with drained := true }), 0, run0 fun r => { r with drained := true }, by decide +kernel⟩,
   ⟨stepping0 runS, 0, runS, by decide +kernel⟩,
   ⟨stepping0 (run0 id), _, 0, run0 id, ring0, by decide +kernel, by decide +kernel, rfl, by decide +kernel, someOf _ up (by decide +kernel)⟩,
   ⟨stepping0 runT, 0, runT, by decide +kernel⟩,
   ⟨stepping0 runA, 0, runA, by decide +kernel⟩,
   ⟨stepping0 runR, 0, runR, by decide +kernel⟩⟩

theorem witness_StepRows_boundaries :
    (∃ (s : State) (part : Nat), (partDefined s part = true) ∧ (tfind s.se.steps part = none) ∧ (serving s = true) ∧ (tfind
      (boundary s part []).se.rings part = none)) ∧
    (∃ (s : State) (part : Nat), (partDefined s part = true) ∧ (tfind s.se.steps part = none) ∧ (serving s = true) ∧ (tget
      (boundary s part []).se.status part [] = []) ∧ (tfind (boundary s part []).se.rings part ≠ none)) ∧
    (∃ (s v : State) (part : Nat) (ring : Ring) (q : List Line), (partDefined s part = true) ∧ (tfind s.se.steps part = none) ∧ (serving s = true) ∧
      (tfind (boundary s part []).se.rings part = some ring) ∧ (tget (boundary s part []).se.status part [] ≠ []) ∧
      (takeStatus (boundary s part []) part ring 0 = (q, v)) ∧ (q ≠ []) ∧ ((startWorks v part ring).1 = [])) ∧
    (∃ (s v : State) (part : Nat) (ring : Ring) (q : List Line), (partDefined s part = true) ∧ (tfind s.se.steps part = none) ∧ (serving s = true) ∧
      (tfind (boundary s part []).se.rings part = some ring) ∧ (tget (boundary s part []).se.status part [] ≠ []) ∧
      (takeStatus (boundary s part []) part ring 0 = (q, v)) ∧ ((startWorks v part ring).1 ≠ [])) ∧
    (∃ (s : State) (i : Nat) (x : Session), (getSess (cacheIn s i) i = some x) ∧ (srState x.record = stPaused) ∧ (srPinned x.record = false) ∧
      (x.tierTo = none) ∧ (x.waiting = false) ∧ (srUntil x.record ≤ now (cacheIn s i)) ∧ (srUntil x.record ≠ 2 ^ 64 - 1)) ∧
    (∃ (s : State) (i t : Nat) (x : Session), (getSess s i = some x) ∧ (nextTier s x t = 4)) ∧
    (∃ (s : State) (i t a : Nat) (x : Session), (getSess s i = some x) ∧ (nextTier s x t ≠ 4) ∧ (imagePlace s (nextTier s x t) (packedSize x) = some a)) ∧
    (∃ (s : State) (i t : Nat) (x : Session), (getSess s i = some x) ∧ (nextTier s x t ≠ 4) ∧ (imagePlace s (nextTier s x t) (packedSize x) = none) ∧
      (movable (putSess s i { x with tierWait := some (t + 1) }) (nextTier s x t) = [])) ∧
    (∃ (s : State) (t size a : Nat), (imagePlace s t size = some a)) ∧
    (∃ (s : State) (i t : Nat) (x y : Session), (getSess s i = some x) ∧ (x.tierTo = some t) ∧ (x.tierDone = false) ∧
      (getSess (cacheIn s i) i = some y) ∧ (y.tierId = none) ∧ (tierOpen (cacheIn s i) i t y = true) ∧ (t = 0)) ∧
    (∃ (s : State) (i t : Nat) (x y : Session), (getSess s i = some x) ∧ (x.tierTo = some t) ∧ (x.tierDone = false) ∧
      (getSess (cacheIn s i) i = some y) ∧ (y.tierId = none) ∧ (tierOpen (cacheIn s i) i t y = false) ∧ (t ≠ 0)) ∧
    (∃ (s u : State) (t : Nat) (st : W16) (img : List Byte) (x : Session), (srTier x.record ≠ 0) ∧ (imageHere s (srKvAddr x.record) = true) ∧ (x.tierId = none) ∧
      (readImage s (srKvAddr x.record) (srPacked x.record) = (st, img, u)) ∧ (t = 0) ∧ (st ≠ 0)) :=
  ⟨⟨{ parted up with se := { up.se with rings := [] } }, 0, by decide +kernel⟩,
   ⟨serving0, 0, by decide +kernel⟩,
   ⟨{ parted up with se := { up.se with rings := [(0, ring0)], status := [(0, [7])] } }, _, 0, ring0, _,
    by decide +kernel, by decide +kernel, by decide +kernel, by decide +kernel, by decide +kernel, pairEta _, by decide +kernel, by decide +kernel⟩,
   ⟨{ serving0 with se := { serving0.se with status := [(0, [7])] } }, _, 0, ring0, _,
    by decide +kernel, by decide +kernel, by decide +kernel, by decide +kernel, by decide +kernel, pairEta _, by decide +kernel⟩,
   ⟨tiers (sTier 3 id) 4096, 2, sTier 3 id, by decide +kernel⟩,
   ⟨tiers (sTier 3 id) 4096, 2, 3, sTier 3 id, by decide +kernel⟩,
   ⟨tiers (sTier 1 id) 4096, 2, 1, 8796096167936, sTier 1 id, by decide +kernel⟩,
   ⟨full3, 2, 1, sTier 1 id, by decide +kernel⟩,
   ⟨tiers (sTier 1 id) 4096, 3, 64, 8796096167936, by decide +kernel⟩,
   ⟨iterate 8 (fun k s => fund s k) (tiers (sTier 1 fun x => { x with tierTo := some 0 }) 4096), 2, 0, sTier 1 fun x => { x with tierTo := some 0 }, sTier 1 fun x => { x with tierTo := some 0 }, by decide +kernel⟩,
   ⟨tiers (sTier 1 fun x => { x with tierTo := some 3 }) 4096, 2, 3, sTier 1 fun x => { x with tierTo := some 3 }, sTier 1 fun x => { x with tierTo := some 3 }, by decide +kernel⟩,
   ⟨badS, badImg.2.2, 0, badImg.1, badImg.2.1, sTier 1 id, by decide +kernel, by decide +kernel, rfl, badImgEta, Eq.refl 0, badImgBad⟩⟩

/-- A payload fills the receive buffer by itself. -/
theorem buffer_full (s : State) (f : Frame) (h : f.payload = List.replicate 4194304 0) : 4194304 < rxBuffered s f.port + 64 + f.payload.length := by
  rw [h, List.length_replicate]; omega
theorem witness_DataPacketRows :
    (∃ (r : Frame → Instr) (ks : List Byte) (s : State) (f : Frame), (DataRow r ks) ∧ (f.op.kind ∈ ks) ∧ (rxUp s f = false)) ∧
    (∃ (r : Frame → Instr) (ks : List Byte) (s : State) (f : Frame) (n : Nat), (DataRow r ks) ∧ (f.op.kind ∈ ks) ∧ (rxUp s f = true) ∧
      (tget s.fab.dropNext f.port 0 = n + 1)) ∧
    (∃ (r : Frame → Instr) (ks : List Byte) (s : State) (f : Frame), (DataRow r ks) ∧ (f.op.kind ∈ ks) ∧ (Received s f) ∧
      (knownPeer s f.src = false)) ∧
    (∃ (r : Frame → Instr) (ks : List Byte) (s : State) (f : Frame), (DataRow r ks) ∧ (f.op.kind ∈ ks) ∧ (Received s f) ∧
      (knownPeer s f.src = true) ∧ (¬InFlow s f)) ∧
    (∃ (r : Frame → Instr) (ks : List Byte) (s : State) (f : Frame), (DataRow r ks) ∧ (f.op.kind ∈ ks) ∧ (Received s f) ∧
      (knownPeer s f.src = true) ∧ (InFlow s f) ∧ (placeOf s f = none)) ∧
    (∃ (r : Frame → Instr) (ks : List Byte) (s : State) (f : Frame), (DataRow r ks) ∧ (f.op.kind ∈ ks) ∧ (Received s f) ∧
      (knownPeer s f.src = true) ∧ (InFlow s f) ∧ (placeOf s f = some (psnOf s f)) ∧ (psnOf s f < (rxFlow s f).rxRcv)) ∧
    (∃ (r : Frame → Instr) (ks : List Byte) (s : State) (f : Frame), (DataRow r ks) ∧ (f.op.kind ∈ ks) ∧ (rxUp s f = true) ∧
      (tget s.fab.dropNext f.port 0 = 0) ∧ (4194304 < rxBuffered s f.port + 64 + f.payload.length)) ∧
    (∃ (s : State) (peer cls j : Nat) (rest : List Nat) (a : BitVec 128), (usable s peer cls = j :: rest) ∧ ((wireOf s peer j).hop = some a) ∧
      ((wireOf s peer j).mac = none)) ∧
    (∃ (s : State) (peer cls : Nat), usable s peer cls = []) ∧
    (∃ (b v p : Nat), (v < 2 ^ 24) ∧ (psnNear b v = some p) ∧ (p < b)) ∧
    (∃ (r : Frame → Instr) (ks : List Byte) (s : State) (f : Frame), (DataRow r ks) ∧ (f.op.kind ∈ ks) ∧ (Received s f) ∧
      (knownPeer s f.src = true) ∧ (InFlow s f) ∧ (placeOf s f = some (psnOf s f)) ∧ ((rxFlow s f).rxRcv + 2048 ≤ psnOf s f) ∧ (psnOf s f ∉ (rxFlow s f).rxHave)) ∧
    (∃ (s : State) (f : Frame), (f.syn = true) ∧ ((getFlow s f.src f.cls).rxPair ≠ some (f.srcEpoch, f.incarn))) ∧
    (∃ (f : Flow) (p : Nat), (f.rxRcv ≤ p) ∧ (f.rxRcv ∉ f.rxHave) ∧ (p ∉ f.rxHave) ∧ (f.rxHave.Nodup)) ∧
    (∃ (s : State) (f : Frame) (r : Frame → Instr) (ks : List Byte), (Accepted s f) ∧ (f.op.kind ∈ ([1, 2, 3, 4, 5, 6, 7] : List Byte)) ∧
      (devState s = 7) ∧ (DataRow r ks) ∧ (f.op.kind ∈ ks)) ∧
    (∃ (s : State) (f : Frame) (r : Frame → Instr) (ks : List Byte), (Accepted s f) ∧ (serving s = true) ∧ (rxBlocked
      (arrived s f) f.op f.payload = true) ∧ (f.op.kind ∈ ([1, 2, 4, 5, 6] : List Byte)) ∧ (DataRow r ks) ∧ (f.op.kind ∈ ks)) :=
  ⟨⟨Instr.put, [1], up, fr (op0 1) [1] id, by and_intros <;> first | trivial | (simp only [DataRow]; simp; done)⟩,
   ⟨Instr.put, [1], { net with fab := { net.fab with dropNext := [(0, 1)] } }, fr (op0 1) [1] id, 0, by and_intros <;> first | trivial | (simp only [DataRow]; simp; done)⟩,
   ⟨Instr.get, [5], { net with fab := { net.fab with peers := [] } }, fr (op0 5) [] id, by simp only [Received]; and_intros <;> first | trivial | (simp only [DataRow]; simp; done)⟩,
   ⟨Instr.get, [5], net, fr (op0 5) [] fun f => { f with syn := false }, by simp only [InFlow, Received]; and_intros <;> first | trivial | (simp only [DataRow]; simp; done)⟩,
   ⟨Instr.get, [5], { net with fab := { net.fab with flows := [{ Flow.fresh 7 0 with rxPair := some (4, 2), rxRcv := 1 }] } }, fr (op0 5) [] id, by simp only [InFlow, Received]; and_intros <;> first | decide +kernel | (simp only [DataRow]; simp; done)⟩,
   ⟨Instr.get, [5], { net with fab := { net.fab with flows := [{ Flow.fresh 7 0 with rxPair := some (4, 2), rxRcv := 1 }] } }, fr (op0 5) [] fun f => { f with syn := false }, by simp only [InFlow, Received]; and_intros <;> first | decide +kernel | (simp only [DataRow]; simp; done)⟩,
   ⟨Instr.put, [1], net, fr (op0 1) (List.replicate 4194304 0) id, by simp only [DataRow]; simp, by decide, by decide +kernel, by decide +kernel, buffer_full _ _ rfl⟩,
   ⟨net, 7, 0, 0, [1], 0, by decide +kernel⟩,
   ⟨net, 8, 0, by decide +kernel⟩,
   ⟨3, 2, 2, by decide +kernel⟩,
   ⟨Instr.get, [5], net, fr (op0 5) [] fun f => { f with psn := 2048 }, by simp only [InFlow, Received]; and_intros <;> first | trivial | (simp only [DataRow]; simp; done)⟩,
   ⟨net, fr (op0 1) [] id, by decide +kernel⟩,
   ⟨Flow.fresh 7 0, 0, by decide +kernel⟩,
   ⟨wf net GLOBAL_STATE 0 3 7, fr (op0 5) [] id, Instr.get, [5], by simp only [Accepted, InFlow, Received]; and_intros <;> first | trivial | (simp only [DataRow]; simp; done)⟩,
   ⟨{ net with mem := { net.mem with held := (List.range 512).map (fun i => (i, 1)) } }, fr { op0 5 with len := 8 } [] id, Instr.get, [5], by simp only [Accepted, InFlow, Received]; and_intros <;> first | trivial | (simp only [DataRow]; simp; done)⟩⟩

theorem witness_InboundOperationRows :
    (∃ (s : State) (f : Frame), (Asked s f 1) ∧ (f.payload ≠ []) ∧ (Ours s f) ∧ (Permits s f [194]) ∧ (InDevice s f f.payload.length)) ∧
    (∃ (s : State) (f : Frame), (Asked s f 1) ∧ (f.payload ≠ []) ∧ (Ours s f) ∧ (Permits s f [194, 197]) ∧ (InScratch s f f.payload.length)) ∧
    (∃ (s : State) (f : Frame), (Asked s f 1) ∧ (f.payload ≠ []) ∧ (Ours s f) ∧ (Permits s f [194, 199]) ∧ (localRange s
      (offOf f.op.addr) 4 = .image) ∧ (offOf f.op.addr % 4 = 0) ∧ (f.payload.length = 4) ∧ (f.cls = 3)) ∧
    (∃ (s : State) (f : Frame), (Asked s f 1) ∧ (f.payload ≠ []) ∧ (Ours s f) ∧ (¬Permits s f [194])) ∧
    (∃ (s : State) (f : Frame), (Asked s f 1) ∧ (f.payload ≠ []) ∧ (Ours s f) ∧ (Permits s f [194]) ∧ (localRange s
      (offOf f.op.addr) f.payload.length = .none)) ∧
    (∃ (s : State) (f : Frame), (Asked s f 1) ∧ (f.payload = []) ∧ (Permits s f [194])) ∧
    (∃ (s : State) (f : Frame), (Asked s f 1) ∧ (f.payload = []) ∧ (¬Permits s f [194])) ∧
    (∃ (s : State) (f : Frame), (Asked s f 2) ∧ (Ours s f) ∧ (Permits s f [194]) ∧ (InDevice s f f.payload.length) ∧ (f.op.atype ∈ [0, 2, 3, 4]) ∧
      (f.payload.length = atypeBytes f.op.atype) ∧ (offOf f.op.addr % atypeBytes f.op.atype = 0)) ∧
    (∃ (s : State) (f : Frame), (Asked s f 2) ∧ ((f.op.atype = 1 ∨ 4 < f.op.atype))) ∧
    (∃ (s : State) (f : Frame), (Asked s f 3) ∧ (Permits s f [196])) ∧
    (∃ (s : State) (f : Frame), (Asked s f 4) ∧ (f.payload = []) ∧ (f.op.operand ≠ 0) ∧ (Permits s f [196])) ∧
    (∃ (s : State) (v : State) (f : Frame), (Asked s f 4) ∧ (f.payload.length = 16) ∧ (Ours s f) ∧ (Permits s f [194, 196]) ∧ (InDevice s f 16) ∧
      (localWrite (arrived s f) (offOf f.op.addr) f.payload (rxRq f.op) = (stOk, v))) ∧
    (∃ (s : State) (v : State) (st : W16) (f : Frame), (Asked s f 4) ∧ (f.payload.length = 16) ∧ (Ours s f) ∧ (Permits s f [194, 196]) ∧
      (InDevice s f 16) ∧ (localWrite (arrived s f) (offOf f.op.addr) f.payload (rxRq f.op) = (st, v)) ∧ (st ≠ stOk) ∧ (st ≠ stBadParam)) ∧
    (∃ (s : State) (f : Frame), (Asked s f 5) ∧ (Ours s f) ∧ (0 < f.op.len) ∧ (offOf f.op.addr % 4096 + f.op.len ≤ 4096) ∧
      (f.op.len ≤ largestPayload s f.src) ∧ ((Permits s f [193] ∧ InDevice s f f.op.len) ∨ (Permits s f [193, 197] ∧ InScratch s f f.op.len))) ∧
    (∃ (s : State) (f : Frame), (Asked s f 5) ∧ (¬Permits s f [193])) ∧
    (∃ (s : State) (f : Frame) (st : W16) (old : Nat) (v : State), (Asked s f 6) ∧ (Ours s f) ∧ (amoLegal f.op.akind f.op.atype = true) ∧
      (f.payload.length = (if f.op.akind = 2 then 8 else 0)) ∧ (Permits s f [195]) ∧ (InDevice s f (atypeBytes f.op.atype)) ∧
      (offOf f.op.addr % atypeBytes f.op.atype = 0) ∧ (amoAt (arrived s f) (offOf f.op.addr) f.op.akind f.op.atype f.op.operand.toNat
      (leNat f.payload) (rxRq f.op) = (st, old, v))) ∧
    (∃ (s : State) (f : Frame), (Asked s f 7) ∧ (f.payload.length = 64) ∧ (Permits s f [200])) ∧
    (∃ (s : State) (f : Frame), (Asked s f 7) ∧ (f.payload.length ≠ 64)) ∧
    (∃ (s : State) (f : Frame) (r : Frame → Instr) (ks : List Byte), (Accepted s f) ∧ (devState s ≠ 7) ∧ (Unheld s f) ∧ (f.op.reserved = true) ∧ (DataRow r ks) ∧ (f.op.kind ∈ ks) ∧ (f.op.kind ∈
      ([1, 2, 3, 4, 5, 6, 7] : List Byte))) ∧
    (∃ (s : State) (f : Frame), (Accepted s f) ∧ (devState s ≠ 7) ∧ (Unheld s f) ∧ (f.op.kind = 0 ∨
      (7 < f.op.kind.toNat ∧ f.op.kind.toNat < 0x81) ∨ 0x84 < f.op.kind.toNat)) :=
  ⟨⟨net, fr (op0 1) [1, 2] id, by simp only [Accepted, Asked, Unheld, InDevice, InFlow, Ours, Received]; and_intros <;> first | trivial | decide +kernel | (simp only [Permits]; exact ⟨peer7, by decide +kernel⟩)⟩,
   ⟨{ net with cores := { net.cores with vmap := [(3, 4)] } }, fr { op0 1 with addr := 0x20000060000 } (List.replicate 8 1) id, by simp only [Accepted, Asked, Unheld, InFlow, InScratch, Ours, Received]; and_intros <;> first | trivial | decide +kernel | (simp only [Permits]; exact ⟨peer7, by decide +kernel⟩)⟩,
   ⟨net, fr { op0 1 with addr := 0x40000000004 } (List.replicate 4 1) fun f => { f with cls := 3 }, by simp only [Accepted, Asked, Unheld, InFlow, Ours, Received]; and_intros <;> first | trivial | decide +kernel | (simp only [Permits]; exact ⟨peer7, by decide +kernel⟩)⟩,
   ⟨net, fr (op0 1) [1, 2] fun f => { f with src := 8 }, by (simp only [Asked, Accepted, Received, InFlow, Unheld, Ours]; and_intros <;> first | decide +kernel | (intro h; obtain ⟨b, h1, h2⟩ := h; have e : some b = some (0 : Line) := h1.symm.trans (by decide +kernel); injection e with e; subst e; exact absurd (h2 194 (by simp)) (by decide +kernel)))⟩,
   ⟨net, fr { op0 1 with addr := 0x10000000000 } [1, 2] id, by simp only [Accepted, Asked, Unheld, InFlow, Ours, Received]; and_intros <;> first | trivial | decide +kernel | (simp only [Permits]; exact ⟨peer7, by decide +kernel⟩)⟩,
   ⟨net, fr (op0 1) [] id, by simp only [Accepted, Asked, Unheld, InFlow, Received]; and_intros <;> first | decide +kernel | (simp only [Permits]; exact ⟨peer7, by decide +kernel⟩)⟩,
   ⟨net, fr (op0 1) [] fun f => { f with src := 8 }, by (simp only [Asked, Accepted, Received, InFlow, Unheld]; and_intros <;> first | decide +kernel | (intro h; obtain ⟨b, h1, h2⟩ := h; have e : some b = some (0 : Line) := h1.symm.trans (by decide +kernel); injection e with e; subst e; exact absurd (h2 194 (by simp)) (by decide +kernel)))⟩,
   ⟨net, fr (op0 2) [1, 2, 3, 4] id, by simp only [Accepted, Asked, Unheld, InDevice, InFlow, Ours, Received]; and_intros <;> first | trivial | decide +kernel | (simp only [Permits]; exact ⟨peer7, by decide +kernel⟩)⟩,
   ⟨net, fr { op0 2 with atype := 1 } [] id, by simp only [Accepted, Asked, Unheld, InFlow, Received]; decide +kernel⟩,
   ⟨net, fr { op0 3 with sem := 4, operand := 5 } [] id, by simp only [Accepted, Asked, Unheld, InFlow, Received]; and_intros <;> first | trivial | decide +kernel | (simp only [Permits]; exact ⟨peer7, by decide +kernel⟩)⟩,
   ⟨net, fr { op0 4 with sem := 4, operand := 5 } [] id, by simp only [Accepted, Asked, Unheld, InFlow, Received]; and_intros <;> first | trivial | decide +kernel | (simp only [Permits]; exact ⟨peer7, by decide +kernel⟩)⟩,
   ⟨net, (localWrite (arrived net (fr (op0 4) (List.replicate 16 1) id)) 0x1000 (List.replicate 16 1) (rxRq (op0 4))).2, fr (op0 4) (List.replicate 16 1) id, by (simp only [Asked, Accepted, Received, InFlow, Unheld, Ours, InDevice]; and_intros <;> first | decide +kernel | (simp only [Permits]; exact ⟨peer7, by decide +kernel⟩) | exact Prod.ext (by decide +kernel) rfl)⟩,
   ⟨bad net, (localWrite (arrived (bad net) (fr (op0 4) (List.replicate 16 1) id)) 0x1000 (List.replicate 16 1) (rxRq (op0 4))).2, (localWrite (arrived (bad net) (fr (op0 4) (List.replicate 16 1) id)) 0x1000 (List.replicate 16 1) (rxRq (op0 4))).1, fr (op0 4) (List.replicate 16 1) id, by (simp only [Asked, Accepted, Received, InFlow, Unheld, Ours, InDevice]; and_intros <;> first | exact pairEta _ | decide +kernel | (simp only [Permits]; exact ⟨peer7, by decide +kernel⟩))⟩,
   ⟨net, fr { op0 5 with len := 8 } [] id, by (simp only [Asked, Accepted, Received, InFlow, Unheld, Ours, InDevice, InScratch]; and_intros <;> first | decide +kernel | exact .inl ⟨⟨peer7, by decide +kernel⟩, by decide +kernel⟩)⟩,
   ⟨net, fr { op0 5 with len := 8 } [] fun f => { f with src := 8 }, by (simp only [Asked, Accepted, Received, InFlow, Unheld, Ours]; and_intros <;> first | decide +kernel | (intro h; obtain ⟨b, h1, h2⟩ := h; have e : some b = some (0 : Line) := h1.symm.trans (by decide +kernel); injection e with e; subst e; exact absurd (h2 193 (by simp)) (by decide +kernel)))⟩,
   ⟨net, fr { op0 6 with operand := 5 } [] id, (amoAt (arrived net (fr { op0 6 with operand := 5 } [] id)) 0x1000 0 0 5 0 (rxRq (op0 6))).1, (amoAt (arrived net (fr { op0 6 with operand := 5 } [] id)) 0x1000 0 0 5 0 (rxRq (op0 6))).2.1, (amoAt (arrived net (fr { op0 6 with operand := 5 } [] id)) 0x1000 0 0 5 0 (rxRq (op0 6))).2.2, by (simp only [Asked, Accepted, Received, InFlow, Unheld, Ours, InDevice]; and_intros <;> first | exact pairOf _ _ rfl | decide +kernel | (simp only [Permits]; exact ⟨peer7, by decide +kernel⟩))⟩,
   ⟨net, fr (op0 7) (List.replicate 64 0) id, by simp only [Accepted, Asked, Unheld, InFlow, Received]; and_intros <;> first | trivial | decide +kernel | (simp only [Permits]; exact ⟨peer7, by decide +kernel⟩)⟩,
   ⟨net, fr (op0 7) [1] id, by simp only [Accepted, Asked, Unheld, InFlow, Received]; decide +kernel⟩,
   ⟨net, fr { op0 3 with reserved := true } [] id, Instr.signal, [3], by simp only [Accepted, InFlow, Unheld, Received]; and_intros <;> first | trivial | decide +kernel | (simp only [DataRow]; simp; done)⟩,
   ⟨net, fr (op0 8) [] id, by simp only [Accepted, InFlow, Unheld, Received]; decide +kernel⟩⟩

theorem witness_ResponseRows :
    (∃ (r : (Frame → Instr) × Byte × Byte) (s : State) (f : Frame) (x : Sent), (Accepted s f) ∧ (f.op.kind = r.2.1) ∧ (x ∈
      (getFlow s f.src f.cls).sent) ∧ (x.psn % 2 ^ 24 = f.op.reqPsn) ∧ ((∀ y ∈ (getFlow s f.src f.cls).sent, y.psn % 2 ^ 24 = f.op.reqPsn → y = x)) ∧
      (x.answered = false) ∧ (x.op.kind = r.2.2)) ∧
    (∃ (s : State) (f : Frame) (x : Sent), (Accepted s f) ∧ (f.op.kind = 0x84) ∧ (x ∈ (getFlow s f.src f.cls).sent) ∧
      (x.psn % 2 ^ 24 = f.op.reqPsn) ∧ ((∀ y ∈ (getFlow s f.src f.cls).sent, y.psn % 2 ^ 24 = f.op.reqPsn → y = x)) ∧ (x.answered = false) ∧
      (x.op.kind ∈ ([1, 2, 3, 4] : List Byte))) ∧
    (∃ (s : State) (f : Frame) (x : Sent), (Accepted s f) ∧ (f.op.kind = 0x84) ∧ (x ∈ (getFlow s f.src f.cls).sent) ∧
      (x.psn % 2 ^ 24 = f.op.reqPsn) ∧ ((∀ y ∈ (getFlow s f.src f.cls).sent, y.psn % 2 ^ 24 = f.op.reqPsn → y = x)) ∧ (x.answered = false) ∧
      (x.op.kind ∈ ([5, 6, 7] : List Byte))) ∧
    (∃ (r : (Frame → Instr) × Byte) (s : State) (f : Frame), (Accepted s f) ∧ (f.op.kind = r.2) ∧ ((∀ y ∈
      (getFlow s f.src f.cls).sent, y.psn % 2 ^ 24 ≠ f.op.reqPsn))) ∧
    (∃ (s : State) (x : Sent) (peer : Nat) (cls : Nat) (id : Nat) (o : MemOp) (data : List Byte) (operand : W64), (x.owner = .op id) ∧
      (o ∈ s.cores.ops) ∧ (o.id = id) ∧ (o.status = 0)) :=
  ⟨⟨(Instr.getResp, 0x81, 5), asked net fun x => { x with op := op0 5 }, fr { op0 0x81 with reqPsn := 3 } [1] id, sent fun x => { x with op := op0 5 }, by simp only [Accepted, InFlow, Received]; decide +kernel⟩,
   ⟨asked net fun x => { x with op := op0 1 }, fr { op0 0x84 with reqPsn := 3, status := 0x0203, len := 5 } [] id, sent fun x => { x with op := op0 1 }, by simp only [Accepted, InFlow, Received]; decide +kernel⟩,
   ⟨asked net fun x => { x with op := op0 5 }, fr { op0 0x84 with reqPsn := 3, status := 0x0203, len := 5 } [] id, sent fun x => { x with op := op0 5 }, by simp only [Accepted, InFlow, Received]; decide +kernel⟩,
   ⟨(Instr.errorResp, 0x84), net, fr { op0 0x84 with reqPsn := 3 } [] id, by simp only [Accepted, InFlow, Received]; decide +kernel⟩,
   ⟨withOp (ld fun o => { o with node := 7 }), sent fun x => { x with op := { op0 5 with addr := 0x40 }, owner := .op 1 }, 7, 0, 1, ld fun o => { o with node := 7 }, [1], 0, by decide +kernel⟩⟩

theorem witness_TransportRows :
    (∃ (s : State) (f : Frame), (rxUp s f = true) ∧ (knownPeer s f.src = true) ∧ (f.incarn = (getFlow s f.src f.cls).incarn) ∧ ((f.dstEpoch = 0 ∨ f.dstEpoch = epoch s))) ∧
    (∃ (s : State) (peer cls : Nat) (b : AckBody), (let fl := getFlow s peer cls; let own := (psnNear fl.rcv b.rcvPsn).getD 0; let rcv := max fl.rcv own; let done := max fl.doneP ((psnNear fl.doneP b.donePsn).getD 0); done ≤ rcv ∧ rcv ≤ fl.next ∧ fl.rcv < rcv ∧ b.ece ≠ 0 ∧ bit b.sack 0 = true ∧ own + 1 + 0 < fl.next)) ∧
    (∃ (s : State) (peer cls : Nat) (b : AckBody), (let fl := getFlow s peer cls; fl.next < max fl.rcv ((psnNear fl.rcv b.rcvPsn).getD 0))) ∧
    (∃ s : State, TwinQuiet s) ∧
    (∃ (s : State) (f : Frame), (rxUp s f = true) ∧ (knownPeer s f.src = true) ∧ (f.incarn ≠ (getFlow s f.src f.cls).incarn)) ∧
    (∃ (s : State) (f : Frame), (rxUp s f = false)) ∧
    (∃ (s : State) (f : Frame), (rxUp s f = true) ∧ (knownPeer s f.src = true) ∧ (f.incarn = (getFlow s f.src f.cls).incarn) ∧
      ((getFlow s f.src f.cls).next ≠ 0)) ∧
    (∃ (s : State) (i : Nat) (n : Nat) (rest : List Nat) (f : Flow), (flowAt s i = some f) ∧ (f.ackDue = true ∨ f.rxHeld ≠ []) ∧
      (usable s f.peer f.cls = n :: rest) ∧ (f.rxPair.isSome = true)) ∧
    (∃ (s : State) (i : Nat) (f : Flow), (flowAt s i = some f) ∧ (f.ackDue = false) ∧ (f.rxHeld = [])) ∧
    (∃ (s : State) (i : Nat) (f : Flow), (flowAt s i = some f) ∧ (getFlow s f.peer f.cls = f) ∧ ((f.sent.map (·.psn)).Nodup) ∧
      ((∃ x ∈ f.sent, x.received = false ∧ x.sentAt + reorderNs s ≤ f.latest)) ∧ (usable s f.peer f.cls ≠ [])) ∧
    (∃ (s : State) (i : Nat) (f : Flow), (flowAt s i = some f) ∧
      (∀ x ∈ f.sent, x.received = false → f.latest < x.sentAt + reorderNs s)) ∧
    (∃ (s : State) (i : Nat) (f : Flow) (x : Sent), (flowAt s i = some f) ∧ (f.sent.find? (fun x => !x.received) = some x) ∧ (f.sent.find? (fun x => !x.received) = some x) ∧ (max f.lastAdvance x.sentAt + rtoOf s f ≤ mono s) ∧ (usable s f.peer f.cls ≠ [])) ∧
    (∃ (s : State) (i : Nat) (f : Flow) (x : Sent), (flowAt s i = some f) ∧ (f.sent.find? (fun x => !x.received) = some x) ∧ (f.sent.find? (fun x => !x.received) = some x) ∧ (mono s < max f.lastAdvance x.sentAt + rtoOf s f)) ∧
    (∃ (s : State) (i : Nat) (f : Flow), (flowAt s i = some f)) ∧
    (∃ (s : State) (i : Nat) (f : Flow), (flowAt s i = some f) ∧ (f.eceSeen = true)) ∧
    (∃ (s : State) (i : Nat) (path : Nat) (f : Flow), (flowAt s i = some f)) ∧
    (∃ (s : State) (i : Nat) (psn : Nat) (f : Flow) (x : Sent), (flowAt s i = some f) ∧ (f.sent.find? (fun x => x.psn == psn) = some x) ∧
      (x.answered = false) ∧ (x.op.kind.toNat < 0x80) ∧ (f.sent.find? (fun x => x.psn == psn) = some x) ∧ (max x.firstAt
      (x.heldAt.getD 0) + opTimeoutNs s ≤ mono s)) ∧
    (∃ (s : State) (i : Nat) (psn : Nat) (f : Flow) (x : Sent), (flowAt s i = some f) ∧ (f.sent.find? (fun x => x.psn == psn) = some x) ∧
      (x.answered = false) ∧ (x.op.kind.toNat < 0x80) ∧ (f.sent.find? (fun x => x.psn == psn) = some x) ∧ (mono s < max x.firstAt
      (x.heldAt.getD 0) + opTimeoutNs s)) ∧
    (∃ (s : State) (i psn : Nat) (f : Flow) (x : Sent), (flowAt s i = some f) ∧ (f.sent.find? (fun x => x.psn == psn) = none) ∧ (f.next ≤ psn) ∧
      (f.waitq[psn - f.next]? = some x) ∧ (x.answered = false) ∧ (x.op.kind.toNat < 0x80) ∧ (pathless f x = true) ∧
      (max x.firstAt (x.heldAt.getD 0) + opTimeoutNs s ≤ mono s)) ∧
    (∃ (s : State) (i psn : Nat) (f : Flow) (x : Sent), (flowAt s i = some f) ∧ (f.sent.find? (fun x => x.psn == psn) = none) ∧ (f.next ≤ psn) ∧
      (f.waitq[psn - f.next]? = some x) ∧ (x.answered = false) ∧ (x.op.kind.toNat < 0x80) ∧ (pathless f x = false)) ∧
    (∃ (s : State) (f : Flow), f ∈ (notePaths s).fab.flows) :=
  ⟨⟨flowing (flow id), fr (op0 0) [] fun f => { f with incarn := 0 }, by decide +kernel⟩,
   ⟨flowing (flow id), 7, 0, { ack0 with rcvPsn := 2, donePsn := 2, sack := 1, ece := 1, rcvd := 2 }, by decide +kernel⟩,
   ⟨flowing (flow id), 7, 0, { ack0 with rcvPsn := 5 }, by decide +kernel⟩,
   ⟨up, by simp only [TwinQuiet]; decide +kernel⟩,
   ⟨flowing (flow id), fr (op0 0) [] id, by decide +kernel⟩,
   ⟨up, fr (op0 0) [] id, by decide +kernel⟩,
   ⟨flowing (flow id), fr (op0 0) [] fun f => { f with incarn := 0 }, by decide +kernel⟩,
   ⟨flowing (flow fun f => { f with rxPair := some (4, 2), ackDue := true }), 0, 0, [1], flow fun f => { f with rxPair := some (4, 2), ackDue := true }, by decide +kernel⟩,
   ⟨flowing (flow id), 0, flow id, by decide +kernel⟩,
   ⟨flowing (flow fun f => { f with latest := 50000 }), 0, flow fun f => { f with latest := 50000 }, by decide +kernel⟩,
   ⟨flowing (flow id), 0, flow id, by decide +kernel⟩,
   ⟨clocked (flowing (flow id)) 50000, 0, flow id, sent id, by decide +kernel⟩,
   ⟨flowing (flow id), 0, flow id, sent id, by decide +kernel⟩,
   ⟨flowing (flow fun f => { f with rate := some 5, quiet := 20 }), 0, flow fun f => { f with rate := some 5, quiet := 20 }, by decide +kernel⟩,
   ⟨flowing (flow fun f => { f with eceSeen := true }), 0, flow fun f => { f with eceSeen := true }, by decide +kernel⟩,
   ⟨flowing (flow fun f => { f with quarantine := [(3, 0)] }), 0, 3, flow fun f => { f with quarantine := [(3, 0)] }, by decide +kernel⟩,
   ⟨clocked (flowing (flow id)) 100000000000, 0, 3, flow id, sent id, by decide +kernel⟩,
   ⟨flowing (flow id), 0, 3, flow id, sent id, by decide +kernel⟩,
   ⟨clocked (flowing (flow fun f => { f with waitq := [pktOf .none], noPath := some 0 })) 100000000000, 0, 4, flow fun f => { f with waitq := [pktOf .none], noPath := some 0 }, pktOf .none, by decide +kernel⟩,
   ⟨flowing (flow fun f => { f with waitq := [pktOf .none] }), 0, 4, flow fun f => { f with waitq := [pktOf .none] }, pktOf .none, by decide +kernel⟩,
   ⟨flowing (flow id), flow fun f => { f with noPath := none }, by decide +kernel⟩⟩
theorem witness_LinkRows :
    (∃ (s : State) (p : Nat) (j : Nat), (portLive s = true) ∧ (p ≤ 4) ∧ (j < modeSubs (rf s (FAB_PORT_LINK p) 0 2)) ∧ (subUp s p j = false) ∧
      (p ∉ s.faults.portsOut)) ∧
    (∃ (s : State) (p : Nat) (j : Nat), (p ∈ s.faults.portsOut ∨ modeSubs (rf s (FAB_PORT_LINK p) 0 2) ≤ j)) ∧
    (∃ (s : State) (p : Nat) (j : Nat), (p ∈ s.faults.portsOut ∨ modeSubs (rf s (FAB_PORT_LINK p) 0 2) ≤ j)) ∧
    (∃ (s : State) (p : Nat) (j : Nat), (p ≤ 4) ∧ (subUp s p j = true)) ∧
    (∃ (s : State) (n : Neighbour), (neighUp s n = true) ∧ (n.request = true) ∧ (ownAddr s n = true) ∧ (n.v6 = true)) ∧
    (∃ (s : State) (n : Neighbour), (neighUp s n = true) ∧ (n.request = true) ∧ (ownAddr s n = false)) ∧
    (∃ (s : State) (n : Neighbour), (neighUp s n = true) ∧ (n.request = false) ∧ (n.v6 = false)) ∧
    (∃ (s : State) (n : Neighbour), (neighUp s n = false)) ∧
    (∃ (s : State) (k j : Nat), (k < 5) ∧ (j < 8) ∧ (fld (tget s.fab.ports k 0) 0 48 + 8 ≤ 2 ^ 48)) ∧
    (∃ (s : State) (f : Flow), (∃ p, p ≤ 4 ∧ subUp s p 0 = true) ∧ f ∈ s.fab.flows) ∧
    (∃ (s : State) (n : Neighbour), (n.port < 4) ∧ (n.v6 = true)) ∧
    (∃ (s : State) (p : Nat) (unknown : Bool), (portUp s p = true)) ∧
    (∃ (s : State) (p : Nat) (unknown : Bool), (portUp s p = false)) :=
  ⟨⟨wf net (FAB_PORT_LINK 0) 0 10 6, 0, 1, by decide +kernel⟩,
   ⟨{ net with faults := { net.faults with portsOut := [1] } }, 1, 0, by decide +kernel⟩,
   ⟨net, 0, 0, by decide +kernel⟩,
   ⟨wf net (FAB_PORT_LINK 4) 0 10 0x5, 4, 0, by decide +kernel⟩,
   ⟨addressed, nbr id, by decide +kernel⟩,
   ⟨net, nbr id, by decide +kernel⟩,
   ⟨net, nbr fun n => { n with request := false, v6 := false }, by decide +kernel⟩,
   ⟨up, nbr id, by decide +kernel⟩,
   ⟨{ net with fab := { net.fab with ports := [(4, pack 512 [(0, 48, 0xFFFFFFFFFFF8)])] } }, 4, 7, by decide +kernel⟩,
   ⟨flowing (flow id), flow id, ⟨0, by decide +kernel⟩, by decide +kernel⟩,
   ⟨addressed, nbr id, by decide +kernel⟩,
   ⟨net, 0, true, by decide +kernel⟩,
   ⟨up, 0, true, by decide +kernel⟩⟩

theorem witness_TimeEventRows :
    (∃ (s : State) (o : Int) (trace : Bool), (tState s = 1) ∧ (2000000 < o.natAbs) ∧ (s.time.tracedOnce = false) ∧ (o / 2 ≤ now s) ∧
      (((now s : Int) - o / 2) / 1000000000 < 2 ^ 48)) ∧
    (∃ (s : State) (o : Int) (trace : Bool), (o.natAbs ≤ 2000000)) ∧
    (∃ (s : State) (o : Int) (trace : Bool), (tState s = 1) ∧ (o.natAbs = 200) ∧ (s.time.below = 15)) ∧
    (∃ (s : State) (p : PtpMsg), (ptpTakes s p = true) ∧ (ptpState s p.port = 9)) ∧
    (∃ (s : State) (p : PtpMsg), (ptpTakes s p = true) ∧ (ptpState s p.port = 9) ∧ ((ptpPort s p.port).awaitFollowUp = true) ∧
      ((ptpPort s p.port).seq = p.seq)) ∧
    (∃ (s : State) (p : PtpMsg), (ptpTakes s p = true) ∧ (ptpState s p.port = 6)) ∧
    (∃ (s : State) (p : PtpMsg) (t3 : Nat), (ptpTakes s p = true) ∧ (ptpState s p.port = 9) ∧ ((ptpPort s p.port).reqSent = some t3) ∧
      ((ptpPort s p.port).awaitFollowUp = false) ∧ ((ptpPort s p.port).reqSeq = p.seq) ∧ (tSource s = 1) ∧ (s.time.delays = [])) ∧
    (∃ (s : State) (p : PtpMsg), (ptpTakes s p = true) ∧ (2 ≤ ptpRole s p.port)) ∧
    (∃ (s : State) (p : PtpMsg), (ptpTakes s p = false)) ∧
    (∃ (s : State) (k : Nat), (ptpMaster s k = true) ∧ (rf s (TIME_PTP_CFG k) 16 1 = 0) ∧ (slavePort s = none) ∧ (tState s = 2) ∧ (tSource s = 2)) ∧
    (∃ (s : State) (k : Nat), (ptpMaster s k = true) ∧ (rf s (TIME_PTP_CFG k) 16 1 = 1) ∧ (slavePort s = none) ∧ (tState s < 2)) ∧
    (∃ (s : State) (k j : Nat), (ptpMaster s k = true) ∧ (slavePort s = some j)) ∧
    (∃ (s : State) (k : Nat), (ptpMaster s k = true) ∧ (slavePort s = none) ∧ (tState s = 3) ∧ (traceable s = true)) ∧
    (∃ (s : State) (k : Nat), (ptpMaster s k = false)) ∧
    (∃ (s : State) (k : Nat), (portUp s k = true) ∧ (ptpState s k = 9)) ∧
    (∃ (s : State) (k : Nat), (serving s = true) ∧ (k < 5) ∧ (2 ≤ ptpRole s k) ∧ ((ptpPort s k).announced = true) ∧
      ((bit s.time.ppsConfig 2 && ppsPresent s) = false) ∧ ((∀ j, j < 5 → ptpRole s j = 0 → ptpState s j ≠ 9))) ∧
    (∃ (s : State), (serving s = true) ∧ ((bit s.time.ppsConfig 2 && ppsPresent s) = false) ∧ ((∀ j, j < 5 → ptpRole s j = 0 → ptpState s j ≠ 9)) ∧
      (tSource s = 1) ∧ (tState s = 2)) ∧
    (∃ (s : State), (s.time.ppsEdges.any (fun e => decide (mono s < e + 10000000)) = true)) ∧
    (∃ (s : State), (serving s = true) ∧ (s.time.ppsEdges.any (fun e => decide (mono s < e + 10000000)) = false) ∧ (bit s.time.ppsConfig 2 = true) ∧ (tSource s = 2) ∧ (let u := setTime s (fun t => { t with ppsEdges := s.time.ppsEdges.filter (fun e => decide (mono s < e + 4000000000)) ++ [mono s] }); ppsFilled u = true) ∧ (s.time.secKnown = true) ∧ (s.time.ns < 500000000)) ∧
    (∃ (s : State), (serving s = true) ∧ (s.time.ppsEdges.any (fun e => decide (mono s < e + 10000000)) = false) ∧ (bit s.time.ppsConfig 2 = true) ∧ (tSource s = 2) ∧ (let u := setTime s (fun t => { t with ppsEdges := s.time.ppsEdges.filter (fun e => decide (mono s < e + 4000000000)) ++ [mono s] }); ppsFilled u = true) ∧ (s.time.secKnown = true) ∧ (500000000 ≤ s.time.ns)) ∧
    (∃ (s : State), (serving s = true) ∧ (s.time.ppsEdges.any (fun e => decide (mono s < e + 10000000)) = false) ∧ (bit s.time.ppsConfig 2 = true) ∧ (tSource s = 2) ∧ (let u := setTime s (fun t => { t with ppsEdges := s.time.ppsEdges.filter (fun e => decide (mono s < e + 4000000000)) ++ [mono s] }); ppsFilled u = true) ∧ (s.time.secKnown = false)) ∧
    (∃ (s : State), (s.time.ppsEdges.any (fun e => decide (mono s < e + 1000000000)) = true)) ∧
    (∃ (s : State), (s.time.ppsEdges.any (fun e => decide (mono s < e + 1000000000)) = false) ∧ (tSource s = 2) ∧ (slavePort s = none)) ∧
    (∃ (s : State) (k : Nat), (s.time.ppsEdges.any (fun e => decide (mono s < e + 1000000000)) = false) ∧ (tSource s = 2) ∧ (slavePort s = some k)) ∧
    (∃ (s : State), (serving s = true) ∧ (bit s.time.ppsConfig 0 = true) ∧ (s.time.ns ≤ 10) ∧ (s.time.sec ∉ s.time.ppsOutSecs)) ∧
    (∃ (s : State), (bit s.time.ppsConfig 0 = false ∨ 10 < s.time.ns ∨ s.time.sec ∈ s.time.ppsOutSecs)) ∧
    (∃ (s : State) (temp : W16), (serving s = true)) ∧
    (∃ (s : State), (tState s = 3) ∧ (1000 * rf s TIME_CFG 0 16 < holdBound s)) ∧
    (∃ (s : State), (tState s ≠ 3 ∨ holdBound s ≤ 1000 * rf s TIME_CFG 0 16)) :=
  ⟨⟨timed up 1 1, -2000001, true, by decide +kernel⟩,
   ⟨timed up 1 1, 2000000, true, by decide +kernel⟩,
   ⟨setTime (timed up 1 1) fun t => { t with below := 15 }, -200, true, by decide +kernel⟩,
   ⟨ptp 3 9, msg, by decide +kernel⟩,
   ⟨ptpAt (ptp 3 9) fun x => { x with awaitFollowUp := true, seq := 4 }, msg, by decide +kernel⟩,
   ⟨ptp 1 6, msg, by decide +kernel⟩,
   ⟨timed (ptpAt (ptp 3 9) fun x => { x with reqSent := some 50, reqSeq := 4 }) 1 1, msg, 50, by decide +kernel⟩,
   ⟨ptp 3 9, msg, by decide +kernel⟩,
   ⟨up, msg, by decide +kernel⟩,
   ⟨timed (ptp 1 6) 2 2, 0, by decide +kernel⟩,
   ⟨wf (timed (ptp 1 6) 0 0) (TIME_PTP_CFG 0) 16 1 1, 0, by decide +kernel⟩,
   ⟨wf (timed (ptp 1 6) 0 2) (TIME_PTP_CFG 4) 25 4 9, 0, 4, by decide +kernel⟩,
   ⟨wf (timed (ptp 1 6) 0 3) TIME_STATUS 5 1 1, 0, by decide +kernel⟩,
   ⟨up, 0, by decide +kernel⟩,
   ⟨ptp 3 9, 0, by decide +kernel⟩,
   ⟨ptpAt (ptp 3 4) fun x => { x with announced := true }, 0, by decide +kernel⟩,
   ⟨timed net 1 2, by decide +kernel⟩,
   ⟨pulses up fun t => { t with ppsEdges := [9995000000] }, by decide +kernel⟩,
   ⟨timed (pulses up fun t => { t with secKnown := true }) 2 1, by decide +kernel⟩,
   ⟨timed (pulses up fun t => { t with secKnown := true, ns := 500000000 }) 2 1, by decide +kernel⟩,
   ⟨timed (pulses up fun t => { t with ns := 500000000 }) 2 1, by decide +kernel⟩,
   ⟨pulses up fun t => { t with ppsEdges := [9500000000] }, by decide +kernel⟩,
   ⟨timed (pulses up fun t => { t with ppsEdges := [8500000000] }) 2 2, by decide +kernel⟩,
   ⟨timed (pulses (ptp 3 9) fun t => { t with ppsEdges := [8500000000] }) 2 2, 0, by decide +kernel⟩,
   ⟨pulses up id, by decide +kernel⟩,
   ⟨up, by decide +kernel⟩,
   ⟨up, 40, by decide +kernel⟩,
   ⟨{ wf (timed up 0 3) TIME_CFG 0 16 1 with time := { up.time with lossOffset := 2000 } }, by decide +kernel⟩,
   ⟨up, by decide +kernel⟩⟩

/-- A model of the twin; an item with number 1 that the twin has not performed; an act that waits for items; a repair missed a second before, but for some ns. -/
def tm : TwinModel := { id := 6, digest := 7, bases := [] }
def itemOpen (s : State) : State := { s with fab := { net.fab with flows := [{ Flow.fresh 7 2 with sent := [pktOf (.twin 1)] }] } }
def gateFor (s : State) (n : Nat) (a : GateAct) : State := { s with twin := { s.twin with gates := [{ id := n, act := a }] } }
def missedAt (n : Nat) : State := let s := clocked (repairing .host).1 100000000; { s with faults := { s.faults with missed := [(6, n)] } }
theorem witness_TwinRows :
    (∃ (s : State) (node : W16) (ds : List TwinModel), (serving s = true) ∧ (twinState s = 0)) ∧
    (∃ (s : State) (node : W16) (ds : List TwinModel), (serving s = true) ∧ (twinState s = 1) ∧ (node.toNat = twinNode s) ∧
      (s.twin.gotReq = false) ∧ (s.twin.sentReq = true) ∧ (s.twin.sentDone = false) ∧ (s.twin.gotDone = false) ∧ (s.twin.gates = []) ∧ (s.twin.refused = []) ∧
      (pktOpen s (.twin s.twin.gate) = false) ∧ (s.se.sessions ≠ [])) ∧
    (∃ (s : State) (node : W16) (ds : List TwinModel), (serving s = true) ∧ (twinState s = 1) ∧ (node.toNat = twinNode s) ∧
      (s.twin.gotReq = false) ∧ (s.twin.sentReq = true) ∧ (s.twin.sentDone = false) ∧ (s.twin.gotDone = false) ∧ (s.twin.gates = []) ∧
      (s.twin.refused = []) ∧ (pktOpen s (.twin s.twin.gate) = false) ∧ (s.se.sessions = []) ∧ (∀ m ∈ s.se.models, mrState m.2.record ≠ 2)) ∧
    (∃ (s : State) (node : W16), (serving s = true) ∧ (2 ≤ twinState s)) ∧
    (∃ (s : State) (node : W16) (ds : List TwinModel), (serving s = true) ∧ (twinState s = 1) ∧ (node.toNat ≠ twinNode s)) ∧
    (∃ (s : State), (twinState s = 1) ∧ (s.twin.gotReq = true) ∧ (s.twin.sentDone = false)) ∧
    (∃ (s : State), (twinState s = 1) ∧ (s.twin.gotReq = true) ∧ (s.twin.sentDone = true) ∧ (s.twin.cmd = none)) ∧
    (∃ (s : State) (c : Cmd), (twinState s = 1) ∧ (s.twin.gotReq = true) ∧ (s.twin.sentDone = true) ∧ (s.twin.cmd = some c.id) ∧
      (getCmd s c.id = some c) ∧ (c.src = none)) ∧
    (∃ (s : State), (twinState s ≠ 1 ∨ s.twin.gotReq = false)) ∧
    (∃ (s : State) (c : Cmd), (twinState s = 1) ∧ (s.twin.gotReq = false) ∧ (s.twin.since + 10000000000 ≤ mono s) ∧ (s.twin.cmd = some c.id) ∧
      (getCmd s c.id = some c)) ∧
    (∃ (s : State), (mono s < s.twin.since + 10000000000 ∨ s.twin.gotReq = true)) ∧
    (∃ s : State, gated s = false) ∧
    (∃ s : State, gated s = true ∧ twinState s = 2) ∧
    (∃ s : State, gated s = true ∧ twinState s = 0) ∧
    (∃ (s : State) (g : Gate) (rest : List Gate), (s.twin.gates = g :: rest) ∧ (pktOpen s (.twin g.id) = true)) ∧
    (∃ (s : State) (g : Gate) (rest : List Gate), (s.twin.gates = g :: rest) ∧ (pktOpen s (.twin g.id) = false)) ∧
    (∃ (s : State) (g : Gate) (id i result : Nat) (c : Cmd), (g.act = .status id 0 result (some i)) ∧ (getCmd s id = some c) ∧ (g.id ∉ s.twin.refused)) ∧
    (∃ (s : State) (g : Gate) (id i result : Nat) (c : Cmd), (g.act = .status id 0 result (some i)) ∧ (getCmd s id = some c) ∧ (g.id ∈ s.twin.refused)) ∧
    (∃ (s : State) (c : Cmd) (g : Nat), (twinState s = 0) ∧ (s.twin.refused = []) ∧ (s.twin.gates = [{ id := g, act := .detached c.id }]) ∧
      (getCmd s c.id = some c) ∧ (pktOpen s (.twin g) = true)) ∧
    (∃ (s : State) (c : Cmd) (g : Nat), (twinState s = 0) ∧ (s.twin.refused = []) ∧ (s.twin.gates = [{ id := g, act := .detached c.id }]) ∧
      (getCmd s c.id = some c) ∧ (pktOpen s (.twin g) = false)) ∧
    (∃ s : State, s.twin.gates ≠ []) ∧
    (∃ s : State, s.twin.gates = []) ∧
    (∃ (s : State) (m : MirrorItem), (serving s = false ∨ twinState s = 0 ∨ twinState s = 3)) ∧
    (∃ (s : State) (r : BitVec 1024) (q : Bool), (serving s = true) ∧ (twinState s = 2) ∧ (srState r = stClosed)) ∧
    (∃ (s : State) (r : BitVec 1024) (q : Bool), (serving s = true) ∧ (twinState s = 2) ∧ (srState r ≠ stClosed) ∧ (mirrorRoom s 128 = true)) ∧
    (∃ (s : State) (r : BitVec 1024) (q : Bool), (serving s = true) ∧ (twinState s = 2) ∧ (srState r ≠ stClosed) ∧ (mirrorRoom s 128 = false) ∧
      (s.twin.mirror.find? (fun x => x.handle == srHandle r) = none)) ∧
    (∃ (s : State) (h : W32) (ts : List W32), (serving s = true) ∧ (twinState s = 2) ∧ (mirrorRoom s (4 * ts.length) = true)) ∧
    (∃ (s : State) (h : W32) (ts : List W32), (serving s = true) ∧ (twinState s = 2) ∧ (mirrorRoom s (4 * ts.length) = false)) ∧
    (∃ (s : State) (part : Nat) (step : W64) (lines : List Line) (m : TwinModel), (serving s = true) ∧ (twinState s = 2) ∧ (m.digest ≠ 0)) ∧
    (∃ (s : State) (part : Nat) (step : W64) (lines : List Line) (m : TwinModel), (serving s = true) ∧ (twinState s = 2) ∧ (m.digest = 0)) ∧
    (∃ (s : State), (serving s = true) ∧ (twinState s = 2)) ∧
    (∃ (s : State), (twinState s ≠ 2)) ∧
    (∃ (s : State) (fabric : Bool), (serving s = true) ∧ (twinState s ≠ 0) ∧ (fabric = true ∨ rf s (FAB_PORT_LINK 4) 2 8 ≠ 0)) ∧
    (∃ (s : State) (fabric : Bool), (twinState s = 0)) ∧
    (∃ (s : State), (twinState s = 2)) ∧
    (∃ (s : State), (serving s = true) ∧ (twinState s = 2)) ∧
    (∃ (s : State) (c : Cmd), (serving s = true) ∧ (twinState s = 1) ∧ (s.twin.gotReq = true) ∧
      (s.twin.lastHb + 100000 * rf s TWIN_CFG 0 8 ≤ mono s) ∧ (s.twin.cmd = some c.id) ∧ (getCmd s c.id = some c)) ∧
    (∃ (s : State), (mono s < s.twin.lastHb + 100000 * rf s TWIN_CFG 0 8)) ∧
    (∃ (s : State) (ms : List TwinModel) (m : Mirrored), (partDefined s (srPart m.record) = true) ∧ (twinMatched s ms
      (srModel m.record) = false)) ∧
    (∃ (s : State) (ms : List TwinModel) (m : Mirrored), (partDefined s (srPart m.record) = true) ∧ (twinMatched s ms
      (srModel m.record) = true) ∧ (s.se.sessions.length < 1048576) ∧ (m.request = true)) ∧
    (∃ (c : RepairInput → Instr) (s : State) (k : RepairInput) (m : Model), (getModel s k.model = some m) ∧ (m.repairing ≠ none) ∧
      (serving s = true) ∧ (repairDue s k.model (decide (c k = .weightRepairRetry k)) = true) ∧ (c ∈ [Instr.weightRepair, Instr.weightRepairRetry]) ∧
      (s.faults.repairs.any (fun r => r.model == k.model) = false) ∧ (sourceFails m k = false) ∧ (k.source = repairFrom s k.model) ∧
      (repairTurn s m = true) ∧ (((badUnits s m).map (unitCells s)).flatten.all (coversAt k.units) = true) ∧
      (repairHeld s m ((badUnits s m).map (unitCells s)).flatten = false)) ∧
    (∃ (c : RepairInput → Instr) (s : State) (k : RepairInput) (m : Model), (getModel s k.model = some m) ∧ (m.repairing ≠ none) ∧
      (serving s = true) ∧ (repairDue s k.model (decide (c k = .weightRepairRetry k)) = true) ∧ (c ∈ [Instr.weightRepair, Instr.weightRepairRetry]) ∧
      (s.faults.repairs.any (fun r => r.model == k.model) = false) ∧ (sourceFails m k = false) ∧
      (repairTurn s m = false)) ∧
    (∃ (c : RepairInput → Instr) (s : State) (k : RepairInput) (m : Model), (getModel s k.model = some m) ∧ (m.repairing ≠ none) ∧
      (serving s = true) ∧ (repairDue s k.model (decide (c k = .weightRepairRetry k)) = true) ∧ (c ∈ [Instr.weightRepair, Instr.weightRepairRetry]) ∧
      (s.faults.repairs.any (fun r => r.model == k.model) = false) ∧ (sourceFails m k = false) ∧ (k.source ≠ repairFrom s k.model)) ∧
    (∃ (c : RepairInput → Instr) (s : State) (k : RepairInput) (m : Model), (getModel s k.model = some m) ∧ (m.repairing ≠ none) ∧
      (serving s = true) ∧ (repairDue s k.model (decide (c k = .weightRepairRetry k)) = true) ∧ (c ∈ [Instr.weightRepair, Instr.weightRepairRetry]) ∧
      (s.faults.repairs.any (fun r => r.model == k.model) = false) ∧ (mrShared m.record = true)) ∧
    (∃ (c : RepairInput → Instr) (s : State) (k : RepairInput) (m : Model), (getModel s k.model = some m) ∧ (m.repairing ≠ none) ∧
      (serving s = true) ∧ (repairDue s k.model (decide (c k = .weightRepairRetry k)) = true) ∧ (c ∈ [Instr.weightRepair, Instr.weightRepairRetry]) ∧
      (s.faults.repairs.any (fun r => r.model == k.model) = false) ∧ (sourceFails m k = true)) ∧
    (∃ (c : RepairInput → Instr) (s : State) (k : RepairInput) (m : Model), (getModel s k.model = some m) ∧ (m.repairing ≠ none) ∧
      (c ∈ [Instr.weightRepair, Instr.weightRepairRetry]) ∧ (repairDue s k.model (decide (c k = .weightRepairRetry k)) = false)) ∧
    (∃ (c : RepairInput → Instr) (s : State) (k : RepairInput) (m : Model), (getModel s k.model = some m) ∧ (m.repairing = none) ∧ (c ∈ [Instr.weightRepair, Instr.weightRepairRetry])) :=
  ⟨⟨up, 7, [tm], by decide +kernel⟩,
   ⟨{ (pairing fun t => { t with sentReq := true }) with se := { up.se with sessions := [(2, sess 2 id)] } }, 7, [tm], by decide +kernel⟩,
   ⟨pairing fun t => { t with sentReq := true }, 7, [tm], by decide +kernel⟩,
   ⟨twinned 2 id, 7, by decide +kernel⟩,
   ⟨twinned 1 id, 8, [], by decide +kernel⟩,
   ⟨twinned 1 fun t => { t with gotReq := true }, by decide +kernel⟩,
   ⟨twinned 1 fun t => { t with gotReq := true, sentDone := true }, by decide +kernel⟩,
   ⟨pairing fun t => { t with gotReq := true, sentDone := true }, cTp, by decide +kernel⟩,
   ⟨up, by decide +kernel⟩,
   ⟨clocked (pairing id) 1000000000, cTp, by decide +kernel⟩,
   ⟨pairing id, by decide +kernel⟩,
   ⟨up, by decide +kernel⟩,
   ⟨itemOpen (twinned 2 id), by decide +kernel⟩,
   ⟨gateFor up 3 (.record 0 { base := 0, log2 := 12, tail := 0, msix := 0 } 0 0 []), by decide +kernel⟩,
   ⟨gateFor (itemOpen up) 1 .copyDone, { id := 1, act := .copyDone }, [], by decide +kernel⟩,
   ⟨gateFor (itemOpen up) 2 .copyDone, { id := 2, act := .copyDone }, [], by decide +kernel⟩,
   ⟨holds up cTp, { id := 1, act := .status 5 0 9 (some 2) }, 5, 2, 9, cTp, by decide +kernel⟩,
   ⟨{ holds up cTp with twin := { up.twin with refused := [1] } }, { id := 1, act := .status 5 0 9 (some 2) }, 5, 2, 9, cTp, by decide +kernel⟩,
   ⟨gateFor (itemOpen (holds up cTp)) 1 (.detached 5), cTp, 1, by decide +kernel⟩,
   ⟨gateFor (holds up cTp) 0 (.detached 5), cTp, 0, by decide +kernel⟩,
   ⟨gateFor up 0 .copyDone, by decide +kernel⟩,
   ⟨up, by decide +kernel⟩,
   ⟨up, .tokens 2 [5], by decide +kernel⟩,
   ⟨twinned 2 id, pack 1024 [(0, 32, 2), (32, 3, 4)], false, by decide +kernel⟩,
   ⟨{ twinned 2 id with se := { up.se with pool := some poolRec } }, (sess 2 id).record, true, by decide +kernel⟩,
   ⟨twinned 2 id, (sess 2 id).record, true, by decide +kernel⟩,
   ⟨{ twinned 2 (fun t => { t with mirror := [mirrored] }) with se := { up.se with pool := some poolRec } }, 2, [9], by decide +kernel⟩,
   ⟨twinned 2 fun t => { t with mirror := [mirrored] }, 2, [9], by decide +kernel⟩,
   ⟨twinned 2 id, 0, 3, [5], tm, by decide +kernel⟩,
   ⟨twinned 2 id, 0, 3, [5], { tm with digest := 0 }, by decide +kernel⟩,
   ⟨twinned 2 id, by decide +kernel⟩,
   ⟨up, by decide +kernel⟩,
   ⟨wf (twinned 2 id) (FAB_PORT_LINK 4) 2 8 1, false, by decide +kernel⟩,
   ⟨up, false, by decide +kernel⟩,
   ⟨twinned 2 id, by decide +kernel⟩,
   ⟨clocked (twinned 2 id) 20000000, by decide +kernel⟩,
   ⟨clocked (pairing fun t => { t with gotReq := true }) 20000000, cTp, by decide +kernel⟩,
   ⟨wf (twinned 2 id) TWIN_CFG 0 8 1, by decide +kernel⟩,
   ⟨parted (modelled up), [], mirrored, by decide +kernel⟩,
   ⟨parted (modelled up), [tm], mirrored, by decide +kernel⟩,
   ⟨Instr.weightRepair, (repairing .host).1, (repairing .host).2, { mdl with repairing := some 0 }, by and_intros <;> first | exact List.mem_cons_self .. | exact List.mem_cons_of_mem _ (List.mem_cons_self ..) | decide +kernel⟩,
   ⟨Instr.weightRepair, sharedRepair 7, (repairing .host).2, { mdl with repairing := some 0 }, by and_intros <;> first | exact List.mem_cons_self .. | exact List.mem_cons_of_mem _ (List.mem_cons_self ..) | decide +kernel⟩,
   ⟨Instr.weightRepair, (repairing .host).1, (repairing .twin).2, { mdl with repairing := some 0 }, by and_intros <;> first | exact List.mem_cons_self .. | exact List.mem_cons_of_mem _ (List.mem_cons_self ..) | decide +kernel⟩,
   ⟨Instr.weightRepair, sharedRepair 6, (repairing .host).2, sharedModel, by and_intros <;> first | exact List.mem_cons_self .. | exact List.mem_cons_of_mem _ (List.mem_cons_self ..) | decide +kernel⟩,
   ⟨Instr.weightRepairRetry, missedAt 0, (repairing .failed).2, { mdl with repairing := some 0 }, by and_intros <;> first | exact List.mem_cons_self .. | exact List.mem_cons_of_mem _ (List.mem_cons_self ..) | decide +kernel⟩,
   ⟨Instr.weightRepairRetry, missedAt 1, (repairing .failed).2, { mdl with repairing := some 0 }, by and_intros <;> first | exact List.mem_cons_self .. | exact List.mem_cons_of_mem _ (List.mem_cons_self ..) | decide +kernel⟩,
   ⟨Instr.weightRepair, modelled up, (repairing .host).2, mdl, by and_intros <;> first | exact List.mem_cons_self .. | exact List.mem_cons_of_mem _ (List.mem_cons_self ..) | decide +kernel⟩⟩
/-- A record in force whose sensors all read 50 °C. -/
def calRec (kind : Nat) : State := { up with pwr := { up.pwr with cals := [(kind, { cond := cond1, vals := [] })] } }
theorem witness_PowerRows :
    (∃ (s : State) (m : PowerMeas), (loopsRun s = true)) ∧
    (∃ (s : State) (m : PowerMeas), (loopsRun s = false)) ∧
    (∃ (s : State) (k : Nat), (k < stackCount s)) ∧
    (∃ (s : State) (k : Nat), (k < stackCount s) ∧ (0 < (newGrants s).getD k 0)) ∧
    (∃ (s : State) (k : Nat), (rf s PWR_NB_CFG 8 1 = 0)) ∧
    (∃ (s : State) (k : Nat), (k < stackCount s)) ∧
    (∃ (s : State) (k : Nat), (k ≤ 5)) ∧
    (∃ (s : State) (f : Nat), (f ∈ fSteps s)) ∧
    (∃ (s : State) (f : Nat), (s.pwr.target = some f) ∧ (f < 8192) ∧ (s.pwr.moved = false)) ∧
    (∃ (s : State) (f : Nat), (s.pwr.target = some f) ∧ (f < 8192) ∧ (s.pwr.moved = true) ∧ (f ≠ rf s PWR_CORE 0 13)) ∧
    (∃ s : State, s.pwr.moved = true) ∧
    (∃ (s : State) (i : Nat) (x : Int) (r : CalRec), (tfind s.pwr.cals 2 = some r) ∧ (0 < calOver s r (i, x))) ∧
    (∃ (s : State) (i : Nat), i ∈ tget s.pwr.guardOut 2 []) ∧
    (∃ (s : State) (i : Nat) (x : Int), (i ∉ tget s.pwr.guardOut 2 []) ∧ (∀ r, tfind s.pwr.cals 2 = some r → calOver s r (i, x) = 0)) ∧
    (∃ (s : State) (k c : Nat), (k ∈ calGuards s 4) ∧ (k ∉ tget s.pwr.guardOut 4 []) ∧ (32 * k ≤ c) ∧ (c < 32 * k + 32)) ∧
    (∃ (s : State), (s.pwr.target = none)) ∧
    (∃ (s : State) (w : Nat), (loopsRun s = true) ∧ (3100 < w ∨ (effCap s < w ∧ 9999 ≤ s.pwr.overUs)) ∧ (3100 < w)) ∧
    (∃ (s : State) (w : Nat), (loopsRun s = true) ∧ (3100 < w ∨ (effCap s < w ∧ 9999 ≤ s.pwr.overUs)) ∧ (effCap s < w ∧ 9999 ≤ s.pwr.overUs)) ∧
    (∃ (s : State) (w : Nat), (loopsRun s = true) ∧ (w ≤ 3100) ∧ ((effCap s < w → s.pwr.overUs < 9999)) ∧ (effCap s < w)) ∧
    (∃ (s : State) (w : Nat), (loopsRun s = true) ∧ (w ≤ 3100) ∧ ((effCap s < w → s.pwr.overUs < 9999))) ∧
    (∃ (s : State) (x : Temps), (loopsRun s = true) ∧ (storedState s ≠ 6) ∧ (shutdownAt s (guardedTemps s x) = none)) ∧
    (∃ (s : State) (x : Temps), (loopsRun s = true) ∧ (storedState s ≠ 6) ∧ (shutdownAt s (guardedTemps s x) = none) ∧
      (s.pwr.warnDie = false ∧ 1520 ≤ (hottest (guardedTemps s x).clusters).1)) ∧
    (∃ (s : State) (x : Temps), (loopsRun s = true) ∧ (storedState s ≠ 6) ∧ (shutdownAt s (guardedTemps s x) = none) ∧
      (s.pwr.throttleDie = true ∧ 1552 < (hottest (guardedTemps s x).clusters).1)) ∧
    (∃ (s : State) (x : Temps) (sensor : Nat) (c : Int), (loopsRun s = true) ∧ (storedState s ≠ 6) ∧ (shutdownAt s (guardedTemps s x) = some
      (sensor, c))) ∧
    (∃ (s : State) (x : Temps) (sensor : Nat) (c : Int), (s.pins.pwrGood = true) ∧ (storedState s ≠ 6) ∧ (shutdownAt s x = some (sensor, c))) ∧
    (∃ (s : State) (x : Temps), (s.pins.pwrGood = false ∨ (storedState s ≠ 6 ∧ shutdownAt s x = none)) ∧ (s.pins.pwrGood = false)) ∧
    (∃ (s : State) (x : Temps), (s.pins.pwrGood = false ∨ (storedState s ≠ 6 ∧ shutdownAt s x = none)) ∧ (storedState s ≠ 6 ∧ shutdownAt s x = none)) ∧
    (∃ (s : State) (x : Temps), (storedState s = 6) ∧ (s.pins.pwrGood = true) ∧ (shutdownReleased s x = true)) ∧
    (∃ (s : State) (x : Temps), ((∃ r ∈ x.clusters, 1760 ≤ r) ∨ (∃ r ∈ x.stackTemps.take (4 * stackCount s), 1600 ≤ r)) ∧
      (∃ r ∈ x.clusters, 1760 ≤ r)) ∧
    (∃ (s : State) (x : Temps), ((∃ r ∈ x.clusters, 1760 ≤ r) ∨ (∃ r ∈ x.stackTemps.take (4 * stackCount s), 1600 ≤ r)) ∧ (∃ r ∈ x.stackTemps.take
      (4 * stackCount s), 1600 ≤ r)) ∧
    (∃ s : State, (loopsRun s = true) ∧ (rf s PWR_STATUS 5 1 = 0) ∧ (s.pwr.firstAssay = false) ∧ (3600000000000 ≤ mono s)) ∧
    (∃ s : State, (loopsRun s = true) ∧ (rf s PWR_STATUS 5 1 = 0) ∧ (s.pwr.firstAssay = true) ∧
      (s.pwr.assayStart.getD 0 + rf s PWR_ASSAY_CFG 0 8 * 3600000000000 ≤ mono s)) ∧
    (∃ s : State, (loopsRun s = true) ∧ (rf s PWR_STATUS 5 1 = 0) ∧ (s.pwr.firstAssay = false) ∧ (mono s < 3600000000000)) ∧
    (∃ s : State, (loopsRun s = true) ∧ (rf s PWR_STATUS 5 1 = 0) ∧ (s.pwr.firstAssay = true) ∧
      (mono s < s.pwr.assayStart.getD 0 + rf s PWR_ASSAY_CFG 0 8 * 3600000000000)) ∧
    (∃ (s : State) (f : Findings), (loopsRun s = true) ∧ (rf s PWR_STATUS 5 1 = 1) ∧ (f.weakLanes = []) ∧ (f.noSlack = [])) ∧
    (∃ (s : State) (f : Findings), (rf s PWR_STATUS 5 1 = 0)) ∧
    (∃ (s : State) (a : Nat), (rf s PWR_STATUS 5 1 = 1) ∧ (s.pwr.assayStart = some a) ∧ (a + 600000000000 ≤ mono s)) ∧
    (∃ (s : State) (a : Nat), (rf s PWR_STATUS 5 1 = 1) ∧ (s.pwr.assayStart = some a) ∧ (mono s < a + 600000000000)) ∧
    (∃ (s : State) (kind : Nat) (c : CalCond) (v : List Nat), (loopsRun s = true) ∧ (kind ≤ 5) ∧ (rf s PWR_CAL_STATUS kind 1 = 1) ∧
      (recalDue s kind = true)) ∧
    (∃ (s : State) (kind : Nat) (c : CalCond) (v : List Nat), (loopsRun s = true) ∧ (kind ≤ 5) ∧ (rf s PWR_CAL_STATUS kind 1 = 1) ∧
      (recalDue s kind = false)) ∧
    (∃ (s : State) (kind : Nat) (c : CalCond) (v : List Nat), (rf s PWR_CAL_STATUS kind 1 = 0)) ∧
    (∃ (s : State) (go : List Nat), (flashHeld s = true) ∧ (go = s.faults.unflashed.take (100 - (recentCopies s).length)) ∧ (go = [])) ∧
    (∃ (s : State) (go : List Nat), (flashHeld s = true) ∧ (go = s.faults.unflashed.take (100 - (recentCopies s).length)) ∧ (go ≠ [])) ∧
    (∃ (f : Flash) (r : FlashRec) (rest : List FlashRec) (ls : List Line), (f.writing = r :: rest) ∧ (r = .log ls) ∧ (f.log.length + ls.length ≤ 16384)) ∧
    (∃ (f : Flash) (r : FlashRec) (rest : List FlashRec) (cals : Tab CalRec) (h : BitVec 2048), (f.writing = r :: rest) ∧ (r = .assay cals h)) ∧
    (∃ (f : Flash) (r : FlashRec) (rest : List FlashRec) (b n : Nat), (f.writing = r :: rest) ∧ (r = .remap b n)) ∧
    (∃ (s : State), (flashHeld s = false)) :=
  ⟨⟨up, meas1, by decide +kernel⟩,
   ⟨State.reset, meas1, by decide +kernel⟩,
   ⟨{ up with pwr := { up.pwr with meas := meas1 } }, 7, by decide +kernel⟩,
   ⟨{ wf up PWR_NB_CFG 0 4 2 with pwr := { up.pwr with meas := meas1 } }, 0, by decide +kernel⟩,
   ⟨wf up PWR_NB_CFG 8 1 0, 0, by decide +kernel⟩,
   ⟨up, 7, by decide +kernel⟩,
   ⟨up, 5, by decide +kernel⟩,
   ⟨wf up PWR_FMAX 0 13 4000, 4000, by decide +kernel⟩,
   ⟨{ up with pwr := { up.pwr with target := some 8191 } }, 8191, by decide +kernel⟩,
   ⟨{ up with pwr := { up.pwr with target := some 8191, moved := true } }, 8191, by decide +kernel⟩,
   ⟨{ up with pwr := { up.pwr with moved := true } }, by decide +kernel⟩,
   ⟨calRec 2, 96, 2000, { cond := cond1, vals := [] }, by decide +kernel⟩,
   ⟨{ up with pwr := { up.pwr with guardOut := [(2, [96])] } }, 96, by decide +kernel⟩,
   ⟨calRec 2, 96, 800, by decide +kernel, fun r h => by have e : some r = some { cond := cond1, vals := [] } := h.symm.trans (by decide +kernel); injection e with e; subst e; decide +kernel⟩,
   ⟨calRec 4, 7, 255, by decide +kernel⟩,
   ⟨up, by decide +kernel⟩,
   ⟨up, 3101, by decide +kernel⟩,
   ⟨{ up with pwr := { up.pwr with overUs := 9999 } }, 3100, by decide +kernel⟩,
   ⟨{ up with pwr := { up.pwr with overUs := 9998 } }, 3100, by decide +kernel⟩,
   ⟨up, effCap up, by decide +kernel⟩,
   ⟨up, cool 800, by decide +kernel⟩,
   ⟨up, cool 1520, by decide +kernel⟩,
   ⟨{ up with pwr := { up.pwr with warnDie := true, throttleDie := true, warnStk := [0], throttleStk := [0] } }, cool 1553, by decide +kernel⟩,
   ⟨up, cool 1760, 0, 1760, by decide +kernel⟩,
   ⟨up, cool 1760, 0, 1760, by decide +kernel⟩,
   ⟨{ up with pins := { up.pins with pwrGood := false } }, cool 1760, by decide +kernel⟩,
   ⟨up, cool 1759, by decide +kernel⟩,
   ⟨setDevState up 6, cool 1599, by decide +kernel⟩,
   ⟨up, cool 1760, by decide +kernel⟩,
   ⟨up, { clusters := [], stackTemps := List.replicate 32 1600 }, by decide +kernel⟩,
   ⟨clocked up 360000000000, by decide +kernel⟩,
   ⟨{ clocked (wf up PWR_ASSAY_CFG 0 8 1) 360000000001 with pwr := { up.pwr with assayStart := some 5, firstAssay := true } }, by decide +kernel⟩,
   ⟨clocked up 359999999999, by decide +kernel⟩,
   ⟨{ clocked (wf up PWR_ASSAY_CFG 0 8 1) 360000000000 with pwr := { up.pwr with assayStart := some 5, firstAssay := true } }, by decide +kernel⟩,
   ⟨wf up PWR_STATUS 5 1 1, found1, by decide +kernel⟩,
   ⟨up, found1, by decide +kernel⟩,
   ⟨{ clocked (wf up PWR_STATUS 5 1 1) 60000000000 with pwr := { up.pwr with assayStart := some 0 } }, 0, by decide +kernel⟩,
   ⟨{ wf up PWR_STATUS 5 1 1 with pwr := { up.pwr with assayStart := some 5 } }, 5, by decide +kernel⟩,
   ⟨wf up PWR_CAL_STATUS 5 1 1, 5, cond1, [7], by decide +kernel⟩,
   ⟨{ wf up PWR_CAL_STATUS 0 1 1 with pwr := { up.pwr with calAt := [(0, 5)] } }, 0, cond1, [7], by decide +kernel⟩,
   ⟨up, 0, cond1, [], by decide +kernel⟩,
   ⟨railed, [], by decide +kernel⟩,
   ⟨{ railed with faults := { railed.faults with unflashed := [3] } }, [3], by decide +kernel⟩,
   ⟨{ up.flash with writing := [.log [5]] }, .log [5], [], [5], by decide +kernel⟩,
   ⟨{ up.flash with writing := [.assay [] 5] }, .assay [] 5, [], [], 5, by decide +kernel⟩,
   ⟨{ up.flash with writing := [.remap 1 2] }, .remap 1 2, [], 1, 2, by decide +kernel⟩,
   ⟨{ up with pins := { up.pins with rails := false } }, by rfl⟩⟩


end Sys2Proof.Tests
end

section
/-! PROOFS. Queue operands (R75 to R77): what a slot comes to that reads, pushes or reserves on a queue, where a load's data goes, and which operand
codes are illegal. -/
namespace Sys2Proof.Machine

/-! ## A slot's continuation -/

@[simp] theorem SlotRes.bind_ok {α β : Type} (a : α) (f : α → SlotRes β) : (SlotRes.ok a).bind f = f a := rfl
@[simp] theorem SlotRes.bind_skip {α β : Type} (r d : Nat) (f : α → SlotRes β) : (SlotRes.skip r d).bind f = .skip r d := rfl
@[simp] theorem SlotRes.bind_wait {α β : Type} (w : Option QWait) (f : α → SlotRes β) : (SlotRes.wait w).bind f = .wait w := rfl

/-! ## Operand codes from 32 name queues -/

theorem readS_queue (e : Ev) {code : Nat} (h : 32 ≤ code) : readS e code = (readQ e code).bind fun (v, e) => .ok (v.setWidth 64, e) :=
  if_neg (Nat.not_lt.2 h)

theorem readV_queue (e : Ev) {code : Nat} (h : 32 ≤ code) : readV e code = readQ e code := if_neg (Nat.not_lt.2 h)

theorem writeS_queue (e : Ev) {code : Nat} (v : W64) (h : 32 ≤ code) :
    writeS e code v = pushQ e code { data := v.setWidth 2048, pending := none } := if_neg (Nat.not_lt.2 h)

theorem writeV_queue (e : Ev) {code : Nat} (v : VReg) (h : 32 ≤ code) : writeV e code v = pushQ e code { data := v, pending := none } :=
  if_neg (Nat.not_lt.2 h)

theorem reserveDest_queue (e : Ev) (wide : Bool) {code : Nat} (h : 32 ≤ code) : reserveDest e wide code =
    (pushQ e code { data := 0, pending := some e.s.cores.nextId }).bind fun e => .ok (e, .queue (code % 16)) := if_neg (Nat.not_lt.2 h)

/-! ## Taking the head and pushing at the tail (R76) -/

section
variable {e : Ev} {code : Nat} {x : QEntry} {r : List QEntry}

theorem readQ_empty (h : getQ e.s e.job e.t (code % 16) = []) : readQ e code = .wait (some (queueWait e (code % 16) false)) := by
  simp only [readQ, h]

theorem readQ_outstanding (h : getQ e.s e.job e.t (code % 16) = x :: r) (hx : x.pending.isSome = true) :
    readQ e code = .wait (some (queueWait e (code % 16) false)) := by
  simp only [readQ, h, hx, if_true]

theorem readQ_peek (h : getQ e.s e.job e.t (code % 16) = x :: r) (hx : x.pending = none) (hc : 48 ≤ code) : readQ e code = .ok (x.data, e) := by
  simp [readQ, h, hx, hc]

theorem readQ_pop (h : getQ e.s e.job e.t (code % 16) = x :: r) (hx : x.pending = none) (hc : code < 48) :
    readQ e code = .ok (x.data, { e with s := setQ e.s e.job e.t (code % 16) r, pops := code % 16 :: e.pops }) := by
  simp [readQ, h, hx, Nat.not_le.2 hc]

/-- A head whose data is there is read; a code below 48 takes it out and a peek code leaves it. -/
theorem readQ_ready (h : getQ e.s e.job e.t (code % 16) = x :: r) (hx : x.pending = none) :
    ∃ e', readQ e code = .ok (x.data, e') ∧ getQ e'.s e.job e.t (code % 16) = if code < 48 then r else x :: r := by
  by_cases hc : code < 48
  · exact ⟨_, readQ_pop h hx hc, by simp [hc]⟩
  · exact ⟨e, readQ_peek h hx (Nat.not_lt.1 hc), by simp [hc, h]⟩

variable (x)

theorem pushQ_room (h : (getQ e.s e.job e.t (code % 16)).length < qDepth e.job (code % 16)) :
    ∃ e', pushQ e code x = .ok e' ∧ getQ e'.s e.job e.t (code % 16) = getQ e.s e.job e.t (code % 16) ++ [x] :=
  ⟨_, if_neg (Nat.not_le.2 h), getQ_setQ ..⟩

theorem pushQ_full (h : qDepth e.job (code % 16) ≤ (getQ e.s e.job e.t (code % 16)).length) :
    pushQ e code x = .wait (some (queueWait e (code % 16) true)) := if_pos h

end

/-- A load's data takes the place that the load reserved; the other entries stand where they stood. -/
theorem getQ_deliver_queue (s : State) (j : Job) (t : Tid) (q id : Nat) (v : VReg) : getQ (deliver s j t (.queue q) id v) j t q =
    (getQ s j t q).map fun x => if x.pending = some id then { data := v, pending := none } else x := getQ_setQ ..

/-- The threads of a core see one shared queue (R74, R76). -/
theorem getQ_shared (s : State) {j : Job} {t u : Tid} {q : Nat} (h : qShared j q = true) (hv : t.vcore = u.vcore) : getQ s j t q = getQ s j u q := by
  simp only [getQ, h, if_true, hv]

/-! ## Illegal operand codes (R75) -/

theorem queueOk_eq_false_iff (e : Ev) (wide : Bool) (q : Nat) : queueOk e wide q = false ↔ qDepth e.job q = 0 ∨ qWide e.job q ≠ wide := by
  simp [queueOk, Decidable.imp_iff_not_or, Nat.pos_iff_ne_zero]

theorem srcCheck_absent {e : Ev} {wide : Bool} {code : Nat} (hc : 32 ≤ code) (h : queueOk e wide (code % 16) = false) :
    srcCheck e wide code = .skip 0x06 (code % 16) := by
  simp [srcCheck, Nat.not_lt.2 hc, h]

theorem dstCheck_peek (e : Ev) (wide : Bool) {code : Nat} (hc : 48 ≤ code) : dstCheck e wide code = .skip 0x07 (code % 16) := by
  have hq : ¬ code < 32 := by omega
  simp [dstCheck, hq, hc]

/-- Settles O9: codes from 32 reduce each operand to one take from, or one push on, the queue they name; what stands in that queue then decides. -/
theorem queueOperands : Obligations.QueueOperands := by
  unfold Obligations.QueueOperands
  refine ⟨?ready, ?empty, ?outstanding, ?room, ?full, getQ_deliver_queue, fun s _ _ _ _ => getQ_shared s, ?absent, ?peek⟩
  case ready =>
    intro e code x r hc _ h hx
    obtain ⟨e', hr, hq⟩ := readQ_ready h hx
    exact ⟨e', by simp [readS_queue e hc, hr], by rw [readV_queue e hc, hr], hq⟩
  case empty =>
    intro e code hc _ h
    simp [readS_queue e hc, readV_queue e hc, readQ_empty h]
  case outstanding =>
    intro e code x r hc _ h hx
    simp [readS_queue e hc, readV_queue e hc, readQ_outstanding h hx]
  case room =>
    intro e code v x wide hc _ h
    obtain ⟨e', hp, hq⟩ := pushQ_room { data := 0, pending := some e.s.cores.nextId } h
    rw [writeS_queue e v hc, writeV_queue e x hc]
    exact ⟨pushQ_room _ h, pushQ_room _ h, e', by rw [reserveDest_queue e wide hc, hp, SlotRes.bind_ok], hq⟩
  case full =>
    intro e code v x wide hc _ h
    simp [writeS_queue e v hc, writeV_queue e x hc, reserveDest_queue e wide hc, pushQ_full _ h]
  case absent =>
    intro e wide code hc _ h
    exact srcCheck_absent hc ((queueOk_eq_false_iff ..).2 h)
  case peek =>
    intro e wide code hc _
    exact dstCheck_peek e wide hc

end Sys2Proof.Machine
end

section
/-! PROOFS. A bundle with one slot (R78, R80), and the vector slot from its operands to what it writes (R91, R117). -/
namespace Sys2Proof.Machine
open Sys2Proof.Claims

/-! ## A slot that issues alone -/

/-- Of the four slots only the one named is present. -/
theorem Bundle.has_of_alone {b : Bundle} {k : Nat} (h : Alone b k) {i : Nat} (hi : i < 4) : Bundle.has b i = decide (k = i) := by
  have hbit := congrArg (fun n => n.testBit i) h.1
  simpa [Nat.testBit_mod_two_pow b.header.toNat 4, hi, Nat.testBit_two_pow, Bundle.has, bit, BitVec.getLsbD] using hbit

/-- The four slots of a bundle that holds one alone come to what that slot comes to. -/
theorem runSlots_alone {e e' : Ev} {b : Bundle} {k : Nat} (h : Alone b k) (hk : k < 4) (hd : e.th0.dropped = 0)
    (hs : evalSlot e b k = .ok e') : runSlots e b [0, 1, 2, 3] = .ok e' := by
  have hbit (i : Nat) : bit e.th0.dropped i = false := by simp [hd, bit]
  have h0 : Bundle.has b 0 = decide (k = 0) := Bundle.has_of_alone h (by decide)
  have h1 : Bundle.has b 1 = decide (k = 1) := Bundle.has_of_alone h (by decide)
  have h2 : Bundle.has b 2 = decide (k = 2) := Bundle.has_of_alone h (by decide)
  have h3 : Bundle.has b 3 = decide (k = 3) := Bundle.has_of_alone h (by decide)
  obtain rfl | rfl | rfl | rfl : k = 0 ∨ k = 1 ∨ k = 2 ∨ k = 3 := by omega
  all_goals simp [runSlots, h0, h1, h2, h3, hbit, hs]

/-- A bundle that may issue and whose slots are done ends its issue. -/
theorem issue_of_runSlots {s : State} {t : Tid} {b : Bundle} {j : Job} {th : Thread} {e : Ev} (h : Issues s t b j th)
    (hr : Bundle.reserved b = 0) (hs : runSlots (atIssue s t b j th) b [0, 1, 2, 3] = .ok e) : issue s t b = finishIssue e := by
  obtain ⟨hi, hlen, hserial, hfetch, -⟩ := h
  have hfit : (decide (th.pc.toNat + Bundle.len b > j.codeBytes) || decide (Bundle.reserved b ≠ 0)) = false := by
    simp [hr, hlen]
  have hser : (Bundle.serial b && (decide (opsOf s t ≠ []) || th.fence.isSome)) = false := by
    cases hb : Bundle.serial b with
    | false => rfl
    | true => simp [hserial hb]
  simp only [issue, hi, hfit, hser, hfetch, Bool.false_eq_true, if_false, ne_eq, not_true_eq_false]
  rw [← atIssue, hs]

/-- The row of an opcode runs the bundle whose one slot carries it. -/
theorem issueRow_alone {s : State} {t : Tid} {b : Bundle} {j : Job} {th : Thread} {k op : Nat} {e : Ev} (h : Issues s t b j th)
    (ha : Alone b k) (hk : k < 4) (hop : Bundle.op b k = op) (hs : evalSlot (atIssue s t b j th) b k = .ok e) :
    issueRow s t b k op op = finishIssue e := by
  have hd : (atIssue s t b j th).th0.dropped = 0 := h.2.2.2.2
  simp [issueRow, Bundle.has_of_alone ha hk, hop, issue_of_runSlots h ha.2 (runSlots_alone ha hk hd hs)]

/-! ## Vector sources -/

theorem readQ_keeps {e e' : Ev} {code : Nat} {x : VReg} (h : readQ e code = .ok (x, e')) : e'.t = e.t ∧ e'.th0 = e.th0 := by
  cases hq : getQ e.s e.job e.t (code % 16) with
  | nil => simp [readQ_empty hq] at h
  | cons y r =>
    cases hp : y.pending with
    | some id => simp [readQ_outstanding hq (by simp [hp])] at h
    | none =>
      by_cases hc : 48 ≤ code
      · rw [readQ_peek hq hp hc] at h
        cases h; exact ⟨rfl, rfl⟩
      · rw [readQ_pop hq hp (Nat.not_le.1 hc)] at h
        cases h; exact ⟨rfl, rfl⟩

/-- A vector source leaves the thread and what its registers held before the bundle. -/
theorem readV_keeps {e e' : Ev} {code : Nat} {x : VReg} (h : readV e code = .ok (x, e')) : e'.t = e.t ∧ e'.th0 = e.th0 := by
  by_cases hc : code < 32
  · rw [readV, if_pos hc] at h
    split at h
    · cases h
    · cases h; exact ⟨rfl, rfl⟩
  · exact readQ_keeps (readV_queue e (Nat.not_lt.1 hc) ▸ h)

/-- A source as a signature asks for it: an operand the operation does not take reads as 0. -/
def readOpt (p : Prop) [Decidable p] (e : Ev) (code : Nat) : SlotRes (VReg × Ev) := if p then readV e code else .ok (0, e)

theorem readOpt_keeps {p : Prop} [Decidable p] {e e' : Ev} {code : Nat} {x : VReg} (h : readOpt p e code = .ok (x, e')) :
    e'.t = e.t ∧ e'.th0 = e.th0 := by
  by_cases hp : p
  · exact readV_keeps ((if_pos hp).symm.trans h)
  · cases (if_neg hp).symm.trans h; exact ⟨rfl, rfl⟩

theorem readOpt_of_claim {p : Prop} [Decidable p] {e e' : Ev} {code : Nat} {x : VReg}
    (h : if p then readV e code = .ok (x, e') else x = 0 ∧ e' = e) : readOpt p e code = .ok (x, e') := by
  by_cases hp : p
  · simpa [readOpt, hp] using h
  · simp only [hp, if_false] at h
    simp [readOpt, hp, h]

/-! ## The vector slot -/

/-- A vector result with its conditions, which leaves the state as it is. -/
def vecRes (e : Ev) (r : VReg × Flg) : Ev × VReg × Mask × Flg := (e, r.1, 0, r.2)

theorem SlotRes.bind_eq_ok {α β : Type} {x : SlotRes α} {f : α → SlotRes β} {y : β} : x.bind f = .ok y ↔ ∃ a, x = .ok a ∧ f a = .ok y := by
  cases x <;> simp [SlotRes.bind]

/-- What the vector slot writes of a result and its conditions. -/
def vecWrite (sg : VecSig) (w : BitVec 48) (r : Ev × VReg × Mask × Flg) : SlotRes Ev :=
  if sg.d = 1 then writeV (raise r.1 r.2.2.2) (vecD w) r.2.1
  else if sg.d = 2 then writeM (raise r.1 r.2.2.2) (vecD w) r.2.2.1
  else .ok (raise r.1 r.2.2.2)

theorem vecSlot_eq (e : Ev) {w : BitVec 48} {sg : VecSig} (h : vecSig (fld w 0 8) = some sg) : vecSlot e w =
    (vecCheck w sg).bind fun _ =>
    (if sg.a = 1 then srcCheck e true (vecA w) else .ok ()).bind fun _ =>
    (if sg.b = 1 then srcCheck e true (vecB w) else .ok ()).bind fun _ =>
    (if sg.c then srcCheck e true (vecC w) else .ok ()).bind fun _ =>
    (if sg.d = 1 then dstCheck e true (vecD w) else .ok ()).bind fun _ =>
    (readOpt (sg.a = 1) e (vecA w)).bind fun (a, e) =>
    (readOpt (sg.b = 1) e (vecB w)).bind fun (b, e) =>
    (readOpt (sg.c = true) e (vecC w)).bind fun (c, e) => vecWrite sg w (vecCompute e w a b c) := by
  rw [vecSlot, h]; rfl

theorem check_of_claim {p : Prop} [Decidable p] {r : SlotRes Unit} (h : if p then r = .ok () else True) :
    (if p then r else .ok ()) = .ok () := by
  by_cases hp : p
  · simpa [hp] using h
  · simp [hp]

end Sys2Proof.Machine

namespace Sys2Proof.Claims
open Sys2Proof.Machine

section
variable {s : State} {t : Tid} {b : Bundle} {j : Job} {th : Thread} {op : Nat} {sg : VecSig} {x y z : VReg} {e e' : Ev}

theorem VecIssues.op_eq (h : VecIssues s t b j th op sg x y z e) : fld b.vec 0 8 = op := h.2.2.1

theorem VecIssues.check (h : VecIssues s t b j th op sg x y z e) : vecCheck b.vec sg = .ok () := h.2.2.2.1

/-- The sources leave the thread that issues and its registers of before the bundle. -/
theorem VecIssues.keeps (h : VecIssues s t b j th op sg x y z e) : e.t = t ∧ e.th0 = th := by
  obtain ⟨-, -, -, -, -, -, -, -, e1, e2, h1, h2, h3⟩ := h
  obtain ⟨ht1, hth1⟩ := readOpt_keeps (readOpt_of_claim h1)
  obtain ⟨ht2, hth2⟩ := readOpt_keeps (readOpt_of_claim h2)
  obtain ⟨ht3, hth3⟩ := readOpt_keeps (readOpt_of_claim h3)
  exact ⟨ht3.trans (ht2.trans ht1), hth3.trans (hth2.trans hth1)⟩

/-- A vector slot whose operands are checked and read writes what its operation computes. -/
theorem VecIssues.slot (h : VecIssues s t b j th op sg x y z e) (hsg : vecSig op = some sg) :
    vecSlot (atIssue s t b j th) b.vec = vecWrite sg b.vec (vecCompute e b.vec x y z) := by
  obtain ⟨-, -, rfl, hck, ha, hb, hc, hd, e1, e2, h1, h2, h3⟩ := h
  rw [vecSlot_eq _ (show vecSig (fld b.vec 0 8) = some sg from hsg), hck, check_of_claim ha, check_of_claim hb, check_of_claim hc,
    check_of_claim hd, readOpt_of_claim h1]
  simp only [SlotRes.bind_ok, readOpt_of_claim h2, readOpt_of_claim h3]

/-- The command is the row of one vector opcode. -/
def RunsVec (c : Tid → Bundle → Instr) (op : Nat) : Prop := ∀ t b s, exec (c t b) s = .next (issueRow s t b 3 op op)

theorem VecIssues.exec_eq (h : VecIssues s t b j th op sg x y z e) (hsg : vecSig op = some sg) {c : Tid → Bundle → Instr} (hc : RunsVec c op)
    (hw : vecWrite sg b.vec (vecCompute e b.vec x y z) = .ok e') : exec (c t b) s = .next (finishIssue e') := by
  have hs : evalSlot (atIssue s t b j th) b 3 = .ok e' := (h.slot hsg).trans hw
  rw [hc, issueRow_alone h.1 h.2.1 (by decide) h.2.2.1 hs]

/-- An operation with a vector destination: the result is written with its conditions. -/
theorem VecIssues.exec_vector (h : VecIssues s t b j th op sg x y z e) (hsg : vecSig op = some sg) {c : Tid → Bundle → Instr} (hc : RunsVec c op)
    (hd : sg.d = 1) {v : VReg} {fl : Flg} (hv : vecCompute e b.vec x y z = (e, v, 0, fl)) (hw : writeV (raise e fl) (vecD b.vec) v = .ok e') :
    exec (c t b) s = .next (finishIssue e') :=
  h.exec_eq hsg hc (by rw [hv, vecWrite, if_pos hd, hw])

/-- An operation with a mask destination: the mask is written and no condition rises. -/
theorem VecIssues.exec_mask (h : VecIssues s t b j th op sg x y z e) (hsg : vecSig op = some sg) {c : Tid → Bundle → Instr} (hc : RunsVec c op)
    (hd : sg.d = 2) {m : Mask} (hm : vecCompute e b.vec x y z = (e, 0, m, fNone)) :
    exec (c t b) s = .next (finishIssue { e with s := putM e.s t (vecD b.vec) m, wrote := kM (vecD b.vec) :: e.wrote }) := by
  refine h.exec_eq hsg hc ?_
  obtain ⟨rfl, -⟩ := h.keeps
  simp [hm, vecWrite, hd, writeM, raise, fNone]

end

end Sys2Proof.Claims
end

section
/-! PROOFS. Elements of a vector and bits of a mask (R106, R107): what packing puts where, and that a vector is its elements. -/
namespace Sys2Proof.Machine
open Sys2Proof.Claims

/-! ## Numbers as digits -/

theorem ofDigits_digit {B : Nat} (hB : 0 < B) (cs : List Nat) (hc : ∀ c ∈ cs, c < B) (i : Nat) :
    Nat.ofDigits B cs / B ^ i % B = cs.getD i 0 := by
  have hlt : cs.getD i 0 < B := by
    rw [List.getD_eq_getElem?_getD]
    cases h : cs[i]? with
    | none => exact hB
    | some c => exact hc c (List.mem_of_getElem? h)
  have hhead : (cs.drop i).head! = cs.getD i 0 := by
    rw [List.head!_eq_head?_getD, List.head?_drop, List.getD_eq_getElem?_getD]; rfl
  rw [Nat.ofDigits_div_pow_eq_ofDigits_drop i hB cs hc, Nat.ofDigits_mod_eq_head!, hhead, Nat.mod_eq_of_lt hlt]

/-- A number below `B ^ n` is the one its `n` digits spell. -/
theorem ofDigits_range_digits {B n m : Nat} (h : m < B ^ n) : Nat.ofDigits B ((List.range n).map fun i => m / B ^ i % B) = m := by
  induction n generalizing m with
  | zero => simp [Nat.lt_one_iff.1 h]
  | succ n ih =>
    have hrest : Nat.ofDigits B ((List.range n).map fun i => m / B ^ (i + 1) % B) = m / B := by
      simpa only [Nat.pow_succ', ← Nat.div_div_eq_div_mul] using ih (Nat.div_lt_of_lt_mul (Nat.pow_succ' ▸ h))
    rw [List.range_succ_eq_map, List.map_cons, List.map_map, Nat.ofDigits_cons]
    simpa [Function.comp_def, hrest] using Nat.mod_add_div m B

/-! ## Vectors -/

theorem fld_eq {w : Nat} (x : BitVec w) (lo len : Nat) : fld x lo len = x.toNat / 2 ^ lo % 2 ^ len := by
  rw [fld, BitVec.extractLsb'_toNat, Nat.shiftRight_eq_div_pow]

theorem vElem_eq (f : Nat) (v : VReg) (i : Nat) : vElem f v i = v.toNat / (2 ^ fmtBits f) ^ i % 2 ^ fmtBits f := by
  rw [vElem, fld_eq, Nat.pow_mul]

theorem vElem_lt (f : Nat) (v : VReg) (i : Nat) : vElem f v i < 2 ^ fmtBits f := by
  rw [vElem_eq]; exact Nat.mod_lt _ (Nat.two_pow_pos _)

theorem packV_eq (f : Nat) (cs : List Nat) : packV f cs = BitVec.ofNat 2048 (Nat.ofDigits (2 ^ fmtBits f) (cs.map (· % 2 ^ fmtBits f))) := by
  rw [packV, Nat.ofDigits_eq_foldr, List.foldr_map]; rfl

/-- A vector whose elements take up the bits that are not zero is packed from its elements. -/
theorem packV_vElem {f : Nat} {v : VReg} (h : v.toNat < 2 ^ (fmtBits f * fmtN f)) : packV f ((List.range (fmtN f)).map (vElem f v)) = v := by
  have hmod : (List.range (fmtN f)).map (fun i => vElem f v i % 2 ^ fmtBits f) =
      (List.range (fmtN f)).map fun i => v.toNat / (2 ^ fmtBits f) ^ i % 2 ^ fmtBits f := by
    simp [vElem_eq]
  rw [packV_eq, List.map_map, Function.comp_def, hmod, ofDigits_range_digits (Nat.pow_mul .. ▸ h), BitVec.ofNat_toNat,
    BitVec.setWidth_eq]

/-- Elements given position by position make the vector that is packed from them. -/
theorem eq_packV_of_vElem {f : Nat} {v : VReg} {g : Nat → Nat} (h : v.toNat < 2 ^ (fmtBits f * fmtN f))
    (hg : ∀ i, i < fmtN f → vElem f v i = g i) : v = packV f ((List.range (fmtN f)).map g) := by
  rw [← packV_vElem h]
  exact congrArg _ (List.map_congr_left fun i hi => hg i (List.mem_range.1 hi))

/-- What stands at a position after packing (R106). -/
theorem vElem_packV {f i : Nat} (cs : List Nat) (h : fmtBits f * (i + 1) ≤ 2048) : vElem f (packV f cs) i = cs.getD i 0 % 2 ^ fmtBits f := by
  have hdigit : Nat.ofDigits (2 ^ fmtBits f) (cs.map (· % 2 ^ fmtBits f)) / (2 ^ fmtBits f) ^ i % 2 ^ fmtBits f = cs.getD i 0 % 2 ^ fmtBits f := by
    rw [ofDigits_digit (Nat.two_pow_pos _) _ (by simp [Nat.mod_lt])]
    by_cases hi : i < cs.length
    · simp [hi]
    · simp [hi]
  obtain ⟨k, hk⟩ := Nat.exists_eq_add_of_le h
  rw [vElem_eq, packV_eq, BitVec.toNat_ofNat, hk, Nat.pow_add, Nat.mul_succ, Nat.pow_add, Nat.pow_mul, Nat.mul_assoc,
    Nat.mod_mul_right_div_self, Nat.mod_mod_of_dvd _ (Nat.dvd_mul_right ..), hdigit]

/-- The formats whose elements fill a vector register (R106): all but FP6. -/
def Fills (f : Nat) : Prop := fmtBits f * fmtN f = 2048

theorem Fills.vElem_packV {f i : Nat} (h : Fills f) (cs : List Nat) (hi : i < fmtN f) : vElem f (packV f cs) i = cs.getD i 0 % 2 ^ fmtBits f :=
  Machine.vElem_packV cs (h ▸ Nat.mul_le_mul_left _ hi)

theorem Fills.toNat_lt {f : Nat} (h : Fills f) (v : VReg) : v.toNat < 2 ^ (fmtBits f * fmtN f) :=
  v.isLt.trans_eq (congrArg (2 ^ ·) h.symm)

/-- Vectors with the same elements are one. -/
theorem Fills.vReg_ext {f : Nat} (h : Fills f) {u v : VReg} (huv : ∀ i, i < fmtN f → vElem f u i = vElem f v i) : u = v := by
  rw [eq_packV_of_vElem (h.toNat_lt u) huv, packV_vElem (h.toNat_lt v)]

/-! ## Masks -/

theorem maskOf_eq (n : Nat) (p : Nat → Bool) : maskOf n p = BitVec.ofNat 512 (Nat.ofDigits 2 ((List.range n).map fun i => b2n (p i))) := by
  rw [maskOf, Nat.ofDigits_eq_foldr, List.foldr_map]; rfl

/-- A mask bit says whether its position satisfies the predicate, and is 0 from `n` up (R107). -/
theorem bit_maskOf {n i : Nat} (p : Nat → Bool) (hi : i < 512) : bit (maskOf n p) i = (decide (i < n) && p i) := by
  have hdigit := ofDigits_digit (by decide : 0 < 2) ((List.range n).map fun i => b2n (p i))
    (by simp only [List.mem_map, forall_exists_index, and_imp, forall_apply_eq_imp_iff₂, b2n]; intro k _; split <;> decide) i
  rw [bit, maskOf_eq, BitVec.getLsbD_ofNat, Nat.testBit_eq_decide_div_mod_eq, hdigit]
  by_cases hn : i < n
  · cases hp : p i <;> simp [hi, hn, hp, b2n]
  · simp [hn]

theorem mask_ext {m k : Mask} (h : ∀ i, i < 512 → bit m i = bit k i) : m = k := BitVec.eq_of_getLsbD_eq h

end Sys2Proof.Machine
end

section
/-! PROOFS. Element-wise vector operations, compares and masks (R107, R117, R118, R126, R127). -/
namespace Sys2Proof.Machine
open Sys2Proof.Claims

/-! ## What each operation computes, by opcode (R118) -/

section
variable (e : Ev) {w : BitVec 48} (a b c : VReg)

theorem vecCompute_float {op : Nat} (hop : fld w 0 8 = op) (h : op ≤ 0x0C) : vecCompute e w a b c =
    vecRes e (ewResult e w fun i => ewFloat op (vecFmt w) (vElem (vecFmt w) a i) (vElem (vecFmt w) b i) (vElem (vecFmt w) c i)) := by
  simp only [vecCompute, hop, if_pos h]; rfl

theorem vecCompute_int {op : Nat} (hop : fld w 0 8 = op) (h : 0x0C < op ∧ op ≤ 0x2C) : vecCompute e w a b c =
    vecRes e (ewResult e w fun i => ewInt op (vecFmt w) (vElem (vecFmt w) a i) (vElem (vecFmt w) b i)) := by
  simp only [vecCompute, hop, if_neg (Nat.not_le.2 h.1), if_pos h.2]; rfl

theorem vecCompute_trans {op : Nat} (hop : fld w 0 8 = op) (h : 0x49 < op ∧ op ≤ 0x5A) : vecCompute e w a b c =
    vecRes e (ewResult e w fun i => ewTrans op (vecFmt w) (vElem (vecFmt w) a i)) := by
  obtain ⟨hlo, hhi⟩ := h
  have hle (k : Nat) (hk : k ≤ 0x49) : ¬ op ≤ k := by omega
  have hne (k : Nat) (hk : k ≤ 0x49) : op ≠ k := by omega
  simp [vecCompute, hop, hle, hne, hhi, vecRes]

theorem vecCompute_compare {op : Nat} (hop : fld w 0 8 = op) (h : 0x2C < op ∧ op ≤ 0x34) : vecCompute e w a b c =
    (e, 0, maskOf (fmtN (vecFmt w)) (fun i => activeAt e w i && ewCmp op (vecFmt w) (vElem (vecFmt w) a i) (vElem (vecFmt w) b i)), fNone) := by
  obtain ⟨hlo, hhi⟩ := h
  have hle (k : Nat) (hk : k ≤ 0x2C) : ¬ op ≤ k := by omega
  simp [vecCompute, hop, hle, hhi]

theorem vecCompute_mand (hop : fld w 0 8 = 0x38) : vecCompute e w a b c =
    (e, 0, tget e.th0.m (vecA w) 0 &&& tget e.th0.m (vecB w) 0, fNone) := by simp [vecCompute, hop]

theorem vecCompute_mor (hop : fld w 0 8 = 0x39) : vecCompute e w a b c =
    (e, 0, tget e.th0.m (vecA w) 0 ||| tget e.th0.m (vecB w) 0, fNone) := by simp [vecCompute, hop]

theorem vecCompute_mxor (hop : fld w 0 8 = 0x3A) : vecCompute e w a b c =
    (e, 0, tget e.th0.m (vecA w) 0 ^^^ tget e.th0.m (vecB w) 0, fNone) := by simp [vecCompute, hop]

theorem vecCompute_mnot (hop : fld w 0 8 = 0x3B) : vecCompute e w a b c = (e, 0, ~~~ tget e.th0.m (vecA w) 0, fNone) := by simp [vecCompute, hop]

theorem vecCompute_mlen (hop : fld w 0 8 = 0x3C) : vecCompute e w a b c =
    (e, 0, maskOf (min (vElem (vecFmt w) a 0) 512) (fun _ => true), fNone) := by simp [vecCompute, hop]

theorem vecCompute_sel (hop : fld w 0 8 = 0x3D) : vecCompute e w a b c =
    (e, packV (vecFmt w) ((List.range (fmtN (vecFmt w))).map fun i =>
      if bit (tget e.th0.m (vecMask w) 0) i then vElem (vecFmt w) a i else vElem (vecFmt w) b i), 0, fNone) := by simp [vecCompute, hop]

end

/-! ## Formats -/

/-- Below the conversions and outside the logic on masks a row accepts at most FP32, FP16, BF16, INT8 and INT32 (R118). -/
theorem fmtAccepted_arith {op f fd : Nat} (h : fmtAccepted op f fd = true) (hr : op < 0x38 ∨ 0x3A < op ∧ op < 0x5B) :
    (isFl f || isIn f) = true := by
  have hmask : ¬ (0x38 ≤ op ∧ op ≤ 0x3A) := by omega
  have hhi : op ≤ 0x5A := by omega
  have hfl (hf : isFl f = true) : (isFl f || isIn f) = true := by rw [hf, Bool.true_or]
  have hin (hf : isIn f = true) : (isFl f || isIn f) = true := by rw [hf, Bool.or_true]
  simp only [fmtAccepted, hmask, hhi, if_true, if_false] at h
  split_ifs at h
  exacts [hfl h, hin (by rw [isIn, h, Bool.true_or]), hin h, hfl h, h, hfl h]

/-- Outside the conversions a slot that passes its static checks has one format, which its row accepts (R91, R118). -/
theorem formats_of_vecCheck {w : BitVec 48} {sg : VecSig} (hc : isConv (fld w 0 8) = false) (h : vecCheck w sg = .ok ()) :
    vecFmtD w = vecFmt w ∧ fmtAccepted (fld w 0 8) (vecFmt w) (vecFmtD w) = true := by
  simp only [vecCheck, SlotRes.bind_eq_ok] at h
  obtain ⟨-, -, -, -, -, -, h⟩ := h
  rw [hc] at h
  split_ifs at h with hfd hacc
  simp only [Bool.not_false, Bool.true_and, Bool.or_eq_true, bne_iff_ne, ne_eq, not_or, not_not] at hfd
  exact ⟨hfd.1, by simpa using hacc⟩

/-- The formats of vector arithmetic fill a register. -/
theorem fills_of_arith {f : Nat} (h : (isFl f || isIn f) = true) : Fills f := by
  have hf : f ≤ 2 ∨ f = 10 ∨ f = 8 := by simpa [isFl, isIn] using h
  obtain rfl | rfl | rfl | rfl | rfl : f = 0 ∨ f = 1 ∨ f = 2 ∨ f = 10 ∨ f = 8 := by omega
  all_goals rfl

theorem Fills.pos {f : Nat} (h : Fills f) : 0 < fmtBits f ∧ 0 < fmtN f :=
  CanonicallyOrderedAdd.mul_pos.1 (by rw [show fmtBits f * fmtN f = 2048 from h]; decide)

theorem isConv_of_lt {op : Nat} (h : op < 0x60) : isConv op = false := by simp [isConv, h]

/-! ## Active elements, and the others (R117) -/

theorem ewResult_eq (e : Ev) (w : BitVec 48) (g : Nat → Nat × Flg) : ewResult e w g =
    (packV (vecFmtD w) ((List.range (fmtN (vecFmtD w))).map fun i => if activeAt e w i then (g i).1 else vElem (vecFmtD w) (oldV e (vecD w)) i),
      condsOf e w fun i => (g i).2) := by
  simp only [ewResult, condsOf, List.map_map, Function.comp_def, apply_ite Prod.fst, apply_ite Prod.snd]

theorem orFlags_none {α : Type} (xs : List α) : orFlags (xs.map fun _ => fNone) = fNone := by
  rw [orFlags, List.foldl_map]
  exact List.foldlRecOn xs _ (motive := fun fl => fl = fNone) rfl fun fl hfl _ _ => by rw [hfl]; rfl

@[simp] theorem condsOf_none (e : Ev) (w : BitVec 48) : condsOf e w (fun _ => fNone) = fNone := by
  simp only [condsOf, ite_self, orFlags_none]

end Sys2Proof.Machine

namespace Sys2Proof.Claims
open Sys2Proof.Machine

theorem Elements.mono {e : Ev} {w : BitVec 48} {g g' : Nat → Nat} {v : VReg} (h : Elements e w g v)
    (hg : ∀ i, i < fmtN (vecFmtD w) → activeAt e w i = true → g i < 2 ^ fmtBits (vecFmtD w) → g' i = g i) : Elements e w g' v := by
  refine ⟨h.1, fun i hi => ?_⟩
  have hv := h.2 i hi
  by_cases ha : activeAt e w i = true
  · rw [if_pos ha] at hv ⊢
    rw [hv, hg i hi ha (hv ▸ vElem_lt ..)]
  · rwa [if_neg ha] at hv ⊢

/-- The vector whose elements are the operation's at the active positions and the destination's at the others is the model's. -/
theorem Elements.eq_packV {e : Ev} {w : BitVec 48} {g : Nat → Nat} {v : VReg} (h : Elements e w g v) : v =
    packV (vecFmtD w) ((List.range (fmtN (vecFmtD w))).map fun i => if activeAt e w i then g i else vElem (vecFmtD w) (oldV e (vecD w)) i) :=
  eq_packV_of_vElem h.1 h.2

section
variable {s : State} {t : Tid} {b : Bundle} {j : Job} {th : Thread} {op : Nat} {sg : VecSig} {x y z v : VReg} {e e' : Ev}

theorem VecIssues.formats (h : VecIssues s t b j th op sg x y z e) (hr : op < 0x38 ∨ 0x3A < op ∧ op < 0x5B) :
    vecFmtD b.vec = vecFmt b.vec ∧ Fills (vecFmt b.vec) := by
  have hop := h.op_eq
  obtain ⟨hfd, hacc⟩ := formats_of_vecCheck (isConv_of_lt (by omega)) h.check
  exact ⟨hfd, fills_of_arith (fmtAccepted_arith (hop ▸ hacc) hr)⟩

/-- An element-wise operation writes its results at the active positions, with their conditions. -/
theorem VecIssues.exec_elements (h : VecIssues s t b j th op sg x y z e) (hsg : vecSig op = some sg) {c : Tid → Bundle → Instr} (hc : RunsVec c op)
    (hd : sg.d = 1) {g : Nat → Nat × Flg} (hg : vecCompute e b.vec x y z = vecRes e (ewResult e b.vec g))
    (hv : Elements e b.vec (fun i => (g i).1) v) (hw : writeV (raise e (condsOf e b.vec fun i => (g i).2)) (vecD b.vec) v = .ok e') :
    exec (c t b) s = .next (finishIssue e') :=
  h.exec_vector hsg hc hd (by rw [hg, ewResult_eq, vecRes, ← hv.eq_packV]) hw

end

end Sys2Proof.Claims
end

section
/-! PROOFS. The rows of element-wise arithmetic (R118): each computes what its table says. -/
namespace Sys2Proof.Claims
open Sys2Proof.Machine

/-! ## Codes of two's complement -/

theorem sxt_modEq (n a : Nat) : sxt n a ≡ a [ZMOD 2 ^ n] := by
  have hmod : ((a % 2 ^ n : Nat) : Int) ≡ a [ZMOD 2 ^ n] := by exact_mod_cast Int.mod_modEq a (2 ^ n)
  simp only [sxt]
  split_ifs
  · exact hmod
  · simp [Int.ModEq]

theorem toCode_of_modEq {n : Nat} {i : Int} {c : Nat} (h : i ≡ c [ZMOD 2 ^ n]) : toCode n i = c % 2 ^ n := by
  have hc : i % 2 ^ n = ((c % 2 ^ n : Nat) : Int) := by rw [h]; push_cast; rfl
  rw [toCode, hc, Int.toNat_natCast]

theorem sxt_inj {f a b : Nat} (ha : a < 2 ^ fmtBits f) (hb : b < 2 ^ fmtBits f) (h : sxt (fmtBits f) a = sxt (fmtBits f) b) : a = b := by
  have hmod : (a : Int) ≡ b [ZMOD (2 ^ fmtBits f : Nat)] := by
    push_cast
    exact (sxt_modEq _ a).symm.trans (h ▸ sxt_modEq _ b)
  exact Nat.ModEq.eq_of_lt_of_lt (Int.natCast_modEq_iff.1 hmod) ha hb

section
variable {f a b : Nat} (hf : 0 < fmtBits f)
include hf

theorem two_mul_topBit : 2 * topBit f = 2 ^ fmtBits f := by
  obtain ⟨n, hn⟩ := Nat.exists_eq_add_of_lt hf
  simp [topBit, hn, Nat.pow_succ']

/-- The sign bit of a code says whether it is negative. -/
theorem sxt_eq (ha : a < 2 ^ fmtBits f) : sxt (fmtBits f) a = if topBit f ≤ a then (a : Int) - 2 ^ fmtBits f else a := by
  have htop := two_mul_topBit hf
  have hsign : 2 * a < 2 ^ fmtBits f ↔ ¬ topBit f ≤ a := by omega
  simp only [sxt, Nat.mod_eq_of_lt ha, hsign, ite_not]

theorem sxt_neg_iff (ha : a < 2 ^ fmtBits f) : sxt (fmtBits f) a < 0 ↔ topBit f ≤ a := by
  rw [sxt_eq hf ha]
  split_ifs with h
  · simpa [h] using (by exact_mod_cast ha : (a : Int) < 2 ^ fmtBits f)
  · exact iff_of_false (Int.natCast_nonneg a).not_gt h

theorem nbit_top (ha : a < 2 ^ fmtBits f) : nbit a (fmtBits f - 1) = decide (topBit f ≤ a) := by
  have htop := two_mul_topBit hf
  rw [nbit, ← topBit]
  by_cases h : topBit f ≤ a
  · rw [Nat.div_eq_of_lt_le (by omega : 1 * topBit f ≤ a) (by omega)]; simp [h]
  · rw [Nat.div_eq_of_lt (Nat.not_le.1 h)]; simp [h]

/-! ## Operations whose row is said in another way -/

theorem ewInt_iabs (ha : a < 2 ^ fmtBits f) : ewInt 0x2B f a b = (if topBit f ≤ a then 2 ^ fmtBits f - a else a, 0) := by
  have htop := two_mul_topBit hf
  have hpos : 0 < topBit f := Nat.two_pow_pos _
  have hneg : -sxt (fmtBits f) a ≡ ((2 ^ fmtBits f - a : Nat) : Int) [ZMOD 2 ^ fmtBits f] := by
    rw [Nat.cast_sub ha.le]
    push_cast
    exact (sxt_modEq _ a).neg.trans (Int.ModEq.symm (by simp [Int.ModEq, Int.sub_eq_add_neg]))
  refine congrArg (·, fNone) ?_
  simp only [sxt_neg_iff hf ha]
  split_ifs with h
  · rw [toCode_of_modEq hneg, Nat.mod_eq_of_lt (by omega)]
  · rfl

theorem ewInt_iadds : ewInt 0x2C f a b =
    if sxt (fmtBits f) a + sxt (fmtBits f) b < -(topBit f : Int) then (topBit f, fSA)
    else if (topBit f : Int) ≤ sxt (fmtBits f) a + sxt (fmtBits f) b then (topBit f - 1, fSA) else ((a + b) % 2 ^ fmtBits f, 0) := by
  have htop := two_mul_topBit hf
  have htop' : (2 : Int) * topBit f = 2 ^ fmtBits f := by exact_mod_cast htop
  have hpos : 0 < topBit f := Nat.two_pow_pos _
  have hcast : (2 : Int) ^ (fmtBits f - 1) = topBit f := by simp [topBit]
  have hlo : toCode (fmtBits f) (-(topBit f : Int)) = topBit f := by
    rw [toCode_of_modEq (c := topBit f) (Int.modEq_iff_dvd.2 ⟨1, by omega⟩), Nat.mod_eq_of_lt (by omega)]
  have hhi : toCode (fmtBits f) ((topBit f : Int) - 1) = topBit f - 1 := by
    rw [toCode_of_modEq (c := topBit f - 1) (by rw [Nat.cast_sub hpos]; rfl), Nat.mod_eq_of_lt (by omega)]
  have hsum : toCode (fmtBits f) (sxt (fmtBits f) a + sxt (fmtBits f) b) = (a + b) % 2 ^ fmtBits f :=
    toCode_of_modEq (by push_cast; exact (sxt_modEq _ a).add (sxt_modEq _ b))
  simp only [ewInt, hcast, hlo, hhi, hsum, Int.sub_one_lt_iff]
  rfl

theorem ewFloat_fneg {c : Nat} (ha : a < 2 ^ fmtBits f) :
    ewFloat 0x0A f a b c = (if topBit f ≤ a then a - topBit f else a + topBit f, 0) := by
  simp only [ewFloat, nbit_top hf ha, decide_eq_true_eq]
  rfl

end

theorem ewInt_isub {f : Nat} (a : Nat) {b : Nat} (hb : b < 2 ^ fmtBits f) : ewInt 0x21 f a b = ((a + 2 ^ fmtBits f - b) % 2 ^ fmtBits f, 0) := by
  have hsub : sxt (fmtBits f) a - sxt (fmtBits f) b ≡ ((a + 2 ^ fmtBits f - b : Nat) : Int) [ZMOD 2 ^ fmtBits f] := by
    rw [Nat.cast_sub (by omega)]
    push_cast
    exact ((sxt_modEq _ a).trans (Int.ModEq.symm (by simp [Int.ModEq]))).sub (sxt_modEq _ b)
  exact congrArg (·, fNone) (toCode_of_modEq hsub)

/-! ## Rows -/

/-- A row of an element-wise table is the model's: its command runs the opcode, its operands are the opcode's, and its function gives each element. -/
structure ElementRow (r : Nat × VecSig × (Tid → Bundle → Instr) × (Nat → Nat → Nat → Nat → Nat × Flg)) : Prop where
  runs : RunsVec r.2.2.1 r.1
  sig : vecSig r.1 = some r.2.1
  dest : r.2.1.d = 1
  range : r.1 < 0x38 ∨ 0x3A < r.1 ∧ r.1 < 0x5B
  computes : ∀ (e : Ev) (w : BitVec 48) (x y z : VReg), fld w 0 8 = r.1 → 0 < fmtBits (vecFmt w) → vecCompute e w x y z =
    vecRes e (ewResult e w fun i => r.2.2.2 (vecFmt w) (vElem (vecFmt w) x i) (vElem (vecFmt w) y i) (vElem (vecFmt w) z i))

section
variable {op : Nat} {sg : VecSig} {c : Tid → Bundle → Instr} {g : Nat → Nat → Nat → Nat → Nat × Flg}
  (hrun : RunsVec c op) (hsig : vecSig op = some sg) (hd : sg.d = 1)
include hrun hsig hd

theorem ElementRow.ofFloat (hop : op ≤ 0x0C) (hg : ∀ f a b c, 0 < fmtBits f → a < 2 ^ fmtBits f → ewFloat op f a b c = g f a b c) :
    ElementRow (op, sg, c, g) :=
  ⟨hrun, hsig, hd, .inl (by omega), fun e w x y z hw hf => by
    rw [vecCompute_float e x y z hw hop]; simp only [hg _ _ _ _ hf (vElem_lt ..)]⟩

theorem ElementRow.ofInt (hop : 0x0C < op ∧ op ≤ 0x2C)
    (hg : ∀ f a b c, 0 < fmtBits f → a < 2 ^ fmtBits f → b < 2 ^ fmtBits f → ewInt op f a b = g f a b c) : ElementRow (op, sg, c, g) :=
  ⟨hrun, hsig, hd, .inl (by omega), fun e w x y z hw hf => by
    rw [vecCompute_int e x y z hw hop]
    exact congrArg (fun g => vecRes e (ewResult e w g)) (funext fun i => hg _ _ _ _ hf (vElem_lt ..) (vElem_lt ..))⟩

theorem ElementRow.ofTrans (hop : 0x49 < op ∧ op ≤ 0x5A) : ElementRow (op, sg, c, fun f a _ _ => ewTrans op f a) :=
  ⟨hrun, hsig, hd, .inr (by omega), fun e _ x y z hw _ => vecCompute_trans e x y z hw hop⟩

end

theorem floatTable_rows : ∀ r ∈ floatTable, ElementRow r := by
  simp only [floatTable, List.forall_mem_cons, List.not_mem_nil, false_imp_iff, implies_true, and_true]
  refine ⟨?add, ?sub, ?mul, ?fma, ?fms, ?fnma, ?min, ?max, ?abs, ?neg, ?div, ?scalb⟩
  case neg => exact .ofFloat (fun _ _ _ => rfl) rfl rfl (by decide) fun _ _ _ _ hf ha => ewFloat_fneg hf ha
  all_goals exact .ofFloat (fun _ _ _ => rfl) rfl rfl (by decide) fun _ _ _ _ _ _ => rfl

theorem intTable_rows : ∀ r ∈ intTable, ElementRow r := by
  simp only [intTable, List.forall_mem_cons, List.not_mem_nil, false_imp_iff, implies_true, and_true]
  refine ⟨?add, ?sub, ?mul, ?min, ?max, ?and, ?or, ?xor, ?shl, ?shr, ?sra, ?abs, ?adds⟩
  case sub => exact .ofInt (fun _ _ _ => rfl) rfl rfl (by decide) fun _ a _ _ _ _ hb => ewInt_isub a hb
  case abs => exact .ofInt (fun _ _ _ => rfl) rfl rfl (by decide) fun _ _ _ _ hf ha _ => ewInt_iabs hf ha
  case adds => exact .ofInt (fun _ _ _ => rfl) rfl rfl (by decide) fun _ _ _ _ hf _ _ => ewInt_iadds hf
  all_goals exact .ofInt (fun _ _ _ => rfl) rfl rfl (by decide) fun _ _ _ _ _ _ _ => rfl

theorem transTable_rows : ∀ r ∈ transTable, ElementRow r := by
  simp only [transTable, List.map_cons, List.map_nil, List.forall_mem_cons, List.not_mem_nil, false_imp_iff, implies_true, and_true]
  and_intros
  all_goals exact .ofTrans (fun _ _ _ => rfl) rfl rfl (by decide)

end Sys2Proof.Claims
end

section
/-! PROOFS. Compares and mask operations (R107, R118), and with the rows of arithmetic the element-wise vector operations. -/
namespace Sys2Proof.Claims
open Sys2Proof.Machine

/-! ## Compares -/

/-- A row of the compare table is the model's. -/
structure CompareRow (r : Nat × VecSig × (Tid → Bundle → Instr) × (Nat → Nat → Nat → Bool)) : Prop where
  runs : RunsVec r.2.2.1 r.1
  sig : vecSig r.1 = some r.2.1
  dest : r.2.1.d = 2
  range : 0x2C < r.1 ∧ r.1 ≤ 0x34
  compares : ∀ f a b, ewCmp r.1 f a b = r.2.2.2 f a b

theorem compareTable_rows : ∀ r ∈ compareTable, CompareRow r := by
  simp only [compareTable, List.forall_mem_cons, List.not_mem_nil, false_imp_iff, implies_true, and_true]
  refine ⟨?eq, ?ne, ?lt, ?le, ?nan⟩
  case nan => exact ⟨fun _ _ _ => rfl, rfl, rfl, by decide, fun _ _ _ => rfl⟩
  all_goals exact ⟨fun _ _ _ => rfl, rfl, rfl, by decide, fun f a b => by simp [ewCmp, bne, beq_eq_decide]⟩

section
variable {s : State} {t : Tid} {b : Bundle} {j : Job} {th : Thread} {op : Nat} {sg : VecSig} {x y z v : VReg} {e e' : Ev} {m : Mask}

theorem VecIssues.exec_compare {r : Nat × VecSig × (Tid → Bundle → Instr) × (Nat → Nat → Nat → Bool)} (row : CompareRow r)
    (h : VecIssues s t b j th r.1 r.2.1 x y z e)
    (hm : ∀ i, i < 512 → bit m i = (decide (i < fmtN (vecFmt b.vec)) && activeAt e b.vec i &&
      r.2.2.2 (vecFmt b.vec) (vElem (vecFmt b.vec) x i) (vElem (vecFmt b.vec) y i))) :
    exec (r.2.2.1 t b) s = .next (finishIssue { e with s := putM e.s t (vecD b.vec) m, wrote := kM (vecD b.vec) :: e.wrote }) := by
  refine h.exec_mask row.sig row.runs row.dest ?_
  rw [vecCompute_compare e x y z h.op_eq row.range]
  refine congrArg (fun m => (e, 0, m, fNone)) (mask_ext fun i hi => ?_)
  rw [bit_maskOf _ hi, hm i hi, row.compares, Bool.and_assoc]

/-! ## Masks -/

theorem VecIssues.exec_mlen (h : VecIssues s t b j th 0x3C { d := 2, a := 1, b := 0, c := false, usesMask := false, en := some false } x y z e)
    (hm : ∀ i, i < 512 → bit m i = decide (i < vElem (vecFmt b.vec) x 0)) :
    exec (.mlen t b) s = .next (finishIssue { e with s := putM e.s t (vecD b.vec) m, wrote := kM (vecD b.vec) :: e.wrote }) := by
  refine h.exec_mask rfl (c := .mlen) (fun _ _ _ => rfl) rfl ?_
  rw [vecCompute_mlen e x y z h.op_eq]
  refine congrArg (fun m => (e, 0, m, fNone)) (mask_ext fun i hi => ?_)
  rw [bit_maskOf _ hi, hm i hi, Bool.and_true, decide_eq_decide, lt_min_iff, and_iff_left hi]

theorem VecIssues.exec_sel (h : VecIssues s t b j th 0x3D { sig2 with usesMask := true, en := some true } x y z e)
    (hv : ∀ i, i < fmtN (vecFmt b.vec) → vElem (vecFmt b.vec) v i =
      if bit (tget th.m (vecMask b.vec) 0) i then vElem (vecFmt b.vec) x i else vElem (vecFmt b.vec) y i)
    (hw : writeV (raise e 0) (vecD b.vec) v = .ok e') : exec (.sel t b) s = .next (finishIssue e') := by
  obtain ⟨-, hfill⟩ := h.formats (by decide)
  obtain ⟨-, rfl⟩ := h.keeps
  have hpack := eq_packV_of_vElem (hfill.toNat_lt v) hv
  exact h.exec_vector rfl (c := .sel) (fun _ _ _ => rfl) rfl ((vecCompute_sel e x y z h.op_eq).trans (congrArg (fun v => (e, v, 0, fNone)) hpack.symm)) hw

end

/-- Settles O22: a slot alone comes to what its operation computes, row by row, and packing is determined by the elements. -/
theorem elementwiseRows : Obligations.ElementwiseRows := by
  unfold Obligations.ElementwiseRows
  refine ⟨?arithmetic, ?compares, ?logic, ?mlen, ?sel, ?active⟩
  case arithmetic =>
    intro r hr s t b j th x y z v e e' h hv hw
    have row : ElementRow r := by
      simp only [List.mem_append] at hr
      obtain (hr | hr) | hr := hr
      exacts [floatTable_rows r hr, intTable_rows r hr, transTable_rows r hr]
    obtain ⟨-, hfill⟩ := h.formats row.range
    exact h.exec_elements row.sig row.runs row.dest (row.computes e b.vec x y z h.op_eq hfill.pos.1) hv hw
  case compares =>
    intro r hr s t b j th x y z e m h hm
    exact h.exec_compare (compareTable_rows r hr) hm
  case logic =>
    rintro s t b j th x y z e m sg op c rfl hrow h
    obtain ⟨-, rfl⟩ := h.keeps
    obtain ⟨rfl, rfl, rfl⟩ | ⟨rfl, rfl, rfl⟩ | ⟨rfl, rfl, rfl⟩ | ⟨rfl, rfl, rfl⟩ := hrow
    · exact h.exec_mask rfl (c := .mand) (fun _ _ _ => rfl) rfl (vecCompute_mand e x y z h.op_eq)
    · exact h.exec_mask rfl (c := .mor) (fun _ _ _ => rfl) rfl (vecCompute_mor e x y z h.op_eq)
    · exact h.exec_mask rfl (c := .mxor) (fun _ _ _ => rfl) rfl (vecCompute_mxor e x y z h.op_eq)
    · exact h.exec_mask rfl (c := .mnot) (fun _ _ _ => rfl) rfl (vecCompute_mnot e x y z h.op_eq)
  case mlen =>
    intro s t b j th x y z e m h hm
    exact h.exec_mlen hm
  case sel =>
    intro s t b j th x y z v e e' h hv hw
    exact h.exec_sel hv hw
  case active =>
    intro e w i
    cases hm : vecMaskEn w <;> simp [activeAt, hm]

end Sys2Proof.Claims
end

section
/-! PROOFS. Reductions and scans (R119): the best element, running sums and the pairwise tree, and what they are on integers. -/
namespace Sys2Proof.Machine

/-! ## The best element -/

theorem redBest_isSome (op f : Nat) {xs : List (Nat × Nat)} (h : xs ≠ []) : (redBest op f xs).isSome = true := by
  induction xs using List.reverseRecOn with
  | nil => exact absurd rfl h
  | append_singleton xs x =>
    rw [redBest, List.foldl_append, List.foldl_cons, List.foldl_nil]
    split
    · rfl
    · split <;> rfl

/-- Where the better element is the one with the greater key, the best is one of those offered and none has a greater key. -/
theorem redBest_greatest {op f : Nat} {key : Nat → Int} (hkey : ∀ a b, redBetter op f a b = decide (key a < key b)) {xs : List (Nat × Nat)}
    {y : Nat × Nat} (h : redBest op f xs = some y) : y ∈ xs ∧ ∀ x ∈ xs, key x.2 ≤ key y.2 := by
  induction xs using List.reverseRecOn generalizing y with
  | nil => cases h
  | append_singleton xs x ih =>
    rw [redBest, List.foldl_append, ← redBest, List.foldl_cons, List.foldl_nil] at h
    cases hb : redBest op f xs with
    | none =>
      have hxs : xs = [] := by
        by_contra hne
        simpa [hb] using redBest_isSome op f hne
      rw [hb] at h
      obtain rfl : x = y := Option.some.inj h
      simp [hxs]
    | some best =>
      obtain ⟨hmem, hle⟩ := ih hb
      simp only [hb, hkey, decide_eq_true_eq] at h
      simp only [List.mem_append, List.mem_singleton, or_imp, forall_and, forall_eq]
      split_ifs at h with hlt
      · obtain rfl : x = y := Option.some.inj h
        exact ⟨.inr rfl, fun z hz => (hle z hz).trans hlt.le, le_rfl⟩
      · obtain rfl : best = y := Option.some.inj h
        exact ⟨.inl hmem, hle, not_lt.1 hlt⟩

section
variable {f : Nat} (hf : fmtInt f = true) (a b : Nat)
include hf

theorem redBetter_rmax_int : redBetter 0x41 f a b = decide (sxt (fmtBits f) a < sxt (fmtBits f) b) := by
  obtain h | h | h := lt_trichotomy (sxt (fmtBits f) a) (sxt (fmtBits f) b)
  · simp [redBetter, elemCmp, hf, h]
  · simp [redBetter, elemCmp, hf, h]
  · simp [redBetter, elemCmp, hf, h.not_gt, h.ne']

theorem redBetter_rmin_int : redBetter 0x42 f a b = decide (-sxt (fmtBits f) a < -sxt (fmtBits f) b) := by
  obtain h | h | h := lt_trichotomy (sxt (fmtBits f) a) (sxt (fmtBits f) b)
  · simp [redBetter, elemCmp, hf, h, h.not_gt]
  · simp [redBetter, elemCmp, hf, h]
  · simp [redBetter, elemCmp, hf, h, h.not_gt, h.ne']

end

/-! ## Running sums -/

/-- What PSUM holds on its way: the sum so far, the elements given, the conditions. -/
abbrev PsumAcc := Option Nat × List (Option Nat) × Flg

/-- One position of PSUM. -/
def psumStep (f : Nat) (acc : PsumAcc) (x : Option Nat) : PsumAcc :=
  match x with
  | none => (acc.1, acc.2.1 ++ [none], acc.2.2)
  | some a =>
    let (s, fl') := match acc.1 with
      | none => (redIn f a, fNone)
      | some r => redAdd f r (redIn f a)
    let (o, fl'') := redOut f s
    (some s, acc.2.1 ++ [some o], acc.2.2 ||| fl' ||| fl'')

/-- PSUM's positions in order. -/
def psumAcc (f : Nat) (xs : List (Option Nat)) : PsumAcc := xs.foldl (psumStep f) (none, [], fNone)

theorem psum_eq (f : Nat) (xs : List (Option Nat)) : psum f xs = (psumAcc f xs).2 := rfl

theorem psumAcc_concat (f : Nat) (xs : List (Option Nat)) (x : Option Nat) : psumAcc f (xs ++ [x]) = psumStep f (psumAcc f xs) x := by
  rw [psumAcc, List.foldl_append]; rfl

/-- PSUM gives a sum at each active position and none at the others. -/
theorem psum_isSome (f : Nat) (xs : List (Option Nat)) : (psum f xs).1.map Option.isSome = xs.map Option.isSome := by
  induction xs using List.reverseRecOn with
  | nil => rfl
  | append_singleton xs x ih =>
    rw [psum_eq] at ih
    rw [psum_eq, psumAcc_concat]
    cases x <;> simp [psumStep, ih]

theorem psum_length (f : Nat) (xs : List (Option Nat)) : (psum f xs).1.length = xs.length := by
  simpa using congrArg List.length (psum_isSome f xs)

theorem psum_getD_isSome (f : Nat) (xs : List (Option Nat)) (i : Nat) : ((psum f xs).1.getD i none).isSome = (xs.getD i none).isSome := by
  have h := congrArg (·.getD i (Option.isSome (none : Option Nat))) (psum_isSome f xs)
  simpa only [List.getD_map] using h

/-! ## Sums of integers -/

section
variable {f : Nat} (hf : fmtInt f = true)
include hf

theorem redIn_int (a : Nat) : redIn f a = a := by simp [redIn, hf]
theorem redAdd_int (a b : Nat) : redAdd f a b = ((a + b) % 2 ^ fmtBits f, fNone) := by simp [redAdd, hf]
theorem redOut_int (a : Nat) : redOut f a = (a, fNone) := by simp [redOut, hf]

theorem psumStep_int {acc : PsumAcc} {a : Nat} (ha : a < 2 ^ fmtBits f) : psumStep f acc (some a) =
    (some ((acc.1.getD 0 + a) % 2 ^ fmtBits f), acc.2.1 ++ [some ((acc.1.getD 0 + a) % 2 ^ fmtBits f)], acc.2.2) := by
  cases h : acc.1 with
  | none => simp [psumStep, h, redIn_int hf, redOut_int hf, fNone, Nat.mod_eq_of_lt ha]
  | some r => simp [psumStep, h, redIn_int hf, redAdd_int hf, redOut_int hf, fNone]

/-- PSUM of integers raises nothing and gives each active position the sum of the active elements up to it. -/
theorem psumAcc_int {xs : List (Option Nat)} (hx : ∀ x ∈ xs, ∀ a, x = some a → a < 2 ^ fmtBits f) :
    (psumAcc f xs).1.getD 0 = (xs.map (·.getD 0)).sum % 2 ^ fmtBits f ∧ (psumAcc f xs).2.2 = fNone ∧
      ∀ i a, xs.getD i none = some a → (psumAcc f xs).2.1.getD i none = some (((xs.take (i + 1)).map (·.getD 0)).sum % 2 ^ fmtBits f) := by
  induction xs using List.reverseRecOn with
  | nil => simp [psumAcc]
  | append_singleton xs x ih =>
    obtain ⟨hrun, hfl, hout⟩ := ih fun y hy => hx y (List.mem_append_left _ hy)
    have hlen : (psumAcc f xs).2.1.length = xs.length := psum_length f xs
    have hbefore (ys : List (Option Nat)) (i a : Nat) (hi : i < xs.length) (h : (xs ++ [x]).getD i none = some a) :
        ((psumAcc f xs).2.1 ++ ys).getD i none = some ((((xs ++ [x]).take (i + 1)).map (·.getD 0)).sum % 2 ^ fmtBits f) := by
      rw [List.getD_append _ _ _ _ hi] at h
      rw [List.getD_append _ _ _ _ (hlen ▸ hi), List.take_append_of_le_length hi, hout i a h]
    have hlast (i a : Nat) (hi : ¬ i < xs.length) (h : (xs ++ [x]).getD i none = some a) : i = xs.length ∧ x = some a := by
      rw [List.getD_append_right _ _ _ _ (Nat.not_lt.1 hi)] at h
      cases hk : i - xs.length with
      | zero => exact ⟨by omega, by simpa [hk] using h⟩
      | succ k => simp [hk] at h
    rw [psumAcc_concat]
    cases x with
    | none =>
      refine ⟨by simpa [psumStep] using hrun, hfl, fun i a h => ?_⟩
      by_cases hi : i < xs.length
      · exact hbefore _ i a hi h
      · cases (hlast i a hi h).2
    | some c =>
      have hc : c < 2 ^ fmtBits f := hx _ (by simp) c rfl
      rw [psumStep_int hf hc, hrun]
      refine ⟨by simp, hfl, fun i a h => ?_⟩
      by_cases hi : i < xs.length
      · exact hbefore _ i a hi h
      · obtain ⟨rfl, -⟩ := hlast i a hi h
        simp [← hlen]

/-- A level of the tree halves the number of integers and keeps their sum. -/
theorem redLevel_int (xs : List Nat) (fl : Flg) (hx : ∀ x ∈ xs, x < 2 ^ fmtBits f) :
    (redLevel f xs fl).2 = fl ∧ (redLevel f xs fl).1.length = (xs.length + 1) / 2 ∧
      (redLevel f xs fl).1.sum % 2 ^ fmtBits f = xs.sum % 2 ^ fmtBits f ∧ ∀ y ∈ (redLevel f xs fl).1, y < 2 ^ fmtBits f := by
  induction xs using List.twoStepInduction generalizing fl with
  | nil => simp [redLevel]
  | singleton a => simpa [redLevel] using hx
  | cons_cons a b r ih _ =>
    obtain ⟨hfl, hlen, hsum, hlt⟩ := ih fl fun x h => hx x (by simp [h])
    have hnone : fl ||| fNone = fl := BitVec.or_zero
    simp only [redLevel, redAdd_int hf, hnone]
    refine ⟨hfl, by simp only [List.length_cons, hlen]; omega, ?_, List.forall_mem_cons.2 ⟨Nat.mod_lt _ (Nat.two_pow_pos _), hlt⟩⟩
    simp only [List.sum_cons, ← Nat.add_assoc]
    rw [Nat.add_mod, hsum, Nat.mod_mod, ← Nat.add_mod]

/-- The pairwise tree over `2 ^ n` integers gives their sum. -/
theorem redTree_int {n : Nat} {xs : List Nat} (fl : Flg) (hlen : xs.length = 2 ^ n) (hx : ∀ x ∈ xs, x < 2 ^ fmtBits f) :
    redTree f n xs fl = ([xs.sum % 2 ^ fmtBits f], fl) := by
  induction n generalizing xs fl with
  | zero =>
    obtain ⟨a, rfl⟩ := List.length_eq_one_iff.1 hlen
    simp [redTree, Nat.mod_eq_of_lt (hx a (by simp))]
  | succ n ih =>
    obtain ⟨hfl, hhalf, hsum, hlt⟩ := redLevel_int hf xs fl hx
    have hpow : (2 ^ (n + 1) + 1) / 2 = 2 ^ n := by rw [Nat.pow_succ]; omega
    simp only [redTree]
    rw [ih _ (by rw [hhalf, hlen, hpow]) hlt, hsum, hfl]

theorem rsum_int {n : Nat} {xs : List Nat} (hlen : xs.length = 2 ^ n) (hx : ∀ x ∈ xs, x < 2 ^ fmtBits f) :
    rsum f xs = (xs.sum % 2 ^ fmtBits f, fNone) := by
  have hin : xs.map (redIn f) = xs := (List.map_congr_left fun a _ => redIn_int hf a).trans (List.map_id _)
  simp [rsum, hin, hlen, Nat.log2_two_pow, redTree_int hf _ hlen hx, redOut_int hf, fNone]

end

end Sys2Proof.Machine
end

section
/-! PROOFS. Reductions, scans, permutations and counts as rows of the vector slot (R117 to R120). -/
namespace Sys2Proof.Machine

/-! ## What each operation computes, by opcode (R118) -/

/-- The active elements of A with their positions. -/
def activeElems (e : Ev) (w : BitVec 48) (a : VReg) : List (Nat × Nat) :=
  ((List.range (fmtN (vecFmt w))).filter (activeAt e w)).map fun i => (i, vElem (vecFmt w) a i)

/-- How many of the elements a mask governs it selects. -/
def maskCount (f : Nat) (m : Mask) : Nat := ((List.range (fmtN f)).filter fun i => bit m i).length

section
variable (e : Ev) {w : BitVec 48} (a b c : VReg)

theorem vecCompute_rsum (hop : fld w 0 8 = 0x40) {r : Nat} {fl : Flg}
    (h : rsum (vecFmt w) ((List.range (fmtN (vecFmt w))).map fun i => if activeAt e w i then vElem (vecFmt w) a i else 0) = (r, fl)) :
    vecCompute e w a b c = (e, headResult (vecFmt w) [r], 0, fl) := by simp [vecCompute, hop, h]

theorem vecCompute_best {op i r : Nat} (hop : fld w 0 8 = op) (hr : op = 0x41 ∨ op = 0x42)
    (h : redBest op (vecFmt w) (activeElems e w a) = some (i, r)) (hn : (!fmtInt (vecFmt w) && (decodeF (vecFmt w) r).isNan) = false) :
    vecCompute e w a b c = (e, headResult (vecFmt w) [r], 0, fNone) := by
  rw [activeElems] at h
  obtain rfl | rfl := hr <;> simp [vecCompute, hop, h, hn]

theorem vecCompute_bestNone {op : Nat} (hop : fld w 0 8 = op) (hr : op = 0x41 ∨ op = 0x42) (h : activeElems e w a = []) : vecCompute e w a b c =
    (e, headResult (vecFmt w) [unstatedElem op (vecFmt w) a (tget e.th0.m (vecMask w) 0)], 0, fNone) := by
  rw [activeElems] at h
  obtain rfl | rfl := hr <;> simp [vecCompute, hop, h, redBest]

theorem vecCompute_rargmax (hop : fld w 0 8 = 0x43) {i r : Nat} (h : redBest 0x43 (vecFmt w) (activeElems e w a) = some (i, r))
    (hn : (!fmtInt (vecFmt w) && (decodeF (vecFmt w) r).isNan) = false) :
    vecCompute e w a b c = (e, headResult (vecFmt w) [r, i], 0, fNone) := by
  rw [activeElems] at h
  simp [vecCompute, hop, h, hn]

theorem vecCompute_rargmaxNone (hop : fld w 0 8 = 0x43) (h : activeElems e w a = []) :
    vecCompute e w a b c = (e, headResult (vecFmt w) [0, 2 ^ fmtBits (vecFmt w) - 1], 0, fNone) := by
  rw [activeElems] at h
  simp [vecCompute, hop, h, redBest]

theorem vecCompute_psum (hop : fld w 0 8 = 0x44) {ps : List (Option Nat)} {fl : Flg} (h : psum (vecFmt w)
      ((List.range (fmtN (vecFmt w))).map fun i => if activeAt e w i then some (vElem (vecFmt w) a i) else none) = (ps, fl)) :
    vecCompute e w a b c = (e, packV (vecFmt w) (((List.range (fmtN (vecFmt w))).zip ps).map
      fun p => p.2.getD (vElem (vecFmt w) (oldV e (vecD w)) p.1)), 0, fl) := by simp [vecCompute, hop, h]

theorem vecCompute_bcast (hop : fld w 0 8 = 0x45) : vecCompute e w a b c = vecRes e (ewResult e w fun _ =>
    (vElem (vecFmt w) a (vElem (vecFmt w) b 0 % fmtN (vecFmt w)), fNone)) := by simp [vecCompute, hop, vecRes]

theorem vecCompute_perm (hop : fld w 0 8 = 0x46) : vecCompute e w a b c = vecRes e (ewResult e w fun i =>
    (vElem (vecFmt w) a (fld b (8 * i) 8 % fmtN (vecFmt w)), fNone)) := by simp [vecCompute, hop, vecRes]

theorem vecCompute_iota (hop : fld w 0 8 = 0x47) : vecCompute e w a b c = vecRes e (ewResult e w fun i =>
    (if fmtInt (vecFmt w) then i % 2 ^ fmtBits (vecFmt w) else (arith (vecFmt w) (.fin false i 0)).1, fNone)) := by simp [vecCompute, hop, vecRes]

theorem vecCompute_mpopc (hop : fld w 0 8 = 0x48) : vecCompute e w a b c = (e, headResult (vecFmt w)
    [if maskCount (vecFmt w) (tget e.th0.m (vecMask w) 0) ≤ 2 ^ fmtBits (vecFmt w) - 1 then maskCount (vecFmt w) (tget e.th0.m (vecMask w) 0)
      else unstatedElem 0x48 (vecFmt w) 0 (tget e.th0.m (vecMask w) 0)], 0, fNone) := by
  rw [maskCount]; simp [vecCompute, hop]

theorem vecCompute_mfirst (hop : fld w 0 8 = 0x49) : vecCompute e w a b c = (e, headResult (vecFmt w)
    [((List.range (fmtN (vecFmt w))).find? fun i => bit (tget e.th0.m (vecMask w) 0) i).getD (2 ^ fmtBits (vecFmt w) - 1)], 0, fNone) := by
  simp [vecCompute, hop]

end

theorem activeElems_eq_nil {e : Ev} {w : BitVec 48} (a : VReg) (h : ∀ i, i < fmtN (vecFmt w) → activeAt e w i = false) : activeElems e w a = [] := by
  rw [activeElems, List.map_eq_nil_iff, List.filter_eq_nil_iff]
  intro i hi
  simp [h i (List.mem_range.1 hi)]

theorem mem_activeElems {e : Ev} {w : BitVec 48} {a : VReg} {k r : Nat} : (k, r) ∈ activeElems e w a ↔
    (k < fmtN (vecFmt w) ∧ activeAt e w k = true) ∧ vElem (vecFmt w) a k = r := by
  simp [activeElems]

end Sys2Proof.Machine

namespace Sys2Proof.Claims
open Sys2Proof.Machine

/-! ## A result at the head of D -/

theorem Head.eq_headResult {f : Nat} (hf : Fills f) {xs : List Nat} {v : VReg} (h : Head f xs v) : v = headResult f xs :=
  hf.vReg_ext fun i hi => by rw [headResult, hf.vElem_packV xs hi, ← h i hi, Nat.mod_eq_of_lt (vElem_lt ..)]

theorem headResult_mod (f r : Nat) : headResult f [r % 2 ^ fmtBits f] = headResult f [r] := by simp [headResult, packV_eq]

/-- The scan's elements, an old one where none is given, make the vector that the scan's claim describes. -/
theorem psum_packV {e : Ev} {w : BitVec 48} {v : VReg} (hfd : vecFmtD w = vecFmt w) (hf : Fills (vecFmt w)) {ps : List (Option Nat)}
    (hlen : ps.length = fmtN (vecFmt w)) (hps : ∀ i, i < fmtN (vecFmt w) → (ps.getD i none).isSome = activeAt e w i)
    (hv : Elements e w (fun i => ((ps.getD i none).getD 0) % 2 ^ fmtBits (vecFmt w)) v) :
    v = packV (vecFmt w) (((List.range (fmtN (vecFmt w))).zip ps).map fun p => p.2.getD (vElem (vecFmt w) (oldV e (vecD w)) p.1)) := by
  have hget (i : Nat) (hi : i < fmtN (vecFmt w)) :
      (((List.range (fmtN (vecFmt w))).zip ps).map fun p => p.2.getD (vElem (vecFmt w) (oldV e (vecD w)) p.1)).getD i 0 =
        (ps.getD i none).getD (vElem (vecFmt w) (oldV e (vecD w)) i) := by
    have hi' : i < ps.length := hlen ▸ hi
    simp [List.getD_eq_getElem?_getD, hi, hi']
  refine hf.vReg_ext fun i hi => ?_
  have hvi := hv.2 i (hfd ▸ hi)
  have hact := hps i hi
  rw [hfd] at hvi
  rw [hvi, hf.vElem_packV _ hi, hget i hi]
  cases hp : ps.getD i none with
  | none => rw [← hact, hp]; simp [Nat.mod_eq_of_lt (vElem_lt ..)]
  | some o => simp only [← hact, hp, Option.isSome_some, if_true, Option.getD_some]

section
variable {s : State} {t : Tid} {b : Bundle} {j : Job} {th : Thread} {op : Nat} {sg : VecSig} {x y z v : VReg} {e e' : Ev} {fl : Flg}

/-- An operation whose result stands in the first elements. -/
theorem VecIssues.exec_head (h : VecIssues s t b j th op sg x y z e) (hsg : vecSig op = some sg) {c : Tid → Bundle → Instr} (hc : RunsVec c op)
    (hd : sg.d = 1) (hr : op < 0x38 ∨ 0x3A < op ∧ op < 0x5B) {xs : List Nat}
    (hx : vecCompute e b.vec x y z = (e, headResult (vecFmt b.vec) xs, 0, fl)) (hv : Head (vecFmt b.vec) xs v)
    (hw : writeV (raise e fl) (vecD b.vec) v = .ok e') : exec (c t b) s = .next (finishIssue e') :=
  h.exec_vector hsg hc hd (hv.eq_headResult (h.formats hr).2 ▸ hx) hw

/-- Element-wise operations that raise nothing. -/
theorem VecIssues.exec_moves (h : VecIssues s t b j th op sg x y z e) (hsg : vecSig op = some sg) {c : Tid → Bundle → Instr} (hc : RunsVec c op)
    (hd : sg.d = 1) {g : Nat → Nat} (hg : vecCompute e b.vec x y z = vecRes e (ewResult e b.vec fun i => (g i, fNone)))
    (hv : Elements e b.vec g v) (hw : writeV (raise e 0) (vecD b.vec) v = .ok e') : exec (c t b) s = .next (finishIssue e') :=
  h.exec_elements hsg hc hd hg hv (by rw [condsOf_none]; exact hw)

end

end Sys2Proof.Claims
end

section
/-! PROOFS. The rows of reductions, scans, permutations and counts (R117 to R120). -/
namespace Sys2Proof.Claims
open Sys2Proof.Machine

section
variable {s : State} {t : Tid} {b : Bundle} {j : Job} {th : Thread} {op : Nat} {x y z v : VReg} {e e' : Ev} {fl : Flg}

/-! ## Reductions -/

theorem VecIssues.exec_rsum (h : VecIssues s t b j th 0x40 sig1 x y z e) {r : Nat} (hr : rsum (vecFmt b.vec)
      ((List.range (fmtN (vecFmt b.vec))).map fun i => if activeAt e b.vec i then vElem (vecFmt b.vec) x i else 0) = (r, fl))
    (hv : Head (vecFmt b.vec) [r % 2 ^ fmtBits (vecFmt b.vec)] v) (hw : writeV (raise e fl) (vecD b.vec) v = .ok e') :
    exec (.rsum t b) s = .next (finishIssue e') := by
  have hx := vecCompute_rsum e x y z h.op_eq hr
  rw [← headResult_mod] at hx
  exact h.exec_head rfl (c := .rsum) (fun _ _ _ => rfl) rfl (by decide) hx hv hw

/-- RMAX and RMIN write the best active element, where it is no NaN. -/
theorem VecIssues.exec_best (h : VecIssues s t b j th op sig1 x y z e) {i r : Nat}
    (hb : redBest op (vecFmt b.vec) (activeElems e b.vec x) = some (i, r)) (hn : (!fmtInt (vecFmt b.vec) && (decodeF (vecFmt b.vec) r).isNan) = false)
    (hv : Head (vecFmt b.vec) [r] v) (hw : writeV (raise e 0) (vecD b.vec) v = .ok e') :
    (op = 0x41 → exec (.rmax t b) s = .next (finishIssue e')) ∧ (op = 0x42 → exec (.rmin t b) s = .next (finishIssue e')) := by
  constructor
  · rintro rfl
    exact h.exec_head rfl (c := .rmax) (fun _ _ _ => rfl) rfl (by decide) (vecCompute_best e x y z h.op_eq (.inl rfl) hb hn) hv hw
  · rintro rfl
    exact h.exec_head rfl (c := .rmin) (fun _ _ _ => rfl) rfl (by decide) (vecCompute_best e x y z h.op_eq (.inr rfl) hb hn) hv hw

/-- Where the better of two integers is the one with the greater key, and no active element passes that at `i`, the best element has its code. -/
theorem redBest_of_greatest {key : Nat → Int} (hkey : ∀ p q, redBetter op (vecFmt b.vec) p q = decide (key p < key q))
    (hinj : ∀ p q, p < 2 ^ fmtBits (vecFmt b.vec) → q < 2 ^ fmtBits (vecFmt b.vec) → key p = key q → p = q) {i : Nat}
    (hi : i < fmtN (vecFmt b.vec)) (ha : activeAt e b.vec i = true)
    (hmax : ∀ k, k < fmtN (vecFmt b.vec) → activeAt e b.vec k = true → key (vElem (vecFmt b.vec) x k) ≤ key (vElem (vecFmt b.vec) x i)) :
    ∃ k, redBest op (vecFmt b.vec) (activeElems e b.vec x) = some (k, vElem (vecFmt b.vec) x i) := by
  have hmem : (i, vElem (vecFmt b.vec) x i) ∈ activeElems e b.vec x := mem_activeElems.2 ⟨⟨hi, ha⟩, rfl⟩
  obtain ⟨⟨k, r⟩, hkr⟩ := Option.isSome_iff_exists.1 (redBest_isSome op (vecFmt b.vec) (List.ne_nil_of_mem hmem))
  obtain ⟨hin, hle⟩ := redBest_greatest hkey hkr
  obtain ⟨⟨hk, hak⟩, rfl⟩ := mem_activeElems.1 hin
  refine ⟨k, ?_⟩
  rw [hkr, hinj _ _ (vElem_lt ..) (vElem_lt ..) (le_antisymm (hmax k hk hak) (hle _ hmem))]

theorem VecIssues.exec_rmax_int (h : VecIssues s t b j th 0x41 sig1 x y z e) (hf : fmtInt (vecFmt b.vec) = true) {i : Nat}
    (hi : i < fmtN (vecFmt b.vec)) (ha : activeAt e b.vec i = true) (hmax : ∀ k, k < fmtN (vecFmt b.vec) → activeAt e b.vec k = true →
      sxt (fmtBits (vecFmt b.vec)) (vElem (vecFmt b.vec) x k) ≤ sxt (fmtBits (vecFmt b.vec)) (vElem (vecFmt b.vec) x i))
    (hv : Head (vecFmt b.vec) [vElem (vecFmt b.vec) x i] v) (hw : writeV (raise e 0) (vecD b.vec) v = .ok e') :
    exec (.rmax t b) s = .next (finishIssue e') := by
  obtain ⟨k, hk⟩ := redBest_of_greatest (redBetter_rmax_int hf) (fun _ _ hp hq => sxt_inj hp hq) hi ha hmax
  exact (h.exec_best hk (by rw [hf]; rfl) hv hw).1 rfl

theorem VecIssues.exec_rmin_int (h : VecIssues s t b j th 0x42 sig1 x y z e) (hf : fmtInt (vecFmt b.vec) = true) {i : Nat}
    (hi : i < fmtN (vecFmt b.vec)) (ha : activeAt e b.vec i = true) (hmin : ∀ k, k < fmtN (vecFmt b.vec) → activeAt e b.vec k = true →
      sxt (fmtBits (vecFmt b.vec)) (vElem (vecFmt b.vec) x i) ≤ sxt (fmtBits (vecFmt b.vec)) (vElem (vecFmt b.vec) x k))
    (hv : Head (vecFmt b.vec) [vElem (vecFmt b.vec) x i] v) (hw : writeV (raise e 0) (vecD b.vec) v = .ok e') :
    exec (.rmin t b) s = .next (finishIssue e') := by
  obtain ⟨k, hk⟩ := redBest_of_greatest (redBetter_rmin_int hf) (fun _ _ hp hq hneg => sxt_inj hp hq (neg_injective hneg)) hi ha
    fun k hk hak => neg_le_neg (hmin k hk hak)
  exact (h.exec_best hk (by rw [hf]; rfl) hv hw).2 rfl

theorem VecIssues.exec_rargmax (h : VecIssues s t b j th 0x43 sig1 x y z e) {i r : Nat}
    (hb : redBest 0x43 (vecFmt b.vec) (activeElems e b.vec x) = some (i, r))
    (hn : (!fmtInt (vecFmt b.vec) && (decodeF (vecFmt b.vec) r).isNan) = false) (hv : Head (vecFmt b.vec) [r, i] v)
    (hw : writeV (raise e 0) (vecD b.vec) v = .ok e') : exec (.rargmax t b) s = .next (finishIssue e') :=
  h.exec_head rfl (c := .rargmax) (fun _ _ _ => rfl) rfl (by decide) (vecCompute_rargmax e x y z h.op_eq hb hn) hv hw

/-! ## Scans -/

theorem VecIssues.exec_psum (h : VecIssues s t b j th 0x44 sig1 x y z e) {ps : List (Option Nat)} (hps : psum (vecFmt b.vec)
      ((List.range (fmtN (vecFmt b.vec))).map fun i => if activeAt e b.vec i then some (vElem (vecFmt b.vec) x i) else none) = (ps, fl))
    (hv : Elements e b.vec (fun i => ((ps.getD i none).getD 0) % 2 ^ fmtBits (vecFmt b.vec)) v)
    (hw : writeV (raise e fl) (vecD b.vec) v = .ok e') : exec (.psum t b) s = .next (finishIssue e') := by
  obtain ⟨hfd, hfill⟩ := h.formats (by decide)
  have hlen : ps.length = fmtN (vecFmt b.vec) := by
    rw [show ps = _ from (congrArg Prod.fst hps).symm, psum_length, List.length_map, List.length_range]
  have hsome (i : Nat) (hi : i < fmtN (vecFmt b.vec)) : (ps.getD i none).isSome = activeAt e b.vec i := by
    rw [show ps = _ from (congrArg Prod.fst hps).symm, psum_getD_isSome]
    cases ha : activeAt e b.vec i <;> simp [hi, ha]
  refine h.exec_vector rfl (c := .psum) (fun _ _ _ => rfl) rfl ?_ hw
  rw [vecCompute_psum e x y z h.op_eq hps, ← psum_packV hfd hfill hlen hsome hv]

/-! ## Permutations and counts -/

theorem VecIssues.exec_iota (h : VecIssues s t b j th 0x47 { sig1 with a := 0 } x y z e)
    (hv : Elements e b.vec (fun i => if fmtInt (vecFmt b.vec) then i else (arith (vecFmt b.vec) (.fin false i 0)).1) v)
    (hw : writeV (raise e 0) (vecD b.vec) v = .ok e') : exec (.iota t b) s = .next (finishIssue e') := by
  obtain ⟨hfd, -⟩ := h.formats (by decide)
  refine h.exec_moves rfl (c := .iota) (fun _ _ _ => rfl) rfl (vecCompute_iota e x y z h.op_eq) (hv.mono fun i _ _ hlt => ?_) hw
  rw [hfd] at hlt
  split_ifs at hlt ⊢
  · exact Nat.mod_eq_of_lt hlt
  · rfl

theorem VecIssues.exec_mpopc (h : VecIssues s t b j th 0x48 { sig1 with a := 0, usesMask := true } x y z e)
    (hk : maskCount (vecFmt b.vec) (tget th.m (vecMask b.vec) 0) < 2 ^ fmtBits (vecFmt b.vec))
    (hv : Head (vecFmt b.vec) [maskCount (vecFmt b.vec) (tget th.m (vecMask b.vec) 0)] v) (hw : writeV (raise e 0) (vecD b.vec) v = .ok e') :
    exec (.mpopc t b) s = .next (finishIssue e') := by
  obtain ⟨-, rfl⟩ := h.keeps
  have hx := vecCompute_mpopc e x y z h.op_eq
  rw [if_pos (Nat.le_sub_one_of_lt hk)] at hx
  exact h.exec_head rfl (c := .mpopc) (fun _ _ _ => rfl) rfl (by decide) hx hv hw

/-- A count that does not fit: some value is written. -/
theorem VecIssues.exec_mpopc_over (h : VecIssues s t b j th 0x48 { sig1 with a := 0, usesMask := true } x y z e)
    (hk : 2 ^ fmtBits (vecFmt b.vec) ≤ maskCount (vecFmt b.vec) (tget th.m (vecMask b.vec) 0)) :
    ∃ w, ∀ v e', Head (vecFmt b.vec) [w] v → writeV (raise e 0) (vecD b.vec) v = .ok e' → exec (.mpopc t b) s = .next (finishIssue e') := by
  obtain ⟨-, rfl⟩ := h.keeps
  have hpos : 0 < 2 ^ fmtBits (vecFmt b.vec) := Nat.two_pow_pos _
  have hx := vecCompute_mpopc e x y z h.op_eq
  rw [if_neg (by omega)] at hx
  exact ⟨_, fun v e' hv hw => h.exec_head rfl (c := .mpopc) (fun _ _ _ => rfl) rfl (by decide) hx hv hw⟩

/-- MFIRST writes the first position that the mask selects, or all ones. -/
theorem VecIssues.exec_mfirst (h : VecIssues s t b j th 0x49 { sig1 with a := 0, usesMask := true } x y z e) {o : Option Nat}
    (ho : ((List.range (fmtN (vecFmt b.vec))).find? fun i => bit (tget th.m (vecMask b.vec) 0) i) = o)
    (hv : Head (vecFmt b.vec) [o.getD (2 ^ fmtBits (vecFmt b.vec) - 1) % 2 ^ fmtBits (vecFmt b.vec)] v)
    (hw : writeV (raise e 0) (vecD b.vec) v = .ok e') : exec (.mfirst t b) s = .next (finishIssue e') := by
  obtain ⟨-, rfl⟩ := h.keeps
  have hx := vecCompute_mfirst e x y z h.op_eq
  rw [ho, ← headResult_mod] at hx
  exact h.exec_head rfl (c := .mfirst) (fun _ _ _ => rfl) rfl (by decide) hx hv hw

end

/-- Settles O23: the rows by what each operation computes; on integers the best element, the running sums and the tree by induction over the elements. -/
theorem reductionRows : Obligations.ReductionRows := by
  unfold Obligations.ReductionRows
  refine ⟨?rsum, ?greatest, ?best, ?argmaxNone, ?bestNone, ?overflow, ?psum, ?moves, ?integers⟩
  case rsum =>
    intro s t b j th x y z v e e' r fl h hr hv hw
    exact h.exec_rsum hr hv hw
  case greatest =>
    intro s t b j th x y z v e e' i hf hi ha hv hw
    have hint : fmtInt (vecFmt b.vec) = true := by obtain hf | hf := hf <;> rw [hf] <;> rfl
    exact ⟨fun h hmax => h.exec_rmax_int hint hi ha hmax hv hw, fun h hmin => h.exec_rmin_int hint hi ha hmin hv hw⟩
  case best =>
    intro s t b j th x y z v e e' op i r hb h hw hnan
    have hn : (!fmtInt (vecFmt b.vec) && (decodeF (vecFmt b.vec) r).isNan) = false := by rw [hnan, Bool.and_false]
    refine ⟨fun hop hv => (h.exec_best hb hn hv hw).1 hop, fun hop hv => (h.exec_best hb hn hv hw).2 hop, ?_⟩
    rintro rfl hv
    exact h.exec_rargmax hb hn hv hw
  case argmaxNone =>
    intro s t b j th x y z v e e' h hnone hv hw
    exact h.exec_head rfl (c := .rargmax) (fun _ _ _ => rfl) rfl (by decide)
      (vecCompute_rargmaxNone e x y z h.op_eq (activeElems_eq_nil x hnone)) hv hw
  case bestNone =>
    intro s t b j th x y z e hnone
    have hnil := activeElems_eq_nil x hnone
    exact ⟨fun h => ⟨_, fun v e' hv hw => h.exec_head rfl (c := .rmax) (fun _ _ _ => rfl) rfl (by decide)
        (vecCompute_bestNone e x y z h.op_eq (.inl rfl) hnil) hv hw⟩,
      fun h => ⟨_, fun v e' hv hw => h.exec_head rfl (c := .rmin) (fun _ _ _ => rfl) rfl (by decide)
        (vecCompute_bestNone e x y z h.op_eq (.inr rfl) hnil) hv hw⟩⟩
  case overflow =>
    intro s t b j th x y z e h hk
    exact h.exec_mpopc_over hk
  case psum =>
    intro s t b j th x y z v e e' ps fl h hps hv hw
    exact h.exec_psum hps hv hw
  case moves =>
    intro s t b j th x y z v e e' hw
    refine ⟨?bcast, ?perm, ?iota, ?mpopc, ?mfirst, ?mfirstNone⟩
    case bcast =>
      exact fun h hv => h.exec_moves rfl (c := .bcast) (fun _ _ _ => rfl) rfl (vecCompute_bcast e x y z h.op_eq) hv hw
    case perm =>
      exact fun h hv => h.exec_moves rfl (c := .perm) (fun _ _ _ => rfl) rfl (vecCompute_perm e x y z h.op_eq) hv hw
    case iota => exact fun h hv => h.exec_iota hv hw
    case mpopc => exact fun h hk hv => h.exec_mpopc hk hv hw
    case mfirst =>
      intro i h hi hbit hbefore hv
      have hfind : ((List.range (fmtN (vecFmt b.vec))).find? fun i => bit (tget th.m (vecMask b.vec) 0) i) = some i :=
        List.find?_range_eq_some.2 ⟨hbit, List.mem_range.2 hi, fun k hk => by rw [hbefore k hk]; rfl⟩
      exact h.exec_mfirst hfind hv hw
    case mfirstNone =>
      intro h hnone hv
      have hfind : ((List.range (fmtN (vecFmt b.vec))).find? fun i => bit (tget th.m (vecMask b.vec) 0) i) = none :=
        List.find?_range_eq_none.2 fun k hk => by rw [hnone k hk]; rfl
      refine h.exec_mfirst hfind ?_ hw
      rwa [Option.getD_none, Nat.mod_eq_of_lt (Nat.sub_lt (Nat.two_pow_pos _) Nat.one_pos)]
  case integers =>
    intro f xs hf hx
    have hint : fmtInt f = true := by obtain rfl | rfl := hf <;> rfl
    obtain ⟨-, hfl, hsums⟩ := psumAcc_int hint hx
    refine ⟨hfl, psum_length f xs, hsums, fun n hn => rsum_int hint (by rw [List.length_map, hn]) ?_⟩
    rw [List.forall_mem_map]
    intro o ho
    cases o with
    | none => exact Nat.two_pow_pos _
    | some a => exact hx _ ho a rfl

end Sys2Proof.Claims
end

section
/-! PROOFS. What a step leaves as it was, in one relation: a later state of one differs from it in the pieces listed only, keeps the queue and the grade, the
canonical form of device and host memory, and what manufacture fixed. Each operation of the model is in it with the pieces it may touch, and so is every
command with the pieces of its row: FusesKept, MemoryStaysCanonical and CommandsKeepTheRest follow. -/
namespace Sys2Proof.Machine
open Sys2Proof.Claims

-- one declaration at a time: many short proofs at once would each hold a thread until those before it are checked
set_option Elab.async false

structure Within (P : List Piece) (s t : State) : Prop where
  pending : t.pending = s.pending
  grade : t.grade = s.grade
  same : ∀ p, p ∉ P → sameIn p s t
  mem : Mem.wf s.mem = true → Mem.wf t.mem = true
  host : twf (fun _ => 0) s.host.mem = true → twf (fun _ => 0) t.host.mem = true
  fused : Fused s → Fused t

variable {P Q : List Piece} {s t u : State}

theorem sameIn_rfl (p : Piece) (s : State) : sameIn p s s := by cases p <;> rfl

theorem sameIn_trans {p : Piece} (h : sameIn p s t) (k : sameIn p t u) : sameIn p s u := by
  cases p <;> exact Eq.trans k h

theorem Within.rfl : Within P s s := ⟨by rfl, by rfl, fun p _ => sameIn_rfl p s, id, id, id⟩

theorem Within.trans (h : Within P s t) (k : Within P t u) : Within P s u :=
  ⟨k.pending.trans h.pending, k.grade.trans h.grade, fun p hp => sameIn_trans (h.same p hp) (k.same p hp), k.mem ∘ h.mem, k.host ∘ h.host, k.fused ∘ h.fused⟩

theorem Within.mono (h : Within Q s t) (hq : Q ⊆ P := by decide) : Within P s t :=
  ⟨h.pending, h.grade, fun p hp => h.same p (fun hm => hp (hq hm)), h.mem, h.host, h.fused⟩

theorem Within.after (k : Within Q t u) (h : Within P s t) (hq : Q ⊆ P := by decide) : Within P s u := h.trans (k.mono hq)

theorem Within.ite {c : Prop} [Decidable c] {a b : State} (h : Within P s a) (k : Within P s b) : Within P s (if c then a else b) := by
  split <;> assumption

theorem Within.ite2 {α : Type} {c : Prop} [Decidable c] {a b : α × State} (h : Within P s a.2) (k : Within P s b.2) : Within P s (if c then a else b).2 := by
  split <;> assumption

/-- A step that may be left out: the other branch is where it starts. -/
theorem Within.iteThen {c : Prop} [Decidable c] {a b : State} (h : Within P s b) (k : Within P b a) : Within P s (if c then a else b) := by
  split
  · exact h.trans k
  · exact h

theorem Within.iteElse {c : Prop} [Decidable c] {a b : State} (h : Within P s a) (k : Within P a b) : Within P s (if c then a else b) := by
  split
  · exact h
  · exact h.trans k

/-! ## Folds -/

theorem Within.foldl {α : Type} {g : State → α → State} {l : List α} (hg : ∀ s a, Within P s (g s a)) (h : Within P s t) : Within P s (l.foldl g t) :=
  List.foldlRecOn l g (motive := fun x => Within P s x) h fun _ hx a _ => hx.trans (hg _ a)

theorem Within.foldl2 {α β : Type} {g : β × State → α → β × State} {l : List α} {x : β × State} (hg : ∀ x a, Within P x.2 (g x a).2) (h : Within P s x.2) :
    Within P s (l.foldl g x).2 :=
  List.foldlRecOn l g (motive := fun x => Within P s x.2) h fun _ hx a _ => hx.trans (hg _ a)

theorem Within.foldl3 {α β γ : Type} {g : β × γ × State → α → β × γ × State} {l : List α} {x : β × γ × State} (hg : ∀ x a, Within P x.2.2 (g x a).2.2)
    (h : Within P s x.2.2) : Within P s (l.foldl g x).2.2 :=
  List.foldlRecOn l g (motive := fun x => Within P s x.2.2) h fun _ hx a _ => hx.trans (hg _ a)

theorem Within.foldlFst {α β : Type} {g : State × β → α → State × β} {l : List α} {x : State × β} (hg : ∀ x a, Within P x.1 (g x a).1) (h : Within P s x.1) :
    Within P s (l.foldl g x).1 :=
  List.foldlRecOn l g (motive := fun x => Within P s x.1) h fun _ hx a _ => hx.trans (hg _ a)

theorem Within.iterate {n : Nat} {f : Nat → State → State} (hg : ∀ i s, Within P s (f i s)) (h : Within P s t) : Within P s (iterate n f t) :=
  Within.foldl (fun s i => hg i s) h

/-! ## Updates of one piece -/

/-- A piece that no invariant speaks of may take any value. -/
theorem Within.update {v : State} (h : Within P s t) (hp : v.pending = t.pending) (hg : v.grade = t.grade) (hs : ∀ p, p ∉ P → sameIn p t v)
    (hm : v.mem = t.mem) (hh : v.host = t.host) (hc : v.sec = t.sec) (hf : v.flash = t.flash) : Within P s v :=
  h.trans ⟨hp, hg, hs, by rw [hm]; exact id, by rw [hh]; exact id, by unfold Fused; rw [hc, hf]; exact id⟩

theorem Within.fresh {x : Nat} (h : Within P s t) (hp : .fresh ∈ P := by decide) : Within P s { t with fresh := x } :=
  h.update (by rfl) (by rfl) (fun p hn => by cases p <;> first | rfl | exact absurd hp hn) (by rfl) (by rfl) (by rfl) (by rfl)

theorem Within.time {x : TimeSt} (h : Within P s t) (hp : .time ∈ P := by decide) : Within P s { t with time := x } :=
  h.update (by rfl) (by rfl) (fun p hn => by cases p <;> first | rfl | exact absurd hp hn) (by rfl) (by rfl) (by rfl) (by rfl)

theorem Within.bar {x : Bar} (h : Within P s t) (hp : .bar ∈ P := by decide) : Within P s { t with bar := x } :=
  h.update (by rfl) (by rfl) (fun p hn => by cases p <;> first | rfl | exact absurd hp hn) (by rfl) (by rfl) (by rfl) (by rfl)

theorem Within.cores {x : Cores} (h : Within P s t) (hp : .cores ∈ P := by decide) : Within P s { t with cores := x } :=
  h.update (by rfl) (by rfl) (fun p hn => by cases p <;> first | rfl | exact absurd hp hn) (by rfl) (by rfl) (by rfl) (by rfl)

theorem Within.sems {x : Tab Sem} (h : Within P s t) (hp : .sems ∈ P := by decide) : Within P s { t with sems := x } :=
  h.update (by rfl) (by rfl) (fun p hn => by cases p <;> first | rfl | exact absurd hp hn) (by rfl) (by rfl) (by rfl) (by rfl)

theorem Within.hoists {x : Hoists} (h : Within P s t) (hp : .hoists ∈ P := by decide) : Within P s { t with hoists := x } :=
  h.update (by rfl) (by rfl) (fun p hn => by cases p <;> first | rfl | exact absurd hp hn) (by rfl) (by rfl) (by rfl) (by rfl)

theorem Within.nb {x : NearBank} (h : Within P s t) (hp : .nb ∈ P := by decide) : Within P s { t with nb := x } :=
  h.update (by rfl) (by rfl) (fun p hn => by cases p <;> first | rfl | exact absurd hp hn) (by rfl) (by rfl) (by rfl) (by rfl)

theorem Within.parts {x : Tab Part} (h : Within P s t) (hp : .parts ∈ P := by decide) : Within P s { t with parts := x } :=
  h.update (by rfl) (by rfl) (fun p hn => by cases p <;> first | rfl | exact absurd hp hn) (by rfl) (by rfl) (by rfl) (by rfl)

theorem Within.se {x : Serving} (h : Within P s t) (hp : .se ∈ P := by decide) : Within P s { t with se := x } :=
  h.update (by rfl) (by rfl) (fun p hn => by cases p <;> first | rfl | exact absurd hp hn) (by rfl) (by rfl) (by rfl) (by rfl)

theorem Within.fab {x : Fabric} (h : Within P s t) (hp : .fab ∈ P := by decide) : Within P s { t with fab := x } :=
  h.update (by rfl) (by rfl) (fun p hn => by cases p <;> first | rfl | exact absurd hp hn) (by rfl) (by rfl) (by rfl) (by rfl)

theorem Within.faults {x : Faults} (h : Within P s t) (hp : .faults ∈ P := by decide) : Within P s { t with faults := x } :=
  h.update (by rfl) (by rfl) (fun p hn => by cases p <;> first | rfl | exact absurd hp hn) (by rfl) (by rfl) (by rfl) (by rfl)

theorem Within.twin {x : Twin} (h : Within P s t) (hp : .twin ∈ P := by decide) : Within P s { t with twin := x } :=
  h.update (by rfl) (by rfl) (fun p hn => by cases p <;> first | rfl | exact absurd hp hn) (by rfl) (by rfl) (by rfl) (by rfl)

theorem Within.pwr {x : Power} (h : Within P s t) (hp : .pwr ∈ P := by decide) : Within P s { t with pwr := x } :=
  h.update (by rfl) (by rfl) (fun p hn => by cases p <;> first | rfl | exact absurd hp hn) (by rfl) (by rfl) (by rfl) (by rfl)

theorem Within.pins {x : Pins} (h : Within P s t) (hp : .pins ∈ P := by decide) : Within P s { t with pins := x } :=
  h.update (by rfl) (by rfl) (fun p hn => by cases p <;> first | rfl | exact absurd hp hn) (by rfl) (by rfl) (by rfl) (by rfl)

theorem Within.trace {x : Trace} (h : Within P s t) (hp : .trace ∈ P := by decide) : Within P s { t with trace := x } :=
  h.update (by rfl) (by rfl) (fun p hn => by cases p <;> first | rfl | exact absurd hp hn) (by rfl) (by rfl) (by rfl) (by rfl)

theorem Within.memory {x : Mem} (h : Within P s t) (hx : Mem.wf t.mem = true → Mem.wf x = true) (hp : .mem ∈ P := by decide) :
    Within P s { t with mem := x } :=
  h.trans ⟨by rfl, by rfl, fun p hn => by cases p <;> first | rfl | exact absurd hp hn, hx, id, id⟩

/-- Device memory's cells, their errors and what R281 discarded stay. -/
theorem Within.memRest {x : Mem} (h : Within P s t) (hd : x.dram = t.mem.dram := by rfl) (he : x.ecc = t.mem.ecc := by rfl)
    (hx : x.discarded = t.mem.discarded := by rfl) (hp : .mem ∈ P := by decide) : Within P s { t with mem := x } :=
  h.memory (wf_of_same hd he hx) hp

theorem Within.hostPort {x : HostPort} (h : Within P s t) (hx : twf (fun _ => 0) t.host.mem = true → twf (fun _ => 0) x.mem = true)
    (hp : .host ∈ P := by decide) : Within P s { t with host := x } :=
  h.trans ⟨by rfl, by rfl, fun p hn => by cases p <;> first | rfl | exact absurd hp hn, id, hx, id⟩

/-- Host memory stays. -/
theorem Within.hostRest {x : HostPort} (h : Within P s t) (hd : x.mem = t.host.mem := by rfl) (hp : .host ∈ P := by decide) :
    Within P s { t with host := x } := h.hostPort (fun k => hd ▸ k) hp

theorem Within.security {x : Security} (h : Within P s t) (hr : x.rootHash = t.sec.rootHash := by rfl) (hd : x.secret = t.sec.secret := by rfl)
    (ho : x.owners = t.sec.owners := by rfl) (hp : .sec ∈ P := by decide) : Within P s { t with sec := x } :=
  h.trans ⟨by rfl, by rfl, fun p hn => by cases p <;> first | rfl | exact absurd hp hn, id, id,
    fun ⟨h1, h2, h3, h4, h5⟩ => ⟨hr.trans h1, hd.trans h2, h3, h4, ho ▸ h5⟩⟩

theorem Within.flashRest {x : Flash} (h : Within P s t) (hs : x.serial = t.flash.serial := by rfl) (hc : x.certs = t.flash.certs := by rfl)
    (hp : .flash ∈ P := by decide) : Within P s { t with flash := x } :=
  h.trans ⟨by rfl, by rfl, fun p hn => by cases p <;> first | rfl | exact absurd hp hn, id, id,
    fun ⟨h1, h2, h3, h4, h5⟩ => ⟨h1, h2, hs.trans h3, hc.trans h4, h5⟩⟩

/-- Several pieces change at once. -/
theorem Within.several {fresh time bar mem cores sems hoists nb host parts se fab faults twin pwr sec flash pins trace} (h : Within P s t)
    (hs : ∀ p, p ∉ P → sameIn p t
      ⟨t.grade, fresh, time, bar, mem, cores, sems, hoists, nb, host, parts, se, fab, faults, twin, pwr, sec, flash, pins, trace, t.pending⟩ := by
        intro p hp; cases p <;> first | rfl | exact absurd (by decide) hp)
    (hm : mem.dram = t.mem.dram ∧ mem.ecc = t.mem.ecc ∧ mem.discarded = t.mem.discarded := by exact ⟨by rfl, by rfl, by rfl⟩)
    (hh : host.mem = t.host.mem := by rfl)
    (hc : sec.rootHash = t.sec.rootHash ∧ sec.secret = t.sec.secret ∧ sec.owners = t.sec.owners := by exact ⟨by rfl, by rfl, by rfl⟩)
    (hf : flash.serial = t.flash.serial ∧ flash.certs = t.flash.certs := by exact ⟨by rfl, by rfl⟩) :
    Within P s ⟨t.grade, fresh, time, bar, mem, cores, sems, hoists, nb, host, parts, se, fab, faults, twin, pwr, sec, flash, pins, trace, t.pending⟩ := by
  refine h.trans ⟨by rfl, by rfl, hs, wf_of_same hm.1 hm.2.1 hm.2.2, fun k => ?_, fun ⟨h1, h2, h3, h4, h5⟩ => ?_⟩
  · simpa only [hh] using k
  · refine ⟨hc.1.trans h1, hc.2.1.trans h2, hf.1.trans h3, hf.2.trans h4, ?_⟩
    simpa only [hc.2.2] using h5

/-! ## A result taken apart -/

theorem Within.snd {α : Type} {x : α × State} {a : α} (h : x = (a, u)) (k : Within Q t x.2) : Within Q t u := by subst h; exact k
theorem Within.snd2 {α β : Type} {x : α × β × State} {a : α} {b : β} (h : x = (a, b, u)) (k : Within Q t x.2.2) : Within Q t u := by subst h; exact k
theorem Within.fst {α : Type} {x : State × α} {a : α} (h : x = (u, a)) (k : Within Q t x.1) : Within Q t u := by subst h; exact k

/-! ## Functions that may answer no state -/

/-- Whatever state it answers. -/
def Within.Opt (P : List Piece) (s : State) (r : Option State) : Prop := ∀ t, r = some t → Within P s t

theorem Within.ofNone : Within.Opt P s none := fun _ h => absurd h.symm (Option.some_ne_none _)
theorem Within.ofSome (h : Within P s t) : Within.Opt P s (some t) := fun _ k => Option.some.inj k ▸ h
theorem Within.Opt.bind {r : Option State} {f : State → Option State} (h : Within.Opt P s r) (hf : ∀ u, Within.Opt P u (f u)) : Within.Opt P s (r.bind f) := by
  intro t ht
  obtain ⟨u, hu, ht⟩ := Option.bind_eq_some_iff.1 ht
  exact (h u hu).trans (hf u t ht)

theorem Within.Opt.getD {r : Option State} (h : Within.Opt P s r) : Within P s (r.getD s) := by
  cases r with
  | none => exact .rfl
  | some t => exact h t (by rfl)

theorem Within.optIte {c : Prop} [Decidable c] {a b : Option State} (h : Within.Opt P s a) (k : Within.Opt P s b) : Within.Opt P s (if c then a else b) := by
  split <;> assumption

end Sys2Proof.Machine
end

section
/-! PROOFS. The pieces each operation of the model may touch, in the model's order. -/
namespace Sys2Proof.Machine
open Sys2Proof.Claims

-- one declaration at a time: many short proofs at once would each hold a thread until those before it are checked
set_option Elab.async false

variable {P Q : List Piece} {s t u : State}

/-! ## RegMap -/

theorem wr_within {s : State} {off : Nat} {v : W32} : Within [.bar] s (wr s off v) := by
  unfold wr
  exact .bar .rfl

theorem wr64_within {s : State} {off : Nat} {v : W64} : Within [.bar] s (wr64 s off v) := by
  unfold wr64
  exact .bar .rfl

theorem wf_within {s : State} {off lo len v : Nat} : Within [.bar] s (wf s off lo len v) := by
  unfold wf
  exact wr_within.after .rfl

theorem bump_within {s : State} {off status bit n : Nat} : Within [.bar] s (bump s off status bit n) := by
  unfold bump
  dsimp only
  exact .iteThen (wr64_within.after .rfl) (wf_within.after .rfl)

/-! ## Ops -/

theorem draw_within {s : State} {w : Nat} : Within [.fresh] s (draw s w).2 := by
  unfold draw
  dsimp only
  exact .fresh .rfl

theorem drawBelow_within {s : State} {n : Nat} : Within [.fresh] s (drawBelow s n).2 := by
  unfold drawBelow
  dsimp only
  exact .fresh .rfl

theorem setDevState_within {s : State} {v : Nat} : Within [.bar] s (setDevState s v) := by
  unfold setDevState
  exact wf_within.after .rfl

theorem flashWrite_within {s : State} {r : FlashRec} : Within [.flash] s (flashWrite s r) := by
  unfold flashWrite
  exact .flashRest .rfl

theorem logErr_within {s : State} {e : ErrEnt} : Within [.bar, .faults, .trace] s (logErr s e) := by
  unfold logErr
  dsimp only
  exact wf_within.after (.ite (wr_within.after (.several (bump_within.after .rfl))) (.faults (bump_within.after .rfl)))

theorem logIll_within {s : State} {tag subtag reason slot pc : Nat} {t : Tid} {detail : Nat} : Within [.bar, .faults] s (logIll s tag subtag reason
    slot pc t detail) := by
  unfold logIll
  dsimp only
  exact wf_within.after (.faults (bump_within.after .rfl))

theorem setSem_within {s : State} {n : Nat} {x : Sem} : Within [.sems] s (setSem s n x) := by
  unfold setSem
  exact .sems .rfl

theorem setThread_within {s : State} {t : Tid} {x : Thread} : Within [.cores] s (setThread s t x) := by
  unfold setThread
  exact .cores .rfl

theorem cleanTouch_within {s : State} {tag : W32} {n : Nat} : Within [.cores] s (cleanTouch s tag n) := by
  unfold cleanTouch
  dsimp only
  exact .cores .rfl

theorem wake_within {s : State} {t : Tid} : Within [.cores] s (wake s t) := by
  unfold wake
  dsimp only
  split
  · exact .cores (setThread_within.after .rfl)
  · exact .cores (.ite .rfl (setThread_within.after .rfl))
  · exact .rfl

theorem semSatisfy_within {s : State} {n : Nat} : Within [.cores, .sems] s (semSatisfy s n) := by
  unfold semSatisfy
  dsimp only
  exact .foldl (fun s a => wake_within.after .rfl) (setSem_within.after .rfl)

theorem semSignal_within {s : State} {n : Nat} {a : W64} {src : SemSrc} : Within [.bar, .cores, .sems, .faults, .trace] s (semSignal s n a src) := by
  unfold semSignal
  dsimp only
  exact semSatisfy_within.after (.iteThen (setSem_within.after (cleanTouch_within.after .rfl)) (logErr_within.after .rfl))

theorem semTake_within {s : State} {n : Nat} {a : W64} : Within [.sems] s (semTake s n a).2 := by
  unfold semTake
  dsimp only
  refine .ite2 ?_ .rfl
  dsimp only
  exact setSem_within.after .rfl

theorem semWaitOp_within {s : State} {n : Nat} {a : W64} {t : Tid} {tag : W32} : Within [.cores, .sems] s (semWaitOp s n a t tag) := by
  unfold semWaitOp
  dsimp only
  exact .ite (wake_within.after (cleanTouch_within.after .rfl)) (.ite (wake_within.after (semTake_within.after (cleanTouch_within.after .rfl)))
    (setSem_within.after (semTake_within.after (cleanTouch_within.after .rfl))))

theorem semLeave_within {s : State} {t : Tid} : Within [.cores, .sems] s (semLeave s t) := by
  unfold semLeave
  dsimp only
  exact .foldl (fun s a => semSatisfy_within.after (setSem_within.after .rfl)) .rfl

/-! ## Memory -/

theorem setEngine_within {s : State} {pc : Nat} {e : Engine} : Within [.mem] s (setEngine s pc e) := by
  unfold setEngine
  exact .memRest .rfl

theorem setLine_within {s : State} {ln : Nat} {c : CacheLine} : Within [.mem] s (setLine s ln c) := by
  unfold setLine
  exact .memRest .rfl

theorem setSecErr_within {s : State} {sec : Nat} {e : SecErr} : Within [.mem] s (setSecErr s sec e) :=
  Within.rfl.memory (setSecErr_wf (s := s) sec e)

theorem setDramByte_within {s : State} {key : Nat} {b : Byte} : Within [.mem] s (setDramByte s key b) :=
  Within.rfl.memory (setDramByte_wf (s := s) key b)

theorem wakeBank_within {s : State} {bank : Nat} : Within [.bar, .mem] s (wakeBank s bank) := by
  unfold wakeBank
  dsimp only
  exact .iteThen (.ite (.memRest .rfl) .rfl) (wf_within.after .rfl)

theorem activate_within {s : State} {sec : Nat} : Within [.bar, .mem] s (activate s sec) := by
  unfold activate
  dsimp only
  exact setEngine_within.after (wakeBank_within.after .rfl)

theorem repairWanted_within {s : State} {rowKey : Nat} : Within [.mem] s (repairWanted s rowKey) := by
  unfold repairWanted
  exact .ite .rfl (.memRest .rfl)

theorem correctable_within {s : State} {sec byte : Nat} {rq : Rq} {addr : Nat} : Within [.bar, .mem, .faults, .trace] s (correctable s sec byte rq
    addr) := by
  unfold correctable
  dsimp only
  exact .iteThen (.ite (logErr_within.after (.memRest (bump_within.after (setSecErr_within.after .rfl)))) (.memRest (bump_within.after
    (setSecErr_within.after .rfl)))) (repairWanted_within.after .rfl)

theorem poisonLines_within {s : State} {sec : Nat} : Within [.mem] s (poisonLines s sec) := by
  unfold poisonLines
  dsimp only
  exact .memRest .rfl

theorem tableFault_within {s : State} {sec : Nat} : Within [.faults] s (tableFault s sec) := by
  unfold tableFault
  exact .ite .rfl (.faults .rfl)

theorem uncorrectable_within {s : State} {sec : Nat} {rq : Rq} {addr : Nat} : Within [.bar, .mem, .faults, .trace] s (uncorrectable s sec rq addr) :=
    by
  unfold uncorrectable
  dsimp only
  exact repairWanted_within.after (tableFault_within.after (logErr_within.after (bump_within.after (poisonLines_within.after (setSecErr_within.after
    .rfl)))))

theorem poisonEntry_within {s : State} {sec n : Nat} {e : ErrEnt} : Within [.bar, .mem, .faults, .trace] s (poisonEntry s sec n e) := by
  unfold poisonEntry
  dsimp only
  exact .ite (logErr_within.after (.memRest .rfl)) (.memRest .rfl)

theorem poisonRefusal_within {s : State} {sec : Nat} {rq : Rq} {addr : Nat} : Within [.bar, .mem, .faults, .trace] s (poisonRefusal s sec rq addr) :=
    by
  unfold poisonRefusal
  exact poisonEntry_within.after .rfl

theorem checkSector_within {s : State} {sec : Nat} {rq : Rq} {addr : Nat} {count : Bool} : Within [.fresh, .bar, .mem, .faults, .trace] s (checkSector
    s sec rq addr count).2 := by
  unfold checkSector
  dsimp only
  refine .ite2 ?_ ?_
  · dsimp only
    exact .iteThen (activate_within.after .rfl) (poisonRefusal_within.after .rfl)
  · refine .ite2 ?_ ?_
    · dsimp only
      exact uncorrectable_within.after (activate_within.after .rfl)
    · split
      · dsimp only
        exact activate_within.after .rfl
      · dsimp only
        exact correctable_within.after (activate_within.after .rfl)
      · dsimp only
        exact uncorrectable_within.after (activate_within.after .rfl)
      · refine .ite2 ?_ ?_
        · dsimp only
          exact uncorrectable_within.after (drawBelow_within.after (activate_within.after .rfl))
        · dsimp only
          exact setSecErr_within.after (.foldl (fun s a => setDramByte_within.after .rfl) (drawBelow_within.after (activate_within.after .rfl)))

theorem checkSectors_within {s : State} {secs : List Nat} {rq : Rq} {addr : Nat} {count : Bool} : Within [.fresh, .bar, .mem, .faults, .trace] s
    (checkSectors s secs rq addr count).2 := by
  unfold checkSectors
  refine .foldl2 ?_ .rfl
  intro x a
  dsimp only
  exact checkSector_within.after .rfl

theorem writeSector_within {s : State} {sec : Nat} {bs : List Byte} : Within [.bar, .mem] s (writeSector s sec bs) := by
  unfold writeSector
  dsimp only
  exact setSecErr_within.after (.foldl (fun s a => setDramByte_within.after .rfl) (activate_within.after .rfl))

theorem writePoison_within {s : State} {sec : Nat} : Within [.mem] s (writePoison s sec) := by
  unfold writePoison
  exact setSecErr_within.after .rfl

theorem touch_within {s : State} {bits : List (Nat × Nat)} : Within [.mem] s (touch s bits) := by
  unfold touch
  exact .ite (.memRest .rfl) .rfl

theorem clearWord_within {s : State} {w : Nat} : Within [.bar, .mem] s (clearWord s w) := by
  unfold clearWord
  exact .foldl (fun s a => writeSector_within.after .rfl) .rfl

theorem putBitsAt_within {s : State} {whole : List Nat} {bits : List (Nat × Nat × Bool)} {changed : List (Nat × Nat)} : Within [.bar, .mem] s
    (putBitsAt s whole bits changed) := by
  unfold putBitsAt
  exact touch_within.after (.foldl (fun s a => setDramByte_within.after .rfl) (.foldl (fun s a => clearWord_within.after .rfl) .rfl))

theorem poisonWords_within {s : State} {words merged : List Nat} {addr : Nat} : Within [.bar, .mem, .faults, .trace] s (poisonWords s words merged
    addr) := by
  unfold poisonWords
  dsimp only
  split
  · exact .foldl (fun s a => writePoison_within.after .rfl) .rfl
  · exact poisonEntry_within.after (.foldl (fun s a => writePoison_within.after .rfl) .rfl)

theorem viewWriteBack_within {s : State} {r : Region} {v0 addr : Nat} {bytes : List (Nat × Byte)} : Within [.fresh, .bar, .mem, .faults, .trace] s
    (viewWriteBack s r v0 addr bytes).2 := by
  unfold viewWriteBack
  dsimp only
  refine .ite2 ?_ ?_
  · dsimp only
    exact putBitsAt_within.after (checkSectors_within.after .rfl)
  · dsimp only
    exact poisonWords_within.after (checkSectors_within.after .rfl)

/-! ## HomeSlice -/

theorem setLru_within {s : State} {k : Nat} {xs : List Nat} : Within [.mem] s (setLru s k xs) := by
  unfold setLru
  exact .memRest .rfl

theorem touchLine_within {s : State} {ln : Nat} : Within [.mem] s (touchLine s ln) := by
  unfold touchLine
  dsimp only
  exact setLru_within.after .rfl

theorem dropLine_within {s : State} {ln : Nat} : Within [.mem] s (dropLine s ln) := by
  unfold dropLine
  dsimp only
  exact setLru_within.after (setLine_within.after .rfl)

theorem countHeld_within {s : State} {secs : List Nat} : Within [.bar] s (countHeld s secs) := by
  unfold countHeld
  split
  · exact bump_within.after .rfl
  · exact .rfl

theorem writeLine_within {s : State} {ln : Nat} {data : BitVec 512} {dirty : BitVec 2} : Within [.fresh, .bar, .mem, .faults, .trace] s (writeLine s
    ln data dirty) := by
  unfold writeLine
  dsimp only
  split
  · exact .foldl (fun s a => .ite (writeSector_within.after .rfl) .rfl) .rfl
  · exact .iteElse (viewWriteBack_within.after .rfl) (.iteElse .rfl (setLine_within.after .rfl))

theorem drainWrites_within {s : State} {pc : Nat} : Within [.fresh, .bar, .mem, .faults, .trace] s (drainWrites s pc) := by
  unfold drainWrites
  dsimp only
  exact .foldl (fun s a => writeLine_within.after (countHeld_within.after .rfl)) (setEngine_within.after .rfl)

theorem queueWriteBack_within {s : State} {ln : Nat} {c : CacheLine} : Within [.fresh, .bar, .mem, .faults, .trace] s (queueWriteBack s ln c) := by
  unfold queueWriteBack
  dsimp only
  exact setEngine_within.after (.ite (drainWrites_within.after .rfl) .rfl)

theorem evictLine_within {s : State} {ln : Nat} : Within [.fresh, .bar, .mem, .faults, .trace] s (evictLine s ln) := by
  unfold evictLine
  dsimp only
  exact .iteElse (dropLine_within.after .rfl) (queueWriteBack_within.after .rfl)

theorem allocLine_within {s : State} {ln : Nat} : Within [.fresh, .bar, .mem, .faults, .trace] s (allocLine s ln) := by
  unfold allocLine
  dsimp only
  exact touchLine_within.after (.ite (evictLine_within.after (drawBelow_within.after .rfl)) .rfl)

theorem flushLine_within {s : State} {ln : Nat} : Within [.fresh, .bar, .mem, .faults, .trace] s (flushLine s ln) := by
  unfold flushLine
  dsimp only
  exact .iteElse (drainWrites_within.after .rfl) (writeLine_within.after (setLine_within.after .rfl))

theorem viewSectorFetch_within {s : State} {r : Region} {v a : Nat} {rq : Rq} : Within [.fresh, .bar, .mem, .faults, .trace] s (viewSectorFetch s r v
    a rq).2.2 := by
  unfold viewSectorFetch
  dsimp only
  exact checkSectors_within.after .rfl

theorem fetchSector_within {s : State} {a : Nat} {rq : Rq} : Within [.fresh, .bar, .mem, .faults, .trace] s (fetchSector s a rq).2.2 := by
  unfold fetchSector
  split
  · exact .rfl
  · dsimp only
    split
    · exact viewSectorFetch_within.after (.ite .rfl (countHeld_within.after .rfl))
    · dsimp only
      exact checkSector_within.after (.ite .rfl (countHeld_within.after .rfl))

theorem fillSector_within {s : State} {a : Nat} {rq : Rq} : Within [.fresh, .bar, .mem, .faults, .trace] s (fillSector s a rq).2 := by
  unfold fillSector
  dsimp only
  refine .ite2 ?_ ?_
  · refine .ite2 ?_ ?_
    · dsimp only
      exact poisonRefusal_within.after (touchLine_within.after .rfl)
    · dsimp only
      exact touchLine_within.after .rfl
  · dsimp only
    exact setLine_within.after (fetchSector_within.after (allocLine_within.after .rfl))

theorem sliceRead_within {s : State} {a : Nat} {rq : Rq} : Within [.fresh, .bar, .mem, .faults, .trace] s (sliceRead s a rq).2.2 := by
  unfold sliceRead
  dsimp only
  split
  · dsimp only
    exact fillSector_within.after .rfl
  · dsimp only
    exact fillSector_within.after .rfl

theorem sliceWrite_within {s : State} {a : Nat} {new : List Byte} {mask : BitVec 32} {rq : Rq} : Within [.fresh, .bar, .mem, .faults, .trace] s
    (sliceWrite s a new mask rq).2 := by
  unfold sliceWrite
  dsimp only
  refine .ite2 .rfl ?_
  refine .ite2 ?_ ?_
  · dsimp only
    exact logErr_within.after .rfl
  · refine .ite2 ?_ ?_
    · dsimp only
      refine .ite2 ?_ (fillSector_within.after .rfl)
      dsimp only
      exact allocLine_within.after .rfl
    · dsimp only
      refine setLine_within.after ?_
      refine .ite2 ?_ (fillSector_within.after .rfl)
      dsimp only
      exact allocLine_within.after .rfl

theorem devRead_within {s : State} {a n : Nat} {rq : Rq} : Within [.fresh, .bar, .mem, .faults, .trace] s (devRead s a n rq).2.2 := by
  unfold devRead
  dsimp only
  refine .foldl3 ?_ .rfl
  intro x a
  dsimp only
  exact sliceRead_within.after .rfl

theorem devWrite_within {s : State} {a : Nat} {bs : List Byte} {rq : Rq} : Within [.fresh, .bar, .mem, .faults, .trace] s (devWrite s a bs rq).2 := by
  unfold devWrite
  refine .foldl2 ?_ .rfl
  intro x a
  dsimp only
  exact sliceWrite_within.after .rfl

theorem devReadNat_within {s : State} {a n : Nat} {rq : Rq} : Within [.fresh, .bar, .mem, .faults, .trace] s (devReadNat s a n rq).2.2 := by
  unfold devReadNat
  dsimp only
  exact devRead_within.after .rfl

theorem addressRefused_within {s : State} {rq : Rq} {a : Nat} : Within [.bar, .faults, .trace] s (addressRefused s rq a) := by
  unfold addressRefused
  exact logErr_within.after .rfl

/-! ## TraceOps -/

theorem traceEvent_within {s : State} {ev : Nat} {tag : W32} {subtag part source aux arg0 arg1 : Nat} : Within [.fresh, .bar, .mem, .faults, .trace] s
    (traceEvent s ev tag subtag part source aux arg0 arg1) := by
  unfold traceEvent
  refine .ite ?_ .rfl
  dsimp only
  exact .ite (wf_within.after (wf_within.after .rfl)) (bump_within.after (devWrite_within.after .rfl))

/-! ## FabricOps -/

theorem setFlow_within {s : State} {f : Flow} : Within [.fab] s (setFlow s f) := by
  unfold setFlow
  dsimp only
  exact .fab .rfl

theorem notePaths_within {s : State} : Within [.fab] s (notePaths s) := by
  unfold notePaths
  dsimp only
  exact .fab .rfl

theorem txPush_within {s : State} {f : TxFrame} : Within [.fab] s (txPush s f) := by
  unfold txPush
  exact .fab .rfl

theorem txQueue_within {s : State} {k n : Nat} : Within [.fab] s (txQueue s k n) := by
  unfold txQueue
  exact .fab .rfl

theorem sendOut_within {s : State} {w : Wire} {f : TxFrame} {n : Nat} : Within [.fab] s (sendOut s w f n) := by
  unfold sendOut
  dsimp only
  refine txQueue_within.after ?_
  refine txPush_within.after ?_
  split
  · exact .ite .rfl (txPush_within.after .rfl)
  · exact .rfl

theorem bucketCharge_within {s : State} {part b n : Nat} : Within [.parts] s (bucketCharge s part b n) := by
  unfold bucketCharge
  split
  · exact .rfl
  · dsimp only
    exact .parts .rfl

theorem chargeRange_within {s : State} {part a n : Nat} : Within [.parts] s (chargeRange s part a n) := by
  unfold chargeRange
  refine .iterate ?_ .rfl
  intro i s
  dsimp only
  exact .ite .rfl (bucketCharge_within.after .rfl)

theorem chargeBytes_within {s : State} {part : Nat} {as : List Nat} : Within [.parts] s (chargeBytes s part as) := by
  unfold chargeBytes
  refine .iterate ?_ .rfl
  intro i s
  dsimp only
  exact .ite .rfl (bucketCharge_within.after .rfl)

theorem sendData_within {s : State} {f : Flow} {x : Sent} {path : Nat} {retx : Bool} : Within [.bar, .fab] s (sendData s f x path retx) := by
  unfold sendData
  split
  · dsimp only
    exact .iteThen (bump_within.after (sendOut_within.after .rfl)) (bump_within.after .rfl)
  · exact .rfl

theorem pumpFlow_within {peer cls : Nat} {fuel : Nat} : ∀ {s : State}, Within [.bar, .parts, .fab] s (pumpFlow s peer cls fuel) := by
  induction fuel with
  | zero => exact fun {s} => .rfl
  | succ n ih =>
    intro s
    unfold pumpFlow
    dsimp only
    split
    · exact .rfl
    · refine .ite (ih.after (sendData_within.after (setFlow_within.after ?_))) .rfl
      split
      · exact .ite (bucketCharge_within.after .rfl) .rfl
      · exact .rfl

theorem pump_within {s : State} {peer cls : Nat} : Within [.bar, .parts, .fab] s (pump s peer cls) := by
  unfold pump
  exact pumpFlow_within.after .rfl

theorem enqueue_within {s : State} {peer cls : Nat} {op : OpHeader} {payload : List Byte} {owner : PktOwner} {charge : Option Nat} {ackNow : Bool}
    {msg : Option TwinMsg} : Within [.fab] s (enqueue s peer cls op payload owner charge ackNow msg) := by
  unfold enqueue
  dsimp only
  exact setFlow_within.after .rfl

theorem levelSend_within {s : State} {peer cls : Nat} {op : OpHeader} {payload : List Byte} {owner : PktOwner} {charge : Option Nat} {ackNow : Bool} :
    Within [.bar, .parts, .fab] s (levelSend s peer cls op payload owner charge ackNow) := by
  unfold levelSend
  exact pump_within.after (enqueue_within.after .rfl)

theorem twinEnqueue_within {s : State} {m : TwinMsg} {owner : PktOwner} : Within [.fab] s (twinEnqueue s m owner) := by
  unfold twinEnqueue
  exact enqueue_within.after .rfl

theorem twinPost_within {s : State} {m : TwinMsg} {owner : PktOwner} : Within [.bar, .parts, .fab] s (twinPost s m owner) := by
  unfold twinPost
  exact pump_within.after (twinEnqueue_within.after .rfl)

theorem logFabric_within {s : State} {port : Nat} {peer cls : Nat} {op : OpHeader} {st : W16} {detail : W32} : Within [.bar, .faults, .trace] s
    (logFabric s port peer cls op st detail) := by
  unfold logFabric
  dsimp only
  exact logErr_within.after .rfl

theorem modOp_within {s : State} {id : Nat} {f : MemOp → MemOp} : Within [.cores] s (modOp s id f) := by
  unfold modOp
  dsimp only
  exact .cores .rfl

theorem modMove_within {s : State} {id : Nat} {f : Move → Move} : Within [.hoists] s (modMove s id f) := by
  unfold modMove
  dsimp only
  exact .hoists .rfl

theorem modTier_within {s : State} {id : Nat} {f : TierGot → TierGot} : Within [.fab] s (modTier s id f) := by
  unfold modTier
  split
  · exact .fab .rfl
  · exact .rfl

theorem pktComplete_within {s : State} {x : Sent} {peer cls : Nat} {st : W16} {detail : W32} {data : List Byte} {operand : W64} : Within [.bar,
    .cores, .hoists, .fab, .faults, .twin, .trace] s (pktComplete s x peer cls st detail data operand) := by
  unfold pktComplete
  dsimp only
  split
  · exact modOp_within.after (.iteThen (.ite (logFabric_within.after .rfl) .rfl) (bump_within.after .rfl))
  · exact modMove_within.after (.iteThen (.ite (logFabric_within.after .rfl) .rfl) (bump_within.after .rfl))
  · exact modTier_within.after (.iteThen (.ite (logFabric_within.after .rfl) .rfl) (bump_within.after .rfl))
  · refine .iteElse (.iteThen (.ite (logFabric_within.after .rfl) .rfl) (bump_within.after .rfl)) ?_
    refine .ite (.twin .rfl) ?_
    split
    · split
      · split
        · split
          · exact twinEnqueue_within.after .rfl
          · exact .rfl
        · split
          · exact twinEnqueue_within.after .rfl
          · exact .rfl
        · split
          · exact twinEnqueue_within.after .rfl
          · exact .rfl
        · split
          · exact twinEnqueue_within.after .rfl
          · exact .rfl
      · split
        · exact twinEnqueue_within.after .rfl
        · exact .rfl
    · split
      · split
        · split
          · exact twinEnqueue_within.after .rfl
          · exact .rfl
        · split
          · exact twinEnqueue_within.after .rfl
          · exact .rfl
        · split
          · exact twinEnqueue_within.after .rfl
          · exact .rfl
        · split
          · exact twinEnqueue_within.after .rfl
          · exact .rfl
      · split
        · exact twinEnqueue_within.after .rfl
        · exact .rfl
  · exact .iteThen (.ite (logFabric_within.after .rfl) .rfl) (bump_within.after .rfl)

theorem settleOps_within {s : State} : Within [.cores] s (settleOps s) := by
  unfold settleOps
  dsimp only
  exact .cores .rfl

theorem flowResetBy_within {s : State} {peer cls : Nat} {st : W16} {detail : Sent → W32} : Within [.bar, .cores, .hoists, .fab, .faults, .twin,
    .trace] s (flowResetBy s peer cls st detail) := by
  unfold flowResetBy
  dsimp only
  exact settleOps_within.after (.foldl (fun s a => pktComplete_within.after .rfl) (bump_within.after (setFlow_within.after .rfl)))

theorem flowReset_within {s : State} {peer cls : Nat} {st : W16} {detail : W32} : Within [.bar, .cores, .hoists, .fab, .faults, .twin, .trace] s
    (flowReset s peer cls st detail) := by
  unfold flowReset
  exact flowResetBy_within.after .rfl

/-! ## HostMem -/

theorem setHostByte_within {s : State} {a : Nat} {b : Byte} : Within [.host] s (setHostByte s a b) :=
  Within.rfl.hostPort (setHostByte_wf (s := s) a b)

theorem hostWrite_within {s : State} {a : Nat} {bs : List Byte} : Within [.host] s (hostWrite s a bs).2 := by
  unfold hostWrite
  refine .ite2 ?_ .rfl
  dsimp only
  exact .iterate (fun i s => setHostByte_within.after .rfl) .rfl

theorem setScratchByte_within {s : State} {v i : Nat} {b : Byte} : Within [.cores] s (setScratchByte s v i b) := by
  unfold setScratchByte
  exact .cores .rfl

theorem scratchWrite_within {s : State} {v off : Nat} {bs : List Byte} : Within [.cores] s (scratchWrite s v off bs) := by
  unfold scratchWrite
  exact .iterate (fun i s => setScratchByte_within.after .rfl) .rfl

theorem localRead_within {s : State} {off n : Nat} {rq : Rq} : Within [.fresh, .bar, .mem, .faults, .trace] s (localRead s off n rq).2.2 := by
  unfold localRead
  split
  · exact devRead_within.after .rfl
  · exact .rfl
  · exact .rfl
  · exact .rfl

theorem localWrite_within {s : State} {off : Nat} {bs : List Byte} {rq : Rq} : Within [.fresh, .bar, .mem, .cores, .host, .faults, .trace] s
    (localWrite s off bs rq).2 := by
  unfold localWrite
  split
  · exact devWrite_within.after .rfl
  · exact hostWrite_within.after .rfl
  · dsimp only
    exact scratchWrite_within.after .rfl
  · exact .rfl

/-! ## Operands -/

theorem modJob_within {s : State} {id : Nat} {f : Job → Job} : Within [.cores] s (modJob s id f) := by
  unfold modJob
  dsimp only
  exact .cores .rfl

theorem setQ_within {s : State} {j : Job} {t : Tid} {q : Nat} {xs : List QEntry} : Within [.cores] s (setQ s j t q xs) := by
  unfold setQ
  refine .ite (.cores .rfl) ?_
  dsimp only
  exact setThread_within.after .rfl

theorem putS_within {s : State} {t : Tid} {n : Nat} {v : W64} : Within [.cores] s (putS s t n v) := by
  unfold putS
  refine .ite .rfl ?_
  dsimp only
  exact setThread_within.after .rfl

theorem putV_within {s : State} {t : Tid} {n : Nat} {v : VReg} : Within [.cores] s (putV s t n v) := by
  unfold putV
  dsimp only
  exact setThread_within.after .rfl

theorem putM_within {s : State} {t : Tid} {n : Nat} {v : Mask} : Within [.cores] s (putM s t n v) := by
  unfold putM
  dsimp only
  exact setThread_within.after .rfl

theorem skipSlot_within {s : State} {j : Job} {t : Tid} {subtag : W16} {pc slot reason detail : Nat} : Within [.fresh, .bar, .mem, .cores, .faults,
    .trace] s (skipSlot s j t subtag pc slot reason detail) := by
  unfold skipSlot
  dsimp only
  exact traceEvent_within.after (logIll_within.after (bump_within.after (modJob_within.after (setThread_within.after .rfl))))

/-! ## Address -/

theorem setL1_within {s : State} {v ln : Nat} {x : L1Line} : Within [.cores] s (setL1 s v ln x) := by
  unfold setL1
  exact .cores .rfl

theorem fillL1_within {s : State} {v off : Nat} {bs : List Byte} : Within [.fresh, .cores] s (fillL1 s v off bs) := by
  unfold fillL1
  dsimp only
  exact setL1_within.after (.ite (setL1_within.after (drawBelow_within.after .rfl)) .rfl)

theorem l1Store_within {s : State} {v off : Nat} {bs : List Byte} {mask : BitVec 256} : Within [.cores] s (l1Store s v off bs mask) := by
  unfold l1Store
  refine .iterate ?_ .rfl
  intro i s
  dsimp only
  split
  · exact .ite (setL1_within.after .rfl) .rfl
  · exact .rfl

theorem l1Drop_within {s : State} {v off : Nat} : Within [.cores] s (l1Drop s v off) := by
  unfold l1Drop
  dsimp only
  exact setL1_within.after .rfl

theorem l1Clear_within {s : State} {v : Nat} : Within [.cores] s (l1Clear s v) := by
  unfold l1Clear
  exact .cores .rfl

theorem deliver_within {s : State} {j : Job} {t : Tid} {d : Dest} {id : Nat} {v : VReg} : Within [.cores] s (deliver s j t d id v) := by
  unfold deliver
  split
  · exact .rfl
  · exact putS_within.after .rfl
  · exact putV_within.after .rfl
  · exact setQ_within.after .rfl

theorem memErr_within {s : State} {t : Tid} {st : W16} : Within [.cores] s (memErr s t st) := by
  unfold memErr
  dsimp only
  exact .ite (setThread_within.after .rfl) .rfl

theorem settleEnd_within {s : State} {t : Tid} : Within [.cores] s (settleEnd s t) := by
  unfold settleEnd
  dsimp only
  exact .ite (setThread_within.after .rfl) .rfl

theorem sendOp_within {s : State} {id : Nat} : Within [.bar, .cores, .parts, .fab, .faults, .trace] s (sendOp s id) := by
  unfold sendOp
  split
  · exact .rfl
  · refine .ite .rfl ?_
    dsimp only
    exact .ite (modOp_within.after (logFabric_within.after (modOp_within.after .rfl))) (settleOps_within.after (.foldl (fun s a =>
      levelSend_within.after .rfl) (modOp_within.after .rfl)))

theorem retryOps_within {s : State} {t : Tid} : Within [.bar, .cores, .parts, .fab, .faults, .trace] s (retryOps s t) := by
  unfold retryOps
  exact .foldl (fun s a => sendOp_within.after .rfl) .rfl

theorem amoAt_within {s : State} {off kind type x c : Nat} {rq : Rq} : Within [.fresh, .bar, .mem, .faults, .trace] s (amoAt s off kind type x c
    rq).2.2 := by
  unfold amoAt
  dsimp only
  split
  · dsimp only
    exact sliceRead_within.after .rfl
  · split
    · split
      · dsimp only
        exact sliceRead_within.after .rfl
      · dsimp only
        exact devWrite_within.after (sliceRead_within.after .rfl)
    · split
      · split
        · dsimp only
          exact sliceRead_within.after .rfl
        · dsimp only
          exact devWrite_within.after (sliceRead_within.after .rfl)
      · split
        · dsimp only
          exact sliceRead_within.after .rfl
        · dsimp only
          exact devWrite_within.after (sliceRead_within.after .rfl)

theorem performGranule_within {s : State} {o : MemOp} {g : Nat} : Within [.fresh, .bar, .mem, .cores, .faults, .trace] s (performGranule s o g) := by
  unfold performGranule
  dsimp only
  split
  · exact modOp_within.after (.iteElse (sliceRead_within.after .rfl) (fillL1_within.after .rfl))
  · exact modOp_within.after (sliceWrite_within.after .rfl)
  · exact modOp_within.after (amoAt_within.after .rfl)
  · exact .rfl

/-! ## Issue -/

theorem breach_within {s : State} {id kind object before after : Nat} : Within [.bar, .cores, .faults, .trace] s (breach s id kind object before
    after) := by
  unfold breach
  split
  · exact .rfl
  · split
    · exact .rfl
    · dsimp only
      exact .iteThen (modJob_within.after .rfl) (logErr_within.after .rfl)

theorem cleanEnd_within {s : State} {j : Job} {t : Tid} : Within [.bar, .cores, .faults, .trace] s (cleanEnd s j t) := by
  unfold cleanEnd
  refine .ite .rfl ?_
  dsimp only
  exact .foldl (fun s a => breach_within.after .rfl) .rfl

theorem fetchStatus_within {s : State} {j : Job} {th : Thread} {n : Nat} : Within [.fresh, .bar, .mem, .faults, .trace] s (fetchStatus s j th n).2 :=
    by
  unfold fetchStatus
  dsimp only
  refine .ite2 ?_ .rfl
  dsimp only
  exact devRead_within.after .rfl

theorem endThread_within {s : State} {j : Job} {t : Tid} : Within [.bar, .cores, .faults, .trace] s (endThread s j t) := by
  unfold endThread
  dsimp only
  exact settleEnd_within.after (cleanEnd_within.after (setThread_within.after .rfl))

/-! ## CmdOps -/

theorem setQp_within {s : State} {q : Nat} {x : QueuePair} : Within [.host] s (setQp s q x) := by
  unfold setQp
  exact .hostRest .rfl

theorem modQp_within {s : State} {q : Nat} {f : QueuePair → QueuePair} : Within [.host] s (modQp s q f) := by
  unfold modQp
  exact setQp_within.after .rfl

theorem modCmd_within {s : State} {id : Nat} {f : Cmd → Cmd} : Within [.host] s (modCmd s id f) := by
  unfold modCmd
  dsimp only
  exact .hostRest .rfl

theorem sendResponse_within {s : State} {peer cls p : Nat} {op : OpHeader} {payload : List Byte} : Within [.bar, .parts, .fab] s (sendResponse s peer
    cls p op payload) := by
  unfold sendResponse
  dsimp only
  exact levelSend_within.after (setFlow_within.after .rfl)

theorem dropCmd_within {s : State} {id : Nat} : Within [.host] s (dropCmd s id) := by
  unfold dropCmd
  dsimp only
  exact .hostRest .rfl

theorem writeStatus_within {s : State} {c : Cmd} {st : W16} {detail result : Nat} : Within [.bar, .host, .parts, .fab, .faults, .trace] s (writeStatus
    s c st detail result) := by
  unfold writeStatus
  dsimp only
  split
  · exact sendResponse_within.after (.ite (logErr_within.after .rfl) .rfl)
  · exact .hostRest (setQp_within.after (hostWrite_within.after (.ite (logErr_within.after .rfl) .rfl)))

theorem postStatus_within {s : State} {c : Cmd} {st : W16} {detail result : Nat} : Within [.fresh, .bar, .mem, .host, .parts, .fab, .faults, .trace] s
    (postStatus s c st detail result) := by
  unfold postStatus
  dsimp only
  exact writeStatus_within.after (dropCmd_within.after (traceEvent_within.after .rfl))

theorem settleDelete_within {s : State} {q : Nat} : Within [.fresh, .bar, .mem, .host, .parts, .fab, .faults, .trace] s (settleDelete s q) := by
  unfold settleDelete
  split
  · exact .rfl
  · refine .ite .rfl ?_
    dsimp only
    split
    · refine postStatus_within.after ?_
      refine setQp_within.after ?_
      split
      · exact postStatus_within.after (setQp_within.after .rfl)
      · exact setQp_within.after .rfl
    · split
      · exact postStatus_within.after (setQp_within.after .rfl)
      · exact setQp_within.after .rfl

theorem complete_within {s : State} {c : Cmd} {st : W16} {detail result : Nat} : Within [.fresh, .bar, .mem, .host, .parts, .fab, .faults, .trace] s
    (complete s c st detail result) := by
  unfold complete
  dsimp only
  exact .iterate (fun i s => .foldl (fun s a => settleDelete_within.after .rfl) .rfl) (.iteThen (postStatus_within.after .rfl) (modQp_within.after
    .rfl))

theorem logAbsent_within {s : State} {c : Cmd} : Within [.bar, .host, .faults, .trace] s (logAbsent s c) := by
  unfold logAbsent
  dsimp only
  exact .ite (.hostRest .rfl) (logErr_within.after (.hostRest .rfl))

theorem reject_within {s : State} {c : Cmd} {st : W16} {detail : Nat} : Within [.fresh, .bar, .mem, .host, .parts, .fab, .faults, .trace] s (reject s
    c st detail) := by
  unfold reject
  dsimp only
  exact complete_within.after (.ite (logAbsent_within.after .rfl) .rfl)

/-- What the shared checks of a command and its status entry may change: the read of a structure, the entry in host or device memory, the reply over the
Level, the log. -/
abbrev cmdPieces : List Piece := [.fresh, .bar, .mem, .host, .parts, .fab, .faults, .trace]

theorem Within.withStruct {c : Cmd} {st : W16} {rest : Option (W16 × Nat)} {k : State → State} (hk : ∀ u, Within P u (k u)) (h : Within P s t)
    (hp : cmdPieces ⊆ P := by decide) : Within P s (withStruct t c st rest k) := by
  unfold Machine.withStruct
  split
  · exact reject_within.after h hp
  · exact .ite (reject_within.after h hp) (h.trans (hk t))

theorem Within.checked {c : Cmd} {ck : Option (W16 × Nat)} {k : State → State} (hk : ∀ u, Within P u (k u)) (h : Within P s t)
    (hp : cmdPieces ⊆ P := by decide) : Within P s (checked t c ck k) := by
  unfold Machine.checked
  split
  · exact reject_within.after h hp
  · exact h.trans (hk t)

theorem Within.runCmd {id op : Nat} {f : State → Cmd → State} (hf : ∀ u c, Within P u (f u c)) (h : Within P s t) (hp : [Piece.host] ⊆ P := by decide) :
    Within P s (runCmd t id op f) := by
  unfold Machine.runCmd
  split
  · exact h
  · exact .ite h ((modCmd_within.after h hp).trans (hf _ _))

theorem Within.laterCmd {id op : Nat} {k : State → Cmd → State} {first : State} (hk : ∀ c, Within P s (k t c)) (h : Within P s first) :
    Within P s (laterCmd t id op k first) := by
  unfold Machine.laterCmd
  split
  · exact .ite (hk _) h
  · exact h

theorem structRead_within {s : State} {c : Cmd} {a : W64} {n : Nat} : Within [.fresh, .bar, .mem, .faults, .trace] s (structRead s c a n).2.2 := by
  unfold structRead
  exact localRead_within.after .rfl

theorem Within.withBlock {c : Cmd} {a : W64} {n : Nat} {ck : List (Bool × Nat) → Option (W16 × Nat)} {bad : List Byte → List (Bool × Nat)}
    {k : State → List Byte → State} (hk : ∀ u bs, Within P u (k u bs)) (h : Within P s t) (hp : cmdPieces ⊆ P := by decide) :
    Within P s (withBlock t c a n ck bad k) := by
  have hr : Within P s (structRead t c a n).2.2 := structRead_within.after h (List.Subset.trans (by decide) hp)
  have hs : ∀ rest, Within P s (Machine.withStruct (structRead t c a n).2.2 c (structRead t c a n).1 rest fun s => k s (structRead t c a n).2.1) :=
    fun rest => .withStruct (fun u => hk u _) hr hp
  unfold Machine.withBlock
  dsimp only
  split
  · exact .ite (hs _) (reject_within.after h hp)
  · exact hs _

theorem replyBuffer_within {s : State} {c : Cmd} {a : W64} {bs : List Byte} {result : Nat} : Within [.fresh, .bar, .mem, .cores, .host, .parts, .fab,
    .faults, .trace] s (replyBuffer s c a bs result) := by
  unfold replyBuffer
  dsimp only
  exact .ite (complete_within.after (localWrite_within.after .rfl)) (complete_within.after (localWrite_within.after .rfl))

theorem tally_within {s : State} {client i : Nat} : Within [.bar] s (tally s client i) := by
  unfold tally
  exact bump_within.after .rfl

/-! ## NearOps -/

theorem putProgram_within {s : State} {stack e : Nat} {ds : List Line} : Within [.nb] s (putProgram s stack e ds) := by
  unfold putProgram
  exact .iterate (fun i s => .nb .rfl) .rfl

theorem setBufByte_within {s : State} {stack i : Nat} {b : Byte} : Within [.nb] s (setBufByte s stack i b) := by
  unfold setBufByte
  exact .nb .rfl

theorem bufWrite_within {s : State} {stack off : Nat} {bs : List Byte} : Within [.nb] s (bufWrite s stack off bs) := by
  unfold bufWrite
  exact .iterate (fun i s => setBufByte_within.after .rfl) .rfl

theorem setBufBit_within {s : State} {stack off e : Nat} : Within [.nb] s (setBufBit s stack off e) := by
  unfold setBufBit
  exact setBufByte_within.after .rfl

theorem modProg_within {s : State} {pid : Nat} {f : Program → Program} : Within [.nb] s (modProg s pid f) := by
  unfold modProg
  dsimp only
  exact .nb .rfl

theorem reserveRefused_within {s : State} {stack : Nat} {bad : Option (Nat × Nat)} : Within [.bar, .faults, .trace] s (reserveRefused s stack bad) :=
    by
  unfold reserveRefused
  split
  · dsimp only
    exact .ite (addressRefused_within.after .rfl) .rfl
  · exact .rfl

theorem startProgram_within {s : State} {stack entry part : Nat} {tag : W32} {owner : ProgOwner} : Within [.fresh, .bar, .mem, .nb, .faults, .trace] s
    (startProgram s stack entry part tag owner).2 := by
  unfold startProgram
  dsimp only
  exact traceEvent_within.after (.iteThen (.nb .rfl) (wf_within.after (reserveRefused_within.after .rfl)))

theorem setUnit_within {s : State} {bank : Nat} {u : NbUnit} : Within [.nb] s (setUnit s bank u) := by
  unfold setUnit
  exact .nb .rfl

theorem spill_within {s : State} {p : Program} {d : Line} {bank seg : Nat} : Within [.nb] s (spill s p d bank seg) := by
  unfold spill
  dsimp only
  exact setUnit_within.after (.foldl (fun s a => .iteThen (.iteThen (bufWrite_within.after .rfl) (setBufBit_within.after .rfl))
    (setBufBit_within.after .rfl)) .rfl)

theorem loosen_within {s : State} {p : Program} {d : Line} : Within [.fresh, .nb] s (loosen s p d) := by
  unfold loosen
  split
  · exact .rfl
  · refine .foldl ?_ .rfl
    intro s a
    dsimp only
    exact bufWrite_within.after (draw_within.after .rfl)

theorem blastRecord_within {s : State} {stack idx : Nat} {d : Line} {st : W16} {detail : W32} : Within [.fresh, .bar, .mem, .cores, .sems, .host,
    .faults, .trace] s (blastRecord s stack idx d st detail) := by
  unfold blastRecord
  dsimp only
  exact .iteElse (.ite .rfl (.ite (addressRefused_within.after .rfl) (localWrite_within.after .rfl))) (semSignal_within.after .rfl)

/-! ## NearBank -/

theorem aptSettle_within {s : State} : Within [.nb] s (aptSettle s) := by
  unfold aptSettle
  refine .ite ?_ .rfl
  dsimp only
  exact .nb .rfl

theorem settleRun_within {s : State} {id : Nat} : Within [.fresh, .bar, .mem, .nb, .host, .parts, .fab, .faults, .trace] s (settleRun s id) := by
  unfold settleRun
  refine .ite .rfl ?_
  dsimp only
  split
  · exact complete_within.after (.nb .rfl)
  · exact .nb .rfl

theorem endProgram_within {s : State} {p : Program} {st : W16} {detail : W32} : Within [.fresh, .bar, .mem, .nb, .host, .parts, .fab, .faults, .trace]
    s (endProgram s p st detail) := by
  unfold endProgram
  dsimp only
  split
  · exact aptSettle_within.after (.nb (traceEvent_within.after (.several .rfl)))
  · exact settleRun_within.after (.nb (traceEvent_within.after (.several .rfl)))
  · exact traceEvent_within.after (.several .rfl)

theorem abortProgram_within {s : State} {p : Program} : Within [.fresh, .bar, .mem, .cores, .sems, .nb, .host, .parts, .fab, .faults, .trace] s
    (abortProgram s p) := by
  unfold abortProgram
  dsimp only
  split
  · exact endProgram_within.after (blastRecord_within.after (.foldl (fun s a => bufWrite_within.after (draw_within.after .rfl)) .rfl))
  · exact endProgram_within.after (.foldl (fun s a => bufWrite_within.after (draw_within.after .rfl)) .rfl)

theorem flushRegion_within {s : State} {r : Region} : Within [.fresh, .bar, .mem, .faults, .trace] s (flushRegion s r) := by
  unfold flushRegion
  exact .foldl (fun s a => flushLine_within.after .rfl) .rfl

theorem startCompute_within {s : State} {p : Program} : Within [.fresh, .bar, .mem, .nb, .faults, .trace] s (startCompute s p) := by
  unfold startCompute
  dsimp only
  refine .ite (modProg_within.after (wf_within.after .rfl)) ?_
  refine modProg_within.after ?_
  refine .iteElse ?_ (bufWrite_within.after .rfl)
  split
  · dsimp only
    exact flushRegion_within.after .rfl
  · exact .rfl

theorem Within.startEntry {stack pid op : Nat} {f : State → Program → Line → State} (hf : ∀ u p d, Within P u (f u p d)) (h : Within P s t) :
    Within P s (startEntry t stack pid op f) := by
  unfold Machine.startEntry
  split
  · exact .ite (h.trans (hf _ _ _)) h
  · exact h

theorem entryDone_within {s : State} {pid : Nat} : Within [.nb] s (entryDone s pid) := by
  unfold entryDone
  exact modProg_within.after .rfl

theorem discardLines_within {s : State} {past : Nat → Bool} : Within [.mem] s (discardLines s past) := by
  unfold discardLines
  dsimp only
  exact .foldl (fun s a => setEngine_within.after .rfl) (.foldl (fun s a => dropLine_within.after .rfl) .rfl)

theorem chargeTransfer_within {s : State} {p : Program} {off n : Nat} : Within [.parts] s (chargeTransfer s p off n) := by
  unfold chargeTransfer
  split
  · exact chargeRange_within.after .rfl
  · exact bucketCharge_within.after .rfl

theorem redoSaturated_within {s : State} {stack : Nat} {p : Program} {d : Line} : Within [.fresh, .bar, .mem, .cores, .host, .parts, .faults, .trace]
    s (redoSaturated s stack p d) := by
  unfold redoSaturated
  refine .foldl ?_ .rfl
  intro s a
  dsimp only
  exact .foldl (fun s a => .ite .rfl (bump_within.after (localWrite_within.after (draw_within.after (.foldl (fun s a => devRead_within.after
    (chargeRange_within.after .rfl)) .rfl))))) .rfl

theorem notePoison_within {s : State} {p : Program} {d : Line} : Within [.se] s (notePoison s p d) := by
  unfold notePoison
  split
  · split
    · dsimp only
      exact .se .rfl
    · exact .rfl
  · exact .rfl

theorem refreshRateNb_within {s : State} : Within [.bar] s (refreshRateNb s) := by
  unfold refreshRateNb
  exact wr_within.after .rfl

theorem readColumn_within {s : State} {r : Region} {d : Line} {unit word : Nat} : Within [.fresh, .bar, .mem, .faults, .trace] s (readColumn s r d
    unit word).2.2.2 := by
  unfold readColumn
  dsimp only
  exact checkSector_within.after (checkSector_within.after .rfl)

theorem microRead_within {s : State} {stack pid bank : Nat} : Within [.fresh, .bar, .mem, .nb, .faults, .trace] s (microRead s stack pid bank) := by
  unfold microRead
  split
  · exact .rfl
  · dsimp only
    split
    · exact bump_within.after (.nb (modProg_within.after (.iteThen (setUnit_within.after (readColumn_within.after .rfl)) (spill_within.after .rfl))))
    · exact .rfl

theorem aptControl_within {s : State} {control : Line} : Within [.fresh, .bar, .mem, .nb, .faults, .trace] s (aptControl s control) := by
  unfold aptControl
  dsimp only
  refine .ite .rfl ?_
  refine .ite (.nb .rfl) ?_
  refine .ite (.nb .rfl) ?_
  refine .ite (.nb .rfl) ?_
  split
  · exact .nb .rfl
  · exact .foldl (fun s a => startProgram_within.after .rfl) (.nb (.foldl (fun s a => .iterate (fun i s => .nb .rfl) .rfl) .rfl))

/-! ## MemRows -/

theorem completeDop_within {s : State} {pc : Nat} {d : DOp} : Within [.fresh, .bar, .mem, .cores, .faults, .trace] s (completeDop s pc d) := by
  unfold completeDop
  dsimp only
  split
  · exact .iteThen (setEngine_within.after .rfl) (performGranule_within.after .rfl)
  · exact setEngine_within.after .rfl

theorem removeOp_within {s : State} {id : Nat} : Within [.cores] s (removeOp s id) := by
  unfold removeOp
  exact .cores .rfl

theorem landOp_within {s : State} {o : MemOp} : Within [.bar, .cores, .parts, .fab, .faults, .trace] s (landOp s o) := by
  unfold landOp
  split
  · exact removeOp_within.after .rfl
  · dsimp only
    exact settleEnd_within.after (retryOps_within.after (removeOp_within.after (deliver_within.after (memErr_within.after .rfl))))

theorem writePark_within {s : State} {o : MemOp} : Within [.fresh, .bar, .mem, .faults, .trace] s (writePark s o) := by
  unfold writePark
  dsimp only
  split
  · exact devWrite_within.after (devWrite_within.after (draw_within.after .rfl))
  · exact devWrite_within.after (draw_within.after .rfl)

theorem park_within {s : State} {o : MemOp} : Within [.fresh, .bar, .mem, .cores, .faults, .trace] s (park s o) := by
  unfold park
  dsimp only
  exact .cores (writePark_within.after .rfl)

/-! ## QueueCmds -/

theorem queueError_within {s : State} {q idx : Nat} : Within [.bar, .host, .faults, .trace] s (queueError s q idx) := by
  unfold queueError
  exact logErr_within.after (modQp_within.after .rfl)

theorem doorbell_within {s : State} {q idx : Nat} : Within [.bar, .host, .faults, .trace] s (doorbell s q idx) := by
  unfold doorbell
  dsimp only
  exact .ite (.ite (modQp_within.after .rfl) .rfl) (.ite .rfl (.ite (queueError_within.after .rfl) (modQp_within.after .rfl)))

theorem freeCompletions_within {s : State} {q idx : Nat} : Within [.bar, .host, .faults, .trace] s (freeCompletions s q idx) := by
  unfold freeCompletions
  dsimp only
  exact .ite (.ite (modQp_within.after .rfl) .rfl) (.ite .rfl (.ite (queueError_within.after .rfl) (modQp_within.after .rfl)))

theorem keptDoorbells_within {s : State} {q : Nat} {old : QueuePair} : Within [.bar, .host, .faults, .trace] s (keptDoorbells s q old) := by
  unfold keptDoorbells
  refine .ite .rfl ?_
  dsimp only
  exact .iteElse (.ite .rfl (doorbell_within.after .rfl)) (freeCompletions_within.after .rfl)

theorem aqWrite_within {s : State} {w : W32} : Within [.bar, .host, .faults, .trace] s (aqWrite s w) := by
  unfold aqWrite
  refine .ite (.ite .rfl (wf_within.after .rfl)) ?_
  dsimp only
  exact .iteThen (wr_within.after .rfl) (keptDoorbells_within.after (setQp_within.after (wf_within.after .rfl)))

theorem acceptCmd_within {s : State} {c : Cmd} : Within [.fresh, .bar, .mem, .host, .parts, .fab, .faults, .trace] s (acceptCmd s c) := by
  unfold acceptCmd
  dsimp only
  refine .iteElse ?_ (reject_within.after .rfl)
  refine traceEvent_within.after ?_
  refine .hostRest ?_
  refine .ite2 ?_ .rfl
  refine .ite2 ?_ .rfl
  dsimp only
  exact structRead_within.after .rfl

theorem acceptRemote_within {s : State} {r : RemoteCmd} : Within [.fresh, .bar, .mem, .host, .parts, .fab, .faults, .trace] s (acceptRemote s r) := by
  unfold acceptRemote
  dsimp only
  split
  · exact .iteElse (acceptCmd_within.after .rfl) (reject_within.after .rfl)
  · exact acceptCmd_within.after .rfl

theorem fetchRemote_within {s : State} {q : Nat} : Within [.fresh, .bar, .mem, .host, .parts, .fab, .faults, .trace] s (fetchRemote s q) := by
  unfold fetchRemote
  split
  · exact .ite (acceptRemote_within.after (.hostRest .rfl)) .rfl
  · exact .rfl

theorem semRetest_within {s : State} {c : Cmd} : Within [.fresh, .bar, .mem, .cores, .sems, .host, .parts, .fab, .faults, .trace] s (semRetest s c) :=
    by
  unfold semRetest
  dsimp only
  exact .iteThen (semTake_within.after (cleanTouch_within.after .rfl)) (complete_within.after .rfl)

/-! ## JobOps -/

theorem stopThread_within {s : State} {id : Nat} {t : Tid} : Within [.bar, .cores, .sems, .faults, .trace] s (stopThread s id t) := by
  unfold stopThread
  dsimp only
  exact .ite .rfl (settleEnd_within.after (setThread_within.after (.cores (semLeave_within.after (.foldl (fun s a => breach_within.after .rfl)
    .rfl)))))

theorem stopJob_within {s : State} {id : Nat} {why : JobStop} : Within [.bar, .cores, .sems, .faults, .trace] s (stopJob s id why) := by
  unfold stopJob
  split
  · exact .rfl
  · dsimp only
    exact .iteElse (modJob_within.after .rfl) (.cores (.foldl (fun s a => stopThread_within.after .rfl) .rfl))

theorem cleanCheck_within {s : State} {j : Job} : Within [.bar, .cores, .faults, .trace] s (cleanCheck s j) := by
  unfold cleanCheck
  split
  · exact .rfl
  · dsimp only
    exact .foldl (fun s a => .ite .rfl (breach_within.after .rfl)) (.foldl (fun s a => .ite .rfl (breach_within.after .rfl)) .rfl)

theorem finishJob_within {s : State} {j : Job} : Within [.fresh, .bar, .mem, .cores, .host, .parts, .fab, .faults, .trace] s (finishJob s j) := by
  unfold finishJob
  dsimp only
  split
  · exact complete_within.after (.cores (tally_within.after (traceEvent_within.after (cleanCheck_within.after .rfl))))
  · exact .cores (tally_within.after (traceEvent_within.after (cleanCheck_within.after .rfl)))

theorem freshThread_within {s : State} {j : Job} {t : Tid} : Within [.fresh, .cores] s (freshThread s j t) := by
  unfold freshThread
  dsimp only
  exact setThread_within.after (draw_within.after .rfl)

theorem startCore_within {s : State} {j : Job} {v : Nat} : Within [.fresh, .cores] s (startCore s j v) := by
  unfold startCore
  dsimp only
  exact .foldl (fun s a => freshThread_within.after .rfl) (l1Clear_within.after (.cores .rfl))

theorem saveCore_within {s : State} {j : Job} {v : Nat} : Within [.fresh, .bar, .mem, .cores, .sems, .faults, .trace] s (saveCore s j v) := by
  unfold saveCore
  dsimp only
  exact traceEvent_within.after (.cores (.foldl (fun s a => semLeave_within.after .rfl) .rfl))

theorem preemptPart_within {s : State} {part : Nat} : Within [.fresh, .bar, .mem, .cores, .sems, .faults, .trace] s (preemptPart s part) := by
  unfold preemptPart
  dsimp only
  exact .ite .rfl (bump_within.after (.foldl (fun s a => tally_within.after (.foldl (fun s a => saveCore_within.after .rfl) .rfl)) .rfl))

theorem restoreThread_within {s : State} {t : Tid} : Within [.cores, .sems] s (restoreThread s t) := by
  unfold restoreThread
  dsimp only
  split
  · exact semWaitOp_within.after (setThread_within.after .rfl)
  · exact setThread_within.after .rfl

/-! ## RecoveryOps -/

theorem placePart_within {s : State} {part : Nat} : Within [.cores] s (placePart s part) := by
  unfold placePart
  dsimp only
  exact .cores .rfl

theorem degrade_within {s : State} : Within [.bar, .faults] s (degrade s) := by
  unfold degrade
  exact .ite (setDevState_within.after .rfl) (.ite (.faults .rfl) .rfl)

theorem loseCore_within {s : State} {j : Job} {v : Nat} : Within [.bar, .cores, .sems, .faults, .trace] s (loseCore s j v) := by
  unfold loseCore
  dsimp only
  exact l1Clear_within.after (.cores (.foldl (fun s a => semLeave_within.after (.foldl (fun s a => breach_within.after .rfl) .rfl)) .rfl))

theorem resolveJob_within {s : State} {j : Job} {v : Nat} : Within [.fresh, .bar, .cores, .sems, .faults, .trace] s (resolveJob s j v).1 := by
  unfold resolveJob
  dsimp only
  split
  · dsimp only
    exact .foldl (fun s a => setThread_within.after .rfl) (loseCore_within.after .rfl)
  · split
    · dsimp only
      exact .foldl (fun s a => setThread_within.after .rfl) (startCore_within.after (loseCore_within.after .rfl))
    · split
      · dsimp only
        exact modJob_within.after (.foldl (fun s a => setThread_within.after .rfl) (loseCore_within.after .rfl))
      · dsimp only
        exact stopJob_within.after (.foldl (fun s a => setThread_within.after .rfl) (loseCore_within.after .rfl))

theorem fenceCore_within {s : State} {phys cause : Nat} : Within [.fresh, .bar, .cores, .sems, .faults, .flash, .trace] s (fenceCore s phys cause) :=
    by
  unfold fenceCore
  refine .ite .rfl ?_
  dsimp only
  refine logErr_within.after ?_
  split
  · dsimp only
    exact bump_within.after (flashWrite_within.after (.cores .rfl))
  · split
    · split
      · split
        · split
          · dsimp only
            exact degrade_within.after (.cores (bump_within.after (flashWrite_within.after (.cores .rfl))))
          · exact resolveJob_within.after (.cores (degrade_within.after (.cores (bump_within.after (flashWrite_within.after (.cores .rfl))))))
        · split
          · dsimp only
            exact degrade_within.after (.cores (bump_within.after (flashWrite_within.after (.cores .rfl))))
          · exact resolveJob_within.after (.cores (degrade_within.after (.cores (bump_within.after (flashWrite_within.after (.cores .rfl))))))
      · split
        · split
          · dsimp only
            exact .cores (bump_within.after (flashWrite_within.after (.cores .rfl)))
          · exact resolveJob_within.after (.cores (.cores (bump_within.after (flashWrite_within.after (.cores .rfl)))))
        · split
          · dsimp only
            exact .cores (bump_within.after (flashWrite_within.after (.cores .rfl)))
          · exact resolveJob_within.after (.cores (.cores (bump_within.after (flashWrite_within.after (.cores .rfl)))))
    · dsimp only
      exact .iteThen (.cores (bump_within.after (flashWrite_within.after (.cores .rfl)))) (degrade_within.after .rfl)

theorem logRecovery_within {s : State} {d : Dom} {event : Nat} : Within [.fresh, .bar, .mem, .faults, .trace] s (logRecovery s d event) := by
  unfold logRecovery
  dsimp only
  exact traceEvent_within.after (logErr_within.after .rfl)

theorem twinSend_within {s : State} {kind : Nat} {owner : PktOwner} : Within [.bar, .parts, .fab] s (twinSend s kind owner) := by
  unfold twinSend
  exact twinPost_within.after .rfl

theorem noteHolds_within {s : State} : Within [.nb, .se] s (noteHolds s) := by
  unfold noteHolds
  dsimp only
  split
  · exact .several .rfl
  · exact .several .rfl
  · exact .rfl

theorem holdPcs_within {s : State} {pcs : List Nat} {why : Nat} : Within [.mem, .nb, .se] s (holdPcs s pcs why) := by
  unfold holdPcs
  dsimp only
  exact noteHolds_within.after (.memRest (.foldl (fun s a => setEngine_within.after .rfl) .rfl))

theorem retrainFlags_within {s : State} {stack : Nat} : Within [.bar] s (retrainFlags s stack) := by
  unfold retrainFlags
  dsimp only
  exact wf_within.after (wf_within.after .rfl)

theorem completeAll_within {s : State} {st : Cmd → W16} : Within [.fresh, .bar, .mem, .host, .parts, .fab, .faults, .trace] s (completeAll s st) := by
  unfold completeAll
  refine .foldl ?_ .rfl
  intro s a
  split
  · exact complete_within.after .rfl
  · exact .rfl

theorem dropJobs_within {s : State} : Within [.fresh, .bar, .mem, .cores, .sems, .host, .parts, .fab, .faults, .trace] s (dropJobs s) := by
  unfold dropJobs
  refine .foldl ?_ .rfl
  intro s a
  dsimp only
  split
  · exact finishJob_within.after (stopJob_within.after .rfl)
  · exact stopJob_within.after .rfl

theorem enterFailed_within {s : State} : Within [.fresh, .bar, .mem, .host, .parts, .fab, .faults, .trace] s (enterFailed s) := by
  unfold enterFailed
  dsimp only
  exact setDevState_within.after (.several (completeAll_within.after .rfl))

theorem recoveryAction_within {s : State} {d : Dom} {cause : Nat} : Within [.fresh, .bar, .mem, .cores, .sems, .nb, .host, .parts, .se, .fab, .faults,
    .flash, .trace] s (recoveryAction s d cause) := by
  unfold recoveryAction
  split
  · exact fenceCore_within.after .rfl
  · exact .rfl
  · dsimp only
    exact retrainFlags_within.after (holdPcs_within.after .rfl)
  · dsimp only
    exact setDevState_within.after (retrainFlags_within.after (.iteElse (holdPcs_within.after (.foldl (fun s a => abortProgram_within.after .rfl)
      .rfl)) (.faults .rfl)))
  · exact notePaths_within.after (wf_within.after .rfl)
  · dsimp only
    exact setDevState_within.after (.ite (.hostRest (completeAll_within.after (dropJobs_within.after (.ite (logErr_within.after (twinSend_within.after
      .rfl)) .rfl)))) (.several (completeAll_within.after (dropJobs_within.after (.ite (logErr_within.after (twinSend_within.after .rfl)) .rfl)))))

theorem startRecovery_within {s : State} {d : Dom} {cause : Nat} : Within [.fresh, .bar, .mem, .cores, .sems, .nb, .host, .parts, .se, .fab, .faults,
    .flash, .trace] s (startRecovery s d cause) := by
  unfold startRecovery
  dsimp only
  exact recoveryAction_within.after (.foldl (fun s a => logRecovery_within.after .rfl) (logRecovery_within.after (.faults .rfl)))

theorem stopRecovery_within {s : State} {d : Dom} : Within [.fresh, .bar, .mem, .faults, .trace] s (stopRecovery s d) := by
  unfold stopRecovery
  dsimp only
  exact bump_within.after (logRecovery_within.after (.faults .rfl))

theorem queueDom_within {s : State} {d : Dom} {cause : Nat} {head : Bool} : Within [.fresh, .bar, .mem, .faults, .trace] s (queueDom s d cause head)
    := by
  unfold queueDom
  dsimp only
  exact logRecovery_within.after (.faults .rfl)

theorem startAhead_within {s : State} {d : Dom} {cause : Nat} : Within [.fresh, .bar, .mem, .cores, .sems, .nb, .host, .parts, .se, .fab, .faults,
    .flash, .trace] s (startAhead s d cause) := by
  unfold startAhead
  refine .ite (queueDom_within.after .rfl) ?_
  dsimp only
  exact startRecovery_within.after (.ite (logErr_within.after .rfl) .rfl)

theorem nextQueued_within {s : State} {kind : Nat} : Within [.fresh, .bar, .mem, .cores, .sems, .nb, .host, .parts, .se, .fab, .faults, .flash,
    .trace] s (nextQueued s kind) := by
  unfold nextQueued
  refine .ite .rfl ?_
  split
  · exact .rfl
  · dsimp only
    exact startRecovery_within.after (.faults .rfl)

theorem faultAt_within {cause : Nat} {fuel : Nat} : ∀ {s : State} {d : Dom}, Within [.fresh, .bar, .mem, .cores, .sems, .nb, .host, .parts, .se, .fab, .faults, .flash, .trace] s (faultAt s d cause fuel) := by
  induction fuel with
  | zero => exact fun {s d} => .rfl
  | succ n ih =>
    intro s d
    unfold faultAt
    refine .ite .rfl ?_
    dsimp only
    refine .ite (enterFailed_within.after (logRecovery_within.after .rfl)) ?_
    split
    · exact .foldl (fun s a => nextQueued_within.after .rfl) (startAhead_within.after (.foldl (fun s a => stopRecovery_within.after .rfl) .rfl))
    · refine .ite (logRecovery_within.after .rfl) (.ite (logRecovery_within.after .rfl) (.ite (.ite ?_ (queueDom_within.after .rfl)) (startRecovery_within.after .rfl)))
      split
      · exact ih.after .rfl
      · exact .rfl

theorem fault_within {s : State} {d : Dom} {cause : Nat} : Within [.fresh, .bar, .mem, .cores, .sems, .nb, .host, .parts, .se, .fab, .faults, .flash,
    .trace] s (fault s d cause) := by
  unfold fault
  exact faultAt_within.after .rfl

/-! ## SessOps -/

theorem putSess_within {s : State} {i : Nat} {x : Session} : Within [.se] s (putSess s i x) := by
  unfold putSess
  exact .se .rfl

theorem modSess_within {s : State} {i : Nat} {f : Session → Session} : Within [.se] s (modSess s i f) := by
  unfold modSess
  split
  · exact putSess_within.after .rfl
  · exact .rfl

theorem putModel_within {s : State} {m : Nat} {x : Model} : Within [.se] s (putModel s m x) := by
  unfold putModel
  exact .se .rfl

/-! ## PartCmds -/

theorem unplace_within {s : State} {base count : Nat} : Within [.cores] s (unplace s base count) := by
  unfold unplace
  dsimp only
  exact .cores .rfl

theorem applyBlock_within {s : State} {p : Nat} {b : PBlk} : Within [.bar, .cores, .parts, .faults] s (applyBlock s p b) := by
  unfold applyBlock
  dsimp only
  exact .iteThen (placePart_within.after (.parts (wr_within.after (wr_within.after (.iterate (fun i s => wr_within.after .rfl) (.iterate (fun i s =>
    wr_within.after .rfl) (wr_within.after (wr_within.after (wr64_within.after (wr_within.after (.iteThen (.ite (.foldl (fun s a => wr64_within.after
    .rfl) (wr_within.after .rfl)) (unplace_within.after .rfl)) (wr_within.after .rfl)))))))))))) (degrade_within.after .rfl)

theorem applyPending_within {s : State} {p : Nat} : Within [.bar, .cores, .parts, .faults] s (applyPending s p) := by
  unfold applyPending
  split
  · exact applyBlock_within.after .rfl
  · exact .rfl

theorem queueImage_within {s : State} {j : Job} {v : Nat} : Within [.fresh] s (queueImage s j v).2 := by
  unfold queueImage
  dsimp only
  refine .foldl3 ?_ ?_
  · intro x a
    dsimp only
    exact drawBelow_within.after .rfl
  · dsimp only
    exact draw_within.after .rfl

theorem writeSaves_within {s : State} {part : Nat} {vs : List Nat} : Within [.fresh, .bar, .mem, .faults, .trace] s (writeSaves s part vs) := by
  unfold writeSaves
  refine .foldl ?_ .rfl
  intro s a
  split
  · exact .rfl
  · dsimp only
    exact devWrite_within.after (draw_within.after (queueImage_within.after .rfl))

theorem resumeCore_within {s : State} {part v : Nat} : Within [.fresh, .bar, .mem, .cores, .sems, .parts, .fab, .faults, .trace] s (resumeCore s part
    v) := by
  unfold resumeCore
  dsimp only
  refine traceEvent_within.after ?_
  refine .iterate (fun i s => .ite .rfl (restoreThread_within.after .rfl)) ?_
  refine .foldl ?_ (.cores .rfl)
  intro s a
  split
  · exact landOp_within.after .rfl
  · exact .rfl

/-! ## StackRows -/

theorem refreshBank_within {s : State} {bank postponed : Nat} : Within [.bar, .mem] s (refreshBank s bank postponed) := by
  unfold refreshBank
  dsimp only
  exact setEngine_within.after (wakeBank_within.after .rfl)

theorem repairRow_within {s : State} {bank row : Nat} : Within [.fresh, .bar, .mem, .faults, .flash, .trace] s (repairRow s bank row) := by
  unfold repairRow
  dsimp only
  exact .ite (.memRest (logErr_within.after (wf_within.after .rfl))) (.memRest (.iteThen (logErr_within.after (wf_within.after (bump_within.after
    (flashWrite_within.after (.memRest (.iterate (fun i s => checkSector_within.after .rfl) .rfl)))))) (degrade_within.after (wf_within.after .rfl))))

theorem urgentTrigger_within {s : State} {pc code : Nat} {whole : Bool} : Within [.fresh, .bar, .mem, .cores, .sems, .nb, .host, .parts, .se, .fab,
    .faults, .flash, .trace] s (urgentTrigger s pc code whole) := by
  unfold urgentTrigger
  dsimp only
  exact fault_within.after (.memRest (logErr_within.after .rfl))

/-! ## Serve -/

/-- The write as a variable: the kernel would evaluate its address where it compares two states. -/
theorem devWrite_abstract : ∃ f, devWrite = f ∧ ∀ {s a bs rq}, Within [.fresh, .bar, .mem, .faults, .trace] s (f s a bs rq).2 := ⟨_, rfl, devWrite_within⟩
theorem devReadNat_abstract : ∃ f, devReadNat = f ∧ ∀ {s a n rq}, Within [.fresh, .bar, .mem, .faults, .trace] s (f s a n rq).2.2 := ⟨_, rfl, devReadNat_within⟩

theorem cacheRoom_within {s : State} : Within [.fresh, .bar, .mem, .se, .faults, .trace] s (cacheRoom s) := by
  obtain ⟨f, hf, hw⟩ := devWrite_abstract
  unfold cacheRoom
  rw [hf]
  refine .ite .rfl ?_
  dsimp only
  split
  · exact drawBelow_within.after .rfl
  · refine .se ?_
    split
    · exact hw.after (drawBelow_within.after .rfl)
    · exact drawBelow_within.after .rfl

theorem cacheIn_within {s : State} {i : Nat} : Within [.fresh, .bar, .mem, .se, .faults, .trace] s (cacheIn s i) := by
  obtain ⟨f, hf, hw⟩ := devWrite_abstract
  obtain ⟨g, hg, hr⟩ := devReadNat_abstract
  unfold cacheIn
  rw [hf, hg]
  refine .ite .rfl ?_
  dsimp only
  refine .se ?_
  split
  · exact modSess_within.after (draw_within.after (hr.after (cacheRoom_within.after .rfl)))
  · exact hw.after (modSess_within.after (draw_within.after (hr.after (cacheRoom_within.after .rfl))))
  · exact modSess_within.after (draw_within.after (hr.after (cacheRoom_within.after .rfl)))

theorem cacheNew_within {s : State} {i : Nat} : Within [.fresh, .bar, .mem, .se, .faults, .trace] s (cacheNew s i) := by
  unfold cacheNew
  dsimp only
  exact .se (cacheRoom_within.after .rfl)

/-- Unfolded as a whole, for the same reason. -/
theorem writeModel_within {s : State} {m : Nat} : Within [.fresh, .bar, .mem, .faults, .trace] s (writeModel s m) := by
  suffices h : ∀ f, f = writeModel → Within [.fresh, .bar, .mem, .faults, .trace] s (f s m) from h _ rfl
  intro f hf
  delta writeModel at hf
  rw [hf]
  exact devWrite_within

theorem snapCfg_within {s : State} {part : Nat} : Within [.parts] s (snapCfg s part) := by
  unfold snapCfg
  split
  · exact .parts .rfl
  · exact .rfl

theorem pushStatus_within {s : State} {part : Nat} {e : OutEntry} : Within [.se] s (pushStatus s part e) := by
  unfold pushStatus
  exact .se .rfl

theorem dirPut_within {s : State} {off v : Nat} : Within [.fresh, .bar, .mem, .faults, .trace] s (dirPut s off v) := by
  unfold dirPut
  exact devWrite_within.after .rfl

theorem ensureRoot_within {s u : State} {i r : Nat} (h : ensureRoot s i = some (r, u)) : Within [.fresh, .bar, .mem, .se, .faults, .trace] s u := by
  unfold ensureRoot at h
  split at h
  · cases h
  · split at h
    · cases h; exact .rfl
    · dsimp only at h
      split at h
      · cases h
        exact putSess_within.after (devWrite_within.after .rfl)
      · cases h

theorem allocSpan_within {s : State} {i : Nat} {draft : Bool} {n idx : Nat} :
    Within.Opt [.fresh, .bar, .mem, .se, .faults, .trace] s (allocSpan s i draft n idx) := by
  unfold allocSpan
  refine .optIte (.ofSome .rfl) ?_
  dsimp only
  split
  next r u b hr _ => exact .optIte .ofNone (.ofSome (.se (dirPut_within.after (.iterate (fun j s => dirPut_within.after .rfl) ((ensureRoot_within hr).after .rfl)))))
  · exact .ofNone

theorem ensureSpans_within {s : State} {i : Nat} {draft : Bool} {n lo hi : Nat} :
    Within.Opt [.fresh, .bar, .mem, .se, .faults, .trace] s (ensureSpans s i draft n lo hi) := by
  unfold ensureSpans
  refine .optIte (.ofSome .rfl) (List.foldlRecOn _ _ (motive := Within.Opt _ s) (.ofSome .rfl) fun r hr k _ => ?_)
  exact hr.bind fun u => allocSpan_within

theorem freeSpans_within {s : State} {p : Span → Bool} : Within [.fresh, .bar, .mem, .se, .faults, .trace] s (freeSpans s p) := by
  unfold freeSpans
  dsimp only
  refine .se ?_
  refine .foldl ?_ .rfl
  intro s a
  split
  · exact dirPut_within.after .rfl
  · exact .rfl

theorem dropKv_within {s : State} {i : Nat} : Within [.fresh, .bar, .mem, .se, .faults, .trace] s (dropKv s i) := by
  unfold dropKv
  exact modSess_within.after (freeSpans_within.after .rfl)

theorem trimSpans_within {s : State} {i : Nat} : Within [.fresh, .bar, .mem, .se, .faults, .trace] s (trimSpans s i) := by
  unfold trimSpans
  split
  · exact .rfl
  · exact freeSpans_within.after .rfl

theorem freeScale_within {s : State} : Within [.fresh] s (freeScale s).2 := by
  unfold freeScale
  dsimp only
  exact drawBelow_within.after .rfl

theorem writeKv_within {s : State} {i : Nat} {draft : Bool} {pos : Nat} : Within [.fresh, .bar, .mem, .faults, .trace] s (writeKv s i draft pos) := by
  unfold writeKv
  split
  · refine .foldl ?_ .rfl
    intro s a
    refine .foldl ?_ .rfl
    intro s a
    dsimp only
    refine devWrite_within.after ?_
    refine .ite2 (freeScale_within.after .rfl) ?_
    dsimp only
    exact draw_within.after .rfl
  · exact .rfl

theorem writeKvs_within {s : State} {i : Nat} {draft : Bool} {lo hi : Nat} : Within [.fresh, .bar, .mem, .faults, .trace] s (writeKvs s i draft lo hi)
    := by
  unfold writeKvs
  exact .iterate (fun i s => writeKv_within.after .rfl) .rfl

theorem mirrorSend_within {s : State} {i : MirrorItem} : Within [.bar, .parts, .fab] s (mirrorSend s i) := by
  unfold mirrorSend
  exact .ite (twinPost_within.after .rfl) .rfl

theorem mirrorChange_within {s : State} : Within [.bar, .parts, .fab, .twin] s (mirrorChange s) := by
  unfold mirrorChange
  refine .ite .rfl ?_
  dsimp only
  exact .foldl (fun s a => .ite .rfl (.twin (mirrorSend_within.after .rfl))) (.foldl (fun s a => .twin (mirrorSend_within.after .rfl)) .rfl)

theorem ensureTable_within {s : State} {i : Nat} : Within.Opt [.fresh, .bar, .mem, .se, .faults, .trace] s (ensureTable s i) := by
  unfold ensureTable
  split
  · exact .ofNone
  · refine .optIte (.ofSome .rfl) ?_
    cases tablePlace s with
    | none => exact .ofNone
    | some u => exact .ofSome (putSess_within.after (devWrite_within.after .rfl))

theorem ensureChunks_within {s : State} {i len : Nat} : Within.Opt [.fresh, .bar, .mem, .se, .faults, .trace] s (ensureChunks s i len) := by
  unfold ensureChunks
  refine .optIte (.ofSome .rfl) (ensureTable_within.bind fun u => ?_)
  split
  · exact .ofNone
  · exact .optIte .ofNone (.ofSome (putSess_within.after (.iterate (fun j s => devWrite_within.after .rfl) .rfl)))

theorem appendToks_within {s : State} {i : Nat} {ts : List W32} : Within [.fresh, .bar, .mem, .parts, .se, .fab, .faults, .trace] s (appendToks s i ts) := by
  unfold appendToks
  split
  · exact .rfl
  · dsimp only
    refine putSess_within.after (.iteElse (.iterate ?_ (ensureChunks_within.getD.mono)) (mirrorSend_within.after .rfl))
    intro j u
    split
    · exact devWrite_within.after .rfl
    · exact .rfl

theorem readToks_within {s : State} {x : Session} {lo hi : Nat} : Within [.fresh, .bar, .mem, .faults, .trace] s (readToks s x lo hi).2.2 := by
  unfold readToks
  refine .foldl3 ?_ .rfl
  intro x a
  split
  · dsimp only
    exact devReadNat_within.after .rfl
  · exact .rfl

theorem endTier_within {s : State} {i : Nat} : Within [.se, .fab] s (endTier s i) := by
  unfold endTier
  split
  · exact modSess_within.after (.fab .rfl)
  · exact .rfl

theorem closeSess_within {s : State} {i : Nat} : Within [.fresh, .bar, .mem, .se, .fab, .faults, .trace] s (closeSess s i) := by
  unfold closeSess
  dsimp only
  exact .se (dropKv_within.after (endTier_within.after .rfl))

theorem expireSess_within {s : State} {i : Nat} {gone : Bool} : Within [.fresh, .bar, .mem, .se, .fab, .faults, .trace] s (expireSess s i gone) := by
  unfold expireSess
  split
  · exact .rfl
  · dsimp only
    exact .iteElse (modSess_within.after (dropKv_within.after (endTier_within.after .rfl))) (pushStatus_within.after (bump_within.after .rfl))

theorem startDown_within {t : Nat} {fuel : Nat} : ∀ {s : State} {i : Nat}, Within [.se] s (startDown s i t fuel) := by
  induction fuel generalizing t with
  | zero => exact fun {s i} => by unfold startDown; exact .rfl
  | succ n ih =>
    intro s i
    unfold startDown
    split
    next m x hm hx =>
      obtain rfl : m = n := (Nat.succ.inj hm).symm
      refine .ite (putSess_within.after .rfl) ?_
      split
      · exact putSess_within.after .rfl
      · exact .foldlFst (fun x a => by split; exacts [.rfl, ih.after .rfl]) (putSess_within.after .rfl)
    · exact .rfl

theorem pressureT0_within {s : State} {need : Nat} : Within [.se] s (pressureT0 s need) := by
  unfold pressureT0
  dsimp only
  refine .foldlFst ?_ .rfl
  intro x a
  split
  · exact .rfl
  · dsimp only
    exact startDown_within.after .rfl

theorem startPromotion_within {s : State} {i : Nat} : Within [.fresh, .bar, .mem, .se, .faults, .trace] s (startPromotion s i) := by
  unfold startPromotion
  split
  · exact .rfl
  · dsimp only
    split
    next u hu => exact modSess_within.after ((ensureSpans_within.bind (fun u => ensureSpans_within) _ hu).mono)
    · exact pressureT0_within.after (modSess_within.after .rfl)

theorem abandonMove_within {s : State} {i : Nat} : Within [.fresh, .bar, .mem, .se, .fab, .faults, .trace] s (abandonMove s i) := by
  unfold abandonMove
  split
  · exact .rfl
  · dsimp only
    exact modSess_within.after (endTier_within.after (.ite (dropKv_within.after .rfl) .rfl))

theorem retryMove_within {s : State} {i : Nat} : Within [.fresh, .bar, .mem, .se, .faults, .trace] s (retryMove s i) := by
  unfold retryMove
  split
  · exact .rfl
  · split
    · exact .ite (putSess_within.after .rfl) (.ite (startPromotion_within.after .rfl) (startDown_within.after .rfl))
    · exact .rfl

theorem readRanges_within {s : State} {rs : List (Nat × Nat)} : Within [.fresh, .bar, .mem, .faults, .trace] s (readRanges s rs).2.2 := by
  unfold readRanges
  refine .foldl3 ?_ .rfl
  intro x a
  dsimp only
  exact devRead_within.after .rfl

theorem writeRanges_within {s : State} {rs : List (Nat × Nat)} {bs : List Byte} :
    Within [.fresh, .bar, .mem, .faults, .trace] s (writeRanges s rs bs).2 := by
  unfold writeRanges
  refine List.foldlRecOn rs _ (motive := fun x : W16 × State × List Byte => Within _ s x.2.1) .rfl fun x hx p _ => ?_
  exact devWrite_within.after hx

theorem newImage_within {s : State} {size : Nat} : Within [.fresh] s (newImage s size).2 := by
  unfold newImage
  dsimp only
  exact draw_within.after .rfl

theorem readImage_within {s : State} {a size : Nat} : Within [.fresh, .bar, .mem, .faults, .trace] s (readImage s a size).2.2 := by
  unfold readImage
  exact localRead_within.after .rfl

theorem writeImage_within {s : State} {a : Nat} {bs : List Byte} : Within [.fresh, .bar, .mem, .cores, .host, .faults, .trace] s (writeImage s a bs).2
    := by
  unfold writeImage
  exact localWrite_within.after .rfl

theorem sendTier_within {s : State} {i part a n : Nat} {bs : Option (List Byte)} : Within [.bar, .parts, .se, .fab, .faults, .trace] s (sendTier s i
    part a n bs) := by
  unfold sendTier
  dsimp only
  exact .ite (modTier_within.after (logFabric_within.after (modSess_within.after (.several .rfl)))) (.foldl (fun s a => levelSend_within.after .rfl)
    (modSess_within.after (.several .rfl)))

theorem loseImage_within {s : State} {i t : Nat} : Within [.fresh, .bar, .mem, .se, .fab, .faults, .trace] s (loseImage s i t) := by
  unfold loseImage
  exact modSess_within.after (endTier_within.after (.ite (dropKv_within.after .rfl) .rfl))

theorem skipTier_within {s : State} {i t : Nat} : Within [.fresh, .bar, .mem, .se, .fab, .faults, .trace] s (skipTier s i t) := by
  unfold skipTier
  dsimp only
  exact .iteElse (abandonMove_within.after .rfl) (startDown_within.after .rfl)

theorem sourceImage_within {s : State} {i : Nat} {x : Session} : Within [.fresh, .bar, .mem, .faults, .trace] s (sourceImage s i x).2.2.2 := by
  unfold sourceImage
  dsimp only
  split
  · dsimp only
    exact newImage_within.after (readRanges_within.after .rfl)
  · dsimp only
    split
    · exact readImage_within.after .rfl
    · exact .rfl

theorem copyTier_within {s : State} {i t : Nat} {x : Session} : Within [.fresh, .bar, .mem, .cores, .host, .parts, .se, .fab, .faults, .trace] s
    (copyTier s i t x) := by
  unfold copyTier
  dsimp only
  exact .ite (sendTier_within.after .rfl) (.ite (.ite (modSess_within.after (endTier_within.after .rfl)) (skipTier_within.after .rfl)) (.ite
    (loseImage_within.after (sourceImage_within.after .rfl)) (.ite (sendTier_within.after (modSess_within.after (chargeBytes_within.after
    (sourceImage_within.after .rfl)))) (.ite (skipTier_within.after (.ite2 (writeRanges_within.after (chargeBytes_within.after
    (sourceImage_within.after .rfl))) (writeImage_within.after (chargeBytes_within.after (sourceImage_within.after .rfl))))) (modSess_within.after
    (endTier_within.after (.ite2 (writeRanges_within.after (chargeBytes_within.after (sourceImage_within.after .rfl))) (writeImage_within.after
    (chargeBytes_within.after (sourceImage_within.after .rfl))))))))))

theorem commitTier_within {s : State} {i : Nat} : Within [.fresh, .bar, .mem, .se, .fab, .faults, .trace] s (commitTier s i) := by
  unfold commitTier
  split
  · exact .rfl
  · dsimp only
    split
    · exact .rfl
    · exact .ite (abandonMove_within.after .rfl) (.ite .rfl (.ite (expireSess_within.after .rfl) (.ite (modSess_within.after .rfl)
        (modSess_within.after (.ite (dropKv_within.after .rfl) .rfl)))))

theorem giveSlot_within {s : State} {i : Nat} {x : Session} : Within [.bar, .se] s (giveSlot s i x) := by
  unfold giveSlot
  dsimp only
  exact putSess_within.after (.se (.ite .rfl (tally_within.after .rfl)))

theorem takeWaiting_within {s : State} {part : Nat} : Within [.fresh, .bar, .mem, .se, .faults, .trace] s (takeWaiting s part) := by
  unfold takeWaiting
  dsimp only
  refine .foldl ?_ .rfl
  intro s a
  split
  · exact .rfl
  · exact .ite .rfl (.ite (.ite (startPromotion_within.after .rfl) .rfl) (.ite .rfl (giveSlot_within.after .rfl)))

theorem applyEvents_within {s : State} {i : Nat} {said : Bool} : Within [.fresh, .bar, .mem, .se, .fab, .faults, .trace] s (applyEvents s i said) :=
    by
  unfold applyEvents
  split
  · exact .rfl
  · dsimp only
    refine .ite (closeSess_within.after (.iteThen (.iteThen (putSess_within.after .rfl) (tally_within.after .rfl)) (pushStatus_within.after .rfl))) ?_
    refine .ite (expireSess_within.after (modSess_within.after (putSess_within.after .rfl))) ?_
    split
    · exact modSess_within.after (.iteThen (putSess_within.after .rfl) (modSess_within.after (.iteElse (.iteThen .rfl (tally_within.after .rfl))
        (pushStatus_within.after .rfl))))
    · exact .iteElse (modSess_within.after (.se (.iteThen (putSess_within.after .rfl) (modSess_within.after (.iteElse (.iteThen .rfl
        (tally_within.after .rfl)) (pushStatus_within.after .rfl)))))) (startDown_within.after .rfl)
    · exact .ite (modSess_within.after (abandonMove_within.after (.iteThen (putSess_within.after .rfl) (modSess_within.after (.iteElse (.iteThen .rfl
        (tally_within.after .rfl)) (pushStatus_within.after .rfl)))))) (.iteThen (abandonMove_within.after (.iteThen (putSess_within.after .rfl)
        (modSess_within.after (.iteElse (.iteThen .rfl (tally_within.after .rfl)) (pushStatus_within.after .rfl))))) (startPromotion_within.after
        .rfl))
    · exact .iteThen (putSess_within.after .rfl) (modSess_within.after (.iteElse (.iteThen .rfl (tally_within.after .rfl)) (pushStatus_within.after
        .rfl)))

theorem applySet_within {s : State} {i : Nat} : Within [.se] s (applySet s i) := by
  unfold applySet
  exact modSess_within.after .rfl

theorem settleUnloads_within {s : State} {part : Nat} : Within [.fresh, .bar, .mem, .host, .parts, .se, .fab, .faults, .trace] s (settleUnloads s
    part) := by
  unfold settleUnloads
  refine .foldl ?_ .rfl
  intro s a
  refine .ite .rfl ?_
  dsimp only
  refine .ite (putModel_within.after .rfl) ?_
  split
  · exact complete_within.after (mirrorSend_within.after (writeModel_within.after (.se .rfl)))
  · exact mirrorSend_within.after (writeModel_within.after (.se .rfl))

theorem commitRepairs_within {s : State} : Within [.bar, .se, .faults, .trace] s (commitRepairs s) := by
  unfold commitRepairs
  dsimp only
  refine .foldl ?_ (.faults .rfl)
  intro s a
  refine .foldl (fun s a => .ite (modSess_within.after .rfl) .rfl) ?_
  split
  · exact putModel_within.after (.iteThen (logErr_within.after .rfl) (bump_within.after .rfl))
  · exact .iteThen (logErr_within.after .rfl) (bump_within.after .rfl)

theorem reproject_within {s : State} {i : Nat} : Within [.se] s (reproject s i) := by
  unfold reproject
  exact modSess_within.after .rfl

theorem setRing_within {s : State} {c : Cmd} : Within [.fresh, .bar, .mem, .host, .parts, .se, .fab, .faults, .trace] s (setRing s c) := by
  unfold setRing
  dsimp only
  exact complete_within.after (wr_within.after (wr_within.after (.se .rfl)))

theorem settleRings_within {s : State} {part : Nat} : Within [.fresh, .bar, .mem, .host, .parts, .se, .fab, .faults, .trace] s (settleRings s part) :=
    by
  unfold settleRings
  exact .ite .rfl (.foldl (fun s a => setRing_within.after .rfl) .rfl)

theorem boundary_within {s : State} {part : Nat} {said : List Nat} : Within [.fresh, .bar, .mem, .cores, .host, .parts, .se, .fab, .faults, .trace] s
    (boundary s part said) := by
  unfold boundary
  dsimp only
  exact .se (.foldl (fun s a => reproject_within.after .rfl) (takeWaiting_within.after (.foldl (fun s a => retryMove_within.after
    (commitTier_within.after .rfl)) (commitRepairs_within.after (settleUnloads_within.after (settleRings_within.after (.foldl (fun s a =>
    applyEvents_within.after (applySet_within.after .rfl)) (.foldl (fun s a => cacheIn_within.after .rfl) (snapCfg_within.after
    (applyPending_within.after .rfl))))))))))

/-! ## Sequencer -/

theorem stepPlace_within {s : State} {part n : Nat} : Within [.fresh] s (stepPlace s part n).2 := by
  unfold stepPlace
  dsimp only
  exact drawBelow_within.after (drawBelow_within.after .rfl)

theorem stackPlaces_within {s : State} {part n : Nat} : Within [.fresh] s (stackPlaces s part n).2.2 := by
  unfold stackPlaces
  dsimp only
  split
  · dsimp only
    exact stepPlace_within.after .rfl
  · dsimp only
    exact drawBelow_within.after (stepPlace_within.after .rfl)

theorem loadsOf_within {s : State} {part n : Nat} : Within [.fresh] s (loadsOf s part n).2 := by
  unfold loadsOf
  refine .foldl2 ?_ .rfl
  intro x a
  dsimp only
  exact stepPlace_within.after .rfl

theorem drainsOf_within {s : State} {part res n : Nat} : Within [.fresh] s (drainsOf s part res n).2 := by
  unfold drainsOf
  refine .foldl2 ?_ .rfl
  intro x a
  dsimp only
  exact stackPlaces_within.after .rfl

theorem pieceWork_within {s : State} {part : Nat} {g : Line} {nvec res : Nat} {ps : List (Nat × Nat × Nat)} : Within [.fresh] s (pieceWork s part g
    nvec res ps).2 := by
  unfold pieceWork
  dsimp only
  refine .foldl3 ?_ .rfl
  intro x a
  dsimp only
  exact drainsOf_within.after (drawBelow_within.after .rfl)

theorem passWorks_within {s : State} {part : Nat} {g : Line} {near : List Nat} {nvec : Nat} : Within [.fresh] s (passWorks s part g near nvec).2 := by
  unfold passWorks
  dsimp only
  refine .foldl2 ?_ ?_
  · intro x a
    dsimp only
    exact pieceWork_within.after .rfl
  · dsimp only
    exact loadsOf_within.after .rfl

theorem groupWorks_within {s : State} {part : Nat} {x : PlanItem} {m : Mode} : Within [.fresh] s (groupWorks s part x m).2 := by
  unfold groupWorks
  dsimp only
  refine .foldl2 ?_ .rfl
  intro x a
  dsimp only
  exact passWorks_within.after .rfl

theorem startNear_within {s : State} {part sem : Nat} {p : NearProg} : Within.Opt [.fresh, .bar, .mem, .nb, .faults, .trace] s (startNear s part sem p) := by
  unfold startNear
  refine .optIte .ofNone ?_
  split
  · exact .ofSome (startProgram_within.after (putProgram_within.after (.foldl (fun s a => bufWrite_within.after .rfl) .rfl)))
  · exact .ofNone

theorem putRun_within {s : State} {part : Nat} {r : StepRun} : Within [.se] s (putRun s part r) := by
  unfold putRun
  exact .se .rfl

theorem startRound_within {s : State} {part : Nat} {run : StepRun} : Within [.fresh, .bar, .mem, .nb, .se, .faults, .trace] s (startRound s part run) := by
  unfold startRound
  split
  · exact putRun_within.after .rfl
  · refine putRun_within.after (.foldl3 (fun x a => ?_) .rfl)
    split
    next u hu => exact (startNear_within _ hu).mono
    · exact .rfl

theorem advanceNear_within {s : State} {part : Nat} {run : StepRun} : Within [.fresh, .bar, .mem, .nb, .se, .faults, .trace] s (advanceNear s part
    run) := by
  unfold advanceNear
  split
  · exact .ite (startRound_within.after .rfl) .rfl
  · exact startRound_within.after .rfl

theorem fillSources_within {s : State} {rounds : List (List NearProg)} : Within [.fresh, .bar, .mem, .cores, .host, .faults, .trace] s (fillSources s
    rounds) := by
  unfold fillSources
  dsimp only
  exact .foldl (fun s a => localWrite_within.after (draw_within.after .rfl)) .rfl

theorem writeResults_within {s : State} {part n : Nat} : Within [.fresh, .bar, .mem, .cores, .host, .faults, .trace] s (writeResults s part n) := by
  unfold writeResults
  refine .foldl ?_ .rfl
  intro s a
  dsimp only
  exact localWrite_within.after (draw_within.after (stepPlace_within.after .rfl))

theorem beginHalves_within {s : State} {part : Nat} {run : StepRun} {rounds : List (List NearProg)} {ds : List DenseRead} : Within [.fresh, .bar,
    .mem, .cores, .nb, .host, .se, .faults, .trace] s (beginHalves s part run rounds ds) := by
  unfold beginHalves
  dsimp only
  exact startRound_within.after (fillSources_within.after (drawBelow_within.after .rfl))

theorem denseTurn_within {s : State} {part : Nat} {run : StepRun} : Within [.fresh, .bar, .mem, .cores, .host, .parts, .faults, .trace] s (denseTurn s
    part run).2 := by
  unfold denseTurn
  refine .foldl2 ?_ .rfl
  intro x a
  dsimp only
  refine .ite2 .rfl ?_
  dsimp only
  exact writeResults_within.after (devRead_within.after (chargeRange_within.after .rfl))

theorem advanceDense_within {s : State} {part : Nat} : Within [.fresh, .bar, .mem, .cores, .sems, .host, .parts, .se, .faults, .trace] s (advanceDense
    s part) := by
  unfold advanceDense
  split
  · exact .rfl
  · refine .ite .rfl ?_
    dsimp only
    exact .iteThen (putRun_within.after (denseTurn_within.after .rfl)) (semSignal_within.after .rfl)

theorem attnWork_within {s : State} {part : Nat} {r : Region} {pv : Bool} {nvec : Nat} {pages : List (Nat × Nat)} : Within [.fresh] s (attnWork s part
    r pv nvec pages).2 := by
  unfold attnWork
  dsimp only
  refine .foldl2 ?_ ?_
  · intro x a
    dsimp only
    exact stepPlace_within.after .rfl
  · dsimp only
    exact loadsOf_within.after (drawBelow_within.after .rfl)

theorem attnWorks_within {s : State} {part : Nat} {run : StepRun} {x : PlanItem} {pv : Bool} {stack : Nat} : Within [.fresh] s (attnWorks s part run x
    pv stack).2 := by
  unfold attnWorks
  split
  · dsimp only
    refine .foldl2 ?_ .rfl
    intro x a
    split
    · exact .rfl
    · refine .foldl2 ?_ .rfl
      intro x a
      refine .foldl2 ?_ .rfl
      intro x a
      refine .foldl2 ?_ .rfl
      intro x a
      refine .foldl2 ?_ .rfl
      intro x a
      dsimp only
      exact attnWork_within.after .rfl
  · exact .rfl

theorem phaseRounds_within {s : State} {part : Nat} {run : StepRun} {x : PlanItem} {pv : Bool} : Within [.fresh] s (phaseRounds s part run x pv).2 :=
    by
  unfold phaseRounds
  dsimp only
  refine .foldl2 ?_ .rfl
  intro x a
  dsimp only
  exact attnWorks_within.after .rfl

theorem attnRounds_within {s : State} {part : Nat} {run : StepRun} {x : PlanItem} : Within [.fresh] s (attnRounds s part run x).2 := by
  unfold attnRounds
  dsimp only
  exact phaseRounds_within.after (phaseRounds_within.after .rfl)

/-! ## Mirror -/

theorem revealRecord_within {s : State} {part : Nat} {r : Ring} {wr0 pad : Nat} {ls : List Line} : Within [.bar, .host] s (revealRecord s part r wr0
    pad ls) := by
  unfold revealRecord
  dsimp only
  exact .hostRest (hostWrite_within.after (wr_within.after (hostWrite_within.after (.ite .rfl (hostWrite_within.after .rfl)))))

theorem setTwin_within {s : State} {f : Twin → Twin} : Within [.twin] s (setTwin s f) := by
  unfold setTwin
  exact .twin .rfl

theorem logTwin_within {s : State} {event ex0 : Nat} {tag : Nat} : Within [.bar, .faults, .trace] s (logTwin s event ex0 tag) := by
  unfold logTwin
  exact logErr_within.after .rfl

theorem goSolo_within {s : State} : Within [.bar, .fab, .twin] s (goSolo s) := by
  unfold goSolo
  dsimp only
  exact notePaths_within.after (wf_within.after (wf_within.after (setTwin_within.after .rfl)))

theorem endPair_within {s : State} {cmd : Option Nat} {st : W16} : Within [.fresh, .bar, .mem, .host, .parts, .fab, .faults, .trace] s (endPair s cmd
    st) := by
  unfold endPair
  split
  · exact complete_within.after .rfl
  · exact .rfl

theorem failPairing_within {s : State} {st : W16} : Within [.fresh, .bar, .mem, .host, .parts, .fab, .faults, .twin, .trace] s (failPairing s st) :=
    by
  unfold failPairing
  dsimp only
  exact endPair_within.after (goSolo_within.after .rfl)

theorem becomePaired_within {s : State} : Within [.fresh, .bar, .mem, .host, .parts, .fab, .faults, .twin, .trace] s (becomePaired s) := by
  unfold becomePaired
  refine .ite ?_ .rfl
  dsimp only
  exact endPair_within.after (setTwin_within.after (logTwin_within.after (wf_within.after .rfl)))

theorem doAct_within {s : State} {g : Gate} : Within [.fresh, .bar, .mem, .host, .parts, .se, .fab, .faults, .twin, .trace] s (doAct s g) := by
  unfold doAct
  split
  · exact revealRecord_within.after .rfl
  · split
    · exact .rfl
    · split
      · exact complete_within.after (closeSess_within.after (setTwin_within.after .rfl))
      · exact complete_within.after .rfl
  · exact becomePaired_within.after (setTwin_within.after (twinSend_within.after .rfl))
  · split
    · exact complete_within.after .rfl
    · exact .rfl

theorem gateAct_within {s : State} {a : GateAct} : Within [.fresh, .bar, .mem, .host, .parts, .se, .fab, .faults, .twin, .trace] s (gateAct s a) := by
  unfold gateAct
  dsimp only
  exact .ite (setTwin_within.after .rfl) (doAct_within.after .rfl)

theorem gateStatus_within {s : State} {c : Cmd} {result : Nat} {opened : Option Nat} : Within [.fresh, .bar, .mem, .host, .parts, .se, .fab, .faults,
    .twin, .trace] s (gateStatus s c result opened) := by
  unfold gateStatus
  exact .ite (gateAct_within.after .rfl) (complete_within.after .rfl)

theorem openGates_within {fuel : Nat} : ∀ {s : State}, Within [.fresh, .bar, .mem, .host, .parts, .se, .fab, .faults, .twin, .trace] s (openGates s fuel) := by
  induction fuel with
  | zero => exact fun {s} => .rfl
  | succ n ih =>
    intro s
    unfold openGates
    split
    · exact .rfl
    · exact .ite .rfl (ih.after (doAct_within.after (setTwin_within.after .rfl)))

theorem releaseGates_within {s : State} : Within [.fresh, .bar, .mem, .host, .parts, .se, .fab, .faults, .twin, .trace] s (releaseGates s) := by
  unfold releaseGates
  exact .foldl (fun s a => doAct_within.after .rfl) (setTwin_within.after .rfl)

theorem settleDetach_within {s : State} : Within [.fresh, .bar, .mem, .host, .parts, .se, .fab, .faults, .twin, .trace] s (settleDetach s) := by
  unfold settleDetach
  refine .ite ?_ .rfl
  dsimp only
  split
  · exact openGates_within.after (setTwin_within.after (goSolo_within.after (logTwin_within.after (twinSend_within.after .rfl))))
  · exact goSolo_within.after (logTwin_within.after (twinSend_within.after .rfl))

theorem beginDetach_within {s : State} {cmd : Option Nat} : Within [.fresh, .bar, .mem, .host, .parts, .se, .fab, .faults, .twin, .trace] s
    (beginDetach s cmd) := by
  unfold beginDetach
  exact settleDetach_within.after (setTwin_within.after (wf_within.after .rfl))

theorem mirrorFull_within {s : State} : Within [.fresh, .bar, .mem, .host, .parts, .se, .fab, .faults, .twin, .trace] s (mirrorFull s) := by
  unfold mirrorFull
  split
  · exact failPairing_within.after .rfl
  · exact beginDetach_within.after (logTwin_within.after .rfl)
  · exact .rfl

theorem settleTwin_within {s : State} : Within [.fresh, .bar, .mem, .host, .parts, .se, .fab, .faults, .twin, .trace] s (settleTwin s) := by
  unfold settleTwin
  dsimp only
  exact settleDetach_within.after (.iteThen (openGates_within.after .rfl) (mirrorFull_within.after (setTwin_within.after .rfl)))

/-! ## SessCmds -/

theorem loadModel_within {s : State} {c : Cmd} {p : Package} : Within [.fresh, .bar, .mem, .host, .parts, .se, .fab, .faults, .trace] s (loadModel s c p) := by
  obtain ⟨f, hf, hw⟩ := devWrite_abstract
  unfold loadModel
  rw [hf]
  extract_lets m
  split
  next st u hu =>
  have h : Within [.fresh, .bar, .mem, .faults, .trace] s u := .snd hu (.foldl2 (fun x a => hw) .rfl)
  refine .ite (reject_within.after h.mono) ?_
  split
  next kt v hv =>
  have k : Within [.fresh, .bar, .mem, .host, .parts, .se, .fab, .faults, .trace] s v := (Within.snd hv drawBelow_within).after h.mono
  dsimp only
  refine complete_within.after ?_
  split
  · exact mirrorSend_within.after (writeModel_within.after (putModel_within.after (hw.after k)))
  · exact writeModel_within.after (putModel_within.after (hw.after k))

theorem Within.modelCmd {id op : Nat} {f : State → Cmd → State} (hf : ∀ u c, Within P u (f u c)) (h : Within P s t) (hp : [Piece.host] ⊆ P := by decide) :
    Within P s (modelCmd t id op f) := by
  unfold Machine.modelCmd
  split
  · exact .ite h (.runCmd hf h hp)
  · exact h

theorem freeIndex_within {s : State} : Within [.fresh] s (freeIndex s).2 := by
  unfold freeIndex
  dsimp only
  exact drawBelow_within.after .rfl

theorem Within.sessCmd {c : Cmd} {param : List (Bool × Nat)} {conf : Session → List (Bool × W16 × Nat)} {room : Bool} {k : State → Nat → Session → State}
    (hk : ∀ u i x, Within P u (k u i x)) (h : Within P s t) (hp : .se :: cmdPieces ⊆ P := by decide) : Within P s (sessCmd t c param conf room k) := by
  have hc : cmdPieces ⊆ P := fun p m => hp (.tail _ m)
  unfold Machine.sessCmd
  split
  · exact .checked (fun u => .rfl) h hc
  · exact .checked (fun u => (cacheIn_within.mono (List.Subset.trans (by decide) hp)).trans (hk _ _ _)) h hc

theorem rewriteToks_within {s : State} {i : Nat} : Within [.fresh, .bar, .mem, .se, .faults, .trace] s (rewriteToks s i) := by
  unfold rewriteToks
  split
  · exact .rfl
  · dsimp only
    split
    · exact putSess_within.after .rfl
    next u hu =>
      refine .iterate (fun j v => ?_) ((ensureChunks_within _ hu).after (putSess_within.after .rfl))
      split
      · exact devWrite_within.after .rfl
      · exact .rfl

theorem setPool_within {s : State} {c : Cmd} : Within [.fresh, .bar, .mem, .host, .parts, .se, .fab, .faults, .trace] s (setPool s c) := by
  unfold setPool
  refine .ite .rfl ?_
  dsimp only
  exact complete_within.after (.foldl (fun s a => rewriteToks_within.after .rfl) (.se .rfl))

/-! ## Steps -/

theorem writeRecord_within {s : State} {part : Nat} {r : Ring} {hold start predicted : Nat} {es : List Line} : Within [.fresh, .bar, .mem, .host,
    .parts, .se, .fab, .faults, .twin, .trace] s (writeRecord s part r hold start predicted es) := by
  unfold writeRecord
  dsimp only
  exact gateAct_within.after (.se (traceEvent_within.after (wr64_within.after (mirrorSend_within.after (mirrorChange_within.after .rfl)))))

theorem takeStatus_within {s : State} {part : Nat} {r : Ring} {n : Nat} : Within [.se] s (takeStatus s part r n).2 := by
  unfold takeStatus
  dsimp only
  exact .se .rfl

theorem checkTrans_within {s : State} {i : Nat} : Within [.fresh, .bar, .mem, .se, .faults, .trace] s (checkTrans s i) := by
  unfold checkTrans
  split
  · exact .rfl
  · dsimp only
    exact .iteElse (readToks_within.after .rfl) (.ite (rewriteToks_within.after .rfl) (modSess_within.after .rfl))

theorem allocWork_within {s : State} {w : Work} : Within.Opt [.fresh, .bar, .mem, .se, .faults, .trace] s (allocWork s w) := by
  unfold allocWork
  split
  · exact .ofNone
  · exact ensureSpans_within.bind fun u => ensureSpans_within

theorem sitOut_within {s : State} {part i : Nat} : Within [.se] s (sitOut s part i) := by
  unfold sitOut
  dsimp only
  refine .ite (modSess_within.after (.ite .rfl (pressureT0_within.after .rfl))) ?_
  refine .ite (modSess_within.after .rfl) ?_
  split
  · exact modSess_within.after (modSess_within.after .rfl)
  · exact modSess_within.after .rfl

theorem gatherWorks_within {s : State} {part : Nat} {moved : List Nat} {xs : List (Nat × Session)} : Within [.fresh, .bar, .mem, .se, .faults, .trace] s (gatherWorks s part moved xs).2 := by
  unfold gatherWorks
  refine .foldl3 (fun x a => ?_) .rfl
  split
  · exact .rfl
  · split
    next u hu => exact modSess_within.after ((allocWork_within _ hu).mono)
    · exact sitOut_within.after .rfl

theorem startWorks_within {s : State} {part : Nat} {ring : Ring} : Within [.fresh, .bar, .mem, .se, .faults, .trace] s (startWorks s part ring).2 :=
    by
  unfold startWorks
  dsimp only
  exact gatherWorks_within.after (.foldl (fun s a => modSess_within.after .rfl) (.foldl (fun s a => checkTrans_within.after .rfl) .rfl))

theorem measureGroup_within {s : State} {run : StepRun} : Within [.fresh, .se] s (measureGroup s run) := by
  unfold measureGroup
  split
  · exact .rfl
  · refine .ite .rfl ?_
    dsimp only
    exact .iteElse (.iteElse (draw_within.after (draw_within.after .rfl)) (.se .rfl)) (.se .rfl)

theorem closeLayer_within {s : State} {part : Nat} {run : StepRun} {next : Option PlanItem} : Within [.fresh, .bar, .mem, .faults, .trace] s
    (closeLayer s part run next) := by
  unfold closeLayer
  split
  · exact .rfl
  · exact .ite .rfl (.foldl (fun s a => traceEvent_within.after .rfl) .rfl)

theorem halvesDone_within {s : State} {part : Nat} {run : StepRun} : Within.Opt [.sems] s (halvesDone s part run) := by
  unfold halvesDone
  refine .optIte .ofNone (.optIte (.ofSome .rfl) ?_)
  dsimp only
  exact .optIte (.ofSome (semTake_within.after .rfl)) .ofNone

theorem planNext_within {s : State} {part : Nat} {run : StepRun} : Within [.fresh, .bar, .mem, .cores, .nb, .host, .se, .faults, .trace] s (planNext s
    part run) := by
  unfold planNext
  split
  · exact putRun_within.after .rfl
  · dsimp only
    refine beginHalves_within.after ?_
    refine .ite2 ?_ (groupWorks_within.after (.foldl (fun s a => traceEvent_within.after .rfl) (bump_within.after (closeLayer_within.after
      (measureGroup_within.after .rfl)))))
    dsimp only
    exact .foldl (fun s a => traceEvent_within.after .rfl) (bump_within.after (closeLayer_within.after (measureGroup_within.after .rfl)))

theorem markRepair_within {s : State} {m : Nat} : Within [.se] s (markRepair s m) := by
  unfold markRepair
  split
  · refine .ite .rfl ?_
    dsimp only
    exact .se (putModel_within.after .rfl)
  · exact .rfl

theorem withholdSlot_within {s : State} {w : Work} {ms : List Nat} {kv : Bool} {x : Session} : Within [.se] s (withholdSlot s w ms kv x).1 := by
  unfold withholdSlot
  dsimp only
  split
  · dsimp only
    exact .iteThen (modSess_within.after (.foldl (fun s a => markRepair_within.after .rfl) .rfl)) (modSess_within.after .rfl)
  · dsimp only
    exact modSess_within.after (.iteThen (modSess_within.after (.foldl (fun s a => markRepair_within.after .rfl) .rfl)) (modSess_within.after .rfl))

theorem commitSlot_within {s : State} {part : Nat} {run : StepRun} {w : Work} {k : SlotResult} : Within [.fresh, .bar, .mem, .parts, .se, .fab, .faults, .trace] s (commitSlot s part run w k).1 := by
  unfold commitSlot
  split
  · exact .rfl
  · extract_lets r i has
    split
    extract_lets s1
    have h1 : Within [.fresh, .bar, .mem, .parts, .se, .fab, .faults, .trace] s s1 := writeKvs_within.after (writeKvs_within.after .rfl)
    split
    · exact h1
    split
    · exact withholdSlot_within.after h1
    split
    · exact modSess_within.after h1
    split
    extract_lets
    split
    extract_lets _ _ s2 s3 s4 s5 s6 s7 s8
    exact .iteElse (.iteThen (.iteThen (.iteThen (.iteThen (modSess_within.after (appendToks_within.after h1)) (tally_within.after .rfl)) (bump_within.after .rfl))
      (bump_within.after .rfl)) (bump_within.after .rfl)) (bump_within.after (bump_within.after .rfl))

/-! ## RegAccess -/

theorem setAccess_within {s : State} {b off : Nat} : Within [.bar] s (setAccess s b off) := by
  unfold setAccess
  dsimp only
  exact wf_within.after (.ite (wr_within.after .rfl) .rfl)

theorem setLatch_within {s : State} {a : Accessor} {off : Nat} {v : W32} : Within [.bar] s (setLatch s a off v) := by
  unfold setLatch
  dsimp only
  exact .bar .rfl

theorem dropLatch_within {s : State} {a : Accessor} {off : Nat} : Within [.bar] s (dropLatch s a off) := by
  unfold dropLatch
  exact .bar .rfl

theorem latchTime_within {s : State} : Within [.bar] s (latchTime s) := by
  unfold latchTime
  dsimp only
  exact wr64_within.after (wr_within.after (wr_within.after .rfl))

theorem regReadWord_within {s : State} {a : Accessor} {off : Nat} : Within [.fresh, .bar] s (regReadWord s a off).2 := by
  unfold regReadWord
  refine .ite2 .rfl ?_
  refine .ite2 ?_ ?_
  · dsimp only
    exact setAccess_within.after .rfl
  · refine .ite2 .rfl ?_
    refine .ite2 .rfl ?_
    refine .ite2 (draw_within.after .rfl) ?_
    dsimp only
    split
    · exact .rfl
    · refine .ite2 ?_ ?_
      · split
        · dsimp only
          exact dropLatch_within.after .rfl
        · exact .rfl
      · dsimp only
        exact .iteThen (.ite (latchTime_within.after .rfl) .rfl) (setLatch_within.after .rfl)

theorem regRead_within {s : State} {a : Accessor} {off : Nat} {be : BitVec 4} : Within [.fresh, .bar] s (regRead s a off be).2 := by
  unfold regRead
  refine .ite2 .rfl ?_
  refine .ite2 ?_ (regReadWord_within.after .rfl)
  dsimp only
  exact .ite (setAccess_within.after .rfl) .rfl

theorem semSnapshot_within {s : State} {w : W32} : Within [.bar, .trace] s (semSnapshot s w) := by
  unfold semSnapshot
  dsimp only
  exact .trace (wr64_within.after (wr_within.after (wr_within.after (wr_within.after (wr64_within.after (wr_within.after (wr_within.after .rfl)))))))

theorem histSelect_within {s : State} {w : W32} : Within [.bar] s (histSelect s w) := by
  unfold histSelect
  dsimp only
  exact .iterate (fun i s => wr_within.after .rfl) (wr_within.after .rfl)

theorem traceStop_within {s : State} : Within [.bar] s (traceStop s) := by
  unfold traceStop
  exact wf_within.after .rfl

theorem armInjection_within {s : State} : Within [.bar, .trace] s (armInjection s) := by
  unfold armInjection
  dsimp only
  exact .ite .rfl (.trace (wf_within.after .rfl))

theorem startAssay_within {s : State} : Within [.bar, .pwr] s (startAssay s) := by
  unfold startAssay
  refine .ite .rfl ?_
  dsimp only
  exact .pwr (wf_within.after .rfl)

theorem fieldWrite_within {s : State} {r : RegRow} {off : Nat} {mask : Nat} {w : W32} : Within [.bar] s (fieldWrite s r off mask w) := by
  unfold fieldWrite
  dsimp only
  exact wr_within.after .rfl

theorem regPut_within {s : State} {r : RegRow} {off seen : Nat} {w : W32} : Within [.bar, .host, .faults, .pwr, .trace] s (regPut s r off seen w) :=
    by
  unfold regPut
  refine .ite (aqWrite_within.after .rfl) ?_
  refine .ite (semSnapshot_within.after .rfl) ?_
  refine .ite (histSelect_within.after .rfl) ?_
  refine .ite (.ite (traceStop_within.after .rfl) .rfl) ?_
  refine .ite ?_ ?_
  · dsimp only
    exact .iteThen (fieldWrite_within.after .rfl) (armInjection_within.after .rfl)
  · refine .ite ?_ (.ite (.ite .rfl (fieldWrite_within.after .rfl)) (.ite (.ite .rfl (fieldWrite_within.after .rfl)) (.ite (.ite
      (setAccess_within.after .rfl) (fieldWrite_within.after .rfl)) (fieldWrite_within.after .rfl))))
    dsimp only
    exact .iteThen (fieldWrite_within.after .rfl) (startAssay_within.after .rfl)

theorem regWriteWord_within {s : State} {off : Nat} {w : W32} : Within [.bar, .host, .faults, .pwr, .trace] s (regWriteWord s off w) := by
  unfold regWriteWord
  refine .ite .rfl ?_
  refine .ite (setAccess_within.after .rfl) ?_
  refine .ite .rfl ?_
  dsimp only
  split
  · exact .rfl
  · exact .ite (regPut_within.after .rfl) (.ite .rfl (.ite (.bar (wr64_within.after .rfl)) (.bar .rfl)))

theorem regWrite_within {s : State} {off : Nat} {be : BitVec 4} {w : W32} : Within [.bar, .host, .faults, .pwr, .trace] s (regWrite s off be w) := by
  unfold regWrite
  exact .ite .rfl (.ite (.ite (setAccess_within.after .rfl) .rfl) (regWriteWord_within.after .rfl))

theorem boardCap_within {s : State} {w : W32} : Within [.bar] s (boardCap s w) := by
  unfold boardCap
  exact wr_within.after .rfl

theorem rcvKindPut_within {s : State} {w : W32} : Within [.pins] s (rcvKindPut s w) := by
  unfold rcvKindPut
  dsimp only
  exact .pins .rfl

theorem sbWrite_within {s : State} {off : Nat} {w : W32} : Within [.bar, .pins] s (sbWrite s off w) := by
  unfold sbWrite
  split
  · exact boardCap_within.after .rfl
  · exact .ite .rfl (rcvKindPut_within.after .rfl)
  · exact .rfl

theorem returned_within {x : W32 × State} : Within [.bar] x.2 (returned x) := .bar .rfl

theorem corruptSector_within {s : State} {a n : Nat} : Within [.fresh, .bar, .mem, .faults, .trace] s (corruptSector s a n) := by
  unfold corruptSector
  dsimp only
  split
  · exact drainWrites_within.after (evictLine_within.after .rfl)
  · exact .iteElse (drawBelow_within.after (drawBelow_within.after (drawBelow_within.after (drawBelow_within.after (drainWrites_within.after
      (evictLine_within.after .rfl)))))) (setSecErr_within.after .rfl)

/-! ## BootOps -/

theorem verifyKind_within {s : State} {kind : Nat} : Within [.bar, .faults, .trace] s (verifyKind s kind) := by
  unfold verifyKind
  dsimp only
  split
  · exact wf_within.after (wf_within.after (wf_within.after (.foldl (fun s a => logErr_within.after .rfl) .rfl)))
  · exact wf_within.after (.foldl (fun s a => logErr_within.after .rfl) .rfl)

/-- A loss of power leaves the grade, the queue, host memory and what manufacture fixed (R25, R402). -/
theorem powerLost_within {s : State} : Within everyPiece s (powerLost s) where
  pending := by rfl
  grade := by rfl
  same p hp := absurd (by cases p <;> decide) hp
  mem _ := memReset_wf
  host := id
  fused h := h

theorem railsOff_within {s : State} : Within [.fresh, .time, .bar, .mem, .cores, .sems, .hoists, .nb, .host, .parts, .se, .fab, .faults, .twin, .pwr,
    .sec, .flash, .pins, .trace] s (railsOff s) := by
  unfold railsOff
  dsimp only
  exact wr_within.after (.pins (powerLost_within.after .rfl))

theorem railsUp_within {s : State} {vinMv : Nat} : Within [.fresh, .time, .bar, .mem, .cores, .sems, .hoists, .nb, .host, .parts, .se, .fab, .faults,
    .twin, .pwr, .sec, .flash, .pins, .trace] s (railsUp s vinMv) := by
  unfold railsUp
  dsimp only
  exact .pins (powerLost_within.after .rfl)

theorem resetAll_within {s : State} {cause : Nat} : Within [.fresh, .time, .bar, .mem, .cores, .sems, .hoists, .nb, .host, .parts, .se, .fab, .faults,
    .twin, .pwr, .sec, .flash, .pins, .trace] s (resetAll s cause) := by
  unfold resetAll
  dsimp only
  exact .several (powerLost_within.after .rfl)

theorem resetKeepingTime_within {s : State} {cause : Nat} : Within [.fresh, .time, .bar, .mem, .cores, .sems, .hoists, .nb, .host, .parts, .se, .fab,
    .faults, .twin, .pwr, .sec, .flash, .pins, .trace] s (resetKeepingTime s cause) := by
  unfold resetKeepingTime
  dsimp only
  exact wr_within.after (wr_within.after (resetAll_within.after .rfl))

theorem handOff_within {s : State} {tag : Nat} : Within [.bar, .parts, .fab, .faults, .trace] s (handOff s tag) := by
  unfold handOff
  exact .ite (logErr_within.after (twinSend_within.after .rfl)) .rfl

theorem deviceReset_within {s : State} {cause : Nat} {tag : Nat} : Within [.fresh, .time, .bar, .mem, .cores, .sems, .hoists, .nb, .host, .parts, .se,
    .fab, .faults, .twin, .pwr, .sec, .flash, .pins, .trace] s (deviceReset s cause tag) := by
  unfold deviceReset
  dsimp only
  exact resetKeepingTime_within.after (.iteThen (.ite (handOff_within.after .rfl) .rfl) (logErr_within.after .rfl))

theorem thermalShutdown_within {s : State} {sensor : Nat} {temp : Int} : Within [.bar, .mem, .cores, .sems, .hoists, .nb, .host, .parts, .se, .fab, .faults, .twin, .pins, .trace] s (thermalShutdown s sensor temp) := by
  unfold thermalShutdown
  extract_lets s1 s2 s3
  have h : Within [.bar, .mem, .cores, .sems, .hoists, .nb, .host, .parts, .se, .fab, .faults, .twin, .pins, .trace] s s3 :=
    handOff_within.after (.iteThen (logErr_within.after .rfl) (logErr_within.after (wf_within.after .rfl)))
  exact wr_within.after (h.trans ⟨by rfl, by rfl, fun p hp => by cases p <;> first | rfl | exact absurd (by decide) hp, fun _ => memReset_wf, id, id⟩)

theorem shutdownCompare_within {s : State} {t : Temps} : Within [.bar, .mem, .cores, .sems, .hoists, .nb, .host, .parts, .se, .fab, .faults, .twin,
    .pins, .trace] s (shutdownCompare s t) := by
  unfold shutdownCompare
  refine .ite .rfl ?_
  refine .ite (.ite (.pins .rfl) .rfl) ?_
  split
  · exact thermalShutdown_within.after .rfl
  · exact .rfl

/-! ## BootRows -/

theorem haltBoot_within {s : State} {code detail : Nat} : Within [.bar] s (haltBoot s code detail) := by
  unfold haltBoot
  exact wf_within.after (wf_within.after .rfl)

theorem phaseRom_within {s : State} : Within [.fresh, .bar, .faults, .sec, .trace] s (phaseRom s) := by
  unfold phaseRom
  dsimp only
  exact verifyKind_within.after (wf_within.after (draw_within.after (.security .rfl)))

theorem phaseFirmware_within {s : State} : Within [.bar, .faults, .trace] s (phaseFirmware s) := by
  unfold phaseFirmware
  dsimp only
  exact wr_within.after (verifyKind_within.after (verifyKind_within.after .rfl))

theorem commit_serial (f : Flash) (r : FlashRec) : (r.commit f).serial = f.serial := by
  unfold FlashRec.commit
  split <;> rfl
theorem commit_certs (f : Flash) (r : FlashRec) : (r.commit f).certs = f.certs := by
  unfold FlashRec.commit
  split <;> rfl
theorem commitAll_serial (f : Flash) : f.commitAll.serial = f.serial := by
  unfold Flash.commitAll
  refine List.foldlRecOn (motive := fun x : Flash => x.serial = f.serial) f.writing FlashRec.commit (by rfl) fun x hx r _ => ?_
  rw [commit_serial, hx]
theorem commitAll_certs (f : Flash) : f.commitAll.certs = f.certs := by
  unfold Flash.commitAll
  refine List.foldlRecOn (motive := fun x : Flash => x.certs = f.certs) f.writing FlashRec.commit (by rfl) fun x hx r _ => ?_
  rw [commit_certs, hx]

theorem phaseRecords_within {s : State} : Within [.bar, .pwr, .flash] s (phaseRecords s) := by
  unfold phaseRecords
  dsimp only
  refine wf_within.after (.pwr (.foldl (fun s a => wr_within.after .rfl) (.flashRest .rfl ?_ ?_)))
  · rw [commitAll_serial]
  · rw [commitAll_certs]

theorem phaseStacks_within {s : State} : Within [.bar, .mem] s (phaseStacks s) := by
  unfold phaseStacks
  dsimp only
  exact .iterate (fun i s => .iteThen (wf_within.after (wf_within.after .rfl)) (wf_within.after .rfl)) (.memRest .rfl)

theorem phaseClear_within {s : State} : Within [.mem, .sems] s (phaseClear s) := by
  unfold phaseClear
  exact Within.rfl.trans ⟨by rfl, by rfl, fun p hp => by cases p <;> first | rfl | exact absurd (by decide) hp, fun _ => by rfl, id, id⟩

theorem phaseCores_within {s : State} {fails : List Nat} : Within [.fresh, .bar, .cores, .sems, .faults, .flash, .trace] s (phaseCores s fails) := by
  unfold phaseCores
  dsimp only
  exact .cores (.foldl (fun s a => .ite (fenceCore_within.after .rfl) .rfl) .rfl)

theorem noteCal_within {s : State} {kind : Nat} {r : CalRec} : Within [.pwr] s (noteCal s kind r) := by
  unfold noteCal
  dsimp only
  exact .pwr .rfl

theorem setFmax_within {s : State} {new : Nat} : Within [.bar, .faults, .trace] s (setFmax s new) := by
  unfold setFmax
  dsimp only
  exact .iteThen (wr_within.after .rfl) (logErr_within.after .rfl)

theorem phaseAssay_within {s : State} {vf : List Nat} : Within [.bar, .faults, .pwr, .trace] s (phaseAssay s vf) := by
  unfold phaseAssay
  dsimp only
  exact setFmax_within.after (noteCal_within.after .rfl)

theorem raiseFloors_within {s : State} : Within [.sec] s (raiseFloors s) := by
  unfold raiseFloors
  dsimp only
  exact .ite .rfl (.security .rfl)

theorem phaseServices_within {s : State} : Within [.bar, .cores, .parts, .se, .faults, .sec] s (phaseServices s) := by
  unfold phaseServices
  dsimp only
  exact .iteElse (wr_within.after (wr_within.after (applyBlock_within.after (.se .rfl)))) (raiseFloors_within.after .rfl)

theorem rcvAnswer_within {s : State} {st : W16} {detail : Nat} : Within [.pins] s (rcvAnswer s st detail) := by
  unfold rcvAnswer
  exact .pins .rfl

theorem rcvBegin_within {s : State} {kind : Nat} : Within [.flash, .pins] s (rcvBegin s kind) := by
  unfold rcvBegin
  refine .ite (rcvAnswer_within.after .rfl) ?_
  dsimp only
  exact rcvAnswer_within.after (.several .rfl)

theorem rcvCommit_within {s : State} {kind : Nat} : Within [.bar, .flash, .pins] s (rcvCommit s kind) := by
  unfold rcvCommit
  refine .ite (rcvAnswer_within.after .rfl) ?_
  dsimp only
  split
  · exact rcvAnswer_within.after .rfl
  · exact rcvAnswer_within.after (wf_within.after (.several .rfl))

theorem rcvCtrl_within {s : State} {w : W32} : Within [.bar, .flash, .pins] s (rcvCtrl s w) := by
  unfold rcvCtrl
  refine .ite .rfl ?_
  dsimp only
  exact .iteThen (.iteThen (rcvKindPut_within.after .rfl) (rcvBegin_within.after .rfl)) (rcvCommit_within.after .rfl)

/-! ## FabricRx -/

theorem portTally_within {s : State} {k i n : Nat} : Within [.bar] s (portTally s k i n) := by
  unfold portTally
  exact bump_within.after .rfl

theorem markPerf_within {s : State} {peer cls p : Nat} : Within [.fab] s (markPerf s peer cls p) := by
  unfold markPerf
  dsimp only
  exact .ite .rfl (setFlow_within.after .rfl)

theorem sendControl_within {s : State} {peer cls n : Nat} {x : Wire → TxFrame} : Within [.bar, .fab] s (sendControl s peer cls n x) := by
  unfold sendControl
  split
  · exact .rfl
  · exact portTally_within.after (sendOut_within.after .rfl)

theorem Within.rxData {f : Frame} {perform : State → Nat → State} (hk : ∀ u p, Within P u (perform u p)) (h : Within P s t)
    (hp : [Piece.bar, .fab] ⊆ P := by decide) : Within P s (rxData t f perform) := by
  refine h.trans ?_
  have hf : ∀ {u v : State}, Within [.bar, .fab] u v → Within P u v := fun k => k.mono hp
  have hs : Within P t (if f.ce then portTally (portTally t f.port 3 1) f.port 9 1 else portTally t f.port 3 1) :=
    hf (.iteThen (portTally_within.after .rfl) (portTally_within.after .rfl))
  unfold Machine.rxData
  extract_lets k drop s1 s2 fl pair held fl1 fl2
  refine .ite .rfl (.ite (hf (.fab .rfl)) (.ite (hf (portTally_within.after .rfl)) (.ite (hs.trans (hf (portTally_within.after .rfl)))
    (.ite (hs.trans (hf (sendControl_within.after .rfl))) ?_))))
  split
  · exact hs.trans (hf (setFlow_within.after .rfl))
  · exact .ite (hs.trans (hf (setFlow_within.after .rfl))) (.ite (hs.trans (hf (setFlow_within.after .rfl)))
      ((hs.trans (hf (setFlow_within.after .rfl))).trans (hk _ _)))

theorem rxAccess_within {s : State} {src cls : Nat} {op : OpHeader} {perm n : Nat} {allowed : List Range} : Within [.bar, .faults, .trace] s (rxAccess
    s src cls op perm n allowed).2 := by
  unfold rxAccess
  dsimp only
  refine .ite2 .rfl ?_
  refine .ite2 .rfl ?_
  refine .ite2 ?_ .rfl
  dsimp only
  exact addressRefused_within.after .rfl

theorem rxCheck_within {s : State} {src cls : Nat} {op : OpHeader} {payload : List Byte} : Within [.bar, .faults, .trace] s (rxCheck s src cls op
    payload).2 := by
  unfold rxCheck
  dsimp only
  refine .ite2 .rfl ?_
  split
  · exact .ite2 .rfl (rxAccess_within.after .rfl)
  · refine .ite2 .rfl ?_
    split
    · dsimp only
      exact (Within.snd (by assumption) rxAccess_within).after .rfl
    · exact rxAccess_within.after .rfl
  · exact .rfl
  · exact .ite2 .rfl (.ite2 .rfl (.ite2 .rfl (rxAccess_within.after .rfl)))
  · split
    · dsimp only
      exact (Within.snd (by assumption) rxAccess_within).after .rfl
    · exact rxAccess_within.after .rfl
  · refine .ite2 .rfl ?_
    split
    · dsimp only
      exact (Within.snd (by assumption) rxAccess_within).after .rfl
    · exact rxAccess_within.after .rfl
  · exact .ite2 .rfl .rfl
  · exact .rfl

theorem rxPut_within {s : State} {op : OpHeader} {bs : List Byte} : Within [.fresh, .bar, .mem, .cores, .host, .faults, .pwr, .trace] s (rxPut s op
    bs).2 := by
  unfold rxPut
  dsimp only
  split
  · dsimp only
    exact .iterate (fun i s => regWriteWord_within.after .rfl) .rfl
  · dsimp only
    exact localWrite_within.after .rfl

theorem localRead_abstract : ∃ f, localRead = f ∧ ∀ {s a n rq}, Within [.fresh, .bar, .mem, .faults, .trace] s (f s a n rq).2.2 := ⟨_, rfl, localRead_within⟩

theorem rxGet_within {s : State} {src : Nat} {op : OpHeader} : Within [.fresh, .bar, .mem, .faults, .trace] s (rxGet s src op).2.2 := by
  obtain ⟨f, hf, hr⟩ := localRead_abstract
  obtain ⟨l, hl⟩ : ∃ l, localRange = l := ⟨_, rfl⟩
  obtain ⟨g, hg, hw⟩ : ∃ g, regReadWord = g ∧ ∀ {s a o}, Within [.fresh, .bar, .mem, .faults, .trace] s (g s a o).2 := ⟨_, rfl, regReadWord_within.mono⟩
  unfold rxGet
  rw [hf, hl, hg]
  dsimp only
  split
  · exact .bar (.foldl2 (fun x a => hw.after .rfl) .rfl)
  · exact hr.after .rfl

theorem rxAdd_within {s : State} {op : OpHeader} {bs : List Byte} : Within [.fresh, .bar, .mem, .faults, .trace] s (rxAdd s op bs).2 := by
  unfold rxAdd
  dsimp only
  refine .foldl2 ?_ .rfl
  intro x a
  dsimp only
  exact amoAt_within.after .rfl

theorem rxError_within {s : State} {src cls : Nat} {op : OpHeader} {p : Nat} {st : W16} {reason : Nat} : Within [.bar, .parts, .fab, .faults, .trace]
    s (rxError s src cls op p st reason) := by
  unfold rxError
  dsimp only
  exact sendResponse_within.after (logFabric_within.after .rfl)

theorem rxSignal_within {s : State} {src : Nat} {op : OpHeader} : Within [.bar, .cores, .sems, .faults, .trace] s (rxSignal s src op) := by
  unfold rxSignal
  exact semSignal_within.after .rfl

theorem rxEnd_within {x : Option (W16 × Nat) × State} {src cls : Nat} {op : OpHeader} {p : Nat} : Within [.bar, .parts, .fab, .faults, .trace] x.2 (rxEnd x src cls op p) := by
  unfold rxEnd
  split
  · exact rxError_within.after .rfl
  · exact markPerf_within.after .rfl

theorem rxCommand_within {s : State} {src cls : Nat} {payload : List Byte} {p : Nat} : Within [.host] s (rxCommand s src cls payload p) := by
  unfold rxCommand
  exact .hostRest .rfl

theorem rxPerform_within {s : State} {src cls : Nat} {op : OpHeader} {payload : List Byte} {p : Nat} :
    Within [.fresh, .bar, .mem, .cores, .sems, .host, .parts, .fab, .faults, .pwr, .trace] s (rxPerform s src cls op payload p) := by
  unfold rxPerform
  refine .ite (rxError_within.after .rfl) ?_
  split
  next st reason u hu => exact rxError_within.after ((Within.snd hu rxCheck_within).after .rfl)
  next u hu =>
    have hc : Within [.fresh, .bar, .mem, .cores, .sems, .host, .parts, .fab, .faults, .pwr, .trace] s u := (Within.snd hu rxCheck_within).mono
    have hput : Within [.fresh, .bar, .mem, .cores, .sems, .host, .parts, .fab, .faults, .pwr, .trace] s (if payload = [] then ((none : Option (W16 × Nat)), u) else rxPut u op payload).2 :=
      .ite2 hc (rxPut_within.after hc)
    split
    · exact rxEnd_within.after hput
    · exact rxEnd_within.after (rxAdd_within.after hc)
    · exact markPerf_within.after (rxSignal_within.after hc)
    · split
      next st reason v hv => exact rxError_within.after (.snd hv hput)
      next v hv => exact markPerf_within.after (.iteElse (.snd hv hput) (rxSignal_within.after .rfl))
    · split
      next st reason bs v hv => exact rxError_within.after ((Within.snd2 hv rxGet_within).after hc)
      next bs v hv => exact sendResponse_within.after ((Within.snd2 hv rxGet_within).after hc)
    · dsimp only
      exact .ite (sendResponse_within.after (amoAt_within.after hc)) (rxError_within.after (amoAt_within.after hc))
    · exact rxCommand_within.after hc

theorem rxRequest_within {s : State} {f : Frame} {p : Nat} : Within [.fresh, .bar, .mem, .cores, .sems, .host, .parts, .fab, .faults, .pwr, .trace] s
    (rxRequest s f p) := by
  unfold rxRequest
  refine .ite ?_ (rxPerform_within.after .rfl)
  dsimp only
  exact setFlow_within.after .rfl

theorem rxRelease_within {s : State} : Within [.fresh, .bar, .mem, .cores, .sems, .host, .parts, .fab, .faults, .pwr, .trace] s (rxRelease s) := by
  unfold rxRelease
  dsimp only
  refine .foldlFst ?_ .rfl
  intro x a
  split
  · exact .rfl
  · dsimp only
    exact rxPerform_within.after (setFlow_within.after .rfl)

theorem rxReply_within {s : State} {f : Frame} {p kind : Nat} {st : W16} {detail : W32} {data : List Byte} {operand : W64} : Within [.bar, .cores,
    .hoists, .fab, .faults, .twin, .trace] s (rxReply s f p kind st detail data operand) := by
  unfold rxReply
  dsimp only
  refine markPerf_within.after ?_
  split
  · exact .rfl
  · exact .ite (settleOps_within.after (pktComplete_within.after (setFlow_within.after .rfl))) (setFlow_within.after .rfl)

/-! ## FabricRows -/

theorem rxKind_within {s : State} {f : Frame} {k : Byte} : Within [.fresh, .bar, .mem, .cores, .sems, .host, .parts, .fab, .faults, .pwr, .trace] s (rxKind s f k) := by
  unfold rxKind
  exact .ite (.rxData (fun u p => rxRequest_within.after .rfl) .rfl) .rfl

theorem settleResponses_within {s : State} {peer cls : Nat} : Within [.fab] s (settleResponses s peer cls) := by
  unfold settleResponses
  dsimp only
  exact .foldl (fun s a => markPerf_within.after .rfl) (setFlow_within.after .rfl)

theorem ackApply_within {s : State} {peer cls : Nat} {b : AckBody} : Within [.bar, .cores, .hoists, .parts, .fab, .faults, .twin, .trace] s (ackApply
    s peer cls b) := by
  unfold ackApply
  dsimp only
  exact .ite .rfl (pump_within.after (settleResponses_within.after (settleOps_within.after (.foldl (fun s a => pktComplete_within.after .rfl)
    (setFlow_within.after .rfl)))))

theorem resend_within {s : State} {peer cls psn : Nat} : Within [.bar, .fab] s (resend s peer cls psn) := by
  unfold resend
  dsimp only
  split
  · exact .rfl
  · exact sendData_within.after (setFlow_within.after .rfl)

theorem logPort_within {s : State} {k subs detail : Nat} : Within [.bar, .faults, .trace] s (logPort s k subs detail) := by
  unfold logPort
  exact logErr_within.after .rfl

theorem resolve_within {s : State} {n : Neighbour} : Within [.fab] s (resolve s n) := by
  unfold resolve
  refine .ite .rfl ?_
  refine .ite (.ite (txPush_within.after .rfl) .rfl) ?_
  dsimp only
  exact .fab .rfl

theorem resetFlows_within {s : State} {st : W16} {detail : W32} {p : Flow → Bool} : Within [.bar, .cores, .hoists, .fab, .faults, .twin, .trace] s
    (resetFlows s st detail p) := by
  unfold resetFlows
  exact .foldl (fun s a => flowReset_within.after .rfl) .rfl

/-! ## TensorOps -/

theorem mvRead_within {s : State} {d : Line} {places : MvPlaces} {a n code : Nat} : Within [.fresh, .bar, .mem, .faults, .trace] s (mvRead s d places
    a n code).2 := by
  unfold mvRead
  refine .ite2 .rfl ?_
  split
  · refine .ite2 ?_ ?_
    · dsimp only
      exact addressRefused_within.after .rfl
    · dsimp only
      exact devRead_within.after .rfl
  · dsimp only
    exact localRead_within.after .rfl
  · dsimp only
    exact localRead_within.after .rfl
  · exact .rfl

theorem Within.mvBind {α β : Type} {r : Except MvFail α × State} {k : α → State → Except MvFail β × State} (h : Within P s r.2)
    (hk : ∀ x u, Within P u (k x u).2) : Within P s (mvBind r k).2 := by
  unfold Machine.mvBind
  split
  · exact h
  · exact h.trans (hk _ _)

theorem mvIndices_within {s : State} {d : Line} {t : TDesc} {code : Nat} : Within [.fresh, .bar, .mem, .faults, .trace] s (mvIndices s d t code).2 :=
    by
  unfold mvIndices
  exact .ite2 .rfl (.mvBind (mvRead_within.after .rfl) (fun x u => .rfl))

theorem mvCheck_within {s : State} {d : Line} {core : Option Nat} : Within [.fresh, .bar, .mem, .faults, .trace] s (mvCheck s d core).2 := by
  unfold mvCheck
  extract_lets fill rem srcRem bad
  refine .ite2 .rfl (.ite2 .rfl ?_)
  have h (m : Nat) (n) (v) : Within [.fresh, .bar, .mem, .faults, .trace] v (mvRead v d (.desc core) m 128 n).2 := mvRead_within.mono
  split
  next r u hu =>
  replace h1 := Within.snd hu (h _ _ _)
  split
  · exact h1
  · extract_lets dst rank
    refine .ite2 h1 (.ite2 h1 ?_)
    split
    next r' u' hu' =>
    have h2 : Within [.fresh, .bar, .mem, .faults, .trace] s u' := Within.snd hu' (.ite2 h1 (h1.trans (h _ _ _)))
    split
    · exact h2
    · extract_lets src code
      split
      next ri u'' hu'' =>
      have h3 : Within [.fresh, .bar, .mem, .faults, .trace] u' u'' :=
          Within.snd hu'' (.mvBind (.ite2 .rfl mvIndices_within) fun si v => .mvBind mvIndices_within fun di w => .rfl)
      have h4 := h2.trans h3
      clear_value code
      split
      · exact h2
      · split
        · exact h4
        · split <;> exact h4

/-! ## Hoist -/

/-- Unfolded as a whole, as `writeModel` is. -/
theorem mvReadSector_within {s : State} {d : Line} {a : Nat} : Within [.fresh, .bar, .mem, .faults, .trace] s (mvReadSector s d a).2.2 := by
  suffices h : ∀ f, f = mvReadSector → Within [.fresh, .bar, .mem, .faults, .trace] s (f s d a).2.2 from h _ rfl
  intro f hf
  obtain ⟨g, hg, hr⟩ := localRead_abstract
  obtain ⟨k, hk, hs⟩ : ∃ f, sliceRead = f ∧ ∀ {s a rq}, Within [.fresh, .bar, .mem, .faults, .trace] s (f s a rq).2.2 := ⟨_, rfl, sliceRead_within.mono⟩
  obtain ⟨l, hl⟩ : ∃ l, localRange = l := ⟨_, rfl⟩
  delta mvReadSector at hf
  rw [hf, hg, hk, hl]
  dsimp only
  split
  · split
    · exact addressRefused_within.after .rfl
    · exact hs.after .rfl
  · exact hr.after .rfl
  · exact hr.after .rfl
  · exact .rfl

theorem mvReadSector_abstract : ∃ f, mvReadSector = f ∧ ∀ {s d a}, Within [.fresh, .bar, .mem, .faults, .trace] s (f s d a).2.2 := ⟨_, rfl, mvReadSector_within⟩

theorem mvFetch_within {s : State} {d : Line} {need : List Nat} {x : MvSt} : Within [.fresh, .bar, .mem, .faults, .trace] s (mvFetch s d need x).2.2 := by
  obtain ⟨f, hf, hr⟩ := mvReadSector_abstract
  unfold mvFetch
  rw [hf]
  refine .foldl3 (fun x a => ?_) .rfl
  dsimp only
  split
  · exact hr.after .rfl
  · exact hr.after .rfl

theorem mvDraw_within {s : State} {hoist : Nat} {t : TDesc} : Within [.fresh, .hoists] s (mvDraw s hoist t).2 := by
  unfold mvDraw
  refine .ite2 ?_ .rfl
  dsimp only
  refine .hoists ?_
  split
  · exact .rfl
  · exact draw_within.after .rfl

theorem mvPlain_within {s : State} {h : Nat} {p : MvPlan} {code : Nat} {xs : List (List Nat × FVal)} : Within [.fresh, .hoists] s (mvPlain s h p code
    xs).2 := by
  unfold mvPlain
  refine .foldl2 ?_ .rfl
  intro x a
  dsimp only
  refine .ite2 .rfl ?_
  dsimp only
  exact mvDraw_within.after .rfl

theorem mvBlock_within {s : State} {h : Nat} {d : Line} {p : MvPlan} {far : Option (Tab Byte)} {xs lost : List (List Nat × FVal)} {o : MvOut} : Within
    [.fresh, .bar, .mem, .hoists, .faults, .trace] s (mvBlock s h d p far xs lost o).2 := by
  unfold mvBlock
  dsimp only
  refine .ite2 .rfl ?_
  refine .ite2 ?_ ?_
  · dsimp only
    split
    · exact .rfl
    · exact mvFetch_within.after .rfl
  · dsimp only
    refine .foldl2 ?_ ?_
    · intro x a
      dsimp only
      exact mvDraw_within.after .rfl
    · dsimp only
      refine .foldl2 ?_ ?_
      · intro x a
        dsimp only
        exact mvDraw_within.after .rfl
      · dsimp only
        split
        · exact .rfl
        · exact mvFetch_within.after .rfl

theorem mvScaled_within {s : State} {h : Nat} {d : Line} {p : MvPlan} {far : Option (Tab Byte)} {xs lost : List (List Nat × FVal)} : Within [.fresh,
    .bar, .mem, .hoists, .faults, .trace] s (mvScaled s h d p far xs lost).2 := by
  unfold mvScaled
  dsimp only
  exact .foldl2 (fun x a => mvBlock_within.after .rfl) .rfl

theorem mvWinners_within {s : State} {xs : List (List Nat × FVal)} : Within [.fresh] s (mvWinners s xs).2 := by
  unfold mvWinners
  refine .foldl2 ?_ .rfl
  intro x a
  dsimp only
  split
  · dsimp only
    exact drawBelow_within.after .rfl
  · exact .rfl

theorem mvOverlap_within {s : State} {t : TDesc} {src : List Nat} {o : MvOut} : Within [.fresh] s (mvOverlap s t src o).2 := by
  unfold mvOverlap
  refine .ite2 .rfl ?_
  dsimp only
  refine .foldl2 ?_ ?_
  · intro x a
    refine .ite2 ?_ .rfl
    dsimp only
    exact draw_within.after .rfl
  · dsimp only
    refine .foldl2 ?_ .rfl
    intro x a
    refine .ite2 ?_ .rfl
    dsimp only
    exact draw_within.after .rfl

theorem mvWriteSector_within {s : State} {d : Line} {sec : Nat} {bs : Tab (Nat × Nat)} {x : MvSt} :
    Within [.fresh, .bar, .mem, .cores, .host, .faults, .trace] s (mvWriteSector s d sec bs x).2 := by
  obtain ⟨f, hf, hr⟩ := mvReadSector_abstract
  obtain ⟨g, hg, hs⟩ : ∃ f, sliceWrite = f ∧ ∀ {s a n m rq}, Within [.fresh, .bar, .mem, .faults, .trace] s (f s a n m rq).2 := ⟨_, rfl, sliceWrite_within.mono⟩
  obtain ⟨k, hk, hl⟩ : ∃ f, localWrite = f ∧ ∀ {s a bs rq}, Within [.fresh, .bar, .mem, .cores, .host, .faults, .trace] s (f s a bs rq).2 := ⟨_, rfl, localWrite_within.mono⟩
  obtain ⟨l, hl'⟩ : ∃ l, localRange = l := ⟨_, rfl⟩
  unfold mvWriteSector
  rw [hf, hg, hk, hl']
  extract_lets a off part
  split
  next st code old u hu =>
  have h : Within [.fresh, .bar, .mem, .cores, .host, .faults, .trace] s u := by
    refine (Within.snd2 (Q := [.fresh, .bar, .mem, .faults, .trace]) hu ?_).mono
    split
    · exact hr
    · exact .rfl
  refine .ite2 h ?_
  dsimp only
  split
  · exact .ite2 (addressRefused_within.after h) (hs.after h)
  · exact .foldl2 (fun x i => .ite2 (hl.after .rfl) .rfl) h
  · exact .foldl2 (fun x i => .ite2 (hl.after .rfl) .rfl) h
  · exact h

theorem mvStore_within {s : State} {d : Line} {t : TDesc} {o : MvOut} : Within [.fresh, .bar, .mem, .cores, .host, .faults, .trace] s (mvStore s d t
    o).2 := by
  unfold mvStore
  dsimp only
  exact .foldl2 (fun x a => mvWriteSector_within.after .rfl) .rfl

theorem mvAdd_within {s : State} {d : Line} {t : TDesc} {o : MvOut} {src : List Nat} : Within [.fresh, .bar, .mem, .faults, .trace] s (mvAdd s d t o
    src).2 := by
  unfold mvAdd
  refine .foldl2 ?_ .rfl
  intro x a
  dsimp only
  split
  · refine .ite2 ?_ ?_
    · dsimp only
      exact addressRefused_within.after .rfl
    · refine .ite2 ?_ ?_
      · dsimp only
        exact devWrite_within.after .rfl
      · dsimp only
        exact amoAt_within.after .rfl
  · exact .rfl

theorem mvSend_within {s : State} {id node cls : Nat} {part : Nat} {ps : List (OpHeader × List Byte)} : Within [.bar, .hoists, .parts, .fab, .faults,
    .trace] s (mvSend s id node cls part ps) := by
  unfold mvSend
  split
  · exact .rfl
  · exact .ite (modMove_within.after (logFabric_within.after .rfl)) (.foldl (fun s a => levelSend_within.after .rfl) .rfl)

theorem mvPerform_within {s : State} {m : Move} : Within [.fresh, .bar, .mem, .cores, .hoists, .host, .parts, .fab, .faults, .trace] s (mvPerform s m)
    := by
  unfold mvPerform
  dsimp only
  refine .iteElse ?_ (mvSend_within.after .rfl)
  refine modMove_within.after ?_
  refine .ite2 ?_ ?_
  · dsimp only
    refine .iteElse ?_ (bump_within.after .rfl)
    refine .iteElse ?_ (bump_within.after .rfl)
    refine mvOverlap_within.after ?_
    refine .ite2 (mvScaled_within.after (.ite2 (mvWinners_within.after .rfl) .rfl)) ?_
    dsimp only
    exact mvPlain_within.after (mvPlain_within.after (.ite2 (mvWinners_within.after .rfl) .rfl))
  · refine .ite2 ?_ ?_
    · refine mvAdd_within.after ?_
      refine .iteElse ?_ (bump_within.after .rfl)
      refine .iteElse ?_ (bump_within.after .rfl)
      refine mvOverlap_within.after ?_
      refine .ite2 (mvScaled_within.after (.ite2 (mvWinners_within.after .rfl) .rfl)) ?_
      dsimp only
      exact mvPlain_within.after (mvPlain_within.after (.ite2 (mvWinners_within.after .rfl) .rfl))
    · refine mvStore_within.after ?_
      refine .iteElse ?_ (bump_within.after .rfl)
      refine .iteElse ?_ (bump_within.after .rfl)
      refine mvOverlap_within.after ?_
      refine .ite2 (mvScaled_within.after (.ite2 (mvWinners_within.after .rfl) .rfl)) ?_
      dsimp only
      exact mvPlain_within.after (mvPlain_within.after (.ite2 (mvWinners_within.after .rfl) .rfl))

theorem mvGets_within {s : State} {m : Move} {t : TDesc} {need : List Nat} : Within [.bar, .hoists, .parts, .fab, .faults, .trace] s (mvGets s m t
    need) := by
  unfold mvGets
  dsimp only
  exact mvSend_within.after .rfl

theorem mvGoOn_within {s : State} {m : Move} : Within [.fresh, .bar, .mem, .cores, .hoists, .host, .parts, .fab, .faults, .trace] s (mvGoOn s m) := by
  unfold mvGoOn
  dsimp only
  exact .ite (mvPerform_within.after .rfl) (mvGets_within.after (modMove_within.after .rfl))

theorem startMove_within {s : State} {r : MoveReq} : Within [.fresh, .bar, .mem, .cores, .hoists, .host, .parts, .fab, .faults, .trace] s (startMove s
    r) := by
  unfold startMove
  dsimp only
  split
  · refine .several ?_
    refine .ite2 ?_ (mvCheck_within.after (traceEvent_within.after .rfl))
    dsimp only
    exact traceEvent_within.after .rfl
  · refine .ite ?_ ?_
    · refine mvGets_within.after ?_
      refine .several ?_
      refine chargeBytes_within.after ?_
      refine .ite2 ?_ (mvCheck_within.after (traceEvent_within.after .rfl))
      dsimp only
      exact traceEvent_within.after .rfl
    · refine mvGoOn_within.after ?_
      refine .several ?_
      refine mvFetch_within.after ?_
      refine chargeBytes_within.after ?_
      refine .ite2 ?_ (mvCheck_within.after (traceEvent_within.after .rfl))
      dsimp only
      exact traceEvent_within.after .rfl

theorem takeMove_within {s : State} {hoist : Nat} {kind : Line → Bool} : Within [.fresh, .bar, .mem, .cores, .hoists, .host, .parts, .fab, .faults,
    .trace] s (takeMove s hoist kind) := by
  unfold takeMove
  split
  · exact .rfl
  · exact .ite (startMove_within.after (.hoists .rfl)) .rfl

theorem mvRetire_within {s : State} {m : Move} : Within [.fresh, .bar, .mem, .hoists, .host, .parts, .fab, .faults, .trace] s (mvRetire s m) := by
  unfold mvRetire
  dsimp only
  split
  · exact complete_within.after (.hoists (traceEvent_within.after .rfl))
  · exact .hoists (traceEvent_within.after .rfl)

theorem mvFinish_within {s : State} {m : Move} : Within [.fresh, .bar, .mem, .cores, .sems, .hoists, .host, .parts, .fab, .faults, .trace] s (mvFinish
    s m) := by
  unfold mvFinish
  dsimp only
  exact mvRetire_within.after (.iteThen (.ite (.ite (addressRefused_within.after .rfl) (localWrite_within.after .rfl)) .rfl) (semSignal_within.after
    .rfl))

theorem mvNext_within {s : State} {m : Move} : Within [.fresh, .bar, .mem, .cores, .sems, .hoists, .host, .parts, .fab, .faults, .trace] s (mvNext s
    m) := by
  unfold mvNext
  dsimp only
  split
  · split
    · exact mvFinish_within.after (mvPerform_within.after .rfl)
    · exact mvPerform_within.after .rfl
  · exact mvPerform_within.after .rfl
  · exact mvRetire_within.after .rfl
  · exact .ite (mvFinish_within.after .rfl) (.ite (mvRetire_within.after .rfl) (mvSend_within.after (modMove_within.after .rfl)))

/-! ## HostRows -/

theorem hostReturn_within {s : State} {bs : List Byte} {ur poison : Bool} : Within [.host] s (hostReturn s bs ur poison) := by
  unfold hostReturn
  exact .hostRest .rfl

theorem hostMemAccess_within {s : State} {cxl : Bool} {h : HostAcc} : Within [.fresh, .bar, .mem, .host, .faults, .trace] s (hostMemAccess s cxl h) :=
    by
  unfold hostMemAccess
  dsimp only
  exact .ite (.ite .rfl (.ite (hostReturn_within.after (draw_within.after .rfl)) (hostReturn_within.after .rfl))) (.ite (.ite (hostReturn_within.after
    (addressRefused_within.after .rfl)) (.ite (hostReturn_within.after (draw_within.after (addressRefused_within.after .rfl)))
    (hostReturn_within.after (addressRefused_within.after .rfl)))) (.ite (hostReturn_within.after (devWrite_within.after .rfl)) (.ite
    (hostReturn_within.after (devRead_within.after .rfl)) (hostReturn_within.after (draw_within.after (devRead_within.after .rfl))))))

theorem bar4Access_within {s : State} {h : HostAcc} : Within [.bar, .host, .faults, .trace] s (bar4Access s h) := by
  unfold bar4Access
  refine .ite ?_ (hostReturn_within.after .rfl)
  refine .iterate ?_ .rfl
  intro i s
  dsimp only
  split
  · refine freeCompletions_within.after ?_
    split
    · exact doorbell_within.after .rfl
    · exact .rfl
  · split
    · exact doorbell_within.after .rfl
    · exact .rfl

theorem configAccess_within {s : State} {h : HostAcc} : Within [.fresh, .host] s (configAccess s h) := by
  unfold configAccess
  exact .ite (.iterate (fun i s => .several .rfl) .rfl) (hostReturn_within.after .rfl)

theorem aptWrite_within {s : State} {a : Nat} {bs : List Byte} : Within [.fresh, .bar, .mem, .nb, .faults, .trace] s (aptWrite s a bs) := by
  unfold aptWrite
  refine .ite .rfl ?_
  dsimp only
  exact .iteThen (.iterate (fun i s => .ite (.nb .rfl) .rfl) .rfl) (aptControl_within.after .rfl)

/-! ## MemCmds -/

/-- Discarding row sets keeps the canonical form: no cell of theirs stays, and what was discarded before stays discarded (R281). -/
theorem discardRows_wf {s : State} (first n : Nat) (h : Mem.wf s.mem = true) : Mem.wf (discardRows s first n).mem = true := by
  simp only [Mem.wf, Bool.and_eq_true, List.all_eq_true, Bool.or_eq_true, decide_eq_true_eq] at h ⊢
  obtain ⟨⟨⟨hr, hz⟩, hd⟩, he⟩ := h
  have hrows : ∀ l : List Nat, ∀ t : Tab Nat, risesFrom none t = true →
      risesFrom none (l.foldl (fun t i => tput t (first + i) (s.fresh + 33554432 * i)) t) = true ∧
      ∀ k, (tfind t k).isSome = true → (tfind (l.foldl (fun t i => tput t (first + i) (s.fresh + 33554432 * i)) t) k).isSome = true := by
    intro l
    induction l with
    | nil => exact fun t ht => ⟨ht, fun _ => id⟩
    | cons i l ih =>
      intro t ht
      obtain ⟨h1, h2⟩ := ih (tput t (first + i) (s.fresh + 33554432 * i)) (risesFrom_tput _ _ ht nofun)
      refine ⟨h1, fun k hk => h2 k ?_⟩
      by_cases hki : k = first + i
      · rw [hki, tfind_tput_same]; rfl
      · rwa [tfind_tput_ne t _ hki]
  obtain ⟨h1, h2⟩ := hrows (List.range n) s.mem.discarded hd
  exact ⟨⟨⟨risesFrom_filter _ hr, fun p hp => (hz p (List.mem_filter.1 hp).1).imp id (h2 _)⟩, h1⟩, he⟩

theorem discardRows_within {s : State} {first n : Nat} : Within [.fresh, .mem] s (discardRows s first n) := by
  have hp : Within [.fresh, .mem] s { s with fresh := s.fresh + 33554432 * n } := .fresh .rfl
  exact hp.memory (x := (discardRows s first n).mem) (discardRows_wf (s := s) first n)

theorem freeRows_within {s : State} {c : Cmd} : Within [.fresh, .bar, .mem, .host, .parts, .fab, .faults, .trace] s (freeRows s c) := by
  unfold freeRows
  dsimp only
  exact .ite .rfl (complete_within.after (.memRest (discardRows_within.after .rfl)))

/-! ## PowerOps -/

theorem logCal_within {s : State} {kind detail out band : Nat} : Within [.bar, .faults, .pwr, .trace] s (logCal s kind detail out band) := by
  unfold logCal
  dsimp only
  exact .ite .rfl (logErr_within.after (.pwr .rfl))

theorem setGuard_within {s : State} {kind : Nat} : Within [.bar, .mem, .faults, .pwr, .trace] s (setGuard s kind) := by
  unfold setGuard
  dsimp only
  exact .ite (.memRest (.iteThen (wf_within.after (.pwr .rfl)) (wf_within.after .rfl))) (logCal_within.after (.several (.iteThen (wf_within.after
    (.pwr .rfl)) (wf_within.after .rfl))))

theorem setGuards_within {s : State} : Within [.bar, .mem, .faults, .pwr, .trace] s (setGuards s) := by
  unfold setGuards
  exact .foldl (fun s a => setGuard_within.after .rfl) .rfl

theorem setVcore_within {s : State} {f : Nat} : Within [.bar] s (setVcore s f) := by
  unfold setVcore
  exact wf_within.after .rfl

theorem moveFreq_within {s : State} {f : Nat} : Within [.bar, .pwr] s (moveFreq s f) := by
  unfold moveFreq
  refine .ite .rfl ?_
  dsimp only
  exact .pwr (wf_within.after .rfl)

theorem setFreq_within {s : State} {f : Nat} : Within [.bar, .pwr] s (setFreq s f) := by
  unfold setFreq
  refine .ite .rfl ?_
  dsimp only
  exact .pwr (.iteThen (.ite (moveFreq_within.after .rfl) .rfl) (setVcore_within.after .rfl))

theorem setAlert_within {s : State} : Within [.bar, .pins] s (setAlert s) := by
  unfold setAlert
  dsimp only
  exact .pins (wf_within.after .rfl)

theorem setIssue_within {s : State} {n : Nat} : Within [.bar, .faults, .pins, .trace] s (setIssue s n) := by
  unfold setIssue
  dsimp only
  exact setAlert_within.after (.iteThen (wf_within.after (wf_within.after .rfl)) (logErr_within.after .rfl))

theorem setGrants_within {s : State} {gs : List Nat} : Within [.nb] s (setGrants s gs) := by
  unfold setGrants
  exact .nb .rfl

theorem arbitrate_within {s : State} : Within [.bar, .mem, .nb, .faults, .pwr, .pins, .trace] s (arbitrate s) := by
  unfold arbitrate
  dsimp only
  exact setFreq_within.after (setIssue_within.after (setGrants_within.after (wf_within.after (setGuards_within.after .rfl))))

theorem fastCut_within {s : State} {watts : Nat} : Within [.bar, .nb, .faults, .pwr, .trace] s (fastCut s watts) := by
  unfold fastCut
  dsimp only
  exact logErr_within.after (bump_within.after (wf_within.after (setVcore_within.after (wf_within.after (.several .rfl)))))

/-! ## RecoveryRows -/

theorem logCore_within {s : State} {cls phys thread detail ex0 : Nat} {tag status : Nat} : Within [.bar, .faults, .trace] s (logCore s cls phys thread
    detail ex0 tag status) := by
  unfold logCore
  exact logErr_within.after .rfl

theorem watchJob_within {ns : Nat} {s : State} {j : Job} : Within [.cores] s (watchJob ns s j) := by
  unfold watchJob
  dsimp only
  exact .foldl (fun s a => .iterate (fun i s => .ite (setThread_within.after .rfl) .rfl) (.ite (.cores .rfl) .rfl)) .rfl

theorem watchPass_within {s : State} {ns : Nat} : Within [.cores] s (watchPass s ns) := by
  unfold watchPass
  exact .foldl (fun s a => watchJob_within.after .rfl) .rfl

theorem countCe_within {s : State} {phys : Nat} : Within [.cores] s (countCe s phys).2 := by
  unfold countCe
  dsimp only
  exact .cores .rfl

theorem settleTables_within {s : State} : Within [.fresh, .bar, .mem, .cores, .sems, .nb, .host, .parts, .se, .fab, .faults, .flash, .trace] s
    (settleTables s) := by
  unfold settleTables
  exact .ite (fault_within.after (.faults .rfl)) .rfl

theorem releasePcs_within {s : State} {pcs : List Nat} : Within [.fresh, .bar, .mem, .cores, .sems, .nb, .host, .parts, .se, .fab, .faults, .pwr,
    .trace] s (releasePcs s pcs) := by
  unfold releasePcs
  dsimp only
  split
  · exact noteHolds_within.after (.memRest (.foldl (fun s a => setEngine_within.after .rfl) .rfl))
  · exact rxRelease_within.after (retrainFlags_within.after (noteHolds_within.after (.memRest (.foldl (fun s a => setEngine_within.after .rfl)
      .rfl))))

theorem endRecovery_within {s : State} {d : Dom} : Within [.fresh, .bar, .mem, .faults, .trace] s (endRecovery s d) := by
  unfold endRecovery
  dsimp only
  exact bump_within.after (logRecovery_within.after (.faults .rfl))

theorem endRetrain_within {s : State} {pc : Nat} : Within [.fresh, .bar, .mem, .cores, .sems, .nb, .host, .parts, .se, .fab, .faults, .pwr, .flash,
    .trace] s (endRetrain s pc) := by
  unfold endRetrain
  dsimp only
  refine .ite .rfl ?_
  split
  · exact .iteThen (bump_within.after (releasePcs_within.after .rfl)) (nextQueued_within.after (endRecovery_within.after .rfl))
  · exact bump_within.after (releasePcs_within.after .rfl)

theorem clusterReset_within {s : State} {c : Nat} : Within [.fresh, .bar, .cores, .sems, .faults, .flash, .trace] s (clusterReset s c) := by
  unfold clusterReset
  dsimp only
  exact .foldl (fun s a => fenceCore_within.after .rfl) (.faults .rfl)

theorem stackReset_within {s : State} {k : Nat} : Within [.fresh, .bar, .mem, .cores, .sems, .nb, .host, .parts, .se, .fab, .faults, .pwr, .trace] s
    (stackReset s k) := by
  unfold stackReset
  dsimp only
  exact .iteThen (releasePcs_within.after (.several (bump_within.after .rfl))) (setDevState_within.after .rfl)

/-! ## PowerRows -/

theorem logHeat_within {s : State} {was is : Bool} {sensor : Nat} {t : Int} {d : Nat} : Within [.bar, .faults, .trace] s (logHeat s was is sensor t d)
    := by
  unfold logHeat
  exact .ite .rfl (logErr_within.after .rfl)

theorem countThrottle_within {s : State} {was is : Bool} : Within [.bar] s (countThrottle s was is) := by
  unfold countThrottle
  exact .ite (bump_within.after .rfl) .rfl

theorem heatDie_within {s : State} : Within [.bar, .faults, .pwr, .trace] s (heatDie s) := by
  unfold heatDie
  dsimp only
  exact wr_within.after (.pwr (countThrottle_within.after (logHeat_within.after (logHeat_within.after .rfl))))

theorem heatStack_within {s : State} {k : Nat} : Within [.bar, .faults, .pwr, .trace] s (heatStack s k) := by
  unfold heatStack
  dsimp only
  exact wf_within.after (wr_within.after (.pwr (countThrottle_within.after (logHeat_within.after (logHeat_within.after .rfl)))))

theorem assayVf_within {s : State} {f : Findings} : Within [.bar, .mem, .faults, .pwr, .trace] s (assayVf s f) := by
  unfold assayVf
  dsimp only
  exact setFmax_within.after (setGuard_within.after (noteCal_within.after .rfl))

theorem assayFactor_within {s : State} {k code : Nat} : Within [.bar, .faults, .trace] s (assayFactor s k code) := by
  unfold assayFactor
  exact .ite .rfl (logErr_within.after (wf_within.after .rfl))

theorem dueRows_within {s : State} {rows : List Nat} : Within [.mem] s (dueRows s rows) := by
  unfold dueRows
  exact .memRest .rfl

theorem assayRows_within {s : State} {k : Nat} {f : Findings} : Within [.bar, .mem, .faults, .trace] s (assayRows s k f) := by
  unfold assayRows
  dsimp only
  exact .ite .rfl (logErr_within.after (dueRows_within.after .rfl))

theorem assayLane_within {s : State} {f : Findings} {lane : Nat} : Within [.fresh, .bar, .mem, .cores, .sems, .nb, .host, .parts, .se, .fab, .faults,
    .flash, .trace] s (assayLane s f lane) := by
  unfold assayLane
  exact .ite (.ite .rfl (urgentTrigger_within.after (logErr_within.after .rfl))) (logErr_within.after .rfl)

theorem assayRates_within {s : State} {f : Findings} : Within [.bar, .nb, .parts] s (assayRates s f) := by
  unfold assayRates
  dsimp only
  refine refreshRateNb_within.after ?_
  refine wr_within.after ?_
  refine .foldl ?_ (.ite .rfl (.nb .rfl))
  intro s a
  split
  · exact .parts .rfl
  · exact .rfl

theorem assayCommit_within {s : State} {f : Findings} : Within [.pwr, .flash] s (assayCommit s f) := by
  unfold assayCommit
  exact flashWrite_within.after (.pwr .rfl)

/-! ## TimeRows -/

theorem setTime_within {s : State} {f : TimeSt → TimeSt} : Within [.time] s (setTime s f) := by
  unfold setTime
  exact .time .rfl

theorem setRho_within {s : State} {comp servo : Int} : Within [.time, .bar] s (setRho s comp servo) := by
  unfold setRho
  dsimp only
  exact .iteThen (setTime_within.after .rfl) (setTime_within.after (wr_within.after .rfl))

theorem stepTime_within {s : State} {sec : BitVec 48} {ns : Nat} {tag : Nat} : Within [.time, .bar, .faults, .pins, .trace] s (stepTime s sec ns tag)
    := by
  unfold stepTime
  dsimp only
  exact logErr_within.after (bump_within.after (setTime_within.after (.pins .rfl)))

theorem stepTo_within {s : State} {t : Int} : Within [.time, .bar, .faults, .pins, .trace] s (stepTo s t) := by
  unfold stepTo
  dsimp only
  exact stepTime_within.after .rfl

theorem setTState_within {s : State} {v : Nat} : Within [.bar] s (setTState s v) := by
  unfold setTState
  exact wf_within.after .rfl

theorem setTraceable_within {s : State} {b : Bool} : Within [.time, .bar] s (setTraceable s b) := by
  unfold setTraceable
  dsimp only
  exact .iteThen (wf_within.after .rfl) (setTime_within.after .rfl)

theorem freerun_within {s : State} : Within [.time, .bar] s (freerun s) := by
  unfold freerun
  exact wr_within.after (setTState_within.after (setTraceable_within.after .rfl))

theorem acquire_within {s : State} {src port : Nat} : Within [.time, .bar] s (acquire s src port) := by
  unfold acquire
  dsimp only
  exact wr_within.after (setTime_within.after (wf_within.after (wf_within.after (setTState_within.after (setTraceable_within.after .rfl)))))

theorem loseSource_within {s : State} : Within [.time, .bar] s (loseSource s) := by
  unfold loseSource
  dsimp only
  exact .ite (wr_within.after (setTState_within.after (setTime_within.after (wf_within.after (wf_within.after .rfl))))) (.iteThen (wf_within.after
    (wf_within.after .rfl)) (freerun_within.after .rfl))

theorem setPtp_within {s : State} {k : Nat} {p : PtpPort} : Within [.time] s (setPtp s k p) := by
  unfold setPtp
  exact setTime_within.after .rfl

theorem setPtpState_within {s : State} {k v : Nat} : Within [.bar] s (setPtpState s k v) := by
  unfold setPtpState
  exact wf_within.after .rfl

theorem reselect_within {s : State} : Within [.time, .bar] s (reselect s) := by
  unfold reselect
  dsimp only
  split
  · exact .ite .rfl (acquire_within.after .rfl)
  · exact .ite .rfl (acquire_within.after .rfl)
  · exact .ite (loseSource_within.after .rfl) .rfl

theorem applyBest_within {s : State} {best : Option Nat} : Within [.bar] s (applyBest s best) := by
  unfold applyBest
  refine .iterate ?_ .rfl
  intro i s
  split
  · exact .rfl
  · exact setPtpState_within.after .rfl
  · exact setPtpState_within.after .rfl

theorem servoStep_within {s : State} {offset : Int} : Within [.time, .bar] s (servoStep s offset) := by
  unfold servoStep
  dsimp only
  exact setRho_within.after (setTime_within.after .rfl)

theorem measure_within {s : State} {offset : Int} {trace : Bool} : Within [.fresh, .time, .bar, .faults, .pins, .trace] s (measure s offset trace) :=
    by
  unfold measure
  dsimp only
  exact .ite (setTime_within.after (stepTo_within.after (wr_within.after .rfl))) (.iteThen (setTime_within.after (servoStep_within.after
    (wr_within.after .rfl))) (wr_within.after (setTraceable_within.after (setTState_within.after (.iteThen (draw_within.after .rfl)
    (setTime_within.after .rfl))))))

theorem sendPtp_within {s : State} {port kind : Nat} {seq : W16} {ns : Nat} {correction : Int} : Within [.fab] s (sendPtp s port kind seq ns
    correction) := by
  unfold sendPtp
  exact txPush_within.after .rfl

/-! ## SecRows -/

theorem logSec_within {s : State} {detail loc ex0 : Nat} {tag : Nat} : Within [.bar, .faults, .trace] s (logSec s detail loc ex0 tag) := by
  unfold logSec
  exact logErr_within.after .rfl

theorem tooSmall_within {s : State} {c : Cmd} {need : Nat} : Within [.fresh, .bar, .mem, .host, .parts, .fab, .faults, .trace] s (tooSmall s c need)
    := by
  unfold tooSmall
  exact complete_within.after .rfl

theorem commitImage_within {s : State} {kind slot : Nat} {bs : List Byte} : Within [.flash] s (commitImage s kind slot bs) := by
  unfold commitImage
  dsimp only
  exact .flashRest .rfl

theorem traceFollows_within {s : State} : Within [.bar] s (traceFollows s) := by
  unfold traceFollows
  exact .ite .rfl (traceStop_within.after .rfl)

theorem openDebug_within {s : State} {levels source expiry : Nat} {cycles : Option Nat} {notAfter : W64} {tag : Nat} : Within [.bar, .faults, .sec,
    .trace] s (openDebug s levels source expiry cycles notAfter tag) := by
  unfold openDebug
  dsimp only
  exact logSec_within.after (traceFollows_within.after (.security (wr64_within.after (wf_within.after (wf_within.after (wf_within.after
    (wf_within.after .rfl)))))))

theorem closeDebug_within {s : State} {state : Nat} {tag : Nat} : Within [.bar, .faults, .sec, .trace] s (closeDebug s state tag) := by
  unfold closeDebug
  dsimp only
  exact .iteThen (.security (wr64_within.after (wf_within.after (wf_within.after .rfl)))) (logSec_within.after (traceFollows_within.after .rfl))

theorem passwordFailed_within {s : State} {tag : Nat} : Within [.bar, .faults, .sec, .trace] s (passwordFailed s tag) := by
  unfold passwordFailed
  dsimp only
  exact .iteThen (logSec_within.after (wf_within.after .rfl)) (logSec_within.after (closeDebug_within.after .rfl))

theorem passwordOp_within {s : State} {c : Cmd} {bs : List Byte} : Within [.fresh, .bar, .mem, .host, .parts, .fab, .faults, .sec, .flash, .trace] s
    (passwordOp s c bs) := by
  unfold passwordOp
  dsimp only
  split
  · exact complete_within.after (.flashRest (draw_within.after .rfl))
  · exact complete_within.after (.flashRest .rfl)
  · split
    · exact reject_within.after .rfl
    · exact .ite (complete_within.after (openDebug_within.after (wf_within.after .rfl))) (reject_within.after (passwordFailed_within.after .rfl))

theorem tokenOp_within {s : State} {c : Cmd} {bs : List Byte} : Within [.fresh, .bar, .mem, .host, .parts, .fab, .faults, .sec, .trace] s (tokenOp s c
    bs) := by
  unfold tokenOp
  dsimp only
  exact .ite (reject_within.after (logSec_within.after (.security .rfl))) (complete_within.after (openDebug_within.after (.security .rfl)))

theorem traceSetup_within {s : State} {b : Line} : Within [.bar] s (traceSetup s b) := by
  unfold traceSetup
  dsimp only
  exact .iteThen (wf_within.after (wf_within.after (wr_within.after (wr_within.after (wr_within.after (wr_within.after (wr64_within.after .rfl)))))))
    (wf_within.after (wr_within.after (wr64_within.after (wr64_within.after .rfl))))

/-! ## TwinRows -/

theorem streamCopy_within {s : State} : Within [.fresh, .bar, .mem, .host, .parts, .se, .fab, .faults, .twin, .trace] s (streamCopy s) := by
  unfold streamCopy
  refine .ite ?_ .rfl
  dsimp only
  exact settleTwin_within.after (setTwin_within.after (.foldl (fun s a => .iteElse (mirrorSend_within.after .rfl) (mirrorSend_within.after .rfl))
    (.foldl (fun s a => .ite (mirrorSend_within.after .rfl) .rfl) .rfl)))

theorem refuseItem_within {s : State} : Within [.bar, .parts, .fab] s (refuseItem s) := by
  unfold refuseItem
  exact levelSend_within.after .rfl

theorem pushLine_within {s : State} {part : Nat} {l : Line} : Within [.se] s (pushLine s part l) := by
  unfold pushLine
  exact .se .rfl

theorem adopt_within {s : State} {models : List TwinModel} {m : Mirrored} : Within [.fresh, .bar, .mem, .parts, .se, .fab, .faults, .trace] s (adopt s
    models m).1 := by
  unfold adopt
  dsimp only
  split
  · dsimp only
    exact pushLine_within.after .rfl
  · dsimp only
    exact pushLine_within.after (modSess_within.after (appendToks_within.after (putSess_within.after (cacheNew_within.after (.se
      (freeIndex_within.after .rfl))))))

theorem takeover_within {s : State} : Within [.fresh, .bar, .mem, .host, .parts, .se, .fab, .faults, .twin, .trace] s (takeover s) := by
  unfold takeover
  dsimp only
  refine logErr_within.after ?_
  refine bump_within.after ?_
  refine bump_within.after ?_
  refine .foldlFst ?_ ?_
  · intro x a
    dsimp only
    exact adopt_within.after .rfl
  · dsimp only
    exact goSolo_within.after (releaseGates_within.after (logTwin_within.after .rfl))

theorem repairWrite_within {s : State} {us : List (Nat × List Byte)} {mine : Nat → Bool} : Within [.fresh, .bar, .mem, .faults, .trace] s (repairWrite
    s us mine) := by
  unfold repairWrite
  dsimp only
  exact .foldl (fun s a => .ite .rfl (viewWriteBack_within.after (discardLines_within.after (.foldl (fun s a => flushLine_within.after .rfl) .rfl))))
    .rfl

theorem weightRepair_within {s : State} {k : RepairInput} {retry : Bool} : Within [.fresh, .bar, .mem, .faults, .flash, .trace] s (weightRepair s k
    retry) := by
  unfold weightRepair
  split
  · exact .rfl
  · refine .ite .rfl ?_
    dsimp only
    exact .ite (logErr_within.after (.faults .rfl)) (.ite .rfl (.faults (repairWrite_within.after (.foldl (fun s a => repairRow_within.after .rfl)
      .rfl))))

/-! ## Tick -/

theorem fecCount_within {s : State} {k : Nat} : Within [.fresh, .bar] s (fecCount s k) := by
  unfold fecCount
  refine .ite .rfl ?_
  dsimp only
  exact portTally_within.after (portTally_within.after (drawBelow_within.after (drawBelow_within.after .rfl)))

end Sys2Proof.Machine
end

section
/-! PROOFS. What the slots of a bundle may touch, and what each command may. -/
namespace Sys2Proof.Machine
open Sys2Proof.Claims

-- one declaration at a time: many short proofs at once would each hold a thread until those before it are checked
set_option Elab.async false

variable {s : State} {k e : Ev} {α β : Type} {p : α → Prop} {q : β → Prop}

/-- The pieces a bundle's slots may change. -/
abbrev slotPieces : List Piece := [.fresh, .bar, .mem, .cores, .hoists, .host, .parts, .fab, .faults, .trace]

/-- What holds of a slot's effect, if the slot comes to one. -/
def SlotRes.Holds (r : SlotRes α) (p : α → Prop) : Prop := ∀ a, r = .ok a → p a

namespace SlotRes.Holds

theorem ok {a : α} (h : p a) : (SlotRes.ok a).Holds p := fun _ k => SlotRes.ok.inj k ▸ h
theorem skip {r d : Nat} : (SlotRes.skip r d : SlotRes α).Holds p := nofun
theorem wait {w : Option QWait} : (SlotRes.wait w : SlotRes α).Holds p := nofun

theorem bind {r : SlotRes α} {f : α → SlotRes β} (h : r.Holds p) (hf : ∀ a, p a → (f a).Holds q) : (r.bind f).Holds q := by
  cases r with
  | ok a => exact hf a (h a (by rfl))
  | skip => exact .skip
  | wait => exact .wait

/-- A check gives nothing but its verdict. -/
theorem check {r : SlotRes α} {f : α → SlotRes β} (hf : ∀ a, (f a).Holds q) : (r.bind f).Holds q :=
  bind (p := fun _ => True) (fun _ _ => trivial) fun a _ => hf a

theorem ite {c : Prop} [Decidable c] {a b : SlotRes α} (h : a.Holds p) (k : b.Holds p) : (if c then a else b).Holds p := by
  split <;> assumption

end SlotRes.Holds

/-- What of a bundle stays as it was at the start of its issue: the thread as it was, where it runs, and the length. -/
def Ev.fixed (e : Ev) : Thread × Tid × Job × Nat × Nat × Nat := (e.th0, e.t, e.job, e.pc, e.len, e.id0)

/-- A later stage of a bundle: its state differs from the earlier one's in the slots' pieces only, and what stays of it is as it was. -/
def Ev.From (e k : Ev) : Prop := Within slotPieces k.s e.s ∧ e.fixed = k.fixed

theorem Ev.From.rfl : e.From e := ⟨.rfl, by rfl⟩

theorem Ev.From.within (h : e.From k) : Within slotPieces k.s e.s := h.1

theorem Ev.From.next {f : Ev} {P : List Piece} (h : e.From k) (hw : Within P e.s f.s) (hp : P ⊆ slotPieces := by decide)
    (hf : f.fixed = e.fixed := by rfl) : f.From k := ⟨hw.after h.1 hp, hf.trans h.2⟩

theorem Ev.From.step {f : Ev} (h : e.From k) (hw : Within slotPieces e.s f.s) (hf : f.fixed = e.fixed := by rfl) : f.From k :=
  h.next hw (List.Subset.refl _) hf

theorem Ev.From.th0 (h : e.From k) : e.th0 = k.th0 := congrArg Prod.fst h.2
theorem Ev.From.t (h : e.From k) : e.t = k.t := congrArg (fun x => x.2.1) h.2
theorem Ev.From.job (h : e.From k) : e.job = k.job := congrArg (fun x => x.2.2.1) h.2
theorem Ev.From.pc (h : e.From k) : e.pc = k.pc := congrArg (fun x => x.2.2.2.1) h.2
theorem Ev.From.len (h : e.From k) : e.len = k.len := congrArg (fun x => x.2.2.2.2.1) h.2
theorem Ev.From.id0 (h : e.From k) : e.id0 = k.id0 := congrArg (fun x => x.2.2.2.2.2) h.2

/-! ## Operands -/

theorem readQ_from {c : Nat} (h : e.From k) : (readQ e c).Holds fun x => x.2.From k := by
  unfold readQ
  dsimp only
  split
  · exact .wait
  · exact .ite .wait (.ite (.ok h) (.ok (h.next setQ_within)))

theorem readS_from {c : Nat} (h : e.From k) : (readS e c).Holds fun x => x.2.From k := by
  unfold readS
  exact .ite (.ite (.ok h) (.ite .wait (.ok h))) (.bind (readQ_from h) fun ⟨v, e⟩ h => .ok h)

theorem readV_from {c : Nat} (h : e.From k) : (readV e c).Holds fun x => x.2.From k := by
  unfold readV
  exact .ite (.ite .wait (.ok h)) (readQ_from h)

/-- A source that the operation may not have. -/
theorem readV_if_from {c : Prop} [Decidable c] {n : Nat} {v : VReg} (h : e.From k) : (if c then readV e n else .ok (v, e)).Holds fun x => x.2.From k :=
  .ite (readV_from h) (.ok h)

theorem pushQ_from {c : Nat} {x : QEntry} (h : e.From k) : (pushQ e c x).Holds (·.From k) := by
  unfold pushQ
  exact .ite .wait (.ok (h.next setQ_within))

theorem writeS_from {c : Nat} {v : W64} (h : e.From k) : (writeS e c v).Holds (·.From k) := by
  unfold writeS
  exact .ite (.ite .wait (.ok (h.next putS_within))) (pushQ_from h)

theorem writeV_from {c : Nat} {v : VReg} (h : e.From k) : (writeV e c v).Holds (·.From k) := by
  unfold writeV
  exact .ite (.ite .wait (.ok (h.next putV_within))) (pushQ_from h)

theorem writeM_from {n : Nat} {v : Mask} (h : e.From k) : (writeM e n v).Holds (·.From k) := .ok (h.next putM_within)

/-! ## The address slot -/

theorem setLoop_from {u : Nat} {l : LoopUnit} (h : e.From k) : (setLoop e u l).From k := h.next setThread_within

theorem setLoop_if_from {c : Prop} [Decidable c] {u : Nat} {l : LoopUnit} (h : e.From k) : (if c then setLoop e u l else e).From k := by
  split
  · exact setLoop_from h
  · exact h

theorem adrAddress_from {w : W64} (h : e.From k) : (adrAddress e w).Holds fun x => x.2.From k := by
  unfold adrAddress
  exact .ite (.check fun l => .ok (setLoop_if_from h)) (.bind (readS_from h) fun ⟨v, e⟩ h => .ok h)

theorem newOp_from {kd : OpKind} {a : W64} {d : VReg} {c : W64} {m : BitVec 256} {dst : Dest} {g : List Nat} {r : VReg} (h : e.From k) :
    (newOp e kd a d c m dst g r).1.From k := h.step (.cores .rfl)

/-- An operation that names another node is sent as it is made. -/
theorem sendOp_newOp_from {kd : OpKind} {a : W64} {d : VReg} {c : W64} {m : BitVec 256} {dst : Dest} {g : List Nat} {r : VReg} {id : Nat} (h : e.From k) :
    ({ (newOp e kd a d c m dst g r).1 with s := sendOp (newOp e kd a d c m dst g r).1.s id } : Ev).From k := (newOp_from h).next sendOp_within

theorem reserveDest_from {wide : Bool} {c : Nat} (h : e.From k) : (reserveDest e wide c).Holds fun x => x.1.From k := by
  unfold reserveDest
  exact .ite (.ite .wait (.ok h)) (.bind (pushQ_from h) fun e h => .ok h)

theorem doLoad_from {w a : W64} {n : Nat} {sg wide nc : Bool} {c : Nat} (h : e.From k) : (doLoad e w a n sg wide nc c).Holds (·.From k) := by
  unfold doLoad
  refine .bind (reserveDest_from h) fun ⟨e, d⟩ h => ?_
  dsimp only
  refine .ite (.ok (h.step (deliver_within.after (.cores .rfl)))) (.ite (.ok (sendOp_newOp_from h)) (.ite (.ok (h.step (deliver_within.after (.cores .rfl)))) (.ite ?_ (.ok (newOp_from h)))))
  exact .ok (h.step (deliver_within.after (.cores (memErr_within.after (.ite .rfl (.foldl (fun u g => fillL1_within.mono) .rfl))))))

theorem doStore_from {w a : W64} {n : Nat} {d : VReg} {m : BitVec 256} (h : e.From k) : (doStore e w a n d m).Holds (·.From k) := by
  unfold doStore
  dsimp only
  have hl {v off : Nat} {bs : List Byte} : ({ e with s := l1Store e.s v off bs m } : Ev).From k := h.next l1Store_within
  refine .ite (.ok (h.step (.iterate (fun i u => .ite setScratchByte_within.mono .rfl) .rfl))) (.ite (.ok (sendOp_newOp_from h)) (.ite (.ok ?_) (.ite (.ok hl) (.ok (newOp_from hl)))))
  exact hl.step (memErr_within.after (.iterate (fun i u => .ite hostWrite_within.mono .rfl) .rfl))

theorem readDesc_from {w a : W64} {p : Nat} (h : e.From k) : (readDesc e w a p).2.2.From k := by
  unfold readDesc
  split
  · exact h
  · exact h.step (devRead_within.after (chargeRange_within.after .rfl))

theorem adrSlot_from {w : W64} (h : e.From k) : (adrSlot e w).Holds (·.From k) := by
  unfold adrSlot
  dsimp only
  refine .ite .skip (.ite .wait (.ite .wait (.check fun _ => ?_)))
  split
  · exact .check fun _ => .check fun _ => .bind (adrAddress_from h) fun ⟨a, e⟩ h => .check fun _ => doLoad_from h
  · exact .check fun _ => .check fun _ => .bind (readS_from h) fun ⟨x, e⟩ h => .bind (adrAddress_from h) fun ⟨a, e⟩ h => .check fun _ => doStore_from h
  · exact .check fun _ => .check fun _ => .bind (adrAddress_from h) fun ⟨a, e⟩ h => .check fun _ => doLoad_from h
  · exact .check fun _ => .check fun _ => .bind (readV_from h) fun ⟨x, e⟩ h => .bind (adrAddress_from h) fun ⟨a, e⟩ h => .check fun _ => doStore_from h
  · refine .ite .skip (.ite .skip (.check fun _ => .check fun _ => .check fun _ => .bind (readS_from h) fun ⟨x, e⟩ h => ?_))
    refine .bind (p := fun x => x.2.From k) (.ite (readS_from h) (.ok h)) fun ⟨c, e⟩ h => .bind (adrAddress_from h) fun ⟨a, e⟩ h => .check fun _ => ?_
    refine .bind (reserveDest_from h) fun ⟨e, d⟩ h => .ok (sendOp_newOp_from ?_)
    dsimp only
    split
    · exact h.next l1Drop_within
    · exact h
  · exact .check fun _ => .check fun _ => .bind (readS_from h) fun ⟨x, e⟩ h => .bind (adrAddress_from h) fun ⟨a, e⟩ h => .check fun _ => .ok (sendOp_newOp_from h)
  · refine .check fun _ => .check fun _ => .bind (readS_from h) fun ⟨x, e⟩ h => .bind (adrAddress_from h) fun ⟨a, e⟩ h => .check fun _ => .ok ?_
    split
    · exact newOp_from h
    · exact (newOp_from h).next setThread_within
  · exact .check fun _ => .check fun _ => .check fun _ => .bind (readS_from h) fun ⟨x, e⟩ h => .bind (adrAddress_from h) fun ⟨a, e⟩ h => .check fun _ =>
      .bind (reserveDest_from h) fun ⟨e, d⟩ h => .ok (newOp_from h)
  · exact .ok (h.next setThread_within)
  · refine .check fun _ => .check fun _ => .bind (readS_from h) fun ⟨x, e⟩ h => .bind (adrAddress_from h) fun ⟨a, e⟩ h => .check fun _ => ?_
    exact .ite (.ok (h.next l1Clear_within)) (.ok (h.step (.foldl (fun u l => setL1_within.mono) .rfl)))
  · refine .check fun _ => .bind (adrAddress_from h) fun ⟨a, e⟩ h => .check fun _ => .ite .wait (.ite .wait ?_)
    exact .ite (.ok ((readDesc_from h).next memErr_within)) (.ok ((readDesc_from h).step (.hoists .rfl)))
  · refine .check fun _ => .bind (adrAddress_from h) fun ⟨a, e⟩ h => .check fun _ => .ite .skip (.ite .wait (.ite (.ok ((readDesc_from h).next memErr_within)) ?_))
    split
    · exact .skip
    · exact .ite .skip (.ok (setLoop_from (readDesc_from h)))
  · exact .check fun _ => .check fun l => writeS_from (setLoop_if_from h)

/-! ## The control slot -/

theorem branchTo_from {target : Int} (h : e.From k) : (branchTo e target).Holds (·.From k) := by
  unfold branchTo
  exact .ite (.ok h) .skip

theorem ctlAlu_from {w : W32} {op : Nat} (h : e.From k) : (ctlAlu e w op).Holds (·.From k) := by
  unfold ctlAlu
  refine .ite (.check fun _ => .check fun _ => .check fun _ => .check fun _ => .bind (readS_from h) fun ⟨a, e⟩ h => .bind (readS_from h) fun ⟨b, e⟩ h => ?_)
    (.check fun _ => .check fun _ => .bind (readS_from h) fun ⟨a, e⟩ h => ?_)
  all_goals
    dsimp only
    split
    · exact writeS_from h
    · exact .skip

theorem ctlLoadImm_from {w : W32} {high : Bool} (h : e.From k) : (ctlLoadImm e w high).Holds (·.From k) := by
  unfold ctlLoadImm
  exact .ite (.check fun _ => .check fun _ => .bind (readS_from h) fun ⟨d, e⟩ h => writeS_from h) (.check fun _ => writeS_from h)

theorem ctlBranch_from {w : W32} {op : Nat} (h : e.From k) : (ctlBranch e w op).Holds (·.From k) := by
  unfold ctlBranch
  refine .check fun _ => .check fun _ => .bind (readS_from h) fun ⟨a, e⟩ h => ?_
  dsimp only
  split
  · exact branchTo_from h
  · exact .ok h
  · exact .skip

theorem ctlJump_from {w : W32} {link : Bool} (h : e.From k) : (ctlJump e w link).Holds (·.From k) := by
  unfold ctlJump
  exact .bind (branchTo_from h) fun e h => .ite (writeS_from h) (.ok h)

theorem ctlJr_from {w : W32} (h : e.From k) : (ctlJr e w).Holds (·.From k) := by
  unfold ctlJr
  exact .check fun _ => .check fun _ => .bind (readS_from h) fun ⟨a, e⟩ h => branchTo_from h

theorem ctlRepeat_from {nb count b : Nat} (h : e.From k) : (ctlRepeat e nb count b).Holds (·.From k) := by
  unfold ctlRepeat
  exact .ite .skip (.ite .skip (.ok h))

theorem nextItem_from (h : e.From k) : (nextItem e).2.From k := by
  unfold nextItem
  dsimp only
  split
  · exact h.step (bump_within.after (setThread_within.after .rfl))
  · exact h.step (bump_within.after (modJob_within.after .rfl))
  · split
    · split
      · exact h.next modJob_within
      · exact h
    · exact h.next setThread_within

theorem ctlWinext_from {w : W32} (h : e.From k) : (ctlWinext e w).Holds (·.From k) := by
  unfold ctlWinext
  have hn : (nextItem e).2.From k := nextItem_from h
  exact .check fun _ => .check fun _ => writeS_from (hn.step (.iteThen (setThread_within.after .rfl) (modJob_within.after .rfl)))

theorem ctlEnd_from {w : W32} (h : e.From k) : (ctlEnd e w).Holds (·.From k) := .check fun _ => .ok (h.next setThread_within)
theorem ctlSubtag_from {w : W32} (h : e.From k) : (ctlSubtag e w).Holds (·.From k) := .check fun _ => .ok (h.next setThread_within)

theorem ctlStat_from {w : W32} (h : e.From k) : (ctlStat e w).Holds (·.From k) := by
  unfold ctlStat
  refine .check fun _ => ?_
  dsimp only
  split
  · exact .skip
  · exact .check fun _ => writeS_from h

theorem ctlSlot_from {w : W32} (h : e.From k) : (ctlSlot e w).Holds (·.From k) := by
  unfold ctlSlot
  exact .ite (ctlAlu_from h) (.ite (ctlLoadImm_from h) (.ite (ctlLoadImm_from h) (.ite (ctlBranch_from h) (.ite (ctlJump_from h) (.ite (ctlJump_from h)
    (.ite (ctlJr_from h) (.ite (.check fun _ => .check fun _ => .bind (readS_from h) fun ⟨a, e⟩ h => ctlRepeat_from h) (.ite (ctlRepeat_from h)
    (.ite (ctlWinext_from h) (.ite (ctlEnd_from h) (.ite (ctlSubtag_from h) (.ite (ctlStat_from h) .skip))))))))))))

/-! ## The matrix slot -/

theorem putTile_from {n : Nat} {t : Tile} {fl : Flg} (h : e.From k) : (putTile e n t fl).From k := h.next setThread_within

theorem mtxMma_from {w : BitVec 48} {z : Bool} (h : e.From k) : (mtxMma e w z).Holds (·.From k) := by
  unfold mtxMma
  refine .check fun _ => .check fun _ => .check fun _ => ?_
  split
  · exact .skip
  · exact .ite .skip (.ite .skip (.check fun _ => .check fun _ => .check fun _ => .bind (readV_from h) fun ⟨a, e⟩ h => .bind (readV_from h) fun ⟨b, e⟩ h =>
      .bind (readV_if_from h) fun ⟨sc, e⟩ h => .ok (putTile_from h)))

theorem mtxMzero_from {w : BitVec 48} (h : e.From k) : (mtxMzero e w).Holds (·.From k) := by
  unfold mtxMzero
  exact .check fun _ => .check fun _ => .ite (.ok (putTile_from h)) (.ite (.ok (putTile_from h)) .skip)

theorem mtxMwr_from {w : BitVec 48} {n : Nat} (h : e.From k) : (mtxMwr e w n).Holds (·.From k) := by
  unfold mtxMwr
  exact .check fun _ => .check fun _ => .ite .skip (.check fun _ => .bind (readV_from h) fun ⟨a, e⟩ h => .ok (putTile_from h))

theorem mtxMrd_from {w : BitVec 48} {n : Nat} {z : Bool} (h : e.From k) : (mtxMrd e w n z).Holds (·.From k) := by
  unfold mtxMrd
  exact .check fun _ => .check fun _ => .ite .skip (.check fun _ => writeV_from (putTile_from h))

theorem mtxSlot_from {w : BitVec 48} (h : e.From k) : (mtxSlot e w).Holds (·.From k) := by
  unfold mtxSlot
  exact .ite (mtxMma_from h) (.ite (mtxMma_from h) (.ite (mtxMzero_from h) (.ite (mtxMwr_from h) (.ite (mtxMrd_from h) (.ite (mtxMrd_from h) .skip)))))

/-! ## The vector slot -/

theorem putRng_from {g : W32} (h : e.From k) : (putRng e g).From k := h.next setThread_within

theorem Ev.From.ite1 {c : Prop} [Decidable c] {x y : Ev × α} (h : x.1.From k) (hy : y.1.From k) : (if c then x else y).1.From k := by
  split <;> assumption

theorem vecCompute_from {w : BitVec 48} {a b c : VReg} (h : e.From k) : (vecCompute e w a b c).1.From k := by
  unfold vecCompute
  extract_lets op f n mk el vec mask acts ones
  refine .ite1 h (.ite1 h (.ite1 h (.ite1 h (.ite1 h (.ite1 h (.ite1 h (.ite1 h (.ite1 h (.ite1 h (.ite1 ?_ (.ite1 ?_ ?_)))))))))))
  · split <;> exact h
  · split <;> exact h
  · refine .ite1 h (.ite1 h (.ite1 h (.ite1 h (.ite1 h (.ite1 h (.ite1 h (.ite1 (putRng_from h) (.ite1 (putRng_from h) (.ite1 h (.ite1 h (.ite1 (putRng_from h)
      (.ite1 (putRng_from h) (.ite1 h (h.next setThread_within))))))))))))))

theorem vecSlot_from {w : BitVec 48} (h : e.From k) : (vecSlot e w).Holds (·.From k) := by
  unfold vecSlot
  split
  · exact .skip
  · exact .check fun _ => .check fun _ => .check fun _ => .check fun _ => .check fun _ => .bind (readV_if_from h) fun ⟨a, e⟩ h =>
      .bind (readV_if_from h) fun ⟨b, e⟩ h => .bind (readV_if_from h) fun ⟨c, e⟩ h =>
      .ite (writeV_from (vecCompute_from h)) (.ite (writeM_from (vecCompute_from h)) (.ok (vecCompute_from h)))

/-! ## The bundle -/

theorem evalSlot_from {b : Bundle} {n : Nat} (h : e.From k) : (evalSlot e b n).Holds (·.From k) := by
  unfold evalSlot
  split
  · exact ctlSlot_from h
  · exact adrSlot_from h
  · exact mtxSlot_from h
  · exact vecSlot_from h

theorem runSlots_from {b : Bundle} {slots : List Nat} {f : Ev} (h : e.From k) (hr : runSlots e b slots = .ok f) : f.From k := by
  induction slots generalizing e with
  | nil => exact Issued.ok.inj hr ▸ h
  | cons k slots ih =>
    unfold runSlots at hr
    split at hr
    · exact ih h hr
    · split at hr
      next f hf => exact ih (evalSlot_from h f hf) hr
      · exact ih (e := { e with s := _ }) (h.next skipSlot_within) hr
      · cases hr

theorem finishIssue_within : Within slotPieces e.s (finishIssue e) := by
  unfold finishIssue
  dsimp only
  refine settleEnd_within.after ?_
  split
  · exact cleanEnd_within.after (.cores (setThread_within.after .rfl))
  · exact .cores (setThread_within.after .rfl)

theorem issue_within {s : State} {t : Tid} {b : Bundle} : Within slotPieces s (issue s t b) := by
  unfold issue
  split
  · exact .rfl
  · refine .ite .rfl (.ite .rfl ?_)
    split
    next st u hu =>
    have hf : Within slotPieces s u := (Within.snd hu fetchStatus_within).mono
    refine .ite (endThread_within.after (memErr_within.after hf)) ?_
    dsimp only
    split
    next f hr => exact finishIssue_within.after ((runSlots_from .rfl hr).within.after hf)
    · exact setThread_within.after hf

theorem issueRow_within {s : State} {t : Tid} {b : Bundle} {k lo hi : Nat} : Within slotPieces s (issueRow s t b k lo hi) := .ite issue_within .rfl

/-! ## Commands -/

/-- A command answers a next state, and changes only these pieces. -/
def Answers (P : List Piece) (s : State) (r : Res) : Prop := ∃ t, r = .next t ∧ Within P s t

variable {P : List Piece} {t : State}

theorem Answers.next (h : Within P s t) : Answers P s (.next t) := ⟨t, rfl, h⟩

theorem Answers.ite {c : Prop} [Decidable c] {a b : Res} (h : Answers P s a) (k : Answers P s b) : Answers P s (if c then a else b) := by
  split <;> assumption

/-- A command that ranks what the packet alone decides before it reads its structure (R273). -/
theorem Within.rankFirst {u a : State} {r : Option (W16 × Nat)} {b : W16 → Nat → State} (h : Within P u a) (k : ∀ st d, Within P u (b st d)) :
    Within P u (match r with | some (0x0102, _) | none => a | some (st, d) => b st d) := by
  split
  · exact h
  · exact h
  · exact k _ _

/-! ## NearBank -/

theorem execNbProg_answers {stack entry : Nat} {descs : List Line} {s : State} : Answers [.nb] s (execNbProg stack entry descs s) := by
  unfold execNbProg
  exact .ite (.next (putProgram_within.after .rfl)) (.next .rfl)

theorem execNbStart_answers {stack entry part : Nat} {tag : W32} {s : State} : Answers [.fresh, .bar, .mem, .nb, .faults, .trace] s (execNbStart stack
    entry part tag s) := by
  unfold execNbStart
  dsimp only
  exact .ite (.next .rfl) (.ite (.next (.nb .rfl)) (.next (.nb (startProgram_within.after .rfl))))

theorem execNbBcast_answers {stack off : Nat} {bytes : List Byte} {s : State} : Answers [.nb] s (execNbBcast stack off bytes s) := by
  unfold execNbBcast
  exact .ite (.next (bufWrite_within.after .rfl)) (.next .rfl)

theorem execNbDrain_answers {stack off n : Nat} {s : State} : Answers [.nb] s (execNbDrain stack off n s) := by
  unfold execNbDrain
  exact .ite (.next (.nb .rfl)) (.next .rfl)

theorem execNbGroupAbort_answers {stack pid : Nat} {s : State} : Answers [.fresh, .bar, .mem, .cores, .sems, .nb, .host, .parts, .fab, .faults,
    .trace] s (execNbGroupAbort stack pid s) := by
  unfold execNbGroupAbort
  split
  · exact .next (abortProgram_within.after .rfl)
  · exact .next .rfl

theorem execNbStatus_answers {stack : Nat} {s : State} : Answers [.nb] s (execNbStatus stack s) := by
  unfold execNbStatus
  exact .next (.nb .rfl)

theorem execGemv_answers {stack pid : Nat} {s : State} : Answers [.fresh, .bar, .mem, .nb, .faults, .trace] s (execGemv stack pid s) := by
  unfold execGemv
  exact .next (.startEntry (fun u p d => startCompute_within.after .rfl) .rfl)

theorem execQk_answers {stack pid : Nat} {s : State} : Answers [.fresh, .bar, .mem, .nb, .faults, .trace] s (execQk stack pid s) := by
  unfold execQk
  exact .next (.startEntry (fun u p d => startCompute_within.after .rfl) .rfl)

theorem execPv_answers {stack pid : Nat} {s : State} : Answers [.fresh, .bar, .mem, .nb, .faults, .trace] s (execPv stack pid s) := by
  unfold execPv
  exact .next (.startEntry (fun u p d => startCompute_within.after .rfl) .rfl)

theorem execRclear_answers {stack pid : Nat} {s : State} : Answers [.nb] s (execRclear stack pid s) := by
  unfold execRclear
  exact .next (.startEntry (fun u p d => entryDone_within.after (bufWrite_within.after .rfl)) .rfl)

theorem execPzero_answers {stack pid : Nat} {s : State} : Answers [.bar, .mem, .nb] s (execPzero stack pid s) := by
  unfold execPzero
  refine .next ?_
  refine .startEntry ?_ .rfl
  intro u p d
  split
  · exact entryDone_within.after .rfl
  · dsimp only
    exact entryDone_within.after (.foldl (fun s a => writeSector_within.after .rfl) (discardLines_within.after .rfl))

theorem execLoad_answers {stack pid : Nat} {s : State} : Answers [.fresh, .bar, .mem, .nb, .parts, .faults, .trace] s (execLoad stack pid s) := by
  unfold execLoad
  refine .next ?_
  refine .startEntry ?_ .rfl
  intro u p d
  dsimp only
  refine .ite .rfl ?_
  refine entryDone_within.after ?_
  refine modProg_within.after ?_
  refine bufWrite_within.after ?_
  split
  · refine .foldl3 ?_ ?_
    · intro x a
      dsimp only
      exact sliceRead_within.after .rfl
    · dsimp only
      exact chargeTransfer_within.after .rfl
  · dsimp only
    exact chargeTransfer_within.after .rfl

theorem execDrain_answers {stack pid : Nat} {s : State} : Answers [.fresh, .bar, .mem, .cores, .sems, .nb, .host, .parts, .faults, .trace] s
    (execDrain stack pid s) := by
  unfold execDrain
  refine .next ?_
  refine .startEntry ?_ .rfl
  intro u p d
  dsimp only
  refine .ite .rfl ?_
  refine entryDone_within.after ?_
  refine modProg_within.after ?_
  split
  · exact redoSaturated_within.after (blastRecord_within.after (localWrite_within.after (chargeTransfer_within.after .rfl)))
  · exact blastRecord_within.after (localWrite_within.after (chargeTransfer_within.after .rfl))

theorem execBlastEnd_answers {stack pid : Nat} {s : State} : Answers [.fresh, .bar, .mem, .cores, .sems, .nb, .host, .parts, .fab, .faults, .trace] s
    (execBlastEnd stack pid s) := by
  unfold execBlastEnd
  refine .next ?_
  split
  · exact .rfl
  · dsimp only
    exact .ite .rfl (.ite (endProgram_within.after (blastRecord_within.after .rfl)) (.ite (endProgram_within.after .rfl) .rfl))

theorem execEntryComplete_answers {stack pid : Nat} {s : State} : Answers [.fresh, .bar, .nb, .se] s (execEntryComplete stack pid s) := by
  unfold execEntryComplete
  split
  · exact .next .rfl
  · dsimp only
    exact .ite (.next .rfl) (.next (modProg_within.after (.iteThen (.iteThen (.ite (loosen_within.after .rfl) .rfl) (bump_within.after .rfl))
      (notePoison_within.after .rfl))))

theorem execGrantWindow_answers {stack : Nat} {s : State} : Answers [.bar, .nb, .se] s (execGrantWindow stack s) := by
  unfold execGrantWindow
  dsimp only
  exact .next (.ite (refreshRateNb_within.after (.several .rfl)) (.nb .rfl))

theorem execMicroStep_answers {stack pid bank : Nat} {s : State} : Answers [.fresh, .bar, .mem, .nb, .faults, .trace] s (execMicroStep stack pid bank
    s) := by
  unfold execMicroStep
  split
  · exact .next .rfl
  · refine .ite (.next .rfl) ?_
    dsimp only
    exact .next (.iterate (fun i s => microRead_within.after .rfl) (.ite .rfl (modProg_within.after (.foldl (fun s a => flushLine_within.after .rfl)
      .rfl))))

theorem execStart_answers {control : Line} {s : State} : Answers [.fresh, .bar, .mem, .nb, .faults, .trace] s (execStart control s) := by
  unfold execStart
  exact .next (aptControl_within.after .rfl)

/-! ## MemRows -/

theorem execHomeSliceAccess_answers {op granule : Nat} {s : State} : Answers [.fresh, .bar, .mem, .cores, .parts, .faults, .trace] s
    (execHomeSliceAccess op granule s) := by
  unfold execHomeSliceAccess
  split
  · exact .next .rfl
  · dsimp only
    exact .ite (.next .rfl) (.ite (.next .rfl) (.ite (.next (modOp_within.after .rfl)) (.ite (.next (settleEnd_within.after
      (performGranule_within.after (bucketCharge_within.after .rfl)))) (.next (.iteThen (setEngine_within.after (.cores (bucketCharge_within.after
      .rfl))) (bump_within.after .rfl))))))

theorem execBucketWaitEnd_answers {op : Nat} {s : State} : Answers [.bar, .cores, .parts, .fab] s (execBucketWaitEnd op s) := by
  unfold execBucketWaitEnd
  dsimp only
  refine .next ?_
  refine .foldl (fun s a => pump_within.after .rfl) ?_
  split
  · exact .ite (modOp_within.after .rfl) .rfl
  · exact .rfl

theorem execMemoryOperationComplete_answers {pc : Nat} {s : State} : Answers [.fresh, .bar, .mem, .cores, .faults, .trace] s
    (execMemoryOperationComplete pc s) := by
  unfold execMemoryOperationComplete
  split
  · exact .next .rfl
  · dsimp only
    refine .next ?_
    split
    · exact settleEnd_within.after (completeDop_within.after .rfl)
    · exact completeDop_within.after .rfl

theorem execWriteBufferDrain_answers {pc : Nat} {s : State} : Answers [.fresh, .bar, .mem, .faults, .trace] s (execWriteBufferDrain pc s) := by
  unfold execWriteBufferDrain
  dsimp only
  exact .ite (.next .rfl) (.ite (.next (drainWrites_within.after .rfl)) (.next .rfl))

theorem execUrgencyRise_answers {pc dop : Nat} {s : State} : Answers [.mem] s (execUrgencyRise pc dop s) := by
  unfold execUrgencyRise
  dsimp only
  exact .next (setEngine_within.after .rfl)

theorem execYieldSlot_answers {bank : Nat} {s : State} : Answers [.fresh, .bar, .mem, .cores, .faults, .trace] s (execYieldSlot bank s) := by
  unfold execYieldSlot
  dsimp only
  split
  · exact .next .rfl
  · exact .ite (.next .rfl) (.next (setEngine_within.after (.foldl (fun s a => completeDop_within.after .rfl) .rfl)))

theorem execMemoryResponse_answers {op : Nat} {s : State} : Answers [.fresh, .bar, .mem, .cores, .parts, .fab, .faults, .trace] s (execMemoryResponse
    op s) := by
  unfold execMemoryResponse
  split
  · exact .next .rfl
  · exact .ite (.next .rfl) (.ite (.next (.ite .rfl (park_within.after .rfl))) (.next (landOp_within.after .rfl)))

theorem execSemaphoreOperation_answers {op : Nat} {s : State} : Answers [.fresh, .bar, .mem, .cores, .sems, .parts, .faults, .trace] s
    (execSemaphoreOperation op s) := by
  unfold execSemaphoreOperation
  split
  · exact .next .rfl
  · dsimp only
    refine .ite (.next .rfl) ?_
    refine .ite (.next (modOp_within.after .rfl)) ?_
    split
    · exact .next (.ite (modOp_within.after (traceEvent_within.after (semSignal_within.after (bucketCharge_within.after .rfl))))
        (settleEnd_within.after (removeOp_within.after (traceEvent_within.after (semSignal_within.after (bucketCharge_within.after .rfl))))))
    · exact .next (semWaitOp_within.after (modOp_within.after (bucketCharge_within.after .rfl)))
    · exact .next (modOp_within.after (semTake_within.after (cleanTouch_within.after (bucketCharge_within.after .rfl))))

theorem execClockGate_answers {vcore : Nat} {s : State} : Answers [.cores] s (execClockGate vcore s) := by
  unfold execClockGate
  split
  · exact .next .rfl
  · dsimp only
    exact .ite (.next (.cores .rfl)) (.next .rfl)

/-! ## QueueCmds -/

theorem execAqEnable_answers {w : W32} {s : State} : Answers [.bar, .host, .faults, .trace] s (execAqEnable w s) := by
  unfold execAqEnable
  exact .next (.ite (aqWrite_within.after .rfl) .rfl)

theorem execAqDisable_answers {w : W32} {s : State} : Answers [.bar, .host, .faults, .trace] s (execAqDisable w s) := by
  unfold execAqDisable
  exact .next (.ite (aqWrite_within.after .rfl) .rfl)

theorem execAqDisableDone_answers {s : State} : Answers [.host] s (execAqDisableDone s) := by
  unfold execAqDisableDone
  exact .ite (.next (setQp_within.after .rfl)) (.next .rfl)

theorem execSqTail_answers {q : Nat} {w : W32} {s : State} : Answers [.bar, .host, .faults, .trace] s (execSqTail q w s) := by
  unfold execSqTail
  exact .next (doorbell_within.after .rfl)

theorem execCqHead_answers {q : Nat} {w : W32} {s : State} : Answers [.bar, .host, .faults, .trace] s (execCqHead q w s) := by
  unfold execCqHead
  exact .next (freeCompletions_within.after .rfl)

theorem execCommandFetch_answers {q : Nat} {s : State} : Answers [.fresh, .bar, .mem, .host, .parts, .fab, .faults, .trace] s (execCommandFetch q s)
    := by
  unfold execCommandFetch
  refine .ite (.next (fetchRemote_within.after .rfl)) ?_
  dsimp only
  exact .ite (.next .rfl) (.next (acceptCmd_within.after (modQp_within.after .rfl)))

theorem execNop_answers {id : Nat} {s : State} : Answers [.fresh, .bar, .mem, .host, .parts, .fab, .faults, .trace] s (execNop id s) := by
  unfold execNop
  exact .next (.runCmd (fun u c => .checked (fun u => complete_within.after .rfl) .rfl) .rfl)

theorem execQueueCreate_answers {id : Nat} {s : State} : Answers [.fresh, .bar, .mem, .host, .parts, .fab, .faults, .trace] s (execQueueCreate id s)
    := by
  unfold execQueueCreate
  refine .next ?_
  refine .runCmd ?_ .rfl
  intro u c
  dsimp only
  exact .checked (fun u => .ite .rfl (complete_within.after (keptDoorbells_within.after (setQp_within.after .rfl)))) .rfl

theorem execQueueDelete_answers {id : Nat} {s : State} : Answers [.fresh, .bar, .mem, .host, .parts, .fab, .faults, .trace] s (execQueueDelete id s)
    := by
  unfold execQueueDelete
  refine .next ?_
  refine .runCmd ?_ .rfl
  intro u c
  dsimp only
  exact .checked (fun u => settleDelete_within.after (modQp_within.after .rfl)) .rfl

theorem execQueueStatus_answers {id : Nat} {s : State} : Answers [.fresh, .bar, .mem, .host, .parts, .fab, .faults, .trace] s (execQueueStatus id s)
    := by
  unfold execQueueStatus
  refine .next ?_
  refine .runCmd ?_ .rfl
  intro u c
  dsimp only
  exact .checked (fun u => complete_within.after .rfl) .rfl

theorem execSemSignal_answers {id : Nat} {s : State} : Answers [.fresh, .bar, .mem, .cores, .sems, .host, .parts, .fab, .faults, .trace] s
    (execSemSignal id s) := by
  unfold execSemSignal
  exact .next (.runCmd (fun u c => .checked (fun u => complete_within.after (semSignal_within.after .rfl)) .rfl) .rfl)

theorem execSemWait_answers {id : Nat} {s : State} : Answers [.fresh, .bar, .mem, .cores, .sems, .host, .parts, .fab, .faults, .trace] s (execSemWait
    id s) := by
  unfold execSemWait
  exact .next (.runCmd (fun u c => .checked (fun u => semRetest_within.after (modQp_within.after .rfl)) .rfl) .rfl)

theorem execPoll_answers {id : Nat} {s : State} : Answers [.fresh, .bar, .mem, .cores, .sems, .host, .parts, .fab, .faults, .trace] s (execPoll id s)
    := by
  unfold execPoll
  split
  · exact .next (.ite .rfl (semRetest_within.after .rfl))
  · exact .next .rfl

theorem execYieldRetest_answers {q : Nat} {s : State} : Answers [.fresh, .bar, .mem, .cores, .sems, .host, .parts, .fab, .faults, .trace] s
    (execYieldRetest q s) := by
  unfold execYieldRetest
  split
  · exact .next (.ite (semRetest_within.after .rfl) .rfl)
  · exact .next .rfl

theorem execSemWaitTimeout_answers {id : Nat} {s : State} : Answers [.fresh, .bar, .mem, .host, .parts, .fab, .faults, .trace] s (execSemWaitTimeout
    id s) := by
  unfold execSemWaitTimeout
  split
  · exact .next .rfl
  · dsimp only
    exact .ite (.next .rfl) (.next (complete_within.after .rfl))

theorem execSemWrite_answers {id : Nat} {s : State} : Answers [.fresh, .bar, .mem, .cores, .sems, .host, .parts, .fab, .faults, .trace] s
    (execSemWrite id s) := by
  unfold execSemWrite
  refine .next ?_
  refine .runCmd ?_ .rfl
  intro u c
  dsimp only
  exact .checked (fun u => complete_within.after (setSem_within.after (cleanTouch_within.after .rfl))) .rfl

theorem execSemRead_answers {id : Nat} {s : State} : Answers [.fresh, .bar, .mem, .host, .parts, .fab, .faults, .trace] s (execSemRead id s) := by
  unfold execSemRead
  exact .next (.runCmd (fun u c => .checked (fun u => complete_within.after .rfl) .rfl) .rfl)

theorem execTallyRead_answers {id : Nat} {s : State} : Answers [.fresh, .bar, .mem, .cores, .host, .parts, .fab, .faults, .trace] s (execTallyRead id
    s) := by
  unfold execTallyRead
  refine .next ?_
  refine .runCmd ?_ .rfl
  intro u c
  dsimp only
  exact .checked (fun u => replyBuffer_within.after .rfl) .rfl

theorem execErrlogRead_answers {id : Nat} {s : State} : Answers [.fresh, .bar, .mem, .cores, .host, .parts, .fab, .faults, .trace] s (execErrlogRead
    id s) := by
  unfold execErrlogRead
  refine .next ?_
  refine .runCmd ?_ .rfl
  intro u c
  dsimp only
  exact .checked (fun u => .ite (complete_within.after .rfl) (replyBuffer_within.after .rfl)) .rfl

/-! ## JobOps -/

theorem execJobLaunch_answers {id : Nat} {s : State} : Answers [.fresh, .bar, .mem, .cores, .host, .parts, .fab, .faults, .trace] s (execJobLaunch id
    s) := by
  unfold execJobLaunch
  refine .next (.runCmd (fun u c => ?_) .rfl)
  extract_lets p part a first count early image clean late
  refine .rankFirst ?_ fun st d => reject_within.after .rfl
  have hr := structRead_within (s := u) (c := c) (a := a) (n := 128)
  generalize structRead u c a 128 = x at hr
  obtain ⟨st, bs, v⟩ := x
  exact .withStruct (fun w => tally_within.after (.cores .rfl)) hr.mono

theorem execJobCancel_answers {id : Nat} {s : State} : Answers [.fresh, .bar, .mem, .cores, .sems, .host, .parts, .fab, .faults, .trace] s
    (execJobCancel id s) := by
  unfold execJobCancel
  refine .next ?_
  refine .runCmd ?_ .rfl
  intro u c
  dsimp only
  exact .checked (fun u => complete_within.after (.foldl (fun s a => stopJob_within.after .rfl) .rfl)) .rfl

theorem execJobQuery_answers {id : Nat} {s : State} : Answers [.fresh, .bar, .mem, .host, .parts, .fab, .faults, .trace] s (execJobQuery id s) := by
  unfold execJobQuery
  refine .next ?_
  refine .runCmd ?_ .rfl
  intro u c
  dsimp only
  refine .checked ?_ .rfl
  intro u
  split
  · exact .rfl
  · exact complete_within.after .rfl

theorem execJobEnd_answers {job : Nat} {s : State} : Answers [.fresh, .bar, .mem, .cores, .host, .parts, .fab, .faults, .trace] s (execJobEnd job s)
    := by
  unfold execJobEnd
  split
  · exact .next .rfl
  · exact .ite (.ite (.next (finishJob_within.after .rfl)) (.next .rfl)) (.ite (.next .rfl) (.ite (.next (finishJob_within.after .rfl)) (.next
      (finishJob_within.after .rfl))))

theorem execJobStart_answers {job : Nat} {s : State} : Answers [.fresh, .bar, .mem, .cores, .host, .parts, .fab, .faults, .trace] s (execJobStart job
    s) := by
  unfold execJobStart
  split
  · exact .next .rfl
  · dsimp only
    exact .ite (.next .rfl) (.ite (.next (finishJob_within.after .rfl)) (.next (.foldl (fun s a => startCore_within.after .rfl) (tally_within.after
      (traceEvent_within.after (modJob_within.after .rfl))))))

/-! ## PartCmds -/

theorem execPartitionDefine_answers {id : Nat} {s : State} : Answers [.fresh, .bar, .mem, .cores, .host, .parts, .fab, .faults, .trace] s
    (execPartitionDefine id s) := by
  unfold execPartitionDefine
  refine .next ?_
  refine .runCmd ?_ .rfl
  intro u c
  dsimp only
  refine .withStruct ?_ .rfl
  intro u
  refine complete_within.after ?_
  refine .ite ?_ (applyBlock_within.after .rfl)
  split
  · exact .parts .rfl
  · exact applyBlock_within.after .rfl

theorem execPartitionDelete_answers {id : Nat} {s : State} : Answers [.fresh, .bar, .mem, .cores, .host, .parts, .se, .fab, .faults, .trace] s
    (execPartitionDelete id s) := by
  unfold execPartitionDelete
  refine .next (.runCmd (fun u c => .checked (fun v => ?_) .rfl) .rfl)
  extract_lets s1 s2 s3 s4
  have h1 : Within [.bar, .cores] v s1 := unplace_within.mono
  have h2 : Within [.bar, .cores] v s2 := .foldl (fun s o => wr_within.mono) h1
  have h3 : Within [.bar, .cores] v s3 := .foldl (fun s o => wr64_within.mono) h2
  clear_value s3
  exact complete_within.after (.several h3.mono)

theorem execPreempt_answers {part : Nat} {s : State} : Answers [.fresh, .bar, .mem, .cores, .sems, .faults, .trace] s (execPreempt part s) := by
  unfold execPreempt
  exact .ite (.next (writeSaves_within.after (preemptPart_within.after .rfl))) (.next .rfl)

theorem execResume_answers {part : Nat} {s : State} : Answers [.fresh, .bar, .mem, .cores, .sems, .parts, .fab, .faults, .trace] s (execResume part s)
    := by
  unfold execResume
  dsimp only
  exact .ite (.next .rfl) (.next (wf_within.after (.foldl (fun s a => resumeCore_within.after .rfl) .rfl)))

/-! ## StackRows -/

theorem execRefresh_answers {bank : Nat} {forced : Bool} {s : State} : Answers [.bar, .mem] s (execRefresh bank forced s) := by
  unfold execRefresh
  dsimp only
  exact .ite (.next .rfl) (.ite (.ite (.next .rfl) (.next (refreshBank_within.after .rfl))) (.ite (.next (setEngine_within.after .rfl)) (.next
    (refreshBank_within.after .rfl))))

theorem execPowerDown_answers {sid : Nat} {s : State} : Answers [.mem] s (execPowerDown sid s) := by
  unfold execPowerDown
  exact .ite (.next (.memRest .rfl)) (.next .rfl)

theorem execSelfRefresh_answers {stack : Nat} {s : State} : Answers [.bar] s (execSelfRefresh stack s) := by
  unfold execSelfRefresh
  dsimp only
  exact .ite (.next (wf_within.after .rfl)) (.next .rfl)

theorem execPatrolScrub_answers {stack : Nat} {s : State} : Answers [.fresh, .bar, .mem, .faults, .trace] s (execPatrolScrub stack s) := by
  unfold execPatrolScrub
  refine .ite (.next .rfl) ?_
  dsimp only
  exact .ite (.next .rfl) (.next (.memRest (checkSector_within.after (countHeld_within.after .rfl))))

theorem execRowRepair_answers {bank row : Nat} {s : State} : Answers [.fresh, .bar, .mem, .faults, .flash, .trace] s (execRowRepair bank row s) := by
  unfold execRowRepair
  exact .ite (.next (repairRow_within.after .rfl)) (.next .rfl)

theorem execPeriodicRetrain_answers {stack channel : Nat} {s : State} : Answers [.bar, .mem, .nb, .se] s (execPeriodicRetrain stack channel s) := by
  unfold execPeriodicRetrain
  dsimp only
  exact .ite (.next .rfl) (.next (retrainFlags_within.after (holdPcs_within.after (.memRest .rfl))))

theorem execUrgentRetrain_answers {pc : Nat} {cause : RetrainCause} {whole : Bool} {s : State} : Answers [.fresh, .bar, .mem, .cores, .sems, .nb,
    .host, .parts, .se, .fab, .faults, .flash, .trace] s (execUrgentRetrain pc cause whole s) := by
  unfold execUrgentRetrain
  exact .ite (.next .rfl) (.next (urgentTrigger_within.after .rfl))

/-! ## SessCmds -/

theorem execModelLoad_answers {id : Nat} {p : Package} {s : State} : Answers [.fresh, .bar, .mem, .host, .parts, .se, .fab, .faults, .trace] s
    (execModelLoad id p s) := by
  unfold execModelLoad
  dsimp only
  exact .next (.laterCmd (fun c => .ite .rfl (.withStruct (fun u => loadModel_within.after .rfl) .rfl)) (.runCmd (fun u c => .ite (.checked (fun u =>
    .rfl) .rfl) (.withStruct (fun u => loadModel_within.after .rfl) .rfl)) .rfl))

theorem execModelUnload_answers {id : Nat} {s : State} : Answers [.fresh, .bar, .mem, .host, .parts, .se, .fab, .faults, .twin, .trace] s
    (execModelUnload id s) := by
  unfold execModelUnload
  refine .next ?_
  refine .modelCmd ?_ .rfl
  intro u c
  dsimp only
  refine .checked ?_ .rfl
  intro u
  refine mirrorChange_within.after ?_
  refine .foldl (fun s a => modSess_within.after .rfl) ?_
  refine writeModel_within.after ?_
  split
  · exact putModel_within.after .rfl
  · exact .rfl

theorem execModelQuery_answers {id : Nat} {s : State} : Answers [.fresh, .bar, .mem, .cores, .host, .parts, .fab, .faults, .trace] s (execModelQuery
    id s) := by
  unfold execModelQuery
  refine .next ?_
  refine .runCmd ?_ .rfl
  intro u c
  dsimp only
  exact .checked (fun u => replyBuffer_within.after .rfl) .rfl

theorem execSessionOpen_answers {id : Nat} {s : State} : Answers [.fresh, .bar, .mem, .host, .parts, .se, .fab, .faults, .twin, .trace] s
    (execSessionOpen id s) := by
  unfold execSessionOpen
  refine .next ?_
  refine .modelCmd ?_ .rfl
  intro u c
  dsimp only
  exact .checked (fun u => gateStatus_within.after (mirrorChange_within.after (putSess_within.after (cacheNew_within.after (freeIndex_within.after
    .rfl))))) .rfl

theorem execSessionPause_answers {id : Nat} {s : State} : Answers [.fresh, .bar, .mem, .host, .parts, .se, .fab, .faults, .twin, .trace] s
    (execSessionPause id s) := by
  unfold execSessionPause
  refine .next ?_
  refine .runCmd ?_ .rfl
  intro u c
  refine .sessCmd ?_ .rfl
  intro u i x
  dsimp only
  exact gateStatus_within.after (mirrorChange_within.after (putSess_within.after .rfl))

theorem execSessionResume_answers {id : Nat} {s : State} : Answers [.fresh, .bar, .mem, .host, .parts, .se, .fab, .faults, .twin, .trace] s
    (execSessionResume id s) := by
  unfold execSessionResume
  refine .next ?_
  refine .runCmd ?_ .rfl
  intro u c
  refine .sessCmd ?_ .rfl
  intro u i x
  dsimp only
  exact gateStatus_within.after (mirrorChange_within.after (putSess_within.after (.se .rfl)))

theorem execSessionCancel_answers {id : Nat} {s : State} : Answers [.fresh, .bar, .mem, .host, .parts, .se, .fab, .faults, .twin, .trace] s
    (execSessionCancel id s) := by
  unfold execSessionCancel
  refine .next ?_
  refine .runCmd ?_ .rfl
  intro u c
  refine .sessCmd ?_ .rfl
  intro u i x
  dsimp only
  exact gateStatus_within.after (mirrorChange_within.after (.iteElse (putSess_within.after .rfl) (applyEvents_within.after .rfl)))

theorem execSessionQuery_answers {id : Nat} {s : State} : Answers [.fresh, .bar, .mem, .cores, .host, .parts, .se, .fab, .faults, .trace] s
    (execSessionQuery id s) := by
  unfold execSessionQuery
  refine .next ?_
  refine .runCmd ?_ .rfl
  intro u c
  dsimp only
  exact .sessCmd (fun u i x => replyBuffer_within.after .rfl) .rfl

theorem execSessionSet_answers {id : Nat} {s : State} : Answers [.fresh, .bar, .mem, .host, .parts, .se, .fab, .faults, .trace] s (execSessionSet id
    s) := by
  unfold execSessionSet
  refine .next ?_
  refine .runCmd ?_ .rfl
  intro u c
  dsimp only
  exact .sessCmd (fun u i x => complete_within.after (putSess_within.after .rfl)) .rfl

theorem execSessionRead_answers {id : Nat} {s : State} : Answers [.fresh, .bar, .mem, .cores, .host, .parts, .se, .fab, .faults, .trace] s
    (execSessionRead id s) := by
  unfold execSessionRead
  refine .next ?_
  refine .runCmd ?_ .rfl
  intro u c
  dsimp only
  exact .sessCmd (fun u i x => .ite (complete_within.after (readToks_within.after .rfl)) (.ite (complete_within.after (readToks_within.after .rfl))
    (replyBuffer_within.after (readToks_within.after .rfl)))) .rfl

theorem execRequestSubmit_answers {id : Nat} {s : State} : Answers [.fresh, .bar, .mem, .host, .parts, .se, .fab, .faults, .twin, .trace] s
    (execRequestSubmit id s) := by
  unfold execRequestSubmit
  refine .next ?_
  refine .runCmd ?_ .rfl
  intro u c
  dsimp only
  refine .ite ?_ ?_
  · refine reject_within.after ?_
    split
    · dsimp only
      split
      · exact structRead_within.after .rfl
      · exact .rfl
    · split
      · exact structRead_within.after .rfl
      · exact .rfl
  · refine .sessCmd (fun u i x => gateStatus_within.after (mirrorChange_within.after (tally_within.after (modSess_within.after (.se
      (appendToks_within.after .rfl)))))) ?_
    split
    · dsimp only
      split
      · exact structRead_within.after .rfl
      · exact .rfl
    · split
      · exact structRead_within.after .rfl
      · exact .rfl

theorem execKvPoolConfig_answers {id : Nat} {s : State} : Answers [.fresh, .bar, .mem, .host, .parts, .se, .fab, .faults, .trace] s (execKvPoolConfig
    id s) := by
  unfold execKvPoolConfig
  refine .next ?_
  refine .laterCmd (fun c => setPool_within.after .rfl) ?_
  refine .runCmd ?_ .rfl
  intro u c
  dsimp only
  exact .withStruct (fun u => setPool_within.after .rfl) .rfl

theorem execOutputRingConfig_answers {id : Nat} {s : State} : Answers [.fresh, .bar, .mem, .host, .parts, .se, .fab, .faults, .trace] s
    (execOutputRingConfig id s) := by
  unfold execOutputRingConfig
  refine .next ?_
  refine .runCmd ?_ .rfl
  intro u c
  dsimp only
  exact .checked (fun u => .ite .rfl (setRing_within.after .rfl)) .rfl

/-! ## Steps -/

theorem execStepStart_answers {part : Nat} {s : State} : Answers [.fresh, .bar, .mem, .parts, .se, .faults, .trace] s (execStepStart part s) := by
  unfold execStepStart
  split
  · refine .ite (.next .rfl) ?_
    dsimp only
    exact .ite (.next (startWorks_within.after .rfl)) (.ite (.next .rfl) (.next (wf_within.after (.several (startWorks_within.after .rfl)))))
  · exact .next .rfl

theorem execGroupPlan_answers {part : Nat} {s : State} : Answers [.fresh, .bar, .mem, .cores, .sems, .nb, .host, .parts, .se, .faults, .trace] s
    (execGroupPlan part s) := by
  unfold execGroupPlan
  split
  · exact .next .rfl
  · split
    · exact .next (advanceDense_within.after (advanceNear_within.after .rfl))
    next u hu =>
      have h := halvesDone_within u hu
      dsimp only
      split
      · exact .next (planNext_within.after (h.mono))
      · exact .next (.ite (planNext_within.after (attnRounds_within.after (h.mono))) (beginHalves_within.after (attnRounds_within.after (h.mono))))

theorem execRescue_answers {part : Nat} {s : State} : Answers [.fresh, .bar, .mem, .cores, .sems, .nb, .host, .parts, .se, .fab, .faults, .trace] s
    (execRescue part s) := by
  unfold execRescue
  split
  · exact .next .rfl
  · dsimp only
    split
    · exact .ite (.next .rfl) (.next (putRun_within.after (bump_within.after (.foldl (fun s a => abortProgram_within.after .rfl) .rfl))))
    · exact .next .rfl

theorem execStepCommit_answers {part : Nat} {res : StepResult} {s : State} : Answers [.fresh, .bar, .mem, .cores, .sems, .host, .parts, .se, .fab,
    .faults, .twin, .trace] s (execStepCommit part res s) := by
  unfold execStepCommit
  split
  · refine .ite (.next .rfl) ?_
    split
    · exact .next .rfl
    next u hu =>
      have h := halvesDone_within u hu
      dsimp only
      refine .next (boundary_within.after (.se (writeRecord_within.after (takeStatus_within.after (.foldl (fun s a => trimSpans_within.after .rfl) (.foldlFst (fun x a => ?_) ?_))))))
      · exact commitSlot_within.after .rfl
      · exact .foldl (fun s a => traceEvent_within.after .rfl) (closeLayer_within.after (measureGroup_within.after (h.mono)))
  · exact .next .rfl

theorem execIdleBoundary_answers {part : Nat} {s : State} : Answers [.fresh, .bar, .mem, .cores, .host, .parts, .se, .fab, .faults, .twin, .trace] s
    (execIdleBoundary part s) := by
  unfold execIdleBoundary
  refine .ite (.next .rfl) ?_
  dsimp only
  split
  · exact .next (.se (boundary_within.after .rfl))
  · exact .ite (.next (boundary_within.after .rfl)) (.ite (.next (.se (takeStatus_within.after (boundary_within.after .rfl)))) (.next
      (writeRecord_within.after (takeStatus_within.after (boundary_within.after .rfl)))))

theorem execTtlExpiry_answers {session : Nat} {s : State} : Answers [.fresh, .bar, .mem, .se, .faults, .trace] s (execTtlExpiry session s) := by
  unfold execTtlExpiry
  dsimp only
  split
  · exact .next (cacheIn_within.after .rfl)
  · exact .ite (.next (cacheIn_within.after .rfl)) (.next (startDown_within.after (cacheIn_within.after .rfl)))

theorem execTierMoveDone_answers {session : Nat} {ok : TierOutcome} {s : State} : Answers [.fresh, .bar, .mem, .cores, .host, .parts, .se, .fab,
    .faults, .trace] s (execTierMoveDone session ok s) := by
  unfold execTierMoveDone
  split
  · exact .next .rfl
  · split
    · exact .next .rfl
    · refine .ite (.next .rfl) ?_
      dsimp only
      refine .next ?_
      split
      · exact .iteThen (cacheIn_within.after .rfl) (copyTier_within.after .rfl)
      · exact loseImage_within.after (cacheIn_within.after .rfl)
      · exact skipTier_within.after (cacheIn_within.after .rfl)

/-! ## RegAccess -/

theorem execRegisterWrite_answers {a : Accessor} {off : Nat} {be : BitVec 4} {w : W32} {s : State} : Answers [.bar, .host, .faults, .pwr, .pins,
    .trace] s (execRegisterWrite a off be w s) := by
  unfold execRegisterWrite
  exact .next (.ite .rfl (.ite (.ite (sbWrite_within.after .rfl) .rfl) (regWrite_within.after .rfl)))

theorem execLowWordRead_answers {a : Accessor} {off : Nat} {s : State} : Answers [.fresh, .bar] s (execLowWordRead a off s) := by
  unfold execLowWordRead
  dsimp only
  exact .next (.ite .rfl (.ite (returned_within.after .rfl) (.ite (returned_within.after (regRead_within.after .rfl)) .rfl)))

theorem execHighWordRead_answers {a : Accessor} {off : Nat} {s : State} : Answers [.fresh, .bar] s (execHighWordRead a off s) := by
  unfold execHighWordRead
  dsimp only
  exact .next (.ite (returned_within.after (regRead_within.after .rfl)) .rfl)

theorem execTimeNowFrac_answers {a : Accessor} {s : State} : Answers [.fresh, .bar] s (execTimeNowFrac a s) := by
  unfold execTimeNowFrac
  exact .next (.ite (returned_within.after (regRead_within.after .rfl)) .rfl)

theorem execTraceSemSel_answers {a : Accessor} {w : W32} {s : State} : Answers [.bar, .host, .faults, .pwr, .trace] s (execTraceSemSel a w s) := by
  unfold execTraceSemSel
  exact .next (.ite (regWrite_within.after .rfl) .rfl)

theorem execPwrHistSel_answers {a : Accessor} {w : W32} {s : State} : Answers [.bar, .host, .faults, .pwr, .trace] s (execPwrHistSel a w s) := by
  unfold execPwrHistSel
  exact .next (.ite (regWrite_within.after .rfl) .rfl)

theorem execStop_answers {a : Accessor} {s : State} : Answers [.bar, .host, .faults, .pwr, .trace] s (execStop a s) := by
  unfold execStop
  exact .next (.ite (regWrite_within.after .rfl) .rfl)

theorem execArm_answers {a : Accessor} {w : W32} {s : State} : Answers [.bar, .host, .faults, .pwr, .trace] s (execArm a w s) := by
  unfold execArm
  exact .next (.ite (regWrite_within.after .rfl) .rfl)

theorem execRun_answers {a : Accessor} {w : W32} {s : State} : Answers [.bar, .host, .faults, .pwr, .trace] s (execRun a w s) := by
  unfold execRun
  exact .next (.ite (regWrite_within.after .rfl) .rfl)

theorem execInjectionFire_answers {s : State} : Answers [.fresh, .bar, .mem, .cores, .sems, .nb, .host, .parts, .se, .fab, .faults, .flash, .trace] s
    (execInjectionFire s) := by
  unfold execInjectionFire
  refine .ite (.next .rfl) ?_
  dsimp only
  refine .next ?_
  split
  · exact corruptSector_within.after (wr_within.after (.trace (wf_within.after (wf_within.after .rfl))))
  · exact corruptSector_within.after (wr_within.after (.trace (wf_within.after (wf_within.after .rfl))))
  · exact .trace (wr_within.after (.trace (wf_within.after (wf_within.after .rfl))))
  · exact .trace (wr_within.after (.trace (wf_within.after (wf_within.after .rfl))))
  · exact urgentTrigger_within.after (wr_within.after (.trace (wf_within.after (wf_within.after .rfl))))
  · exact .fab (wr_within.after (.trace (wf_within.after (wf_within.after .rfl))))

/-! ## BootRows -/

theorem execPowerUp_answers {vinMv : Nat} {s : State} : Answers everyPiece s (execPowerUp vinMv s) := by
  unfold execPowerUp
  refine .ite (.next .rfl) ?_
  dsimp only
  exact .ite (.next (.pins .rfl)) (.ite (.next (railsUp_within.after (.pins .rfl))) (.next (.pins .rfl)))

theorem execPwrEnFall_answers {s : State} : Answers everyPiece s (execPwrEnFall s) := by
  unfold execPwrEnFall
  refine .ite (.next (.pins .rfl)) ?_
  dsimp only
  exact .next (.pins (railsOff_within.after (.ite .rfl (handOff_within.after .rfl))))

theorem execBrownout_answers {s : State} : Answers everyPiece s (execBrownout s) := by
  unfold execBrownout
  exact .next (.ite (railsOff_within.after .rfl) .rfl)

theorem execOvervoltage_answers {s : State} : Answers everyPiece s (execOvervoltage s) := by
  unfold execOvervoltage
  exact .next (.ite (railsOff_within.after .rfl) .rfl)

theorem execPwrEnHoldOffEnd_answers {s : State} : Answers everyPiece s (execPwrEnHoldOffEnd s) := by
  unfold execPwrEnHoldOffEnd
  refine .ite (.next .rfl) ?_
  dsimp only
  exact .next (.iteThen (.pins .rfl) (railsUp_within.after .rfl))

theorem execResetN_answers {s : State} : Answers everyPiece s (execResetN s) := by
  unfold execResetN
  refine .ite (.next .rfl) ?_
  dsimp only
  exact .next (.pins (resetAll_within.after .rfl))

theorem execResetNRelease_answers {s : State} : Answers [.host, .pins] s (execResetNRelease s) := by
  unfold execResetNRelease
  exact .ite (.next .rfl) (.next (.several .rfl))

theorem execPerstNRelease_answers {s : State} : Answers [.host, .pins] s (execPerstNRelease s) := by
  unfold execPerstNRelease
  exact .ite (.next .rfl) (.next (.several .rfl))

theorem execDeviceReset_answers {id : Nat} {s : State} : Answers everyPiece s (execDeviceReset id s) := by
  unfold execDeviceReset
  exact .next (.runCmd (fun u c => .checked (fun u => deviceReset_within.after .rfl) .rfl) .rfl)

theorem execBootPhase_answers {r : BootReport} {s : State} : Answers [.fresh, .bar, .mem, .cores, .sems, .parts, .se, .faults, .pwr, .sec, .flash,
    .trace] s (execBootPhase r s) := by
  unfold execBootPhase
  dsimp only
  refine .ite (.next .rfl) ?_
  refine .next ?_
  split
  · exact .ite (haltBoot_within.after (phaseRom_within.after .rfl)) (wf_within.after (phaseRom_within.after .rfl))
  · exact .ite (haltBoot_within.after (phaseFirmware_within.after .rfl)) (wf_within.after (phaseFirmware_within.after .rfl))
  · split
    · exact haltBoot_within.after .rfl
    · exact wf_within.after (phaseRecords_within.after .rfl)
  · split
    · exact .ite (haltBoot_within.after .rfl) (wf_within.after (phaseStacks_within.after .rfl))
    · exact wf_within.after (phaseStacks_within.after .rfl)
  · split
    · exact .ite (haltBoot_within.after .rfl) (wf_within.after (phaseClear_within.after .rfl))
    · exact wf_within.after (phaseClear_within.after .rfl)
  · exact wf_within.after (phaseCores_within.after .rfl)
  · exact wf_within.after (phaseAssay_within.after .rfl)
  · exact phaseServices_within.after .rfl
  · exact .rfl

theorem execSbBoardCap_answers {w : W32} {s : State} : Answers [.bar] s (execSbBoardCap w s) := by
  unfold execSbBoardCap
  exact .next (.ite (boardCap_within.after .rfl) .rfl)

theorem execRcvStart_answers {w : W32} {s : State} : Answers [.bar, .flash, .pins] s (execRcvStart w s) := by
  unfold execRcvStart
  exact .next (.ite (rcvCtrl_within.after .rfl) .rfl)

theorem execSbRcvData_answers {w : W32} {s : State} : Answers [.flash] s (execSbRcvData w s) := by
  unfold execSbRcvData
  refine .ite (.next .rfl) ?_
  split
  · exact .next (.flashRest .rfl)
  · exact .next .rfl

theorem execCommit_answers {w : W32} {s : State} : Answers [.bar, .flash, .pins] s (execCommit w s) := by
  unfold execCommit
  exact .next (.ite (rcvCtrl_within.after .rfl) .rfl)

theorem execShutdownCompare_answers {x : Temps} {s : State} : Answers [.bar, .mem, .cores, .sems, .hoists, .nb, .host, .parts, .se, .fab, .faults,
    .twin, .pins, .trace] s (execShutdownCompare x s) := by
  unfold execShutdownCompare
  exact .next (shutdownCompare_within.after .rfl)

theorem execIdentify_answers {id : Nat} {s : State} : Answers [.fresh, .bar, .mem, .cores, .host, .parts, .fab, .faults, .trace] s (execIdentify id s)
    := by
  unfold execIdentify
  refine .next ?_
  refine .runCmd ?_ .rfl
  intro u c
  dsimp only
  exact .checked (fun u => replyBuffer_within.after .rfl) .rfl

/-! ## CoreAddress -/

theorem execFenceL_answers {t : Tid} {b : Bundle} {s : State} : Answers [.fresh, .bar, .mem, .cores, .hoists, .host, .parts, .fab, .faults, .trace] s
    (execFenceL t b s) := by
  unfold execFenceL
  exact .next (.ite (issueRow_within.after .rfl) .rfl)

theorem execFenceD_answers {t : Tid} {b : Bundle} {s : State} : Answers [.fresh, .bar, .mem, .cores, .hoists, .host, .parts, .fab, .faults, .trace] s
    (execFenceD t b s) := by
  unfold execFenceD
  exact .next (.ite (issueRow_within.after .rfl) .rfl)

theorem execFenceH_answers {t : Tid} {b : Bundle} {s : State} : Answers [.fresh, .bar, .mem, .cores, .hoists, .host, .parts, .fab, .faults, .trace] s
    (execFenceH t b s) := by
  unfold execFenceH
  exact .next (.ite (issueRow_within.after .rfl) .rfl)

theorem execFenceComplete_answers {t : Tid} {s : State} : Answers [.cores] s (execFenceComplete t s) := by
  unfold execFenceComplete
  dsimp only
  split
  · exact .next (.ite (setThread_within.after .rfl) .rfl)
  · exact .next .rfl

/-! ## CoreControl -/

theorem execBundleNop_answers {t : Tid} {b : Bundle} {s : State} : Answers [.fresh, .bar, .mem, .cores, .hoists, .host, .parts, .fab, .faults, .trace]
    s (execBundleNop t b s) := by
  unfold execBundleNop
  exact .next (.ite (issue_within.after .rfl) .rfl)

theorem execReservedHeader_answers {t : Tid} {b : Bundle} {s : State} : Answers [.fresh, .bar, .mem, .cores, .faults, .trace] s (execReservedHeader t
    b s) := by
  unfold execReservedHeader
  split
  · exact .next .rfl
  · refine .ite (.next .rfl) ?_
    dsimp only
    exact .next (setThread_within.after (skipSlot_within.after .rfl))

theorem execTruncatedBundle_answers {t : Tid} {b : Bundle} {s : State} : Answers [.fresh, .bar, .mem, .cores, .faults, .trace] s (execTruncatedBundle
    t b s) := by
  unfold execTruncatedBundle
  split
  · exact .next .rfl
  · exact .ite (.next .rfl) (.next (endThread_within.after (skipSlot_within.after .rfl)))

theorem execDeadlock_answers {vcore : Nat} {s : State} : Answers [.fresh, .bar, .mem, .cores, .faults, .trace] s (execDeadlock vcore s) := by
  unfold execDeadlock
  split
  · exact .next .rfl
  · split
    · exact .next .rfl
    · dsimp only
      split
      · exact .next .rfl
      · exact .next (setThread_within.after (skipSlot_within.after .rfl))

/-! ## FabricRows -/

theorem execPut_answers {f : Frame} {s : State} : Answers [.fresh, .bar, .mem, .cores, .sems, .host, .parts, .fab, .faults, .pwr, .trace] s (execPut f
    s) := by
  unfold execPut
  exact .next (rxKind_within.after .rfl)

theorem execLevelAdd_answers {f : Frame} {s : State} : Answers [.fresh, .bar, .mem, .cores, .sems, .host, .parts, .fab, .faults, .pwr, .trace] s
    (execLevelAdd f s) := by
  unfold execLevelAdd
  exact .next (rxKind_within.after .rfl)

theorem execSignal_answers {f : Frame} {s : State} : Answers [.fresh, .bar, .mem, .cores, .sems, .host, .parts, .fab, .faults, .pwr, .trace] s
    (execSignal f s) := by
  unfold execSignal
  exact .next (rxKind_within.after .rfl)

theorem execPutSignal_answers {f : Frame} {s : State} : Answers [.fresh, .bar, .mem, .cores, .sems, .host, .parts, .fab, .faults, .pwr, .trace] s
    (execPutSignal f s) := by
  unfold execPutSignal
  exact .next (rxKind_within.after .rfl)

theorem execGet_answers {f : Frame} {s : State} : Answers [.fresh, .bar, .mem, .cores, .sems, .host, .parts, .fab, .faults, .pwr, .trace] s (execGet f
    s) := by
  unfold execGet
  exact .next (rxKind_within.after .rfl)

theorem execAtomic_answers {f : Frame} {s : State} : Answers [.fresh, .bar, .mem, .cores, .sems, .host, .parts, .fab, .faults, .pwr, .trace] s
    (execAtomic f s) := by
  unfold execAtomic
  exact .next (rxKind_within.after .rfl)

theorem execCommand_answers {f : Frame} {s : State} : Answers [.fresh, .bar, .mem, .cores, .sems, .host, .parts, .fab, .faults, .pwr, .trace] s
    (execCommand f s) := by
  unfold execCommand
  exact .next (rxKind_within.after .rfl)

theorem execReservedKindPacket_answers {f : Frame} {s : State} : Answers [.fresh, .bar, .mem, .cores, .sems, .host, .parts, .fab, .faults, .pwr,
    .trace] s (execReservedKindPacket f s) := by
  unfold execReservedKindPacket
  dsimp only
  exact .ite (.next .rfl) (.next (.rxData (fun u p => rxRequest_within.after .rfl) .rfl))

theorem execGetResp_answers {f : Frame} {s : State} : Answers [.bar, .cores, .hoists, .fab, .faults, .twin, .trace] s (execGetResp f s) := by
  unfold execGetResp
  exact .next (.ite (.rxData (fun u p => rxReply_within.after .rfl) .rfl) .rfl)

theorem execAtomicResp_answers {f : Frame} {s : State} : Answers [.bar, .cores, .hoists, .fab, .faults, .twin, .trace] s (execAtomicResp f s) := by
  unfold execAtomicResp
  exact .next (.ite (.rxData (fun u p => rxReply_within.after .rfl) .rfl) .rfl)

theorem execCommandReply_answers {f : Frame} {s : State} : Answers [.bar, .cores, .hoists, .fab, .faults, .twin, .trace] s (execCommandReply f s) :=
    by
  unfold execCommandReply
  exact .next (.ite (.rxData (fun u p => rxReply_within.after .rfl) .rfl) .rfl)

theorem execErrorResp_answers {f : Frame} {s : State} : Answers [.bar, .cores, .hoists, .fab, .faults, .twin, .trace] s (execErrorResp f s) := by
  unfold execErrorResp
  exact .next (.ite (.rxData (fun u p => rxReply_within.after .rfl) .rfl) .rfl)

theorem execAck_answers {f : Frame} {s : State} : Answers [.fresh, .bar, .mem, .cores, .hoists, .host, .parts, .se, .fab, .faults, .twin, .trace] s
    (execAck f s) := by
  unfold execAck
  refine .ite (.next .rfl) ?_
  dsimp only
  exact .ite (.next (portTally_within.after (portTally_within.after .rfl))) (.ite (.next (portTally_within.after .rfl)) (.next
    (settleTwin_within.after (ackApply_within.after (setFlow_within.after (portTally_within.after .rfl))))))

theorem execReset_answers {f : Frame} {s : State} : Answers [.fresh, .bar, .mem, .cores, .hoists, .host, .parts, .se, .fab, .faults, .twin, .trace] s
    (execReset f s) := by
  unfold execReset
  refine .ite (.next .rfl) ?_
  dsimp only
  exact .ite (.next (portTally_within.after (portTally_within.after .rfl))) (.ite (.next (portTally_within.after .rfl)) (.next
    (settleTwin_within.after (flowReset_within.after (setFlow_within.after (portTally_within.after .rfl))))))

theorem execAckSend_answers {flow : Nat} {s : State} : Answers [.bar, .fab] s (execAckSend flow s) := by
  unfold execAckSend
  split
  · exact .next .rfl
  · refine .ite (.next .rfl) ?_
    dsimp only
    exact .next (setFlow_within.after (sendControl_within.after .rfl))

theorem execRetransmit_answers {flow : Nat} {s : State} : Answers [.bar, .fab] s (execRetransmit flow s) := by
  unfold execRetransmit
  split
  · exact .next .rfl
  · dsimp only
    exact .next (.foldl (fun s a => resend_within.after (setFlow_within.after .rfl)) .rfl)

theorem execRtoExpiry_answers {flow : Nat} {s : State} : Answers [.bar, .fab] s (execRtoExpiry flow s) := by
  unfold execRtoExpiry
  split
  · exact .next .rfl
  · split
    · exact .next .rfl
    · exact .ite (.next .rfl) (.next (resend_within.after (setFlow_within.after .rfl)))

theorem execRateIncrease_answers {flow : Nat} {s : State} : Answers [.fab] s (execRateIncrease flow s) := by
  unfold execRateIncrease
  split
  · exact .next .rfl
  · refine .ite (.next (setFlow_within.after .rfl)) ?_
    dsimp only
    exact .next (setFlow_within.after .rfl)

theorem execQuarantineEnd_answers {flow path : Nat} {s : State} : Answers [.fab] s (execQuarantineEnd flow path s) := by
  unfold execQuarantineEnd
  split
  · exact .next .rfl
  · exact .next (setFlow_within.after .rfl)

theorem execOpTimeout_answers {flow psn : Nat} {s : State} : Answers [.fresh, .bar, .mem, .cores, .hoists, .host, .parts, .se, .fab, .faults, .twin,
    .trace] s (execOpTimeout flow psn s) := by
  unfold execOpTimeout
  split
  · exact .next .rfl
  · dsimp only
    split
    · exact .next .rfl
    · exact .ite (.next .rfl) (.next (settleTwin_within.after (flowResetBy_within.after .rfl)))

theorem execLinkUp_answers {port sub : Nat} {s : State} : Answers [.fresh, .time, .bar, .parts, .fab, .faults, .trace] s (execLinkUp port sub s) := by
  unfold execLinkUp
  dsimp only
  exact .ite (.next .rfl) (.next (.foldl (fun s a => pump_within.after .rfl) (notePaths_within.after (.time (draw_within.after (draw_within.after
    (logPort_within.after (.iteThen (wr_within.after (wf_within.after .rfl)) (wf_within.after .rfl)))))))))

theorem execLinkDown_answers {port sub : Nat} {s : State} : Answers [.bar, .fab, .faults, .trace] s (execLinkDown port sub s) := by
  unfold execLinkDown
  dsimp only
  exact .ite (.next .rfl) (.next (notePaths_within.after (logPort_within.after (wr_within.after (wf_within.after (wf_within.after .rfl))))))

theorem execNeighbourDiscovery_answers {n : Neighbour} {s : State} : Answers [.fab] s (execNeighbourDiscovery n s) := by
  unfold execNeighbourDiscovery
  exact .next (.ite (resolve_within.after .rfl) .rfl)

theorem execArp_answers {n : Neighbour} {s : State} : Answers [.fab] s (execArp n s) := by
  unfold execArp
  exact .next (.ite .rfl (resolve_within.after .rfl))

theorem execIcmpEcho_answers {n : Neighbour} {s : State} : Answers [.fab] s (execIcmpEcho n s) := by
  unfold execIcmpEcho
  exact .next (.ite (txPush_within.after .rfl) .rfl)

theorem execOtherFrame_answers {port : Nat} {s : State} : Answers [.bar] s (execOtherFrame port s) := by
  unfold execOtherFrame
  exact .next (.ite (portTally_within.after .rfl) .rfl)

theorem execRxBadPacket_answers {port : Nat} {unknown : Bool} {s : State} : Answers [.bar] s (execRxBadPacket port unknown s) := by
  unfold execRxBadPacket
  exact .next (.ite (portTally_within.after .rfl) .rfl)

theorem execPortConfig_answers {id : Nat} {s : State} : Answers [.fresh, .bar, .mem, .host, .parts, .fab, .faults, .trace] s (execPortConfig id s) :=
    by
  unfold execPortConfig
  refine .next ?_
  refine .runCmd ?_ .rfl
  intro u c
  dsimp only
  exact .withBlock (fun u bs => complete_within.after (notePaths_within.after (wr_within.after (wr_within.after (.several .rfl))))) .rfl

theorem execPortStatus_answers {id : Nat} {s : State} : Answers [.fresh, .bar, .mem, .cores, .host, .parts, .fab, .faults, .trace] s (execPortStatus
    id s) := by
  unfold execPortStatus
  refine .next ?_
  refine .runCmd ?_ .rfl
  intro u c
  dsimp only
  exact .checked (fun u => replyBuffer_within.after .rfl) .rfl

theorem execNodeConfig_answers {id : Nat} {s : State} : Answers [.fresh, .bar, .mem, .cores, .hoists, .host, .parts, .se, .fab, .faults, .twin,
    .trace] s (execNodeConfig id s) := by
  unfold execNodeConfig
  refine .next ?_
  refine .runCmd ?_ .rfl
  intro u c
  dsimp only
  exact .withBlock (fun u bs => complete_within.after (.iteThen (.fab (wf_within.after .rfl)) (settleTwin_within.after (resetFlows_within.after
    .rfl)))) .rfl

theorem execPeerSet_answers {id : Nat} {s : State} : Answers [.fresh, .bar, .mem, .host, .parts, .fab, .faults, .trace] s (execPeerSet id s) := by
  unfold execPeerSet
  refine .next ?_
  refine .runCmd ?_ .rfl
  intro u c
  dsimp only
  exact .withBlock (fun u bs => complete_within.after (.foldl (fun s a => pump_within.after .rfl) (notePaths_within.after (.fab .rfl)))) .rfl

theorem execPeerClear_answers {id : Nat} {s : State} : Answers [.fresh, .bar, .mem, .cores, .hoists, .host, .parts, .se, .fab, .faults, .twin, .trace]
    s (execPeerClear id s) := by
  unfold execPeerClear
  refine .next ?_
  refine .runCmd ?_ .rfl
  intro u c
  dsimp only
  exact .checked (fun u => complete_within.after (.fab (settleTwin_within.after (resetFlows_within.after .rfl)))) .rfl

/-! ## Hoist -/

theorem execMove_answers {hoist : Nat} {s : State} : Answers [.fresh, .bar, .mem, .cores, .hoists, .host, .parts, .fab, .faults, .trace] s (execMove
    hoist s) := by
  unfold execMove
  exact .next (takeMove_within.after .rfl)

theorem execFill_answers {hoist : Nat} {s : State} : Answers [.fresh, .bar, .mem, .cores, .hoists, .host, .parts, .fab, .faults, .trace] s (execFill
    hoist s) := by
  unfold execFill
  exact .next (takeMove_within.after .rfl)

theorem execMoveRetire_answers {id : Nat} {s : State} : Answers [.fresh, .bar, .mem, .cores, .sems, .hoists, .host, .parts, .fab, .faults, .trace] s
    (execMoveRetire id s) := by
  unfold execMoveRetire
  split
  · exact .next .rfl
  · dsimp only
    exact .ite (.next .rfl) (.next (mvNext_within.after .rfl))

theorem execMemMove_answers {id : Nat} {s : State} : Answers [.fresh, .bar, .mem, .hoists, .host, .parts, .fab, .faults, .trace] s (execMemMove id s) := by
  obtain ⟨f, hf, hr⟩ := localRead_abstract
  unfold execMemMove
  rw [hf]
  refine .next (.runCmd (fun u c => ?_) .rfl)
  dsimp only
  exact .checked (fun u => .hoists (hr.after .rfl)) .rfl

/-! ## HostRows -/

theorem execHostAccess_answers {h : HostFaceAcc} {s : State} : Answers [.fresh, .bar, .mem, .host, .faults, .trace] s (execHostAccess h s) := by
  unfold execHostAccess
  refine .ite (.next .rfl) ?_
  split
  · exact .next (.ite .rfl (hostMemAccess_within.after .rfl))
  · exact .next (bar4Access_within.after .rfl)
  · exact .next (configAccess_within.after .rfl)

theorem execCxlMemAccess_answers {range : Nat} {h : HostAcc} {s : State} : Answers [.fresh, .bar, .mem, .nb, .host, .faults, .trace] s
    (execCxlMemAccess range h s) := by
  unfold execCxlMemAccess
  exact .ite (.next .rfl) (.ite (.next (.ite .rfl (hostMemAccess_within.after .rfl))) (.ite (.next (.ite (.ite (aptWrite_within.after .rfl) .rfl)
    (hostReturn_within.after .rfl))) (.next .rfl)))

/-! ## MemCmds -/

theorem execMemAlloc_answers {id : Nat} {s : State} : Answers [.fresh, .bar, .mem, .host, .parts, .fab, .faults, .trace] s (execMemAlloc id s) := by
  unfold execMemAlloc
  refine .next ?_
  refine .runCmd ?_ .rfl
  intro u c
  dsimp only
  exact .checked (fun u => complete_within.after (.memRest (.iteThen (.ite2 (drawBelow_within.after .rfl) .rfl) (discardRows_within.after .rfl))))
    .rfl

theorem execMemFree_answers {id : Nat} {s : State} : Answers [.fresh, .bar, .mem, .host, .parts, .fab, .faults, .trace] s (execMemFree id s) := by
  unfold execMemFree
  refine .next ?_
  refine .laterCmd (fun c => freeRows_within.after .rfl) ?_
  refine .runCmd ?_ .rfl
  intro u c
  dsimp only
  exact .checked (fun u => freeRows_within.after .rfl) .rfl

theorem execMemmapConfig_answers {id : Nat} {s : State} : Answers [.fresh, .bar, .mem, .host, .parts, .fab, .faults, .flash, .trace] s
    (execMemmapConfig id s) := by
  unfold execMemmapConfig
  refine .next ?_
  refine .runCmd ?_ .rfl
  intro u c
  dsimp only
  exact .withStruct (fun u => complete_within.after (.flashRest .rfl)) .rfl

theorem execNbRun_answers {id : Nat} {s : State} : Answers [.fresh, .bar, .mem, .nb, .host, .parts, .fab, .faults, .trace] s (execNbRun id s) := by
  unfold execNbRun
  refine .next ?_
  refine .runCmd ?_ .rfl
  intro u c
  dsimp only
  split
  · exact .withStruct (fun u => .foldl (fun s a => startProgram_within.after .rfl) (.foldl (fun s a => .iterate (fun i s => .nb .rfl) .rfl) .rfl))
      (structRead_within.after .rfl)
  · exact .withStruct (fun u => .foldl (fun s a => startProgram_within.after .rfl) (.foldl (fun s a => .iterate (fun i s => .nb .rfl) .rfl) .rfl))
      (structRead_within.after .rfl)
  · exact reject_within.after .rfl

theorem execNbAbort_answers {id : Nat} {s : State} : Answers [.fresh, .bar, .mem, .cores, .sems, .nb, .host, .parts, .fab, .faults, .trace] s
    (execNbAbort id s) := by
  unfold execNbAbort
  refine .next ?_
  refine .runCmd ?_ .rfl
  intro u c
  dsimp only
  exact .checked (fun u => complete_within.after (.foldl (fun s a => abortProgram_within.after .rfl) .rfl)) .rfl

/-! ## RecoveryRows -/

theorem execCoreWatchdog_answers {cluster core : Nat} {semThread : Option Nat} {s : State} : Answers [.fresh, .bar, .mem, .cores, .sems, .nb, .host,
    .parts, .se, .fab, .faults, .flash, .trace] s (execCoreWatchdog cluster core semThread s) := by
  unfold execCoreWatchdog
  dsimp only
  refine .ite (.next .rfl) ?_
  split
  · exact .next .rfl
  · split
    · split
      · exact .ite (.next (stopJob_within.after (logCore_within.after .rfl))) (.next .rfl)
      · exact .next .rfl
    · exact .ite (.next (fault_within.after (logCore_within.after .rfl))) (.next .rfl)

theorem execCoreSramError_answers {cluster core unit : Nat} {uncorrectable : Bool} {s : State} : Answers [.fresh, .bar, .mem, .cores, .sems, .nb,
    .host, .parts, .se, .fab, .faults, .flash, .trace] s (execCoreSramError cluster core unit uncorrectable s) := by
  unfold execCoreSramError
  dsimp only
  refine .ite (.next .rfl) ?_
  refine .ite ?_ ?_
  · refine .next ?_
    refine fault_within.after ?_
    refine logCore_within.after ?_
    split
    · exact .trace .rfl
    · exact .rfl
  · refine .next ?_
    refine .iteThen ?_ (fault_within.after .rfl)
    refine logCore_within.after ?_
    refine countCe_within.after ?_
    split
    · exact .trace .rfl
    · exact .rfl

theorem execClusterFault_answers {cluster : Nat} {hoistFault : Bool} {failed : List Nat} {s : State} : Answers [.fresh, .bar, .mem, .cores, .sems,
    .nb, .host, .parts, .se, .fab, .faults, .flash, .trace] s (execClusterFault cluster hoistFault failed s) := by
  unfold execClusterFault
  refine .ite (.next .rfl) ?_
  dsimp only
  exact .next (fault_within.after (.faults (logErr_within.after .rfl)))

theorem execStackFault_answers {stack : Nat} {trainingFailed : Bool} {s : State} : Answers [.fresh, .bar, .mem, .cores, .sems, .nb, .host, .parts,
    .se, .fab, .faults, .flash, .trace] s (execStackFault stack trainingFailed s) := by
  unfold execStackFault
  refine .ite (.next .rfl) ?_
  dsimp only
  exact .next (fault_within.after (.ite (logErr_within.after .rfl) .rfl))

theorem execPortFault_answers {port : Nat} {s : State} : Answers [.fresh, .bar, .mem, .cores, .sems, .nb, .host, .parts, .se, .fab, .faults, .flash,
    .trace] s (execPortFault port s) := by
  unfold execPortFault
  exact .ite (.next .rfl) (.next (fault_within.after .rfl))

theorem execDeviceFault_answers {code : W32} {s : State} : Answers [.fresh, .bar, .mem, .cores, .sems, .nb, .host, .parts, .se, .fab, .faults, .flash,
    .trace] s (execDeviceFault code s) := by
  unfold execDeviceFault
  exact .ite (.next .rfl) (.ite (.next (settleTables_within.after .rfl)) (.next (fault_within.after (logErr_within.after .rfl))))

theorem execRetrainEnd_answers {pc : Nat} {ok : Bool} {s : State} : Answers [.fresh, .bar, .mem, .cores, .sems, .nb, .host, .parts, .se, .fab,
    .faults, .pwr, .flash, .trace] s (execRetrainEnd pc ok s) := by
  unfold execRetrainEnd
  exact .ite (.next .rfl) (.ite (.next (endRetrain_within.after .rfl)) (.next (fault_within.after (logErr_within.after .rfl))))

theorem execRecoveryEnd_answers {kind : Nat} {s : State} : Answers everyPiece s (execRecoveryEnd kind s) := by
  unfold execRecoveryEnd
  split
  · exact .next .rfl
  · dsimp only
    refine .next ?_
    split
    · exact nextQueued_within.after (endRecovery_within.after (clusterReset_within.after .rfl))
    · exact endRetrain_within.after .rfl
    · exact nextQueued_within.after (endRecovery_within.after (stackReset_within.after .rfl))
    · exact nextQueued_within.after (endRecovery_within.after (wf_within.after .rfl))
    · exact deviceReset_within.after (endRecovery_within.after .rfl)
    · exact nextQueued_within.after (endRecovery_within.after .rfl)

theorem execRecoveryTimeout_answers {kind : Nat} {s : State} : Answers [.fresh, .bar, .mem, .cores, .sems, .nb, .host, .parts, .se, .fab, .faults,
    .flash, .trace] s (execRecoveryTimeout kind s) := by
  unfold execRecoveryTimeout
  split
  · exact .next .rfl
  · dsimp only
    refine .ite (.next .rfl) ?_
    refine .next ?_
    split
    · exact nextQueued_within.after (degrade_within.after (logErr_within.after (logRecovery_within.after (.faults .rfl))))
    · exact enterFailed_within.after (logRecovery_within.after .rfl)
    · split
      · exact fault_within.after .rfl
      · exact .rfl

/-! ## PowerRows -/

theorem execControlPeriod_answers {m : PowerMeas} {s : State} : Answers [.bar, .mem, .nb, .faults, .pwr, .pins, .trace] s (execControlPeriod m s) :=
    by
  unfold execControlPeriod
  refine .ite (.next .rfl) ?_
  dsimp only
  exact .next (arbitrate_within.after (.iterate (fun i s => wf_within.after .rfl) (wf_within.after (wr_within.after (.pwr .rfl)))))

theorem execVoltageReached_answers {s : State} : Answers [.bar, .pwr] s (execVoltageReached s) := by
  unfold execVoltageReached
  split
  · exact .next .rfl
  · exact .ite (.next .rfl) (.next (setVcore_within.after (moveFreq_within.after (.pwr .rfl))))

theorem execPowerSample_answers {watts : Nat} {s : State} : Answers [.bar, .nb, .faults, .pwr, .trace] s (execPowerSample watts s) := by
  unfold execPowerSample
  refine .ite (.next .rfl) ?_
  dsimp only
  exact .next (.iteThen (.pwr .rfl) (fastCut_within.after .rfl))

theorem execThermalSample_answers {x : Temps} {s : State} : Answers [.bar, .mem, .cores, .sems, .hoists, .nb, .host, .parts, .se, .fab, .faults,
    .twin, .pwr, .pins, .trace] s (execThermalSample x s) := by
  unfold execThermalSample
  refine .ite (.next (shutdownCompare_within.after .rfl)) ?_
  refine .ite (.next .rfl) ?_
  dsimp only
  split
  · exact .next (thermalShutdown_within.after .rfl)
  · exact .next (.iteElse (setAlert_within.after (wr_within.after (wf_within.after (wf_within.after (wf_within.after (.iterate (fun i s =>
      heatStack_within.after .rfl) (heatDie_within.after (.pwr .rfl)))))))) (arbitrate_within.after .rfl))

theorem execFullAssay_answers {s : State} : Answers [.bar, .pwr] s (execFullAssay s) := by
  unfold execFullAssay
  dsimp only
  exact .ite (.next .rfl) (.next (startAssay_within.after (.pwr .rfl)))

theorem execAssayComplete_answers {f : Findings} {s : State} : Answers [.fresh, .bar, .mem, .cores, .sems, .nb, .host, .parts, .se, .fab, .faults,
    .pwr, .flash, .trace] s (execAssayComplete f s) := by
  unfold execAssayComplete
  refine .ite (.next .rfl) ?_
  dsimp only
  exact .next (.foldl (fun s a => fault_within.after .rfl) (.foldl (fun s a => assayLane_within.after .rfl) (logErr_within.after (wr64_within.after
    (assayCommit_within.after (assayRates_within.after (.pwr (.iterate (fun i s => assayRows_within.after .rfl) (.foldl (fun s a =>
    assayFactor_within.after .rfl) (assayVf_within.after (wf_within.after .rfl)))))))))))

theorem execAssayTimeout_answers {s : State} : Answers [.bar, .faults, .trace] s (execAssayTimeout s) := by
  unfold execAssayTimeout
  dsimp only
  exact .ite (.next .rfl) (.next (logErr_within.after (wf_within.after .rfl)))

theorem execRecalibration_answers {kind : Nat} {c : CalCond} {v : List Nat} {s : State} : Answers [.bar, .mem, .faults, .pwr, .trace] s
    (execRecalibration kind c v s) := by
  unfold execRecalibration
  refine .ite (.next .rfl) ?_
  dsimp only
  exact .next (logCal_within.after (bump_within.after (.pwr (.iteThen (noteCal_within.after .rfl) (dueRows_within.after .rfl)))))

theorem execSensorRead_answers {id : Nat} {s : State} : Answers [.fresh, .bar, .mem, .cores, .host, .parts, .fab, .faults, .trace] s (execSensorRead
    id s) := by
  unfold execSensorRead
  refine .next ?_
  refine .runCmd ?_ .rfl
  intro u c
  dsimp only
  exact .checked (fun u => replyBuffer_within.after .rfl) .rfl

theorem execFlashLogCopy_answers {s : State} : Answers [.faults, .flash, .pins] s (execFlashLogCopy s) := by
  unfold execFlashLogCopy
  refine .ite (.next .rfl) ?_
  dsimp only
  exact .next (.several (.ite .rfl (flashWrite_within.after .rfl)))

/-! ## TimeRows -/

theorem execSourceSelect_answers {best : Option Nat} {s : State} : Answers [.time, .bar] s (execSourceSelect best s) := by
  unfold execSourceSelect
  dsimp only
  exact .next (.ite (reselect_within.after (applyBest_within.after .rfl)) .rfl)

theorem execSync_answers {p : PtpMsg} {s : State} : Answers [.time] s (execSync p s) := by
  unfold execSync
  exact .ite (.next .rfl) (.next (setPtp_within.after .rfl))

theorem execFollowUp_answers {p : PtpMsg} {s : State} : Answers [.time] s (execFollowUp p s) := by
  unfold execFollowUp
  dsimp only
  exact .ite (.next .rfl) (.next (setPtp_within.after .rfl))

theorem execDelayReq_answers {p : PtpMsg} {s : State} : Answers [.fab] s (execDelayReq p s) := by
  unfold execDelayReq
  refine .next ?_
  refine .ite ?_ .rfl
  dsimp only
  exact sendPtp_within.after .rfl

theorem execDelayResp_answers {p : PtpMsg} {s : State} : Answers [.fresh, .time, .bar, .faults, .pins, .trace] s (execDelayResp p s) := by
  unfold execDelayResp
  dsimp only
  split
  · exact .next .rfl
  · exact .ite (.next .rfl) (.next (measure_within.after (setTime_within.after (setPtp_within.after .rfl))))

theorem execAnnounce_answers {p : PtpMsg} {s : State} : Answers [.time] s (execAnnounce p s) := by
  unfold execAnnounce
  exact .ite (.next .rfl) (.next (setPtp_within.after .rfl))

theorem execSyncSend_answers {port : Nat} {s : State} : Answers [.time, .fab] s (execSyncSend port s) := by
  unfold execSyncSend
  refine .ite (.next .rfl) ?_
  dsimp only
  exact .next (.ite (sendPtp_within.after (sendPtp_within.after (setPtp_within.after .rfl))) (sendPtp_within.after (setPtp_within.after .rfl)))

theorem execAnnounceSend_answers {port : Nat} {s : State} : Answers [.time, .fab] s (execAnnounceSend port s) := by
  unfold execAnnounceSend
  refine .ite (.next .rfl) ?_
  dsimp only
  refine .next ?_
  split <;> exact txPush_within.after (setPtp_within.after .rfl)

theorem execDelayReqSend_answers {port : Nat} {s : State} : Answers [.time, .fab] s (execDelayReqSend port s) := by
  unfold execDelayReqSend
  refine .ite (.next .rfl) ?_
  dsimp only
  exact .next (sendPtp_within.after (setPtp_within.after .rfl))

theorem execPpsInEdge_answers {s : State} : Answers [.fresh, .time, .bar, .faults, .pins, .trace] s (execPpsInEdge s) := by
  unfold execPpsInEdge
  dsimp only
  exact .ite (.next .rfl) (.ite (.next (reselect_within.after (wf_within.after (setTime_within.after .rfl)))) (.ite (.next (setTime_within.after
    (stepTime_within.after (reselect_within.after (wf_within.after (setTime_within.after .rfl)))))) (.next (measure_within.after
    (reselect_within.after (wf_within.after (setTime_within.after .rfl)))))))

theorem execPpsInLoss_answers {s : State} : Answers [.time, .bar] s (execPpsInLoss s) := by
  unfold execPpsInLoss
  exact .ite (.next .rfl) (.next (reselect_within.after (wf_within.after (setTime_within.after .rfl))))

theorem execPpsOutPulse_answers {s : State} : Answers [.time, .pins] s (execPpsOutPulse s) := by
  unfold execPpsOutPulse
  exact .ite (.next (setTime_within.after (.pins .rfl))) (.next .rfl)

theorem execTcxoCompensation_answers {temp : W16} {s : State} : Answers [.time, .bar, .pwr] s (execTcxoCompensation temp s) := by
  unfold execTcxoCompensation
  refine .ite (.next .rfl) ?_
  dsimp only
  exact .next (.iteThen (setRho_within.after (.pwr (wr_within.after (.ite (setTime_within.after .rfl) .rfl)))) (wr_within.after .rfl))

theorem execHoldoverLimit_answers {s : State} : Answers [.time, .bar] s (execHoldoverLimit s) := by
  unfold execHoldoverLimit
  exact .next (.ite (freerun_within.after .rfl) .rfl)

theorem execTimeRead_answers {id : Nat} {s : State} : Answers [.fresh, .bar, .mem, .host, .parts, .fab, .faults, .trace] s (execTimeRead id s) := by
  unfold execTimeRead
  exact .next (.runCmd (fun u c => .checked (fun u => complete_within.after .rfl) .rfl) .rfl)

theorem execTimeSet_answers {id : Nat} {s : State} : Answers [.fresh, .time, .bar, .mem, .host, .parts, .fab, .faults, .pins, .trace] s (execTimeSet
    id s) := by
  unfold execTimeSet
  refine .next ?_
  refine .runCmd ?_ .rfl
  intro u c
  dsimp only
  exact .checked (fun u => complete_within.after (.iteThen (setTime_within.after (stepTime_within.after .rfl)) (wf_within.after .rfl))) .rfl

theorem execPtpConfig_answers {id : Nat} {s : State} : Answers [.fresh, .time, .bar, .mem, .host, .parts, .fab, .faults, .trace] s (execPtpConfig id
    s) := by
  unfold execPtpConfig
  refine .next ?_
  refine .runCmd ?_ .rfl
  intro u c
  dsimp only
  exact .checked (fun u => complete_within.after (.iteThen (setPtpState_within.after (setPtp_within.after (wf_within.after (wf_within.after (.iterate
    (fun i s => wf_within.after .rfl) .rfl))))) (reselect_within.after .rfl))) .rfl

theorem execPpsConfig_answers {id : Nat} {s : State} : Answers [.fresh, .time, .bar, .mem, .host, .parts, .fab, .faults, .pins, .trace] s
    (execPpsConfig id s) := by
  unfold execPpsConfig
  refine .next ?_
  refine .runCmd ?_ .rfl
  intro u c
  refine .checked ?_ .rfl
  intro u
  dsimp only
  exact complete_within.after (setTime_within.after (.pins .rfl))

theorem execTimeStatus_answers {id : Nat} {s : State} : Answers [.fresh, .bar, .mem, .cores, .host, .parts, .fab, .faults, .trace] s (execTimeStatus
    id s) := by
  unfold execTimeStatus
  refine .next ?_
  refine .runCmd ?_ .rfl
  intro u c
  dsimp only
  exact .checked (fun u => replyBuffer_within.after (latchTime_within.after .rfl)) .rfl

/-! ## SecRows -/

theorem execAttest_answers {id : Nat} {s : State} : Answers [.fresh, .bar, .mem, .cores, .host, .parts, .fab, .faults, .trace] s (execAttest id s) :=
    by
  unfold execAttest
  refine .next ?_
  refine .runCmd ?_ .rfl
  intro u c
  dsimp only
  exact .checked (fun u => .ite (tooSmall_within.after .rfl) (replyBuffer_within.after (draw_within.after .rfl))) .rfl

theorem execCertRead_answers {id : Nat} {s : State} : Answers [.fresh, .bar, .mem, .cores, .host, .parts, .fab, .faults, .trace] s (execCertRead id s)
    := by
  unfold execCertRead
  refine .next ?_
  refine .runCmd ?_ .rfl
  intro u c
  dsimp only
  exact .checked (fun u => .ite (tooSmall_within.after .rfl) (.ite (complete_within.after .rfl) (replyBuffer_within.after .rfl))) .rfl

theorem execFwUpdate_answers {id : Nat} {s : State} : Answers [.fresh, .bar, .mem, .host, .parts, .fab, .faults, .flash, .trace] s (execFwUpdate id s)
    := by
  unfold execFwUpdate
  refine .next ?_
  refine .runCmd ?_ .rfl
  intro u c
  dsimp only
  split
  · split
    · exact reject_within.after (logSec_within.after (structRead_within.after .rfl))
    · exact .withStruct (fun u => complete_within.after (commitImage_within.after .rfl)) (structRead_within.after .rfl)
  · split
    · exact reject_within.after (logSec_within.after (structRead_within.after .rfl))
    · exact .withStruct (fun u => complete_within.after (commitImage_within.after .rfl)) (structRead_within.after .rfl)
  · exact reject_within.after (.ite (logSec_within.after .rfl) .rfl)

theorem firstBad_eq_none {l : List (Bool × W16 × Nat)} (h : firstBad l = none) {x : Bool × W16 × Nat} (hx : x ∈ l) : x.1 = false :=
  Bool.eq_false_iff.2 (List.find?_eq_none.1 (Option.map_eq_none_iff.1 h) x hx)

/-- A command that passes its checks has no bad parameter and finds room. -/
theorem checks_eq_none {s : State} {c : Cmd} {perm : List Bool} {locked : Bool} {param absent : List (Bool × Nat)} {conflict : List (Bool × W16 × Nat)} {room : Bool}
    (h : checks s c perm locked param absent conflict room = none) : (∀ x ∈ param, x.1 = false) ∧ room = false := by
  unfold checks at h
  refine ⟨fun x hx => firstBad_eq_none h (x := ckParam x.1 x.2) ?_, firstBad_eq_none h (x := ckRoom room) ?_⟩
  · simp only [List.mem_append, List.mem_map]
    exact .inl (.inl (.inl (.inl (.inr ⟨x, hx, by rfl⟩))))
  · simp only [List.mem_append, List.mem_singleton]
    exact .inr True.intro

/-- With four generations burnt, a record breaks a rule of R408. -/
theorem ownerFault_of_full {s : State} {bs : List Byte} (h : 4 ≤ s.sec.owners.length) :
    (∃ d, ownerFault s bs = some (0x0101, d)) ∨ ownerFault s bs = some (0x0104, 0) := by
  unfold ownerFault
  extract_lets gen burnt key signer
  by_cases h1 : bytesAt bs 0 4 ≠ 0x4B4F474E ∨ bytesAt bs 4 4 / 16 ≠ 0 ∨ bytesAt bs 24 40 ≠ 0 ∨ bytesAt bs 128 64 ≠ 0
  · exact .inl ⟨_, if_pos h1⟩
  by_cases h2 : gen ≠ burnt + 1 ∨ BitVec.ofNat 128 (bytesAt bs 8 16) ≠ s.flash.serial
  · exact .inl ⟨_, by rw [if_neg h1, if_pos h2]⟩
  by_cases h3 : (!signedBy bs signer) = true
  · exact .inl ⟨_, by rw [if_neg h1, if_neg h2, if_pos h3]⟩
  · exact .inr (by rw [if_neg h1, if_neg h2, if_neg h3, if_pos h])

/-- A generation is burnt only where fewer than four are. -/
theorem owners_room {s u : State} {c : Cmd} {bs : List Byte} {early : List (Bool × Nat)}
    (h : checks u c [] false (early ++ (match ownerFault s bs with | some (0x0101, d) => [(true, d)] | _ => [])) [] []
      (match ownerFault s bs with | some (0x0104, _) => true | _ => false) = none) : s.sec.owners.length < 4 := by
  refine Nat.lt_of_not_le fun hf => ?_
  obtain ⟨hp, hr⟩ := checks_eq_none h
  obtain ⟨d, hd⟩ | hd := ownerFault_of_full (bs := bs) hf
  · rw [hd] at hp
    exact absurd (hp (true, d) (List.mem_append_right _ (List.mem_singleton_self _))) nofun
  · rw [hd] at hr
    exact absurd hr nofun

/-- A further generation keeps what manufacture fixed while fewer than four are burnt. -/
theorem Within.ownerKey {P : List Piece} {s t : State} {g : BitVec 512 × Bool} {k : BitVec 512} (h : Within P s t) (hn : t.sec.owners.length < 4)
    (hp : [Piece.sec, .flash] ⊆ P := by decide) :
    Within P s { t with sec := { t.sec with owners := t.sec.owners ++ [g] }, flash := { t.flash with ownerKey := k } } :=
  h.trans ⟨by rfl, by rfl, fun p hn => by
      cases p <;> first | rfl | exact absurd (hp (by decide)) hn, id, id, fun ⟨h1, h2, h3, h4, _⟩ => ⟨h1, h2, h3, h4, by
      rw [List.length_append]
      exact hn⟩⟩

/-- OWNER_KEY_SET's record once it is read: the generation is burnt where the checks pass. -/
theorem ownerKeySet_read {u v : State} {c : Cmd} {st : W16} {bs : List Byte} {early : List (Bool × Nat)} (h : Within cmdPieces u v) :
    Within [.fresh, .bar, .mem, .host, .parts, .fab, .faults, .sec, .flash, .trace] u
      (let bad := if st = 0 then ownerFault v bs else none
       let param := match bad with | some (0x0101, d) => [(true, d)] | _ => []
       let full := match bad with | some (0x0104, _) => true | _ => false
       withStruct v c st (checks v c [] false (early ++ param) [] [] full) fun s =>
        let key := bytesAt bs 64 64
        let s := { s with
          sec := { s.sec with owners := s.sec.owners ++ [(digest (leBytes 64 key), nbit (bytesAt bs 4 1) 3)] }
          flash := { s.flash with ownerKey := BitVec.ofNat 512 key } }
        complete (logSec s 7 0 0 (cmdTag c)) c stOk 0 0) := by
  unfold withStruct
  dsimp only
  split
  · exact reject_within.after h.mono
  next hck =>
    split
    · exact reject_within.after h.mono
    next hst =>
      rw [if_pos (not_not.1 hst)] at hck
      exact complete_within.after (logSec_within.after (.ownerKey (h.mono) (owners_room hck)))

theorem execOwnerKeySet_answers {id : Nat} {s : State} : Answers [.fresh, .bar, .mem, .host, .parts, .fab, .faults, .sec, .flash, .trace] s
    (execOwnerKeySet id s) := by
  unfold execOwnerKeySet
  refine .next (.runCmd (fun u c => ?_) .rfl)
  extract_lets a early
  refine .rankFirst ?_ fun st d => reject_within.after .rfl
  have hr := structRead_within (s := u) (c := c) (a := a) (n := 29984)
  generalize structRead u c a 29984 = x at hr
  obtain ⟨st, bs, v⟩ := x
  clear_value early
  exact ownerKeySet_read hr.mono

theorem execDebugPassword_answers {id : Nat} {s : State} : Answers [.fresh, .bar, .mem, .host, .parts, .fab, .faults, .sec, .flash, .trace] s
    (execDebugPassword id s) := by
  unfold execDebugPassword
  refine .next (.runCmd (fun u c => ?_) .rfl)
  extract_lets a early locked
  refine .rankFirst ?_ fun st d => reject_within.after .rfl
  have hr := structRead_within (s := u) (c := c) (a := a) (n := 128)
  generalize structRead u c a 128 = x at hr
  obtain ⟨st, bs, v⟩ := x
  exact .withStruct (fun w => passwordOp_within.after .rfl) hr.mono

theorem execDebugChallenge_answers {id : Nat} {s : State} : Answers [.fresh, .bar, .mem, .cores, .host, .parts, .fab, .faults, .sec, .trace] s
    (execDebugChallenge id s) := by
  unfold execDebugChallenge
  refine .next ?_
  refine .runCmd ?_ .rfl
  intro u c
  dsimp only
  exact .checked (fun u => replyBuffer_within.after (.security (draw_within.after .rfl))) .rfl

theorem execDebugToken_answers {id : Nat} {s : State} : Answers [.fresh, .bar, .mem, .host, .parts, .fab, .faults, .sec, .trace] s (execDebugToken id
    s) := by
  unfold execDebugToken
  refine .next ?_
  refine .runCmd ?_ .rfl
  intro u c
  dsimp only
  exact .checked (fun u => .ite (tokenOp_within.after .rfl) (.ite (reject_within.after (.security (structRead_within.after .rfl)))
    (tokenOp_within.after (structRead_within.after .rfl)))) .rfl

theorem execDebugLock_answers {id : Nat} {s : State} : Answers [.fresh, .bar, .mem, .host, .parts, .fab, .faults, .sec, .trace] s (execDebugLock id s)
    := by
  unfold execDebugLock
  exact .next (.runCmd (fun u c => .checked (fun u => complete_within.after (.ite (closeDebug_within.after .rfl) .rfl)) .rfl) .rfl)

theorem execDebugExpiry_answers {s : State} : Answers [.bar, .faults, .sec, .trace] s (execDebugExpiry s) := by
  unfold execDebugExpiry
  dsimp only
  exact .next (.ite (closeDebug_within.after .rfl) .rfl)

theorem execNonceExpiry_answers {s : State} : Answers [.sec] s (execNonceExpiry s) := by
  unfold execNonceExpiry
  exact .next (.ite (.security .rfl) .rfl)

theorem execTraceConfig_answers {id : Nat} {s : State} : Answers [.fresh, .bar, .mem, .host, .parts, .fab, .faults, .trace] s (execTraceConfig id s) := by
  unfold execTraceConfig
  refine .next (.runCmd (fun u c => ?_) .rfl)
  extract_lets a early locked
  refine .rankFirst ?_ fun st d => reject_within.after .rfl
  have hr := structRead_within (s := u) (c := c) (a := a) (n := 64)
  generalize structRead u c a 64 = x at hr
  obtain ⟨st, bs, v⟩ := x
  exact .withStruct (fun w => complete_within.after (traceSetup_within.after .rfl)) hr.mono

/-! ## TwinRows -/

theorem execTwinPair_answers {id : Nat} {s : State} : Answers [.fresh, .bar, .mem, .host, .parts, .se, .fab, .faults, .twin, .trace] s (execTwinPair
    id s) := by
  unfold execTwinPair
  refine .next ?_
  refine .runCmd ?_ .rfl
  intro u c
  dsimp only
  exact .checked (fun u => streamCopy_within.after (twinSend_within.after (logTwin_within.after (notePaths_within.after (setTwin_within.after
    (wf_within.after (wf_within.after .rfl))))))) .rfl

theorem execPairingRequest_answers {node : W16} {models : List TwinModel} {s : State} : Answers [.fresh, .bar, .mem, .host, .parts, .se, .fab,
    .faults, .twin, .trace] s (execPairingRequest node models s) := by
  unfold execPairingRequest
  dsimp only
  refine .ite (.next .rfl) ?_
  split
  · exact .next (setTwin_within.after .rfl)
  · exact .next (.ite (streamCopy_within.after (setTwin_within.after .rfl)) .rfl)
  · exact .next .rfl

theorem execCopyDone_answers {s : State} : Answers [.fresh, .bar, .mem, .host, .parts, .fab, .faults, .twin, .trace] s (execCopyDone s) := by
  unfold execCopyDone
  exact .next (.ite (becomePaired_within.after (setTwin_within.after .rfl)) .rfl)

theorem execPairingTimeout_answers {s : State} : Answers [.fresh, .bar, .mem, .host, .parts, .fab, .faults, .twin, .trace] s (execPairingTimeout s) :=
    by
  unfold execPairingTimeout
  exact .next (.ite (failPairing_within.after .rfl) .rfl)

theorem execMirrorItem_answers {m : MirrorItem} {s : State} : Answers [.fresh, .bar, .mem, .host, .parts, .se, .fab, .faults, .twin, .trace] s
    (execMirrorItem m s) := by
  unfold execMirrorItem
  refine .ite (.next .rfl) ?_
  split
  · dsimp only
    exact .ite (.next (setTwin_within.after .rfl)) (.ite (.next (.iteThen (refuseItem_within.after .rfl) (mirrorFull_within.after .rfl))) (.next
      (setTwin_within.after .rfl)))
  · exact .ite (.next (mirrorFull_within.after (refuseItem_within.after .rfl))) (.next (setTwin_within.after .rfl))
  · exact .next (setTwin_within.after .rfl)
  · dsimp only
    exact .next (setTwin_within.after .rfl)

theorem execHeartbeatSend_answers {s : State} : Answers [.bar, .parts, .fab] s (execHeartbeatSend s) := by
  unfold execHeartbeatSend
  exact .next (.ite (twinPost_within.after .rfl) .rfl)

theorem execHeartbeat_answers {fabric : Bool} {s : State} : Answers [.bar, .twin] s (execHeartbeat fabric s) := by
  unfold execHeartbeat
  dsimp only
  exact .next (.ite (wr64_within.after (setTwin_within.after .rfl)) .rfl)

theorem execTwinDetach_answers {id : Nat} {s : State} : Answers [.fresh, .bar, .mem, .host, .parts, .se, .fab, .faults, .twin, .trace] s
    (execTwinDetach id s) := by
  unfold execTwinDetach
  exact .next (.runCmd (fun u c => .checked (fun u => beginDetach_within.after .rfl) .rfl) .rfl)

theorem execDetachNotice_answers {s : State} : Answers [.fresh, .bar, .mem, .host, .parts, .se, .fab, .faults, .twin, .trace] s (execDetachNotice s)
    := by
  unfold execDetachNotice
  exact .next (.ite (beginDetach_within.after .rfl) .rfl)

theorem execHandoffNotice_answers {s : State} : Answers [.fresh, .bar, .mem, .host, .parts, .se, .fab, .faults, .twin, .trace] s (execHandoffNotice s)
    := by
  unfold execHandoffNotice
  exact .next (.ite (takeover_within.after .rfl) .rfl)

theorem execPartnerLost_answers {s : State} : Answers [.fresh, .bar, .mem, .host, .parts, .se, .fab, .faults, .twin, .trace] s (execPartnerLost s) :=
    by
  unfold execPartnerLost
  refine .ite (.next .rfl) ?_
  split
  · exact .next (takeover_within.after .rfl)
  · exact .next (.ite (failPairing_within.after .rfl) .rfl)
  · exact .next .rfl

theorem execTwinStatus_answers {id : Nat} {s : State} : Answers [.fresh, .bar, .mem, .cores, .host, .parts, .fab, .faults, .trace] s (execTwinStatus
    id s) := by
  unfold execTwinStatus
  refine .next ?_
  refine .runCmd ?_ .rfl
  intro u c
  dsimp only
  exact .checked (fun u => replyBuffer_within.after .rfl) .rfl

theorem execWeightRepair_answers {k : RepairInput} {s : State} : Answers [.fresh, .bar, .mem, .faults, .flash, .trace] s (execWeightRepair k s) := by
  unfold execWeightRepair
  exact .next (weightRepair_within.after .rfl)

theorem execWeightRepairRetry_answers {k : RepairInput} {s : State} : Answers [.fresh, .bar, .mem, .faults, .flash, .trace] s (execWeightRepairRetry k
    s) := by
  unfold execWeightRepairRetry
  exact .next (weightRepair_within.after .rfl)

/-! ## All commands -/

/-- Every command answers, and changes only the pieces its row names. -/
theorem exec_answers (c : Instr) (s : State) : Answers (mayChange c) s (exec c s) := by
  cases c
  case nbProg => exact execNbProg_answers
  case nbStart => exact execNbStart_answers
  case nbBcast => exact execNbBcast_answers
  case nbDrain => exact execNbDrain_answers
  case nbGroupAbort => exact execNbGroupAbort_answers
  case nbStatus => exact execNbStatus_answers
  case gemv => exact execGemv_answers
  case qk => exact execQk_answers
  case pv => exact execPv_answers
  case rclear => exact execRclear_answers
  case pzero => exact execPzero_answers
  case load => exact execLoad_answers
  case drain => exact execDrain_answers
  case blastEnd => exact execBlastEnd_answers
  case entryComplete => exact execEntryComplete_answers
  case grantWindow => exact execGrantWindow_answers
  case microStep => exact execMicroStep_answers
  case start => exact execStart_answers
  case homeSliceAccess => exact execHomeSliceAccess_answers
  case bucketWaitEnd => exact execBucketWaitEnd_answers
  case memoryOperationComplete => exact execMemoryOperationComplete_answers
  case writeBufferDrain => exact execWriteBufferDrain_answers
  case urgencyRise => exact execUrgencyRise_answers
  case yieldSlot => exact execYieldSlot_answers
  case memoryResponse => exact execMemoryResponse_answers
  case semaphoreOperation => exact execSemaphoreOperation_answers
  case clockGate => exact execClockGate_answers
  case aqEnable => exact execAqEnable_answers
  case aqDisable => exact execAqDisable_answers
  case aqDisableDone => exact execAqDisableDone_answers
  case sqTail => exact execSqTail_answers
  case cqHead => exact execCqHead_answers
  case commandFetch => exact execCommandFetch_answers
  case nop => exact execNop_answers
  case queueCreate => exact execQueueCreate_answers
  case queueDelete => exact execQueueDelete_answers
  case queueStatus => exact execQueueStatus_answers
  case semSignal => exact execSemSignal_answers
  case semWait => exact execSemWait_answers
  case poll => exact execPoll_answers
  case yieldRetest => exact execYieldRetest_answers
  case semWaitTimeout => exact execSemWaitTimeout_answers
  case semWrite => exact execSemWrite_answers
  case semRead => exact execSemRead_answers
  case tallyRead => exact execTallyRead_answers
  case errlogRead => exact execErrlogRead_answers
  case jobLaunch => exact execJobLaunch_answers
  case jobCancel => exact execJobCancel_answers
  case jobQuery => exact execJobQuery_answers
  case jobEnd => exact execJobEnd_answers
  case jobStart => exact execJobStart_answers
  case partitionDefine => exact execPartitionDefine_answers
  case partitionDelete => exact execPartitionDelete_answers
  case preempt => exact execPreempt_answers
  case resume => exact execResume_answers
  case refresh => exact execRefresh_answers
  case powerDown => exact execPowerDown_answers
  case selfRefresh => exact execSelfRefresh_answers
  case patrolScrub => exact execPatrolScrub_answers
  case rowRepair => exact execRowRepair_answers
  case periodicRetrain => exact execPeriodicRetrain_answers
  case urgentRetrain => exact execUrgentRetrain_answers
  case modelLoad => exact execModelLoad_answers
  case modelUnload => exact execModelUnload_answers
  case modelQuery => exact execModelQuery_answers
  case sessionOpen => exact execSessionOpen_answers
  case sessionPause => exact execSessionPause_answers
  case sessionResume => exact execSessionResume_answers
  case sessionCancel => exact execSessionCancel_answers
  case sessionQuery => exact execSessionQuery_answers
  case sessionSet => exact execSessionSet_answers
  case sessionRead => exact execSessionRead_answers
  case requestSubmit => exact execRequestSubmit_answers
  case kvPoolConfig => exact execKvPoolConfig_answers
  case outputRingConfig => exact execOutputRingConfig_answers
  case stepStart => exact execStepStart_answers
  case groupPlan => exact execGroupPlan_answers
  case rescue => exact execRescue_answers
  case stepCommit => exact execStepCommit_answers
  case idleBoundary => exact execIdleBoundary_answers
  case ttlExpiry => exact execTtlExpiry_answers
  case tierMoveDone => exact execTierMoveDone_answers
  case registerWrite => exact execRegisterWrite_answers
  case lowWordRead => exact execLowWordRead_answers
  case highWordRead => exact execHighWordRead_answers
  case timeNowFrac => exact execTimeNowFrac_answers
  case traceSemSel => exact execTraceSemSel_answers
  case pwrHistSel => exact execPwrHistSel_answers
  case stop => exact execStop_answers
  case arm => exact execArm_answers
  case run => exact execRun_answers
  case injectionFire => exact execInjectionFire_answers
  case powerUp => exact execPowerUp_answers
  case pwrEnFall => exact execPwrEnFall_answers
  case brownout => exact execBrownout_answers
  case overvoltage => exact execOvervoltage_answers
  case pwrEnHoldOffEnd => exact execPwrEnHoldOffEnd_answers
  case resetN => exact execResetN_answers
  case resetNRelease => exact execResetNRelease_answers
  case perstNRelease => exact execPerstNRelease_answers
  case deviceReset => exact execDeviceReset_answers
  case bootPhase => exact execBootPhase_answers
  case sbBoardCap => exact execSbBoardCap_answers
  case rcvStart => exact execRcvStart_answers
  case sbRcvData => exact execSbRcvData_answers
  case commit => exact execCommit_answers
  case shutdownCompare => exact execShutdownCompare_answers
  case identify => exact execIdentify_answers
  case fenceL => exact execFenceL_answers
  case fenceD => exact execFenceD_answers
  case fenceH => exact execFenceH_answers
  case fenceComplete => exact execFenceComplete_answers
  case bundleNop => exact execBundleNop_answers
  case reservedHeader => exact execReservedHeader_answers
  case truncatedBundle => exact execTruncatedBundle_answers
  case deadlock => exact execDeadlock_answers
  case put => exact execPut_answers
  case levelAdd => exact execLevelAdd_answers
  case signal => exact execSignal_answers
  case putSignal => exact execPutSignal_answers
  case get => exact execGet_answers
  case atomic => exact execAtomic_answers
  case command => exact execCommand_answers
  case reservedKindPacket => exact execReservedKindPacket_answers
  case getResp => exact execGetResp_answers
  case atomicResp => exact execAtomicResp_answers
  case commandReply => exact execCommandReply_answers
  case errorResp => exact execErrorResp_answers
  case ack => exact execAck_answers
  case reset => exact execReset_answers
  case ackSend => exact execAckSend_answers
  case retransmit => exact execRetransmit_answers
  case rtoExpiry => exact execRtoExpiry_answers
  case rateIncrease => exact execRateIncrease_answers
  case quarantineEnd => exact execQuarantineEnd_answers
  case opTimeout => exact execOpTimeout_answers
  case linkUp => exact execLinkUp_answers
  case linkDown => exact execLinkDown_answers
  case neighbourDiscovery => exact execNeighbourDiscovery_answers
  case arp => exact execArp_answers
  case icmpEcho => exact execIcmpEcho_answers
  case otherFrame => exact execOtherFrame_answers
  case rxBadPacket => exact execRxBadPacket_answers
  case portConfig => exact execPortConfig_answers
  case portStatus => exact execPortStatus_answers
  case nodeConfig => exact execNodeConfig_answers
  case peerSet => exact execPeerSet_answers
  case peerClear => exact execPeerClear_answers
  case move => exact execMove_answers
  case fill => exact execFill_answers
  case moveRetire => exact execMoveRetire_answers
  case memMove => exact execMemMove_answers
  case hostAccess => exact execHostAccess_answers
  case cxlMemAccess => exact execCxlMemAccess_answers
  case memAlloc => exact execMemAlloc_answers
  case memFree => exact execMemFree_answers
  case memmapConfig => exact execMemmapConfig_answers
  case nbRun => exact execNbRun_answers
  case nbAbort => exact execNbAbort_answers
  case coreWatchdog => exact execCoreWatchdog_answers
  case coreSramError => exact execCoreSramError_answers
  case clusterFault => exact execClusterFault_answers
  case stackFault => exact execStackFault_answers
  case portFault => exact execPortFault_answers
  case deviceFault => exact execDeviceFault_answers
  case retrainEnd => exact execRetrainEnd_answers
  case recoveryEnd => exact execRecoveryEnd_answers
  case recoveryTimeout => exact execRecoveryTimeout_answers
  case controlPeriod => exact execControlPeriod_answers
  case voltageReached => exact execVoltageReached_answers
  case powerSample => exact execPowerSample_answers
  case thermalSample => exact execThermalSample_answers
  case fullAssay => exact execFullAssay_answers
  case assayComplete => exact execAssayComplete_answers
  case assayTimeout => exact execAssayTimeout_answers
  case recalibration => exact execRecalibration_answers
  case sensorRead => exact execSensorRead_answers
  case flashLogCopy => exact execFlashLogCopy_answers
  case sourceSelect => exact execSourceSelect_answers
  case sync => exact execSync_answers
  case followUp => exact execFollowUp_answers
  case delayReq => exact execDelayReq_answers
  case delayResp => exact execDelayResp_answers
  case announce => exact execAnnounce_answers
  case syncSend => exact execSyncSend_answers
  case announceSend => exact execAnnounceSend_answers
  case delayReqSend => exact execDelayReqSend_answers
  case ppsInEdge => exact execPpsInEdge_answers
  case ppsInLoss => exact execPpsInLoss_answers
  case ppsOutPulse => exact execPpsOutPulse_answers
  case tcxoCompensation => exact execTcxoCompensation_answers
  case holdoverLimit => exact execHoldoverLimit_answers
  case timeRead => exact execTimeRead_answers
  case timeSet => exact execTimeSet_answers
  case ptpConfig => exact execPtpConfig_answers
  case ppsConfig => exact execPpsConfig_answers
  case timeStatus => exact execTimeStatus_answers
  case attest => exact execAttest_answers
  case certRead => exact execCertRead_answers
  case fwUpdate => exact execFwUpdate_answers
  case ownerKeySet => exact execOwnerKeySet_answers
  case debugPassword => exact execDebugPassword_answers
  case debugChallenge => exact execDebugChallenge_answers
  case debugToken => exact execDebugToken_answers
  case debugLock => exact execDebugLock_answers
  case debugExpiry => exact execDebugExpiry_answers
  case nonceExpiry => exact execNonceExpiry_answers
  case traceConfig => exact execTraceConfig_answers
  case twinPair => exact execTwinPair_answers
  case pairingRequest => exact execPairingRequest_answers
  case copyDone => exact execCopyDone_answers
  case pairingTimeout => exact execPairingTimeout_answers
  case mirrorItem => exact execMirrorItem_answers
  case heartbeatSend => exact execHeartbeatSend_answers
  case heartbeat => exact execHeartbeat_answers
  case twinDetach => exact execTwinDetach_answers
  case detachNotice => exact execDetachNotice_answers
  case handoffNotice => exact execHandoffNotice_answers
  case partnerLost => exact execPartnerLost_answers
  case twinStatus => exact execTwinStatus_answers
  case weightRepair => exact execWeightRepair_answers
  case weightRepairRetry => exact execWeightRepairRetry_answers
  all_goals exact .next issueRow_within

end Sys2Proof.Machine
end

section
/-! PROOFS. What every step keeps (R1, R402, R408, and the canonical form of memory), that every step answers, and why a cycle of TIME need not keep the
registers (R341). -/
namespace Sys2Proof.Machine
open Sys2Proof.Claims

/-! ## A cycle of TIME -/

theorem commitNext_serial (f : Flash) : f.commitNext.serial = f.serial := by
  unfold Flash.commitNext
  split
  · rfl
  · exact commit_serial _ _

theorem commitNext_certs (f : Flash) : f.commitNext.certs = f.certs := by
  unfold Flash.commitNext
  split
  · rfl
  · exact commit_certs _ _

theorem tick_within {s : State} : Within everyPiece s (tick s) := by
  unfold tick
  refine .ite .rfl ?_
  exact .several (.foldl (fun s k => fecCount_within.after .rfl) (settleTables_within.after (watchPass_within.after .rfl)))
    (hf := ⟨by exact commitNext_serial _, by exact commitNext_certs _⟩)

/-! ## A step -/

/-- A step answers with a state that is in the relation, whatever the queue was. -/
theorem step_answers (s : State) : ∃ r t, step s = .next t ∧ Within everyPiece { s with pending := r } t := by
  unfold step
  split
  next h => exact ⟨[], tick s, by rfl, by rw [← h]; exact tick_within⟩
  next c rest _ =>
    obtain ⟨t, ht, hw⟩ := exec_answers c { s with pending := rest }
    exact ⟨rest, t, ht, hw.mono (fun p _ => by cases p <;> decide)⟩

/-! ## A zero listed among the tallies -/

/-- No pair of the 64-bit registers holds the Reset value of its register at this offset. -/
def NoReset (off : Nat) (s : State) : Prop := tfind s.bar.regs64 off ≠ some (BitVec.ofNat 64 (regReset s.grade off))

theorem noReset_wr64_same (s : State) (off : Nat) (v : W64) : NoReset off (wr64 s off v) := by
  unfold NoReset wr64 tset
  dsimp only
  split
  · rw [tfind_tdel_same]
    nofun
  next h =>
    rw [tfind_tput_same]
    exact fun k => h (Option.some.inj k)

theorem NoReset.wr64 {s : State} {off : Nat} (h : NoReset off s) (p : Nat) (v : W64) : NoReset off (wr64 s p v) := by
  by_cases hp : off = p
  · exact hp ▸ noReset_wr64_same s off v
  · unfold NoReset Machine.wr64 tset
    dsimp only
    split
    · rwa [tfind_tdel_ne _ hp]
    · rwa [tfind_tput_ne _ _ hp]

theorem noReset_bump_iff {s : State} {off p status bit n : Nat} :
    NoReset off (bump s p status bit n) ↔ NoReset off (wr64 s p (BitVec.ofNat 64 ((rd64 s p).toNat + n))) := by
  unfold bump
  dsimp only
  split <;> exact Iff.rfl

theorem NoReset.bump {s : State} {off : Nat} (h : NoReset off s) (p status bit n : Nat) : NoReset off (bump s p status bit n) :=
  noReset_bump_iff.2 (h.wr64 _ _)

theorem NoReset.portTally {s : State} {off : Nat} (h : NoReset off s) (k i n : Nat) : NoReset off (portTally s k i n) := h.bump _ _ _ _

theorem NoReset.fecCount {s : State} {off : Nat} (h : NoReset off s) (k : Nat) : NoReset off (fecCount s k) := by
  unfold Machine.fecCount
  split
  · exact h
  · have hd : NoReset off (drawBelow (drawBelow s 3).2 (3 - (drawBelow s 3).1)).2 := h
    exact (hd.portTally k 0 _).portTally k 1 _

/-- A port that is up writes its tally of corrected codewords in every cycle, whatever the count (R341). -/
theorem noReset_fecCount_same {s : State} {k : Nat} (h : portUp s k = true) : NoReset (FAB_PORT_FEC_CORR k) (fecCount s k) := by
  unfold fecCount
  rw [h]
  exact NoReset.portTally (noReset_bump_iff.2 (noReset_wr64_same _ _ _)) _ _ _

/-- A READY device whose port 0 is up, with a zero listed for the port's first tally. -/
def zeroTally : State :=
  let s := wf (wf State.reset GLOBAL_STATE 0 3 2) (FAB_PORT_LINK 0) 2 8 1
  { s with bar := { s.bar with regs64 := [(FAB_PORT_FEC_CORR 0, 0)] } }

theorem noReset_tick {s : State} (hr : s.pins.rails = true) (hl : s.pins.resetLow = false) (hup : portUp (settleTables (watchPass s 10)) 0 = true) :
    NoReset (FAB_PORT_FEC_CORR 0) (tick s) := by
  unfold tick
  rw [hr, hl]
  exact ((((noReset_fecCount_same hup).fecCount 1).fecCount 2).fecCount 3).fecCount 4

end Sys2Proof.Machine

namespace Sys2Proof.Claims
open Sys2Proof.Machine

/-- Settles O1: the step's own equation. -/
theorem stepRunsFront : Obligations.StepRunsFront := by
  unfold Obligations.StepRunsFront
  intro s c rest h
  unfold step
  rw [h]

/-- Refutes O2: a port that is up counts its codewords in every cycle (R341; log entry 156, DESIGN CHOICE), so a cycle of TIME need not keep the registers,
though no table has an error. How many it counts is a free value, which may be 0; the witness lists a zero for the tally, which no count leaves in place. -/
theorem not_stepsAnswer : ¬ Obligations.StepsAnswer := by
  unfold Obligations.StepsAnswer
  intro h
  obtain ⟨t, ht, -, -, -, hkeep, -⟩ := h.1 zeroTally (by rfl) (by rfl) (by rfl) (by decide +kernel) (by decide +kernel) (by decide +kernel)
  obtain rfl : tick zeroTally = t := Host.Outcome.next.inj ht
  have hbar : (tick zeroTally).bar = zeroTally.bar := (hkeep (by rfl)).2
  refine noReset_tick (s := zeroTally) (by rfl) (by rfl) (by decide +kernel) ?_
  rw [hbar]
  decide +kernel

/-- Settles O3: a step is within its pieces, which keeps what manufacture fixed. -/
theorem fusesKept : Obligations.FusesKept := by
  unfold Obligations.FusesKept
  intro s t hf h
  obtain ⟨r, u, hu, hw⟩ := step_answers s
  exact Host.Outcome.next.inj (hu.symm.trans h) ▸ hw.fused hf

/-- Settles O4: a command is within the pieces of its row. -/
theorem commandsKeepTheRest : Obligations.CommandsKeepTheRest := by
  unfold Obligations.CommandsKeepTheRest
  intro c s t h
  obtain ⟨u, hu, hw⟩ := exec_answers c s
  obtain rfl := Host.Outcome.next.inj (hu.symm.trans h)
  exact ⟨hw.pending, hw.grade, hw.same⟩

/-- Settles O26: a step is within its pieces, which keeps the canonical form of device and host memory. -/
theorem memoryStaysCanonical : Obligations.MemoryStaysCanonical := by
  unfold Obligations.MemoryStaysCanonical
  intro s t hm hh h
  obtain ⟨r, u, hu, hw⟩ := step_answers s
  obtain rfl := Host.Outcome.next.inj (hu.symm.trans h)
  exact ⟨hw.mem hm, hw.host hh⟩

/-- Refutes O36: partition 0 is defined from reset on (its PART_STATUS resets to 1). -/
theorem not_resetState : ¬ Obligations.ResetState := by
  unfold Obligations.ResetState
  rintro ⟨-, -, -, -, -, -, -, -, hparts, -⟩
  exact absurd (hparts 0 (by decide)) (by decide +kernel)

end Sys2Proof.Claims
end

section
/-! PROOFS. The supply, the resets, BOOT's phases and the sideband. -/
namespace Sys2Proof.Machine
open Sys2Proof.Claims

/-! ## The registers after a reset -/

theorem tfind_foldl_tput_ne {α : Type} (l : List (Nat × α)) (t : Tab α) {k : Nat} (h : ∀ p ∈ l, k ≠ p.1) :
    tfind (l.foldl (fun t p => tput t p.1 p.2) t) k = tfind t k := by
  induction l generalizing t with
  | nil => rfl
  | cons p l ih =>
    rw [List.foldl_cons, ih _ fun q hq => h q (List.mem_cons_of_mem _ hq), tfind_tput_ne _ _ (h p List.mem_cons_self)]

/-- A register that no reset keeps reads its Reset value after one. -/
theorem rd_resetAll {s : State} {cause off : Nat} (hk : keptReg off = false) (hr : off ≠ GLOBAL_RESET) (hp : ∀ i < 8, off ≠ PWR_STK i) :
    rd (resetAll s cause) off = BitVec.ofNat 32 (regReset s.grade off) := by
  have hbar : (resetAll s cause).bar = Bar.afterReset s cause := rfl
  have hgrade : (resetAll s cause).grade = s.grade := rfl
  unfold rd
  rw [hbar, hgrade]
  unfold Bar.afterReset
  rw [tget_tset_ne _ _ _ _ hr]
  unfold tget
  rw [tfind_foldl_tput_ne _ _ ?_, tfind_filter, hk]
  · rfl
  · intro p hp'
    obtain ⟨i, hi, h⟩ := List.mem_filterMap.1 hp'
    have hi := List.mem_range.1 hi
    dsimp only at h
    split at h
    · cases h
    · obtain rfl := Option.some.inj h
      exact hp i hi

theorem rd_resetAll_cause (s : State) (cause : Nat) : rd (resetAll s cause) GLOBAL_RESET = BitVec.ofNat 32 cause := by
  have hbar : (resetAll s cause).bar = Bar.afterReset s cause := rfl
  have hgrade : (resetAll s cause).grade = s.grade := rfl
  unfold rd
  rw [hbar, hgrade]
  have h0 : BitVec.ofNat 32 (regReset s.grade GLOBAL_RESET) = 0 := by cases s.grade <;> decide +kernel
  rw [h0]
  exact tget_tset_same _ _ _ _

theorem storedState_of_rd {s : State} (h : rd s GLOBAL_STATE = BitVec.ofNat 32 (regReset s.grade GLOBAL_STATE)) : storedState s = 1 := by
  unfold storedState rf
  rw [h]
  cases s.grade <;> decide +kernel

theorem storedState_resetAll (s : State) (cause : Nat) : storedState (resetAll s cause) = 1 :=
  storedState_of_rd (rd_resetAll (by decide +kernel) (by decide +kernel) (by decide +kernel))

theorem storedState_railsUp (s : State) (v : Nat) : storedState (railsUp s v) = 1 :=
  storedState_of_rd (by rfl)

theorem storedState_wr_zero (s : State) : storedState (wr s GLOBAL_STATE 0) = 0 := by
  unfold storedState
  rw [rf_wr_same]
  rfl

theorem rd_resetKeepingTime {s : State} {cause off : Nat} (ha : off ≠ TIME_ADJ) (ht : off ≠ TIME_TCXO) :
    rd (resetKeepingTime s cause) off = rd (resetAll s cause) off := by
  unfold resetKeepingTime
  dsimp only
  rw [rd_wr_ne _ _ ht, rd_wr_ne _ _ ha]

/-! ## Packed words -/

theorem getLsbD_foldl_or {w : Nat} (fs : List (Nat × Nat × Nat)) (x : BitVec w) (i : Nat) :
    (fs.foldl (fun x f => x ||| ((BitVec.ofNat w (f.2.2 % 2 ^ f.2.1)) <<< f.1)) x).getLsbD i =
      (x.getLsbD i || decide (i < w) && fs.any fun f => decide (f.1 ≤ i) && decide (i < f.1 + f.2.1) && f.2.2.testBit (i - f.1)) := by
  induction fs generalizing x with
  | nil => simp
  | cons f fs ih =>
    rw [List.foldl_cons, ih, BitVec.getLsbD_or, BitVec.getLsbD_shiftLeft, BitVec.getLsbD_ofNat, Nat.testBit_mod_two_pow, List.any_cons]
    by_cases hw : i < w
    · by_cases hl : f.1 ≤ i
      · have h1 : i - f.1 < w := by omega
        have h2 : (i - f.1 < f.2.1) = (i < f.1 + f.2.1) := by rw [eq_iff_iff]; omega
        simp [hw, hl, h1, h2, Bool.or_assoc, Nat.not_lt.2 hl]
      · simp [hl, hw, Nat.lt_of_not_le hl]
    · simp [hw]

/-- A bit of a packed word is that of a field that reaches it. -/
theorem getLsbD_pack (w : Nat) (fs : List (Nat × Nat × Nat)) (i : Nat) : (pack w fs).getLsbD i =
    (decide (i < w) && fs.any fun f => decide (f.1 ≤ i) && decide (i < f.1 + f.2.1) && f.2.2.testBit (i - f.1)) := by
  unfold pack
  rw [getLsbD_foldl_or]
  simp

/-- A field of a packed word reads as what was packed there, if no other field overlaps it. -/
theorem fld_pack {w lo len v : Nat} {fs : List (Nat × Nat × Nat)} (h : (lo, len, v) ∈ fs) (hw : lo + len ≤ w)
    (hd : ∀ f ∈ fs, f = (lo, len, v) ∨ f.1 + f.2.1 ≤ lo ∨ lo + len ≤ f.1) : fld (pack w fs) lo len = v % 2 ^ len := by
  refine Nat.eq_of_testBit_eq fun i => ?_
  rw [Nat.testBit_mod_two_pow, fld, BitVec.testBit_toNat, BitVec.getLsbD_extractLsb', getLsbD_pack]
  by_cases hi : i < len
  · have hany : (fs.any fun f => decide (f.1 ≤ lo + i) && decide (lo + i < f.1 + f.2.1) && f.2.2.testBit (lo + i - f.1)) = v.testBit i := by
      rw [Bool.eq_iff_iff, List.any_eq_true]
      constructor
      · rintro ⟨f, hf, hb⟩
        simp only [Bool.and_eq_true, decide_eq_true_eq] at hb
        obtain ⟨⟨h1, h2⟩, h3⟩ := hb
        rcases hd f hf with rfl | h4 | h4
        · simpa using h3
        · omega
        · omega
      · intro hb
        exact ⟨_, h, by simp [hi, hb]⟩
    rw [hany]
    simp [hi, show lo + i < w by omega]
  · simp [hi]

/-! ## What a log entry leaves in the registers -/

theorem rd_wf_ne (s : State) {o p : Nat} (k m v : Nat) (h : p ≠ o) : rd (wf s o k m v) p = rd s p := rd_wr_ne s _ h

theorem rd_bump_ne (s : State) {off status p : Nat} (bit n : Nat) (h : p ≠ status) : rd (bump s off status bit n) p = rd s p := by
  unfold bump
  dsimp only
  split
  · exact rd_wf_ne _ _ _ _ h
  · rfl

/-- A log entry changes no register but the log's status and write position, and the number of an injected error. -/
theorem rd_logErr_ne (s : State) (e : ErrEnt) {p : Nat} (h1 : p ≠ ERRLOG_STATUS) (h2 : p ≠ ERRLOG_WPTR) (h3 : p ≠ TRACE_INJ_SEQ) :
    rd (logErr s e) p = rd s p := by
  have hb := rd_bump_ne s (off := ERRLOG_COUNT) 0 1 h1
  unfold logErr
  dsimp only
  rw [rd_wf_ne _ _ _ _ h2]
  split
  · exact (rd_wr_ne _ _ h3).trans hb
  · exact hb

/-- The state whose assay a reset cuts short (R394): the log entry, if one runs. -/
def assayCut (s : State) : State := if rf s PWR_STATUS 5 1 = 1 then logErr s { cls := 0x52, detail := 5 } else s

theorem assayCut_within (s : State) : Within [.bar, .faults, .trace] s (assayCut s) := by
  unfold assayCut
  split
  · exact logErr_within
  · exact Within.rfl

theorem assayCut_of_none {s : State} (h : rf s PWR_STATUS 5 1 = 0) : assayCut s = s := if_neg (by omega)

/-- DEVICE_RESET of a module that is not PAIRED sends no handoff. -/
theorem deviceReset_unpaired {s : State} {tag : Nat} (h : twinState s ≠ 2) : deviceReset s 2 tag = resetKeepingTime (assayCut s) 2 := by
  unfold deviceReset handOff assayCut
  simp [h]

end Sys2Proof.Machine

namespace Sys2Proof.Claims
open Sys2Proof.Machine

theorem gives_next {c : Instr} {s t : State} {P : State → Prop} (h : exec c s = .next t) (hp : P t) : Gives c s P := ⟨t, h, hp⟩

/-- A command whose shared checks pass runs its effect on the state in which it has begun. -/
theorem runCmd_plain {s : State} {id op : Nat} {c : Cmd} {k : State → Cmd → State} (h : Admitted s id op c) (hp : Plain (begun s id) (taken s c)) :
    runCmd s id op (fun s c => checked s c (checks s c [] false [] [] [] false) fun s => k s c) = k (begun s id) (taken s c) := by
  obtain ⟨hc, hop, hb, hs, ho⟩ := h
  rw [runCmd_begins _ hc hop hb hs ho]
  exact congrArg (fun ck => checked (begun s id) (taken s c) ck fun s => k s (taken s c)) hp

theorem execDeviceReset_plain {s : State} {id : Nat} {c : Cmd} (h : Admitted s id 0x0008 c) (hp : Plain (begun s id) (taken s c))
    (ht : twinState s ≠ 2) : exec (.deviceReset id) s = .next (resetKeepingTime (assayCut (begun s id)) 2) := by
  have h1 : exec (.deviceReset id) s = .next (runCmd s id 0x0008 fun s c =>
    checked s c (checks s c [] false [] [] [] false) fun s => deviceReset s 2 (cmdTag c)) := rfl
  rw [h1, runCmd_plain (k := fun s c => deviceReset s 2 (cmdTag c)) h hp, deviceReset_unpaired]
  exact ht

/-- A power-up within the input's range raises the rails. -/
theorem powerUp_rises {s : State} {v : Nat} (he : s.pins.pwrEn = false) (hh : s.pins.holdOff = false) (hv : vinOk v = true) :
    exec (.powerUp v) s = .next (railsUp { s with pins := { s.pins with pwrEn := true, vinMv := v } } v) := by
  have h1 : exec (.powerUp v) s = execPowerUp v s := rfl
  rw [h1]
  unfold execPowerUp
  simp [he, hh, hv]

/-- Settles O5. -/
theorem supplyAndResetRows : Obligations.SupplyAndResetRows := by
  unfold Obligations.SupplyAndResetRows
  refine ⟨?_, ?_, ?_, ?_, ?_, ?_, ?_, ?_, ?_, ?_, ?_⟩
  · intro s v he hh h1 h2
    refine gives_next (powerUp_rises he hh (by simp [vinOk, h1, h2])) ⟨rfl, rfl, rfl, rfl, rfl, rfl, storedState_railsUp _ _, rfl⟩
  · intro s v he hh
    have h1 : exec (.powerUp v) s = execPowerUp v s := rfl
    rw [h1]
    unfold execPowerUp
    simp [he, hh]
  · intro s hr
    have h1 : exec .pwrEnFall s = .next { railsOff (if devState s = 1 then s else handOff s) with
        pins := { (railsOff (if devState s = 1 then s else handOff s)).pins with pwrEn := false, roseInHold := false } } := by
      have h0 : exec .pwrEnFall s = execPwrEnFall s := rfl
      rw [h0]
      unfold execPwrEnFall
      simp [hr]
    have hf : (if devState s = 1 then s else handOff s).flash = s.flash := by
      split
      · rfl
      · exact handOff_within.same .flash (by decide)
    refine gives_next h1 ⟨rfl, rfl, rfl, rfl, storedState_wr_zero _, rfl, rfl, ?_⟩
    have hlog := congrArg Flash.log hf
    have hhistory := congrArg Flash.history hf
    have hremaps := congrArg Flash.remaps hf
    have hfence := congrArg Flash.fence hf
    exact ⟨hlog, hhistory, hremaps, hfence, rfl⟩
  · intro s hr c hc
    have h1 : exec c s = .next (railsOff s) := by
      have h2 : exec c s = .next (if s.pins.rails then railsOff s else s) := by rcases hc with rfl | rfl <;> rfl
      rw [h2, if_pos hr]
    exact gives_next h1 ⟨rfl, rfl, rfl, storedState_wr_zero _, rfl, rfl, rfl⟩
  · intro s hh hr he h1 h2
    have h0 : exec .pwrEnHoldOffEnd s =
        .next (railsUp { s with pins := { s.pins with holdOff := false, roseInHold := false } } s.pins.vinMv) := by
      have h0 : exec .pwrEnHoldOffEnd s = execPwrEnHoldOffEnd s := rfl
      rw [h0]
      unfold execPwrEnHoldOffEnd
      simp [hh, hr, he, vinOk, h1, h2]
    exact gives_next h0 ⟨rfl, rfl, storedState_railsUp _ _⟩
  · intro s hh hr
    have h0 : exec .pwrEnHoldOffEnd s = execPwrEnHoldOffEnd s := rfl
    rw [h0]
    unfold execPwrEnHoldOffEnd
    simp [hh, hr]
  · intro s hr hl h6
    have h1 : exec .resetN s = .next { resetAll s 1 with pins := { (resetAll s 1).pins with resetLow := true } } := by
      have h0 : exec .resetN s = execResetN s := rfl
      rw [h0]
      unfold execResetN
      simp [hr, hl, h6]
    refine gives_next h1 ⟨rfl, ?_, storedState_resetAll s 1, rfl, rfl, rfl, rfl, rfl, rfl⟩
    have hc : rf (resetAll s 1) GLOBAL_RESET 0 2 = 1 := by rw [rf, rd_resetAll_cause]; rfl
    exact hc
  · intro s hr h6
    have h0 : exec .resetN s = execResetN s := rfl
    rw [h0]
    unfold execResetN
    simp [h6]
  · intro s hr hl
    have h1 : exec .resetNRelease s = execResetNRelease s := rfl
    refine gives_next (h1.trans (if_neg (by simp [hr, hl]))) ⟨rfl, rfl, rfl⟩
  · intro s hr hl
    have h1 : exec .perstNRelease s = execPerstNRelease s := rfl
    refine gives_next (h1.trans (if_neg (by simp [hr, hl]))) ⟨rfl, rfl, rfl⟩
  · intro s id c ha hp ht
    have hw := assayCut_within (begun s id)
    have htime : (assayCut (begun s id)).time = s.time := hw.same .time (by decide)
    have hhost : (assayCut (begun s id)).host = (begun s id).host := hw.same .host (by decide)
    have hlink : (assayCut (begun s id)).host.linkUp = s.host.linkUp := by rw [hhost]; rfl
    have hsec := congrArg TimeSt.sec htime
    have hns := congrArg TimeSt.ns htime
    have hcycles := congrArg TimeSt.cycles htime
    refine gives_next (execDeviceReset_plain ha hp ht) ⟨?_, ?_, hsec, hns, hcycles, ?_, rfl, ?_, rfl⟩
    · rw [rf, rd_resetKeepingTime (by decide +kernel) (by decide +kernel), rd_resetAll_cause]
      rfl
    · refine storedState_of_rd ?_
      rw [rd_resetKeepingTime (by decide +kernel) (by decide +kernel)]
      exact rd_resetAll (by decide +kernel) (by decide +kernel) (by decide +kernel)
    · exact (Bool.true_and _).trans hlink
    · intro h5
      have hcut : assayCut (begun s id) = begun s id := assayCut_of_none h5
      rw [hcut]
      rfl

/-! ## BOOT -/

theorem foldl_max_le {l : List Nat} {a n : Nat} (ha : a ≤ n) (h : ∀ x ∈ l, x ≤ n) : l.foldl max a ≤ n := by
  induction l generalizing a with
  | nil => exact ha
  | cons x l ih => exact ih (max_le ha (h x List.mem_cons_self)) fun y hy => h y (List.mem_cons_of_mem _ hy)

theorem fmaxOf_le (vf : List Nat) : fmaxOf vf ≤ 4000 := by
  have h : ((List.range (min 33 vf.length)).filter (fun i => decide (vf.getD i 0 ≤ 850))).foldl max 0 ≤ 32 := by
    refine foldl_max_le (by omega) fun x hx => ?_
    have := List.mem_range.1 (List.mem_filter.1 hx).1
    omega
  unfold fmaxOf
  omega

theorem rf_setFmax (s : State) {n : Nat} (h : n ≤ 4000) : rf (setFmax s n) PWR_FMAX 0 13 = n := by
  have hw : rf (wr s PWR_FMAX (BitVec.ofNat 32 n)) PWR_FMAX 0 13 = n := by
    rw [rf_wr_same, BitVec.toNat_ofNat]
    omega
  unfold setFmax
  dsimp only
  split
  · rwa [rf, rd_logErr_ne _ _ (by decide +kernel) (by decide +kernel) (by decide +kernel)]
  · exact hw

/-- Settles O6. -/
theorem bootPhases : Obligations.BootPhases := by
  unfold Obligations.BootPhases
  refine ⟨?_, ?_, ?_, ?_⟩
  · intro s r h1 h2 h3 h4 h5 hc
    have h0 : exec (.bootPhase r) s = .next (wf (phaseClear s) GLOBAL_STATE 8 8 6) := by
      have h0 : exec (.bootPhase r) s = execBootPhase r s := rfl
      rw [h0]
      unfold execBootPhase
      simp [h1, h2, h3, h4, h5, hc]
    exact gives_next h0 ⟨rf_wf_same _ _ _ _ _ (by omega), rfl, rfl, rfl, rfl, rfl⟩
  · intro s r k ks h1 h2 h3 h4 h5 hm hk
    have h0 : exec (.bootPhase r) s = .next (haltBoot s 2 k) := by
      have h0 : exec (.bootPhase r) s = execBootPhase r s := rfl
      rw [h0]
      unfold execBootPhase
      simp [h1, h2, h3, h4, h5, hm]
    refine gives_next h0 ⟨?_, ?_, ?_⟩ <;> unfold haltBoot
    · rw [rf_wf_other _ _ _ _ _ _ _ (by omega) (by omega), rf_wf_same _ _ _ _ _ (by omega)]
      rfl
    · rw [rf_wf_same _ _ _ _ _ (by omega)]
      omega
    · rw [storedState, rf_wf_other _ _ _ _ _ _ _ (by omega) (by omega), rf_wf_other _ _ _ _ _ _ _ (by omega) (by omega)]
      exact h3
  · intro s r h1 h2 h3 h4 h5
    have h0 : exec (.bootPhase r) s = .next (wf (phaseAssay s r.vf) GLOBAL_STATE 8 8 8) := by
      have h0 : exec (.bootPhase r) s = execBootPhase r s := rfl
      rw [h0]
      unfold execBootPhase
      simp [h1, h2, h3, h4, h5]
    refine gives_next h0 ⟨rf_wf_same _ _ _ _ _ (by omega), ?_, ?_⟩
    · rw [rf_wf_ne _ _ _ _ _ _ (by decide +kernel)]
      exact rf_setFmax _ (fmaxOf_le _)
    · have hp : (phaseAssay s r.vf).pwr = (noteCal s 0 { cond := condNow s, vals := r.vf.map (· + 25) }).pwr :=
        setFmax_within.same .pwr (by decide)
      rw [wf_pwr, hp]
      unfold noteCal
      simp
  · intro s r h1 h2 h3 h4
    have h0 : exec (.bootPhase r) s = execBootPhase r s := rfl
    rw [h0]
    exact if_pos (by simp [h4])

/-! ## The sideband -/

theorem sideband_read {s : State} (off : Nat) (h : s.pins.pwrGood = true) :
    exec (.lowWordRead .sideband off) s = .next (returned (sbRead s off, s)) := by
  have h0 : exec (.lowWordRead .sideband off) s = execLowWordRead .sideband off s := rfl
  rw [h0]
  unfold execLowWordRead
  simp [reaches, h]

theorem sideband_write {s : State} (off : Nat) (w : W32) (h : s.pins.pwrGood = true) :
    exec (.registerWrite .sideband off 0xF w) s = .next (sbWrite s off w) := by
  have h0 : exec (.registerWrite .sideband off 0xF w) s = execRegisterWrite .sideband off 0xF w s := rfl
  rw [h0]
  unfold execRegisterWrite
  simp [reaches, h]

theorem rf_boardCap (s : State) (w : W32) : rf (boardCap s w) PWR_BOARD_CAP 0 12 = max 1200 (min 2600 (fld w 0 12)) := by
  unfold boardCap
  rw [rf_wr_same, BitVec.toNat_ofNat]
  omega

/-- A download is open on what the registers say, which KIND's bits are not among. -/
theorem rcvOpen_rcvKindPut (s : State) (w : W32) (k : Nat) : rcvOpen (rcvKindPut s w) k = rcvOpen s k := rfl

theorem imgFault_rcvKindPut (s : State) (w : W32) (k : Nat) (bs : List Byte) : imgFault (rcvKindPut s w) k bs = imgFault s k bs := rfl

theorem rcvBegin_open {s : State} {k : Nat} (h : rcvOpen s k = true) : rcvBegin s k = rcvAnswer { s with
    flash := { s.flash with images := tput s.flash.images (2 * k) { bytes := [], committed := none } }
    pins := { s.pins with rcvStarted := true } } 0 0 := by
  unfold rcvBegin
  simp [h]

theorem exec_rcvStart {s : State} {w : W32} (hg : s.pins.pwrGood = true) (h2 : bit w 2 = true) (h3 : bit w 3 = false) :
    exec (.rcvStart w) s = .next (rcvBegin (rcvKindPut s w) (fld w 0 2)) := by
  have h0 : exec (.rcvStart w) s = execRcvStart w s := rfl
  rw [h0]
  unfold execRcvStart rcvCtrl
  simp [hg, h2, h3]

theorem exec_commit {s : State} {w : W32} (hg : s.pins.pwrGood = true) (h2 : bit w 2 = false) (h3 : bit w 3 = true) :
    exec (.commit w) s = .next (rcvCommit (rcvKindPut s w) (fld w 0 2)) := by
  have h0 : exec (.commit w) s = execCommit w s := rfl
  rw [h0]
  unfold execCommit rcvCtrl
  simp [hg, h2, h3]

/-- The state after a COMMIT of a valid image. -/
def committedState (s : State) (k : Nat) (bs : List Byte) : State :=
  rcvAnswer (wf { s with
    flash := { s.flash with images := tput s.flash.images (2 * k) { bytes := bs, committed := some (s.flash.commits + 1) }, commits := s.flash.commits + 1 }
    pins := { s.pins with rcvStarted := false } } SEC_BOOT_STATUS (6 + k) 1 0) 0 0

theorem rf_committedState {k : Nat} (s : State) (bs : List Byte) (hk : 6 + k + 1 ≤ 32) : rf (committedState s k bs) SEC_BOOT_STATUS (6 + k) 1 = 0 := by
  have hr : ∀ (s : State) st d o l n, rf (rcvAnswer s st d) o l n = rf s o l n := fun _ _ _ _ _ _ => rfl
  unfold committedState
  rw [hr, rf_wf_same _ _ _ _ _ hk]
  rfl

/-- COMMIT of a download whose image has not been committed answers as R404 judges the image. -/
theorem rcvCommit_open {s : State} {k : Nat} {i : Image} (h : rcvOpen s k = true) (hi : tfind s.flash.images (2 * k) = some i)
    (hc : i.committed = none) : rcvCommit s k =
      match imgFault s k i.bytes with
      | some d => rcvAnswer s 0x0101 d
      | none => committedState s k i.bytes := by
  unfold rcvCommit
  simp only [h, hi, hc]
  rfl

theorem lt_three_of_rcvOpen {s : State} {k : Nat} (h : rcvOpen s k = true) : k < 3 := by
  unfold rcvOpen at h
  simp only [Bool.and_eq_true, decide_eq_true_eq] at h
  exact h.1.2

/-- Settles O7. -/
theorem sidebandRows : Obligations.SidebandRows := by
  unfold Obligations.SidebandRows
  refine ⟨?_, ?_, ?_, ?_, ?_, ?_, ?_, ?_⟩
  · intro s off w hg
    constructor
    · have h0 : exec (.lowWordRead .sideband off) s = execLowWordRead .sideband off s := rfl
      rw [h0]
      unfold execLowWordRead
      simp [reaches, hg]
    · have h0 : exec (.registerWrite .sideband off 0xF w) s = execRegisterWrite .sideband off 0xF w s := rfl
      rw [h0]
      unfold execRegisterWrite
      simp [reaches, hg]
  · intro s hg
    exact ⟨gives_next (sideband_read _ hg) rfl, gives_next (sideband_read _ hg) rfl, gives_next (sideband_read _ hg) rfl,
      gives_next (sideband_read _ hg) rfl⟩
  · intro s w hg
    refine ⟨gives_next (sideband_write _ w hg) ⟨rf_boardCap s w, rfl⟩, fun h2 h3 => ?_⟩
    have h0 : sbWrite s 0x20 w = rcvKindPut s w := if_neg (by simp [h2, h3])
    refine gives_next (sideband_write _ w hg) ?_
    rw [h0]
    exact ⟨rfl, rfl⟩
  · intro s w hg
    have h0 : exec (.sbBoardCap w) s = .next (if s.pins.pwrGood then boardCap s w else s) := rfl
    rw [hg] at h0
    exact gives_next h0 (rf_boardCap s w)
  · intro s w hg h2 h3 ho
    refine gives_next (exec_rcvStart hg h2 h3) ?_
    rw [rcvBegin_open ((rcvOpen_rcvKindPut s w _).trans ho)]
    exact ⟨tfind_tput_same _ _ _, rfl, rfl, rfl⟩
  · intro s w i hg hst hi
    have h0 : exec (.sbRcvData w) s = execSbRcvData w s := rfl
    have h1 : execSbRcvData w s = .next { s with flash := { s.flash with
        images := tput s.flash.images (2 * s.pins.rcvKind) { i with bytes := i.bytes ++ leBytes 4 w.toNat } } } := by
      unfold execSbRcvData
      simp [hg, hst, hi]
    exact gives_next (h0.trans h1) (tfind_tput_same _ _ _)
  · intro s w i hg h2 h3 ho hi hc hf
    refine gives_next (exec_commit hg h2 h3) ?_
    rw [rcvCommit_open (i := i) ((rcvOpen_rcvKindPut s w _).trans ho) hi hc, imgFault_rcvKindPut, hf]
    have hk := lt_three_of_rcvOpen ho
    exact ⟨tfind_tput_same _ _ _, rf_committedState _ _ (by omega), rfl⟩
  · intro s w i d hg h2 h3 ho hi hc hf hd
    refine gives_next (exec_commit hg h2 h3) ?_
    rw [rcvCommit_open (i := i) ((rcvOpen_rcvKindPut s w _).trans ho) hi hc, imgFault_rcvKindPut, hf]
    refine ⟨rfl, ?_, ?_⟩
    · exact fld_pack (v := 0x0101) (by simp) (by omega) (by simp)
    · exact (fld_pack (v := d) (by simp) (by omega) (by simp)).trans (by omega)

end Sys2Proof.Claims
end

section
/-! PROOFS. The operands of the slots, how a bundle's slots run and how it ends, and the control slot. -/
namespace Sys2Proof.Claims
open Sys2Proof.Machine

/-! ## Scalar registers -/

theorem readS_zero (e : Ev) : readS e 0 = .ok (0, e) := rfl

theorem readS_pending {e : Ev} {n : Nat} (h0 : 0 < n) (h : n < 32) (hp : pendingDest e (.sreg n) = true) : readS e n = .wait none := by
  unfold readS
  rw [if_pos h, if_neg (by omega), if_pos hp]

theorem readS_reg {e : Ev} {n : Nat} (h : n < 32) (hp : pendingDest e (.sreg n) = false) :
    readS e n = .ok (if n = 0 then 0 else tget e.th0.s n 0, e) := by
  unfold readS
  rw [if_pos h]
  split
  · rfl
  · rw [hp]
    rfl

theorem writeS_zero (e : Ev) (v : W64) : writeS e 0 v = .ok { e with wrote := 0 :: e.wrote } := by
  unfold writeS
  rw [if_pos (by decide), if_neg (by simp)]
  rfl

theorem writeS_reg {e : Ev} {n : Nat} (v : W64) (h : n < 32) (hp : pendingDest e (.sreg n) = false) :
    writeS e n v = .ok { e with s := putS e.s e.t n v, wrote := n :: e.wrote } := by
  unfold writeS
  rw [if_pos h, if_neg (by simp [hp])]
  rfl

theorem putS_eq (s : State) (t : Tid) {n : Nat} (v : W64) (h : 0 < n) :
    putS s t n v = setThread s t { getThread s t with s := tset (getThread s t).s n v 0 } := if_neg (by omega)

theorem sReg_putS_same (s : State) (t : Tid) {n : Nat} (v : W64) (h : 0 < n) : sReg (putS s t n v) t n = v := by
  unfold sReg
  rw [if_neg (by omega), putS_eq s t v h, getThread_setThread]
  exact tget_tset_same _ _ _ _

theorem sReg_putS_ne (s : State) (t : Tid) {n m : Nat} (v : W64) (h : 0 < n) (hm : m ≠ n) : sReg (putS s t n v) t m = sReg s t m := by
  unfold sReg
  rw [putS_eq s t v h, getThread_setThread]
  split
  · rfl
  · exact tget_tset_ne _ _ _ _ hm

/-- Settles O8: what reading and writing a scalar register give, by the operand code. -/
theorem scalarRegisters : Obligations.ScalarRegisters := by
  unfold Obligations.ScalarRegisters
  refine ⟨fun e n h hp => readS_reg h hp, readS_zero, fun e n h0 h hp => readS_pending h0 h hp, writeS_zero, fun e n v h0 h hp => ?_⟩
  refine ⟨_, writeS_reg v h hp, sReg_putS_same _ _ v h0, fun m hm => sReg_putS_ne _ _ v h0 hm, ?_, fun u hu => ?_, ?_⟩ <;> dsimp only
  · rw [putS_eq _ _ v h0, getThread_setThread]
    rfl
  · rw [putS_eq _ _ v h0, getThread_setThread_ne _ _ hu]
  · rw [putS_eq _ _ v h0]
    rfl

/-! ## Slots in order -/

variable {e : Ev} {b : Bundle}

theorem runSlots_absent {k : Nat} (ks : List Nat) (h : Bundle.has b k = false) : runSlots e b (k :: ks) = runSlots e b ks := by
  rw [runSlots, h]
  rfl

theorem runSlots_present {k : Nat} (ks : List Nat) (h : Bundle.has b k = true) (hd : bit e.th0.dropped k = false) : runSlots e b (k :: ks) =
    match evalSlot e b k with
    | .ok e => runSlots e b ks
    | .skip reason detail => runSlots { e with s := skipSlot e.s e.job e.t e.th0.subtag e.pc k reason detail } b ks
    | .wait w => .wait (slotWait k w ++ laterWaits e b ks) := by
  rw [runSlots, h, hd]
  rfl

theorem mem_slotWait {k : Nat} {w : Option QWait} {x : QWait} (h : x ∈ slotWait k w) : x.slot = k := by
  cases w with
  | none => cases h
  | some w => obtain rfl := List.mem_singleton.1 h; rfl

/-- The waits noted behind a slot that waits are those of later slots, present and not dropped. -/
theorem laterWaits_slot {slots : List Nat} {x : QWait} (h : x ∈ laterWaits e b slots) :
    x.slot ∈ slots ∧ Bundle.has b x.slot = true ∧ bit e.th0.dropped x.slot = false := by
  induction slots generalizing e with
  | nil => cases h
  | cons k ks ih =>
    have later {f : Ev} (hf : f.th0 = e.th0) (hx : x ∈ laterWaits f b ks) : x.slot ∈ k :: ks ∧ Bundle.has b x.slot = true ∧ bit e.th0.dropped x.slot = false := by
      obtain ⟨h1, h2, h3⟩ := ih hx
      exact ⟨List.mem_cons_of_mem _ h1, h2, hf ▸ h3⟩
    unfold laterWaits at h
    split at h
    · exact later rfl h
    next hk =>
      simp only [Bool.or_eq_true, Bool.not_eq_true', not_or, Bool.not_eq_false, Bool.not_eq_true] at hk
      split at h
      next f hf => exact later ((evalSlot_from .rfl f hf).th0) h
      · exact later rfl h
      · rcases List.mem_append.1 h with h | h
        · obtain rfl := mem_slotWait h
          exact ⟨List.mem_cons_self, hk.1, hk.2⟩
        · exact later rfl h

/-- A bundle that may issue and one of whose slots waits leaves the state with the waits noted. -/
theorem issue_of_wait {s : State} {t : Tid} {j : Job} {th : Thread} {ws : List QWait} (h : Issues s t b j th) (hr : Bundle.reserved b = 0)
    (hs : runSlots (atIssue s t b j th) b [0, 1, 2, 3] = .wait ws) : issue s t b = setThread s t { th with waitQ := ws } := by
  obtain ⟨hi, hlen, hserial, hfetch, -⟩ := h
  have hfit : (decide (th.pc.toNat + Bundle.len b > j.codeBytes) || decide (Bundle.reserved b ≠ 0)) = false := by simp [hr, hlen]
  have hser : (Bundle.serial b && (decide (opsOf s t ≠ []) || th.fence.isSome)) = false := by
    cases hb : Bundle.serial b with
    | false => rfl
    | true => simp [hserial hb]
  simp only [issue, hi, hfit, hser, hfetch, Bool.false_eq_true, if_false, ne_eq, not_true_eq_false]
  rw [← atIssue, hs]

theorem satInc_lt (n m : Nat) : satInc n m < 2 ^ 32 := by
  unfold satInc
  omega

theorem toNat_satInc (n m : Nat) : (BitVec.ofNat 32 (satInc n m)).toNat = satInc n m := by
  rw [BitVec.toNat_ofNat, Nat.mod_eq_of_lt (satInc_lt n m)]

theorem getThread_congr {s t : State} (h : s.cores.threads = t.cores.threads) (u : Tid) : getThread s u = getThread t u :=
  congrArg (fun x => tget x (tidKey u) Thread.zero) h

/-- A skip changes the threads only by the count of the thread's skips. -/
theorem getThread_skipSlot (s : State) (j : Job) (t u : Tid) (subtag : W16) (pc slot reason detail : Nat) :
    getThread (skipSlot s j t subtag pc slot reason detail) u =
      getThread (setThread s t { getThread s t with skips := BitVec.ofNat 32 (satInc (getThread s t).skips.toNat 1) }) u := by
  have hc : (skipSlot s j t subtag pc slot reason detail).cores.threads =
      (setThread s t { getThread s t with skips := BitVec.ofNat 32 (satInc (getThread s t).skips.toNat 1) }).cores.threads := by
    unfold skipSlot
    simp [modJob]
  exact getThread_congr hc u

theorem skipSlot_thread (s : State) (j : Job) (t : Tid) (subtag : W16) (pc slot reason detail : Nat) :
    getThread (skipSlot s j t subtag pc slot reason detail) t =
      { getThread s t with skips := BitVec.ofNat 32 (satInc (getThread s t).skips.toNat 1) } := by
  rw [getThread_skipSlot, getThread_setThread]

/-- Settles O10. -/
theorem slotsInOrder : Obligations.SlotsInOrder := by
  unfold Obligations.SlotsInOrder
  refine ⟨?_, fun e b k ks h => runSlots_absent ks h, ?_, ?_⟩
  · intro e b k ks hk hd
    refine ⟨?_, ?_, ?_⟩
    · intro e' he
      rw [runSlots_present ks hk hd, he]
    · intro r d he
      rw [runSlots_present ks hk hd, he]
    · intro w he
      refine ⟨laterWaits e b ks, ?_, fun x hx => laterWaits_slot hx⟩
      rw [runSlots_present ks hk hd, he]
  · intro s t b j th hi hr
    exact ⟨fun e he => issue_of_runSlots hi hr he, fun ws hw => issue_of_wait hi hr hw⟩
  · intro s j t subtag pc slot reason detail
    rw [skipSlot_thread]
    exact ⟨toNat_satInc _ _, rfl, skipSlot_within.same .sems (by decide)⟩

/-! ## The end of a bundle -/

/-- The thread as its bundle leaves it: flags, repeats and PC. -/
def threadAfter (e : Ev) : Thread :=
  let th := getThread e.s e.t
  { th with flags := th.flags ||| e.flags, rpt := (nextPc e).1, pc := BitVec.ofNat 32 (nextPc e).2, waitQ := [], dropped := 0 }

/-- The state with the thread's bundle done, its core awake. -/
def advanced (e : Ev) : State :=
  let s := setThread e.s e.t (threadAfter e)
  { s with cores := { s.cores with gated := s.cores.gated.filter (· ≠ e.t.vcore), watch := tdel s.cores.watch e.t.vcore } }

theorem finishIssue_eq (e : Ev) : finishIssue e =
    settleEnd (match (getThread e.s e.t).run with | .ending => cleanEnd (advanced e) e.job e.t | _ => advanced e) e.t := rfl

theorem getThread_advanced (e : Ev) : getThread (advanced e) e.t = threadAfter e := getThread_setThread _ _ _

theorem getThread_advanced_ne (e : Ev) {u : Tid} (h : tidKey u ≠ tidKey e.t) : getThread (advanced e) u = getThread e.s u :=
  getThread_setThread_ne _ _ h

theorem settleEnd_of_running {s : State} {t : Tid} (h : (getThread s t).run = .running) : settleEnd s t = s := by
  unfold settleEnd
  simp [h]

/-- A running thread's bundle does nothing more at its end. -/
theorem finishIssue_running (h : (getThread e.s e.t).run = .running) : finishIssue e = advanced e := by
  rw [finishIssue_eq, h]
  refine settleEnd_of_running ?_
  rw [getThread_advanced]
  exact h

theorem nextPc_plain (h1 : e.branch = none) (h2 : e.rpt = none) : nextPc e = seqNext e.th0.rpt (e.pc + e.len) := by
  unfold nextPc
  rw [h1, h2]

theorem nextPc_branch {target : Nat} (h : e.branch = some target) : nextPc e = (branchRepeats e.th0.rpt target, target) := by
  unfold nextPc
  rw [h]

theorem seqNext_again {r : Repeat} {pc : Nat} (rs : List Repeat) (h1 : r.bodyEnd ≤ pc) (h2 : 1 < r.passes) :
    seqNext (r :: rs) pc = ({ r with passes := r.passes - 1 } :: rs, r.bodyStart) := by
  rw [seqNext, if_pos h1, if_pos h2]

theorem toNat_pc_threadAfter {pc : Nat} {rs : List Repeat} (h : nextPc e = (rs, pc)) (hp : pc < 2 ^ 32) :
    (threadAfter e).pc.toNat = pc ∧ (threadAfter e).rpt = rs := by
  unfold threadAfter
  rw [h]
  exact ⟨by rw [BitVec.toNat_ofNat, Nat.mod_eq_of_lt hp], rfl⟩

/-- Settles O11. -/
theorem bundleEnds : Obligations.BundleEnds := by
  unfold Obligations.BundleEnds
  refine ⟨?_, ?_, ?_⟩
  · intro e hrun hb hr hrs hpc
    obtain ⟨h1, h2⟩ := toNat_pc_threadAfter (e := e) ((nextPc_plain hb hr).trans (by rw [hrs]; rfl)) hpc
    rw [finishIssue_running hrun, getThread_advanced]
    refine ⟨h1, h2, rfl, rfl, rfl, rfl, rfl, rfl, fun u hu => ?_⟩
    rw [getThread_advanced_ne e hu]
    exact ⟨rfl, rfl⟩
  · intro e target hrun hb ht
    rw [finishIssue_running hrun, getThread_advanced]
    exact toNat_pc_threadAfter (nextPc_branch hb) ht
  · intro e r rs hrun hb hr hrs hend hpass hstart
    rw [finishIssue_running hrun, getThread_advanced]
    refine toNat_pc_threadAfter ((nextPc_plain hb hr).trans ?_) hstart
    rw [hrs]
    exact seqNext_again rs hend hpass

/-! ## The control slot alone -/

theorem mem_insertBy {α : Type} {lt : α → α → Bool} {x y : α} {l : List α} (h : y ∈ insertBy lt x l) : y = x ∨ y ∈ l := by
  induction l with
  | nil => exact .inl (List.mem_singleton.1 h)
  | cons z l ih =>
    unfold insertBy at h
    split at h
    · exact List.mem_cons.1 h
    · rcases List.mem_cons.1 h with rfl | h
      · exact .inr List.mem_cons_self
      · exact (ih h).imp_right (List.mem_cons_of_mem _)

theorem mem_sortBy {α : Type} {lt : α → α → Bool} {y : α} {l : List α} (h : y ∈ sortBy lt l) : y ∈ l := by
  have key : ∀ (l acc : List α), y ∈ l.foldl (fun acc x => insertBy lt x acc) acc → y ∈ acc ∨ y ∈ l := by
    intro l
    induction l with
    | nil => exact fun acc h => .inl h
    | cons x l ih =>
      intro acc h
      rcases ih _ h with h | h
      · exact (mem_insertBy h).elim (fun h => .inr (h ▸ List.mem_cons_self)) .inl
      · exact .inr (List.mem_cons_of_mem _ h)
  exact (key l [] h).resolve_left (by simp)

theorem bit_of_fld_eq_zero {w : Nat} {x : BitVec w} {lo len i : Nat} (h : fld x lo len = 0) (h1 : lo ≤ i) (h2 : i < lo + len) : bit x i = false := by
  have hb : (x.extractLsb' lo len).getLsbD (i - lo) = false := by
    rw [show x.extractLsb' lo len = 0#len from BitVec.eq_of_toNat_eq (h.trans (by simp))]
    simp
  rw [BitVec.getLsbD_extractLsb'] at hb
  simpa [bit, show i - lo < len by omega, Nat.add_sub_cancel' h1] using hb

/-- Fields that are zero hold no reserved bit. -/
theorem reservedBit_eq_none {w : Nat} {x : BitVec w} {ranges : List (Nat × Nat)} (h : ∀ r ∈ ranges, fld x r.1 r.2 = 0) :
    reservedBit x ranges = none := by
  unfold reservedBit
  rw [List.find?_eq_none]
  intro i hi
  obtain ⟨l, hl, hil⟩ := List.mem_flatten.1 (mem_sortBy hi)
  obtain ⟨r, hr, rfl⟩ := List.mem_map.1 hl
  obtain ⟨k, hk, rfl⟩ := List.mem_map.1 hil
  have hk := List.mem_range.1 hk
  rw [bit_of_fld_eq_zero (h r hr) (Nat.le_add_left _ _) (by omega)]
  exact Bool.false_ne_true

theorem zeroCheck_ok {w : Nat} {x : BitVec w} {ranges : List (Nat × Nat)} (h : ∀ r ∈ ranges, fld x r.1 r.2 = 0) : zeroCheck x ranges = .ok () := by
  unfold zeroCheck fieldCheck
  rw [reservedBit_eq_none h]
  rfl

/-- The command of a control-slot opcode. -/
def RunsCtl (c : Tid → Bundle → Instr) (op : Nat) : Prop := ∀ t b s, exec (c t b) s = .next (issueRow s t b 0 op op)

section
variable {s : State} {t : Tid} {j : Job} {th : Thread} {c : Tid → Bundle → Instr} {op : Nat}

theorem exec_ctl (hc : RunsCtl c op) (h : Issues s t b j th) (ha : Alone b 0) (hop : Bundle.op b 0 = op)
    (hs : ctlSlot (atIssue s t b j th) b.ctl = .ok e) : exec (c t b) s = .next (finishIssue e) := by
  rw [hc, issueRow_alone h ha (by decide) hop hs]

theorem runSlots_alone_skip {k r d : Nat} (h : Alone b k) (hk : k < 4) (hd : e.th0.dropped = 0) (hs : evalSlot e b k = .skip r d) :
    runSlots e b [0, 1, 2, 3] = .ok { e with s := skipSlot e.s e.job e.t e.th0.subtag e.pc k r d } := by
  have hbit (i : Nat) : bit e.th0.dropped i = false := by simp [hd, bit]
  have h0 : Bundle.has b 0 = decide (k = 0) := Bundle.has_of_alone h (by decide)
  have h1 : Bundle.has b 1 = decide (k = 1) := Bundle.has_of_alone h (by decide)
  have h2 : Bundle.has b 2 = decide (k = 2) := Bundle.has_of_alone h (by decide)
  have h3 : Bundle.has b 3 = decide (k = 3) := Bundle.has_of_alone h (by decide)
  obtain rfl | rfl | rfl | rfl : k = 0 ∨ k = 1 ∨ k = 2 ∨ k = 3 := by omega
  all_goals simp [runSlots, h0, h1, h2, h3, hbit, hs]

/-- A bundle whose one slot is illegal only counts the skip. -/
theorem issueRow_alone_skip {k r d : Nat} (h : Issues s t b j th) (ha : Alone b k) (hk : k < 4) (hop : Bundle.op b k = op)
    (hs : evalSlot (atIssue s t b j th) b k = .skip r d) : issueRow s t b k op op =
      finishIssue { atIssue s t b j th with s := skipSlot s j t th.subtag th.pc.toNat k r d } := by
  have hd : (atIssue s t b j th).th0.dropped = 0 := h.2.2.2.2
  have hrun := issue_of_runSlots h ha.2 (runSlots_alone_skip ha hk hd hs)
  simp only [issueRow, Bundle.has_of_alone ha hk, hop, decide_true, le_refl, Bool.and_self, if_true]
  exact hrun

theorem exec_ctl_skip {r d : Nat} (hc : RunsCtl c op) (h : Issues s t b j th) (ha : Alone b 0) (hop : Bundle.op b 0 = op)
    (hs : ctlSlot (atIssue s t b j th) b.ctl = .skip r d) : exec (c t b) s =
      .next (finishIssue { atIssue s t b j th with s := skipSlot s j t th.subtag th.pc.toNat 0 r d }) := by
  rw [hc, issueRow_alone_skip h ha (by decide) hop hs]

end

/-! ## Arithmetic -/

theorem ctlSlot_cr {w : W32} {op : Nat} (hop : fld w 0 8 = op) (h1 : 1 ≤ op) (h2 : op ≤ 0x0E) : ctlSlot e w = ctlAlu e w op := by
  unfold ctlSlot
  rw [hop]
  exact if_pos (.inl ⟨h1, h2⟩)

theorem ctlSlot_ci {w : W32} {op : Nat} (hop : fld w 0 8 = op) (h : op = 0x11 ∨ (0x13 ≤ op ∧ op ≤ 0x18) ∨ op = 0x1B) : ctlSlot e w = ctlAlu e w op := by
  unfold ctlSlot
  rw [hop]
  exact if_pos (.inr h)

/-- The slot of two-source arithmetic whose sources read as `x` and `y`. -/
theorem ctlAlu_cr {e f : Ev} {w : W32} {op : Nat} {x y r : W64} (hop : op ≤ 0x0E) (hz : fld w 26 6 = 0) (hr : Reads2 e (ctlA w) (ctlB w) (ctlD w) x y f)
    (hv : aluCR op x y = some r) : ctlAlu e w op = writeS f (ctlD w) r := by
  obtain ⟨ha, hb, hd, e1, h1, h2⟩ := hr
  unfold ctlAlu
  rw [if_pos hop, zeroCheck_ok (by simpa using hz), ha, hb, hd, h1]
  simp only [SlotRes.bind_ok, h2, hv]

theorem ctlAlu_ci {e f : Ev} {w : W32} {op : Nat} {x r : W64} (hop : 0x0E < op) (hr : Reads1 e (ctlA w) (ctlD w) x f)
    (hv : aluCI op x (ctlImm12 w) = some r) : ctlAlu e w op = writeS f (ctlD w) r := by
  obtain ⟨ha, hd, h1⟩ := hr
  unfold ctlAlu
  rw [if_neg (by omega), ha, hd, h1]
  simp only [SlotRes.bind_ok, hv]

theorem shl_eq (a : W64) (n : Nat) : a <<< n = BitVec.ofNat 64 (a.toNat * 2 ^ n) :=
  BitVec.eq_of_toNat_eq (by simp [Nat.shiftLeft_eq])

theorem shr_eq (a : W64) (n : Nat) : a >>> n = BitVec.ofNat 64 (a.toNat / 2 ^ n) := by
  refine BitVec.eq_of_toNat_eq ?_
  rw [BitVec.toNat_ushiftRight, Nat.shiftRight_eq_div_pow, BitVec.toNat_ofNat, Nat.mod_eq_of_lt]
  exact lt_of_le_of_lt (Nat.div_le_self _ _) a.isLt

theorem sra_eq (a : W64) (n : Nat) : a.sshiftRight n = BitVec.ofInt 64 (a.toInt / 2 ^ n) := by
  unfold BitVec.sshiftRight
  rw [Int.shiftRight_eq_div_pow]
  rfl

theorem mul_eq (a b : W64) : a * b = BitVec.ofNat 64 (a.toNat * b.toNat) := BitVec.eq_of_toNat_eq (by simp)

theorem min_eq (a b : W64) : (if a.toInt < b.toInt then a else b) = BitVec.ofInt 64 (min a.toInt b.toInt) := by
  split
  next h => rw [min_eq_left h.le, BitVec.ofInt_toInt]
  next h => rw [min_eq_right (not_lt.1 h), BitVec.ofInt_toInt]

theorem max_eq (a b : W64) : (if a.toInt < b.toInt then b else a) = BitVec.ofInt 64 (max a.toInt b.toInt) := by
  split
  next h => rw [max_eq_right h.le, BitVec.ofInt_toInt]
  next h => rw [max_eq_left (not_lt.1 h), BitVec.ofInt_toInt]

/-- A row of two-source arithmetic: its opcode, its result, its command. -/
def AluRow (r : Nat × (Tid → Bundle → Instr) × (W64 → W64 → W64)) : Prop :=
  (1 ≤ r.1 ∧ r.1 ≤ 0x0E) ∧ (∀ x y, aluCR r.1 x y = some (r.2.2 x y)) ∧ RunsCtl r.2.1 r.1

theorem aluTable_rows : ∀ r ∈ aluTable, AluRow r := by
  unfold aluTable
  simp only [List.forall_mem_cons, List.not_mem_nil, false_imp_iff, implies_true, and_true]
  refine ⟨?_, ?_, ?_, ?_, ?_, ?_, ?_, ?_, ?_, ?_, ?_, ?_, ?_, ?_⟩
  case refine_6 => exact ⟨by decide, fun x y => congrArg some (shl_eq x _), fun _ _ _ => rfl⟩
  case refine_7 => exact ⟨by decide, fun x y => congrArg some (shr_eq x _), fun _ _ _ => rfl⟩
  case refine_8 => exact ⟨by decide, fun x y => congrArg some (sra_eq x _), fun _ _ _ => rfl⟩
  case refine_9 => exact ⟨by decide, fun x y => congrArg some (mul_eq x y), fun _ _ _ => rfl⟩
  case refine_13 => exact ⟨by decide, fun x y => congrArg some (min_eq x y), fun _ _ _ => rfl⟩
  case refine_14 => exact ⟨by decide, fun x y => congrArg some (max_eq x y), fun _ _ _ => rfl⟩
  all_goals exact ⟨by decide, fun _ _ => rfl, fun _ _ _ => rfl⟩

/-- The 12-bit immediates. -/
def Imm12 (i : Int) : Prop := -2048 ≤ i ∧ i < 2048

theorem imm12_sxt (v : Nat) : Imm12 (sxt 12 v) := by
  unfold Imm12 sxt
  dsimp only
  split <;> omega

theorem toInt_w64 {i : Int} (h : Imm12 i) : (w64 i).toInt = i := by
  obtain ⟨h1, h2⟩ := h
  unfold w64
  rw [BitVec.toInt_ofInt, Int.bmod_eq_of_le] <;> omega

theorem toNat_w64_mod (i : Int) : (w64 i).toNat % 64 = (i % 64).toNat := by
  unfold w64
  rw [BitVec.toNat_ofInt]
  omega

theorem add_w64 (a : W64) (i : Int) : a + w64 i = BitVec.ofInt 64 (a.toInt + i) := by
  unfold w64
  rw [BitVec.ofInt_add, BitVec.ofInt_toInt]

/-- A row of immediate arithmetic. -/
def ImmRow (r : Nat × (Tid → Bundle → Instr) × (W64 → Int → W64)) : Prop :=
  (r.1 = 0x11 ∨ (0x13 ≤ r.1 ∧ r.1 ≤ 0x18) ∨ r.1 = 0x1B) ∧ (∀ x i, Imm12 i → aluCI r.1 x i = some (r.2.2 x i)) ∧ RunsCtl r.2.1 r.1

theorem immTable_rows : ∀ r ∈ immTable, ImmRow r := by
  unfold immTable
  simp only [List.forall_mem_cons, List.not_mem_nil, false_imp_iff, implies_true, and_true]
  refine ⟨?_, ?_, ?_, ?_, ?_, ?_, ?_, ?_⟩
  · exact ⟨by decide, fun x i _ => congrArg some (add_w64 x i), fun _ _ _ => rfl⟩
  · exact ⟨by decide, fun _ _ _ => rfl, fun _ _ _ => rfl⟩
  · exact ⟨by decide, fun _ _ _ => rfl, fun _ _ _ => rfl⟩
  · exact ⟨by decide, fun _ _ _ => rfl, fun _ _ _ => rfl⟩
  · exact ⟨by decide, fun x i _ => congrArg some ((shl_eq x _).trans (by rw [toNat_w64_mod])), fun _ _ _ => rfl⟩
  · exact ⟨by decide, fun x i _ => congrArg some ((shr_eq x _).trans (by rw [toNat_w64_mod])), fun _ _ _ => rfl⟩
  · exact ⟨by decide, fun x i _ => congrArg some ((sra_eq x _).trans (by rw [toNat_w64_mod])), fun _ _ _ => rfl⟩
  · exact ⟨by decide, fun x i hi => congrArg some (by rw [toInt_w64 hi]), fun _ _ _ => rfl⟩

theorem lih_eq (x : W64) {n : Nat} (h : n < 2 ^ 18) : (x <<< 18) ||| BitVec.ofNat 64 n = BitVec.ofNat 64 (x.toNat * 2 ^ 18 + n) := by
  refine BitVec.eq_of_toNat_eq ?_
  have hor : x.toNat <<< 18 ||| n = x.toNat * 2 ^ 18 + n := by
    rw [Nat.shiftLeft_eq, mul_comm, Nat.two_pow_add_eq_or_of_lt h]
  rw [BitVec.toNat_or, BitVec.toNat_shiftLeft, BitVec.toNat_ofNat, BitVec.toNat_ofNat, ← Nat.or_mod_two_pow, hor]

theorem fld_lt {w : Nat} (x : BitVec w) (lo len : Nat) : fld x lo len < 2 ^ len := by
  unfold fld
  exact BitVec.isLt _

/-- Settles O12. -/
theorem controlArithmetic : Obligations.ControlArithmetic := by
  unfold Obligations.ControlArithmetic
  refine ⟨?_, ?_, ?_, ?_⟩
  · intro r hr s t b j th x y e e' hi ha hop hz hrd hw
    obtain ⟨⟨h1, h2⟩, hv, hc⟩ := aluTable_rows r hr
    exact exec_ctl hc hi ha hop ((ctlSlot_cr hop h1 h2).trans ((ctlAlu_cr h2 hz hrd (hv x y)).trans hw))
  · intro r hr s t b j th x e e' hi ha hop hrd hw
    obtain ⟨h1, hv, hc⟩ := immTable_rows r hr
    exact exec_ctl hc hi ha hop ((ctlSlot_ci hop h1).trans ((ctlAlu_ci (by omega) hrd (hv x _ (imm12_sxt _))).trans hw))
  · intro s t b j th e' hi ha hop hd hw
    have h1 : ctlSlot (atIssue s t b j th) b.ctl = ctlLoadImm (atIssue s t b j th) b.ctl false := by
      unfold ctlSlot
      rw [show fld b.ctl 0 8 = 0x20 from hop]
      rfl
    refine exec_ctl (fun _ _ _ => rfl) hi ha hop (h1.trans ?_)
    unfold ctlLoadImm
    simp only [Bool.false_eq_true, if_false, hd, SlotRes.bind_ok]
    exact hw
  · intro s t b j th x e e' hi ha hop hrd hw
    obtain ⟨hs, hd, hx⟩ := hrd
    have h1 : ctlSlot (atIssue s t b j th) b.ctl = ctlLoadImm (atIssue s t b j th) b.ctl true := by
      unfold ctlSlot
      rw [show fld b.ctl 0 8 = 0x21 from hop]
      rfl
    refine exec_ctl (fun _ _ _ => rfl) hi ha hop (h1.trans ?_)
    unfold ctlLoadImm
    simp only [if_true, hs, hd, hx, SlotRes.bind_ok, ctlImm18, lih_eq x (fld_lt b.ctl 14 18)]
    exact hw

/-! ## Branches, jumps, repeats -/

theorem branchTo_inside {target : Int} {n : Nat} (h : (n : Int) = target) (hn : n < e.job.codeBytes) :
    branchTo e target = .ok { e with branch := some n } := by
  subst h
  unfold branchTo
  rw [if_pos ⟨by omega, by omega⟩]
  rfl

theorem branchTo_outside {target : Int} (h : target < 0 ∨ (e.job.codeBytes : Int) ≤ target) : branchTo e target = .skip 0x0E (toCode 32 target) :=
  if_neg (by omega)

theorem ctlSlot_branch {w : W32} {op : Nat} (hop : fld w 0 8 = op) (h : 0x30 ≤ op ∧ op ≤ 0x33) : ctlSlot e w = ctlBranch e w op := by
  unfold ctlSlot
  rw [hop]
  dsimp only
  rw [if_neg (by omega), if_neg (by omega), if_neg (by omega), if_pos h]

/-- The slot of a conditional branch whose target lies within the code. -/
theorem ctlBranch_inside {e f : Ev} {w : W32} {op n : Nat} {x : W64} {taken : Bool} (hr : Reads e (fld w 8 6) x f) (hn : (n : Int) = e.pc + ctlOff18 w)
    (hc : n < e.job.codeBytes) (hv : branchTaken op x = some taken) :
    ctlBranch e w op = .ok (if taken then { f with branch := some n } else f) := by
  obtain ⟨hs, hx⟩ := hr
  have hf : f.From e := readS_from .rfl _ hx
  unfold ctlBranch
  rw [hs, SlotRes.bind_ok, branchTo_inside hn hc, SlotRes.bind_ok, hx, SlotRes.bind_ok]
  simp only [hv]
  cases taken with
  | false => rfl
  | true => exact branchTo_inside (by rw [hf.pc]; exact hn) (by rw [hf.job]; exact hc)

/-- The row of a conditional branch. -/
def BranchRow (r : Nat × (Tid → Bundle → Instr) × (W64 → Bool)) : Prop :=
  (0x30 ≤ r.1 ∧ r.1 ≤ 0x33) ∧ (∀ x, branchTaken r.1 x = some (r.2.2 x)) ∧ RunsCtl r.2.1 r.1

theorem branchTable_rows : ∀ r ∈ branchTable, BranchRow r := by
  unfold branchTable
  simp only [List.forall_mem_cons, List.not_mem_nil, false_imp_iff, implies_true, and_true]
  refine ⟨?_, ?_, ?_, ?_⟩
  all_goals exact ⟨by decide, fun _ => rfl, fun _ _ _ => rfl⟩

theorem ctlRepeat_starts {nb count k : Nat} (hnb : 0 < nb) (hc : e.th0.rpt.length < 4 ∨ count = 0) :
    ctlRepeat e nb count k = .ok { e with rpt := some (nb, count) } := by
  unfold ctlRepeat
  rw [if_neg (by omega), if_neg (by omega)]

theorem ctlJump_inside {w : W32} {n : Nat} (link : Bool) (hn : (n : Int) = e.pc + ctlOff24 w) (hc : n < e.job.codeBytes) : ctlJump e w link =
    if link then writeS { e with branch := some n } 31 (BitVec.ofNat 64 (e.pc + e.len)) else .ok { e with branch := some n } := by
  unfold ctlJump
  rw [branchTo_inside hn hc]
  rfl

/-- Settles O13. -/
theorem controlFlow : Obligations.ControlFlow := by
  unfold Obligations.ControlFlow
  refine ⟨?_, ?_, ?_, ?_, ?_, ?_⟩
  · intro r hr s t b j th x e hi ha hop hrd n hn hc
    obtain ⟨h1, hv, hrun⟩ := branchTable_rows r hr
    have hslot : ctlSlot (atIssue s t b j th) b.ctl = .ok (if r.2.2 x then { e with branch := some n } else e) :=
      (ctlSlot_branch hop h1).trans (ctlBranch_inside hrd hn hc (hv x))
    constructor <;> intro hx
    · exact exec_ctl hrun hi ha hop (hslot.trans (by rw [hx]; rfl))
    · exact exec_ctl hrun hi ha hop (hslot.trans (by rw [hx]; rfl))
  · intro r hr s t b j th hi ha hop hs hout
    obtain ⟨h1, -, hrun⟩ := branchTable_rows r hr
    refine exec_ctl_skip hrun hi ha hop ((ctlSlot_branch hop h1).trans ?_)
    unfold ctlBranch
    rw [hs, SlotRes.bind_ok, branchTo_outside hout]
    rfl
  · intro s t b j th n hi ha hn hc
    refine ⟨fun hop => exec_ctl (fun _ _ _ => rfl) hi ha hop ?_, fun e' hop hw => exec_ctl (fun _ _ _ => rfl) hi ha hop ?_⟩
    · have h1 : ctlSlot (atIssue s t b j th) b.ctl = ctlJump (atIssue s t b j th) b.ctl false := by
        unfold ctlSlot
        rw [show fld b.ctl 0 8 = 0x34 from hop]
        rfl
      exact h1.trans (ctlJump_inside false hn hc)
    · have h1 : ctlSlot (atIssue s t b j th) b.ctl = ctlJump (atIssue s t b j th) b.ctl true := by
        unfold ctlSlot
        rw [show fld b.ctl 0 8 = 0x35 from hop]
        rfl
      exact h1.trans ((ctlJump_inside true hn hc).trans hw)
  · intro s t b j th x e hi ha hop h8 h20 hrd hc
    obtain ⟨hs, hx⟩ := hrd
    have hj : e.job = j := (readS_from (k := atIssue s t b j th) .rfl _ hx).job
    have h1 : ctlSlot (atIssue s t b j th) b.ctl = ctlJr (atIssue s t b j th) b.ctl := by
      unfold ctlSlot
      rw [show fld b.ctl 0 8 = 0x36 from hop]
      rfl
    refine exec_ctl (fun _ _ _ => rfl) hi ha hop (h1.trans ?_)
    unfold ctlJr
    rw [zeroCheck_ok (by simp [h8, h20]), SlotRes.bind_ok, hs, SlotRes.bind_ok, hx, SlotRes.bind_ok]
    exact branchTo_inside rfl (hj.symm ▸ hc)
  · intro s t b j th x e hi ha hop h22 hnb hrd hc hth
    obtain ⟨hs, hx⟩ := hrd
    have h1 : ctlSlot (atIssue s t b j th) b.ctl = (fieldCheck b.ctl [(22, 10)] (if fld b.ctl 14 8 = 0 then [14] else [])).bind fun _ =>
        (srcCheck (atIssue s t b j th) false (fld b.ctl 8 6)).bind fun _ => (readS (atIssue s t b j th) (fld b.ctl 8 6)).bind fun (a, e) =>
        ctlRepeat e (fld b.ctl 14 8) (a.toNat % 2 ^ 32) 14 := by
      unfold ctlSlot
      rw [show fld b.ctl 0 8 = 0x38 from hop]
      rfl
    refine exec_ctl (fun _ _ _ => rfl) hi ha hop (h1.trans ?_)
    have hf : fieldCheck b.ctl [(22, 10)] (if fld b.ctl 14 8 = 0 then [14] else []) = .ok () := by
      rw [if_neg (by omega)]
      exact zeroCheck_ok (by simpa using h22)
    rw [hf, SlotRes.bind_ok, hs, SlotRes.bind_ok, hx, SlotRes.bind_ok]
    exact ctlRepeat_starts hnb (hth.symm ▸ hc)
  · intro s t b j th hi ha hop hnb hc
    have h1 : ctlSlot (atIssue s t b j th) b.ctl = ctlRepeat (atIssue s t b j th) (fld b.ctl 8 8) (fld b.ctl 16 16) 8 := by
      unfold ctlSlot
      rw [show fld b.ctl 0 8 = 0x39 from hop]
      rfl
    exact exec_ctl (fun _ _ _ => rfl) hi ha hop (h1.trans (ctlRepeat_starts hnb hc))

/-! ## Work-items, ends, status -/

theorem issuer_some {s : State} {t : Tid} {j : Job} {th : Thread} (h : issuer s t = some (j, th)) :
    jobAt s t.vcore = some j ∧ getThread s t = th ∧ th.run = .running := by
  unfold issuer at h
  split at h
  · cases h
  next k hk =>
    dsimp only at h
    split at h
    next hc =>
      cases h
      simp only [Bool.and_eq_true, decide_eq_true_eq] at hc
      exact ⟨hk, rfl, hc.1.1.2⟩
    · cases h

section
variable {i : Nat} {j : Job}

theorem nextItem_replay (h : (getThread e.s e.t).replay = some i) : nextItem e =
    (some i, { e with s := bump (setThread e.s e.t { getThread e.s e.t with replay := none }) CF_REPLAY_COUNT CF_TALLY_STATUS 1 1 }) := by
  unfold nextItem
  simp only [h]

theorem nextItem_returned {r : List Nat} (hj : jobAt e.s e.t.vcore = some j) (h : (getThread e.s e.t).replay = none) (hr : j.replay = i :: r) :
    nextItem e = (some i, { e with s := bump (modJob e.s j.id (fun x => { x with replay := r })) CF_REPLAY_COUNT CF_TALLY_STATUS 1 1 }) := by
  unfold nextItem
  simp only [h, hj, Option.getD_some, hr]

theorem nextItem_dynamic (hj : jobAt e.s e.t.vcore = some j) (h : (getThread e.s e.t).replay = none) (hr : j.replay = []) (hd : j.dynamic = true) :
    nextItem e = if j.nextItem < j.wiCount then
        (some j.nextItem, { e with s := modJob e.s j.id (fun x => { x with nextItem := x.nextItem + 1 }) }) else (none, e) := by
  unfold nextItem
  simp only [h, hj, Option.getD_some, hr, hd, if_true]

theorem nextItem_static (hj : jobAt e.s e.t.vcore = some j) (h : (getThread e.s e.t).replay = none) (hr : j.replay = []) (hd : j.dynamic = false)
    (hi : i = (e.t.vcore - j.vfirst) * j.threads + e.t.thread + (getThread e.s e.t).winext * (j.vcount * j.threads)) :
    nextItem e = (if i < j.wiCount then some i else none,
      { e with s := setThread e.s e.t { getThread e.s e.t with winext := (getThread e.s e.t).winext + 1 } }) := by
  unfold nextItem
  simp only [h, hj, Option.getD_some, hr, hd, Bool.false_eq_true, if_false, ← hi]

end

theorem nextItem_from (e : Ev) : (nextItem e).2.From e := Machine.nextItem_from .rfl

/-- A tally's bump reads nothing of the cores. -/
theorem bump_cores (s : State) (c : Cores) (off status bit n : Nat) :
    bump { s with cores := c } off status bit n = { bump s off status bit n with cores := c } := by
  have hr : rd64 { s with cores := c } off = rd64 s off := rfl
  unfold bump
  rw [hr]
  dsimp only
  split <;> rfl

theorem seqNext_lt {rs : List Repeat} {pc : Nat} (h : ∀ r ∈ rs, r.bodyStart < 2 ^ 32) (hp : pc < 2 ^ 32) : (seqNext rs pc).2 < 2 ^ 32 := by
  induction rs with
  | nil => exact hp
  | cons r rs ih =>
    have hr := h r List.mem_cons_self
    unfold seqNext
    split
    · split
      · exact hr
      · exact ih fun r hr => h r (List.mem_cons_of_mem _ hr)
    · exact hp

/-- What CHECK_CLEAN counts leaves the cores but for the jobs. -/
theorem breach_cores (s : State) (id kind object before after : Nat) :
    { (breach s id kind object before after).cores with jobs := [] } = { s.cores with jobs := [] } := by
  unfold breach
  split
  · rfl
  · split
    · rfl
    · dsimp only
      split
      · simp [modJob]
      · rfl

theorem cleanEnd_cores (s : State) (j : Job) (t : Tid) : { (cleanEnd s j t).cores with jobs := [] } = { s.cores with jobs := [] } := by
  unfold cleanEnd
  split
  · rfl
  · exact foldl_keeps (fun s : State => { s.cores with jobs := [] }) _ (fun s q => breach_cores _ _ _ _ _ _) _ _

theorem getThread_cleanEnd (s : State) (j : Job) (t u : Tid) : getThread (cleanEnd s j t) u = getThread s u := by
  have h := congrArg Cores.threads (cleanEnd_cores s j t)
  exact getThread_congr h u

theorem opsOf_congr {s u : State} (h : u.cores.ops = s.cores.ops) (t : Tid) : opsOf u t = opsOf s t := by
  unfold opsOf
  rw [h]

theorem opsOf_cleanEnd (s : State) (j : Job) (t u : Tid) : opsOf (cleanEnd s j t) u = opsOf s u := by
  have h := congrArg Cores.ops (cleanEnd_cores s j t)
  exact opsOf_congr h u

/-- A thread that has executed END ends as its last operation is acknowledged. -/
theorem getThread_settleEnd {s : State} {t : Tid} (h : (getThread s t).run = .ending) :
    getThread (settleEnd s t) t = { getThread s t with run := if opsOf s t = [] then .ended else .ending } := by
  unfold settleEnd
  dsimp only
  split
  next hc =>
    rw [getThread_setThread, if_pos hc.2]
  next hc =>
    rw [if_neg fun ho => hc ⟨h, ho⟩, ← h]

theorem settleEnd_cores (s : State) (t : Tid) : { (settleEnd s t).cores with threads := [] } = { s.cores with threads := [] } := by
  unfold settleEnd
  dsimp only
  split <;> rfl

/-- The cores but for the threads, the jobs, and which cores sleep. -/
def settledCores (c : Cores) : Cores := { c with threads := [], jobs := [], gated := [], watch := [] }

theorem settledCores_jobs (c : Cores) : settledCores { c with jobs := [] } = settledCores c := rfl
theorem settledCores_threads (c : Cores) : settledCores { c with threads := [] } = settledCores c := rfl

/-- A bundle's end leaves the cores but for those. -/
theorem finishIssue_cores (e : Ev) : settledCores (finishIssue e).cores = settledCores e.s.cores := by
  have hs (s : State) (t : Tid) : settledCores (settleEnd s t).cores = settledCores s.cores := by
    rw [← settledCores_threads, settleEnd_cores, settledCores_threads]
  have hc (s : State) (j : Job) (t : Tid) : settledCores (cleanEnd s j t).cores = settledCores s.cores := by
    rw [← settledCores_jobs, cleanEnd_cores, settledCores_jobs]
  rw [finishIssue_eq, hs]
  split
  · rw [hc]
    rfl
  · rfl

theorem finishIssue_ops (e : Ev) : (finishIssue e).cores.ops = e.s.cores.ops := by
  have h := congrArg Cores.ops (finishIssue_cores e)
  exact h

theorem finishIssue_scratch (e : Ev) : (finishIssue e).cores.scratch = e.s.cores.scratch := by
  have h := congrArg Cores.scratch (finishIssue_cores e)
  exact h

theorem finishIssue_mem (e : Ev) : (finishIssue e).mem = e.s.mem := by
  rw [finishIssue_eq]
  split <;> simp [advanced]

theorem finishIssue_host (e : Ev) : (finishIssue e).host = e.s.host := by
  rw [finishIssue_eq]
  split <;> simp [advanced]

theorem finishIssue_ending (h : (getThread e.s e.t).run = .ending) : finishIssue e = settleEnd (cleanEnd (advanced e) e.job e.t) e.t := by
  rw [finishIssue_eq, h]

theorem getThread_finishIssue_ending (h : (getThread e.s e.t).run = .ending) :
    getThread (finishIssue e) e.t = { threadAfter e with run := if opsOf e.s e.t = [] then .ended else .ending } := by
  have h1 : getThread (cleanEnd (advanced e) e.job e.t) e.t = threadAfter e := (getThread_cleanEnd _ _ _ _).trans (getThread_advanced e)
  have h2 : opsOf (cleanEnd (advanced e) e.job e.t) e.t = opsOf e.s e.t := (opsOf_cleanEnd _ _ _ _).trans (opsOf_congr rfl _)
  rw [finishIssue_ending h, getThread_settleEnd (by rw [h1]; exact h), h1, h2]

/-- A thread that ends as by END at its present PC. -/
theorem getThread_endThread (s : State) (j : Job) (t : Tid) : getThread (endThread s j t) t =
    { getThread s t with run := if opsOf s t = [] then .ended else .ending, item := none, waitQ := [], dropped := 0 } := by
  unfold endThread
  dsimp only
  rw [getThread_settleEnd (by rw [getThread_cleanEnd, getThread_setThread]), getThread_cleanEnd, getThread_setThread, opsOf_cleanEnd]
  rfl

theorem endThread_sems (s : State) (j : Job) (t : Tid) : (endThread s j t).sems = s.sems := by
  unfold endThread
  simp

/-- What a bundle that leaves the thread running keeps, by piece. -/
theorem finishIssue_sems (e : Ev) : (finishIssue e).sems = e.s.sems := finishIssue_within.same .sems (by decide)

section
variable {s : State} {t : Tid} {j : Job} {th : Thread}

theorem ctlSlot_winext {w : W32} (hop : fld w 0 8 = 0x40) : ctlSlot e w = ctlWinext e w := by
  unfold ctlSlot
  rw [hop]
  rfl

theorem ctlSlot_end {w : W32} (hop : fld w 0 8 = 0x41) : ctlSlot e w = ctlEnd e w := by
  unfold ctlSlot
  rw [hop]
  rfl

theorem ctlSlot_subtag {w : W32} (hop : fld w 0 8 = 0x42) : ctlSlot e w = ctlSubtag e w := by
  unfold ctlSlot
  rw [hop]
  rfl

theorem ctlSlot_stat {w : W32} (hop : fld w 0 8 = 0x43) : ctlSlot e w = ctlStat e w := by
  unfold ctlSlot
  rw [hop]
  rfl

/-- A work-item as WINEXT's destination takes it: all ones where none is left. -/
def itemWord (i : Option Nat) : W64 :=
  match i with
  | some n => BitVec.ofNat 64 n
  | none => BitVec.allOnes 64

theorem exec_winext {e e' : Ev} {i : Option Nat} (hi : Issues s t b j th) (ha : Alone b 0) (hop : Bundle.op b 0 = 0x40) (hz : fld b.ctl 14 18 = 0)
    (hd : dstCheck (atIssue s t b j th) false (ctlD b.ctl) = .ok ()) (hn : nextItem (atIssue s t b j th) = (i, e))
    (hw : writeS (itemGiven e j th i) (ctlD b.ctl) (itemWord i) = .ok e') :
    exec (.winext t b) s = .next (finishIssue e') := by
  obtain ⟨hj, hth, -⟩ := issuer_some hi.1
  have hjob : e.job = j := by
    have h := (nextItem_from (atIssue s t b j th)).job
    rwa [hn] at h
  have hf : ((getThread (atIssue s t b j th).s (atIssue s t b j th).t).replay.isNone &&
      decide (((jobAt (atIssue s t b j th).s (atIssue s t b j th).t.vcore).getD (atIssue s t b j th).job).replay = [])) =
      (th.replay.isNone && decide (j.replay = [])) := by
    rw [show jobAt (atIssue s t b j th).s (atIssue s t b j th).t.vcore = some j from hj,
      show getThread (atIssue s t b j th).s (atIssue s t b j th).t = th from hth]
    rfl
  have hg : (i.isSome && (th.replay.isNone && decide (j.replay = []))) = true ↔ i.isSome = true ∧ th.replay = none ∧ j.replay = [] := by simp
  refine exec_ctl (fun _ _ _ => rfl) hi ha hop ((ctlSlot_winext hop).trans ?_)
  unfold ctlWinext
  rw [zeroCheck_ok (by simpa using hz), hd, hf, hn]
  subst hjob
  simp only [SlotRes.bind_ok, hg]
  exact hw

theorem exec_endThread (hi : Issues s t b j th) (ha : Alone b 0) (hop : Bundle.op b 0 = 0x41) (hz : fld b.ctl 8 24 = 0) :
    exec (.endThread t b) s =
      .next (finishIssue { atIssue s t b j th with s := setThread s t { th with run := .ending, item := none } }) := by
  obtain ⟨-, hth, -⟩ := issuer_some hi.1
  refine exec_ctl (fun _ _ _ => rfl) hi ha hop ((ctlSlot_end hop).trans ?_)
  unfold ctlEnd
  rw [zeroCheck_ok (by simpa using hz), ← hth]
  rfl

theorem exec_subtag (hi : Issues s t b j th) (ha : Alone b 0) (hop : Bundle.op b 0 = 0x42) (hz : fld b.ctl 8 8 = 0) :
    exec (.subtag t b) s =
      .next (finishIssue { atIssue s t b j th with s := setThread s t { th with subtag := BitVec.ofNat 16 (fld b.ctl 16 16) } }) := by
  obtain ⟨-, hth, -⟩ := issuer_some hi.1
  refine exec_ctl (fun _ _ _ => rfl) hi ha hop ((ctlSlot_subtag hop).trans ?_)
  unfold ctlSubtag
  rw [zeroCheck_ok (by simpa using hz), ← hth]
  rfl

theorem ctlStat_eq {w : W32} (hz : fld w 14 6 = 0) : ctlStat e w =
    match statValue e.job e.th0 (fld w 20 12) with
    | none => .skip 0x10 (fld w 20 12)
    | some n => (dstCheck e false (ctlD w)).bind fun _ => writeS e (ctlD w) (BitVec.ofNat 64 n) := by
  unfold ctlStat
  rw [zeroCheck_ok (by simpa using hz)]
  rfl

theorem noRow_of_empty (h : b.header.toNat % 16 = 0) : ∀ k < 4, Bundle.has b k = false := by
  intro k hk
  have hbit := congrArg (fun n => n.testBit k) h
  simpa [Nat.testBit_mod_two_pow b.header.toNat 4, hk, Bundle.has, bit, BitVec.getLsbD] using hbit

theorem exec_bundleNop (hi : Issues s t b j th) (hn : noRow b = true) (hr : Bundle.reserved b = 0)
    (hs : runSlots (atIssue s t b j th) b [0, 1, 2, 3] = .ok e) : exec (.bundleNop t b) s = .next (finishIssue e) := by
  have h0 : exec (.bundleNop t b) s = .next (if noRow b then issue s t b else s) := rfl
  rw [h0, hn, if_pos rfl, issue_of_runSlots hi hr hs]

theorem exec_reservedHeader (hi : issuer s t = some (j, th)) (hr : Bundle.reserved b ≠ 0) (hc : th.pc.toNat + Bundle.len b ≤ j.codeBytes) :
    exec (.reservedHeader t b) s =
      .next (setThread (skipSlot s j t th.subtag th.pc.toNat 0xF 0x01 b.header.toNat) t
        { getThread (skipSlot s j t th.subtag th.pc.toNat 0xF 0x01 b.header.toNat) t with
          rpt := (seqNext th.rpt (th.pc.toNat + Bundle.len b)).1
          pc := BitVec.ofNat 32 (seqNext th.rpt (th.pc.toNat + Bundle.len b)).2, waitQ := [], dropped := 0 }) := by
  have h0 : exec (.reservedHeader t b) s = execReservedHeader t b s := rfl
  rw [h0]
  unfold execReservedHeader
  simp only [hi]
  rw [if_neg (by omega)]

theorem exec_truncatedBundle (hi : issuer s t = some (j, th)) (hc : j.codeBytes < th.pc.toNat + Bundle.len b) :
    exec (.truncatedBundle t b) s = .next (endThread (skipSlot s j t th.subtag th.pc.toNat 0xF 0x0E th.pc.toNat) j t) := by
  have h0 : exec (.truncatedBundle t b) s = execTruncatedBundle t b s := rfl
  rw [h0]
  unfold execTruncatedBundle
  simp only [hi]
  rw [if_neg (by omega)]

end

/-- Settles O14. -/
theorem threadRows : Obligations.ThreadRows := by
  unfold Obligations.ThreadRows
  refine ⟨?_, ?_, ?_, ?_, fun s t b j th e e' i hi ha hop hz hd hn hw => exec_winext hi ha hop hz hd hn hw, ?_, ?_, ?_, ?_,
    fun s t b j th e hi hn hr hs => exec_bundleNop hi hn hr hs, ?_, ?_, ?_, ?_, ?_⟩
  · intro e i h
    refine ⟨_, nextItem_replay h, ?_, bump_within.same .mem (by decide)⟩
    have hc := (bump_within (s := setThread e.s e.t { getThread e.s e.t with replay := none }) (off := CF_REPLAY_COUNT) (status := CF_TALLY_STATUS)
      (bit := 1) (n := 1)).same .cores (by decide)
    rw [getThread_congr (congrArg Cores.threads hc), getThread_setThread]
  · intro e j i r hj h hr
    exact ⟨_, nextItem_returned hj h hr, bump_cores _ _ _ _ _ _⟩
  · intro e j hj h hr hd
    rw [nextItem_dynamic hj h hr hd]
    exact ⟨fun hl => if_pos hl, fun hl => if_neg (by omega)⟩
  · intro e j k hj h hr hd hk
    refine ⟨_, nextItem_static hj h hr hd hk, ?_, ?_, rfl, rfl⟩ <;> rw [getThread_setThread]
  · intro s t b j th hi ha hop hz
    refine gives_next (exec_endThread hi ha hop hz) ?_
    generalize he : ({ atIssue s t b j th with s := setThread s t { th with run := .ending, item := none } } : Ev) = e
    obtain rfl : e.t = t := by rw [← he]; rfl
    have hth : getThread e.s e.t = { th with run := .ending, item := none } := by rw [← he]; exact getThread_setThread _ _ _
    have hops : opsOf e.s e.t = opsOf s e.t := by rw [← he]; rfl
    have hrun : (getThread e.s e.t).run = .ending := by rw [hth]
    have hfin := getThread_finishIssue_ending hrun
    rw [hfin, hops]
    unfold threadAfter
    rw [hth]
    refine ⟨rfl, rfl, rfl, ?_, ?_, ?_⟩
    · rw [finishIssue_mem, ← he]
      rfl
    · rw [finishIssue_sems, ← he]
      rfl
    · intro hclean
      have hjob : e.job = j := by rw [← he]; rfl
      rw [finishIssue_ending hrun, hjob]
      unfold cleanEnd
      rw [hclean, ← he]
      simp [advanced]
  · intro s t b j th hi ha hop hz
    refine gives_next (exec_subtag hi ha hop hz) ?_
    have hrun : th.run = .running := (issuer_some hi.1).2.2
    generalize he : ({ atIssue s t b j th with s := setThread s t { th with subtag := BitVec.ofNat 16 (fld b.ctl 16 16) } } : Ev) = e
    obtain rfl : e.t = t := by rw [← he]; rfl
    have hth : getThread e.s e.t = { th with subtag := BitVec.ofNat 16 (fld b.ctl 16 16) } := by rw [← he]; exact getThread_setThread _ _ _
    rw [finishIssue_running (by rw [hth]; exact hrun), getThread_advanced]
    unfold threadAfter
    rw [hth]
    refine ⟨rfl, rfl, ?_, ?_, ?_⟩ <;> rw [← he] <;> rfl
  · intro s t b j th v e' hi ha hop hz hd hv hw
    refine exec_ctl (fun _ _ _ => rfl) hi ha hop ((ctlSlot_stat hop).trans ((ctlStat_eq hz).trans ?_))
    rw [show statValue (atIssue s t b j th).job (atIssue s t b j th).th0 (fld b.ctl 20 12) = some v from hv, hd]
    exact hw
  · intro s t b j th hi ha hop hz hv
    refine exec_ctl_skip (fun _ _ _ => rfl) hi ha hop ((ctlSlot_stat hop).trans ((ctlStat_eq hz).trans ?_))
    rw [show statValue (atIssue s t b j th).job (atIssue s t b j th).th0 (fld b.ctl 20 12) = none from hv]
  · intro s t b j th hi h0 hr
    have hno := noRow_of_empty h0
    refine exec_bundleNop hi ?_ hr ?_
    · simp [noRow, hno]
    · simp [runSlots, hno]
  · intro s t b j th hi hr hc hcode hrpt
    refine gives_next (exec_reservedHeader hi hr hc) ?_
    obtain ⟨-, rfl, -⟩ := issuer_some hi
    rw [getThread_setThread, skipSlot_thread]
    refine ⟨?_, rfl, toNat_satInc _ _, rfl, ?_⟩
    · rw [BitVec.toNat_ofNat, Nat.mod_eq_of_lt (seqNext_lt hrpt (by omega))]
    · exact skipSlot_within.same .sems (by decide)
  · intro s t b j th hi hc
    refine gives_next (exec_truncatedBundle hi hc) ?_
    obtain ⟨-, rfl, -⟩ := issuer_some hi
    have hops : opsOf (skipSlot s j t (getThread s t).subtag (getThread s t).pc.toNat 0xF 0x0E (getThread s t).pc.toNat) t = opsOf s t := by
      refine opsOf_congr ?_ t
      unfold skipSlot
      simp [modJob]
      rfl
    rw [getThread_endThread, hops, skipSlot_thread, endThread_sems]
    exact ⟨rfl, rfl, toNat_satInc _ _, skipSlot_within.same .sems (by decide)⟩
  · intro s v j k w hj hk hw
    have h0 : exec (.deadlock v) s = execDeadlock v s := rfl
    have h1 : execDeadlock v s = .next (setThread (skipSlot s j { vcore := v, thread := k } (getThread s { vcore := v, thread := k }).subtag
        (getThread s { vcore := v, thread := k }).pc.toNat w.slot 0x0F w.q) { vcore := v, thread := k }
        { getThread (skipSlot s j { vcore := v, thread := k } (getThread s { vcore := v, thread := k }).subtag
            (getThread s { vcore := v, thread := k }).pc.toNat w.slot 0x0F w.q) { vcore := v, thread := k } with
          waitQ := (getThread (skipSlot s j { vcore := v, thread := k } (getThread s { vcore := v, thread := k }).subtag
            (getThread s { vcore := v, thread := k }).pc.toNat w.slot 0x0F w.q) { vcore := v, thread := k }).waitQ.filter (fun x => x.slot != w.slot)
          dropped := (getThread (skipSlot s j { vcore := v, thread := k } (getThread s { vcore := v, thread := k }).subtag
            (getThread s { vcore := v, thread := k }).pc.toNat w.slot 0x0F w.q) { vcore := v, thread := k }).dropped ||| (1#4 <<< w.slot) }) := by
      unfold execDeadlock
      simp only [hj, hk, hw]
    refine gives_next (h0.trans h1) ?_
    rw [getThread_setThread, skipSlot_thread]
    exact ⟨rfl, rfl, toNat_satInc _ _⟩
  · intro s v j hj hk
    have h0 : exec (.deadlock v) s = execDeadlock v s := rfl
    rw [h0]
    unfold execDeadlock
    simp only [hj, hk]

end Sys2Proof.Claims
end

section
/-! PROOFS. The address slot: addresses and loop units, loads and stores as they issue, and what refutes two of the statements on its rows. -/
namespace Sys2Proof.Claims
open Sys2Proof.Machine

/-! ## States that refute -/

/-- One job of one thread on virtual core 3. -/
def loneJob : Job :=
  { id := 1, cmd := 0, tag := 9, client := 0, part := 0, image := 0x100000, vfirst := 3, vcount := 1, wiCount := 1, arg := 0, threads := 1,
    idempotent := false, dynamic := false, codeBytes := 64, entry := 0, scratch := 0, qmap := [], state := .running, stop := none, nextItem := 0,
    replay := [], started := 0, skips := 0, clean := none, vcores := [3] }

/-- Its thread, S7 holding the address of semaphore 0. -/
def loneThread : Thread := { Thread.zero with s := [(7, 0x30000000000)], run := .running }
def loneTid : Tid := { vcore := 3, thread := 0 }

/-- A READY device that runs the job, with these operations in flight and these lines in the L1s. -/
def loneState (ops : List MemOp) (l1 : Tab L1Line) : State :=
  let s := setDevState State.reset 2
  setThread { s with cores := { s.cores with jobs := [loneJob], vmap := [(3, 4)], ops := ops, l1 := l1 } } loneTid loneThread

/-- A bundle of an address slot alone. -/
def adrBundle (w : W64) : Bundle := { header := 2, ctl := 0, adr := w, mtx := 0, vec := 0 }

/-- An operation of another thread on node 5, which has the number that the next operation takes. -/
def sameNumber : MemOp :=
  { id := State.reset.cores.nextId, t := { vcore := 5, thread := 0 }, origin := { vcore := 5, thread := 0 }, part := 0, kind := .semSig, node := 5, addr := 0x30000000000,
    data := 0, cmp := 0, mask := 0, dest := .none, todo := [0], res := 0, status := 0, done := false, parked := false, short := false, tag := 0,
    subtag := 0 }

theorem adrIssues_lone {ops : List MemOp} {l1 : Tab L1Line} {w : W64} {op : Nat} (h : Issues (loneState ops l1) loneTid (adrBundle w) loneJob loneThread) (hop : fld w 0 8 = op)
    (hz : zeroCheck w (adrZero w op) = .ok ()) (ho : opsOf (loneState ops l1) loneTid = []) :
    AdrIssues (loneState ops l1) loneTid (adrBundle w) loneJob loneThread op := by
  refine ⟨h, ⟨rfl, show fld (2#8) 5 3 = 0 by decide⟩, hop, hz, rfl, ?_, ?_⟩ <;> rw [ho]
  · exact fun o ho => absurd ho List.not_mem_nil
  · exact fun _ => Nat.zero_lt_succ _

/-- The L1INV of the whole L1 by thread 0 of core 3, while core 4's L1 holds line 0. -/
def otherL1 : State := loneState [] [(l1Key 4 0, { data := 0, valid := 1 })]

/-- Refutes O19: after an L1INV of the whole L1 the statement reads line `o` of the L1 for every number `o`, but the lines of all L1s stand in one table,
and a number of 2^48 and more reads a line of another core's, which the row does not touch. -/
theorem not_fencesLoopsHoists : ¬ Obligations.FencesLoopsHoists := by
  unfold Obligations.FencesLoopsHoists
  rintro ⟨-, -, -, hinv, -⟩
  have hi : AdrIssues otherL1 loneTid (adrBundle 0x19) loneJob loneThread 0x19 :=
    adrIssues_lone ⟨rfl, by decide +kernel, nofun, rfl, rfl⟩ (by decide +kernel) (by rfl) (by rfl)
  obtain ⟨u, hu, -, -, hnone, -⟩ := hinv otherL1 loneTid (adrBundle 0x19) loneJob loneThread 0 0
    (atIssue otherL1 loneTid (adrBundle 0x19) loneJob loneThread) (atIssue otherL1 loneTid (adrBundle 0x19) loneJob loneThread) hi (by rfl) (by rfl) (by rfl) (by rfl) (by rfl)
  have hu : issueRow otherL1 loneTid (adrBundle 0x19) 1 0x19 0x19 = u := Host.Outcome.next.inj hu
  have h := hnone (2 ^ 48) rfl
  rw [← hu] at h
  exact absurd h (by decide +kernel)

/-- Refutes O18: the statement asks of every state that a semaphore operation to a remote node leaves its own operation with nothing left to do. In a
state that holds an operation of another thread under the number that is given next, the sending finds that one first, and the new one keeps its granule. -/
theorem not_atomicAndSemaphoreIssue : ¬ Obligations.AtomicAndSemaphoreIssue := by
  unfold Obligations.AtomicAndSemaphoreIssue
  rintro ⟨-, h⟩
  have hi : AdrIssues (loneState [sameNumber] []) loneTid (adrBundle 0xE00010) loneJob loneThread 0x10 :=
    adrIssues_lone ⟨rfl, by decide +kernel, nofun, rfl, rfl⟩ (by decide +kernel) (by rfl) (by rfl)
  obtain ⟨u, hu, -, -, o, ho, -, -, -, -, htodo⟩ := (h (loneState [sameNumber] []) loneTid (adrBundle 0xE00010) loneJob loneThread 0 0x30000000000 (atIssue (loneState [sameNumber] []) loneTid (adrBundle 0xE00010) loneJob loneThread)
    (atIssue (loneState [sameNumber] []) loneTid (adrBundle 0xE00010) loneJob loneThread) (by rfl) (by rfl) (by rfl) (by rfl) (by rfl)).1 hi (by rfl)
  obtain rfl : issueRow (loneState [sameNumber] []) loneTid (adrBundle 0xE00010) 1 0x10 0x10 = u := Host.Outcome.next.inj hu
  have hall : (issueRow (loneState [sameNumber] []) loneTid (adrBundle 0xE00010) 1 0x10 0x10).cores.ops.all (fun o => decide (o.todo = [])) = true := by
    decide +kernel
  have := of_decide_eq_true (List.all_eq_true.1 hall o ho)
  rw [this] at htodo
  cases htodo

section

/-! ## Addresses and loop units -/

variable {e : Ev} {w : W64} {l : LoopUnit}

theorem loopOf_configured {u : Nat} (h : tfind e.th0.loops u = some l) (hc : l.configured = true) : loopOf e u = .ok l := by
  unfold loopOf
  rw [h]
  exact if_pos hc

theorem adrAddress_base {n : Nat} (hl : adrLoop w = false) (hn : fld w 21 6 = n) (h : n < 32) (hp : pendingDest e (.sreg n) = false) :
    adrAddress e w = .ok ((if n = 0 then 0 else tget e.th0.s n 0) + BitVec.ofInt 64 (sxt 24 (fld w 40 24)), e) := by
  unfold adrAddress
  rw [hl, hn, readS_reg h hp]
  rfl

theorem adrAddress_loop (hl : adrLoop w = true) (h : tfind e.th0.loops (fld w 21 2) = some l) (hc : l.configured = true) : adrAddress e w =
    .ok (l.addr + BitVec.ofInt 64 (sxt 24 (fld w 40 24)), if bit w 23 then setLoop e (fld w 21 2) l.advance else e) := by
  unfold adrAddress
  rw [hl, loopOf_configured h hc]
  rfl

theorem getThread_setLoop (u : Nat) : getThread (setLoop e u l).s e.t = { getThread e.s e.t with loops := tput (getThread e.s e.t).loops u l } :=
  getThread_setThread _ _ _

/-- The carry from level `k` stops at the first level `m` whose index is not its last. -/
theorem carry_stops {m : Nat} (fuel : Nat) : ∀ {l : LoopUnit} {k : Nat}, k ≤ m → m < l.levels → m < k + fuel →
    (∀ i, k ≤ i → i < m → tget l.idx i 0 + 1 = tget l.counts i 0) → tget l.idx m 0 + 1 ≠ tget l.counts m 0 →
    (∀ i, k ≤ i → i < m → tget (LoopUnit.carry l k fuel).idx i 0 = 0) ∧ tget (LoopUnit.carry l k fuel).idx m 0 = tget l.idx m 0 + 1 ∧
      (∀ i, i < k ∨ m < i → tget (LoopUnit.carry l k fuel).idx i 0 = tget l.idx i 0) ∧ (LoopUnit.carry l k fuel).done = l.done := by
  induction fuel with
  | zero => intro l k h1 _ h3; omega
  | succ fuel ih =>
    intro l k h1 h2 h3 hlast hm
    unfold LoopUnit.carry
    dsimp only
    by_cases hk : k = m
    · subst hk
      rw [if_neg hm]
      refine ⟨fun i h h' => absurd h' (by omega), by dsimp only; exact tget_tset_same _ _ _ _, fun i hi => by dsimp only; exact tget_tset_ne _ _ _ _ (by omega), rfl⟩
    · rw [if_pos (hlast k le_rfl (by omega)), if_neg (by omega)]
      obtain ⟨g1, g2, g3, g4⟩ := ih (l := { l with idx := tset l.idx k 0 0 }) (k := k + 1) (by omega) h2 (by omega)
        (fun i hi hi' => by
          dsimp only
          rw [tget_tset_ne _ _ _ _ (by omega)]
          exact hlast i (by omega) hi')
        (by
          dsimp only
          rw [tget_tset_ne _ _ _ _ (by omega)]
          exact hm)
      refine ⟨fun i hi hi' => ?_, ?_, fun i hi => ?_, g4⟩
      · by_cases hik : i = k
        · rw [g3 i (by omega), hik]
          dsimp only
          exact tget_tset_same _ _ _ _
        · exact g1 i (by omega) hi'
      · rw [g2]
        dsimp only
        rw [tget_tset_ne _ _ _ _ (by omega)]
      · rw [g3 i (by omega)]
        dsimp only
        rw [tget_tset_ne _ _ _ _ (by omega)]

/-- The carry past the highest level leaves every index from `k` on zero and sets DONE. -/
theorem carry_wraps (fuel : Nat) : ∀ {l : LoopUnit} {k : Nat}, k < l.levels → k + fuel = l.levels →
    (∀ i, k ≤ i → i < l.levels → tget l.idx i 0 + 1 = tget l.counts i 0) →
    (∀ i, k ≤ i → i < l.levels → tget (LoopUnit.carry l k fuel).idx i 0 = 0) ∧
      (∀ i, i < k → tget (LoopUnit.carry l k fuel).idx i 0 = tget l.idx i 0) ∧ (LoopUnit.carry l k fuel).done = true := by
  induction fuel with
  | zero => intro l k h1 h2; omega
  | succ fuel ih =>
    intro l k h1 h2 hlast
    unfold LoopUnit.carry
    dsimp only
    rw [if_pos (hlast k le_rfl h1)]
    split
    next hk =>
      refine ⟨fun i hi hi' => ?_, fun i hi => ?_, rfl⟩ <;> dsimp only
      · obtain rfl : i = k := by omega
        exact tget_tset_same _ _ _ _
      · exact tget_tset_ne _ _ _ _ (by omega)
    next hk =>
      obtain ⟨g1, g2, g3⟩ := ih (l := { l with idx := tset l.idx k 0 0 }) (k := k + 1) (by dsimp only; omega) (by dsimp only; omega)
        (fun i hi hi' => by
          dsimp only
          rw [tget_tset_ne _ _ _ _ (by omega)]
          exact hlast i (by omega) hi')
      refine ⟨fun i hi hi' => ?_, fun i hi => ?_, g3⟩
      · by_cases hik : i = k
        · rw [g2 i (by omega), hik]
          dsimp only
          exact tget_tset_same _ _ _ _
        · exact g1 i (by omega) hi'
      · rw [g2 i (by omega)]
        dsimp only
        rw [tget_tset_ne _ _ _ _ (by omega)]

/-- Settles O15. -/
theorem addressesAndLoops : Obligations.AddressesAndLoops := by
  unfold Obligations.AddressesAndLoops
  refine ⟨fun e w hl h hp => adrAddress_base hl rfl h hp, ?_, ?_, ?_, fun e w use a n align h => if_pos h, ?_, ?_, ?_, ?_⟩
  · intro e w l hl hb h hc
    rw [adrAddress_loop hl h hc, hb]
    rfl
  · intro e w l hl hb h hc
    refine ⟨setLoop e (fld w 21 2) l.advance, ?_, ?_, ?_⟩
    · rw [adrAddress_loop hl h hc, hb]
      rfl
    · rw [getThread_setLoop]
      exact tfind_tput_same _ _ _
    · rw [getThread_setLoop]
  · intro e w hl h
    unfold adrBaseCheck loopOf
    rw [hl, h]
    rfl
  · intro e w a n align h hs ho
    unfold adrCheck
    rw [if_neg (by omega), if_pos hs, if_pos (.inl rfl), if_neg (by omega)]
  · intro l h0 h
    obtain ⟨-, g2, g3, g4⟩ := carry_stops l.levels (m := 0) (k := 0) le_rfl h0 (by omega) (fun i _ hi => absurd hi (by omega)) h
    exact ⟨g2, fun k hk => g3 k (by omega), g4⟩
  · intro l h0 h
    obtain ⟨g1, -, g3⟩ := carry_wraps l.levels (k := 0) h0 (by omega) fun i _ hi => h i hi
    exact ⟨fun k hk => g1 k (by omega) hk, g3⟩
  · intro l m h0 hm h hne
    obtain ⟨g1, g2, -, g4⟩ := carry_stops l.levels (m := m) (k := 0) (by omega) hm (by omega) (fun i _ hi => h i hi) hne
    exact ⟨fun k hk => g1 k (by omega) hk, g2, g4⟩

end

/-! ## Bytes of a word -/

theorem leNat_byte (bs : List Byte) (j : Nat) : leNat bs / 256 ^ j % 256 = (bs.getD j 0).toNat := by
  induction bs generalizing j with
  | nil => simp [leNat]
  | cons b bs ih =>
    have hb : b.toNat < 256 := b.isLt
    have hc : leNat (b :: bs) = b.toNat + 256 * leNat bs := rfl
    rw [hc]
    cases j with
    | zero => simp; omega
    | succ j =>
      rw [pow_succ', ← Nat.div_div_eq_div_mul, Nat.add_mul_div_left _ _ (by omega), Nat.div_eq_of_lt hb, Nat.zero_add, ih]
      rfl

theorem getLsbD_setFld {w : Nat} (x : BitVec w) (lo len v i : Nat) : (setFld x lo len v).getLsbD i =
    if lo ≤ i ∧ i < lo + len ∧ i < w then v.testBit (i - lo) else x.getLsbD i := by
  unfold setFld
  by_cases hw : i < w
  · rw [BitVec.getLsbD_or, BitVec.getLsbD_and, BitVec.getLsbD_not, BitVec.getLsbD_shiftLeft, BitVec.getLsbD_shiftLeft, BitVec.getLsbD_ofNat,
      BitVec.getLsbD_ofNat, Nat.testBit_two_pow_sub_one, Nat.testBit_mod_two_pow]
    by_cases hl : lo ≤ i
    · have h1 : ¬ i < lo := by omega
      have h2 : i - lo < w := by omega
      by_cases hn : i < lo + len
      · have h3 : i - lo < len := by omega
        simp [hw, hl, h1, h2, h3, hn]
      · have h3 : ¬ i - lo < len := by omega
        simp [hw, h1, h2, h3, hn]
    · have h1 : i < lo := by omega
      simp [hw, hl, h1]
  · rw [if_neg (by omega), BitVec.getLsbD_of_ge _ _ (by omega), BitVec.getLsbD_of_ge _ _ (by omega)]

theorem testBit_fld {w : Nat} (x : BitVec w) (lo len i : Nat) : (fld x lo len).testBit i = (decide (i < len) && x.getLsbD (lo + i)) := by
  rw [fld, BitVec.testBit_toNat, BitVec.getLsbD_extractLsb']

theorem fld_setFld_same {w lo len : Nat} (x : BitVec w) (v : Nat) (h : lo + len ≤ w) : fld (setFld x lo len v) lo len = v % 2 ^ len := by
  refine Nat.eq_of_testBit_eq fun i => ?_
  rw [Nat.testBit_mod_two_pow, testBit_fld, getLsbD_setFld]
  by_cases hi : i < len
  · rw [if_pos ⟨by omega, by omega, by omega⟩]
    simp [hi]
  · simp [hi]

theorem fld_setFld_ne {w lo len i n : Nat} (x : BitVec w) (v : Nat) (h : i + n ≤ lo ∨ lo + len ≤ i) : fld (setFld x lo len v) i n = fld x i n := by
  refine Nat.eq_of_testBit_eq fun k => ?_
  rw [testBit_fld, testBit_fld, getLsbD_setFld]
  by_cases hk : k < n
  · rw [if_neg (by omega)]
  · simp [hk]

/-- Two words of `n` bytes with the same bytes are one. -/
theorem eq_of_bytes {n : Nat} {x y : BitVec (8 * n)} (h : ∀ i < n, fld x (8 * i) 8 = fld y (8 * i) 8) : x = y := by
  refine BitVec.eq_of_getLsbD_eq fun i hi => ?_
  have hb := congrArg (fun k => k.testBit (i % 8)) (h (i / 8) (by omega))
  rw [testBit_fld, testBit_fld, show 8 * (i / 8) + i % 8 = i by omega, decide_eq_true (show i % 8 < 8 by omega)] at hb
  exact hb

theorem fld_ofNat_leNat {w j : Nat} (bs : List Byte) (h : 8 * j + 8 ≤ w) : fld (BitVec.ofNat w (leNat bs)) (8 * j) 8 = (bs.getD j 0).toNat := by
  rw [fld_eq, BitVec.toNat_ofNat, ← leNat_byte bs j, pow_mul]
  have hw : 2 ^ w = 256 ^ j * 256 * 2 ^ (w - (8 * j + 8)) := by
    rw [show (256 : Nat) = 2 ^ 8 from rfl, ← pow_mul, ← pow_add, ← pow_add]
    congr 1
    omega
  rw [hw]
  norm_num
  rw [mul_assoc, Nat.mod_mul_right_div_self, Nat.mod_mul_right_mod]

/-! ## The copies a load takes from the L1 -/

/-- The bytes of the sector at `x` go to their places in a load of `n` bytes from `off`. -/
def placed (off n : Nat) (raw : VReg) (x : Nat) (bs : List Byte) : VReg :=
  (List.range 32).foldl (fun r i => if off ≤ x + i ∧ x + i < off + n then setFld r (8 * (x + i - off)) 8 (bs.getD i 0).toNat else r) raw

theorem placed_steps {off n j : Nat} (raw : VReg) (x : Nat) (bs : List Byte) (hj : j < 256) (m : Nat) :
    fld ((List.range m).foldl (fun r i => if off ≤ x + i ∧ x + i < off + n then setFld r (8 * (x + i - off)) 8 (bs.getD i 0).toNat else r) raw) (8 * j) 8 =
      if j < n ∧ x ≤ off + j ∧ off + j < x + m then (bs.getD (off + j - x) 0).toNat else fld raw (8 * j) 8 := by
  induction m with
  | zero => rw [if_neg (by omega)]; rfl
  | succ m ih =>
    rw [List.range_succ, List.foldl_append, List.foldl_cons, List.foldl_nil]
    by_cases hp : off ≤ x + m ∧ x + m < off + n
    · rw [if_pos hp]
      by_cases hm : x + m = off + j
      · rw [show x + m - off = j by omega, fld_setFld_same _ _ (by omega), if_pos ⟨by omega, by omega, by omega⟩, show off + j - x = m by omega]
        exact Nat.mod_eq_of_lt (BitVec.isLt _)
      · rw [fld_setFld_ne _ _ (by omega), ih]
        by_cases hc : j < n ∧ x ≤ off + j ∧ off + j < x + m
        · rw [if_pos hc, if_pos ⟨hc.1, hc.2.1, by omega⟩]
        · rw [if_neg hc, if_neg (by omega)]
    · rw [if_neg hp, ih]
      by_cases hc : j < n ∧ x ≤ off + j ∧ off + j < x + m
      · rw [if_pos hc, if_pos ⟨hc.1, hc.2.1, by omega⟩]
      · rw [if_neg hc, if_neg (by omega)]

theorem byte_placed {off n j : Nat} (raw : VReg) (x : Nat) (bs : List Byte) (hj : j < 256) : fld (placed off n raw x bs) (8 * j) 8 =
    if j < n ∧ x ≤ off + j ∧ off + j < x + 32 then (bs.getD (off + j - x) 0).toNat else fld raw (8 * j) 8 :=
  placed_steps raw x bs hj 32

/-- What a load holds of the copies: the bytes of the sectors listed that are there. -/
def copies (hit : Nat → Option (List Byte)) (off n : Nat) (secs : List Nat) (raw : VReg) : VReg :=
  secs.foldl (fun r x => match hit x with | some bs => placed off n r x bs | none => r) raw

theorem copies_cons (hit : Nat → Option (List Byte)) (off n x : Nat) (secs : List Nat) (raw : VReg) :
    copies hit off n (x :: secs) raw = copies hit off n secs (match hit x with | some bs => placed off n raw x bs | none => raw) := rfl

theorem byte_copies_past {hit : Nat → Option (List Byte)} {off n j : Nat} (secs : List Nat) (raw : VReg) (hj : j < 256) (hjn : n ≤ j) :
    fld (copies hit off n secs raw) (8 * j) 8 = fld raw (8 * j) 8 := by
  induction secs generalizing raw with
  | nil => rfl
  | cons x secs ih =>
    rw [copies_cons, ih]
    split
    · rw [byte_placed _ _ _ hj, if_neg (by omega)]
    · rfl

theorem byte_copies_hit {hit : Nat → Option (List Byte)} {off n j : Nat} {bs : List Byte} {secs : List Nat} (raw : VReg) (hn : n ≤ 256) (hj : j < n)
    (hs : ∀ x ∈ secs, x % 32 = 0) (hh : hit ((off + j) / 32 * 32) = some bs)
    (hr : (off + j) / 32 * 32 ∈ secs ∨ fld raw (8 * j) 8 = (bs.getD ((off + j) % 32) 0).toNat) :
    fld (copies hit off n secs raw) (8 * j) 8 = (bs.getD ((off + j) % 32) 0).toNat := by
  induction secs generalizing raw with
  | nil => exact hr.resolve_left List.not_mem_nil
  | cons x secs ih =>
    have hx : x % 32 = 0 := hs x List.mem_cons_self
    rw [copies_cons]
    refine ih _ (fun y hy => hs y (List.mem_cons_of_mem _ hy)) ?_
    by_cases hxj : x = (off + j) / 32 * 32
    · refine .inr ?_
      subst hxj
      rw [hh]
      dsimp only
      rw [byte_placed _ _ _ (by omega), if_pos ⟨hj, by omega, by omega⟩, show off + j - (off + j) / 32 * 32 = (off + j) % 32 by omega]
    · rcases hr with hr | hr
      · exact .inl ((List.mem_cons.1 hr).resolve_left (Ne.symm hxj))
      · refine .inr ?_
        split
        · rw [byte_placed _ _ _ (by omega), if_neg (by omega)]
          exact hr
        · exact hr

theorem mem_sectorsOf {off n j : Nat} (h : j < n) : (off + j) / 32 * 32 ∈ sectorsOf off n := by
  unfold sectorsOf
  rw [if_neg (by omega)]
  exact List.mem_map.2 ⟨(off + j) / 32 - off / 32, List.mem_range.2 (by omega), by omega⟩

theorem sectorsOf_mod {off n x : Nat} (h : x ∈ sectorsOf off n) : x % 32 = 0 := by
  unfold sectorsOf at h
  split at h
  · cases h
  · obtain ⟨k, -, rfl⟩ := List.mem_map.1 h
    omega

/-- Every sector of an access is a granule of its lines. -/
theorem granule_of_sector {off n j : Nat} (h : j < n) : ∃ g ∈ granulesOf off n, off / 64 * 64 + 32 * g = (off + j) / 32 * 32 := by
  refine ⟨(off + j) / 32 - 2 * (off / 64), List.mem_range.2 ?_, ?_⟩ <;> omega

/-! ## What operands change -/

/-- Only the threads and the shared queues differ. -/
def RegsOnly (s t : State) : Prop := t = { s with cores := { s.cores with threads := t.cores.threads, shq := t.cores.shq } }

theorem RegsOnly.rfl {s : State} : RegsOnly s s := Eq.refl s

theorem RegsOnly.trans {s t u : State} (h : RegsOnly s t) (k : RegsOnly t u) : RegsOnly s u := by
  unfold RegsOnly at *
  rw [k, h]

theorem regsOnly_setThread (s : State) (t : Tid) (x : Thread) : RegsOnly s (setThread s t x) := Eq.refl _

theorem regsOnly_setQ (s : State) (j : Job) (t : Tid) (q : Nat) (xs : List QEntry) : RegsOnly s (setQ s j t q xs) := by
  unfold setQ
  split <;> exact Eq.refl _

theorem RegsOnly.mem {s t : State} (h : RegsOnly s t) : t.mem = s.mem := by rw [h]
theorem RegsOnly.host {s t : State} (h : RegsOnly s t) : t.host = s.host := by rw [h]
theorem RegsOnly.ops {s t : State} (h : RegsOnly s t) : t.cores.ops = s.cores.ops := by rw [h]
theorem RegsOnly.nextId {s t : State} (h : RegsOnly s t) : t.cores.nextId = s.cores.nextId := by rw [h]
theorem RegsOnly.scratch {s t : State} (h : RegsOnly s t) : t.cores.scratch = s.cores.scratch := by rw [h]
theorem RegsOnly.sems {s t : State} (h : RegsOnly s t) : t.sems = s.sems := by rw [h]

theorem readQ_regsOnly (e : Ev) (c : Nat) : (readQ e c).Holds fun x => RegsOnly e.s x.2.s := by
  unfold readQ
  dsimp only
  split
  · exact .wait
  · exact .ite .wait (.ite (.ok .rfl) (.ok (regsOnly_setQ _ _ _ _ _)))

theorem readS_regsOnly (e : Ev) (c : Nat) : (readS e c).Holds fun x => RegsOnly e.s x.2.s := by
  unfold readS
  exact .ite (.ite (.ok .rfl) (.ite .wait (.ok .rfl))) (.bind (readQ_regsOnly e c) fun ⟨v, e⟩ h => .ok h)

theorem readV_regsOnly (e : Ev) (c : Nat) : (readV e c).Holds fun x => RegsOnly e.s x.2.s := by
  unfold readV
  exact .ite (.ite .wait (.ok .rfl)) (readQ_regsOnly e c)

theorem pushQ_regsOnly (e : Ev) (c : Nat) (x : QEntry) : (pushQ e c x).Holds fun f => RegsOnly e.s f.s := by
  unfold pushQ
  exact .ite .wait (.ok (regsOnly_setQ _ _ _ _ _))

theorem adrAddress_regsOnly (e : Ev) (w : W64) : (adrAddress e w).Holds fun x => RegsOnly e.s x.2.s := by
  unfold adrAddress
  refine .ite (.check fun l => .ok ?_) (.bind (readS_regsOnly e _) fun ⟨v, e⟩ h => .ok h)
  dsimp only
  split
  · exact regsOnly_setThread _ _ _
  · exact .rfl

theorem reserveDest_regsOnly (e : Ev) (wide : Bool) (c : Nat) : (reserveDest e wide c).Holds fun x => RegsOnly e.s x.1.s := by
  unfold reserveDest
  exact .ite (.ite .wait (.ok .rfl)) (.bind (pushQ_regsOnly e c _) fun e h => .ok h)

theorem regsOnly_deliver (s : State) (j : Job) (t : Tid) (d : Dest) (id : Nat) (v : VReg) : RegsOnly s (deliver s j t d id v) := by
  unfold deliver
  split
  · exact .rfl
  · unfold putS
    split
    · exact .rfl
    · exact regsOnly_setThread _ _ _
  · exact regsOnly_setThread _ _ _
  · exact regsOnly_setQ _ _ _ _ _

theorem regsOnly_memErr (s : State) (t : Tid) (st : W16) : RegsOnly s (memErr s t st) := by
  unfold memErr
  dsimp only
  split
  · exact regsOnly_setThread _ _ _
  · exact .rfl

/-! ## The address slot alone -/

section
variable {s : State} {t : Tid} {b : Bundle} {j : Job} {th : Thread} {op : Nat} {e : Ev}

/-- What holds the address slot back does not (R84, R89, R136, R146). -/
structure AdrFree (e : Ev) (w : W64) (op : Nat) : Prop where
  opcode : fld w 0 8 = op
  zero : fieldCheck w (adrZero w op) [] = .ok ()
  fence : (e.th0.fence.isSome || (opsOf e.s e.t).any (fun o => decide (o.kind = .semTry))) = false
  room : ¬(64 ≤ ((opsOf e.s e.t).filter Machine.counted).length ∧ op ∉ [0x11, 0x18, 0x19, 0x20, 0x28, 0x29])

theorem AdrIssues.free (h : AdrIssues s t b j th op) : AdrFree (atIssue s t b j th) b.adr op := by
  obtain ⟨-, -, hop, hz, hf, hs, hr⟩ := h
  refine ⟨hop, hz, ?_, fun hc => ?_⟩
  · have h1 : (atIssue s t b j th).th0.fence = none := hf
    rw [h1, Bool.or_eq_false_iff]
    refine ⟨Eq.refl _, List.any_eq_false.2 fun o ho => ?_⟩
    rw [decide_eq_true_eq]
    exact hs o ho
  · exact absurd hc.1 (Nat.not_le.2 (hr hc.2))

/-- The command of an address-slot opcode runs its slot. -/
theorem AdrIssues.exec {c : Tid → Bundle → Instr} (hc : ∀ t b s, Machine.exec (c t b) s = .next (issueRow s t b 1 op op)) (h : AdrIssues s t b j th op)
    (hs : adrSlot (atIssue s t b j th) b.adr = .ok e) : Machine.exec (c t b) s = .next (finishIssue e) := by
  obtain ⟨hi, ha, hop, -⟩ := h
  rw [hc, issueRow_alone hi ha (by decide) hop hs]

end

/-! ## Loads -/

theorem adrSlot_lds {e : Ev} {w : W64} (h : AdrFree e w 0x01) : adrSlot e w =
    (dstCheck e false (adrData w)).bind fun _ => (adrBaseCheck e w).bind fun _ => (adrAddress e w).bind fun (a, e) =>
    (adrCheck e w .loadStore a (2 ^ (adrA w % 4)) (2 ^ (adrA w % 4))).bind fun _ =>
    doLoad e w a (2 ^ (adrA w % 4)) (nbit (adrA w) 2) false (nbit (adrA w) 3) (adrData w) := by
  obtain ⟨hop, hz, hf, hr⟩ := h
  unfold adrSlot
  rw [hop]
  dsimp only
  rw [if_neg (by decide), hf, if_neg Bool.false_ne_true, if_neg hr, if_neg (by omega), hz]
  rfl

theorem adrSlot_ldv {e : Ev} {w : W64} (h : AdrFree e w 0x03) : adrSlot e w =
    (dstCheck e true (adrData w)).bind fun _ => (adrBaseCheck e w).bind fun _ => (adrAddress e w).bind fun (a, e) =>
    (adrCheck e w .loadStore a 256 32).bind fun _ => doLoad e w a 256 false true (nbit (adrA w) 3) (adrData w) := by
  obtain ⟨hop, hz, hf, hr⟩ := h
  unfold adrSlot
  rw [hop]
  dsimp only
  rw [if_neg (by decide), hf, if_neg Bool.false_ne_true, if_neg hr, if_neg (by omega), hz]
  rfl

/-- A load's sign extension: LDS's bit. -/
def loadSigned (w : W64) (wide : Bool) : Bool := if wide then false else nbit (adrA w) 2

/-- A load row: its slot comes to the load. -/
def LoadRow (r : Nat × Bool × (W64 → Nat) × (Tid → Bundle → Instr)) : Prop :=
  (∀ t b s, Machine.exec (r.2.2.2 t b) s = .next (issueRow s t b 1 r.1 r.1)) ∧
  (∀ w, 0 < r.2.2.1 w ∧ r.2.2.1 w ≤ 256) ∧
  ∀ (e e1 : Ev) (w a : W64), AdrFree e w r.1 → dstCheck e r.2.1 (adrData w) = .ok () → Forms e w a e1 →
    adrCheck e1 w .loadStore a (r.2.2.1 w) (loadAlign (r.2.2.1 w)) = .ok () →
    adrSlot e w = doLoad e1 w a (r.2.2.1 w) (loadSigned w r.2.1) r.2.1 (nbit (adrA w) 3) (adrData w)

theorem pow_aux_lt (w : W64) : 0 < 2 ^ (adrA w % 4) ∧ 2 ^ (adrA w % 4) ≤ 8 := by
  have h : adrA w % 4 < 4 := Nat.mod_lt _ (by decide)
  exact ⟨by positivity, (Nat.pow_le_pow_right (by decide) (show adrA w % 4 ≤ 3 by omega)).trans (by decide)⟩

theorem loadRows_rows : ∀ r ∈ loadRows, LoadRow r := by
  unfold loadRows
  simp only [List.forall_mem_cons, List.not_mem_nil, false_imp_iff, implies_true, and_true]
  refine ⟨⟨fun _ _ _ => rfl, fun w => ?_, ?_⟩, ⟨fun _ _ _ => rfl, fun _ => ⟨show 0 < 256 by decide, show 256 ≤ 256 by decide⟩, ?_⟩⟩
  · obtain ⟨h1, h2⟩ := pow_aux_lt w
    exact ⟨h1, h2.trans (by decide)⟩
  · intro e e1 w a hf hd hform hc
    obtain ⟨hb, ha⟩ := hform
    have hal : loadAlign (2 ^ (adrA w % 4)) = 2 ^ (adrA w % 4) := if_neg (by have := (pow_aux_lt w).2; omega)
    dsimp only at hc hd
    rw [hal] at hc
    rw [adrSlot_lds hf, hd, SlotRes.bind_ok, hb, SlotRes.bind_ok, ha, SlotRes.bind_ok]
    dsimp only
    rw [hc]
    rfl
  · intro e e1 w a hf hd hform hc
    obtain ⟨hb, ha⟩ := hform
    dsimp only at hc hd
    rw [adrSlot_ldv hf, hd, SlotRes.bind_ok, hb, SlotRes.bind_ok, ha, SlotRes.bind_ok]
    dsimp only
    rw [show (32 : Nat) = loadAlign 256 from rfl, hc]
    rfl

section
variable {e e2 : Ev} {w a : W64} {n code : Nat} {signed wide nc : Bool} {d : Dest}

/-- The copies a load may take: none with NC. -/
def hitOf (s : State) (v : Nat) (nc : Bool) (x : Nat) : Option (List Byte) := if nc then none else l1Sector s v x

/-- The granules a load fetches are those the L1 lacks. -/
theorem todo_eq_lacks (s : State) (v off n : Nat) (nc : Bool) :
    ((granulesOf off n).filter fun g => (hitOf s v nc (off / 64 * 64 + 32 * g)).isNone &&
      (if nc then decide (off / 64 * 64 + 32 * g ∈ (sectorsOf off n).filter (fun x => (hitOf s v nc x).isNone))
        else ((sectorsOf off n).filter (fun x => (hitOf s v nc x).isNone)).any (fun x => x / 64 == (off / 64 * 64 + 32 * g) / 64))) =
      lacks s v off n nc := by
  unfold lacks hitOf
  refine List.filter_congr fun g _ => ?_
  cases nc with
  | true => simp
  | false => simp [List.any_filter]

/-- A load that lacks nothing finds every sector it asks for, and is not NC. -/
theorem hit_of_lacks_nil {s : State} {v off n j : Nat} {nc : Bool} (h : lacks s v off n nc = []) (hj : j < n) :
    ∃ bs, hitOf s v nc ((off + j) / 32 * 32) = some bs ∧ l1Sector s v ((off + j) / 32 * 32) = some bs := by
  obtain ⟨g, hg, hx⟩ := granule_of_sector (off := off) hj
  have hn := List.filter_eq_nil_iff.1 h g hg
  dsimp only at hn
  rw [hx] at hn
  have hm := mem_sectorsOf (off := off) hj
  cases nc with
  | true => exact absurd (decide_eq_true hm) hn
  | false =>
    cases hs : l1Sector s v ((off + j) / 32 * 32) with
    | some bs => exact ⟨bs, hs, Eq.refl _⟩
    | none =>
      refine absurd ?_ hn
      simp only [hs, Option.isNone_none, Bool.true_and, Bool.false_eq_true, if_false, List.any_eq_true]
      exact ⟨_, hm, by simp [hs]⟩

theorem l1Byte_of_sector {s : State} {v x : Nat} {bs : List Byte} (h : l1Sector s v (x / 32 * 32) = some bs) : l1Byte s v x = bs.getD (x % 32) 0 := by
  unfold l1Byte
  rw [h]
  rfl

/-- What the copies give a load that lacks nothing. -/
theorem copies_eq_of_lacks_nil {s : State} {v off n : Nat} {nc : Bool} (h : lacks s v off n nc = []) (hn : n ≤ 256) :
    copies (hitOf s v nc) off n (sectorsOf off n) 0 = BitVec.ofNat 2048 (leNat ((List.range n).map fun i => l1Byte s v (off + i))) := by
  refine eq_of_bytes (n := 256) fun j hj => ?_
  rw [fld_ofNat_leNat _ (by omega)]
  by_cases hjn : j < n
  · obtain ⟨bs, h1, h2⟩ := hit_of_lacks_nil h hjn
    rw [byte_copies_hit 0 hn hjn (fun x hx => sectorsOf_mod hx) h1 (.inl (mem_sectorsOf hjn)), ← l1Byte_of_sector h2]
    simp [hjn]
  · rw [byte_copies_past _ _ hj (by omega)]
    simp [hjn, fld]

/-- How a load goes on once its destination is reserved. -/
theorem doLoad_reserved (hd : reserveDest e wide code = .ok (e2, d)) : doLoad e w a n signed wide nc code =
    if adrScratch w then .ok (delivered e2 d (if wide then BitVec.ofNat 2048 (leNat (scratchRead e2.s e2.t.vcore a.toNat n)) else
      (loadValue n signed (BitVec.ofNat 2048 (leNat (scratchRead e2.s e2.t.vcore a.toNat n)))).setWidth 2048))
    else if !isLocalNode e2.s (nodeOf a) then .ok (sent (added e2 (.load n signed wide nc) a 0 0 0 d [0] 0) e2.s.cores.nextId)
    else if lacks e2.s e2.t.vcore (offOf a) n nc = [] then
      .ok (delivered e2 d (if wide then copies (hitOf e2.s e2.t.vcore nc) (offOf a) n (sectorsOf (offOf a) n) 0 else
        (loadValue n signed (copies (hitOf e2.s e2.t.vcore nc) (offOf a) n (sectorsOf (offOf a) n) 0)).setWidth 2048))
    else if localRange e2.s (offOf a) n = .window then
      let x := hostRead e2.s (offOf a / 64 * 64 - 0x80000000000) (32 * (granulesOf (offOf a) n).length)
      let raw := (lacks e2.s e2.t.vcore (offOf a) n nc).foldl (fun r g => placed (offOf a) n r (offOf a / 64 * 64 + 32 * g) ((x.2.drop (32 * g)).take 32))
        (copies (hitOf e2.s e2.t.vcore nc) (offOf a) n (sectorsOf (offOf a) n) 0)
      let s := if nc ∨ x.1 ≠ 0 then e2.s else (lacks e2.s e2.t.vcore (offOf a) n nc).foldl
        (fun s g => fillL1 s e2.t.vcore (offOf a / 64 * 64 + 32 * g) ((x.2.drop (32 * g)).take 32)) e2.s
      let v : VReg := if wide then (if x.1 = 0 then raw else 0) else (loadValue n signed (if x.1 = 0 then raw else 0)).setWidth 2048
      let s := memErr s e2.t x.1
      .ok { e2 with s := deliver { s with cores := { s.cores with nextId := e2.s.cores.nextId + 1 } } e2.job e2.t d e2.s.cores.nextId v }
    else .ok (added e2 (.load n signed wide nc) a 0 0 0 d (lacks e2.s e2.t.vcore (offOf a) n nc)
      (copies (hitOf e2.s e2.t.vcore nc) (offOf a) n (sectorsOf (offOf a) n) 0)) := by
  unfold doLoad
  rw [hd, SlotRes.bind_ok]
  simp only [← todo_eq_lacks]
  rfl

end

/-- The operations in flight, device memory and host memory, which a load answered at once leaves. -/
def inFlight (s : State) : List MemOp × Mem × HostPort := (s.cores.ops, s.mem, s.host)

theorem RegsOnly.inFlight {s t : State} (h : RegsOnly s t) : inFlight t = inFlight s := by
  unfold Claims.inFlight
  rw [h.ops, h.mem, h.host]

theorem inFlight_setL1 (s : State) (v ln : Nat) (x : L1Line) : inFlight (setL1 s v ln x) = inFlight s := rfl

theorem inFlight_fillL1 (s : State) (v off : Nat) (bs : List Byte) : inFlight (fillL1 s v off bs) = inFlight s := by
  unfold fillL1
  dsimp only
  rw [inFlight_setL1]
  split
  · rw [inFlight_setL1]
    rfl
  · rfl

theorem inFlight_finishIssue (e : Ev) : inFlight (finishIssue e) = inFlight e.s := by
  unfold inFlight
  rw [finishIssue_ops, finishIssue_mem, finishIssue_host]

theorem inFlight_delivered (e : Ev) (d : Dest) (v : VReg) : inFlight (delivered e d v).s = inFlight e.s :=
  (regsOnly_deliver _ _ _ _ _ _).inFlight

section
variable {s : State} {t : Tid} {b : Bundle} {j : Job} {th : Thread} {a : W64} {e1 e2 : Ev} {d : Dest} {wide : Bool} {code : Nat}

/-- What stands once a slot has formed its address and reserved its destination. -/
theorem reserved_from (hf : Forms (atIssue s t b j th) b.adr a e1) (hd : reserveDest e1 wide code = .ok (e2, d)) :
    e2.From (atIssue s t b j th) ∧ RegsOnly s e2.s := by
  obtain ⟨-, ha⟩ := hf
  have h1 : e1.From (atIssue s t b j th) := adrAddress_from .rfl _ ha
  exact ⟨reserveDest_from h1 _ hd, (adrAddress_regsOnly _ _ _ ha).trans (reserveDest_regsOnly _ _ _ _ hd)⟩

end

theorem reserveDest_sreg {e : Ev} {n : Nat} (h0 : 0 < n) (h : n < 32) (hp : pendingDest e (.sreg n) = false) :
    reserveDest e false n = .ok ({ e with wrote := n :: e.wrote }, .sreg n) := by
  unfold reserveDest
  simp [h, hp, show n ≠ 0 by omega, kS]

theorem pendingDest_none (e : Ev) : pendingDest e .none = false := by simp [pendingDest]

theorem reserveDest_zero (e : Ev) : reserveDest e false 0 = .ok ({ e with wrote := 0 :: e.wrote }, .none) := by
  unfold reserveDest
  simp [pendingDest_none, kS]

theorem reserveDest_vreg {e : Ev} {n : Nat} (h : n < 32) (hp : pendingDest e (.vreg n) = false) :
    reserveDest e true n = .ok ({ e with wrote := (32 + n) :: e.wrote }, .vreg n) := by
  unfold reserveDest
  simp [h, hp, kV]

/-- Settles O16. -/
theorem loadsIssue : Obligations.LoadsIssue := by
  unfold Obligations.LoadsIssue
  refine ⟨?_, fun e n h0 h hp => reserveDest_sreg h0 h hp, reserveDest_zero, fun e n h hp => reserveDest_vreg h hp, ?_, ?_,
    fun s j t id q v => getQ_deliver_queue s j t q id v⟩
  · intro r hr s t b j th a e1 e2 d hi hdst hform hchk hres
    obtain ⟨hc, hn, hslot⟩ := loadRows_rows r hr
    obtain ⟨hn0, hn256⟩ := hn b.adr
    obtain ⟨hfrom, hregs⟩ := reserved_from hform hres
    have ht : e2.t = t := hfrom.t
    have run {f : Ev} (hf : doLoad e1 b.adr a (r.2.2.1 b.adr) (loadSigned b.adr r.2.1) r.2.1 (nbit (adrA b.adr) 3) (adrData b.adr) = .ok f) :
        exec (r.2.2.2 t b) s = .next (finishIssue f) := hi.exec hc ((hslot _ _ _ _ hi.free hdst hform hchk).trans hf)
    have hval (raw : VReg) : (if r.2.1 then raw else (loadValue (r.2.2.1 b.adr) (loadSigned b.adr r.2.1) raw).setWidth 2048) =
        loaded b.adr r.2.1 (r.2.2.1 b.adr) raw := by
      unfold loaded loadSigned
      cases r.2.1 <;> rfl
    have hload := doLoad_reserved (a := a) (w := b.adr) (n := r.2.2.1 b.adr) (signed := loadSigned b.adr r.2.1) (nc := nbit (adrA b.adr) 3) hres
    rw [ht] at hload
    refine ⟨fun hs => run ?_, fun hl hno => run ?_, fun hl hdev hsome =>
      ⟨copies (hitOf e2.s t.vcore (nbit (adrA b.adr) 3)) (offOf a) (r.2.2.1 b.adr) (sectorsOf (offOf a) (r.2.2.1 b.adr)) 0, run ?_, ?_⟩, fun hl hwin => ?_, fun hs hl => run ?_⟩
    · rw [hload, if_pos hs, hval]
    · obtain ⟨hs, hown⟩ := hl
      rw [hload, if_neg (by simp [hs]), if_neg (by simp [hown]), if_pos hno, hval, copies_eq_of_lacks_nil hno hn256]
    · obtain ⟨hs, hown⟩ := hl
      rw [hload, if_neg (by simp [hs]), if_neg (by simp [hown]), if_neg hsome, if_neg (by rw [hdev]; decide)]
      rfl
    · intro i hilt hnc hhit
      obtain ⟨bs, hbs⟩ := Option.ne_none_iff_exists'.1 hhit
      rw [byte_copies_hit (bs := bs) 0 hn256 hilt (fun x hx => sectorsOf_mod hx) (by rw [hnc]; exact hbs) (.inl (mem_sectorsOf hilt)),
        l1Byte_of_sector hbs]
    · obtain ⟨hs, hown⟩ := hl
      have done {f : Ev} (hf : doLoad e1 b.adr a (r.2.2.1 b.adr) (loadSigned b.adr r.2.1) r.2.1 (nbit (adrA b.adr) 3) (adrData b.adr) = .ok f)
          (hk : inFlight f.s = inFlight e2.s) : Gives (r.2.2.2 t b) s fun u => u.cores.ops = s.cores.ops ∧ u.mem.dram = s.mem.dram ∧ u.host.mem = s.host.mem := by
        refine gives_next (run hf) ?_
        have h := (inFlight_finishIssue f).trans (hk.trans hregs.inFlight)
        exact ⟨congrArg Prod.fst h, congrArg (fun x => x.2.1.dram) h, congrArg (fun x => x.2.2.mem) h⟩
      rw [if_neg (by simp [hs]), if_neg (by simp [hown])] at hload
      by_cases hno : lacks e2.s t.vcore (offOf a) (r.2.2.1 b.adr) (nbit (adrA b.adr) 3) = []
      · rw [if_pos hno] at hload
        exact done hload (inFlight_delivered _ _ _)
      · rw [if_neg hno, if_pos hwin] at hload
        refine done hload ((regsOnly_deliver _ _ _ _ _ _).inFlight.trans ((regsOnly_memErr _ _ _).inFlight.trans ?_))
        split
        · rfl
        · exact foldl_keeps inFlight _ (fun s g => inFlight_fillL1 _ _ _ _) _ _
    · rw [hload, if_neg (by simp [hs]), if_pos (by simp [hl])]
      rfl
  · intro e wide code h1 h2 hroom
    obtain ⟨e', hp, hq⟩ := pushQ_room { data := 0, pending := some e.s.cores.nextId } hroom
    refine ⟨e', ?_, hq⟩
    rw [reserveDest_queue e wide h1, hp]
    rfl
  · intro s j t id n v h0
    exact ⟨sReg_putS_same s t _ h0, rfl⟩

/-! ## Stores -/

theorem adrSlot_sts {e : Ev} {w : W64} (h : AdrFree e w 0x02) : adrSlot e w =
    (srcCheck e false (adrData w)).bind fun _ => (adrBaseCheck e w).bind fun _ => (readS e (adrData w)).bind fun (x, e) =>
    (adrAddress e w).bind fun (a, e) => (adrCheck e w .loadStore a (2 ^ (adrA w % 4)) (2 ^ (adrA w % 4))).bind fun _ =>
    doStore e w a (2 ^ (adrA w % 4)) (x.setWidth 2048) (BitVec.allOnes 256) := by
  obtain ⟨hop, hz, hf, hr⟩ := h
  unfold adrSlot
  rw [hop]
  dsimp only
  rw [if_neg (by decide), hf, if_neg Bool.false_ne_true, if_neg hr, if_neg (by omega), hz]
  rfl

theorem adrSlot_stv {e : Ev} {w : W64} (h : AdrFree e w 0x04) : adrSlot e w =
    (srcCheck e true (adrData w)).bind fun _ => (adrBaseCheck e w).bind fun _ => (readV e (adrData w)).bind fun (x, e) =>
    (adrAddress e w).bind fun (a, e) => (adrCheck e w .loadStore a 256 32).bind fun _ =>
    doStore e w a 256 x (if nbit (adrA w) 4 then (tget e.th0.m (adrA w % 8) 0).setWidth 256 else BitVec.allOnes 256) := by
  obtain ⟨hop, hz, hf, hr⟩ := h
  unfold adrSlot
  rw [hop]
  dsimp only
  rw [if_neg (by decide), hf, if_neg Bool.false_ne_true, if_neg hr, if_neg (by omega), hz]
  rfl

theorem getD_leBytes {n i : Nat} (v : Nat) (h : i < n) : (leBytes n v).getD i 0 = BitVec.ofNat 8 (v / 256 ^ i) := by
  unfold leBytes
  simp [h]

/-- A byte of what a store of `n` bytes writes. -/
theorem storeByte {w n i : Nat} (x : BitVec w) (h : i < n) : (leBytes n (fld x 0 (8 * n))).getD i 0 = BitVec.ofNat 8 (x.toNat / 256 ^ i) := by
  rw [getD_leBytes _ h, fld_eq, pow_zero, Nat.div_one]
  refine BitVec.eq_of_toNat_eq ?_
  have hp : 2 ^ (8 * n) = 256 ^ i * 256 ^ (n - i) := by
    rw [← pow_add, show (256 : Nat) = 2 ^ 8 from rfl, ← pow_mul]
    congr 1
    omega
  have hd : 256 ∣ 256 ^ (n - i) := dvd_pow_self _ (by omega)
  rw [BitVec.toNat_ofNat, BitVec.toNat_ofNat, hp, Nat.mod_mul_right_div_self]
  exact Nat.mod_mod_of_dvd _ hd

theorem storeBytes_scalar {n : Nat} (x : W64) : leBytes n (fld (x.setWidth 2048) 0 (8 * n)) = leBytes n x.toNat := by
  have hx : (x.setWidth 2048).toNat = x.toNat := BitVec.toNat_setWidth_of_le (by decide)
  refine List.map_congr_left fun i hi => ?_
  have hi := List.mem_range.1 hi
  have h := storeByte (x.setWidth 2048) hi
  rwa [getD_leBytes _ hi, hx] at h

/-- A masked store of the scratchpad's bytes. -/
def scratchStore (s : State) (v b n : Nat) (bs : List Byte) (mask : BitVec 256) : State :=
  iterate n (fun i s => if bit mask i then setScratchByte s v (b + i) (bs.getD i 0) else s) s

theorem scratchStore_succ (s : State) (v b n : Nat) (bs : List Byte) (mask : BitVec 256) : scratchStore s v b (n + 1) bs mask =
    if bit mask n then setScratchByte (scratchStore s v b n bs mask) v (b + n) (bs.getD n 0) else scratchStore s v b n bs mask := by
  unfold scratchStore
  rw [iterate_eq, iterate_eq, List.range_succ, List.foldl_append]
  rfl

theorem scratchStore_byte (s : State) (v b n : Nat) (bs : List Byte) (mask : BitVec 256) (k : Nat) :
    tget (scratchStore s v b n bs mask).cores.scratch k 0 =
      if 131072 * v + b ≤ k ∧ k < 131072 * v + b + n ∧ bit mask (k - (131072 * v + b)) = true then bs.getD (k - (131072 * v + b)) 0
      else tget s.cores.scratch k 0 := by
  induction n with
  | zero => rw [if_neg (by omega)]; rfl
  | succ n ih =>
    rw [scratchStore_succ]
    by_cases hk : k = 131072 * v + b + n
    · have hn : k - (131072 * v + b) = n := by omega
      rw [hn] at ih ⊢
      by_cases hm : bit mask n = true
      · rw [if_pos hm, if_pos ⟨by omega, by omega, hm⟩]
        unfold setScratchByte
        dsimp only
        rw [show 131072 * v + (b + n) = k by omega]
        exact tget_tset_same _ _ _ _
      · rw [if_neg hm, ih, if_neg (by omega), if_neg (fun h => hm h.2.2)]
    · have hset : tget (if bit mask n then setScratchByte (scratchStore s v b n bs mask) v (b + n) (bs.getD n 0) else scratchStore s v b n bs mask).cores.scratch k 0 =
          tget (scratchStore s v b n bs mask).cores.scratch k 0 := by
        split
        · unfold setScratchByte
          dsimp only
          exact tget_tset_ne _ _ _ _ (by omega)
        · rfl
      rw [hset, ih]
      by_cases hc : 131072 * v + b ≤ k ∧ k < 131072 * v + b + n ∧ bit mask (k - (131072 * v + b)) = true
      · rw [if_pos hc, if_pos ⟨hc.1, by omega, hc.2.2⟩]
      · rw [if_neg hc, if_neg (fun h => hc ⟨h.1, by omega, h.2.2⟩)]

theorem inFlight_scratchStore (s : State) (v b n : Nat) (bs : List Byte) (mask : BitVec 256) : inFlight (scratchStore s v b n bs mask) = inFlight s := by
  unfold scratchStore
  rw [iterate_eq]
  refine foldl_keeps inFlight _ (fun s i => ?_) _ _
  split <;> rfl

/-- The operations and the next number, which updates of the L1's copies leave. -/
def numbered (s : State) : (List MemOp × Mem × HostPort) × Nat := (inFlight s, s.cores.nextId)

theorem numbered_l1Store (s : State) (v off : Nat) (bs : List Byte) (mask : BitVec 256) : numbered (l1Store s v off bs mask) = numbered s := by
  unfold l1Store
  rw [iterate_eq]
  refine foldl_keeps numbered _ (fun s i => ?_) _ _
  dsimp only
  split
  · split <;> rfl
  · rfl

/-- The granules a store has bytes for. -/
def storeTodo (off n : Nat) (mask : BitVec 256) : List Nat :=
  (granulesOf off n).filter fun g => (List.range n).any fun k => bit mask k && decide ((off + k) / 32 * 32 = off / 64 * 64 + 32 * g)

theorem storeTodo_ne_nil {off n k : Nat} {mask : BitVec 256} (hk : k < n) (hb : bit mask k = true) : storeTodo off n mask ≠ [] := by
  obtain ⟨g, hg, hx⟩ := granule_of_sector (off := off) hk
  refine List.ne_nil_of_mem (a := g) (List.mem_filter.2 ⟨hg, List.any_eq_true.2 ⟨k, List.mem_range.2 hk, ?_⟩⟩)
  simp [hb, hx]

theorem storeTodo_zero (off n : Nat) : storeTodo off n 0 = [] := by
  unfold storeTodo
  rw [List.filter_eq_nil_iff]
  intro g _
  simp [bit]

section
variable {e : Ev} {w a : W64} {n : Nat} {data : VReg} {mask : BitVec 256}

theorem doStore_scratch (h : adrScratch w = true) : doStore e w a n data mask =
    .ok { e with s := scratchStore e.s e.t.vcore a.toNat n (leBytes n (fld data 0 (8 * n))) mask } := by
  unfold doStore
  dsimp only
  rw [if_pos h]
  rfl

theorem doStore_remote (h : adrScratch w = false) (hl : isLocalNode e.s (nodeOf a) = false) : doStore e w a n data mask =
    .ok (sent (added e (.store n) a data 0 mask .none [0] 0) e.s.cores.nextId) := by
  unfold doStore
  dsimp only
  rw [if_neg (by simp [h]), if_pos (by simp [hl])]
  rfl

/-- The bundle once the store has updated its own L1's copies. -/
def copied (e : Ev) (a : W64) (n : Nat) (data : VReg) (mask : BitVec 256) : Ev :=
  { e with s := l1Store e.s e.t.vcore (offOf a) (leBytes n (fld data 0 (8 * n))) mask }

theorem inFlight_copied (e : Ev) (a : W64) (n : Nat) (data : VReg) (mask : BitVec 256) : inFlight (copied e a n data mask).s = inFlight e.s :=
  congrArg Prod.fst (numbered_l1Store e.s e.t.vcore (offOf a) (leBytes n (fld data 0 (8 * n))) mask)

theorem doStore_device (h : Local e w a) (hd : localRange (copied e a n data mask).s (offOf a) n = .device) : doStore e w a n data mask =
    .ok (if storeTodo (offOf a) n mask = [] then copied e a n data mask
      else added (copied e a n data mask) (.store n) a data 0 mask .none (storeTodo (offOf a) n mask) 0) := by
  obtain ⟨hs, hl⟩ := h
  have hw : ¬ localRange (copied e a n data mask).s (offOf a) n = .window := by rw [hd]; decide
  unfold doStore
  dsimp only
  rw [if_neg (by simp [hs]), if_neg (by simp [hl])]
  refine (if_neg hw).trans ?_
  rw [← apply_ite SlotRes.ok]
  rfl

end

section
variable {s : State} {t : Tid} {b : Bundle} {j : Job} {th : Thread} {a : W64} {e0 e1 : Ev}

theorem sts_slot {x : W64} (h : AdrFree (atIssue s t b j th) b.adr 0x02) (h1 : srcCheck (atIssue s t b j th) false (adrData b.adr) = .ok ())
    (h2 : adrBaseCheck (atIssue s t b j th) b.adr = .ok ()) (h3 : readS (atIssue s t b j th) (adrData b.adr) = .ok (x, e0))
    (h4 : adrAddress e0 b.adr = .ok (a, e1)) (h5 : adrCheck e1 b.adr .loadStore a (2 ^ (adrA b.adr % 4)) (2 ^ (adrA b.adr % 4)) = .ok ()) :
    adrSlot (atIssue s t b j th) b.adr = doStore e1 b.adr a (2 ^ (adrA b.adr % 4)) (x.setWidth 2048) (BitVec.allOnes 256) := by
  rw [adrSlot_sts h, h1, SlotRes.bind_ok, h2, SlotRes.bind_ok, h3, SlotRes.bind_ok]
  dsimp only
  rw [h4, SlotRes.bind_ok]
  dsimp only
  rw [h5, SlotRes.bind_ok]

theorem stv_slot {x : VReg} (h : AdrFree (atIssue s t b j th) b.adr 0x04) (h1 : srcCheck (atIssue s t b j th) true (adrData b.adr) = .ok ())
    (h2 : adrBaseCheck (atIssue s t b j th) b.adr = .ok ()) (h3 : readV (atIssue s t b j th) (adrData b.adr) = .ok (x, e0))
    (h4 : adrAddress e0 b.adr = .ok (a, e1)) (hth : e1.th0 = th) (h5 : adrCheck e1 b.adr .loadStore a 256 32 = .ok ()) :
    adrSlot (atIssue s t b j th) b.adr =
      doStore e1 b.adr a 256 x (if nbit (adrA b.adr) 4 then (tget th.m (adrA b.adr % 8) 0).setWidth 256 else BitVec.allOnes 256) := by
  rw [adrSlot_stv h, h1, SlotRes.bind_ok, h2, SlotRes.bind_ok, h3, SlotRes.bind_ok]
  dsimp only
  rw [h4, SlotRes.bind_ok]
  dsimp only
  rw [h5, SlotRes.bind_ok, hth]

theorem sts_from {x : W64} (h3 : readS (atIssue s t b j th) (adrData b.adr) = .ok (x, e0)) (h4 : adrAddress e0 b.adr = .ok (a, e1)) :
    e1.From (atIssue s t b j th) ∧ RegsOnly s e1.s := by
  have h0 : e0.From (atIssue s t b j th) := readS_from .rfl _ h3
  exact ⟨adrAddress_from h0 _ h4, (readS_regsOnly _ _ _ h3).trans (adrAddress_regsOnly _ _ _ h4)⟩

theorem stv_from {x : VReg} (h3 : readV (atIssue s t b j th) (adrData b.adr) = .ok (x, e0)) (h4 : adrAddress e0 b.adr = .ok (a, e1)) :
    e1.From (atIssue s t b j th) ∧ RegsOnly s e1.s := by
  have h0 : e0.From (atIssue s t b j th) := readV_from .rfl _ h3
  exact ⟨adrAddress_from h0 _ h4, (readV_regsOnly _ _ _ h3).trans (adrAddress_regsOnly _ _ _ h4)⟩

/-- A store to the scratchpad, made at once: its bytes, every other byte, and device memory. -/
theorem finish_scratchStore {n : Nat} {data : VReg} {mask : BitVec 256} (hr : RegsOnly s e1.s) (ht : e1.t = t) :
    let u := finishIssue { e1 with s := scratchStore e1.s e1.t.vcore a.toNat n (leBytes n (fld data 0 (8 * n))) mask }
    (∀ i, i < n → scratchByte u t.vcore (a.toNat + i) =
      if bit mask i = true then BitVec.ofNat 8 (data.toNat / 256 ^ i) else scratchByte s t.vcore (a.toNat + i)) ∧
    (∀ v i, 131072 * v + i < 131072 * t.vcore + a.toNat ∨ 131072 * t.vcore + a.toNat + n ≤ 131072 * v + i → scratchByte u v i = scratchByte s v i) ∧
    u.mem = s.mem := by
  intro u
  have hb (v i : Nat) : scratchByte u v i = tget (scratchStore e1.s e1.t.vcore a.toNat n (leBytes n (fld data 0 (8 * n))) mask).cores.scratch (131072 * v + i) 0 :=
    congrArg (fun x => tget x (131072 * v + i) 0) (finishIssue_scratch _)
  refine ⟨fun i hi => ?_, fun v i h => ?_, ?_⟩
  · rw [hb, scratchStore_byte, ht, show 131072 * t.vcore + (a.toNat + i) - (131072 * t.vcore + a.toNat) = i by omega, storeByte _ hi, hr.scratch]
    by_cases hm : bit mask i = true
    · rw [if_pos ⟨by omega, by omega, hm⟩, if_pos hm]
    · rw [if_neg fun h => hm h.2.2, if_neg hm]
      rfl
  · rw [hb, scratchStore_byte, ht, if_neg (by omega), hr.scratch]
    rfl
  · have h := (inFlight_finishIssue { e1 with s := scratchStore e1.s e1.t.vcore a.toNat n (leBytes n (fld data 0 (8 * n))) mask }).trans
      ((inFlight_scratchStore _ _ _ _ _ _).trans hr.inFlight)
    exact congrArg (fun x => x.2.1) h

/-- A store to device memory adds its operation under the next number. -/
theorem finish_deviceStore {n : Nat} {data : VReg} {mask : BitVec 256} {todo : List Nat} (hr : RegsOnly s e1.s) (hf : e1.From (atIssue s t b j th)) :
    let u := finishIssue (added (copied e1 a n data mask) (.store n) a data 0 mask .none todo 0)
    ∃ o ∈ u.cores.ops, o.id = s.cores.nextId ∧ o.t = t ∧ o.kind = .store n ∧ o.addr = a ∧ o.data = data ∧ o.mask = mask ∧ o.part = j.part ∧ o.done = false ∧
      u.mem = s.mem := by
  intro u
  have hnum := numbered_l1Store e1.s e1.t.vcore (offOf a) (leBytes n (fld data 0 (8 * n))) mask
  have hops : u.cores.ops = (copied e1 a n data mask).s.cores.ops ++ [(newOp (copied e1 a n data mask) (.store n) a data 0 mask .none todo 0).2] :=
    finishIssue_ops _
  have hmem : u.mem = (copied e1 a n data mask).s.mem := finishIssue_mem _
  refine ⟨_, by rw [hops]; exact List.mem_append_right _ (List.mem_singleton_self _), ?_, hf.t, rfl, rfl, rfl, rfl, congrArg Job.part hf.job, rfl, ?_⟩
  · exact (congrArg Prod.snd hnum).trans hr.nextId
  · rw [hmem]
    exact (congrArg (fun x => x.1.2.1) hnum).trans hr.mem

theorem bit_allOnes {i : Nat} (h : i < 256) : bit (BitVec.allOnes 256) i = true := by
  unfold bit
  rw [BitVec.getLsbD_allOnes]
  exact decide_eq_true h

/-- Settles O17. -/
theorem storesIssue : Obligations.StoresIssue := by
  unfold Obligations.StoresIssue
  refine ⟨?_, ?_, ?_⟩
  · intro s t b j th x a e0 e1 hi h1 h2 h3 h4 h5
    obtain ⟨hf, hr⟩ := sts_from h3 h4
    have ht : e1.t = t := hf.t
    have hn := pow_aux_lt b.adr
    have run {f : Ev} (hs : doStore e1 b.adr a (2 ^ (adrA b.adr % 4)) (x.setWidth 2048) (BitVec.allOnes 256) = .ok f) :
        exec (.sts t b) s = .next (finishIssue f) := hi.exec (fun _ _ _ => rfl) ((sts_slot hi.free h1 h2 h3 h4 h5).trans hs)
    have hx : (x.setWidth 2048).toNat = x.toNat := BitVec.toNat_setWidth_of_le (by decide)
    refine ⟨fun hs => gives_next (run (doStore_scratch hs)) ?_, fun hl hd => ?_, fun hs hl => run (doStore_remote hs hl)⟩
    · obtain ⟨g1, g2, g3⟩ := finish_scratchStore (a := a) (n := 2 ^ (adrA b.adr % 4)) (data := x.setWidth 2048) (mask := BitVec.allOnes 256) hr ht
      refine ⟨fun i hi => ?_, g2, g3⟩
      rw [g1 i hi, if_pos (bit_allOnes (by omega)), hx, pow_mul]
      exact BitVec.eq_of_toNat_eq (by simp)
    · have hcop : localRange (copied e1 a (2 ^ (adrA b.adr % 4)) (x.setWidth 2048) (BitVec.allOnes 256)).s (offOf a) (2 ^ (adrA b.adr % 4)) = .device := by
        unfold copied
        dsimp only
        rw [storeBytes_scalar, hf.t]
        exact hd
      have hne : storeTodo (offOf a) (2 ^ (adrA b.adr % 4)) (BitVec.allOnes 256) ≠ [] := storeTodo_ne_nil (k := 0) hn.1 (bit_allOnes (by decide))
      refine gives_next (run ((doStore_device hl hcop).trans (by rw [if_neg hne]))) ?_
      obtain ⟨o, ho, g1, g2, g3, g4, g5, -, g7, g8, g9⟩ := finish_deviceStore (a := a) (n := 2 ^ (adrA b.adr % 4)) (data := x.setWidth 2048)
        (mask := BitVec.allOnes 256) (todo := storeTodo (offOf a) (2 ^ (adrA b.adr % 4)) (BitVec.allOnes 256)) hr hf
      refine ⟨o, ho, g1, g2, g3, g4, ?_, g7, g8, g9⟩
      rw [g5]
      exact BitVec.setWidth_setWidth_of_le _ (by decide)
  · intro s t b j th x a e0 e1 hi h1 h2 h3 h4 hth h5 hs
    obtain ⟨hf, hr⟩ := stv_from h3 h4
    have ht : e1.t = t := hf.t
    refine gives_next (hi.exec (fun _ _ _ => rfl) ((stv_slot hi.free h1 h2 h3 h4 hth h5).trans (doStore_scratch hs))) ?_
    obtain ⟨g1, g2, g3⟩ := finish_scratchStore (a := a) (n := 256) (data := x)
      (mask := if nbit (adrA b.adr) 4 then (tget th.m (adrA b.adr % 8) 0).setWidth 256 else BitVec.allOnes 256) hr ht
    refine ⟨fun i hi => ?_, g2, g3⟩
    have hbyte : BitVec.ofNat 8 (fld x (8 * i) 8) = BitVec.ofNat 8 (x.toNat / 256 ^ i) := by
      rw [fld_eq, pow_mul]
      exact BitVec.eq_of_toNat_eq (by simp)
    rw [g1 i hi, hbyte]
    by_cases hn : nbit (adrA b.adr) 4 = true
    · have hbit : bit ((tget th.m (adrA b.adr % 8) 0).setWidth 256) i = bit (tget th.m (adrA b.adr % 8) 0) i := by simp [bit, hi]
      rw [if_pos hn, hbit]
      cases bit (tget th.m (adrA b.adr % 8) 0) i <;> simp [hn]
    · rw [if_neg hn, if_pos (bit_allOnes hi), if_neg fun h => hn h.1]
  · intro s t b j th x a e0 e1 mask hi h1 h2 h3 h4 hth hmask h5
    obtain ⟨hf, hr⟩ := stv_from h3 h4
    have run {f : Ev} (hs : doStore e1 b.adr a 256 x mask = .ok f) : exec (.stv t b) s = .next (finishIssue f) :=
      hi.exec (fun _ _ _ => rfl) ((stv_slot hi.free h1 h2 h3 h4 hth h5).trans (hmask ▸ hs))
    refine ⟨fun hl hd => ?_, fun hs hl => run (doStore_remote hs hl)⟩
    have hbytes : leBytes 256 (fld x 0 (8 * 256)) = leBytes 256 x.toNat := by
      rw [fld_eq, pow_zero, Nat.div_one, Nat.mod_eq_of_lt x.isLt]
    have hcop : localRange (copied e1 a 256 x mask).s (offOf a) 256 = .device := by
      unfold copied
      dsimp only
      rw [hbytes, hf.t]
      exact hd
    have hslot := doStore_device (data := x) (mask := mask) hl hcop
    refine ⟨fun hm => ?_, fun hm => ?_⟩
    · have hbit : ∃ k, k < 256 ∧ bit mask k = true := by
        by_contra hno
        push Not at hno
        exact hm (BitVec.eq_of_getLsbD_eq fun k hk => by simpa [bit] using hno k hk)
      obtain ⟨k, hk, hb⟩ := hbit
      refine gives_next (run (hslot.trans (by rw [if_neg (storeTodo_ne_nil hk hb)]))) ?_
      exact finish_deviceStore hr hf
    · subst hm
      refine gives_next (run (hslot.trans (by rw [if_pos (storeTodo_zero _ _)]))) ?_
      have hu := (inFlight_finishIssue (copied e1 a 256 x 0)).trans ((inFlight_copied e1 a 256 x 0).trans hr.inFlight)
      generalize finishIssue (copied e1 a 256 x 0) = u at hu ⊢
      exact ⟨congrArg Prod.fst hu, congrArg (fun x => x.2.1) hu⟩

end

end Sys2Proof.Claims
end

section
/-! PROOFS. Number formats (R29, R36, R38): a code converts to itself, integer formats round, saturate and report. -/
namespace Sys2Proof.Claims
open Sys2Proof.Machine

/-! ## A floating-point format converts its own values to their codes -/

/-- What the floating-point formats have in common: sign, exponent and mantissa fill the width; the codes up to the largest finite value are those below
the infinities and NaNs. -/
structure FFmt.Sound (p : FFmt) (bits : Nat) : Prop where
  width : bits = p.e + p.m + 1
  inf : p.hasInf = true → p.maxCode + 1 = (2 ^ p.e - 1) * 2 ^ p.m
  noInf : p.hasInf = false → ∀ a, a < 2 ^ (p.e + p.m) → p.nan ≠ some a → a ≤ p.maxCode
  low : 2 ^ p.m ≤ p.maxCode + 1
  infNan : p.hasInf = true → p.nan.isSome = true

theorem ffmt_sound {f : Nat} (h : f ≤ 7) : FFmt.Sound (ffmt f) (fmtBits f) := by
  have noInf (p : FFmt) (k : Nat) (h : 2 ^ (p.e + p.m) ≤ p.maxCode + 1 + k) (hk : k = 0 ∨ k = 1 ∧ p.nan = some (p.maxCode + 1)) :
      ∀ a, a < 2 ^ (p.e + p.m) → p.nan ≠ some a → a ≤ p.maxCode := by
    rintro a ha hn
    rcases hk with rfl | ⟨rfl, hp⟩
    · omega
    · rw [hp] at hn
      have : p.maxCode + 1 ≠ a := fun h => hn (congrArg some h)
      omega
  interval_cases f
  · exact ⟨rfl, fun _ => by decide, nofun, by decide, fun _ => rfl⟩
  · exact ⟨rfl, fun _ => by decide, nofun, by decide, fun _ => rfl⟩
  · exact ⟨rfl, fun _ => by decide, nofun, by decide, fun _ => rfl⟩
  · exact ⟨rfl, nofun, fun _ => noInf _ 1 (by decide) (.inr ⟨rfl, rfl⟩), by decide, nofun⟩
  · exact ⟨rfl, fun _ => by decide, nofun, by decide, fun _ => rfl⟩
  · exact ⟨rfl, nofun, fun _ => noInf _ 0 (by decide) (.inl rfl), by decide, nofun⟩
  · exact ⟨rfl, nofun, fun _ => noInf _ 0 (by decide) (.inl rfl), by decide, nofun⟩
  · exact ⟨rfl, nofun, fun _ => noInf _ 0 (by decide) (.inl rfl), by decide, nofun⟩

theorem roundUnits_self (n : Nat) (u : Int) (rnd : Option Nat) : roundUnits n u u false rnd = (n, false) := by
  simp [roundUnits]

section
variable {p : FFmt} {m : Nat}

theorem ulpExp_subnormal (h0 : m ≠ 0) (h : m < 2 ^ p.m) : ulpExp p m (1 - p.bias - p.m) = 1 - p.bias - p.m := by
  have hlog : ilog2 m < p.m := (Nat.log2_lt h0).2 h
  unfold ulpExp
  omega

theorem ulpExp_normal {ex : Nat} (h : m < 2 ^ p.m) (hex : 1 ≤ ex) : ulpExp p (2 ^ p.m + m) (ex - p.bias - p.m) = ex - p.bias - p.m := by
  have hlog : ilog2 (2 ^ p.m + m) = p.m := (Nat.log2_eq_iff (by have := Nat.two_pow_pos p.m; omega)).2 ⟨by omega, by rw [pow_succ]; omega⟩
  unfold ulpExp
  omega

theorem unitsCode_subnormal {u : Int} (h : m < 2 ^ p.m) : unitsCode p m u = m := by
  unfold unitsCode
  rw [if_neg (by rw [pow_succ]; omega)]
  exact if_pos h

theorem unitsCode_normal {ex : Nat} (h : m < 2 ^ p.m) : unitsCode p (2 ^ p.m + m) (ex - p.bias - p.m) = ex * 2 ^ p.m + m := by
  unfold unitsCode
  rw [if_neg (by rw [pow_succ]; omega)]
  have hex : ((ex : Int) - p.bias - p.m + p.m + p.bias).toNat = ex := by omega
  refine (if_neg (by omega)).trans ?_
  rw [hex]
  omega

theorem roundMag_subnormal (h0 : m ≠ 0) (h : m < 2 ^ p.m) (hmax : m ≤ p.maxCode) :
    roundMag p m (1 - p.bias - p.m) false none = (m, false, true, false) := by
  unfold roundMag
  rw [ulpExp_subnormal h0 h]
  dsimp only
  rw [roundUnits_self]
  dsimp only
  rw [unitsCode_subnormal h, decide_eq_false (by omega), decide_eq_true h]

theorem roundMag_normal {ex : Nat} (h : m < 2 ^ p.m) (hex : 1 ≤ ex) (hmax : ex * 2 ^ p.m + m ≤ p.maxCode) :
    roundMag p (2 ^ p.m + m) (ex - p.bias - p.m) false none = (ex * 2 ^ p.m + m, false, false, false) := by
  unfold roundMag
  rw [ulpExp_normal h hex]
  dsimp only
  rw [roundUnits_self]
  dsimp only
  rw [unitsCode_normal h, decide_eq_false (by omega), decide_eq_false (by omega)]

end

/-- Sign, exponent and mantissa of a code. -/
theorem code_fields {p : FFmt} {bits c : Nat} (hw : bits = p.e + p.m + 1) (hc : c < 2 ^ bits) :
    c = (if nbit c (p.e + p.m) then 2 ^ (p.e + p.m) else 0) + (c / 2 ^ p.m % 2 ^ p.e * 2 ^ p.m + c % 2 ^ p.m) ∧
    c / 2 ^ p.m % 2 ^ p.e * 2 ^ p.m + c % 2 ^ p.m = c % 2 ^ (p.e + p.m) := by
  have ha : c / 2 ^ p.m % 2 ^ p.e * 2 ^ p.m + c % 2 ^ p.m = c % 2 ^ (p.e + p.m) := by
    rw [add_comm p.e, pow_add, Nat.mod_mul]
    ring
  refine ⟨?_, ha⟩
  rw [ha]
  have htop : c / 2 ^ (p.e + p.m) < 2 := by
    rw [Nat.div_lt_iff_lt_mul (Nat.two_pow_pos _), mul_comm, ← pow_succ, ← hw]
    exact hc
  have hdiv := Nat.div_add_mod c (2 ^ (p.e + p.m))
  unfold nbit
  rw [Nat.mod_eq_of_lt htop]
  by_cases h1 : c / 2 ^ (p.e + p.m) = 1
  · rw [h1] at hdiv ⊢
    simp
    omega
  · have h0 : c / 2 ^ (p.e + p.m) = 0 := by
      generalize c / 2 ^ (p.e + p.m) = k at h1 htop
      omega
    rw [h0] at hdiv ⊢
    simp
    omega

section
variable {f : Nat} {neg : Bool}

/-- The code of a sign. -/
def signCode (p : FFmt) (neg : Bool) : Nat := if neg then 2 ^ (p.e + p.m) else 0

theorem arith_inf (h : (ffmt f).hasInf = true) : arith f (.inf neg) = (signCode (ffmt f) neg + (2 ^ (ffmt f).e - 1) * 2 ^ (ffmt f).m, fNone) := if_pos h

theorem arith_zero {exp : Int} : arith f (.fin neg 0 exp) = (signCode (ffmt f) neg, fNone) := rfl

theorem arith_exact {mag : Nat} {exp : Int} {c : Nat} {tiny : Bool} (h0 : mag ≠ 0) (h : roundMag (ffmt f) mag exp false none = (c, false, tiny, false)) :
    arith f (.fin neg mag exp) = (signCode (ffmt f) neg + c, fNone) := by
  unfold arith toFloat
  dsimp only
  rw [if_neg h0, h]
  simp [roundFlags, fIf, fNone, signCode]

theorem arith_nan (h : (ffmt f).nan.isSome = true) : (arith f .nan).2 = fNone ∧ (ffmt f).nan = some (arith f .nan).1 := by
  obtain ⟨k, hk⟩ := Option.isSome_iff_exists.1 h
  unfold arith toFloat
  dsimp only
  rw [hk]
  exact ⟨rfl, rfl⟩

end

/-- A format's own code converts to itself and raises nothing (R36, R38); a NaN to the format's NaN. -/
theorem arith_decodeF {f c : Nat} (hf : f ≤ 7) (hc : c < 2 ^ fmtBits f) :
    ((decodeF f c).isNan = false → arith f (decodeF f c) = (c, fNone)) ∧
    ((decodeF f c).isNan = true → (arith f (decodeF f c)).2 = fNone ∧ (ffmt f).nan = some (arith f (decodeF f c)).1) := by
  obtain ⟨hw, hinf, hnoInf, hlow, hinfNan⟩ := ffmt_sound hf
  have hint : ¬ fmtInt f = true := by interval_cases f <;> decide
  obtain ⟨hval, hcode⟩ := code_fields hw hc
  have hm : c % 2 ^ (ffmt f).m < 2 ^ (ffmt f).m := Nat.mod_lt _ (Nat.two_pow_pos _)
  have hex : c / 2 ^ (ffmt f).m % 2 ^ (ffmt f).e < 2 ^ (ffmt f).e := Nat.mod_lt _ (Nat.two_pow_pos _)
  have ha : c % 2 ^ ((ffmt f).e + (ffmt f).m) < 2 ^ ((ffmt f).e + (ffmt f).m) := Nat.mod_lt _ (Nat.two_pow_pos _)
  have hsign : c = signCode (ffmt f) (nbit c ((ffmt f).e + (ffmt f).m)) +
      (c / 2 ^ (ffmt f).m % 2 ^ (ffmt f).e * 2 ^ (ffmt f).m + c % 2 ^ (ffmt f).m) := hval
  unfold decodeF
  rw [if_neg hint]
  dsimp only
  split
  case isTrue h =>
    obtain ⟨hi, he⟩ := h
    split
    case isTrue h0 =>
      refine ⟨fun _ => ?_, nofun⟩
      rw [arith_inf hi]
      rw [he, h0] at hsign
      exact congrArg (·, fNone) hsign.symm
    case isFalse => exact ⟨nofun, fun _ => arith_nan (hinfNan hi)⟩
  case isFalse hni =>
    split
    case isTrue hn => exact ⟨nofun, fun _ => arith_nan (by rw [hn]; rfl)⟩
    case isFalse hn =>
      have hmax : c % 2 ^ ((ffmt f).e + (ffmt f).m) ≤ (ffmt f).maxCode := by
        by_cases hi : (ffmt f).hasInf = true
        · have hlt : c / 2 ^ (ffmt f).m % 2 ^ (ffmt f).e + 1 ≤ 2 ^ (ffmt f).e - 1 := by
            have hne : c / 2 ^ (ffmt f).m % 2 ^ (ffmt f).e ≠ 2 ^ (ffmt f).e - 1 := fun h => hni ⟨hi, h⟩
            generalize c / 2 ^ (ffmt f).m % 2 ^ (ffmt f).e = x at hne hex ⊢
            omega
          have := Nat.mul_le_mul_right (2 ^ (ffmt f).m) hlt
          rw [← hinf hi, Nat.add_mul, Nat.one_mul] at this
          rw [← hcode]
          generalize c / 2 ^ (ffmt f).m % 2 ^ (ffmt f).e * 2 ^ (ffmt f).m = x at this ⊢
          omega
        · exact hnoInf (by simpa using hi) _ ha hn
      rw [← hcode] at hmax
      split
      case isTrue he =>
        refine ⟨fun _ => ?_, nofun⟩
        rw [he, Nat.zero_mul, Nat.zero_add] at hsign hmax
        by_cases h0 : c % 2 ^ (ffmt f).m = 0
        · rw [h0] at hsign ⊢
          rw [arith_zero]
          exact congrArg (·, fNone) hsign.symm
        · rw [arith_exact h0 (roundMag_subnormal h0 hm hmax)]
          exact congrArg (·, fNone) hsign.symm
      case isFalse he =>
        refine ⟨fun _ => ?_, nofun⟩
        rw [arith_exact (by have := Nat.two_pow_pos (ffmt f).m; omega) (roundMag_normal hm (by omega) hmax)]
        exact congrArg (·, fNone) hsign.symm

/-! ## Integer formats -/

section
variable {f : Nat}

theorem convert_ofInt (hf : fmtInt f = true) (i : Int) : convert f (.ofInt i) false none =
    if i < -(2 ^ (fmtBits f - 1) : Int) then (toCode (fmtBits f) (-(2 ^ (fmtBits f - 1) : Int)), fNone ||| fIV)
    else if 2 ^ (fmtBits f - 1) - 1 < i then (toCode (fmtBits f) (2 ^ (fmtBits f - 1) - 1), fNone ||| fIV) else (toCode (fmtBits f) i, fNone) := by
  have habs : (if decide (i < 0) = true then -(i.natAbs : Int) else i.natAbs) = i := by
    by_cases h : i < 0
    · rw [if_pos (decide_eq_true h)]; omega
    · rw [if_neg (by simpa using h)]; omega
  unfold convert toInt FVal.ofInt
  rw [if_pos hf]
  dsimp only
  rw [roundUnits_self]
  dsimp only
  rw [habs]
  rfl

theorem roundUnits_half (k : Nat) : roundUnits (2 * k + 1) (-1) 0 false none = (k + k % 2, true) := by
  unfold roundUnits
  rw [if_neg (by decide)]
  have hdiv : (2 * k + 1) / 2 = k := by omega
  have hmod : (2 * k + 1) % 2 = 1 := by omega
  simp only [Int.reduceNeg, sub_neg_eq_add, zero_add, Int.toNat_one, pow_one, hdiv, hmod]
  rcases Nat.mod_two_eq_zero_or_one k with h | h <;> simp [h]

theorem convert_half (hf : fmtInt f = true) {k : Nat} (hk : (k : Int) < 2 ^ (fmtBits f - 1) - 1) :
    convert f (.fin false (2 * k + 1) (-1)) false none = (toCode (fmtBits f) ((k + k % 2 : Nat) : Int), fNX) := by
  unfold convert toInt
  rw [if_pos hf]
  dsimp only
  rw [roundUnits_half]
  dsimp only
  rw [if_neg Bool.false_ne_true, if_neg (by omega), if_neg (by omega)]
  rfl

end

theorem integerFormats {f : Nat} (i : Int) (hf : f = 8 ∨ f = 9 ∨ f = 10) :
    (-(topBit f : Int) ≤ i → i < topBit f → convert f (.ofInt i) false none = (toCode (fmtBits f) i, fNone)) ∧
    (i < -(topBit f : Int) → convert f (.ofInt i) false none = (topBit f, fIV)) ∧
    ((topBit f : Int) ≤ i → convert f (.ofInt i) false none = (topBit f - 1, fIV)) ∧
    (∀ k : Nat, k < topBit f - 1 → convert f (.fin false (2 * k + 1) (-1)) false none = (k + k % 2, fNX)) ∧
    convert f .nan false none = (0, fIV) := by
  have hint : fmtInt f = true := by rcases hf with rfl | rfl | rfl <;> rfl
  have hbits : 0 < fmtBits f := by rcases hf with rfl | rfl | rfl <;> decide
  have htop : (2 ^ (fmtBits f - 1) : Int) = topBit f := by unfold topBit; push_cast; rfl
  have hpow : 2 * topBit f = 2 ^ fmtBits f := two_mul_topBit hbits
  have hpos : 0 < topBit f := Nat.two_pow_pos _
  have hnat {n : Nat} (h : n < 2 ^ fmtBits f) : toCode (fmtBits f) (n : Int) = n := by
    rw [toCode_of_modEq (Int.ModEq.refl _), Nat.mod_eq_of_lt h]
  have hlo : toCode (fmtBits f) (-(topBit f : Int)) = topBit f := by
    have hmod : -(topBit f : Int) ≡ (topBit f : Nat) [ZMOD 2 ^ fmtBits f] := by
      refine (Int.modEq_iff_dvd).2 ⟨1, ?_⟩
      rw [show (2 ^ fmtBits f : Int) = ((2 ^ fmtBits f : Nat) : Int) by push_cast; rfl, ← hpow]
      push_cast
      ring
    rw [toCode_of_modEq hmod, Nat.mod_eq_of_lt (by omega)]
  have hhi : toCode (fmtBits f) ((topBit f : Int) - 1) = topBit f - 1 := by
    rw [show ((topBit f : Int) - 1) = ((topBit f - 1 : Nat) : Int) by omega, hnat (by omega)]
  refine ⟨fun h1 h2 => ?_, fun h => ?_, fun h => ?_, fun k hk => ?_, ?_⟩
  · rw [convert_ofInt hint, htop, if_neg (by omega), if_neg (by omega)]
  · rw [convert_ofInt hint, htop, if_pos h, hlo]
    rfl
  · rw [convert_ofInt hint, htop, if_neg (by omega), if_pos (by omega), hhi]
    rfl
  · rw [convert_half hint (by omega), hnat (by omega)]
  · unfold convert
    rw [if_pos hint]
    rfl

/-- Settles O20. -/
theorem numbersAndElements : Obligations.NumbersAndElements := by
  unfold Obligations.NumbersAndElements
  refine ⟨fun f c hf hc => arith_decodeF hf hc, fun f i hf => integerFormats i hf, ?_⟩
  · intro f hf
    have hfills : Fills f := by
      simp only [List.mem_cons, List.not_mem_nil, or_false] at hf
      rcases hf with rfl | rfl | rfl | rfl | rfl | rfl | rfl | rfl | rfl <;> rfl
    exact ⟨fun cs i hi _ => hfills.vElem_packV cs hi, fun u v huv => hfills.vReg_ext huv⟩

end Sys2Proof.Claims
end

section
/-! PROOFS. The matrix slot (R108 to R115). -/
namespace Sys2Proof.Claims
open Sys2Proof.Machine

/-! ## A thread's registers at the end of its bundle -/

/-- The end of a bundle changes of a thread's registers what `threadAfter` says, and whether it runs. -/
theorem getThread_finishIssue (e : Ev) : ∃ r, getThread (finishIssue e) e.t = { threadAfter e with run := r } := by
  by_cases h : (getThread e.s e.t).run = .ending
  · exact ⟨_, getThread_finishIssue_ending h⟩
  · refine ⟨(threadAfter e).run, ?_⟩
    have hend : finishIssue e = settleEnd (advanced e) e.t := by
      rw [finishIssue_eq]
      split
      next hr => exact absurd hr h
      next => rfl
    have hrun : (getThread (advanced e) e.t).run ≠ .ending := by rw [getThread_advanced]; exact h
    rw [hend]
    unfold settleEnd
    dsimp only
    rw [if_neg (fun hc => hrun hc.1), getThread_advanced]

theorem getThread_finishIssue_acc (e : Ev) : (getThread (finishIssue e) e.t).acc = (getThread e.s e.t).acc := by
  obtain ⟨r, hr⟩ := getThread_finishIssue e
  rw [hr]
  rfl

theorem getThread_finishIssue_v (e : Ev) : (getThread (finishIssue e) e.t).v = (getThread e.s e.t).v := by
  obtain ⟨r, hr⟩ := getThread_finishIssue e
  rw [hr]
  rfl

theorem getThread_finishIssue_flags (e : Ev) : (getThread (finishIssue e) e.t).flags = (getThread e.s e.t).flags ||| e.flags := by
  obtain ⟨r, hr⟩ := getThread_finishIssue e
  rw [hr]
  rfl

theorem acc_putTile (e : Ev) (n : Nat) (t : Tile) (fl : Flg) :
    tget (getThread (finishIssue (putTile e n t fl)) e.t).acc n Tile.zero = t ∧ (getThread (finishIssue (putTile e n t fl)) e.t).v = (getThread e.s e.t).v := by
  have h1 := getThread_finishIssue_acc (putTile e n t fl)
  have h2 := getThread_finishIssue_v (putTile e n t fl)
  have hput : getThread (putTile e n t fl).s e.t = { getThread e.s e.t with acc := tset (getThread e.s e.t).acc n t Tile.zero } := getThread_setThread _ _ _
  rw [show (putTile e n t fl).t = e.t from rfl, hput] at h1 h2
  rw [h1, h2]
  exact ⟨tget_tset_same _ _ _ _, rfl⟩

/-! ## Entries of a tile -/

/-- Entries written in turn at places of their own. -/
theorem tget_foldl_tset {α : Type} [DecidableEq α] (t : Tab α) (g : Nat → α) (d : α) (b n : Nat) {i : Nat} (h : i < n) :
    tget ((List.range n).foldl (fun t i => tset t (b + i) (g i) d) t) (b + i) d = g i := by
  induction n with
  | zero => omega
  | succ n ih =>
    rw [List.range_succ, List.foldl_append]
    by_cases hi : i = n
    · subst hi
      exact tget_tset_same _ _ _ _
    · exact (tget_tset_ne _ _ _ _ (by omega)).trans (ih (by omega))

theorem tget_foldl_tset' {α : Type} [DecidableEq α] (t : Tab α) (g : Tab α → Nat → α) (d : α) (n : Nat) (hg : ∀ t k i (x : α), i ≠ k → g (tset t k x d) i = g t i)
    {i : Nat} (h : i < n) : tget ((List.range n).foldl (fun t i => tset t i (g t i) d) t) i d = g t i := by
  have hlater : ∀ n k, n ≤ k → g ((List.range n).foldl (fun t i => tset t i (g t i) d) t) k = g t k := by
    intro n
    induction n with
    | zero => exact fun _ _ => rfl
    | succ n ih =>
      intro k hk
      rw [List.range_succ, List.foldl_append]
      exact (hg _ _ _ _ (by omega)).trans (ih k (by omega))
  induction n with
  | zero => omega
  | succ n ih =>
    rw [List.range_succ, List.foldl_append]
    by_cases hi : i = n
    · subst hi
      exact (tget_tset_same _ _ _ _).trans (hlater _ _ (le_refl _))
    · exact (tget_tset_ne _ _ _ _ (by omega)).trans (ih (by omega))

/-! ## The slot by opcode -/

theorem issueRow_alone_of_mem {s : State} {t : Tid} {b : Bundle} {j : Job} {th : Thread} {k lo hi : Nat} {e : Ev} (h : Issues s t b j th)
    (ha : Alone b k) (hk : k < 4) (hlo : lo ≤ Bundle.op b k) (hhi : Bundle.op b k ≤ hi) (hs : evalSlot (atIssue s t b j th) b k = .ok e) :
    issueRow s t b k lo hi = finishIssue e := by
  have hd : (atIssue s t b j th).th0.dropped = 0 := h.2.2.2.2
  simp [issueRow, Bundle.has_of_alone ha hk, hlo, hhi, issue_of_runSlots h ha.2 (runSlots_alone ha hk hd hs)]

section
variable {s : State} {t : Tid} {b : Bundle} {j : Job} {th : Thread} {op : Nat} {e : Ev}

theorem MtxIssues.run (h : MtxIssues s t b j th op) {lo hi : Nat} (hlo : lo ≤ op) (hhi : op ≤ hi) (hs : mtxSlot (atIssue s t b j th) b.mtx = .ok e) :
    issueRow s t b 2 lo hi = finishIssue e := by
  obtain ⟨hi, ha, rfl⟩ := h
  exact issueRow_alone_of_mem hi ha (by decide) hlo hhi hs

theorem MtxIssues.op_eq (h : MtxIssues s t b j th op) : fld b.mtx 0 8 = op := h.2.2

theorem fmtCheck_ok {f : Nat} (h : f < 0xB) : fmtCheck f = .ok () := if_neg (by omega)

/-- MMA and MMAZ once their operands are read. -/
theorem mtxMma_ok {e e1 e2 e3 : Ev} {w : BitVec 48} {k : Nat} {isInt first : Bool} {x y z : VReg} (h0 : fld w 38 10 = 0) (ha : mtxFmtA w < 0xB)
    (hb : mtxFmtB w < 0xB) (hp : pairKind (mtxFmtA w) (mtxFmtB w) = some (k, isInt)) (h1 : srcCheck e true (mtxA w) = .ok ())
    (h2 : srcCheck e true (mtxB w) = .ok ()) (h3 : readV e (mtxA w) = .ok (x, e1)) (h4 : readV e1 (mtxB w) = .ok (y, e2))
    (hsa : mtxSA w = true → 3 ≤ mtxFmtA w ∧ mtxFmtA w ≤ 7) (hsb : mtxSB w = true → 3 ≤ mtxFmtB w ∧ mtxFmtB w ≤ 7)
    (hs : if mtxSA w || mtxSB w then srcCheck e true (mtxScale w) = .ok () ∧ readV e2 (mtxScale w) = .ok (z, e3)
      else fld w 32 6 = 0 ∧ z = 0 ∧ e3 = e2)
    (ht : first = true ∨ (getTile e (mtxAcc w)).isInt = isInt) : mtxMma e w first = .ok (putTile e3 (mtxAcc w)
      (mmaTile (if first then { Tile.zero with isInt := isInt } else getTile e (mtxAcc w)) k (mtxFmtA w) (mtxFmtB w) x y z (mtxSA w) (mtxSB w)).1
      (mmaTile (if first then { Tile.zero with isInt := isInt } else getTile e (mtxAcc w)) k (mtxFmtA w) (mtxFmtB w) x y z (mtxSA w) (mtxSB w)).2) := by
  have hz : zeroCheck w ((38, 10) :: (if mtxSA w || mtxSB w then [] else [(32, 6)])) = .ok () := by
    refine zeroCheck_ok fun r hr => ?_
    rcases List.mem_cons.1 hr with rfl | hr
    · exact h0
    · by_cases hc : (mtxSA w || mtxSB w) = true
      · rw [if_pos hc] at hr
        cases hr
      · rw [if_neg hc] at hr hs
        obtain rfl := List.mem_singleton.1 hr
        exact hs.1
  have hscale : (if mtxSA w || mtxSB w then srcCheck e true (mtxScale w) else .ok ()) = .ok () ∧
      (if mtxSA w || mtxSB w then readV e2 (mtxScale w) else .ok (0, e2)) = .ok (z, e3) := by
    by_cases hc : (mtxSA w || mtxSB w) = true
    · rw [if_pos hc] at hs ⊢
      rw [if_pos hc]
      exact hs
    · rw [if_neg hc] at hs ⊢
      rw [if_neg hc]
      obtain ⟨-, rfl, rfl⟩ := hs
      exact ⟨rfl, rfl⟩
  have hacc : ((mtxSA w && (decide (mtxFmtA w < 3) || decide (7 < mtxFmtA w))) || (mtxSB w && (decide (mtxFmtB w < 3) || decide (7 < mtxFmtB w)))) = false := by
    cases ha : mtxSA w <;> cases hb : mtxSB w <;> simp [ha, hb] at hsa hsb ⊢ <;> omega
  have htile : (!first && (getTile e (mtxAcc w)).isInt != isInt) = false := by
    rcases ht with rfl | rfl <;> simp
  unfold mtxMma
  dsimp only
  rw [hz, SlotRes.bind_ok, fmtCheck_ok ha, SlotRes.bind_ok, fmtCheck_ok hb, SlotRes.bind_ok, hp]
  dsimp only
  rw [hacc, if_neg Bool.false_ne_true, htile, if_neg Bool.false_ne_true, h1, SlotRes.bind_ok, h2, SlotRes.bind_ok, hscale.1, SlotRes.bind_ok, h3, SlotRes.bind_ok]
  dsimp only
  rw [h4, SlotRes.bind_ok]
  dsimp only
  rw [hscale.2]
  rfl

theorem mtxMzero_ok {w : BitVec 48} (h0 : fld w 8 20 = 0) (h1 : fld w 30 14 = 0) (hc : mtxFmtC w = 0 ∨ mtxFmtC w = 10) :
    mtxMzero e w = .ok (putTile e (mtxAcc w) { Tile.zero with isInt := decide (mtxFmtC w = 10) } fNone) := by
  unfold mtxMzero
  rw [zeroCheck_ok (by simp [h0, h1]), SlotRes.bind_ok, fmtCheck_ok (by omega), SlotRes.bind_ok]
  rcases hc with h | h <;> rw [h] <;> rfl

/-- What MWR writes of a vector's codes over a tile's entries. -/
def entriesWith (es : Tab W32) (q : Nat) (x : VReg) : Tab W32 :=
  (List.range 64).foldl (fun es i => tset es (64 * q + i) (BitVec.ofNat 32 (vElem 0 x i)) 0) es

theorem mtxMwr_ok {e e1 : Ev} {w : BitVec 48} {q : Nat} {x : VReg} (h1 : fld w 12 4 = 0) (h2 : fld w 22 6 = 0) (h3 : fld w 30 18 = 0)
    (ha : mtxFmtA w = 0 ∨ mtxFmtA w = 10) (h4 : srcCheck e true (mtxA w) = .ok ()) (h5 : readV e (mtxA w) = .ok (x, e1)) :
    ∃ es part gk fl, mtxMwr e w q = .ok (putTile e1 (mtxAcc w) { isInt := decide (mtxFmtA w = 10), entries := entriesWith es q x, gk := gk, part := part } fl) := by
  unfold mtxMwr
  dsimp only
  rw [zeroCheck_ok (by simp [h1, h2, h3]), SlotRes.bind_ok, fmtCheck_ok (by omega), SlotRes.bind_ok, if_neg (by omega), h4, SlotRes.bind_ok, h5, SlotRes.bind_ok]
  exact ⟨_, _, _, _, rfl⟩

theorem mtxMrd_ok {e e' : Ev} {w : BitVec 48} {q : Nat} {zero : Bool} {tile : Tile} {fl : Flg} {rs : List (Nat × Flg)} (h1 : fld w 8 20 = 0) (h2 : fld w 30 8 = 0)
    (hd : dstCheck e true (mtxC w) = .ok ())
    (hf : mtxFmtC w = 0 ∨ (getTile e (mtxAcc w)).isInt = true ∧ mtxFmtC w = 10 ∨ (getTile e (mtxAcc w)).isInt = false ∧ (mtxFmtC w = 1 ∨ mtxFmtC w = 2))
    (hc : closeGroup (getTile e (mtxAcc w)) = (tile, fl))
    (hrs : rs = (List.range 64).map fun i => convert (mtxFmtC w) (if tile.isInt then .ofInt (tget tile.entries (64 * q + i) 0).toInt
      else decodeF 0 (tget tile.entries (64 * q + i) 0).toNat) false none)
    (hw : writeV (putTile e (mtxAcc w)
      { tile with entries := if zero then (List.range 64).foldl (fun es i => tset es (64 * q + i) 0 0) tile.entries else tile.entries }
      (fl ||| orFlags (rs.map (·.2)))) (mtxC w) (packV (mtxFmtC w) (rs.map (·.1))) = .ok e') : mtxMrd e w q zero = .ok e' := by
  have hfmt : (!(if (getTile e (mtxAcc w)).isInt then mtxFmtC w == 10 || mtxFmtC w == 0 else mtxFmtC w == 0 || mtxFmtC w == 1 || mtxFmtC w == 2)) = false := by
    rcases hf with h | ⟨hi, h⟩ | ⟨hi, h | h⟩
    · cases (getTile e (mtxAcc w)).isInt <;> simp [h]
    all_goals simp [hi, h]
  subst hrs
  unfold mtxMrd
  dsimp only
  rw [zeroCheck_ok (by simp [h1, h2]), SlotRes.bind_ok, fmtCheck_ok (by omega), SlotRes.bind_ok, hfmt, if_neg Bool.false_ne_true, hd, SlotRes.bind_ok, hc]
  exact hw

end

/-! ## Products of integers -/

theorem int_product (a b : Nat) : mmaProduct 8 8 a b 127 127 = .fin (decide (sxt 8 a < 0) != decide (sxt 8 b < 0)) ((sxt 8 a).natAbs * (sxt 8 b).natAbs) 0 := rfl

theorem addProduct_int (p : Partial) (i k : Int) :
    (p.addProduct true (.fin (decide (i < 0) != decide (k < 0)) (i.natAbs * k.natAbs) 0)).num = p.num + i * k := by
  have hval : (if (decide (i < 0) != decide (k < 0)) = true then -((i.natAbs * k.natAbs : Nat) : Int) else ((i.natAbs * k.natAbs : Nat) : Int)) = i * k := by
    push_cast
    rcases lt_or_ge i 0 with hi | hi <;> rcases lt_or_ge k 0 with hk | hk
    · simp [hi, hk, abs_of_neg]
    · simp [hi, not_lt.2 hk, abs_of_neg, abs_of_nonneg hk]
    · simp [not_lt.2 hi, hk, abs_of_neg, abs_of_nonneg hi]
    · simp [not_lt.2 hi, not_lt.2 hk, abs_of_nonneg hi, abs_of_nonneg hk]
  unfold Partial.addProduct
  dsimp only
  rw [show shl2 (i.natAbs * k.natAbs) 0 = i.natAbs * k.natAbs by simp [shl2], if_pos rfl, hval]

theorem foldl_addProduct (p : Partial) (f : Nat → Int) (g : Nat → Int) (n : Nat) :
    ((List.range n).foldl (fun (x : Partial) j => x.addProduct true (.fin (decide (f j < 0) != decide (g j < 0)) ((f j).natAbs * (g j).natAbs) 0)) p).num =
      p.num + ((List.range n).map fun j => f j * g j).sum := by
  induction n with
  | zero => simp
  | succ n ih =>
    rw [List.range_succ, List.foldl_append, List.map_append, List.sum_append, ← add_assoc, ← ih]
    simpa using addProduct_int _ (f n) (g n)

/-- An MMA of INT8 codes on an INT tile whose group is closed opens a group of 16 products per entry. -/
theorem mmaTile_int8 {tile : Tile} (x y : VReg) {i : Nat} (h : tile.isInt = true) (hg : tile.gk = 0) (hi : i < 256) :
    (tget (mmaTile tile 16 8 8 x y 0 false false).1.part i Partial.zero).num = (tget tile.part i Partial.zero).num +
      ((List.range 16).map (fun k => sxt 8 (vElem 8 x (i / 16 * 16 + k)) * sxt 8 (vElem 8 y (i % 16 * 16 + k)))).sum ∧
    (mmaTile tile 16 8 8 x y 0 false false).1.gk = 16 ∧ (mmaTile tile 16 8 8 x y 0 false false).1.entries = tile.entries := by
  have hopen : mmaTile tile 16 8 8 x y 0 false false = ({ tile with
      part := (List.range 256).foldl (fun (p : Tab Partial) i => tset p i ((List.range 16).foldl (fun (x' : Partial) j =>
        x'.addProduct tile.isInt (mmaProduct 8 8 (vElem 8 x (i / 16 * 16 + j)) (vElem 8 y (i % 16 * 16 + j)) 127 127)) (tget p i Partial.zero)) Partial.zero) tile.part,
      gk := tile.gk + 16 }, fNone) := by
    unfold mmaTile
    rw [if_neg (by omega)]
    dsimp only
    rw [if_neg (by omega)]
    rfl
  rw [hopen]
  dsimp only
  refine ⟨?_, by rw [hg], rfl⟩
  rw [h, tget_foldl_tset' tile.part (fun p i => (List.range 16).foldl (fun (x' : Partial) j =>
    x'.addProduct true (mmaProduct 8 8 (vElem 8 x (i / 16 * 16 + j)) (vElem 8 y (i % 16 * 16 + j)) 127 127)) (tget p i Partial.zero)) Partial.zero 256
    (fun t k i v hik => by rw [tget_tset_ne _ _ _ _ hik]) hi]
  simp only [int_product]
  exact foldl_addProduct _ (fun j => sxt 8 (vElem 8 x (i / 16 * 16 + j))) (fun j => sxt 8 (vElem 8 y (i % 16 * 16 + j))) 16

/-- Settles O21. -/
theorem matrixRows : Obligations.MatrixRows := by
  unfold Obligations.MatrixRows
  refine ⟨?_, ?_, ?_, ?_, ?_⟩
  · intro s t b j th k isInt x y z e1 e2 e3 h0 ha hb hp h1 h2 h3 h4 hsa hsb hs
    refine ⟨fun hi ht _ => ?_, fun hi => ?_⟩
    · refine congrArg Host.Outcome.next (hi.run (le_refl _) (le_refl _) ?_)
      have hslot : mtxSlot (atIssue s t b j th) b.mtx = mtxMma (atIssue s t b j th) b.mtx false := by
        unfold mtxSlot
        rw [hi.op_eq]
        rfl
      exact hslot.trans (mtxMma_ok h0 ha hb hp h1 h2 h3 h4 hsa hsb hs (.inr ht))
    · refine congrArg Host.Outcome.next (hi.run (le_refl _) (le_refl _) ?_)
      have hslot : mtxSlot (atIssue s t b j th) b.mtx = mtxMma (atIssue s t b j th) b.mtx true := by
        unfold mtxSlot
        rw [hi.op_eq]
        rfl
      exact hslot.trans (mtxMma_ok h0 ha hb hp h1 h2 h3 h4 hsa hsb hs (.inl rfl))
  · intro s t b j th hi h0 h1 hc
    have hslot : mtxSlot (atIssue s t b j th) b.mtx = mtxMzero (atIssue s t b j th) b.mtx := by
      unfold mtxSlot
      rw [hi.op_eq]
      rfl
    refine gives_next (congrArg Host.Outcome.next (hi.run (le_refl _) (le_refl _) (hslot.trans (mtxMzero_ok h0 h1 hc)))) ?_
    obtain ⟨g1, g2⟩ := acc_putTile (atIssue s t b j th) (mtxAcc b.mtx) { Tile.zero with isInt := decide (mtxFmtC b.mtx = 10) } fNone
    obtain ⟨-, hth, -⟩ := issuer_some hi.1.1
    exact ⟨g1, g2.trans (congrArg Thread.v hth), finishIssue_mem _⟩
  · intro s t b j th q x e1 hq hi h1 h2 h3 ha h4 h5
    have hslot : mtxSlot (atIssue s t b j th) b.mtx = mtxMwr (atIssue s t b j th) b.mtx q := by
      unfold mtxSlot
      rw [hi.op_eq]
      interval_cases q <;> rfl
    obtain ⟨es, part, gk, fl, hw⟩ := mtxMwr_ok (q := q) h1 h2 h3 ha h4 h5
    refine gives_next (congrArg Host.Outcome.next (hi.run (by omega) (by omega) (hslot.trans hw))) ?_
    have ht : e1.t = t := (readV_keeps h5).1
    subst ht
    rw [(acc_putTile _ _ _ _).1]
    refine ⟨rfl, fun i hi => ?_⟩
    dsimp only
    rw [entriesWith, tget_foldl_tset _ _ _ _ _ hi, BitVec.toNat_ofNat, Nat.mod_eq_of_lt (show vElem 0 x i < 2 ^ 32 from vElem_lt 0 x i)]
  · intro s t b j th q tile fl rs e' hq h1 h2 hd hf hc hrs
    refine ⟨fun hi hw => ?_, fun hi hw => ?_⟩
    · have hslot : mtxSlot (atIssue s t b j th) b.mtx = mtxMrd (atIssue s t b j th) b.mtx q false := by
        unfold mtxSlot
        rw [hi.op_eq]
        interval_cases q <;> rfl
      exact congrArg Host.Outcome.next (hi.run (by omega) (by omega) (hslot.trans (mtxMrd_ok h1 h2 hd hf hc hrs hw)))
    · have hslot : mtxSlot (atIssue s t b j th) b.mtx = mtxMrd (atIssue s t b j th) b.mtx q true := by
        unfold mtxSlot
        rw [hi.op_eq]
        interval_cases q <;> rfl
      exact congrArg Host.Outcome.next (hi.run (by omega) (by omega) (hslot.trans (mtxMrd_ok h1 h2 hd hf hc hrs hw)))
  · intro tile x y i h hg hi
    obtain ⟨g1, g2, g3⟩ := mmaTile_int8 x y h hg hi
    refine ⟨g1, g2, g3, fun entry p => ⟨fun h => ?_, fun h => ?_, fun h1 h2 => ?_⟩⟩
    · exact if_pos h
    · exact (if_neg (show ¬ entry.toInt + p.num < -2147483648 by omega)).trans (if_pos h)
    · exact (if_neg (Int.not_lt.2 h1)).trans (if_neg (Int.not_lt.2 h2))

end Sys2Proof.Claims
end

section
/-! PROOFS. Conversions, block scales, near-bank codes, random numbers and the flags (R121 to R127). -/
namespace Sys2Proof.Claims
open Sys2Proof.Machine

/-! ## Commands that stand for eight opcodes -/

/-- The command is the row of the vector opcodes from `lo` to `hi`. -/
def RunsVecIn (c : Tid → Bundle → Instr) (lo hi : Nat) : Prop := ∀ t b s, exec (c t b) s = .next (issueRow s t b 3 lo hi)

section
variable {s : State} {t : Tid} {b : Bundle} {j : Job} {th : Thread} {op : Nat} {sg : VecSig} {x y z v : VReg} {e e' : Ev}

theorem VecIssues.exec_range (h : VecIssues s t b j th op sg x y z e) (hsg : vecSig op = some sg) {c : Tid → Bundle → Instr} {lo hi : Nat}
    (hc : RunsVecIn c lo hi) (hlo : lo ≤ op) (hhi : op ≤ hi) (hw : vecWrite sg b.vec (vecCompute e b.vec x y z) = .ok e') :
    exec (c t b) s = .next (finishIssue e') := by
  have hs : evalSlot (atIssue s t b j th) b 3 = .ok e' := (h.slot hsg).trans hw
  obtain ⟨hi', ha, rfl, -⟩ := h
  rw [hc, issueRow_alone_of_mem hi' ha (by decide) hlo hhi hs]

/-- An operation with a vector destination that leaves its generator or flags too. -/
theorem VecIssues.exec_result (h : VecIssues s t b j th op sg x y z e) (hsg : vecSig op = some sg) {c : Tid → Bundle → Instr} {lo hi : Nat}
    (hc : RunsVecIn c lo hi) (hlo : lo ≤ op) (hhi : op ≤ hi) (hd : sg.d = 1) {f : Ev} {m : Mask} {fl : Flg}
    (hv : vecCompute e b.vec x y z = (f, v, m, fl)) (hw : writeV (raise f fl) (vecD b.vec) v = .ok e') : exec (c t b) s = .next (finishIssue e') :=
  h.exec_range hsg hc hlo hhi (by rw [hv, vecWrite, if_pos hd, hw])

end

/-! ## What each operation computes, by opcode -/

section
variable {e : Ev} {w : BitVec 48} {a b c : VReg}

/-- A conversion's result, with the generator that it leaves. -/
def convRes (e : Ev) (r : VReg × Flg × W32) : Ev × VReg × Mask × Flg := (putRng e r.2.2, r.1, 0, r.2.1)

theorem vecCompute_cvt {p : Nat} (hp : p < 8) (hop : fld w 0 8 = 0x60 + p) : vecCompute e w a b c =
    convRes e (convResult e w p a fun q _ rnd => convert (vecFmtD w) (decodeF (vecFmt w) q) (vecSat w) rnd) := by
  unfold vecCompute
  rw [hop]
  interval_cases p <;> rfl

theorem vecCompute_cvtsc {p : Nat} (hp : p < 8) (hop : fld w 0 8 = 0x68 + p) : vecCompute e w a b c =
    convRes e (convResult e w p a fun q pos rnd =>
      if fmtScalable (vecFmtD w) then toScaled (vecFmtD w) (decodeF (vecFmt w) q) (fld c (8 * (pos / 32)) 8) rnd
      else convert (vecFmtD w) (scaledValue (vecFmt w) (decodeF (vecFmt w) q) (fld c (8 * (pos / 32)) 8)) (vecSat w) rnd) := by
  unfold vecCompute
  rw [hop]
  interval_cases p <;> rfl

theorem vecCompute_nbq {p : Nat} (hp : p < 8) (hop : fld w 0 8 = 0x80 + p) : vecCompute e w a b c =
    convRes e (convResult e w p a fun q pos rnd => nbCode (vecFmtD w == 1) (decodeF (vecFmt w) q) (fld c (8 * (pos / 32)) 8) rnd) := by
  unfold vecCompute
  rw [hop]
  interval_cases p <;> rfl

theorem vecCompute_bscale {p : Nat} (hp : p < 8) (hop : fld w 0 8 = 0x70 + p) : vecCompute e w a b c =
    (e, bytesResult e w (p * (fmtN (vecFmt w) / 32)) ((List.range (fmtN (vecFmt w) / 32)).map fun k => blockScale (vecFmtD w) (blockValues e w a k)), 0, fNone) := by
  unfold vecCompute
  rw [hop]
  interval_cases p <;> rfl

theorem vecCompute_nbx {p : Nat} (hp : p < 8) (hop : fld w 0 8 = 0x78 + p) : vecCompute e w a b c =
    (e, bytesResult e w (p * (fmtN (vecFmt w) / 32)) (((List.range (fmtN (vecFmt w) / 32)).map fun k => nbExp (vecFmtD w == 1) (blockValues e w a k)).map (·.1)),
      0, orFlags (((List.range (fmtN (vecFmt w) / 32)).map fun k => nbExp (vecFmtD w == 1) (blockValues e w a k)).map (·.2))) := by
  unfold vecCompute
  rw [hop]
  interval_cases p <;> rfl

theorem vecCompute_rand (hop : fld w 0 8 = 0x90) : vecCompute e w a b c =
    (putRng e (drawsFor (fmtN (vecFmt w)) (activeAt e w) e.th0.rng).2,
      (ewResult e w fun i => arith 0 (.fin false (((drawsFor (fmtN (vecFmt w)) (activeAt e w) e.th0.rng).1.getD i 0).toNat / 256) (-24))).1, 0, fNone) := by
  unfold vecCompute
  rw [hop]
  rfl

theorem vecCompute_rdflags (hop : fld w 0 8 = 0x91) : vecCompute e w a b c = (e, headResult (vecFmt w) [e.th0.flags.toNat], 0, fNone) := by
  unfold vecCompute
  rw [hop]
  rfl

theorem vecCompute_clrflags (hop : fld w 0 8 = 0x92) : vecCompute e w a b c =
    ({ e with s := setThread e.s e.t { getThread e.s e.t with flags := 0 } }, 0, 0, fNone) := by
  unfold vecCompute
  rw [hop]
  rfl

end

/-! ## Draws -/

theorem drawsFor_none (n : Nat) (g : W32) : (drawsFor n (fun _ => false) g).1.length = n ∧ (drawsFor n (fun _ => false) g).2 = g := by
  unfold drawsFor
  induction n with
  | zero => exact ⟨rfl, rfl⟩
  | succ n ih =>
    obtain ⟨h1, h2⟩ := ih
    rw [List.range_succ, List.foldl_append]
    simp only [Bool.false_eq_true, if_false, List.foldl_cons, List.foldl_nil, List.length_append, List.length_singleton]
    exact ⟨by simpa using h1, by simpa using h2⟩

/-- Every element draws, in ascending order (R124). -/
theorem drawsFor_all (n : Nat) (g : W32) : drawsFor n (fun _ => true) g = ((List.range n).map fun i => drawAt (i + 1) g, drawAt n g) := by
  unfold drawsFor
  induction n with
  | zero => rfl
  | succ n ih =>
    rw [List.range_succ, List.foldl_append, ih, List.map_append]
    rfl

/-! ## Conversions between formats of one width -/

theorem zip_map_fst {β γ : Type} (n : Nat) (rs : List β) (h : rs.length = n) (F : Nat → γ) :
    ((List.range n).zip rs).map (fun p => F p.1) = (List.range n).map F := by
  rw [show (fun p : Nat × β => F p.1) = F ∘ Prod.fst from rfl, ← List.map_map, List.map_fst_zip (by simp [h])]

theorem zip_map_map {β γ : Type} (xs : List Nat) (G : Nat → β) (F : Nat × β → γ) : (xs.zip (xs.map G)).map F = xs.map fun i => F (i, G i) := by
  induction xs with
  | nil => rfl
  | cons x xs ih => simp [ih]

theorem vElem_zero (f i : Nat) : vElem f 0 i = 0 := by
  have h0 : (0 : VReg).toNat = 0 := BitVec.toNat_zero
  rw [vElem_eq, h0, Nat.zero_div, Nat.zero_mod]

theorem triple_congr {α β γ : Type} {a a' : α} {b b' : β} {c : γ} (ha : a = a') (hb : b = b') : (a, b, c) = (a', b', c) := by rw [ha, hb]

theorem convResult_sameWidth (e : Ev) {w : BitVec 48} (a : VReg) (conv : Nat → Nat → Option Nat → Nat × Flg) (h : fmtN (vecFmt w) = fmtN (vecFmtD w))
    (hr : vecRnd w = 0) : convResult e w 0 a conv =
      (packV (vecFmtD w) ((List.range (fmtN (vecFmtD w))).map fun i =>
          if activeAt e w i then (conv (vElem (vecFmt w) a i) i none).1 else vElem (vecFmtD w) (oldV e (vecD w)) i),
        condsOf e w (fun i => (conv (vElem (vecFmt w) a i) i none).2), e.th0.rng) := by
  obtain ⟨hlen, hlast⟩ := drawsFor_none (fmtN (vecFmtD w)) e.th0.rng
  unfold convResult
  simp only [h, hr, min_self, lt_irrefl, decide_false, Bool.not_false, Bool.true_or, Bool.true_and, zero_ne_one, Bool.false_and, Bool.false_eq_true, if_false,
    Nat.zero_mul, Nat.zero_add]
  rw [hlast, zip_map_fst _ _ hlen (fun i => if activeAt e w i then conv (vElem (vecFmt w) a i) i none else (vElem (vecFmtD w) (oldV e (vecD w)) i, fNone)),
    zip_map_map]
  by_cases hq : vecD w < 32
  · simp only [if_pos hq, List.map_map]
    refine triple_congr (congrArg _ (List.map_congr_left fun i _ => ?_)) (congrArg orFlags (List.map_congr_left fun i _ => ?_))
    · exact apply_ite Prod.fst _ _ _
    · exact apply_ite Prod.snd _ _ _
  · have hold : oldV e (vecD w) = 0 := if_neg hq
    simp only [if_neg hq, hold, vElem_zero, List.map_map]
    refine triple_congr (congrArg _ (List.map_congr_left fun i _ => ?_)) (congrArg orFlags (List.map_congr_left fun i _ => ?_))
    · by_cases ha : activeAt e w i = true <;> simp [ha]
    · by_cases ha : activeAt e w i = true <;> simp [ha]

/-- Bytes at their places of a destination, from byte `k` up. -/
theorem bytesResult_eq {e : Ev} {w : BitVec 48} {k n : Nat} {g : Nat → Nat} {v : VReg}
    (h : ∀ i, i < 256 → vElem 8 v i = if k ≤ i ∧ i < k + n then g (i - k) else vElem 8 (oldV e (vecD w)) i) :
    bytesResult e w k ((List.range n).map g) = v := by
  have hf : Fills 8 := rfl
  refine hf.vReg_ext fun i hi => ?_
  unfold bytesResult
  rw [hf.vElem_packV _ hi, h i hi]
  have hi : i < 256 := hi
  have hlt : vElem 8 v i < 2 ^ fmtBits 8 := vElem_lt 8 v i
  rw [h i hi] at hlt
  have hget : ((List.range 256).map fun i => if k ≤ i ∧ i < k + ((List.range n).map g).length then ((List.range n).map g).getD (i - k) 0
      else vElem 8 (oldV e (vecD w)) i).getD i 0 = if k ≤ i ∧ i < k + n then g (i - k) else vElem 8 (oldV e (vecD w)) i := by
    rw [List.length_map, List.length_range]
    by_cases hc : k ≤ i ∧ i < k + n
    · have hik : i - k < n := by omega
      simp [hi, hc, hik]
    · simp [hi, hc]
  rw [hget, Nat.mod_eq_of_lt hlt]

/-- RAND of all 64 elements (R124). -/
theorem rand_result {e : Ev} {w : BitVec 48} {v : VReg} (hf : vecFmt w = 0) (hd : vecFmtD w = 0) (hm : vecMaskEn w = false)
    (hv : ∀ i, i < 64 → vElem 0 v i = (arith 0 (.fin false ((drawAt (i + 1) e.th0.rng).toNat / 256) (-24))).1) :
    (ewResult e w fun i => arith 0 (.fin false (((drawsFor (fmtN (vecFmt w)) (activeAt e w) e.th0.rng).1.getD i 0).toNat / 256) (-24))).1 = v ∧
    (drawsFor (fmtN (vecFmt w)) (activeAt e w) e.th0.rng).2 = drawAt 64 e.th0.rng := by
  have hact : activeAt e w = fun _ => true := funext fun i => by unfold activeAt; rw [hm]; rfl
  have h0 : Fills 0 := rfl
  rw [hf, hact, show fmtN 0 = 64 from rfl, drawsFor_all]
  refine ⟨h0.vReg_ext fun i hi => ?_, rfl⟩
  have hi : i < 64 := hi
  rw [ewResult_eq, hd, hact, h0.vElem_packV _ hi, hv i hi]
  have hlt : (arith 0 (.fin false ((drawAt (i + 1) e.th0.rng).toNat / 256) (-24))).1 < 2 ^ fmtBits 0 := hv i hi ▸ vElem_lt 0 v i
  simp only [if_true]
  rw [show fmtN 0 = 64 from rfl]
  simp only [List.getD_eq_getElem?_getD, List.getElem?_map, List.getElem?_range hi, Option.map_some, Option.getD_some]
  exact Nat.mod_eq_of_lt hlt

/-- A thread whose flags are cleared in a bundle that raises none has none at its end. -/
theorem flags_cleared {s : State} {t : Tid} {th : Thread} {f : Ev} (hs : f.s = setThread s t { th with flags := 0 }) (ht : f.t = t) (hf : f.flags = 0) :
    (getThread (finishIssue f) t).flags = 0 ∧ (getThread (finishIssue f) t).v = th.v ∧ (finishIssue f).mem = s.mem := by
  have hg : getThread f.s f.t = { th with flags := 0 } := by rw [hs, ht]; exact getThread_setThread _ _ _
  have h1 := getThread_finishIssue_flags f
  have h2 := getThread_finishIssue_v f
  rw [hg, hf, ht] at h1
  rw [hg, ht] at h2
  exact ⟨h1.trans (by decide : (0 : Flg) ||| 0 = 0), h2, (finishIssue_mem f).trans (by rw [hs]; rfl)⟩

/-- Settles O24. -/
theorem conversionRows : Obligations.ConversionRows := by
  unfold Obligations.ConversionRows
  refine ⟨?_, ?_, ?_, ?_, ?_, ?_⟩
  · intro s t b j th x y z v e e' h hn hr hv hw hth
    have hcomp := (vecCompute_cvt (p := 0) (e := e) (w := b.vec) (a := x) (b := y) (c := z) (by decide) h.op_eq).trans
      (congrArg (convRes e) (convResult_sameWidth e x _ hn hr))
    rw [← hv.eq_packV, hth] at hcomp
    exact h.exec_result rfl (fun _ _ _ => rfl) (le_refl _) (by decide) rfl hcomp hw
  · intro s t b j th x y z v fl g p e e' hp hw
    refine ⟨fun h hr => ?_, fun h hr => ?_, fun h hr => ?_⟩
    · exact h.exec_result (by interval_cases p <;> rfl) (fun _ _ _ => rfl) (Nat.le_add_right _ _) (by omega) rfl
        ((vecCompute_cvt hp h.op_eq).trans (congrArg (convRes e) hr)) hw
    · exact h.exec_result (by interval_cases p <;> rfl) (fun _ _ _ => rfl) (Nat.le_add_right _ _) (by omega) rfl
        ((vecCompute_cvtsc hp h.op_eq).trans (congrArg (convRes e) hr)) hw
    · exact h.exec_result (by interval_cases p <;> rfl) (fun _ _ _ => rfl) (Nat.le_add_right _ _) (by omega) rfl
        ((vecCompute_nbq hp h.op_eq).trans (congrArg (convRes e) hr)) hw
  · intro s t b j th x y z v p e e' hp
    refine ⟨fun h hv hw => ?_, fun h hv hw => ?_⟩
    · refine h.exec_result (by interval_cases p <;> rfl) (fun _ _ _ => rfl) (Nat.le_add_right _ _) (by omega) rfl (vecCompute_bscale hp h.op_eq) ?_
      rw [bytesResult_eq hv]
      exact hw
    · refine h.exec_result (by interval_cases p <;> rfl) (fun _ _ _ => rfl) (Nat.le_add_right _ _) (by omega) rfl (vecCompute_nbx hp h.op_eq) ?_
      rw [List.map_map, List.map_map, bytesResult_eq (g := Prod.fst ∘ fun k => nbExp (vecFmtD b.vec == 1) (blockValues e b.vec x k)) hv]
      exact hw
  · intro s t b j th x y z v e e' h hm hth hv hw
    obtain ⟨hfd, hacc⟩ := formats_of_vecCheck (by rw [h.op_eq]; rfl) h.check
    rw [h.op_eq] at hacc
    have hf : vecFmt b.vec = 0 := by simpa [fmtAccepted] using hacc
    subst hth
    obtain ⟨g1, g2⟩ := rand_result hf (hfd.trans hf) hm hv
    refine h.exec_result rfl (fun _ _ _ => rfl) (le_refl _) (le_refl _) rfl (vecCompute_rand h.op_eq) ?_
    rw [g1, g2]
    exact hw
  · intro s t b j th x y z v e e' h hv hth hw
    obtain ⟨-, hacc⟩ := formats_of_vecCheck (by rw [h.op_eq]; rfl) h.check
    rw [h.op_eq] at hacc
    have hf : vecFmt b.vec = 10 := by simpa [fmtAccepted] using hacc
    refine h.exec_result rfl (fun _ _ _ => rfl) (le_refl _) (le_refl _) rfl (vecCompute_rdflags h.op_eq) ?_
    rw [hf, hth, ← Head.eq_headResult (show Fills 10 from rfl) hv]
    exact hw
  · intro s t b j th x y z e h
    have hcomp := vecCompute_clrflags (e := e) (a := x) (b := y) (c := z) h.op_eq
    obtain ⟨ht, -⟩ := h.keeps
    have he : e = atIssue s t b j th := by
      obtain ⟨-, -, -, -, -, -, -, -, e1, e2, h1, h2, h3⟩ := h
      exact h3.2.trans (h2.2.trans h1.2)
    subst he
    refine gives_next (h.exec_range rfl (fun _ _ _ => rfl) (le_refl _) (le_refl _) (by rw [hcomp]; rfl)) ?_
    obtain ⟨-, hth', -⟩ := issuer_some h.1.1
    exact flags_cleared (by rw [← hth']; rfl) rfl (by decide : (0 : Flg) ||| fNone = 0)

end Sys2Proof.Claims
end


section
/-! PROOFS. What refutes the statements on stack controllers' events and on ends of recoveries: numbers that no bound keeps from another block's registers. -/
namespace Sys2Proof.Claims
open Sys2Proof.Machine

/-- A state in which the error log's write index is `i`. -/
def logAt (i : Nat) : State := wr State.reset ERRLOG_WPTR (BitVec.ofNat 32 i)

/-- The number for which a port's link register is the error log's write index. -/
theorem link_is_wptr : FAB_PORT_LINK 1536 = ERRLOG_WPTR := rfl

/-- A state whose running recovery is that of port 1,536, with the log at entry 2,047. -/
def farPort : State := { logAt 0x7FF with faults := { State.reset.faults with running := [(4, 1537)] } }

/-- Refutes O32: the statement bounds no port number. The link register of port 1,536 would be the error log's write index, which the entry of the recovery's
end moves on from 2,047 to 2,048, clearing its bit 10. -/
theorem not_recoveryRows : ¬ Obligations.RecoveryRows := by
  unfold Obligations.RecoveryRows
  rintro ⟨h, -⟩
  obtain ⟨u, hu, -, hrf, -⟩ := h farPort 1536 rfl rfl
  have hend : endRecovery (wf farPort ERRLOG_WPTR 10 1 1) (4, 1536) = u := Host.Outcome.next.inj hu
  rw [link_is_wptr, ← hend] at hrf
  exact absurd hrf (by decide +kernel)

/-- The number for which a stack's status register is the error log's write index. -/
theorem status_is_wptr : STK_STATUS (65536 / 2048) = ERRLOG_WPTR := rfl

/-- A state in which row 0 of bank 65,536, whose spare rows are used up, is due for repair, with the log at entry 63. -/
def farBank : State :=
  { logAt 0x3F with mem := { State.reset.mem with remaps := [(65536, List.range 32)], repairDue := [65536 * 24576 + 0] } }

/-- Refutes O30: the statement bounds no bank number. The status register of the stack of bank 65,536 would be the error log's write index, which the entry of
the repair moves on from 127 to 128, clearing its bit 6. -/
theorem not_stackRows : ¬ Obligations.StackRows := by
  unfold Obligations.StackRows
  rintro ⟨-, -, -, -, -, -, h, -⟩
  obtain ⟨u, hu, -, hrf, -⟩ := h farBank 65536 0 (by decide +kernel) (by decide) (by decide +kernel) (by decide +kernel)
  have hend : repairRow farBank 65536 0 = u := Host.Outcome.next.inj hu
  rw [status_is_wptr, ← hend] at hrf
  exact absurd hrf (by decide +kernel)

end Sys2Proof.Claims
end

section
/-! PROOFS. What refutes the statements on queue commands and on session commands: a QUEUE_CREATE that waits for the pair a QUEUE_DELETE removes, and a
record in the session table whose token count a request carries beyond its field. -/
namespace Sys2Proof.Claims
open Sys2Proof.Machine

/-- The next state that a command answers, or the state it met. -/
def nextOf (c : Instr) (s : State) : State := match exec c s with | .next t => t | _ => s

theorem Gives.nextOf {c : Instr} {s : State} {P : State → Prop} (h : Gives c s P) : P (nextOf c s) := by
  obtain ⟨t, ht, hP⟩ := h
  rwa [Claims.nextOf, ht]

/-- A packet of opcode `op`, tag 1, and further fields. -/
def packetOf (op : Nat) (fs : List (Nat × Nat × Nat)) : Line := pack 512 ([(0, 16, op), (32, 32, 1)] ++ fs)

/-- A command of the admin queue. -/
def adminCmd (id : Nat) (p : Line) (begun : Bool) : Cmd :=
  { id := id, queue := 0, pkt := p, ext := [], extStatus := 0, src := none, begun := begun, at_ := 0, count := 0, status := 0, detail := 0 }

/-- The device READY, with its admin queue, queue pair 1, and commands in progress. -/
def readyWith (cs : List Cmd) : State :=
  let s := setDevState State.reset 2
  { s with host := { s.host with
      linkUp := true
      qps := [(0, { QueuePair.zero with defined := true, admin := true }), (1, { QueuePair.zero with defined := true })]
      cmds := cs } }

/-- QUEUE_DELETE of pair 1. -/
def deleteCmd : Cmd := adminCmd 0 (packetOf 0x0003 [(128, 8, 1)]) false

/-- Queue pair 1 is to be deleted, and a QUEUE_CREATE that has begun waits to define it. -/
def deletedAndWaited : State := readyWith [deleteCmd, adminCmd 1 (packetOf 0x0002 [(128, 8, 1)]) true]

/-- Refutes O42: once QUEUE_DELETE has removed pair 1, the QUEUE_CREATE that waits for it defines it anew, so the pair is not blank in the next state. -/
theorem not_queueCommandRows : ¬ Obligations.QueueCommandRows := by
  unfold Obligations.QueueCommandRows
  rintro ⟨-, -, -, -, h, -⟩
  obtain ⟨hq, -⟩ := (h deletedAndWaited 0 deleteCmd
    ⟨by decide +kernel, by decide +kernel, rfl, rfl, by decide +kernel⟩ (by unfold Plain; decide +kernel)
    ⟨by decide +kernel, by decide +kernel, by decide +kernel, by decide +kernel, by decide +kernel⟩).nextOf
  exact absurd hq (by decide +kernel)

/-- A structure in the host window is read from host memory, which leaves the state as it is. -/
theorem structRead_window {s : State} {c : Cmd} {a : W64} {n : Nat} (h : localRange s (offOf a) n = .window) :
    structRead s c a n = ((hostRead s (offOf a - 0x80000000000) n).1, (hostRead s (offOf a - 0x80000000000) n).2, s) := by
  simp only [structRead, localRead, h]

/-- REQUEST_SUBMIT of one token, which it reads from the host window. -/
def submitCmd : Cmd :=
  adminCmd 0 (packetOf 0x0400 [(160, 32, 1), (336, 16, 1), (384, 32, 1), (448, 64, 0x80000000000)]) false

/-- A session of client, partition, handle and model 0 with a chunk for its transcript. -/
def emptySession : Session := { Session.zero with proj := stOpen, table := some 0, chunks := [0] }

/-- Model 0 is READY and partition 0 has its ring; the record of session 0 is not in the cache, and the session table's lines for it say 2^32 − 1 tokens. -/
def longRecord : State :=
  let s := readyWith [submitCmd]
  let n := recOff s 0 / 64
  let line (v : Line) : CacheLine := { CacheLine.zero with data := v, valid := 3 }
  { s with
    mem := { s.mem with lines := [(n, line (pack 512 [(96, 32, 2 ^ 32 - 1)])), (n + 1, line 0)] }
    se := { s.se with
      sessions := [(0, emptySession)]
      models := [(0, { record := pack 1024 [(12, 2, 2)], groups := [], digest := 0, pkgAddr := 0, pkgBytes := 0, unloadCmd := none, unloadParts := [], repairing := none })]
      rings := [(0, { base := 0, log2 := 12, tail := 0, msix := 0 })] } }

/-- The record that the cache fetches of session 0. -/
def fetchedSession : Session := (getSess (cacheIn (begun longRecord 0) 0) 0).getD Session.zero

theorem getSess_fetched : getSess (cacheIn (begun longRecord 0) 0) 0 = some fetchedSession := by decide +kernel

theorem submit_fetched : Fetched longRecord 0 submitCmd (addrAt submitCmd 56) (4 * pk submitCmd.pkt 48 4) [0, 0, 0, 0] (begun longRecord 0) := by
  have hr : localRange (begun longRecord 0) (offOf (addrAt submitCmd 56)) (4 * pk submitCmd.pkt 48 4) = .window := by decide +kernel
  have hb : hostRead (begun longRecord 0) (offOf (addrAt submitCmd 56) - 0x80000000000) (4 * pk submitCmd.pkt 48 4) = (stOk, [0, 0, 0, 0]) := by decide +kernel
  exact ⟨by decide +kernel, by rw [structRead_window hr, hb], by unfold Plain; decide +kernel⟩

/-- Refutes O47: the statement bounds the tokens of the session as it stands, not of the record that the cache fetches of it. With 2^32 − 1 tokens there, the
request's one token leaves a count of 0. -/
theorem not_sessionRows : ¬ Obligations.SessionRows := by
  unfold Obligations.SessionRows
  rintro ⟨-, -, -, -, -, -, -, -, -, -, -, -, -, -, -, -, -, h⟩
  obtain ⟨y, hy, -, -, -, hlen, -⟩ := (h longRecord 0 submitCmd 0 emptySession fetchedSession [0, 0, 0, 0] (begun longRecord 0)
    ⟨by decide +kernel, by decide +kernel, rfl, rfl, by decide +kernel⟩ (by unfold Plain; decide +kernel)
    ⟨by decide +kernel, by decide +kernel, by decide +kernel, by decide +kernel, by decide +kernel, by decide +kernel⟩
    (by decide +kernel) (by decide +kernel) rfl (by decide +kernel) (by decide +kernel) (by decide +kernel) (by decide +kernel) (by decide +kernel)
    (by decide +kernel) (by decide +kernel) (by decide +kernel) (fun _ => submit_fetched) (fun _ => rfl) getSess_fetched).nextOf
  have hzero : (getSess (nextOf (.requestSubmit 0) longRecord) 0).map (srLen ·.record) = some 0 := by decide +kernel
  rw [hy, Option.map_some, Option.some.injEq, hlen] at hzero
  exact absurd hzero (by decide +kernel)

end Sys2Proof.Claims
end

section
/-! PROOFS. What the Level's receiving side does: the flows' store, the tallies of a port, and the cases of a DATA packet's reception. -/
namespace Sys2Proof.Claims
open Sys2Proof.Machine

/-! ## Flows -/

theorem isFlow_iff {peer cls : Nat} {f : Flow} : isFlow peer cls f = true ↔ f.peer = peer ∧ f.cls = cls := by
  simp [isFlow]

theorem getFlow_isFlow (s : State) (peer cls : Nat) : isFlow peer cls (getFlow s peer cls) = true := by
  unfold getFlow
  cases h : s.fab.flows.find? (isFlow peer cls) with
  | none => exact isFlow_iff.2 ⟨rfl, rfl⟩
  | some f => exact List.find?_some h

@[simp] theorem getFlow_peer (s : State) (peer cls : Nat) : (getFlow s peer cls).peer = peer := (isFlow_iff.1 (getFlow_isFlow s peer cls)).1
@[simp] theorem getFlow_cls (s : State) (peer cls : Nat) : (getFlow s peer cls).cls = cls := (isFlow_iff.1 (getFlow_isFlow s peer cls)).2

theorem getFlow_congr {s t : State} (h : t.fab.flows = s.fab.flows) (peer cls : Nat) : getFlow t peer cls = getFlow s peer cls := by
  unfold getFlow; rw [h]

/-- In a list in which some element meets a predicate that the new element meets too, the first that meets it is the new one once it has taken their place. -/
theorem find?_mapIf_const {α : Type} {p : α → Bool} {a : α} (ha : p a = true) {xs : List α} (h : xs.any p = true) :
    (mapIf p (fun _ => a) xs).find? p = some a := by
  induction xs with
  | nil => cases h
  | cons x xs ih =>
    unfold mapIf at ih ⊢
    by_cases hx : p x = true
    · simp [hx, ha]
    · rw [List.any_cons, Bool.or_eq_true] at h
      simp [hx, ih (h.resolve_left hx)]

theorem find?_mapIf_other {α : Type} {p q : α → Bool} {a : α} (hq : ∀ x, p x = true → q x = false) (ha : q a = false) (xs : List α) :
    (mapIf p (fun _ => a) xs).find? q = xs.find? q := by
  induction xs with
  | nil => rfl
  | cons x xs ih =>
    unfold mapIf at ih ⊢
    by_cases hx : p x = true
    · simp [hx, ha, hq x hx, ih]
    · simp [hx, List.find?_cons, ih]

theorem getFlow_setFlow (s : State) (f : Flow) {peer cls : Nat} (hp : f.peer = peer) (hc : f.cls = cls) : getFlow (setFlow s f) peer cls = f := by
  subst hp hc
  have hf : isFlow f.peer f.cls f = true := isFlow_iff.2 ⟨rfl, rfl⟩
  unfold getFlow setFlow
  dsimp only
  split
  · next h => rw [find?_mapIf_const hf h, Option.getD_some]
  · next h =>
    rw [List.find?_append, List.find?_eq_none.2 (by simpa [List.any_eq_true] using h)]
    simp [hf]

theorem getFlow_setFlow_ne (s : State) (f : Flow) {peer cls : Nat} (h : ¬(f.peer = peer ∧ f.cls = cls)) : getFlow (setFlow s f) peer cls = getFlow s peer cls := by
  have hf : isFlow peer cls f = false := by simpa [← isFlow_iff] using h
  have hq : ∀ x, isFlow f.peer f.cls x = true → isFlow peer cls x = false := by
    intro x hx
    obtain ⟨hxp, hxc⟩ := isFlow_iff.1 hx
    simpa [isFlow, hxp, hxc] using hf
  unfold getFlow setFlow
  dsimp only
  split
  · rw [find?_mapIf_other hq hf]
  · rw [List.find?_append]; simp [hf]

/-- A flow that a state holds stands under its own name after any change that leaves its name. -/
@[simp] theorem getFlow_setFlow_getFlow (s : State) (peer cls : Nat) (f : Flow) (hp : f.peer = peer := by simp) (hc : f.cls = cls := by simp) :
    getFlow (setFlow s f) peer cls = f := getFlow_setFlow s f hp hc

@[simp] theorem setFlow_bar (s : State) (f : Flow) : (setFlow s f).bar = s.bar := rfl
@[simp] theorem setFlow_peers (s : State) (f : Flow) : (setFlow s f).fab.peers = s.fab.peers := rfl
@[simp] theorem setFlow_tx (s : State) (f : Flow) : (setFlow s f).fab.tx = s.fab.tx := rfl

/-! ## The tallies of a port -/

/-- The tally status of a port stands at byte 0x60 of a block of 4 KiB, where no register of a node, a link, the twin or the device stands. -/
theorem tallyStatus_mod (k : Nat) : FAB_PORT_TALLY_STATUS k % 0x1000 = 0x60 := by
  unfold FAB_PORT_TALLY_STATUS
  split <;> omega

theorem rd_portTally {s : State} {off : Nat} (k i n : Nat) (h : off % 0x1000 ≠ 0x60) : rd (portTally s k i n) off = rd s off :=
  rd_bump_ne s _ _ fun e => h (e ▸ tallyStatus_mod k)

theorem rd_counted {s : State} {off : Nat} (f : Frame) (h : off % 0x1000 ≠ 0x60) : rd (counted s f) off = rd s off := by
  unfold counted
  dsimp only
  split
  · rw [rd_portTally _ _ _ h, rd_portTally _ _ _ h]
  · exact rd_portTally _ _ _ h

theorem counted_within (s : State) (f : Frame) : Within [.bar] s (counted s f) := by
  unfold counted
  exact portTally_within.iteThen portTally_within

theorem counted_fab (s : State) (f : Frame) : (counted s f).fab = s.fab := (counted_within s f).same .fab (by decide)


theorem rf_counted {s : State} {off : Nat} (f : Frame) (lo n : Nat) (h : off % 0x1000 ≠ 0x60) : rf (counted s f) off lo n = rf s off lo n := by
  unfold rf; rw [rd_counted f h]

@[simp] theorem epoch_counted (s : State) (f : Frame) : epoch (counted s f) = epoch s := by
  unfold epoch; rw [rf_counted f 16 16 (by decide)]

@[simp] theorem getFlow_counted (s : State) (f : Frame) (peer cls : Nat) : getFlow (counted s f) peer cls = getFlow s peer cls :=
  getFlow_congr (by rw [counted_fab]) peer cls

theorem peerOf_counted (s : State) (f : Frame) (n : Nat) : peerOf (counted s f) n = peerOf s n := by
  unfold peerOf; rw [counted_fab]

@[simp] theorem knownPeer_counted (s : State) (f : Frame) (n : Nat) : knownPeer (counted s f) n = knownPeer s n := by
  unfold knownPeer twinNode; rw [peerOf_counted, rf_counted f 16 16 (by decide)]

/-! ## A DATA packet's reception, case by case (R317, R323 to R325, R330, R449) -/

section
variable {s : State} {f : Frame} {perform : State → Nat → State}

theorem rxData_down (h : rxUp s f = false) : rxData s f perform = s := by
  simp [rxData, h]

theorem rxData_dropped {n : Nat} (h : rxUp s f = true) (hd : tget s.fab.dropNext f.port 0 = n + 1) :
    rxData s f perform = { s with fab := { s.fab with dropNext := tset s.fab.dropNext f.port n 0 } } := by
  simp [rxData, h, hd]

theorem rxData_full (h : rxUp s f = true) (hd : tget s.fab.dropNext f.port 0 = 0) (hb : 4194304 < rxBuffered s f.port + 64 + f.payload.length) :
    rxData s f perform = portTally s f.port 5 1 := by
  simp [rxData, h, hd, hb]

/-- What is decided of a packet that is received, once it is counted. -/
theorem rxData_received (h : Received s f) : rxData s f perform =
    if !knownPeer (counted s f) f.src then portTally (counted s f) f.port 8 1
    else
      let fl := getFlow (counted s f) f.src f.cls
      let pair := (f.srcEpoch, f.incarn)
      let held := decide (fl.rxPair = some pair)
      if !f.syn && (!held || (decide (f.dstEpoch ≠ 0) && decide (f.dstEpoch ≠ epoch (counted s f)))) then
        sendControl (counted s f) f.src f.cls 0 (fun w => .reset w (txHeader (counted s f) { fl with peerEpoch := f.srcEpoch } f.incarn))
      else
        let fl := if held then fl else rxFresh fl pair
        let fl := { fl with peerEpoch := f.srcEpoch, rxCount := fl.rxCount + 1, rxEce := fl.rxEce + b2n f.ce }
        match (if held && f.syn then none else psnNear fl.rxRcv f.psn) with
        | none => setFlow (counted s f) { fl with ackDue := true }
        | some p =>
          if p < fl.rxRcv ∨ p ∈ fl.rxHave then setFlow (counted s f) { fl with ackDue := true }
          else if fl.rxRcv + 2048 ≤ p then setFlow (counted s f) fl
          else perform (setFlow (counted s f) { rxTake fl p with ackDue := true }) p := by
  obtain ⟨hu, hd, hb⟩ := h
  unfold rxData
  rw [if_neg (by simp [hu]), if_neg (by simp [hd]), if_neg (by omega)]
  rfl

theorem rxData_unknown (h : Received s f) (hk : knownPeer s f.src = false) : rxData s f perform = portTally (counted s f) f.port 8 1 := by
  rw [rxData_received h, if_pos (by simp [hk])]

theorem rxData_outside (h : Received s f) (hk : knownPeer s f.src = true) (ho : ¬InFlow s f) : rxData s f perform =
    sendControl (counted s f) f.src f.cls 0 (fun w => .reset w (txHeader (counted s f) { getFlow s f.src f.cls with peerEpoch := f.srcEpoch } f.incarn)) := by
  rw [rxData_received h, if_neg (by simp [hk])]
  unfold InFlow at ho
  simp only [getFlow_counted, epoch_counted]
  rw [if_pos]
  grind

/-- A packet of the flow: its place decides. -/
theorem rxData_inFlow (h : Received s f) (hk : knownPeer s f.src = true) (hi : InFlow s f) : rxData s f perform =
    match placeOf s f with
    | none => setFlow (counted s f) { rxFlow s f with ackDue := true }
    | some p =>
      if p < (rxFlow s f).rxRcv ∨ p ∈ (rxFlow s f).rxHave then setFlow (counted s f) { rxFlow s f with ackDue := true }
      else if (rxFlow s f).rxRcv + 2048 ≤ p then setFlow (counted s f) (rxFlow s f)
      else perform (setFlow (counted s f) { rxTake (rxFlow s f) p with ackDue := true }) p := by
  rw [rxData_received h, if_neg (by simp [hk])]
  unfold InFlow at hi
  simp only [getFlow_counted, epoch_counted]
  rw [if_neg (by grind)]
  unfold placeOf rxFlow
  simp only [decide_eq_true_eq, Bool.and_eq_true]

theorem rxData_duplicate (h : Received s f) (hk : knownPeer s f.src = true) (hi : InFlow s f)
    (hd : placeOf s f = none ∨ psnOf s f < (rxFlow s f).rxRcv ∨ psnOf s f ∈ (rxFlow s f).rxHave) :
    rxData s f perform = setFlow (counted s f) { rxFlow s f with ackDue := true } := by
  rw [rxData_inFlow h hk hi]
  cases hp : placeOf s f with
  | none => rfl
  | some p =>
    have hpsn : psnOf s f = p := by simp [psnOf, hp]
    rw [hpsn, hp] at hd
    exact if_pos (hd.resolve_left nofun)

theorem rxData_beyond (h : Received s f) (hk : knownPeer s f.src = true) (hi : InFlow s f) (hp : placeOf s f = some (psnOf s f))
    (hw : (rxFlow s f).rxRcv + 2048 ≤ psnOf s f) (hn : psnOf s f ∉ (rxFlow s f).rxHave) : rxData s f perform = setFlow (counted s f) (rxFlow s f) := by
  rw [rxData_inFlow h hk hi, hp]
  exact (if_neg (fun hc => hc.elim (by omega) hn)).trans (if_pos hw)

theorem rxData_accepted (h : Accepted s f) : rxData s f perform = perform (arrived s f) (psnOf s f) := by
  obtain ⟨hr, hk, hi, hp, hlo, hhi, hn⟩ := h
  rw [rxData_inFlow hr hk hi, hp]
  exact (if_neg (fun hc => hc.elim (by omega) hn)).trans (if_neg (by omega))

end

/-- A packet of a kind's own row is a DATA packet whose request is performed or held. -/
theorem rxKind_kind {s : State} {f : Frame} {k : Byte} (h : f.op.kind = k) : rxKind s f k = rxData s f (fun s p => rxRequest s f p) := if_pos h

theorem exec_getResp {f : Frame} (h : f.op.kind = 0x81) (s : State) :
    exec (.getResp f) s = .next (rxData s f (fun s p => rxReply s f p 5 stOk 0 f.payload 0)) := congrArg Host.Outcome.next (if_pos h)
theorem exec_atomicResp {f : Frame} (h : f.op.kind = 0x82) (s : State) :
    exec (.atomicResp f) s = .next (rxData s f (fun s p => rxReply s f p 6 stOk 0 [] f.op.operand)) := congrArg Host.Outcome.next (if_pos h)
theorem exec_commandReply {f : Frame} (h : f.op.kind = 0x83) (s : State) :
    exec (.commandReply f) s = .next (rxData s f (fun s p => rxReply s f p 7 stOk 0 f.payload 0)) := congrArg Host.Outcome.next (if_pos h)
theorem exec_errorResp {f : Frame} (h : f.op.kind = 0x84) (s : State) :
    exec (.errorResp f) s = .next (rxData s f (fun s p => rxReply s f p 0 f.op.status (BitVec.ofNat 32 f.op.len) [] 0)) := congrArg Host.Outcome.next (if_pos h)

theorem exec_reservedKind {f : Frame} (h : ¬((1 ≤ f.op.kind.toNat ∧ f.op.kind.toNat ≤ 7) ∨ (0x81 ≤ f.op.kind.toNat ∧ f.op.kind.toNat ≤ 0x84))) (s : State) :
    exec (.reservedKindPacket f) s = .next (rxData s f (fun s p => rxRequest s f p)) := if_neg h

/-- A row for a request, or for a reserved kind, treats a packet of its kind as a request; the others are the rows of the responses. -/
theorem DataRow.cases {r : Frame → Instr} {ks : List Byte} (h : DataRow r ks) {f : Frame} (hk : f.op.kind ∈ ks) :
    (f.op.kind ∉ ([0x81, 0x82, 0x83, 0x84] : List Byte) ∧ ∀ s, exec (r f) s = .next (rxData s f (fun s p => rxRequest s f p))) ∨
      (r = Instr.getResp ∧ f.op.kind = 0x81) ∨ (r = Instr.atomicResp ∧ f.op.kind = 0x82) ∨ (r = Instr.commandReply ∧ f.op.kind = 0x83) ∨
      (r = Instr.errorResp ∧ f.op.kind = 0x84) := by
  have asked {r : Frame → Instr} {k : Byte} (hk : f.op.kind ∈ [k]) (hn : k ∉ ([0x81, 0x82, 0x83, 0x84] : List Byte))
      (hr : ∀ s, exec (r f) s = .next (rxKind s f k)) :
      f.op.kind ∉ ([0x81, 0x82, 0x83, 0x84] : List Byte) ∧ ∀ s, exec (r f) s = .next (rxData s f (fun s p => rxRequest s f p)) := by
    have hkind := List.mem_singleton.1 hk
    exact ⟨hkind ▸ hn, fun s => by rw [hr s, rxKind_kind hkind]⟩
  unfold DataRow at h
  simp only [List.mem_cons, Prod.mk.injEq, List.not_mem_nil, or_false] at h
  rcases h with ⟨rfl, rfl⟩ | ⟨rfl, rfl⟩ | ⟨rfl, rfl⟩ | ⟨rfl, rfl⟩ | ⟨rfl, rfl⟩ | ⟨rfl, rfl⟩ | ⟨rfl, rfl⟩ | ⟨rfl, rfl⟩ | ⟨rfl, rfl⟩ | ⟨rfl, rfl⟩ | ⟨rfl, rfl⟩ |
    ⟨rfl, rfl⟩
  · exact .inl (asked hk (by decide) fun _ => rfl)
  · exact .inl (asked hk (by decide) fun _ => rfl)
  · exact .inl (asked hk (by decide) fun _ => rfl)
  · exact .inl (asked hk (by decide) fun _ => rfl)
  · exact .inl (asked hk (by decide) fun _ => rfl)
  · exact .inl (asked hk (by decide) fun _ => rfl)
  · exact .inl (asked hk (by decide) fun _ => rfl)
  · exact .inr (.inl ⟨rfl, List.mem_singleton.1 hk⟩)
  · exact .inr (.inr (.inl ⟨rfl, List.mem_singleton.1 hk⟩))
  · exact .inr (.inr (.inr (.inl ⟨rfl, List.mem_singleton.1 hk⟩)))
  · exact .inr (.inr (.inr (.inr ⟨rfl, List.mem_singleton.1 hk⟩)))
  · have hall : ∀ k ∈ ([0, 8, 9, 0x7F, 0x80, 0x85, 0xFF] : List Byte), k ∉ ([0x81, 0x82, 0x83, 0x84] : List Byte) ∧
        ¬((1 ≤ k.toNat ∧ k.toNat ≤ 7) ∨ (0x81 ≤ k.toNat ∧ k.toNat ≤ 0x84)) := by decide
    exact .inl ⟨(hall _ hk).1, exec_reservedKind (hall _ hk).2⟩

theorem DataRow.request {r : Frame → Instr} {ks : List Byte} (h : DataRow r ks) {f : Frame} (hk : f.op.kind ∈ ks)
    (hn : f.op.kind ∉ ([0x81, 0x82, 0x83, 0x84] : List Byte)) (s : State) : exec (r f) s = .next (rxData s f (fun s p => rxRequest s f p)) := by
  have other {k : Byte} (he : f.op.kind = k) (hm : k ∈ ([0x81, 0x82, 0x83, 0x84] : List Byte)) : False := hn (he ▸ hm)
  rcases h.cases hk with ⟨-, he⟩ | ⟨-, he⟩ | ⟨-, he⟩ | ⟨-, he⟩ | ⟨-, he⟩
  · exact he s
  · exact (other he (by decide)).elim
  · exact (other he (by decide)).elim
  · exact (other he (by decide)).elim
  · exact (other he (by decide)).elim

/-- Each of the rows treats a packet of one of its kinds as a DATA packet. -/
theorem DataRow.data {r : Frame → Instr} {ks : List Byte} (h : DataRow r ks) {f : Frame} (hk : f.op.kind ∈ ks) :
    ∃ perform : State → Nat → State, ∀ s, exec (r f) s = .next (rxData s f perform) := by
  rcases h.cases hk with ⟨-, he⟩ | ⟨rfl, he⟩ | ⟨rfl, he⟩ | ⟨rfl, he⟩ | ⟨rfl, he⟩
  · exact ⟨_, he⟩
  · exact ⟨_, exec_getResp he⟩
  · exact ⟨_, exec_atomicResp he⟩
  · exact ⟨_, exec_commandReply he⟩
  · exact ⟨_, exec_errorResp he⟩

end Sys2Proof.Claims
end

section
/-! PROOFS. DATA packets received: control packets, packet numbers, the window, and the statement. -/
namespace Sys2Proof.Claims
open Sys2Proof.Machine

/-! ## Control packets -/

theorem sendControl_none {s : State} {peer cls : Nat} (n : Nat) (x : Wire → TxFrame) (h : usable s peer cls = []) : sendControl s peer cls n x = s := by
  simp [sendControl, h]

theorem sendControl_some {s : State} {peer cls j : Nat} {rest : List Nat} (n : Nat) (x : Wire → TxFrame) (h : usable s peer cls = j :: rest) :
    sendControl s peer cls n x = portTally (sendOut s (wireOf s peer j) (x (wireOf s peer j)) (levelBytes s peer n)) (j / 8) 2 1 := by
  simp [sendControl, h]

@[simp] theorem portTally_fab (s : State) (k i n : Nat) : (portTally s k i n).fab = s.fab := portTally_within.same .fab (by decide)

theorem wireOf_sub (s : State) (peer j : Nat) : (wireOf s peer j).sub = j := rfl

/-- A frame that leaves stands at the head of what left; a neighbour may have been asked for before it. -/
theorem sendOut_tx (s : State) (w : Wire) (f : TxFrame) (n : Nat) : ∃ asked : List TxFrame, (sendOut s w f n).fab.tx = f :: (asked ++ s.fab.tx) ∧
    ∀ a, w.hop = some a → w.mac = none → TxFrame.solicit (w.sub / 8) (w.sub % 8) a (portMac s (w.sub / 8) (w.sub % 8)) ∈ asked ∨ ∃ g ∈ s.fab.tx, awaitsHop a g = true := by
  obtain ⟨sub, hop, mac⟩ := w
  cases mac with
  | some m => exact ⟨[], rfl, nofun⟩
  | none =>
    cases hop with
    | none => exact ⟨[], rfl, nofun⟩
    | some a =>
      by_cases h : s.fab.tx.any (awaitsHop a) = true
      · refine ⟨[], ?_, ?_⟩
        · simp [sendOut, h, txQueue, txPush]
        · rintro b hb -
          cases hb
          exact .inr (List.any_eq_true.1 h)
      · refine ⟨[.solicit (sub / 8) (sub % 8) a (portMac s (sub / 8) (sub % 8))], ?_, ?_⟩
        · simp [sendOut, h, txQueue, txPush]
        · rintro b hb -
          cases hb
          exact .inl (List.mem_singleton.2 rfl)

theorem sendOut_flows (s : State) (w : Wire) (f : TxFrame) (n : Nat) : (sendOut s w f n).fab.flows = s.fab.flows := by
  unfold sendOut
  dsimp only
  split
  · split <;> rfl
  · rfl

/-! ## Packet numbers and the window (R322, R323, R354) -/

theorem psnNear_eq_some {b v p : Nat} (hv : v < 2 ^ 24) (h : psnNear b v = some p) : p % 2 ^ 24 = v ∧ (p < b ↔ precedes 24 v b = true) := by
  have hd : (v + 2 ^ 24 - b % 2 ^ 24) % 2 ^ 24 < 2 ^ 24 := Nat.mod_lt _ (by decide)
  unfold psnNear at h
  dsimp only at h
  by_cases hp : precedes 24 v b = true
  · rw [if_pos hp] at h
    split at h
    · have he := Option.some.inj h
      exact ⟨by omega, fun _ => hp, fun _ => by omega⟩
    · cases h
  · rw [if_neg hp] at h
    have he := Option.some.inj h
    exact ⟨by omega, fun hlt => by omega, fun hc => absurd hc hp⟩

/-- A number that rises over a list, with steps for all of it, ends past its start's run: what it passed was listed, what it ends at is not. -/
theorem slide_spec (k : Nat) : ∀ (n : Nat) (xs : List Nat), xs.length ≤ k →
    n ≤ (slide n xs k).1 ∧ (∀ q, n ≤ q → q < (slide n xs k).1 → q ∈ xs) ∧ (slide n xs k).1 ∉ (slide n xs k).2 ∧ (n ∈ xs → n < (slide n xs k).1) := by
  induction k with
  | zero =>
    intro n xs h
    obtain rfl : xs = [] := List.length_eq_zero_iff.1 (Nat.le_zero.1 h)
    exact ⟨Nat.le_refl _, fun q h1 h2 => absurd h1 (Nat.not_le.2 h2), List.not_mem_nil, nofun⟩
  | succ k ih =>
    intro n xs h
    unfold slide
    by_cases hn : n ∈ xs
    · rw [if_pos hn]
      have hlen : (xs.filter (· ≠ n)).length ≤ k := by
        have := List.length_filter_lt_length_iff_exists (p := fun x => decide (x ≠ n)) (l := xs) |>.2 ⟨n, hn, by simp⟩
        omega
      obtain ⟨hle, hmem, hnot, -⟩ := ih (n + 1) _ hlen
      refine ⟨by omega, fun q h1 h2 => ?_, hnot, fun _ => by omega⟩
      rcases Nat.eq_or_lt_of_le h1 with rfl | hlt
      · exact hn
      · exact List.mem_of_mem_filter (hmem q hlt h2)
    · rw [if_neg hn]
      exact ⟨Nat.le_refl _, fun q h1 h2 => absurd h1 (Nat.not_le.2 h2), hn, fun hc => absurd hc hn⟩

theorem slide_of_notMem {n : Nat} {xs : List Nat} (k : Nat) (h : n ∉ xs) : slide n xs k = (n, xs) := by
  cases k with
  | zero => rfl
  | succ k => exact if_neg h

theorem rxTake_window {f : Flow} {p : Nat} (hn : f.rxRcv ∉ f.rxHave) :
    (p ≠ f.rxRcv → (rxTake f p).rxRcv = f.rxRcv) ∧ (p = f.rxRcv → f.rxRcv < (rxTake f p).rxRcv) ∧
    (∀ q, f.rxRcv ≤ q → q < (rxTake f p).rxRcv → q = p ∨ q ∈ f.rxHave) ∧ (rxTake f p).rxRcv ∉ (rxTake f p).rxHave := by
  obtain ⟨-, hmem, hnot, hlt⟩ := slide_spec (p :: f.rxHave).length f.rxRcv (p :: f.rxHave) (Nat.le_refl _)
  refine ⟨fun hp => ?_, fun hp => hlt (hp ▸ List.mem_cons_self), fun q h1 h2 => List.mem_cons.1 (hmem q h1 h2), hnot⟩
  have hout : f.rxRcv ∉ p :: f.rxHave := fun hc => (List.mem_cons.1 hc).elim (fun e => hp e.symm) hn
  show (slide f.rxRcv (p :: f.rxHave) (p :: f.rxHave).length).1 = f.rxRcv
  rw [slide_of_notMem _ hout]

/-! ## The state in which an accepted packet is performed -/

@[simp] theorem rxFlow_peer (s : State) (f : Frame) : (rxFlow s f).peer = f.src := by
  unfold rxFlow; dsimp only; split <;> simp [rxFresh]

@[simp] theorem rxFlow_cls (s : State) (f : Frame) : (rxFlow s f).cls = f.cls := by
  unfold rxFlow; dsimp only; split <;> simp [rxFresh]

@[simp] theorem getFlow_arrived (s : State) (f : Frame) :
    getFlow (arrived s f) f.src f.cls = { rxTake (rxFlow s f) (psnOf s f) with ackDue := true } :=
  getFlow_setFlow _ _ (rxFlow_peer s f) (rxFlow_cls s f)

theorem arrived_within (s : State) (f : Frame) : Within [.bar, .fab] s (arrived s f) := setFlow_within.after ((counted_within s f).mono)

theorem rf_arrived {s : State} {off : Nat} (f : Frame) (lo n : Nat) (h : off % 0x1000 ≠ 0x60) : rf (arrived s f) off lo n = rf s off lo n :=
  rf_counted f lo n h

theorem working_congr {s t : State} (hs : t.se = s.se) (hc : t.cores = s.cores) (hh : t.hoists = s.hoists) (hn : t.nb = s.nb) : working t = working s := by
  unfold working; rw [hs, hc, hh, hn]

theorem devState_arrived (s : State) (f : Frame) : devState (arrived s f) = devState s := by
  have h := arrived_within s f
  unfold devState storedState
  rw [rf_arrived f 0 3 (by decide), working_congr (h.same .se (by decide)) (h.same .cores (by decide)) (h.same .hoists (by decide)) (h.same .nb (by decide))]

theorem serving_arrived (s : State) (f : Frame) : serving (arrived s f) = serving s := by
  unfold serving; rw [devState_arrived]

/-- An accepted request that nothing holds back is performed. -/
theorem rxRequest_unheld {s : State} {f : Frame} (h : Unheld s f) : rxRequest (arrived s f) f (psnOf s f) =
    rxPerform (arrived s f) f.src f.cls f.op f.payload (psnOf s f) := by
  obtain ⟨hb, hh⟩ := h
  unfold rxRequest
  rw [if_neg (by simp [hb, hh])]

/-- A device that is FAILED turns every request away. -/
theorem rxRequest_failed {s : State} (f : Frame) (p : Nat) (h : devState s = 7) : rxRequest s f p = rxError s f.src f.cls f.op p 0x0102 0x07 := by
  have hs : serving s = false := by simp [serving, h]
  unfold rxRequest
  rw [if_neg (by simp [hs])]
  exact if_pos h

theorem request_kinds {k : Byte} (h : k ∈ ([1, 2, 3, 4, 5, 6, 7] : List Byte)) : k ∉ ([0x81, 0x82, 0x83, 0x84] : List Byte) := by
  have hall : ∀ k ∈ ([1, 2, 3, 4, 5, 6, 7] : List Byte), k ∉ ([0x81, 0x82, 0x83, 0x84] : List Byte) := by decide
  exact hall k h

/-- Settles O53, by the cases of a packet's reception. -/
theorem dataPacketRows : Obligations.DataPacketRows := by
  unfold Obligations.DataPacketRows
  refine ⟨fun r ks s f hr hk => ?_, ?_, ?_, fun s peer cls n x h => sendControl_none n x h, fun b v p hv h => psnNear_eq_some hv h,
    fun f p _ hn _ _ => rxTake_window hn, ?_, ?_⟩
  · obtain ⟨k, he⟩ := hr.data hk
    simp only [he, Host.Outcome.next.injEq]
    refine ⟨rxData_down, fun n hu hd => ?_, rxData_unknown, rxData_full, rxData_outside, rxData_duplicate, rxData_beyond⟩
    refine gives_next ((he s).trans (congrArg _ (rxData_dropped hu hd))) ?_
    exact ⟨tget_tset_same _ _ _ _, rfl, rfl, rfl, rfl⟩
  · intro s f _ hp
    unfold rxFlow
    simp only [if_neg hp]
    exact ⟨rfl, rfl, rfl, rfl, rfl⟩
  · intro s peer cls n j rest x h
    dsimp only
    obtain ⟨asked, htx, hask⟩ := sendOut_tx s (wireOf s peer j) (x (wireOf s peer j)) (levelBytes s peer n)
    have hw : Within [.bar, .fab] s (sendControl s peer cls n x) := by
      rw [sendControl_some n x h]; exact portTally_within.after (sendOut_within.mono)
    have ht : (sendControl s peer cls n x).fab.tx = x (wireOf s peer j) :: (asked ++ s.fab.tx) := by
      rw [sendControl_some n x h, portTally_fab, htx]
    refine ⟨by rw [ht]; rfl, fun g hg => by rw [ht]; exact List.mem_cons_of_mem _ (List.mem_append_right _ hg),
      by rw [sendControl_some n x h, portTally_fab, sendOut_flows], hw.same .mem (by decide), hw.same .sems (by decide), fun a hh hm => ?_⟩
    rw [ht]
    exact (hask a hh hm).imp_left fun hc => List.mem_cons_of_mem _ (List.mem_append_left _ hc)
  · intro s f ha hk hd r ks hr hm
    rw [hr.request hm (request_kinds hk), rxData_accepted ha, rxRequest_failed f _ ((devState_arrived s f).trans hd)]
  · intro s f ha hs hb hk r ks hr hm
    have hkind : f.op.kind ∈ ([1, 2, 3, 4, 5, 6, 7] : List Byte) :=
      (by decide : ∀ k ∈ ([1, 2, 4, 5, 6] : List Byte), k ∈ ([1, 2, 3, 4, 5, 6, 7] : List Byte)) _ hk
    refine gives_next ((hr.request hm (request_kinds hkind) s).trans (congrArg _ (rxData_accepted ha))) ?_
    have hw := arrived_within s f
    unfold rxRequest
    rw [if_pos (by simp [serving_arrived, hs, hb])]
    refine ⟨hw.same .mem (by decide), hw.same .sems (by decide), ?_⟩
    dsimp only
    rw [getFlow_setFlow _ _ (by exact getFlow_peer _ _ _) (by exact getFlow_cls _ _ _), getFlow_arrived]
    rfl

end Sys2Proof.Claims
end

section
/-! PROOFS. What an inbound operation of the Level does once it is accepted: its checks, its effect, and how it ends. -/
namespace Sys2Proof.Claims
open Sys2Proof.Machine

/-! ## What the arrival of a packet leaves to its checks -/

section
variable (s : State) (f : Frame)

@[simp] theorem arrived_grade : (arrived s f).grade = s.grade := (arrived_within s f).grade
@[simp] theorem arrived_cores : (arrived s f).cores = s.cores := (arrived_within s f).same .cores (by decide)
@[simp] theorem arrived_peers : (arrived s f).fab.peers = s.fab.peers := by
  show (counted s f).fab.peers = _; rw [counted_fab]
@[simp] theorem arrived_node : (arrived s f).fab.node = s.fab.node := by
  show (counted s f).fab.node = _; rw [counted_fab]

@[simp] theorem localRange_arrived (off n : Nat) : localRange (arrived s f) off n = localRange s off n := by
  unfold localRange memBytes gradeCores coresPerCluster stackCount; rw [arrived_grade]
@[simp] theorem touchesReserve_arrived (off n : Nat) : touchesReserve (arrived s f) off n = touchesReserve s off n := by
  unfold touchesReserve inReserve memBytes rowSetBytes stackCount; rw [arrived_grade]
@[simp] theorem unplaced_arrived (v : Nat) : unplaced (arrived s f) v = unplaced s v := by
  unfold unplaced; rw [arrived_cores]
@[simp] theorem nodeNum_arrived : nodeNum (arrived s f) = nodeNum s := rf_arrived f 0 16 (by decide)
@[simp] theorem peerOf_arrived (n : Nat) : peerOf (arrived s f) n = peerOf s n := by
  unfold peerOf; rw [arrived_peers]
@[simp] theorem largestPayload_arrived (n : Nat) : largestPayload (arrived s f) n = largestPayload s n := by
  unfold largestPayload mtuOf nodeFld; rw [peerOf_arrived, arrived_node]

end


/-! ## Checks (R315, R317, R331) -/

section
variable {s : State} {f : Frame}

theorem rxPerms_arrived (b : Nat) (bits : List Nat) : rxPerms (arrived s f) f.src (b :: bits) = true ↔ Permits s f (b :: bits) := by
  unfold rxPerms Permits
  rw [peerOf_arrived]
  cases h : peerOf s f.src with
  | none => simp
  | some w => simp [List.all_eq_true]

theorem rxAccess_denied {perm n : Nat} {allowed : List Range} (cls : Nat) (h : ¬Permits s f [perm]) :
    rxAccess (arrived s f) f.src cls f.op perm n allowed = (some (0x0105, 0x02), arrived s f) := by
  unfold rxAccess
  refine if_pos ?_
  rw [Bool.not_eq_true', Bool.eq_false_iff]
  intro hc
  obtain ⟨w, hw, hb⟩ := (rxPerms_arrived _ _).1 hc
  exact h ⟨w, hw, fun x hx => hb x (List.mem_singleton.1 hx ▸ List.mem_cons_self)⟩

/-- An access that is permitted, at this node, in a range the operation may use, aligned, and outside the reserve is let through. -/
theorem rxAccess_passes {perm n : Nat} {allowed : List Range} {r : Range} (cls : Nat) (hl : localRange s (offOf f.op.addr) n = r)
    (hp : Permits s f (perm :: rangePerm r)) (ho : Ours s f) (ha : r ∈ allowed) (hal : rangeAligned (arrived s f) r cls (offOf f.op.addr) n = true)
    (ht : r = .device → touchesReserve s (offOf f.op.addr) n = false) :
    rxAccess (arrived s f) f.src cls f.op perm n allowed = (none, arrived s f) := by
  have hmine : (nodeOf f.op.addr == 0 || nodeOf f.op.addr == nodeNum s) = true := by simpa [Ours] using ho
  unfold rxAccess
  dsimp only
  rw [localRange_arrived, hl, if_neg (by simp [(rxPerms_arrived perm (rangePerm r)).2 hp]), if_neg (by simp [hmine, ha, hal]), if_neg]
  rintro ⟨hd, hc⟩
  rw [touchesReserve_arrived, ht hd] at hc
  cases hc

theorem rxAccess_device {perm n : Nat} {allowed : List Range} (cls : Nat) (hp : Permits s f [perm]) (ho : Ours s f) (hi : InDevice s f n) (ha : .device ∈ allowed) :
    rxAccess (arrived s f) f.src cls f.op perm n allowed = (none, arrived s f) :=
  rxAccess_passes cls hi.1 hp ho ha rfl fun _ => hi.2

theorem rxAccess_scratch {perm n : Nat} {allowed : List Range} (cls : Nat) (hp : Permits s f [perm, 197]) (ho : Ours s f) (hi : InScratch s f n)
    (ha : .scratch ∈ allowed) : rxAccess (arrived s f) f.src cls f.op perm n allowed = (none, arrived s f) := by
  obtain ⟨hl, h8, hn, hu⟩ := hi
  exact rxAccess_passes cls hl hp ho ha (by simp [rangeAligned, h8, hn, hu]) nofun

end

section
variable {s u : State} {src cls p : Nat} {op : OpHeader} {payload : List Byte}

theorem rxCheck_reserved (h : op.reserved = true) : rxCheck s src cls op payload = (some (0x0100, 0x09), s) := if_pos h

theorem rxCheck_noKind (h : op.kind = 0 ∨ 7 < op.kind.toNat) : rxCheck s src cls op payload = (some (0x0100, 0x09), s) := by
  unfold rxCheck
  dsimp only
  split
  · rfl
  · have hk : ∀ k, 1 ≤ k → k ≤ 7 → op.kind.toNat ≠ k := by
      rintro k h1 h7 rfl
      rcases h with h | h
      · rw [h] at h1; exact absurd h1 (by decide)
      · omega
    split
    case h_8 => rfl
    all_goals next e => exact absurd e (hk _ (by decide) (by decide))

theorem rxCheck_put (hk : op.kind = 1) (hr : op.reserved = false) : rxCheck s src cls op payload =
    if payload.length = 0 then (if rxPerms s src [194] then none else some (0x0105, 0x02), s)
    else rxAccess s src cls op 194 payload.length [.device, .scratch, .image, .window] := by
  unfold rxCheck; rw [if_neg (by simp [hr]), hk]; rfl

theorem rxCheck_add (hk : op.kind = 2) (hr : op.reserved = false) : rxCheck s src cls op payload =
    if op.atype = 1 ∨ 4 < op.atype then (some (0x0100, 0x09), s)
    else match rxAccess s src cls op 194 payload.length [.device] with
      | (none, s) => (if offOf op.addr % atypeBytes op.atype ≠ 0 ∨ payload.length % atypeBytes op.atype ≠ 0 then some (stBadParam, 0x03) else none, s)
      | x => x := by
  unfold rxCheck; rw [if_neg (by simp [hr]), hk]; rfl

theorem rxCheck_signal (hk : op.kind = 3) (hr : op.reserved = false) : rxCheck s src cls op payload =
    (if rxPerms s src [196] then none else some (0x0105, 0x02), s) := by
  unfold rxCheck; rw [if_neg (by simp [hr]), hk]; rfl

theorem rxCheck_putSignal (hk : op.kind = 4) (hr : op.reserved = false) : rxCheck s src cls op payload =
    if payload.length ≠ 0 ∧ payload.length ≠ 16 then (some (0x0100, 0x09), s)
    else if op.operand ≠ 0 ∧ !rxPerms s src [196] then (some (0x0105, 0x02), s)
    else if payload.length = 0 then (none, s) else rxAccess s src cls op 194 payload.length [.device, .scratch, .window] := by
  unfold rxCheck; rw [if_neg (by simp [hr]), hk]; rfl

theorem rxCheck_get (hk : op.kind = 5) (hr : op.reserved = false) : rxCheck s src cls op payload =
    match rxAccess s src cls op 193 op.len [.device, .scratch, .image, .window] with
    | (none, s) => (if op.len = 0 ∨ 4096 < offOf op.addr % 4096 + op.len ∨ largestPayload s src < op.len then some (stBadParam, 0x03) else none, s)
    | x => x := by
  unfold rxCheck; rw [if_neg (by simp [hr]), hk]; rfl

theorem rxCheck_atomic (hk : op.kind = 6) (hr : op.reserved = false) : rxCheck s src cls op payload =
    if !amoLegal op.akind op.atype || (if op.akind = 2 then payload.length != 8 else payload.length != 0) then (some (0x0100, 0x09), s)
    else match rxAccess s src cls op 195 (atypeBytes op.atype) [.device] with
      | (none, s) => (if offOf op.addr % atypeBytes op.atype ≠ 0 then some (stBadParam, 0x03) else none, s)
      | x => x := by
  unfold rxCheck; rw [if_neg (by simp [hr]), hk]; rfl

theorem rxCheck_command (hk : op.kind = 7) (hr : op.reserved = false) : rxCheck s src cls op payload =
    if payload.length ≠ 64 then (some (0x0100, 0x09), s) else (if rxPerms s src [200] then none else some (0x0105, 0x02), s) := by
  unfold rxCheck; rw [if_neg (by simp [hr]), hk]; rfl

/-! ## Effects (R321, R337, R338) -/

variable (hd : devState s ≠ 7)
include hd

theorem rxPerform_refused {st : W16} {reason : Nat} (hc : rxCheck s src cls op payload = (some (st, reason), u)) :
    rxPerform s src cls op payload p = rxError u src cls op p st reason := by
  unfold rxPerform; rw [if_neg hd, hc]

variable (hc : rxCheck s src cls op payload = (none, u))
include hc

theorem rxPerform_put (hk : op.kind = 1) : rxPerform s src cls op payload p = rxEnd (if payload = [] then (none, u) else rxPut u op payload) src cls op p := by
  unfold rxPerform; rw [if_neg hd, hc, hk]; rfl

theorem rxPerform_add (hk : op.kind = 2) : rxPerform s src cls op payload p = rxEnd (rxAdd u op payload) src cls op p := by
  unfold rxPerform; rw [if_neg hd, hc, hk]; rfl

theorem rxPerform_signal (hk : op.kind = 3) : rxPerform s src cls op payload p = markPerf (rxSignal u src op) src cls p := by
  unfold rxPerform; rw [if_neg hd, hc, hk]; rfl

theorem rxPerform_putSignal (hk : op.kind = 4) : rxPerform s src cls op payload p =
    match (if payload = [] then (none, u) else rxPut u op payload) with
    | (some (st, reason), s) => rxError s src cls op p st reason
    | (none, s) => markPerf (if op.operand = 0 then s else rxSignal s src op) src cls p := by
  unfold rxPerform; rw [if_neg hd, hc, hk]; rfl

theorem rxPerform_get (hk : op.kind = 5) : rxPerform s src cls op payload p =
    match rxGet u src op with
    | (some (st, reason), _, s) => rxError s src cls op p st reason
    | (none, bs, s) => sendResponse s src cls p (answerOp op 0x81) bs := by
  unfold rxPerform; rw [if_neg hd, hc, hk]; rfl

theorem rxPerform_atomic (hk : op.kind = 6) {st : W16} {old : Nat} {v : State}
    (ha : amoAt u (offOf op.addr) op.akind op.atype op.operand.toNat (leNat payload) (rxRq op) = (st, old, v)) : rxPerform s src cls op payload p =
    if st = stOk then sendResponse v src cls p { answerOp op 0x82 with operand := BitVec.ofNat 64 old } []
    else rxError v src cls op p st (memReason .device st) := by
  unfold rxPerform; rw [if_neg hd, hc, hk]
  show (match amoAt u (offOf op.addr) op.akind op.atype op.operand.toNat (leNat payload) (rxRq op) with
    | (st, old, v) => if st = stOk then sendResponse v src cls p { answerOp op 0x82 with operand := BitVec.ofNat 64 old } []
      else rxError v src cls op p st (memReason .device st)) = _
  rw [ha]

theorem rxPerform_command (hk : op.kind = 7) : rxPerform s src cls op payload p = rxCommand u src cls payload p := by
  unfold rxPerform; rw [if_neg hd, hc, hk]; rfl

end

theorem Asked.performed {s : State} {f : Frame} {k : Byte} {r : Frame → Instr} (h : Asked s f k) (hr : exec (r f) s = .next (rxKind s f k)) :
    exec (r f) s = .next (rxPerform (arrived s f) f.src f.cls f.op f.payload (psnOf s f)) := by
  obtain ⟨ha, -, hk, -, hu⟩ := h
  rw [hr, rxKind_kind hk, rxData_accepted ha, rxRequest_unheld hu]

theorem Asked.alive {s : State} {f : Frame} {k : Byte} (h : Asked s f k) : devState (arrived s f) ≠ 7 := devState_arrived s f ▸ h.2.1


/-! ## How accesses end (R331) -/

section
variable {s : State} {f : Frame} {p : Nat}

theorem rxPut_local {op : OpHeader} {bs : List Byte} {r : Range} (hl : localRange s (offOf op.addr) bs.length = r) (hr : r = .device ∨ r = .scratch) :
    rxPut s op bs = (if (localWrite s (offOf op.addr) bs (rxRq op)).1 = stOk then none
      else some ((localWrite s (offOf op.addr) bs (rxRq op)).1, if (localWrite s (offOf op.addr) bs (rxRq op)).1 = stBadParam then 3 else 4),
      (localWrite s (offOf op.addr) bs (rxRq op)).2) := by
  unfold rxPut
  dsimp only
  rw [hl]
  rcases hr with rfl | rfl <;> rfl

/-- How an access whose status is known ends. -/
theorem rxEnd_status (x : W16 × State) (reason : Nat) :
    rxEnd (if x.1 = stOk then none else some (x.1, if x.1 = stBadParam then 3 else reason), x.2) f.src f.cls f.op p = ended x f p reason := by
  unfold rxEnd ended
  by_cases h : x.1 = stOk
  · rw [if_pos h, if_pos h]
  · rw [if_neg h, if_neg h]

theorem rxEnd_put {bs : List Byte} {r : Range} (hl : localRange s (offOf f.op.addr) bs.length = r) (hr : r = .device ∨ r = .scratch) :
    rxEnd (rxPut s f.op bs) f.src f.cls f.op p = ended (localWrite s (offOf f.op.addr) bs (rxRq f.op)) f p 4 := by
  rw [rxPut_local hl hr]
  exact rxEnd_status _ 4

theorem rxEnd_none (u : State) (src cls : Nat) (op : OpHeader) (p : Nat) : rxEnd (none, u) src cls op p = markPerf u src cls p := rfl

theorem iterate_one {σ : Type} (g : Nat → σ → σ) (x : σ) : iterate 1 g x = g 0 x := rfl

/-- A word written to the register image. -/
theorem rxPut_image {op : OpHeader} {bs : List Byte} (hl : localRange s (offOf op.addr) 4 = .image) (hn : bs.length = 4) :
    rxPut s op bs = (none, regWriteWord s (offOf op.addr - 0x40000000000) (BitVec.ofNat 32 (leNat bs))) := by
  have ht : bs.take 4 = bs := List.take_of_length_le (Nat.le_of_eq hn)
  have hw (a : Nat) : iterate 1 (fun i s => regWriteWord s (a + 4 * i) (BitVec.ofNat 32 (leNat ((bs.drop (4 * i)).take 4)))) s =
      regWriteWord s a (BitVec.ofNat 32 (leNat bs)) := by
    rw [iterate_one, Nat.mul_zero, Nat.add_zero, List.drop_zero, ht]
  unfold rxPut
  simp only [hn, hl, Nat.div_self (Nat.succ_pos 3), hw]

theorem rxGet_local {op : OpHeader} {r : Range} {src : Nat} {st : W16} {bs : List Byte} {v : State} (hl : localRange s (offOf op.addr) op.len = r)
    (hr : r = .device ∨ r = .scratch) (h : localRead s (offOf op.addr) op.len (rxRq op) = (st, bs, v)) :
    rxGet s src op = (if st = stOk then none else some (st, if st = stBadParam then 3 else 4), bs, v) := by
  unfold rxGet
  rcases hr with rfl | rfl
  · simp only [hl, h]; rfl
  · simp only [hl, h]; rfl

/-- An ADD of one element. -/
theorem rxAdd_one {op : OpHeader} {bs : List Byte} (hn : bs.length = atypeBytes op.atype) :
    rxAdd s op bs =
      (if (amoAt s (offOf op.addr) 0 op.atype (leNat bs) 0 (rxRq op)).1 = stOk then none
        else some ((amoAt s (offOf op.addr) 0 op.atype (leNat bs) 0 (rxRq op)).1, memReason .device (amoAt s (offOf op.addr) 0 op.atype (leNat bs) 0 (rxRq op)).1),
        (amoAt s (offOf op.addr) 0 op.atype (leNat bs) 0 (rxRq op)).2.2) := by
  have hpos : 0 < atypeBytes op.atype := by unfold atypeBytes; split <;> [decide; split <;> decide]
  unfold rxAdd
  dsimp only
  rw [hn, Nat.div_self hpos]
  simp [List.range_succ, ← hn]

theorem rxEnd_add (h : f.payload.length = atypeBytes f.op.atype) : rxEnd (rxAdd s f.op f.payload) f.src f.cls f.op p =
    (let x := amoAt s (offOf f.op.addr) 0 f.op.atype (leNat f.payload) 0 (rxRq f.op); ended (x.1, x.2.2) f p 4) := by
  rw [rxAdd_one h]
  exact rxEnd_status ((amoAt s (offOf f.op.addr) 0 f.op.atype (leNat f.payload) 0 (rxRq f.op)).1,
    (amoAt s (offOf f.op.addr) 0 f.op.atype (leNat f.payload) 0 (rxRq f.op)).2.2) 4

/-- A refusal leaves an entry in the log and answers with ERROR_RESP. -/
theorem rxError_answers (src cls : Nat) (op : OpHeader) (p : Nat) (st : W16) (reason : Nat) : ∃ u : State, rxError s src cls op p st reason =
    sendResponse u src cls p { answerOp op 0x84 with status := 0x0203, len := st.toNat + reason * 65536 } [] ∧ u.fab = s.fab ∧ u.mem = s.mem ∧ u.sems = s.sems := by
  have hw : Within [.bar, .faults, .trace] s (logFabric s 4 src cls op st (BitVec.ofNat 32 (st.toNat + reason * 65536))) := logFabric_within
  exact ⟨_, rfl, hw.same .fab (by decide), hw.same .mem (by decide), hw.same .sems (by decide)⟩

end


/-! ## Each kind of request (R321) -/

section
variable {s : State} {f : Frame}

/-- A request whose checks fail is refused. -/
theorem Asked.refused {k : Byte} {r : Frame → Instr} {st : W16} {reason : Nat} (h : Asked s f k) (hr : exec (r f) s = .next (rxKind s f k))
    (hc : rxCheck (arrived s f) f.src f.cls f.op f.payload = (some (st, reason), arrived s f)) :
    exec (r f) s = .next (rxError (arrived s f) f.src f.cls f.op (psnOf s f) st reason) := by
  rw [h.performed hr, rxPerform_refused h.alive hc]

theorem Permits.of_cons {a : Nat} {bits : List Nat} (h : Permits s f (a :: bits)) : Permits s f [a] := by
  obtain ⟨b, hb, hall⟩ := h
  exact ⟨b, hb, fun x hx => hall x (List.mem_singleton.1 hx ▸ List.mem_cons_self)⟩

theorem Permits.tail {a : Nat} {bits : List Nat} (h : Permits s f (a :: bits)) : Permits s f bits := by
  obtain ⟨b, hb, hall⟩ := h
  exact ⟨b, hb, fun x hx => hall x (List.mem_cons_of_mem _ hx)⟩

theorem rxPerms_true {a : Nat} (h : Permits s f [a]) : rxPerms (arrived s f) f.src [a] = true := (rxPerms_arrived a []).2 h
theorem rxPerms_false {a : Nat} (h : ¬Permits s f [a]) : rxPerms (arrived s f) f.src [a] = false :=
  Bool.eq_false_iff.2 fun hc => h ((rxPerms_arrived a []).1 hc)

/-- A PUT that passes its checks writes. -/
theorem put_passes (h : Asked s f 1) (hne : f.payload ≠ [])
    (hc : rxAccess (arrived s f) f.src f.cls f.op 194 f.payload.length [.device, .scratch, .image, .window] = (none, arrived s f)) :
    exec (.put f) s = .next (rxEnd (rxPut (arrived s f) f.op f.payload) f.src f.cls f.op (psnOf s f)) := by
  have hlen : f.payload.length ≠ 0 := fun e => hne (List.length_eq_zero_iff.1 e)
  have hck : rxCheck (arrived s f) f.src f.cls f.op f.payload = (none, arrived s f) := by rw [rxCheck_put h.2.2.1 h.2.2.2.1, if_neg hlen, hc]
  rw [h.performed rfl, rxPerform_put h.alive hck h.2.2.1, if_neg hne]

theorem put_refused {st : W16} {reason : Nat} (h : Asked s f 1) (hne : f.payload ≠ [])
    (hc : rxAccess (arrived s f) f.src f.cls f.op 194 f.payload.length [.device, .scratch, .image, .window] = (some (st, reason), arrived s f)) :
    exec (.put f) s = .next (rxError (arrived s f) f.src f.cls f.op (psnOf s f) st reason) := by
  have hlen : f.payload.length ≠ 0 := fun e => hne (List.length_eq_zero_iff.1 e)
  exact h.refused rfl (by rw [rxCheck_put h.2.2.1 h.2.2.2.1, if_neg hlen, hc])

theorem put_rows (h : Asked s f 1) (hne : f.payload ≠ []) (ho : Ours s f) :
    (Permits s f [194] → InDevice s f f.payload.length → exec (.put f) s =
      .next (ended (localWrite (arrived s f) (offOf f.op.addr) f.payload (rxRq f.op)) f (psnOf s f) 4)) ∧
    (Permits s f [194, 197] → InScratch s f f.payload.length → exec (.put f) s =
      .next (ended (localWrite (arrived s f) (offOf f.op.addr) f.payload (rxRq f.op)) f (psnOf s f) 4)) ∧
    (Permits s f [194, 199] → localRange s (offOf f.op.addr) 4 = .image → offOf f.op.addr % 4 = 0 → f.payload.length = 4 → f.cls = 3 → exec (.put f) s =
      .next (markPerf (regWriteWord (arrived s f) (offOf f.op.addr - 0x40000000000) (BitVec.ofNat 32 (leNat f.payload))) f.src f.cls (psnOf s f))) ∧
    (¬Permits s f [194] → exec (.put f) s = .next (rxError (arrived s f) f.src f.cls f.op (psnOf s f) 0x0105 2)) ∧
    (Permits s f [194] → localRange s (offOf f.op.addr) f.payload.length = .none →
      exec (.put f) s = .next (rxError (arrived s f) f.src f.cls f.op (psnOf s f) 0x0101 3)) := by
  refine ⟨fun hp hi => ?_, fun hp hi => ?_, fun hp hl h4 hn hcls => ?_, fun hp => ?_, fun hp hl => ?_⟩
  · rw [put_passes h hne (rxAccess_device _ hp ho hi (by decide)), rxEnd_put (by rw [localRange_arrived]; exact hi.1) (.inl rfl)]
  · rw [put_passes h hne (rxAccess_scratch _ hp ho hi (by decide)), rxEnd_put (by rw [localRange_arrived]; exact hi.1) (.inr rfl)]
  · have hacc := rxAccess_passes (r := .image) (allowed := [.device, .scratch, .image, .window]) f.cls (hn ▸ hl) hp ho (by decide) (by simp [rangeAligned, h4, hn, hcls]) nofun
    rw [put_passes h hne hacc, rxPut_image (by rw [localRange_arrived]; exact hl) hn, rxEnd_none]
  · exact put_refused h hne (rxAccess_denied _ hp)
  · refine put_refused h hne ?_
    unfold rxAccess
    dsimp only
    rw [localRange_arrived, hl, if_neg (by simp [rangePerm, rxPerms_true hp]), if_pos (by simp)]

theorem get_rows (h : Asked s f 5) (ho : Ours s f) (hlen : 0 < f.op.len) (hpage : offOf f.op.addr % 4096 + f.op.len ≤ 4096)
    (hbig : f.op.len ≤ largestPayload s f.src)
    (hacc : (Permits s f [193] ∧ InDevice s f f.op.len) ∨ (Permits s f [193, 197] ∧ InScratch s f f.op.len)) :
    (∀ bs v, localRead (arrived s f) (offOf f.op.addr) f.op.len (rxRq f.op) = (stOk, bs, v) →
      exec (.get f) s = .next (sendResponse v f.src f.cls (psnOf s f) (answerOp f.op 0x81) bs)) ∧
    (∀ st bs v, st ≠ stOk → st ≠ stBadParam → localRead (arrived s f) (offOf f.op.addr) f.op.len (rxRq f.op) = (st, bs, v) →
      exec (.get f) s = .next (rxError v f.src f.cls f.op (psnOf s f) st 4)) := by
  have hrange : ∃ r, localRange (arrived s f) (offOf f.op.addr) f.op.len = r ∧ (r = .device ∨ r = .scratch) ∧
      rxAccess (arrived s f) f.src f.cls f.op 193 f.op.len [.device, .scratch, .image, .window] = (none, arrived s f) := by
    rcases hacc with ⟨hp, hi⟩ | ⟨hp, hi⟩
    · exact ⟨.device, by rw [localRange_arrived]; exact hi.1, .inl rfl, rxAccess_device _ hp ho hi (by decide)⟩
    · exact ⟨.scratch, by rw [localRange_arrived]; exact hi.1, .inr rfl, rxAccess_scratch _ hp ho hi (by decide)⟩
  obtain ⟨r, hl, hr, ha⟩ := hrange
  have hck : rxCheck (arrived s f) f.src f.cls f.op f.payload = (none, arrived s f) := by
    rw [rxCheck_get h.2.2.1 h.2.2.2.1, ha]
    dsimp only
    rw [largestPayload_arrived, if_neg (by omega)]
  refine ⟨fun bs v hread => ?_, fun st bs v hok hbad hread => ?_⟩
  · rw [h.performed rfl, rxPerform_get h.alive hck h.2.2.1, rxGet_local hl hr hread, if_pos rfl]
  · rw [h.performed rfl, rxPerform_get h.alive hck h.2.2.1, rxGet_local hl hr hread, if_neg hok, if_neg hbad]

/-- A PUT_SIGNAL of 16 bytes that passes its checks writes, then signals. -/
theorem putSignal_writes (h : Asked s f 4) (hn : f.payload.length = 16) (ho : Ours s f) (hp : Permits s f [194, 196]) (hi : InDevice s f 16) :
    exec (.putSignal f) s = .next (match rxPut (arrived s f) f.op f.payload with
      | (some (st, reason), u) => rxError u f.src f.cls f.op (psnOf s f) st reason
      | (none, u) => markPerf (if f.op.operand = 0 then u else rxSignal u f.src f.op) f.src f.cls (psnOf s f)) := by
  have hne : f.payload ≠ [] := fun e => by rw [e] at hn; cases hn
  have hck : rxCheck (arrived s f) f.src f.cls f.op f.payload = (none, arrived s f) := by
    rw [rxCheck_putSignal h.2.2.1 h.2.2.2.1, hn, if_neg (by omega), if_neg (by simp [rxPerms_true hp.tail]), if_neg (by omega),
      rxAccess_device _ hp.of_cons ho hi (by decide)]
  rw [h.performed rfl, rxPerform_putSignal h.alive hck h.2.2.1, if_neg hne]

theorem atomic_rows (h : Asked s f 6) (ho : Ours s f) (hleg : amoLegal f.op.akind f.op.atype = true) (hn : f.payload.length = if f.op.akind = 2 then 8 else 0)
    (hp : Permits s f [195]) (hi : InDevice s f (atypeBytes f.op.atype)) (hal : offOf f.op.addr % atypeBytes f.op.atype = 0) {st : W16} {old : Nat} {v : State}
    (ha : amoAt (arrived s f) (offOf f.op.addr) f.op.akind f.op.atype f.op.operand.toNat (leNat f.payload) (rxRq f.op) = (st, old, v)) :
    (st = stOk → exec (.atomic f) s =
      .next (sendResponse v f.src f.cls (psnOf s f) { answerOp f.op 0x82 with operand := BitVec.ofNat 64 old } [])) ∧
    (st ≠ stOk → st ≠ stBadParam → exec (.atomic f) s = .next (rxError v f.src f.cls f.op (psnOf s f) st 4)) := by
  have hsize : (if f.op.akind = 2 then f.payload.length != 8 else f.payload.length != 0) = false := by
    split at hn <;> simp_all
  have hck : rxCheck (arrived s f) f.src f.cls f.op f.payload = (none, arrived s f) := by
    rw [rxCheck_atomic h.2.2.1 h.2.2.2.1, if_neg (by rw [hsize, hleg]; decide), rxAccess_device _ hp ho hi (by decide)]
    dsimp only
    rw [if_neg (fun hc => hc hal)]
  rw [h.performed rfl, rxPerform_atomic h.alive hck h.2.2.1 ha]
  refine ⟨fun hst => by rw [if_pos hst], fun hst hbad => ?_⟩
  rw [if_neg hst, show memReason .device st = 4 from if_neg hbad]

end

/-- Settles O54: the checks pass or refuse as the statement's cases say, and the effect is that of the operation's kind. -/
theorem inboundOperationRows : Obligations.InboundOperationRows := by
  unfold Obligations.InboundOperationRows
  refine ⟨fun s f h hne ho => put_rows h hne ho, fun s f h hne => ?_, fun s f h ho hp hi hat hn hal => ?_, fun s f h hat => ?_, fun s f h => ?_,
    fun s f h hne hop hp => ?_, fun s v f h hn ho hp hi hw => ?_, fun s v st f h hn ho hp hi hw hst hbad => ?_,
    fun s f h ho hlen hpage hbig hacc => get_rows h ho hlen hpage hbig hacc, fun s f h hp => ?_,
    fun s f h ho hleg hn hp hi hal st old v ha => atomic_rows h ho hleg hn hp hi hal ha, fun s f h hn hp => ?_, fun s f h hn => ?_,
    fun s f ha hd hu hres r ks hr hk hkind => ?_, fun s f ha hd hu hkind => ?_, fun s src cls op p st reason => rxError_answers src cls op p st reason⟩
  · have hck : rxCheck (arrived s f) f.src f.cls f.op f.payload = (if rxPerms (arrived s f) f.src [194] then none else some (0x0105, 0x02), arrived s f) := by
      rw [rxCheck_put h.2.2.1 h.2.2.2.1, hne]; rfl
    refine ⟨fun hp => ?_, fun hp => h.refused rfl (by rw [hck, rxPerms_false hp]; rfl)⟩
    rw [rxPerms_true hp] at hck
    rw [h.performed rfl, rxPerform_put h.alive hck h.2.2.1, hne]
    rfl
  · have hck : rxCheck (arrived s f) f.src f.cls f.op f.payload = (none, arrived s f) := by
      have hat : ¬(f.op.atype = 1 ∨ 4 < f.op.atype) := by simp only [List.mem_cons, List.not_mem_nil, or_false] at hat; omega
      rw [rxCheck_add h.2.2.1 h.2.2.2.1, if_neg hat, rxAccess_device _ hp ho hi (by decide)]
      dsimp only
      rw [hn, Nat.mod_self, if_neg (by simp [hal])]
    rw [h.performed rfl, rxPerform_add h.alive hck h.2.2.1, rxEnd_add hn]
  · exact h.refused rfl (by rw [rxCheck_add h.2.2.1 h.2.2.2.1, if_pos hat])
  · have hck : rxCheck (arrived s f) f.src f.cls f.op f.payload = (if rxPerms (arrived s f) f.src [196] then none else some (0x0105, 0x02), arrived s f) :=
      rxCheck_signal h.2.2.1 h.2.2.2.1
    refine ⟨fun hp => ?_, fun hp => h.refused rfl (by rw [hck, rxPerms_false hp]; rfl)⟩
    rw [rxPerms_true hp] at hck
    rw [h.performed rfl, rxPerform_signal h.alive hck h.2.2.1]
  · have hck : rxCheck (arrived s f) f.src f.cls f.op f.payload = (none, arrived s f) := by
      rw [rxCheck_putSignal h.2.2.1 h.2.2.2.1, hne, if_neg (by simp), if_neg (by simp [rxPerms_true hp]), if_pos (by rfl)]
    rw [h.performed rfl, rxPerform_putSignal h.alive hck h.2.2.1, if_pos hne]
    dsimp only
    rw [if_neg hop]
  · rw [putSignal_writes h hn ho hp hi, rxPut_local (by rw [localRange_arrived, hn]; exact hi.1) (.inl rfl), hw, if_pos rfl]
  · rw [putSignal_writes h hn ho hp hi, rxPut_local (by rw [localRange_arrived, hn]; exact hi.1) (.inl rfl), hw, if_neg hst, if_neg hbad]
  · exact h.refused rfl (by rw [rxCheck_get h.2.2.1 h.2.2.2.1, rxAccess_denied _ hp])
  · have hck : rxCheck (arrived s f) f.src f.cls f.op f.payload = (none, arrived s f) := by
      rw [rxCheck_command h.2.2.1 h.2.2.2.1, if_neg (by omega), rxPerms_true hp]; rfl
    have hw := arrived_within s f
    have hrem : (arrived s f).host = s.host := hw.same .host (by decide)
    refine gives_next ((h.performed rfl).trans (congrArg _ (rxPerform_command h.alive hck h.2.2.1))) ⟨?_, ?_, hw.same .mem (by decide), rfl⟩
    · show (arrived s f).host.remote ++ _ = _
      rw [hrem]
    · show (arrived s f).host.cmds = _
      rw [hrem]
  · exact h.refused rfl (by rw [rxCheck_command h.2.2.1 h.2.2.2.1, if_pos hn])
  · rw [hr.request hk (request_kinds hkind), rxData_accepted ha, rxRequest_unheld hu, rxPerform_refused (devState_arrived s f ▸ hd) (rxCheck_reserved hres)]
  · have hno : ¬((1 ≤ f.op.kind.toNat ∧ f.op.kind.toNat ≤ 7) ∨ (0x81 ≤ f.op.kind.toNat ∧ f.op.kind.toNat ≤ 0x84)) := by
      rcases hkind with h | h | h
      · rw [h]; decide
      · omega
      · omega
    rw [exec_reservedKind hno, rxData_accepted ha, rxRequest_unheld hu,
      rxPerform_refused (devState_arrived s f ▸ hd) (rxCheck_noKind (hkind.imp_right fun h => by omega))]

end Sys2Proof.Claims
end

section
/-! PROOFS. Responses of the Level: the request that a response completes, and the requests that are performed. -/
namespace Sys2Proof.Claims
open Sys2Proof.Machine

/-! ## Requests performed (R325) -/

/-- What a rising number does not pass stays listed. -/
theorem mem_slide (k : Nat) : ∀ (n : Nat) (xs : List Nat) (q : Nat), q ∈ xs → n ≤ q → q < (slide n xs k).1 ∨ q ∈ (slide n xs k).2 := by
  induction k with
  | zero => exact fun n xs q hq _ => .inr hq
  | succ k ih =>
    intro n xs q hq hn
    unfold slide
    by_cases hmem : n ∈ xs
    · rw [if_pos hmem]
      rcases Nat.eq_or_lt_of_le hn with rfl | hlt
      · have hle : n + 1 ≤ (slide (n + 1) (xs.filter (· ≠ n)) k).1 := by
          clear ih hq hn hmem
          generalize n + 1 = m
          generalize xs.filter (· ≠ n) = ys
          induction k generalizing m ys with
          | zero => exact Nat.le_refl _
          | succ k ih =>
            unfold slide
            split
            · exact Nat.le_of_succ_le (ih _ _)
            · exact Nat.le_refl _
        exact .inl hle
      · exact ih _ _ _ (List.mem_filter.2 ⟨hq, by simpa using Nat.ne_of_gt hlt⟩) hlt
    · rw [if_neg hmem]
      exact .inr hq

/-- The flow's half that a performed request leaves. -/
theorem getFlow_markPerf (s : State) (peer cls p : Nat) : p < (getFlow s peer cls).rxDone ∨ p ∈ (getFlow s peer cls).rxPerf ∨
    getFlow (markPerf s peer cls p) peer cls = { getFlow s peer cls with
      rxDone := (slide (getFlow s peer cls).rxDone (p :: (getFlow s peer cls).rxPerf) (p :: (getFlow s peer cls).rxPerf).length).1
      rxPerf := (slide (getFlow s peer cls).rxDone (p :: (getFlow s peer cls).rxPerf) (p :: (getFlow s peer cls).rxPerf).length).2
      ackDue := true } := by
  by_cases h : p < (getFlow s peer cls).rxDone ∨ p ∈ (getFlow s peer cls).rxPerf
  · exact h.imp_right .inl
  · refine .inr (.inr ?_)
    unfold markPerf
    dsimp only
    rw [if_neg h, getFlow_setFlow _ _ (by exact getFlow_peer _ _ _) (by exact getFlow_cls _ _ _)]

theorem markPerf_done {s : State} {peer cls p : Nat} (h : p < (getFlow s peer cls).rxDone ∨ p ∈ (getFlow s peer cls).rxPerf) : markPerf s peer cls p = s := if_pos h

@[simp] theorem markPerf_sent (s : State) (peer cls p : Nat) : (getFlow (markPerf s peer cls p) peer cls).sent = (getFlow s peer cls).sent := by
  rcases getFlow_markPerf s peer cls p with h | h | h
  · rw [markPerf_done (.inl h)]
  · rw [markPerf_done (.inr h)]
  · rw [h]

theorem markPerf_marks (s : State) (peer cls p : Nat) : p < (getFlow s peer cls).rxDone ∨ p ∈ (getFlow s peer cls).rxPerf ∨
    (let f := getFlow (markPerf s peer cls p) peer cls
     (p < f.rxDone ∨ p ∈ f.rxPerf) ∧ f.ackDue = true ∧ (getFlow s peer cls).rxDone ≤ f.rxDone) := by
  by_cases hd : p < (getFlow s peer cls).rxDone
  · exact .inl hd
  · refine (getFlow_markPerf s peer cls p).imp_right (Or.imp_right fun h => ?_)
    dsimp only
    rw [h]
    exact ⟨mem_slide _ _ _ _ List.mem_cons_self (Nat.le_of_not_lt hd), rfl, (slide_spec _ _ _ (Nat.le_refl _)).1⟩

/-! ## The request a response answers (R321, R331) -/

@[simp] theorem arrived_sent (s : State) (f : Frame) : (getFlow (arrived s f) f.src f.cls).sent = (getFlow s f.src f.cls).sent := by
  rw [getFlow_arrived]
  show (rxFlow s f).sent = _
  unfold rxFlow
  dsimp only
  split <;> rfl

theorem find?_of_unique {α : Type} {p : α → Bool} {xs : List α} {x : α} (hx : x ∈ xs) (hp : p x = true) (hu : ∀ y ∈ xs, p y = true → y = x) :
    xs.find? p = some x := by
  cases h : xs.find? p with
  | none => exact absurd hp (List.find?_eq_none.1 h x hx)
  | some y => rw [hu y (List.mem_of_find?_eq_some h) (List.find?_some h)]

/-- The request that the response in `f` answers is `x`: no other has its packet number, and no response came for it. -/
def Answers (s : State) (f : Frame) (x : Sent) : Prop :=
  x ∈ (getFlow s f.src f.cls).sent ∧ x.psn % 2 ^ 24 = f.op.reqPsn ∧ (∀ y ∈ (getFlow s f.src f.cls).sent, y.psn % 2 ^ 24 = f.op.reqPsn → y = x) ∧
    x.answered = false ∧ x.op.kind.toNat < 0x80

theorem Answers.find {s : State} {f : Frame} {x : Sent} (h : Answers s f x) {kind : Nat} (hk : kind = 0 ∨ x.op.kind.toNat = kind) :
    (getFlow (arrived s f) f.src f.cls).sent.find? (fun x => x.psn % 2 ^ 24 == f.op.reqPsn && !x.answered && decide (x.op.kind.toNat < 0x80) &&
      (kind == 0 || x.op.kind.toNat == kind)) = some x := by
  obtain ⟨hx, hp, hu, ha, hlt⟩ := h
  rw [arrived_sent]
  refine find?_of_unique hx (by simpa [-Nat.reducePow, hp, ha, hlt] using hk) fun y hy hc => hu y hy ?_
  simp only [Bool.and_eq_true, beq_iff_eq] at hc
  exact hc.1.1.1

/-- The flow once the response is noted with the request. -/
def noted (s : State) (f : Frame) (psn : Nat) (g : Sent → Sent) : State :=
  setFlow (arrived s f) { getFlow (arrived s f) f.src f.cls with
    sent := mapIf (fun y => y.psn == psn) g (getFlow (arrived s f) f.src f.cls).sent }

theorem getFlow_noted (s : State) (f : Frame) (psn : Nat) (g : Sent → Sent) : (getFlow (noted s f psn g) f.src f.cls).sent =
    mapIf (fun y => y.psn == psn) g (getFlow s f.src f.cls).sent := by
  unfold noted
  rw [getFlow_setFlow _ _ (by exact getFlow_peer _ _ _) (by exact getFlow_cls _ _ _), arrived_sent]

theorem rxReply_completes {s : State} {f : Frame} {x : Sent} (h : Answers s f x) {kind : Nat} (hk : kind = 0 ∨ x.op.kind.toNat = kind)
    (ha : answeredKind x.op.kind = true) (p : Nat) (st : W16) (detail : W32) (data : List Byte) (operand : W64) :
    rxReply (arrived s f) f p kind st detail data operand =
      markPerf (settleOps (pktComplete (noted s f x.psn (fun y => { y with answered := true })) x f.src f.cls st detail data operand)) f.src f.cls p := by
  unfold rxReply
  dsimp only
  rw [h.find hk]
  dsimp only
  rw [if_pos ha]
  rfl

theorem rxReply_fails {s : State} {f : Frame} {x : Sent} (h : Answers s f x) {kind : Nat} (hk : kind = 0 ∨ x.op.kind.toNat = kind)
    (ha : answeredKind x.op.kind = false) (p : Nat) (st : W16) (detail : W32) (data : List Byte) (operand : W64) :
    rxReply (arrived s f) f p kind st detail data operand = markPerf (noted s f x.psn (fun y => { y with failed := some (st, detail) })) f.src f.cls p := by
  unfold rxReply
  dsimp only
  rw [h.find hk]
  dsimp only
  rw [if_neg (by simp [ha])]
  rfl

theorem rxReply_unasked {s : State} {f : Frame} (h : ∀ y ∈ (getFlow s f.src f.cls).sent, y.psn % 2 ^ 24 ≠ f.op.reqPsn) (p kind : Nat) (st : W16) (detail : W32)
    (data : List Byte) (operand : W64) : rxReply (arrived s f) f p kind st detail data operand = markPerf (arrived s f) f.src f.cls p := by
  have hnone : (getFlow (arrived s f) f.src f.cls).sent.find? (fun x => x.psn % 2 ^ 24 == f.op.reqPsn && !x.answered && decide (x.op.kind.toNat < 0x80) &&
      (kind == 0 || x.op.kind.toNat == kind)) = none := by
    rw [arrived_sent, List.find?_eq_none]
    intro y hy hc
    simp only [Bool.and_eq_true, beq_iff_eq] at hc
    exact h y hy hc.1.1.1
  unfold rxReply
  dsimp only
  rw [hnone]

theorem forall_mapIf {α : Type} {p : α → Bool} {g : α → α} {P : α → Prop} {xs : List α} (h1 : ∀ y, p y = true → P (g y)) (h2 : ∀ y, p y = false → P y) :
    ∀ y ∈ mapIf p g xs, P y := by
  intro y hy
  obtain ⟨z, -, rfl⟩ := List.mem_map.1 hy
  cases hz : p z with
  | true => simpa [hz] using h1 z hz
  | false => simpa [hz] using h2 z hz

/-- A read's or an atomic's bytes go into the operation that waits for them. -/
theorem pktComplete_op {s : State} {x : Sent} {id : Nat} (ho : x.owner = .op id) (peer cls : Nat) (data : List Byte) (operand : W64) :
    pktComplete s x peer cls 0 0 data operand = modOp s id (fun o =>
      { o with res := if x.op.kind = 6 then putBytesV o.res 0 (leBytes 8 operand.toNat) else putBytesV o.res (offOf x.op.addr - offOf o.addr) data
               status := if o.status = 0 then 0 else o.status }) := by
  unfold pktComplete
  rw [ho]
  rfl

/-- Settles O55: a response finds the request at its packet number. -/
theorem responseRows : Obligations.ResponseRows := by
  unfold Obligations.ResponseRows
  refine ⟨fun r hr s f x ha hk hx hp hu hans hkind => ?_, fun s f x ha hk hx hp hu hans => ⟨fun hkind => ?_, fun hkind => ?_⟩, fun r hr s f ha hk hno => ?_,
    fun s x peer cls id o data operand hown hmem hid hst => ?_, fun s peer cls p => markPerf_marks s peer cls p⟩
  · simp only [List.mem_cons, List.not_mem_nil, or_false] at hr
    rcases hr with rfl | rfl | rfl
    · have hans : Answers s f x := ⟨hx, hp, hu, hans, by rw [hkind]; decide⟩
      rw [exec_getResp hk, rxData_accepted ha, rxReply_completes hans (.inr (by rw [hkind]; rfl)) (by rw [hkind]; rfl)]
      rfl
    · have hans : Answers s f x := ⟨hx, hp, hu, hans, by rw [hkind]; decide⟩
      rw [exec_atomicResp hk, rxData_accepted ha, rxReply_completes hans (.inr (by rw [hkind]; rfl)) (by rw [hkind]; rfl)]
      rfl
    · have hans : Answers s f x := ⟨hx, hp, hu, hans, by rw [hkind]; decide⟩
      rw [exec_commandReply hk, rxData_accepted ha, rxReply_completes hans (.inr (by rw [hkind]; rfl)) (by rw [hkind]; rfl)]
      rfl
  · have hall : ∀ k ∈ ([5, 6, 7] : List Byte), k.toNat < 0x80 ∧ answeredKind k = true := by decide
    have hans : Answers s f x := ⟨hx, hp, hu, hans, (hall _ hkind).1⟩
    refine gives_next ((exec_errorResp hk s).trans (congrArg _ (rxData_accepted ha))) ⟨noted s f x.psn (fun y => { y with answered := true }), ?_, ?_⟩
    · exact rxReply_completes hans (.inl rfl) (hall _ hkind).2 _ _ _ _ _
    · rw [getFlow_noted]
      exact forall_mapIf (fun y _ _ => rfl) fun y hy he => by simp [he] at hy
  · have hall : ∀ k ∈ ([1, 2, 3, 4] : List Byte), k.toNat < 0x80 ∧ answeredKind k = false := by decide
    have hans : Answers s f x := ⟨hx, hp, hu, hans, (hall _ hkind).1⟩
    refine gives_next ((exec_errorResp hk s).trans (congrArg _ ((rxData_accepted ha).trans (rxReply_fails hans (.inl rfl) (hall _ hkind).2 _ _ _ _ _)))) ⟨?_, ?_⟩
    · rw [markPerf_sent, getFlow_noted]
      exact forall_mapIf (fun y _ _ => rfl) fun y hy he => by simp [he] at hy
    · have hw : Within [.bar, .fab] s (markPerf (noted s f x.psn (fun y => { y with failed := some (f.op.status, BitVec.ofNat 32 f.op.len) })) f.src f.cls (psnOf s f)) :=
        markPerf_within.after (setFlow_within.after (arrived_within s f))
      exact ⟨hw.same .cores (by decide), hw.same .hoists (by decide)⟩
  · simp only [List.mem_cons, List.not_mem_nil, or_false] at hr
    rcases hr with rfl | rfl | rfl | rfl
    · rw [exec_getResp hk, rxData_accepted ha, rxReply_unasked hno]
    · rw [exec_atomicResp hk, rxData_accepted ha, rxReply_unasked hno]
    · rw [exec_commandReply hk, rxData_accepted ha, rxReply_unasked hno]
    · rw [exec_errorResp hk, rxData_accepted ha, rxReply_unasked hno]
  · rw [pktComplete_op hown]
    refine ⟨_, List.mem_map.2 ⟨o, hmem, if_pos (decide_eq_true hid)⟩, hid, ?_, fun h5 => ?_, fun h6 => ?_⟩
    · exact if_pos hst
    · exact if_neg (by rw [h5]; decide)
    · exact if_pos h6

end Sys2Proof.Claims
end

section
/-! PROOFS. What sending leaves of the registers and of a flow. -/
namespace Sys2Proof.Claims
open Sys2Proof.Machine

/-! ## One packet sent -/

/-- The flow once the head of its waiting packets, now `y`, has joined those sent on a path. -/
def withSent (s : State) (f : Flow) (y : Sent) (rest : List Sent) (path : Nat) : Flow :=
  let f' := { f with next := f.next + 1, waitq := rest, sent := f.sent ++ [y], nextPath := (path + 1) % pathsOf s }
  if f.sent.all (·.received) then { f' with lastAdvance := mono s } else f'

/-- The packet that goes, with its number, path and time. -/
def headSent (s : State) (f : Flow) (x : Sent) : Sent :=
  { x with psn := f.next, path := choosePath s f f.nextPath, sentAt := mono s, firstAt := mono s }

/-- The packet is charged to its partition's bucket of the port it leaves on. -/
def headCharged (s : State) (peer cls : Nat) (x : Sent) (path : Nat) : State :=
  match x.charge, pathSub s peer cls path with
  | some p, some sub => if sub / 8 < 4 then bucketCharge s p (8 + sub / 8) (packetBytes s peer x) else s
  | _, _ => s

/-- The state once the head of a flow's waiting packets has been sent. -/
def sendHead (s : State) (peer cls : Nat) (x : Sent) (rest : List Sent) : State :=
  let f := getFlow s peer cls
  let y := headSent s f x
  let u := headCharged s peer cls y y.path
  let f' := withSent u f y rest y.path
  sendData (setFlow u f') f' y y.path false

theorem headCharged_within (s : State) (peer cls : Nat) (x : Sent) (path : Nat) : Within [.parts] s (headCharged s peer cls x path) := by
  unfold headCharged
  split
  · exact .ite (bucketCharge_within.after .rfl) .rfl
  · exact .rfl

theorem pumpFlow_succ (s : State) (peer cls n : Nat) : pumpFlow s peer cls (n + 1) =
    match (getFlow s peer cls).waitq with
    | [] => s
    | x :: rest => if mayGo s (getFlow s peer cls) x then pumpFlow (sendHead s peer cls x rest) peer cls n else s := by
  conv => lhs; unfold pumpFlow
  dsimp only
  cases h : (getFlow s peer cls).waitq with
  | nil => rfl
  | cons x rest =>
    dsimp only
    split
    · rfl
    · rfl

/-- What every packet sent keeps, a flow's sending keeps. -/
theorem pumpFlow_keeps {P : State → Prop} {peer cls : Nat} (hs : ∀ s x rest, (getFlow s peer cls).waitq = x :: rest → P s → P (sendHead s peer cls x rest))
    (n : Nat) : ∀ s, P s → P (pumpFlow s peer cls n) := by
  induction n with
  | zero => exact fun s h => h
  | succ n ih =>
    intro s h
    rw [pumpFlow_succ]
    cases hq : (getFlow s peer cls).waitq with
    | nil => exact h
    | cons x rest =>
      dsimp only
      split
      · exact ih _ (hs s x rest hq h)
      · exact h

/-! ## Registers -/

/-- A change of other pieces leaves the registers. -/
theorem rd_of_within {P : List Piece} {s t : State} (h : Within P s t) (off : Nat) (hb : .bar ∉ P := by decide) : rd t off = rd s off := by
  unfold rd; rw [show t.bar = s.bar from h.same .bar hb, h.grade]

theorem rf_of_within {P : List Piece} {s t : State} (h : Within P s t) (off lo n : Nat) (hb : .bar ∉ P := by decide) : rf t off lo n = rf s off lo n := by
  unfold rf; rw [rd_of_within h off hb]

theorem rd_sendData {s : State} {off : Nat} (f : Flow) (x : Sent) (path : Nat) (retx : Bool) (h : off % 0x1000 ≠ 0x60) :
    rd (sendData s f x path retx) off = rd s off := by
  have hne (k : Nat) : off ≠ FAB_PORT_TALLY_STATUS k := fun e => h (e ▸ tallyStatus_mod k)
  unfold sendData
  split
  · next n _ =>
    have hout : rd (sendOut s (wireOf s f.peer n) (.data (wireOf s f.peer n) (dataHeader s f x path retx) x.op x.payload x.msg) (packetBytes s f.peer x)) off = rd s off :=
      rd_of_within sendOut_within off
    dsimp only
    split
    · rw [rd_bump_ne _ _ _ (hne _), rd_bump_ne _ _ _ (hne _), hout]
    · rw [rd_bump_ne _ _ _ (hne _), hout]
  · rfl

theorem rd_sendHead {s : State} {off : Nat} (peer cls : Nat) (x : Sent) (rest : List Sent) (h : off % 0x1000 ≠ 0x60) :
    rd (sendHead s peer cls x rest) off = rd s off := by
  unfold sendHead
  dsimp only
  rw [rd_sendData _ _ _ _ h]
  exact rd_of_within (headCharged_within s peer cls _ _) off

theorem rd_pump {s : State} {off : Nat} (peer cls : Nat) (h : off % 0x1000 ≠ 0x60) : rd (pump s peer cls) off = rd s off :=
  pumpFlow_keeps (P := fun t => rd t off = rd s off) (fun _ x rest _ ht => (rd_sendHead peer cls x rest h).trans ht) _ s rfl

theorem rd_pumps {s : State} {off : Nat} (fs : List Flow) (h : off % 0x1000 ≠ 0x60) :
    rd (fs.foldl (fun s f => pump s f.peer f.cls) s) off = rd s off :=
  List.foldlRecOn fs _ (motive := fun t => rd t off = rd s off) rfl fun _ ht f _ => (rd_pump f.peer f.cls h).trans ht

end Sys2Proof.Claims
end

section
/-! PROOFS. Links that come up and drop, neighbours, and the frames that are no Level packets. -/
namespace Sys2Proof.Claims
open Sys2Proof.Machine

/-! ## The link register of a port (R311, R341) -/

theorem subUp_iff {s : State} {p i : Nat} (hi : i < 8) : subUp s p i = true ↔ rf s (FAB_PORT_LINK p) (2 + i) 1 = 1 := by
  unfold subUp nbit rf
  rw [beq_iff_eq]
  generalize (rd s (FAB_PORT_LINK p)).toNat = v
  interval_cases i <;> omega

theorem rf_lt (s : State) (off lo n : Nat) : rf s off lo n < 2 ^ n := Nat.mod_lt _ (Nat.two_pow_pos n)

theorem subUp_lt {s : State} {p i : Nat} (h : subUp s p i = true) : i < 8 := by
  by_contra hi
  have hlt : rf s (FAB_PORT_LINK p) 2 8 < 2 ^ i := Nat.lt_of_lt_of_le (rf_lt _ _ _ _) (Nat.pow_le_pow_right (by decide) (Nat.le_of_not_lt hi))
  unfold subUp nbit at h
  rw [Nat.div_eq_of_lt hlt] at h
  cases h

theorem subUp_congr {s t : State} {p i : Nat} (h : rd t (FAB_PORT_LINK p) = rd s (FAB_PORT_LINK p)) : subUp t p i = subUp s p i := by
  unfold subUp rf; rw [h]

theorem subUp_wf_same {s : State} {p j v : Nat} (hj : j < 8) : subUp (wf s (FAB_PORT_LINK p) (2 + j) 1 v) p j = true ↔ v % 2 = 1 := by
  rw [subUp_iff hj, rf_wf_same _ _ _ _ _ (by omega), Nat.pow_one]

theorem subUp_wf_other {s : State} {p i l n v : Nat} (hi : i < 8) (hl : l + n ≤ 32) (hd : 2 + i + 1 ≤ l ∨ l + n ≤ 2 + i) :
    subUp (wf s (FAB_PORT_LINK p) l n v) p i = subUp s p i := by
  rw [Bool.eq_iff_iff, subUp_iff hi, subUp_iff hi, rf_wf_other _ _ _ _ _ _ _ hl hd]

theorem link_mod (p : Nat) : FAB_PORT_LINK p % 0x1000 = 0 := by
  unfold FAB_PORT_LINK; split <;> omega

theorem lane_mod (p : Nat) : FAB_PORT_LANE p % 0x1000 = 4 := by
  unfold FAB_PORT_LANE; split <;> omega

theorem lane_ne_link (p : Nat) : FAB_PORT_LANE p ≠ FAB_PORT_LINK p := fun h => by
  have h1 := lane_mod p
  rw [h, link_mod] at h1
  cases h1

/-- The registers of a port's link stand below those of the error log and of the trace unit. -/
theorem rd_logPort {s : State} {p off : Nat} (k subs detail : Nat) (hp : p ≤ 4) (ho : off = FAB_PORT_LINK p ∨ off = FAB_PORT_LANE p) :
    rd (logPort s k subs detail) off = rd s off := by
  have hlt : off < 0x0700000 := by
    rcases ho with rfl | rfl
    · unfold FAB_PORT_LINK; split <;> omega
    · unfold FAB_PORT_LANE; split <;> omega
  exact rd_logErr_ne _ _ (show off ≠ 0x0B00004 by omega) (show off ≠ 0x0B00000 by omega) (show off ≠ 0x0C03010 by omega)

/-! ## A link that comes up (R311, R352) -/

/-- The registers once a sub-port is up. -/
def raised (s : State) (p j : Nat) : State :=
  let m := rf s (FAB_PORT_LINK p) 0 2
  let s := wf s (FAB_PORT_LINK p) (2 + j) 1 1
  let s := wr s (FAB_PORT_LANE p) (rd s (FAB_PORT_LANE p) ||| BitVec.ofNat 32 (subLanes m j))
  if (List.range (modeSubs m)).all (fun i => subUp s p i) then wf s (FAB_PORT_LINK p) 10 1 0 else s

/-- The latencies that it measures are noted. -/
def latencyNoted (s : State) (p j : Nat) : State :=
  let (rx, s) := draw s 32
  let (tx, s) := draw s 32
  { s with time := { s.time with latency := tput s.time.latency (8 * p + j) (rx.toNat, tx.toNat) } }

/-- The state after LINK_UP. -/
def linkedUp (s : State) (p j : Nat) : State :=
  let s := notePaths (latencyNoted (logPort (raised s p j) p (2 ^ j) 1) p j)
  s.fab.flows.foldl (fun s f => pump s f.peer f.cls) s

theorem exec_linkUp {s : State} {p j : Nat} (hl : portLive s = true) (hp : p ≤ 4) (hj : j < modeSubs (rf s (FAB_PORT_LINK p) 0 2)) (hu : subUp s p j = false)
    (ho : p ∉ s.faults.portsOut) : exec (.linkUp p j) s = .next (linkedUp s p j) := by
  refine if_neg ?_
  rw [hl, hu, decide_eq_false (Nat.not_lt.2 hp), decide_eq_false (Nat.not_le.2 hj), decide_eq_false ho]
  decide

theorem exec_linkUp_idle {s : State} {p j : Nat} (h : p ∈ s.faults.portsOut ∨ modeSubs (rf s (FAB_PORT_LINK p) 0 2) ≤ j) : exec (.linkUp p j) s = .next s := by
  refine if_pos ?_
  rcases h with h | h
  · rw [decide_eq_true h, Bool.or_true]
  · rw [decide_eq_true h, Bool.or_true, Bool.true_or, Bool.true_or]

theorem modeSubs_le (m : Nat) : modeSubs m ≤ 8 := by
  unfold modeSubs; split <;> decide

theorem raised_within (s : State) (p j : Nat) : Within [.bar] s (raised s p j) := by
  unfold raised
  exact .iteThen (wr_within.after (wf_within.after .rfl)) (wf_within.after .rfl)

theorem latencyNoted_within (s : State) (p j : Nat) : Within [.fresh, .time] s (latencyNoted s p j) := by
  unfold latencyNoted
  dsimp only
  exact .time (draw_within.after (draw_within.after .rfl))

theorem latencyNoted_sec (s : State) (p j : Nat) : (latencyNoted s p j).time.sec = s.time.sec := rfl
theorem latencyNoted_ns (s : State) (p j : Nat) : (latencyNoted s p j).time.ns = s.time.ns := rfl
theorem latencyNoted_latency (s : State) (p j : Nat) : (latencyNoted s p j).time.latency =
    tput s.time.latency (8 * p + j) ((draw s 32).1.toNat, (draw (draw s 32).2 32).1.toNat) := rfl

theorem raisedLogged_time (s : State) (p j : Nat) : (logPort (raised s p j) p (2 ^ j) 1).time = s.time := by
  have hw : Within [.bar, .faults, .trace] s (logPort (raised s p j) p (2 ^ j) 1) := logErr_within.after ((raised_within s p j).mono)
  exact hw.same .time (by decide)

theorem rf_congr {s t : State} {off : Nat} (h : rd t off = rd s off) (lo n : Nat) : rf t off lo n = rf s off lo n := by
  unfold rf; rw [h]

theorem rd_linkedUp {s : State} {p j off : Nat} (hp : p ≤ 4) (ho : off = FAB_PORT_LINK p ∨ off = FAB_PORT_LANE p) : rd (linkedUp s p j) off = rd (raised s p j) off := by
  have hoff : off % 0x1000 ≠ 0x60 := by
    rcases ho with rfl | rfl
    · rw [link_mod]; decide
    · rw [lane_mod]; decide
  unfold linkedUp
  dsimp only
  rw [rd_pumps _ hoff, rd_of_within notePaths_within, rd_of_within (latencyNoted_within _ p j), rd_logPort _ _ _ hp ho]

theorem linkedUp_time (s : State) (p j : Nat) : (linkedUp s p j).time = (latencyNoted (logPort (raised s p j) p (2 ^ j) 1) p j).time := by
  have hw : Within [.bar, .parts, .fab] (latencyNoted (logPort (raised s p j) p (2 ^ j) 1) p j) (linkedUp s p j) := by
    unfold linkedUp
    exact .foldl (fun s f => pump_within) (notePaths_within.mono)
  exact hw.same .time (by decide)

theorem raised_lane (s : State) (p j : Nat) : rd (raised s p j) (FAB_PORT_LANE p) =
    rd s (FAB_PORT_LANE p) ||| BitVec.ofNat 32 (subLanes (rf s (FAB_PORT_LINK p) 0 2) j) := by
  unfold raised
  dsimp only
  split
  · rw [rd_wf_ne _ _ _ _ (lane_ne_link p), rd_wr_same, rd_wf_ne _ _ _ _ (lane_ne_link p)]
  · rw [rd_wr_same, rd_wf_ne _ _ _ _ (lane_ne_link p)]

/-- Without the field that says the port trains, the register has the sub-port's bit set. -/
theorem raised_subUp {s : State} {p j i : Nat} (hj : j < 8) (hi : i < 8) : subUp (raised s p j) p i = (decide (i = j) || subUp s p i) := by
  have hbase : subUp (wf s (FAB_PORT_LINK p) (2 + j) 1 1) p i = (decide (i = j) || subUp s p i) := by
    by_cases h : i = j
    · subst h; simpa using (subUp_wf_same hi).2 rfl
    · rw [subUp_wf_other hi (by omega) (by omega)]; simp [h]
  have hlane (v : W32) : subUp (wr (wf s (FAB_PORT_LINK p) (2 + j) 1 1) (FAB_PORT_LANE p) v) p i = subUp (wf s (FAB_PORT_LINK p) (2 + j) 1 1) p i :=
    subUp_congr (rd_wr_ne _ _ (lane_ne_link p).symm)
  unfold raised
  dsimp only
  split
  · rw [subUp_wf_other hi (by omega) (by omega), hlane, hbase]
  · rw [hlane, hbase]

theorem raised_trained {s : State} {p j : Nat} (hj : j < modeSubs (rf s (FAB_PORT_LINK p) 0 2))
    (h : ∀ i, i < modeSubs (rf s (FAB_PORT_LINK p) 0 2) → i ≠ j → subUp s p i = true) : rf (raised s p j) (FAB_PORT_LINK p) 10 1 = 0 := by
  have hm := modeSubs_le (rf s (FAB_PORT_LINK p) 0 2)
  unfold raised
  dsimp only
  refine (congrArg (fun t => rf t (FAB_PORT_LINK p) 10 1) (if_pos ?_)).trans (rf_wf_same _ _ _ _ _ (by decide))
  rw [List.all_eq_true]
  intro i hi
  have hi := List.mem_range.1 hi
  rw [subUp_congr (rd_wr_ne _ _ (lane_ne_link p).symm)]
  by_cases hij : i = j
  · subst hij; exact (subUp_wf_same (by omega)).2 rfl
  · rw [subUp_wf_other (by omega) (by omega) (by omega)]; exact h i hi hij

/-! ## A link that drops -/

/-- The registers once a sub-port has dropped. -/
def lowered (s : State) (p j : Nat) : State :=
  let m := rf s (FAB_PORT_LINK p) 0 2
  let s := wf (wf s (FAB_PORT_LINK p) (2 + j) 1 0) (FAB_PORT_LINK p) 10 1 1
  wr s (FAB_PORT_LANE p) (rd s (FAB_PORT_LANE p) &&& ~~~(BitVec.ofNat 32 (subLanes m j)))

theorem exec_linkDown {s : State} {p j : Nat} (hp : p ≤ 4) (hu : subUp s p j = true) :
    exec (.linkDown p j) s = .next (notePaths (logPort (lowered s p j) p (2 ^ j) 0)) := by
  refine if_neg ?_
  simp [hu]
  omega

theorem rd_lowered_link (s : State) (p j : Nat) : rd (lowered s p j) (FAB_PORT_LINK p) =
    rd (wf (wf s (FAB_PORT_LINK p) (2 + j) 1 0) (FAB_PORT_LINK p) 10 1 1) (FAB_PORT_LINK p) := rd_wr_ne _ _ (lane_ne_link p).symm

theorem lowered_subUp {s : State} {p j i : Nat} (hj : j < 8) (hi : i < 8) : subUp (lowered s p j) p i = (!decide (i = j) && subUp s p i) := by
  rw [subUp_congr (rd_lowered_link s p j), subUp_wf_other hi (by omega) (by omega)]
  by_cases h : i = j
  · subst h
    rw [Bool.eq_false_iff.2 fun hc => absurd ((subUp_wf_same hi).1 hc) (by decide)]
    simp
  · rw [subUp_wf_other hi (by omega) (by omega)]; simp [h]

theorem lowered_lane (s : State) (p j : Nat) : rd (lowered s p j) (FAB_PORT_LANE p) =
    rd s (FAB_PORT_LANE p) &&& ~~~(BitVec.ofNat 32 (subLanes (rf s (FAB_PORT_LINK p) 0 2) j)) := by
  unfold lowered
  dsimp only
  rw [rd_wr_same, rd_wf_ne _ _ _ _ (lane_ne_link p), rd_wf_ne _ _ _ _ (lane_ne_link p)]

theorem usable_congr {s t : State} (hb : t.bar = s.bar) (hg : t.grade = s.grade) (hp : t.fab.peers = s.fab.peers) (peer cls : Nat) : usable t peer cls = usable s peer cls := by
  have hrf (off lo n : Nat) : rf t off lo n = rf s off lo n := by unfold rf rd; rw [hb, hg]
  have hsub (k j : Nat) : subUp t k j = subUp s k j := by unfold subUp; rw [hrf]
  unfold usable twinNode peerOf ports
  simp only [hsub, hrf, hp, hg]

/-- Every flow says whether its peer has a usable sub-port. -/
theorem notePaths_noPath {s : State} {f : Flow} (h : f ∈ (notePaths s).fab.flows) : f.noPath.isSome = true ↔ usable s f.peer f.cls = [] := by
  obtain ⟨g, -, rfl⟩ := List.mem_map.1 h
  dsimp only
  split
  · next hu => simp [hu]
  · next hu => simp [hu]

/-! ## Neighbours (R312) -/

theorem find?_filter_ne {α β : Type} [DecidableEq α] (xs : List (α × β)) {a b : α} (h : b ≠ a) :
    (xs.filter (fun x => decide (x.1 ≠ a))).find? (fun x => x.1 == b) = xs.find? (fun x => x.1 == b) := by
  induction xs with
  | nil => rfl
  | cons x xs ih =>
    by_cases hx : x.1 = a
    · have hb : ¬(x.1 == b) = true := by simpa [hx] using fun e : a = b => h e.symm
      rw [List.filter_cons_of_neg (by simp [hx]), ih]
      exact (List.find?_cons_of_neg (p := fun y : α × β => y.1 == b) hb).symm
    · rw [List.filter_cons_of_pos (by simp [hx]), List.find?_cons, List.find?_cons, ih]

theorem awaitsHop_resolved (f : TxFrame) (a : BitVec 128) (mac : BitVec 48) : awaitsHop a (f.resolved a mac) = false := by
  unfold TxFrame.resolved
  split
  · next h => simpa using h
  · cases f <;> simp_all [awaitsHop, TxFrame.wire]

/-- The row for a neighbour's message by its address family. -/
theorem neighbour_row {s : State} {n : Neighbour} {c : Instr} (h : (n.v6 = true ∧ c = Instr.neighbourDiscovery n) ∨ (n.v6 = false ∧ c = Instr.arp n)) :
    exec c s = .next (resolve s n) := by
  rcases h with ⟨h, rfl⟩ | ⟨h, rfl⟩
  · exact congrArg Host.Outcome.next (if_pos h)
  · exact congrArg Host.Outcome.next (if_neg (by simp [h]))

/-- A message that changes nothing leaves both rows without effect. -/
theorem neighbour_idle {s : State} {n : Neighbour} (h : resolve s n = s) : exec (.neighbourDiscovery n) s = .next s ∧ exec (.arp n) s = .next s := by
  constructor
  · show Host.Outcome.next (if n.v6 then resolve s n else s) = _
    rw [h, ite_self]
  · show Host.Outcome.next (if n.v6 then s else resolve s n) = _
    rw [h, ite_self]

/-- An answer's address is learnt, and what waited for it leaves. -/
theorem resolve_learns {s : State} {n : Neighbour} (hn : neighUp s n = true) (hr : n.request = false) : resolve s n =
    { s with fab := { s.fab with
      neigh := (n.senderAddr, n.senderMac) :: s.fab.neigh.filter (fun x => decide (x.1 ≠ n.senderAddr))
      tx := s.fab.tx.map (fun f => f.resolved n.senderAddr n.senderMac) } } := by
  simp [resolve, hn, hr]

theorem lowered_within (s : State) (p j : Nat) : Within [.bar] s (lowered s p j) := by
  unfold lowered
  exact wr_within.after (wf_within.after (wf_within.after .rfl))

theorem notePaths_sent (s : State) : (notePaths s).fab.flows.map (·.sent) = s.fab.flows.map (·.sent) := by
  show (s.fab.flows.map _).map _ = _
  rw [List.map_map]
  rfl

/-- Settles O57: a sub-port's bit, the field that says the port trains, and the lanes, written one after the other. -/
theorem linkRows : Obligations.LinkRows := by
  unfold Obligations.LinkRows
  refine ⟨fun s p j hl hp hj hu ho => ?_, fun s p j h => exec_linkUp_idle h, fun s p j hp hu => ?_, fun s n hn => ⟨fun hr ha c hc => ?_, fun hr ha => ?_,
    fun hr c hc => ?_, fun hr ha => ?_, fun h => ?_⟩, fun s k j _ hj h => ?_, fun s n hn => ?_, fun s n hp h6 => ?_, fun s p unknown h => ?_, fun s p unknown h => ?_⟩
  · have hj8 : j < 8 := Nat.lt_of_lt_of_le hj (modeSubs_le _)
    have hlink := rd_linkedUp (j := j) (s := s) hp (.inl rfl)
    refine gives_next (exec_linkUp hl hp hj hu ho) ⟨?_, fun i hi hne => ?_, ?_, ?_, ?_, ?_, fun hall => ?_⟩
    · rw [subUp_congr hlink, raised_subUp hj8 hj8]; simp
    · rw [subUp_congr hlink, raised_subUp hj8 hi]; simp [hne]
    · rw [rd_linkedUp hp (.inr rfl), raised_lane]
    · rw [linkedUp_time, latencyNoted_latency]
      exact congrArg Option.isSome (tfind_tput_same _ _ _)
    · rw [linkedUp_time, latencyNoted_sec, raisedLogged_time]
    · rw [linkedUp_time, latencyNoted_ns, raisedLogged_time]
    · exact (rf_congr hlink 10 1).trans (raised_trained hj hall)
  · have hj8 := subUp_lt hu
    have hw : Within [.bar, .faults, .trace] s (logPort (lowered s p j) p (2 ^ j) 0) :=
      logErr_within.after ((lowered_within s p j).mono)
    have hn : Within [.fab] (logPort (lowered s p j) p (2 ^ j) 0) (notePaths (logPort (lowered s p j) p (2 ^ j) 0)) := notePaths_within
    have hfab : (logPort (lowered s p j) p (2 ^ j) 0).fab = s.fab := hw.same .fab (by decide)
    have hlink : rd (notePaths (logPort (lowered s p j) p (2 ^ j) 0)) (FAB_PORT_LINK p) = rd (lowered s p j) (FAB_PORT_LINK p) := by
      rw [rd_of_within hn, rd_logPort _ _ _ hp (.inl rfl)]
    refine gives_next (exec_linkDown hp hu) ⟨?_, ?_, fun i hi hne => ?_, ?_, ?_, ?_, ?_, fun f hf => ?_⟩
    · rw [subUp_congr hlink, lowered_subUp hj8 hj8]; simp
    · exact (rf_congr (hlink.trans (rd_lowered_link s p j)) 10 1).trans (rf_wf_same _ _ _ _ _ (by decide))
    · rw [subUp_congr hlink, lowered_subUp hj8 hi]; simp [hne]
    · rw [rd_of_within hn, rd_logPort _ _ _ hp (.inr rfl), lowered_lane]
    · exact congrArg (·.tx) hfab
    · exact congrArg (·.peers) hfab
    · rw [notePaths_sent, hfab]
    · rw [usable_congr (s := logPort (lowered s p j) p (2 ^ j) 0) (hn.same .bar (by decide)) hn.grade rfl]
      exact notePaths_noPath hf
  · have hres : resolve s n = txPush s (.neighbour n.port n.sub n.target (portMac s n.port n.sub)) := by
      simp [resolve, hn, hr, ha]
    exact gives_next (neighbour_row hc) (by rw [hres]; exact ⟨rfl, rfl⟩)
  · exact neighbour_idle (by simp [resolve, hn, hr, ha])
  · refine gives_next (neighbour_row hc) ?_
    rw [resolve_learns hn hr]
    refine ⟨List.find?_cons_of_pos (by simp), fun a hne => ?_, rfl, fun g hg => ?_⟩
    · exact (List.find?_cons_of_neg (by simpa using fun e : n.senderAddr = a => hne e.symm)).trans (find?_filter_ne _ hne)
    · obtain ⟨f, -, rfl⟩ := List.mem_map.1 hg
      exact awaitsHop_resolved f _ _
  · exact gives_next (show exec (.icmpEcho n) s = .next (txPush s (.echo n.port n.sub n.target)) from
      congrArg Host.Outcome.next (if_pos (by simp [hn, hr, ha]))) rfl
  · refine congrArg Host.Outcome.next (if_neg ?_)
    rcases h with h | h <;> simp [h]
  · unfold portMac
    rw [BitVec.toNat_ofNat, Nat.mod_eq_of_lt (by omega)]
  · refine ⟨(neighbour_idle (by simp [resolve, hn])).1, (neighbour_idle (by simp [resolve, hn])).2, congrArg Host.Outcome.next (if_neg (by simp [hn]))⟩
  · unfold ownAddr
    rw [if_neg (by omega), if_pos h6]
    simp [and_comm]
  · exact ⟨congrArg Host.Outcome.next (if_pos h), congrArg Host.Outcome.next (if_pos h)⟩
  · exact ⟨congrArg Host.Outcome.next (if_neg (by simp [h])), congrArg Host.Outcome.next (if_neg (by simp [h]))⟩

end Sys2Proof.Claims
end

section
/-! PROOFS. What completing packets, settling and sending leave of a flow: the half that acknowledgements move. -/
namespace Sys2Proof.Claims
open Sys2Proof.Machine

/-! ## The sending half of a flow -/

/-- The sending half of a flow stays, but for what waits. -/
structure Kept (f g : Flow) : Prop where
  incarn : g.incarn = f.incarn
  next : g.next = f.next
  rcv : g.rcv = f.rcv
  doneP : g.doneP = f.doneP
  sent : g.sent = f.sent
  srtt : g.srtt = f.srtt
  rttvar : g.rttvar = f.rttvar
  rto : g.rto = f.rto
  lastAdvance : g.lastAdvance = f.lastAdvance
  rate : g.rate = f.rate
  alpha : g.alpha = f.alpha
  eceSeen : g.eceSeen = f.eceSeen

theorem Kept.rfl {f : Flow} : Kept f f := by constructor <;> rfl
theorem Kept.of_eq {f g : Flow} (h : g = f) : Kept f g := h ▸ .rfl
theorem Kept.trans {f g h : Flow} (a : Kept f g) (b : Kept g h) : Kept f h where
  incarn := b.incarn.trans a.incarn
  next := b.next.trans a.next
  rcv := b.rcv.trans a.rcv
  doneP := b.doneP.trans a.doneP
  sent := b.sent.trans a.sent
  srtt := b.srtt.trans a.srtt
  rttvar := b.rttvar.trans a.rttvar
  rto := b.rto.trans a.rto
  lastAdvance := b.lastAdvance.trans a.lastAdvance
  rate := b.rate.trans a.rate
  alpha := b.alpha.trans a.alpha
  eceSeen := b.eceSeen.trans a.eceSeen

theorem Kept.setFlow (s : State) {p c : Nat} {h : Flow} (hp : h.peer = p) (hc : h.cls = c) (hk : Kept (getFlow s p c) h) (peer cls : Nat) :
    Kept (getFlow s peer cls) (getFlow (Machine.setFlow s h) peer cls) := by
  by_cases he : h.peer = peer ∧ h.cls = cls
  · obtain ⟨rfl, rfl⟩ := he
    obtain ⟨rfl, rfl⟩ := And.intro hp hc
    rw [getFlow_setFlow s h (by rfl) (by rfl)]
    exact hk
  · exact .of_eq (getFlow_setFlow_ne s h he)

theorem kept_markPerf (s : State) (p c n peer cls : Nat) : Kept (getFlow s peer cls) (getFlow (markPerf s p c n) peer cls) := by
  unfold markPerf
  dsimp only
  split
  · exact .rfl
  · exact .setFlow s (by exact getFlow_peer _ _ _) (by exact getFlow_cls _ _ _) (by constructor <;> rfl) peer cls

theorem kept_markPerfs (p c : Nat) (ws : List (Nat × Nat)) (peer cls : Nat) (s : State) :
    Kept (getFlow s peer cls) (getFlow (ws.foldl (fun s w => markPerf s p c w.1) s) peer cls) :=
  List.foldlRecOn ws _ (motive := fun t => Kept (getFlow s peer cls) (getFlow t peer cls)) .rfl fun _ ht w _ => ht.trans (kept_markPerf _ p c w.1 peer cls)

theorem kept_settleResponses (s : State) (p c peer cls : Nat) : Kept (getFlow s peer cls) (getFlow (settleResponses s p c) peer cls) := by
  unfold settleResponses
  dsimp only
  refine Kept.trans ?_ (kept_markPerfs p c _ peer cls _)
  exact .setFlow s (by exact getFlow_peer _ _ _) (by exact getFlow_cls _ _ _) (by constructor <;> rfl) peer cls

theorem kept_settleOps (s : State) (peer cls : Nat) : Kept (getFlow s peer cls) (getFlow (settleOps s) peer cls) := .of_eq (getFlow_congr rfl peer cls)

/-! ## A packet completes (R331, R375) -/

/-- What the failure of a packet leaves in the log and the counters. -/
def failureNoted (s : State) (x : Sent) (peer cls : Nat) (st : W16) (detail : W32) : State :=
  let s := if st = 0x0203 ∨ st = 0x0202 then
      logFabric s (match x.owner with | .op _ => 0 | .move _ | .tier _ => 1 | _ => 5) peer cls x.op st detail
    else s
  if st = 0x0202 then bump s FAB_TIMEOUTS FAB_TALLY_STATUS 0 1 else s

theorem failureNoted_within (s : State) (x : Sent) (peer cls : Nat) (st : W16) (detail : W32) :
    Within [.bar, .faults, .trace] s (failureNoted s x peer cls st detail) := by
  unfold failureNoted
  exact .iteThen (.ite (logFabric_within.after .rfl) .rfl) (bump_within.after .rfl)

theorem rd_logFabric {s : State} {off : Nat} (port peer cls : Nat) (op : OpHeader) (st : W16) (detail : W32) (h : off < 0x0700000) :
    rd (logFabric s port peer cls op st detail) off = rd s off :=
  rd_logErr_ne _ _ (show off ≠ 0x0B00004 by omega) (show off ≠ 0x0B00000 by omega) (show off ≠ 0x0C03010 by omega)

theorem twinState_failureNoted (s : State) (x : Sent) (peer cls : Nat) (st : W16) (detail : W32) : twinState (failureNoted s x peer cls st detail) = twinState s := by
  have hlog (port : Nat) : rd (logFabric s port peer cls x.op st detail) TWIN_STATE = rd s TWIN_STATE := rd_logFabric _ _ _ _ _ _ (by decide)
  have hbump (u : State) : rd (bump u FAB_TIMEOUTS FAB_TALLY_STATUS 0 1) TWIN_STATE = rd u TWIN_STATE := rd_bump_ne _ _ _ (by decide)
  refine rf_congr ?_ 0 2
  unfold failureNoted
  dsimp only
  split
  · rw [hbump]
    split
    · exact hlog _
    · rfl
  · split
    · exact hlog _
    · rfl

/-- Completing a packet leaves the flows as they are, or has an item for the twin wait again. -/
theorem pktComplete_flows (s : State) (x : Sent) (peer cls : Nat) (st : W16) (detail : W32) (data : List Byte) (operand : W64) :
    (pktComplete s x peer cls st detail data operand).fab.flows = s.fab.flows ∨
      (twinState s ≠ 0 ∧ ∃ m id, pktComplete s x peer cls st detail data operand = twinEnqueue (failureNoted s x peer cls st detail) m (.twin id)) := by
  have hfab : (failureNoted s x peer cls st detail).fab = s.fab := (failureNoted_within s x peer cls st detail).same .fab (by decide)
  have htwin := twinState_failureNoted s x peer cls st detail
  have hflows {t : State} (h : t.fab.flows = (failureNoted s x peer cls st detail).fab.flows) : t.fab.flows = s.fab.flows := by rw [h, hfab]
  unfold pktComplete
  dsimp only
  split
  · exact .inl (hflows rfl)
  · exact .inl (hflows rfl)
  · refine .inl (hflows ?_)
    unfold modTier
    split <;> rfl
  · next id _ =>
    split
    · exact .inl (hflows rfl)
    · split
      · exact .inl (hflows rfl)
      · split
        · next hpaired _ =>
          refine .inr ⟨fun h0 => ?_, _, id, rfl⟩
          change (decide (twinState (failureNoted s x peer cls st detail) = 1) || decide (twinState (failureNoted s x peer cls st detail) = 2)) = true at hpaired
          rw [htwin, h0] at hpaired
          exact absurd hpaired (by decide)
        · exact .inl (hflows rfl)
  · exact .inl (hflows rfl)

theorem kept_pktComplete (s : State) (x : Sent) (p c : Nat) (st : W16) (detail : W32) (data : List Byte) (operand : W64) (peer cls : Nat) :
    Kept (getFlow s peer cls) (getFlow (pktComplete s x p c st detail data operand) peer cls) := by
  rcases pktComplete_flows s x p c st detail data operand with h | ⟨-, m, id, h⟩
  · exact .of_eq (getFlow_congr h peer cls)
  · have hbase : getFlow (failureNoted s x p c st detail) peer cls = getFlow s peer cls :=
      getFlow_congr (by rw [show (failureNoted s x p c st detail).fab = s.fab from (failureNoted_within s x p c st detail).same .fab (by decide)]) peer cls
    rw [h]
    refine (Kept.of_eq hbase).trans ?_
    unfold twinEnqueue enqueue
    dsimp only
    exact .setFlow _ (by exact getFlow_peer _ _ _) (by exact getFlow_cls _ _ _) (by constructor <;> rfl) peer cls

theorem kept_pktCompletes (p c : Nat) (xs : List Sent) (g : Sent → W16 × W32) (peer cls : Nat) (s : State) :
    Kept (getFlow s peer cls) (getFlow (xs.foldl (fun s x => pktComplete s x p c (g x).1 (g x).2 [] 0) s) peer cls) :=
  List.foldlRecOn xs _ (motive := fun t => Kept (getFlow s peer cls) (getFlow t peer cls)) .rfl fun _ ht x _ => ht.trans (kept_pktComplete _ x p c _ _ _ _ peer cls)

/-! ## Sending (R323) -/

/-- The sending half after some waiting packets have gone at a time: those have the flow's next numbers. -/
structure Pumped (now : Nat) (f g : Flow) : Prop where
  rcv : g.rcv = f.rcv
  doneP : g.doneP = f.doneP
  srtt : g.srtt = f.srtt
  rttvar : g.rttvar = f.rttvar
  rto : g.rto = f.rto
  rate : g.rate = f.rate
  alpha : g.alpha = f.alpha
  eceSeen : g.eceSeen = f.eceSeen
  next : f.next ≤ g.next
  sent : ∀ y ∈ g.sent, y ∈ f.sent ∨ f.next ≤ y.psn
  lastAdvance : g.lastAdvance = f.lastAdvance ∨ g.lastAdvance = now

theorem Pumped.rfl {now : Nat} {f : Flow} : Pumped now f f :=
  ⟨by rfl, by rfl, by rfl, by rfl, by rfl, by rfl, by rfl, by rfl, Nat.le_refl _, fun _ h => .inl h, .inl (by rfl)⟩

theorem Pumped.trans {now : Nat} {f g h : Flow} (a : Pumped now f g) (b : Pumped now g h) : Pumped now f h where
  rcv := b.rcv.trans a.rcv
  doneP := b.doneP.trans a.doneP
  srtt := b.srtt.trans a.srtt
  rttvar := b.rttvar.trans a.rttvar
  rto := b.rto.trans a.rto
  rate := b.rate.trans a.rate
  alpha := b.alpha.trans a.alpha
  eceSeen := b.eceSeen.trans a.eceSeen
  next := a.next.trans b.next
  sent := fun y hy => (b.sent y hy).elim (fun h => a.sent y h) fun h => .inr (a.next.trans h)
  lastAdvance := b.lastAdvance.elim (fun h => h ▸ a.lastAdvance) .inr

theorem pumped_withSent (s : State) (f : Flow) (y : Sent) (rest : List Sent) (path : Nat) (hy : y.psn = f.next) : Pumped (mono s) f (withSent s f y rest path) := by
  have hsent (z : Sent) (hz : z ∈ f.sent ++ [y]) : z ∈ f.sent ∨ f.next ≤ z.psn :=
    (List.mem_append.1 hz).imp_right fun h => Nat.le_of_eq (by rw [List.mem_singleton.1 h, hy])
  unfold withSent
  dsimp only
  split
  · exact ⟨rfl, rfl, rfl, rfl, rfl, rfl, rfl, rfl, Nat.le_succ _, hsent, .inr rfl⟩
  · exact ⟨rfl, rfl, rfl, rfl, rfl, rfl, rfl, rfl, Nat.le_succ _, hsent, .inl rfl⟩

theorem sendData_flows (s : State) (f : Flow) (x : Sent) (path : Nat) (retx : Bool) : (sendData s f x path retx).fab.flows = s.fab.flows := by
  have hb (u : State) (off status bit n : Nat) : (bump u off status bit n).fab = u.fab := bump_within.same .fab (by decide)
  unfold sendData
  split
  · dsimp only
    split
    · rw [hb, hb, sendOut_flows]
    · rw [hb, sendOut_flows]
  · rfl

theorem pump_pumped (s : State) (peer cls : Nat) : Pumped (mono s) (getFlow s peer cls) (getFlow (pump s peer cls) peer cls) := by
  refine (pumpFlow_keeps (P := fun t => t.time = s.time ∧ Pumped (mono s) (getFlow s peer cls) (getFlow t peer cls)) ?_ _ s ⟨rfl, .rfl⟩).2
  rintro t x rest - ⟨htime, hp⟩
  have hu := headCharged_within t peer cls (headSent t (getFlow t peer cls) x) (headSent t (getFlow t peer cls) x).path
  have hmono : mono (headCharged t peer cls (headSent t (getFlow t peer cls) x) (headSent t (getFlow t peer cls) x).path) = mono s := by
    unfold mono; rw [show (headCharged t peer cls _ _).time = t.time from hu.same .time (by decide), htime]
  refine ⟨?_, hp.trans ?_⟩
  · have hw : Within [.bar, .parts, .fab] t (sendHead t peer cls x rest) := sendData_within.after (setFlow_within.after (hu.mono))
    exact (hw.same .time (by decide)).trans htime
  · unfold sendHead
    dsimp only
    have hf := pumped_withSent (headCharged t peer cls (headSent t (getFlow t peer cls) x) (headSent t (getFlow t peer cls) x).path) (getFlow t peer cls)
      (headSent t (getFlow t peer cls) x) rest (headSent t (getFlow t peer cls) x).path rfl
    rw [hmono] at hf
    rw [getFlow_congr (sendData_flows _ _ _ _ _), getFlow_setFlow]
    · exact hf
    · unfold withSent; dsimp only; split <;> exact getFlow_peer _ _ _
    · unfold withSent; dsimp only; split <;> exact getFlow_cls _ _ _

end Sys2Proof.Claims
end

section
/-! PROOFS. Acknowledgements, resets, retransmission, rate, quarantine, and the time-out of operations. -/
namespace Sys2Proof.Claims
open Sys2Proof.Machine

/-! ## An acknowledgement applied (R326, R327, R329) -/

/-- RCV_PSN and DONE_PSN as the flow has them after the body. -/
def ackRcv (f : Flow) (b : AckBody) : Nat := max f.rcv ((psnNear f.rcv b.rcvPsn).getD 0)
def ackDone (f : Flow) (b : AckBody) : Nat := max f.doneP ((psnNear f.doneP b.donePsn).getD 0)

/-- A packet as the body leaves it: received where it says so, and noted as held. -/
def ackSent (s : State) (f : Flow) (b : AckBody) (x : Sent) : Sent :=
  let r := x.received || decide (x.psn < ackRcv f b) || ackReports f b ((psnNear f.rcv b.rcvPsn).getD 0) x.psn
  { x with received := r, heldAt := if r && b.held && decide (ackDone f b ≤ x.psn) then some (mono s) else x.heldAt }

/-- The packets that DONE_PSN leaves in the flow. -/
def ackStays (f : Flow) (b : AckBody) (x : Sent) : Bool := !(decide (x.psn < ackDone f b) && (x.answered || !answeredKind x.op.kind))

/-- The flow as the body leaves it, before what it completes. -/
def ackedFlow (s : State) (f : Flow) (b : AckBody) : Flow :=
  let own := (psnNear f.rcv b.rcvPsn).getD 0
  let new := f.sent.filter (fun x => ackReports f b own x.psn && !x.received)
  let sample := ((new.filter (fun x => !x.resent)).getLast?).map (fun x => mono s - x.sentAt)
  let f1 := match sample with | some m => rttSample f m | none => f
  let f2 := { f1 with sent := f1.sent.map (ackSent s f b), rcv := ackRcv f b, doneP := ackDone f b, latest := new.foldl (fun t x => max t x.sentAt) f.latest }
  let f3 := if f.rcv < ackRcv f b then
      { f2 with lastAdvance := mono s, rto := min 4000000 (max (rtoMinNs s) (f2.srtt + 4 * f2.rttvar)) }
    else f2
  rateCut s f3 b

theorem ackApply_idle {s : State} {peer cls : Nat} {b : AckBody}
    (h : ackRcv (getFlow s peer cls) b < ackDone (getFlow s peer cls) b ∨ (getFlow s peer cls).next < ackRcv (getFlow s peer cls) b) : ackApply s peer cls b = s :=
  if_pos h.symm

/-- Everything that an acknowledgement completes and lets go leaves the flow's other values. -/
theorem ackApply_eq {s : State} {peer cls : Nat} {b : AckBody} (h1 : ackDone (getFlow s peer cls) b ≤ ackRcv (getFlow s peer cls) b)
    (h2 : ackRcv (getFlow s peer cls) b ≤ (getFlow s peer cls).next) : ∃ xs : List Sent, ackApply s peer cls b =
      pump (settleResponses (settleOps (xs.foldl (fun s x => pktComplete s x peer cls (x.failed.getD (0, 0)).1 (x.failed.getD (0, 0)).2 [] 0)
        (setFlow s { ackedFlow s (getFlow s peer cls) b with
          sent := (ackedFlow s (getFlow s peer cls) b).sent.filter (ackStays (getFlow s peer cls) b) }))) peer cls) peer cls := by
  refine ⟨(ackedFlow s (getFlow s peer cls) b).sent.filter (fun x =>
    (decide (x.psn < ackDone (getFlow s peer cls) b) && !x.answered && !answeredKind x.op.kind) && decide (x.op.kind.toNat < 0x80)), ?_⟩
  refine (if_neg ?_).trans ?_
  · exact fun hc => hc.elim (Nat.not_lt.2 h2) (Nat.not_lt.2 h1)
  · rfl


/-- The rate rule keeps all but the rate and what it goes by. -/
theorem rateCut_keeps (s : State) (f : Flow) (b : AckBody) : (rateCut s f b).peer = f.peer ∧ (rateCut s f b).cls = f.cls ∧ (rateCut s f b).next = f.next ∧
    (rateCut s f b).rcv = f.rcv ∧ (rateCut s f b).doneP = f.doneP ∧ (rateCut s f b).sent = f.sent ∧ (rateCut s f b).srtt = f.srtt ∧
    (rateCut s f b).rttvar = f.rttvar ∧ (rateCut s f b).rto = f.rto ∧ (rateCut s f b).lastAdvance = f.lastAdvance := by
  unfold rateCut
  split
  · exact ⟨rfl, rfl, rfl, rfl, rfl, rfl, rfl, rfl, rfl, rfl⟩
  · dsimp only
    split <;> exact ⟨rfl, rfl, rfl, rfl, rfl, rfl, rfl, rfl, rfl, rfl⟩

theorem rateCut_unmarked (s : State) (f : Flow) {b : AckBody} (h : b.ece = 0) : rateCut s f b = f := if_pos h

theorem rateCut_marked (s : State) (f : Flow) {b : AckBody} (h : b.ece ≠ 0) :
    (rateCut s f b).alpha = (f.alpha * 15 + b.ece * 2 ^ 32 / max b.rcvd 1) / 16 ∧ (rateCut s f b).eceSeen = true := by
  unfold rateCut
  rw [if_neg h]
  dsimp only
  split <;> exact ⟨rfl, rfl⟩

theorem rttSample_keeps (f : Flow) (m : Nat) : (rttSample f m).peer = f.peer ∧ (rttSample f m).cls = f.cls ∧ (rttSample f m).next = f.next ∧
    (rttSample f m).sent = f.sent ∧ (rttSample f m).rate = f.rate ∧ (rttSample f m).alpha = f.alpha := by
  unfold rttSample
  split <;> exact ⟨rfl, rfl, rfl, rfl, rfl, rfl⟩

/-- The flow with the estimate's sample. -/
def sampled (s : State) (f : Flow) (b : AckBody) : Flow :=
  let new := f.sent.filter (fun x => ackReports f b ((psnNear f.rcv b.rcvPsn).getD 0) x.psn && !x.received)
  match ((new.filter (fun x => !x.resent)).getLast?).map (fun x => mono s - x.sentAt) with | some m => rttSample f m | none => f

theorem sampled_keeps (s : State) (f : Flow) (b : AckBody) : (sampled s f b).peer = f.peer ∧ (sampled s f b).cls = f.cls ∧ (sampled s f b).next = f.next ∧
    (sampled s f b).sent = f.sent ∧ (sampled s f b).rate = f.rate ∧ (sampled s f b).alpha = f.alpha := by
  unfold sampled
  dsimp only
  split
  · exact rttSample_keeps f _
  · exact ⟨rfl, rfl, rfl, rfl, rfl, rfl⟩

/-- The flow before the rate rule. -/
def ackAdvanced (s : State) (f : Flow) (b : AckBody) : Flow :=
  let new := f.sent.filter (fun x => ackReports f b ((psnNear f.rcv b.rcvPsn).getD 0) x.psn && !x.received)
  let f1 := sampled s f b
  let f2 := { f1 with sent := f1.sent.map (ackSent s f b), rcv := ackRcv f b, doneP := ackDone f b, latest := new.foldl (fun t x => max t x.sentAt) f.latest }
  if f.rcv < ackRcv f b then { f2 with lastAdvance := mono s, rto := min 4000000 (max (rtoMinNs s) (f2.srtt + 4 * f2.rttvar)) } else f2

theorem ackedFlow_eq (s : State) (f : Flow) (b : AckBody) : ackedFlow s f b = rateCut s (ackAdvanced s f b) b := rfl

theorem ackAdvanced_fields (s : State) (f : Flow) (b : AckBody) : (ackAdvanced s f b).peer = f.peer ∧ (ackAdvanced s f b).cls = f.cls ∧ (ackAdvanced s f b).next = f.next ∧
    (ackAdvanced s f b).rcv = ackRcv f b ∧ (ackAdvanced s f b).doneP = ackDone f b ∧ (ackAdvanced s f b).sent = f.sent.map (ackSent s f b) ∧
    (ackAdvanced s f b).rate = f.rate ∧ (ackAdvanced s f b).alpha = f.alpha := by
  obtain ⟨hp, hc, hn, hs, hr, ha⟩ := sampled_keeps s f b
  unfold ackAdvanced
  dsimp only
  rw [hs]
  split <;> exact ⟨hp, hc, hn, rfl, rfl, rfl, hr, ha⟩

theorem ackAdvanced_rto {s : State} {f : Flow} {b : AckBody} (h : f.rcv < ackRcv f b) :
    (ackAdvanced s f b).rto = min 4000000 (max (rtoMinNs s) ((ackAdvanced s f b).srtt + 4 * (ackAdvanced s f b).rttvar)) ∧ (ackAdvanced s f b).lastAdvance = mono s := by
  unfold ackAdvanced
  dsimp only
  rw [if_pos h]
  exact ⟨rfl, rfl⟩

theorem Kept.pumped {now : Nat} {f g : Flow} (h : Kept f g) : Pumped now f g :=
  ⟨h.rcv, h.doneP, h.srtt, h.rttvar, h.rto, h.rate, h.alpha, h.eceSeen, Nat.le_of_eq h.next.symm, fun _ hy => .inl (h.sent ▸ hy), .inl h.lastAdvance⟩

/-- What an acknowledgement that applies leaves of the flow's sending half. -/
theorem ackApply_flow {s : State} {peer cls : Nat} {b : AckBody} (h1 : ackDone (getFlow s peer cls) b ≤ ackRcv (getFlow s peer cls) b)
    (h2 : ackRcv (getFlow s peer cls) b ≤ (getFlow s peer cls).next) :
    Pumped (mono s) { ackedFlow s (getFlow s peer cls) b with sent := (ackedFlow s (getFlow s peer cls) b).sent.filter (ackStays (getFlow s peer cls) b) }
      (getFlow (ackApply s peer cls b) peer cls) := by
  obtain ⟨xs, he⟩ := ackApply_eq h1 h2
  obtain ⟨hp, hc, -⟩ := rateCut_keeps s (ackAdvanced s (getFlow s peer cls) b) b
  obtain ⟨hp', hc', -⟩ := ackAdvanced_fields s (getFlow s peer cls) b
  rw [he]
  have hset := getFlow_setFlow s { ackedFlow s (getFlow s peer cls) b with sent := (ackedFlow s (getFlow s peer cls) b).sent.filter (ackStays (getFlow s peer cls) b) }
    (peer := peer) (cls := cls) (hp.trans (hp'.trans (getFlow_peer s peer cls))) (hc.trans (hc'.trans (getFlow_cls s peer cls)))
  generalize hu : setFlow s { ackedFlow s (getFlow s peer cls) b with sent := (ackedFlow s (getFlow s peer cls) b).sent.filter (ackStays (getFlow s peer cls) b) } = u at hset ⊢
  have hut : u.time = s.time := by rw [← hu]; rfl
  rw [← hset]
  have hk := (kept_pktCompletes peer cls xs (fun x => x.failed.getD (0, 0)) peer cls u).trans
    ((kept_settleOps _ peer cls).trans (kept_settleResponses _ peer cls peer cls))
  have hw : Within [.bar, .cores, .hoists, .fab, .faults, .twin, .trace] u (settleResponses (settleOps (xs.foldl (fun s x => pktComplete s x peer cls
      (x.failed.getD (0, 0)).1 (x.failed.getD (0, 0)).2 [] 0) u)) peer cls) :=
    settleResponses_within.after (settleOps_within.after (.foldl (fun s x => pktComplete_within) .rfl))
  have hpump := pump_pumped (settleResponses (settleOps (xs.foldl (fun s x => pktComplete s x peer cls
      (x.failed.getD (0, 0)).1 (x.failed.getD (0, 0)).2 [] 0) u)) peer cls) peer cls
  rw [show mono (settleResponses (settleOps (xs.foldl (fun s x => pktComplete s x peer cls (x.failed.getD (0, 0)).1 (x.failed.getD (0, 0)).2 [] 0) u)) peer cls) = mono s from
    congrArg (fun t => 10 * t.cycles) ((hw.same .time (by decide)).trans hut)] at hpump
  exact hk.pumped.trans hpump

theorem mem_ackStays {s : State} {f : Flow} {b : AckBody} {y : Sent} (hy : y ∈ (ackedFlow s f b).sent.filter (ackStays f b)) :
    ∃ x ∈ f.sent, y = ackSent s f b x ∧ ackStays f b y = true := by
  obtain ⟨-, -, -, -, -, hs, -⟩ := rateCut_keeps s (ackAdvanced s f b) b
  obtain ⟨-, -, -, -, -, hs', -⟩ := ackAdvanced_fields s f b
  rw [ackedFlow_eq, hs, hs'] at hy
  obtain ⟨hm, hst⟩ := List.mem_filter.1 hy
  obtain ⟨x, hx, rfl⟩ := List.mem_map.1 hm
  exact ⟨x, hx, rfl, hst⟩

theorem ackApply_spec (s : State) (peer cls : Nat) (b : AckBody) : let fl := getFlow s peer cls
    let own := (psnNear fl.rcv b.rcvPsn).getD 0
    let rcv := max fl.rcv own
    let done := max fl.doneP ((psnNear fl.doneP b.donePsn).getD 0)
    let g := getFlow (ackApply s peer cls b) peer cls
    done ≤ rcv → rcv ≤ fl.next →
      g.rcv = rcv ∧ g.doneP = done ∧ (∀ y ∈ g.sent, y.psn < rcv → y.received = true) ∧
        (∀ y ∈ g.sent, y.psn < done → answeredKind y.op.kind = true ∧ y.answered = false) ∧
        (∀ i, i < 64 → bit b.sack i = true → own + 1 + i < fl.next → ∀ y ∈ g.sent, y.psn = own + 1 + i → y.received = true) ∧
        (fl.rcv < rcv → g.rto = min 4000000 (max (rtoMinNs s) (g.srtt + 4 * g.rttvar)) ∧ g.lastAdvance = mono s) ∧
        (b.ece = 0 → g.rate = fl.rate ∧ g.alpha = fl.alpha) ∧
        (b.ece ≠ 0 → g.alpha = (fl.alpha * 15 + b.ece * 2 ^ 32 / max b.rcvd 1) / 16 ∧ g.eceSeen = true) := by
  intro fl own rcv done g h1 h2
  have hP : Pumped (mono s) { ackedFlow s fl b with sent := (ackedFlow s fl b).sent.filter (ackStays fl b) } g := ackApply_flow h1 h2
  obtain ⟨-, -, hn, hr, hd, -, hsrtt, hvar, hrto, hla⟩ := rateCut_keeps s (ackAdvanced s fl b) b
  obtain ⟨-, -, hn', hr', hd', -, hrate, halpha⟩ := ackAdvanced_fields s fl b
  have hnext : (ackedFlow s fl b).next = fl.next := hn.trans hn'
  have hold {y : Sent} (hy : y ∈ g.sent) : fl.next ≤ y.psn ∨ ∃ x ∈ fl.sent, y = ackSent s fl b x ∧ ackStays fl b y = true :=
    (hP.sent y hy).elim (fun h => .inr (mem_ackStays h)) fun h => .inl (hnext ▸ h)
  refine ⟨hP.rcv.trans (hr.trans hr'), hP.doneP.trans (hd.trans hd'), fun y hy hlt => ?_, fun y hy hlt => ?_, fun i hi hbit hlt y hy he => ?_, fun h => ?_,
    fun h => ?_, fun h => ?_⟩
  · rcases hold hy with h | ⟨x, -, rfl, -⟩
    · exact absurd hlt (Nat.not_lt.2 (h2.trans h))
    · have hx : x.psn < ackRcv fl b := hlt
      show (x.received || decide (x.psn < ackRcv fl b) || _) = true
      rw [decide_eq_true hx, Bool.or_true, Bool.true_or]
  · rcases hold hy with h | ⟨x, -, rfl, hst⟩
    · exact absurd hlt (Nat.not_lt.2 ((h1.trans h2).trans h))
    · unfold ackStays at hst
      rw [show decide ((ackSent s fl b x).psn < ackDone fl b) = true from decide_eq_true hlt] at hst
      simpa [and_comm] using hst
  · rcases hold hy with h | ⟨x, -, rfl, -⟩
    · rw [he] at h; exact absurd hlt (Nat.not_lt.2 h)
    · have hx : x.psn = own + 1 + i := he
      have hrep : ackReports fl b own x.psn = true := by
        unfold ackReports
        rw [hx, decide_eq_true (show own < own + 1 + i by omega), decide_eq_true (show own + 1 + i ≤ own + 64 by omega), show own + 1 + i - own - 1 = i by omega, hbit]
        simp
      show (x.received || decide (x.psn < ackRcv fl b) || ackReports fl b own x.psn) = true
      rw [hrep, Bool.or_true]
  · obtain ⟨hrto', hla'⟩ := ackAdvanced_rto (s := s) h
    refine ⟨?_, ?_⟩
    · rw [hP.rto, hP.srtt, hP.rttvar]
      show (ackedFlow s fl b).rto = min 4000000 (max (rtoMinNs s) ((ackedFlow s fl b).srtt + 4 * (ackedFlow s fl b).rttvar))
      rw [ackedFlow_eq, hrto, hsrtt, hvar, hrto']
    · refine hP.lastAdvance.elim (fun he => he.trans ?_) id
      exact hla.trans hla'
  · rw [hP.rate, hP.alpha]
    show (ackedFlow s fl b).rate = _ ∧ (ackedFlow s fl b).alpha = _
    rw [ackedFlow_eq, rateCut_unmarked _ _ h]
    exact ⟨hrate, halpha⟩
  · obtain ⟨ha, he⟩ := rateCut_marked s (ackAdvanced s fl b) h
    rw [hP.alpha, hP.eceSeen]
    exact ⟨ha.trans (by rw [halpha]), he⟩

end Sys2Proof.Claims
end

section
/-! PROOFS. Acknowledgements, resets, retransmission, rate, quarantine, and the time-out of operations: the rows. -/
namespace Sys2Proof.Claims
open Sys2Proof.Machine

/-! ## What a tally leaves -/

theorem rf_portTally {s : State} {off : Nat} (k i n lo len : Nat) (h : off % 0x1000 ≠ 0x60) : rf (portTally s k i n) off lo len = rf s off lo len :=
  rf_congr (rd_portTally k i n h) lo len

@[simp] theorem knownPeer_portTally (s : State) (k i n m : Nat) : knownPeer (portTally s k i n) m = knownPeer s m := by
  unfold knownPeer peerOf twinNode
  rw [portTally_fab, rf_portTally k i n _ _ (by decide)]

@[simp] theorem epoch_portTally (s : State) (k i n : Nat) : epoch (portTally s k i n) = epoch s := by
  unfold epoch; rw [rf_portTally k i n _ _ (by decide)]

@[simp] theorem getFlow_portTally (s : State) (k i n peer cls : Nat) : getFlow (portTally s k i n) peer cls = getFlow s peer cls :=
  getFlow_congr (by rw [portTally_fab]) peer cls

/-- Registers outside the tallies and the peers decide which sub-ports are usable. -/
theorem usable_of_rd {s t : State} (hrd : ∀ off, off % 0x1000 ≠ 0x60 → rd t off = rd s off) (hg : t.grade = s.grade) (hp : t.fab.peers = s.fab.peers)
    (peer cls : Nat) : usable t peer cls = usable s peer cls := by
  have hsub (k j : Nat) : subUp t k j = subUp s k j := subUp_congr (hrd _ (by rw [link_mod]; decide))
  have htw : rf t TWIN_STATE 16 16 = rf s TWIN_STATE 16 16 := rf_congr (hrd _ (by decide)) _ _
  unfold usable twinNode peerOf ports
  simp only [hsub, htw, hp, hg]

/-! ## The rows of acknowledgements and resets -/

section
variable {s : State} {f : Frame}

theorem exec_ack_applies (hu : rxUp s f = true) (hk : knownPeer s f.src = true) (hi : f.incarn = (getFlow s f.src f.cls).incarn)
    (he : f.dstEpoch = 0 ∨ f.dstEpoch = epoch s) : exec (.ack f) s =
      .next (settleTwin (ackApply (setFlow (portTally s f.port 3 1) { getFlow s f.src f.cls with peerEpoch := f.srcEpoch }) f.src f.cls f.ack)) := by
  refine (if_neg (by simp [hu])).trans ((if_neg (by simp [hk])).trans ((if_neg ?_).trans ?_))
  · rw [getFlow_portTally, epoch_portTally]
    exact fun hc => hc.elim (fun h => h hi) fun ⟨h0, h1⟩ => he.elim h0 h1
  · rw [getFlow_portTally]

theorem exec_ack_other (hu : rxUp s f = true) (hk : knownPeer s f.src = true) (hi : f.incarn ≠ (getFlow s f.src f.cls).incarn) :
    exec (.ack f) s = .next (portTally s f.port 3 1) :=
  (if_neg (by simp [hu])).trans ((if_neg (by simp [hk])).trans (if_pos (.inl (by rw [getFlow_portTally]; exact hi))))

theorem exec_reset_other (hu : rxUp s f = true) (hk : knownPeer s f.src = true) (hi : f.incarn ≠ (getFlow s f.src f.cls).incarn) :
    exec (.reset f) s = .next (portTally s f.port 3 1) :=
  (if_neg (by simp [hu])).trans ((if_neg (by simp [hk])).trans (if_pos (.inl (by rw [getFlow_portTally]; exact hi))))

theorem exec_reset_applies (hu : rxUp s f = true) (hk : knownPeer s f.src = true) (hi : f.incarn = (getFlow s f.src f.cls).incarn)
    (hn : (getFlow s f.src f.cls).next ≠ 0) : exec (.reset f) s =
      .next (settleTwin (flowReset (setFlow (portTally s f.port 3 1) { getFlow s f.src f.cls with peerEpoch := f.srcEpoch }) f.src f.cls 0x0203 0x050203)) := by
  refine (if_neg (by simp [hu])).trans ((if_neg (by simp [hk])).trans ((if_neg ?_).trans ?_))
  · rw [getFlow_portTally]
    exact fun hc => hc.elim (fun h => h hi) hn
  · rw [getFlow_portTally]

end

theorem settleTwin_quiet {s : State} (h : TwinQuiet s) : settleTwin s = s := by
  obtain ⟨h0, hg, hr⟩ := h
  unfold settleTwin
  rw [hg]
  show settleDetach (if s.twin.refused.any _ then _ else s) = s
  rw [hr, List.any_nil, if_neg (by decide)]
  exact if_neg (by rw [h0]; exact fun hc => absurd hc.1 (by decide))

/-! ## A flow reset (R324) -/

/-- What completing a packet changes once its failure is noted. -/
theorem pktComplete_noted (s : State) (x : Sent) (peer cls : Nat) (st : W16) (detail : W32) (data : List Byte) (operand : W64) :
    Within [.cores, .hoists, .fab, .twin] (failureNoted s x peer cls st detail) (pktComplete s x peer cls st detail data operand) := by
  unfold pktComplete
  dsimp only
  split
  · unfold modOp
    exact .cores .rfl
  · unfold modMove
    exact .hoists .rfl
  · unfold modTier
    split
    · exact .fab .rfl
    · exact .rfl
  · refine .ite .rfl (.ite (.twin .rfl) ?_)
    split
    · exact enqueue_within.after .rfl
    · exact .rfl
  · exact .rfl

theorem twinState_pktComplete (s : State) (x : Sent) (peer cls : Nat) (st : W16) (detail : W32) (data : List Byte) (operand : W64) :
    twinState (pktComplete s x peer cls st detail data operand) = twinState s :=
  (rf_of_within (pktComplete_noted s x peer cls st detail data operand) _ _ _).trans (twinState_failureNoted s x peer cls st detail)

theorem waitq_pktComplete (s : State) (x : Sent) (p c : Nat) (st : W16) (detail : W32) (data : List Byte) (operand : W64) (peer cls : Nat) :
    ∀ y ∈ (getFlow (pktComplete s x p c st detail data operand) peer cls).waitq, y ∈ (getFlow s peer cls).waitq ∨ ∃ id, y.owner = .twin id := by
  intro y hy
  rcases pktComplete_flows s x p c st detail data operand with h | ⟨-, m, id, h⟩
  · rw [getFlow_congr h] at hy
    exact .inl hy
  · have hbase (p c : Nat) : getFlow (failureNoted s x p c st detail) peer cls = getFlow s peer cls :=
      getFlow_congr (by rw [show (failureNoted s x p c st detail).fab = s.fab from (failureNoted_within s x p c st detail).same .fab (by decide)]) peer cls
    rw [h] at hy
    unfold twinEnqueue enqueue at hy
    dsimp only at hy
    by_cases he : twinNode (failureNoted s x p c st detail) = peer ∧ twinCls (failureNoted s x p c st detail) = cls
    · obtain ⟨rfl, rfl⟩ := he
      rw [getFlow_setFlow _ _ (by exact getFlow_peer _ _ _) (by exact getFlow_cls _ _ _)] at hy
      rcases List.mem_append.1 hy with hy | hy
      · exact .inl (hbase p c ▸ hy)
      · exact .inr ⟨id, by rw [List.mem_singleton.1 hy]⟩
    · rw [getFlow_setFlow_ne _ _ (by simpa using he)] at hy
      exact .inl (hbase p c ▸ hy)

/-- The state in which the operations of a flow that is reset complete. -/
def flowStarted (s : State) (peer cls : Nat) : State :=
  let f := getFlow s peer cls
  bump (setFlow s { f with incarn := f.incarn + 1, next := 0, rcv := 0, doneP := 0, sent := [], waitq := [], rto := 0, srtt := 0, rttvar := 0,
                           waitResp := [], latest := 0 }) FAB_RESETS FAB_TALLY_STATUS 1 1

theorem flowReset_eq (s : State) (peer cls : Nat) (st : W16) (d : W32) : ∃ xs : List Sent, flowReset s peer cls st d =
    settleOps (xs.foldl (fun s x => pktComplete s x peer cls st d [] 0) (flowStarted s peer cls)) := ⟨_, rfl⟩

theorem getFlow_flowStarted (s : State) (peer cls : Nat) : getFlow (flowStarted s peer cls) peer cls = { getFlow s peer cls with
    incarn := (getFlow s peer cls).incarn + 1, next := 0, rcv := 0, doneP := 0, sent := [], waitq := [], rto := 0, srtt := 0, rttvar := 0,
    waitResp := [], latest := 0 } := by
  unfold flowStarted
  dsimp only
  rw [getFlow_congr (congrArg Fabric.flows (bump_within.same .fab (by decide))), getFlow_setFlow _ _ (by exact getFlow_peer _ _ _) (by exact getFlow_cls _ _ _)]

theorem flowReset_spec (s : State) (peer cls : Nat) (st : W16) (d : W32) : let f := getFlow (flowReset s peer cls st d) peer cls
    f.next = 0 ∧ f.rcv = 0 ∧ f.doneP = 0 ∧ f.sent = [] ∧ f.incarn = (getFlow s peer cls).incarn + 1 ∧
      (TwinQuiet s → f.waitq = []) ∧ ∀ y ∈ f.waitq, ∃ id, y.owner = .twin id := by
  obtain ⟨xs, he⟩ := flowReset_eq s peer cls st d
  have hk := (kept_pktCompletes peer cls xs (fun _ => (st, d)) peer cls (flowStarted s peer cls)).trans (kept_settleOps _ peer cls)
  have hq : ∀ y ∈ (getFlow (xs.foldl (fun s x => pktComplete s x peer cls st d [] 0) (flowStarted s peer cls)) peer cls).waitq, ∃ id, y.owner = .twin id := by
    refine List.foldlRecOn xs _ (motive := fun t => ∀ y ∈ (getFlow t peer cls).waitq, ∃ id, y.owner = .twin id) ?_ ?_
    · rw [getFlow_flowStarted]
      exact fun y hy => absurd hy List.not_mem_nil
    · exact fun t ht x _ y hy => (waitq_pktComplete t x peer cls st d [] 0 peer cls y hy).elim (ht y) id
  have hquiet (h0 : twinState s = 0) : (xs.foldl (fun s x => pktComplete s x peer cls st d [] 0) (flowStarted s peer cls)).fab.flows =
      (flowStarted s peer cls).fab.flows := by
    have hts : twinState (flowStarted s peer cls) = 0 := by
      refine (rf_congr ?_ 0 2).trans h0
      unfold flowStarted
      dsimp only
      rw [rd_bump_ne _ _ _ (by decide)]
      exact rd_of_within setFlow_within _
    refine (List.foldlRecOn xs _ (motive := fun t => twinState t = 0 ∧ t.fab.flows = (flowStarted s peer cls).fab.flows) ⟨hts, rfl⟩ ?_).2
    rintro t ⟨ht, hf⟩ x -
    refine ⟨(twinState_pktComplete t x peer cls st d [] 0).trans ht, ?_⟩
    rcases pktComplete_flows t x peer cls st d [] 0 with h | ⟨hne, -⟩
    · exact h.trans hf
    · exact absurd ht hne
  rw [he]
  rw [getFlow_flowStarted] at hk
  refine ⟨hk.next, hk.rcv, hk.doneP, hk.sent, hk.incarn, fun h => ?_, hq⟩
  exact congrArg Flow.waitq ((getFlow_congr (s := flowStarted s peer cls) (t := settleOps _) (hquiet h.1) peer cls).trans (getFlow_flowStarted s peer cls))


/-! ## Retransmission (R327, R328) -/

/-- A data packet that goes out stands among the frames, with its number. -/
theorem sendData_sends {s : State} {f : Flow} (x : Sent) (path : Nat) (h : usable s f.peer f.cls ≠ []) : ∃ w hd,
    TxFrame.data w hd x.op x.payload x.msg ∈ (sendData s f x path true).fab.tx ∧ hd.psn = x.psn % 2 ^ 24 ∧ hd.retx = true := by
  have hb (u : State) (off status bit n : Nat) : (bump u off status bit n).fab = u.fab := bump_within.same .fab (by decide)
  have hlen : 0 < (usable s f.peer f.cls).length := List.length_pos_iff.2 h
  have hsub : pathSub s f.peer f.cls path = some ((usable s f.peer f.cls)[path % (usable s f.peer f.cls).length]'(Nat.mod_lt _ hlen)) := by
    unfold pathSub
    dsimp only
    rw [if_neg h, List.getElem?_eq_getElem (Nat.mod_lt _ hlen)]
  unfold sendData
  rw [hsub]
  dsimp only
  rw [if_pos rfl, hb, hb]
  obtain ⟨asked, htx, -⟩ := sendOut_tx s (wireOf s f.peer ((usable s f.peer f.cls)[path % (usable s f.peer f.cls).length]'(Nat.mod_lt _ hlen)))
    (.data (wireOf s f.peer ((usable s f.peer f.cls)[path % (usable s f.peer f.cls).length]'(Nat.mod_lt _ hlen))) (dataHeader s f x path true) x.op x.payload x.msg)
    (packetBytes s f.peer x)
  rw [htx]
  exact ⟨_, _, List.mem_cons_self, rfl, rfl⟩

theorem sendData_tx (s : State) (f : Flow) (x : Sent) (path : Nat) (retx : Bool) : ∀ g ∈ s.fab.tx, g ∈ (sendData s f x path retx).fab.tx := by
  have hb (u : State) (off status bit n : Nat) : (bump u off status bit n).fab = u.fab := bump_within.same .fab (by decide)
  intro g hg
  unfold sendData
  split
  · next n _ =>
    obtain ⟨asked, htx, -⟩ := sendOut_tx s (wireOf s f.peer n) (.data (wireOf s f.peer n) (dataHeader s f x path retx) x.op x.payload x.msg) (packetBytes s f.peer x)
    have hm : g ∈ (sendOut s (wireOf s f.peer n) (.data (wireOf s f.peer n) (dataHeader s f x path retx) x.op x.payload x.msg) (packetBytes s f.peer x)).fab.tx := by
      rw [htx]; exact List.mem_cons_of_mem _ (List.mem_append_right _ hg)
    dsimp only
    split
    · rw [hb, hb]; exact hm
    · rw [hb]; exact hm
  · exact hg

theorem sendData_peers (s : State) (f : Flow) (x : Sent) (path : Nat) (retx : Bool) : (sendData s f x path retx).fab.peers = s.fab.peers := by
  have hb (u : State) (off status bit n : Nat) : (bump u off status bit n).fab = u.fab := bump_within.same .fab (by decide)
  have ho (w : Wire) (g : TxFrame) (n : Nat) : (sendOut s w g n).fab.peers = s.fab.peers := by
    unfold sendOut
    dsimp only
    split
    · split <;> rfl
    · rfl
  unfold sendData
  split
  · dsimp only
    split
    · rw [hb, hb, ho]
    · rw [hb, ho]
  · rfl

/-- What a packet carries. -/
def carries (x : Sent) : Nat × OpHeader × List Byte × Option TwinMsg := (x.psn, x.op, x.payload, x.msg)

/-- A state on the way through a flow's retransmissions: the flow's packets carry what they did, and the sub-ports are the same. -/
structure Resending (s t : State) (peer cls : Nat) : Prop where
  carry : (getFlow t peer cls).sent.map carries = (getFlow s peer cls).sent.map carries
  usable : usable t peer cls = usable s peer cls
  tx : ∀ g ∈ s.fab.tx, g ∈ t.fab.tx

theorem Resending.trans {s t u : State} {peer cls : Nat} (a : Resending s t peer cls) (b : Resending t u peer cls) : Resending s u peer cls :=
  ⟨b.carry.trans a.carry, b.usable.trans a.usable, fun g hg => b.tx g (a.tx g hg)⟩

/-- A packet as it goes again. -/
def goesAgain (s : State) (peer cls : Nat) (x : Sent) : Sent :=
  { x with path := choosePath s (getFlow s peer cls) (x.path + 1), sentAt := mono s, resent := true }

/-- The flow notes it. -/
def againNoted (s : State) (peer cls psn : Nat) (x : Sent) : State :=
  setFlow s { getFlow s peer cls with sent := mapIf (fun z => z.psn == psn) (fun _ => goesAgain s peer cls x) (getFlow s peer cls).sent }

theorem getFlow_againNoted (s : State) (peer cls psn : Nat) (x : Sent) : getFlow (againNoted s peer cls psn x) peer cls =
    { getFlow s peer cls with sent := mapIf (fun z => z.psn == psn) (fun _ => goesAgain s peer cls x) (getFlow s peer cls).sent } :=
  getFlow_setFlow _ _ (by exact getFlow_peer _ _ _) (by exact getFlow_cls _ _ _)

/-- The packet of a number among those sent goes again, when a sub-port is usable. -/
theorem resend_some {s : State} {peer cls psn : Nat} {x : Sent} (h : (getFlow s peer cls).sent.find? (fun x => x.psn == psn) = some x) (hu : usable s peer cls ≠ []) :
    resend s peer cls psn = sendData (againNoted s peer cls psn x) (getFlow s peer cls) (goesAgain s peer cls x) (goesAgain s peer cls x).path true := by
  have hfind : (getFlow s peer cls).sent.find? (fun x => x.psn == psn && decide (usable s peer cls ≠ [])) = some x := by
    rw [← h]
    refine congrArg (fun p => (getFlow s peer cls).sent.find? p) (funext fun y => ?_)
    rw [decide_eq_true hu, Bool.and_true]
  unfold resend
  dsimp only
  rw [hfind]
  rfl

theorem usable_againNoted (s : State) (peer cls psn : Nat) (x : Sent) : usable (againNoted s peer cls psn x) peer cls = usable s peer cls :=
  usable_of_rd (fun off _ => rd_of_within setFlow_within off) rfl rfl peer cls

/-- The packet sent again stands among the frames. -/
theorem resend_sends {s : State} {peer cls psn : Nat} {x : Sent} (h : (getFlow s peer cls).sent.find? (fun x => x.psn == psn) = some x) (hu : usable s peer cls ≠ []) :
    ∃ w hd, TxFrame.data w hd x.op x.payload x.msg ∈ (resend s peer cls psn).fab.tx ∧ hd.psn = x.psn % 2 ^ 24 ∧ hd.retx = true := by
  rw [resend_some h hu]
  refine sendData_sends (goesAgain s peer cls x) _ ?_
  rw [getFlow_peer, getFlow_cls, usable_againNoted]
  exact hu

theorem usable_sendData (s : State) (f : Flow) (x : Sent) (path : Nat) (retx : Bool) (peer cls : Nat) : usable (sendData s f x path retx) peer cls = usable s peer cls :=
  usable_of_rd (fun _ ho => rd_sendData f x path retx ho) sendData_within.grade (sendData_peers s f x path retx) peer cls

theorem resend_resending {s : State} {peer cls psn : Nat} {x : Sent} (h : (getFlow s peer cls).sent.find? (fun x => x.psn == psn) = some x) (hu : usable s peer cls ≠ [])
    (hn : ∀ y ∈ (getFlow s peer cls).sent, y.psn = psn → y = x) : Resending s (resend s peer cls psn) peer cls := by
  rw [resend_some h hu]
  refine ⟨?_, (usable_sendData _ _ _ _ _ _ _).trans (usable_againNoted s peer cls psn x), fun g hg => sendData_tx _ _ _ _ _ g hg⟩
  rw [getFlow_congr (sendData_flows _ _ _ _ _), getFlow_againNoted]
  show (List.map _ _).map carries = _
  rw [List.map_map]
  refine List.map_congr_left fun y hy => ?_
  by_cases hp : (y.psn == psn) = true
  · rw [Function.comp_apply, if_pos hp, hn y hy (beq_iff_eq.1 hp)]
    rfl
  · rw [Function.comp_apply, if_neg hp]

/-- Quarantining a path keeps what the flow's packets carry. -/
theorem quarantine_resending (s : State) (peer cls path : Nat) : Resending s (setFlow s (quarantinePath s (getFlow s peer cls) path)) peer cls := by
  refine ⟨?_, usable_of_rd (fun off _ => rd_of_within setFlow_within off) rfl rfl peer cls, fun g hg => hg⟩
  rw [getFlow_setFlow _ _ (by exact getFlow_peer _ _ _) (by exact getFlow_cls _ _ _)]
  rfl

theorem carries_inj {xs : List Sent} (h : (xs.map (·.psn)).Nodup) {x y : Sent} (hx : x ∈ xs) (hy : y ∈ xs) (he : y.psn = x.psn) : y = x :=
  List.inj_on_of_nodup_map h hy hx he

theorem psns_of_carries {xs ys : List Sent} (h : ys.map carries = xs.map carries) : ys.map (·.psn) = xs.map (·.psn) := by
  have h' := congrArg (List.map Prod.fst) h
  rwa [List.map_map, List.map_map] at h'

/-- Packets of a flow sent again one after the other: each stands among the frames. -/
theorem resends {s : State} {f : Flow} {peer cls : Nat} (hf : getFlow s peer cls = f) (hn : (f.sent.map (·.psn)).Nodup) (hu : usable s peer cls ≠ []) :
    ∀ (xs : List Sent), (∀ x ∈ xs, x ∈ f.sent) → ∀ t, Resending s t peer cls →
      let u := xs.foldl (fun s x => resend (setFlow s (quarantinePath s (getFlow s peer cls) x.path)) peer cls x.psn) t
      (∀ g ∈ t.fab.tx, g ∈ u.fab.tx) ∧ ∀ x ∈ xs, ∃ w hd, TxFrame.data w hd x.op x.payload x.msg ∈ u.fab.tx ∧ hd.psn = x.psn % 2 ^ 24 ∧ hd.retx = true := by
  intro xs
  induction xs with
  | nil => exact fun _ t _ => ⟨fun g hg => hg, fun x hx => absurd hx List.not_mem_nil⟩
  | cons x xs ih =>
    intro hxs t ht
    have hv := ht.trans (quarantine_resending t peer cls x.path)
    obtain ⟨hcarry, husable, -⟩ := hv
    rw [hf] at hcarry
    have hnodup : ((getFlow (setFlow t (quarantinePath t (getFlow t peer cls) x.path)) peer cls).sent.map (·.psn)).Nodup := psns_of_carries hcarry ▸ hn
    have hmem : carries x ∈ (getFlow (setFlow t (quarantinePath t (getFlow t peer cls) x.path)) peer cls).sent.map carries :=
      hcarry ▸ List.mem_map_of_mem (hxs x List.mem_cons_self)
    obtain ⟨y, hy, hye⟩ := List.mem_map.1 hmem
    obtain ⟨hpsn, hop, hpay, hmsg⟩ : y.psn = x.psn ∧ y.op = x.op ∧ y.payload = x.payload ∧ y.msg = x.msg := by
      unfold carries at hye
      simpa only [Prod.mk.injEq] using hye
    have hfind := find?_of_unique (p := fun z => z.psn == x.psn) hy (beq_iff_eq.2 hpsn) fun z hz hp => carries_inj hnodup hy hz ((beq_iff_eq.1 hp).trans hpsn.symm)
    have husable' := husable ▸ hu
    have hres := resend_resending hfind husable' fun z hz hp => carries_inj hnodup hy hz (hp.trans hpsn.symm)
    obtain ⟨w, hd, hsend, hnum, hretx⟩ := resend_sends hfind husable'
    rw [hop, hpay, hmsg] at hsend
    rw [hpsn] at hnum
    obtain ⟨htx, hall⟩ := ih (fun z hz => hxs z (List.mem_cons_of_mem _ hz)) _ ((ht.trans (quarantine_resending t peer cls x.path)).trans hres)
    refine ⟨fun g hg => htx g (hres.tx g hg), fun z hz => ?_⟩
    rcases List.mem_cons.1 hz with rfl | hz
    · exact ⟨w, hd, htx _ hsend, hnum, hretx⟩
    · exact hall z hz


/-! ## Acknowledgements sent, time-outs, rate (R326, R327, R329, R331) -/

section
variable {s : State} {i : Nat} {f : Flow} (hf : flowAt s i = some f)
include hf

theorem exec_ackSend : exec (.ackSend i) s = .next (if (!f.ackDue && decide (f.rxHeld = [])) || decide (usable s f.peer f.cls = []) || f.rxPair.isNone then s
    else setFlow (sendControl s f.peer f.cls 32 (fun w => .ack w (txHeader s f (f.rxPair.getD (0, 0)).2) (ackBody f))) { f with ackDue := false, rxEce := 0, rxCount := 0 }) := by
  show execAckSend i s = _
  unfold execAckSend
  rw [hf]
  dsimp only
  split <;> rfl

theorem exec_retransmit : exec (.retransmit i) s = .next ((f.sent.filter (fun x => !x.received && decide (x.sentAt + reorderNs s ≤ f.latest) &&
    decide (usable s f.peer f.cls ≠ []))).foldl (fun s x => resend (setFlow s (quarantinePath s (getFlow s f.peer f.cls) x.path)) f.peer f.cls x.psn) s) := by
  show execRetransmit i s = _
  unfold execRetransmit
  rw [hf]

theorem exec_rtoExpiry {x : Sent} (hx : f.sent.find? (fun x => !x.received) = some x) : exec (.rtoExpiry i) s =
    .next (if mono s < max f.lastAdvance x.sentAt + rtoOf s f ∨ usable s f.peer f.cls = [] then s
      else resend (setFlow s { f with rto := min (2 * rtoOf s f) 4000000 }) f.peer f.cls x.psn) := by
  show execRtoExpiry i s = _
  unfold execRtoExpiry
  rw [hf]
  dsimp only
  rw [hx]
  dsimp only
  split <;> rfl

theorem exec_rateIncrease : exec (.rateIncrease i) s = .next (if f.eceSeen then setFlow s { f with eceSeen := false }
    else setFlow s { f with
      quiet := f.quiet + 1, ai := if 20 < f.quiet + 1 then min (2 * f.ai) 160000000000 else f.ai
      rate := f.rate.map (fun r => min (lineRate s f.peer f.cls) (r + if 20 < f.quiet + 1 then min (2 * f.ai) 160000000000 else f.ai)), alpha := f.alpha * 15 / 16 }) := by
  show execRateIncrease i s = _
  unfold execRateIncrease
  rw [hf]
  dsimp only
  split <;> rfl

theorem exec_quarantineEnd (path : Nat) : exec (.quarantineEnd i path) s =
    .next (setFlow s { f with quarantine := f.quarantine.filter (fun q => !(q.1 == path && decide (q.2 ≤ mono s))) }) := by
  show execQuarantineEnd i path s = _
  unfold execQuarantineEnd
  rw [hf]

/-- The operation that a time-out names. -/
def timedOut (f : Flow) (psn : Nat) : Option Sent :=
  match f.sent.find? (fun x => x.psn == psn) with
  | some x => some x
  | none => if f.next ≤ psn then (f.waitq[psn - f.next]?).filter (pathless f) else none

theorem exec_opTimeout (psn : Nat) : exec (.opTimeout i psn) s = match timedOut f psn with
    | none => .next s
    | some x => if x.answered || decide (0x80 ≤ x.op.kind.toNat) || decide (mono s < max x.firstAt (x.heldAt.getD 0) + opTimeoutNs s) then .next s
      else .next (settleTwin (flowResetBy s f.peer f.cls stTimeout (timeoutDetail f))) := by
  show execOpTimeout i psn s = _
  unfold execOpTimeout
  rw [hf]
  rfl

theorem opTimeout_names {psn : Nat} {x : Sent} (hx : timedOut f psn = some x) (ha : x.answered = false) (hk : x.op.kind.toNat < 0x80) :
    (max x.firstAt (x.heldAt.getD 0) + opTimeoutNs s ≤ mono s → exec (.opTimeout i psn) s = .next (settleTwin (flowResetBy s f.peer f.cls 0x0202 (timeoutDetail f)))) ∧
    (mono s < max x.firstAt (x.heldAt.getD 0) + opTimeoutNs s → exec (.opTimeout i psn) s = .next s) := by
  have hkind : decide (0x80 ≤ x.op.kind.toNat) = false := decide_eq_false (Nat.not_le.2 hk)
  rw [exec_opTimeout hf, hx]
  dsimp only
  rw [ha, hkind]
  refine ⟨fun h => if_neg ?_, fun h => if_pos ?_⟩
  · rw [decide_eq_false (Nat.not_lt.2 h)]; decide
  · rw [decide_eq_true h]; rfl

end

/-- A word built bit by bit has the bits of the numbers that meet a predicate. -/
theorem getLsbD_bits (p : Nat → Prop) [DecidablePred p] {j : Nat} (hj : j < 64) (n : Nat) :
    ((List.range n).foldl (fun (m : BitVec 64) i => if p i then m ||| (1#64 <<< i) else m) 0).getLsbD j = (decide (j < n) && decide (p j)) := by
  induction n with
  | zero => simp
  | succ n ih =>
    have hone : (1#64 <<< n).getLsbD j = decide (j = n) := by
      rw [BitVec.getLsbD_shiftLeft, BitVec.getLsbD_one]
      by_cases h : j = n
      · simp [h]
        omega
      · by_cases hlt : j < n
        · simp [h, hlt]
        · simp [h, hlt]
          omega
    rw [List.range_succ, List.foldl_append, List.foldl_cons, List.foldl_nil]
    by_cases hp : p n
    · rw [if_pos hp, BitVec.getLsbD_or, ih, hone]
      by_cases h : j = n
      · subst h; simp [hp]
      · simp [h, show j < n + 1 ↔ j < n by omega]
    · rw [if_neg hp, ih]
      by_cases h : j = n
      · subst h; simp [hp]
      · simp [show j < n + 1 ↔ j < n by omega]

/-- The selective acknowledgement's bits say which numbers beyond the first gap are there. -/
theorem sack_bit (f : Flow) {i : Nat} (hi : i < 64) : bit (ackBody f).sack i = true ↔ f.rxRcv + 1 + i ∈ f.rxHave := by
  unfold ackBody bit
  dsimp only
  rw [getLsbD_bits (fun i => f.rxRcv + 1 + i ∈ f.rxHave) hi 64, decide_eq_true hi, Bool.true_and, decide_eq_true_eq]

/-- Settles O56, by what an acknowledgement, a reset and a packet sent again leave of a flow. -/
theorem transportRows : Obligations.TransportRows := by
  unfold Obligations.TransportRows
  refine ⟨fun s f hu hk hi he => exec_ack_applies hu hk hi he, fun s peer cls b => ⟨ackApply_spec s peer cls b, fun h => ackApply_idle h⟩, fun s h => settleTwin_quiet h,
    fun s f hu hk hi => ⟨exec_ack_other hu hk hi, exec_reset_other hu hk hi⟩,
    fun s f hu => ⟨if_pos (by simp [hu]), if_pos (by simp [hu])⟩, fun s f hu hk hi hn => exec_reset_applies hu hk hi hn,
    fun s peer cls st d => flowReset_spec s peer cls st d, fun s i n rest f hf hdue hu hp => ?_, fun s f x path retx => ⟨rfl, rfl, rfl, rfl, rfl, rfl, rfl, rfl, rfl, ?_⟩,
    fun f => ⟨rfl, rfl, rfl, ?_, fun i hi => sack_bit f hi⟩, fun s i f hf hd hh => ?_, fun s i f hf hg hn => ?_, fun s i f hf h => ?_, fun s i f x hf hx => ⟨fun ht hu => ?_, fun h => ?_⟩,
    fun s i f hf => ⟨fun h => ?_, fun h => ?_⟩, fun s i path f hf => ?_, fun s i psn f x hf hx ha hk => opTimeout_names hf (by simp [timedOut, hx]) ha hk,
    fun s i psn f x hf hx hn hw ha hk => ?_, fun f x => ?_, fun s f hf => notePaths_noPath hf⟩
  · rw [exec_ackSend hf, if_neg]
    rcases hdue with h | h
    · simp [h, hu, Option.isSome_iff_ne_none.1 hp]
    · simp [h, hu, Option.isSome_iff_ne_none.1 hp]
  · exact beq_iff_eq
  · exact decide_eq_true_iff
  · rw [exec_ackSend hf, if_pos (by simp [hd, hh])]
  · refine gives_next (exec_retransmit hf) fun x hx hr ht hu => ?_
    exact (resends hg hn hu _ (fun y hy => List.mem_of_mem_filter hy) s ⟨rfl, rfl, fun g h => h⟩).2 x (List.mem_filter.2 ⟨hx, by simp [hr, ht, hu]⟩)
  · have hnil : f.sent.filter (fun x => !x.received && decide (x.sentAt + reorderNs s ≤ f.latest) && decide (usable s f.peer f.cls ≠ [])) = [] := by
      rw [List.filter_eq_nil_iff]
      intro x hx hc
      simp only [Bool.and_eq_true, Bool.not_eq_true', decide_eq_true_eq] at hc
      rcases h with h | h
      · exact absurd hc.1.2 (Nat.not_le.2 (h x hx hc.1.1))
      · exact hc.2 h
    rw [exec_retransmit hf, hnil]
    rfl
  · have hset := getFlow_setFlow s { f with rto := min (2 * rtoOf s f) 4000000 } (peer := f.peer) (cls := f.cls) rfl rfl
    have hus : usable (setFlow s { f with rto := min (2 * rtoOf s f) 4000000 }) f.peer f.cls ≠ [] := by
      rw [usable_of_rd (s := s) (fun off _ => rd_of_within setFlow_within off) rfl rfl]; exact hu
    have hsome : (f.sent.find? (fun y => y.psn == x.psn)).isSome = true :=
      List.find?_isSome.2 ⟨x, List.mem_of_find?_eq_some hx, beq_self_eq_true x.psn⟩
    obtain ⟨y, hy⟩ := Option.isSome_iff_exists.1 hsome
    have hfind : (getFlow (setFlow s { f with rto := min (2 * rtoOf s f) 4000000 }) f.peer f.cls).sent.find? (fun z => z.psn == x.psn) = some y := by rw [hset]; exact hy
    refine gives_next ((exec_rtoExpiry hf hx).trans (congrArg _ (if_neg ?_))) ⟨?_, y, List.mem_of_find?_eq_some hy, ?_, resend_sends hfind hus⟩
    · exact fun hc => hc.elim (Nat.not_lt.2 ht) hu
    · rw [resend_some hfind hus, getFlow_congr (sendData_flows _ _ _ _ _), getFlow_againNoted, hset]
    · exact beq_iff_eq.1 (List.find?_some (p := fun z : Sent => z.psn == x.psn) hy)
  · rw [exec_rtoExpiry hf hx, if_pos h]
  · rw [exec_rateIncrease hf, if_pos h]
  · refine gives_next ((exec_rateIncrease hf).trans (congrArg _ (if_neg (by simp [h])))) ?_
    dsimp only
    rw [getFlow_setFlow _ _ (by rfl) (by rfl)]
    refine ⟨rfl, ?_, fun r hr => ?_⟩
    · dsimp only
      split <;> split <;> first | rfl | omega
    · dsimp only
      rw [hr]
      rfl
  · refine gives_next (exec_quarantineEnd hf path) fun q => ?_
    rw [getFlow_setFlow _ _ (by rfl) (by rfl)]
    simp [List.mem_filter, imp_iff_not_or]
  · have hnone (hp : pathless f x = false) : timedOut f psn = none := by simp [timedOut, hx, hn, hw, hp]
    have hsome (hp : pathless f x = true) : timedOut f psn = some x := by simp [timedOut, hx, hn, hw, hp]
    refine ⟨fun hp => (opTimeout_names hf (hsome hp) ha hk).1, fun h => ?_⟩
    cases hp : pathless f x with
    | true => exact (opTimeout_names hf (hsome hp) ha hk).2 (h.resolve_left (by simp [hp]))
    | false => rw [exec_opTimeout hf, hnone hp]
  · unfold timeoutDetail
    dsimp only
    split
    · rfl
    · split <;> rfl

end Sys2Proof.Claims
end


section
/-! PROOFS. Time: the registers that its functions write, the servo and its measurements, and the sources. -/
namespace Sys2Proof.Claims
open Sys2Proof.Machine

/-! ## Status fields -/

@[simp] theorem rd_setTime (s : State) (g : TimeSt → TimeSt) (off : Nat) : rd (setTime s g) off = rd s off := rfl
@[simp] theorem rf_setTime (s : State) (g : TimeSt → TimeSt) (off lo n : Nat) : rf (setTime s g) off lo n = rf s off lo n := rfl
@[simp] theorem tState_setTime (s : State) (g : TimeSt → TimeSt) : tState (setTime s g) = tState s := rfl
@[simp] theorem tSource_setTime (s : State) (g : TimeSt → TimeSt) : tSource (setTime s g) = tSource s := rfl
@[simp] theorem traceable_setTime (s : State) (g : TimeSt → TimeSt) : traceable (setTime s g) = traceable s := rfl
@[simp] theorem wf_time (s : State) (o l n v : Nat) : (wf s o l n v).time = s.time := rfl
@[simp] theorem wr_time (s : State) (o : Nat) (v : W32) : (wr s o v).time = s.time := rfl
@[simp] theorem wf_pwr (s : State) (o l n v : Nat) : (wf s o l n v).pwr = s.pwr := rfl

theorem rf_wr (s : State) {o p : Nat} (v : W32) (lo n : Nat) (h : p ≠ o) : rf (wr s o v) p lo n = rf s p lo n := rf_congr (rd_wr_ne s v h) lo n

@[simp] theorem tState_setTState (s : State) (v : Nat) : tState (setTState s v) = v % 4 := rf_wf_same s TIME_STATUS 3 2 v (by decide)
@[simp] theorem tSource_setTState (s : State) (v : Nat) : tSource (setTState s v) = tSource s := rf_wf_other s TIME_STATUS 3 2 v 0 3 (by decide) (by decide)
@[simp] theorem traceable_setTState (s : State) (v : Nat) : traceable (setTState s v) = traceable s := by
  unfold traceable setTState; rw [rf_wf_other s TIME_STATUS 3 2 v 5 1 (by decide) (by decide)]
@[simp] theorem ppsPresent_setTState (s : State) (v : Nat) : ppsPresent (setTState s v) = ppsPresent s := by
  unfold ppsPresent setTState; rw [rf_wf_other s TIME_STATUS 3 2 v 6 1 (by decide) (by decide)]

theorem rf_setTraceable (s : State) (b : Bool) (off lo n : Nat) : rf (setTraceable s b) off lo n = rf (wf s TIME_STATUS 5 1 (b2n b)) off lo n := by
  unfold setTraceable; dsimp only; split <;> rfl
theorem rd_setTraceable (s : State) (b : Bool) (off : Nat) : rd (setTraceable s b) off = rd (wf s TIME_STATUS 5 1 (b2n b)) off := by
  unfold setTraceable; dsimp only; split <;> rfl
@[simp] theorem tState_setTraceable (s : State) (b : Bool) : tState (setTraceable s b) = tState s :=
  (rf_setTraceable s b _ _ _).trans (rf_wf_other s TIME_STATUS 5 1 _ 3 2 (by decide) (by decide))
@[simp] theorem tSource_setTraceable (s : State) (b : Bool) : tSource (setTraceable s b) = tSource s :=
  (rf_setTraceable s b _ _ _).trans (rf_wf_other s TIME_STATUS 5 1 _ 0 3 (by decide) (by decide))
@[simp] theorem traceable_setTraceable (s : State) (b : Bool) : traceable (setTraceable s b) = b := by
  unfold traceable
  rw [rf_setTraceable, rf_wf_same s TIME_STATUS 5 1 _ (by decide)]
  cases b <;> rfl
@[simp] theorem ppsPresent_setTraceable (s : State) (b : Bool) : ppsPresent (setTraceable s b) = ppsPresent s := by
  unfold ppsPresent
  rw [rf_setTraceable, rf_wf_other s TIME_STATUS 5 1 _ 6 1 (by decide) (by decide)]

/-- A write of another register leaves the status. -/
theorem status_wr {s : State} {o : Nat} (v : W32) (h : TIME_STATUS ≠ o) : tState (wr s o v) = tState s ∧ tSource (wr s o v) = tSource s ∧
    traceable (wr s o v) = traceable s ∧ ppsPresent (wr s o v) = ppsPresent s := by
  unfold tState tSource traceable ppsPresent
  simp only [rf_wr s v _ _ h, and_self]

/-! ## The servo (R346, R348, R349) -/

/-- ρ is free to change: 10 ms have passed since it did. -/
def RhoFree (s : State) : Prop := ∀ a, s.time.rhoAt = some a → a + 10000000 ≤ mono s

theorem setRho_free {s : State} (h : RhoFree s) (comp servo : Int) : setRho s comp servo =
    setTime (wr (setTime s (fun t => { t with comp := comp, servo := servo })) TIME_ADJ (BitVec.ofInt 32 (comp + servo))) (fun t => { t with rhoAt := some (mono s) }) := by
  refine if_pos ?_
  show (match s.time.rhoAt with | some t => decide (t + 10000000 ≤ mono s) | none => true) = true
  unfold RhoFree at h
  cases hr : s.time.rhoAt with
  | none => rfl
  | some a => exact decide_eq_true (h a hr)

theorem setRho_held {s : State} (h : ¬RhoFree s) (comp servo : Int) : setRho s comp servo = setTime s (fun t => { t with comp := comp, servo := servo }) := by
  refine if_neg ?_
  show ¬(match s.time.rhoAt with | some t => decide (t + 10000000 ≤ mono s) | none => true) = true
  intro hc
  refine h fun a ha => ?_
  rw [ha] at hc
  exact of_decide_eq_true hc

/-- What ρ's update leaves: the time but for its parts, and every register but TIME_ADJ. -/
theorem setRho_time (s : State) (comp servo : Int) : ∃ r, (setRho s comp servo).time = { s.time with comp := comp, servo := servo, rhoAt := r } := by
  by_cases h : RhoFree s
  · exact ⟨_, by rw [setRho_free h]; rfl⟩
  · exact ⟨_, by rw [setRho_held h]; rfl⟩

theorem rd_setRho {s : State} {off : Nat} (comp servo : Int) (h : off ≠ TIME_ADJ) : rd (setRho s comp servo) off = rd s off := by
  by_cases hf : RhoFree s
  · rw [setRho_free hf, rd_setTime, rd_wr_ne _ _ h, rd_setTime]
  · rw [setRho_held hf, rd_setTime]

theorem setRho_within (s : State) (comp servo : Int) : Within [.time, .bar] s (setRho s comp servo) := by
  by_cases hf : RhoFree s
  · rw [setRho_free hf]; exact .time (wr_within.after (.time .rfl))
  · rw [setRho_held hf]; exact .time .rfl

theorem servoStep_time (s : State) (o : Int) : ∃ r, (servoStep s o).time = { s.time with
    integral := s.time.integral + o
    ageing := if tState s = 2 then Config.ageing s.time.ageing o (s.time.integral + o) else s.time.ageing
    servo := clampI (-109951162) 109951162 (Config.servo o (s.time.integral + o)), rhoAt := r } :=
  setRho_time _ _ _

theorem rd_servoStep {s : State} {off : Nat} (o : Int) (h : off ≠ TIME_ADJ) : rd (servoStep s o) off = rd s off := rd_setRho _ _ h

theorem clampI_bounds (lo hi x : Int) (h : lo ≤ hi) : lo ≤ clampI lo hi x ∧ clampI lo hi x ≤ hi := by
  unfold clampI
  split
  · exact ⟨Int.le_refl _, h⟩
  · split
    · exact ⟨h, Int.le_refl _⟩
    · omega

/-! ## A measurement (R346, R348) -/

/-- The measurement steps the counter. -/
def Steps (s : State) (o : Int) : Prop := tState s = 1 ∧ 2000000 < o.natAbs ∧ s.time.tracedOnce = false

theorem offsetNoted_status (s : State) (o : Int) : tState (wr s TIME_OFFSET (satNs (o / 2))) = tState s := (status_wr _ (by decide)).1

theorem measure_steps {s : State} {o : Int} (h : Steps s o) (trace : Bool) : measure s o trace =
    setTime (stepTo (wr s TIME_OFFSET (satNs (o / 2))) ((now s : Int) - o / 2)) (fun t => { t with below := 0 }) := by
  obtain ⟨h1, h2, h3⟩ := h
  refine if_pos ⟨(offsetNoted_status s o).trans h1, h2, ?_⟩
  show (!s.time.tracedOnce) = true
  rw [h3]; rfl

/-- The count of small offsets in a row. -/
def smallRun (s : State) (o : Int) : Nat := if o.natAbs < 200 then s.time.below + 1 else 0

/-- The servo's state of a measurement that slews, with the count of small offsets. -/
def slewed (s : State) (o : Int) : State :=
  setTime (servoStep (wr s TIME_OFFSET (satNs (o / 2))) o) (fun t => { t with below := smallRun s o })

/-- It is LOCKED, with a bound that is a free value. -/
def lockedOn (s : State) (trace : Bool) : State :=
  let (b, s) := draw s 32
  let s := if tSource s = 1 then setTime s (fun t => { t with secKnown := true }) else s
  wr (setTraceable (setTState s 2) trace) TIME_ERR_BOUND b

theorem servoStep_below (s : State) (o : Int) : (servoStep s o).time.below = s.time.below := by
  obtain ⟨r, h⟩ := servoStep_time s o
  rw [h]

theorem measure_slews {s : State} {o : Int} (h : ¬Steps s o) (trace : Bool) : measure s o trace =
    if tState s = 2 ∨ 16 ≤ smallRun s o then lockedOn (slewed s o) trace else slewed s o := by
  have hn : ¬(tState (wr s TIME_OFFSET (satNs (o / 2))) = 1 ∧ 2000000 < o.natAbs ∧ !(wr s TIME_OFFSET (satNs (o / 2))).time.tracedOnce) := by
    rw [offsetNoted_status]
    exact fun hc => h ⟨hc.1, hc.2.1, by simpa using hc.2.2⟩
  have hb : (servoStep (wr s TIME_OFFSET (satNs (o / 2))) o).time.below = s.time.below := servoStep_below _ o
  have hst (g : TimeSt → TimeSt) : tState (setTime (servoStep (wr s TIME_OFFSET (satNs (o / 2))) o) g) = tState s :=
    (rf_congr (rd_servoStep o (by decide)) 3 2).trans (offsetNoted_status s o)
  unfold Machine.measure
  dsimp only
  rw [if_neg hn, hb, hst]
  rfl

theorem slewed_time (s : State) (o : Int) : ∃ r, (slewed s o).time = { s.time with
    below := smallRun s o
    integral := s.time.integral + o
    ageing := if tState s = 2 then Config.ageing s.time.ageing o (s.time.integral + o) else s.time.ageing
    servo := clampI (-109951162) 109951162 (Config.servo o (s.time.integral + o)), rhoAt := r } := by
  obtain ⟨r, h⟩ := servoStep_time (wr s TIME_OFFSET (satNs (o / 2))) o
  refine ⟨r, ?_⟩
  show ({ (servoStep (wr s TIME_OFFSET (satNs (o / 2))) o).time with below := _ } : TimeSt) = _
  rw [h, offsetNoted_status]
  rfl

theorem rd_slewed {s : State} {off : Nat} (o : Int) (h : off ≠ TIME_ADJ) : rd (slewed s o) off = rd (wr s TIME_OFFSET (satNs (o / 2))) off := rd_servoStep o h

theorem lockedOn_time (s : State) (trace : Bool) : ∃ t k, (lockedOn s trace).time = { s.time with tracedOnce := t, secKnown := k } := by
  unfold lockedOn setTraceable
  dsimp only
  split <;> split <;> exact ⟨_, _, rfl⟩

theorem rd_lockedOn {s : State} {off : Nat} (trace : Bool) (h1 : off ≠ TIME_STATUS) (h2 : off ≠ TIME_ERR_BOUND) : rd (lockedOn s trace) off = rd s off := by
  have hd (u : State) : rd (if tSource u = 1 then setTime u (fun t => { t with secKnown := true }) else u) off = rd u off := by split <;> rfl
  unfold lockedOn
  dsimp only
  rw [rd_wr_ne _ _ h2, rd_setTraceable, rd_wf_ne _ _ _ _ h1]
  unfold setTState
  rw [rd_wf_ne _ _ _ _ h1, hd]
  rfl

theorem lockedOn_status (s : State) (trace : Bool) : tState (lockedOn s trace) = 2 ∧ traceable (lockedOn s trace) = trace := by
  unfold lockedOn
  dsimp only
  obtain ⟨h1, -, h2, -⟩ := status_wr (s := setTraceable (setTState (if tSource (draw s 32).2 = 1 then setTime (draw s 32).2 (fun t => { t with secKnown := true }) else
    (draw s 32).2) 2) trace) (draw s 32).1 (o := TIME_ERR_BOUND) (by decide)
  exact ⟨h1.trans (by simp), h2.trans (by simp)⟩

end Sys2Proof.Claims
end

section
/-! PROOFS. Steps of the counter, measurements, sources, and the ports' PTP messages. -/
namespace Sys2Proof.Claims
open Sys2Proof.Machine

/-! ## A step (R346) -/

/-- The counter's new values, before the step is counted and logged. -/
def stepSet (s : State) (sec : BitVec 48) (ns : Nat) : State :=
  setTime { s with pins := { s.pins with ppsOut := s.pins.ppsOut && decide (ns < 20000000) } } (fun t => { t with sec := sec, ns := ns, frac := 0, acc := 0 })

theorem stepTime_within (s : State) (sec : BitVec 48) (ns tag : Nat) : Within [.bar, .faults, .trace] (stepSet s sec ns) (stepTime s sec ns tag) :=
  logErr_within.after (bump_within.mono)

theorem stepTime_time (s : State) (sec : BitVec 48) (ns tag : Nat) : (stepTime s sec ns tag).time = { s.time with sec := sec, ns := ns, frac := 0, acc := 0 } :=
  (stepTime_within s sec ns tag).same .time (by decide)

theorem rd_stepTime {s : State} {off : Nat} (sec : BitVec 48) (ns tag : Nat) (h : off < 0x0300068) : rd (stepTime s sec ns tag) off = rd s off := by
  have hlog (u : State) (e : ErrEnt) : rd (logErr u e) off = rd u off :=
    rd_logErr_ne _ _ (show off ≠ 0x0B00004 by omega) (show off ≠ 0x0B00000 by omega) (show off ≠ 0x0C03010 by omega)
  unfold stepTime
  dsimp only
  rw [hlog, rd_bump_ne _ _ _ (show off ≠ 0x0300068 by omega)]
  rfl

theorem now_stepTo {s : State} {t : Int} (h0 : 0 ≤ t) (h : t / 1000000000 < 2 ^ 48) : (now (stepTo s t) : Int) = t := by
  obtain ⟨n, rfl⟩ := Int.eq_ofNat_of_zero_le h0
  unfold now stepTo
  rw [stepTime_time]
  have hn : n / 1000000000 < 2 ^ 48 := by omega
  show (((BitVec.ofNat 48 (n / 1000000000)).toNat * 1000000000 + n % 1000000000 : Nat) : Int) = (n : Int)
  rw [BitVec.toNat_ofNat, Nat.mod_eq_of_lt hn]
  omega

/-! ## What a measurement leaves -/

theorem now_of_time {s t : State} (hs : t.time.sec = s.time.sec) (hn : t.time.ns = s.time.ns) : now t = now s := by
  unfold now; rw [hs, hn]

theorem now_setBelow (s : State) (n : Nat) : now (setTime s (fun t => { t with below := n })) = now s := rfl
theorem frac_setBelow (s : State) (n : Nat) : (setTime s (fun t => { t with below := n })).time.frac = s.time.frac := rfl

theorem frac_stepTo (s : State) (t : Int) : (stepTo s t).time.frac = 0 := by
  unfold stepTo; rw [stepTime_time]

theorem rd_stepTo {s : State} {off : Nat} (t : Int) (h : off < 0x0300068) : rd (stepTo s t) off = rd s off := rd_stepTime _ _ _ h

theorem measure_stepped {s : State} {o : Int} (trace : Bool) (h : Steps s o) (h0 : o / 2 ≤ now s) (hl : ((now s : Int) - o / 2) / 1000000000 < 2 ^ 48) :
    (now (measure s o trace) : Int) = now s - o / 2 ∧ (measure s o trace).time.frac = 0 ∧ (measure s o trace).time.below = 0 ∧
      rd (measure s o trace) TIME_OFFSET = satNs (o / 2) := by
  have hstep : (now (stepTo (wr s TIME_OFFSET (satNs (o / 2))) ((now s : Int) - o / 2)) : Int) = now s - o / 2 := now_stepTo (by omega) hl
  rw [measure_steps h]
  refine ⟨?_, ?_, rfl, ?_⟩
  · rw [now_setBelow, hstep]
  · rw [frac_setBelow, frac_stepTo]
  · rw [rd_setTime, rd_stepTo _ (by decide), rd_wr_same]

/-- The time after a measurement that slews is the slewed one, but for what being LOCKED notes. -/
theorem measure_time {s : State} {o : Int} (trace : Bool) (h : ¬Steps s o) : ∃ k l, (measure s o trace).time = { (slewed s o).time with tracedOnce := k, secKnown := l } := by
  rw [measure_slews h]
  split
  · exact lockedOn_time _ _
  · exact ⟨_, _, rfl⟩

theorem rd_measure {s : State} {o : Int} {off : Nat} (trace : Bool) (h : ¬Steps s o) (h1 : off ≠ TIME_STATUS) (h2 : off ≠ TIME_ERR_BOUND) (h3 : off ≠ TIME_ADJ) :
    rd (measure s o trace) off = rd (wr s TIME_OFFSET (satNs (o / 2))) off := by
  rw [measure_slews h]
  split
  · rw [rd_lockedOn _ h1 h2, rd_slewed _ h3]
  · exact rd_slewed _ h3

theorem measure_slewed {s : State} {o : Int} (trace : Bool) (h : ¬Steps s o) : let t := measure s o trace
    let n := if o.natAbs < 200 then s.time.below + 1 else 0
    now t = now s ∧ t.time.below = n ∧ rd t TIME_OFFSET = satNs (o / 2) ∧ t.time.comp = s.time.comp ∧
      t.time.integral = s.time.integral + o ∧ t.time.servo = clampI (-109951162) 109951162 (Config.servo o t.time.integral) ∧
      (tState s ≠ 2 → t.time.ageing = s.time.ageing) ∧ -109951162 ≤ t.time.servo ∧ t.time.servo ≤ 109951162 ∧
      (tState s = 2 ∨ 16 ≤ n → tState t = 2 ∧ traceable t = trace) ∧ (tState s ≠ 2 → n < 16 → tState t = tState s) := by
  intro t n
  obtain ⟨k, l, hk⟩ := measure_time trace h
  obtain ⟨r, hr⟩ := slewed_time s o
  have ht : t.time = _ := hk.trans (by rw [hr])
  have hservo := clampI_bounds (-109951162) 109951162 (Config.servo o (s.time.integral + o)) (by decide)
  refine ⟨now_of_time (by rw [ht]) (by rw [ht]), by rw [ht]; rfl, ?_, by rw [ht], by rw [ht], by rw [ht], fun h2 => by rw [ht]; exact if_neg h2, by rw [ht]; exact hservo.1,
    by rw [ht]; exact hservo.2, fun hl => ?_, fun h2 hn => ?_⟩
  · show rd (measure s o trace) TIME_OFFSET = _
    rw [rd_measure trace h (by decide) (by decide) (by decide), rd_wr_same]
  · have hl' : tState s = 2 ∨ 16 ≤ smallRun s o := hl
    show tState (measure s o trace) = 2 ∧ traceable (measure s o trace) = trace
    rw [measure_slews h, if_pos hl']
    exact lockedOn_status _ _
  · have hl' : ¬(tState s = 2 ∨ 16 ≤ smallRun s o) := fun hc => hc.elim h2 (Nat.not_le.2 hn)
    show tState (measure s o trace) = tState s
    rw [measure_slews h, if_neg hl']
    exact (rf_congr (rd_slewed o (by decide)) 3 2).trans (offsetNoted_status s o)

end Sys2Proof.Claims
end

section
/-! PROOFS. PTP messages on the ports, the choice of the source, and the rows of the pins and the oscillator (R345 to R353). -/
namespace Sys2Proof.Claims
open Sys2Proof.Machine

/-! ## The ports' messages (R349 to R351) -/

@[simp] theorem ptpPort_setPtp (s : State) (k : Nat) (p : PtpPort) : ptpPort (setPtp s k p) k = p := tget_tset_same _ _ _ _
theorem now_setPtp (s : State) (k : Nat) (p : PtpPort) : now (setPtp s k p) = now s := rfl
theorem txStamp_setPtp (s : State) (k j : Nat) (p : PtpPort) : txStamp (setPtp s k p) j = txStamp s j := rfl
theorem slavePort_setPtp (s : State) (k : Nat) (p : PtpPort) : slavePort (setPtp s k p) = slavePort s := rfl
theorem fab_setPtp (s : State) (k : Nat) (p : PtpPort) : (setPtp s k p).fab = s.fab := rfl
theorem ptpPort_setPtp_ne (s : State) {j k : Nat} (p : PtpPort) (h : j ≠ k) : ptpPort (setPtp s k p) j = ptpPort s j := tget_tset_ne _ _ _ _ h

theorem sync_taken {s : State} {p : PtpMsg} (h : ptpTakes s p = true) (h9 : ptpState s p.port = 9) : Gives (.sync p) s fun t =>
    let x := ptpPort t p.port
    x.syncOrigin = p.originNs ∧ x.syncRx = rxStamp s p.port p.sub ∧ x.syncCorr = p.correction ∧ x.awaitFollowUp = p.twoStep ∧ x.seq = p.seq ∧ now t = now s := by
  refine ⟨_, if_neg ?_, ?_⟩
  · simp [h, h9]
  · simp only [ptpPort_setPtp, now_setPtp, and_self]

theorem followUp_taken {s : State} {p : PtpMsg} (h : ptpTakes s p = true) (h9 : ptpState s p.port = 9) (ha : (ptpPort s p.port).awaitFollowUp = true)
    (hq : (ptpPort s p.port).seq = p.seq) : Gives (.followUp p) s fun t => (ptpPort t p.port).syncOrigin = p.originNs ∧
      (ptpPort t p.port).awaitFollowUp = false ∧ (ptpPort t p.port).syncCorr = (ptpPort s p.port).syncCorr + p.correction := by
  refine ⟨_, if_neg ?_, ?_⟩
  · simp [h, h9, ha, hq]
  · simp only [ptpPort_setPtp, and_self]

theorem delayReq_answered {s : State} {p : PtpMsg} (h : ptpTakes s p = true) (h6 : ptpState s p.port = 6) : Gives (.delayReq p) s fun t => t.fab.tx =
    .ptp p.port (rf s (TIME_PTP_CFG p.port) 12 1 == 1) (ptpDomain s p.port) 9 p.seq (rxStamp s p.port p.sub / 2)
      (p.correction - halfPart (rxStamp s p.port p.sub)) :: s.fab.tx :=
  ⟨_, congrArg Host.Outcome.next (if_pos (by rw [h, h6]; rfl)), rfl⟩

/-- The state in which a Delay_Resp's measurement is made. -/
def exchanged (s : State) (k : Nat) (d : List Int) : State := setTime (setPtp s k { ptpPort s k with reqSent := none }) (fun t => { t with delays := d })

theorem exchanged_spec (s : State) (k : Nat) (d : List Int) : now (exchanged s k d) = now s ∧ (exchanged s k d).time.delays = d ∧
    (ptpPort (exchanged s k d) k).reqSent = none ∧ tState (exchanged s k d) = tState s ∧ (exchanged s k d).time.below = s.time.below := by
  refine ⟨rfl, rfl, ?_, rfl, rfl⟩
  show (ptpPort (setPtp s k _) k).reqSent = none
  rw [ptpPort_setPtp]

/-- Of one delay the lowest is it. -/
theorem lowest_single (x : Int) : let d := [] ++ [x]
    (d.drop (d.length - 16)).foldl min ((d.drop (d.length - 16)).headD 0) = x := Int.min_self x

theorem delayResp_first {s : State} {p : PtpMsg} {t3 : Nat} (h : ptpTakes s p = true) (h9 : ptpState s p.port = 9) (hr : (ptpPort s p.port).reqSent = some t3)
    (ha : (ptpPort s p.port).awaitFollowUp = false) (hq : (ptpPort s p.port).reqSeq = p.seq) (h1 : tSource s = 1) (hd : s.time.delays = []) :
    let x := ptpPort s p.port
    let down : Int := (x.syncRx : Int) - 2 * x.syncOrigin - x.syncCorr / 32768
    let up : Int := 2 * (p.originNs : Int) - t3 - p.correction / 32768
    exec (.delayResp p) s = .next (measure (exchanged s p.port [(down + up) / 2]) (down - (down + up) / 2) x.traceable) := by
  have hn : ¬((!ptpTakes s p) = true ∨ ptpState s p.port ≠ 9 ∨ (ptpPort s p.port).awaitFollowUp = true ∨ (ptpPort s p.port).reqSeq ≠ p.seq ∨ tSource s ≠ 1) := by
    simp [h, h9, ha, hq, h1]
  show execDelayResp p s = _
  unfold execDelayResp
  dsimp only
  rw [hr]
  dsimp only
  rw [if_neg hn, hd]
  generalize ((ptpPort s p.port).syncRx : Int) - 2 * (ptpPort s p.port).syncOrigin - (ptpPort s p.port).syncCorr / 32768 = down
  generalize (2 * (p.originNs : Int) - t3 - p.correction / 32768) = up
  rw [lowest_single]
  rfl

theorem announce_taken {s : State} {p : PtpMsg} (h : ptpTakes s p = true) (h2 : 2 ≤ ptpRole s p.port) : Gives (.announce p) s fun t =>
    let x := ptpPort t p.port
    x.announced = true ∧ x.clockClass = p.clockClass ∧ x.accuracy = p.accuracy ∧ x.traceable = p.traceable ∧ x.priority1 = p.priority1 ∧
      x.priority2 = p.priority2 ∧ x.clockId = p.clockId := by
  refine ⟨_, if_neg ?_, ?_⟩
  · simp [h, Nat.not_lt.2 h2]
  · simp only [ptpPort_setPtp, and_self]

theorem ptp_untaken {s : State} {p : PtpMsg} (h : ptpTakes s p = false) : exec (.sync p) s = .next s ∧ exec (.followUp p) s = .next s ∧
    exec (.delayReq p) s = .next s ∧ exec (.delayResp p) s = .next s ∧ exec (.announce p) s = .next s := by
  have hn : (!ptpTakes s p) = true := by rw [h]; rfl
  refine ⟨if_pos (.inl hn), if_pos (.inl hn), congrArg Host.Outcome.next (if_neg (by simp [h])), ?_, if_pos (.inl hn)⟩
  show execDelayResp p s = _
  unfold execDelayResp
  dsimp only
  split
  · rfl
  · exact if_pos (.inl hn)

/-! ## What a master sends (R350, R351) -/

/-- A port that counts its next message. -/
def counting (s : State) (k : Nat) : State := setPtp s k { ptpPort s k with seq := (ptpPort s k).seq + 1 }

theorem syncSend_eq {s : State} {k : Nat} (h : ptpMaster s k = true) : exec (.syncSend k) s = .next (
    if rf s (TIME_PTP_CFG k) 16 1 = 1 then
      sendPtp (sendPtp (counting s k) k 0 ((ptpPort s k).seq + 1) 0 0) k 8 ((ptpPort s k).seq + 1) (txStamp s k / 2) (halfPart (txStamp s k))
    else sendPtp (counting s k) k 0 ((ptpPort s k).seq + 1) (txStamp s k / 2) (halfPart (txStamp s k))) :=
  if_neg (by simp [h])

theorem announceSend_eq {s : State} {k : Nat} (h : ptpMaster s k = true) : exec (.announceSend k) s = .next (match slavePort s with
    | some j => let u := ptpPort (counting s k) j
      txPush (counting s k) (.announce k (rf s (TIME_PTP_CFG k) 12 1 == 1) (ptpDomain s k) ((ptpPort s k).seq + 1) u.clockClass u.accuracy u.traceable
        u.priority1 u.priority2 (some u.clockId))
    | none =>
      let (c, a, t) := if tState s = 2 ∧ tSource s = 2 then (6, 0x21, true) else if tState s = 3 ∧ traceable s then (7, 0x23, true) else (248, 0xFE, false)
      txPush (counting s k) (.announce k (rf s (TIME_PTP_CFG k) 12 1 == 1) (ptpDomain s k) ((ptpPort s k).seq + 1) c a t (rf s TIME_CFG 16 8)
        (rf s TIME_CFG 24 8) none)) :=
  if_neg (by simp [h])

/-- Counting leaves what a port announces of the grandmaster upstream. -/
theorem counting_announced (s : State) (k j : Nat) : ∃ q, ptpPort (counting s k) j = { ptpPort s j with seq := q } := by
  by_cases h : j = k
  · subst h; exact ⟨_, ptpPort_setPtp _ _ _⟩
  · exact ⟨_, ptpPort_setPtp_ne s _ h⟩

theorem announceSend_slave {s : State} {k j : Nat} (h : ptpMaster s k = true) (hj : slavePort s = some j) : Gives (.announceSend k) s fun t => let u := ptpPort s j
    t.fab.tx = .announce k (rf s (TIME_PTP_CFG k) 12 1 == 1) (ptpDomain s k) ((ptpPort s k).seq + 1) u.clockClass u.accuracy u.traceable u.priority1
      u.priority2 (some u.clockId) :: s.fab.tx := by
  refine ⟨_, announceSend_eq h, ?_⟩
  obtain ⟨q, hq⟩ := counting_announced s k j
  rw [hj]
  dsimp only
  rw [hq]
  rfl

theorem announceSend_own {s : State} {k c a : Nat} {b : Bool} (h : ptpMaster s k = true) (hj : slavePort s = none)
    (hown : (if tState s = 2 ∧ tSource s = 2 then (6, 0x21, true) else if tState s = 3 ∧ traceable s then (7, 0x23, true) else (248, 0xFE, false)) = (c, a, b)) :
    Gives (.announceSend k) s fun t => t.fab.tx = .announce k (rf s (TIME_PTP_CFG k) 12 1 == 1) (ptpDomain s k) ((ptpPort s k).seq + 1) c a b
      (rf s TIME_CFG 16 8) (rf s TIME_CFG 24 8) none :: s.fab.tx := by
  refine ⟨_, announceSend_eq h, ?_⟩
  rw [hj, hown]
  rfl

theorem ptp_noMaster {s : State} {k : Nat} (h : ptpMaster s k = false) : exec (.syncSend k) s = .next s ∧ exec (.announceSend k) s = .next s := by
  have hn : (!ptpMaster s k) = true := by rw [h]; rfl
  exact ⟨if_pos hn, if_pos hn⟩

theorem delayReqSend_sent {s : State} {k : Nat} (h : portUp s k = true) (h9 : ptpState s k = 9) : Gives (.delayReqSend k) s fun t =>
    t.fab.tx = .ptp k (rf s (TIME_PTP_CFG k) 12 1 == 1) (ptpDomain s k) 1 ((ptpPort s k).reqSeq + 1) (txStamp s k / 2) (halfPart (txStamp s k)) ::
      s.fab.tx ∧ (ptpPort t k).reqSent = some (txStamp s k) ∧ (ptpPort t k).reqSeq = (ptpPort s k).reqSeq + 1 := by
  refine ⟨_, if_neg (by simp [h, h9]), rfl, ?_⟩
  show (ptpPort (setPtp s k _) k).reqSent = _ ∧ (ptpPort (setPtp s k _) k).reqSeq = _
  rw [ptpPort_setPtp]
  exact ⟨rfl, rfl⟩

end Sys2Proof.Claims
end

section
/-! PROOFS. The choice of the source (R347, R348), the pins (R353) and the oscillator (R345). -/
namespace Sys2Proof.Claims
open Sys2Proof.Machine

/-! ## The ports' states -/

/-- What the selection makes of a port. -/
def assigned (s : State) (best : Option Nat) (k : Nat) : Nat :=
  match ptpRole s k with
  | 0 => ptpState s k
  | 1 => 6
  | r => if best = some k then 9 else if r = 3 then 6 else 4

/-- The selection's work on one port. -/
def assignPort (best : Option Nat) (k : Nat) (s : State) : State :=
  match ptpRole s k with
  | 0 => s
  | 1 => setPtpState s k 6
  | r => setPtpState s k (if best = some k then 9 else if r = 3 then 6 else 4)

theorem ptpState_setPtpState (s : State) {k v : Nat} (hv : v < 16) : ptpState (setPtpState s k v) k = v :=
  (rf_wf_same s _ 25 4 v (by decide)).trans (Nat.mod_eq_of_lt hv)

theorem ptpState_assignPort (best : Option Nat) (k : Nat) (s : State) : ptpState (assignPort best k s) k = assigned s best k := by
  unfold assignPort assigned
  split
  · rfl
  · exact ptpState_setPtpState s (by decide)
  · refine ptpState_setPtpState s ?_
    split
    · decide
    · split <;> decide

/-- It writes no register but the port's, and of that its state only. -/
theorem assignPort_writes (best : Option Nat) (k : Nat) (s : State) : assignPort best k s = s ∨ ∃ v, assignPort best k s = setPtpState s k v := by
  unfold assignPort
  split
  · exact .inl rfl
  · exact .inr ⟨_, rfl⟩
  · exact .inr ⟨_, rfl⟩

theorem ptpCfg_ne {j k : Nat} (h : j ≠ k) : TIME_PTP_CFG j ≠ TIME_PTP_CFG k := by
  show 0x0300040 + 4 * j ≠ 0x0300040 + 4 * k
  omega

theorem assignPort_other (best : Option Nat) {j k : Nat} (s : State) (h : j ≠ k) : rd (assignPort best k s) (TIME_PTP_CFG j) = rd s (TIME_PTP_CFG j) := by
  obtain he | ⟨v, he⟩ := assignPort_writes best k s <;> rw [he]
  exact rd_wf_ne _ _ _ _ (ptpCfg_ne h)

theorem assignPort_role (best : Option Nat) (j k : Nat) (s : State) : ptpRole (assignPort best k s) j = ptpRole s j := by
  obtain he | ⟨v, he⟩ := assignPort_writes best k s <;> rw [he]
  by_cases h : j = k
  · subst h; exact rf_wf_other s _ 25 4 v 14 2 (by decide) (by decide)
  · exact rf_congr (rd_wf_ne _ _ _ _ (ptpCfg_ne h)) _ _

theorem assignPort_low (best : Option Nat) (k : Nat) (s : State) {off : Nat} (h : off < 0x0300040) : rd (assignPort best k s) off = rd s off := by
  obtain he | ⟨v, he⟩ := assignPort_writes best k s <;> rw [he]
  exact rd_wf_ne _ _ _ _ (show off ≠ 0x0300040 + 4 * k by omega)

theorem assignPort_within (best : Option Nat) (k : Nat) (s : State) : Within [.bar] s (assignPort best k s) := by
  obtain he | ⟨v, he⟩ := assignPort_writes best k s <;> rw [he]
  · exact .rfl
  · exact wf_within

/-- What the selection of the first `n` ports leaves. -/
theorem assignPorts_spec (best : Option Nat) (s : State) (n : Nat) : let t := iterate n (assignPort best) s
    (∀ k, ptpRole t k = ptpRole s k) ∧ (∀ k, ptpState t k = if k < n then assigned s best k else ptpState s k) ∧
      (∀ off, off < 0x0300040 → rd t off = rd s off) ∧ Within [.bar] s t := by
  induction n with
  | zero => exact ⟨fun k => rfl, fun k => (if_neg (Nat.not_lt_zero k)).symm, fun off h => rfl, .rfl⟩
  | succ n ih =>
    obtain ⟨hrole, hst, hlow, hw⟩ := ih
    have he : iterate (n + 1) (assignPort best) s = assignPort best n (iterate n (assignPort best) s) := by
      unfold iterate; rw [List.range_succ, List.foldl_append]; rfl
    have has : assigned (iterate n (assignPort best) s) best n = assigned s best n := by
      unfold assigned
      rw [hrole n, hst n, if_neg (Nat.lt_irrefl n)]
    dsimp only
    rw [he]
    refine ⟨fun k => (assignPort_role _ _ _ _).trans (hrole k), fun k => ?_, fun off h => (assignPort_low _ _ _ h).trans (hlow off h), (assignPort_within _ _ _).after hw⟩
    by_cases h : k = n
    · subst h
      rw [ptpState_assignPort, has, if_pos (Nat.lt_succ_self k)]
    · rw [show ptpState (assignPort best n (iterate n (assignPort best) s)) k = ptpState (iterate n (assignPort best) s) k from
        rf_congr (assignPort_other _ _ h) _ _, hst k]
      by_cases hk : k < n
      · rw [if_pos hk, if_pos (Nat.lt_succ_of_lt hk)]
      · rw [if_neg hk, if_neg (fun hc => hk (by omega))]

theorem applyBest_eq (s : State) (best : Option Nat) : applyBest s best = iterate 5 (assignPort best) s := rfl

/-- Only the best port becomes SLAVE, where those without a role are none. -/
theorem assigned_slave {s : State} {best : Option Nat} {k : Nat} (h0 : ptpRole s k = 0 → ptpState s k ≠ 9) : assigned s best k = 9 ↔ best = some k ∧ 2 ≤ ptpRole s k := by
  unfold assigned
  split
  case h_1 h => simp [h0 h, h]
  case h_2 h => simp [h]
  case h_3 r h1 h2 =>
    have h1' : ptpRole s k ≠ 0 := h1
    have h2' : ptpRole s k ≠ 1 := h2
    have h2 : 2 ≤ ptpRole s k := by omega
    by_cases hb : best = some k
    · simp [hb, h2]
    · rw [if_neg hb]
      simp only [hb, false_and, iff_false]
      split <;> decide

/-- The SLAVE port is the first in that state. -/
theorem slavePort_unique {s : State} {k : Nat} (hk : k < 5) (h9 : ptpState s k = 9) (ho : ∀ j, j < 5 → j ≠ k → ptpState s j ≠ 9) : slavePort s = some k := by
  refine find?_of_unique (List.mem_range.2 hk) (by simp [h9]) fun j hj hp => ?_
  by_contra hne
  exact ho j (List.mem_range.1 hj) hne (by simpa using hp)

theorem slavePort_none {s : State} (ho : ∀ j, j < 5 → ptpState s j ≠ 9) : slavePort s = none := by
  refine List.find?_eq_none.2 fun j hj => ?_
  simpa using ho j (List.mem_range.1 hj)

/-! ## Sources -/

/-- The status of a source just chosen. -/
def chosen (s : State) (src port : Nat) : State :=
  wf (wf (setTState (setTraceable s false) 1) TIME_STATUS 0 3 src) TIME_STATUS 8 3 (if src = 1 then port else 0)

theorem acquire_eq (s : State) (src port : Nat) : acquire s src port =
    wr (setTime (chosen s src port) (fun t => { t with below := 0, delays := [], integral := 0 })) TIME_ERR_BOUND 0xFFFFFFFF := rfl

/-- A source is chosen: what it writes. -/
theorem acquire_spec (s : State) {src port : Nat} (hs : src < 8) : tState (acquire s src port) = 1 ∧ tSource (acquire s src port) = src ∧
    rf (acquire s src port) TIME_STATUS 8 3 = (if src = 1 then port else 0) % 8 ∧ (∀ k, ptpState (acquire s src port) k = ptpState s k) ∧
    ppsPresent (acquire s src port) = ppsPresent s ∧ (acquire s src port).time.ppsEdges = s.time.ppsEdges := by
  have hr (lo n : Nat) : rf (acquire s src port) TIME_STATUS lo n =
      rf (wf (wf (setTState (setTraceable s false) 1) TIME_STATUS 0 3 src) TIME_STATUS 8 3 (if src = 1 then port else 0)) TIME_STATUS lo n := by
    rw [acquire_eq, rf_wr _ _ _ _ (by decide), rf_setTime]
    rfl
  have hedges : (setTraceable s false).time.ppsEdges = s.time.ppsEdges := rfl
  refine ⟨?_, ?_, ?_, fun k => ?_, ?_, hedges⟩
  · unfold tState
    rw [hr, rf_wf_other _ _ 8 3 _ 3 2 (by decide) (by decide), rf_wf_other _ _ 0 3 _ 3 2 (by decide) (by decide)]
    exact tState_setTState _ _
  · unfold tSource
    rw [hr, rf_wf_other _ _ 8 3 _ 0 3 (by decide) (by decide), rf_wf_same _ _ 0 3 _ (by decide)]
    exact Nat.mod_eq_of_lt hs
  · rw [hr, rf_wf_same _ _ 8 3 _ (by decide)]
    rfl
  · refine rf_congr ?_ _ _
    have h1 : TIME_PTP_CFG k ≠ TIME_STATUS := show 0x0300040 + 4 * k ≠ 0x0300020 by omega
    have h2 : TIME_PTP_CFG k ≠ TIME_ERR_BOUND := show 0x0300040 + 4 * k ≠ 0x0300028 by omega
    unfold acquire setTState
    dsimp only
    rw [rd_wr_ne _ _ h2, rd_setTime, rd_wf_ne _ _ _ _ h1, rd_wf_ne _ _ _ _ h1, rd_wf_ne _ _ _ _ h1, rd_setTraceable, rd_wf_ne _ _ _ _ h1]
  · unfold ppsPresent
    rw [hr, rf_wf_other _ _ 8 3 _ 6 1 (by decide) (by decide), rf_wf_other _ _ 0 3 _ 6 1 (by decide) (by decide)]
    exact (ppsPresent_setTState _ _).trans (ppsPresent_setTraceable _ _)

theorem reselect_pps {s : State} (h : (bit s.time.ppsConfig 2 && ppsPresent s) = true) (h2 : tSource s = 2) : reselect s = s := by
  unfold reselect
  rw [h]
  exact if_pos h2

theorem reselect_slave {s : State} {k : Nat} (h : (bit s.time.ppsConfig 2 && ppsPresent s) = false) (hk : slavePort s = some k) :
    reselect s = if tSource s = 1 ∧ rf s TIME_STATUS 8 3 = k then s else acquire s 1 k := by
  unfold reselect
  rw [h, hk]

theorem reselect_none {s : State} (h : (bit s.time.ppsConfig 2 && ppsPresent s) = false) (hk : slavePort s = none) :
    reselect s = if tSource s = 1 ∨ tSource s = 2 then loseSource s else s := by
  unfold reselect
  rw [h, hk]

/-- The status with no source. -/
def sourceless (s : State) : State := wf (wf s TIME_STATUS 0 3 0) TIME_STATUS 8 3 0

theorem sourceless_status (s : State) : tSource (sourceless s) = 0 ∧ tState (sourceless s) = tState s ∧ traceable (sourceless s) = traceable s ∧
    ppsPresent (sourceless s) = ppsPresent s := by
  have h (lo n : Nat) (hd : lo + n ≤ 8 ∨ 8 + 3 ≤ lo) (hd0 : lo + n ≤ 0 ∨ 0 + 3 ≤ lo) : rf (sourceless s) TIME_STATUS lo n = rf s TIME_STATUS lo n :=
    (rf_wf_other _ _ 8 3 _ lo n (by decide) hd).trans (rf_wf_other _ _ 0 3 _ lo n (by decide) hd0)
  refine ⟨(rf_wf_other _ _ 8 3 _ 0 3 (by decide) (by decide)).trans (rf_wf_same _ _ 0 3 _ (by decide)), h 3 2 (by decide) (by decide), ?_, ?_⟩
  · unfold traceable; rw [h 5 1 (by decide) (by decide)]
  · unfold ppsPresent; rw [h 6 1 (by decide) (by decide)]

theorem loseSource_locked {s : State} (h : tState s = 2) : tState (loseSource s) = 3 ∧ tSource (loseSource s) = 0 ∧ traceable (loseSource s) = traceable s ∧
    ppsPresent (loseSource s) = ppsPresent s ∧ (loseSource s).time.lossTemp = s.pwr.tcxo ∧ (loseSource s).time.ppsEdges = s.time.ppsEdges := by
  obtain ⟨h1, h2, h3, h4⟩ := sourceless_status s
  unfold loseSource
  dsimp only
  rw [if_pos h]
  obtain ⟨k1, k2, k3, k4⟩ := status_wr (s := setTState (setTime (sourceless s) (fun t => { t with
    lossTemp := (sourceless s).pwr.tcxo, lossOffset := (sxt 32 (rd s TIME_OFFSET).toNat).natAbs, bound := 0, boundAt := mono (sourceless s) })) 3)
    (satBound (sxt 32 (rd s TIME_OFFSET).toNat).natAbs) (o := TIME_ERR_BOUND) (by decide)
  exact ⟨k1.trans (tState_setTState _ _), k2.trans ((tSource_setTState _ _).trans h1), k3.trans ((traceable_setTState _ _).trans h3),
    k4.trans ((ppsPresent_setTState _ _).trans h4), rfl, rfl⟩

theorem freerun_spec (s : State) : tState (freerun s) = 0 ∧ tSource (freerun s) = tSource s ∧ traceable (freerun s) = false ∧
    ppsPresent (freerun s) = ppsPresent s ∧ rd (freerun s) TIME_ERR_BOUND = 0xFFFFFFFF ∧ (freerun s).time = s.time := by
  obtain ⟨k1, k2, k3, k4⟩ := status_wr (s := setTState (setTraceable s false) 0) 0xFFFFFFFF (o := TIME_ERR_BOUND) (by decide)
  exact ⟨k1.trans (tState_setTState _ _), k2.trans (by simp), k3.trans (by simp), k4.trans (by simp), rd_wr_same _ _ _, rfl⟩

theorem loseSource_other {s : State} (h : tState s ≠ 2) : loseSource s = if tState s = 1 then freerun (sourceless s) else sourceless s := if_neg h

/-- With no source left it holds over, runs free, or stays as it was. -/
theorem loseSource_spec (s : State) : tSource (loseSource s) = 0 ∧ (tState s = 2 → tState (loseSource s) = 3) ∧ (tState s = 1 → tState (loseSource s) = 0) ∧
    ppsPresent (loseSource s) = ppsPresent s ∧ (loseSource s).time.ppsEdges = s.time.ppsEdges := by
  obtain ⟨h1, h2, h3, h4⟩ := sourceless_status s
  by_cases h : tState s = 2
  · obtain ⟨k1, k2, -, k4, -, k6⟩ := loseSource_locked h
    exact ⟨k2, fun _ => k1, fun hc => absurd (hc.symm.trans h) (by decide), k4, k6⟩
  · rw [loseSource_other h]
    split
    next hf =>
      obtain ⟨k1, k2, -, k4, -, k6⟩ := freerun_spec (sourceless s)
      exact ⟨k2.trans h1, fun hc => absurd hc h, fun _ => k1, k4.trans h4, by rw [k6]; rfl⟩
    next hf => exact ⟨h1, fun hc => absurd hc h, fun hc => absurd hc hf, h4, rfl⟩

/-! ## SOURCE_SELECT (R347) -/

theorem status_of_rd {s t : State} (h : rd t TIME_STATUS = rd s TIME_STATUS) : tState t = tState s ∧ tSource t = tSource s ∧ traceable t = traceable s ∧
    ppsPresent t = ppsPresent s := by
  unfold tState tSource traceable ppsPresent
  simp only [rf_congr h, and_self]

theorem sourceSelect_port {s : State} {k : Nat} (hs : serving s = true) (hk : k < 5) (hr : 2 ≤ ptpRole s k) (ha : (ptpPort s k).announced = true)
    (hp : (bit s.time.ppsConfig 2 && ppsPresent s) = false) (h0 : ∀ j, j < 5 → ptpRole s j = 0 → ptpState s j ≠ 9) :
    Gives (.sourceSelect (some k)) s fun t => ptpState t k = 9 ∧ tSource t = 1 ∧ rf t TIME_STATUS 8 3 = k ∧ ∀ j, j < 5 → j ≠ k → ptpState t j ≠ 9 := by
  obtain ⟨-, hst, hlow, hw⟩ := assignPorts_spec (some k) s 5
  obtain ⟨-, hsrc, -, hpp⟩ := status_of_rd (hlow TIME_STATUS (by decide))
  have htime := hw.same .time (by decide)
  have h9 : ptpState (applyBest s (some k)) k = 9 := (hst k).trans ((if_pos hk).trans ((assigned_slave (h0 k hk)).2 ⟨rfl, hr⟩))
  have hother : ∀ j, j < 5 → j ≠ k → ptpState (applyBest s (some k)) j ≠ 9 := fun j hj hne hc =>
    hne (Option.some.inj ((assigned_slave (h0 j hj)).1 (((hst j).trans (if_pos hj)).symm.trans hc)).1).symm
  have hpp' : (bit (applyBest s (some k)).time.ppsConfig 2 && ppsPresent (applyBest s (some k))) = false := by
    rw [applyBest_eq, htime, hpp]; exact hp
  refine ⟨_, congrArg Host.Outcome.next (if_pos (by simp [hs, hk, hr, ha])), ?_⟩
  rw [reselect_slave hpp' (slavePort_unique hk h9 hother)]
  split
  next hc => exact ⟨h9, hc.1, hc.2, hother⟩
  next hc =>
    obtain ⟨-, k2, k3, k4, -, -⟩ := acquire_spec (applyBest s (some k)) (src := 1) (port := k) (by decide)
    exact ⟨(k4 k).trans h9, k2, k3.trans (Nat.mod_eq_of_lt (by show k < 8; omega)), fun j hj hne => by rw [k4 j]; exact hother j hj hne⟩

theorem sourceSelect_lost {s : State} (hs : serving s = true) (hp : (bit s.time.ppsConfig 2 && ppsPresent s) = false)
    (h0 : ∀ j, j < 5 → ptpRole s j = 0 → ptpState s j ≠ 9) (h1 : tSource s = 1) (h2 : tState s = 2) :
    Gives (.sourceSelect none) s fun t => tState t = 3 ∧ tSource t = 0 ∧ traceable t = traceable s ∧ t.time.lossTemp = s.pwr.tcxo := by
  obtain ⟨-, hst, hlow, hw⟩ := assignPorts_spec none s 5
  obtain ⟨hts, hsrc, htr, hpp⟩ := status_of_rd (hlow TIME_STATUS (by decide))
  have htime := hw.same .time (by decide)
  have hpwr := hw.same .pwr (by decide)
  have hnone : slavePort (applyBest s none) = none := slavePort_none fun j hj hc =>
    absurd ((assigned_slave (h0 j hj)).1 (((hst j).trans (if_pos hj)).symm.trans hc)).1 nofun
  have hpp' : (bit (applyBest s none).time.ppsConfig 2 && ppsPresent (applyBest s none)) = false := by
    rw [applyBest_eq, htime, hpp]; exact hp
  refine ⟨_, congrArg Host.Outcome.next (if_pos (by simp [hs])), ?_⟩
  rw [reselect_none hpp' hnone, if_pos (.inl (hsrc.trans h1))]
  obtain ⟨k1, k2, k3, -, k5, -⟩ := loseSource_locked (hts.trans h2)
  exact ⟨k1, k2, k3.trans htr, k5.trans (by rw [hpwr])⟩

end Sys2Proof.Claims
end

section
/-! PROOFS. The rows of the pins (R353) and of the oscillator (R345), and O58. -/
namespace Sys2Proof.Claims
open Sys2Proof.Machine

/-! ## The 1PPS input (R347, R353) -/

/-- An edge is noted, the ones of the last 4 s kept. -/
def edged (s : State) : State :=
  setTime s (fun t => { t with ppsEdges := s.time.ppsEdges.filter (fun e => decide (mono s < e + 4000000000)) ++ [mono s] })

theorem ppsInEdge_near {s : State} (h : s.time.ppsEdges.any (fun e => decide (mono s < e + 10000000)) = true) : exec .ppsInEdge s = .next s :=
  if_pos (.inr h)

/-- The phase of the counter at an edge, in half nanoseconds. -/
def phaseOf (s : State) : Int := ((2 * s.time.ns + s.time.frac.toNat / 32768 : Nat) : Int)

/-- What an accepted edge does with the source that stands. -/
def edgeTaken (u : State) : Res :=
  if tSource u ≠ 2 then .next u
  else if (!u.time.secKnown) = true then
    .next (setTime (stepTime u (if decide (500000000 ≤ u.time.ns) = true then u.time.sec + 1 else u.time.sec) 0) (fun t => { t with secKnown := true }))
  else .next (measure u (if decide (500000000 ≤ u.time.ns) = true then phaseOf u - 2000000000 else phaseOf u) true)

theorem ppsInEdge_eq (s : State) : exec .ppsInEdge s =
    if (!serving s) = true ∨ s.time.ppsEdges.any (fun e => decide (mono s < e + 10000000)) = true then .next s
    else edgeTaken (reselect (wf (edged s) TIME_STATUS 6 1 (b2n (ppsFilled (edged s))))) := rfl

theorem edgeTaken_source {s u : State} (h2 : tSource u = 2) (ht : u.time.secKnown = s.time.secKnown ∧ u.time.ns = s.time.ns ∧ u.time.sec = s.time.sec ∧
    u.time.frac = s.time.frac) : edgeTaken u =
      if (!s.time.secKnown) = true then .next (setTime (stepTime u (if decide (500000000 ≤ s.time.ns) = true then s.time.sec + 1 else s.time.sec) 0)
        (fun t => { t with secKnown := true }))
      else .next (measure u (if decide (500000000 ≤ s.time.ns) = true then phaseOf s - 2000000000 else phaseOf s) true) := by
  obtain ⟨h1, hn, hs, hf⟩ := ht
  unfold edgeTaken phaseOf
  rw [if_neg (not_not.2 h2), h1, hn, hs, hf]

theorem ppsInEdge_source {s : State} (hs : serving s = true) (hn : s.time.ppsEdges.any (fun e => decide (mono s < e + 10000000)) = false)
    (hp : bit s.time.ppsConfig 2 = true) (h2 : tSource s = 2) (hf : ppsFilled (edged s) = true) : exec .ppsInEdge s =
      if (!s.time.secKnown) = true then .next (setTime (stepTime (wf (edged s) TIME_STATUS 6 1 1) (if decide (500000000 ≤ s.time.ns) = true then s.time.sec + 1 else s.time.sec) 0)
        (fun t => { t with secKnown := true }))
      else .next (measure (wf (edged s) TIME_STATUS 6 1 1) (if decide (500000000 ≤ s.time.ns) = true then phaseOf s - 2000000000 else phaseOf s) true) := by
  have hn' : ¬((!serving s) = true ∨ s.time.ppsEdges.any (fun e => decide (mono s < e + 10000000)) = true) := by simp [hs, hn]
  have hsrc : tSource (wf (edged s) TIME_STATUS 6 1 1) = 2 := (rf_wf_other _ _ 6 1 1 0 3 (by decide) (by decide)).trans h2
  have hpp : ppsPresent (wf (edged s) TIME_STATUS 6 1 1) = true := beq_iff_eq.2 (rf_wf_same _ _ 6 1 1 (by decide))
  have hre : reselect (wf (edged s) TIME_STATUS 6 1 1) = wf (edged s) TIME_STATUS 6 1 1 :=
    reselect_pps (by rw [hpp, Bool.and_true]; exact hp) hsrc
  have hw : wf (edged s) TIME_STATUS 6 1 (b2n (ppsFilled (edged s))) = wf (edged s) TIME_STATUS 6 1 1 := by rw [hf]; rfl
  rw [ppsInEdge_eq, if_neg hn', hw, hre]
  exact edgeTaken_source hsrc ⟨rfl, rfl, rfl, rfl⟩

theorem ppsInEdge_known {s : State} (hs : serving s = true) (hn : s.time.ppsEdges.any (fun e => decide (mono s < e + 10000000)) = false)
    (hp : bit s.time.ppsConfig 2 = true) (h2 : tSource s = 2) (hf : ppsFilled (edged s) = true) (hk : s.time.secKnown = true) : exec .ppsInEdge s =
      .next (measure (wf (edged s) TIME_STATUS 6 1 1) (if decide (500000000 ≤ s.time.ns) = true then phaseOf s - 2000000000 else phaseOf s) true) := by
  rw [ppsInEdge_source hs hn hp h2 hf, hk]
  exact if_neg nofun

theorem ppsInEdge_unknown {s : State} (hs : serving s = true) (hn : s.time.ppsEdges.any (fun e => decide (mono s < e + 10000000)) = false)
    (hp : bit s.time.ppsConfig 2 = true) (h2 : tSource s = 2) (hf : ppsFilled (edged s) = true) (hk : s.time.secKnown = false) :
    Gives .ppsInEdge s fun t => t.time.ns = 0 ∧ t.time.frac = 0 ∧ t.time.secKnown = true ∧
      t.time.sec = (if 500000000 ≤ s.time.ns then s.time.sec + 1 else s.time.sec) := by
  refine ⟨_, (ppsInEdge_source hs hn hp h2 hf).trans (if_pos (by rw [hk]; rfl)), ?_⟩
  have ht (u : State) (sec : BitVec 48) : (setTime (stepTime u sec 0) (fun t => { t with secKnown := true })).time =
      { u.time with sec := sec, ns := 0, frac := 0, acc := 0, secKnown := true } :=
    congrArg (fun x : TimeSt => { x with secKnown := true }) (stepTime_time u sec 0 0)
  dsimp only
  rw [ht]
  refine ⟨rfl, rfl, rfl, ?_⟩
  simp only [decide_eq_true_eq]

theorem ppsInLoss_recent {s : State} (h : s.time.ppsEdges.any (fun e => decide (mono s < e + 1000000000)) = true) : exec .ppsInLoss s = .next s := if_pos h

/-- No pulse has come. -/
def pulseless (s : State) : State := wf (setTime s (fun t => { t with ppsEdges := [] })) TIME_STATUS 6 1 0

theorem pulseless_status (s : State) : tSource (pulseless s) = tSource s ∧ tState (pulseless s) = tState s ∧ ppsPresent (pulseless s) = false ∧
    slavePort (pulseless s) = slavePort s := by
  refine ⟨rf_wf_other _ _ 6 1 0 0 3 (by decide) (by decide), rf_wf_other _ _ 6 1 0 3 2 (by decide) (by decide), ?_, ?_⟩
  · have h0 : rf (pulseless s) TIME_STATUS 6 1 = 0 := rf_wf_same _ _ 6 1 0 (by decide)
    unfold ppsPresent
    rw [h0]; rfl
  · unfold slavePort
    refine congrArg (fun p => List.find? p (List.range 5)) (funext fun k => ?_)
    have hk : TIME_PTP_CFG k ≠ TIME_STATUS := show 0x0300040 + 4 * k ≠ 0x0300020 by omega
    exact congrArg (· == 9) (rf_wf_ne (setTime s (fun t => { t with ppsEdges := [] })) 25 4 6 1 0 hk)

theorem slavePort_lt {s : State} {k : Nat} (h : slavePort s = some k) : k < 5 := List.mem_range.1 (List.mem_of_find?_eq_some h)

theorem ppsInLoss_lost {s : State} (h : s.time.ppsEdges.any (fun e => decide (mono s < e + 1000000000)) = false) : Gives .ppsInLoss s fun t =>
    t.time.ppsEdges = [] ∧ ppsPresent t = false ∧
    (tSource s = 2 → slavePort s = none → tSource t = 0 ∧ (tState s = 2 → tState t = 3) ∧ (tState s = 1 → tState t = 0)) ∧
    (∀ k, tSource s = 2 → slavePort s = some k → tSource t = 1 ∧ tState t = 1 ∧ rf t TIME_STATUS 8 3 = k) := by
  have hn : ¬s.time.ppsEdges.any (fun e => decide (mono s < e + 1000000000)) = true := by rw [h]; exact Bool.false_ne_true
  obtain ⟨h1, h2, h3, h4⟩ := pulseless_status s
  have hpp : (bit (pulseless s).time.ppsConfig 2 && ppsPresent (pulseless s)) = false := by rw [h3, Bool.and_false]
  have he : (pulseless s).time.ppsEdges = [] := rfl
  refine ⟨reselect (pulseless s), if_neg hn, ?_⟩
  cases hk : slavePort s with
  | none =>
    rw [reselect_none hpp (h4.trans hk)]
    split
    next hsrc =>
      obtain ⟨k1, k2, k3, k4, k5⟩ := loseSource_spec (pulseless s)
      rw [h2] at k2 k3
      exact ⟨k5.trans he, k4.trans h3, fun _ _ => ⟨k1, k2, k3⟩, fun k _ hc => absurd hc nofun⟩
    next hsrc => exact ⟨he, h3, fun hc _ => absurd (.inr (h1.trans hc)) hsrc, fun k _ hc => absurd hc nofun⟩
  | some j =>
    rw [reselect_slave hpp (h4.trans hk)]
    split
    next hsrc => exact ⟨he, h3, fun _ hc => absurd hc nofun, fun k hc _ => absurd ((h1.trans hc).symm.trans hsrc.1) (by decide)⟩
    next hsrc =>
      obtain ⟨k1, k2, k3, -, k5, k6⟩ := acquire_spec (pulseless s) (src := 1) (port := j) (by decide)
      have hj := slavePort_lt hk
      refine ⟨k6.trans he, k5.trans h3, fun _ hc => absurd hc nofun, fun k _ hc => ⟨k2, k1, k3.trans ?_⟩⟩
      rw [← Option.some.inj hc]
      exact Nat.mod_eq_of_lt (show j < 8 by omega)

/-! ## The 1PPS output -/

theorem ppsOutPulse_rises {s : State} (hs : serving s = true) (h0 : bit s.time.ppsConfig 0 = true) (hn : s.time.ns ≤ 10) (hm : s.time.sec ∉ s.time.ppsOutSecs) :
    Gives .ppsOutPulse s fun t => t.pins.ppsOut = true ∧ s.time.sec ∈ t.time.ppsOutSecs ∧ t.time.ppsRose = mono s ∧ now t = now s :=
  ⟨_, if_pos ⟨hs, h0, hn, hm⟩, rfl, List.mem_cons_self, rfl, rfl⟩

theorem ppsOutPulse_none {s : State} (h : bit s.time.ppsConfig 0 = false ∨ 10 < s.time.ns ∨ s.time.sec ∈ s.time.ppsOutSecs) : exec .ppsOutPulse s = .next s := by
  refine if_neg fun ⟨_, h0, hn, hm⟩ => ?_
  obtain h | h | h := h
  · rw [h] at h0; exact Bool.false_ne_true h0
  · omega
  · exact hm h

/-! ## The oscillator (R345) -/

/-- The holdover bound is brought up to date. -/
def boundUpdated (s : State) : State :=
  if tState s = 3 then setTime s (fun t => { t with bound := t.bound + (mono s - t.boundAt) * holdRate s, boundAt := mono s }) else s

theorem boundUpdated_time (s : State) : ∃ b a, boundUpdated s = setTime s (fun t => { t with bound := b, boundAt := a }) := by
  unfold boundUpdated
  split
  · exact ⟨_, _, rfl⟩
  · exact ⟨s.time.bound, s.time.boundAt, rfl⟩

/-- The reading stands in its register and in the state. -/
def tempRead (s : State) (t : Int) : State := { wr s TIME_TCXO (BitVec.ofNat 32 (toCode 16 t)) with pwr := { s.pwr with tcxo := t } }

/-- The compensation's part of ρ at a temperature. -/
def compensated (s : State) (t : Int) : State := setRho (tempRead s t) (-(tcxoErr (tempRead s t) t + s.time.ageing)) s.time.servo

theorem tcxoCompensation_eq {s : State} (temp : W16) (hs : serving s = true) : exec (.tcxoCompensation temp) s = .next (
    let u := compensated (boundUpdated s) (guardedTemp (boundUpdated s) 96 temp.toInt)
    if tState u = 3 then wr u TIME_ERR_BOUND (satBound (holdBound u)) else u) :=
  if_neg (by rw [hs]; exact Bool.false_ne_true)

theorem rd_tempRead (s : State) (t : Int) (off : Nat) : rd (tempRead s t) off = rd (wr s TIME_TCXO (BitVec.ofNat 32 (toCode 16 t))) off := rfl

theorem compensated_spec (s : State) (t : Int) : rd (compensated s t) TIME_TCXO = BitVec.ofNat 32 (toCode 16 t) ∧ (compensated s t).pwr.tcxo = t ∧
    (compensated s t).time.comp = -(tcxoErr (compensated s t) t + s.time.ageing) ∧ (compensated s t).time.servo = s.time.servo ∧
    (compensated s t).time.sec = s.time.sec ∧ (compensated s t).time.ns = s.time.ns := by
  obtain ⟨r, hr⟩ := setRho_time (tempRead s t) (-(tcxoErr (tempRead s t) t + s.time.ageing)) s.time.servo
  have hp : (compensated s t).pwr = (tempRead s t).pwr := (setRho_within _ _ _).same .pwr (by decide)
  have hr : (compensated s t).time = _ := hr
  refine ⟨?_, by rw [hp]; rfl, ?_, by rw [hr], by rw [hr]; rfl, by rw [hr]; rfl⟩
  · unfold compensated
    rw [rd_setRho _ _ (by decide), rd_tempRead, rd_wr_same]
  · rw [hr]
    unfold tcxoErr
    rw [hp]

theorem compensated_adj (s : State) (t : Int) : (RhoFree s → rd (compensated s t) TIME_ADJ =
      BitVec.ofInt 32 ((compensated s t).time.comp + (compensated s t).time.servo)) ∧ (¬RhoFree s → rd (compensated s t) TIME_ADJ = rd s TIME_ADJ) := by
  have hf : RhoFree (tempRead s t) ↔ RhoFree s := Iff.rfl
  obtain ⟨r, hr⟩ := setRho_time (tempRead s t) (-(tcxoErr (tempRead s t) t + s.time.ageing)) s.time.servo
  have hr : (compensated s t).time = _ := hr
  refine ⟨fun h => ?_, fun h => ?_⟩
  · rw [hr]
    unfold compensated
    rw [setRho_free (hf.2 h), rd_setTime, rd_wr_same]
  · unfold compensated
    rw [setRho_held (fun hc => h (hf.1 hc)), rd_setTime, rd_tempRead, rd_wr_ne _ _ (by decide)]

theorem rhoFree_congr {s t : State} (hr : t.time.rhoAt = s.time.rhoAt) (hm : mono t = mono s) : RhoFree t ↔ RhoFree s := by
  unfold RhoFree; rw [hr, hm]

theorem not_rhoFree {s : State} (h : ∃ a, s.time.rhoAt = some a ∧ mono s < a + 10000000) : ¬RhoFree s := fun hf => by
  obtain ⟨a, ha, hl⟩ := h
  have := hf a ha
  omega

/-- What a compensation leaves, the reading being `x`. -/
def Compensated (s : State) (x : Int) (t : State) : Prop :=
  rd t TIME_TCXO = BitVec.ofNat 32 (toCode 16 t.pwr.tcxo) ∧ t.pwr.tcxo = x ∧ t.time.comp = -(tcxoErr s t.pwr.tcxo + s.time.ageing) ∧
    t.time.servo = s.time.servo ∧ now t = now s ∧ (RhoFree s → rd t TIME_ADJ = BitVec.ofInt 32 (t.time.comp + t.time.servo)) ∧
    (¬RhoFree s → rd t TIME_ADJ = rd s TIME_ADJ)

theorem tcxoErr_congr {s t : State} (h : t.pwr.cals = s.pwr.cals) (x : Int) : tcxoErr t x = tcxoErr s x := by
  unfold tcxoErr; rw [h]

theorem tcxoErr_setTime (s : State) (f : TimeSt → TimeSt) (x : Int) : tcxoErr (setTime s f) x = tcxoErr s x := rfl

theorem compensated_is (s : State) (x : Int) : Compensated s x (compensated s x) := by
  obtain ⟨h1, h2, h3, h4, h5, h6⟩ := compensated_spec s x
  obtain ⟨h7, h8⟩ := compensated_adj s x
  have hp : (compensated s x).pwr = (tempRead s x).pwr := (setRho_within _ _ _).same .pwr (by decide)
  rw [show tcxoErr (compensated s x) x = tcxoErr s x from tcxoErr_congr (by rw [hp]; rfl) x] at h3
  exact ⟨by rw [h2]; exact h1, h2, by rw [h2]; exact h3, h4, now_of_time h5 h6, h7, h8⟩

/-- Bringing the bound up to date changes nothing that the compensation reads. -/
theorem Compensated.updated {s t : State} {b a : Nat} {x : Int} (h : Compensated (setTime s (fun t => { t with bound := b, boundAt := a })) x t) : Compensated s x t := by
  obtain ⟨h1, h2, h3, h4, h5, h6, h7⟩ := h
  have hf : RhoFree (setTime s (fun t => { t with bound := b, boundAt := a })) ↔ RhoFree s := rhoFree_congr rfl rfl
  have hn : now (setTime s (fun t => { t with bound := b, boundAt := a })) = now s := now_of_time rfl rfl
  rw [hf] at h6 h7
  rw [hn] at h5
  rw [rd_setTime] at h7
  rw [tcxoErr_setTime] at h3
  exact ⟨h1, h2, h3, h4, h5, h6, h7⟩

/-- Nor does the bound's register. -/
theorem Compensated.bounded {s t : State} {x : Int} (h : Compensated s x t) (v : W32) : Compensated s x (wr t TIME_ERR_BOUND v) := by
  obtain ⟨h1, h2, h3, h4, h5, h6, h7⟩ := h
  have hr {off : Nat} (ho : off ≠ TIME_ERR_BOUND) : rd (wr t TIME_ERR_BOUND v) off = rd t off := rd_wr_ne _ _ ho
  refine ⟨(hr (by decide)).trans h1, h2, h3, h4, h5, fun hf => (hr (by decide)).trans (h6 hf), fun hf => (hr (by decide)).trans (h7 hf)⟩

theorem guardedTemp_setTime (s : State) (f : TimeSt → TimeSt) (i : Nat) (t : Int) : guardedTemp (setTime s f) i t = guardedTemp s i t := rfl

theorem tcxoCompensation_compensates {s : State} (temp : W16) (hs : serving s = true) :
    Gives (.tcxoCompensation temp) s (Compensated s (guardedTemp s 96 temp.toInt)) := by
  obtain ⟨b, a, hb⟩ := boundUpdated_time s
  refine ⟨_, tcxoCompensation_eq temp hs, ?_⟩
  rw [hb, guardedTemp_setTime]
  have h := (compensated_is (setTime s (fun t => { t with bound := b, boundAt := a })) (guardedTemp s 96 temp.toInt)).updated
  dsimp only
  split
  · exact h.bounded _
  · exact h

theorem tcxoCompensation_gives {s : State} (temp : W16) (hs : serving s = true) : Gives (.tcxoCompensation temp) s fun t =>
    rd t TIME_TCXO = BitVec.ofNat 32 (toCode 16 t.pwr.tcxo) ∧
    t.pwr.tcxo = guardedTemp s 96 temp.toInt ∧ t.time.comp = -(tcxoErr s t.pwr.tcxo + s.time.ageing) ∧ t.time.servo = s.time.servo ∧ now t = now s ∧
    ((∀ a, s.time.rhoAt = some a → a + 10000000 ≤ mono s) → rd t TIME_ADJ = BitVec.ofInt 32 (t.time.comp + t.time.servo)) ∧
    ((∃ a, s.time.rhoAt = some a ∧ mono s < a + 10000000) → rd t TIME_ADJ = rd s TIME_ADJ) := by
  obtain ⟨t, ht, h1, h2, h3, h4, h5, h6, h7⟩ := tcxoCompensation_compensates temp hs
  exact ⟨t, ht, h1, h2, h3, h4, h5, h6, fun h => h7 (not_rhoFree h)⟩

theorem holdoverLimit_passed {s : State} (h3 : tState s = 3) (h : 1000 * rf s TIME_CFG 0 16 < holdBound s) : Gives .holdoverLimit s fun t =>
    tState t = 0 ∧ traceable t = false ∧ rd t TIME_ERR_BOUND = 0xFFFFFFFF := by
  obtain ⟨k1, -, k3, -, k5, -⟩ := freerun_spec s
  exact ⟨_, congrArg Host.Outcome.next (if_pos ⟨h3, h⟩), k1, k3, k5⟩

theorem holdoverLimit_none {s : State} (h : tState s ≠ 3 ∨ holdBound s ≤ 1000 * rf s TIME_CFG 0 16) : exec .holdoverLimit s = .next s :=
  congrArg Host.Outcome.next (if_neg fun ⟨h3, hl⟩ => h.elim (fun hc => hc h3) (fun hc => Nat.not_lt.2 hc hl))

/-! ## The obligation -/

theorem steps_or (s : State) (o : Int) (h : tState s ≠ 1 ∨ o.natAbs ≤ 2000000 ∨ s.time.tracedOnce = true) : ¬Steps s o := fun ⟨h1, h2, h3⟩ => by
  obtain h | h | h := h
  · exact h h1
  · omega
  · rw [h] at h3; exact Bool.false_ne_true h3.symm

theorem syncSend_oneStep {s : State} {k : Nat} (h : ptpMaster s k = true) (h0 : rf s (TIME_PTP_CFG k) 16 1 = 0) : Gives (.syncSend k) s fun t =>
    t.fab.tx = .ptp k (rf s (TIME_PTP_CFG k) 12 1 == 1) (ptpDomain s k) 0 ((ptpPort s k).seq + 1) (txStamp s k / 2) (halfPart (txStamp s k)) :: s.fab.tx ∧
      (ptpPort t k).seq = (ptpPort s k).seq + 1 := by
  refine ⟨_, (syncSend_eq h).trans (congrArg Host.Outcome.next (if_neg (by rw [h0]; decide))), rfl, ?_⟩
  exact congrArg PtpPort.seq (ptpPort_setPtp _ _ _)

theorem syncSend_twoStep {s : State} {k : Nat} (h : ptpMaster s k = true) (h1 : rf s (TIME_PTP_CFG k) 16 1 = 1) : Gives (.syncSend k) s fun t =>
    t.fab.tx = .ptp k (rf s (TIME_PTP_CFG k) 12 1 == 1) (ptpDomain s k) 8 ((ptpPort s k).seq + 1) (txStamp s k / 2) (halfPart (txStamp s k)) ::
      .ptp k (rf s (TIME_PTP_CFG k) 12 1 == 1) (ptpDomain s k) 0 ((ptpPort s k).seq + 1) 0 0 :: s.fab.tx :=
  ⟨_, (syncSend_eq h).trans (congrArg Host.Outcome.next (if_pos h1)), rfl⟩

/-- Settles O58: the servo writes its own register only, a measurement that does not step leaves the counter, the selection leaves one SLAVE port, and the
source follows it. -/
theorem timeEventRows : Obligations.TimeEventRows := by
  unfold Obligations.TimeEventRows
  refine ⟨fun s o trace => ⟨fun h1 h2 h3 => measure_stepped trace ⟨h1, h2, h3⟩, fun h => measure_slewed trace (steps_or s o h)⟩,
    fun s p => sync_taken, fun s p => followUp_taken, fun s p => delayReq_answered, fun s p t3 h h9 hr ha hq h1 hd => ?_, fun s p => announce_taken,
    fun s p => ptp_untaken, fun s k h => ⟨syncSend_oneStep h, syncSend_twoStep h, fun j => announceSend_slave h, fun hj h2 h3 => ?_, fun hj h3 ht => ?_, fun hj h2 => ?_⟩,
    fun s k => ptp_noMaster, fun s k => delayReqSend_sent, fun s k => sourceSelect_port, fun s => sourceSelect_lost, fun s => ppsInEdge_near,
    fun s hs hn hp h2 => ?_, fun s => ppsInLoss_recent, fun s => ppsInLoss_lost,
    fun s => ppsOutPulse_rises, fun s => ppsOutPulse_none, fun s temp => tcxoCompensation_gives temp, fun s => holdoverLimit_passed, fun s => holdoverLimit_none⟩
  · exact ⟨_, delayResp_first h h9 hr ha hq h1 hd, exchanged_spec _ _ _⟩
  · exact announceSend_own h hj (if_pos ⟨h2, h3⟩)
  · exact announceSend_own h hj ((if_neg fun hc => absurd (h3.symm.trans hc.1) (by decide)).trans (if_pos ⟨h3, ht⟩))
  · exact announceSend_own h hj ((if_neg fun hc => by omega).trans (if_neg fun hc => by omega))
  · intro u phase hf
    refine ⟨fun hk hlt => (ppsInEdge_known hs hn hp h2 hf hk).trans ?_, fun hk hle => (ppsInEdge_known hs hn hp h2 hf hk).trans ?_, ppsInEdge_unknown hs hn hp h2 hf⟩
    · rw [if_neg (by simpa using hlt)]; rfl
    · rw [if_pos (decide_eq_true hle)]; rfl

end Sys2Proof.Claims
end


section
/-! PROOFS. The end of a command: its status entry, and O40. -/
namespace Sys2Proof.Claims
open Sys2Proof.Machine

/-! ## Host memory reads back what was written -/

theorem hostByte_setHostByte (s : State) (a b : Nat) (x : Byte) : hostByte (setHostByte s b x) a = if a = b then x else hostByte s a := by
  unfold hostByte setHostByte
  split
  next h => subst h; exact tget_tset_same _ _ _ _
  next h => exact tget_tset_ne _ _ _ _ h

/-- Bytes set one after another: each address holds its byte. -/
theorem hostByte_iterate (s : State) (a : Nat) (f : Nat → Byte) (n i : Nat) (h : i < n) :
    hostByte (iterate n (fun i s => setHostByte s (a + i) (f i)) s) (a + i) = f i := by
  induction n with
  | zero => exact absurd h (Nat.not_lt_zero i)
  | succ n ih =>
    have he : iterate (n + 1) (fun i s => setHostByte s (a + i) (f i)) s = setHostByte (iterate n (fun i s => setHostByte s (a + i) (f i)) s) (a + n) (f n) := by
      unfold iterate; rw [List.range_succ, List.foldl_append]; rfl
    rw [he, hostByte_setHostByte]
    split
    next hi => rw [show i = n by omega]
    next hi => exact ih (by omega)

theorem hostWrite_linkUp (s : State) (a : Nat) (bs : List Byte) : (hostWrite s a bs).2.host.linkUp = s.host.linkUp := by
  unfold hostWrite
  split
  · exact foldl_keeps (fun s : State => s.host.linkUp) (fun s i => setHostByte s (a + i) (bs.getD i 0)) (fun _ _ => rfl) _ _
  · rfl

theorem hostRead_hostWrite {s : State} (h : s.host.linkUp = true) (a : Nat) (bs : List Byte) : hostRead (hostWrite s a bs).2 a bs.length = (stOk, bs) := by
  have hu : (hostWrite s a bs).2 = iterate bs.length (fun i s => setHostByte s (a + i) (bs.getD i 0)) s := by
    unfold hostWrite; rw [if_pos h]
  unfold hostRead
  rw [if_pos ((hostWrite_linkUp s a bs).trans h), hu]
  refine congrArg (Prod.mk stOk) (List.ext_getElem (by simp) fun i hi _ => ?_)
  have hi : i < bs.length := by simpa using hi
  rw [List.getElem_map, List.getElem_range, hostByte_iterate s a (fun i => bs.getD i 0) _ _ hi, List.getD_eq_getElem _ _ hi]

/-- A write to host memory leaves the rest of the host port. -/
theorem hostWrite_keeps {β : Type} (p : HostPort → β) (hp : ∀ h m, p { h with mem := m } = p h) (s : State) (a : Nat) (bs : List Byte) :
    p (hostWrite s a bs).2.host = p s.host := by
  unfold hostWrite
  split
  · exact foldl_keeps (fun s : State => p s.host) (fun s i => setHostByte s (a + i) (bs.getD i 0)) (fun _ _ => hp _ _) _ _
  · rfl

/-! ## Nothing else is settled -/

theorem traceSelected_off {s : State} (h : rf s TRACE_CTRL 0 1 = 0) (ev part : Nat) (tag : W32) : traceSelected s ev part tag = false := by
  unfold traceSelected; rw [h]; rfl

theorem traceEvent_off {s : State} (h : rf s TRACE_CTRL 0 1 = 0) (ev : Nat) (tag : W32) (subtag part source aux arg0 arg1 : Nat) :
    traceEvent s ev tag subtag part source aux arg0 arg1 = s := by
  unfold traceEvent
  rw [if_neg (by rw [traceSelected_off h]; exact Bool.false_ne_true)]

theorem settleDelete_none {s : State} {q : Nat} (h : (getQp s q).deleting = none) : settleDelete s q = s := by
  unfold settleDelete; rw [h]

theorem settleDeletes_none {s : State} (h : ∀ q, (getQp s q).deleting = none) (n : Nat) :
    iterate n (fun _ s => s.host.qps.foldl (fun s q => settleDelete s q.1) s) s = s := by
  have hf (l : Tab QueuePair) : l.foldl (fun s q => settleDelete s q.1) s = s := by
    induction l with
    | nil => rfl
    | cons x xs ih => rw [List.foldl_cons, settleDelete_none (h _), ih]
  induction n with
  | zero => rfl
  | succ n ih =>
    unfold iterate at ih ⊢
    rw [List.range_succ, List.foldl_append, ih]
    exact hf _

theorem getQp_modQp (s : State) (q r : Nat) (f : QueuePair → QueuePair) : getQp (modQp s q f) r = if r = q then f (getQp s q) else getQp s r := by
  unfold modQp
  split
  next h => subst h; exact getQp_setQp _ _ _
  next h => exact getQp_setQp_ne _ _ h

theorem getQp_deleting_setQp {s : State} {q : Nat} {x : QueuePair} (h : ∀ r, (getQp s r).deleting = none) (hx : x.deleting = none) (r : Nat) :
    (getQp (setQp s q x) r).deleting = none := by
  by_cases hr : r = q
  · subst hr; rw [getQp_setQp]; exact hx
  · rw [getQp_setQp_ne _ _ hr]; exact h r

/-- A queue pair after one more entry. -/
def onePosted (q : QueuePair) : QueuePair :=
  { q with
    cqTail := q.cqTail + 1
    phase := if q.cqTail % 2 ^ q.log2 + 1 = 2 ^ q.log2 then !q.phase else q.phase
    reserved := q.reserved - 1 }

/-- Where a queue pair's next entry goes. -/
def entryAt (q : QueuePair) : Nat := q.cqBase.toNat + 32 * (q.cqTail % 2 ^ q.log2)

/-- The entry that a command's status is. -/
def entryOf (s : State) (c : Cmd) (st : W16) (detail result : Nat) : BitVec 256 :=
  statusEntry c.pkt st detail (now s) result ((getQp s c.queue).sqHead % 2 ^ (getQp s c.queue).log2) c.queue (b2n (getQp s c.queue).phase)

/-- The entry is written, the queue pair counts it. -/
def entered (s : State) (c : Cmd) (st : W16) (detail result : Nat) : State :=
  setQp (hostWrite (dropCmd s c.id) (entryAt (getQp s c.queue)) (bytesOf (entryOf s c st detail result))).2 c.queue (onePosted (getQp s c.queue))

/-- A message goes out. -/
def messaged (s : State) (v : Nat) : State := { s with host := { s.host with msix := v :: s.host.msix } }

theorem getQp_messaged (s : State) (v q : Nat) : getQp (messaged s v) q = getQp s q := rfl

/-- The state after a command that a host queue sent has posted its status. -/
def posted (s : State) (c : Cmd) (st : W16) (detail result : Nat) : State := messaged (entered s c st detail result) (getQp s c.queue).msix

theorem postStatus_local {s : State} {c : Cmd} {st : W16} (h : c.src = none) (hst : st ≠ 0x03FF) (ht : rf s TRACE_CTRL 0 1 = 0) (detail result : Nat) :
    postStatus s c st detail result = posted s c st detail result := by
  unfold postStatus
  dsimp only
  rw [traceEvent_off ht]
  unfold writeStatus
  dsimp only
  rw [if_neg hst, h]
  rfl

theorem getQp_hostWrite (s : State) (a : Nat) (bs : List Byte) (q : Nat) : getQp (hostWrite s a bs).2 q = getQp s q := by
  unfold getQp
  rw [hostWrite_keeps (·.qps) (fun _ _ => rfl)]

theorem getQp_posted (s : State) (c : Cmd) (st : W16) (detail result : Nat) : getQp (posted s c st detail result) c.queue = onePosted (getQp s c.queue) := by
  unfold posted entered
  rw [getQp_messaged, getQp_setQp]

theorem posted_deleting {s : State} (h : ∀ q, (getQp s q).deleting = none) (c : Cmd) (st : W16) (detail result q : Nat) :
    (getQp (posted s c st detail result) q).deleting = none := by
  unfold posted entered
  rw [getQp_messaged]
  refine getQp_deleting_setQp (x := onePosted _) (fun r => ?_) (h c.queue) q
  rw [getQp_hostWrite]
  exact h r

/-- A queue pair waits for the command's semaphore no more. -/
def unwaited (s : State) (c : Cmd) : State :=
  if (getQp s c.queue).waitSem = some c.id then modQp s c.queue (fun q => { q with waitSem := none }) else s

theorem getQp_unwaited (s : State) (c : Cmd) (q : Nat) : getQp (unwaited s c) q = getQp s q ∨ getQp (unwaited s c) q = { getQp s q with waitSem := none } := by
  unfold unwaited
  split
  · rw [getQp_modQp]
    split
    next h => subst h; exact .inr rfl
    next h => exact .inl rfl
  · exact .inl rfl

theorem unwaited_keeps {β : Type} (p : HostPort → β) (hp : ∀ h m, p { h with qps := m } = p h) (s : State) (c : Cmd) : p (unwaited s c).host = p s.host := by
  unfold unwaited
  split
  · exact hp _ _
  · rfl

theorem unwaited_within (s : State) (c : Cmd) : Within [.host] s (unwaited s c) := by
  unfold unwaited
  split
  · exact modQp_within.after .rfl
  · exact .rfl

/-- Where nothing else is settled, a completion posts the status and frees the queue's wait. -/
theorem complete_settled {s : State} {c : Cmd} {st : W16} (h : c.src = none) (hst : st ≠ 0x03FF) (hs : Settled s) (detail result : Nat) :
    complete s c st detail result = unwaited (posted s c st detail result) c := by
  obtain ⟨hq, ht⟩ := hs
  unfold complete
  dsimp only
  rw [postStatus_local h hst ht]
  refine settleDeletes_none (fun q => ?_) _
  have hd := posted_deleting hq c st detail result q
  obtain hu | hu := getQp_unwaited (posted s c st detail result) c q
  · exact (congrArg QueuePair.deleting hu).trans hd
  · exact (congrArg QueuePair.deleting hu).trans hd

theorem getCmd_dropCmd (s : State) (id : Nat) : getCmd (dropCmd s id) id = none :=
  List.find?_eq_none.2 fun c hc => by simpa using (List.mem_filter.1 hc).2

theorem posted_cmds (s : State) (c : Cmd) (st : W16) (detail result : Nat) : (posted s c st detail result).host.cmds = (dropCmd s c.id).host.cmds := by
  unfold posted entered messaged setQp
  exact hostWrite_keeps (·.cmds) (fun _ _ => rfl) _ _ _

theorem posted_msix (s : State) (c : Cmd) (st : W16) (detail result : Nat) :
    (posted s c st detail result).host.msix = (getQp s c.queue).msix :: s.host.msix := by
  unfold posted entered messaged setQp
  exact congrArg _ (hostWrite_keeps (·.msix) (fun _ _ => rfl) _ _ _)

/-- What is read back of a completion ring is the entry. -/
theorem hostRead_posted {s : State} (h : s.host.linkUp = true) (c : Cmd) (st : W16) (detail result : Nat) :
    hostRead (posted s c st detail result) (entryAt (getQp s c.queue)) 32 = (stOk, bytesOf (entryOf s c st detail result)) := by
  have hl : (bytesOf (entryOf s c st detail result)).length = 32 := by
    unfold bytesOf leBytes; simp
  have hr := hostRead_hostWrite (s := dropCmd s c.id) h (entryAt (getQp s c.queue)) (bytesOf (entryOf s c st detail result))
  rw [hl] at hr
  exact hr

theorem hostRead_unwaited (s : State) (c : Cmd) (a n : Nat) : hostRead (unwaited s c) a n = hostRead s a n := by
  unfold hostRead hostByte
  rw [unwaited_keeps (·.linkUp) (fun _ _ => rfl), unwaited_keeps (·.mem) (fun _ _ => rfl)]

theorem posted_mem (s : State) (c : Cmd) (st : W16) (detail result : Nat) : (posted s c st detail result).mem = s.mem :=
  (hostWrite_within (s := dropCmd s c.id)).same .mem (by decide)

theorem bne_decide_eq_ite (b : Bool) (p : Prop) [Decidable p] : (b != decide p) = if p then !b else b := by
  split
  next h => rw [decide_eq_true h]; cases b <;> rfl
  next h => rw [decide_eq_false h]; cases b <;> rfl

/-- Settles O40: where nothing else is settled a completion is one entry in the ring, and an entry's fields lie apart. -/
theorem statusPosted : Obligations.StatusPosted := by
  unfold Obligations.StatusPosted
  refine ⟨fun s c st detail result h hst hl hs => ?_, fun p st d t r h q ph => ?_⟩
  · rw [complete_settled h hst hs]
    have hq : getQp (unwaited (posted s c st detail result) c) c.queue = onePosted (getQp s c.queue) ∨
        getQp (unwaited (posted s c st detail result) c) c.queue = { onePosted (getQp s c.queue) with waitSem := none } := by
      have := getQp_unwaited (posted s c st detail result) c c.queue
      rwa [getQp_posted] at this
    refine ⟨?_, ?_, ?_, ?_, ?_, ?_, ?_⟩
    · unfold getCmd
      rw [unwaited_keeps (·.cmds) (fun _ _ => rfl), posted_cmds]
      exact getCmd_dropCmd s c.id
    · rw [unwaited_keeps (·.msix) (fun _ _ => rfl), posted_msix]
    · obtain hq | hq := hq <;> exact congrArg QueuePair.cqTail hq
    · obtain hq | hq := hq <;> exact congrArg QueuePair.reserved hq
    · rw [bne_decide_eq_ite]
      obtain hq | hq := hq <;> exact congrArg QueuePair.phase hq
    · rw [hostRead_unwaited]
      exact hostRead_posted hl c st detail result
    · exact ((unwaited_within _ _).same .mem (by decide)).trans (posted_mem s c st detail result)
  · unfold statusEntry
    refine ⟨?_, ?_, ?_, ?_, ?_, ?_, ?_, ?_, ?_⟩
    · rw [fld_pack (lo := 0) (len := 32) (v := (pkTag p).toNat) (by simp) (by decide) (by simp)]
      exact (Nat.mod_eq_of_lt (pkTag p).isLt).trans (by unfold pkTag; rw [BitVec.toNat_ofNat, Nat.mod_eq_of_lt (fld_lt p 32 32)])
    · rw [fld_pack (lo := 32) (len := 16) (v := pkOp p) (by simp) (by decide) (by simp)]
      exact Nat.mod_eq_of_lt (fld_lt p 0 16)
    · rw [fld_pack (lo := 48) (len := 16) (v := st.toNat) (by simp) (by decide) (by simp)]
      exact Nat.mod_eq_of_lt st.isLt
    · exact fld_pack (by simp) (by decide) (by simp)
    · exact fld_pack (by simp) (by decide) (by simp)
    · exact fld_pack (by simp) (by decide) (by simp)
    · exact fld_pack (by simp) (by decide) (by simp)
    · exact fld_pack (by simp) (by decide) (by simp)
    · exact fld_pack (by simp) (by decide) (by simp)

end Sys2Proof.Claims
end

section
/-! PROOFS. Accesses to registers (R436 to R443): what a read returns, what a write does. -/
namespace Sys2Proof.Claims
open Sys2Proof.Machine

/-! ## Reads -/

theorem regRead_word (s : State) (a : Accessor) {off : Nat} (h : off % 4 = 0) : regRead s a off 0xF = regReadWord s a off := by
  unfold regRead
  rw [if_neg (by decide), if_neg (by simp [h])]

/-- The word of a register that can be reached. -/
theorem regReadWord_reached {s : State} {a : Accessor} {off b i : Nat} {r : RegRow} {high : Bool} (h : Reach s a off) (hr : regAt (canonOff off) = some (r, b, i, high))
    (hc : canonOff off = off) : regReadWord s a off =
      if high then
        match s.bar.latch.find? (fun l => decide (l.1 = a) && l.2.1 == off - 4) with
        | some l => (l.2.2, dropLatch s a (off - 4))
        | none => (BitVec.ofNat 32 (regValue s r (off - 4) / 2 ^ 32), s)
      else
        let s := if off = TIME_NOW_FRAC then latchTime s else s
        (BitVec.ofNat 32 (regValue s r off), if r.wide then setLatch s a off (BitVec.ofNat 32 (regValue s r off / 2 ^ 32)) else s) := by
  obtain ⟨-, -, h1, h2, h3, h4, h5, h6, -⟩ := h
  have hr' : regAt off = some (r, b, i, high) := hc ▸ hr
  unfold regReadWord
  simp only [h1, h2, h3, h4, h5, h6, hc, hr', Bool.not_true, Bool.or_self, Bool.false_eq_true, if_false] <;> rfl

theorem lowWordRead_reached {s : State} {a : Accessor} {off : Nat} {r : RegRow} (h : Reach s a off) (hr : RowAt off r false) : exec (.lowWordRead a off) s = .next (returned (regReadWord s a off)) := by
  obtain ⟨b, i, hr⟩ := hr
  obtain ⟨ha, hre, -, -, -, -, -, -, h4⟩ := h
  show execLowWordRead a off s = _
  unfold execLowWordRead
  simp only [hr, hre, ha, regRead_word s a h4, Bool.not_true, Bool.not_false, Bool.false_eq_true, if_false, if_true]

theorem highWordRead_reached {s : State} {a : Accessor} {off : Nat} {r : RegRow} (h : Reach s a off) (hr : RowAt off r true) : exec (.highWordRead a off) s = .next (returned (regReadWord s a off)) := by
  obtain ⟨b, i, hr⟩ := hr
  obtain ⟨ha, hre, -, -, -, -, -, -, h4⟩ := h
  show execHighWordRead a off s = _
  unfold execHighWordRead
  simp only [hr, hre, ne_eq, ha, not_false_eq_true, decide_true, Bool.and_self, if_true, regRead_word s a h4]

theorem low_latched {s : State} {a : Accessor} {off : Nat} {r : RegRow} (h : Reach s a off) (hr : RowAt off r false) (hc : canonOff off = off) (hf : off ≠ TIME_NOW_FRAC)
    (hw : r.wide = true) : Gives (.lowWordRead a off) s fun u => u.bar.rdata = BitVec.ofNat 32 (regValue s r off) ∧
      (∃ l ∈ u.bar.latch, l = (a, off, BitVec.ofNat 32 (regValue s r off / 2 ^ 32))) ∧ u.bar.regs = s.bar.regs ∧ u.bar.regs64 = s.bar.regs64 ∧ u.mem = s.mem := by
  refine ⟨_, lowWordRead_reached h hr, ?_⟩
  obtain ⟨b, i, hr⟩ := hr
  rw [regReadWord_reached h hr hc]
  simp only [Bool.false_eq_true, if_false, hf, hw, if_true]
  exact ⟨rfl, ⟨_, List.mem_cons_self, rfl⟩, rfl, rfl, rfl⟩

theorem low_plain {s : State} {a : Accessor} {off : Nat} {r : RegRow} (h : Reach s a off) (hr : RowAt off r false) (hc : canonOff off = off) (hf : off ≠ TIME_NOW_FRAC)
    (hw : r.wide = false) : Gives (.lowWordRead a off) s fun u => u.bar.rdata = BitVec.ofNat 32 (regValue s r off) ∧ u.bar.regs = s.bar.regs ∧
      u.bar.latch = s.bar.latch ∧ u.mem = s.mem := by
  refine ⟨_, lowWordRead_reached h hr, ?_⟩
  obtain ⟨b, i, hr⟩ := hr
  rw [regReadWord_reached h hr hc]
  simp only [Bool.false_eq_true, if_false, hf, hw]
  exact ⟨rfl, rfl, rfl, rfl⟩

theorem high_latched {s : State} {a : Accessor} {off : Nat} {r : RegRow} {v : W32} (h : Reach s a off) (hr : RowAt off r true) (hc : canonOff off = off)
    (hl : s.bar.latch.find? (fun l => decide (l.1 = a) && l.2.1 == off - 4) = some (a, off - 4, v)) :
    Gives (.highWordRead a off) s fun u => u.bar.rdata = v ∧ (∀ l ∈ u.bar.latch, ¬(l.1 = a ∧ l.2.1 = off - 4)) ∧ u.bar.regs = s.bar.regs ∧ u.mem = s.mem := by
  refine ⟨_, highWordRead_reached h hr, ?_⟩
  obtain ⟨b, i, hr⟩ := hr
  rw [regReadWord_reached h hr hc, if_pos rfl, hl]
  refine ⟨rfl, fun l hm hc => ?_, rfl, rfl⟩
  have := (List.mem_filter.1 hm).2
  simp [hc.1, hc.2] at this

theorem high_present {s : State} {a : Accessor} {off : Nat} {r : RegRow} (h : Reach s a off) (hr : RowAt off r true) (hc : canonOff off = off)
    (hl : s.bar.latch.find? (fun l => decide (l.1 = a) && l.2.1 == off - 4) = none) :
    Gives (.highWordRead a off) s fun u => u.bar.rdata = BitVec.ofNat 32 (regValue s r (off - 4) / 2 ^ 32) ∧ u.bar.regs = s.bar.regs ∧ u.mem = s.mem := by
  refine ⟨_, highWordRead_reached h hr, ?_⟩
  obtain ⟨b, i, hr⟩ := hr
  rw [regReadWord_reached h hr hc, if_pos rfl, hl]
  exact ⟨rfl, rfl, rfl⟩

/-! ## TIME_NOW_FRAC (R357) -/

theorem rd_latchTime (s : State) : rd (latchTime s) TIME_NOW_FRAC = s.time.frac.setWidth 32 ∧ rd (latchTime s) TIME_NOW_NS = BitVec.ofNat 32 s.time.ns ∧
    rd64 (latchTime s) TIME_NOW_SEC = s.time.sec.setWidth 64 := by
  unfold latchTime
  refine ⟨?_, ?_, rd64_wr64_same _ _ _⟩
  · rw [rd_wr64, rd_wr_ne _ _ (by decide), rd_wr_same]
  · rw [rd_wr64, rd_wr_same]
    rfl

theorem derived_timeNowFrac (s : State) : derived s TIME_NOW_FRAC = none := rfl

theorem timeNowFrac_row : ∃ r b i, regAt (canonOff TIME_NOW_FRAC) = some (r, b, i, false) ∧ r.wide = false := ⟨_, _, _, rfl, rfl⟩

/-- What a read of TIME_NOW_FRAC returns and leaves. -/
theorem read_timeNowFrac {s : State} (a : Accessor) (ha : answers s TIME_NOW_FRAC = true) : regReadWord s a TIME_NOW_FRAC = (s.time.frac.setWidth 32, latchTime s) := by
  obtain ⟨r, b, i, hr, hw⟩ := timeNowFrac_row
  have h1 : regExists TIME_NOW_FRAC = true := by decide +kernel
  have h2 : gateClosed s TIME_NOW_FRAC = false := rfl
  have h4 : regAbsent s TIME_NOW_FRAC = false := rfl
  have h5 : inRing TIME_NOW_FRAC = false := by decide
  have h6 : inWindow TIME_NOW_FRAC = false := by decide
  have hv : regValue (latchTime s) r TIME_NOW_FRAC = (s.time.frac.setWidth 32 : W32).toNat := by
    unfold regValue
    rw [derived_timeNowFrac, hw, (rd_latchTime s).1]
    rfl
  unfold regReadWord
  have hc : canonOff TIME_NOW_FRAC = TIME_NOW_FRAC := by decide
  rw [hc] at hr
  simp only [h1, h2, ha, h4, h5, h6, hc, hr, hw, hv, Bool.not_true, Bool.or_self, Bool.false_eq_true, if_false, if_true, BitVec.ofNat_toNat, BitVec.setWidth_eq]

theorem timeNowFrac_latches {s : State} {a : Accessor} (hre : reaches s a = true) (ha : answers s TIME_NOW_FRAC = true) (hn : s.time.ns < 2 ^ 32) :
    Gives (.timeNowFrac a) s fun u => u.bar.rdata = s.time.frac.setWidth 32 ∧ (rd u TIME_NOW_NS).toNat = s.time.ns ∧
      rd64 u TIME_NOW_SEC = s.time.sec.setWidth 64 ∧ u.time = s.time := by
  obtain ⟨-, h2, h3⟩ := rd_latchTime s
  refine ⟨returned (regReadWord s a TIME_NOW_FRAC), congrArg Host.Outcome.next ((if_pos hre).trans (congrArg returned (regRead_word s a (by decide)))), ?_⟩
  rw [read_timeNowFrac a ha]
  refine ⟨rfl, ?_, h3, rfl⟩
  show (rd (latchTime s) TIME_NOW_NS).toNat = _
  rw [h2, BitVec.toNat_ofNat, Nat.mod_eq_of_lt hn]

/-- Settles O33: a word that can be reached is read by its row, and TIME_NOW_FRAC latches the counter. -/
theorem wideReads : Obligations.WideReads := by
  unfold Obligations.WideReads
  exact ⟨fun s a off r h hr hc hf hw => low_latched h hr hc hf hw, fun s a off r h hr hc hf hw => low_plain h hr hc hf hw,
    fun s a off r v h hr hc hl => high_latched h hr hc hl, fun s a off r h hr hc hl => high_present h hr hc hl,
    fun s a hre ha hn => timeNowFrac_latches hre ha hn⟩

/-! ## Writes -/

theorem regWrite_word (s : State) {off : Nat} (w : W32) (h : off % 4 = 0) : regWrite s off 0xF w = regWriteWord s off w := by
  unfold regWrite
  rw [if_neg (by decide), if_neg (by simp [h])]

theorem registerWrite_eq {s : State} {a : Accessor} (off : Nat) (be : BitVec 4) (w : W32) (ha : a ≠ .sideband) (hre : reaches s a = true) :
    exec (.registerWrite a off be w) s = .next (regWrite s off be w) := by
  show execRegisterWrite a off be w s = _
  unfold execRegisterWrite
  simp only [hre, ha, Bool.not_true, Bool.false_eq_true, if_false]

/-- What stands between an access and a register of the map. -/
def Clear (s : State) (off : Nat) : Prop :=
  regExists off = true ∧ gateClosed s off = false ∧ answers s off = true ∧ regAbsent s off = false ∧ inRing off = false ∧ inWindow off = false

theorem Reach.clear {s : State} {a : Accessor} {off : Nat} (h : Reach s a off) : Clear s off := by
  obtain ⟨-, -, h1, h2, h3, h4, h5, h6, -⟩ := h
  exact ⟨h1, h2, h3, h4, h5, h6⟩

/-- The low word kept for a 64-bit register is used. -/
def dropPend (s : State) (off : Nat) : State := { s with bar := { s.bar with pendLow := tdel s.bar.pendLow off } }

theorem rd64_dropPend (s : State) (off o : Nat) : rd64 (dropPend s off) o = rd64 s o := rfl

theorem regWriteWord_clear {s : State} {off b i : Nat} {r : RegRow} {high : Bool} (w : W32) (h : Clear s off) (hr : regAt (canonOff off) = some (r, b, i, high)) :
    regWriteWord s off w =
      if !r.wide then regPut s r (canonOff off) off w
      else if r.rw = 0 then s
      else if high then
        let lo := (tfind s.bar.pendLow (canonOff off - 4)).getD (BitVec.ofNat 32 (rd64 s (canonOff off - 4)).toNat)
        dropPend (wr64 s (canonOff off - 4) (BitVec.ofNat 64 (lo.toNat + w.toNat * 2 ^ 32))) (canonOff off - 4)
      else { s with bar := { s.bar with pendLow := tput s.bar.pendLow (canonOff off) w } } := by
  obtain ⟨h1, h2, h3, h4, h5, h6⟩ := h
  unfold regWriteWord
  simp only [h1, h2, h3, h4, h5, h6, hr, dropPend, Bool.not_true, Bool.or_self, Bool.false_eq_true, if_false]

/-- A register of the power block answers in READY and RUNNING. -/
theorem answers_running {s : State} (h : devState s = 2 ∨ devState s = 3) (off : Nat) : answers s off = true := by
  unfold answers
  obtain h | h := h <;> rw [h] <;> rfl

/-- Outside the stacks, ports and partitions a register is always present. -/
theorem regAbsent_other (s : State) {off : Nat} (h1 : off < 0x0700000 ∨ 0x0800000 ≤ off) (h2 : off < 0x0500000 ∨ 0x0504000 ≤ off)
    (h3 : off < 0x0900000 ∨ 0x0904000 ≤ off) : regAbsent s off = false := by
  unfold regAbsent
  have e1 : (decide (0x0700000 ≤ off) && decide (off < 0x0800000)) = false := by
    simp only [Bool.and_eq_false_iff, decide_eq_false_iff_not]; omega
  have e2 : (decide (0x0500000 ≤ off) && decide (off < 0x0504000)) = false := by
    simp only [Bool.and_eq_false_iff, decide_eq_false_iff_not]; omega
  have e3 : (decide (0x0900000 ≤ off) && decide (off < 0x0904000)) = false := by
    simp only [Bool.and_eq_false_iff, decide_eq_false_iff_not]; omega
  rw [e1, e2, e3]
  rfl

theorem rd_fieldWrite (s : State) (r : RegRow) (off mask : Nat) (w : W32) : rd (fieldWrite s r off mask w) off =
    ((rd s off &&& ~~~BitVec.ofNat 32 mask) ||| (BitVec.ofNat 32 (r.fix (rd s off &&& BitVec.ofNat 32 mask).toNat (w &&& BitVec.ofNat 32 mask).toNat) &&& BitVec.ofNat 32 mask)) &&&
      ~~~(BitVec.ofNat 32 r.w1c &&& w) := rd_wr_same _ _ _

theorem rd_fieldWrite_ne (s : State) (r : RegRow) {off p : Nat} (mask : Nat) (w : W32) (h : p ≠ off) : rd (fieldWrite s r off mask w) p = rd s p := rd_wr_ne _ _ h

/-- A field reads as another where their bits agree. -/
theorem fld_congr {x y : W32} {lo n : Nat} (h : ∀ i, lo ≤ i → i < lo + n → x.getLsbD i = y.getLsbD i) : fld x lo n = fld y lo n := by
  unfold fld
  refine congrArg BitVec.toNat (BitVec.eq_of_getLsbD_eq fun i hi => ?_)
  rw [BitVec.getLsbD_extractLsb', BitVec.getLsbD_extractLsb', h (lo + i) (by omega) (by omega)]

theorem rf_fld (s : State) (off lo n : Nat) : rf s off lo n = fld (rd s off) lo n := (fld_eq _ _ _).symm

/-- A plain register takes the word by its fields. -/
theorem regPut_plain (s : State) {r : RegRow} {off : Nat} (seen : Nat) (w : W32) (hl : r.rwl = 0) (h : off ∉ [GLOBAL_AQ_CFG, TRACE_SEM_SEL, PWR_HIST_SEL, TRACE_CTRL, TRACE_INJ_CTRL, PWR_ASSAY_CFG, STK_APT_CTRL 0])
    (hr : isRegulator off = false) : regPut s r off seen w = fieldWrite s r off r.rw w := by
  simp only [List.mem_cons, List.not_mem_nil, or_false, not_or] at h
  obtain ⟨h1, h2, h3, h4, h5, h6, h7⟩ := h
  unfold regPut
  rw [if_neg h1, if_neg h2, if_neg h3, if_neg h4, if_neg h5, if_neg h6, if_neg h7, hr]
  simp [hl]

end Sys2Proof.Claims
end

section
/-! PROOFS. Writes of registers, and the debug gate: O34. -/
namespace Sys2Proof.Claims
open Sys2Proof.Machine

/-! ## Two registers of the power block -/

theorem budgetCap_row : ∃ r b i, regAt (canonOff PWR_BUDGET_CAP) = some (r, b, i, false) ∧ r.wide = false ∧ r.rw = 0xFFF ∧ r.w1c = 0 ∧ r.rwl = 0 ∧
    r.fix = fun _ v => max 1200 (min 2600 v) := ⟨_, _, _, rfl, rfl, rfl, rfl, rfl, rfl⟩

theorem pwrStatus_row : ∃ r b i, regAt (canonOff PWR_STATUS) = some (r, b, i, false) ∧ r.wide = false ∧ r.rw = 0 ∧ r.w1c = 8 ∧ r.rwl = 0 ∧
    r.fix = fun _ v => v := ⟨_, _, _, rfl, rfl, rfl, rfl, rfl, rfl⟩

theorem clear_power {s : State} (h : devState s = 2 ∨ devState s = 3) {off : Nat} (he : regExists off = true) (hg : gateOf off = none) (hr : inRing off = false)
    (hw : inWindow off = false) (h1 : off < 0x0300000) : Clear s off :=
  ⟨he, by unfold gateClosed; rw [hg], answers_running h off, regAbsent_other s (.inl (by omega)) (.inl (by omega)) (.inl (by omega)), hr, hw⟩

/-- A write of a plain 32-bit register. -/
theorem registerWrite_plain {s : State} {a : Accessor} {off b i : Nat} {r : RegRow} (w : W32) (ha : a ≠ .sideband) (hre : reaches s a = true) (h4 : off % 4 = 0)
    (hc : Clear s off) (hr : regAt (canonOff off) = some (r, b, i, false)) (hw : r.wide = false) (hl : r.rwl = 0) (hco : canonOff off = off)
    (hn : off ∉ [GLOBAL_AQ_CFG, TRACE_SEM_SEL, PWR_HIST_SEL, TRACE_CTRL, TRACE_INJ_CTRL, PWR_ASSAY_CFG, STK_APT_CTRL 0]) (hi : isRegulator off = false) :
    exec (.registerWrite a off 0xF w) s = .next (fieldWrite s r off r.rw w) := by
  rw [registerWrite_eq off 0xF w ha hre, regWrite_word s w h4, regWriteWord_clear w hc hr, hw, hco, regPut_plain s off w hl hn hi]
  rfl

theorem getLsbD_ofNat32 (n i : Nat) : (BitVec.ofNat 32 n).getLsbD i = (decide (i < 32) && n.testBit i) := BitVec.getLsbD_ofNat 32 n i

/-- A bit outside a field register's masks stays. -/
theorem fieldWrite_kept (s : State) {r : RegRow} (off : Nat) {mask : Nat} (w : W32) {lo n : Nat} (hi : lo + n ≤ 32)
    (hm : ∀ i, lo ≤ i → i < lo + n → mask.testBit i = false ∧ r.w1c.testBit i = false) : rf (fieldWrite s r off mask w) off lo n = rf s off lo n := by
  rw [rf_fld, rf_fld, rd_fieldWrite]
  refine fld_congr fun i h1 h2 => ?_
  obtain ⟨h3, h4⟩ := hm i h1 h2
  have h32 : i < 32 := by omega
  simp only [BitVec.getLsbD_and, BitVec.getLsbD_or, BitVec.getLsbD_not, getLsbD_ofNat32, h3, h4, h32, decide_true, Bool.true_and, Bool.false_and, Bool.and_false,
    Bool.not_false, Bool.and_true, Bool.or_false]

/-- A field inside the mask takes what the register's bounds leave of the word. -/
theorem fieldWrite_taken (s : State) {r : RegRow} (off : Nat) {mask : Nat} (w : W32) {lo n : Nat} (hi : lo + n ≤ 32)
    (hm : ∀ i, lo ≤ i → i < lo + n → mask.testBit i = true ∧ r.w1c.testBit i = false) : rf (fieldWrite s r off mask w) off lo n =
      fld (BitVec.ofNat 32 (r.fix (rd s off &&& BitVec.ofNat 32 mask).toNat (w &&& BitVec.ofNat 32 mask).toNat)) lo n := by
  rw [rf_fld, rd_fieldWrite]
  refine fld_congr fun i h1 h2 => ?_
  obtain ⟨h3, h4⟩ := hm i h1 h2
  have h32 : i < 32 := by omega
  simp only [BitVec.getLsbD_and, BitVec.getLsbD_or, BitVec.getLsbD_not, getLsbD_ofNat32, h3, h4, h32, decide_true, Bool.true_and, Bool.false_and, Bool.and_false,
    Bool.not_false, Bool.not_true, Bool.and_true, Bool.false_or]

theorem and_low_toNat (w : W32) : (w &&& BitVec.ofNat 32 0xFFF).toNat = fld w 0 12 := by
  rw [BitVec.toNat_and, fld_eq, BitVec.toNat_ofNat]
  show w.toNat &&& (2 ^ 12 - 1) = _
  rw [Nat.and_two_pow_sub_one_eq_mod, Nat.pow_zero, Nat.div_one]

theorem fld_clamped (x : Nat) : fld (BitVec.ofNat 32 (max 1200 (min 2600 x))) 0 12 = max 1200 (min 2600 x) := by
  rw [fld_eq, BitVec.toNat_ofNat]
  omega

theorem write_budgetCap {s : State} {a : Accessor} (w : W32) (ha : a ≠ .sideband) (hre : reaches s a = true) (hd : devState s = 2) :
    Gives (.registerWrite a PWR_BUDGET_CAP 0xF w) s fun u => rf u PWR_BUDGET_CAP 0 12 = max 1200 (min 2600 (fld w 0 12)) ∧
      rf u PWR_BUDGET_CAP 12 20 = rf s PWR_BUDGET_CAP 12 20 ∧ (∀ o, o ≠ PWR_BUDGET_CAP → rd u o = rd s o) ∧ u.mem = s.mem := by
  obtain ⟨r, b, i, hr, hw, hrw, hc, hl, hf⟩ := budgetCap_row
  refine ⟨_, registerWrite_plain w ha hre (by decide) (clear_power (.inl hd) (by decide +kernel) (by decide) (by decide) (by decide) (by decide)) hr hw hl (by decide)
    (by decide) (by decide), ?_, ?_, fun o ho => rd_fieldWrite_ne s r _ w ho, rfl⟩
  · rw [hrw, fieldWrite_taken s _ w (by decide) (by rw [hc]; intro i h1 h2; interval_cases i <;> decide), hf]
    exact (fld_clamped _).trans (congrArg (fun x => max 1200 (min 2600 x)) (and_low_toNat w))
  · rw [hrw, fieldWrite_kept s _ w (by decide) (by rw [hc]; intro i h1 h2; interval_cases i <;> decide)]

theorem write_pwrStatus {s : State} {a : Accessor} (w : W32) (ha : a ≠ .sideband) (hre : reaches s a = true) (hd : devState s = 2) :
    Gives (.registerWrite a PWR_STATUS 0xF w) s fun u => rf u PWR_STATUS 3 1 = (if bit w 3 then 0 else rf s PWR_STATUS 3 1) ∧
      rf u PWR_STATUS 0 3 = rf s PWR_STATUS 0 3 ∧ rf u PWR_STATUS 4 28 = rf s PWR_STATUS 4 28 ∧ ∀ o, o ≠ PWR_STATUS → rd u o = rd s o := by
  obtain ⟨r, b, i, hr, hw, hrw, hc, hl, hf⟩ := pwrStatus_row
  refine ⟨_, registerWrite_plain w ha hre (by decide) (clear_power (.inl hd) (by decide +kernel) (by decide) (by decide) (by decide) (by decide)) hr hw hl (by decide)
    (by decide) (by decide), ?_, ?_, ?_, fun o ho => rd_fieldWrite_ne s r _ w ho⟩
  · rw [hrw]
    unfold bit
    split
    next h =>
      rw [rf_fld, rd_fieldWrite, hc]
      refine (fld_congr (y := 0) fun i h1 h2 => ?_).trans (by decide)
      obtain rfl : i = 3 := by omega
      simp [h]
    next h =>
      rw [rf_fld, rf_fld, rd_fieldWrite, hc]
      refine fld_congr fun i h1 h2 => ?_
      obtain rfl : i = 3 := by omega
      simp only [Bool.not_eq_true] at h
      simp only [BitVec.getLsbD_and, BitVec.getLsbD_or, BitVec.getLsbD_not, h, Bool.and_false, Bool.not_false, Bool.and_true]
      simp
  · rw [hrw, fieldWrite_kept s _ w (by decide) (by rw [hc]; intro i h1 h2; interval_cases i <;> decide)]
  · rw [hrw, fieldWrite_kept s _ w (by decide) (by rw [hc]; intro i h1 h2; interval_cases i <;> decide)]

/-! ## 64-bit registers -/

theorem write_low {s : State} {a : Accessor} {off : Nat} {r : RegRow} (w : W32) (h : Reach s a off) (hr : RowAt off r false) (hc : canonOff off = off) (hw : r.wide = true)
    (hrw : r.rw ≠ 0) : Gives (.registerWrite a off 0xF w) s fun u => tfind u.bar.pendLow off = some w ∧ u.bar.regs64 = s.bar.regs64 ∧ u.bar.regs = s.bar.regs ∧ u.mem = s.mem := by
  obtain ⟨b, i, hr⟩ := hr
  have hcl := h.clear
  obtain ⟨ha, hre, -, -, -, -, -, -, h4⟩ := h
  refine ⟨_, registerWrite_eq off 0xF w ha hre, ?_⟩
  rw [regWrite_word s w h4, regWriteWord_clear w hcl hr, hw, hc, if_neg (by decide), if_neg hrw, if_neg (by decide)]
  exact ⟨tfind_tput_same _ _ _, rfl, rfl, rfl⟩

theorem ofNat_append (lo hi : W32) : BitVec.ofNat 64 (lo.toNat + hi.toNat * 2 ^ 32) = hi ++ lo := by
  refine BitVec.eq_of_toNat_eq ?_
  have hl := lo.isLt
  have hh := hi.isLt
  rw [BitVec.toNat_ofNat, BitVec.toNat_append, ← Nat.shiftLeft_add_eq_or_of_lt hl, Nat.shiftLeft_eq, Nat.mod_eq_of_lt (by omega)]
  omega

theorem dropPend_spec (s : State) (o : Nat) (v : W64) : rd64 (dropPend (wr64 s o v) o) o = v ∧ tfind (dropPend (wr64 s o v) o).bar.pendLow o = none ∧
    (dropPend (wr64 s o v) o).bar.regs = s.bar.regs ∧ (dropPend (wr64 s o v) o).mem = s.mem :=
  ⟨rd64_wr64_same _ _ _, tfind_tdel_same _ _, rfl, rfl⟩

/-- The high word joins the low one that waits. -/
theorem highWritten {s : State} {off b i : Nat} {r : RegRow} {lo : W32} (w : W32) (h : Clear s off) (hr : regAt (canonOff off) = some (r, b, i, true)) (hc : canonOff off = off)
    (hw : r.wide = true) (hrw : r.rw ≠ 0) (hl : tfind s.bar.pendLow (off - 4) = some lo) : regWriteWord s off w = dropPend (wr64 s (off - 4) (w ++ lo)) (off - 4) := by
  rw [regWriteWord_clear w h hr, hw, hc, hl, ← ofNat_append]
  exact (if_neg (by decide)).trans ((if_neg hrw).trans (if_pos rfl))

theorem write_high {s : State} {a : Accessor} {off : Nat} {r : RegRow} {lo : W32} (w : W32) (h : Reach s a off) (hr : RowAt off r true) (hc : canonOff off = off) (hw : r.wide = true)
    (hrw : r.rw ≠ 0) (hl : tfind s.bar.pendLow (off - 4) = some lo) : Gives (.registerWrite a off 0xF w) s fun u => rd64 u (off - 4) = w ++ lo ∧
      tfind u.bar.pendLow (off - 4) = none ∧ u.bar.regs = s.bar.regs ∧ u.mem = s.mem := by
  obtain ⟨b, i, hr⟩ := hr
  have hcl := h.clear
  obtain ⟨ha, hre, -, -, -, -, -, -, h4⟩ := h
  refine ⟨_, registerWrite_eq off 0xF w ha hre, ?_⟩
  rw [regWrite_word s w h4, highWritten w hcl hr hc hw hrw hl]
  exact dropPend_spec _ _ _

/-! ## Partial words, and the gate -/

theorem setAccess_spec (s : State) {b : Nat} (off : Nat) (hb : b < 32) : rf (setAccess s b off) GLOBAL_ACCESS b 1 = 1 ∧
    (rf s GLOBAL_ACCESS 0 3 = 0 → (rd (setAccess s b off) GLOBAL_ACCESS_ADDR).toNat = off % 2 ^ 26) := by
  refine ⟨rf_wf_same _ _ b 1 1 (by omega), fun h => ?_⟩
  unfold setAccess
  dsimp only
  rw [if_pos h, rd_wf_ne _ _ _ _ (by decide), rd_wr_same, BitVec.toNat_ofNat]
  omega

theorem rd_setAccess (s : State) (b off : Nat) {o : Nat} (h1 : o ≠ GLOBAL_ACCESS) (h2 : o ≠ GLOBAL_ACCESS_ADDR) : rd (setAccess s b off) o = rd s o := by
  unfold setAccess
  dsimp only
  rw [rd_wf_ne _ _ _ _ h1]
  split
  · exact rd_wr_ne _ _ h2
  · rfl

theorem setAccess_regs64 (s : State) (b off : Nat) : (setAccess s b off).bar.regs64 = s.bar.regs64 := by
  unfold setAccess
  dsimp only
  split <;> rfl

theorem write_partial {s : State} {a : Accessor} {off : Nat} {be : BitVec 4} (w : W32) (ha : a ≠ .sideband) (hre : reaches s a = true) (h0 : be ≠ 0) (hp : be ≠ 0xF ∨ off % 4 ≠ 0)
    (he : regExists (off / 4 * 4) = true) (han : answers s GLOBAL_ACCESS = true) : Gives (.registerWrite a off be w) s fun u => rf u GLOBAL_ACCESS 0 1 = 1 ∧
      (rf s GLOBAL_ACCESS 0 3 = 0 → (rd u GLOBAL_ACCESS_ADDR).toNat = off / 4 * 4 % 2 ^ 26) ∧ u.mem = s.mem ∧ u.bar.regs64 = s.bar.regs64 := by
  refine ⟨setAccess s 0 (off / 4 * 4), (registerWrite_eq off be w ha hre).trans (congrArg Host.Outcome.next ?_), ?_⟩
  · unfold regWrite
    rw [if_neg h0, if_pos hp.symm, he, han]
    rfl
  · obtain ⟨h1, h2⟩ := setAccess_spec s (b := 0) (off / 4 * 4) (by decide)
    exact ⟨h1, h2, setAccess_within.same .mem (by decide), setAccess_regs64 _ _ _⟩

/-- A write to a gated register sets DEBUG_LOCKED alone. -/
theorem regWrite_gated {s : State} {off : Nat} (w : W32) (h4 : off % 4 = 0) (he : regExists off = true) (hg : gateClosed s off = true) : regWrite s off 0xF w = setAccess s 2 off := by
  rw [regWrite_word s w h4]
  unfold regWriteWord
  rw [he, hg]
  rfl

theorem regRead_gated {s : State} (a : Accessor) {off : Nat} (h4 : off % 4 = 0) (he : regExists off = true) (hg : gateClosed s off = true) : regRead s a off 0xF = (0, setAccess s 2 off) := by
  rw [regRead_word s a h4]
  unfold regReadWord
  rw [he, hg]
  rfl

theorem gateClosed_of {s : State} {off k : Nat} (h : gateOf off = some k) (hl : levelOpen s k = false) : gateClosed s off = true := by
  unfold gateClosed
  rw [h]
  simp [hl]

theorem locked_traceRow {s : State} {a : Accessor} {c : Instr} (w : W32) (hre : reaches s a = true) (hl : levelOpen s 0 = false) (hc : c = Instr.traceSemSel a w ∨ c = Instr.stop a) :
    Gives c s fun u => rf u GLOBAL_ACCESS 2 1 = 1 ∧ u.trace = s.trace ∧ rd u TRACE_CTRL = rd s TRACE_CTRL ∧ u.mem = s.mem := by
  have hx (off : Nat) : rf (setAccess s 2 off) GLOBAL_ACCESS 2 1 = 1 ∧ (setAccess s 2 off).trace = s.trace ∧ rd (setAccess s 2 off) TRACE_CTRL = rd s TRACE_CTRL ∧
      (setAccess s 2 off).mem = s.mem :=
    ⟨(setAccess_spec s off (by decide)).1, setAccess_within.same .trace (by decide), rd_setAccess s 2 off (by decide) (by decide), setAccess_within.same .mem (by decide)⟩
  obtain rfl | rfl := hc
  · exact ⟨_, congrArg Host.Outcome.next ((if_pos hre).trans (regWrite_gated w (by decide) (by decide +kernel) (gateClosed_of (by decide) hl))), hx _⟩
  · exact ⟨_, congrArg Host.Outcome.next ((if_pos hre).trans (regWrite_gated 8 (by decide) (by decide +kernel) (gateClosed_of (by decide) hl))), hx _⟩

theorem locked_arm {s : State} {a : Accessor} {w : W32} (hre : reaches s a = true) (hl : levelOpen s 1 = false) (hb : bit w 4 = true) :
    Gives (.arm a w) s fun u => rf u GLOBAL_ACCESS 2 1 = 1 ∧ u.trace = s.trace :=
  ⟨_, congrArg Host.Outcome.next ((if_pos (by rw [hre, hb]; rfl)).trans (regWrite_gated w (by decide) (by decide +kernel) (gateClosed_of (by decide) hl))),
    (setAccess_spec s _ (by decide)).1, setAccess_within.same .trace (by decide)⟩

theorem traceCtrl_row : ∃ r b i, regAt (canonOff TRACE_CTRL) = some (r, b, i, false) := ⟨_, _, _, rfl⟩

theorem locked_read {s : State} {a : Accessor} (ha : a ≠ .sideband) (hre : reaches s a = true) (hl : levelOpen s 0 = false) :
    Gives (.lowWordRead a TRACE_CTRL) s fun u => u.bar.rdata = 0 ∧ rf u GLOBAL_ACCESS 2 1 = 1 := by
  obtain ⟨r, b, i, hr⟩ := traceCtrl_row
  refine ⟨returned (0, setAccess s 2 TRACE_CTRL), ?_, rfl, (setAccess_spec s _ (by decide)).1⟩
  show execLowWordRead a TRACE_CTRL s = _
  unfold execLowWordRead
  rw [regRead_gated a (by decide) (by decide +kernel) (gateClosed_of (by decide) hl)]
  simp only [hr, hre, ha, Bool.not_true, Bool.not_false, Bool.false_eq_true, if_false, if_true]

/-- Settles O34: a write goes by the register's row, a partial one sets an access bit, and a closed level sets DEBUG_LOCKED alone. -/
theorem registerWrites : Obligations.RegisterWrites := by
  unfold Obligations.RegisterWrites
  refine ⟨fun s a w ha hre hd => write_budgetCap w ha hre hd, fun s a w ha hre hd => write_pwrStatus w ha hre hd,
    fun s a off r w h hr hc hw hrw => write_low w h hr hc hw hrw, fun s a off r w lo h hr hc hw hrw hl => write_high w h hr hc hw hrw hl,
    fun s a off be w ha hre h0 hp he han => write_partial w ha hre h0 hp he han, fun s w hl => ⟨?_, ?_⟩, fun s a w hre hl c hc => locked_traceRow w hre hl hc,
    fun s a w hre hl hb => locked_arm hre hl hb, fun s a ha hre hl => locked_read ha hre hl⟩
  · exact congrArg Host.Outcome.next (if_pos (by show (!s.host.linkUp) = true; rw [hl]; rfl))
  · exact congrArg Host.Outcome.next (if_neg (by show ¬s.host.linkUp = true; rw [hl]; exact Bool.false_ne_true))

end Sys2Proof.Claims
end

section
/-! PROOFS. The registers whose write is a command (R150, R393, R400, R448, R449): O35. -/
namespace Sys2Proof.Claims
open Sys2Proof.Machine

/-- A write to an open 32-bit register reaches its row. -/
theorem regWrite_put {s : State} {off b i : Nat} {r : RegRow} (w : W32) (h4 : off % 4 = 0) (hc : Clear s off) (hr : regAt (canonOff off) = some (r, b, i, false))
    (hw : r.wide = false) (hco : canonOff off = off) : regWrite s off 0xF w = regPut s r off off w := by
  rw [regWrite_word s w h4, regWriteWord_clear w hc hr, hw, hco]
  rfl

theorem clear_trace {s : State} (h : devState s = 2 ∨ devState s = 3) {off k : Nat} (he : regExists off = true) (hg : gateOf off = some k) (hl : levelOpen s k = true)
    (hr : inRing off = false) (hw : inWindow off = false) (h1 : 0x0904000 ≤ off) : Clear s off :=
  ⟨he, by unfold gateClosed; rw [hg]; simp [hl], answers_running h off, regAbsent_other s (.inr (by omega)) (.inr (by omega)) (.inr (by omega)), hr, hw⟩

/-! ## Semaphore snapshot (R150) -/

theorem traceSemSel_row : ∃ r b i, regAt (canonOff TRACE_SEM_SEL) = some (r, b, i, false) ∧ r.wide = false := ⟨_, _, _, rfl, rfl⟩

theorem regPut_semSel (s : State) (r : RegRow) (seen : Nat) (w : W32) : regPut s r TRACE_SEM_SEL seen w = semSnapshot s w := rfl

/-- The registers of a snapshot, written. -/
def snapped (s : State) (w : W32) : State :=
  let x := getSem s (fld w 0 16)
  wr64 (wr (wr (wr (wr64 (wr (wr s TRACE_SEM_SEL (BitVec.ofNat 32 (fld w 0 16)))
    TRACE_SEM_STATUS (pack 32 [(0, 16, x.waiters.length), (16, 1, 1), (17, 1, b2n x.saturated)])) TRACE_SEM_VALUE x.value)
    TRACE_SEM_LAST_SRC (pack 32 [(0, 3, x.source), (3, 3, x.sthread), (8, 13, x.agent)])) TRACE_SEM_LAST_TAG x.tag)
    TRACE_SEM_LAST_SUBTAG (x.subtag.setWidth 32)) TRACE_SEM_LAST_TIME x.time

theorem rd_semSnapshot (s : State) (w : W32) (o : Nat) : rd (semSnapshot s w) o = rd (snapped s w) o ∧ rd64 (semSnapshot s w) o = rd64 (snapped s w) o := ⟨rfl, rfl⟩

theorem snapped_spec (s : State) (w : W32) : rd64 (snapped s w) TRACE_SEM_VALUE = (getSem s (fld w 0 16)).value ∧
    rd (snapped s w) TRACE_SEM_STATUS = pack 32 [(0, 16, (getSem s (fld w 0 16)).waiters.length), (16, 1, 1), (17, 1, b2n (getSem s (fld w 0 16)).saturated)] ∧
    rd (snapped s w) TRACE_SEM_LAST_TAG = (getSem s (fld w 0 16)).tag ∧ rd64 (snapped s w) TRACE_SEM_LAST_TIME = (getSem s (fld w 0 16)).time := by
  unfold snapped
  dsimp only
  refine ⟨?_, ?_, ?_, rd64_wr64_same _ _ _⟩
  · rw [rd64_wr64_ne _ _ (by decide), rd64_wr, rd64_wr, rd64_wr, rd64_wr64_same]
  · rw [rd_wr64, rd_wr_ne _ _ (by decide), rd_wr_ne _ _ (by decide), rd_wr_ne _ _ (by decide), rd_wr64, rd_wr_same]
  · rw [rd_wr64, rd_wr_ne _ _ (by decide), rd_wr_same]

/-- The waiters of the snapshot. -/
def snapWaiters (s : State) (ws : List (Tid × W64)) : State := { s with trace := { s.trace with waiters := ws } }

theorem semSnapshot_eq (s : State) (w : W32) : semSnapshot s w = snapWaiters (snapped s w) (getSem s (fld w 0 16)).waiters := rfl

theorem snapWaiters_spec (s : State) (ws : List (Tid × W64)) : (snapWaiters s ws).trace.waiters = ws ∧ (snapWaiters s ws).sems = s.sems := ⟨rfl, rfl⟩

theorem snapped_sems (s : State) (w : W32) : (snapped s w).sems = s.sems := by
  unfold snapped
  simp only [wr64_sems, wr_sems]

theorem semSnapshot_spec (s : State) (w : W32) : rd64 (semSnapshot s w) TRACE_SEM_VALUE = (getSem s (fld w 0 16)).value ∧
    rd (semSnapshot s w) TRACE_SEM_STATUS = pack 32 [(0, 16, (getSem s (fld w 0 16)).waiters.length), (16, 1, 1), (17, 1, b2n (getSem s (fld w 0 16)).saturated)] ∧
    rd (semSnapshot s w) TRACE_SEM_LAST_TAG = (getSem s (fld w 0 16)).tag ∧ rd64 (semSnapshot s w) TRACE_SEM_LAST_TIME = (getSem s (fld w 0 16)).time ∧
    (semSnapshot s w).trace.waiters = (getSem s (fld w 0 16)).waiters ∧ (semSnapshot s w).sems = s.sems := by
  obtain ⟨h1, h2, h3, h4⟩ := snapped_spec s w
  exact ⟨(rd_semSnapshot s w _).2.trans h1, (rd_semSnapshot s w _).1.trans h2, (rd_semSnapshot s w _).1.trans h3, (rd_semSnapshot s w _).2.trans h4, by rw [semSnapshot_eq]; exact (snapWaiters_spec _ _).1,
    by rw [semSnapshot_eq, (snapWaiters_spec _ _).2, snapped_sems]⟩

theorem traceSemSel_gives {s : State} {a : Accessor} (w : W32) (hre : reaches s a = true) (hd : devState s = 2 ∨ devState s = 3) (hl : levelOpen s 0 = true) :
    Gives (.traceSemSel a w) s fun u => rd64 u TRACE_SEM_VALUE = (getSem s (fld w 0 16)).value ∧ rf u TRACE_SEM_STATUS 16 1 = 1 ∧
      rf u TRACE_SEM_STATUS 17 1 = b2n (getSem s (fld w 0 16)).saturated ∧ rf u TRACE_SEM_STATUS 0 16 = (getSem s (fld w 0 16)).waiters.length % 2 ^ 16 ∧
      rd u TRACE_SEM_LAST_TAG = (getSem s (fld w 0 16)).tag ∧ rd64 u TRACE_SEM_LAST_TIME = (getSem s (fld w 0 16)).time ∧
      u.trace.waiters = (getSem s (fld w 0 16)).waiters ∧ u.sems = s.sems := by
  obtain ⟨r, b, i, hr, hw⟩ := traceSemSel_row
  have hcl : Clear s TRACE_SEM_SEL := clear_trace hd (by decide +kernel) (by decide) hl (by decide) (by decide) (by decide)
  obtain ⟨h1, h2, h3, h4, h5, h6⟩ := semSnapshot_spec s w
  refine ⟨semSnapshot s w, congrArg Host.Outcome.next ((if_pos hre).trans ((regWrite_put w (by decide) hcl hr hw (by decide)).trans (regPut_semSel s r _ w))), h1, ?_, ?_, ?_, h3, h4, h5, h6⟩
  · rw [rf_fld, h2]
    exact fld_pack (lo := 16) (len := 1) (v := 1) (by simp) (by decide) (by simp)
  · rw [rf_fld, h2, fld_pack (lo := 17) (len := 1) (v := b2n (getSem s (fld w 0 16)).saturated) (by simp) (by decide) (by simp)]
    cases (getSem s (fld w 0 16)).saturated <;> rfl
  · rw [rf_fld, h2]
    exact fld_pack (by simp) (by decide) (by simp)

/-! ## History (R400) -/

theorem pwrHistSel_row : ∃ r b i, regAt (canonOff PWR_HIST_SEL) = some (r, b, i, false) ∧ r.wide = false := ⟨_, _, _, rfl, rfl⟩

theorem regPut_histSel (s : State) (r : RegRow) (seen : Nat) (w : W32) : regPut s r PWR_HIST_SEL seen w = histSelect s w := rfl

/-- Words copied to the history registers, the others kept. -/
theorem rd_histCopy (s : State) (f : Nat → W32) (n k : Nat) : rd (iterate n (fun k s => wr s (PWR_HIST k) (f k)) s) (PWR_HIST k) = if k < n then f k else rd s (PWR_HIST k) := by
  induction n with
  | zero => rfl
  | succ n ih =>
    have he : iterate (n + 1) (fun k s => wr s (PWR_HIST k) (f k)) s = wr (iterate n (fun k s => wr s (PWR_HIST k) (f k)) s) (PWR_HIST n) (f n) := by
      unfold iterate; rw [List.range_succ, List.foldl_append]; rfl
    rw [he]
    by_cases h : k = n
    · subst h
      rw [rd_wr_same, if_pos (Nat.lt_succ_self k)]
    · rw [rd_wr_ne _ _ (show 0x0200100 + 4 * k ≠ 0x0200100 + 4 * n by omega), ih]
      by_cases hk : k < n
      · rw [if_pos hk, if_pos (Nat.lt_succ_of_lt hk)]
      · rw [if_neg hk, if_neg (by omega)]

theorem rd_histCopy_sel (s : State) (f : Nat → W32) (n : Nat) : rd (iterate n (fun k s => wr s (PWR_HIST k) (f k)) s) PWR_HIST_SEL = rd s PWR_HIST_SEL :=
  foldl_keeps (fun s => rd s PWR_HIST_SEL) (fun s k => wr s (PWR_HIST k) (f k)) (fun s k => rd_wr_ne _ _ (show 0x0200060 ≠ 0x0200100 + 4 * k by omega)) _ _

theorem pwrHistSel_gives {s : State} {a : Accessor} (w : W32) {x : BitVec 2048} (hre : reaches s a = true) (hd : devState s = 2 ∨ devState s = 3)
    (hx : s.flash.history.reverse[fld w 0 12]? = some x) : Gives (.pwrHistSel a w) s fun u => rf u PWR_HIST_SEL 12 1 = 1 ∧ rf u PWR_HIST_SEL 0 12 = fld w 0 12 ∧
      ∀ k, k < 64 → (rd u (PWR_HIST k)).toNat = fld x (32 * k) 32 := by
  obtain ⟨r, b, i, hr, hw⟩ := pwrHistSel_row
  have hcl : Clear s PWR_HIST_SEL := clear_power hd (by decide +kernel) (by decide) (by decide) (by decide) (by decide)
  have hsel : rd (histSelect s w) PWR_HIST_SEL = pack 32 [(0, 12, fld w 0 12), (12, 1, b2n (s.flash.history.reverse[fld w 0 12]?).isSome)] :=
    (rd_histCopy_sel _ _ _).trans (rd_wr_same _ _ _)
  refine ⟨histSelect s w, congrArg Host.Outcome.next ((if_pos hre).trans ((regWrite_put w (by decide) hcl hr hw (by decide)).trans (regPut_histSel s r _ w))), ?_, ?_, fun k hk => ?_⟩
  · rw [rf_fld, hsel, hx]
    exact fld_pack (lo := 12) (len := 1) (v := b2n true) (by simp) (by decide) (by simp)
  · rw [rf_fld, hsel, fld_pack (lo := 0) (len := 12) (v := fld w 0 12) (by simp) (by decide) (by simp)]
    exact Nat.mod_eq_of_lt (fld_lt w 0 12)
  · have hh : rd (histSelect s w) (PWR_HIST k) = BitVec.ofNat 32 (fld ((s.flash.history.reverse[fld w 0 12]?).getD 0) (32 * k) 32) :=
      (rd_histCopy _ _ 64 k).trans (if_pos hk)
    rw [hh, hx, BitVec.toNat_ofNat]
    exact Nat.mod_eq_of_lt (fld_lt _ _ 32)

/-! ## STOP, ARM and RUN -/

theorem stop_gives {s : State} {a : Accessor} (hre : reaches s a = true) (hd : devState s = 2 ∨ devState s = 3) (hl : levelOpen s 0 = true) :
    Gives (.stop a) s fun u => rf u TRACE_CTRL 0 1 = 0 ∧ (∀ o, o ≠ TRACE_CTRL → rd u o = rd s o) ∧ u.mem = s.mem := by
  obtain ⟨r, b, i, hr, hw⟩ : ∃ r b i, regAt (canonOff TRACE_CTRL) = some (r, b, i, false) ∧ r.wide = false := ⟨_, _, _, rfl, rfl⟩
  have hcl : Clear s TRACE_CTRL := clear_trace hd (by decide +kernel) (by decide) hl (by decide) (by decide) (by decide)
  have hp : regPut s r TRACE_CTRL TRACE_CTRL 8 = traceStop s := rfl
  exact ⟨traceStop s, congrArg Host.Outcome.next ((if_pos hre).trans ((regWrite_put 8 (by decide) hcl hr hw (by decide)).trans hp)), rf_wf_same _ _ 0 1 0 (by decide),
    fun o ho => rd_wf_ne _ _ _ _ ho, rfl⟩

theorem injCtrl_row : ∃ r b i, regAt (canonOff TRACE_INJ_CTRL) = some (r, b, i, false) ∧ r.wide = false ∧ r.rw = 0xFF0F ∧ r.w1c = 0x40 ∧
    r.fix = fun _ v => v % 256 + max 1 (v / 256 % 256) * 256 := ⟨_, _, _, rfl, rfl, rfl, rfl, rfl⟩

theorem targetOk_wr (s : State) (off : Nat) (v : W32) (kind : Nat) (t : W64) : targetOk (wr s off v) kind t = targetOk s kind t := rfl

theorem and_inj_toNat (w : W32) : (w &&& BitVec.ofNat 32 0xFF0F).toNat % 16 = fld w 0 4 := by
  rw [BitVec.toNat_and, fld_eq, BitVec.toNat_ofNat, Nat.pow_zero, Nat.div_one]
  exact (Nat.and_mod_two_pow (n := 4)).trans ((Nat.and_two_pow_sub_one_eq_mod _ 4).trans (Nat.mod_mod _ _))

theorem fld_injKind (x : Nat) : fld (BitVec.ofNat 32 (x % 256 + max 1 (x / 256 % 256) * 256)) 0 4 = x % 16 := by
  rw [fld_eq, BitVec.toNat_ofNat]
  omega

theorem armed_spec {s : State} (h : rf s TRACE_INJ_CTRL 5 1 = 0) (ht : targetOk s (rf s TRACE_INJ_CTRL 0 4) (rd64 s TRACE_INJ_TARGET) = true) :
    rf (armInjection s) TRACE_INJ_CTRL 5 1 = 1 ∧ (armInjection s).trace.armKind = rf s TRACE_INJ_CTRL 0 4 ∧ (armInjection s).trace.armTarget = rd64 s TRACE_INJ_TARGET := by
  have hn : ¬(rf s TRACE_INJ_CTRL 5 1 = 1 ∨ (!targetOk s (rf s TRACE_INJ_CTRL 0 4) (rd64 s TRACE_INJ_TARGET)) = true) := by
    rw [h, ht]
    decide
  unfold armInjection
  dsimp only
  rw [if_neg hn]
  exact ⟨rf_wf_same s TRACE_INJ_CTRL 5 1 1 (by decide), rfl, rfl⟩

theorem arm_gives {s : State} {a : Accessor} {w : W32} (hre : reaches s a = true) (hd : devState s = 2 ∨ devState s = 3) (hl : levelOpen s 1 = true) (hb : bit w 4 = true)
    (h5 : rf s TRACE_INJ_CTRL 5 1 = 0) (ht : targetOk s (fld w 0 4) (rd64 s TRACE_INJ_TARGET) = true) :
    Gives (.arm a w) s fun u => rf u TRACE_INJ_CTRL 5 1 = 1 ∧ u.trace.armKind = fld w 0 4 ∧ u.trace.armTarget = rd64 s TRACE_INJ_TARGET := by
  obtain ⟨r, b, i, hr, hw, hrw, hc, hf⟩ := injCtrl_row
  have hcl : Clear s TRACE_INJ_CTRL := clear_trace hd (by decide +kernel) (by decide) hl (by decide) (by decide) (by decide)
  have hk : rf (fieldWrite s r TRACE_INJ_CTRL r.rw w) TRACE_INJ_CTRL 0 4 = fld w 0 4 := by
    rw [hrw, fieldWrite_taken s _ w (by decide) (by rw [hc]; intro i h1 h2; interval_cases i <;> decide), hf]
    exact (fld_injKind _).trans (and_inj_toNat w)
  have h5' : rf (fieldWrite s r TRACE_INJ_CTRL r.rw w) TRACE_INJ_CTRL 5 1 = 0 := by
    rw [hrw, fieldWrite_kept s _ w (by decide) (by rw [hc]; intro i h1 h2; interval_cases i; decide)]
    exact h5
  have hp : regPut s r TRACE_INJ_CTRL TRACE_INJ_CTRL w = armInjection (fieldWrite s r TRACE_INJ_CTRL r.rw w) := by
    have he : regPut s r TRACE_INJ_CTRL TRACE_INJ_CTRL w = (if bit w 4 then armInjection (fieldWrite s r TRACE_INJ_CTRL r.rw w) else fieldWrite s r TRACE_INJ_CTRL r.rw w) := rfl
    rw [he, if_pos hb]
  refine ⟨_, congrArg Host.Outcome.next ((if_pos (by rw [hre, hb]; rfl)).trans ((regWrite_put w (by decide) hcl hr hw (by decide)).trans hp)), ?_⟩
  have hs := armed_spec h5' (by rw [hk]; exact ht)
  rw [hk] at hs
  exact hs

theorem assayCfg_row : ∃ r b i, regAt (canonOff PWR_ASSAY_CFG) = some (r, b, i, false) ∧ r.wide = false := ⟨_, _, _, rfl, rfl⟩

theorem rf_withPwr (s : State) (x : Power) (o l n : Nat) : rf { s with pwr := x } o l n = rf s o l n := rfl

theorem startAssay_spec {s : State} (h : rf s PWR_STATUS 5 1 = 0) : rf (startAssay s) PWR_STATUS 5 1 = 1 ∧ (startAssay s).pwr.assayStart = some (mono s) := by
  unfold startAssay
  rw [if_neg (by rw [h]; decide)]
  exact ⟨(rf_withPwr _ _ _ _ _).trans (rf_wf_same s PWR_STATUS 5 1 1 (by decide)), rfl⟩

theorem run_gives {s : State} {a : Accessor} {w : W32} (hre : reaches s a = true) (hd : devState s = 2 ∨ devState s = 3) (hb : bit w 8 = true) (h5 : rf s PWR_STATUS 5 1 = 0) :
    Gives (.run a w) s fun u => rf u PWR_STATUS 5 1 = 1 ∧ u.pwr.assayStart = some (mono s) := by
  obtain ⟨r, b, i, hr, hw⟩ := assayCfg_row
  have hcl : Clear s PWR_ASSAY_CFG := clear_power hd (by decide +kernel) (by decide) (by decide) (by decide) (by decide)
  have hp : regPut s r PWR_ASSAY_CFG PWR_ASSAY_CFG w = startAssay (fieldWrite s r PWR_ASSAY_CFG r.rw w) := by
    have he : regPut s r PWR_ASSAY_CFG PWR_ASSAY_CFG w = (if bit w 8 then startAssay (fieldWrite s r PWR_ASSAY_CFG r.rw w) else fieldWrite s r PWR_ASSAY_CFG r.rw w) := rfl
    rw [he, if_pos hb]
  exact ⟨_, congrArg Host.Outcome.next ((if_pos (by rw [hre, hb]; rfl)).trans ((regWrite_put w (by decide) hcl hr hw (by decide)).trans hp)),
    startAssay_spec ((rf_congr (rd_fieldWrite_ne s r _ w (by decide)) 5 1).trans h5)⟩

/-! ## An injection fires -/

/-- An armed injection of one bit of a core's storage has fired. -/
def sramFired (s : State) : State :=
  let u := wr (wf (wf s TRACE_INJ_CTRL 5 1 0) TRACE_INJ_CTRL 6 1 1) TRACE_INJ_SEQ 0
  { u with trace := { s.trace with
    firedKind := 3
    sram := (16384 * fld s.trace.armTarget 0 13 + fld s.trace.armTarget 16 14, false) :: s.trace.sram } }

theorem rf_sramFired (s : State) (lo n : Nat) : rf (sramFired s) TRACE_INJ_CTRL lo n = rf (wf (wf s TRACE_INJ_CTRL 5 1 0) TRACE_INJ_CTRL 6 1 1) TRACE_INJ_CTRL lo n :=
  rf_congr (t := sramFired s) (s := wf (wf s TRACE_INJ_CTRL 5 1 0) TRACE_INJ_CTRL 6 1 1) (rd_wr_ne _ _ (by decide)) lo n

theorem injectionFire_sram {s : State} (h : rf s TRACE_INJ_CTRL 5 1 = 1) (hk : s.trace.armKind = 3) : Gives .injectionFire s fun u => rf u TRACE_INJ_CTRL 5 1 = 0 ∧
    rf u TRACE_INJ_CTRL 6 1 = 1 ∧ u.trace.firedKind = 3 ∧
    u.trace.sram = (16384 * fld s.trace.armTarget 0 13 + fld s.trace.armTarget 16 14, false) :: s.trace.sram := by
  have hn : ¬rf s TRACE_INJ_CTRL 5 1 = 0 := by rw [h]; decide
  have he : exec .injectionFire s = .next (sramFired s) := by
    show execInjectionFire s = _
    unfold execInjectionFire
    rw [if_neg hn, hk]
    rfl
  refine ⟨sramFired s, he, ?_, ?_, rfl, rfl⟩
  · rw [rf_sramFired, rf_wf_other _ _ 6 1 _ 5 1 (by decide) (by decide), rf_wf_same _ _ 5 1 _ (by decide)]
    rfl
  · rw [rf_sramFired, rf_wf_same _ _ 6 1 _ (by decide)]
    rfl

/-- Settles O35: a command register's write reaches its row, which does what the command says. -/
theorem commandRegisters : Obligations.CommandRegisters := by
  unfold Obligations.CommandRegisters
  refine ⟨fun s a w hre hd hl => traceSemSel_gives w hre hd hl, fun s a w x hre hd hx => pwrHistSel_gives w hre hd hx, fun s a hre hd hl => stop_gives hre hd hl,
    fun s a w hre hd hl hb h5 ht => arm_gives hre hd hl hb h5 ht, fun s a w hre hd hb h5 => run_gives hre hd hb h5, fun s h hk => injectionFire_sram h hk,
    fun s h => if_pos h⟩

end Sys2Proof.Claims
end

section
/-! PROOFS. Semaphores (R143 to R146): O27. -/
namespace Sys2Proof.Claims
open Sys2Proof.Machine

/-- Waiters are satisfied from the head while the value lasts. -/
theorem satisfy_spec (v : Nat) (ws : List (Tid × W64)) : ∃ k : Nat, k ≤ ws.length ∧ (satisfy v ws).2.1 = ws.drop k ∧ (satisfy v ws).2.2 = (ws.take k).map (·.1) ∧
    (satisfy v ws).1 + ((ws.take k).map (·.2.toNat)).sum = v ∧ ∀ w, (ws.drop k).head? = some w → (satisfy v ws).1 < w.2.toNat := by
  induction ws generalizing v with
  | nil => exact ⟨0, Nat.le_refl 0, rfl, rfl, rfl, fun w h => absurd h nofun⟩
  | cons x r ih =>
    obtain ⟨t, a⟩ := x
    by_cases h : a.toNat ≤ v
    · obtain ⟨k, hk, h1, h2, h3, h4⟩ := ih (v - a.toNat)
      have he : satisfy v ((t, a) :: r) = ((satisfy (v - a.toNat) r).1, (satisfy (v - a.toNat) r).2.1, t :: (satisfy (v - a.toNat) r).2.2) := if_pos h
      rw [he]
      refine ⟨k + 1, Nat.succ_le_succ hk, h1, ?_, ?_, h4⟩
      · simp [h2]
      · simp only [List.take_succ_cons, List.map_cons, List.sum_cons]
        omega
    · have he : satisfy v ((t, a) :: r) = (v, (t, a) :: r, []) := if_neg h
      rw [he]
      refine ⟨0, Nat.zero_le _, rfl, rfl, rfl, fun w hw => ?_⟩
      rw [← Option.some.inj hw]
      exact Nat.lt_of_not_le h

/-! ## A signal -/

/-- The semaphore after a signal that no one waits for. -/
def signalled (x : Sem) (a : W64) (src : SemSrc) (t : W64) : Sem :=
  { x with
    value := if decide (2 ^ 64 ≤ x.value.toNat + a.toNat) then BitVec.allOnes 64 else BitVec.ofNat 64 (x.value.toNat + a.toNat)
    saturated := x.saturated || decide (2 ^ 64 ≤ x.value.toNat + a.toNat)
    source := src.source, agent := src.agent, sthread := src.thread, tag := src.tag, subtag := src.subtag, time := t }

theorem semSatisfy_none {s : State} {n : Nat} (h : (getSem s n).waiters = []) : semSatisfy s n = setSem s n (getSem s n) := by
  unfold semSatisfy
  dsimp only
  rw [h]
  show setSem s n { getSem s n with value := BitVec.ofNat 64 (getSem s n).value.toNat, waiters := [] } = _
  rw [BitVec.ofNat_toNat, BitVec.setWidth_eq, ← h]

theorem getSem_congr {s t : State} (h : t.sems = s.sems) (n : Nat) : getSem t n = getSem s n := by
  unfold getSem; rw [h]

theorem semSatisfy_sems {s : State} {n : Nat} (h : (getSem s n).waiters = []) (m : Nat) : getSem (semSatisfy s n) m = getSem s m := by
  rw [semSatisfy_none h]
  by_cases hm : m = n
  · subst hm; exact getSem_setSem _ _ _
  · exact getSem_setSem_ne _ _ hm

/-- The entry of a saturated signal. -/
def saturationLogged (s : State) (n : Nat) (src : SemSrc) (past : Bool) : State :=
  if past then logErr s { cls := 0x34, port := src.port, tag := src.tag.toNat, subtag := src.subtag.toNat, loc := n } else s

theorem saturationLogged_sems (s : State) (n : Nat) (src : SemSrc) (past : Bool) : (saturationLogged s n src past).sems = s.sems := by
  unfold saturationLogged
  split
  · exact logErr_within.same .sems (by decide)
  · rfl

theorem now_cleanTouch (s : State) (tag : W32) (n : Nat) : now (cleanTouch s tag n) = now s := rfl

theorem semSignal_eq (s : State) (n : Nat) (a : W64) (src : SemSrc) : semSignal s n a src = semSatisfy (saturationLogged
    (setSem (cleanTouch s src.tag n) n (signalled (getSem s n) a src (BitVec.ofNat 64 (now s)))) n src (decide (2 ^ 64 ≤ (getSem s n).value.toNat + a.toNat))) n := by
  have hg : getSem (cleanTouch s src.tag n) n = getSem s n := getSem_congr (cleanTouch_within.same .sems (by decide)) n
  unfold semSignal saturationLogged signalled
  dsimp only
  rw [hg, now_cleanTouch]

/-- What a signal that no one waits for leaves. -/
theorem getSem_semSignal {s : State} {n : Nat} (h : (getSem s n).waiters = []) (a : W64) (src : SemSrc) (m : Nat) : getSem (semSignal s n a src) m =
    if m = n then signalled (getSem s n) a src (BitVec.ofNat 64 (now s)) else getSem s m := by
  have hs (m : Nat) : getSem (saturationLogged (setSem (cleanTouch s src.tag n) n (signalled (getSem s n) a src (BitVec.ofNat 64 (now s)))) n src
      (decide (2 ^ 64 ≤ (getSem s n).value.toNat + a.toNat))) m = if m = n then signalled (getSem s n) a src (BitVec.ofNat 64 (now s)) else getSem s m := by
    rw [getSem_congr (saturationLogged_sems _ _ _ _)]
    split
    next hm => subst hm; exact getSem_setSem _ _ _
    next hm => exact (getSem_setSem_ne _ _ hm).trans (getSem_congr (cleanTouch_within.same .sems (by decide)) m)
  rw [semSignal_eq, semSatisfy_sems (by rw [hs n, if_pos rfl]; exact h), hs m]

theorem signalled_value (x : Sem) (a : W64) (src : SemSrc) (t : W64) : (signalled x a src t).value.toNat = min (x.value.toNat + a.toNat) (2 ^ 64 - 1) := by
  unfold signalled
  simp only [decide_eq_true_eq]
  split
  next h => rw [BitVec.toNat_allOnes, Nat.min_eq_right (by omega)]
  next h => rw [BitVec.toNat_ofNat, Nat.mod_eq_of_lt (by omega), Nat.min_eq_left (by omega)]

/-! ## A test -/

theorem semTake_taken {s : State} {n : Nat} {a : W64} (h : (getSem s n).waiters = []) (ha : a.toNat ≤ (getSem s n).value.toNat) :
    (semTake s n a).1 = true ∧ (getSem (semTake s n a).2 n).value = (getSem s n).value - a := by
  have he : semTake s n a = (true, setSem s n { getSem s n with value := (getSem s n).value - a }) := if_pos ⟨h, ha⟩
  rw [he]
  exact ⟨rfl, by rw [getSem_setSem]⟩

theorem semTake_refused {s : State} {n : Nat} {a : W64} (h : (getSem s n).waiters ≠ [] ∨ (getSem s n).value.toNat < a.toNat) : semTake s n a = (false, s) :=
  if_neg fun ⟨h1, h2⟩ => h.elim (fun hw => hw h1) (fun hl => Nat.not_lt.2 h2 hl)

/-! ## A thread's SEMSIG at its home slice -/

/-- Who signals. -/
def signalSrc (o : MemOp) : SemSrc := { source := 1, agent := o.origin.vcore, thread := o.origin.thread, tag := o.tag, subtag := o.subtag, port := 0 }

theorem semaphoreOperation_signal {s : State} {op : Nat} {o : MemOp} (ho : Outstanding s op o) (ht : SemTurn s o) (hk : o.kind = .semSig) (hp : o.parked = false) :
    exec (.semaphoreOperation op) s = .next (settleEnd (removeOp (traceEvent (semSignal (semCharged s o) (semNo o) (o.data.setWidth 64) (signalSrc o)) 12 o.tag
      o.subtag.toNat o.part o.origin.vcore o.origin.thread (semNo o) (o.data.setWidth 64 : W64).toNat) op) o.t) := by
  obtain ⟨hn, htodo, hshort, hlets, -, hearly⟩ := ht
  show execSemaphoreOperation op s = _
  unfold execSemaphoreOperation
  rw [show getOp s op = some o from ho]
  dsimp only
  split
  next hc =>
    exfalso
    simp only [hn, htodo, hk, hshort, ne_eq, not_true_eq_false, Bool.not_true, Bool.false_eq_true, false_or, or_false, List.any_eq_true, Bool.and_eq_true, beq_iff_eq,
      decide_eq_true_eq, reduceCtorEq, decide_false, Bool.false_and] at hc
    obtain ⟨p, hp, ⟨⟨⟨⟨hv, hid⟩, hkind⟩, hnode⟩, haddr⟩, hne⟩ := hc
    refine hne (hearly p hp hv hid ?_ hnode haddr)
    revert hkind
    cases p.kind <;> simp
  next hc =>
    have hlets' : ¬(!bucketOpen s o.part (semStack s (semNo o)) 8 (decide (stackInflight s (semStack s (semNo o)) < 2048))) = true := by
      rw [show bucketOpen s o.part (semStack s (semNo o)) 8 (decide (stackInflight s (semStack s (semNo o)) < 2048)) = true from hlets]
      decide
    refine (if_neg hlets').trans ?_
    rw [hk]
    dsimp only
    rw [hp]
    rfl

theorem rd_of_bar {s t : State} (hb : t.bar = s.bar) (hg : t.grade = s.grade) (o : Nat) : rd t o = rd s o := by
  unfold rd; rw [hb, hg]

theorem rd_semSatisfy (s : State) (n o : Nat) : rd (semSatisfy s n) o = rd s o :=
  rd_of_bar (semSatisfy_within.same .bar (by decide)) (by simp) o

/-- A signal writes no register but the error log's. -/
theorem rd_semSignal (s : State) (n : Nat) (a : W64) (src : SemSrc) {o : Nat} (h1 : o ≠ ERRLOG_STATUS) (h2 : o ≠ ERRLOG_WPTR) (h3 : o ≠ TRACE_INJ_SEQ) :
    rd (semSignal s n a src) o = rd s o := by
  rw [semSignal_eq, rd_semSatisfy]
  unfold saturationLogged
  split
  · rw [rd_logErr_ne _ _ h1 h2 h3]
    rfl
  · rfl

theorem mem_settled (s : State) (id : Nat) (t : Tid) : (settleEnd (removeOp s id) t).mem = s.mem ∧ (settleEnd (removeOp s id) t).sems = s.sems := by
  unfold settleEnd
  dsimp only
  split <;> exact ⟨rfl, rfl⟩

theorem setWidth_toNat (x : VReg) : (x.setWidth 64 : W64).toNat = fld x 0 64 := by
  rw [BitVec.toNat_setWidth, fld_eq, Nat.pow_zero, Nat.div_one]

theorem getOp_settled (s : State) (id : Nat) (t : Tid) : getOp (settleEnd (removeOp s id) t) id = none := by
  have hops : (settleEnd (removeOp s id) t).cores.ops = (removeOp s id).cores.ops := by
    unfold settleEnd
    dsimp only
    split <;> rfl
  unfold getOp
  rw [hops]
  exact List.find?_eq_none.2 fun o ho => by simpa using (List.mem_filter.1 ho).2

/-- Settles O27: a signal that no one waits for changes its semaphore alone, and a thread's SEMSIG is such a signal under its name. -/
theorem semaphoreRules : Obligations.SemaphoreRules := by
  unfold Obligations.SemaphoreRules
  refine ⟨satisfy_spec, fun s n a src h => ?_, fun s n m a src hm h => ?_, fun s n a h ha => semTake_taken h ha, fun s n a h => semTake_refused h,
    fun s op o ho ht hk hp hw htr => ⟨_, semaphoreOperation_signal ho ht hk hp, getOp_settled _ _ _, ?_⟩⟩
  · rw [getSem_semSignal h, if_pos rfl]
    exact ⟨signalled_value _ _ _ _, rfl, rfl, rfl⟩
  · rw [getSem_semSignal h, if_neg hm]
  · have hc (m : Nat) : getSem (semCharged s o) m = getSem s m := getSem_congr (bucketCharge_within.same .sems (by decide)) m
    have hw' : (getSem (semCharged s o) (semNo o)).waiters = [] := by rw [hc]; exact hw
    have htr' : rf (semSignal (semCharged s o) (semNo o) (o.data.setWidth 64) (signalSrc o)) TRACE_CTRL 0 1 = 0 := by
      refine (rf_congr ?_ 0 1).trans htr
      rw [rd_semSignal _ _ _ _ (by decide) (by decide) (by decide)]
      exact rd_of_bar (bucketCharge_within.same .bar (by decide)) (by simp) _
    rw [traceEvent_off htr']
    have hg (m : Nat) := (getSem_congr (mem_settled (semSignal (semCharged s o) (semNo o) (o.data.setWidth 64) (signalSrc o)) op o.t).2 m).trans
      (getSem_semSignal hw' (o.data.setWidth 64) (signalSrc o) m)
    rw [hg (semNo o), if_pos rfl, hc]
    refine ⟨?_, rfl, rfl, rfl, fun m hm => ?_, ?_⟩
    · rw [signalled_value, setWidth_toNat]
    · rw [hg m, if_neg hm, hc]
    · rw [(mem_settled _ _ _).1]
      exact (semSignal_within.same .mem (by decide)).trans (bucketCharge_within.same .mem (by decide))

end Sys2Proof.Claims
end


section
/-! PROOFS. The engines (R160 to R164, R202): O29. -/
namespace Sys2Proof.Claims
open Sys2Proof.Machine

/-! ## The order of R164 -/

/-- A place in the order of R164, the least first: what a hold kept waiting, by arrival; then by urgency, latency-critical reads, an open row, arrival. -/
def rank (released : Bool) (urgency : Nat) (crit hit : Bool) (arrived id : Nat) : ℕ ×ₗ ℕᵒᵈ ×ₗ ℕ ×ₗ ℕ ×ₗ ℕ ×ₗ ℕ :=
  if released then toLex (0, toLex (OrderDual.toDual 0, toLex (0, toLex (0, toLex (arrived, id)))))
  else toLex (1, toLex (OrderDual.toDual urgency, toLex (b2n (!crit), toLex (b2n (!hit), toLex (arrived, id)))))

/-- The comparison of two operations by what it reads of them. -/
def ranksBefore (ra rb : Bool) (ua ub : Nat) (ca cb ha hb first : Bool) : Bool :=
  if ra || rb then (if ra && rb then first else ra)
  else if ua ≠ ub then decide (ub < ua)
  else if ca ≠ cb then ca
  else if ha ≠ hb then ha
  else first

theorem b2n_not_lt (p q : Bool) : b2n (!p) < b2n (!q) ↔ p = true ∧ q = false := by cases p <;> cases q <;> decide
theorem b2n_not_eq (p q : Bool) : b2n (!p) = b2n (!q) ↔ p = q := by cases p <;> cases q <;> decide

theorem arrivedFirst_iff (x y i j : Nat) : (decide (x < y) || (x == y && decide (i < j))) = true ↔ toLex (x, i) < toLex (y, j) := by
  rw [Prod.Lex.toLex_lt_toLex]
  simp

theorem ranksBefore_iff (ra rb : Bool) (ua ub : Nat) (ca cb ha hb : Bool) (x y i j : Nat) :
    ranksBefore ra rb ua ub ca cb ha hb (decide (x < y) || (x == y && decide (i < j))) = true ↔ rank ra ua ca ha x i < rank rb ub cb hb y j := by
  have hf := arrivedFirst_iff x y i j
  generalize (decide (x < y) || (x == y && decide (i < j))) = f at hf
  unfold ranksBefore rank
  cases ra <;> cases rb <;>
    simp only [Bool.or_false, Bool.or_true, Bool.or_self, Bool.and_self, Bool.and_false, Bool.and_true, Bool.false_eq_true, if_false, if_true]
  · rw [Prod.Lex.toLex_lt_toLex, Prod.Lex.toLex_lt_toLex, Prod.Lex.toLex_lt_toLex, Prod.Lex.toLex_lt_toLex, ← hf]
    simp only [lt_self_iff_false, false_or, true_and, OrderDual.toDual_lt_toDual, OrderDual.toDual_inj, b2n_not_lt, b2n_not_eq]
    by_cases hu : ua = ub
    · cases ca <;> cases cb <;> cases ha <;> cases hb <;> simp [hu]
    · simp [hu]
  · rw [Prod.Lex.toLex_lt_toLex]
    simp
  · rw [Prod.Lex.toLex_lt_toLex]
    simp
  · rw [Prod.Lex.toLex_lt_toLex, Prod.Lex.toLex_lt_toLex, Prod.Lex.toLex_lt_toLex, Prod.Lex.toLex_lt_toLex, ← hf]
    simp

def dopCritical (d : DOp) : Bool := d.critical || d.urgency == 3
def dopHit (e : Engine) (d : DOp) : Bool := tget e.openRow d.bank 0 == d.row + 1
def dopRank (e : Engine) (d : DOp) : ℕ ×ₗ ℕᵒᵈ ×ₗ ℕ ×ₗ ℕ ×ₗ ℕ ×ₗ ℕ := rank d.released d.urgency (dopCritical d) (dopHit e d) d.arrived d.id

theorem dopBefore_eq (e : Engine) (a b : DOp) : dopBefore e a b = ranksBefore a.released b.released a.urgency b.urgency (dopCritical a) (dopCritical b)
    (dopHit e a) (dopHit e b) (decide (a.arrived < b.arrived) || (a.arrived == b.arrived && decide (a.id < b.id))) := rfl

theorem dopBefore_iff (e : Engine) (a b : DOp) : dopBefore e a b = true ↔ dopRank e a < dopRank e b := by
  rw [dopBefore_eq]
  exact ranksBefore_iff _ _ _ _ _ _ _ _ _ _ _ _

/-- The better of a choice so far and one more operation. -/
def better (e : Engine) (best : Option DOp) (d : DOp) : Option DOp :=
  match best with
  | none => some d
  | some b => if dopBefore e d b then some d else some b

/-- Choosing along a list keeps the least. -/
theorem foldl_better (e : Engine) (l : List DOp) (best : Option DOp) (d : DOp) (h : l.foldl (better e) best = some d) :
    (best = some d ∨ d ∈ l) ∧ (∀ b, best = some b → dopRank e d ≤ dopRank e b) ∧ ∀ x ∈ l, dopRank e d ≤ dopRank e x := by
  induction l generalizing best with
  | nil => exact ⟨.inl h, fun b hb => by rw [Option.some.inj (hb.symm.trans h)], fun x hx => absurd hx List.not_mem_nil⟩
  | cons y l ih =>
    obtain ⟨h1, h2, h3⟩ := ih _ h
    have hy : ∃ z, better e best y = some z ∧ (best = some z ∨ z = y) ∧ dopRank e z ≤ dopRank e y ∧ ∀ b, best = some b → dopRank e z ≤ dopRank e b := by
      unfold better
      cases best with
      | none => exact ⟨y, rfl, .inr rfl, le_refl _, fun b hb => absurd hb nofun⟩
      | some b =>
        dsimp only
        split
        next hlt => exact ⟨y, rfl, .inr rfl, le_refl _, fun c hc => by rw [← Option.some.inj hc]; exact le_of_lt ((dopBefore_iff e y b).1 hlt)⟩
        next hlt => exact ⟨b, rfl, .inl rfl, not_lt.1 fun hc => hlt ((dopBefore_iff e y b).2 hc), fun c hc => by rw [← Option.some.inj hc]⟩
    obtain ⟨z, hz, hz1, hz2, hz3⟩ := hy
    have hdz := h2 z hz
    refine ⟨?_, fun b hb => le_trans hdz (hz3 b hb), fun x hx => ?_⟩
    · obtain h1 | h1 := h1
      · obtain rfl := Option.some.inj (hz.symm.trans h1)
        obtain hz1 | rfl := hz1
        · exact .inl hz1
        · exact .inr List.mem_cons_self
      · exact .inr (List.mem_cons_of_mem _ h1)
    · obtain rfl | hx := List.mem_cons.1 hx
      · exact le_trans hdz hz2
      · exact h3 x hx

theorem chooseDop_least {s : State} {pc : Nat} {d : DOp} (h : chooseDop s pc = some d) : d ∈ (getEngine s pc).inflight ∧ dopReady s pc d = true ∧
    ∀ x ∈ (getEngine s pc).inflight, dopReady s pc x = true → ¬dopBefore (getEngine s pc) x d = true := by
  obtain ⟨h1, -, h3⟩ := foldl_better (getEngine s pc) ((getEngine s pc).inflight.filter (dopReady s pc)) none d h
  have hm := h1.resolve_left nofun
  refine ⟨(List.mem_filter.1 hm).1, (List.mem_filter.1 hm).2, fun x hx hr hb => ?_⟩
  exact absurd ((dopBefore_iff _ _ _).1 hb) (not_lt.2 (h3 x (List.mem_filter.2 ⟨hx, hr⟩)))

/-- What not coming after another means. -/
theorem notBefore_spec {e : Engine} {x d : DOp} (h : ¬dopBefore e x d = true) : (x.released = true → d.released = true ∧ d.arrived ≤ x.arrived) ∧
    (d.released = false → x.urgency ≤ d.urgency ∧ (x.urgency = d.urgency → (x.critical = true → d.critical = true ∨ d.urgency = 3) ∧
      (((x.critical = true ∨ x.urgency = 3) ↔ (d.critical = true ∨ d.urgency = 3)) →
        (tget e.openRow x.bank 0 = x.row + 1 → tget e.openRow d.bank 0 = d.row + 1) ∧
        (decide (tget e.openRow x.bank 0 = x.row + 1) = decide (tget e.openRow d.bank 0 = d.row + 1) → d.arrived ≤ x.arrived)))) := by
  have hc (y : DOp) : dopCritical y = true ↔ y.critical = true ∨ y.urgency = 3 := by simp [dopCritical]
  have hh (y : DOp) : dopHit e y = decide (tget e.openRow y.bank 0 = y.row + 1) := by simp [dopHit, Bool.beq_eq_decide_eq]
  have hfirst : ¬(decide (x.arrived < d.arrived) || (x.arrived == d.arrived && decide (x.id < d.id))) = true → d.arrived ≤ x.arrived := by
    intro hn
    simp only [Bool.or_eq_true, decide_eq_true_eq, not_or] at hn
    exact Nat.not_lt.1 hn.1
  rw [dopBefore_eq, hh, hh] at h
  unfold ranksBefore at h
  refine ⟨fun hx => ?_, fun hd => ?_⟩
  · cases hd : d.released with
    | false => simp [hx, hd] at h
    | true =>
      simp only [hx, hd, Bool.or_self, Bool.and_self, if_true] at h
      exact ⟨rfl, hfirst h⟩
  · cases hx : x.released with
    | true => simp [hx, hd] at h
    | false =>
      simp only [hx, hd, Bool.or_self, Bool.false_eq_true, if_false] at h
      by_cases hu : x.urgency = d.urgency
      · rw [if_neg (not_not.2 hu)] at h
        refine ⟨Nat.le_of_eq hu, fun _ => ⟨fun hxc => ?_, fun hiff => ?_⟩⟩
        · by_cases hcc : dopCritical x = dopCritical d
          · exact (hc d).1 (hcc ▸ (hc x).2 (.inl hxc))
          · rw [if_pos hcc] at h
            exact absurd ((hc x).2 (.inl hxc)) h
        · rw [← hc x, ← hc d] at hiff
          rw [if_neg (not_not.2 (Bool.eq_iff_iff.2 hiff))] at h
          by_cases hho : decide (tget e.openRow x.bank 0 = x.row + 1) = decide (tget e.openRow d.bank 0 = d.row + 1)
          · rw [if_neg (not_not.2 hho)] at h
            exact ⟨fun hx => of_decide_eq_true (hho ▸ decide_eq_true hx), fun _ => hfirst h⟩
          · rw [if_pos hho] at h
            exact ⟨fun hx => absurd (decide_eq_true hx) h, fun hc => absurd hc hho⟩
      · rw [if_pos hu] at h
        refine ⟨?_, fun hc => absurd hc hu⟩
        simpa using h

/-! ## The engines' rows -/

theorem memoryOperationComplete_chosen {s : State} {pc : Nat} {d : DOp} (h : chooseDop s pc = some d) : exec (.memoryOperationComplete pc) s =
    .next (match getOp s d.op with | some o => settleEnd (completeDop s pc d) o.t | none => completeDop s pc d) := by
  show execMemoryOperationComplete pc s = _
  unfold execMemoryOperationComplete
  rw [h]
  dsimp only
  cases getOp s d.op <;> rfl

theorem writeBufferDrain_batch {s : State} {pc : Nat} (hw : (getEngine s pc).wbuf ≠ []) (hh : pcHeld s pc = false)
    (h : 48 ≤ (getEngine s pc).wbuf.length ∨ chooseDop s pc = none) : exec (.writeBufferDrain pc) s = .next (drainWrites s pc) := by
  refine (if_neg ?_).trans (if_pos h)
  rw [hh]
  exact fun hc => hc.elim hw Bool.false_ne_true

theorem writeBufferDrain_held {s : State} {pc : Nat} (hh : pcHeld s pc = true) : exec (.writeBufferDrain pc) s = .next s := if_pos (.inr hh)

/-- The urgency rises of one operation of an engine. -/
theorem urgencyRise_gives {s : State} {pc dop : Nat} {up : DOp → DOp} (hup : ∀ d, up d = if d.id = dop then { d with urgency := max d.urgency (shareUrgency s pc d) } else d) :
    Gives (.urgencyRise pc dop) s fun u => (getEngine u pc).inflight = (getEngine s pc).inflight.map up ∧ (getEngine u pc).sliceQ = (getEngine s pc).sliceQ.map up ∧
      ∀ k, k ≠ pc → getEngine u k = getEngine s k := by
  have hf (l : List DOp) : mapIf (fun d => d.id == dop) (fun d => { d with urgency := max d.urgency (shareUrgency s pc d) }) l = l.map up := by
    refine List.map_congr_left fun d _ => ?_
    rw [hup]
    simp only [beq_iff_eq]
  refine ⟨_, rfl, ?_⟩
  refine ⟨?_, ?_, fun k hk => getEngine_setEngine_ne _ _ hk⟩
  · rw [getEngine_setEngine]; exact hf _
  · rw [getEngine_setEngine]; exact hf _

theorem yieldSlot_performs {s : State} {bank : Nat} {d : DOp} {ds : List DOp} (hd : (getEngine s (bank / 32)).inflight.filter (fun d => d.bank == bank) = d :: ds)
    (hb : bankBusy s bank = true) (hh : pcHeld s (bank / 32) = false) (ht : d.slotted = true ∨ d.arrived + (rf s (STK_NB_YIELD (bank / 2048)) 0 16 - 250) ≤ mono s) :
    let u := ((d :: ds).take 4).foldl (fun s d => completeDop s (bank / 32) d) s
    exec (.yieldSlot bank) s = .next (setEngine u (bank / 32) { getEngine u (bank / 32) with
      inflight := (getEngine u (bank / 32)).inflight.map (fun d => if d.bank = bank then { d with slotted := true } else d) }) := by
  have hn : ¬((!bankBusy s bank || pcHeld s (bank / 32) || (!d.slotted && decide (mono s < d.arrived + (rf s (STK_NB_YIELD (bank / 2048)) 0 16 - 250)))) = true) := by
    rw [hb, hh]
    obtain ht | ht := ht
    · rw [ht]; exact Bool.false_ne_true
    · rw [decide_eq_false (Nat.not_lt.2 ht), Bool.and_false]; decide
  show execYieldSlot bank s = _
  unfold execYieldSlot
  dsimp only
  rw [hd]
  dsimp only
  rw [if_neg hn]
  unfold mapIf
  simp only [beq_iff_eq]

theorem yieldSlot_none {s : State} {bank : Nat} (h : bankBusy s bank = false ∨ pcHeld s (bank / 32) = true ∨
    (getEngine s (bank / 32)).inflight.filter (fun d => d.bank == bank) = []) : exec (.yieldSlot bank) s = .next s := by
  show execYieldSlot bank s = _
  unfold execYieldSlot
  dsimp only
  cases hl : (getEngine s (bank / 32)).inflight.filter (fun d => d.bank == bank) with
  | nil => rfl
  | cons d ds =>
    refine if_pos ?_
    obtain h | h | h := h
    · rw [h]; rfl
    · rw [h, Bool.or_true]; rfl
    · exact absurd (hl.symm.trans h) nofun

/-- Settles O29: the choice is the least of a lexicographic order, and the other rows are their definitions. -/
theorem engineRows : Obligations.EngineRows := by
  unfold Obligations.EngineRows
  refine ⟨fun s pc d h => ?_, fun s pc d h x hx hr => ?_, fun s pc hw hh h => writeBufferDrain_batch hw hh h, fun s pc hh => writeBufferDrain_held hh,
    fun s pc dop up hup => urgencyRise_gives hup, fun s u bank d ds hd hb hh ht hu => ?_, fun s bank h => yieldSlot_none h⟩
  · obtain ⟨h1, h2, -⟩ := chooseDop_least h
    exact ⟨h1, h2, memoryOperationComplete_chosen h⟩
  · obtain ⟨-, -, h3⟩ := chooseDop_least h
    exact notBefore_spec (h3 x hx hr)
  · rw [hu]
    exact yieldSlot_performs hd hb hh ht

end Sys2Proof.Claims
end

section
/-! PROOFS. What the device's own bookkeeping leaves alone: tallies, log entries, trace records, fills and write-backs, status entries and replies touch a
few counters and status bits, and neither recoveries, the layout of memory, the ports nor a partition's definition. -/
namespace Sys2Proof.Claims
open Sys2Proof.Machine

-- one declaration at a time: many short proofs at once would each hold a thread until those before it are checked
set_option Elab.async false

/-- The 32-bit registers that bookkeeping may write: the status of a stack or of its tallies, of a log, a port, a client or a partition. An access to an address
past memory finds a "stack" 16 and up, whose status lies over other blocks' first registers. -/
def Noisy (off : Nat) : Prop :=
  0x700000 ≤ off ∧ (off % 0x20000 = 0 ∨ off % 0x20000 = 0x620 ∨ off % 0x20000 = 0x830 ∨ off % 0x40 = 0x28) ∨ off = 0xB00004 ∨ off = 0xC00038 ∨ off = 0xC03010 ∨
    0x500000 ≤ off ∧ off % 0x1000 = 0x60 ∨ off = 0x508018

/-- The 64-bit registers that it may write: tallies. -/
def Counter (off : Nat) : Prop :=
  0x508008 = off ∨ 0x508010 = off ∨ 0x500000 ≤ off ∧ (off % 0x1000 = 0x20 ∨ off % 0x1000 = 0x30) ∨
    0x700000 ≤ off ∧ (off % 0x20000 = 0x600 ∨ off % 0x20000 = 0x608 ∨ off % 0x20000 = 0x828) ∨ 0x908000 ≤ off

/-- What else it leaves as it is. -/
structure Rest where
  grade : Grade
  running : Tab Nat
  since : Tab Nat
  queued : Tab (List Nat)
  causes : List (Nat × Nat × Nat)
  selfTest : List Nat
  before : Nat
  portsOut : List Nat
  regions : List Region
  noAlloc : List Nat
  held : List (Nat × Nat)
  heldAt : Tab Nat
  trainedAt : Tab Nat
  discarded : Tab Nat
  wholeDue : List Nat
  scrubPos : Tab Nat
  linkUp : Bool
  fetchStopped : Bool
  nextCmd : Nat
  node : BitVec 1024
  peers : Tab Line
  blocks : Tab Line
  neigh : List (BitVec 128 × BitVec 48)

def Rest.of (s : State) : Rest :=
  { grade := s.grade, running := s.faults.running, since := s.faults.since, queued := s.faults.queued, causes := s.faults.causes,
    selfTest := s.faults.selfTest, before := s.faults.before, portsOut := s.faults.portsOut, regions := s.mem.regions, noAlloc := s.mem.noAlloc,
    held := s.mem.held, heldAt := s.mem.heldAt, trainedAt := s.mem.trainedAt, discarded := s.mem.discarded, wholeDue := s.mem.wholeDue,
    scrubPos := s.mem.scrubPos, linkUp := s.host.linkUp, fetchStopped := s.host.fetchStopped, nextCmd := s.host.nextCmd, node := s.fab.node,
    peers := s.fab.peers, blocks := s.fab.ports, neigh := s.fab.neigh }

/-- A partition but for what its buckets have spent. -/
def unspent (p : Part) : Part := { p with tokens := [] }

/-- The second state comes from the first by bookkeeping. -/
structure Calm (s t : State) : Prop where
  reg : ∀ off, ¬Noisy off → rd t off = rd s off
  reg64 : ∀ off, ¬Counter off → rd64 t off = rd64 s off
  part0 : ∀ lo, lo ≠ 2 → rf t (PART_STATUS 0) lo 1 = rf s (PART_STATUS 0) lo 1
  rest : Rest.of t = Rest.of s
  part : ∀ p, (tfind t.parts p).map unspent = (tfind s.parts p).map unspent

variable {s t u v : State}

theorem Calm.rfl : Calm s s := ⟨fun _ _ => Eq.refl _, fun _ _ => Eq.refl _, fun _ _ => Eq.refl _, Eq.refl _, fun _ => Eq.refl _⟩

theorem Calm.trans (h : Calm s t) (k : Calm t u) : Calm s u :=
  ⟨fun o ho => (k.reg o ho).trans (h.reg o ho), fun o ho => (k.reg64 o ho).trans (h.reg64 o ho), fun l hl => (k.part0 l hl).trans (h.part0 l hl),
    k.rest.trans h.rest, fun p => (k.part p).trans (h.part p)⟩

theorem Calm.after (k : Calm t u) (h : Calm s t) : Calm s u := h.trans k

/-- Neither the registers, nor the partitions, nor what stays. -/
theorem Calm.put (h : Calm s t) (hr : Rest.of v = Rest.of t := by rfl) (hb : v.bar = t.bar := by rfl) (hp : v.parts = t.parts := by rfl) : Calm s v :=
  have hg : v.grade = t.grade := congrArg Rest.grade hr
  h.trans ⟨fun _ _ => by unfold rd; rw [hb, hg], fun _ _ => by unfold rd64; rw [hb, hg], fun l _ => by unfold rf rd; rw [hb, hg], hr, fun p => by rw [hp]⟩

theorem Calm.ite {c : Prop} [Decidable c] {a b : State} (h : Calm s a) (k : Calm s b) : Calm s (if c then a else b) := by
  split <;> assumption

theorem Calm.ite2 {α : Type} {c : Prop} [Decidable c] {a b : α × State} (h : Calm s a.2) (k : Calm s b.2) : Calm s (if c then a else b).2 := by
  split <;> assumption

theorem Calm.iteThen {c : Prop} [Decidable c] {a b : State} (h : Calm s b) (k : Calm b a) : Calm s (if c then a else b) := by
  split
  · exact h.trans k
  · exact h

theorem Calm.iteElse {c : Prop} [Decidable c] {a b : State} (h : Calm s a) (k : Calm a b) : Calm s (if c then a else b) := by
  split
  · exact h
  · exact h.trans k

theorem Calm.foldl {α : Type} {g : State → α → State} {l : List α} (hg : ∀ s a, Calm s (g s a)) (h : Calm s t) : Calm s (l.foldl g t) :=
  List.foldlRecOn l g (motive := fun x => Calm s x) h fun _ hx a _ => hx.trans (hg _ a)

theorem Calm.foldl2 {α β : Type} {g : β × State → α → β × State} {l : List α} {x : β × State} (hg : ∀ x a, Calm x.2 (g x a).2) (h : Calm s x.2) :
    Calm s (l.foldl g x).2 :=
  List.foldlRecOn l g (motive := fun x => Calm s x.2) h fun _ hx a _ => hx.trans (hg _ a)

theorem Calm.foldl3 {α β γ : Type} {g : β × γ × State → α → β × γ × State} {l : List α} {x : β × γ × State} (hg : ∀ x a, Calm x.2.2 (g x a).2.2)
    (h : Calm s x.2.2) : Calm s (l.foldl g x).2.2 :=
  List.foldlRecOn l g (motive := fun x => Calm s x.2.2) h fun _ hx a _ => hx.trans (hg _ a)

theorem Calm.iterate {n : Nat} {f : Nat → State → State} (hg : ∀ i s, Calm s (f i s)) (h : Calm s t) : Calm s (iterate n f t) :=
  Calm.foldl (fun s i => hg i s) h

theorem Calm.snd {α : Type} {x : α × State} {a : α} (h : x = (a, u)) (k : Calm t x.2) : Calm t u := by subst h; exact k
theorem Calm.snd2 {α β : Type} {x : α × β × State} {a : α} {b : β} (h : x = (a, b, u)) (k : Calm t x.2.2) : Calm t u := by subst h; exact k

/-- What touches none of these pieces is calm. -/
theorem calm_of_within {P : List Piece} (h : Within P s t)
    (hp : .bar ∉ P ∧ .mem ∉ P ∧ .host ∉ P ∧ .parts ∉ P ∧ .fab ∉ P ∧ .faults ∉ P := by decide) : Calm s t := by
  obtain ⟨hb, hm, hh, hpt, hf, hfl⟩ := hp
  have b : t.bar = s.bar := h.same .bar hb
  have m : t.mem = s.mem := h.same .mem hm
  have o : t.host = s.host := h.same .host hh
  have f : t.fab = s.fab := h.same .fab hf
  have l : t.faults = s.faults := h.same .faults hfl
  exact .put .rfl (by unfold Rest.of; rw [h.grade, m, o, f, l]) b (h.same .parts hpt)

/-! ## Registers -/

theorem wr_calm {off : Nat} {x : W32} (h : Noisy off) (h0 : off ≠ PART_STATUS 0) : Calm s (wr s off x) :=
  ⟨fun o ho => rd_wr_ne _ _ (fun e => ho (e ▸ h)), fun o _ => rd64_wr _ _ _ _,
    fun l _ => congrArg (fun x : W32 => x.toNat / 2 ^ l % 2 ^ 1) (rd_wr_ne _ _ (Ne.symm h0)), Eq.refl _, fun _ => Eq.refl _⟩

theorem wf_calm {off lo len x : Nat} (h : Noisy off) (h0 : off ≠ PART_STATUS 0) : Calm s (wf s off lo len x) := wr_calm h h0

theorem wr64_calm {off : Nat} {x : W64} (h : Counter off) : Calm s (wr64 s off x) :=
  ⟨fun o _ => rd_wr64 _ _ _ _, fun o ho => rd64_wr64_ne _ _ (fun e => ho (e ▸ h)), fun _ _ => Eq.refl _, Eq.refl _, fun _ => Eq.refl _⟩

theorem bump_calm {off status i n : Nat} (hc : Counter off) (h : Noisy status) (h0 : status ≠ PART_STATUS 0) : Calm s (bump s off status i n) := by
  unfold bump
  exact .iteThen (wr64_calm hc) (wf_calm h h0)

theorem stkTally_noisy (n : Nat) : Noisy (STK_TALLY_STATUS n) ∧ STK_TALLY_STATUS n ≠ PART_STATUS 0 := by
  unfold Noisy STK_TALLY_STATUS PART_STATUS; omega

theorem stkNbTally_noisy (n : Nat) : Noisy (STK_NB_TALLY_STATUS n) ∧ STK_NB_TALLY_STATUS n ≠ PART_STATUS 0 := by
  unfold Noisy STK_NB_TALLY_STATUS PART_STATUS; omega

theorem portTally_noisy (k : Nat) : Noisy (FAB_PORT_TALLY_STATUS k) ∧ FAB_PORT_TALLY_STATUS k ≠ PART_STATUS 0 := by
  unfold Noisy FAB_PORT_TALLY_STATUS PART_STATUS; split <;> omega

theorem clientTally_noisy (c : Nat) : Noisy (CLI_TALLY_STATUS c) ∧ CLI_TALLY_STATUS c ≠ PART_STATUS 0 := by
  unfold Noisy CLI_TALLY_STATUS PART_STATUS; omega

theorem ceCount_counter (n : Nat) : Counter (STK_CE_COUNT n) := by unfold Counter STK_CE_COUNT; omega
theorem ueCount_counter (n : Nat) : Counter (STK_UE_COUNT n) := by unfold Counter STK_UE_COUNT; omega
theorem yieldCount_counter (n : Nat) : Counter (STK_NB_YIELD_COUNT n) := by unfold Counter STK_NB_YIELD_COUNT; omega
theorem txPkts_counter (k : Nat) : Counter (FAB_PORT_TX_PKTS k) := by unfold Counter FAB_PORT_TX_PKTS; split <;> omega
theorem retx_counter (k : Nat) : Counter (FAB_PORT_RETX k) := by unfold Counter FAB_PORT_RETX; split <;> omega
theorem client_counter (c i : Nat) : Counter (CLI_TALLY c i) := by unfold Counter CLI_TALLY; omega

theorem ceBump_calm {n i k : Nat} : Calm s (bump s (STK_CE_COUNT n) (STK_TALLY_STATUS n) i k) :=
  bump_calm (ceCount_counter n) (stkTally_noisy n).1 (stkTally_noisy n).2

theorem ueBump_calm {n i k : Nat} : Calm s (bump s (STK_UE_COUNT n) (STK_TALLY_STATUS n) i k) :=
  bump_calm (ueCount_counter n) (stkTally_noisy n).1 (stkTally_noisy n).2

theorem yieldBump_calm {n i k : Nat} : Calm s (bump s (STK_NB_YIELD_COUNT n) (STK_NB_TALLY_STATUS n) i k) :=
  bump_calm (yieldCount_counter n) (stkNbTally_noisy n).1 (stkNbTally_noisy n).2

theorem txBump_calm {n i k : Nat} : Calm s (bump s (FAB_PORT_TX_PKTS n) (FAB_PORT_TALLY_STATUS n) i k) :=
  bump_calm (txPkts_counter n) (portTally_noisy n).1 (portTally_noisy n).2

theorem retxBump_calm {n i k : Nat} : Calm s (bump s (FAB_PORT_RETX n) (FAB_PORT_TALLY_STATUS n) i k) :=
  bump_calm (retx_counter n) (portTally_noisy n).1 (portTally_noisy n).2

/-- The status of a stack, wherever it lies: SELF_REFRESH ends. -/
theorem selfRefresh_calm {n x : Nat} : Calm s (wf s (STK_STATUS n) 2 1 x) :=
  have hn : Noisy (STK_STATUS n) := by unfold Noisy STK_STATUS; omega
  ⟨fun o ho => rd_wf_ne _ _ _ _ (fun e => ho (e ▸ hn)), fun _ _ => Eq.refl _, fun l hl => by
    by_cases h : STK_STATUS n = PART_STATUS 0
    · rw [h]; exact rf_wf_other _ _ _ _ _ _ _ (by omega) (by omega)
    · exact rf_wf_ne _ _ _ _ _ _ (Ne.symm h), Eq.refl _, fun _ => Eq.refl _⟩

theorem drawBelow_calm {n : Nat} : Calm s (drawBelow s n).2 := calm_of_within drawBelow_within

theorem draw_calm {w : Nat} : Calm s (draw s w).2 := calm_of_within draw_within

theorem logErr_calm {e : ErrEnt} : Calm s (logErr s e) := by
  unfold logErr
  dsimp only
  refine (wf_calm (by unfold Noisy ERRLOG_WPTR; omega) (by unfold ERRLOG_WPTR PART_STATUS; omega)).after ?_
  have hb : Calm s (bump s ERRLOG_COUNT ERRLOG_STATUS 0 1) :=
    bump_calm (by unfold Counter ERRLOG_COUNT; omega) (by unfold Noisy ERRLOG_STATUS; omega) (by unfold ERRLOG_STATUS PART_STATUS; omega)
  exact .ite ((wr_calm (by unfold Noisy TRACE_INJ_SEQ; omega) (by unfold TRACE_INJ_SEQ PART_STATUS; omega)).after (.put hb)) (.put hb)

theorem fabTimeoutBump_calm {n : Nat} : Calm s (bump s FAB_TIMEOUTS FAB_TALLY_STATUS 0 n) :=
  bump_calm (by unfold Counter FAB_TIMEOUTS; omega) (by unfold Noisy FAB_TALLY_STATUS; omega) (by unfold FAB_TALLY_STATUS PART_STATUS; omega)

theorem fabResetBump_calm {n : Nat} : Calm s (bump s FAB_RESETS FAB_TALLY_STATUS 1 n) :=
  bump_calm (by unfold Counter FAB_RESETS; omega) (by unfold Noisy FAB_TALLY_STATUS; omega) (by unfold FAB_TALLY_STATUS PART_STATUS; omega)

theorem setEngine_calm {pc : Nat} {e : Engine} : Calm s (setEngine s pc e) := by
  unfold setEngine
  exact .put .rfl

theorem setLine_calm {ln : Nat} {c : CacheLine} : Calm s (setLine s ln c) := by
  unfold setLine
  exact .put .rfl

theorem setSecErr_calm {sec : Nat} {e : SecErr} : Calm s (setSecErr s sec e) := by
  unfold setSecErr
  exact .put .rfl

theorem setDramByte_calm {key : Nat} {b : Byte} : Calm s (setDramByte s key b) := by
  unfold setDramByte
  exact .put .rfl

theorem wakeBank_calm {bank : Nat} : Calm s (wakeBank s bank) := by
  unfold wakeBank
  dsimp only
  exact .iteThen (.ite (.put .rfl) .rfl) selfRefresh_calm

theorem activate_calm {sec : Nat} : Calm s (activate s sec) := by
  unfold activate
  dsimp only
  exact setEngine_calm.after wakeBank_calm

theorem repairWanted_calm {rowKey : Nat} : Calm s (repairWanted s rowKey) := by
  unfold repairWanted
  exact .ite .rfl (.put .rfl)

theorem correctable_calm {sec byte : Nat} {rq : Rq} {addr : Nat} : Calm s (correctable s sec byte rq
    addr) := by
  unfold correctable
  dsimp only
  exact .iteThen (.ite (logErr_calm.after (.put (ceBump_calm.after setSecErr_calm))) (.put (ceBump_calm.after
    setSecErr_calm))) repairWanted_calm

theorem poisonLines_calm {sec : Nat} : Calm s (poisonLines s sec) := by
  unfold poisonLines
  dsimp only
  exact .put .rfl

theorem tableFault_calm {sec : Nat} : Calm s (tableFault s sec) := by
  unfold tableFault
  exact .ite .rfl (.put .rfl)

theorem uncorrectable_calm {sec : Nat} {rq : Rq} {addr : Nat} : Calm s (uncorrectable s sec rq addr) := by
  unfold uncorrectable
  dsimp only
  exact repairWanted_calm.after (tableFault_calm.after (logErr_calm.after (ueBump_calm.after (poisonLines_calm.after setSecErr_calm))))

theorem poisonEntry_calm {sec n : Nat} {e : ErrEnt} : Calm s (poisonEntry s sec n e) := by
  unfold poisonEntry
  dsimp only
  exact .ite (logErr_calm.after (.put .rfl)) (.put .rfl)

theorem poisonRefusal_calm {sec : Nat} {rq : Rq} {addr : Nat} : Calm s (poisonRefusal s sec rq addr) := by
  unfold poisonRefusal
  exact poisonEntry_calm

theorem checkSector_calm {sec : Nat} {rq : Rq} {addr : Nat} {count : Bool} : Calm s (checkSector s sec rq addr count).2 := by
  unfold checkSector
  dsimp only
  refine .ite2 ?_ ?_
  · dsimp only
    exact .iteThen activate_calm poisonRefusal_calm
  · refine .ite2 ?_ ?_
    · dsimp only
      exact uncorrectable_calm.after activate_calm
    · split
      · dsimp only
        exact activate_calm
      · dsimp only
        exact correctable_calm.after activate_calm
      · dsimp only
        exact uncorrectable_calm.after activate_calm
      · refine .ite2 ?_ ?_
        · dsimp only
          exact uncorrectable_calm.after (drawBelow_calm.after activate_calm)
        · dsimp only
          exact setSecErr_calm.after (.foldl (fun s a => setDramByte_calm) (drawBelow_calm.after activate_calm))

theorem checkSectors_calm {secs : List Nat} {rq : Rq} {addr : Nat} {count : Bool} : Calm s (checkSectors s secs rq addr count).2 := by
  unfold checkSectors
  refine .foldl2 ?_ .rfl
  intro x a
  dsimp only
  exact checkSector_calm

theorem writeSector_calm {sec : Nat} {bs : List Byte} : Calm s (writeSector s sec bs) := by
  unfold writeSector
  dsimp only
  exact setSecErr_calm.after (.foldl (fun s a => setDramByte_calm) activate_calm)

theorem writePoison_calm {sec : Nat} : Calm s (writePoison s sec) := by
  unfold writePoison
  exact setSecErr_calm

theorem touch_calm {bits : List (Nat × Nat)} : Calm s (touch s bits) := by
  unfold touch
  exact .ite (.put .rfl) .rfl

theorem clearWord_calm {w : Nat} : Calm s (clearWord s w) := by
  unfold clearWord
  exact .foldl (fun s a => writeSector_calm) .rfl

theorem putBitsAt_calm {whole : List Nat} {bits : List (Nat × Nat × Bool)} {changed : List (Nat × Nat)} : Calm s (putBitsAt s whole bits changed) := by
  unfold putBitsAt
  exact touch_calm.after (.foldl (fun s a => setDramByte_calm) (.foldl (fun s a => clearWord_calm) .rfl))

theorem poisonWords_calm {words merged : List Nat} {addr : Nat} : Calm s (poisonWords s words merged
    addr) := by
  unfold poisonWords
  dsimp only
  split
  · exact .foldl (fun s a => writePoison_calm) .rfl
  · exact poisonEntry_calm.after (.foldl (fun s a => writePoison_calm) .rfl)

theorem viewWriteBack_calm {r : Region} {v0 addr : Nat} {bytes : List (Nat × Byte)} : Calm s (viewWriteBack s r v0 addr bytes).2 := by
  unfold viewWriteBack
  dsimp only
  refine .ite2 ?_ ?_
  · dsimp only
    exact putBitsAt_calm.after checkSectors_calm
  · dsimp only
    exact poisonWords_calm.after checkSectors_calm

theorem setLru_calm {k : Nat} {xs : List Nat} : Calm s (setLru s k xs) := by
  unfold setLru
  exact .put .rfl

theorem touchLine_calm {ln : Nat} : Calm s (touchLine s ln) := by
  unfold touchLine
  dsimp only
  exact setLru_calm

theorem dropLine_calm {ln : Nat} : Calm s (dropLine s ln) := by
  unfold dropLine
  dsimp only
  exact setLru_calm.after setLine_calm

theorem countHeld_calm {secs : List Nat} : Calm s (countHeld s secs) := by
  unfold countHeld
  split
  · exact yieldBump_calm
  · exact .rfl

theorem writeLine_calm {ln : Nat} {data : BitVec 512} {dirty : BitVec 2} : Calm s (writeLine s
    ln data dirty) := by
  unfold writeLine
  dsimp only
  split
  · exact .foldl (fun s a => .ite writeSector_calm .rfl) .rfl
  · exact .iteElse viewWriteBack_calm (.iteElse .rfl setLine_calm)

theorem drainWrites_calm {pc : Nat} : Calm s (drainWrites s pc) := by
  unfold drainWrites
  dsimp only
  exact .foldl (fun s a => writeLine_calm.after countHeld_calm) setEngine_calm

theorem queueWriteBack_calm {ln : Nat} {c : CacheLine} : Calm s (queueWriteBack s ln c) := by
  unfold queueWriteBack
  dsimp only
  exact setEngine_calm.after (.ite drainWrites_calm .rfl)

theorem evictLine_calm {ln : Nat} : Calm s (evictLine s ln) := by
  unfold evictLine
  dsimp only
  exact .iteElse dropLine_calm queueWriteBack_calm

theorem allocLine_calm {ln : Nat} : Calm s (allocLine s ln) := by
  unfold allocLine
  dsimp only
  exact touchLine_calm.after (.ite (evictLine_calm.after drawBelow_calm) .rfl)

theorem flushLine_calm {ln : Nat} : Calm s (flushLine s ln) := by
  unfold flushLine
  dsimp only
  exact .iteElse drainWrites_calm (writeLine_calm.after setLine_calm)

theorem viewSectorFetch_calm {r : Region} {v a : Nat} {rq : Rq} : Calm s (viewSectorFetch s r v
    a rq).2.2 := by
  unfold viewSectorFetch
  dsimp only
  exact checkSectors_calm

theorem fetchSector_calm {a : Nat} {rq : Rq} : Calm s (fetchSector s a rq).2.2 := by
  unfold fetchSector
  split
  · exact .rfl
  · dsimp only
    split
    · exact viewSectorFetch_calm.after (.ite .rfl countHeld_calm)
    · dsimp only
      exact checkSector_calm.after (.ite .rfl countHeld_calm)

theorem fillSector_calm {a : Nat} {rq : Rq} : Calm s (fillSector s a rq).2 := by
  unfold fillSector
  dsimp only
  refine .ite2 ?_ ?_
  · refine .ite2 ?_ ?_
    · dsimp only
      exact poisonRefusal_calm.after touchLine_calm
    · dsimp only
      exact touchLine_calm
  · dsimp only
    exact setLine_calm.after (fetchSector_calm.after allocLine_calm)

theorem sliceRead_calm {a : Nat} {rq : Rq} : Calm s (sliceRead s a rq).2.2 := by
  unfold sliceRead
  dsimp only
  split
  · dsimp only
    exact fillSector_calm
  · dsimp only
    exact fillSector_calm

theorem sliceWrite_calm {a : Nat} {new : List Byte} {mask : BitVec 32} {rq : Rq} : Calm s (sliceWrite s a new mask rq).2 := by
  unfold sliceWrite
  dsimp only
  refine .ite2 .rfl ?_
  refine .ite2 ?_ ?_
  · dsimp only
    exact logErr_calm
  · refine .ite2 ?_ ?_
    · dsimp only
      refine .ite2 ?_ fillSector_calm
      dsimp only
      exact allocLine_calm
    · dsimp only
      refine setLine_calm.after ?_
      refine .ite2 ?_ fillSector_calm
      dsimp only
      exact allocLine_calm

theorem devRead_calm {a n : Nat} {rq : Rq} : Calm s (devRead s a n rq).2.2 := by
  unfold devRead
  dsimp only
  refine .foldl3 ?_ .rfl
  intro x a
  dsimp only
  exact sliceRead_calm

theorem devWrite_calm {a : Nat} {bs : List Byte} {rq : Rq} : Calm s (devWrite s a bs rq).2 := by
  unfold devWrite
  refine .foldl2 ?_ .rfl
  intro x a
  dsimp only
  exact sliceWrite_calm

theorem devReadNat_calm {a n : Nat} {rq : Rq} : Calm s (devReadNat s a n rq).2.2 := by
  unfold devReadNat
  dsimp only
  exact devRead_calm

theorem addressRefused_calm {rq : Rq} {a : Nat} : Calm s (addressRefused s rq a) := by
  unfold addressRefused
  exact logErr_calm

theorem traceEvent_calm {ev : Nat} {tag : W32} {subtag part source aux arg0 arg1 : Nat} : Calm s (traceEvent s ev tag subtag part source aux arg0 arg1) := by
  unfold traceEvent
  refine .ite ?_ .rfl
  dsimp only
  have hc : Noisy TRACE_CTRL ∧ TRACE_CTRL ≠ PART_STATUS 0 := by unfold Noisy TRACE_CTRL PART_STATUS; omega
  exact .ite ((wf_calm hc.1 hc.2).after (wf_calm hc.1 hc.2)) ((bump_calm (by unfold Counter TRACE_RECORDS; omega) (by unfold Noisy TRACE_TALLY_STATUS; omega)
    (by unfold TRACE_TALLY_STATUS PART_STATUS; omega)).after devWrite_calm)

theorem setFlow_calm {f : Flow} : Calm s (setFlow s f) := by
  unfold setFlow
  dsimp only
  exact .put .rfl

theorem notePaths_calm : Calm s (notePaths s) := by
  unfold notePaths
  dsimp only
  exact .put .rfl

theorem txPush_calm {f : TxFrame} : Calm s (txPush s f) := by
  unfold txPush
  exact .put .rfl

theorem txQueue_calm {k n : Nat} : Calm s (txQueue s k n) := by
  unfold txQueue
  exact .put .rfl

theorem sendOut_calm {w : Wire} {f : TxFrame} {n : Nat} : Calm s (sendOut s w f n) := by
  unfold sendOut
  dsimp only
  refine txQueue_calm.after ?_
  refine txPush_calm.after ?_
  split
  · exact .ite .rfl txPush_calm
  · exact .rfl

theorem bucketCharge_calm {part b n : Nat} : Calm s (bucketCharge s part b n) := by
  unfold bucketCharge
  split
  · exact .rfl
  next p hp =>
    refine ⟨fun _ _ => Eq.refl _, fun _ _ => Eq.refl _, fun _ _ => Eq.refl _, Eq.refl _, fun q => ?_⟩
    by_cases h : q = part
    · subst h
      dsimp only
      rw [tfind_tput_same, hp]
      exact Eq.refl _
    · dsimp only
      rw [tfind_tput_ne _ _ h]

theorem chargeRange_calm {part a n : Nat} : Calm s (chargeRange s part a n) := by
  unfold chargeRange
  refine .iterate ?_ .rfl
  intro i s
  dsimp only
  exact .ite .rfl bucketCharge_calm

theorem sendData_calm {f : Flow} {x : Sent} {path : Nat} {retx : Bool} : Calm s (sendData s f x path retx) := by
  unfold sendData
  split
  · dsimp only
    exact .iteThen (txBump_calm.after sendOut_calm) retxBump_calm
  · exact .rfl

theorem pumpFlow_calm {peer cls : Nat} {fuel : Nat} : ∀ {s : State}, Calm s (pumpFlow s peer cls fuel) := by
  induction fuel with
  | zero => exact fun {s} => .rfl
  | succ n ih =>
    intro s
    unfold pumpFlow
    dsimp only
    split
    · exact .rfl
    · refine .ite (ih.after (sendData_calm.after (setFlow_calm.after ?_))) .rfl
      split
      · exact .ite bucketCharge_calm .rfl
      · exact .rfl

theorem pump_calm {peer cls : Nat} : Calm s (pump s peer cls) := by
  unfold pump
  exact pumpFlow_calm

theorem enqueue_calm {peer cls : Nat} {op : OpHeader} {payload : List Byte} {owner : PktOwner} {charge : Option Nat} {ackNow : Bool}
    {msg : Option TwinMsg} : Calm s (enqueue s peer cls op payload owner charge ackNow msg) := by
  unfold enqueue
  dsimp only
  exact setFlow_calm

theorem levelSend_calm {peer cls : Nat} {op : OpHeader} {payload : List Byte} {owner : PktOwner} {charge : Option Nat} {ackNow : Bool} :
    Calm s (levelSend s peer cls op payload owner charge ackNow) := by
  unfold levelSend
  exact pump_calm.after enqueue_calm

theorem twinEnqueue_calm {m : TwinMsg} {owner : PktOwner} : Calm s (twinEnqueue s m owner) := by
  unfold twinEnqueue
  exact enqueue_calm

theorem twinPost_calm {m : TwinMsg} {owner : PktOwner} : Calm s (twinPost s m owner) := by
  unfold twinPost
  exact pump_calm.after twinEnqueue_calm

theorem logFabric_calm {port : Nat} {peer cls : Nat} {op : OpHeader} {st : W16} {detail : W32} : Calm s (logFabric s port peer cls op st detail) := by
  unfold logFabric
  dsimp only
  exact logErr_calm

theorem modTier_calm {id : Nat} {g : TierGot → TierGot} : Calm s (modTier s id g) := by
  unfold modTier
  split
  · exact .put .rfl
  · exact .rfl

/-- An item for the twin is sent again, or not. -/
theorem resent_calm (b : Bool) (m : Option TwinMsg) (o : PktOwner) : Calm s (match b, m with | true, some m => twinEnqueue s m o | _, _ => s) := by
  cases b <;> cases m
  case true.some => exact twinEnqueue_calm
  all_goals exact .rfl

theorem pktComplete_calm {x : Sent} {peer cls : Nat} {st : W16} {detail : W32} {data : List Byte} {operand : W64} :
    Calm s (pktComplete s x peer cls st detail data operand) := by
  unfold pktComplete
  dsimp only
  split
  · exact (calm_of_within modOp_within).after (.iteThen (.ite logFabric_calm .rfl) fabTimeoutBump_calm)
  · exact (calm_of_within modMove_within).after (.iteThen (.ite logFabric_calm .rfl) fabTimeoutBump_calm)
  · exact modTier_calm.after (.iteThen (.ite logFabric_calm .rfl) fabTimeoutBump_calm)
  · exact .iteElse (.iteThen (.ite logFabric_calm .rfl) fabTimeoutBump_calm) (.ite (.put .rfl) (resent_calm _ _ _))
  · exact .iteThen (.ite logFabric_calm .rfl) fabTimeoutBump_calm

theorem flowResetBy_calm {peer cls : Nat} {st : W16} {detail : Sent → W32} : Calm s (flowResetBy s peer cls st detail) := by
  unfold flowResetBy
  dsimp only
  exact (calm_of_within settleOps_within).after (.foldl (fun s a => pktComplete_calm) (fabResetBump_calm.after setFlow_calm))

theorem flowReset_calm {peer cls : Nat} {st : W16} {detail : W32} : Calm s (flowReset s peer cls st detail) := by
  unfold flowReset
  exact flowResetBy_calm

theorem setHostByte_calm {a : Nat} {b : Byte} : Calm s (setHostByte s a b) := by
  unfold setHostByte
  exact .put .rfl

theorem hostWrite_calm {a : Nat} {bs : List Byte} : Calm s (hostWrite s a bs).2 := by
  unfold hostWrite
  refine .ite2 ?_ .rfl
  dsimp only
  exact .iterate (fun i s => setHostByte_calm) .rfl

theorem localRead_calm {off n : Nat} {rq : Rq} : Calm s (localRead s off n rq).2.2 := by
  unfold localRead
  split
  · exact devRead_calm
  · exact .rfl
  · exact .rfl
  · exact .rfl

theorem localWrite_calm {off : Nat} {bs : List Byte} {rq : Rq} : Calm s (localWrite s off bs rq).2 := by
  unfold localWrite
  split
  · exact devWrite_calm
  · exact hostWrite_calm
  · dsimp only
    exact calm_of_within scratchWrite_within
  · exact .rfl

theorem setQp_calm {q : Nat} {x : QueuePair} : Calm s (setQp s q x) := by
  unfold setQp
  exact .put .rfl

theorem modQp_calm {q : Nat} {f : QueuePair → QueuePair} : Calm s (modQp s q f) := by
  unfold modQp
  exact setQp_calm

theorem modCmd_calm {id : Nat} {f : Cmd → Cmd} : Calm s (modCmd s id f) := by
  unfold modCmd
  dsimp only
  exact .put .rfl

theorem sendResponse_calm {peer cls p : Nat} {op : OpHeader} {payload : List Byte} : Calm s (sendResponse s peer
    cls p op payload) := by
  unfold sendResponse
  dsimp only
  exact levelSend_calm.after setFlow_calm

theorem dropCmd_calm {id : Nat} : Calm s (dropCmd s id) := by
  unfold dropCmd
  dsimp only
  exact .put .rfl

theorem msix_calm {x : List Nat} : Calm s { s with host := { s.host with msix := x } } := .put .rfl

theorem writeStatus_calm {c : Cmd} {st : W16} {detail result : Nat} : Calm s (writeStatus
    s c st detail result) := by
  unfold writeStatus
  dsimp only
  split
  · exact sendResponse_calm.after (.ite logErr_calm .rfl)
  · exact msix_calm.after (setQp_calm.after (hostWrite_calm.after (.ite logErr_calm .rfl)))

theorem postStatus_calm {c : Cmd} {st : W16} {detail result : Nat} : Calm s (postStatus s c st detail result) := by
  unfold postStatus
  dsimp only
  exact writeStatus_calm.after (dropCmd_calm.after traceEvent_calm)

theorem settleDelete_calm {q : Nat} : Calm s (settleDelete s q) := by
  unfold settleDelete
  split
  · exact .rfl
  · refine .ite .rfl ?_
    dsimp only
    split
    · refine postStatus_calm.after ?_
      refine setQp_calm.after ?_
      split
      · exact postStatus_calm.after setQp_calm
      · exact setQp_calm
    · split
      · exact postStatus_calm.after setQp_calm
      · exact setQp_calm

theorem complete_calm {c : Cmd} {st : W16} {detail result : Nat} : Calm s (complete s c st detail result) := by
  unfold complete
  dsimp only
  exact .iterate (fun i s => .foldl (fun s a => settleDelete_calm) .rfl) (.iteThen postStatus_calm modQp_calm)

theorem logAbsent_calm {c : Cmd} : Calm s (logAbsent s c) := by
  unfold logAbsent
  dsimp only
  exact .ite (.put .rfl) (logErr_calm.after (.put .rfl))

theorem reject_calm {c : Cmd} {st : W16} {detail : Nat} : Calm s (reject s
    c st detail) := by
  unfold reject
  dsimp only
  exact complete_calm.after (.ite logAbsent_calm .rfl)

theorem structRead_calm {c : Cmd} {a : W64} {n : Nat} : Calm s (structRead s c a n).2.2 := by
  unfold structRead
  exact localRead_calm

theorem replyBuffer_calm {c : Cmd} {a : W64} {bs : List Byte} {result : Nat} : Calm s (replyBuffer s c a bs result) := by
  unfold replyBuffer
  dsimp only
  exact .ite (complete_calm.after localWrite_calm) (complete_calm.after localWrite_calm)

theorem tally_calm {client i : Nat} : Calm s (tally s client i) :=
  bump_calm (client_counter client i) (clientTally_noisy client).1 (clientTally_noisy client).2

theorem breach_calm {id kind object before after : Nat} : Calm s (breach s id kind object before
    after) := by
  unfold breach
  split
  · exact .rfl
  · split
    · exact .rfl
    · dsimp only
      exact .iteThen (calm_of_within modJob_within) logErr_calm

theorem stopThread_calm {id : Nat} {t : Tid} : Calm s (stopThread s id t) := by
  unfold stopThread
  dsimp only
  exact .ite .rfl ((calm_of_within settleEnd_within).after ((calm_of_within setThread_within).after (.put ((calm_of_within semLeave_within).after (.foldl (fun s a => breach_calm)
    .rfl)))))

theorem stopJob_calm {id : Nat} {why : JobStop} : Calm s (stopJob s id why) := by
  unfold stopJob
  split
  · exact .rfl
  · dsimp only
    exact .iteElse (calm_of_within modJob_within) (.put (.foldl (fun s a => stopThread_calm) .rfl))

theorem cleanCheck_calm {j : Job} : Calm s (cleanCheck s j) := by
  unfold cleanCheck
  split
  · exact .rfl
  · dsimp only
    exact .foldl (fun s a => .ite .rfl breach_calm) (.foldl (fun s a => .ite .rfl breach_calm) .rfl)

theorem finishJob_calm {j : Job} : Calm s (finishJob s j) := by
  unfold finishJob
  dsimp only
  split
  · exact complete_calm.after (.put (tally_calm.after (traceEvent_calm.after cleanCheck_calm)))
  · exact .put (tally_calm.after (traceEvent_calm.after cleanCheck_calm))

theorem semSignal_calm {n : Nat} {a : W64} {src : SemSrc} : Calm s (semSignal s n a src) := by
  unfold semSignal
  dsimp only
  exact (calm_of_within semSatisfy_within).after (.iteThen ((calm_of_within setSem_within).after (calm_of_within cleanTouch_within)) logErr_calm)

theorem nb_calm {x : NearBank} : Calm s { s with nb := x } := .put .rfl

/-- The near-bank units change, and what they have touched is noted. -/
theorem nbTouched_calm {x : NearBank} {y : List (Nat × Nat)} : Calm s { s with nb := x, mem := { s.mem with touched := y } } := .put .rfl

theorem blastRecord_calm {stack idx : Nat} {d : Line} {st : W16} {detail : W32} : Calm s (blastRecord s stack idx d st detail) := by
  unfold blastRecord
  dsimp only
  exact .iteElse (.ite .rfl (.ite addressRefused_calm localWrite_calm)) semSignal_calm

theorem settleRun_calm {id : Nat} : Calm s (settleRun s id) := by
  unfold settleRun
  refine .ite .rfl ?_
  dsimp only
  split
  · exact complete_calm.after nb_calm
  · exact nb_calm

theorem endProgram_calm {p : Program} {st : W16} {detail : W32} : Calm s (endProgram s p st detail) := by
  unfold endProgram
  dsimp only
  split
  · exact (calm_of_within aptSettle_within).after (nb_calm.after (traceEvent_calm.after nbTouched_calm))
  · exact settleRun_calm.after (nb_calm.after (traceEvent_calm.after nbTouched_calm))
  · exact traceEvent_calm.after nbTouched_calm

theorem abortProgram_calm {p : Program} : Calm s (abortProgram s p) := by
  unfold abortProgram
  dsimp only
  split
  · exact endProgram_calm.after (blastRecord_calm.after (.foldl (fun s a => (calm_of_within bufWrite_within).after draw_calm) .rfl))
  · exact endProgram_calm.after (.foldl (fun s a => (calm_of_within bufWrite_within).after draw_calm) .rfl)

theorem saveCore_calm {j : Job} {v : Nat} : Calm s (saveCore s j v) := by
  unfold saveCore
  dsimp only
  exact traceEvent_calm.after (.put (.foldl (fun s a => calm_of_within semLeave_within) .rfl))

theorem logRecovery_calm {d : Dom} {event : Nat} : Calm s (logRecovery s d event) := by
  unfold logRecovery
  dsimp only
  exact traceEvent_calm.after logErr_calm

theorem twinSend_calm {kind : Nat} {owner : PktOwner} : Calm s (twinSend s kind owner) := by
  unfold twinSend
  exact twinPost_calm

theorem completeAll_calm {st : Cmd → W16} : Calm s (completeAll s st) := by
  unfold completeAll
  refine .foldl ?_ .rfl
  intro s a
  split
  · exact complete_calm
  · exact .rfl

theorem dropJobs_calm : Calm s (dropJobs s) := by
  unfold dropJobs
  refine .foldl ?_ .rfl
  intro s a
  dsimp only
  split
  · exact finishJob_calm.after stopJob_calm
  · exact stopJob_calm


end Sys2Proof.Claims
end

section
/-! PROOFS. Faults (R359, R363 to R366): O31. -/
namespace Sys2Proof.Claims
open Sys2Proof.Machine

variable {s t u : State}

/-! ## What a fence leaves of the cores -/

/-- Which cores are fenced, saved and placed, their correctable errors and watchdogs. -/
def roster (c : Cores) : List Nat × Tab Nat × List Nat × Tab (List Nat) × Tab Nat := (c.fenced, c.vmap, c.preempted, c.ce, c.watch)

/-- The second state has the same of them. -/
def SameRoster (s t : State) : Prop := roster t.cores = roster s.cores

theorem SameRoster.trans (h : SameRoster s t) (k : SameRoster t u) : SameRoster s u := Eq.trans k h

theorem SameRoster.foldl {α : Type} {g : State → α → State} {l : List α} (hg : ∀ s a, SameRoster s (g s a)) (h : SameRoster s t) : SameRoster s (l.foldl g t) :=
  List.foldlRecOn l g (motive := fun x => SameRoster s x) h fun _ hx a _ => hx.trans (hg _ a)

theorem sameRoster_of_within {P : List Piece} (h : Within P s t) (hp : .cores ∉ P := by decide) : SameRoster s t := by
  unfold SameRoster
  rw [show t.cores = s.cores from h.same .cores hp]

theorem wake_roster (t : Tid) : SameRoster s (wake s t) := by
  unfold wake
  dsimp only
  split
  · exact Eq.refl _
  · split <;> exact Eq.refl _
  · exact Eq.refl _

theorem semSatisfy_roster (n : Nat) : SameRoster s (semSatisfy s n) := by
  unfold semSatisfy
  exact .foldl (fun _ _ => wake_roster _) (Eq.refl _)

theorem semLeave_roster (t : Tid) : SameRoster s (semLeave s t) := by
  unfold semLeave
  exact .foldl (fun _ n => (semSatisfy_roster n : SameRoster (setSem _ n _) _)) (Eq.refl _)

theorem logErr_roster (e : ErrEnt) : SameRoster s (logErr s e) := sameRoster_of_within logErr_within

theorem threads_roster {α : Type} (f : State → α → Tid) (g : State → α → Thread) (l : List α) : SameRoster s (l.foldl (fun s a => setThread s (f s a) (g s a)) s) :=
  .foldl (fun _ _ => Eq.refl _) (Eq.refl _)

theorem breach_roster (id kind object before after : Nat) : SameRoster s (breach s id kind object before after) := by
  unfold breach
  split
  · exact Eq.refl _
  · split
    · exact Eq.refl _
    · dsimp only
      split
      · exact Eq.trans (logErr_roster (s := modJob s id _) _) (Eq.refl _)
      · exact Eq.refl _

theorem settleEnd_roster (t : Tid) : SameRoster s (settleEnd s t) := by
  unfold settleEnd
  dsimp only
  split <;> exact Eq.refl _

theorem stopThread_roster (id : Nat) (t : Tid) : SameRoster s (stopThread s id t) := by
  unfold stopThread
  dsimp only
  split
  · exact Eq.refl _
  · exact ((SameRoster.foldl (fun _ _ => breach_roster _ _ _ _ _) (Eq.refl _)).trans (semLeave_roster t)).trans (settleEnd_roster t)

theorem stopJob_roster (id : Nat) (why : JobStop) : SameRoster s (stopJob s id why) := by
  unfold stopJob
  split
  · exact Eq.refl _
  · dsimp only
    split
    · exact Eq.refl _
    · exact SameRoster.foldl (fun _ _ => stopThread_roster _ _) (Eq.refl _)

theorem startCore_roster (j : Job) (v : Nat) : SameRoster s (startCore s j v) := by
  unfold startCore
  exact SameRoster.foldl (fun _ _ => Eq.refl _) (Eq.refl _)

theorem loseCore_roster (j : Job) (v : Nat) : SameRoster s (loseCore s j v) := by
  unfold loseCore
  exact SameRoster.foldl (fun _ _ => (SameRoster.foldl (fun _ _ => breach_roster _ _ _ _ _) (Eq.refl _)).trans (semLeave_roster _)) (Eq.refl _)

theorem resolveJob_roster (j : Job) (v : Nat) : SameRoster s (resolveJob s j v).1 := by
  unfold resolveJob
  dsimp only
  split
  · exact (loseCore_roster j v).trans (threads_roster _ _ _)
  · split
    · exact ((loseCore_roster j v).trans (startCore_roster j v)).trans (threads_roster _ _ _)
    · split
      · exact (loseCore_roster j v).trans (threads_roster _ _ _)
      · exact ((loseCore_roster j v).trans (threads_roster _ _ _)).trans (stopJob_roster _ _)

theorem SameRoster.fenced (h : SameRoster s t) : t.cores.fenced = s.cores.fenced := congrArg (·.1) h

/-- The core is on the list of those fenced, and flash is so. -/
def FenceStands (p : Nat) (f : Flash) (s : State) : Prop := p ∈ s.cores.fenced ∧ s.flash = f

theorem FenceStands.keep {p : Nat} {f : Flash} (h : FenceStands p f s) (hr : SameRoster s t) (hf : t.flash = s.flash) : FenceStands p f t :=
  ⟨hr.fenced ▸ h.1, hf.trans h.2⟩

/-- The virtual core that it served moves, or the N8 degrades. -/
theorem FenceStands.moved {p : Nat} {f : Flash} (h : FenceStands p f s) (vm : Tab Nat) (b : Bool) :
    FenceStands p f (if b = true then degrade { s with cores := { s.cores with vmap := vm } } else { s with cores := { s.cores with vmap := vm } }) := by
  have hm : FenceStands p f { s with cores := { s.cores with vmap := vm } } := h
  split
  · exact hm.keep (sameRoster_of_within degrade_within) (degrade_within.same .flash (by decide))
  · exact hm

theorem FenceStands.resolved {p : Nat} {f : Flash} (h : FenceStands p f s) (pre : List Nat) (j : Job) (v : Nat) :
    FenceStands p f (resolveJob { s with cores := { s.cores with preempted := pre } } j v).1 :=
  FenceStands.keep (s := { s with cores := { s.cores with preempted := pre } }) h (resolveJob_roster j v) (resolveJob_within.same .flash (by decide))

/-- A core that has been fenced is on the list, and its record on its way to flash. -/
theorem fenceCore_spec {p cause : Nat} (hp : p ∉ s.cores.fenced) : FenceStands p { s.flash with writing := s.flash.writing ++ [.fence p] } (fenceCore s p cause) := by
  have hw : FenceStands p { s.flash with writing := s.flash.writing ++ [.fence p] }
      (bump (flashWrite { s with cores := { s.cores with fenced := s.cores.fenced ++ [p] } } (.fence p)) CF_FENCE_COUNT CF_TALLY_STATUS 0 1) :=
    FenceStands.keep ⟨List.mem_append_right _ (List.mem_singleton.mpr rfl), rfl⟩ (sameRoster_of_within bump_within) (bump_within.same .flash (by decide))
  unfold fenceCore
  rw [if_neg hp]
  dsimp only
  refine FenceStands.keep ?_ (sameRoster_of_within logErr_within) (logErr_within.same .flash (by decide))
  split
  · exact hw
  next v hv =>
    generalize hx : (if (((servedBy s p).bind fun v => spareFor s v p).isNone = true) then degrade _ else _) = x
    have hm : FenceStands p { s.flash with writing := s.flash.writing ++ [.fence p] } x := by rw [← hx]; exact hw.moved _ _
    split
    · split
      · exact hm
      · exact hm.resolved _ _ _
    · exact hm

/-! ## A fault while nothing recovers -/

/-- What decides the device state but the register: slots, jobs, moves and programs (R362). -/
def SameWork (s t : State) : Prop := t.se.sessions = s.se.sessions ∧ t.cores.jobs = s.cores.jobs ∧ t.hoists = s.hoists ∧ t.nb.programs = s.nb.programs

theorem globalState_quiet : ¬Noisy GLOBAL_STATE := by unfold Noisy GLOBAL_STATE; omega

theorem Calm.storedState (h : Calm s t) : storedState t = storedState s :=
  congrArg (fun x : W32 => x.toNat / 2 ^ 0 % 2 ^ 3) (h.reg _ globalState_quiet)

theorem devState_calm (h : Calm s t) (hw : SameWork s t) : devState t = devState s := by
  obtain ⟨h1, h2, h3, h4⟩ := hw
  unfold devState working
  rw [h.storedState, h1, h2, h3, h4]

theorem sameWork_of_within {P : List Piece} (h : Within P s t) (hp : .se ∉ P ∧ .cores ∉ P ∧ .hoists ∉ P ∧ .nb ∉ P := by decide) : SameWork s t := by
  obtain ⟨h1, h2, h3, h4⟩ := hp
  exact ⟨congrArg _ (show t.se = s.se from h.same .se h1), congrArg _ (show t.cores = s.cores from h.same .cores h2), h.same .hoists h3,
    congrArg _ (show t.nb = s.nb from h.same .nb h4)⟩

theorem Calm.running (h : Calm s t) : t.faults.running = s.faults.running := congrArg Rest.running h.rest
theorem Calm.queued (h : Calm s t) : t.faults.queued = s.faults.queued := congrArg Rest.queued h.rest
theorem Calm.causes (h : Calm s t) : t.faults.causes = s.faults.causes := congrArg Rest.causes h.rest

/-- Nothing recovers after an entry either. -/
theorem Quiet.calm (hq : Quiet s) (h : Calm s t) (hw : SameWork s t) : Quiet t := by
  obtain ⟨h1, h2, h3, h4⟩ := hq
  refine ⟨h.running.trans h1, h.queued.trans h2, h.causes.trans h3, ?_⟩
  unfold serving
  rw [devState_calm h hw]
  exact h4

theorem Quiet.logErr (hq : Quiet s) (e : ErrEnt) : Quiet (logErr s e) := hq.calm logErr_calm (sameWork_of_within logErr_within)

theorem Quiet.alive (hq : Quiet s) : devState s ≠ 7 := by
  have h := hq.2.2.2
  unfold serving at h
  simp only [Bool.and_eq_true, decide_eq_true_eq] at h
  omega

/-- The recovery of a domain is noted as running. -/
def recovering (s : State) (d : Dom) : State :=
  { s with faults := { s.faults with queued := [], running := [(d.1, d.2 + 1)], since := tput s.faults.since d.1 (mono s) } }

theorem startRecovery_quiet (hq : Quiet s) (d : Dom) (cause : Nat) : startRecovery s d cause = recoveryAction (logRecovery (recovering s d) d 0) d cause := by
  obtain ⟨hr, hu, -, -⟩ := hq
  unfold startRecovery
  simp only [hr, hu, List.map_nil, List.flatten_nil, List.filter_nil, List.foldl_nil]
  exact Eq.refl _

theorem fault_quiet (hq : Quiet s) (d : Dom) (cause : Nat) : fault s d cause = recoveryAction (logRecovery (recovering s d) d 0) d cause := by
  obtain ⟨hr, hu, -, hs⟩ := id hq
  rw [← startRecovery_quiet hq]
  unfold fault faultAt
  rw [if_neg (by rw [hs]; simp [hq.alive])]
  simp only [runningDoms, hr, hu, List.map_nil, List.filter_nil, List.any_nil, tfind, tget]
  simp

/-- The recovery runs. -/
theorem recovering_running (d : Dom) (e : Nat) : (logRecovery (recovering s d) d e).faults.running = [(d.1, d.2 + 1)] := logRecovery_calm.running

theorem coreWatchdog_fences {s : State} {cluster core v : Nat} (hq : Quiet s) (hc : cluster < 64) (hk : core < 68) (hl : coreLive s (68 * cluster + core) = true)
    (hv : servedBy s (68 * cluster + core) = some v) (hw : watchdogRuns s v = true) (ht : 8 * watchdogNs s ≤ tget s.cores.watch v 0) :
    Gives (.coreWatchdog cluster core none) s fun u => 68 * cluster + core ∈ u.cores.fenced ∧
      u.flash = { s.flash with writing := s.flash.writing ++ [.fence (68 * cluster + core)] } := by
  have hx : exec (.coreWatchdog cluster core none) s =
      .next (fault (logCore s 0x12 (68 * cluster + core) 0 0 0) (0, 68 * cluster + core) 0x12) := by
    show execCoreWatchdog cluster core none s = _
    unfold execCoreWatchdog
    rw [if_neg (by simp [hl]; omega)]
    simp only [hv]
    exact if_pos ⟨hw, ht⟩
  have hf : 68 * cluster + core ∉ s.cores.fenced := by
    unfold coreLive at hl
    rw [hq.1] at hl
    simp only [tfind, Bool.and_eq_true, Bool.or_eq_true, decide_eq_true_eq] at hl
    exact hl.1.2.resolve_right nofun
  refine ⟨_, hx, ?_⟩
  rw [fault_quiet (show Quiet (logCore s 0x12 (68 * cluster + core) 0 0 0) from hq.logErr _)]
  have hlog : Within [.fresh, .bar, .mem, .faults, .trace] s
      (logRecovery (recovering (logCore s 0x12 (68 * cluster + core) 0 0 0) (0, 68 * cluster + core)) (0, 68 * cluster + core) 0) :=
    logRecovery_within.after (.faults (logErr_within.after .rfl))
  have h := fenceCore_spec (cause := 0x12) (show 68 * cluster + core ∉ (logRecovery (recovering (logCore s 0x12 (68 * cluster + core) 0 0 0)
    (0, 68 * cluster + core)) (0, 68 * cluster + core) 0).cores.fenced by rw [show _ = s.cores from hlog.same .cores (by decide)]; exact hf)
  rw [show (logRecovery _ _ _).flash = s.flash from hlog.same .flash (by decide)] at h
  exact h

theorem coreSramError_counts {s : State} {cluster core : Nat} (hc : cluster < 64) (hk : core < 68) (hl : coreLive s (68 * cluster + core) = true)
    (ht : rf s CF_CFG 0 8 = 0) :
    Gives (.coreSramError cluster core 3 false) s fun u => (tget u.cores.ce (68 * cluster + core) []).length =
      ((tget s.cores.ce (68 * cluster + core) []).filter (fun t => decide (mono s < t + 86400000000000))).length + 1 ∧ u.mem = s.mem := by
  have hx : exec (.coreSramError cluster core 3 false) s = .next (logCore (countCe s (68 * cluster + core)).2 0x10 (68 * cluster + core) 0 3
      (countCe s (68 * cluster + core)).1) := by
    show execCoreSramError cluster core 3 false s = _
    unfold execCoreSramError
    rw [if_neg (by simp [hl]; omega)]
    have h0 : rf (countCe s (68 * cluster + core)).2 CF_CFG 0 8 = 0 := ht
    simp [h0]
  refine ⟨_, hx, ?_, logErr_within.same .mem (by decide)⟩
  rw [show (logCore (countCe s (68 * cluster + core)).2 0x10 (68 * cluster + core) 0 3 (countCe s (68 * cluster + core)).1).cores = _ from
    logErr_within.same .cores (by decide)]
  unfold countCe
  rw [show ∀ xs : List Nat, tget (tset s.cores.ce (68 * cluster + core) xs []) (68 * cluster + core) [] = xs from fun _ => tget_tset_same _ _ _ _]
  simp

theorem clusterFault_recovers {s : State} {cluster : Nat} {failed : List Nat} (hc : cluster < 64) (hq : Quiet s) :
    Gives (.clusterFault cluster true failed) s fun u => tget u.faults.running 1 0 = cluster + 1 := by
  have hs : serving s = true := hq.2.2.2
  have hx : ∃ x, Quiet x ∧ exec (.clusterFault cluster true failed) s = .next (fault x (1, cluster) 0x14) := by
    refine ⟨_, ?_, show execClusterFault cluster true failed s = _ from if_neg (by simp [hs]; omega)⟩
    exact hq.logErr _
  obtain ⟨x, hqx, hx⟩ := hx
  refine ⟨_, hx, ?_⟩
  rw [fault_quiet hqx]
  show tget (logRecovery (recovering x (1, cluster)) (1, cluster) 0).faults.running 1 0 = _
  rw [recovering_running]
  rfl

/-! ## Stacks, ports, the device -/

theorem storedState_set (s : State) (v : Nat) : storedState (setDevState s v) = v % 8 := rf_wf_same _ _ _ _ _ (by omega)

theorem holdPcs_mem (s : State) (pcs : List Nat) (why : Nat) :
    (holdPcs s pcs why).mem.held = s.mem.held.filter (fun h => decide (h.1 ∉ pcs)) ++ pcs.map (fun p => (p, why)) := by
  have hf : ∀ (l : List Nat) (x : State), (l.foldl (fun s p => setEngine s p { getEngine s p with openRow := [] }) x).mem.held = x.mem.held := by
    intro l
    induction l with
    | nil => exact fun _ => rfl
    | cons p l ih => exact fun x => ih _
  unfold holdPcs
  dsimp only
  rw [show ∀ x : State, (noteHolds x).mem = x.mem from fun x => noteHolds_within.same .mem (by decide)]
  dsimp only
  rw [hf]

theorem pcHeld_of_mem {s : State} {pc : Nat} {why : Nat} (h : (pc, why) ∈ s.mem.held) : pcHeld s pc = true :=
  List.any_eq_true.mpr ⟨_, h, beq_self_eq_true _⟩

/-- A stack whose pseudo-channels are held: its flags follow, and the device recovers. -/
def stackDown (s : State) (k : Nat) : State :=
  let s := if devState s = 5 then s else { s with faults := { s.faults with before := storedState s } }
  setDevState (retrainFlags s k) 5

theorem stackDown_spec (s : State) (k : Nat) : (stackDown s k).faults.running = s.faults.running ∧ storedState (stackDown s k) = 5 ∧ (stackDown s k).mem = s.mem := by
  unfold stackDown
  dsimp only
  split
  · exact ⟨rfl, storedState_set _ _, rfl⟩
  · exact ⟨rfl, storedState_set _ _, rfl⟩

theorem stackRecovery_eq (y : State) (k cause : Nat) :
    recoveryAction y (3, k) cause = stackDown (holdPcs ((progsOn y k).foldl abortProgram y) ((List.range 64).map (64 * k + ·)) 3) k := rfl

theorem stackFault_recovers {s : State} {k : Nat} {training : Bool} (hk : k < stackCount s) (hq : Quiet s) :
    Gives (.stackFault k training) s fun u => tget u.faults.running 3 0 = k + 1 ∧ storedState u = 5 ∧ ∀ i, i < 64 → pcHeld u (64 * k + i) = true := by
  have hs : serving s = true := hq.2.2.2
  have hx : ∃ x, Quiet x ∧ exec (.stackFault k training) s = .next (fault x (3, k) 0x05) := by
    refine ⟨_, ?_, show execStackFault k training s = _ from if_neg (by simp [hs]; omega)⟩
    split
    · exact hq.logErr _
    · exact hq
  obtain ⟨x, hqx, hx⟩ := hx
  refine ⟨_, hx, ?_⟩
  rw [fault_quiet hqx]
  have hrun := recovering_running (s := x) (3, k) 0
  generalize logRecovery (recovering x (3, k)) (3, k) 0 = y at hrun
  have hp : Calm y ((progsOn y k).foldl abortProgram y) := .foldl (fun _ _ => abortProgram_calm) .rfl
  have hf : (holdPcs ((progsOn y k).foldl abortProgram y) ((List.range 64).map (64 * k + ·)) 3).faults.running = [(3, k + 1)] := by
    rw [show (holdPcs _ _ 3).faults = _ from holdPcs_within.same .faults (by decide), hp.running, hrun]
  rw [stackRecovery_eq]
  obtain ⟨h1, h2, h3⟩ := stackDown_spec (holdPcs ((progsOn y k).foldl abortProgram y) ((List.range 64).map (64 * k + ·)) 3) k
  refine ⟨by rw [h1, hf]; rfl, h2, fun i hi => pcHeld_of_mem (why := 3) ?_⟩
  rw [h3, holdPcs_mem]
  exact List.mem_append_right _ (List.mem_map.mpr ⟨64 * k + i, List.mem_map.mpr ⟨i, List.mem_range.mpr hi, rfl⟩, rfl⟩)

theorem portRecovery_eq (y : State) (p cause : Nat) : recoveryAction y (4, p) cause = notePaths (wf y (FAB_PORT_LINK p) 2 8 0) := by
  unfold recoveryAction
  rfl

theorem portFault_recovers {s : State} {p : Nat} (hp : p < ports s ∨ p = 4) (hq : Quiet s) :
    Gives (.portFault p) s fun u => tget u.faults.running 4 0 = p + 1 ∧ rf u (FAB_PORT_LINK p) 2 8 = 0 := by
  have hs : serving s = true := hq.2.2.2
  have hn : ports s ≤ 4 := by unfold ports; split <;> omega
  refine ⟨_, show execPortFault p s = _ from if_neg (by simp [hs]; omega), ?_⟩
  rw [fault_quiet hq]
  have hrun := recovering_running (s := s) (4, p) 0
  generalize logRecovery (recovering s (4, p)) (4, p) 0 = y at hrun
  refine ⟨?_, ?_⟩
  · show tget y.faults.running 4 0 = _
    rw [hrun]
    rfl
  · rw [portRecovery_eq]
    exact (rf_of_within notePaths_within _ _ _).trans (rf_wf_same _ _ _ _ _ (by omega))

/-- Jobs and commands are dropped: no recovery, no state changes. -/
theorem dropped_calm (st : Cmd → W16) : Calm s (completeAll (dropJobs s) st) := completeAll_calm.after dropJobs_calm

/-- The commands' fetch stops, and the device recovers. -/
def halted (s : State) : State :=
  let s := { s with host := { s.host with fetchStopped := true } }
  let s := if devState s = 5 then s else { s with faults := { s.faults with before := storedState s } }
  setDevState s 5

theorem halted_spec (s : State) : (halted s).faults.running = s.faults.running ∧ storedState (halted s) = 5 ∧ (halted s).host.fetchStopped = true := by
  unfold halted
  dsimp only
  split
  · exact ⟨rfl, storedState_set _ _, rfl⟩
  · exact ⟨rfl, storedState_set _ _, rfl⟩

theorem deviceRecovery_eq {y : State} (ht : twinState y ≠ 2) (cause : Nat) : recoveryAction y (5, 0) cause = halted (completeAll (dropJobs y) (fun _ => 0x0205)) := by
  have hb : (twinState y == 2) = false := beq_false_of_ne ht
  unfold recoveryAction halted
  simp only [hb, Bool.false_and, Bool.false_eq_true, if_false]

theorem deviceRecovery_spec {y : State} (hrun : y.faults.running = [(5, 1)]) (ht : twinState y ≠ 2) (cause : Nat) :
    tget (recoveryAction y (5, 0) cause).faults.running 5 0 = 1 ∧ storedState (recoveryAction y (5, 0) cause) = 5 ∧
      (recoveryAction y (5, 0) cause).host.fetchStopped = true := by
  rw [deviceRecovery_eq ht]
  obtain ⟨h1, h2, h3⟩ := halted_spec (completeAll (dropJobs y) (fun _ => 0x0205))
  refine ⟨?_, h2, h3⟩
  rw [h1, (dropped_calm _).running, hrun]
  rfl

theorem twinState_calm (h : Calm s t) : twinState t = twinState s :=
  congrArg (fun x : W32 => x.toNat / 2 ^ 0 % 2 ^ 2) (h.reg TWIN_STATE (by unfold Noisy TWIN_STATE; omega))

theorem deviceFault_recovers {s : State} {code : W32} (hq : Quiet s) (ht : twinState s ≠ 2) :
    Gives (.deviceFault code) s fun u => tget u.faults.running 5 0 = 1 ∧ storedState u = 5 ∧ u.host.fetchStopped = true := by
  have hs : serving s = true := hq.2.2.2
  have hx : ∃ x c, Quiet x ∧ twinState x ≠ 2 ∧ exec (.deviceFault code) s = .next (fault x (5, 0) c) := by
    by_cases hte : s.faults.tableError = true
    · refine ⟨{ s with faults := { s.faults with tableError := false } }, 0x02, hq, ht, ?_⟩
      show execDeviceFault code s = _
      unfold execDeviceFault settleTables
      simp [hs, hte]
    · refine ⟨logErr s { cls := 0x32, detail := code.toNat }, 0x32, hq.logErr _, by rw [twinState_calm logErr_calm]; exact ht, ?_⟩
      show execDeviceFault code s = _
      unfold execDeviceFault
      simp [hs, hte]
  obtain ⟨x, c, hqx, htx, hx⟩ := hx
  refine ⟨_, hx, ?_⟩
  rw [fault_quiet hqx]
  refine deviceRecovery_spec (recovering_running (s := x) (5, 0) 0) ?_ c
  rw [twinState_calm logRecovery_calm]
  exact htx

/-- Settles O31: nothing recovering, a fault is the first row of R364's table that starts a recovery; bookkeeping on the way leaves it running. -/
theorem faultRows : Obligations.FaultRows :=
  ⟨fun _ _ _ _ hq hc hk hl hv hw ht => coreWatchdog_fences hq hc hk hl hv hw ht,
    fun _ _ _ hc hk hl ht => coreSramError_counts hc hk hl ht,
    fun _ _ _ hc hq => clusterFault_recovers hc hq,
    fun _ _ _ hk hq => stackFault_recovers hk hq,
    fun _ _ hp hq => portFault_recovers hp hq,
    fun _ _ hq ht => deviceFault_recovers hq ht⟩

end Sys2Proof.Claims
end
